-- ==== Sys2Proof/Word.lean ====
section
/-! DEFINITION. The words of the machine (01 R10 to R12): bytes, 16-, 32- and 64-bit words, identities and the
little-endian splitting of a number into bytes. -/
namespace Sys2Proof

/-- One byte. -/
abbrev Byte := BitVec 8
/-- A 16-bit word. -/
abbrev Half := BitVec 16
/-- A 32-bit register (R13). -/
abbrev Word := BitVec 32
/-- A 64-bit register (R13). -/
abbrev DWord := BitVec 64

/-- The `n` little-endian bytes of a number (R12). -/
def leBytes : Nat → Nat → List Byte
  | 0, _ => []
  | n + 1, v => BitVec.ofNat 8 v :: leBytes n (v / 256)

/-- The number a little-endian byte list stands for (R12). -/
def leNat : List Byte → Nat
  | [] => 0
  | b :: bs => b.toNat + 256 * leNat bs

end Sys2Proof
end

