-- ==== Sys2Proof/Syntax.lean ====
section
/-! DEFINITION. The commands of the block: one constructor per row of spec/opcode_table.json, with the operands the
row's rule gives it, and the records those operands carry. -/
namespace Sys2Proof

/-- A submission entry as fetched (R112), the opcode apart, and the SQ that carried it. -/
structure Entry where
  sq     : Fin 16
  flags  : Byte
  swatch : Byte
  cmdId  : Half
  rsv    : Half
  /-- bytes 8 to 63 -/
  params : Vector Byte 56
deriving DecidableEq, Repr

/-- A submission entry as the primary relays it to the twin secondary (R106), with the scope of the ring that carried it: a
swatch of the secondary, or 0xF for its management (log 141). -/
structure RelayEntry where
  entry : Entry
  scope : Fin 16
deriving DecidableEq, Repr

/-- A ring: submission ring i or completion ring j (05). -/
inductive RingId
  | sq (i : Fin 16)
  | cq (j : Fin 16)
deriving DecidableEq, Repr

/-- Credits per class, headers then granules (R53). -/
structure Credits where
  reqH : Nat
  reqD : Nat
  msgH : Nat
  msgD : Nat
  plyH : Nat
  plyD : Nat
deriving DecidableEq, Repr

/-- The fields of a transaction header (R49) and the port it travels on. ADDR is a byte address in a request and
the status code in a response. -/
structure TxnHead where
  port   : Fin 10
  tag    : Fin 2048
  len    : Fin 4
  prio   : Fin 4
  poison : Bool
  addr   : BitVec 40
deriving DecidableEq, Repr

/-- Hem wake sources (R60). -/
inductive HemSource | gpio | soundwire | outerChain
deriving DecidableEq, Repr

/-- A register access: a read, a write of a word, or a read or a write of any other size than 32 bits (R13). -/
inductive RegAccess
  | read
  | write (v : Word)
  | oddRead
  | oddWrite
deriving DecidableEq, Repr

/-- Temperature readings of one sample (R527): physical skeins, stacks, Shuskaub, in signed °C. -/
structure Readings where
  skeins : Vector Half 20
  stackT : Vector Half 4
  shus   : Half
deriving DecidableEq, Repr

/-- Vector lane types (R276, major numbers 0x10 to 0x13). -/
inductive VType | int32 | fp32 | fp16 | bf16
deriving DecidableEq, Repr

/-- The P, N and PR fields of an R-format instruction (R274). -/
structure Pred where
  on  : Bool
  inv : Bool
  pr  : Fin 8
deriving DecidableEq, Repr

/-- Compare kinds of PRED (R537). -/
inductive CmpKind | signed | unsigned | fp32
deriving DecidableEq, Repr

/-- The fields of a CAST pair (R303); LFMT as encoded, 3 illegal. -/
structure CastOps where
  unit  : Fin 16
  ra    : Fin 32
  rb    : Fin 32
  rs    : Fin 32
  shape : Fin 4
  lfmt  : Fin 4
  log2Chunk : Fin 16
  rfs   : Bool
deriving DecidableEq, Repr

/-- The fields of an MMA pair (R303). -/
structure MmaOps where
  unit  : Fin 16
  ra    : Fin 32
  rb    : Fin 32
  rs    : Fin 32
  afmt  : Fin 16
  bfmt  : Fin 16
  scale : Fin 4
  kq    : Fin 1024
  fwdA  : Bool
  fwdB  : Bool
  fwdCh : Byte
deriving DecidableEq, Repr

/-- The fields of a BIND pair (R303). -/
structure BindOps where
  unit   : Fin 16
  ra     : Fin 32
  rb     : Fin 32
  rs     : Fin 32
  fuse   : Fin 4
  side   : Bool
  carder : Fin 2
  slot   : Byte
deriving DecidableEq, Repr

/-- Who issued a mesh packet: needle k or mover m of its source skein, the swatch's granted distaff core, or the
firmware (R242). -/
inductive Issuer
  | needle (k : Fin 6)
  | mover (m : Fin 2)
  | core (d : Fin 4)
  | firmware
deriving DecidableEq, Repr

/-- A mesh packet's header: source and destination skein, swatch, issuer, and the number that ties an answer to its
request (R241, R244). -/
structure PktHead where
  src    : Fin 16
  dst    : Fin 16
  swatch : Fin 8
  issuer : Issuer
  id     : Nat
deriving DecidableEq, Repr

/-- Flag operations on the wire (R249). -/
inductive FlagKind | set | add | waitGe | waitEq
deriving DecidableEq, Repr

/-- Where a fixed-tree contribution comes from (R247). -/
inductive TreeDir | here (k : Fin 6) | west | east | north | south
deriving DecidableEq, Repr

/-- The fields of a fixed-tree contribution (R246, R285), with the shift and the SAT_EXHAUSTED it carries (R338). -/
structure TreeHead where
  reduce  : Fin 16
  inst    : Nat
  fmt     : Fin 3
  members : BitVec 16
  offset  : BitVec 22
  dir     : TreeDir
  shift   : Fin 9
  sat     : Bool
deriving DecidableEq, Repr

/-- Who makes a register access: the host through a function's BAR2 or BAR0, a needle, a distaff core, the firmware
(DEBUG_READ_REG among it) or JTAG. -/
inductive Agent
  | host (fn : Fin 2)
  | needle (n : Fin 96)
  | core (d : Fin 4)
  | firmware
  | jtag
deriving DecidableEq, Repr

/-- The values a host-facing function presents in configuration space (R40, R44, R47). -/
inductive CfgItem
  | vendorId | deviceId | classCode | revisionId | subsystemVendor | subsystemId
  /-- bits 0 to 6: PCI Express, power management, MSI-X, AER, device serial number, resizable BAR, DVSEC -/
  | capabilities
  /-- bits 0 to 3: D0, D3hot, No_Soft_Reset, PME (R47) -/
  | powerCap
  /-- the power state: 0 D0, 3 D3hot -/
  | powerState
  | serialLow | serialHigh
  /-- the resizable-BAR size field of BAR4 (R44): 2^(20 + value) bytes -/
  | bar4Size
  /-- the sizes it offers: bit n for 2^(20 + n) bytes -/
  | bar4Sizes
  /-- vendor [15:0] and ID [31:16] of the DVSEC -/
  | dvsecHeader
  /-- a field of the assembly code, in ASCII: `XN`, a `H`, b `S`, c, d `I`, `T` -/
  | dvsecCode (field : Fin 8)
  /-- bit 0 PRIMARY, [15:8] the chain address of the die -/
  | dvsecDie
  /-- max payload [bytes] -/
  | maxPayload
  /-- bits of a tag -/
  | tagBits
  /-- function-level reset supported -/
  | flr
deriving DecidableEq, Repr

/-- Where a register access goes: a yarn address, an offset in a function's BAR0 (R41), or an item of its configuration
space (R40). -/
inductive RegSpace
  | yarn (addr : BitVec 48)
  | bar0 (fn : Fin 2) (off : Half)
  | config (fn : Fin 2) (item : CfgItem)
deriving DecidableEq, Repr

/-- A carder: m of skein s, or of edge port p (R360). -/
inductive CarderId
  | skein (s : Fin 16) (m : Fin 2)
  | edge (p : Fin 10)
deriving DecidableEq, Repr

/-- A function with an EN bit (R99). -/
inductive FuncId
  | bobbin (b : Fin 48)
  | view (p : Fin 10) (v : Fin 4)
deriving DecidableEq, Repr

/-- Who accesses a carded view (R369). -/
inductive ViewUser
  | needle (n : Fin 96)
  | core (d : Fin 4)
deriving DecidableEq, Repr

/-- Classes of a read slot (R439). -/
inductive SlotClass | none | single | double | edge
deriving DecidableEq, Repr

/-- Outcome of the header ECC of a CSI-2 packet (R418). -/
inductive EccResult | ok | corrected | failed
deriving DecidableEq, Repr

/-- Operations of the atomic memory instructions of the A extension (R390). -/
inductive AmoKind | swap | add | xor | and | or | min | max | minu | maxu
deriving DecidableEq, Repr

/-- One effect of a standard RV64GCV instruction, as the RISC-V standards give it (R390; log 14): addresses are physical,
which is to say yarn addresses. -/
inductive DstOp
  | writeX (rd : Fin 32) (v : DWord)
  | writeF (rd : Fin 32) (v : DWord)
  | writeV (rd : Fin 32) (v : BitVec 256)
  | writeCsr (csr : BitVec 12) (v : DWord)
  /-- a CSR read-and-write: the old value goes to rd -/
  | swapCsr (rd : Fin 32) (csr : BitVec 12) (v : DWord)
  | load (rd : Fin 32) (size : Fin 4) (signed : Bool) (addr : DWord)
  | loadF (rd : Fin 32) (wide : Bool) (addr : DWord)
  /-- bytes of vector registers from rd upward: offset in them, address, length -/
  | loadV (rd : Fin 32) (off : Nat) (addr : DWord) (len : Nat)
  | store (size : Fin 4) (addr : DWord) (v : DWord)
  | storeV (addr : DWord) (bytes : List Byte)
  | amo (rd : Fin 32) (wide : Bool) (kind : AmoKind) (addr : DWord) (v : DWord)
  /-- an instruction fetch at an address the core may not read -/
  | fetchRefused (addr : DWord)
  /-- load-reserved and store-conditional of 4 or 8 bytes -/
  | lr (rd : Fin 32) (wide : Bool) (addr : DWord)
  | sc (rd : Fin 32) (wide : Bool) (addr : DWord) (v : DWord)
  /-- traps into machine or supervisor mode with a cause and value, and the returns from them -/
  | trap (toS : Bool) (cause tval : DWord)
  | mret
  | sret
deriving DecidableEq, Repr

/-- The commands (spec/opcode_table.json, in its order). -/
inductive Instr where
  /-- SELVAGE_POWER_GOOD (R68): A rising edge of SPWROK starts the nine-step start-up sequence of the primary Lumaz. -/
  | selvagePowerGood
  /-- SPWROK_FALL (R524): SPWROK falling stops the spindle, ends eMRAM and OTP writes at a covered step, and parks the outputs. -/
  | spwrokFall
  /-- RAIL_OUT_OF_TOLERANCE (R525): A rail out of tolerance for more than 10 µs while SPWROK is high acts as SPWROK falling. -/
  | railOutOfTolerance
  /-- SECONDARY_IMAGE_WAIT_END (R79): A twin secondary verifies the image the primary wrote into its SRAM, then runs its steps 5 to 8. -/
  | secondaryImageWaitEnd (image : List Byte)
  /-- BOOT_SOURCE_TIMEOUT (R74): A boot source that misses its sideband, first-data or whole-image limit fails, and the ROM tries the next source. -/
  | bootSourceTimeout
  /-- BOOT_READ (R75): A boot-channel READ asks the source for image bytes. -/
  | bootRead
  /-- BOOT_DATA (R75): A DATA piece of a READ arrives; after the last piece the image is verified and accepted or the source fails. -/
  | bootData (seq : Half) (data : Vector Byte 8)
  /-- STATUS_REQ (R75): A far side's STATUS_REQ is answered with a STATUS message. -/
  | statusReq (port : Fin 10)
  /-- OFFER (R78): A host OFFER makes a ROM that holds no image fetch and verify the offered image, then continue from step 4. -/
  | offer (port : Fin 10) (size : Word)
  /-- SIDEBAND_UP (R61): A port's sideband comes up and the port sends ROLE_ANNOUNCE. -/
  | sidebandUp (port : Fin 10)
  /-- SB_INIT_TIMEOUT (R61): A sideband not up within 2 ms sets MISMATCH and takes the port DOWN. -/
  | sbInitTimeout (port : Fin 10)
  /-- ROLE_ACK (R35): The far side's ROLE_ACK confirms or mismatches the port's role. -/
  | roleAck (port : Fin 10) (dieClass : BitVec 3) (primary : Bool)
  /-- ROLE_CHECK_TIMEOUT (R35): After 1 ms without a confirming answer, a HOST port is confirmed by parameter exchange and any other port goes DOWN with MISMATCH. -/
  | roleCheckTimeout (port : Fin 10) (pcieFlit : Bool)
  /-- MB_TRAINING_DONE (R38): Mainband training ends and the rate and module count decide ACTIVE, DEGRADED or DOWN. -/
  | mbTrainingDone (port : Fin 10) (rate0 rate1 : BitVec 2) (repair : Half)
  /-- PORT_TRAINING_DEADLINE (R62): A port not ACTIVE or DEGRADED at 30 ms after the anchor, or 25 ms after SREF exit, is DOWN. -/
  | portTrainingDeadline (port : Fin 10)
  /-- CREDIT_INIT (R53): The received credit advertisement loads the credits and the port enters ACTIVE. -/
  | creditInit (port : Fin 10) (credits : Credits)
  /-- PCIE_LINK_UP (R61): PCIe link-up brings a HOST port from CREDIT_INIT to ACTIVE. -/
  | pcieLinkUp (port : Fin 10)
  /-- FLIT_RECEIVED (R56): A raw-mode flit is checked for CRC and order; a bad flit is dropped and answered with NAK. -/
  | flitReceived (port : Fin 10) (flit : Vector Byte 256)
  /-- ACK_TIMER (R56): An ACK is sent at least every 16 flits or every 100 ns while flits are outstanding. -/
  | ackTimer (port : Fin 10)
  /-- NAK_RECEIVED (R56): A received NAK makes the sender replay from ASEQ + 1 and counts a retry. -/
  | nakReceived (port : Fin 10) (aseq : BitVec 10)
  /-- RETRY_LIMIT_CROSSED (R57): Retries above EDGE_RETRY_LIMIT in one interval start a retrain with lane repair at the present rate. -/
  | retryLimitCrossed (port : Fin 10)
  /-- RETRY_INTERVAL_END (R57): Each fixed 1 ms interval ends and the port's retry tally restarts at 0. -/
  | retryIntervalEnd (port : Fin 10)
  /-- LANE_REPAIR_DONE (R57): The run-time repair ends, the retry buffer is replayed and the port resumes in ACTIVE or DEGRADED. -/
  | laneRepairDone (port : Fin 10) (modules : BitVec 2) (repair : Half) (spike : Word)
  /-- RETRAIN_TIMEOUT (R58): A retrain unfinished at 20 µs takes the module down, leaving the port DEGRADED or DOWN with the port-loss actions. -/
  | retrainTimeout (port : Fin 10) (modules : BitVec 2)
  /-- STACK_PORT_REROUTE (R59): After draining the affected port, Lumaz applies the slice routing that the new port states call for. -/
  | stackPortReroute (stack : Fin 4)
  /-- RD (R50): A read request for LEN + 1 granules arrives at a port. -/
  | rd (h : TxnHead)
  /-- WR (R50): A write of full granules arrives at a port. -/
  | wr (h : TxnHead) (data : List Byte)
  /-- WR_MASK (R50): A masked write arrives at a port. -/
  | wrMask (h : TxnHead) (mask : Vector Byte 32) (data : List Byte)
  /-- ATOM_ADD (R63): An element-wise atomic add arrives and is applied in arrival order with the stated rounding. -/
  | atomAdd (h : TxnHead) (subop : Fin 8) (data : List Byte)
  /-- RD_REG (R50): A 4-byte register read arrives over a SHUS or TWIN port. -/
  | rdReg (h : TxnHead) (fw : Bool)
  /-- WR_REG (R50): A 4-byte register write arrives over a SHUS or TWIN port. -/
  | wrReg (h : TxnHead) (fw : Bool) (granule : Vector Byte 32)
  /-- RD_RSP (R50): Read data returns and is matched to its request by TAG. -/
  | rdRsp (h : TxnHead) (data : List Byte)
  /-- WR_ACK (R55): A write, atomic or register write is acknowledged as visible. -/
  | wrAck (h : TxnHead)
  /-- ERR_RSP (R50): A failure response ends a request as uncorrectable, out of range or unsupported. -/
  | errRsp (h : TxnHead)
  /-- PLY (R254): A ply-chain transfer arrives over a TWIN port and is credited only for a matching chain end of the same tenant. -/
  | ply (h : TxnHead) (data : List Byte)
  /-- UNKNOWN_MESSAGE (R60): A message with an unlisted code is ignored and counted in EDGE_EVENTS.UNKNOWN_MSG. -/
  | unknownMessage (port : Fin 10) (code : Half)
  /-- SREF_ACK (R61): The base die's SREF_ACK takes the port into SLEEP, or into full training after an exit. -/
  | srefAck (port : Fin 10)
  /-- SREF_ACK_TIMEOUT (R386): A missing SREF_ACK is resent once, and a second silence marks the stack lost. -/
  | srefAckTimeout (port : Fin 10)
  /-- HEM_EVENT (R60): A hem wake source is reported, and in Selvage with AUTO_SENTINEL set it requests Sentinel. -/
  | hemEvent (source : HemSource)
  /-- TEMP (R527): A stack's temperature message updates STK_TEMP and feeds the thermal limits. -/
  | temp (port : Fin 10) (celsius : Half)
  /-- ECC_CORR (R383): A base die reports corrected errors, which count in STK_ECC_CORR. -/
  | eccCorr (port : Fin 10) (count : Half) (offset : BitVec 40)
  /-- ECC_UNCORR (R383): A base die reports an uncorrectable error at a stack offset. -/
  | eccUncorr (port : Fin 10) (offset : BitVec 40)
  /-- SHUS_TICK (R416): The TICK message to Shuskaub makes bobbins publish and realigns the hem's device time. -/
  | shusTick (row : DWord)
  /-- IRQ (R60): Lumaz asks Shuskaub to signal an MSI-X vector on its PCIe endpoint. -/
  | irq (vector : Fin 64)
  /-- TWIN_TICK (R182): The primary's TICK makes the secondary run its tick commit actions. -/
  | twinTick (row : DWord)
  /-- TICK_DONE (R65): The secondary's commit actions are done, and the primary may post that row's twin completions. -/
  | tickDone (row : DWord)
  /-- TWIN_WINDOW (R66): A twin window is registered after a range check, or released with its twin-held pages zeroed and freed. -/
  | twinWindow (sender : Fin 8) (base size : BitVec 48) (kind : Fin 4) (rights : BitVec 3)
  /-- TWIN_CHAIN (R254): A twin ply-chain end with its tenant is announced or withdrawn. -/
  | twinChain (chain : Byte) (position : BitVec 12) (swatch : Fin 8) (tenant : Byte) (withdraw : Bool)
  /-- RELAY_CMD (R106): A submission entry is relayed to the secondary, which checks and runs it. -/
  | relayCmd (opcode : Half) (e : RelayEntry)
  /-- RELAY_RSP (R106): The secondary's completion or event is posted by the primary with TWIN set. -/
  | relayRsp (entry : Vector Byte 64) (sq : Fin 16) (event : Bool)
  /-- FUNCTION_LEVEL_RESET (R46): A function-level reset returns the function's ring state, revokes host grants, holds host-window swatches and stops host-ring bobbins. -/
  | functionLevelReset (fn : Fin 2)
  /-- HOT_RESET (R46): A hot reset of a host-facing function acts as R46 states. -/
  | hotReset (fn : Fin 2)
  /-- HOST_LINK_DOWN (R46): A link-down of a HOST port acts on its function as R46 states. -/
  | hostLinkDown (port : Fin 10)
  /-- FUNCTION_RESET_COMPLETE (R46): The function reset completes within 10 ms, which clears the HOST_RESET hold cause. -/
  | functionResetComplete (fn : Fin 2)
  /-- D3HOT_ENTRY (R47): Entry to D3hot stops the function's requests, holds its host-window swatches and stops its host-ring bobbins. -/
  | d3hotEntry (fn : Fin 2)
  /-- D0_RETURN (R47): Return to D0 posts the held entries and signals pending unmasked vectors. -/
  | d0Return (fn : Fin 2)
  /-- MSIX_UNMASK (R388): An MSI-X unmasking write takes effect after earlier BAR4 writes and signals a pending vector. -/
  | msixUnmask (fn : Fin 2) (vector : Fin 64)
  /-- BAR2_ACCESS (R43): A BAR2 access reaches its register only if the block is granted to that function, else it is refused and counted. -/
  | bar2Access (fn : Fin 2) (offset : BitVec 24) (acc : RegAccess)
  /-- BAR4_READ (R387): A BAR4 read is served, refused with all 0xFF, or poisoned under the host-scope rules. -/
  | bar4Read (fn : Fin 2) (offset : BitVec 37) (len : Nat)
  /-- BAR4_WRITE (R387): A BAR4 write is served, or dropped and counted under the host-scope rules. -/
  | bar4Write (fn : Fin 2) (offset : BitVec 37) (data : List Byte)
  /-- SQ_DOORBELL (R116): A submission tail doorbell records the tail and starts fetching, or faults on an out-of-range index. -/
  | sqDoorbell (fn : Fin 2) (ring : Fin 16) (value : Word)
  /-- CQ_DOORBELL (R116): A completion head doorbell frees slots and posts held entries, or faults the ring. -/
  | cqDoorbell (fn : Fin 2) (ring : Fin 16) (value : Word)
  /-- RING_ENABLE (R110): EN := 1 on an SQ or CQ takes its configuration and moves it to RISING, or records a configuration fault. -/
  | ringEnable (fn : Fin 2) (ring : RingId)
  /-- RING_DISABLE (R110): EN := 0 on an ON ring stops new fetching and moves it to FALLING. -/
  | ringDisable (fn : Fin 2) (ring : RingId)
  /-- RING_FRONT_END_READY (R110): A RISING ring becomes ON and acts on any doorbell recorded meanwhile. -/
  | ringFrontEndReady (ring : RingId)
  /-- RING_QUIESCED (R110): A FALLING SQ whose commands have completed, or a FALLING CQ whose SQs are OFF, reaches OFF. -/
  | ringQuiesced (ring : RingId)
  /-- RING_ACCESS_FAULT (R110): A failed ring read or write sets ERROR with FAULT_KIND 3 and stops the ring. -/
  | ringAccessFault (ring : RingId)
  /-- UNDEFINED_OPCODE (R145): An entry whose opcode no table lists is answered INVALID_OPCODE. -/
  | undefinedOpcode (opcode : Half) (e : Entry)
  /-- HOLDOFF_EXPIRY (R119): A CQ's HOLDOFF interval ends and entries posted meanwhile are signalled. -/
  | holdoffExpiry (cq : Fin 16)
  /-- NOP (R146): NOP completes OK. -/
  | nop (e : Entry)
  /-- QUERY_DEVICE (R146): The device status, fault, assembly, map, census, interface version, tick period and row count are returned. -/
  | queryDevice (e : Entry)
  /-- SET_DEVICE_STATE (R90): A device-state transition is requested, run, deferred or refused. -/
  | setDeviceState (e : Entry)
  /-- DEVICE_STATE_TRANSITION_END (R91): A transition ends, its completion is posted and any deferred request is evaluated. -/
  | deviceStateTransitionEnd
  /-- SET_BUDGET (R95): The sustained budget is written, clamped and optionally locked. -/
  | setBudget (e : Entry)
  /-- SET_WAKE (R146): SELV_WAKE is written. -/
  | setWake (e : Entry)
  /-- QUERY_POWER (R146): The power, temperature, Burst, P-point and budget registers are returned. -/
  | queryPower (e : Entry)
  /-- RESTART (R147): A warm restart is accepted and its completion is posted first. -/
  | restart (e : Entry)
  /-- RESTART_BEGIN (R147): 100 µs after the entry is visible, rings go OFF, READY clears and start-up reruns from step 2. -/
  | restartBegin
  /-- FW_UPDATE (R148): An image is verified, then written to a QSPI slot, read back and counted. -/
  | fwUpdate (e : Entry)
  /-- FW_UPDATE_FLASH_DONE (R431): The slot's erase, program and read-back end, or 2 s elapse and the update ends with TIMEOUT. -/
  | fwUpdateFlashDone (ok : Bool)
  /-- SET_BOOT_CTRL (R149): ORDER and FULL_CENSUS are written for the next restart and optionally locked. -/
  | setBootCtrl (e : Entry)
  /-- CAST_SWATCH (R151): A swatch is cast with its rectangle, class and windows after admission and resource checks. -/
  | castSwatch (e : Entry)
  /-- KNIT (R152): A Cast swatch is armed to start a program at the next tick. -/
  | knit (e : Entry)
  /-- STOP_KNIT (R153): The open KNIT of a hard swatch ends after the running row. -/
  | stopKnit (e : Entry)
  /-- HOLD_SWATCH (R195): A swatch is Held at once, then quiesced and saved to its save area. -/
  | holdSwatch (e : Entry)
  /-- HOLD_QUIESCE_TIMEOUT (R195): After the 2 µs wait, pending bind-off confirmations are abandoned and replay-tentative tiles discarded. -/
  | holdQuiesceTimeout (swatch : Fin 8)
  /-- HOLD_SAVE_DONE (R195): The save ends, SAVE_VALID is set, the reply is posted and the skeins power down in Loose. -/
  | holdSaveDone (swatch : Fin 8)
  /-- RESTORE_SWATCH (R198): A Held swatch whose causes have cleared is reloaded from its save area. -/
  | restoreSwatch (e : Entry)
  /-- RESTORE_RELOAD_DONE (R198): The reload ends; loose and free needles continue and hard swatches restart at the next row. -/
  | restoreReloadDone (swatch : Fin 8)
  /-- BIND_OFF_SWATCH (R154): Open work is aborted, drafts are frogged, grants end, bobbins unbind and pages are freed. -/
  | bindOffSwatch (e : Entry)
  /-- BIND_OFF_ZEROING_DONE (R179): Zeroing of the swatch's state ends, the save area is freed and the swatch is Unset. -/
  | bindOffZeroingDone (swatch : Fin 8)
  /-- QUERY_SWATCH (R150): The swatch's state, class, P-point, gauge and counts are returned. -/
  | querySwatch (e : Entry)
  /-- SET_SWATCH_PPOINT (R94): A swatch's P-point is changed by ramping the rail and switching the skein clocks. -/
  | setSwatchPpoint (e : Entry)
  /-- SET_SWATCH_GAUGE (R234): A loose or free swatch's gauge changes from the next tick. -/
  | setSwatchGauge (e : Entry)
  /-- GRANT_DISTAFF (R394): A host-owned core is cleared, granted to the swatch and started at ENTRY. -/
  | grantDistaff (e : Entry)
  /-- RETURN_DISTAFF (R394): A granted core is halted, written back, zeroed and returned halted to the host. -/
  | returnDistaff (e : Entry)
  /-- COMMIT_DRAFT (R212): Ancestor positions and positions 0 to COUNT − 1 of a draft are committed at one instant. -/
  | commitDraft (e : Entry)
  /-- DRAFT_COMMIT_COPIES_DONE (R212): The slot copies end, the slots are freed and the COMMIT_DRAFT reply is posted. -/
  | draftCommitCopiesDone (swatch : Fin 8)
  /-- FROG_DRAFT (R213): Every tentative position of a draft and its descendants is discarded and their slots freed. -/
  | frogDraft (e : Entry)
  /-- QUERY_MEMORY (R156): Stack presence and loss bits, free pages and error counts are returned. -/
  | queryMemory (e : Entry)
  /-- ALLOC_HANKS (R157): Hank pages are allocated and a HANK_ID is given. -/
  | allocHanks (e : Entry)
  /-- FREE_HANKS (R380): An allocation's pages are zeroed and freed or returned to the window's room. -/
  | freeHanks (e : Entry)
  /-- MEM_FILL (R158): A range is checked byte by byte and filled with a pattern. -/
  | memFill (e : Entry)
  /-- MEM_COPY (R158): A range is checked byte by byte and copied as though the whole source were read first. -/
  | memCopy (e : Entry)
  /-- LOAD_PROGRAM (R271): A needle object file is loaded into every skein of the swatch with its store images and firmware copy. -/
  | loadProgram (e : Entry)
  /-- LOAD_STITCH_MAP (R255): A stitch map is checked and takes effect at the row opened by the next tick. -/
  | loadStitchMap (e : Entry)
  /-- LOAD_CARD_PROGRAM (R365): A card program object is written into the named carders. -/
  | loadCardProgram (e : Entry)
  /-- UNLOAD_PROGRAM (R271): A loaded program is removed and its id freed. -/
  | unloadProgram (e : Entry)
  /-- BIND_BOBBIN (R413): A bobbin is bound to a far end and a checked hank ring. -/
  | bindBobbin (e : Entry)
  /-- UNBIND_BOBBIN (R162): A bobbin is stopped if running and unbound, its unpublished frames counted as dropped. -/
  | unbindBobbin (e : Entry)
  /-- RUN_BOBBIN (R421): A bound bobbin is started or stopped through its enable. -/
  | runBobbin (e : Entry)
  /-- QUERY_BOBBIN (R161): Frames published, frames dropped and the last published row are returned. -/
  | queryBobbin (e : Entry)
  /-- QUERY_TICK (R163): The tick period, row count and hard-swatch mask are returned. -/
  | queryTick (e : Entry)
  /-- SET_TICK_PERIOD (R164): A new tick period takes effect at the next tick after admission is rechecked. -/
  | setTickPeriod (e : Entry)
  /-- WAIT_TICK (R164): The command completes at step 4 of the tick of the named row. -/
  | waitTick (e : Entry)
  /-- QUERY_HEALTH (R165): Temperature, droop, aging, port and dropped-stitch figures are returned. -/
  | queryHealth (e : Entry)
  /-- RUN_CENSUS (R498): A quick or full re-census is run when no swatch is cast. -/
  | runCensus (e : Entry)
  /-- READ_MAP (R166): 20 physical-skein records of the map are written. -/
  | readMap (e : Entry)
  /-- PORT_REENABLE (R166): A DOWN port is fully retrained. -/
  | portReenable (e : Entry)
  /-- READ_DISTANCE (R235): The distance table is written. -/
  | readDistance (e : Entry)
  /-- SET_REPAIR_CTRL (R167): AUTO_CENSUS and the repair limits are written and optionally locked. -/
  | setRepairCtrl (e : Entry)
  /-- ATTEST (R476): An attestation report with die proofs and counters is written and signed. -/
  | attest (e : Entry)
  /-- GET_CERTS (R470): The certificate chain is written. -/
  | getCerts (e : Entry)
  /-- ADOPT (R472): A new owner is installed after the adoption block is verified. -/
  | adopt (e : Entry)
  /-- LOAD_TAG_MASTER (R474): A wrapped tag master key is verified, unwrapped and stored. -/
  | loadTagMaster (e : Entry)
  /-- READ_YARDAGE (R478): Yardage counter values are returned. -/
  | readYardage (e : Entry)
  /-- ADD_YARDAGE (R169): A customer counter is raised, saturating. -/
  | addYardage (e : Entry)
  /-- RAISE_SVN (R475): FW_SVN_MIN thermometer bits are programmed in ascending order after an owner-signed request. -/
  | raiseSvn (e : Entry)
  /-- TAG_PROVE (R486): A tag is sent PROVE with a nonce and its CMAC is checked. -/
  | tagProve (e : Entry)
  /-- TAG_INCREMENT (R491): A tag's use counter is proved and raised by the five-step write. -/
  | tagIncrement (e : Entry)
  /-- CHAIN_SEARCH (R452): A search of the outer chain is started when the line is free. -/
  | chainSearch (e : Entry)
  /-- CHAIN_LIST (R171): The list of assigned tag addresses is written. -/
  | chainList (e : Entry)
  /-- CHAIN_PING (R448): A tag is pinged and removed from the list if it does not answer. -/
  | chainPing (e : Entry)
  /-- CHAIN_CONFIG (R444): Speed, mode and search period of the outer chain are set. -/
  | chainConfig (e : Entry)
  /-- QUERY_INNER_CHAIN (R170): The returned and expected count-off numbers are returned. -/
  | queryInnerChain (e : Entry)
  /-- EXPERT_GRANT (R127): A block grant is requested and waits for basic commands on the block. -/
  | expertGrant (e : Entry)
  /-- GRANT_TAKES_EFFECT (R127): After running basic commands end, RW values are recorded and the block is granted. -/
  | grantTakesEffect (block : Half)
  /-- EXPERT_RELEASE (R129): A grant ends, expert work stops and the recorded values are written back. -/
  | expertRelease (e : Entry)
  /-- QUERY_GRANT (R173): The holder of a block is returned. -/
  | queryGrant (e : Entry)
  /-- DEBUG_ECHO (R176): 44 request bytes are echoed. -/
  | debugEcho (e : Entry)
  /-- DEBUG_READ_LOG (R176): Firmware log entries are written and removed from the log. -/
  | debugReadLog (e : Entry)
  /-- DEBUG_READ_REG (R176): Any present register is read, clearing RC fields. -/
  | debugReadReg (e : Entry)
  /-- DEBUG_SET_LOG (R427): The firmware log level is set. -/
  | debugSetLog (e : Entry)
  /-- ROW_TICK (R27): The tick period elapses and the commit actions run in order, then TICK_COUNT advances. -/
  | rowTick
  /-- FROG_DRAIN_DONE (R186): A Frogged swatch's outstanding requests have drained and the next row starts afresh or the KNIT completes. -/
  | frogDrainDone (swatch : Fin 8)
  /-- BUDGET_WINDOW_END (R187): An unfinished hard row at the end of its budget window sets BUDGET_MISS. -/
  | budgetWindowEnd (swatch : Fin 8)
  /-- SWT_PUB_OPEN (R192): Writing OPEN raises the publish gate depth. -/
  | swtPubOpen (swatch : Fin 8)
  /-- SWT_PUB_CLOSE (R192): Writing CLOSE lowers the gate depth, or sets BAD_ACCESS at depth 0. -/
  | swtPubClose (swatch : Fin 8)
  /-- BUDGET_LIMITER (R95): Every 10 ms, package power is compared with the budget and one skein is lowered or raised. -/
  | budgetLimiter (avg1s : Word)
  /-- BURST_WINDOW_END (R96): After 2 s in Burst, P3 skeins drop to P2, energy is counted and recovery starts. -/
  | burstWindowEnd (joules : Nat)
  /-- BURST_POWER_CHECK (R531): Every 1 ms in Burst, a 1 ms average above 62 W lowers one P3 skein. -/
  | burstPowerCheck (avg1ms : Word)
  /-- BURST_RECOVERY_END (R96): RECOVERY_LEFT reaches 0 and Burst may be requested again. -/
  | burstRecoveryEnd
  /-- SENSOR_SAMPLE (R528): Every 100 µs the temperatures are sampled against the Burst, step, critical and trip limits. -/
  | sensorSample (readings : Readings)
  /-- THERMAL_STEP_2_LOWER (R528): Every 1 ms under step 2, the hottest powered skein is lowered one P-point. -/
  | thermalStep2Lower
  /-- THERMAL_STEP_RELEASE (R528): Readings below the release figures for 100 ms end the step. -/
  | thermalStepRelease
  /-- THERMAL_RAISE (R529): After a step 2 release, a lowered skein is raised one P-point every 10 ms. -/
  | thermalRaise
  /-- ILLEGAL_INSTRUCTION (R273): An instruction with an undefined major, FUNC or non-zero write-0 field faults with CAUSE 1. -/
  | illegalInstruction (n : Fin 96)
  /-- ADD (R275): Scalar 64-bit wrapping add. -/
  | add (n : Fin 96) (rd ra rb : Fin 32)
  /-- SUB (R275): Scalar 64-bit wrapping subtract. -/
  | sub (n : Fin 96) (rd ra rb : Fin 32)
  /-- MUL (R275): Scalar multiply giving the low 64 bits. -/
  | mul (n : Fin 96) (rd ra rb : Fin 32)
  /-- MULH (R275): Scalar multiply giving the high 64 bits of the signed product. -/
  | mulh (n : Fin 96) (rd ra rb : Fin 32)
  /-- DIV (R275): Signed scalar division toward zero without faulting. -/
  | div (n : Fin 96) (rd ra rb : Fin 32)
  /-- REM (R275): Signed scalar remainder. -/
  | rem (n : Fin 96) (rd ra rb : Fin 32)
  /-- AND (R275): Scalar bitwise AND. -/
  | and (n : Fin 96) (rd ra rb : Fin 32)
  /-- OR (R275): Scalar bitwise OR. -/
  | or (n : Fin 96) (rd ra rb : Fin 32)
  /-- XOR (R275): Scalar bitwise XOR. -/
  | xor (n : Fin 96) (rd ra rb : Fin 32)
  /-- SHL (R275): Scalar shift left by an amount modulo 64. -/
  | shl (n : Fin 96) (rd ra rb : Fin 32)
  /-- SHR (R275): Scalar logical shift right. -/
  | shr (n : Fin 96) (rd ra rb : Fin 32)
  /-- SRA (R275): Scalar arithmetic shift right. -/
  | sra (n : Fin 96) (rd ra rb : Fin 32)
  /-- SLT (R275): Signed set-less-than. -/
  | slt (n : Fin 96) (rd ra rb : Fin 32)
  /-- SLTU (R275): Unsigned set-less-than. -/
  | sltu (n : Fin 96) (rd ra rb : Fin 32)
  /-- MIN (R275): Signed 64-bit scalar minimum. -/
  | min (n : Fin 96) (rd ra rb : Fin 32)
  /-- MAX (R275): Signed 64-bit scalar maximum. -/
  | max (n : Fin 96) (rd ra rb : Fin 32)
  /-- FADD (R275): Binary32 scalar add. -/
  | fadd (n : Fin 96) (rd ra rb : Fin 32)
  /-- FSUB (R275): Binary32 scalar subtract. -/
  | fsub (n : Fin 96) (rd ra rb : Fin 32)
  /-- FMUL (R275): Binary32 scalar multiply. -/
  | fmul (n : Fin 96) (rd ra rb : Fin 32)
  /-- FMA (R275): Binary32 fused multiply-add. -/
  | fma (n : Fin 96) (rd ra rb : Fin 32)
  /-- FCVT (R275): Conversion between INT64 and binary32 by FUNC bit 5. -/
  | fcvt (n : Fin 96) (toFloat : Bool) (rd ra : Fin 32)
  /-- ADDI (R273): Scalar add immediate. -/
  | addi (n : Fin 96) (rd ra : Fin 32) (imm : Half)
  /-- ANDI (R273): Scalar AND immediate. -/
  | andi (n : Fin 96) (rd ra : Fin 32) (imm : Half)
  /-- ORI (R273): Scalar OR immediate. -/
  | ori (n : Fin 96) (rd ra : Fin 32) (imm : Half)
  /-- XORI (R273): Scalar XOR immediate. -/
  | xori (n : Fin 96) (rd ra : Fin 32) (imm : Half)
  /-- LUI (R273): RD := sign-extended IMM16 shifted left by 16. -/
  | lui (n : Fin 96) (rd : Fin 32) (imm : Half)
  /-- SHIFT_IMMEDIATE (R273): Scalar shift by an immediate amount, kind chosen by IMM16[7:6]. -/
  | shiftImmediate (n : Fin 96) (rd ra : Fin 32) (imm : Half)
  /-- BR_EQ (R273): Branch if equal. -/
  | brEq (n : Fin 96) (ra rb : Fin 32) (off : BitVec 13)
  /-- BR_NE (R273): Branch if not equal. -/
  | brNe (n : Fin 96) (ra rb : Fin 32) (off : BitVec 13)
  /-- BR_LT (R273): Branch if signed less. -/
  | brLt (n : Fin 96) (ra rb : Fin 32) (off : BitVec 13)
  /-- BR_GE (R273): Branch if signed greater or equal. -/
  | brGe (n : Fin 96) (ra rb : Fin 32) (off : BitVec 13)
  /-- BR_LTU (R273): Branch if unsigned less. -/
  | brLtu (n : Fin 96) (ra rb : Fin 32) (off : BitVec 13)
  /-- BR_GEU (R273): Branch if unsigned greater or equal. -/
  | brGeu (n : Fin 96) (ra rb : Fin 32) (off : BitVec 13)
  /-- JAL (R273): Jump and link by a word offset. -/
  | jal (n : Fin 96) (rd : Fin 32) (off : BitVec 21)
  /-- JALR (R273): Jump and link to a register plus immediate. -/
  | jalr (n : Fin 96) (rd ra : Fin 32) (imm : Half)
  /-- SLD (R279): Scalar load of 1 to 8 bytes over the access path of its address. -/
  | sld (n : Fin 96) (rt ra : Fin 32) (size : Fin 4) (signed : Bool) (off : BitVec 12)
  /-- SST (R279): Scalar store of 1 to 8 bytes. -/
  | sst (n : Fin 96) (rt ra : Fin 32) (size : Fin 4) (off : BitVec 12)
  /-- SST_ATOMIC_ADD (R279): Scalar 4-byte INT32 or FP32 atomic add. -/
  | sstAtomicAdd (n : Fin 96) (rt ra : Fin 32) (size : Fin 4) (fp32 : Bool) (off : BitVec 12)
  /-- VADD (R276): Lane-wise vector add in the major's type. -/
  | vadd (n : Fin 96) (ty : VType) (pr : Pred) (bcast : Bool) (rd ra rb : Fin 32)
  /-- VSUB (R276): Lane-wise vector subtract. -/
  | vsub (n : Fin 96) (ty : VType) (pr : Pred) (bcast : Bool) (rd ra rb : Fin 32)
  /-- VMUL (R276): Lane-wise vector multiply. -/
  | vmul (n : Fin 96) (ty : VType) (pr : Pred) (bcast : Bool) (rd ra rb : Fin 32)
  /-- VFMA (R276): Lane-wise fused multiply-add. -/
  | vfma (n : Fin 96) (ty : VType) (pr : Pred) (bcast : Bool) (rd ra rb : Fin 32)
  /-- VMIN (R276): Lane-wise minimum, IEEE minimum or minimumNumber by IGNORE_NAN. -/
  | vmin (n : Fin 96) (ty : VType) (pr : Pred) (bcast : Bool) (rd ra rb : Fin 32)
  /-- VMAX (R276): Lane-wise maximum. -/
  | vmax (n : Fin 96) (ty : VType) (pr : Pred) (bcast : Bool) (rd ra rb : Fin 32)
  /-- VABS (R276): Lane-wise absolute value. -/
  | vabs (n : Fin 96) (ty : VType) (pr : Pred) (rd ra : Fin 32)
  /-- VNEG (R276): Lane-wise negation. -/
  | vneg (n : Fin 96) (ty : VType) (pr : Pred) (rd ra : Fin 32)
  /-- VAND (R276): INT32 lane-wise AND. -/
  | vand (n : Fin 96) (pr : Pred) (bcast : Bool) (rd ra rb : Fin 32)
  /-- VOR (R276): INT32 lane-wise OR. -/
  | vor (n : Fin 96) (pr : Pred) (bcast : Bool) (rd ra rb : Fin 32)
  /-- VXOR (R276): INT32 lane-wise XOR. -/
  | vxor (n : Fin 96) (pr : Pred) (bcast : Bool) (rd ra rb : Fin 32)
  /-- VSHL (R276): INT32 lane-wise shift left modulo 32. -/
  | vshl (n : Fin 96) (pr : Pred) (bcast : Bool) (rd ra rb : Fin 32)
  /-- VSHR (R276): INT32 lane-wise logical shift right. -/
  | vshr (n : Fin 96) (pr : Pred) (bcast : Bool) (rd ra rb : Fin 32)
  /-- VSRA (R276): INT32 lane-wise arithmetic shift right. -/
  | vsra (n : Fin 96) (pr : Pred) (bcast : Bool) (rd ra rb : Fin 32)
  /-- VMULH (R276): INT32 lane-wise high half of the signed product. -/
  | vmulh (n : Fin 96) (pr : Pred) (bcast : Bool) (rd ra rb : Fin 32)
  /-- VCVT (R276): Lane-wise conversion to the type RB names. -/
  | vcvt (n : Fin 96) (ty : VType) (pr : Pred) (rd ra rb : Fin 32)
  /-- VLD (R279): Vector load of 256 bytes. -/
  | vld (n : Fin 96) (rt ra : Fin 32) (off : BitVec 12)
  /-- VST (R279): Vector store of 256 bytes, optionally masked by p7. -/
  | vst (n : Fin 96) (rt ra : Fin 32) (masked : Bool) (off : BitVec 12)
  /-- VST_ATOMIC_ADD (R279): Vector atomic add of the lanes as INT32 or FP32. -/
  | vstAtomicAdd (n : Fin 96) (rt ra : Fin 32) (masked fp32 : Bool) (off : BitVec 12)
  /-- BCAST (R537): Every lane is set to the low 32 bits of a scalar. -/
  | bcast (n : Fin 96) (pr : Pred) (rd ra : Fin 32)
  /-- SHUFFLE (R537): Lanes are permuted by an index vector. -/
  | shuffle (n : Fin 96) (pr : Pred) (rd ra rb : Fin 32)
  /-- SLIDEUP (R537): Lanes are moved up by a scalar amount. -/
  | slideup (n : Fin 96) (pr : Pred) (rd ra rb : Fin 32)
  /-- SLIDEDN (R537): Lanes are moved down by a scalar amount, filling with 0. -/
  | slidedn (n : Fin 96) (pr : Pred) (rd ra rb : Fin 32)
  /-- LANEGET (R537): One lane is read into a scalar. -/
  | laneget (n : Fin 96) (rd ra rb : Fin 32)
  /-- LANESET (R537): One lane is set from a scalar. -/
  | laneset (n : Fin 96) (pr : Pred) (rd ra rb : Fin 32)
  /-- PRED_EQ (R277): Lane-wise equal compare into a predicate. -/
  | predEq (n : Fin 96) (kind : CmpKind) (pr : Pred) (rd ra rb : Fin 32)
  /-- PRED_NE (R277): Lane-wise not-equal compare into a predicate. -/
  | predNe (n : Fin 96) (kind : CmpKind) (pr : Pred) (rd ra rb : Fin 32)
  /-- PRED_LT (R277): Lane-wise less-than compare into a predicate. -/
  | predLt (n : Fin 96) (kind : CmpKind) (pr : Pred) (rd ra rb : Fin 32)
  /-- PRED_LE (R277): Lane-wise less-or-equal compare into a predicate. -/
  | predLe (n : Fin 96) (kind : CmpKind) (pr : Pred) (rd ra rb : Fin 32)
  /-- PRED_AND (R537): AND of two predicates. -/
  | predAnd (n : Fin 96) (pr : Pred) (rd ra rb : Fin 32)
  /-- PRED_OR (R537): OR of two predicates. -/
  | predOr (n : Fin 96) (pr : Pred) (rd ra rb : Fin 32)
  /-- PRED_XOR (R537): XOR of two predicates. -/
  | predXor (n : Fin 96) (pr : Pred) (rd ra rb : Fin 32)
  /-- PRED_NOT (R537): NOT of a predicate. -/
  | predNot (n : Fin 96) (pr : Pred) (rd ra : Fin 32)
  /-- FIRST (R277): Index of the lowest set predicate bit, or 64. -/
  | first (n : Fin 96) (rd ra : Fin 32)
  /-- COUNT (R277): Number of set predicate bits. -/
  | count (n : Fin 96) (rd ra : Fin 32)
  /-- SUM (R339): Rib reduction sum by a fixed tree. -/
  | sum (n : Fin 96) (int acc : Bool) (pr : Pred) (rd ra : Fin 32)
  /-- SUMSQ (R339): Rib reduction of exact squares by a fixed tree. -/
  | sumsq (n : Fin 96) (int acc : Bool) (pr : Pred) (rd ra : Fin 32)
  /-- MEANVAR (R340): Rib reduction of count, mean and M2 by the Welford merge. -/
  | meanvar (n : Fin 96) (int acc : Bool) (pr : Pred) (rd ra : Fin 32)
  /-- RED_MAX (R341): Rib reduction maximum. -/
  | redMax (n : Fin 96) (int acc : Bool) (pr : Pred) (rd ra : Fin 32)
  /-- RED_MIN (R341): Rib reduction minimum. -/
  | redMin (n : Fin 96) (int acc : Bool) (pr : Pred) (rd ra : Fin 32)
  /-- ARGMAX (R341): Rib reduction maximum with lowest index on ties. -/
  | argmax (n : Fin 96) (int acc : Bool) (pr : Pred) (rd ra rb : Fin 32)
  /-- ARGMIN (R341): Rib reduction minimum with lowest index on ties. -/
  | argmin (n : Fin 96) (int acc : Bool) (pr : Pred) (rd ra rb : Fin 32)
  /-- FEED_LD (R282): Bytes are copied from a yarn address into a feed buffer. -/
  | feedLd (n : Fin 96) (rd ra rb : Fin 32)
  /-- FEED_ST (R282): Bytes are copied from a feed buffer to a yarn address. -/
  | feedSt (n : Fin 96) (rd ra rb : Fin 32)
  /-- VPUT (R282): A vector register is written to a feed address. -/
  | vput (n : Fin 96) (rd ra : Fin 32)
  /-- VGET (R282): A feed address is read into a vector register. -/
  | vget (n : Fin 96) (rd ra : Fin 32)
  /-- MOVE_ENQ (R283): A descriptor is enqueued on a hank mover, capturing the draft state. -/
  | moveEnq (n : Fin 96) (ra rb : Fin 32)
  /-- MOVE_STATUS (R283): A mover's status is read into a scalar. -/
  | moveStatus (n : Fin 96) (rd rb : Fin 32)
  /-- MOVE_WAIT (R283): The needle stalls until the mover is idle or faulted. -/
  | moveWait (n : Fin 96) (rb : Fin 32)
  /-- MOVER_DESCRIPTOR_DONE (R265): A descriptor's writes are acknowledged, its flag ADD is made and the next descriptor starts. -/
  | moverDescriptorDone (k : Fin 16) (m : Fin 2)
  /-- STCH_SEND (R284): A vector is sent on a stitch channel, stalling on credit. -/
  | stchSend (n : Fin 96) (ra rb : Fin 32)
  /-- STCH_RECV (R284): A vector is received from a stitch channel, stalling on an empty FIFO. -/
  | stchRecv (n : Fin 96) (rd rb : Fin 32)
  /-- STITCH_ENTRY_ARRIVAL (R251): A 64-byte entry arrives in a channel's receive FIFO or landing window. -/
  | stitchEntryArrival (swatch : Fin 8) (chan : Byte) (position : BitVec 12) (entry : Vector Byte 64)
  /-- STITCH_CREDIT_RETURN (R251): A consumed FIFO entry returns a credit to the sender. -/
  | stitchCreditReturn (swatch : Fin 8) (chan : Byte)
  /-- TWIN_UNMATCHED_TIMEOUT (R254): A twin channel without credit for 100 µs sets TWIN_UNMATCHED. -/
  | twinUnmatchedTimeout (swatch : Fin 8) (chan : Byte)
  /-- MESH_MCAST (R285): A 256-byte multicast write is issued to a mask or rectangle of skeins. -/
  | meshMcast (n : Fin 96) (rd ra rb : Fin 32)
  /-- MESH_TREE (R285): A contribution is issued to a fixed-tree addition. -/
  | meshTree (n : Fin 96) (rd ra rb : Fin 32)
  /-- HALT (R287): The needle's program ends; in a hard swatch this ends its row. -/
  | halt (n : Fin 96)
  /-- FENCE_L (R281): The needle stalls until its earlier own-store stores take effect. -/
  | fenceL (n : Fin 96)
  /-- FENCE_Y (R281): The needle stalls until every earlier access has completed and every enqueue is accepted. -/
  | fenceY (n : Fin 96)
  /-- BAR (R248): The needle arrives at a barrier and stalls until release. -/
  | bar (n : Fin 96) (ra : Fin 32)
  /-- FLAG_SET (R249): A swatch flag is set, returning the old value. -/
  | flagSet (n : Fin 96) (rd ra rb : Fin 32)
  /-- FLAG_ADD (R249): A value is added to a swatch flag, returning the old value. -/
  | flagAdd (n : Fin 96) (rd ra rb : Fin 32)
  /-- FLAG_WAIT_GE (R249): The needle waits until a flag is at least the operand. -/
  | flagWaitGe (n : Fin 96) (rd ra rb : Fin 32)
  /-- FLAG_WAIT_EQ (R249): The needle waits until a flag equals the operand. -/
  | flagWaitEq (n : Fin 96) (rd ra rb : Fin 32)
  /-- TICKWAIT (R286): The needle stalls until a tick or a target row; in a hard swatch this ends its row. -/
  | tickwait (n : Fin 96) (rd ra : Fin 32)
  /-- NEEDLE_TICKWAIT_RESUME (R287): A loose or free needle resumes 0.2 µs after the tick and writes TICK_COUNT. -/
  | needleTickwaitResume (n : Fin 96)
  /-- CSRR (R268): A control register is read into a scalar. -/
  | csrr (n : Fin 96) (rd rb : Fin 32)
  /-- CSRW (R268): A control register is written, faulting on RO or unlisted indices. -/
  | csrw (n : Fin 96) (ra rb : Fin 32)
  /-- CAST_ZERO (R304): A tile is opened with every element 0. -/
  | castZero (n : Fin 96) (o : CastOps)
  /-- CAST_BIAS (R304): A tile is opened with one source row in every row. -/
  | castBias (n : Fin 96) (o : CastOps)
  /-- CAST_RESID (R304): A tile is opened with a full source tile. -/
  | castResid (n : Fin 96) (o : CastOps)
  /-- CAST_TOTAL (R304): A compensated-pair tile is opened with a long total. -/
  | castTotal (n : Fin 96) (o : CastOps)
  /-- MMA (R307): A·B is accumulated into an open tile from feed operands, with optional forwarding. -/
  | mma (n : Fin 96) (o : MmaOps)
  /-- MMA_QUEUE_START (R309): A queued MMA takes the bed when the running pair frees it. -/
  | mmaQueueStart (n : Fin 96)
  /-- CONFIRMATION_TEST (R311): After a tile's last products reach the loops, its sticky bits are tested and it is confirmed or replayed. -/
  | confirmationTest (n : Fin 96) (unit : Fin 16)
  /-- BIND_DRAIN (R316): A tile is confirmed, swapped to the spare bank and drained through a carder. -/
  | bindDrain (n : Fin 96) (o : BindOps)
  /-- BIND_PROMOTE (R318): A tile is drained and added into a long total with dw_add. -/
  | bindPromote (n : Fin 96) (o : BindOps)
  /-- BIND_DROP (R316): A tile's units are freed without confirming or draining. -/
  | bindDrop (n : Fin 96) (unit : Fin 16)
  /-- DRAIN_DONE (R316): The last drain write is acknowledged, the spare units are freed and the side record is written. -/
  | drainDone (n : Fin 96) (unit : Fin 16)
  /-- LCONF (R311): A tile is closed and its confirmation triggered. -/
  | lconf (n : Fin 96) (unit : Fin 16)
  /-- LGET (R321): 64 loop elements are read into a vector register. -/
  | lget (n : Fin 96) (unit : Fin 16) (ra rb : Fin 32)
  /-- LSHIFT (R321): A tile's shift byte is read into a scalar. -/
  | lshift (n : Fin 96) (unit : Fin 16) (rb : Fin 32)
  /-- LSCALE (R321): Each row of a float tile is scaled by a lane of a vector. -/
  | lscale (n : Fin 96) (unit : Fin 16) (ra : Fin 32)
  /-- PLY_SEND (R322): A tile is sent on a PLY channel in row-major order. -/
  | plySend (n : Fin 96) (unit : Fin 16) (rb : Fin 32)
  /-- PLY_ADD (R343): A received tile is added into the local tile in the fixed fold order. -/
  | plyAdd (n : Fin 96) (unit : Fin 16) (rb : Fin 32)
  /-- LAND (R310): A SYSTOLIC channel is bound, rearmed or unbound to a feed window. -/
  | land (n : Fin 96) (ra rb rs : Fin 32)
  /-- STORE_READ (R242): A mesh store-read packet arrives at a router or store. -/
  | storeRead (at_ : Fin 16) (h : PktHead) (offset : BitVec 22) (len : Fin 257)
  /-- STORE_WRITE (R242): A mesh store-write packet arrives. -/
  | storeWrite (at_ : Fin 16) (h : PktHead) (offset : BitVec 22) (bytes : List (Option Byte))
  /-- ATOMIC_ADD_AT_STORE (R243): A mesh atomic add arrives and acts in order of arrival at the store. -/
  | atomicAddAtStore (at_ : Fin 16) (h : PktHead) (offset : BitVec 22) (fp32 : Bool) (bytes : List (Option Byte))
  /-- FLAG_OPERATION (R249): A flag operation arrives at the home unit and acts in arrival order. -/
  | flagOperation (at_ : Fin 16) (h : PktHead) (op : FlagKind) (flag : Fin 64) (operand : Word)
  /-- READ_DATA (R242): Mesh read data returns to the issuing needle or mover. -/
  | readData (at_ : Fin 16) (h : PktHead) (error : Bool) (data : List Byte)
  /-- WRITE_ACKNOWLEDGEMENT (R242): A mesh write is acknowledged. -/
  | writeAcknowledgement (at_ : Fin 16) (h : PktHead) (error : Bool)
  /-- FLAG_REPLY (R249): A flag reply resumes the waiting requester. -/
  | flagReply (at_ : Fin 16) (h : PktHead) (error : Bool) (value : Word)
  /-- MULTICAST_WRITE (R245): A multicast packet is replicated along the tree and written once at each target. -/
  | multicastWrite (at_ : Fin 16) (h : PktHead) (targets : BitVec 16) (offset : BitVec 22) (data : List Byte)
  /-- FIXED_TREE_CONTRIBUTION (R247): A partial arrives at a router, which adds and forwards once every input has arrived. -/
  | fixedTreeContribution (at_ : Fin 16) (h : PktHead) (t : TreeHead) (data : List Byte)
  /-- BARRIER_ARRIVAL (R248): A needle's arrival is counted, completing the barrier or releasing a stray. -/
  | barrierArrival (at_ : Fin 16) (h : PktHead) (barrier : Fin 16)
  /-- BARRIER_RELEASE (R248): A release reaches a member needle, which resumes. -/
  | barrierRelease (n : Fin 96) (barrier : Fin 16)
  /-- CENSUS_LOOPBACK (R242): A firmware census loopback packet crosses the mesh. -/
  | censusLoopback (at_ : Fin 16) (h : PktHead)
  /-- SAVE_AND_RESTORE (R242): A firmware save or restore packet crosses the mesh. -/
  | saveAndRestore (at_ : Fin 16) (h : PktHead) (restore : Bool) (offset : BitVec 22) (data : List Byte)
  /-- ROUTER_CONFIGURATION (R244): A firmware packet writes or clears a router's swatch rectangle. -/
  | routerConfiguration (at_ : Fin 16) (swatch : Option (Fin 8)) (course0 wale0 coursesM1 walesM1 : Fin 4)
  /-- ROW_SPARE_COPY_DONE (R495): A failing store row's copy to a spare row ends, and the remap takes effect. -/
  | rowSpareCopyDone (k : Fin 16) (bank : Fin 16) (row : Fin 256)
  /-- AGING_MEASUREMENT (R497): Every 10 s a powered skein's margin is measured, with warning or suspicion below the limits. -/
  | agingMeasurement (p : Fin 20) (margin : Byte)
  /-- DROOP_EVENT (R496): A rail droop stretches one needle clock and counts in REP_DROOP. -/
  | droopEvent (p : Fin 20)
  /-- AUTO_CENSUS_START (R498): A pending census starts on its own once every condition holds. -/
  | autoCensusStart
  /-- CENSUS_END (R499): A re-census ends, retires failures, rebuilds the map and distance table and posts events. -/
  | censusEnd
  /-- SCRUB_READ (R384): The scrub reads the next granule so that every granule is read once per 24 h. -/
  | scrubRead (corrected : Bool) (poisoned : Bool)
  /-- DISTAFF_INSTRUCTION (R390): A standard RV64GCV instruction executes in the core's scope. -/
  | distaffInstruction (d : Fin 4) (nextPc : DWord) (ops : List DstOp)
  /-- DST_DOORBELL (R396): After earlier stores are acknowledged, the doorbell of a ring in the core's scope is rung or dropped. -/
  | dstDoorbell (d : Fin 4) (rd rs1 rs2 : Fin 32)
  /-- DST_TICKWAIT (R397): The core waits for a tick or row, interruptibly. -/
  | dstTickwait (d : Fin 4) (rd rs1 : Fin 32)
  /-- DST_TICKWAIT_RESUME (R397): The core resumes 0.2 µs after the tick with TICK_COUNT and the frog bit. -/
  | dstTickwaitResume (d : Fin 4)
  /-- DST_SWFENCE (R396): Earlier accesses complete and cacheable lines are written back and invalidated. -/
  | dstSwfence (d : Fin 4) (rs1 : Fin 32)
  /-- DST_FLAG_SET (R396): A swatch flag is set from a core. -/
  | dstFlagSet (d : Fin 4) (rd rs1 rs2 : Fin 32)
  /-- DST_FLAG_ADD (R396): A value is added to a swatch flag from a core. -/
  | dstFlagAdd (d : Fin 4) (rd rs1 rs2 : Fin 32)
  /-- DST_FLAG_WAIT_GE (R397): The core waits until a flag is at least the operand, interruptibly. -/
  | dstFlagWaitGe (d : Fin 4) (rd rs1 rs2 : Fin 32)
  /-- DST_FLAG_WAIT_EQ (R397): The core waits until a flag equals the operand, interruptibly. -/
  | dstFlagWaitEq (d : Fin 4) (rd rs1 rs2 : Fin 32)
  /-- DST_RUN (R406): RUN powers a host-owned core and starts it at DST_RESET_PC, or is deferred while it halts. -/
  | dstRun (d : Fin 4) (agent : Agent)
  /-- DST_HALT (R405): HALT stops the core at an instruction boundary and clock-gates it. -/
  | dstHalt (d : Fin 4) (agent : Agent)
  /-- DST_HALT_DONE (R406): A halting core has halted, and a pending RUN then starts it. -/
  | dstHaltDone (d : Fin 4)
  /-- NDL_HALT (R296): A grantee halts a needle at the next instruction boundary. -/
  | ndlHalt (n : Fin 96) (agent : Agent)
  /-- NDL_RUN (R296): A grantee resumes a halted needle. -/
  | ndlRun (n : Fin 96) (agent : Agent)
  /-- NDL_STEP (R296): A grantee runs one instruction of a halted needle. -/
  | ndlStep (n : Fin 96) (agent : Agent)
  /-- MOVER_CLEAR (R294): CLEAR empties a mover's queue and clears FAULT where permitted. -/
  | moverClear (k : Fin 16) (m : Fin 2) (agent : Agent)
  /-- EDGE_RETRAIN (R57): EDGE_CTRL.RETRAIN requests a run-time retrain with repair. -/
  | edgeRetrain (port : Fin 10) (agent : Agent)
  /-- EDGE_CTRL_LOCK (R16): LOCK freezes the port's RWL fields until start-up. -/
  | edgeCtrlLock (port : Fin 10) (agent : Agent)
  /-- STK_CTRL_LOCK (R16): LOCK freezes SCRUB_EN until start-up. -/
  | stkCtrlLock (stack : Fin 4) (agent : Agent)
  /-- MESH_FLAG_WRITE (R257): A write to MESH_FLAG acts as SET. -/
  | meshFlagWrite (k : Fin 16) (flag : Fin 64) (value : Word) (agent : Agent)
  /-- MESH_BAR_CFG_WRITE (R257): A barrier configuration write takes effect, or is ignored with BAR_STRAY while arrivals are pending. -/
  | meshBarCfgWrite (k : Fin 16) (barrier : Fin 16) (value : Word) (agent : Agent)
  /-- STAT_CLEAR (R367): Carder statistics, histogram and counts are cleared. -/
  | statClear (c : CarderId) (agent : Agent)
  /-- CARD_LFSR_SEED_WRITE (R357): Writing the seed restarts the carder's LFSR from it. -/
  | cardLfsrSeedWrite (c : CarderId) (value : Word) (agent : Agent)
  /-- FUNCTION_ENABLE (R99): EN := 1 on a switchable function acts by its STATE, checking a view's configuration. -/
  | functionEnable (f : FuncId) (agent : Agent)
  /-- FUNCTION_DISABLE (R99): EN := 0 on a switchable function acts by its STATE. -/
  | functionDisable (f : FuncId) (agent : Agent)
  /-- FUNCTION_RISE_DONE (R99): A RISING function reaches ON, honouring a pending disable. -/
  | functionRiseDone (f : FuncId)
  /-- FUNCTION_FALL_DONE (R99): A FALLING function reaches OFF, honouring a pending enable. -/
  | functionFallDone (f : FuncId)
  /-- CARD_VIEW_READ (R370): A read through a carded view is checked and converted under READ_SLOT. -/
  | cardViewRead (port : Fin 10) (view : Fin 4) (offset : BitVec 30) (who : ViewUser)
  /-- CARD_VIEW_WRITE (R370): A whole-granule write through a view is converted under WRITE_SLOT and stored. -/
  | cardViewWrite (port : Fin 10) (view : Fin 4) (offset : BitVec 30) (who : ViewUser) (data : List Byte)
  /-- CARD_JOB (R360): A carder takes the oldest waiting drain or mover job and runs its card program. -/
  | cardJob (c : Fin 16) (m : Fin 2)
  /-- READ_CLEAR (R18): A read of an RC field returns it and clears it. -/
  | readClear (space : RegSpace) (agent : Agent)
  /-- UNMAPPED_REGISTER_ACCESS (R25): An access outside every present block instance has no effect and counts in SELV_BAD_ACCESS. -/
  | unmappedRegisterAccess (addr : BitVec 48) (acc : RegAccess) (agent : Agent)
  /-- REGISTER_WRITE (R14): A write to a register without its own row acts as its access code states. -/
  | registerWrite (space : RegSpace) (value : Word) (agent : Agent)
  /-- CSI2_FRAME_START (R417): A Frame Start opens a frame, taking a SEQ, a slot or a drop, and a timestamp. -/
  | csi2FrameStart (csi : Fin 8) (vc : Fin 16) (time : DWord)
  /-- CSI2_PACKET (R418): A CSI-2 line packet is written into the open frame, with ECC and CRC checks. -/
  | csi2Packet (csi : Fin 8) (vc : Fin 16) (dataType : BitVec 6) (header : EccResult) (crcOk : Bool) (payload : List Byte)
  /-- CSI2_FRAME_END (R416): A Frame End completes the frame when its last byte is written. -/
  | csi2FrameEnd (csi : Fin 8) (vc : Fin 16)
  /-- SOUNDWIRE_SAMPLE_INSTANT (R412): A SoundWire frame row delivers or takes samples for a bound bobbin. -/
  | soundwireSampleInstant (b : Fin 48) (time : DWord) (samples : List Word)
  /-- IBI (R412): An I3C in-band interrupt payload arrives as one input frame. -/
  | ibi (ctl : Fin 2) (addr : BitVec 7) (time : DWord) (payload : List Byte)
  /-- HOT_JOIN (R410): A hot-joining target receives the lowest free dynamic address. -/
  | hotJoin (ctl : Fin 2)
  /-- OUTPUT_FRAME_SENT (R419): An output frame is sent at the port's pace and the consumer count is written. -/
  | outputFrameSent (b : Fin 48) (acked : Bool)
  /-- HOST_RING_POLL (R420): Every 10 µs a host-ring bobbin reads the host ring's header and copies frames. -/
  | hostRingPoll (b : Fin 48) (time : DWord)
  /-- PIN_FUNC_CHANGE (R424): A FUNC write starts or restarts the pin's park. -/
  | pinFuncChange (pin : Fin 32) (value : Word) (agent : Agent)
  /-- PIN_PARK_END (R424): 20 ns after the park starts, the new function is connected. -/
  | pinParkEnd (pin : Fin 32) (level : Bool)
  /-- PIN_OUT_SET (R426): Writing bit p sets GPIO_OUT of pin p. -/
  | pinOutSet (mask : Word) (agent : Agent)
  /-- PIN_OUT_CLR (R426): Writing bit p clears GPIO_OUT of pin p. -/
  | pinOutClr (mask : Word) (agent : Agent)
  /-- PIN_WAKE (R426): An enabled wake edge sets PIN_WAKE_EVENTS and may send HEM_EVENT. -/
  | pinWake (pin : Fin 32) (level : Bool)
  /-- UART_CHARACTER (R429): A received character is stored with its FE and PE flags, or break or overrun is recorded. -/
  | uartCharacter (data : Byte) (parityOk stopHigh : Bool) (isBreak substitute : Bool)
  /-- UART_DATA_READ (R422): A read of BOB_UART_DATA pops the RX FIFO. -/
  | uartDataRead (agent : Agent)
  /-- UART_DATA_WRITE (R422): A write of BOB_UART_DATA pushes a character to the TX FIFO. -/
  | uartDataWrite (value : Word) (agent : Agent)
  /-- EXTEST (R432): The pins leave their functions for boundary scan. -/
  | extest
  /-- IDCODE (R432): The 32-bit IDCODE is selected. -/
  | idcode
  /-- SAMPLE_PRELOAD (R432): The boundary-scan register is sampled or preloaded. -/
  | samplePreload (preload : BitVec 128)
  /-- CLAMP (R432): The pins are held at the preloaded values. -/
  | clamp
  /-- HIGHZ (R432): Every output is turned off. -/
  | highz
  /-- JTAG_STATUS (R433): The 96 status bits are captured over the sideband. -/
  | jtagStatus
  /-- REG_READ (R433): Update-DR reads a register by yarn address for the next capture. -/
  | regRead (addr : BitVec 48)
  /-- BYPASS (R432): The 1-bit bypass register is selected. -/
  | bypass
  /-- PERIODIC_SEARCH (R458): The search period elapses and a search starts once the line is free. -/
  | periodicSearch (idle : Half)
  /-- PRESENCE_WINDOW_END (R452): The presence window ends and the search continues with ROLL or ends. -/
  | presenceWindowEnd (presence : Bool)
  /-- ROLL_WINDOW_END (R452): A roll-call window ends and its slots pend ASSIGNs, deeper ROLLs or a widened retry. -/
  | rollWindowEnd (classes : Vector SlotClass 16)
  /-- ASSIGN_ACKNOWLEDGEMENT (R452): An ASSIGN acknowledgement is classed NONE, SINGLE or DOUBLE. -/
  | assignAcknowledgement (cls : SlotClass)
  /-- ASSIGN_ID_READ (R453): The ID is read and checked, and an address or 0 is sent. -/
  | assignIdRead (id : DWord) (edge : Bool)
  /-- SEARCH_DONE (R452): After CONFIRM, missing entries are removed and the search completes. -/
  | searchDone
  /-- CHAIN_REPLY (R448): The answer to an addressed outer-chain command arrives, with a repeat or widened retry where needed. -/
  | chainReply (cls : SlotClass) (bytes : List Byte)
  /-- PRESENCE_CHANGED (R456): An idle current change held 10 ms sets PRESENCE_CHANGED and posts the event. -/
  | presenceChanged (idle : Half)
  /-- STUCK_LOW (R457): The line low for over 2 ms ends the chain command and suspends the search. -/
  | stuckLow
  /-- LINE_HIGH_RESUME (R457): The line high for 10 ms resumes the periodic search. -/
  | lineHighResume
  /-- CHN_SEQ_RESET (R464): An expert sequencer reset with presence detection. -/
  | chnSeqReset (agent : Agent)
  /-- SEND_CHAR (R464): The sequencer sends one pulse-mode character. -/
  | sendChar (data : Byte) (agent : Agent)
  /-- READ_CHAR (R464): The sequencer reads one reply character. -/
  | readChar (wide : Bool) (agent : Agent)
  /-- ROLL_WINDOW (R464): The sequencer opens 16 roll-call slots. -/
  | rollWindow (wide : Bool) (agent : Agent)
  /-- ACK_SLOT (R464): The sequencer opens one acknowledgement slot. -/
  | ackSlot (wide : Bool) (agent : Agent)
  /-- STRONG (R464): The sequencer runs a strong pull-up window. -/
  | strong (length : Half) (agent : Agent)
  /-- END_GAP (R464): The sequencer holds the end-of-command high. -/
  | endGap (agent : Agent)
  /-- SEND_FRAME (R464): The sequencer sends a biphase frame. -/
  | sendFrame (length : Half) (agent : Agent)
  /-- RECV_FRAME (R464): The sequencer receives a biphase frame. -/
  | recvFrame (agent : Agent)
  /-- CHN_SEQ_DONE (R464): A sequencer operation ends and its result is placed in CHN_SEQ_RESULT. -/
  | chnSeqDone (result : Word) (frame : List Byte)
  /-- FULL_RESET (R451): A tag sees a full reset, forgets its address, pulses presence and takes standard speed. -/
  | fullReset
  /-- ROLL (R447): A tag whose prefix matches pulses in slot k of the roll call. -/
  | roll (level : Fin 16) (wide : Bool) (prefix_ : DWord)
  /-- ASSIGN (R447): A matching unaddressed tag acknowledges, sends its ID and takes the address. -/
  | assign (nibbles : Fin 17) (prefix_ : DWord) (address : Byte) (fe : Bool)
  /-- PING (R447): An addressed tag acknowledges. -/
  | ping (address : Byte)
  /-- READ_INFO (R447): An addressed tag returns features, status, counter and WSEQ. -/
  | readInfo (address : Byte)
  /-- PROVE (R486): A tag computes and returns its CMAC over nonce, ID, counter and status. -/
  | prove (address : Byte) (nonce : Vector Byte 16)
  /-- WRITE_PREPARE (R488): A tag checks and holds a new count and acknowledges. -/
  | writePrepare (address : Byte) (newCount : Word) (wseq : Byte) (mac : BitVec 128) (fe : Bool)
  /-- WRITE_COMMIT (R489): A tag writes its commit MARK, or acknowledges a repeat without writing. -/
  | writeCommit (address : Byte) (wseq : Byte) (fe : Bool)
  /-- SET_SPEED (R436): Tags take fast speed from the next character. -/
  | setSpeed (param : Byte) (fe : Bool)
  /-- STRONG_WINDOW_END (R489): A strong window ends with the tag's shadow programmed or its MAC ready. -/
  | strongWindowEnd (tag : Nat) (verified : Bool)
  /-- TAG_SUPPLY_LOSS (R451): A tag's supply falls below its minimum and it becomes DORMANT. -/
  | tagSupplyLoss (tag : Nat) (committed : Bool)
  /-- COUNT_OFF (R461): A die takes the count as its address and forwards count plus 1, or the primary records N. -/
  | countOff (count : Byte)
  /-- COUNT_OFF_TIMEOUT (R81): No COUNT_OFF within 1 ms makes the primary resend it, up to twice, then set the fault. -/
  | countOffTimeout
  /-- IDENT (R460): A die answers with its class, PRIMARY fuse, stepping and serial. -/
  | ident (dest src : Byte)
  /-- DIE_PROVE (R471): A die signs its reply over the nonce with its die key. -/
  | dieProve (dest src : Byte) (nonce : Vector Byte 32)
  /-- INNER_REPLY (R461): A 0x82, 0x83 or NAK reply reaches the primary. -/
  | innerReply (src type_ : Byte) (payload : List Byte)
  /-- INNER_REPLY_TIMEOUT (R461): A missing inner-chain reply is treated as TIMEOUT. -/
  | innerReplyTimeout
  /-- ATTEST_DIE_TIMEOUT (R476): A die silent for 50 ms during ATTEST gets STATUS 1 and a zero payload. -/
  | attestDieTimeout
  /-- YARDAGE_INCREMENT (R480): A counter increment writes the new value into the slot not in force. -/
  | yardageIncrement (counter : Fin 16) (amount : Word)
  /-- YARDAGE_SLOT_WRITE_DONE (R480): The slot write ends and is committed, or rewritten once or failed. -/
  | yardageSlotWriteDone (valid : Bool)
  /-- FLOOR_BURN_DONE (R480): An OTP floor word burn ends and is checked. -/
  | floorBurnDone (valid : Bool)
  /-- POWER_HOUR (R477): Each whole hour of selvage power raises YD_POWER_HOURS. -/
  | powerHour
  /-- POWER_HOUR_RESIDUE_SAVE (R477): Every 10 minutes the power-hour residue is saved. -/
  | powerHourResidueSave (residue : Word)
  /-- SECONDARY_START_UP_REPORT (R79): The twin secondary reports to the primary that its step 8 is complete, after which the primary may set READY. -/
  | secondaryStartUpReport
  /-- TAG_POWER_UP (R451): A tag's supply rises, and the tag forgets its address and speed and becomes DORMANT. -/
  | tagPowerUp (tag : Nat)
  /-- SHUSKAUB_PCIE_LINK_UP (R85): The Shuskaub PCIe x8 endpoint link comes up, which supplies the management service in XN-0H2S2-1I. -/
  | shuskaubPcieLinkUp
  /-- SHUSKAUB_PCIE_LINK_DOWN (R46): The Shuskaub PCIe endpoint link goes down, and its host-facing function is reset as R46 states. -/
  | shuskaubPcieLinkDown
  /-- INNER_FRAME_TIMING_ERROR (R461): An inner-chain receiver finds a biphase timing error, discards the frame, does not forward it and counts it in CHN_IN_ERRORS. -/
  | innerFrameTimingError
  /-- INNER_FRAME_UNKNOWN_TYPE (R460): A die receives an inner-chain frame of any other TYPE addressed to it and answers 0xFF NAK with LEN 0. -/
  | innerFrameUnknownType (dest src type_ : Byte)
  /-- BANK_GRANT (R260): A skein-store bank grants one waiting access by deficit round robin, which completes that own-store access and releases the waiting needle, cast-on or mover. -/
  | bankGrant (k : Fin 16) (bank : Fin 16)
  /-- RAIL_RAMP_DONE (R94): The core rail finishes ramping up, and the waiting skein clocks switch to the higher P-point. -/
  | railRampDone
  /-- UART_TX_CHARACTER_DONE (R427): The UART finishes sending a character and, at that boundary, starts the next one from the TX FIFO unless CTS is high with FLOW set. -/
  | uartTxCharacterDone (ctsHigh : Bool)
  /-- SOUNDWIRE_WAKE (R407): The hem's SoundWire wake logic detects a peripheral-initiated wake and sends HEM_EVENT when SELV_WAKE.SOUNDWIRE is set. -/
  | soundwireWake
deriving DecidableEq, Repr

end Sys2Proof
end

