-- ==== Sys2Proof/Config.lean ====
section
/-! DEFINITION. The values no rule fixes: free values (opaque, without a body) and the functions the spec leaves to
the standards it cites (R7: ECDSA P-256, SHA-256, AES-128, CMAC, X.509). Nothing evaluates them. -/
namespace Sys2Proof

/-- The free values (log 11): the n-th value the spec leaves open, taken at `State.freeCtr`. -/
opaque Config.freeBits : Nat → BitVec 64
/-- The rate a port reaches whose far side advertises fewer credits than R53 asks for, at most its full one (R227;
log 161). -/
opaque Config.shortRate : Nat → Nat → Nat
/-- MBX_IF_VERSION (R136, Reset "image"; log 12). -/
opaque Config.ifVersion : Word
/-- The binary32 result of EXP within 2 ulp (R363; log 13). -/
opaque Config.expBits : Word → Word
/-- Which source element a CVT between types of different widths puts into each element of its result, widening or not; none
where the element is no converted one (10 R276; log 26). -/
opaque Config.cvtPlace : Bool → Nat → Option Nat
/-- SHA-256 (R7). -/
opaque Config.sha256 : List Byte → BitVec 256
/-- AES-128-CMAC of a message under a key (R7). -/
opaque Config.cmac : BitVec 128 → List Byte → BitVec 128
/-- ECDSA P-256 verification: public key, hash, signature (R7). -/
opaque Config.ecdsaVerify : List Byte → BitVec 256 → List Byte → Bool
/-- ECDSA P-256 signature of a hash under a private key (R7). -/
opaque Config.ecdsaSign : BitVec 256 → BitVec 256 → BitVec 512
/-- The public key of a private key: x, then y (R7, R466). -/
opaque Config.ecdsaPub : BitVec 256 → BitVec 512
/-- Whether a certificate chains to a root whose public-key hash is given (R7, R77). -/
opaque Config.certChains : List Byte → BitVec 256 → Bool
/-- The public key a certificate carries (R7). -/
opaque Config.certKey : List Byte → List Byte
/-- The certificates GET_CERTS returns, as DER: the die's, the product CA's, the root's (R470). -/
opaque Config.certificate : Fin 3 → List Byte
/-- A list of bytes no rule fixes, such as a flash slot whose writing was cut short (R148): the n-th free value. -/
opaque Config.freeBytes : Nat → List Byte
/-- What the header and the signature block of an image hold (R76). The layout of the header is given nowhere, so the
parts are an uninterpreted function of the image's bytes (log 16). -/
structure ImageParts where
  magic     : Word
  size      : Nat
  svn       : Byte
  cert      : List Byte
  signed    : List Byte
  signature : List Byte
deriving DecidableEq, Repr, Inhabited
opaque Config.imageParts : List Byte → ImageParts
/-- AES-128 decryption of a block under a key (R7, R474). -/
opaque Config.aesDecrypt : BitVec 128 → BitVec 128 → BitVec 128
/-- The Finloti root whose public-key hash is in ROM (R77). -/
opaque Config.romRootHash : BitVec 256

end Sys2Proof
end

