-- ==== Sys2Proof/Machine/TypesCore.lean ====
section
/-! DEFINITION. The records State is made of, first part: the package and its ports, start-up and power, the
Renaro rings and functions, memory and its owners, swatches and drafts (chapters 03 to 08 and 14). -/
namespace Sys2Proof.Machine
open Sys2Proof

/-- Edge-port roles, coded as EDGE_ROLE.FUSED_ROLE (R67). -/
inductive Role | none | host | stack | shus | twin
deriving DecidableEq, Repr

/-- The code of a role in EDGE_ROLE (R67). -/
def Role.code : Role → BitVec 3
  | .none => 0 | .host => 1 | .stack => 2 | .shus => 3 | .twin => 4

/-- One port's fuses: its role and, for a STACK port, the stack (R32). -/
structure PortFuse where
  role  : Role
  stack : Fin 4
deriving DecidableEq, Repr

/-- The fuse map of the die (R2, R32, R40, R100, R468). It never changes after assembly. -/
structure Fuses where
  ports      : Vector PortFuse 10
  /-- a, b, c, d of the assembly code (R31) -/
  hostPorts  : BitVec 3
  stackCount : BitVec 3
  perStack   : BitVec 2
  shusDies   : BitVec 2
  twin       : Bool
  primary    : Bool
  shusPcie   : Bool
  order      : BitVec 2
  fullCensus : Bool
  budget     : Half
  subVendor  : Half
  subsystem  : Half
  stepping   : Byte
  serial     : DWord
deriving DecidableEq, Repr

/-- Edge-port states, coded as EDGE_STATE.STATE (R67). -/
inductive PortSt
  | off | sbInit | roleCheck | mbTrain | creditInit | active | degraded | retrain | sleep | down
deriving DecidableEq, Repr

/-- The code of a port state in EDGE_STATE (R67). -/
def PortSt.code : PortSt → BitVec 4
  | .off => 0 | .sbInit => 1 | .roleCheck => 2 | .mbTrain => 3 | .creditInit => 4
  | .active => 5 | .degraded => 6 | .retrain => 7 | .sleep => 8 | .down => 9

/-- ACTIVE or DEGRADED. -/
def PortSt.up : PortSt → Bool
  | .active => true | .degraded => true | _ => false
/-- Up, or retraining, when requests for the port wait (R57). -/
def PortSt.carries : PortSt → Bool
  | .active => true | .degraded => true | .retrain => true | _ => false

/-- A self-refresh exchange of a STACK port in progress (R386, R61); `waiting` while requests to the stack are not all
answered, before SREF_ENTER is sent. -/
inductive Sref | none | waiting | entering (resent : Bool) | exiting (resent : Bool)
deriving DecidableEq, Repr

/-- A transaction or message on its way out (R49, R50): a message's code stands in ADDR. An absent byte is masked off. -/
structure SentTxn where
  ttype : BitVec 5
  subop : Nat
  head  : TxnHead
  data  : List (Option Byte)
deriving DecidableEq, Repr

/-- A traffic class of the spool plane (R236): a cast swatch, or the management class. -/
inductive TClass
  | swatch (i : Fin 8)
  | mgmt
deriving DecidableEq, Repr
/-- A class by number: swatch i is i, the management class 8. -/
def TClass.idx : TClass → Fin 9
  | .swatch i => ⟨i.val, by omega⟩
  | .mgmt => 8
/-- A source of spool requests (R225, R238): the spool port of a skein, the service ports of the selvage and of the distaff
cluster, and a HOST port. -/
inductive Src
  | skein (k : Fin 16)
  | selvage
  | distaff
  | host (fn : Fin 2)
deriving DecidableEq, Repr
/-- Deficit-weighted round robin among classes (R237): the level in turn with the bytes its turns still give, and of every
class the same, with the class in turn on each level. -/
structure Drr where
  level     : Fin 4
  levelLeft : Vector Nat 4
  cls       : Vector (Fin 9) 4
  clsLeft   : Vector Nat 9
deriving DecidableEq, Repr
/-- The credit grant of a port for reads or for writes (R228): bytes left of the arbitration turn, bytes of each swatch's
reservation left in it, and the arbitration of what remains. -/
structure Grants where
  left : Nat
  res  : Vector Nat 8
  drr  : Drr
deriving DecidableEq, Repr
/-- A request that waits at its source for a pacing credit, in the injection FIFO of its class (R227, R238). -/
structure Inj where
  /-- the number of its access -/
  id      : Nat
  src     : Src
  cls     : TClass
  /-- a doorbell, a ring-entry fetch or a completion write (R238) -/
  control : Bool
  /-- issued under near gauge (R234) -/
  near    : Bool
  /-- it did not leave in the step that issued it: its wait counts in GAUGE_WAIT_MAX -/
  late    : Bool
  txn     : SentTxn
deriving DecidableEq, Repr
/-- A transaction of which a flit brought the header, and the data that has come so far (R52). -/
structure RxTxn where
  slot : DWord
  data : List Byte
deriving DecidableEq, Repr

/-- One edge port (03): link state, credits, retry, and the fields of its EDGE registers. -/
structure EdgePort where
  st         : PortSt
  farClass   : BitVec 3
  confirmed  : Bool
  mismatch   : Bool
  rate       : BitVec 2
  modules    : BitVec 2
  maxRate    : BitVec 2
  retrainReq : Bool
  lock       : Bool
  events     : Word
  retryCount : Word
  repairMap  : Word
  retryLimit : Word
  spikeLast  : Word
  /-- the tally of R57's interval -/
  retryTally : Nat
  sideband   : Bool
  sref       : Sref
  /-- the far side's credits still held by this sender (R53) -/
  far        : Credits
  /-- the credits the far side advertised (R53) -/
  advert     : Credits
  /-- the next FSEQ this side sends, the next FSEQ it expects, and the highest FSEQ the far side has acknowledged (R48) -/
  nextSend   : BitVec 10
  nextRecv   : BitVec 10
  farAcked   : BitVec 10
  /-- flits received since the last ACK sent (R56) -/
  unacked    : Nat
  /-- what waits for credits, for the retry buffer or for the end of a retrain, oldest first (R53, R56, R57) -/
  outq       : List SentTxn
  /-- the pacing credits of reads and of writes (R228) -/
  grants     : Vector Grants 2
  /-- received headers whose data is not complete, in the order of the granule stream (R52) -/
  rx         : List RxTxn
  /-- flits sent and not acknowledged, oldest first: the retry buffer of 128 (R56). Each carries one transaction (log 37) -/
  retryBuf   : List SentTxn
  /-- the rate credited to the yarn before the last change, for RATE_CHANGE (R256) -/
  credited   : Nat
deriving DecidableEq, Repr

/-- Device states, coded as SELV_STATUS.STATE (R100). -/
inductive DevSt | off | selvage | sentinel | loose | taut | burst
deriving DecidableEq, Repr

/-- The code of a device state (R100). -/
def DevSt.code : DevSt → BitVec 3
  | .off => 0 | .selvage => 1 | .sentinel => 2 | .loose => 3 | .taut => 4 | .burst => 5

/-- Loose, Taut or Burst. -/
def DevSt.working : DevSt → Bool
  | .loose => true | .taut => true | .burst => true | _ => false

/-- Boot sources, coded as SELV_BOOT_STATUS.SOURCE (R100). -/
inductive BootSrc | slotA | slotB | host | twinPrimary
deriving DecidableEq, Repr

/-- The code of a boot source (R100). -/
def BootSrc.code : BootSrc → BitVec 3
  | .slotA => 1 | .slotB => 2 | .host => 3 | .twinPrimary => 4

/-- Where the nine-step start-up (R68) stands. -/
inductive BootPhase
  | notStarted
  /-- steps 2 and 3: a source is being fetched -/
  | fetching (src : BootSrc)
  /-- every source failed (R78) -/
  | noImage
  /-- step 4: COUNT_OFF sent `tries` times -/
  | countOff (tries : Nat)
  /-- step 7: ports are training -/
  | training
  /-- a twin secondary waits for its image (R79) -/
  | waitImage
  /-- a twin primary has finished its steps and waits for the secondary's report (R79) -/
  | waitSecondary
  | done
deriving DecidableEq, Repr

/-- The spindle ROM and start-up sequencer (04 R68 to R79). -/
structure Boot where
  phase     : BootPhase
  /-- sources not yet tried -/
  rest      : List BootSrc
  /-- image bytes fetched so far, in order -/
  image     : List Byte
  /-- the offset of the next READ and the bytes of the present READ still due -/
  due       : Nat
  seq       : Half
  /-- the size an OFFER named and its port, when an OFFER is being served (R78) -/
  offer     : Option (Fin 10 × Nat)
  /-- this start-up follows RESTART, not selvage power good (R147) -/
  warm      : Bool
  /-- the census kind RESTART's CENSUS byte forces: none as SELV_BOOT_CTRL (R146) -/
  forceFull : Option Bool
  /-- the secondary has reported its step 8 (R79) -/
  secondary : Bool
  /-- the running image's measurement (R77) -/
  measure   : BitVec 256
deriving DecidableEq, Repr

/-- A submission entry's identity, to which its one completion entry answers (R112, R144). -/
structure CmdRef where
  sq     : Fin 16
  cmdId  : Half
  noIrq  : Bool
  swatch : Byte
  /-- a relayed command of a twin secondary: its reply goes out as RELAY_RSP (R106) -/
  relayed : Bool
  /-- enables of that ring before the command was dispatched: an entry of an earlier one is discarded (R46, R147) -/
  epoch  : Nat
deriving DecidableEq, Repr

/-- A device-state transition in progress (R91). -/
structure Transition where
  target : DevSt
  cmd    : Option CmdRef
  deferredFlag : Bool
deriving DecidableEq, Repr

/-- A state request that waits for the running transition to end (R92). -/
structure Deferred where
  target : DevSt
  cmd    : Option CmdRef
deriving DecidableEq, Repr

/-- The SELV block and the power state of the device (04, 21). -/
structure Selv where
  spwrok      : Bool
  /-- reset held after a rail fault (R525) -/
  railFault   : Bool
  /-- THERMTRIP_N, 1 released (R530) -/
  thermtripN  : Bool
  ready       : Bool
  st          : DevSt
  mgmtOk      : Bool
  computeOk   : Bool
  trans       : Option Transition
  deferred    : Option Deferred
  bootStep    : BitVec 4
  skeinsOn    : BitVec 16
  fault       : Word
  order       : BitVec 2
  fullCensus  : Bool
  bootLock    : Bool
  source      : BitVec 3
  svn         : Byte
  readyTime   : Half
  goodSkeins  : BitVec 5
  goodNeedles : Byte
  censusFull  : Bool
  /-- P-point in force per logical skein (R100) -/
  ppoint      : Vector (BitVec 2) 16
  /-- core rail level, the highest P-point it supports, and a raise waiting for its ramp (R93, R94) -/
  rail        : BitVec 2
  ramp        : Option (BitVec 2)
  budget      : Half
  budgetLock  : Bool
  windowLeft  : BitVec 12
  recoveryLeft : BitVec 13
  /-- length so far of the open Burst window [ms] -/
  windowUsed  : Nat
  /-- skeins lowered from P3 in the open window (R531) -/
  capped      : BitVec 16
  /-- joules of Burst energy not yet a whole kilojoule (R96) -/
  burstJoules : Nat
  avg1ms      : Half
  avg1s       : Half
  hottest     : Half
  wake        : Word
  badAccess   : Word
  /-- P-points taken from each skein by the limiter, and by thermal throttling (R95, R528) -/
  limited     : Vector Nat 16
  throttled   : Vector Nat 16
  /-- thermal step in force, 0 none (R528), and whether raising back is under way (R529) -/
  thermalStep : Fin 3
  raising     : Bool
  readings    : Option Readings
  restartCmd  : Bool
deriving DecidableEq, Repr

/-- A logical skein: its physical skein and the physical needle of each k (R20). -/
structure LogSkein where
  phys    : Fin 20
  needles : Vector (Fin 7) 6
deriving DecidableEq, Repr

/-- The logical map in force (R20, R83, R84). -/
structure LMap where
  skeins   : Vector (Option LogSkein) 16
  rows     : BitVec 4
  fallback : Bool
  courses  : BitVec 3
  epoch    : Byte
deriving DecidableEq, Repr

/-- What a census and the stack check would find in the silicon (log 6), and what is attached to Shuskaub (log 182): environment data. -/
structure Phys where
  /-- physical needles that fail -/
  badNeedles : List (Fin 140)
  /-- physical skeins whose movers, carders, barrier unit or routers fail -/
  badSkeins  : List (Fin 20)
  /-- physical rows whose bypass wires fail -/
  badRows    : List (Fin 4)
  /-- store rows that fail: physical skein, bank, row -/
  storeRows  : List (Fin 20 × Fin 16 × Fin 256)
  /-- stacks that fail step 8 -/
  badStacks  : List (Fin 4)
  /-- targets on each I3C bus that answer ENTDAA (R410) -/
  i3cTargets : Vector Nat 2
  /-- devices attached to each SoundWire bus: bit 1 to bit 11 (R422) -/
  sdwDevices : Vector Word 4
  /-- lanes in HS and the clock of each camera link: bits 3:0 and bit 4 (R422) -/
  csiLines   : Vector Word 8
  /-- log2 of the flash's size in bytes (R430) -/
  flashLog2  : Nat
deriving DecidableEq, Repr

/-- Enable states of a switchable function (R99). -/
inductive EnSt | off | rising | on | falling
deriving DecidableEq, Repr

/-- The code of STATE (R99). -/
def EnSt.code : EnSt → BitVec 2
  | .off => 0 | .rising => 1 | .on => 2 | .falling => 3

/-- EN, STATE, PENDING_ENABLE and PENDING_DISABLE of a switchable function (R99). -/
structure EnFsm where
  en      : Bool
  st      : EnSt
  pendEn  : Bool
  pendDis : Bool
deriving DecidableEq, Repr

/-- One submission ring (R107, R109). -/
structure Sq where
  base     : DWord
  cfg      : Word
  fsm      : EnFsm
  error    : Bool
  faultKind : BitVec 2
  head     : Half
  tail     : Half
  inflight : Nat
  doorbell : Half
  /-- a doorbell was recorded during RISING (R110) -/
  rung     : Bool
  /-- its head is an entry with FENCE that waits for earlier commands of the SQ (R134) -/
  fenced   : Bool
  epoch    : Nat
deriving DecidableEq, Repr

/-- A composed completion or event entry, before its PHASE and SQ_HEAD are written (R113). -/
structure CEntry where
  cmdId    : Half
  status   : Byte
  detail   : Byte
  sqId     : Byte
  flags    : Byte
  row      : DWord
  devState : Byte
  swtState : Byte
  /-- bytes 20 to 63 -/
  result   : List Byte
  noIrq    : Bool
deriving DecidableEq, Repr

/-- One completion ring (R108, R109, R119, R135). -/
structure Cq where
  base     : DWord
  cfg      : Word
  fsm      : EnFsm
  error    : Bool
  faultKind : BitVec 2
  tail     : Half
  phase    : Bool
  head     : Half
  doorbell : Half
  rung     : Bool
  /-- entries held while the ring is full, oldest first (R135) -/
  held     : List CEntry
  /-- HOLDOFF is running, and an entry posted meanwhile is to be signalled (R119) -/
  holdoff  : Bool
  due      : Bool
deriving DecidableEq, Repr

/-- One MSI-X table entry (R45). -/
structure Msix where
  addr : DWord
  data : Word
  mask : Bool
deriving DecidableEq, Repr

/-- An event waiting to be posted (R120, R121). -/
structure EventRec where
  kind   : Byte
  source : Byte
  status : Byte
  count  : Half
  extra  : DWord
  row    : DWord
  /-- an event of the twin secondary (R106) -/
  twin   : Bool
deriving DecidableEq, Repr

/-- One host-facing PCIe function: its BAR0 mailbox registers, MSI-X table and power state (R40 to R47, R136). -/
structure HostFn where
  bar2Window : Word
  bar4Base   : DWord
  /-- log2 of the BAR4 size in GiB, 0 to 7 (R44) -/
  bar4Log    : Fin 8
  eventCtrl  : Word
  eventsLost : Word
  ringFault  : Word
  msix       : Vector Msix 64
  pba        : DWord
  d3hot      : Bool
  resetting  : Bool
  events     : List EventRec
deriving DecidableEq, Repr

/-- Who holds an expert grant (R126). -/
inductive Holder
  | host (fn : Fin 2)
  | swatch (i : Fin 8)
deriving DecidableEq, Repr

/-- An expert grant: in force, or waiting for basic commands to end (R127); the recorded RW and RWL words. -/
structure Grant where
  block   : Half
  holder  : Holder
  waiting : Option CmdRef
  saved   : List (Nat × Word)
deriving DecidableEq, Repr

/-- Page states (R378), with the twin-held state of R66. -/
inductive PageSt
  | free
  | hostHeld (id : Nat)
  /-- with the HANK_ID of the host-held allocation it came from -/
  | swatchHeld (sw : Fin 8) (id : Nat)
  /-- save areas, draft pools, program copies, distaff records: of a swatch, or of none -/
  | firmware (sw : Option (Fin 8))
  | retired
  | twinHeld (sender : Fin 8) (rights : BitVec 3)
deriving DecidableEq, Repr

/-- A run of pages in one state; pages of no run are free. Pages are numbered from stack band 0 (R373). -/
structure PageRun where
  base  : Nat
  count : Nat
  st    : PageSt
deriving DecidableEq, Repr

/-- An allocation a HANK_ID names (R157, R379, R380). -/
structure Hank where
  id     : Nat
  /-- its first yarn address -/
  base   : Nat
  count  : Nat
  kind   : Byte
  target : Option (Fin 8)
deriving DecidableEq, Repr

/-- One stack (14 R386, R389). -/
structure Stack where
  present    : Bool
  lost       : Bool
  sref       : Bool
  temp       : Half
  events     : Word
  eccCorr    : Word
  eccUncorr  : Word
  uncorrLast : DWord
  retired    : Half
  scrubEn    : Bool
  lock       : Bool
  /-- the port that serves slices 0 to 7 and the port that serves slices 8 to 15 (R59) -/
  routeLo    : Option (Fin 10)
  routeHi    : Option (Fin 10)
deriving DecidableEq, Repr

/-- A twin window registered for the sending die (R66). -/
structure TwinWin where
  sender : Fin 8
  base   : Nat
  size   : Nat
  kind   : Fin 4
  rights : BitVec 3
deriving DecidableEq, Repr

/-- A memory window of a swatch (R150, R381). -/
structure Window where
  base   : Nat
  size   : Nat
  kind   : Fin 4
  rights : BitVec 3
deriving DecidableEq, Repr

/-- Swatch states, coded as R142. -/
inductive SwSt | unset | cast | knitting | held | frogged | bound
deriving DecidableEq, Repr

/-- The code of a swatch state (R142). -/
def SwSt.code : SwSt → BitVec 3
  | .unset => 0 | .cast => 1 | .knitting => 2 | .held => 3 | .frogged => 4 | .bound => 5

/-- Tick classes (R183). -/
inductive TickClass | hard | loose | free
deriving DecidableEq, Repr

/-- The code of a tick class (R200). -/
def TickClass.code : TickClass → BitVec 2
  | .hard => 0 | .loose => 1 | .free => 2

/-- The open KNIT of a swatch (R152, R153). -/
structure Knit where
  cmd       : CmdRef
  prog      : Nat
  entry     : Word
  args      : Vector DWord 4
  rows      : Half
  committed : Nat
  frogged   : Nat
  /-- flags of the reply: SAT_EXHAUSTED, LONGSUM_EXCEEDED, STOP_KNIT -/
  flags     : BitVec 3
  media     : Bool
  /-- the program starts at the next tick -/
  armed     : Bool
  stop      : Bool
  firstRow  : DWord
  lastRow   : DWord
deriving DecidableEq, Repr

/-- A draft slot (R210): the row it shadows, the position that wrote it last, and where its 256 bytes lie. -/
structure DraftSlot where
  row  : Nat
  pos  : Byte
  slot : Nat
deriving DecidableEq, Repr

/-- An open draft (R208 to R213). -/
structure Draft where
  id        : Byte
  parent    : Byte
  openedBy  : Byte
  committed : List Byte
  written   : List Byte
  slots     : List DraftSlot
deriving DecidableEq, Repr

/-- A program loaded in a swatch (R271). -/
structure Program where
  id    : Nat
  base  : Nat
  len   : Nat
  text  : List Byte
  /-- first page of the firmware copy, where one was taken -/
  copy  : Option Nat
deriving DecidableEq, Repr

/-- A stitch-map channel (R255). -/
structure Chan where
  srcSkein : Byte
  srcK     : Byte
  dstSkein : Byte
  dstK     : Byte
  ply      : Bool
  link     : Fin 6
  chain    : Byte
  position : BitVec 12
deriving DecidableEq, Repr

/-- A stitch map (R255). -/
structure StitchMap where
  wheel  : Nat
  chans  : List Chan
  wheels : List Byte
deriving DecidableEq, Repr

/-- What a swatch's hold is waiting for (R195). -/
inductive HoldStep | none | quiesce | saving
deriving DecidableEq, Repr

/-- A swatch (07, 08). -/
structure Swatch where
  st         : SwSt
  course0    : Fin 4
  wale0      : Fin 4
  coursesM1  : Fin 4
  walesM1    : Fin 4
  cls        : TickClass
  ppoint     : BitVec 2
  /-- gauge in force and a change waiting for the next tick (R234) -/
  near       : Bool
  nearNext   : Option Bool
  prio       : BitVec 2
  tenant     : Byte
  shareM1    : Byte
  budget     : Word
  status     : Word
  overruns   : Word
  lastFinish : Word
  /-- the finish of the running hard row is recorded (R187) -/
  finished   : Bool
  pubDepth   : Byte
  flipCount  : Word
  saveBase   : DWord
  saveValid  : Bool
  /-- hold causes recorded, first one first (R154) -/
  causes     : List Byte
  holdStep   : HoldStep
  holdCmd    : Option CmdRef
  restoreCmd : Option CmdRef
  bindCmd    : Option CmdRef
  /-- state it was Held from: a KNIT is open, or draining after a frog -/
  knit       : Option Knit
  /-- a finished row or ended work waits for the tick (R184) -/
  lastRow    : DWord
  windows    : List Window
  programs   : List Program
  drafts     : List Draft
  /-- draft pool: slot pages, none until the first KV range (R210) -/
  pool       : Option Nat
  poolUsed   : List Nat
  /-- COMMIT_DRAFTs whose slot copies run, oldest first: the rows with their slots, positions committed, positions left
  (R212) -/
  copies     : List (CmdRef × List (Nat × Nat) × Nat × Nat)
  map        : Option StitchMap
  mapNext    : Option StitchMap
  mapRow     : DWord
  /-- a restored hard swatch starts its program at the next tick (R198) -/
  startNext  : Bool
  ppCmd      : Option CmdRef
  gaugeCmd   : Option CmdRef
  /-- the save waits for the stacks to leave self-refresh (R197) -/
  saveOwed   : Bool
deriving DecidableEq, Repr

/-- A WAIT_TICK waiting for its row (R164). -/
structure TickWait where
  cmd : CmdRef
  row : DWord
deriving DecidableEq, Repr

/-- A completion to be posted at step 4 of a tick (R27, R29). -/
structure RowDone where
  cmd    : CmdRef
  sw     : Option (Fin 8)
  entry  : CEntry
deriving DecidableEq, Repr

/-- The TICK block (R199). -/
structure Tick where
  period     : Word
  nextPeriod : Word
  count      : DWord
  phase      : Word
  status     : Word
  commitLast : Word
  waits      : List TickWait
  /-- rows whose twin work waits for TICK_DONE (R65) -/
  twinDone   : Option DWord
  twinHeld   : List (CmdRef × CEntry)
deriving DecidableEq, Repr

end Sys2Proof.Machine
end

