-- ==== Sys2Proof/Machine/TypesNeedle.lean ====
section
/-! DEFINITION. The records State is made of, second part: accesses in flight, skeins and their stores, movers,
mesh units, needles, the bed and its tiles, carders (chapters 09 to 13). -/
namespace Sys2Proof.Machine
open Sys2Proof

/-- A vector register: 64 lanes of 32 bits (10, needle state). -/
abbrev VReg := Vector Word 64

/-- The agent an access was issued by. -/
inductive Who
  | needle (n : Fin 96)
  | mover (s : Fin 16) (m : Fin 2)
  | distaff (d : Fin 4)
  | firmware
  /-- a host read or write through BAR4 into the twin window -/
  | host (fn : Fin 2)
deriving DecidableEq, Repr

/-- Formats of an atomic add (R50 SUBOP, R345). -/
inductive AtFmt | int32 | fp32 | fp16 | bf16
deriving DecidableEq, Repr

/-- What an access does. An absent byte of a write or atomic is masked off. -/
inductive AccOp
  | read (len : Nat)
  | write (bytes : List (Option Byte))
  | atomic (fmt : AtFmt) (bytes : List (Option Byte))
  /-- pairs added into a long total with dw_add, 8 bytes each (R318, R330) -/
  | promote (pairs : List (Word × Word))
  /-- a register of the other side of a SHUS or TWIN port (R50) -/
  | regRead
  | regWrite (w : Word)
deriving DecidableEq, Repr

/-- Where the data of a read goes when it arrives. -/
inductive Dest
  | none
  | sreg (rd : Fin 32) (size : Nat) (signed : Bool)
  | vreg (rd : Fin 32) (off : Nat)
  | feed (addr : Nat)
  | castOn (unit : Fin 16) (off : Nat)
  /-- a write of a drain (R316) -/
  | drain (unit : Fin 16)
  /-- a write of operand bytes into the replay area of the tile at a unit (R314) -/
  | replay (unit : Fin 16)
  | xreg (rd : Fin 32) (size : Nat) (signed : Bool)
  | freg (rd : Fin 32) (wide : Bool)
  | xvec (rd : Fin 32) (off : Nat)
  /-- the answer to a doorbell rung over the TWIN port (R106) -/
  | bell (rd : Fin 32)
  /-- bytes of a carded view read by CARD_VIEW_READ, sent out when they are converted -/
  | viewOut (p : Fin 10) (v : Fin 4)
  /-- part of a MEM_COPY or MEM_FILL on the other die: where read bytes go, and the command -/
  | copy (addr : Option Nat) (cmd : CmdRef)
  /-- a fixed-tree contribution: its instance (R246) -/
  | tree (reduce : Fin 16) (inst : Nat)
  /-- source bytes of a mover descriptor, at an offset of its input (R264) -/
  | stage (off : Nat)
  /-- stored bytes that view v of port p converts, of whose granule some bytes go on (R370): the job they are part of, their
  offset in its stored range, and what has come of it -/
  | view (p : Fin 10) (v : Fin 4) (off skip len job part : Nat) (got : List (Nat × Byte)) (onward : Dest)
deriving DecidableEq, Repr

/-- The path of an access (R280): a bank of the own store, the mesh to another store, or an edge port. -/
inductive Path
  | bank (s : Fin 16) (b : Fin 16)
  | mesh (dst : Fin 16)
  | port (p : Fin 10)
deriving DecidableEq, Repr

/-- Bank arbitration groups (R260). -/
inductive Group | drain | remote | mover | needle
deriving DecidableEq, Repr

/-- An access issued and not yet completed. -/
structure Access where
  id    : Nat
  who   : Who
  path  : Path
  group : Group
  /-- the address it acts at: a store or stack address as State.mem keys it -/
  addr  : Nat
  op    : AccOp
  dest  : Dest
  /-- the TAG of a request sent through a port; none elsewhere, or while no TAG is free (R49) -/
  tag   : Option (Fin 2048)
  /-- the PC of the instruction that issued it (R288) -/
  pc    : Nat
  /-- false once its row is frogged: it drains without an effect on its agent (R186) -/
  live  : Bool
  /-- it took the spur bundle of its skein (R233) -/
  spur  : Bool
deriving DecidableEq, Repr

/-- Arbitration state of one bank (R260): deficits of the four groups, the group in turn, and the last served
mover and needle. -/
structure Bank where
  deficit : Vector Nat 4
  turn    : Fin 4
  mover   : Fin 2
  needle  : Fin 6
deriving DecidableEq, Repr

/-- A descriptor on a mover's queue with what was captured at enqueue (R264, R265). -/
structure MoveDesc where
  bytes : Vector Byte 64
  k     : Fin 6
  draft : Word
  /-- what the carder made of it, when its card job has run (R360) -/
  carded : Option (List Byte)
  /-- source bytes read so far, by offset, once it has begun -/
  staged : Option (List (Nat × Byte))
  /-- the byte reached (R291): of the source rows asked for, and of the destination rows sent -/
  readTo : Nat
  writeTo : Nat
deriving DecidableEq, Repr

/-- A hank mover (R264 to R266, R293). -/
structure Mover where
  queue     : List MoveDesc
  fault     : Option (BitVec 4)
  faultAddr : DWord
  lastK     : Fin 6
deriving DecidableEq, Repr

/-- Inputs of a mesh router, in the fold order of R247. -/
inductive Dir | here | west | east | north | south
deriving DecidableEq, Repr

/-- Fixed-tree formats (R246). -/
inductive TreeFmt | int32 | fp32 | pair
deriving DecidableEq, Repr

/-- One input of a fixed-tree instance that has arrived at a router: where from, the needle for a local one, its data,
and the shift and SAT_EXHAUSTED it carries (R247, R338). -/
structure TreeIn where
  dir   : Dir
  k     : Fin 6
  data  : List Byte
  shift : Nat
  sat   : Bool
deriving DecidableEq, Repr

/-- A fixed-tree instance waiting at a router for inputs (R247). -/
structure TreePart where
  reduce  : Fin 16
  inst    : Nat
  fmt     : TreeFmt
  members : BitVec 16
  dst     : Fin 16
  offset  : BitVec 22
  got     : List TreeIn
deriving DecidableEq, Repr

/-- A barrier (R248, R257). -/
structure Barrier where
  skeins  : BitVec 16
  needles : BitVec 6
  enable  : Bool
  gen     : Bool
  arrived : List (Fin 96)
deriving DecidableEq, Repr

/-- Flag operations (R249). -/
inductive FlagOp | set | add | waitGe | waitEq
deriving DecidableEq, Repr

/-- A waiting flag operation at a home unit (R249). -/
structure FlagWait where
  h       : PktHead
  flag    : Fin 64
  eq      : Bool
  operand : Word
deriving DecidableEq, Repr

/-- A store packet a skein store is serving: the granules its banks have not granted yet, and the bytes read (R260). -/
structure Serve where
  h      : PktHead
  offset : Nat
  op     : AccOp
  left   : List Nat
  got    : List (Nat × Byte)
deriving DecidableEq, Repr

/-- The mesh router, barrier and flag unit of a logical skein (R244, R257). -/
structure MeshUnit where
  swatch    : Option (Fin 8)
  course0   : Fin 4
  wale0     : Fin 4
  coursesM1 : Fin 4
  walesM1   : Fin 4
  events    : Word
  dropCount : Word
  dropLast  : Word
  barriers  : Vector Barrier 16
  flags     : Vector Word 64
  waits     : List FlagWait
  parts     : List TreePart
  /-- store packets in arrival order, and multicasts sent from here with the targets not written yet -/
  serving   : List Serve
  mcasts    : List (PktHead × BitVec 16)
  /-- next instance of each reduce id, per needle of this skein -/
  nextInst  : Vector (Vector Nat 16) 6
deriving DecidableEq, Repr

/-- The stitch side of a logical skein (R258). -/
structure Stch where
  links     : BitVec 4
  events    : Word
  xferCount : Word
  /-- the slot each outgoing link serves next: line, north, east, south, west (R251) -/
  wheel     : Vector Nat 5
deriving DecidableEq, Repr

/-- A channel's receive FIFO and its sender's credits (R251), and the landing window bound to it (R310). -/
structure Land where
  base : Nat
  size : Nat
  got  : Nat
deriving DecidableEq, Repr

structure ChanFifo where
  swatch  : Fin 8
  chan    : Byte
  fifo    : List (Vector Byte 64)
  /-- entries of a SEND that wait for credits; the first of an INT32 ply transfer over the twin exit with its shift byte -/
  outq    : List (Option Byte × Vector Byte 64)
  /-- shift bytes of PLY.SEND transfers, oldest first (R343; log 33) -/
  shifts  : List Byte
  credits : Nat
  land    : Option Land
deriving DecidableEq, Repr

/-- A job waiting at a carder, oldest first (R360). -/
inductive CardJob
  | drain (n : Fin 96) (unit : Fin 16)
  | mover (s : Fin 16) (m : Fin 2)
deriving DecidableEq, Repr

/-- A carded view (R369, R372). -/
structure View where
  stored    : DWord
  size      : Word
  storedFmt : BitVec 4
  viewFmt   : BitVec 4
  readSlot  : BitVec 4
  writeSlot : BitVec 4
  readEn    : Bool
  writeEn   : Bool
  fsm       : EnFsm
deriving DecidableEq, Repr

/-- A carder (R360, R372). A slot that is not loaded holds no bytes. -/
structure Carder where
  ftz     : Bool
  reseed  : Bool
  events  : Word
  seed    : Word
  lfsr    : Word
  nan     : Word
  clip    : Word
  count   : DWord
  min     : Word
  max     : Word
  absmax  : Word
  sum     : Word × Word
  sumsq   : Word × Word
  hist    : Vector Word 64
  slots   : Vector (List Byte) 16
  params  : Vector Word 2048
  jobs    : List CardJob
  /-- LOAD_CARD_PROGRAMs that wait for the view accesses of an edge carder to end (R366) -/
  loads   : List (CmdRef × List Byte)
  views   : Vector View 4
deriving DecidableEq, Repr

/-- A cast-on as the replay record keeps it (R304, R312). -/
structure CastRec where
  mode   : Fin 4
  src    : Nat
  stride : Nat
  area   : Nat
deriving DecidableEq, Repr

/-- An MMA with its register values as read at issue (R307, R312). -/
structure MmaRec where
  a      : Nat
  b      : Nat
  sc     : Nat
  afmt   : Fin 16
  bfmt   : Fin 16
  scale  : Fin 4
  kq     : Nat
  /-- offset of its copy in the replay area, with RFS (R314) -/
  copyAt : Nat
deriving DecidableEq, Repr

/-- A bind-off as issued (R316 to R320). -/
structure BindRec where
  promote   : Bool
  fuse      : Fin 4
  side      : Bool
  dst       : Nat
  stride    : Nat
  sideAt    : Nat
  carder    : Fin 2
  slot      : Byte
  ignoreNan : Bool
deriving DecidableEq, Repr

/-- A tile of the loop file (R300 to R302): its elements as internal words in row-major order, hi before lo in a
compensated pair; bit 32 of an INT32 word is the sticky bit; an FP32+ word holds sign, exponent and 31 fraction bits. -/
structure Tile where
  unit      : Fin 16
  shape     : Fin 4
  lfmt      : Fin 3
  chunk     : Nat
  rfs       : Bool
  elems     : List (BitVec 48)
  /-- cast-on bytes still due (R305) -/
  due       : Nat
  castBytes : List (Nat × Byte)
  /-- K since the cast-on, and the term count of R331 -/
  ksum      : Nat
  terms     : Nat
  shift     : Nat
  satEx     : Bool
  closed    : Bool
  confirmed : Bool
  cast      : CastRec
  mmas      : List MmaRec
deriving DecidableEq, Repr

/-- A tile in the spare bank: waiting for its card job or its writes (R316). -/
structure Drain where
  tile : Tile
  bind : BindRec
  /-- the carder has run; what is left is its writes -/
  carded : Bool
deriving DecidableEq, Repr

/-- The bed: the tile of the running pair or replay, the replays and pairs that wait for the bed, open tiles and drains
(R309, R312). -/
structure Bed where
  running : Option (Fin 16)
  replays : List (Fin 16)
  queue   : List (Fin 16 × MmaRec × Bool × Bool × Byte)
  tiles   : List Tile
  drains  : List Drain
deriving DecidableEq, Repr

/-- What a waiting tensor or loop pair does once its tile is confirmed (R311). -/
inductive PairCont
  | bind (b : BindRec)
  | lconf
  | lget (ra : Fin 32) (index : Nat)
  | lshift (rb : Fin 32)
  | lscale (ra : Fin 32)
  | plySend (chan : Byte)
  | plyAdd (chan : Byte)
deriving DecidableEq, Repr

/-- What a needle waits for before its next instruction (R290). -/
inductive NWait
  | none
  /-- HALT, or in a hard swatch TICKWAIT, has ended the program or the row (R287) -/
  | ended
  | tick (rd : Fin 32) (target : DWord) (any : Bool)
  | barrier (i : Fin 16)
  | flag (rd : Fin 32) (id : Nat)
  | fenceL
  | fenceY
  | mover (m : Fin 2)
  | confirm (unit : Fin 16) (cont : PairCont)
  | spare (unit : Fin 16) (cont : PairCont)
  | send (chan : Byte)
  | recv (chan : Byte) (rd : Fin 32) (got : List Byte)
  | recvTile (chan : Byte) (unit : Fin 16) (got : List Byte)
deriving DecidableEq, Repr

/-- NDL_STATUS state codes (R295). -/
inductive NdlSt | idle | running | halted | faulted
deriving DecidableEq, Repr

/-- The code of a needle state (R295). -/
def NdlSt.code : NdlSt → BitVec 2
  | .idle => 0 | .running => 1 | .halted => 2 | .faulted => 3

/-- A needle (10, needle state; R268, R295). -/
structure Needle where
  st        : NdlSt
  wait      : NWait
  haltReq   : Bool
  stepReq   : Bool
  pc        : BitVec 17
  s         : Vector DWord 32
  v         : Vector VReg 32
  p         : Vector DWord 8
  draft     : Word
  ignoreNan : Bool
  faultFlag : DWord
  fault     : Word
  faultAddr : DWord
  retired   : DWord
  stalls    : DWord
  cycles    : DWord
  dbgSel    : Word
  /-- feed buffers A and B, bytes at 17-bit feed addresses, in Memory's canonical form (R267) -/
  feed      : List (Nat × Byte)
  bed       : Bed
deriving DecidableEq, Repr

/-- A logical skein (10 R293; 09 R257, R258). -/
structure Skein where
  bankWaitMax : Word
  spareRows   : Vector (BitVec 4) 16
  banks       : Vector Bank 16
  movers      : Vector Mover 2
  carders     : Vector Carder 2
  mesh        : MeshUnit
  stch        : Stch
deriving DecidableEq, Repr

/-- The GAUGE block (R256), with the injection FIFOs and the arbitration of the service ports. -/
structure Gauge where
  events    : Word
  waitMax   : Word
  distEpoch : Byte
  /-- the requests that wait at their sources, oldest first: the injection FIFOs of R238 -/
  fifo      : List Inj
  /-- the arbitration of the service ports of the selvage and of the distaff cluster (R237) -/
  service   : Vector Drr 2
deriving DecidableEq, Repr

/-- A twin ply-chain end announced by the other die (R254). -/
structure TwinChain where
  chain    : Byte
  position : BitVec 12
  swatch   : Fin 8
  tenant   : Byte
deriving DecidableEq, Repr

end Sys2Proof.Machine
end

