-- ==== Sys2Proof/Machine/TypesIo.lean ====
section
/-! DEFINITION. The records State is made of, third part: distaff cores, Shuskaub's bobbins, ports and pins, the
chain line and its tags, the tally, the repair record, and what the block sends (chapters 15 to 19). -/
namespace Sys2Proof.Machine
open Sys2Proof

/-- DST_STATUS state codes (R405). -/
inductive DstSt | off | halted | running | waiting
deriving DecidableEq, Repr

/-- The code of a core state (R405). -/
def DstSt.code : DstSt → BitVec 2
  | .off => 0 | .halted => 1 | .running => 2 | .waiting => 3

/-- What a waiting core waits for (R397). -/
inductive DWait
  | none
  | tick (rd : Fin 32) (target : DWord) (any : Bool)
  | flag (rd : Fin 32) (id : Nat)
deriving DecidableEq, Repr

/-- A distaff core (15). -/
structure Distaff where
  st         : DstSt
  granted    : Option (Fin 8)
  halting    : Bool
  pendingRun : Bool
  ucustom    : Bool
  irqToM     : Bool
  saved      : Bool
  resetPc    : DWord
  irqPending : Word
  irqEnable  : Word
  faultAddr  : DWord
  retired    : DWord
  pc         : DWord
  /-- privilege: 0 user, 1 supervisor, 3 machine -/
  mode       : BitVec 2
  x          : Vector DWord 32
  f          : Vector DWord 32
  v          : Vector (BitVec 256) 32
  /-- writable CSRs, by number; an unlisted one reads 0 -/
  csrs       : List (Nat × DWord)
  draft      : Word
  /-- the load-reserved reservation -/
  reserved   : Option Nat
  wait       : DWait
  /-- the swatch was frogged since the wait began (R396) -/
  frogged    : Bool
  /-- first page of the distaff record GRANT_DISTAFF allocated (R404) -/
  recordPage : Option Nat
deriving DecidableEq, Repr

/-- A line of the cluster's caches (R391, R392): its address, 64 bytes, and whether it is dirty. -/
structure CacheLine where
  addr  : Nat
  data  : List Byte
  dirty : Bool
deriving DecidableEq, Repr

/-- A frame an input bobbin is receiving (R416 to R418): its slot, or none when it is dropped. -/
structure OpenFrame where
  slot  : Option Nat
  seq   : DWord
  time  : DWord
  len   : Nat
  flags : Word
  info  : Word
deriving DecidableEq, Repr

/-- A bobbin (16 R412 to R422). -/
structure Bobbin where
  bound     : Bool
  source    : BitVec 2
  dirOut    : Bool
  port      : BitVec 3
  channel   : Byte
  log2Slots : BitVec 4
  swatch    : Option (Fin 8)
  frame     : Word
  ring      : DWord
  fsm       : EnFsm
  events    : Word
  published : DWord
  seq       : DWord
  dropped   : Word
  lastRow   : DWord
  /-- frames written to the ring, and of them those complete, since the bind -/
  written   : Nat
  complete  : Nat
  /-- the consumer count last read, and for an output ring PRODUCED as last read -/
  consumed  : Nat
  produced  : Nat
  /-- drops since the last written frame, and in this row (R417) -/
  dropsSince : Nat
  dropsRow  : Nat
  /-- frame numbers of an output ring already dropped as the newest (R419): above the first, up to the second -/
  skips     : List (Nat × Nat)
  opened    : Option OpenFrame
  full      : Bool
  runCmd    : Option CmdRef
  unbindCmd : Option CmdRef
deriving DecidableEq, Repr

/-- Shuskaub's port registers (R422) and UART (R427 to R429). -/
structure IoPorts where
  csiCfg    : Vector Word 8
  csiStatus : Vector Word 8
  csiErrors : Vector Word 8
  sdwCfg    : Vector Word 4
  sdwDp     : Vector (Vector Word 16) 4
  i3cCfg    : Vector Word 2
  i3cDat    : Vector (Vector Word 32) 2
  uartCfg   : Word
  uartEvents : Word
  /-- received characters with FE in bit 8 and PE in bit 9 -/
  uartRx    : List (BitVec 10)
  uartTx    : List Byte
  /-- a character is being sent; the receiver waits for a high line (RESYNC) -/
  uartBusy  : Bool
  uartResync : Bool
  boardStatus : Word
  logLevel  : BitVec 2
deriving DecidableEq, Repr

/-- The QSPI flash (R430): the image slots and the board block; whether a slot's content is undefined (R148). -/
structure Flash where
  slotA     : List Byte
  slotB     : List Byte
  board     : List Byte
  /-- the slot being written, the image, and the command -/
  writing   : Option (Bool × List Byte × CmdRef)
deriving DecidableEq, Repr

/-- A pin (R423 to R426). -/
structure Pin where
  cfg     : Word
  level   : Bool
  parking : Bool
  ref     : Bool
deriving DecidableEq, Repr

/-- JTAG instructions (R432). -/
inductive JtagInstr | extest | idcode | samplePreload | clamp | highz | status | regRead | bypass
deriving DecidableEq, Repr

/-- The TAP (R432, R433). -/
structure Jtag where
  instr    : JtagInstr
  boundary : BitVec 128
  status   : BitVec 96
  /-- value, DONE, ERR of the last REG_READ -/
  regValue : Word
  regDone  : Bool
  regErr   : Bool
deriving DecidableEq, Repr

/-- A listed tag (R171, R453). -/
structure TagEntry where
  id       : DWord
  addr     : Byte
  found    : Bool
  dup      : Bool
  features : Byte
  /-- listed for the first time by the search in progress -/
  fresh    : Bool
  /-- WSEQ of its last committed write, as READ_INFO returned it (R447, R488) -/
  wseq     : Byte
deriving DecidableEq, Repr

/-- A pending item of a search (R452): ROLL at a level, or ASSIGN with some nibbles; the prefix. -/
inductive SearchItem
  | roll (level : Nat) (pfx : Nat)
  | assign (nibbles : Nat) (pfx : Nat)
deriving DecidableEq, Repr

/-- Search states (R452). -/
inductive SearchSt
  | done
  | reset
  | roll (level : Nat) (pfx : Nat) (retried : Bool)
  /-- `retried` after a failed check, `widened` after an EDGE -/
  | assign (nibbles : Nat) (pfx : Nat) (retried widened : Bool)
  /-- an acknowledgement has been seen and the ID is being read; `dup` when it was DOUBLE -/
  | readId (nibbles : Nat) (pfx : Nat) (retried widened dup : Bool)
  | confirmPing (addr : Byte) (rest : List Byte) (retried widened : Bool)
  | confirmInfo (addr : Byte) (rest : List Byte) (retried widened : Bool)
deriving DecidableEq, Repr

/-- A search in progress (R452 to R454). -/
structure Search where
  st       : SearchSt
  items    : List SearchItem
  /-- addresses given in this search -/
  given    : List Byte
  dups     : Nat
  widened  : Nat
  wide     : Bool
  timing   : Bool
  cmd      : Option CmdRef
deriving DecidableEq, Repr

/-- What an outer-chain command is (R172). -/
inductive ChainWork
  | search
  | ping (addr : Byte)
  | prove (addr : Byte) (nonce : List Byte)
  | increment (addr : Byte) (expect : Word)
deriving DecidableEq, Repr

/-- A chain command that is running: its step and how often its element was repeated (R440, R448, R450). -/
structure ChainRun where
  work    : ChainWork
  cmd     : CmdRef
  /-- TAG_INCREMENT: 0 PROVE, 1 WRITE_PREPARE, 3 WRITE_COMMIT, 5 READ_INFO -/
  step    : Nat
  retried : Bool
  widened : Bool
  timing  : Bool
  /-- last step reached, for the reply (R168) -/
  last    : Nat
  nonce   : List Byte
  id      : List Byte
  wseq    : Byte
deriving DecidableEq, Repr

/-- Outer-chain sequencer operations (R464). -/
inductive SeqOp
  | reset | sendChar | readChar | rollWindow | ackSlot | strong | endGap | sendFrame | recvFrame
deriving DecidableEq, Repr

/-- The outer-chain master (17). -/
structure Chain where
  speed    : Bool
  mode     : BitVec 2
  period   : Half
  events   : Word
  idleCur  : Half
  refCur   : Half
  line     : Bool
  strong   : Bool
  seqOp    : Option SeqOp
  seqResult : Word
  frameBuf : Vector Byte 256
  search   : Option Search
  run      : Option ChainRun
  /-- commands that wait for the line, in order, and a periodic search that does (R172, R458) -/
  waiting  : List (ChainWork × Option CmdRef)
  stuck    : Bool
  list     : List TagEntry
deriving DecidableEq, Repr

/-- A count record of a tag (R487). -/
structure TagRec where
  count : Word
  wseq  : Byte
  valid : Bool
  mark  : Bool
deriving DecidableEq, Repr

/-- Tag states (R451) and write states (R489). -/
inductive TagSt | dormant | unaddressed | addressed
deriving DecidableEq, Repr
inductive TagWrite | idle | held | programmed
deriving DecidableEq, Repr

/-- A conforming tag on the outer chain (17 R451, 18 R487 to R490). -/
structure Tag where
  id       : DWord
  key      : BitVec 128
  features : Byte
  st       : TagSt
  addr     : Byte
  fast     : Bool
  status   : Byte
  current  : TagRec
  shadow   : TagRec
  write    : TagWrite
  held     : Word × Byte
  /-- a WRITE_COMMIT's MARK is being written in the strong window; the tag computes a MAC -/
  committing : Bool
  proving  : Option (List Byte)
  attached : Bool
deriving DecidableEq, Repr

/-- What the primary waits for on the inner chain (R461). -/
inductive InnerReq
  | ident (dest : Byte)
  | prove (dest : Byte)
deriving DecidableEq, Repr

/-- The inner chain (17 R459 to R465). -/
structure Inner where
  addr     : Byte
  hasAddr  : Bool
  returned : Byte
  expected : Byte
  busy     : Option InnerReq
  events   : Word
  errors   : Word
deriving DecidableEq, Repr

/-- One slot of a counter (R479). -/
structure YdSlot where
  value : Word
  seq   : Word
  valid : Bool
deriving DecidableEq, Repr

/-- Phases of a yardage update (R480). -/
inductive YdPhase | writing (retried : Bool) | flooring (retried : Bool)
deriving DecidableEq, Repr

/-- What follows an update: the completion of a command, and of which kind. -/
structure YdUpdate where
  counter : Fin 16
  amount  : Word
  cmd     : Option CmdRef
  /-- its reply's fields, with the value after at byte 20 where asked (R168) -/
  res     : List (Nat × Nat × Nat)
  value20 : Bool
deriving DecidableEq, Repr

/-- A running update (R480). -/
structure YdRun where
  upd    : YdUpdate
  value  : Word
  phase  : YdPhase
deriving DecidableEq, Repr

/-- An owner record (R473): the public key, WRAP_ROOT, the adoption number; that WRAP_ROOT is kept enciphered no agent can
see (log 20). -/
structure Owner where
  key      : List Byte
  wrapRoot : BitVec 128
  adoption : Word
deriving DecidableEq, Repr

/-- An attestation in progress (R476). -/
structure Attest where
  cmd     : CmdRef
  nonce   : List Byte
  dst     : Nat
  /-- how many dies there are -/
  dies    : Nat
  /-- STATUS and payload of the dies asked so far, and the yardage values once they are read (R477) -/
  records : List (Byte × List Byte)
  yards   : Option (List Word)
deriving DecidableEq, Repr

/-- The tally (18). -/
structure Tally where
  rootId    : BitVec 128
  rootStore : BitVec 128
  svnMin    : Byte
  slots     : Vector (YdSlot × YdSlot) 16
  /-- OTP floor words burned, in order (R482) -/
  floorWords : List Word
  owners    : List Owner
  /-- TMK and its adoption number (R474; log 20) -/
  tagMaster : Option (BitVec 128 × Word)
  proofs    : Nat
  residue   : Word
  events    : Word
  /-- a ROLLBACK since start-up (R476), which no write clears -/
  rolledBack : Bool
  run       : Option YdRun
  waiting   : List YdUpdate
  /-- attestations asked for, the running one first -/
  attests   : List Attest
deriving DecidableEq, Repr

/-- A repair-record entry (R502): kind 0 needle, 1 skein, 2 store row, 3 lane, 4 stack page; the number as R505 codes it. -/
structure RepEntry where
  die     : Bool
  kind    : Fin 5
  num     : Word
  bankRow : Half
  counted : Bool
deriving DecidableEq, Repr

/-- A census that is running (R498, R499). -/
structure CensusRun where
  full : Bool
  cmd  : Option CmdRef
deriving DecidableEq, Repr

/-- The REP block (19). -/
structure Rep where
  run         : Option CensusRun
  pending     : Bool
  pendingFull : Bool
  autoCensus  : Bool
  lock        : Bool
  events      : Word
  suspect     : BitVec 20
  retiredSkeins : BitVec 20
  retiredNeedles : BitVec 140
  entries     : List RepEntry
  listFull    : Bool
  limits      : Word
  aging       : Vector Word 20
  droop       : Vector Word 20
  /-- device times of the droop events of the last second (R497), and events since the last QUERY_HEALTH -/
  droopRecent : Vector (List DWord) 20
  droopQuery  : Nat
  /-- entries added since start-up (R505) -/
  added       : Nat
  /-- the next granule the scrub reads, counted over the stacks in order (R384) -/
  scrub       : Nat
deriving DecidableEq, Repr

/-- What the block sends (log 3). -/
inductive Out
  | sideband (port : Fin 10) (code : Byte) (payload : List Byte)
  | txn (ttype : BitVec 5) (subop : Nat) (h : TxnHead) (data : List (Option Byte))
  | msg (port : Fin 10) (code : Word) (payload : List Byte)
  /-- the flit that carries the transaction or message named before it (R48) -/
  | flit (port : Fin 10) (bytes : List Byte)
  | ack (port : Fin 10) (nak : Bool) (aseq : BitVec 10)
  | replay (port : Fin 10) (first : BitVec 10) (flits : List SentTxn)
  | credit (port : Fin 10) (cls : Fin 3) (headers granules : Nat)
  | msix (fn : Fin 2) (vector : Fin 64)
  | readData (agent : Agent) (value : Word)
  | viewData (port : Fin 10) (view : Fin 4) (ok : Bool) (data : List Byte)
  | barData (fn : Fin 2) (poison : Bool) (data : List Byte)
  | storeRead (h : PktHead) (offset : BitVec 22) (len : Nat)
  | storeWrite (h : PktHead) (offset : BitVec 22) (bytes : List (Option Byte))
  | atomicAdd (h : PktHead) (offset : BitVec 22) (fp32 : Bool) (bytes : List (Option Byte))
  | flagOp (h : PktHead) (op : FlagKind) (flag : Fin 64) (operand : Word)
  | meshData (h : PktHead) (error : Bool) (data : List Byte)
  | meshAck (h : PktHead) (error : Bool)
  | flagReply (h : PktHead) (error : Bool) (value : Word)
  | mcast (at_ : Fin 16) (h : PktHead) (targets : BitVec 16) (offset : BitVec 22) (data : List Byte)
  | tree (at_ : Fin 16) (h : PktHead) (t : TreeHead) (data : List Byte)
  | barrierArrive (h : PktHead) (barrier : Fin 16)
  | barrierRelease (n : Fin 96) (barrier : Fin 16)
  | maintenance (h : PktHead) (kind : Nat) (data : List Byte)
  | stitch (swatch : Fin 8) (chan : Byte) (position : BitVec 12) (entry : Vector Byte 64)
  | stitchCredit (swatch : Fin 8) (chan : Byte)
  | chainCmd (bytes : List Byte)
  | chainSeq (op : SeqOp) (arg : Word)
  | chainAddr (addr : Byte)
  | tagPulse (id : DWord) (slot : Nat)
  | tagBytes (id : DWord) (bytes : List Byte)
  | inner (type dest src : Byte) (payload : List Byte)
  | uart (c : Byte)
  | frameOut (bobbin : Fin 48) (bytes : List Byte)
  /-- a zero sample on each channel of a SoundWire output port with no frame ready (R419) -/
  | zeroSample (bobbin : Fin 48) (channels : Nat)
  | fsync (csi : Fin 8)
  | jtag (bits : BitVec 96)
  | thermtrip
  | twinImage (image : List Byte)
  | secondaryReport
  | twinLine (swatch line : Nat)
deriving DecidableEq, Repr

end Sys2Proof.Machine
end

