-- ==== Sys2Proof/Machine/ResetParts.lean ====
section
/-! DEFINITION. What each part of the machine holds right after reset: before selvage power good (R523), with the
registers at the Reset column of their tables. The values no table gives are named by the log entries 2 to 13. -/
namespace Sys2Proof.Machine
open Sys2Proof

/-- Build XN-1H3S2-1I of R32 (log 5). -/
def Fuses.mainstream : Fuses where
  ports := #v[⟨.stack, 0⟩, ⟨.stack, 0⟩, ⟨.stack, 1⟩, ⟨.stack, 1⟩, ⟨.host, 0⟩, ⟨.stack, 2⟩, ⟨.stack, 2⟩,
    ⟨.none, 0⟩, ⟨.none, 0⟩, ⟨.shus, 0⟩]
  hostPorts := 1
  stackCount := 3
  perStack := 2
  shusDies := 1
  twin := false
  primary := true
  shusPcie := false
  order := 0
  fullCensus := false
  budget := 6000
  subVendor := 0
  subsystem := 0
  stepping := 0x10
  serial := 0

/-- The standard builds of R32, the two dies of the twin package apart. -/
inductive Build
  | n1H2S1 | n1H3S2 | n1H4S2 | n2H2S2 | n0H2S2 | twinPrimary | twinSecondary
deriving DecidableEq, Repr
/-- The port map of a build (R32, R33): roles and stack numbers of E0 to E9. -/
def Build.ports : Build → Vector PortFuse 10
  | .n1H2S1 => #v[⟨.none, 0⟩, ⟨.stack, 0⟩, ⟨.none, 0⟩, ⟨.none, 0⟩, ⟨.host, 0⟩, ⟨.none, 0⟩, ⟨.stack, 1⟩, ⟨.none, 0⟩, ⟨.none, 0⟩,
      ⟨.shus, 0⟩]
  | .n1H3S2 => Fuses.mainstream.ports
  | .n1H4S2 => #v[⟨.stack, 0⟩, ⟨.stack, 0⟩, ⟨.stack, 1⟩, ⟨.stack, 1⟩, ⟨.host, 0⟩, ⟨.stack, 2⟩, ⟨.stack, 2⟩, ⟨.stack, 3⟩,
      ⟨.stack, 3⟩, ⟨.shus, 0⟩]
  | .n2H2S2 => #v[⟨.stack, 0⟩, ⟨.stack, 0⟩, ⟨.none, 0⟩, ⟨.host, 0⟩, ⟨.host, 0⟩, ⟨.stack, 1⟩, ⟨.stack, 1⟩, ⟨.none, 0⟩, ⟨.none, 0⟩,
      ⟨.shus, 0⟩]
  | .n0H2S2 => #v[⟨.stack, 0⟩, ⟨.stack, 0⟩, ⟨.none, 0⟩, ⟨.none, 0⟩, ⟨.none, 0⟩, ⟨.stack, 1⟩, ⟨.stack, 1⟩, ⟨.none, 0⟩, ⟨.none, 0⟩,
      ⟨.shus, 0⟩]
  | .twinPrimary => #v[⟨.stack, 0⟩, ⟨.stack, 0⟩, ⟨.stack, 1⟩, ⟨.stack, 1⟩, ⟨.host, 0⟩, ⟨.twin, 0⟩, ⟨.twin, 0⟩, ⟨.none, 0⟩,
      ⟨.none, 0⟩, ⟨.shus, 0⟩]
  | .twinSecondary => #v[⟨.twin, 0⟩, ⟨.twin, 0⟩, ⟨.stack, 2⟩, ⟨.stack, 2⟩, ⟨.none, 0⟩, ⟨.stack, 3⟩, ⟨.stack, 3⟩, ⟨.none, 0⟩,
      ⟨.none, 0⟩, ⟨.none, 0⟩]
/-- The digits a, b, c and d of a build's assembly code, for the whole package (R31). -/
def Build.digits : Build → Nat × Nat × Nat × Nat
  | .n1H2S1 => (1, 2, 1, 1)
  | .n1H3S2 => (1, 3, 2, 1)
  | .n1H4S2 => (1, 4, 2, 1)
  | .n2H2S2 => (2, 2, 2, 1)
  | .n0H2S2 => (0, 2, 2, 1)
  | .twinPrimary => (1, 4, 2, 1)
  | .twinSecondary => (1, 4, 2, 1)
/-- The fuse map Finloti supplies for a build (R2, R32): the customer's own fuses blank. -/
def Build.fuses (b : Build) : Fuses :=
  { Fuses.mainstream with
    ports := b.ports
    hostPorts := BitVec.ofNat 3 b.digits.1
    stackCount := BitVec.ofNat 3 b.digits.2.1
    perStack := BitVec.ofNat 2 b.digits.2.2.1
    shusDies := BitVec.ofNat 2 b.digits.2.2.2
    twin := decide (b = .twinPrimary ∨ b = .twinSecondary)
    primary := decide (b ≠ .twinSecondary)
    shusPcie := decide (b = .n0H2S2) }
/-- The port of the other die that a TWIN port faces (R33): E5 and E1, E6 and E0. -/
def Build.facing : Build → Fin 10 → Option (Fin 10)
  | .twinPrimary, 5 => some 1
  | .twinPrimary, 6 => some 0
  | .twinSecondary, 0 => some 6
  | .twinSecondary, 1 => some 5
  | _, _ => none

/-- No credits. -/
def Credits.zero : Credits := ⟨0, 0, 0, 0, 0, 0⟩

/-- An arbitration that has served nothing (R237). -/
def Drr.reset : Drr := ⟨0, Vector.replicate 4 0, Vector.replicate 4 0, Vector.replicate 9 0⟩
/-- An edge port in OFF (R61, R67). -/
def EdgePort.reset : EdgePort where
  st := .off
  farClass := 0
  confirmed := false
  mismatch := false
  rate := 0
  modules := 0
  maxRate := 3
  retrainReq := false
  lock := false
  events := 0
  retryCount := 0
  repairMap := 0
  retryLimit := 0x10
  spikeLast := 0
  retryTally := 0
  sideband := false
  sref := .none
  far := Credits.zero
  advert := Credits.zero
  nextSend := 0
  nextRecv := 0
  farAcked := 0
  unacked := 0
  outq := []
  grants := Vector.replicate 2 ⟨0, Vector.replicate 8 0, Drr.reset⟩
  rx := []
  retryBuf := []
  credited := 0

/-- The spindle before selvage power good. -/
def Boot.reset : Boot where
  phase := .notStarted
  rest := []
  image := []
  due := 0
  seq := 0
  offer := none
  warm := false
  forceFull := none
  secondary := false
  measure := 0

/-- SELV (R100) and the power state. -/
def Selv.reset : Selv where
  spwrok := false
  railFault := false
  thermtripN := true
  ready := false
  st := .off
  mgmtOk := false
  computeOk := false
  trans := none
  deferred := none
  bootStep := 0
  skeinsOn := 0
  fault := 0
  order := 0
  fullCensus := false
  bootLock := false
  source := 0
  svn := 0
  readyTime := 0
  goodSkeins := 0
  goodNeedles := 0
  censusFull := false
  ppoint := Vector.replicate 16 0
  rail := 0
  ramp := none
  budget := 0
  budgetLock := false
  windowLeft := 0
  recoveryLeft := 0
  windowUsed := 0
  capped := 0
  burstJoules := 0
  avg1ms := 0
  avg1s := 0
  hottest := 0
  wake := 0
  badAccess := 0
  limited := Vector.replicate 16 0
  throttled := Vector.replicate 16 0
  thermalStep := 0
  raising := false
  readings := none
  restartCmd := false

/-- No map yet: its registers read 0 until the census (R17). -/
def LMap.none : LMap where
  skeins := Vector.replicate 16 Option.none
  rows := 0
  fallback := false
  courses := 0
  epoch := 0

/-- Silicon without a defect (log 6). -/
def Phys.clean : Phys := ⟨[], [], [], [], [], Vector.replicate 2 0, Vector.replicate 4 0, Vector.replicate 8 0, 22⟩

/-- A function that is OFF (R99). -/
def EnFsm.off : EnFsm := ⟨false, .off, false, false⟩

/-- A submission ring at its reset values (R107, R109). -/
def Sq.reset : Sq := ⟨0, 0, EnFsm.off, false, 0, 0, 0, 0, 0, false, false, 0⟩

/-- A completion ring at its reset values (R108, R109). -/
def Cq.reset : Cq := ⟨0, 0, EnFsm.off, false, 0, 0, false, 0, 0, false, [], false, false⟩

/-- A host-facing function: masked vectors (log 7), BAR4 of 1 GiB (R44). -/
def HostFn.reset : HostFn where
  bar2Window := 0
  bar4Base := 0
  bar4Log := 0
  eventCtrl := 0
  eventsLost := 0
  ringFault := 0
  msix := Vector.replicate 64 ⟨0, 0, true⟩
  pba := 0
  d3hot := false
  resetting := false
  events := []

/-- A stack's registers (R389). -/
def Stack.reset : Stack where
  present := false
  lost := false
  sref := false
  temp := 0
  events := 0
  eccCorr := 0
  eccUncorr := 0
  uncorrLast := 0
  retired := 0
  scrubEn := true
  lock := false
  routeLo := none
  routeHi := none

/-- An Unset swatch: all fields 0 (R200). -/
def Swatch.unset : Swatch where
  st := .unset
  course0 := 0
  wale0 := 0
  coursesM1 := 0
  walesM1 := 0
  cls := .hard
  ppoint := 0
  near := false
  nearNext := none
  prio := 0
  tenant := 0
  shareM1 := 0
  budget := 0
  status := 0
  overruns := 0
  lastFinish := 0
  finished := false
  pubDepth := 0
  flipCount := 0
  saveBase := 0
  saveValid := false
  causes := []
  holdStep := .none
  holdCmd := none
  restoreCmd := none
  bindCmd := none
  knit := none
  lastRow := 0
  windows := []
  programs := []
  drafts := []
  pool := none
  poolUsed := []
  copies := []
  map := none
  mapNext := none
  mapRow := 0
  startNext := false
  ppCmd := none
  gaugeCmd := none
  saveOwed := false

/-- TICK (R199). -/
def Tick.reset : Tick where
  period := 0x000186A0
  nextPeriod := 0x000186A0
  count := 0
  phase := 0
  status := 0
  commitLast := 0
  waits := []
  twinDone := none
  twinHeld := []

/-- A bank with full credits, the drain group in turn (R260; log 8). -/
def Bank.reset : Bank := ⟨#v[0, 0, 0, 0], 0, 0, 0⟩

/-- An idle mover (R293). -/
def Mover.reset : Mover := ⟨[], none, 0, 0⟩

/-- A view that is off (R372). -/
def View.reset : View := ⟨0, 0, 0, 0, 0, 0, false, false, EnFsm.off⟩

/-- A carder (R372): seed 1, minimum and maximum at the infinities. -/
def Carder.reset : Carder where
  ftz := false
  reseed := false
  events := 0
  seed := 1
  lfsr := 1
  nan := 0
  clip := 0
  count := 0
  min := 0x7F800000
  max := 0xFF800000
  absmax := 0
  sum := (0, 0)
  sumsq := (0, 0)
  hist := Vector.replicate 64 0
  slots := Vector.replicate 16 []
  params := Vector.replicate 2048 0
  jobs := []
  loads := []
  views := Vector.replicate 4 View.reset

/-- A barrier that is not configured (R257). -/
def Barrier.reset : Barrier := ⟨0, 0, false, false, []⟩

/-- A mesh unit in no swatch (R257). -/
def MeshUnit.reset : MeshUnit where
  swatch := none
  course0 := 0
  wale0 := 0
  coursesM1 := 0
  walesM1 := 0
  events := 0
  dropCount := 0
  dropLast := 0
  barriers := Vector.replicate 16 Barrier.reset
  flags := Vector.replicate 64 0
  waits := []
  parts := []
  serving := []
  mcasts := []
  nextInst := Vector.replicate 6 (Vector.replicate 16 0)

/-- A logical skein (R257, R258, R293). -/
def Skein.reset : Skein where
  bankWaitMax := 0
  spareRows := Vector.replicate 16 0
  banks := Vector.replicate 16 Bank.reset
  movers := Vector.replicate 2 Mover.reset
  carders := Vector.replicate 2 Carder.reset
  mesh := MeshUnit.reset
  stch := ⟨0, 0, 0, Vector.replicate 5 0⟩

/-- An empty bed. -/
def Bed.empty : Bed := ⟨none, [], [], [], []⟩

/-- An idle needle with every register 0 (R295; log 9). -/
def Needle.reset : Needle where
  st := .idle
  wait := .none
  haltReq := false
  stepReq := false
  pc := 0
  s := Vector.replicate 32 0
  v := Vector.replicate 32 (Vector.replicate 64 0)
  p := Vector.replicate 8 0
  draft := 0
  ignoreNan := false
  faultFlag := 0
  fault := 0
  faultAddr := 0
  retired := 0
  stalls := 0
  cycles := 0
  dbgSel := 0
  feed := []
  bed := Bed.empty

/-- A distaff core that is off (R405; log 9). -/
def Distaff.reset : Distaff where
  st := .off
  granted := none
  halting := false
  pendingRun := false
  ucustom := false
  irqToM := false
  saved := false
  resetPc := 0
  irqPending := 0
  irqEnable := 0
  faultAddr := 0
  retired := 0
  pc := 0
  mode := 3
  x := Vector.replicate 32 0
  f := Vector.replicate 32 0
  v := Vector.replicate 32 0
  csrs := []
  draft := 0
  reserved := none
  wait := .none
  frogged := false
  recordPage := none

/-- An unbound bobbin (R422). -/
def Bobbin.reset : Bobbin where
  bound := false
  source := 0
  dirOut := false
  port := 0
  channel := 0
  log2Slots := 0
  swatch := none
  frame := 0
  ring := 0
  fsm := EnFsm.off
  events := 0
  published := 0
  seq := 0
  dropped := 0
  lastRow := 0
  written := 0
  complete := 0
  consumed := 0
  produced := 0
  dropsSince := 0
  dropsRow := 0
  skips := []
  opened := none
  full := false
  runCmd := none
  unbindCmd := none

/-- Shuskaub's ports (R422). -/
def IoPorts.reset : IoPorts where
  csiCfg := Vector.replicate 8 0
  csiStatus := Vector.replicate 8 0
  csiErrors := Vector.replicate 8 0
  sdwCfg := Vector.replicate 4 0
  sdwDp := Vector.replicate 4 (Vector.replicate 16 0)
  i3cCfg := Vector.replicate 2 0
  i3cDat := Vector.replicate 2 (Vector.replicate 32 0)
  uartCfg := 0
  uartEvents := 0
  uartRx := []
  uartTx := []
  uartBusy := false
  uartResync := false
  boardStatus := 0
  logLevel := 0

/-- A blank flash (log 5). -/
def Flash.blank : Flash := ⟨[], [], [], none⟩

/-- A pin at PIN_CFG 0x0000_0002, its pull-down (R426): a low level. -/
def Pin.reset : Pin := ⟨0x00000002, false, false, false⟩

/-- The TAP with IDCODE selected (log 7). -/
def Jtag.reset : Jtag := ⟨.idcode, 0, 0, 0, false, false⟩

/-- The outer chain (R464): standard speed, pulse mode, a search period of 2 s; the line high. -/
def Chain.reset : Chain where
  speed := false
  mode := 0
  period := 20
  events := 0
  idleCur := 0
  refCur := 0
  line := false
  strong := false
  seqOp := none
  seqResult := 0
  frameBuf := Vector.replicate 256 0
  search := none
  run := none
  waiting := []
  stuck := false
  list := []

/-- The inner chain (R465). -/
def Inner.reset : Inner := ⟨0, false, 0, 0, none, 0, 0⟩

/-- The tally as it leaves the wafer test: VALUE 0 in both slots (R479; log 5). -/
def Tally.reset : Tally where
  rootId := 0
  rootStore := 0
  svnMin := 0
  slots := Vector.replicate 16 (⟨0, 0, true⟩, ⟨0, 0, true⟩)
  floorWords := []
  owners := []
  tagMaster := none
  proofs := 0
  residue := 0
  rolledBack := false
  events := 0
  run := none
  waiting := []
  attests := []

/-- REP (R506) with an empty record. -/
def Rep.reset : Rep where
  run := none
  pending := false
  pendingFull := false
  autoCensus := true
  lock := false
  events := 0
  suspect := 0
  retiredSkeins := 0
  retiredNeedles := 0
  entries := []
  listFull := false
  limits := 0x0010050A
  aging := Vector.replicate 20 0
  droop := Vector.replicate 20 0
  droopRecent := Vector.replicate 20 []
  droopQuery := 0
  added := 0
  scrub := 0

end Sys2Proof.Machine
end

