-- ==== Sys2Proof/Machine/State.lean ====
section
/-! DEFINITION. The state of the block: one Lumaz die, what the assembly code attaches to it, and the queue of the
commands that wait. Plain data. -/
namespace Sys2Proof.Machine
open Sys2Proof

/-- Ways the machine could stop. Raised by no meaning: every row of the table has an effect or leaves the state as it
is, and both are next states (safe). -/
inductive Fault
  /-- raised by no command -/
  | unused
deriving DecidableEq, Repr

/-- Commands without a meaning. -/
inductive Refusal
  /-- raised by an arm of `exec` whose command has no meaning yet (safe: it runs nothing) -/
  | notModelled (mnemonic : String)
deriving DecidableEq, Repr

/-- What a hold writes into the save area of a swatch (R195, R196) where the spec gives no byte layout: the skein and needle
records apart from what memory holds of them at the offsets of R292 (log 15). -/
structure SaveImage where
  skeins  : List (Fin 16 × Skein)
  needles : List (Fin 96 × Needle)
  chans   : List ChanFifo
  core    : Option Distaff
deriving DecidableEq, Repr

/-- The state. -/
structure State where
  /-- assembly (03, 18) -/
  fuses      : Fuses
  phys       : Phys
  /-- start-up and power (04, 21) -/
  selv       : Selv
  boot       : Boot
  map        : LMap
  /-- edge ports and stacks (03, 14) -/
  ports      : Vector EdgePort 10
  stack      : Vector Stack 4
  /-- STK_LOCAL_MAP (R389) -/
  localMap   : BitVec 24
  shusPcieUp : Bool
  /-- Renaro (05, 06) -/
  sqs        : Vector Sq 16
  cqs        : Vector Cq 16
  /-- the SQ in turn and the entries left of its turn (R134) -/
  turn       : Fin 16
  turnLeft   : Nat
  fns        : Vector HostFn 2
  grants     : List Grant
  /-- high words latched by the reads of low words, by register address (R13) -/
  latch      : List (Nat × Word)
  /-- entries of the firmware log, oldest first (R176, R427; log 19) -/
  fwLog      : List (List Byte)
  /-- commands in flight whose end is another command's effect, with what they were (R132) -/
  jobs       : List (CmdRef × Half × List Byte)
  /-- rows, swatches and drafts (07, 08) -/
  tick       : Tick
  swatches   : Vector Swatch 8
  saves      : Vector (Option SaveImage) 8
  /-- time on the device [10 ns] (R415) -/
  deviceTime : DWord
  /-- memory (14): bytes by yarn address, the poisoned granules by address, page owners and allocations -/
  mem        : List (Nat × Byte)
  poison     : List Nat
  pages      : List PageRun
  /-- granules whose uncorrectable error makes their page retire when it is freed (R383) -/
  badPages   : List Nat
  hanks      : List Hank
  nextHank   : Nat
  twinWins   : List TwinWin
  /-- accesses issued and not completed, oldest first; the number of the next -/
  accesses   : List Access
  nextAccess : Nat
  /-- yarn, skeins and needles (09 to 13) -/
  gauge      : Gauge
  skeins     : Vector Skein 16
  needles    : Vector Needle 96
  chans      : List ChanFifo
  twinChains : List TwinChain
  edgeCarders : Vector Carder 10
  /-- distaff cores (15): the cores, DST_L2_EVENTS, the cluster's caches -/
  distaffs   : Vector Distaff 4
  l2Events   : Word
  cache      : List CacheLine
  /-- Shuskaub (16) -/
  bobbins    : Vector Bobbin 48
  io         : IoPorts
  pins       : Vector Pin 32
  wakeEvents : Word
  flash      : Flash
  jtag       : Jtag
  /-- chains, tags and tally (17, 18) -/
  chain      : Chain
  tags       : List Tag
  inner      : Inner
  tally      : Tally
  /-- repair (19) -/
  rep        : Rep
  /-- the model's own (log 1, 3, 11): what the block has sent, oldest first; the next free value; the queue -/
  out        : List Out
  freeCtr    : Nat
  pending    : List Instr
deriving DecidableEq, Repr

/-- The machine right after reset: unpowered, before selvage power good (R523; log 4). -/
def State.reset : State where
  fuses := Fuses.mainstream
  phys := Phys.clean
  selv := Selv.reset
  boot := Boot.reset
  map := LMap.none
  ports := Vector.replicate 10 EdgePort.reset
  stack := Vector.replicate 4 Stack.reset
  localMap := 0
  shusPcieUp := false
  sqs := Vector.replicate 16 Sq.reset
  cqs := Vector.replicate 16 Cq.reset
  turn := 0
  turnLeft := 0
  fns := Vector.replicate 2 HostFn.reset
  grants := []
  latch := []
  fwLog := []
  jobs := []
  tick := Tick.reset
  swatches := Vector.replicate 8 Swatch.unset
  saves := Vector.replicate 8 none
  deviceTime := 0
  mem := []
  poison := []
  pages := []
  badPages := []
  hanks := []
  nextHank := 1
  twinWins := []
  accesses := []
  nextAccess := 0
  gauge := ⟨0, 0, 0, [], Vector.replicate 2 Drr.reset⟩
  skeins := Vector.replicate 16 Skein.reset
  needles := Vector.replicate 96 Needle.reset
  chans := []
  twinChains := []
  edgeCarders := Vector.replicate 10 Carder.reset
  distaffs := Vector.replicate 4 Distaff.reset
  l2Events := 0
  cache := []
  bobbins := Vector.replicate 48 Bobbin.reset
  io := IoPorts.reset
  pins := Vector.replicate 32 Pin.reset
  wakeEvents := 0
  flash := Flash.blank
  jtag := Jtag.reset
  chain := Chain.reset
  tags := []
  inner := Inner.reset
  tally := Tally.reset
  rep := Rep.reset
  out := []
  freeCtr := 0
  pending := []

end Sys2Proof.Machine
end

