-- ==== Sys2Proof/Machine/Ops.lean ====
section
/-! DEFINITION. The named operations of the machine: bit fields, bytes of memory, updates of one part of the state,
free values, the yarn address map with its translation to stacks (14 R373 to R375), hank pages (R378), and what the
block sends. -/
namespace Sys2Proof.Machine
open Sys2Proof

/-! ### Words and fields -/

/-- Bits [hi:lo] of a number. -/
def bitsN (v hi lo : Nat) : Nat := (v / 2 ^ lo) % 2 ^ (hi + 1 - lo)
/-- Bits [hi:lo] of a word. -/
def fld {n : Nat} (w : BitVec n) (hi lo : Nat) : Nat := bitsN w.toNat hi lo
/-- A word put together from fields (low bit, width, value). -/
def mkW (fs : List (Nat × Nat × Nat)) : Word :=
  fs.foldl (fun w f => w ||| BitVec.ofNat 32 ((f.2.2 % 2 ^ f.2.1) * 2 ^ f.1)) 0
/-- A Bool as a bit. -/
def b2n (b : Bool) : Nat := if b then 1 else 0
/-- Bit i of a word set. -/
def setBit {n : Nat} (w : BitVec n) (i : Nat) : BitVec n := w ||| BitVec.ofNat n (2 ^ i)
/-- Bit i of a word cleared. -/
def clrBit {n : Nat} (w : BitVec n) (i : Nat) : BitVec n := w &&& ~~~(BitVec.ofNat n (2 ^ i))
/-- Bit i of a word given a value. -/
def putBit {n : Nat} (w : BitVec n) (i : Nat) (b : Bool) : BitVec n := if b then setBit w i else clrBit w i
/-- Saturating count (the word "saturates" of the register tables). -/
def satAdd {n : Nat} (w : BitVec n) (k : Nat) : BitVec n :=
  if w.toNat + k < 2 ^ n then BitVec.ofNat n (w.toNat + k) else BitVec.allOnes n
/-- The n bytes of a list from an offset, short lists filled up with zeros. -/
def slice (l : List Byte) (off n : Nat) : List Byte :=
  let p := (l.drop off).take n
  p ++ List.replicate (n - p.length) 0
/-- Exactly n bytes: cut, or filled up with zeros. -/
def padTo (n : Nat) (l : List Byte) : List Byte := slice l 0 n
/-- A vector of n bytes from a list. -/
def toVec (n : Nat) (l : List Byte) : Vector Byte n := Vector.ofFn fun i => l.getD i.val 0
/-- A little-endian number at an offset (R12). -/
def leAt (l : List Byte) (off n : Nat) : Nat := leNat (slice l off n)
/-- One element of a vector changed. -/
def upd {α : Type} {n : Nat} (v : Vector α n) (i : Fin n) (f : α → α) : Vector α n := v.set i (f v[i])
/-- Every element of a vector changed, knowing its place. -/
def mapV {α : Type} {n : Nat} (v : Vector α n) (f : Fin n → α → α) : Vector α n := Vector.ofFn fun i => f i v[i]
/-- All numbers below n. -/
def allFin (n : Nat) : List (Fin n) := List.finRange n
/-- Sum of a list of numbers. -/
def sumN (l : List Nat) : Nat := l.foldl (· + ·) 0
/-- One bit of CRC-32C, least significant bit first. -/
def crcBit (c : Nat) : Nat := if c % 2 = 1 then (c / 2) ^^^ 0x82F63B78 else c / 2
/-- CRC-32C of some bytes (R48). -/
def crc32c (l : List Byte) : Nat :=
  (l.foldl (fun c b => crcBit (crcBit (crcBit (crcBit (crcBit (crcBit (crcBit (crcBit (c ^^^ b.toNat))))))))) 0xFFFFFFFF) ^^^ 0xFFFFFFFF
/-- The signed value of a half word. -/
def sHalf (h : Half) : Int := h.toInt

/-! ### Bytes by address: strictly rising addresses, no byte equal to what an unlisted address reads as -/

/-- What an address that is not listed reads as (log 2). -/
def memDefault : Byte := 0

/-- The byte at an address. -/
def memGet : List (Nat × Byte) → Nat → Byte
  | [], _ => memDefault
  | (k, b) :: m, a => if a = k then b else memGet m a

/-- One byte written. -/
def memSet : List (Nat × Byte) → Nat → Byte → List (Nat × Byte)
  | [], a, b => if b = memDefault then [] else [(a, b)]
  | (k, c) :: m, a, b =>
    if a < k then if b = memDefault then (k, c) :: m else (a, b) :: (k, c) :: m
    else if a = k then if b = memDefault then m else (a, b) :: m
    else (k, c) :: memSet m a b

/-- The canonical form: every address below those after it, no default byte. -/
def Memory.wf : List (Nat × Byte) → Bool
  | [] => true
  | (k, b) :: m => (b != memDefault) && m.all (fun c => decide (k < c.1)) && Memory.wf m

/-- The bytes of a range. -/
def memRead (m : List (Nat × Byte)) (a n : Nat) : List Byte :=
  let r := m.filter fun c => decide (a ≤ c.1 ∧ c.1 < a + n)
  (List.range n).map fun i => memGet r (a + i)

/-- The entries of bytes from an address upward: none for a byte that an unlisted address reads as. -/
def memCells (a : Nat) : List Byte → List (Nat × Byte)
  | [] => []
  | b :: bs => if b = memDefault then memCells (a + 1) bs else (a, b) :: memCells (a + 1) bs

/-- Bytes written from an address upward. -/
def memWrite (m : List (Nat × Byte)) (a : Nat) (bs : List Byte) : List (Nat × Byte) :=
  (m.filter fun c => decide (c.1 < a)) ++ memCells a bs ++ m.filter fun c => decide (a + bs.length ≤ c.1)

/-- Bytes written where a mask lets them be: a masked byte is written with what it holds. -/
def memWriteM (m : List (Nat × Byte)) (a : Nat) (bs : List (Option Byte)) : List (Nat × Byte) :=
  if bs.all Option.isSome then memWrite m a (bs.map fun o => o.getD memDefault)
  else memWrite m a (List.zipWith (fun (o : Option Byte) old => o.getD old) bs (memRead m a bs.length))

/-- A range put back to what nothing has written. -/
def memClear (m : List (Nat × Byte)) (a n : Nat) : List (Nat × Byte) :=
  m.filter fun c => decide (c.1 < a) || decide (a + n ≤ c.1)

/-! ### One part of the state changed -/

def State.modPort (s : State) (p : Fin 10) (f : EdgePort → EdgePort) : State := { s with ports := upd s.ports p f }
def State.modStack (s : State) (b : Fin 4) (f : Stack → Stack) : State := { s with stack := upd s.stack b f }
def State.modSq (s : State) (i : Fin 16) (f : Sq → Sq) : State := { s with sqs := upd s.sqs i f }
def State.modCq (s : State) (i : Fin 16) (f : Cq → Cq) : State := { s with cqs := upd s.cqs i f }
def State.modFn (s : State) (i : Fin 2) (f : HostFn → HostFn) : State := { s with fns := upd s.fns i f }
def State.modSw (s : State) (i : Fin 8) (f : Swatch → Swatch) : State := { s with swatches := upd s.swatches i f }
def State.modSkein (s : State) (i : Fin 16) (f : Skein → Skein) : State := { s with skeins := upd s.skeins i f }
def State.modNeedle (s : State) (i : Fin 96) (f : Needle → Needle) : State := { s with needles := upd s.needles i f }
def State.modDst (s : State) (i : Fin 4) (f : Distaff → Distaff) : State := { s with distaffs := upd s.distaffs i f }
def State.modBob (s : State) (i : Fin 48) (f : Bobbin → Bobbin) : State := { s with bobbins := upd s.bobbins i f }
def State.modPin (s : State) (i : Fin 32) (f : Pin → Pin) : State := { s with pins := upd s.pins i f }
def State.modEdgeCarder (s : State) (i : Fin 10) (f : Carder → Carder) : State :=
  { s with edgeCarders := upd s.edgeCarders i f }
def State.modSelv (s : State) (f : Selv → Selv) : State := { s with selv := f s.selv }
def State.modBoot (s : State) (f : Boot → Boot) : State := { s with boot := f s.boot }
def State.modTick (s : State) (f : Tick → Tick) : State := { s with tick := f s.tick }
def State.modChain (s : State) (f : Chain → Chain) : State := { s with chain := f s.chain }
def State.modInner (s : State) (f : Inner → Inner) : State := { s with inner := f s.inner }
def State.modTally (s : State) (f : Tally → Tally) : State := { s with tally := f s.tally }
def State.modRep (s : State) (f : Rep → Rep) : State := { s with rep := f s.rep }
def State.modIo (s : State) (f : IoPorts → IoPorts) : State := { s with io := f s.io }
def State.modJtag (s : State) (f : Jtag → Jtag) : State := { s with jtag := f s.jtag }

/-- Something sent (log 3). -/
def State.emit (s : State) (o : Out) : State := { s with out := s.out ++ [o] }
/-- Several things sent, in order. -/
def State.emits (s : State) (os : List Out) : State := { s with out := s.out ++ os }
/-- Memory written from a key upward. -/
def State.store (s : State) (a : Nat) (bs : List Byte) : State := { s with mem := memWrite s.mem a bs }
/-- The granule errors are kept by at an address: 64 bytes in a skein store (19 R494), 32 elsewhere (R383). -/
def errGran (a : Nat) : Nat := if a < 0x4000000 then 64 else 32
/-- Whether a write covers every byte of the granule an address lies in. -/
def coversGran (a : Nat) (bs : List (Option Byte)) (g : Nat) : Bool :=
  let w := errGran g
  let g0 := g / w * w
  decide (a ≤ g0 ∧ g0 + w ≤ a + bs.length) && ((bs.drop (g0 - a)).take w).all Option.isSome
/-- The bytes of a write that land: of a granule of a stack that holds an uncorrectable error, only a write of all of it
lands (R383). -/
def State.landing (s : State) (a : Nat) (bs : List (Option Byte)) : List (Option Byte) :=
  if s.poison.isEmpty then bs
  else (List.range bs.length).map fun i =>
    if 0x4000000 ≤ a + i ∧ s.poison.contains ((a + i) / 32 * 32) ∧ !coversGran a bs (a + i) then none else bs.getD i none
/-- Memory written by an agent: a granule written whole is clean again (R383, R494). -/
def State.put (s : State) (a : Nat) (bs : List (Option Byte)) : State :=
  { s with mem := memWriteM s.mem a (s.landing a bs)
           poison := s.poison.filter fun g => !coversGran a bs g }
/-- The next free value (log 11). -/
def State.freeVal (s : State) : BitVec 64 := Config.freeBits s.freeCtr
/-- That value used up. -/
def State.useFree (s : State) : State := { s with freeCtr := s.freeCtr + 1 }
/-- An access counted in SELV_BAD_ACCESS (R25, R43, R73). -/
def State.badAcc (s : State) : State := s.modSelv fun v => { v with badAccess := satAdd v.badAccess 1 }
/-- A sticky fault of SELV_FAULT set (R100). -/
def State.selvFault (s : State) (i : Nat) : State := s.modSelv fun v => { v with fault := setBit v.fault i }
/-- A sticky bit of SWT_STATUS set (R200). -/
def State.swStatus (s : State) (i : Fin 8) (b : Nat) : State :=
  s.modSw i fun w => { w with status := setBit w.status b }

/-! ### The package -/

/-- The ports of a role, in ascending order. -/
def State.portsOf (s : State) (r : Role) : List (Fin 10) := (allFin 10).filter fun p => s.fuses.ports[p].role = r
/-- Whether a port is ACTIVE or DEGRADED. -/
def State.portUp (s : State) (p : Fin 10) : Bool := s.ports[p].st.up
/-- Whether a port carries traffic: up, or retraining with its requests waiting (R57). -/
def State.portCarries (s : State) (p : Fin 10) : Bool := s.ports[p].st.carries
/-- The class of a transaction (R50): REQ, MSG, PLY, RSP. -/
def SentTxn.cls (t : SentTxn) : Nat :=
  if t.ttype.toNat < 8 then 0 else if t.ttype = 0x10 then 1 else if t.ttype = 0x11 then 2 else 3
/-- Data granules after a header (R50). -/
def txnGranules (ttype : Nat) (len : Nat) : Nat :=
  match ttype with
  | 2 => len + 1 | 3 => len + 2 | 4 => len + 1 | 6 => 1 | 8 => len + 1 | 0x10 => 1 | 0x11 => len + 1 | _ => 0
def SentTxn.granules (t : SentTxn) : Nat := txnGranules t.ttype.toNat t.head.len.val
/-- What the link carries. -/
def SentTxn.sent (t : SentTxn) : Out :=
  if t.ttype = 0x10 then .msg t.head.port (t.head.addr.setWidth 32) (t.data.map fun b => b.getD 0)
  else .txn t.ttype t.subop t.head t.data
/-- A transaction-header slot (R49). -/
def SentTxn.slot (t : SentTxn) : DWord :=
  BitVec.ofNat 64 (t.head.addr.toNat * 2 ^ 24 + t.subop % 8 * 2 ^ 21 + b2n t.head.poison * 2 ^ 20 + t.head.prio.val * 2 ^ 18 +
    t.head.len.val * 2 ^ 16 + t.head.tag.val * 2 ^ 5 + t.ttype.toNat)
/-- The data granules of a transaction; those of a WR_MASK begin with the byte mask (R50). -/
def SentTxn.bytes (t : SentTxn) : List Byte :=
  let d := t.data.map fun b => b.getD 0
  if t.ttype = 3 then
    (List.range 32).map (fun i => (List.range 8).foldl (fun (m : Byte) j =>
      if (t.data.getD (8 * i + j) none).isSome then setBit m j else m) 0) ++ d
  else d
/-- A flit (R48): header, three slots, CRC and the data area, unused granules zero (R52). -/
def flitBytes (head : Word) (slots : List DWord) (data : List Byte) : List Byte :=
  let front := leBytes 4 head.toNat ++ (padTo 24 (slots.flatMap fun w => leBytes 8 w.toNat))
  let area := padTo 224 data
  front ++ leBytes 4 (crc32c (front ++ area)) ++ area
/-- The flit of a transaction: slot 0 and the front of the data area (log 37), with the highest number received in order. -/
def EdgePort.flitOf (e : EdgePort) (fseq : BitVec 10) (t : SentTxn) : List Byte :=
  flitBytes (mkW [(0, 10, fseq.toNat), (10, 10, (e.nextRecv - 1).toNat)]) [t.slot] t.bytes
/-- Transactions with their flits, numbered upward. -/
def EdgePort.flits (e : EdgePort) (p : Fin 10) : BitVec 10 → List SentTxn → List Out
  | _, [] => []
  | n, t :: l => t.sent :: .flit p (e.flitOf n t) :: e.flits p (n + 1) l
/-- Credits of a class: whether they cover a transaction, and credits taken and given (R53). -/
def creditsCover (c : Credits) (cls n : Nat) : Bool :=
  match cls with
  | 0 => decide (1 ≤ c.reqH ∧ n ≤ c.reqD)
  | 1 => decide (1 ≤ c.msgH ∧ n ≤ c.msgD)
  | 2 => decide (1 ≤ c.plyH ∧ n ≤ c.plyD)
  | _ => true
def creditsTake (c : Credits) (cls h n : Nat) : Credits :=
  match cls with
  | 0 => { c with reqH := c.reqH - h, reqD := c.reqD - n }
  | 1 => { c with msgH := c.msgH - h, msgD := c.msgD - n }
  | 2 => { c with plyH := c.plyH - h, plyD := c.plyD - n }
  | _ => c
def creditsGive (c : Credits) (cls h n : Nat) : Credits :=
  match cls with
  | 0 => { c with reqH := c.reqH + h, reqD := c.reqD + n }
  | 1 => { c with msgH := c.msgH + h, msgD := c.msgD + n }
  | 2 => { c with plyH := c.plyH + h, plyD := c.plyD + n }
  | _ => c
/-- Waiting transactions sent while credits and the retry buffer allow; no class blocks another (R53, R54, R56): the port
after, what still waits, and what is sent. -/
def EdgePort.drain (e : EdgePort) (blocked : List Nat) : List SentTxn → EdgePort × List SentTxn × List SentTxn
  | [] => (e, [], [])
  | t :: l =>
    if blocked.contains t.cls || decide (128 ≤ e.retryBuf.length) || !creditsCover e.far t.cls t.granules then
      let r := e.drain (t.cls :: blocked) l
      (r.1, t :: r.2.1, r.2.2)
    else
      let e' : EdgePort := { e with
        far := creditsTake e.far t.cls 1 t.granules, retryBuf := e.retryBuf ++ [t], nextSend := e.nextSend + 1 }
      let r := e'.drain blocked l
      (r.1, r.2.1, t :: r.2.2)
/-- A port sends what it can; one that is not up keeps it (R57). -/
def State.pumpPort (s : State) (p : Fin 10) : State :=
  if s.portUp p then
    let r := s.ports[p].drain [] s.ports[p].outq
    (s.modPort p fun _ => { r.1 with outq := r.2.1 }).emits (s.ports[p].flits p s.ports[p].nextSend r.2.2)
  else s
/-- A transaction given to a port: lost where the port carries nothing. -/
def State.transmit (s : State) (t : SentTxn) : State :=
  if s.portCarries t.head.port then (s.modPort t.head.port fun e => { e with outq := e.outq ++ [t] }).pumpPort t.head.port
  else s
/-- A message of one granule (R60). -/
def State.sendMsg (s : State) (p : Fin 10) (code : Nat) (payload : List Byte) : State :=
  s.transmit ⟨0x10, 0, ⟨p, 0, 0, 0, false, BitVec.ofNat 40 code⟩, payload.map some⟩
/-- Pieces of at most 128 bytes that do not cross a 128-byte boundary: offset and length. -/
def pieces (a : Nat) : Nat → Nat → List (Nat × Nat)
  | 0, _ => []
  | fuel + 1, len =>
    if len = 0 then []
    else
      let n := min len (128 - a % 128)
      (a, n) :: pieces (a + n) fuel (len - n)
/-- The SHUS port: none on a die of a package part without Shuskaub, as a twin secondary (R3, R33). -/
def State.shusPort (s : State) : Option (Fin 10) := (s.portsOf .shus).head?
/-- Whether this die's package part holds Shuskaub: its functions exist there only (R3). -/
def State.shuskaub (s : State) : Bool := s.shusPort.isSome
/-- The first TWIN port that is up, else the first that retrains: which of the two TWIN ports of a die carries its requests and
messages is a DESIGN CHOICE, R33 naming none (log 151). -/
def State.twinPort (s : State) : Option (Fin 10) :=
  ((s.portsOf .twin).find? s.portUp).or ((s.portsOf .twin).find? s.portCarries)
/-- The ports of a stack. -/
def State.stackPorts (s : State) (b : Fin 4) : List (Fin 10) :=
  (s.portsOf .stack).filter fun p => s.fuses.ports[p].stack = b
/-- The stacks the assembly code names on this die. -/
def State.namedStacks (s : State) : List (Fin 4) := (allFin 4).filter fun b => !(s.stackPorts b).isEmpty
/-- The stacks that passed step 8 (R389). -/
def State.presentStacks (s : State) : List (Fin 4) := (allFin 4).filter fun b => s.stack[b].present
/-- Number of host-facing functions: one, or two in a build with two HOST ports (R103). -/
def State.fnCount (s : State) : Nat := if s.fuses.hostPorts = 2 then 2 else 1
/-- Whether a function exists. -/
def State.fnExists (s : State) (f : Fin 2) : Bool := decide (f.val < s.fnCount)
/-- The port a function is reached through (R40): its HOST port, or the SHUS port with the Shuskaub endpoint. -/
def State.fnPort (s : State) (f : Fin 2) : Option (Fin 10) :=
  if s.fuses.shusPcie then s.shusPort else (s.portsOf .host)[f.val]?
/-- The function a HOST or SHUS port carries. -/
def State.portFn (s : State) (p : Fin 10) : Option (Fin 2) :=
  (allFin 2).find? fun f => s.fnExists f && decide (s.fnPort f = some p)
/-- The function that owns a ring pair (R103). -/
def State.ringFn (s : State) (i : Fin 16) : Fin 2 := if s.fuses.hostPorts = 2 ∧ 8 ≤ i.val then 1 else 0
/-- A function that can serve the host window: its port is up and it is in D0 (R374). -/
def State.hostPath (s : State) : Option (Fin 10) :=
  if s.fuses.shusPcie then s.shusPort.filter fun p => s.portCarries p && s.shusPcieUp
  else ((s.portsOf .host).find? s.portUp).or ((s.portsOf .host).find? s.portCarries)
/-- The management service of the table of serviceable sets (04). -/
def State.mgmtPresent (s : State) : Bool :=
  (s.portsOf .host).any s.portCarries || (s.fuses.shusPcie && (s.portsOf .shus).any s.portCarries && s.shusPcieUp)
/-- Whether a logical skein is in the map. -/
def State.skeinIn (s : State) (i : Fin 16) : Bool := s.map.skeins[i].isSome
/-- Logical skeins in the map, ascending. -/
def State.skeinList (s : State) : List (Fin 16) := (allFin 16).filter s.skeinIn
/-- The skeins in the map as bits. -/
def State.mapMask (s : State) : BitVec 16 := (s.skeinList).foldl (fun m i => setBit m i.val) 0
/-- Whether the hardware trip has stopped everything but the selvage (R528, R530). -/
def State.tripped (s : State) : Bool := !s.selv.thermtripN

/-- The skein of a needle (R20). -/
def skeinOf (n : Fin 96) : Fin 16 := ⟨n.val / 6, by omega⟩
/-- The place of a needle in its skein (R20). -/
def kOf (n : Fin 96) : Fin 6 := ⟨n.val % 6, by omega⟩
/-- The needle k of a skein (R20). -/
def needleOf (s : Fin 16) (k : Fin 6) : Fin 96 := ⟨6 * s.val + k.val, by omega⟩
/-- The skein at a course and wale (R20). -/
def skeinAt (c w : Fin 4) : Fin 16 := ⟨4 * c.val + w.val, by omega⟩
/-- The course of a skein. -/
def courseOf (s : Fin 16) : Fin 4 := ⟨s.val / 4, by omega⟩
/-- The wale of a skein. -/
def waleOf (s : Fin 16) : Fin 4 := ⟨s.val % 4, by omega⟩

/-- Whether a skein lies in a rectangle (R177). -/
def inRect (course0 wale0 coursesM1 walesM1 : Nat) (k : Fin 16) : Bool :=
  decide (course0 ≤ k.val / 4 ∧ k.val / 4 ≤ course0 + coursesM1 ∧ wale0 ≤ k.val % 4 ∧ k.val % 4 ≤ wale0 + walesM1)
/-- Whether a skein lies in the rectangle of a swatch. -/
def Swatch.covers (w : Swatch) (k : Fin 16) : Bool :=
  inRect w.course0.val w.wale0.val w.coursesM1.val w.walesM1.val k
/-- The skeins of a swatch. -/
def Swatch.skeinList (w : Swatch) : List (Fin 16) := (allFin 16).filter w.covers
/-- The skeins of a swatch as bits. -/
def Swatch.mask (w : Swatch) : BitVec 16 := w.skeinList.foldl (fun m i => setBit m i.val) 0
/-- Whether a swatch is cast: any state but Unset. -/
def Swatch.isCast (w : Swatch) : Bool := w.st != .unset
/-- The cast swatches, ascending. -/
def State.castList (s : State) : List (Fin 8) := (allFin 8).filter fun i => s.swatches[i].isCast
/-- The swatch a skein lies in. -/
def State.swatchOf (s : State) (k : Fin 16) : Option (Fin 8) := s.castList.find? fun i => s.swatches[i].covers k
/-- The needles of a swatch. -/
def Swatch.needleList (w : Swatch) : List (Fin 96) := (allFin 96).filter fun n => w.covers (skeinOf n)
/-- Every distaff core granted to a swatch changed. -/
def State.modCoresOf (s : State) (i : Fin 8) (f : Distaff → Distaff) : State :=
  { s with distaffs := mapV s.distaffs fun _ c => if c.granted = some i then f c else c }
/-- Every needle of a swatch changed. -/
def State.modNeedlesOf (s : State) (i : Fin 8) (f : Needle → Needle) : State :=
  { s with needles := mapV s.needles fun n x => if s.swatches[i].covers (skeinOf n) then f x else x }
/-- Every skein of a swatch changed. -/
def State.modSkeinsOf (s : State) (i : Fin 8) (f : Skein → Skein) : State :=
  { s with skeins := mapV s.skeins fun k x => if s.swatches[i].covers k then f x else x }

/-! ### The yarn address map (R373) and the translation to stacks (R375) -/

def stackBase : Nat := 0x1000000000
def viewBase : Nat := 0x3000000000
def twinBase : Nat := 0x4000000000
def hostBase : Nat := 0x8000000000
def regBase : Nat := 0x10000000
def pageSize : Nat := 0x10000

/-- What a yarn address decodes to (R373). -/
inductive Region
  | store (skein : Fin 16)
  | regs
  | stack
  | views
  | twin
  | host
  | nothing
deriving DecidableEq, Repr

/-- Number of bands: 24 for each stack that passed step 8 (R373). -/
def State.nStacks (s : State) : Nat := s.presentStacks.length

/-- The decoding of R373. -/
def State.region (s : State) (a : Nat) : Region :=
  if a < 0x4000000 then
    if s.skeinIn (Fin.ofNat 16 (a / 0x400000)) then .store (Fin.ofNat 16 (a / 0x400000)) else .nothing
  else if regBase ≤ a ∧ a < 0x20000000 then .regs
  else if stackBase ≤ a ∧ a < stackBase + 24 * s.nStacks * 0x40000000 then .stack
  else if viewBase ≤ a ∧ a < 0x3A00000000 then .views
  else if twinBase ≤ a ∧ a < hostBase then if s.fuses.twin then .twin else .nothing
  else if hostBase ≤ a ∧ a < 0x10000000000 then
    if (s.portsOf .host).isEmpty ∧ s.fuses.shusPcie = false then .nothing else .host
  else .nothing

/-- XOR of the 4-bit fields (R375). -/
def fold4 (x : Nat) : Nat := (List.range 8).foldl (fun a k => a ^^^ bitsN x (4 * k + 3) (4 * k)) 0
/-- XOR of the 3-bit fields (R375). -/
def fold3 (x : Nat) : Nat := (List.range 11).foldl (fun a k => a ^^^ bitsN x (3 * k + 2) (3 * k)) 0

/-- Where a stack address lies: rank among the present stacks, slice, and offset within the stack (R375). -/
structure Place where
  rank   : Nat
  slice  : Nat
  offset : Nat
deriving DecidableEq, Repr

/-- The translation of R375 with n stacks present. -/
def xlate (localMap : BitVec 24) (n a : Nat) : Place :=
  let p := a - stackBase
  let i := p / 0x40000000
  let j := i / n
  let r := i % n
  if localMap.getLsbD j then
    let h := (p % 0x20000000) / 256
    let sl := 8 * bitsN p 29 29 + (h % 8 ^^^ fold3 (h / 8))
    ⟨r, sl, sl * 0x60000000 + j * 0x4000000 + (h / 8) * 256 + p % 256⟩
  else
    let g := (i - n * j) * 0x400000 + (p % 0x40000000) / 256
    let h := g / n
    let sl := h % 16 ^^^ fold4 (h / 16)
    ⟨g % n, sl, sl * 0x60000000 + j * 0x4000000 + (h / 16) * 256 + p % 256⟩

/-- The yarn address of a stack offset: R375 read backwards. -/
def unxlate (localMap : BitVec 24) (n rank offset : Nat) : Nat :=
  let sl := offset / 0x60000000
  let j := (offset % 0x60000000) / 0x4000000
  let row := (offset % 0x4000000) / 256
  if localMap.getLsbD j then
    let h := row * 8 + (sl % 8 ^^^ fold3 row)
    stackBase + (n * j + rank) * 0x40000000 + (sl / 8) * 0x20000000 + h * 256 + offset % 256
  else
    let h := row * 16 + (sl ^^^ fold4 row)
    let g := h * n + rank
    stackBase + (n * j + g / 0x400000) * 0x40000000 + (g % 0x400000) * 256 + offset % 256

/-- The place of a stack address of this die. -/
def State.place (s : State) (a : Nat) : Place := xlate s.localMap s.nStacks a
/-- The stack an address lies on. -/
def State.stackOf (s : State) (a : Nat) : Fin 4 := (s.presentStacks[(s.place a).rank]?).getD 0
/-- The yarn address of an offset in a stack. -/
def State.addrOf (s : State) (b : Fin 4) (off : Nat) : Nat :=
  unxlate s.localMap s.nStacks ((s.presentStacks.idxOf b)) off
/-- The port that serves a stack address under the slice routing in force (R59). -/
def State.stackPort (s : State) (a : Nat) : Option (Fin 10) :=
  let st := s.stack[s.stackOf a]
  if (s.place a).slice < 8 then st.routeLo else st.routeHi
/-- Whether an address lies on a lost stack (R385). -/
def State.onLost (s : State) (a : Nat) : Bool := s.region a = .stack && s.stack[s.stackOf a].lost
/-- Whether an address lies on a stack in self-refresh (R386). -/
def State.inSref (s : State) (a : Nat) : Bool := s.region a = .stack && s.stack[s.stackOf a].sref
/-- Whether a byte's 32-byte granule holds an uncorrectable error. -/
def State.isBad (s : State) (a : Nat) : Bool := s.poison.contains (a / 32 * 32) || s.onLost a
/-- Whether any byte of a range is uncorrectable. -/
def State.anyBad (s : State) (a n : Nat) : Bool :=
  (List.range ((a + n + 31) / 32 - a / 32)).any fun k => s.isBad ((a / 32 + k) * 32)

/-- Whether a write meets an uncorrectable error: a granule it covers in part, or a lost stack (R383, R385). -/
def State.writeBad (s : State) (a n : Nat) : Bool :=
  decide (0x4000000 ≤ a) && ((decide (a % 32 ≠ 0) && s.isBad a) || (decide ((a + n) % 32 ≠ 0) && s.isBad (a + n - 1)) || s.onLost a)

/-! ### Hank pages (R378) -/

/-- The page a stack address lies on, counted from stack band 0. -/
def pageOf (a : Nat) : Nat := (a - stackBase) / pageSize
/-- The address of a page. -/
def pageAddr (p : Nat) : Nat := stackBase + p * pageSize
/-- The state of a page: free where no run names it. -/
def pageStIn (runs : List PageRun) (p : Nat) : PageSt :=
  match runs.find? (fun r => decide (r.base ≤ p ∧ p < r.base + r.count)) with
  | some r => r.st
  | none => .free
def State.pageSt (s : State) (p : Nat) : PageSt := pageStIn s.pages p
/-- Every run with a range of pages taken out. -/
def cutRuns (runs : List PageRun) (base count : Nat) : List PageRun :=
  runs.flatMap fun r =>
    let lo := min (r.base + r.count) base
    let hi := max r.base (base + count)
    (if r.base < lo then [⟨r.base, lo - r.base, r.st⟩] else []) ++
    (if hi < r.base + r.count then [⟨hi, r.base + r.count - hi, r.st⟩] else [])
/-- A range of pages given a state. -/
def putRun (runs : List PageRun) (base count : Nat) (st : PageSt) : List PageRun :=
  if st = .free ∨ count = 0 then cutRuns runs base count else cutRuns runs base count ++ [⟨base, count, st⟩]
def State.setPages (s : State) (base count : Nat) (st : PageSt) : State :=
  { s with pages := putRun s.pages base count st }
/-- The pages of a range changed one run at a time. -/
def mapRuns (runs : List PageRun) (base count : Nat) (f : PageSt → PageSt) : List PageRun :=
  cutRuns runs base count ++ runs.filterMap fun r =>
    let lo := max r.base base
    let hi := min (r.base + r.count) (base + count)
    if lo < hi then some ⟨lo, hi - lo, f r.st⟩ else none
/-- Whether every page of a range is free. -/
def rangeFree (runs : List PageRun) (base count : Nat) : Bool :=
  runs.all fun r => decide (r.base + r.count ≤ base ∨ base + count ≤ r.base)
/-- Whether every page of a range has a state that meets a condition: a range covered by such runs. -/
def rangeAll (runs : List PageRun) (base count : Nat) (ok : PageSt → Bool) : Bool :=
  let good := runs.filter fun r => ok r.st
  let covered := sumN (good.map fun r => min (r.base + r.count) (base + count) - max r.base base)
  decide (covered = count)
/-- Pages free in all: those of the bands less those in a run. -/
def State.freePages (s : State) : Nat :=
  24 * s.nStacks * 0x4000 - sumN (s.pages.map PageRun.count)

/-- Whether every band a page range touches is uniform, or stack-local to a rank (R375, R377). -/
def bandsOk (localMap : BitVec 24) (n base count : Nat) (wantLocal : Option Nat) : Bool :=
  (List.range ((base + count + 0x3FFF) / 0x4000 - base / 0x4000)).all fun k =>
    let i := base / 0x4000 + k
    match wantLocal with
    | none => !localMap.getLsbD (i / n)
    | some r => localMap.getLsbD (i / n) && decide (i % n = r)

/-- The lowest uniform range of free pages (R377). -/
def findUniform (runs : List PageRun) (localMap : BitVec 24) (n count : Nat) : Option Nat :=
  let starts := (List.range 24).map (fun j => n * j * 0x4000) ++ runs.map (fun r => r.base + r.count)
  let ok := starts.filter fun b =>
    decide (b + count ≤ 24 * n * 0x4000) && rangeFree runs b count && bandsOk localMap n b count none
  ok.min?

/-- The highest stack-local range of free pages on rank r (R377, R379): within one band unless n = 1, and within
the half asked for. -/
def findLocal (runs : List PageRun) (localMap : BitVec 24) (n r count : Nat) (half : Option Nat) : Option Nat :=
  let ends := (List.range (48 * n)).map (fun h => (h + 1) * 0x2000) ++ runs.map PageRun.base
  let ok := (ends.filter fun e => decide (count ≤ e ∧ e ≤ 24 * n * 0x4000)).map (· - count) |>.filter fun b =>
    rangeFree runs b count && bandsOk localMap n b count (some r) &&
    (decide (n = 1) || decide (b / 0x4000 = (b + count - 1) / 0x4000)) &&
    (match half with
      | none => true
      | some hf => decide (b / 0x2000 = (b + count - 1) / 0x2000 ∧ b / 0x2000 % 2 = hf))
  ok.max?

/-- Whether all n bands of physical band j are free. -/
def groupFree (runs : List PageRun) (n j : Nat) : Bool := rangeFree runs (n * j * 0x4000) (n * 0x4000)

/-- A uniform allocation, with the conversion of R377 where it lets the allocation succeed: the first page and the
band map after. -/
def allocUniform (s : State) (count : Nat) : Option (Nat × BitVec 24) :=
  let n := s.nStacks
  if n = 0 then none else
  match findUniform s.pages s.localMap n count with
  | some b => some (b, s.localMap)
  | none =>
    ((List.range 24).filter fun j => s.localMap.getLsbD j && groupFree s.pages n j).findSome? fun j =>
      (findUniform s.pages (clrBit s.localMap j) n count).map fun b => (b, clrBit s.localMap j)

/-- A stack-local allocation with its conversion (R377, R379). -/
def allocLocal (s : State) (r count : Nat) (half : Option Nat) : Option (Nat × BitVec 24) :=
  let n := s.nStacks
  if n = 0 then none else
  match findLocal s.pages s.localMap n r count half with
  | some b => some (b, s.localMap)
  | none =>
    ((List.range 24).reverse.filter fun j => !s.localMap.getLsbD j && groupFree s.pages n j).findSome? fun j =>
      (findLocal s.pages (setBit s.localMap j) n r count half).map fun b => (b, setBit s.localMap j)

/-- Pages taken for the firmware as a uniform allocation (R377). -/
def State.takeFirmware (s : State) (count : Nat) (sw : Option (Fin 8)) : Option (Nat × State) :=
  (allocUniform s count).map fun r =>
    (r.1, { s with localMap := r.2, pages := putRun s.pages r.1 count (.firmware sw) })

/-- A range of pages zeroed and freed; a page with an uncorrectable error is retired instead (R179, R383). -/
def State.freeRange (s : State) (base count : Nat) : State :=
  let inside (a : Nat) : Bool := decide (base ≤ pageOf a ∧ pageOf a < base + count)
  let bad := s.badPages.filter inside
  let s := { s with
    mem := memClear s.mem (pageAddr base) (count * pageSize)
    poison := s.poison.filter fun g => !inside g || decide (g < stackBase)
    badPages := s.badPages.filter fun a => !inside a
    pages := putRun s.pages base count .free }
  (bad.map pageOf).dedup.foldl (fun s p =>
    let b := s.stackOf (pageAddr p)
    { s with pages := putRun s.pages p 1 .retired
             stack := upd s.stack b fun t => { t with retired := satAdd t.retired 1 } }) s

end Sys2Proof.Machine
end

