-- ==== Sys2Proof/Machine/Floats.lean ====
section
/-! DEFINITION. Exact binary arithmetic and its rounding: the element formats (13 R348, R349), binary32, binary16 and
bfloat16 operations (10 R275, R276, R345), FP32+ (12 R325), the compensated pair (12 R328, R329), and integer rounding
(12 R335). -/
namespace Sys2Proof

/-- A value: a NaN, an infinity with its sign, or sign · m · 2^e exactly (a zero keeps its sign). -/
inductive Num
  | nan
  | inf (neg : Bool)
  | fin (neg : Bool) (m : Nat) (e : Int)
deriving DecidableEq, Repr

/-- How a format ends: with infinities and NaNs (IEEE 754), with NaN only in the all-ones code, or with neither (R348). -/
inductive Tail | ieee | nanOnly | none
deriving DecidableEq, Repr

/-- A float format: exponent bits, fraction bits, bias, and its end (R348). -/
structure Fmt where
  eb   : Nat
  fb   : Nat
  bias : Nat
  tail : Tail
deriving DecidableEq, Repr

/-- Rounding modes (R355): the last with the LFSR value. -/
inductive RMode
  | rne | rtz | rup | rdn
  | stoch (r : Nat)
deriving DecidableEq, Repr

def Fmt.f32 : Fmt := ⟨8, 23, 127, .ieee⟩
def Fmt.f16 : Fmt := ⟨5, 10, 15, .ieee⟩
def Fmt.bf16 : Fmt := ⟨8, 7, 127, .ieee⟩
def Fmt.e5m2 : Fmt := ⟨5, 2, 15, .ieee⟩
def Fmt.e4m3 : Fmt := ⟨4, 3, 7, .nanOnly⟩
def Fmt.e3m2 : Fmt := ⟨3, 2, 3, .none⟩
def Fmt.e2m3 : Fmt := ⟨2, 3, 1, .none⟩
def Fmt.e2m1 : Fmt := ⟨2, 1, 1, .none⟩
/-- FP32+: binary32 with eight more fraction bits (R325). -/
def Fmt.plus : Fmt := ⟨8, 31, 127, .ieee⟩

/-- Width of a format. -/
def Fmt.width (f : Fmt) : Nat := 1 + f.eb + f.fb
/-- The exponent of the smallest normal value. -/
def Fmt.emin (f : Fmt) : Int := 1 - (f.bias : Int)
/-- The code of the largest finite magnitude. -/
def Fmt.maxCode (f : Fmt) : Nat :=
  match f.tail with
  | .ieee => (2 ^ f.eb - 1) * 2 ^ f.fb - 1
  | .nanOnly => 2 ^ (f.eb + f.fb) - 2
  | .none => 2 ^ (f.eb + f.fb) - 1
/-- The default NaN, where the format has one (R349). -/
def Fmt.nanCode (f : Fmt) : Nat :=
  match f.tail with
  | .ieee => (2 ^ f.eb - 1) * 2 ^ f.fb + 2 ^ (f.fb - 1)
  | .nanOnly => 2 ^ (f.eb + f.fb) - 1
  | .none => 0
/-- The code of a finite magnitude's exponent and fraction fields. -/
def Fmt.magVal (f : Fmt) (c : Nat) : Num :=
  let x := c / 2 ^ f.fb
  let m := c % 2 ^ f.fb
  if x = 0 then .fin false m (f.emin - f.fb) else .fin false (m + 2 ^ f.fb) ((x : Int) - f.bias - f.fb)

/-- The same value with a sign. -/
def Num.withSign (neg : Bool) : Num → Num
  | .nan => .nan
  | .inf _ => .inf neg
  | .fin _ m e => .fin neg m e
/-- What a code of a format stands for (R348, R349). -/
def Fmt.dec (f : Fmt) (w : Nat) : Num :=
  let neg := w.testBit (f.eb + f.fb)
  let c := w % 2 ^ (f.eb + f.fb)
  match f.tail with
  | .ieee =>
    if c = (2 ^ f.eb - 1) * 2 ^ f.fb then .inf neg
    else if (2 ^ f.eb - 1) * 2 ^ f.fb < c then .nan
    else (f.magVal c).withSign neg
  | .nanOnly => if c = 2 ^ (f.eb + f.fb) - 1 then .nan else (f.magVal c).withSign neg
  | .none => (f.magVal c).withSign neg

/-! ### Rounding -/

/-- A magnitude m · 2^-s rounded to an integer; `neg` is the value's sign. -/
def roundMag (md : RMode) (neg : Bool) (m s : Nat) : Nat :=
  let q := m / 2 ^ s
  let r := m % 2 ^ s
  if r = 0 then q
  else match md with
    | .rne => if 2 ^ s < 2 * r ∨ (2 * r = 2 ^ s ∧ q % 2 = 1) then q + 1 else q
    | .rtz => q
    | .rup => if neg then q else q + 1
    | .rdn => if neg then q + 1 else q
    | .stoch x => if x < r * 2 ^ 32 / 2 ^ s then q + 1 else q
/-- Number of bits of a magnitude. -/
def bitLen (m : Nat) : Nat := if m = 0 then 0 else Nat.log2 m + 1
/-- A finite magnitude m · 2^e rounded to a format's precision, without an upper limit on the exponent: the magnitude's
code (exponent and fraction fields), which may pass the largest finite one. -/
def Fmt.roundCode (f : Fmt) (md : RMode) (neg : Bool) (m : Nat) (e : Int) : Nat :=
  if m = 0 then 0
  else
    let lead : Int := e + (bitLen m : Int) - 1
    let ulp : Int := max lead f.emin - f.fb
    let q := if ulp ≤ e then m * 2 ^ (e - ulp).toNat else roundMag md neg m (ulp - e).toNat
    let base : Nat := (max lead f.emin - f.emin).toNat
    base * 2 ^ f.fb + q
/-- What a rounding that overflows gives: infinity, or the largest finite value. -/
def Fmt.overflow (f : Fmt) (md : RMode) (neg : Bool) : Nat :=
  match md with
  | .rtz => f.maxCode
  | .rup => if neg then f.maxCode else f.maxCode + 1
  | .rdn => if neg then f.maxCode + 1 else f.maxCode
  | _ => f.maxCode + 1
/-- A code with its sign. -/
def Fmt.signed (f : Fmt) (neg : Bool) (c : Nat) : Nat := b2n neg * 2 ^ (f.eb + f.fb) + c
where
  b2n (b : Bool) : Nat := if b then 1 else 0
/-- A value rounded into an IEEE format as IEEE 754-2019 states. -/
def Fmt.enc (f : Fmt) (md : RMode) : Num → Nat
  | .nan => f.nanCode
  | .inf neg => f.signed neg (f.maxCode + 1)
  | .fin neg m e =>
    let c := f.roundCode md neg m e
    f.signed neg (if f.maxCode < c then f.overflow md neg else c)
/-- A value rounded to nearest even into an IEEE format. -/
def Fmt.rne (f : Fmt) (x : Num) : Nat := f.enc .rne x

/-! ### Exact operations -/

/-- The integer of a finite value at a common exponent. -/
def sInt (neg : Bool) (m : Nat) (e k : Int) : Int :=
  let v : Int := ((m * 2 ^ (e - k).toNat : Nat) : Int)
  if neg then -v else v
/-- The exact sum; an exact zero from opposite signs is +0. -/
def Num.add (x y : Num) : Num :=
  match x, y with
  | .nan, _ => .nan
  | _, .nan => .nan
  | .inf a, .inf b => if a = b then .inf a else .nan
  | .inf a, _ => .inf a
  | _, .inf b => .inf b
  | .fin a m e, .fin b n g =>
    let k := min e g
    let v := sInt a m e k + sInt b n g k
    if v = 0 then .fin (a && b) 0 k else .fin (decide (v < 0)) v.natAbs k
/-- The exact product. -/
def Num.mul (x y : Num) : Num :=
  match x, y with
  | .nan, _ => .nan
  | _, .nan => .nan
  | .inf a, .inf b => .inf (a != b)
  | .inf a, .fin b n _ => if n = 0 then .nan else .inf (a != b)
  | .fin a m _, .inf b => if m = 0 then .nan else .inf (a != b)
  | .fin a m e, .fin b n g => .fin (a != b) (m * n) (e + g)
/-- The opposite. -/
def Num.neg : Num → Num
  | .nan => .nan
  | .inf a => .inf (!a)
  | .fin a m e => .fin (!a) m e
/-- The magnitude. -/
def Num.abs (x : Num) : Num := x.withSign false
/-- Whether a value is a NaN. -/
def Num.isNan : Num → Bool
  | .nan => true | _ => false
/-- Whether a value is finite. -/
def Num.isFin : Num → Bool
  | .fin _ _ _ => true | _ => false
/-- Whether a value is zero. -/
def Num.isZero : Num → Bool
  | .fin _ m _ => decide (m = 0) | _ => false
/-- Less than, numerically; a NaN compares false. -/
def Num.lt (x y : Num) : Bool :=
  match x, y with
  | .nan, _ => false
  | _, .nan => false
  | .inf a, .inf b => a && !b
  | .inf a, _ => a
  | _, .inf b => !b
  | .fin a m e, .fin b n g => decide (sInt a m e (min e g) < sInt b n g (min e g))
/-- Equal, numerically; a NaN compares false. -/
def Num.eqv (x y : Num) : Bool := !x.isNan && !y.isNan && !x.lt y && !y.lt x
/-- An integer as a value. -/
def Num.ofInt (v : Int) : Num := .fin (decide (v < 0)) v.natAbs 0
/-- A power of two. -/
def Num.pow2 (e : Int) : Num := .fin false 1 e
/-- A quotient of finite magnitudes, exact to well below any rounding point: enough bits, and a sticky one. -/
def Num.div (x y : Num) : Num :=
  match x, y with
  | .nan, _ => .nan
  | _, .nan => .nan
  | .inf _, .inf _ => .nan
  | .inf a, .fin b _ _ => .inf (a != b)
  | .fin a _ _, .inf b => .fin (a != b) 0 0
  | .fin a m e, .fin b n g =>
    if n = 0 then (if m = 0 then .nan else .inf (a != b))
    else
      let k := 64 + bitLen n
      let q := m * 2 ^ k / n
      let st := if m * 2 ^ k % n = 0 then 0 else 1
      .fin (a != b) (2 * q + st) (e - g - k - 1)
/-- A finite value rounded to an integer. -/
def roundInt (md : RMode) : Num → Int
  | .fin neg m e =>
    let v : Nat := if 0 ≤ e then m * 2 ^ e.toNat else roundMag md neg m (-e).toNat
    if neg then -(v : Int) else v
  | _ => 0
/-- A value as a saturated integer of a range; a NaN gives 0 (R275, R276, R358). -/
def toIntSat (md : RMode) (lo hi : Int) : Num → Int
  | .nan => 0
  | .inf neg => if neg then lo else hi
  | x => max lo (min hi (roundInt md x))
/-- ⌊log2⌋ of a finite non-zero magnitude. -/
def Num.log2 : Num → Int
  | .fin _ m e => e + (bitLen m : Int) - 1
  | _ => 0

/-! ### Operations of a format, rounding to nearest even once -/

def Fmt.addBits (f : Fmt) (a b : Nat) : Nat := f.rne ((f.dec a).add (f.dec b))
def Fmt.subBits (f : Fmt) (a b : Nat) : Nat := f.rne ((f.dec a).add (f.dec b).neg)
def Fmt.mulBits (f : Fmt) (a b : Nat) : Nat := f.rne ((f.dec a).mul (f.dec b))
/-- c + a·b, rounded once (R275, R276). -/
def Fmt.fmaBits (f : Fmt) (c a b : Nat) : Nat := f.rne ((f.dec c).add ((f.dec a).mul (f.dec b)))
/-- IEEE 754-2019 minimum or maximum, or minimumNumber or maximumNumber: −0 is less than +0 (R276). -/
def Fmt.minmax (f : Fmt) (isMax ignore : Bool) (a b : Nat) : Nat :=
  let x := f.dec a
  let y := f.dec b
  match x.isNan, y.isNan with
  | true, true => f.nanCode
  | true, false => if ignore then b else f.nanCode
  | false, true => if ignore then a else f.nanCode
  | false, false =>
    let less := x.lt y || (x.eqv y && a.testBit (f.eb + f.fb) && !b.testBit (f.eb + f.fb))
    if less == isMax then b else a

/-! ### binary32 as registers hold it -/

def dec32 (w : Word) : Num := Fmt.f32.dec w.toNat
def enc32 (x : Num) : Word := BitVec.ofNat 32 (Fmt.f32.rne x)
def add32 (a b : Word) : Word := enc32 ((dec32 a).add (dec32 b))
def sub32 (a b : Word) : Word := enc32 ((dec32 a).add (dec32 b).neg)
def nan32 : Word := 0x7FC00000
/-- Whether a binary32 is an infinity or a NaN. -/
def special32 (w : Word) : Bool := !(dec32 w).isFin

/-! ### The compensated pair (R328, R329) -/

/-- A sum of two words with its error, and the value of every rounding on the way, in the order of the rule (R329). -/
structure SumSteps where
  s     : Word
  e     : Word
  steps : List Word
deriving DecidableEq, Repr
/-- two_sum (R329). -/
def twoSum (a b : Word) : SumSteps :=
  let s := add32 a b
  let bb := sub32 s a
  let t := sub32 s bb
  let u := sub32 a t
  let v := sub32 b bb
  ⟨s, add32 u v, [s, bb, t, u, v, add32 u v]⟩
/-- fast_two_sum (R329). -/
def fastTwoSum (a b : Word) : SumSteps :=
  let s := add32 a b
  let t := sub32 s a
  ⟨s, sub32 b t, [s, t, sub32 b t]⟩
/-- The first infinity or NaN among the steps, if any, ends the addition as (that value, +0) (R329). -/
def firstSpecial (l : List Word) : Option Word := l.find? special32
/-- dw_add (R329). -/
def dwAdd (x y : Word × Word) : Word × Word :=
  let a := twoSum x.1 y.1
  let t := twoSum x.2 y.2
  let sl := add32 a.e t.s
  let v := fastTwoSum a.s sl
  let vl := add32 v.e t.e
  let r := fastTwoSum v.s vl
  match firstSpecial (a.steps ++ t.steps ++ [sl] ++ v.steps ++ [vl] ++ r.steps) with
  | some w => (w, 0)
  | none => (r.s, r.e)
/-- The split of a closed chunk into a pair (R328). -/
def splitPair (c : Num) : Word × Word :=
  let hi := enc32 c
  if special32 hi then (hi, 0) else (hi, enc32 (c.add (dec32 hi).neg))

/-! ### FP32+ words (R300, R325): sign, exponent, and 31 fraction bits -/

def decPlus (w : BitVec 48) : Num := Fmt.plus.dec (w.toNat % 2 ^ 40)
def encPlus (x : Num) : BitVec 48 := BitVec.ofNat 48 (Fmt.plus.rne x)

/-! ### Integers -/

/-- round_even(v · 2^-s) (R335). -/
def roundEven (v : Int) (s : Nat) : Int :=
  let q : Int := roundMag .rne (decide (v < 0)) v.natAbs s
  if v < 0 then -q else q
/-- A value clamped to the INT32 range. -/
def clamp32 (v : Int) : Int := max (-2147483648) (min 2147483647 v)
/-- Whether an integer lies outside INT32. -/
def outside32 (v : Int) : Bool := decide (v < -2147483648 ∨ 2147483647 < v)

end Sys2Proof

namespace Sys2Proof.Machine
open Sys2Proof

/-! ### Atomic adds (R63, R345) -/

def AtFmt.width : AtFmt → Nat
  | .int32 => 4 | .fp32 => 4 | .fp16 => 2 | .bf16 => 2
/-- One element. -/
def AtFmt.add (f : AtFmt) (old x : Nat) : Nat :=
  match f with
  | .int32 => (old + x) % 2 ^ 32
  | .fp32 => Fmt.f32.addBits old x
  | .fp16 => Fmt.f16.addBits old x
  | .bf16 => Fmt.bf16.addBits old x
/-- The bytes an atomic add leaves: an element with a masked byte is not touched. -/
def atomicBytes (f : AtFmt) (m : List (Nat × Byte)) (a : Nat) : Nat → List (Option Byte) → List (Option Byte)
  | 0, _ => []
  | fuel + 1, l =>
    let w := f.width
    let e := l.take w
    if e.isEmpty then []
    else
      (if e.length = w ∧ e.all Option.isSome then
        (leBytes w (f.add (leAt (memRead m a w) 0 w) (leAt (e.map fun o => o.getD 0) 0 w))).map some
       else e.map fun _ => none) ++ atomicBytes f m (a + w) fuel (l.drop w)

end Sys2Proof.Machine
end

