-- ==== Sys2Proof/Machine/BedMath.lean ====
section
/-! DEFINITION. The arithmetic of the bed: element formats (13 R348, R350), block scales (11 R308, 13 R351), cast-on
values (11 R304), the accumulation of an MMA into a tile (12 R326 to R329, R335), and a replay (11 R311, R323). -/
namespace Sys2Proof.Machine
open Sys2Proof

/-! ### Elements -/

/-- The float format of a code (R348). -/
def floatFmt (c : Nat) : Option Fmt :=
  match c with
  | 4 => some .e2m1 | 5 => some .e2m3 | 6 => some .e3m2 | 7 => some .e4m3 | 8 => some .e5m2
  | 9 => some .f16 | 10 => some .bf16 | 11 => some .f32
  | _ => none
/-- Integer codes (R348). -/
def intFmt (c : Nat) : Bool := decide (c ≤ 3 ∨ c = 12)
/-- Width in bits of an element format (R348); 0 for an illegal code. -/
def fmtWidth (f : Nat) : Nat :=
  match f with
  | 0 => 4 | 1 => 8 | 2 => 8 | 3 => 16 | 12 => 32 | 4 => 4 | 5 => 6 | 6 => 6 | 7 => 8 | 8 => 8 | 9 => 16 | 10 => 16 | 11 => 32
  | _ => 0
/-- The range of an integer format (R348). -/
def intRange (c : Nat) : Int × Int :=
  match c with
  | 0 => (-8, 7) | 1 => (-128, 127) | 2 => (0, 255) | 3 => (-32768, 32767) | _ => (-2147483648, 2147483647)
/-- Element i of a packed run (R350). -/
def elemAt (d : List Byte) (w i : Nat) : Nat :=
  leAt d (w * i / 8) ((w + w * i % 8 + 7) / 8) / 2 ^ (w * i % 8) % 2 ^ w
/-- The integer a code of an integer format stands for. -/
def intVal (c v : Nat) : Int :=
  let w := fmtWidth c
  if c = 2 ∨ v < 2 ^ (w - 1) then (v : Int) else (v : Int) - ((2 ^ w : Nat) : Int)
/-- The value a code of a float format stands for. -/
def numVal (c v : Nat) : Num := ((floatFmt c).map fun f => f.dec v).getD .nan

/-! ### Tiles (R301) -/

def shapeRows (s : Fin 4) : Nat := match s.val with | 0 => 32 | 1 => 32 | 2 => 16 | _ => 8
def shapeCols (s : Fin 4) : Nat := match s.val with | 0 => 32 | 1 => 16 | 2 => 16 | _ => 32
def Tile.rows (t : Tile) : Nat := shapeRows t.shape
def Tile.cols (t : Tile) : Nat := shapeCols t.shape
/-- Whether the loops are INT32. -/
def Tile.isInt (t : Tile) : Bool := decide (t.lfmt = 0)
/-- Whether they hold compensated pairs. -/
def Tile.isPair (t : Tile) : Bool := decide (t.lfmt = 2)
/-- Units a tile occupies. -/
def tileUnits (shape : Fin 4) (pair : Bool) : Nat := shapeRows shape * shapeCols shape * (if pair then 8 else 4) / 1024
def Tile.units (t : Tile) : Nat := tileUnits t.shape t.isPair
/-- Replay-tentative (R204, R311). -/
def Tile.tentative (t : Tile) : Bool := t.isInt && !t.confirmed
/-- The value of an INT32 loop word. -/
def loopInt (w : BitVec 48) : Int := (w.setWidth 32).toInt
/-- Its saturation sticky bit. -/
def loopSticky (w : BitVec 48) : Bool := w.getLsbD 32
/-- An INT32 loop word. -/
def intWord (v : Int) (sticky : Bool) : BitVec 48 := putBit ((BitVec.ofInt 32 v).setWidth 48) 32 sticky
/-- A binary32 as a loop word, and back (R300, R325). -/
def plusOf (w : Word) : BitVec 48 := encPlus (dec32 w)
def plusTo32 (w : BitVec 48) : Word := enc32 (decPlus w)

/-! ### Cast-on (R304) -/

/-- The store ranges a cast-on reads: offset and length of each row. -/
def CastRec.ranges (c : CastRec) (shape : Fin 4) : List (Nat × Nat) :=
  let n := 4 * shapeCols shape
  match c.mode.val with
  | 0 => []
  | 1 => [(c.src, n)]
  | 2 => (List.range (shapeRows shape)).map fun r => (c.src + r * c.stride, n)
  | _ => (List.range (shapeRows shape)).map fun r => (c.src + r * c.stride, 2 * n)
/-- A tile's elements from the bytes its cast-on read, at a replay shift (R304, R327, R335). -/
def castElems (shape : Fin 4) (lfmt : Fin 3) (mode : Fin 4) (shift : Nat) (d : List Byte) : List (BitVec 48) :=
  let n := shapeRows shape * shapeCols shape
  let word (i : Nat) : Word := BitVec.ofNat 32 (leAt d (4 * i) 4)
  let pick (i : Nat) : Word := if mode.val = 0 then 0 else word (if mode.val = 1 then i % shapeCols shape else i)
  match lfmt.val with
  | 0 => (List.range n).map fun i => intWord (roundEven (pick i).toInt shift) false
  | 1 => (List.range n).map fun i => plusOf (pick i)
  | _ =>
    if mode.val = 3 then (List.range (2 * n)).map fun i => plusOf (word i)
    else (List.range n).flatMap fun i => [plusOf (pick i), 0]

/-! ### Multiply-accumulate (R307, R308, R326, R335) -/

/-- The operand bytes of an MMA. -/
structure MmaBytes where
  a  : List Byte
  b  : List Byte
  sc : List Byte
deriving DecidableEq, Repr
/-- K of an MMA. -/
def MmaRec.k (m : MmaRec) : Nat := 16 * m.kq
/-- Bytes of A, of B and of the scales for a shape (R307, R308). -/
def MmaRec.lenA (m : MmaRec) (shape : Fin 4) : Nat := shapeRows shape * m.k * fmtWidth m.afmt.val / 8
def MmaRec.lenB (m : MmaRec) (shape : Fin 4) : Nat := shapeCols shape * m.k * fmtWidth m.bfmt.val / 8
/-- K-terms of a scale block (R308). -/
def MmaRec.block (m : MmaRec) : Nat := if m.scale.val = 1 then 32 else 16
def MmaRec.lenSc (m : MmaRec) (shape : Fin 4) : Nat :=
  if m.scale.val = 0 then 0 else m.k / m.block * (shapeRows shape + shapeCols shape)
/-- A block scale's value (R351). -/
def scaleVal (kind : Nat) (c : Byte) : Num :=
  if kind = 1 then (if c = 0xFF then .nan else .pow2 ((c.toNat : Int) - 127))
  else if c = 0x7F ∨ c.toNat ≥ 128 then .nan else Fmt.e4m3.dec c.toNat
/-- An element with its block scale: a zero scale makes it zero, whatever it holds (R351). -/
def scaleBy (e s : Num) : Num :=
  match s, e with
  | .fin _ 0 _, .fin neg _ _ => .fin neg 0 0
  | .fin _ 0 _, .inf neg => .fin neg 0 0
  | .fin _ 0 _, .nan => .fin false 0 0
  | _, _ => e.mul s
/-- The product of row r, column c and term k as an integer. -/
def mmaInt (m : MmaRec) (o : MmaBytes) (rows cols r c k : Nat) : Int :=
  intVal m.afmt.val (elemAt o.a (fmtWidth m.afmt.val) (k * rows + r)) *
  intVal m.bfmt.val (elemAt o.b (fmtWidth m.bfmt.val) (k * cols + c))
/-- The same product as a float, its block scales included. -/
def mmaNum (m : MmaRec) (o : MmaBytes) (rows cols r c k : Nat) : Num :=
  let a := numVal m.afmt.val (elemAt o.a (fmtWidth m.afmt.val) (k * rows + r))
  let b := numVal m.bfmt.val (elemAt o.b (fmtWidth m.bfmt.val) (k * cols + c))
  if m.scale.val = 0 then a.mul b
  else
    let at0 := k / m.block * (rows + cols)
    let sa := scaleVal m.scale.val (o.sc.getD (at0 + r) 0)
    let sb := scaleVal m.scale.val (o.sc.getD (at0 + rows + c) 0)
    (scaleBy a sa).mul (scaleBy b sb)
/-- The exact sum of a group of 16 products (R326, R335). -/
def groupInt (m : MmaRec) (o : MmaBytes) (rows cols r c g : Nat) : Int :=
  (List.range 16).foldl (fun x j => x + mmaInt m o rows cols r c (16 * g + j)) 0
def groupNum (m : MmaRec) (o : MmaBytes) (rows cols r c g : Nat) : Num :=
  (List.range 15).foldl (fun x j => x.add (mmaNum m o rows cols r c (16 * g + j + 1))) (mmaNum m o rows cols r c (16 * g))
/-- A group sum added at a replay shift, with the saturation test (R335). -/
def addGroup (shift : Nat) (w : BitVec 48) (g : Int) : BitVec 48 :=
  let z := loopInt w + roundEven g shift
  intWord (clamp32 z) (loopSticky w || outside32 z)
/-- A group sum added into an FP32+ accumulator (R326). -/
def addPlus (w : BitVec 48) (g : Num) : BitVec 48 := encPlus ((decPlus w).add g)
/-- One closed chunk promoted into a pair (R327 to R329). -/
def addChunk (m : MmaRec) (o : MmaBytes) (rows cols r c groups : Nat) (x : Word × Word) (j : Nat) : Word × Word :=
  let acc := (List.range groups).foldl (fun w g => addPlus w (groupNum m o rows cols r c (groups * j + g))) 0
  dwAdd x (splitPair (decPlus acc))
/-- A·B accumulated into a tile at its shift. -/
def Tile.accum (t : Tile) (m : MmaRec) (o : MmaBytes) : Tile :=
  let rows := t.rows
  let cols := t.cols
  let word (i : Nat) : BitVec 48 := t.elems.getD i 0
  let new : List (BitVec 48) := match t.lfmt.val with
    | 0 => (List.range (rows * cols)).map fun i =>
        (List.range m.kq).foldl (fun w g => addGroup t.shift w (groupInt m o rows cols (i / cols) (i % cols) g)) (word i)
    | 1 => (List.range (rows * cols)).map fun i =>
        (List.range m.kq).foldl (fun w g => addPlus w (groupNum m o rows cols (i / cols) (i % cols) g)) (word i)
    | _ => (List.range (rows * cols)).flatMap fun i =>
        let groups := t.chunk / 16
        let x := (List.range (m.k / t.chunk)).foldl (addChunk m o rows cols (i / cols) (i % cols) groups)
          (plusTo32 (word (2 * i)), plusTo32 (word (2 * i + 1)))
        [plusOf x.1, plusOf x.2]
  { t with elems := new }

/-! ### Replay (R311, R323) -/

/-- The store address of an offset in a needle's own skein store. -/
def ownAddr (n : Fin 96) (off : Nat) : Nat := 0x400000 * (skeinOf n).val + off
/-- The bytes a cast-on reads now. -/
def State.castData (s : State) (n : Fin 96) (c : CastRec) (shape : Fin 4) : List Byte :=
  (c.ranges shape).flatMap fun x => memRead s.mem (ownAddr n x.1) x.2
/-- The operand bytes of an MMA: from the feed buffers, or with RFS from the replay area (R314). -/
def State.mmaBytes (s : State) (n : Fin 96) (t : Tile) (m : MmaRec) (copied : Bool) : MmaBytes :=
  let la := m.lenA t.shape
  let lb := m.lenB t.shape
  if t.rfs && copied then
    let a := ownAddr n (t.cast.area + m.copyAt)
    ⟨memRead s.mem a la, memRead s.mem (a + la) lb, []⟩
  else ⟨memRead s.needles[n].feed m.a la, memRead s.needles[n].feed m.b lb,
    memRead s.needles[n].feed m.sc (m.lenSc t.shape)⟩
/-- MMAs into a unit that wait for the bed. -/
def Bed.pending (b : Bed) (unit : Fin 16) : Nat := (b.queue.filter fun q => decide (q.1 = unit)).length
/-- A tile's cast-on and MMAs repeated at its shift; those still queued come later (R311, R323). -/
def State.rerun (s : State) (n : Fin 96) (t : Tile) : Tile :=
  let ran := t.mmas.take (t.mmas.length - s.needles[n].bed.pending t.unit)
  ran.foldl (fun t m => t.accum m (s.mmaBytes n t m true))
    { t with elems := castElems t.shape t.lfmt t.cast.mode t.shift (s.castData n t.cast t.shape) }

/-- A tile as a hold leaves it (R323): replay-tentative content is discarded, the replay record kept. -/
def Tile.restart (t : Tile) : Tile := if t.tentative then { t with elems := [] } else t
/-- The bed with every replay-tentative tile discarded. -/
def Bed.discard (b : Bed) : Bed := { b with running := none, replays := [], tiles := b.tiles.map Tile.restart }
/-- The discarded tiles of a swatch repeated before its needles issue again (R323). -/
def State.replayTiles (s : State) (i : Fin 8) : State :=
  { s with needles := mapV s.needles fun n x =>
      if s.swatches[i].covers (skeinOf n) then
        { x with bed := { x.bed with tiles := x.bed.tiles.map fun t =>
            if t.tentative ∧ t.due = 0 then s.rerun n t else t } }
      else x }

end Sys2Proof.Machine
end

