-- ==== Sys2Proof/Machine/CardMath.lean ====
section
/-! DEFINITION. Card programs (13): the LFSR and rounding modes (R355 to R357), conversions with overflow (R358, R359),
block schemes (R351 to R354), steps (R361 to R363), statistics (R367, R368), and the fixed tree of R339. -/
namespace Sys2Proof.Machine
open Sys2Proof

/-! ### The tree of R339 -/

/-- One level: neighbours are added, a single one passes on, and an absent pair stays absent. -/
def treeLevel {α : Type} (f : α → α → α) : List (Option α) → List (Option α)
  | some a :: some b :: l => some (f a b) :: treeLevel f l
  | some a :: none :: l => some a :: treeLevel f l
  | none :: b :: l => b :: treeLevel f l
  | l => l
/-- Six levels over 64 lanes. -/
def treeFold {α : Type} (f : α → α → α) (l : List (Option α)) : Option α :=
  ((List.range 6).foldl (fun l _ => treeLevel f l) l).head?.join
/-- The sum of binary32 lanes. -/
def treeSum (l : List (Option Word)) : Option Word := treeFold add32 l
/-- An add of exact operands rounded once to binary32. -/
def addRn (a b : Num) : Num := dec32 (enc32 (a.add b))
/-- The sum of exact squares: the root is not yet rounded if only one lane was admitted. -/
def treeSquares (l : List (Option Word)) : Option Num :=
  treeFold addRn (l.map fun o => o.map fun w => (dec32 w).mul (dec32 w))
/-- The largest or smallest binary32 of rule 1 to 3 of R341: the first NaN wins, with the quiet bit, unless NaNs are
ignored; the earliest of equal values wins. None when no candidate is left. -/
def pick32 (isMax ignore : Bool) (l : List (Word × Word)) : Option (Word × Word) :=
  let nans := l.filter fun x => (dec32 x.1).isNan
  let firstIdx (m : List (Word × Word)) : Option (Word × Word) :=
    m.foldl (fun b x => match b with
      | some y => if x.2.toNat < y.2.toNat then some x else b
      | none => some x) none
  match ignore, firstIdx nans with
  | false, some x => some (x.1 ||| 0x400000, x.2)
  | _, _ =>
    (l.filter fun x => !(dec32 x.1).isNan).foldl (fun b x => match b with
      | none => some x
      | some y =>
        let better := if isMax then (dec32 y.1).lt (dec32 x.1) else (dec32 x.1).lt (dec32 y.1)
        if better || ((dec32 x.1).eqv (dec32 y.1) && decide (x.2.toNat < y.2.toNat)) then some x else b) none

/-! ### The program -/

/-- A program record (R365). -/
structure CardProg where
  steps     : List Word
  inFmt     : Nat
  outFmt    : Nat
  inScheme  : Nat
  outScheme : Nat
  rmode     : Nat
  ovf       : Nat
  keepInt   : Bool
  needsMax  : Bool
  t2        : Bool
  sep       : Bool
  pbase     : Nat
  scaleOff  : Int
  k         : List Word
deriving DecidableEq, Repr
/-- The record's bytes read. -/
def cardProg (b : List Byte) : CardProg where
  steps := (List.range (min 64 (leAt b 1 1))).map fun i => BitVec.ofNat 32 (leAt b (48 + 4 * i) 4)
  inFmt := leAt b 2 1
  outFmt := leAt b 3 1
  inScheme := leAt b 4 1
  outScheme := leAt b 5 1
  rmode := leAt b 6 1
  ovf := leAt b 7 1
  keepInt := (leAt b 8 1).testBit 0
  needsMax := (leAt b 8 1).testBit 1
  t2 := (leAt b 8 1).testBit 2
  sep := (leAt b 8 1).testBit 3
  pbase := leAt b 10 2
  scaleOff := (BitVec.ofNat 32 (leAt b 12 4)).toInt
  k := (List.range 8).map fun i => BitVec.ofNat 32 (leAt b (16 + 4 * i) 4)
/-- Whether a record's header fields lie in their ranges (R365); one that was written directly may not (log 22). -/
def progOk (b : List Byte) : Bool :=
  let p := cardProg b
  let scheme (s f : Nat) : Bool := decide (s ≤ 2) && (decide (s = 0) || (floatFmt f).isSome)
  b.length != 0 && decide (1 ≤ leAt b 1 1 ∧ leAt b 1 1 ≤ 64 ∧ p.inFmt ≤ 12 ∧ p.outFmt ≤ 12 ∧ p.rmode ≤ 4 ∧ p.ovf ≤ 1 ∧
    p.pbase ≤ 2047) && scheme p.inScheme p.inFmt && scheme p.outScheme p.outFmt
/-- The same for a drain, which ignores IN_FMT and IN_SCHEME (R361). -/
def drainOk (b : List Byte) : Bool :=
  let p := cardProg b
  b.length != 0 && decide (1 ≤ leAt b 1 1 ∧ leAt b 1 1 ≤ 64 ∧ p.outFmt ≤ 12 ∧ p.rmode ≤ 4 ∧ p.ovf ≤ 1 ∧ p.pbase ≤ 2047 ∧
    p.outScheme ≤ 2) && (decide (p.outScheme = 0) || (floatFmt p.outFmt).isSome)
/-- T of R351: K7 with the second level in force, else none. -/
def CardProg.t (p : CardProg) : Option Word := if p.t2 then some (p.k.getD 7 0) else none
/-- Whether a step word is legal (R362, R363). -/
def stepOk (needsMax : Bool) (w : Word) : Bool :=
  let op := fld w 5 0
  let src := fld w 8 6
  let int := w.getLsbD 9
  decide (1 ≤ op ∧ op ≤ 0x0E ∧ src ≤ 5 ∧ fld w 15 10 = 0) && (decide (src ≠ 4) || needsMax) &&
  (if op ≤ 5 then true
   else decide (src = 0) && (decide (op ≠ 8 ∧ op ≠ 9) || !int) && (decide (op ≠ 12) || int))

/-! ### The carder's own state -/

def Carder.note (c : Carder) (i : Nat) : Carder := { c with events := setBit c.events i }
/-- NAN_LOST. -/
def Carder.nanLost (c : Carder) : Carder := c.note 0
/-- A finite value saturated (R358). -/
def Carder.saturated (c : Carder) : Carder := { c.note 1 with clip := satAdd c.clip 1 }
/-- A lane counted as clipped (R363). -/
def Carder.clipped (c : Carder) : Carder := { c with clip := satAdd c.clip 1 }
/-- One advance of the Galois LFSR (R356). -/
def lfsrStep (w : Word) : Word := if w.getLsbD 0 then (w >>> 1) ^^^ 0x80200003 else w >>> 1
/-- The rounding mode of the next element, the LFSR advanced for a stochastic one (R355, R356). -/
def Carder.round (c : Carder) (rmode : Nat) : Carder × RMode :=
  match rmode with
  | 0 => (c, .rne)
  | 1 => (c, .rtz)
  | 2 => (c, .rup)
  | 3 => (c, .rdn)
  | _ => let l := lfsrStep c.lfsr; ({ c with lfsr := l }, .stoch l.toNat)
/-- A subnormal code replaced by zero with FTZ (R359). -/
def ftzCode (on : Bool) (f : Fmt) (v : Nat) : Nat :=
  if on ∧ v / 2 ^ f.fb % 2 ^ f.eb = 0 then v / 2 ^ (f.eb + f.fb) * 2 ^ (f.eb + f.fb) else v
def Carder.flush (c : Carder) (w : Word) : Word := BitVec.ofNat 32 (ftzCode c.ftz .f32 w.toNat)
/-- A value into an integer format: it always saturates (R358). -/
def Carder.toInt (c : Carder) (md : RMode) (lo hi : Int) (x : Num) : Carder × Int :=
  match x with
  | .nan => (c.nanLost, 0)
  | .inf neg => (c, if neg then lo else hi)
  | x =>
    let v := roundInt md x
    if v < lo then (c.saturated, lo) else if hi < v then (c.saturated, hi) else (c, v)
/-- A value into a float format's code (R358): `sat` where a block scheme saturates whatever OVF says. -/
def Carder.toFloat (c : Carder) (md : RMode) (f : Fmt) (ovf : Nat) (sat : Bool) (x : Num) : Carder × Nat :=
  let inf : Bool := decide (f.tail = .ieee ∧ ovf = 1) && !sat
  match x with
  | .nan => (if f.tail = .ieee then c else c.nanLost, f.nanCode)
  | .inf neg => (c, f.signed neg (if inf then f.maxCode + 1 else f.maxCode))
  | .fin neg m e =>
    let v := f.roundCode md neg m e
    if f.maxCode < v then
      if inf then (c, f.signed neg (f.overflow md neg)) else (c.saturated, f.signed neg f.maxCode)
    else (c, ftzCode c.ftz f (f.signed neg v))
/-- An element converted into a format, rounding under the program's mode. -/
def Carder.convert (c : Carder) (p : CardProg) (fmt : Nat) (sat : Bool) (x : Num) : Carder × Nat :=
  let r := c.round p.rmode
  match floatFmt fmt with
  | some f => r.1.toFloat r.2 f p.ovf sat x
  | none =>
    let g := intRange fmt
    let v := r.1.toInt r.2 g.1 g.2 x
    (v.1, (BitVec.ofInt (fmtWidth fmt) v.2).toNat)

/-! ### The working vector -/

/-- What a lane knows of its place: channel, row, and M_r of its row (R362, R363). -/
structure LaneAt where
  j   : Nat
  r   : Nat
  max : Word
deriving DecidableEq, Repr
/-- The working vector: its type and the active lanes. -/
structure WorkX where
  int : Bool
  x   : List Word
deriving DecidableEq, Repr
/-- A lane's exact value. -/
def laneNum (int : Bool) (w : Word) : Num := if int then .ofInt w.toInt else dec32 w
/-- A word as an FP32 lane: INT32 converts by rounding to nearest even. -/
def laneF32 (int : Bool) (w : Word) : Word := if int then enc32 (.ofInt w.toInt) else w
/-- Every lane rewritten, the carder's state threaded through them in order. -/
def Carder.lanes {α : Type} (c : Carder) (l : List α) (f : Carder → α → Carder × Word) : Carder × List Word :=
  l.foldl (fun a x => let r := f a.1 x; (r.1, a.2 ++ [r.2])) (c, [])
/-- FP32 to INT32 under RMODE (R362). -/
def Carder.lane32 (c : Carder) (p : CardProg) (w : Word) : Carder × Word :=
  let r := c.round p.rmode
  let v := r.1.toInt r.2 (-2147483648) 2147483647 (dec32 w)
  (v.1, BitVec.ofInt 32 v.2)
/-- X brought to a type (R362). -/
def Carder.asType (c : Carder) (p : CardProg) (int : Bool) (x : WorkX) : Carder × WorkX :=
  if x.int = int then (c, x)
  else if int then let r := c.lanes x.x fun c w => c.lane32 p w; (r.1, ⟨true, r.2⟩)
  else (c, ⟨false, x.x.map fun w => c.flush (laneF32 true w)⟩)
/-- The operand of a lane (R362); with FTZ an FP32 one is an input, and a subnormal counts as zero (R359). -/
def Carder.operand (c : Carder) (p : CardProg) (shift : Nat) (w : Word) (a : LaneAt) : Carder × Word :=
  let imm := fld w 31 16
  let int := w.getLsbD 9
  let par (i : Nat) : Word := c.params[(p.pbase + imm + i) % 2048]'(Nat.mod_lt _ (by decide))
  match fld w 8 6 with
  | 0 => (c, if int then BitVec.ofInt 32 (BitVec.ofNat 16 imm).toInt else c.flush (BitVec.ofNat 32 (imm * 65536)))
  | 1 => (c, if int then p.k.getD (imm % 8) 0 else c.flush (p.k.getD (imm % 8) 0))
  | 2 => (c, if int then par a.j else c.flush (par a.j))
  | 3 => (c, if int then par a.r else c.flush (par a.r))
  | 4 => if int then c.lane32 p a.max else (c, c.flush a.max)
  | _ => (c, if int then BitVec.ofNat 32 (2 ^ shift) else enc32 (.pow2 shift))
/-- An INT32 result, saturated and counted (R363). -/
def Carder.satInt (c : Carder) (v : Int) : Carder × Word :=
  (if outside32 v then c.clipped else c, BitVec.ofInt 32 (clamp32 v))
/-- An FP32 result: rounded, flushed. -/
def Carder.resF (c : Carder) (x : Num) : Carder × Word := (c, c.flush (enc32 x))
/-- CLIPLO and CLIPHI of one lane; `o` and, after the flush of R359, X are no subnormals under FTZ. -/
def Carder.clipLane (c : Carder) (hi int : Bool) (x o : Word) : Carder × Word :=
  let x := if int then x else c.flush x
  let a := laneNum int x
  let b := laneNum int o
  if a.isNan then (c, nan32)
  else if b.isNan then (c.clipped, nan32)
  else if (if hi then b.lt a else a.lt b) then (c.clipped, o) else (c, x)
/-- A two-operand step on one lane. -/
def Carder.binary (c : Carder) (op : Nat) (int : Bool) (x o : Word) : Carder × Word :=
  match op with
  | 1 => if int then c.satInt (x.toInt * o.toInt) else c.resF ((dec32 x).mul (dec32 o))
  | 2 => if int then c.satInt (x.toInt + o.toInt) else c.resF ((dec32 x).add (dec32 o))
  | 3 => if int then c.satInt (x.toInt - o.toInt) else c.resF ((dec32 x).add (dec32 o).neg)
  | 4 => c.clipLane false int x o
  | _ => c.clipLane true int x o
/-- ln 2 as a fraction of 2^128. -/
def ln2Fix : Int := 235865763225513294137944142764154484399
/-- The sum of r^n / n! from term n on, as a fraction of 2^128. -/
def expSeries (r : Int) : Nat → Nat → Int → Int
  | 0, _, _ => 0
  | fuel + 1, n, t => t + expSeries r fuel (n + 1) (t * r / 2 ^ 128 / (n + 1))
/-- e^x of a finite x of magnitude at most 128, to about 120 bits: x = k·ln 2 + r with 0 ≤ r < ln 2. -/
def expNum (neg : Bool) (m : Nat) (e : Int) : Num :=
  let f : Int := if 0 ≤ e + 128 then ((m * 2 ^ (e + 128).toNat : Nat) : Int) else ((m / 2 ^ (-(e + 128)).toNat : Nat) : Int)
  let x := if neg then -f else f
  let k := x / ln2Fix
  .fin false (expSeries (x - k * ln2Fix) 40 0 (2 ^ 128)).toNat (k - 128)
/-- Whether a binary32 lies within two units in the last place of a positive value. -/
def within2ulp (w : Word) (y : Num) : Bool :=
  let d := ((dec32 w).add y.neg).abs
  !(Num.pow2 (max y.log2 (-126) - 22)).lt d && (dec32 w).isFin
/-- e^X (R363): +∞ where rounding to nearest even overflows, and elsewhere any value within two units in the last place: the
one `Config.expBits` names where it is one, else the nearest (log 13). -/
def expLane (w : Word) : Word :=
  match dec32 w with
  | .nan => nan32
  | .inf true => 0
  | .inf false => 0x7F800000
  | .fin neg m e =>
    if !(Num.fin false m e).lt (.ofInt 128) then (if neg then 0 else 0x7F800000)
    else
      let y := expNum neg m e
      if enc32 y = 0x7F800000 then 0x7F800000
      else if within2ulp (Config.expBits w) y ∧ (Config.expBits w).getLsbD 31 = false then Config.expBits w else enc32 y
/-- A one-operand step on one lane. -/
def Carder.unary (c : Carder) (p : CardProg) (op imm : Nat) (int : Bool) (x : Word) : Carder × Word :=
  match op with
  | 6 => if int then c.satInt x.toInt.natAbs else (c, if (dec32 x).isNan then nan32 else c.flush (clrBit x 31))
  | 7 => if int then c.satInt (-x.toInt) else (c, if (dec32 x).isNan then nan32 else c.flush (x ^^^ 0x80000000))
  | 8 =>
    let r := c.round p.rmode
    (match dec32 x with
    | .fin neg m e => r.1.resF ((Num.ofInt (roundInt r.2 (.fin neg m e))).withSign neg)
    | y => r.1.resF y)
  | 9 => (c, c.flush (expLane x))
  | _ =>
    let r := c.round p.rmode
    r.1.satInt (roundInt r.2 (.fin (decide (x.toInt < 0)) x.toInt.natAbs (-((imm % 32 : Nat) : Int))))

/-! ### Statistics (R367, R368) -/

/-- A STAT step over the non-NaN lanes, as FP32. -/
def Carder.stat (c : Carder) (imm : Nat) (x : WorkX) : Carder :=
  let all := x.x.map (laneF32 x.int)
  let nans := (all.filter fun w => (dec32 w).isNan).length
  let l := all.filter fun w => !(dec32 w).isNan
  let lanes : List (Option Word) := all.map (fun w => if (dec32 w).isNan then none else some w) ++
    List.replicate (64 - all.length) none
  let less (a b : Word) : Bool := (dec32 a).lt (dec32 b)
  let mn := l.foldl (fun m w => if less w m then w else m) c.min
  let mx := l.foldl (fun m w => if less m w then w else m) c.max
  let am := l.foldl (fun m w => if less m (clrBit w 31) then clrBit w 31 else m) c.absmax
  let sm : Word × Word := match treeSum lanes with
    | some t => dwAdd c.sum (t, 0)
    | none => c.sum
  let sq : Word × Word := match treeSquares lanes with
    | some t => dwAdd c.sumsq (enc32 t, 0)
    | none => c.sumsq
  { c with
    nan := satAdd c.nan nans, count := satAdd c.count l.length
    min := if imm.testBit 0 then mn else c.min
    max := if imm.testBit 1 then mx else c.max
    absmax := if imm.testBit 2 then am else c.absmax
    sum := if imm.testBit 3 then sm else c.sum
    sumsq := if imm.testBit 4 then sq else c.sumsq }
/-- The bin of a lane (R368). -/
def histBin (lo w x : Word) : Nat :=
  match dec32 w with
  | .fin false (_ + 1) _ =>
    if (dec32 x).lt (dec32 lo) then 0
    else match dec32 (enc32 ((dec32 (sub32 x lo)).div (dec32 w))) with
      | .fin neg m e => (max 0 (min 63 (roundInt .rdn (.fin neg m e)))).toNat
      | .inf false => 63
      | _ => 0
  | _ => 0
/-- A HIST step. -/
def Carder.histogram (c : Carder) (p : CardProg) (imm : Nat) (x : WorkX) : Carder :=
  let lo := laneF32 x.int (p.k.getD (imm % 8) 0)
  let w := laneF32 x.int (p.k.getD (imm / 8 % 8) 0)
  (x.x.map (laneF32 x.int)).foldl (fun c v =>
    if (dec32 v).isNan then c
    else { c with hist := upd c.hist (Fin.ofNat 64 (histBin lo w v)) fun n => satAdd n 1 }) c

/-! ### A vector through the program -/

/-- One step (R362, R363); an illegal one acts as no operation (R372). -/
def Carder.step (c : Carder) (p : CardProg) (shift : Nat) (at_ : List LaneAt) (x : WorkX) (w : Word) : Carder × WorkX :=
  if !stepOk p.needsMax w then (c.note 4, x)
  else
    let op := fld w 5 0
    let imm := fld w 31 16
    let int := w.getLsbD 9
    let r := c.asType p int x
    let c := r.1
    let x := r.2
    if op ≤ 5 then
      let y := c.lanes (x.x.zip at_) fun c l =>
        let o := c.operand p shift w l.2
        o.1.binary op int l.1 o.2
      (y.1, ⟨int, y.2⟩)
    else match op with
      | 10 => c.asType p true x
      | 11 => c.asType p false x
      | 13 => (c.stat imm x, x)
      | 14 => (c.histogram p imm x, x)
      | _ => let y := c.lanes x.x fun c v => c.unary p op imm int v; (y.1, ⟨int, y.2⟩)
/-- Every step in order. -/
def Carder.program (c : Carder) (p : CardProg) (shift : Nat) (at_ : List LaneAt) (x : WorkX) : Carder × WorkX :=
  p.steps.foldl (fun a w => a.1.step p shift at_ a.2 w) (c, x)

/-! ### Input of a mover or a view (R354, R361) -/

/-- Elements per block of a scheme. -/
def blockLen (scheme : Nat) : Nat := if scheme = 1 then 32 else 16
/-- An element read as X: its scale applied with the roundings of R354. -/
def Carder.elemIn (c : Carder) (p : CardProg) (v : Nat) (scale : Option Byte) : Word :=
  match floatFmt p.inFmt with
  | none => BitVec.ofInt 32 (intVal p.inFmt v)
  | some f =>
    let e := f.dec (ftzCode c.ftz f v)
    match scale with
    | none => c.flush (enc32 e)
    | some b =>
      let x := dec32 (enc32 (scaleBy e (scaleVal p.inScheme b)))
      let y := match p.inScheme, p.t with
        | 2, some t => if b = 0 then x else x.mul (dec32 t)
        | _, _ => x
      c.flush (enc32 y)
/-- Elements of a source row (R364; log 23): none where it does not hold a whole number. -/
def CardProg.rowElems (p : CardProg) (rowBytes : Nat) : Option Nat :=
  let w := fmtWidth p.inFmt
  if p.inScheme = 0 then (if 8 * rowBytes % w = 0 then some (8 * rowBytes / w) else none)
  else
    let b := blockLen p.inScheme
    some (rowBytes / (b * w / 8 + 1) * b)
/-- A row's X, in order. -/
def Carder.rowIn (c : Carder) (p : CardProg) (n : Nat) (d : List Byte) : List Word :=
  let w := fmtWidth p.inFmt
  let b := blockLen p.inScheme
  (List.range n).map fun i =>
    c.elemIn p (elemAt d w i) (if p.inScheme = 0 then none else some (d.getD (n * w / 8 + i / b) 0))

/-! ### Output (R352, R353, R364) -/

/-- Codes packed (R350). -/
def packCodes (w : Nat) (l : List Nat) : List Byte :=
  leBytes ((w * l.length + 7) / 8) ((l.zipIdx.map fun x => x.1 * 2 ^ (w * x.2)).foldl (· + ·) 0)
/-- The magnitude order of finite values. -/
def amaxOf (l : List Num) : Num := l.foldl (fun m x => if m.lt x.abs then x.abs else m) (.fin false 0 0)
/-- E_max of R352. -/
def eMax (fmt : Nat) : Int :=
  match fmt with
  | 4 => 2 | 5 => 2 | 6 => 4 | 7 => 8 | 8 => 15 | 9 => 15 | _ => 127
/-- The least E4M3 scale code not below q, and whether it saturates (R353). -/
def scaleUp (q : Num) : Byte × Bool :=
  match (List.range 127).find? fun c => !(Fmt.e4m3.dec c).lt q with
  | some c => (BitVec.ofNat 8 c, false)
  | none => (0x7E, true)
/-- The codes of some values, in order. -/
def Carder.codes (c : Carder) (p : CardProg) (sat : Bool) (l : List Num) : Carder × List Nat :=
  l.foldl (fun a x => let r := a.1.convert p p.outFmt sat x; (r.1, a.2 ++ [r.2])) (c, [])
/-- One MX block: its codes and scale (R352). -/
def Carder.mxBlock (c : Carder) (p : CardProg) (f : Fmt) (l : List Num) : Carder × List Nat × Byte :=
  let am := amaxOf l
  if l.any (fun x => !x.isFin) then (c.nanLost, l.map fun _ => 0, 0xFF)
  else if am.isZero then (c, l.map fun x => f.enc .rne x, 0)
  else
    let e : Int := Max.max (-127) (Min.min 127 (am.log2 - eMax p.outFmt))
    let r := c.codes p true (l.map fun x => x.mul (.pow2 (-e)))
    (r.1, r.2, BitVec.ofInt 8 (e + 127))
/-- One ply16 block (R353). -/
def Carder.plyBlock (c : Carder) (p : CardProg) (f : Fmt) (l : List Num) : Carder × List Nat × Byte :=
  let am := amaxOf l
  let t : Num := (p.t.map dec32).getD (.ofInt 1)
  let rn (x : Num) : Num := dec32 (enc32 x)
  if l.any (fun x => !x.isFin) then (c.nanLost, l.map fun _ => 0, 0x7F)
  else if am.isZero then (c, l.map fun _ => 0, 0)
  else
    let q := rn (am.div (rn ((f.magVal f.maxCode).mul t)))
    let s := scaleUp q
    let c := if s.2 then c.note 2 else c
    let d := rn ((Fmt.e4m3.dec s.1.toNat).mul t)
    let r := c.codes p true (l.map fun x => rn (x.div d))
    (r.1, r.2, s.1)
/-- Lists of n elements each. -/
def chunksOf {α : Type} (n : Nat) : Nat → List α → List (List α)
  | 0, _ => []
  | fuel + 1, l => if l.isEmpty then [] else l.take n :: chunksOf n fuel (l.drop n)
/-- The output stage of a vector: codes, and scales one per block. -/
def Carder.output (c : Carder) (p : CardProg) (x : WorkX) : Carder × List Nat × List Byte :=
  let v := x.x.map (laneNum x.int)
  match p.outScheme, floatFmt p.outFmt with
  | 0, _ => let r := c.codes p false v; (r.1, r.2, [])
  | _, none => let r := c.codes p false v; (r.1, r.2, [])
  | sch, some f =>
    (chunksOf (blockLen sch) v.length v).foldl (fun a b =>
      let r := if sch = 1 then a.1.mxBlock p f b else a.1.plyBlock p f b
      (r.1, a.2.1 ++ r.2.1, a.2.2 ++ [r.2.2])) (c, [], [])
/-- A row of elements through the program, 64 at a time: codes and scales. -/
def Carder.runRow (c : Carder) (p : CardProg) (at_ : List LaneAt) (int : Bool) (x : List Word) :
    Carder × List Nat × List Byte :=
  (chunksOf 64 x.length (x.zip at_)).foldl (fun a v =>
    let y := a.1.program p 0 (v.map Prod.snd) ⟨int, v.map Prod.fst⟩
    let o := y.1.output p y.2
    (o.1, a.2.1 ++ o.2.1, a.2.2 ++ o.2.2)) (c, [], [])
/-- The start of a job (R357). -/
def Carder.begin (c : Carder) : Carder := if c.reseed then { c with lfsr := if c.seed = 0 then 1 else c.seed } else c
/-- Zero bytes up to a multiple of n. -/
def padMult (n : Nat) (l : List Byte) : List Byte := padTo ((l.length + n - 1) / n * n) l
/-- One row of a mover descriptor or a view granule carded: the packed row with its scales and padding (R364). -/
def Carder.cardRow (c : Carder) (p : CardProg) (n r j0 : Nat) (d : List Byte) : Carder × List Byte :=
  let x := c.rowIn p n d
  let at_ := (List.range n).map fun i => LaneAt.mk (j0 + i) r 0
  let o := c.runRow p at_ (intFmt p.inFmt) x
  (o.1, padMult 32 (packCodes (fmtWidth p.outFmt) o.2.1 ++ o.2.2))

end Sys2Proof.Machine
end

