-- ==== Sys2Proof/Machine/Yarn.lean ====
section
/-! DEFINITION. The spool plane (09 R225 to R239): port rates, traffic classes, the injection FIFOs, the arbitration of the
service ports, and the pacing credits each port switch grants. -/
namespace Sys2Proof.Machine
open Sys2Proof

/-! ### Rates and places -/

/-- Whether the far side of a stack port advertised fewer credits than R53 asks of a base die. -/
def creditsShort (c : Credits) : Bool := decide (c.reqH < 128 ∨ c.reqD < 256)
/-- Usable rate of a port [GB/s]: 448 at 32 GT/s with two modules (R32, R39), 0 unless ACTIVE or DEGRADED; with few far
credits it is lower (R227). -/
def State.rateGb (s : State) (p : Fin 10) : Nat :=
  let e := s.ports[p]
  let full := match e.rate.toNat with
    | 3 => 448
    | 2 => 336
    | 1 => 224
    | _ => 0
  let kept (n : Nat) : Nat :=
    if s.fuses.ports[p].role = .stack ∧ creditsShort e.advert then min n (Config.shortRate (e.advert.reqH + e.advert.reqD) n) else n
  match e.st with
  | .active => kept full
  | .degraded => kept (full / 2)
  | _ => 0
/-- A port's position, doubled and moved to be positive: x + 1 and y + 1 in half pitches (R232). -/
def portPos (p : Fin 10) : Nat × Nat :=
  match p.val with
  | 0 => (0, 7)
  | 1 => (0, 3)
  | 2 => (3, 0)
  | 3 => (6, 0)
  | 4 => (9, 0)
  | 5 => (12, 3)
  | 6 => (12, 7)
  | 7 => (9, 10)
  | 8 => (6, 10)
  | _ => (3, 10)
/-- Twice the Manhattan distance from a physical skein to a port (R232). -/
def dist2 (k : Fin 20) (p : Fin 10) : Nat :=
  let x := 2 * (k.val % 5 + 1)
  let y := 2 * (k.val / 5 + 1)
  let q := portPos p
  (max x q.1 - min x q.1) + (max y q.2 - min y q.2)
/-- Whether a port is a spur port of a physical row (R233). -/
def spurPort (row : Nat) (p : Fin 10) : Bool :=
  match p.val with
  | 0 => decide (row = 2 ∨ row = 3)
  | 1 => decide (row = 0 ∨ row = 1)
  | 2 => decide (row = 0)
  | 3 => decide (row = 0)
  | 4 => decide (row = 0)
  | 5 => decide (row = 0 ∨ row = 1)
  | 6 => decide (row = 2 ∨ row = 3)
  | _ => decide (row = 3)

/-! ### Requests (R49, R50) -/

/-- The lowest TAG no access outstanding at a port uses (R49). -/
def State.freeTag (s : State) (p : Fin 10) : Option (Fin 2048) :=
  let used := (s.accesses.filter fun a => decide (a.path = .port p)).filterMap Access.tag
  (allFin 2048).find? fun t => !used.contains t
/-- The transaction an access sends (R50): a read of whole granules, a write, a masked write, or an atomic add. -/
def accTxn (p : Fin 10) (tag : Fin 2048) (prio : Fin 4) (wire a : Nat) (op : AccOp) : SentTxn :=
  let head (n : Nat) : TxnHead :=
    ⟨p, tag, Fin.ofNat 4 ((wire % 32 + n + 31) / 32 - 1), prio, false, BitVec.ofNat 40 (wire / 32 * 32)⟩
  let pad (bs : List (Option Byte)) : List (Option Byte) :=
    let l := List.replicate (a % 32) none ++ bs
    l ++ List.replicate ((32 - l.length % 32) % 32) none
  match op with
  | .read n => ⟨0x01, 0, head n, []⟩
  | .write bs =>
    if wire % 32 = 0 ∧ bs.length % 32 = 0 ∧ bs.all Option.isSome then ⟨0x02, 0, head bs.length, bs⟩
    else ⟨0x03, 0, head bs.length, pad bs⟩
  | .regRead => ⟨0x05, 0, { head 4 with len := 0, addr := BitVec.ofNat 40 wire }, []⟩
  | .regWrite w => ⟨0x06, 0, { head 4 with len := 0, addr := BitVec.ofNat 40 wire },
      (padTo 32 (leBytes 4 w.toNat)).map some⟩
  | .atomic fmt bs =>
    ⟨0x04, (match fmt with | .int32 => 0 | .fp32 => 1 | .fp16 => 2 | .bf16 => 3), head bs.length, pad bs⟩
  -- a long total stands in its needle's own store: no such request reaches a port (R318)
  | .promote ps => ⟨0x03, 0, head (8 * ps.length), []⟩
/-- Whether a request writes or adds; the others read. -/
def SentTxn.writes (t : SentTxn) : Bool := decide (t.ttype ≠ 0x01 ∧ t.ttype ≠ 0x05)
/-- The data bytes a request moves. -/
def Inj.bytes (x : Inj) : Nat := 32 * (x.txn.head.len.val + 1)
def Inj.port (x : Inj) : Fin 10 := x.txn.head.port

/-! ### Classes and FIFOs (R236, R238) -/

/-- The level of a class: PRIO of its swatch, 3 for the management class. -/
def State.levelOf (s : State) : TClass → Fin 4
  | .swatch i => Fin.ofNat 4 (s.swatches[i]).prio.toNat
  | .mgmt => 3
/-- 256 times the share of a class. -/
def State.shareOf (s : State) : TClass → Nat
  | .swatch i => (s.swatches[i]).shareM1.toNat + 1
  | .mgmt => 16
/-- 256 times the fraction of a level. -/
def levelFraction (l : Fin 4) : Nat := match l.val with | 0 => 32 | 1 => 32 | 2 => 64 | _ => 128
/-- The row budget of a class in nanoseconds: ROW_BUDGET of a hard swatch, the tick period of any other class. -/
def State.budgetNs (s : State) : TClass → Nat
  | .swatch i => 10 * (if (s.swatches[i]).cls = .hard then (s.swatches[i]).budget else s.tick.period).toNat
  | .mgmt => 10 * s.tick.period.toNat
/-- W_c at a port: r_c · s · B bytes, a multiple of 64, at least 128. -/
def State.fifoBytes (s : State) (c : TClass) (p : Fin 10) : Nat :=
  max 128 (levelFraction (s.levelOf c) * s.shareOf c * s.shareOf c * s.rateGb p * s.budgetNs c / 2 ^ 24 / 64 * 64)
/-- The class of an agent's requests: its swatch's, else the management class. -/
def State.classOf (s : State) (i : Option (Fin 8)) : TClass := match i with
  | some i => if (s.swatches[i]).isCast then .swatch i else .mgmt
  | none => .mgmt
/-- Where an agent's requests enter the spool plane (R225). -/
def Who.source : Who → Src
  | .needle n => .skein (skeinOf n)
  | .mover k _ => .skein k
  | .distaff _ => .distaff
  | .firmware => .selvage
  | .host f => .host f
/-- Whether two requests wait in one FIFO. -/
def Inj.same (x y : Inj) : Bool := decide (x.src = y.src ∧ x.cls = y.cls)
/-- Bulk bytes of a class that wait at a source. -/
def State.bulkWaiting (s : State) (src : Src) (c : TClass) : Nat :=
  sumN ((s.gauge.fifo.filter fun x => decide (x.src = src ∧ x.cls = c) && !x.control).map Inj.bytes)
/-- Whether bulk traffic finds its FIFO full, one slot of 64 bytes being kept for control messages: a source then waits before
it enqueues. An empty FIFO takes any request. -/
def State.fifoFull (s : State) (src : Src) (c : TClass) (p : Fin 10) (len : Nat) : Bool :=
  let n := s.bulkWaiting src c
  decide (n ≠ 0 ∧ s.fifoBytes c p < n + len + 64)
/-- A control message enters before the bulk requests that have not entered their full FIFO yet. -/
def State.enterControl (s : State) (x : Inj) : Nat → List Inj → List Inj
  | _, [] => [x]
  | n, y :: l =>
    if y.same x ∧ y.control = false ∧ n ≠ 0 ∧ s.fifoBytes x.cls y.port < n + y.bytes + 64 then x :: y :: l
    else y :: s.enterControl x (if y.same x ∧ y.control = false then n + y.bytes else n) l
/-- A request put into its FIFO. -/
def State.enqueue (s : State) (x : Inj) : State :=
  let l := s.gauge.fifo
  { s with gauge := { s.gauge with fifo := if x.control then s.enterControl x 0 l else l ++ [x] } }

/-! ### Deficit-weighted round robin (R237) -/

/-- The bytes a turn of a level, and of a class within its level, gives: only their proportions are the rule's (log 162). -/
def levelTurn (l : Fin 4) : Nat := 128 * levelFraction l
def State.classTurn (s : State) (c : Fin 9) : Nat :=
  128 * (if h : c.val < 8 then s.shareOf (.swatch ⟨c.val, h⟩) else 16)
/-- The next level, and the next class of a level, has its turn. -/
def Drr.nextLevel (d : Drr) : Drr :=
  { d with level := d.level + 1, levelLeft := upd d.levelLeft (d.level + 1) fun n => n + levelTurn (d.level + 1) }
def State.nextClass (s : State) (d : Drr) (l : Fin 4) : Drr :=
  let c := d.cls[l] + 1
  { d with cls := d.cls.set l c, clsLeft := upd d.clsLeft c fun n => n + s.classTurn c }
/-- The request served next and the arbitration after. A level with nothing waiting passes its turn to the highest level that
has traffic waiting; within a level the classes share by s, and a class takes its oldest request. -/
def State.drrPick (s : State) (heads : List Inj) : Nat → Drr → Option (Inj × Drr)
  | 0, _ => none
  | fuel + 1, d =>
    let on (l : Fin 4) := heads.filter fun x => decide (s.levelOf x.cls = l)
    match (if (on d.level).isEmpty then ([3, 2, 1, 0] : List (Fin 4)).find? fun l => !(on l).isEmpty else some d.level) with
    | none => none
    | some l =>
      let c := d.cls[l]
      match (on l).find? fun x => decide (x.cls.idx = c) with
      | none => s.drrPick heads fuel (s.nextClass { d with clsLeft := d.clsLeft.set c 0 } l)
      | some x =>
        if d.clsLeft[c] < x.bytes then s.drrPick heads fuel (s.nextClass d l)
        else if d.levelLeft[d.level] < x.bytes then s.drrPick heads fuel d.nextLevel
        else some (x, { d with levelLeft := upd d.levelLeft d.level fun n => n - x.bytes
                               clsLeft := upd d.clsLeft c fun n => n - x.bytes })

/-! ### Pacing credits (R227, R228) -/

/-- Whether a port can take a request now, so that none queues inside the network: it is up, a TAG is free, and the far side's
credits cover it. -/
def State.canInject (s : State) (x : Inj) : Bool :=
  s.portUp x.port && (s.freeTag x.port).isSome && creditsCover (s.ports[x.port]).far 0 x.txn.granules &&
  decide ((s.ports[x.port]).retryBuf.length < 128) && (s.ports[x.port]).outq.all fun t => decide (t.cls ≠ 0)
/-- The requests at the heads of their FIFOs. -/
def fifoHeads : List Inj → List Inj
  | [] => []
  | x :: l => x :: (fifoHeads l).filter fun y => !y.same x
/-- The heads that may be injected: at a service port, the one its own arbitration serves next. -/
def State.injectable (s : State) : List Inj :=
  let l := (fifoHeads s.gauge.fifo).filter s.canInject
  let service (src : Src) (i : Fin 2) : List Inj :=
    match s.drrPick (l.filter fun x => decide (x.src = src)) 40 (s.gauge.service[i]) with
    | some r => [r.1]
    | none => []
  (l.filter fun x => decide (x.src ≠ .selvage ∧ x.src ≠ .distaff)) ++ service .selvage 0 ++ service .distaff 1
/-- The length of an arbitration turn in nanoseconds (log 162). -/
def turnNs : Nat := 64
/-- What a turn of a port gives each swatch for reads or for writes: the reservation of a cast hard swatch, 256 and 128 GB/s
per skein, shared among the stack ports in proportion to their rates (R188, R228). -/
def State.reserved (s : State) (p : Fin 10) (w : Bool) : Vector Nat 8 :=
  let all := sumN ((s.portsOf .stack).map s.rateGb)
  Vector.ofFn fun i =>
    let x := s.swatches[i]
    if x.isCast ∧ x.cls = .hard ∧ s.fuses.ports[p].role = .stack ∧ all ≠ 0 then
      turnNs * (if w then 128 else 256) * x.skeinList.length * s.rateGb p / all else 0
/-- A new arbitration turn of a port. -/
def State.newTurn (s : State) (p : Fin 10) (w : Bool) (g : Grants) : Grants :=
  { g with left := turnNs * s.rateGb p, res := s.reserved p w }
/-- A grant within the present turn: first a reservation, then what remains by the class arbitration; a reservation nobody
uses is part of what remains (R228). -/
def State.grantIn (s : State) (heads : List Inj) (force : Bool) (g : Grants) : Option (Inj × Grants) :=
  let reserve (x : Inj) : Option (Fin 8) := match x.cls with
    | .swatch i => if x.bytes ≤ g.res[i] then some i else none
    | .mgmt => none
  match heads.findSome? fun x => (reserve x).map fun i => (x, i) with
  | some (x, i) => some (x, { g with left := g.left - x.bytes, res := upd g.res i fun n => n - x.bytes })
  | none => (s.drrPick heads 40 g.drr).bind fun r =>
      if r.1.bytes ≤ g.left ∨ force then some (r.1, { g with left := g.left - r.1.bytes, drr := r.2 }) else none
/-- The next grant of a port for reads or writes; a turn used up is followed by the next. -/
def State.grantAt (s : State) (heads : List Inj) (p : Fin 10) (w : Bool) : Option (Inj × Grants) :=
  let l := heads.filter fun x => decide (x.port = p) && (x.txn.writes == w)
  let g := (s.ports[p]).grants[(if w then 1 else 0 : Fin 2)]
  if l.isEmpty then none
  else (s.grantIn l false g).or (s.grantIn l true (s.newTurn p w g))

/-! ### The spur bundles of near gauge (R233) -/

/-- Bytes in flight on the spur bundle of a skein. -/
def State.spurUsed (s : State) (k : Fin 16) (w : Bool) : Nat :=
  sumN ((s.accesses.filter fun a => a.spur && decide (a.who.source = .skein k)).map fun a => match a.op, w with
    | .read n, false => n
    | .write b, true => b.length
    | .atomic _ b, true => b.length
    | _, _ => 0)
/-- Whether a near-gauge request takes its skein's spur: the port is one of the row's, and what is in flight on the bundle
stays within its rate of 128 or 64 GB/s over the idle latency (log 163). -/
def State.takesSpur (s : State) (x : Inj) : Bool :=
  match x.src with
  | .skein k => match s.map.skeins[k] with
    | some y => x.near && spurPort (y.phys.val / 5) x.port &&
        decide (s.spurUsed k x.txn.writes + x.bytes ≤ (if x.txn.writes then 64 else 128) * (120 + 2 * dist2 y.phys x.port))
    | none => false
  | _ => false

/-! ### Injection -/

/-- GAUGE_WAIT_MAX: a request that waited did so for some time, free (R256; log 11). -/
def State.noteWait (s : State) (x : Inj) : State :=
  if x.late then
    let v : Word := s.freeVal.setWidth 32
    let w : Word := if s.gauge.waitMax.toNat < v.toNat then v else s.gauge.waitMax
    ({ s with gauge := { s.gauge with waitMax := w } } : State).useFree
  else s
/-- A granted request leaves its FIFO with a TAG, over the spur or the Clos path, and its port sends it. -/
def State.injectNow (s : State) (x : Inj) (g : Grants) : State :=
  let p := x.port
  let tag := (s.freeTag p).getD 0
  let spur := s.takesSpur x
  let i : Fin 2 := if x.txn.writes then 1 else 0
  let served (src : Src) (d : Drr) : Drr :=
    if x.src = src then ((s.drrPick (((fifoHeads s.gauge.fifo).filter s.canInject).filter fun y => decide (y.src = src)) 40 d).map
      Prod.snd).getD d else d
  let s : State := s.noteWait x
  let s : State := { s with
    gauge := { s.gauge with fifo := s.gauge.fifo.filter fun y => decide (y.id ≠ x.id)
                            service := (upd s.gauge.service 0 (served .selvage)).set 1 (served .distaff s.gauge.service[(1 : Fin 2)]) }
    accesses := s.accesses.map fun a => if a.id = x.id then { a with tag := some tag, spur := spur } else a }
  (s.modPort p fun e => { e with grants := e.grants.set i g }).transmit { x.txn with head := { x.txn.head with tag := tag } }
/-- The first grant some port can give. -/
def State.nextGrant (s : State) : Option (Inj × Grants) :=
  let heads := s.injectable
  (allFin 10).findSome? fun p => (s.grantAt heads p false).or (s.grantAt heads p true)
/-- Pacing credits granted while a port can take a request that waits. -/
def State.injectAll (s : State) : Nat → State
  | 0 => s
  | fuel + 1 => match s.nextGrant with
    | some (x, g) => (s.injectNow x g).injectAll fuel
    | none => s
def State.inject (s : State) : State := if s.gauge.fifo.isEmpty then s else s.injectAll s.gauge.fifo.length
/-- What a port has queued is sent as far as its credits go, and what waits at the sources follows. -/
def State.flow (s : State) (p : Fin 10) : State := (s.pumpPort p).inject
/-- An access issued at a port: kept until its answer; its request waits in its class's FIFO for a credit (R50, R54, R227).
`wire` is the address as the port's role sends it. -/
def State.sendAccess (s : State) (who : Who) (p : Fin 10) (wire addr : Nat) (op : AccOp) (dest : Dest) (cls : TClass)
    (pc : Nat := 0) (control : Bool := false) : State :=
  let id := s.nextAccess
  let near : Bool := match cls with
    | .swatch i => (s.swatches[i]).near
    | .mgmt => false
  let a : Access := ⟨id, who, .port p, .needle, addr, op, dest, none, pc, true, false⟩
  let s : State := { s with accesses := s.accesses ++ [a], nextAccess := id + 1 }
  let s : State := (s.enqueue ⟨id, who.source, cls, control, near, false, accTxn p 0 (s.levelOf cls) wire addr op⟩).inject
  let s : State := { s with gauge := { s.gauge with fifo := s.gauge.fifo.map fun y => { y with late := true } } }
  s

end Sys2Proof.Machine
end

