-- ==== Sys2Proof/Machine/Rings.lean ====
section
/-! DEFINITION. Completion and submission rings (05): posting an entry, signalling a vector, raising an event, and
the one way every Renaro command is dispatched, checked in the order of R123, and answered. -/
namespace Sys2Proof.Machine
open Sys2Proof

/-! ### Status codes (R122) -/
def stOk : Nat := 0x00
def stInvalidOpcode : Nat := 0x01
def stInvalidParam : Nat := 0x02
def stNotPermitted : Nat := 0x03
def stConflict : Nat := 0x04
def stPowerLimit : Nat := 0x05
def stNoResource : Nat := 0x06
def stAdmission : Nat := 0x07
def stAborted : Nat := 0x08
def stTimeout : Nat := 0x09
def stTiming : Nat := 0x0A
def stDupId : Nat := 0x0B
def stAuthFail : Nat := 0x0C
def stNotFound : Nat := 0x0D
def stPortLost : Nat := 0x0E
def stHostReset : Nat := 0x0F
def stThermal : Nat := 0x10
def stOverrun : Nat := 0x11
def stMediaError : Nat := 0x12
def stInternal : Nat := 0x13

/-! ### Rings -/

/-- Number of entries of a ring (R102). -/
def ringSize (cfg : Word) : Nat := 2 ^ fld cfg 3 0
/-- The CQ an SQ names (R107). -/
def Sq.cq (q : Sq) : Fin 16 := Fin.ofNat 16 (fld q.cfg 7 4)
/-- The scope of an SQ: a swatch number, or 0xF for management (R104). -/
def Sq.scope (q : Sq) : Nat := fld q.cfg 19 16
/-- Distaff-owned (R107, R108). -/
def Sq.distaffOwned (q : Sq) : Bool := q.cfg.getLsbD 20
def Cq.distaffOwned (c : Cq) : Bool := c.cfg.getLsbD 24
/-- A distaff-owned CQ of the twin secondary: SCOPE_DIE = 1 (R105, R106, R108). -/
def Cq.onTwin (c : Cq) : Bool := c.distaffOwned && c.cfg.getLsbD 29
/-- A CQ is full when its tail is one less than its head (R117). -/
def Cq.isFull (c : Cq) : Bool := decide ((c.tail.toNat + 1) % ringSize c.cfg = c.head.toNat)

/-- A vector signalled (R45): through the lowest function in which it is unmasked; masked in every function, or in
D3hot (R47), it sets pending bits. -/
def State.signalVector (s : State) (v : Fin 64) : State :=
  let fs := (allFin 2).filter s.fnExists
  match fs.find? (fun f => !(s.fns[f].msix[v]).mask) with
  | none => fs.foldl (fun s f => s.modFn f fun h => { h with pba := setBit h.pba v.val }) s
  | some f =>
    if s.fns[f].d3hot then s.modFn f fun h => { h with pba := setBit h.pba v.val }
    else
      match s.fuses.shusPcie, s.shusPort with
      | true, some p => s.sendMsg p 0x21 (padTo 32 [BitVec.ofNat 8 v.val])
      | _, _ => s.emit (.msix f v)

/-- The line of the core granted to a distaff-owned CQ's scope swatch raised (R105, R401). -/
def State.raiseLine (s : State) (sw line : Nat) : State :=
  match (allFin 4).find? fun d => s.distaffs[d].granted.map Fin.val = some sw with
  | some d => s.modDst d fun c => { c with irqPending := setBit c.irqPending line }
  | none => s

/-- A CQ's signal after a post (R119, R105): held off while HOLDOFF runs. A distaff-owned CQ of the twin secondary signals a
core of that die (log 141). -/
def State.cqSignal (s : State) (j : Fin 16) : State :=
  let c := s.cqs[j]
  if !c.cfg.getLsbD 10 then s
  else if c.holdoff then s.modCq j fun c => { c with due := true }
  else
    let s := if c.onTwin then s.emit (.twinLine (fld c.cfg 28 25) (fld c.cfg 7 4))
             else if c.distaffOwned then s.raiseLine (fld c.cfg 28 25) (fld c.cfg 7 4)
             else s.signalVector (Fin.ofNat 64 (fld c.cfg 9 4))
    s.modCq j fun c => { c with holdoff := decide (fld c.cfg 23 16 ≠ 0), due := false }

/-- The 64 bytes of an entry (R113). -/
def CEntry.bytes (e : CEntry) (phase : Bool) (sqHead : Half) : List Byte :=
  leBytes 2 e.cmdId.toNat ++ [e.status, e.detail, e.sqId, putBit e.flags 7 phase] ++ leBytes 2 sqHead.toNat ++
  leBytes 8 e.row.toNat ++ [e.devState, e.swtState, 0, 0] ++ padTo 44 e.result

/-- Where the memory of a ring lies: the host window, or a yarn address (R102). -/
def ringAddr (distaff : Bool) (base : DWord) (index : Nat) : Nat :=
  (if distaff then 0 else hostBase) + base.toNat + 64 * index

/-- Whether a CQ can take an entry now: enabled, without a fault, not full, its function in D0 (R111, R135, R47). -/
def State.canPost (s : State) (j : Fin 16) : Bool :=
  let c := s.cqs[j]
  (c.fsm.st = .on || c.fsm.st = .falling) && !c.error && !c.isFull &&
  (c.distaffOwned || !(s.fns[s.ringFn j]).d3hot)

/-- A reply whose ROW is not that of a tick carries the row count at its posting (R113); an event keeps the row of its
first occurrence (R121). -/
def State.stampRow (s : State) (e : CEntry) : CEntry :=
  if e.sqId.toNat < 16 ∧ e.flags.getLsbD 1 = false then { e with row := s.tick.count } else e

/-- The class of a ring's traffic (R133, R236): its scope swatch's, and the management class where the scope is the management
or a swatch that is not cast; the swatches of the other die are not this die's classes. -/
def State.ringClass (s : State) (scope : Nat) (twin : Bool) : TClass :=
  s.classOf (if h : scope < 8 ∧ twin = false then some ⟨scope, h.1⟩ else none)
/-- An entry of a ring written where the ring lies: in this die's memory, or over the TWIN port in the secondary's private
memory (R102, R106). -/
def State.ringStore (s : State) (twin : Bool) (scope a : Nat) (bs : List Byte) : State :=
  if twin then
    match s.twinPort with
    | some p => s.sendAccess .firmware p a (twinBase + a) (.write (bs.map some)) .none (s.ringClass scope twin) 0 true
    | none => s
  else s.store a bs

/-- One entry written into its ring (R114), then signalled. -/
def State.postNow (s : State) (j : Fin 16) (e : CEntry) : State :=
  let c := s.cqs[j]
  let head := if h : e.sqId.toNat < 16 then (s.sqs[e.sqId.toNat]).head else 0
  let s := s.ringStore c.onTwin (fld c.cfg 28 25) (ringAddr c.distaffOwned c.base c.tail.toNat) ((s.stampRow e).bytes c.phase head)
  let last := decide (c.tail.toNat + 1 = ringSize c.cfg)
  let s := s.modCq j fun c => { c with
    tail := if last then 0 else c.tail + 1
    phase := if last then !c.phase else c.phase }
  if e.noIrq then s else s.cqSignal j

/-- An entry posted, held while its CQ cannot take it (R135, R111), or discarded: with the CQ off or its function
in reset (R46), or after the hardware trip (R530). -/
def State.post (s : State) (j : Fin 16) (e : CEntry) : State :=
  let c := s.cqs[j]
  if s.tripped || c.fsm.st = .off || c.fsm.st = .rising ||
     (!c.distaffOwned && (s.fns[s.ringFn j]).resetting) then s
  else if c.held.isEmpty && s.canPost j then s.postNow j e
  else s.modCq j fun c => { c with held := c.held ++ [e] }

/-- Held entries posted in their order while there is room (R135). -/
def State.flushHeld (s : State) (j : Fin 16) : Nat → State
  | 0 => s
  | k + 1 =>
    match s.cqs[j].held with
    | e :: rest =>
      if s.canPost j then
        ((s.modCq j fun c => { c with held := rest }).postNow j e).flushHeld j k
      else s
    | [] => s

/-! ### Events (R120, R121) -/

/-- The entry of an event (R113, R120). No SQ carried it and its SWATCH is none, so SQ_HEAD is posted as 0 and SWT_STATE as
0xFF, also where the source is a swatch: a DESIGN CHOICE, R113 naming both by the command's fields alone (log 142). -/
def EventRec.entry (ev : EventRec) (devState : Byte) : CEntry where
  cmdId := 0xFFFF
  status := ev.status
  detail := 0
  sqId := 0xFF
  flags := if ev.twin then 4 else 0
  row := ev.row
  devState := devState
  swtState := 0xFF
  result := [ev.kind, ev.source] ++ leBytes 2 ev.count.toNat ++ leBytes 8 ev.extra.toNat
  noIrq := false

/-- The device state as SELV_STATUS.STATE codes it: 0 until READY (R87, R100). -/
def State.devCode (s : State) : Nat := if s.selv.ready then s.selv.st.code.toNat else 0

/-- Queued events of a function posted while its event CQ takes them. -/
def State.flushEvents (s : State) (f : Fin 2) : Nat → State
  | 0 => s
  | k + 1 =>
    let h := s.fns[f]
    let j : Fin 16 := Fin.ofNat 16 (fld h.eventCtrl 3 0)
    match h.events with
    | ev :: rest =>
      if s.cqs[j].held.isEmpty && s.canPost j && !s.tripped && !h.resetting then
        ((s.modFn f fun h => { h with events := rest }).postNow j
          (ev.entry (BitVec.ofNat 8 s.devCode))).flushEvents f k
      else s
    | [] => s

/-- An event merged into the queued one of its kind and source, or lost (R121); a port's new event bits join. -/
def mergeEvent (h : HostFn) (ev : EventRec) : HostFn :=
  if h.events.any (fun x => x.kind = ev.kind ∧ x.source = ev.source ∧ x.twin = ev.twin) then
    { h with events := h.events.map fun x =>
        if x.kind = ev.kind ∧ x.source = ev.source ∧ x.twin = ev.twin then
          { x with count := satAdd x.count ev.count.toNat, extra := if x.kind = 4 then x.extra ||| ev.extra else x.extra } else x }
  else { h with eventsLost := satAdd h.eventsLost 1 }

/-- An event given to one function (R121): merged or lost while 256 events are queued or the event CQ is full, else queued
behind those that wait for their CQ. -/
def State.eventTo (s : State) (f : Fin 2) (ev : EventRec) : State :=
  let h := s.fns[f]
  let j : Fin 16 := Fin.ofNat 16 (fld h.eventCtrl 3 0)
  let c := s.cqs[j]
  if !h.eventCtrl.getLsbD 4 || h.resetting || s.tripped then s
  else if decide (256 ≤ h.events.length) || ((c.fsm.st = .on || c.fsm.st = .falling) && c.isFull) then
    s.modFn f fun h => mergeEvent h ev
  else (s.modFn f fun h => { h with events := h.events ++ [ev] }).flushEvents f (h.events.length + 1)

/-- A message with a 64-byte entry, as two MSG transactions (R60, R106). -/
def State.relayMsg (s : State) (code : Nat) (bytes : List Byte) : State :=
  match s.twinPort with
  | some p => (s.sendMsg p code (slice bytes 0 32)).sendMsg p (0x10000 + code) (slice bytes 32 32)
  | none => s

/-- An event posted into the event CQ of every function with EN = 1; a twin secondary's goes to its primary
(R120, R106). -/
def State.event (s : State) (kind source status : Nat) (extra : DWord := 0) : State :=
  let ev : EventRec := ⟨BitVec.ofNat 8 kind, BitVec.ofNat 8 source, BitVec.ofNat 8 status, 1, extra, s.tick.count, false⟩
  if s.fuses.twin && !s.fuses.primary then
    s.relayMsg 0x35 ((ev.entry (BitVec.ofNat 8 s.devCode)).bytes false 0)
  else (allFin 2).foldl (fun s f => if s.fnExists f then s.eventTo f ev else s) s

/-- An event that stands for several occurrences (R120). -/
def State.eventN (s : State) (kind source status count : Nat) (row : DWord) : State :=
  let ev : EventRec := ⟨BitVec.ofNat 8 kind, BitVec.ofNat 8 source, BitVec.ofNat 8 status, BitVec.ofNat 16 count, 0, row, false⟩
  if s.fuses.twin && !s.fuses.primary then
    s.relayMsg 0x35 ((ev.entry (BitVec.ofNat 8 s.devCode)).bytes false 0)
  else (allFin 2).foldl (fun s f => if s.fnExists f then s.eventTo f ev else s) s

/-! ### Entries of commands -/

end Sys2Proof.Machine

namespace Sys2Proof
open Sys2Proof.Machine

/-- A little-endian parameter at an entry byte offset (R138). -/
def Entry.u (e : Entry) (off n : Nat) : Nat := leAt e.params.toList (off - 8) n
/-- Bit 0 of FLAGS: FENCE (R112). -/
def Entry.fence (e : Entry) : Bool := e.flags.getLsbD 0
/-- The target swatch, where SWATCH is 0 to 7. -/
def Entry.target (e : Entry) : Option (Fin 8) := if h : e.swatch.toNat < 8 then some ⟨e.swatch.toNat, h⟩ else none
/-- The 64 bytes of an entry with its opcode (R112). -/
def Entry.bytes (e : Entry) (op : Nat) : List Byte :=
  leBytes 2 op ++ [e.flags, e.swatch] ++ leBytes 2 e.cmdId.toNat ++ leBytes 2 e.rsv.toNat ++ e.params.toList

/-- The identity of a command (R112). -/
def Entry.ref (e : Entry) (relayed : Bool) (epoch : Nat) : CmdRef :=
  ⟨e.sq, e.cmdId, e.flags.getLsbD 1, e.swatch, relayed, epoch⟩

end Sys2Proof

namespace Sys2Proof.Machine
open Sys2Proof

/-- What a Renaro command is: its opcode and the checks of R123, each seeing the entry and the state at dispatch,
and what it does once it has passed them. -/
structure Cmd where
  op     : Nat
  /-- SWATCH must be (R139): 0 none, 1 a target, 2 either, 3 as GRANTEE says (R174), 4 none, or from a ring with a swatch
  scope that swatch (R145; log 18) -/
  target : Nat
  /-- request fields: offset and length; every other byte from 8 on must be 0 -/
  used   : List (Nat × Nat)
  /-- offsets of fields out of range (step 2) -/
  bad    : Entry → State → List Nat := fun _ _ => []
  /-- DETAIL when an object in memory is malformed or cannot be read (step 2; R142, R143) -/
  object : Entry → State → Option Nat := fun _ _ => none
  /-- a needed block is granted to another grantee, or another refusal of step 3 -/
  deny   : Entry → State → Bool := fun _ _ => false
  /-- DETAIL of STATE_CONFLICT (step 4) -/
  state  : Entry → State → Option Nat := fun _ _ => none
  /-- power, admission, resource and object checks: status and DETAIL (step 5) -/
  res    : Entry → State → Option (Nat × Nat) := fun _ _ => none
  /-- the effect, which answers at once or leaves the command in flight -/
  act    : CmdRef → Entry → State → State

/-- Result bytes 20 to 63 from fields (entry offset, length, value). -/
def resBytes (fs : List (Nat × Nat × Nat)) : List Byte :=
  fs.foldl (fun l f => l.take (f.1 - 20) ++ leBytes f.2.1 f.2.2 ++ l.drop (f.1 - 20 + f.2.1)) (List.replicate 44 0)

/-- What a swatch's SWT_STATE byte reads in an entry (R113). -/
def State.swtCode (s : State) (sw : Byte) : Byte :=
  if h : sw.toNat < 8 then BitVec.ofNat 8 (s.swatches[sw.toNat]).st.code.toNat else 0xFF

/-- The completion entry of a command composed now (R113, R115): `flags` bit 0 is DEFERRED; a row makes it ROW_VALID. -/
def State.compose (s : State) (r : CmdRef) (status detail flags : Nat) (row : Option DWord) (res : List Byte) :
    CEntry where
  cmdId := r.cmdId
  status := BitVec.ofNat 8 status
  detail := BitVec.ofNat 8 detail
  sqId := BitVec.ofNat 8 r.sq.val
  flags := BitVec.ofNat 8 flags ||| (if row.isSome then 2 else 0)
  row := row.getD s.tick.count
  devState := BitVec.ofNat 8 s.devCode
  swtState := s.swtCode r.swatch
  result := res
  noIrq := r.noIrq

/-- The one completion entry of a command (R144): posted or held in the CQ its SQ names, and the SQ's count of
commands in flight falls; a relayed command answers over the TWIN port (R106). -/
def State.finish (s : State) (r : CmdRef) (e : CEntry) : State :=
  let s := { s with jobs := s.jobs.eraseP fun j => decide (j.1 = r) }
  if r.relayed then s.relayMsg 0x35 (e.bytes false 0)
  else if s.sqs[r.sq].epoch ≠ r.epoch then s
  else (s.modSq r.sq fun q => { q with inflight := q.inflight - 1 }).post s.sqs[r.sq].cq e

/-- A command answered now. -/
def State.reply (s : State) (r : CmdRef) (status : Nat) (detail : Nat := 0) (res : List (Nat × Nat × Nat) := [])
    (flags : Nat := 0) (row : Option DWord := none) : State :=
  s.finish r (s.compose r status detail flags row (resBytes res))
/-- OK with result fields. -/
def State.ok (s : State) (r : CmdRef) (res : List (Nat × Nat × Nat) := []) : State := s.reply r stOk 0 res
/-- A command that stays in flight until another command of the table ends it (R132). -/
def State.inFlight (s : State) (r : CmdRef) (op : Nat) (e : Entry) : State :=
  { s with jobs := s.jobs ++ [(r, BitVec.ofNat 16 op, e.params.toList)] }

/-- The condition of R125 for a grantee; Shuskaub's port registers only while no bobbin is on (R422). -/
def State.mayHold (s : State) (h : Holder) (cls inst : Nat) : Bool :=
  let k : Fin 16 := Fin.ofNat 16 inst
  let d := s.distaffs[Fin.ofNat 4 inst]
  let b := s.bobbins[Fin.ofNat 48 inst]
  match h with
  | .host _ =>
    (if cls ≤ 3 then (s.swatchOf k).isNone
     else if cls = 6 then d.granted.isNone
     else if cls = 7 ∧ inst < 48 then b.swatch.isNone
     else if cls = 7 then (allFin 48).all fun b => decide (s.bobbins[b].fsm.st = .off ∨ s.bobbins[b].fsm.st = .falling)
     else true)
  | .swatch i =>
    (if cls ≤ 3 then decide (s.swatchOf k = some i)
     else if cls = 6 then decide (d.granted = some i)
     else if cls = 7 ∧ inst < 48 then b.bound && decide (b.swatch = some i)
     else false)
/-- Whether a swatch-scoped ring may issue a command (R104, R145): the rules on bobbins and grants are the
commands' own. -/
def scopeAllows (op sw : Nat) (e : Entry) (s : State) : Bool :=
  match op / 256 with
  | 0 => decide (op = 0 ∨ op = 1 ∨ op = 5)
  | 1 => decide (e.swatch.toNat = sw)
  | 2 => decide (op = 0x200 ∨ e.swatch.toNat = sw)
  | 3 => decide (e.swatch.toNat = sw)
  | 4 => if op = 0x400 then decide (e.swatch.toNat = sw)
         else if h : e.u 8 1 < 48 then decide ((s.bobbins[e.u 8 1]).swatch.map Fin.val = some sw) else false
  | 5 => decide (op = 0x500 ∨ op = 0x502)
  | 6 => decide (op = 0x600)
  | 9 => decide (e.u 10 1 = 1 ∨ op ≠ 0x900) && decide (e.swatch.toNat = sw) &&
         s.mayHold (.swatch (Fin.ofNat 8 sw)) (e.u 8 2 / 2048) (e.u 8 2 % 2048)
  | 10 => decide (op = 0xA00)
  | _ => false

/-- Commands of the primary only (R106). -/
def primaryOnly (op : Nat) : Bool :=
  (decide (op / 256 = 0) && !decide (op = 0 ∨ op = 1 ∨ op = 5)) ||
  (decide (op / 256 = 5) && !decide (op = 0x500 ∨ op = 0x502)) || decide (op / 256 = 7) || decide (op / 256 = 8)

/-- Offsets offending in the header and in bytes a command does not use (R112, R138, R139); DEBUG_ECHO alone has no
unused bytes. -/
def Cmd.headerBad (c : Cmd) (scope : Nat) (e : Entry) : List Nat :=
  (if fld e.flags 7 2 ≠ 0 then [2] else []) ++
  (let t := decide (e.swatch.toNat < 8)
   let n := decide (e.swatch = 0xFF)
   let ok := match c.target with
     | 0 => n
     | 1 => t
     | 2 => t || n
     | 4 => n || (decide (scope < 8) && t)
     | _ => if e.u 10 1 = 1 then t else n
   if ok then [] else [3]) ++
  (if e.rsv ≠ 0 then [6] else []) ++
  (((List.range 56).map fun i => i + 8).filter fun i =>
    decide (e.params.toList.getD (i - 8) 0 ≠ 0) && !c.used.any fun u => decide (u.1 ≤ i ∧ i < u.1 + u.2))

/-- The first status that applies (R123), none when the command runs: swatch and program-load commands need the compute
service (R85). -/
def Cmd.check (c : Cmd) (scope : Nat) (relayed : Bool) (e : Entry) (s : State) : Option (Nat × Nat) :=
  match (c.headerBad scope e ++ c.bad e s).min? with
  | some off => some (stInvalidParam, off)
  | none =>
    match c.object e s with
    | some d => some (stInvalidParam, d)
    | none =>
      if (decide (scope < 8) && !scopeAllows c.op scope e s) || (relayed && primaryOnly c.op) || c.deny e s then
        some (stNotPermitted, 0)
      else
        match c.state e s with
        | some d => some (stConflict, d)
        | none => if decide (c.op / 256 = 1 ∨ c.op / 256 = 3) && !s.selv.computeOk then some (stConflict, 3) else c.res e s

/-- Whether an SQ may dispatch now, its turn apart (R110, R111, R134, R135, R47): not while its head waits on FENCE. -/
def State.sqReady (s : State) (i : Fin 16) : Bool :=
  let q := s.sqs[i]
  let c := s.cqs[q.cq]
  s.selv.ready && q.fsm.st = .on && !q.error && q.head != q.tail && decide (q.inflight < 64) &&
  !(q.fenced && decide (0 < q.inflight)) && c.fsm.st = .on && !c.error && !c.isFull && c.held.isEmpty &&
  (q.distaffOwned || (!(s.fns[s.ringFn i]).d3hot && !(s.fns[s.ringFn i]).resetting))

/-- The SQ whose turn it is (R134): the one in turn while it is ready with entries left of its turn, else the next
ready one in ascending order, with its WEIGHT. After reset the search begins behind SQ 0, at SQ 1: a DESIGN CHOICE, R134
naming no first ring (log 143). -/
def State.sqTurn (s : State) : Option (Fin 16 × Nat) :=
  if s.sqReady s.turn && decide (0 < s.turnLeft) then some (s.turn, s.turnLeft)
  else
    (((List.range 16).map fun k => (Fin.ofNat 16 (s.turn.val + 1 + k))).find? s.sqReady).map fun i =>
      (i, max 1 (fld s.sqs[i].cfg 11 8))

/-- An entry taken from its SQ: the SQ has its turn, and a FENCE waits for every earlier command (R134). -/
def State.takeEntry (s : State) (e : Entry) : Option State :=
  match s.sqTurn with
  | some (i, left) =>
    if i = e.sq ∧ (e.fence = true → s.sqs[i].inflight = 0) then
      some { s with
        turn := i
        turnLeft := left - 1
        sqs := upd s.sqs i fun q => { q with
          fenced := false
          head := if q.head.toNat + 1 = ringSize q.cfg then 0 else q.head + 1
          inflight := q.inflight + 1 } }
    else none
  | none => none

/-- An entry with FENCE that its SQ, whose turn it is, may not dispatch yet: the SQ gives way to the others until its earlier
commands have completed (R134). -/
def State.noteFence (s : State) (e : Entry) : State :=
  match s.sqTurn with
  | some (i, _) => if i = e.sq ∧ e.fence = true ∧ 0 < s.sqs[i].inflight then s.modSq i fun q => { q with fenced := true } else s
  | none => s

/-- A checked command runs, or its refusal is answered (R123). -/
def Cmd.run (c : Cmd) (scope : Nat) (r : CmdRef) (e : Entry) (s : State) : State :=
  match c.check scope r.relayed e s with
  | some (st, d) => s.reply r st d
  | none => c.act r e s

/-- An entry of an SQ with SCOPE_DIE = 1 forwarded to the secondary, which checks and runs it (R106). -/
def State.relay (s : State) (op : Nat) (e : Entry) : State :=
  (s.relayMsg 0x34 (e.bytes op)).inFlight (e.ref false (s.sqs[e.sq]).epoch) op e

/-- A Renaro command (R123, R134): nothing happens unless its SQ may dispatch it. Every command of an SQ with SCOPE_DIE = 1
goes to the secondary (R106). -/
def Cmd.dispatch (c : Cmd) (e : Entry) (s : State) : State :=
  match s.takeEntry e with
  | none => s.noteFence e
  | some s1 =>
    let q := s1.sqs[e.sq]
    if q.cfg.getLsbD 12 then s1.relay c.op e else c.run q.scope (e.ref false q.epoch) e s1

/-! ### Which block a grant covers (R125) -/

/-- The grant of a block that is in force. -/
def State.grantOf (s : State) (block : Half) : Option Grant :=
  s.grants.find? fun g => decide (g.block = block) && g.waiting.isNone
/-- Whether a block is granted, or a dispatched EXPERT_GRANT of it waits: basic commands that would touch it are refused
(R127, R134). -/
def State.granted (s : State) (cls inst : Nat) : Bool :=
  s.grants.any fun g => decide (g.block = BitVec.ofNat 16 (cls * 2048 + inst))
/-- Whether a grant of a block is in force. -/
def State.grantedNow (s : State) (cls inst : Nat) : Bool :=
  (s.grantOf (BitVec.ofNat 16 (cls * 2048 + inst))).isSome
/-- Whether a block is granted to the host. -/
def State.hostGranted (s : State) (cls inst : Nat) : Bool :=
  match s.grantOf (BitVec.ofNat 16 (cls * 2048 + inst)) with
  | some ⟨_, .host _, _, _⟩ => true
  | _ => false

end Sys2Proof.Machine
end

