-- ==== Sys2Proof/Machine/Windows.lean ====
section
/-! DEFINITION. Who may reach which byte: the window check of a swatch's accesses (14 R382), shared hanks (07 R190),
drafts (08 R206 to R215), the host scope (14 R387) and the twin window (03 R65, R66). -/
namespace Sys2Proof.Machine
open Sys2Proof

/-- What a check point answers: the address served, a refusal, or an uncorrectable error. -/
inductive Chk
  | ok (addr : Nat)
  | refused
  | bad
deriving DecidableEq, Repr

/-- The rights an access needs: bit of RIGHTS (R150). -/
inductive Need | read | write | atomic
deriving DecidableEq, Repr

/-- Whether RIGHTS grant an access (R150): an atomic add needs its own bit. -/
def Need.granted (n : Need) (r : BitVec 3) : Bool :=
  match n with
  | .read => r.getLsbD 0
  | .write => r.getLsbD 1
  | .atomic => r.getLsbD 2

/-- Whether a range lies in a range. -/
def within (a len base size : Nat) : Bool := decide (base ≤ a ∧ a + len ≤ base + size)
/-- Whether two ranges share a byte. -/
def overlaps (a len b size : Nat) : Bool := decide (0 < len ∧ 0 < size ∧ a < b + size ∧ b < a + len)

/-- The window of a swatch that covers every byte of an access (R382). -/
def Swatch.winAt (w : Swatch) (a len : Nat) : Option Window := w.windows.find? fun x => within a len x.base x.size
/-- The flip parity: SWT_FLIP_COUNT mod 2; the front copy is the copy of that number (R190, R380). -/
def Swatch.parity (w : Swatch) : Nat := w.flipCount.toNat % 2
/-- The address in the front copy of a shared hank. -/
def frontAddr (w : Swatch) (x : Window) (a : Nat) : Nat := a + w.parity * x.size
/-- The address in the back copy. -/
def backAddr (w : Swatch) (x : Window) (a : Nat) : Nat := a + (1 - w.parity) * x.size
/-- The cast swatch whose shared hank holds an access at its BASE range; one being bound off matches no more (R220). -/
def State.hankOwner (s : State) (a len : Nat) : Option (Fin 8 × Window) :=
  s.castList.findSome? fun i =>
    if s.swatches[i].st = .bound then none
    else (s.swatches[i].windows.find? fun x => decide (x.kind = 1) && within a len x.base x.size).map fun x => (i, x)

/-- A read-only shared window (R381, R382): host-held pages, or the front copy of a shared hank. -/
def State.sharedRead (s : State) (a len : Nat) : Chk :=
  if s.region a ≠ .stack then .ok a
  else match s.pageSt (pageOf a) with
    | .hostHeld _ => .ok a
    | .swatchHeld _ _ => (match s.hankOwner a len with
      | some (i, x) => .ok (frontAddr s.swatches[i] x a)
      | none => .refused)
    | _ => .refused

/-- The address of a pool slot (R210). -/
def Swatch.slotAddr (w : Swatch) (k : Nat) : Nat := pageAddr (w.pool.getD 0) + 256 * k
/-- Where committed content is read and written: in the slot of a row whose copy still runs, that of the latest commit
(R212). -/
def Swatch.committedAt (w : Swatch) (a : Nat) : Nat :=
  match (w.copies.flatMap fun c => c.2.1).reverse.find? fun x => decide (x.1 = a / 256 * 256) with
  | some x => w.slotAddr x.2 + a % 256
  | none => a
/-- The check of a swatch's access outside its own stores (R382), drafts apart; in a KV range it lies in one 256-byte row. -/
def State.windowCheck (s : State) (i : Fin 8) (a len : Nat) (n : Need) : Chk :=
  let w := s.swatches[i]
  match w.winAt a len with
  | none => .refused
  | some x =>
    if !n.granted x.rights then .refused
    else match x.kind.val with
      | 1 => .ok (backAddr w x a)
      | 2 => if n = .read then s.sharedRead a len else .refused
      | _ => .ok (w.committedAt a)

/-- Whether an address is in a store of the swatch's own rectangle. -/
def State.ownStore (s : State) (i : Fin 8) (a : Nat) : Bool :=
  match s.region a with
  | .store k => s.swatches[i].covers k
  | _ => false

/-! ### The save area (10 R292) -/

/-- The record of a skein in the save area of its swatch: 0x54_0000 bytes each, in relative skein order (R292). -/
def State.saveRec (s : State) (i : Fin 8) (k : Fin 16) : Nat :=
  (s.swatches[i]).saveBase.toNat + 0x540000 * ((s.swatches[i]).skeinList.takeWhile fun x => decide (x ≠ k)).length
/-- Where a save keeps a byte of a skein store (R292). -/
def State.savedAt (s : State) (i : Fin 8) (a : Nat) : Nat := s.saveRec i (Fin.ofNat 16 (a / 0x400000)) + a % 0x400000
/-- The record of a needle in the save area: 192 KiB each, after the store and the 128 KiB skein record (R292). -/
def State.saveNdl (s : State) (i : Fin 8) (n : Fin 96) : Nat :=
  s.saveRec i (Fin.ofNat 16 (n.val / 6)) + 0x420000 + 0x30000 * (n.val % 6)

/-! ### Drafts -/

/-- The fields of a draft state word (R206, R268): RD_ID, WR_ID, WR_POS, PARENT. -/
def rdId (d : Word) : Byte := BitVec.ofNat 8 (fld d 7 0)
def wrId (d : Word) : Byte := BitVec.ofNat 8 (fld d 15 8)
def wrPos (d : Word) : Byte := BitVec.ofNat 8 (fld d 23 16)
def parentId (d : Word) : Byte := BitVec.ofNat 8 (fld d 31 24)

/-- An open draft of a swatch. -/
def Swatch.draft (w : Swatch) (id : Byte) : Option Draft := w.drafts.find? fun d => decide (d.id = id)
/-- The chain of a draft, deepest first (R208, R211). -/
def Swatch.draftChain (w : Swatch) (id : Byte) : Nat → List Draft
  | 0 => []
  | k + 1 =>
    match w.draft id with
    | some d => d :: w.draftChain d.parent k
    | none => []
/-- The slot a read under an id finds for a row: that of the deepest draft of the chain that shadows it (R211). -/
def Swatch.version (w : Swatch) (id row : Nat) : Option Nat :=
  (w.draftChain (BitVec.ofNat 8 id) 64).findSome? fun d =>
    (d.slots.find? fun x => decide (x.row = row)).map DraftSlot.slot
/-- Whether a row lies in a KV range of the swatch (R207). -/
def State.inKv (s : State) (i : Fin 8) (a : Nat) : Bool :=
  s.region a = .stack &&
  s.hanks.any fun h => decide (h.kind = 2 ∧ h.target = some i) && within a 1 h.base (h.count * pageSize)
/-- Where a read under a draft id is served (R211); the access lies in one 256-byte row. -/
def State.draftRead (s : State) (i : Fin 8) (d : Word) (a : Nat) : Nat :=
  let w := s.swatches[i]
  match (if rdId d = 0 then none else w.version (rdId d).toNat (a / 256 * 256)) with
  | some k => w.slotAddr k + a % 256
  | none => w.committedAt a
/-- Whether an access outstanding at an edge port touches a range. -/
def State.portTouches (s : State) (a len : Nat) : Bool :=
  s.accesses.any fun x => match x.path with
    | .port _ => (match x.op with
      | .read n => overlaps x.addr n a len
      | .write b => overlaps x.addr b.length a len
      | .atomic _ b => overlaps x.addr b.length a len
      | _ => false)
    | _ => false
/-- Bytes as the writes and atomic adds that have arrived at the edge ports leave them (R55, R281): those outstanding land in
their order. -/
def State.landed (s : State) (a len : Nat) : List Byte :=
  let late := s.accesses.filter fun x => match x.path with
    | .port _ => true
    | _ => false
  let m := late.foldl (fun m x => match x.op with
    | .write b => if overlaps x.addr b.length a len then memWriteM m x.addr b else m
    | .atomic f b => if overlaps x.addr b.length a len then memWriteM m x.addr (atomicBytes f m x.addr b.length b) else m
    | _ => m) s.mem
  memRead m a len

/-- Positions of a draft still tentative. -/
def Draft.tentative (d : Draft) : List Byte := d.written.filter fun p => !d.committed.contains p

/-- The draft a write under WR_ID uses, opened if it is not open; none where R208 or R209 refuses it. -/
def Swatch.draftFor (w : Swatch) (d : Word) : Option Draft :=
  let id := wrId d
  let p := parentId d
  let pos := wrPos d
  let top : Option Draft := match w.draft id with
    | some x => if p = x.parent ∨ p = x.openedBy then some x else none
    | none =>
      if p ≠ 0 ∧ (w.draft p).isNone then none
      else if 16 ≤ (w.draftChain p 64).length ∨ 64 ≤ w.drafts.length then none
      else some ⟨id, p, p, [], [], []⟩
  top.filter fun x =>
    decide (pos.toNat ≤ 254) && !x.committed.contains pos &&
    decide (pos.toNat ≤ x.written.foldl (fun m b => max m (b.toNat + 1)) 0)

/-- A draft put back into the directory. -/
def Swatch.putDraft (w : Swatch) (d : Draft) : Swatch :=
  if w.drafts.any (fun x => decide (x.id = d.id)) then
    { w with drafts := w.drafts.map fun x => if x.id = d.id then d else x }
  else { w with drafts := w.drafts ++ [d] }

/-- A draft write to one row (R207 to R210): the state with the draft opened and the slot taken and filled, and the
address the bytes go to; a refusal, or the uncorrectable error of the fill. Its check here is its arrival at the edge port,
which orders it against COMMIT_DRAFT and FROG_DRAFT (R214; log 164); a freed slot that a write in flight still names is not
taken. -/
def State.draftWrite (s : State) (i : Fin 8) (d : Word) (a : Nat) : State × Chk :=
  let w := s.swatches[i]
  let row := a / 256 * 256
  if !s.inKv i a then (s, .refused)
  else match w.draftFor d with
    | none => (s, .refused)
    | some x =>
      let pos := wrPos d
      let written := if x.written.contains pos then x.written else x.written ++ [pos]
      match x.slots.find? fun y => decide (y.row = row) with
      | some y =>
        let y' : DraftSlot := { y with pos := if y.pos.toNat < pos.toNat then pos else y.pos }
        let x' := { x with written := written, slots := x.slots.map fun z => if z.row = row then y' else z }
        (s.modSw i fun w => w.putDraft x', .ok (w.slotAddr y.slot + a % 256))
      | none =>
        match (List.range 4096).find? fun k => !w.poolUsed.contains k && !s.portTouches (w.slotAddr k) 256 with
        | none => (s, .refused)
        | some k =>
          let src := match w.version x.parent.toNat row with
            | some v => w.slotAddr v
            | none => w.committedAt row
          if s.anyBad src 256 then (s, .bad)
          else
            let x' := { x with written := written, slots := x.slots ++ [⟨row, pos, k⟩] }
            let s := s.put (w.slotAddr k) ((s.landed src 256).map some)
            (s.modSw i fun w => { w.putDraft x' with poolUsed := w.poolUsed ++ [k] }, .ok (w.slotAddr k + a % 256))

/-- The check point of a swatch's spool access in one 256-byte row (R382, R206 to R211). -/
def State.spoolCheck (s : State) (i : Fin 8) (d : Word) (a len : Nat) (n : Need) : State × Chk :=
  if n ≠ .read ∧ wrId d ≠ 0 then
    if n = .atomic then (s, .refused)
    else match s.windowCheck i a len n with
      | .ok _ => s.draftWrite i d a
      | c => (s, c)
  else match s.windowCheck i a len n with
    | .ok b =>
      let b := if n = .read ∧ s.inKv i a then s.draftRead i d a else b
      (s, if s.onLost b then .bad else .ok b)
    | c => (s, c)

/-- COMMIT_DRAFT's commit (R212): positions p of draft d that satisfy `sel`: the directory after, how many they are, and the
rows they shadow, each with the slot that holds its content until its copy ends. -/
def Swatch.commitPositions (w : Swatch) (id : Byte) (sel : Byte → Bool) : Swatch × Nat × List (Nat × Nat) :=
  match w.draft id with
  | none => (w, 0, [])
  | some d =>
    let ps := d.tentative.filter sel
    let slots := d.slots.filter fun x => ps.contains x.pos
    let d' := { d with committed := d.committed ++ ps, slots := d.slots.filter fun x => !ps.contains x.pos }
    (w.putDraft d', ps.length, slots.map fun x => (x.row, x.slot))
/-- A slot copied into its row, granule by granule: content that cannot be read stays uncorrectable there (R212, R383). -/
def State.copyRow (s : State) (src dst : Nat) : State :=
  (List.range 8).foldl (fun s k =>
    let g := dst + 32 * k
    if s.isBad (src + 32 * k) then { s with poison := if s.poison.contains g then s.poison else s.poison ++ [g] }
    else s.put g ((memRead s.mem (src + 32 * k) 32).map some)) s

/-- A draft without a tentative position closes and its children are re-chained to its parent (R212). -/
def Swatch.closeDone (w : Swatch) : Swatch :=
  let gone := w.drafts.filter fun d => d.tentative.isEmpty
  gone.foldl (fun w d =>
    { w with drafts := (w.drafts.filter fun x => decide (x.id ≠ d.id)).map fun x =>
        if x.parent = d.id then { x with parent := ((w.draft d.id).map Draft.parent).getD 0 } else x }) w

/-- The drafts chained below a draft, and itself (R213). -/
def Swatch.below (w : Swatch) (id : Byte) : List Byte :=
  (w.drafts.filter fun d => (w.draftChain d.id 64).any fun x => decide (x.id = id)).map Draft.id

/-- Drafts discarded with their slots (R213): positions discarded and slots freed. -/
def Swatch.frog (w : Swatch) (ids : List Byte) : Swatch × Nat × Nat :=
  let gone := w.drafts.filter fun d => ids.contains d.id
  let slots := gone.flatMap fun d => d.slots.map DraftSlot.slot
  ({ w with drafts := w.drafts.filter fun d => !ids.contains d.id
            poolUsed := w.poolUsed.filter fun k => !slots.contains k },
   sumN (gone.map fun d => d.tentative.length), slots.length)

/-! ### The host scope and the twin window -/

/-- Where a host-scope access is served (R387), BAR4's and the firmware's alike: in host-held pages, or a read in the front
copy of a shared hank. None where it is refused. -/
def State.hostSpan (s : State) (a len : Nat) (write : Bool) : Option Nat :=
  if !s.selv.ready ∨ s.region a ≠ .stack ∨ s.region (a + len - 1) ≠ .stack ∨ s.inSref a then none
  else
    let pages := (List.range (pageOf (a + len - 1) + 1 - pageOf a)).map (· + pageOf a)
    if pages.all (fun p => match s.pageSt p with | .hostHeld _ => true | _ => false) then some a
    else if write then none
    else (s.hankOwner a len).map fun o => frontAddr s.swatches[o.1] o.2 a
/-- The same, with the errors it meets. -/
def State.hostCheck (s : State) (a len : Nat) (write : Bool) : Chk :=
  match s.hostSpan a len write with
  | some b => if (if write then s.writeBad b len else s.anyBad b len) then .bad else .ok b
  | none => .refused

/-- Where a TWIN port's request into this die's memory is served (R65): a range registered under R66 within its rights,
never a private window or store of an own swatch; a shared hank's front copy for a read. None where it is refused. -/
def State.twinSpan (s : State) (a len : Nat) (n : Need) : Option Nat :=
  (s.twinWins.find? fun w => within a len w.base w.size).bind fun w =>
    if !n.granted w.rights then none
    else if w.kind = 2 then
      (if n = .read then match s.sharedRead a len with
        | .ok b => some b
        | _ => none
       else none)
    else some a

end Sys2Proof.Machine
end

