-- ==== Sys2Proof/Machine/RegFile.lean ====
section
/-! DEFINITION. What every register reads as: the blocks of the expert register space (01 R24, R25) composed from the
state, the fields a read clears (R14, R18), and the plain writable fields. Actions a write requests are in
Registers.lean. -/
namespace Sys2Proof.Machine
open Sys2Proof

/-! ### EN writes (R99) -/

/-- EN := 1. -/
def EnFsm.enable (f : EnFsm) : EnFsm :=
  match f.st with
  | .off => { f with en := true, st := .rising }
  | .rising => { f with en := true, pendDis := false }
  | .on => { f with en := true }
  | .falling => { f with en := true, pendEn := true }
/-- EN := 0. -/
def EnFsm.disable (f : EnFsm) : EnFsm :=
  match f.st with
  | .off => { f with en := false }
  | .rising => { f with en := false, pendDis := true }
  | .on => { f with en := false, st := .falling }
  | .falling => { f with en := false, pendEn := false }
/-- The end of RISING. -/
def EnFsm.rose (f : EnFsm) : EnFsm :=
  if f.st = .rising then if f.pendDis then { f with st := .falling, pendDis := false } else { f with st := .on } else f
/-- The end of FALLING. -/
def EnFsm.fell (f : EnFsm) : EnFsm :=
  if f.st = .falling then if f.pendEn then { f with st := .rising, pendEn := false } else { f with st := .off } else f

/-- A register block instance (R24). -/
inductive Blk
  | selv | tally | tick | mbx | swt (i : Fin 8) | gauge | rep | chnIn
  | mesh (s : Fin 16) | stch (s : Fin 16) | skn (s : Fin 16) | ndl (n : Fin 96) | card (s : Fin 16) (m : Fin 2)
  | edge (p : Fin 10) | edgeCard (p : Fin 10) | stk (b : Fin 4) | dst (d : Fin 4) | l2
  | bob | pin | chnOut
deriving DecidableEq, Repr

/-- The block instance and the offset a register address falls in (R24, R25); none outside every present instance. -/
def State.blockAt (s : State) (a : Nat) : Option (Blk × Nat) :=
  let o := a % 0x10000
  let one (base : Nat) (b : Blk) : Option (Blk × Nat) :=
    if base ≤ a ∧ a < base + 0x10000 then some (b, a - base) else none
  let few (base n : Nat) (b : Nat → Blk) : Option (Blk × Nat) :=
    if base ≤ a ∧ a < base + 0x1000 * n then some (b ((a - base) / 0x1000), (a - base) % 0x1000) else none
  let shus : Bool := decide (s.fuses.shusDies ≠ 0)
  (one 0x10000000 .selv) <|> (one 0x10010000 .tally) <|> (one 0x10020000 .tick) <|> (one 0x10030000 .mbx) <|>
  (few 0x10040000 8 fun i => .swt (Fin.ofNat 8 i)) <|> (one 0x10050000 .gauge) <|> (one 0x10060000 .rep) <|>
  (one 0x10070000 .chnIn) <|>
  ((few 0x10100000 16 fun i => .mesh (Fin.ofNat 16 i)).filter fun r => match r.1 with
    | .mesh k => s.skeinIn k | _ => false) <|>
  ((few 0x10200000 16 fun i => .stch (Fin.ofNat 16 i)).filter fun r => match r.1 with
    | .stch k => s.skeinIn k | _ => false) <|>
  (if 0x11000000 ≤ a ∧ a < 0x12000000 then
    let k : Fin 16 := Fin.ofNat 16 ((a - 0x11000000) / 0x100000)
    let j := (a % 0x100000) / 0x10000
    if !s.skeinIn k then none
    else if j = 0 then some (.skn k, o)
    else if h : j < 7 ∧ 0 < j then some (.ndl (needleOf k ⟨j - 1, by omega⟩), o)
    else if j = 8 then some (.card k 0, o)
    else if j = 9 then some (.card k 1, o)
    else none
   else none) <|>
  (if 0x12000000 ≤ a ∧ a < 0x120A0000 then some (.edge (Fin.ofNat 10 ((a - 0x12000000) / 0x10000)), o) else none) <|>
  (if 0x12100000 ≤ a ∧ a < 0x121A0000 then some (.edgeCard (Fin.ofNat 10 ((a - 0x12100000) / 0x10000)), o)
   else none) <|>
  (if 0x13000000 ≤ a ∧ a < 0x13400000 ∧ a % 0x100000 < 0x10000 then
    let b : Fin 4 := Fin.ofNat 4 ((a - 0x13000000) / 0x100000)
    if s.namedStacks.contains b then some (.stk b, o) else none
   else none) <|>
  (if 0x14000000 ≤ a ∧ a < 0x14040000 then some (.dst (Fin.ofNat 4 ((a - 0x14000000) / 0x10000)), o) else none) <|>
  (one 0x14040000 .l2) <|>
  (if shus ∧ 0x18000000 ≤ a ∧ a < 0x18100000 then some (.bob, a - 0x18000000) else none) <|>
  (if shus then one 0x18100000 .pin <|> one 0x18200000 .chnOut else none)

/-- The low or the high word of a 64-bit register at its offset. -/
def word64 (v : DWord) (off base : Nat) : Word := if off = base then v.setWidth 32 else (v >>> 32).setWidth 32
/-- Whether an offset is one of the two words of a 64-bit register. -/
def at64 (off base : Nat) : Bool := decide (off = base ∨ off = base + 4)

/-! ### SELV (R100) -/

def Selv.statusWord (v : Selv) (dev : Nat) : Word :=
  mkW [(0, 1, b2n v.ready), (1, 3, dev), (4, 1, b2n v.mgmtOk), (5, 1, b2n v.computeOk), (6, 1, b2n v.trans.isSome),
       (8, 4, v.bootStep.toNat), (16, 16, v.skeinsOn.toNat)]
def Fuses.assemblyWord (f : Fuses) : Word :=
  mkW [(0, 3, f.hostPorts.toNat), (3, 3, f.stackCount.toNat), (6, 2, f.perStack.toNat), (8, 2, f.shusDies.toNat),
       (10, 1, b2n f.twin), (11, 1, b2n f.primary), (12, 1, b2n f.shusPcie)]
def Selv.bootCtrlWord (v : Selv) : Word :=
  mkW [(0, 2, v.order.toNat), (2, 1, b2n v.fullCensus), (31, 1, b2n v.bootLock)]
def Selv.bootStatusWord (v : Selv) : Word :=
  mkW [(0, 3, v.source.toNat), (8, 8, v.svn.toNat), (16, 16, v.readyTime.toNat)]
def Selv.censusWord (v : Selv) : Word :=
  mkW [(0, 5, v.goodSkeins.toNat), (5, 8, v.goodNeedles.toNat), (13, 1, b2n v.censusFull)]
/-- Logical needles of a map: six for each logical skein. -/
def LMap.needles (m : LMap) : Nat := 6 * ((allFin 16).filter fun i => m.skeins[i].isSome).length
def LMap.summaryWord (m : LMap) : Word :=
  mkW [(0, 3, m.courses.toNat), (3, 1, b2n m.fallback), (4, 4, m.rows.toNat), (8, 7, m.needles),
       (16, 8, m.epoch.toNat)]
def Selv.ppointWord (v : Selv) : Word := mkW ((allFin 16).map fun i => (2 * i.val, 2, v.ppoint[i].toNat))
def Selv.budgetWord (v : Selv) : Word := mkW [(0, 16, v.budget.toNat), (31, 1, b2n v.budgetLock)]
def Selv.burstWord (v : Selv) : Word := mkW [(0, 12, v.windowLeft.toNat), (12, 13, v.recoveryLeft.toNat)]
def Selv.powerWord (v : Selv) : Word := mkW [(0, 16, v.avg1ms.toNat), (16, 16, v.avg1s.toNat)]
def Selv.tempWord (v : Selv) : Word := mkW [(0, 16, v.hottest.toNat)]
/-- SELV_STATUS. -/
def State.statusWord (s : State) : Word := s.selv.statusWord s.devCode

/-- Fuse-loaded registers read 0 until start-up has loaded them (R17): step 2. -/
def State.fused (s : State) : Bool := decide (2 ≤ s.selv.bootStep.toNat)

def State.selvRead (s : State) (off : Nat) : Word :=
  match off with
  | 0x00 => s.statusWord
  | 0x04 => s.selv.fault
  | 0x08 => if s.fused then s.fuses.assemblyWord else 0
  | 0x0C => s.selv.bootCtrlWord
  | 0x10 => s.selv.bootStatusWord
  | 0x14 => s.selv.censusWord
  | 0x18 => s.map.summaryWord
  | 0x1C => s.selv.ppointWord
  | 0x20 => s.selv.budgetWord
  | 0x24 => s.selv.burstWord
  | 0x28 => s.selv.powerWord
  | 0x2C => s.selv.tempWord
  | 0x30 => s.selv.wake
  | 0x34 => s.selv.badAccess
  | _ => 0

/-! ### TALLY (R492) -/

/-- The slot in force: valid, with the higher SEQ (R479). -/
def ydSlot (p : YdSlot × YdSlot) : Option YdSlot :=
  match p.1.valid, p.2.valid with
  | true, true => some (if p.2.seq.toNat > p.1.seq.toNat then p.2 else p.1)
  | true, false => some p.1
  | false, true => some p.2
  | false, false => none
/-- A counter's value (R479); YD_RESERVED_7 reads 0 always. -/
def Tally.value (t : Tally) (c : Fin 16) : Word := if c.val = 7 then 0 else ((ydSlot t.slots[c]).map YdSlot.value).getD 0
/-- The owner in force: the record whose adoption number is YD_ADOPTIONS (R473). -/
def Tally.owner (t : Tally) : Option Owner := t.owners.find? fun o => decide (o.adoption = t.value 5 ∧ t.value 5 ≠ 0)
/-- The tag master key, while its adoption number is YD_ADOPTIONS (R473). -/
def Tally.tmk (t : Tally) : Option (BitVec 128) := (t.tagMaster.filter fun k => decide (k.2 = t.value 5)).map Prod.fst
/-- A floor word as burned (R482): the counter, F, and the count of 0 bits. -/
def floorValid (w : Word) : Bool :=
  decide (fld w 28 24 = ((List.range 24).filter fun i => !w.getLsbD i).length ∧ fld w 31 29 = 0)
/-- F_c (R482). -/
def Tally.floor (t : Tally) (c : Nat) : Nat :=
  t.floorWords.foldl (fun m w => if floorValid w ∧ fld w 23 20 = c then max m (fld w 19 0) else m) 0
def State.tallyRead (s : State) (off : Nat) : Word :=
  let t := s.tally
  if off = 0 then
    mkW [(0, 1, b2n t.owner.isSome), (1, 1, b2n t.tmk.isSome), (2, 1, b2n (t.run.isSome || !t.attests.isEmpty)),
         (3, 1, b2n (decide (1024 ≤ t.floorWords.length))), (8, 8, t.svnMin.toNat), (16, 8, s.selv.svn.toNat)]
  else if off = 4 then t.events
  else if at64 off 8 then (if s.fused then word64 s.fuses.serial off 8 else 0)
  else if off = 0x10 then BitVec.ofNat 32 t.floorWords.length
  else if 0x40 ≤ off ∧ off < 0x80 ∧ off % 4 = 0 then t.value (Fin.ofNat 16 ((off - 0x40) / 4))
  else if 0x80 ≤ off ∧ off < 0xC0 ∧ off % 4 = 0 then BitVec.ofNat 32 (t.floor ((off - 0x80) / 4))
  else 0

/-! ### TICK (R199) and SWT (R200) -/

def State.hardMask (s : State) : Nat :=
  sumN ((s.castList.filter fun i => s.swatches[i].cls = .hard).map fun i => 2 ^ i.val)
def State.tickRead (s : State) (off : Nat) : Word :=
  let t := s.tick
  if off = 0 then t.period
  else if off = 4 then t.nextPeriod
  else if at64 off 8 then word64 t.count off 8
  else if off = 0x10 then t.phase
  else if off = 0x14 then BitVec.ofNat 32 s.hardMask
  else if off = 0x18 then t.status
  else if off = 0x1C then t.commitLast
  else 0

/-- SWT_CFG (R200). -/
def Swatch.cfgWord (w : Swatch) : Word :=
  mkW [(0, 2, w.course0.val), (2, 2, w.wale0.val), (4, 2, w.coursesM1.val), (6, 2, w.walesM1.val),
       (8, 2, w.cls.code.toNat), (10, 2, w.ppoint.toNat), (12, 1, b2n w.near), (13, 2, w.prio.toNat),
       (16, 8, w.tenant.toNat), (24, 8, w.shareM1.toNat)]
/-- SWT_STATE (R200). -/
def Swatch.stateWord (w : Swatch) : Word :=
  mkW [(0, 3, w.st.code.toNat), (8, 8, (w.causes.head?.getD 0).toNat), (16, 8, w.drafts.length),
       (24, 1, b2n w.knit.isSome), (25, 1, b2n w.saveValid)]
def State.swtRead (s : State) (i : Fin 8) (off : Nat) : Word :=
  let w := s.swatches[i]
  if w.st = .unset then 0
  else if off = 0 then w.cfgWord
  else if off = 4 then w.stateWord
  else if off = 8 then w.budget
  else if off = 0x0C then w.status
  else if off = 0x10 then w.overruns
  else if off = 0x14 then w.lastFinish
  else if off = 0x18 then BitVec.ofNat 32 w.pubDepth.toNat
  else if off = 0x1C then w.flipCount
  else if at64 off 0x20 then word64 w.saveBase off 0x20
  else 0

/-! ### Ring control (R107 to R109), of BAR0 and of MBX -/

def EnFsm.ctrl (f : EnFsm) (error : Bool) (kind : BitVec 2) : Word :=
  mkW [(0, 1, b2n f.en), (1, 2, f.st.code.toNat), (3, 1, b2n f.pendEn), (4, 1, b2n f.pendDis), (5, 1, b2n error),
       (6, 2, kind.toNat)]
def Sq.read (q : Sq) (off : Nat) : Word :=
  if at64 off 0 then word64 q.base off 0
  else if off = 0x08 then q.cfg
  else if off = 0x0C then q.fsm.ctrl q.error q.faultKind
  else if off = 0x10 then q.head.setWidth 32
  else if off = 0x14 then q.tail.setWidth 32
  else if off = 0x18 then BitVec.ofNat 32 q.inflight
  else 0
def Cq.read (c : Cq) (off : Nat) : Word :=
  if at64 off 0 then word64 c.base off 0
  else if off = 0x08 then c.cfg
  else if off = 0x0C then c.fsm.ctrl c.error c.faultKind
  else if off = 0x10 then mkW [(0, 16, c.tail.toNat), (16, 1, b2n c.phase)]
  else if off = 0x14 then c.head.setWidth 32
  else 0
/-- MBX_RING_OWNERS (R136). -/
def State.ringOwners (s : State) (f : Fin 2) : Word :=
  mkW ((allFin 16).map fun i => (i.val, 1, b2n (decide (s.ringFn i = f) && s.fnExists f)))
/-- Ring control, doorbells and mailbox registers at their BAR0 offsets, as one function sees them (R103). -/
def State.mailboxRead (s : State) (f : Fin 2) (all : Bool) (off : Nat) : Word :=
  let h := s.fns[f]
  let mine (i : Fin 16) : Bool := all || decide (s.ringFn i = f)
  if off = 0x20 then h.bar2Window
  else if at64 off 0x28 then word64 h.bar4Base off 0x28
  else if off = 0x30 then Config.ifVersion
  else if off = 0x34 then h.eventCtrl
  else if off = 0x38 then h.eventsLost
  else if off = 0x3C then h.ringFault
  else if off = 0x40 then s.ringOwners f
  else if 0x100 ≤ off ∧ off < 0x500 then
    let i : Fin 16 := Fin.ofNat 16 ((off - 0x100) / 0x40)
    if mine i then s.sqs[i].read (off % 0x40) else 0
  else if 0x500 ≤ off ∧ off < 0x900 then
    let i : Fin 16 := Fin.ofNat 16 ((off - 0x500) / 0x40)
    if mine i then s.cqs[i].read (off % 0x40) else 0
  else if 0x1000 ≤ off ∧ off < 0x1040 then
    let i : Fin 16 := Fin.ofNat 16 ((off - 0x1000) / 4)
    if mine i then s.sqs[i].doorbell.setWidth 32 else 0
  else if 0x1040 ≤ off ∧ off < 0x1080 then
    let i : Fin 16 := Fin.ofNat 16 ((off - 0x1040) / 4)
    if mine i then s.cqs[i].doorbell.setWidth 32 else 0
  else 0

/-! ### GAUGE (R256), REP (R506), inner CHN (R465) -/

def State.gaugeRead (s : State) (off : Nat) : Word :=
  if off = 0 then 0x00B40050
  else if off = 4 then 0x80402020
  else if off = 8 then 0x00000310
  else if off = 0xC then s.gauge.distEpoch.setWidth 32
  else if off = 0x10 then s.gauge.events
  else if off = 0x14 then s.gauge.waitMax
  else if 0x40 ≤ off ∧ off < 0x68 ∧ off % 4 = 0 then
    let r := s.rateGb (Fin.ofNat 10 ((off - 0x40) / 4))
    mkW [(0, 16, r), (16, 16, r)]
  else 0
def Rep.ctrlWord (r : Rep) : Word := mkW [(0, 1, b2n r.autoCensus), (31, 1, b2n r.lock)]
def State.repRead (s : State) (off : Nat) : Word :=
  let r := s.rep
  if off = 0 then mkW [(0, 1, b2n r.run.isSome), (1, 1, b2n r.pending), (2, 1, b2n r.pendingFull), (3, 1, b2n r.listFull)]
  else if off = 4 then r.ctrlWord
  else if off = 8 then r.events
  else if off = 0xC then r.suspect.setWidth 32
  else if off = 0x10 then r.retiredSkeins.setWidth 32
  else if off = 0x14 then BitVec.ofNat 32 r.entries.length
  else if off = 0x18 then r.limits
  else if 0x40 ≤ off ∧ off < 0x90 ∧ off % 4 = 0 then r.aging[Fin.ofNat 20 ((off - 0x40) / 4)]
  else if 0xA0 ≤ off ∧ off < 0xF0 ∧ off % 4 = 0 then r.droop[Fin.ofNat 20 ((off - 0xA0) / 4)]
  else if 0x100 ≤ off ∧ off < 0x114 ∧ off % 4 = 0 then (r.retiredNeedles >>> (8 * (off - 0x100))).setWidth 32
  else 0
def State.chnInRead (s : State) (off : Nat) : Word :=
  let c := s.inner
  if off = 0 then
    mkW [(0, 8, c.addr.toNat), (8, 8, c.returned.toNat), (16, 8, c.expected.toNat), (24, 1, b2n c.busy.isSome)]
  else if off = 4 then c.events
  else if off = 8 then c.errors
  else 0

/-! ### MESH (R257), STCH (R258) -/

/-- The home skein of a swatch (R248). -/
def Swatch.home (w : Swatch) : Fin 16 := skeinAt w.course0 w.wale0
/-- Whether a skein is the home skein of its swatch. -/
def State.isHome (s : State) (k : Fin 16) : Bool :=
  match s.skeins[k].mesh.swatch with
  | some i => s.swatches[i].home = k
  | none => false
/-- The relative index of a skein in its swatch (R255, R268). -/
def Swatch.relOf (w : Swatch) (k : Fin 16) : Nat :=
  (k.val / 4 - w.course0.val) * (w.walesM1.val + 1) + (k.val % 4 - w.wale0.val)
/-- The skein at a relative index. -/
def Swatch.atRel (w : Swatch) (r : Nat) : Fin 16 :=
  Fin.ofNat 16 (4 * (w.course0.val + r / (w.walesM1.val + 1)) + (w.wale0.val + r % (w.walesM1.val + 1)))
/-- Number of skeins of a swatch. -/
def Swatch.size (w : Swatch) : Nat := (w.coursesM1.val + 1) * (w.walesM1.val + 1)
/-- The needles a barrier waits for (R248). -/
def Barrier.members (b : Barrier) : List (Fin 96) :=
  if b.enable then (allFin 96).filter fun n => b.skeins.getLsbD (skeinOf n).val && b.needles.getLsbD (kOf n).val
  else []
def Barrier.cfgWord (b : Barrier) : Word :=
  mkW [(0, 16, b.skeins.toNat), (16, 6, b.needles.toNat), (22, 1, b2n b.enable), (23, 1, b2n b.gen)]
def State.meshRead (s : State) (k : Fin 16) (off : Nat) : Word :=
  let m := s.skeins[k].mesh
  let home := s.isHome k
  if off = 0 then
    match m.swatch with
    | some i => mkW [(0, 3, i.val), (3, 1, 1), (4, 2, m.course0.val), (6, 2, m.wale0.val), (8, 2, m.coursesM1.val),
        (10, 2, m.walesM1.val), (12, 1, b2n home)]
    | none => 0
  else if off = 4 then
    mkW [(0, 1, b2n (!m.serving.isEmpty)), (2, 1, b2n (!m.mcasts.isEmpty)), (4, 1, b2n (!m.parts.isEmpty)),
         (5, 1, b2n ((allFin 6).any fun j => match s.needles[needleOf k j].wait with | .barrier _ => true | _ => false))]
  else if off = 8 then m.events
  else if off = 0xC then m.dropCount
  else if off = 0x10 then m.dropLast
  else if home ∧ 0x100 ≤ off ∧ off < 0x140 ∧ off % 4 = 0 then m.barriers[Fin.ofNat 16 ((off - 0x100) / 4)].cfgWord
  else if home ∧ off = 0x140 then mkW ((allFin 16).map fun i => (i.val, 1, b2n (!(m.barriers[i].arrived.isEmpty))))
  else if home ∧ 0x200 ≤ off ∧ off < 0x300 ∧ off % 4 = 0 then m.flags[Fin.ofNat 64 ((off - 0x200) / 4)]
  else 0
/-- The stitch map in force of the swatch a skein lies in. -/
def State.mapOf (s : State) (k : Fin 16) : Option (Swatch × StitchMap) :=
  (s.swatchOf k).bind fun i => s.swatches[i].map.map fun m => (s.swatches[i], m)
def State.stchRead (s : State) (k : Fin 16) (off : Nat) : Word :=
  let t := s.skeins[k].stch
  let chans : List Chan := match s.mapOf k with
    | some (w, m) => m.chans.filter fun (c : Chan) =>
        decide (c.srcSkein.toNat = w.relOf k) || (decide (c.link ≠ 5) && decide (c.dstSkein.toNat = w.relOf k))
    | none => []
  if off = 0 then
    mkW [(0, 4, t.links.toNat), (4, 1, b2n (s.fuses.twin && decide ((waleOf k).val = if s.fuses.primary then 3 else 0))),
         (8, 5, ((s.mapOf k).map fun x => x.2.wheel).getD 0), (16, 8, chans.length)]
  else if off = 4 then
    let waits (f : NWait → Bool) : Nat :=
      ((allFin 6).filter fun j => f s.needles[needleOf k j].wait).length
    let stalled := (s.chans.filter fun f => decide (f.credits = 0) && !f.outq.isEmpty &&
      ((s.mapOf k).bind fun x => (x.2.chans[f.chan.toNat]?).map fun c =>
        decide (some f.swatch = s.swatchOf k ∧ c.srcSkein.toNat = x.1.relOf k)).getD false).length
    mkW [(0, 8, stalled),
         (8, 8, waits (fun w => match w with | .recv _ _ _ => true | .recvTile _ _ _ => true | _ => false))]
  else if at64 off 8 then
    word64 (((s.swatchOf k).map fun i => s.swatches[i].mapRow).getD 0) off 8
  else if off = 0x10 then t.events
  else if off = 0x14 then t.xferCount
  else 0

/-! ### SKN and NDL (R293, R295) -/

/-- Whether a skein is powered (R100). -/
def State.powered (s : State) (k : Fin 16) : Bool := s.selv.skeinsOn.getLsbD k.val
def Mover.statusWord (m : Mover) : Word :=
  mkW [(0, 5, m.queue.length), (5, 1, b2n (!m.queue.isEmpty)), (6, 1, b2n m.fault.isSome),
       (7, 4, (m.fault.getD 0).toNat), (11, 3, m.lastK.val)]
/-- Program-store bytes in use by the programs of a swatch (R271). -/
def Swatch.progBytes (w : Swatch) : Nat := sumN (w.programs.map Program.len)
def State.sknRead (s : State) (k : Fin 16) (off : Nat) : Word :=
  let x := s.skeins[k]
  if off = 0 then
    match s.map.skeins[k] with
    | some l =>
      mkW ([(0, 4, k.val), (4, 5, l.phys.val), (9, 3, ((s.swatchOf k).map Fin.val).getD 0),
        (12, 1, b2n (s.swatchOf k).isSome), (13, 1, b2n (s.powered k)), (14, 2, s.selv.ppoint[k].toNat)] ++
        (List.range 6).map fun j => (16 + j, 1, b2n (l.needles.toList.any fun p => decide (p.val = j + 1))))
    | none => 0
  else if off = 4 then
    mkW (((allFin 6).map fun j => (j.val, 1, b2n (decide (s.needles[needleOf k j].st = .faulted)))) ++
      ((allFin 2).map fun m => (6 + m.val, 1, b2n x.movers[m].fault.isSome)) ++
      ((allFin 2).map fun m => (8 + m.val, 1, b2n (!(x.movers[m].queue.isEmpty)))))
  else if off = 8 then x.bankWaitMax
  else if off = 0xC then
    match s.swatchOf k with
    | some i => mkW [(0, 18, s.swatches[i].progBytes), (18, 5, s.swatches[i].programs.length)]
    | none => 0
  else if at64 off 0x10 then
    mkW ((List.range 8).map fun b => (4 * b, 4, (x.spareRows[Fin.ofNat 16 (b + 8 * ((off - 0x10) / 4))]).toNat))
  else if 0x20 ≤ off ∧ off < 0x60 then
    let m := x.movers[Fin.ofNat 2 ((off - 0x20) / 0x20)]
    let o := off % 0x20
    if o = 0 then m.statusWord
    else if at64 o 8 then word64 m.faultAddr o 8
    else 0
  else 0

/-- Control registers of a needle (R268); none for an index that is not listed. -/
def State.ctrlReg (s : State) (n : Fin 96) (i : Nat) : Option DWord :=
  let x := s.needles[n]
  let k := skeinOf n
  match i with
  | 0 =>
    let sw := s.swatchOf k
    let rel := match sw with | some j => s.swatches[j].relOf k | none => 0
    some ((mkW [(0, 7, n.val), (7, 3, (kOf n).val), (10, 4, k.val), (14, 2, k.val / 4), (16, 2, k.val % 4),
      (18, 4, rel), (22, 3, (sw.map Fin.val).getD 0)]).setWidth 64)
  | 1 => some (x.draft.setWidth 64)
  | 2 => some (if x.ignoreNan then 1 else 0)
  | 3 => some x.faultFlag
  | 4 => some x.cycles
  | 5 => some s.tick.count
  | 6 => some (x.fault.setWidth 64)
  | _ => none

/-- What NDL_DBG_DATA shows (R295). -/
def State.dbgData (s : State) (n : Fin 96) : Word :=
  let x := s.needles[n]
  let i := fld x.dbgSel 6 2
  let w := fld x.dbgSel 12 7
  if x.st ≠ .halted ∧ x.st ≠ .faulted then 0xFFFFFFFF
  else
    let of64 (v : DWord) : Word := if w = 0 then v.setWidth 32 else if w = 1 then (v >>> 32).setWidth 32 else 0
    match fld x.dbgSel 1 0 with
    | 0 => of64 x.s[Fin.ofNat 32 i]
    | 1 => x.v[Fin.ofNat 32 i][Fin.ofNat 64 w]
    | 2 => if i < 8 then of64 x.p[Fin.ofNat 8 i] else 0
    | _ => of64 ((s.ctrlReg n i).getD 0)

/-- NDL_STATUS (R295). -/
def Needle.statusWord (x : Needle) : Word :=
  let bit : Nat := match x.wait with
    | .tick _ _ _ => 2
    | .ended => 2
    | .barrier _ => 3
    | .flag _ _ => 3
    | .confirm _ _ => 4
    | .send _ => 5
    | .recv _ _ _ => 5
    | .recvTile _ _ _ => 5
    | _ => 6
  mkW [(0, 2, x.st.code.toNat), (bit, 1, b2n (decide (bit < 6) && decide (x.st = .running)))]
def State.ndlRead (s : State) (n : Fin 96) (off : Nat) : Word :=
  let x := s.needles[n]
  if off = 0 then mkW [(0, 1, b2n x.haltReq), (2, 1, b2n x.stepReq), (8, 1, b2n (s.powered (skeinOf n)))]
  else if off = 4 then x.statusWord
  else if off = 8 then x.pc.setWidth 32
  else if off = 0xC then x.fault
  else if at64 off 0x10 then word64 x.faultAddr off 0x10
  else if off = 0x18 then x.draft
  else if at64 off 0x20 then word64 x.retired off 0x20
  else if at64 off 0x28 then word64 x.stalls off 0x28
  else if off = 0x30 then x.dbgSel
  else if off = 0x34 then s.dbgData n
  else 0

/-! ### CARD (R372) -/

def View.cfgWord (v : View) : Word :=
  mkW [(0, 4, v.storedFmt.toNat), (4, 4, v.viewFmt.toNat), (8, 4, v.readSlot.toNat), (12, 4, v.writeSlot.toNat),
       (16, 1, b2n v.readEn), (17, 1, b2n v.writeEn), (18, 1, b2n v.fsm.en), (19, 2, v.fsm.st.code.toNat)]
/-- The view whose stored bytes an edge carder waits for, or that it converts next (R366, R372). -/
def State.viewJob (s : State) (p : Fin 10) : Option (Fin 4) :=
  s.accesses.findSome? fun a => match a.dest with
    | .view q v _ _ _ _ _ _ _ => if q = p then some v else none
    | _ => none
/-- CARD_STATUS of an edge carder: BUSY, the slot and the kind of its job too (R372). -/
def State.edgeCardRead (s : State) (p : Fin 10) (base : Word) : Word :=
  match s.viewJob p with
  | some v => base ||| mkW [(0, 1, 1), (1, 4, (s.edgeCarders[p].views[v]).readSlot.toNat), (6, 1, 1)]
  | none => base ||| mkW [(0, 1, b2n (!(s.edgeCarders[p].loads.isEmpty)))]
/-- A carder is busy while a job waits or runs (R360). -/
def Carder.busy (c : Carder) : Bool := !c.jobs.isEmpty
def Carder.read (c : Carder) (edge : Bool) (off : Nat) : Word :=
  if off = 0 then mkW [(0, 1, b2n c.ftz), (2, 1, b2n c.reseed)]
  else if off = 4 then
    mkW ([(0, 1, b2n c.busy), (5, 1, b2n (match c.jobs with | .drain _ _ :: _ => true | _ => false))] ++
      (allFin 16).map fun i => (7 + i.val, 1, b2n (!(c.slots[i].isEmpty))))
  else if off = 8 then c.events
  else if off = 0xC then c.seed
  else if off = 0x10 then c.lfsr
  else if off = 0x14 then c.nan
  else if off = 0x18 then c.clip
  else if at64 off 0x20 then word64 c.count off 0x20
  else if off = 0x28 then c.min
  else if off = 0x2C then c.max
  else if off = 0x30 then c.absmax
  else if off = 0x38 then c.sum.1
  else if off = 0x3C then c.sum.2
  else if off = 0x40 then c.sumsq.1
  else if off = 0x44 then c.sumsq.2
  else if 0x100 ≤ off ∧ off < 0x200 ∧ off % 4 = 0 then c.hist[Fin.ofNat 64 ((off - 0x100) / 4)]
  else if edge ∧ 0x400 ≤ off ∧ off < 0x480 then
    let v := c.views[Fin.ofNat 4 ((off - 0x400) / 0x20)]
    let o := off % 0x20
    if at64 o 0 then word64 v.stored o 0
    else if o = 8 then v.size
    else if o = 0xC then v.cfgWord
    else 0
  else if 0x4000 ≤ off ∧ off < 0x5400 ∧ off % 4 = 0 then
    BitVec.ofNat 32 (leAt (c.slots[Fin.ofNat 16 ((off - 0x4000) / 0x140)]) ((off - 0x4000) % 0x140) 4)
  else if 0x8000 ≤ off ∧ off < 0xA000 ∧ off % 4 = 0 then c.params[Fin.ofNat 2048 ((off - 0x8000) / 4)]
  else 0

/-! ### EDGE (R67), STK (R389), DST (R405) -/

def State.edgeRead (s : State) (p : Fin 10) (off : Nat) : Word :=
  let e := s.ports[p]
  if off = 0 then
    if s.fused then
      mkW [(0, 3, s.fuses.ports[p].role.code.toNat), (4, 3, e.farClass.toNat), (7, 1, b2n s.fuses.primary),
        (8, 1, b2n e.confirmed), (9, 1, b2n e.mismatch)]
    else 0
  else if off = 4 then mkW [(0, 4, e.st.code.toNat), (4, 2, e.rate.toNat), (6, 2, e.modules.toNat)]
  else if off = 8 then mkW [(0, 2, e.maxRate.toNat), (2, 1, b2n e.retrainReq), (31, 1, b2n e.lock)]
  else if off = 0xC then e.events
  else if off = 0x10 then e.retryCount
  else if off = 0x14 then e.repairMap
  else if off = 0x18 then e.retryLimit
  else if off = 0x1C then e.spikeLast
  else 0
/-- A STK word (R389); STK_CFG is loaded over the sideband with step 8 of start-up (R17, R71). -/
def State.stkRead (s : State) (b : Fin 4) (off : Nat) : Word :=
  let t := s.stack[b]
  let ps := s.stackPorts b
  if off = 0 then
    if s.selv.bootStep.toNat < 8 then 0 else mkW [(0, 2, b.val), (2, 1, b2n t.present), (3, 1, b2n t.lost), (4, 4, (ps.head?.map Fin.val).getD 15),
      (8, 4, ((ps.drop 1).head?.map Fin.val).getD 15),
      (12, 2, if t.present then s.presentStacks.idxOf b else 0)]
  else if off = 4 then
    mkW [(0, 1, b2n t.sref), (1, 1, b2n (ps.any fun p => s.ports[p].st = .degraded || s.ports[p].st = .down))]
  else if off = 8 then t.temp.setWidth 32
  else if off = 0xC then t.events
  else if off = 0x10 then t.eccCorr
  else if off = 0x14 then t.eccUncorr
  else if at64 off 0x18 then word64 t.uncorrLast off 0x18
  else if off = 0x20 then s.localMap.setWidth 32
  else if off = 0x24 then t.retired.setWidth 32
  else if off = 0x28 then mkW [(0, 1, b2n t.scrubEn), (31, 1, b2n t.lock)]
  else 0
def Distaff.read (c : Distaff) (off : Nat) : Word :=
  if off = 0 then
    mkW [(1, 1, b2n c.halting), (2, 1, b2n c.pendingRun), (3, 1, b2n c.ucustom), (4, 1, b2n c.irqToM)]
  else if off = 4 then
    mkW [(0, 2, c.st.code.toNat), (2, 1, b2n c.granted.isSome), (3, 3, (c.granted.map Fin.val).getD 0),
      (6, 1, b2n c.saved)]
  else if at64 off 8 then word64 c.resetPc off 8
  else if off = 0x10 then c.irqPending
  else if off = 0x14 then c.irqEnable
  else if at64 off 0x18 then word64 c.faultAddr off 0x18
  else if at64 off 0x20 then word64 c.retired off 0x20
  else 0

/-! ### BOB, PIN, outer CHN (R422, R426, R464) -/

/-- A ring in stack memory delivers nothing in Selvage or Sentinel, or while its stack is in self-refresh (R89). -/
def State.bobLowPower (s : State) (b : Fin 48) : Bool :=
  let a := s.bobbins[b].ring.toNat
  s.region a = .stack && (!s.selv.st.working || s.inSref a)
def State.bobRead (s : State) (off : Nat) : Word :=
  if off < 0x3000 then
    let n : Fin 48 := Fin.ofNat 48 (off / 0x100)
    let b := s.bobbins[n]
    let o := off % 0x100
    if o = 0 then
      if b.bound then
        mkW [(0, 2, b.source.toNat), (2, 1, b2n b.dirOut), (3, 3, b.port.toNat), (6, 8, b.channel.toNat),
          (14, 4, b.log2Slots.toNat), (18, 4, (b.swatch.map Fin.val).getD 15)]
      else 0
    else if o = 4 then BitVec.ofNat 32 (b2n b.fsm.en)
    else if o = 8 then
      mkW [(0, 2, b.fsm.st.code.toNat), (2, 1, b2n b.bound), (3, 1, b2n b.fsm.pendEn), (4, 1, b2n b.fsm.pendDis),
        (5, 1, b2n b.full), (6, 1, b2n (b.bound && s.bobLowPower n)),
        (7, 1, b2n (b.bound && b.source = 3 && s.hostPath.isNone))]
    else if o = 0xC then b.events
    else if o = 0x10 then b.frame
    else if at64 o 0x18 then word64 b.ring o 0x18
    else if at64 o 0x20 then word64 b.published o 0x20
    else if at64 o 0x28 then word64 b.seq o 0x28
    else if o = 0x30 then b.dropped
    else if at64 o 0x38 then word64 b.lastRow o 0x38
    else 0
  else if 0x4000 ≤ off ∧ off < 0x4200 then
    let p : Fin 8 := Fin.ofNat 8 ((off - 0x4000) / 0x40)
    match off % 0x40 with
    | 0 => s.io.csiCfg[p]
    | 4 => s.io.csiStatus[p] ||| (if s.io.csiCfg[p].getLsbD 5 then s.phys.csiLines[p] &&& 0x1F else 0)
    | 8 => s.io.csiErrors[p]
    | _ => 0
  else if 0x5000 ≤ off ∧ off < 0x5800 then
    let m : Fin 4 := Fin.ofNat 4 ((off - 0x5000) / 0x200)
    let o := off % 0x200
    if o = 0 then s.io.sdwCfg[m]
    else if o = 4 then (if s.io.sdwCfg[m].getLsbD 10 then (s.phys.sdwDevices[m] &&& 0xFFE) ||| mkW [(12, 1, b2n (s.io.sdwCfg[m].getLsbD 11))] else 0)
    else if 0x10 ≤ o ∧ o < 0x50 ∧ o % 4 = 0 then s.io.sdwDp[m][Fin.ofNat 16 ((o - 0x10) / 4)]
    else 0
  else if 0x6000 ≤ off ∧ off < 0x6200 then
    let c : Fin 2 := Fin.ofNat 2 ((off - 0x6000) / 0x100)
    let o := off % 0x100
    if o = 0 then s.io.i3cCfg[c]
    else if 0x40 ≤ o ∧ o < 0xC0 ∧ o % 4 = 0 then s.io.i3cDat[c][Fin.ofNat 32 ((o - 0x40) / 4)]
    else 0
  else if off = 0x7000 then s.io.uartCfg
  else if off = 0x7004 then mkW [(0, 7, s.io.uartTx.length), (8, 7, s.io.uartRx.length)]
  else if off = 0x7008 then s.io.uartEvents
  else if off = 0x700C then
    match s.io.uartRx with
    | c :: _ => c.setWidth 32 ||| 0x400
    | [] => 0
  else if off = 0x7100 then
    if !s.selv.spwrok then 0 else mkW [(0, 1, 1), (1, 1, b2n (decide (24 < s.phys.flashLog2))), (2, 1, b2n s.flash.writing.isSome), (8, 8, s.phys.flashLog2)]
  else if off = 0x7200 then s.io.boardStatus
  else 0
def State.pinRead (s : State) (off : Nat) : Word :=
  if off < 0x80 ∧ off % 4 = 0 then s.pins[Fin.ofNat 32 (off / 4)].cfg
  else if off = 0x80 then mkW ((allFin 32).map fun p => (p.val, 1, b2n s.pins[p].level))
  else if off = 0x84 then BitVec.ofNat 32 (b2n ((allFin 32).any fun p => s.pins[p].parking))
  else if off = 0x88 then mkW ((allFin 32).map fun p => (p.val, 1, b2n s.pins[p].parking))
  else if off = 0x8C then s.wakeEvents
  else 0
/-- Whether the outer chain is in use: a sequence, a search or a command runs. -/
def Chain.busy (c : Chain) : Bool := c.seqOp.isSome || c.search.isSome || c.run.isSome
def Chain.read (c : Chain) (off : Nat) : Word :=
  if off = 0 then mkW [(0, 1, b2n c.speed), (1, 2, c.mode.toNat), (16, 16, c.period.toNat)]
  else if off = 4 then
    mkW [(0, 1, b2n c.busy), (1, 1, b2n c.line), (2, 1, b2n c.strong), (3, 1, b2n c.search.isSome),
      (4, 1, b2n ((c.search.map Search.wide).getD false)), (5, 6, c.list.length)]
  else if off = 8 then c.events
  else if off = 0xC then mkW [(0, 16, c.idleCur.toNat), (16, 16, c.refCur.toNat)]
  else if off = 0x14 then c.seqResult
  else if 0x100 ≤ off ∧ off < 0x200 ∧ off % 4 = 0 then BitVec.ofNat 32 (leAt c.frameBuf.toList (off - 0x100) 4)
  else 0

/-! ### All blocks -/

/-- What a word of a block reads as, without a side effect. -/
def State.blkRead (s : State) (b : Blk) (off : Nat) : Word :=
  match b with
  | .selv => s.selvRead off
  | .tally => s.tallyRead off
  | .tick => s.tickRead off
  | .mbx => s.mailboxRead 0 true off
  | .swt i => s.swtRead i off
  | .gauge => s.gaugeRead off
  | .rep => s.repRead off
  | .chnIn => s.chnInRead off
  | .mesh k => s.meshRead k off
  | .stch k => s.stchRead k off
  | .skn k => s.sknRead k off
  | .ndl n => s.ndlRead n off
  | .card k m => s.skeins[k].carders[m].read false off
  | .edge p => s.edgeRead p off
  | .edgeCard p => let w := s.edgeCarders[p].read true off; if off = 4 then s.edgeCardRead p w else w
  | .stk b => s.stkRead b off
  | .dst d => s.distaffs[d].read off
  | .l2 => if off = 0 then s.l2Events else 0
  | .bob => s.bobRead off
  | .pin => s.pinRead off
  | .chnOut => s.chain.read off

/-- A carder of a skein changed. -/
def State.modCarder (s : State) (k : Fin 16) (m : Fin 2) (f : Carder → Carder) : State :=
  s.modSkein k fun x => { x with carders := upd x.carders m f }
/-- A mover of a skein changed. -/
def State.modMover (s : State) (k : Fin 16) (m : Fin 2) (f : Mover → Mover) : State :=
  s.modSkein k fun x => { x with movers := upd x.movers m f }
/-- The mesh unit of a skein changed. -/
def State.modMesh (s : State) (k : Fin 16) (f : MeshUnit → MeshUnit) : State :=
  s.modSkein k fun x => { x with mesh := f x.mesh }
/-- The stitch side of a skein changed. -/
def State.modStch (s : State) (k : Fin 16) (f : Stch → Stch) : State :=
  s.modSkein k fun x => { x with stch := f x.stch }

/-- What a read does to the fields it clears or pops (R14, R18, R422). -/
def State.blkClear (s : State) (b : Blk) (off : Nat) : State :=
  match b with
  | .selv => if off = 0x34 then s.modSelv fun v => { v with badAccess := 0 } else s
  | .mbx => if off = 0x38 then s.modFn 0 fun h => { h with eventsLost := 0 } else s
  | .gauge => if off = 0x14 then { s with gauge := { s.gauge with waitMax := 0 } } else s
  | .rep => if 0xA0 ≤ off ∧ off < 0xF0 ∧ off % 4 = 0 then
      s.modRep fun r => { r with droop := r.droop.set (Fin.ofNat 20 ((off - 0xA0) / 4)) 0 } else s
  | .chnIn => if off = 8 then s.modInner fun c => { c with errors := 0 } else s
  | .mesh k => if off = 0xC then s.modMesh k fun m => { m with dropCount := 0 } else s
  | .stch k => if off = 0x14 then s.modStch k fun t => { t with xferCount := 0 } else s
  | .skn k => if off = 8 then s.modSkein k fun x => { x with bankWaitMax := 0 } else s
  | .edge p => if off = 0x10 then s.modPort p fun e => { e with retryCount := 0 } else s
  | .stk b => if off = 0x10 then s.modStack b fun t => { t with eccCorr := 0 } else s
  | .bob =>
    if 0x4000 ≤ off ∧ off < 0x4200 ∧ off % 0x40 = 8 then
      s.modIo fun io => { io with csiErrors := io.csiErrors.set (Fin.ofNat 8 ((off - 0x4000) / 0x40)) 0 }
    else if off = 0x700C then s.modIo fun io => { io with uartRx := io.uartRx.drop 1 }
    else s
  | _ => s

/-- The value with some bits taken from another word. -/
def mixW (old new mask : Word) : Word := (old &&& ~~~mask) ||| (new &&& mask)
/-- One half of a 64-bit register replaced. -/
def put64 (v : DWord) (w : Word) (hi : Bool) : DWord :=
  if hi then (w ++ v.setWidth 32 : BitVec 64) else ((v >>> 32).setWidth 32 ++ w : BitVec 64)

/-- The bytes of a word put into a list at an offset, the list made long enough. -/
def putBytes (l : List Byte) (off : Nat) (w : Word) : List Byte :=
  let l := if l.length < off + 4 then padTo (off + 4) l else l
  l.take off ++ leBytes 4 w.toNat ++ l.drop (off + 4)

/-- The pin register of a pin written (R423, R424, R426). -/
def State.writePin (s : State) (p : Fin 32) (w : Word) : State :=
  let w := if 16 ≤ p.val ∧ w.getLsbD 0 then putBit w 0 (s.pins[p].cfg.getLsbD 0) else w
  let w := w &&& 0x1FF
  s.modPin p fun x => { x with cfg := w, parking := x.parking || (x.cfg.getLsbD 0 != w.getLsbD 0) }

/-- The RW and RWL fields of a block word given a value, locks apart: what a write stores and what the end of a grant
writes back (R14, R129). RO, RW1C, RW1S and WO fields keep what they hold. -/
def State.blkPoke (s : State) (b : Blk) (off : Nat) (w : Word) : State :=
  match b with
  | .mesh k =>
    if s.isHome k ∧ 0x100 ≤ off ∧ off < 0x140 ∧ off % 4 = 0 then
      s.modMesh k fun m => { m with barriers := upd m.barriers (Fin.ofNat 16 ((off - 0x100) / 4)) fun x =>
        { x with skeins := BitVec.ofNat 16 (fld w 15 0), needles := BitVec.ofNat 6 (fld w 21 16), enable := w.getLsbD 22 } }
    else if s.isHome k ∧ 0x200 ≤ off ∧ off < 0x300 ∧ off % 4 = 0 then
      s.modMesh k fun m => { m with flags := m.flags.set (Fin.ofNat 64 ((off - 0x200) / 4)) w }
    else s
  | .ndl n =>
    if off = 8 ∧ s.needles[n].st = .halted then s.modNeedle n fun x => { x with pc := BitVec.ofNat 17 (fld w 16 2 * 4) }
    else if off = 0x30 then s.modNeedle n fun x => { x with dbgSel := w &&& 0x1FFF }
    else s
  | .card k m => s.modCarder k m fun c => pokeCard c false off w
  | .edgeCard p => if (s.viewJob p).isSome ∧ 0x400 ≤ off then s else s.modEdgeCarder p fun c => pokeCard c true off w
  | .edge p =>
    if off = 8 then s.modPort p fun e => { e with maxRate := BitVec.ofNat 2 (fld w 1 0) }
    else if off = 0x18 then s.modPort p fun e => { e with retryLimit := w }
    else s
  | .stk b => if off = 0x28 then s.modStack b fun t => { t with scrubEn := w.getLsbD 0 } else s
  | .dst d =>
    if off = 0 then s.modDst d fun c => { c with ucustom := w.getLsbD 3, irqToM := w.getLsbD 4 }
    else if at64 off 8 then
      s.modDst d fun c => { c with resetPc := put64 c.resetPc w (decide (off = 0xC)) &&& ~~~3#64 }
    else if off = 0x14 then s.modDst d fun c => { c with irqEnable := w &&& 0xFFFFF }
    else s
  | .bob =>
    if off < 0x3000 ∧ off % 0x100 = 4 then
      s.modBob (Fin.ofNat 48 (off / 0x100)) fun b =>
        { b with fsm := if w.getLsbD 0 then b.fsm.enable else b.fsm.disable }
    else if 0x4000 ≤ off ∧ off < 0x4200 ∧ off % 0x40 = 0 then
      s.modIo fun io => { io with csiCfg := io.csiCfg.set (Fin.ofNat 8 ((off - 0x4000) / 0x40)) (w &&& 0xFF7F) }
    else if 0x5000 ≤ off ∧ off < 0x5800 ∧ off % 0x200 = 0 then
      s.modIo fun io => { io with sdwCfg := io.sdwCfg.set (Fin.ofNat 4 ((off - 0x5000) / 0x200)) (w &&& 0xFFF) }
    else if 0x5000 ≤ off ∧ off < 0x5800 ∧ 0x10 ≤ off % 0x200 ∧ off % 0x200 < 0x50 ∧ off % 4 = 0 then
      let put (v : Vector Word 16) : Vector Word 16 := v.set (Fin.ofNat 16 ((off % 0x200 - 0x10) / 4)) (w &&& 0x1FFFFFF)
      s.modIo fun io => { io with sdwDp := upd io.sdwDp (Fin.ofNat 4 ((off - 0x5000) / 0x200)) put }
    else if 0x6000 ≤ off ∧ off < 0x6200 ∧ off % 0x100 = 0 then
      s.modIo fun io => { io with i3cCfg := io.i3cCfg.set (Fin.ofNat 2 ((off - 0x6000) / 0x100)) (w &&& 0x3F) }
    else if 0x6000 ≤ off ∧ off < 0x6200 ∧ 0x40 ≤ off % 0x100 ∧ off % 0x100 < 0xC0 ∧ off % 4 = 0 then
      let put (v : Vector Word 32) : Vector Word 32 := upd v (Fin.ofNat 32 ((off % 0x100 - 0x40) / 4)) fun o => mixW o w 0xFF
      s.modIo fun io => { io with i3cDat := upd io.i3cDat (Fin.ofNat 2 ((off - 0x6000) / 0x100)) put }
    else if off = 0x7000 then s.modIo fun io => { io with uartCfg := w &&& 0x0FFFFFF7 }
    else s
  | .pin =>
    if off < 0x80 ∧ off % 4 = 0 then s.writePin (Fin.ofNat 32 (off / 4)) w else s
  | .chnOut =>
    if off = 0 then s.modChain fun c => { c with
      speed := w.getLsbD 0, mode := BitVec.ofNat 2 (fld w 2 1), period := BitVec.ofNat 16 (fld w 31 16) }
    else if 0x100 ≤ off ∧ off < 0x200 ∧ off % 4 = 0 then
      s.modChain fun c => { c with frameBuf := toVec 256 (putBytes c.frameBuf.toList (off - 0x100) w) }
    else s
  | _ => s
where
  /-- The RW words of a carder; a view's fields accept a write only while it is OFF (R372). -/
  pokeCard (c : Carder) (edge : Bool) (off : Nat) (w : Word) : Carder :=
    if off = 0 then { c with ftz := w.getLsbD 0, reseed := w.getLsbD 2 }
    else if off = 0xC then { c with seed := w }
    else if edge ∧ 0x400 ≤ off ∧ off < 0x480 then
      { c with views := upd c.views (Fin.ofNat 4 ((off - 0x400) / 0x20)) fun v =>
        let o := off % 0x20
        let v' : View := if o = 0xC then { v with fsm := if w.getLsbD 18 then v.fsm.enable else v.fsm.disable } else v
        if v.fsm.st ≠ .off then v'
        else
          let v := v'
          if at64 o 0 then { v with stored := put64 v.stored w (decide (o = 4)) }
          else if o = 8 then { v with size := w }
          else if o = 0xC then { v with
            storedFmt := BitVec.ofNat 4 (fld w 3 0), viewFmt := BitVec.ofNat 4 (fld w 7 4),
            readSlot := BitVec.ofNat 4 (fld w 11 8), writeSlot := BitVec.ofNat 4 (fld w 15 12),
            readEn := w.getLsbD 16, writeEn := w.getLsbD 17 }
          else v }
    else if c.busy then c
    else if 0x4000 ≤ off ∧ off < 0x5400 ∧ off % 4 = 0 ∧ (off - 0x4000) % 0x140 < 304 then
      { c with slots := upd c.slots (Fin.ofNat 16 ((off - 0x4000) / 0x140)) fun l =>
        putBytes (padTo 304 l) ((off - 0x4000) % 0x140) w }
    else if 0x8000 ≤ off ∧ off < 0xA000 ∧ off % 4 = 0 then
      { c with params := c.params.set (Fin.ofNat 2048 ((off - 0x8000) / 4)) w }
    else c

end Sys2Proof.Machine
end

