-- ==== Sys2Proof/Machine/Holds.lean ====
section
/-! DEFINITION. What several commands do to the state in common: enables (R99), the P-points and the power of skeins
(R93, R94), the end of an expert grant (R129), stopping bobbins (R421), abandoning a row (R186), and holds (R195). -/
namespace Sys2Proof.Machine
open Sys2Proof

/-! ### Skein power and P-points (R88, R93, R94) -/

/-- The skeins a device state keeps powered (R88, R195): in Loose those of cast swatches that hold no complete save,
and those granted to the host (R511). -/
def State.wantOn (s : State) (d : DevSt) : BitVec 16 :=
  match d with
  | .sentinel =>
    let k : Fin 16 := Fin.ofNat 16 (fld s.selv.wake 11 8)
    if s.skeinIn k then BitVec.ofNat 16 (2 ^ k.val) else 0
  | .loose =>
    (allFin 16).foldl (fun m k => if s.skeinIn k && s.hostGranted 1 k.val then setBit m k.val else m)
      ((s.castList.filter fun i =>
        !(s.swatches[i].st = .held && s.swatches[i].holdStep = .none && s.swatches[i].restoreCmd.isNone)).foldl (fun m i => m ||| s.swatches[i].mask) 0)
  | .taut => s.mapMask
  | .burst => s.mapMask
  | _ => 0

/-- The P-point a skein should run at: its swatch's, at most P2 outside Burst (R151), less what the limiter and
thermal throttling have taken (R95, R528, R531). DESIGN CHOICE (log 147): a powered skein of no cast swatch runs at P0,
for which the spec names no P-point. -/
def State.wantPp (s : State) (k : Fin 16) : Nat :=
  match s.swatchOf k with
  | some i =>
    let p := s.swatches[i].ppoint.toNat
    (if s.selv.st = .burst ∧ s.selv.capped.getLsbD k.val = false then p else min p 2) - s.selv.limited[k] - s.selv.throttled[k]
  | none => 0

/-- Whether a skein runs for a hard swatch, whose clock switches only at a tick (R94). -/
def State.hardSkein (s : State) (k : Fin 16) : Bool := match s.swatchOf k with
  | some i => s.powered k && s.swatches[i].cls = .hard && (s.swatches[i].st = .knitting || s.swatches[i].st = .frogged)
  | none => false
/-- The state kept in place by a Held swatch is lost with the power of its skeins (R196, R197). -/
def State.noteLost (s : State) : State :=
  (allFin 8).foldl (fun s i =>
    let w := s.swatches[i]
    if w.st = .held ∧ w.holdStep = .none ∧ w.saveValid = false ∧ w.skeinList.all s.powered = false then
      s.modSw i fun w => { w with status := setBit w.status 6, saveOwed := false }
    else s) s
/-- Power and P-points brought to what they should be (R93, R94): raising waits for the rail, the skeins of hard
swatches switch only at a tick, and the rail falls no lower than the P-points still in force. A census powers every
skein it tests (R499). -/
def State.repower (s : State) (tick : Bool) : State :=
  let on := if s.rep.run.isSome then s.mapMask else s.wantOn s.selv.st
  let want (k : Fin 16) : Nat := if on.getLsbD k.val then s.wantPp k else 0
  let need := (allFin 16).foldl (fun m k => max m (want k)) 0
  let rail := s.selv.rail.toNat
  let pp := mapV s.selv.ppoint fun k p =>
    if s.hardSkein k && on.getLsbD k.val && !tick then p else BitVec.ofNat 2 (min (want k) rail)
  let used := (allFin 16).foldl (fun m k => max m pp[k].toNat) 0
  (s.modSelv fun v => { v with
    skeinsOn := on
    rail := BitVec.ofNat 2 (max (min need rail) used)
    ramp := if rail < need then some (BitVec.ofNat 2 need) else none
    ppoint := pp }).noteLost

/-! ### Caches of the distaff cluster (R391, R394) -/

/-- Dirty lines of some addresses written back and every such line dropped. -/
def State.flushCache (s : State) (sel : Nat → Bool) : State :=
  let ls := s.cache.filter fun l => sel l.addr
  { s with mem := ls.foldl (fun m l => if l.dirty then memWrite m l.addr l.data else m) s.mem
           cache := s.cache.filter fun l => !sel l.addr }
/-- Whether an address lies in a private window or a store of a swatch: its cacheable lines (R392). -/
def State.inPrivate (s : State) (i : Fin 8) (a : Nat) : Bool :=
  s.ownStore i a || ((s.swatches[i].winAt a 1).map fun w => decide (w.kind = 0 ∨ w.kind = 2)).getD false

/-! ### Bobbins stopped -/

/-- Bytes from one slot to the next (R414). -/
def strideOf (frame : Nat) : Nat := (64 + frame + 255) / 256 * 256
/-- Slots of a ring. -/
def Bobbin.size (b : Bobbin) : Nat := 2 ^ b.log2Slots.toNat

/-- A frame dropped (R417): counted, and the next written frame carries DROP_BEFORE. -/
def Bobbin.drop (b : Bobbin) : Bobbin :=
  { b with dropped := satAdd b.dropped 1, events := setBit b.events 0, dropsSince := b.dropsSince + 1,
           dropsRow := b.dropsRow + 1 }
/-- The input frame being written is dropped, if it was not at its start: its slot is free again (R421, R422; log 180). -/
def Bobbin.lose (b : Bobbin) : Bobbin :=
  match b.opened with
  | some f => if f.slot.isSome then { b.drop with written := b.written - 1, opened := some { f with slot := none } } else b
  | none => b
/-- A bobbin stopped (R421): an input frame being written is discarded and counted as dropped. -/
def Bobbin.stop (b : Bobbin) : Bobbin :=
  let b := { b with fsm := b.fsm.disable }
  if b.dirOut then b else { b.lose with opened := none }
/-- A bobbin unbound: frames not yet published are discarded and counted as dropped (R162). -/
def Bobbin.unbind (b : Bobbin) : Bobbin :=
  let b := b.stop
  { b with bound := false, swatch := none, fsm := EnFsm.off, opened := none, full := false, unbindCmd := none,
           runCmd := none, dropped := satAdd b.dropped (b.complete - b.published.toNat), complete := b.published.toNat }
/-- Every bobbin with a host ring stopped (R46, R47). -/
def State.stopHostBobbins (s : State) : State :=
  { s with bobbins := mapV s.bobbins fun _ b => if b.bound ∧ b.source = 3 then b.stop else b }

/-! ### Expert grants (R125 to R130) -/

def blockCls (b : Half) : Nat := b.toNat / 2048
def blockInst (b : Half) : Nat := b.toNat % 2048
/-- Addresses of the words of a block that hold RW and RWL fields. -/
def rwWords (cls inst : Nat) : List Nat :=
  let carder (base : Nat) (edge : Bool) : List Nat :=
    [base, base + 0xC] ++
    (if edge then (List.range 16).map (fun i => base + 0x400 + 0x20 * (i / 4) + 4 * (i % 4)) else []) ++
    ((List.range 16).flatMap fun i => (List.range 76).map fun w => base + 0x4000 + 0x140 * i + 4 * w) ++
    ((List.range 2048).map fun w => base + 0x8000 + 4 * w)
  match cls with
  | 1 =>
    let b := 0x11000000 + 0x100000 * inst
    ((List.range 6).flatMap fun k => [b + 0x10000 * (k + 1) + 8, b + 0x10000 * (k + 1) + 0x30]) ++
    carder (b + 0x80000) false ++ carder (b + 0x90000) false
  | 2 =>
    let b := 0x10100000 + 0x1000 * inst
    ((List.range 16).map fun i => b + 0x100 + 4 * i) ++ (List.range 64).map fun f => b + 0x200 + 4 * f
  | 4 => let b := 0x12000000 + 0x10000 * inst
    [b + 8, b + 0x18] ++ carder (0x12100000 + 0x10000 * inst) true
  | 5 => [0x13000028 + 0x100000 * inst]
  | 6 => let b := 0x14000000 + 0x10000 * inst
    [b, b + 8, b + 0xC, b + 0x14]
  | 7 =>
    if inst < 48 then [0x18000004 + 0x100 * inst]
    else ((List.range 8).map fun p => 0x18004000 + 0x40 * p) ++
      ((List.range 4).flatMap fun m => (0x18005000 + 0x200 * m) :: (List.range 16).map fun i => 0x18005010 + 0x200 * m + 4 * i) ++
      (List.range 2).flatMap fun c => (0x18006000 + 0x100 * c) :: (List.range 32).map fun t => 0x18006040 + 0x100 * c + 4 * t
  | 8 => (List.range 32).map fun p => 0x18100000 + 4 * p
  | 9 => 0x18200000 :: (List.range 64).map fun w => 0x18200100 + 4 * w
  | _ => []

/-- The class and instance of the grantable block an address lies in (R125). -/
def blkGrant (b : Blk) (off : Nat) : Option (Nat × Nat) :=
  match b with
  | .skn k => some (1, k.val)
  | .ndl n => some (1, n.val / 6)
  | .card k _ => some (1, k.val)
  | .mesh k => some (2, k.val)
  | .stch k => some (3, k.val)
  | .edge p => some (4, p.val)
  | .edgeCard p => some (4, p.val)
  | .stk b => some (5, b.val)
  | .dst d => some (6, d.val)
  | .bob => if off < 0x3000 then some (7, off / 0x100) else if 0x4000 ≤ off ∧ off < 0x7000 then some (7, 48) else none
  | .pin => some (8, 0)
  | .chnOut => some (9, 0)
  | _ => none

/-- A word written at a register address, if a block is there. -/
def State.pokeAt (s : State) (a : Nat) (w : Word) : State :=
  match s.blockAt a with
  | some (b, off) => s.blkPoke b off w
  | none => s
/-- A word read at a register address without a side effect. -/
def State.peekAt (s : State) (a : Nat) : Word :=
  match s.blockAt a with
  | some (b, off) => s.blkRead b off
  | none => 0xFFFFFFFF

/-- A running needle halted, one that has ended its row left so. -/
def Needle.halt (x : Needle) : Needle :=
  if x.st = .running ∧ x.wait ≠ .ended then { x with st := .halted, haltReq := false, stepReq := false } else x

/-- Expert work in a block stopped (R129). -/
def State.stopExpert (s : State) (cls inst : Nat) : State :=
  if cls = 1 then
    { s with needles := mapV s.needles fun n x => if n.val / 6 = inst then x.halt else x }
  else if h : cls = 7 ∧ inst < 48 then s.modBob ⟨inst, h.2⟩ Bobbin.stop
  else s

/-- One grant ended (R129): expert work stops, the recorded words are written back, and any ending but a release posts
GRANT_REVOKED with the reason. -/
def State.endGrant (s : State) (g : Grant) (reason : Option Nat) : State :=
  let s := { s with grants := s.grants.filter fun x => decide (x ≠ g) }
  if g.waiting.isSome then s
  else
    let s := s.stopExpert (blockCls g.block) (blockInst g.block)
    let s := g.saved.foldl (fun s x => s.pokeAt x.1 x.2) s
    match reason with
    | some st => s.event 0x0C (g.block.toNat % 256) st
    | none => s

/-- Every grant that meets a condition ended; a request of its that still waits completes with ABORTED (R129). -/
def State.endGrants (s : State) (sel : Grant → Bool) (reason : Option Nat) : State :=
  (s.grants.filter sel).foldl (fun s g =>
    let s := s.endGrant g reason
    match g.waiting with
    | some r => s.reply r stAborted
    | none => s) s

/-! ### Channels (R251, R254) -/

/-- A channel of the stitch map in force of a swatch. -/
def State.chanRec (s : State) (i : Fin 8) (c : Byte) : Option Chan := s.swatches[i].map.bind fun m => m.chans[c.toNat]?
/-- Whether a channel is one over the twin exit. -/
def State.isTwinChan (s : State) (i : Fin 8) (c : Byte) : Bool := ((s.chanRec i c).map fun x => decide (x.link = 5)).getD false
/-- Whether the other die has announced the matching end of a twin channel, for a swatch of the same TENANT (R254). -/
def State.twinMatched (s : State) (i : Fin 8) (x : Chan) : Bool :=
  s.twinChains.any fun t => decide (t.chain = x.chain ∧ t.position = x.position ∧ t.tenant = s.swatches[i].tenant)
/-- A channel's FIFO and credits: four entries free where nothing has used it, and none over the twin exit before the
other die grants them. -/
def State.chan (s : State) (i : Fin 8) (c : Byte) : ChanFifo :=
  (s.chans.find? fun f => decide (f.swatch = i ∧ f.chan = c)).getD
    ⟨i, c, [], [], [], if s.isTwinChan i c then 0 else 4, none⟩
/-- A channel put back. -/
def State.putChan (s : State) (f : ChanFifo) : State :=
  { s with chans := (s.chans.filter fun g => !decide (g.swatch = f.swatch ∧ g.chan = f.chan)) ++ [f] }
/-- The twin channels of a swatch: their numbers and records. -/
def State.twinChansOf (s : State) (i : Fin 8) : List (Byte × Chan) :=
  match s.swatches[i].map with
  | some m => (m.chans.zipIdx.filter fun x => decide (x.1.link = 5)).map fun x => (BitVec.ofNat 8 x.2, x.1)
  | none => []
/-- What returning a credit sends: nothing over a twin exit whose far end is withdrawn (R254). -/
def State.creditOut (s : State) (i : Fin 8) (c : Byte) : List Out :=
  match s.chanRec i c with
  | some x => if x.link = 5 ∧ !s.twinMatched i x then [] else [.stitchCredit i c]
  | none => []
/-- Four credits, less the entries still held, granted to the other die's end of each matching twin channel (R254). -/
def State.grantTwin (s : State) (i : Fin 8) (sel : Chan → Bool) : State :=
  if !s.swatches[i].isCast then s
  else s.emits (((s.twinChansOf i).filter fun x => sel x.2 && s.twinMatched i x.2).flatMap fun x =>
    List.replicate (4 - (s.chan i x.1).fifo.length) (.stitchCredit i x.1))
/-- The channels of a swatch emptied; twin channels keep their credits and return those of the entries dropped. -/
def State.resetChans (s : State) (i : Fin 8) : State :=
  let mine := s.chans.filter fun c => decide (c.swatch = i) && s.isTwinChan i c.chan
  let clean (c : ChanFifo) : ChanFifo := { c with fifo := [], outq := [], shifts := [], land := none }
  { s with
    chans := (s.chans.filter fun c => decide (c.swatch ≠ i)) ++ mine.map clean
    out := s.out ++ mine.flatMap fun c => c.fifo.flatMap fun _ => s.creditOut i c.chan }

/-! ### Rows abandoned and swatches held -/

/-- The skein an access of an agent belongs to. -/
def Who.swatch (s : State) : Who → Option (Fin 8)
  | .needle n => s.swatchOf (skeinOf n)
  | .mover k _ => s.swatchOf k
  | .distaff d => s.distaffs[d].granted
  | _ => none

/-- A needle without a program: every register, loop, feed byte and wait gone (R179, R270). -/
def Needle.cleared (x : Needle) : Needle :=
  { Needle.reset with retired := x.retired, stalls := x.stalls, dbgSel := x.dbgSel }

/-- The barrier and flag state reset, configurations kept (R186). -/
def MeshUnit.frogged (m : MeshUnit) : MeshUnit :=
  { m with barriers := mapV m.barriers fun _ b => { b with gen := false, arrived := [] }
           flags := Vector.replicate 64 0, waits := [], parts := [], serving := [], mcasts := []
           nextInst := Vector.replicate 6 (Vector.replicate 16 0) }

/-- Every draft of a swatch frogged (R215). -/
def State.frogAll (s : State) (i : Fin 8) : State :=
  s.modSw i fun w => (w.frog (w.drafts.map Draft.id)).1

/-- What an overrun does to the running row, the OVERRUN report apart (R186): needles, movers, carders, tiles, feeds,
mesh packets, barriers and flags; the row's drafts are frogged; the stores keep their content; a granted core gets
ROW_FROG and its draft state becomes 0 (R403). Spool requests outstanding drain without a destination. -/
def State.abandonRow (s : State) (i : Fin 8) : State :=
  let own (a : Access) : Bool := decide (Who.swatch s a.who = some i)
  let spool (a : Access) : Bool := match a.path with | .port _ => true | _ => false
  let s := { s with
    accesses := (s.accesses.filter fun a => !own a || spool a).map fun a =>
      if own a then { a with dest := .none, live := false } else a }
  let s := s.resetChans i
  let s := s.modNeedlesOf i Needle.cleared
  let s := s.modSkeinsOf i fun x => { x with
    movers := mapV x.movers fun _ m => { m with queue := [], fault := none }
    carders := mapV x.carders fun _ c => { c with jobs := [] }
    mesh := x.mesh.frogged }
  let s := s.frogAll i
  s.modCoresOf i fun c => { c with draft := 0, frogged := true, irqPending := setBit c.irqPending 17 }

/-! ### Finished rows (R184, R287) -/

/-- A needle at the end of its row or program. -/
def Needle.atEnd (x : Needle) : Bool := decide (x.wait = .ended) && x.st != .faulted
/-- Whether a swatch has accesses outstanding. -/
def State.anyAccess (s : State) (i : Fin 8) : Bool := s.accesses.any fun a => decide (Who.swatch s a.who = some i)
/-- The conditions of R184, the same for the end of loose and free work (R287). -/
def State.rowDone (s : State) (i : Fin 8) : Bool :=
  let w := s.swatches[i]
  (w.needleList.all fun n => s.needles[n].atEnd && s.needles[n].bed.drains.isEmpty) &&
  (w.skeinList.all fun k => (allFin 2).all fun m => s.skeins[k].movers[m].queue.isEmpty) &&
  !s.anyAccess i &&
  (allFin 4).all fun d =>
    let waits : Bool := match s.distaffs[d].wait with
      | .tick _ _ _ => true
      | _ => false
    s.distaffs[d].granted != some i || waits
/-- Whether a swatch's row or work is under way at the tick. -/
def Swatch.knitting (w : Swatch) : Bool := decide (w.st = .knitting) && !w.startNext
/-- SWT_LAST_FINISH of a hard row that has finished (R187): a time within the row, free (log 11), recorded once. It is noted
before anything can see it or end the row: at a read, at a hold and at the tick. -/
def State.noteFinish (s : State) (i : Fin 8) : State :=
  let w := s.swatches[i]
  if w.knitting ∧ w.cls = .hard ∧ !w.finished ∧ s.rowDone i then
    (s.modSw i fun w => { w with finished := true, lastFinish := BitVec.ofNat 32 (s.freeVal.toNat % s.tick.period.toNat) }).useFree
  else s

/-- A hold cause reaches a swatch (R194, R195): Cast, Knitting and Frogged become Held at once, a hard swatch's running
row is abandoned and the publish gate closes; a Held swatch records the further cause. -/
def State.hold (s : State) (i : Fin 8) (cause : Nat) : State :=
  let w := s.swatches[i]
  let c := BitVec.ofNat 8 cause
  match w.st with
  | .held => s.modSw i fun w => { w with causes := if w.causes.contains c then w.causes else w.causes ++ [c] }
  | .cast | .knitting | .frogged =>
    let s := if w.cls = .hard ∧ w.st = .knitting then (s.noteFinish i).abandonRow i else s
    let s := s.modSw i fun w => { w with st := .held, causes := [c], holdStep := .quiesce, pubDepth := 0 }
    if cause = 0 then s else s.event 0x02 i.val cause
  | _ => s

/-- Every cast swatch that meets a condition held. -/
def State.holdAll (s : State) (sel : Swatch → Bool) (cause : Nat) : State :=
  (allFin 8).foldl (fun s i => if sel s.swatches[i] then s.hold i cause else s) s

/-- An open KNIT ended at once with ABORTED and the counts reached so far, ROW_VALID 0 (R29, R153). -/
def State.abortKnit (s : State) (i : Fin 8) : State :=
  match s.swatches[i].knit with
  | some k => (s.modSw i fun w => { w with knit := none, startNext := false }).reply k.cmd stAborted 0
      [(20, 4, k.committed), (24, 4, k.frogged), (28, 1, k.flags.toNat), (32, 8, k.firstRow.toNat)]
  | none => s

/-- Whether a swatch has a window onto host memory. -/
def Swatch.hostWindow (w : Swatch) : Bool := w.windows.any fun x => decide (x.kind = 3)

/-- Whether any needle of a swatch has a confirmation pending (R195, R311). -/
def State.anyTentative (s : State) (i : Fin 8) : Bool :=
  s.swatches[i].needleList.any fun n => s.needles[n].bed.tiles.any fun t => decide (t.lfmt = 0) && t.closed && !t.confirmed

/-- MEDIA_ERROR reaches the open KNIT of a swatch (R383); the event of a stack's own error comes with its ECC_UNCORR, that
of a lost stack here (R385). -/
def State.mediaError (s : State) (i : Option (Fin 8)) (a : Nat) : State :=
  let media (k : Knit) : Knit := { k with media := true }
  let s := match i with
    | some i => s.modSw i fun w => { w with knit := w.knit.map media }
    | none => s
  if s.onLost a then s.event 0x08 (s.stackOf a).val stMediaError else s
/-- MASK_FAIL of the stack an address lies on: a write of part of an uncorrectable granule (R383). -/
def State.maskFail (s : State) (a : Nat) : State :=
  if s.onLost a then s else s.modStack (s.stackOf a) fun t => { t with events := setBit t.events 4 }
/-- The first uncorrectable granule of a range. -/
def State.firstBad (s : State) (a n : Nat) : Nat :=
  (((List.range ((a + n + 31) / 32 - a / 32)).map fun k => (a / 32 + k) * 32).find? s.isBad).getD a

/-! ### Yardage (R478 to R480) -/

/-- The next update begins, if none runs (R480): v' goes to the slot not in force; a counter that cannot rise is done
at once. An amount of 0 without a command is the floor check of start-up, which burns a floor that is due (R484). -/
def State.yardStart (s : State) : Nat → State
  | 0 => s
  | fuel + 1 =>
    match s.tally.run, s.tally.waiting with
    | none, u :: rest =>
      let v := s.tally.value u.counter
      let s := s.modTally fun t => { t with waiting := rest }
      if v = BitVec.allOnes 32 ∨ u.counter.val = 7 then
        (match u.cmd with
          | some r => s.ok r (u.res ++ if u.value20 then [(20, 4, v.toNat)] else [])
          | none => s).yardStart fuel
      else if u.amount = 0 ∧ u.cmd = none then
        (if s.tally.floor u.counter.val < v.toNat / 4096 ∧ s.tally.floorWords.length < 1024 then
          s.modTally fun t => { t with run := some ⟨u, v, .flooring false⟩ }
         else s).yardStart fuel
      else s.modTally fun t => { t with run := some ⟨u, satAdd v u.amount.toNat, .writing false⟩ }
    | _, _ => s
/-- An increment asked for; a command waits for its end (R480). -/
def State.yard (s : State) (c : Nat) (amount : Nat) (cmd : Option CmdRef := none)
    (res : List (Nat × Nat × Nat) := []) (value20 : Bool := false) : State :=
  let s := s.modTally fun t =>
    { t with waiting := t.waiting ++ [⟨Fin.ofNat 16 c, BitVec.ofNat 32 amount, cmd, res, value20⟩] }
  s.yardStart s.tally.waiting.length

end Sys2Proof.Machine
end

