-- ==== Sys2Proof/Machine/Power.lean ====
section
/-! DEFINITION. Device states and their transitions (04 R87 to R92), the budget and the Burst window (R95, R96, R531),
thermal limits (21 R527 to R530), and the device commands that act on them (06 R146). -/
namespace Sys2Proof

/-- The hottest Lumaz or Shuskaub reading of a sample. -/
def Readings.die (r : Readings) : Int := (r.skeins.toList ++ [r.shus]).foldl (fun m x => max m x.toInt) (-32768)
/-- The hottest stack reading of a sample. -/
def Readings.stackMax (r : Readings) : Int := r.stackT.toList.foldl (fun m x => max m x.toInt) (-32768)

end Sys2Proof

namespace Sys2Proof.Machine
open Sys2Proof

/-! ### Self-refresh (R386) -/

/-- Every present stack that is not lost. -/
def State.liveStacks (s : State) : List (Fin 4) := s.presentStacks.filter fun b => !s.stack[b].lost
/-- The sideband message of an SREF exchange (R60). -/
def srefMsg (p : Fin 10) (exit : Bool) : Out := .sideband p (if exit then 0x05 else 0x04) []
/-- Whether requests to a stack are unanswered, on any of its ports. -/
def State.stackBusy (s : State) (b : Fin 4) : Bool :=
  s.accesses.any fun a => (s.stackPorts b).any fun p => decide (a.path = .port p)
/-- SREF_ENTER sent on the ports of a stack that wait to send it, once every request to the stack is answered; the stack
counts as in self-refresh from here (R386). -/
def State.trySref (s : State) (b : Fin 4) : State :=
  if s.stackBusy b then s
  else (s.stackPorts b).foldl (fun s p =>
    if s.ports[p].sref = .waiting ∧ s.portUp p then
      ((s.modPort p fun e => { e with sref := .entering false }).modStack b fun t => { t with sref := true }).emit
        (srefMsg p false)
    else s) s
/-- A stack is to enter self-refresh: each of its ports that carries traffic waits to send SREF_ENTER. -/
def State.srefWant (s : State) (b : Fin 4) : State :=
  ((s.stackPorts b).foldl (fun s p =>
    if s.portCarries p ∧ s.ports[p].sref = .none then s.modPort p fun e => { e with sref := .waiting } else s) s).trySref b
/-- Self-refresh asked for on the live stacks (R87, R386). -/
def State.srefEnter (s : State) : State := s.liveStacks.foldl State.srefWant s
/-- Whether the stacks are to be in self-refresh: the device is in Selvage or Sentinel, or on its way there (R87). -/
def State.srefState (s : State) : Bool :=
  let d := (s.selv.trans.map Transition.target).getD s.selv.st
  s.selv.ready && decide (d = .selvage ∨ d = .sentinel)
/-- SREF_EXIT sent on every sleeping port of the live stacks. -/
def State.srefExit (s : State) : State :=
  s.liveStacks.foldl (fun s b =>
    (s.stackPorts b).foldl (fun s p =>
      if s.ports[p].st = .sleep then (s.modPort p fun e => { e with sref := .exiting false }).emit (srefMsg p true)
      else s) s) s

/-- The command, if there is one, answered. -/
def State.replyOpt (s : State) (r : Option CmdRef) (status : Nat) (detail : Nat := 0) : State :=
  match r with
  | some r => s.reply r status detail
  | none => s

/-! ### Requests and transitions (R90 to R92) -/

/-- A core that is not halted counts as running (R395). -/
def State.coreRunning (s : State) : Bool :=
  (allFin 4).any fun d => s.distaffs[d].st = .running || s.distaffs[d].st = .waiting
/-- The skein SELV_WAKE names for Sentinel. -/
def State.sentinelSkein (s : State) : Fin 16 := Fin.ofNat 16 (fld s.selv.wake 11 8)
/-- The Sentinel rule of R88 for a cast swatch: 1×1 on the sentinel skein, at P0, windows in that skein's store. -/
def Swatch.sentinelOk (w : Swatch) (k : Fin 16) : Bool :=
  decide (w.home = k ∧ w.coursesM1 = 0 ∧ w.walesM1 = 0 ∧ w.ppoint = 0) &&
  w.windows.all fun x => within x.base x.size (0x400000 * k.val) 0x400000
/-- Whether every reading is below two figures (R528): die, stacks. -/
def State.cooler (s : State) (d t : Int) : Bool :=
  match s.selv.readings with
  | some r => decide (r.die < d ∧ r.stackMax < t)
  | none => true

/-- Why a request for another state fails (R90): status and DETAIL; none when the transition may run. -/
def State.requestBad (s : State) (target : DevSt) : Option (Nat × Nat) :=
  let casts := s.castList
  let k := s.sentinelSkein
  let from_ := s.selv.st
  if s.rep.run.isSome then some (stConflict, 2)
  else if from_ = .selvage ∧ target = .sentinel then if s.skeinIn k then none else some (stConflict, 2)
  else if from_ = .sentinel ∧ target = .selvage then if casts.isEmpty then none else some (stConflict, 1)
  else if (from_ = .selvage ∨ from_ = .sentinel) ∧ (target = .loose ∨ target = .taut) then none
  else if (from_ = .loose ∧ target = .taut) ∨ (from_ = .taut ∧ target = .loose) then none
  else if (from_ = .loose ∨ from_ = .taut) ∧ target = .sentinel then toSentinel casts k
  else if (from_ = .loose ∨ from_ = .taut) ∧ target = .selvage then toSelvage casts
  else if from_ = .taut ∧ target = .burst then
    if s.selv.recoveryLeft ≠ 0 ∨ s.selv.thermalStep ≠ 0 ∨ s.cooler 85 80 = false then some (stPowerLimit, 0) else none
  else if from_ = .burst ∧ target = .taut then none
  else some (stConflict, 0)
where
  toSentinel (casts : List (Fin 8)) (k : Fin 16) : Option (Nat × Nat) :=
    if s.coreRunning ∨ s.skeinIn k = false then some (stConflict, 2)
    else if 1 < casts.length ∨ casts.any (fun i => !s.swatches[i].sentinelOk k) = true then some (stConflict, 1)
    else none
  toSelvage (casts : List (Fin 8)) : Option (Nat × Nat) :=
    if !casts.isEmpty then some (stConflict, 1) else if s.coreRunning then some (stConflict, 2) else none

/-- The end of a Burst window (R96): energy counted in whole kilojoules, the remainder carried; recovery of four times
its length; P3 skeins drop to P2 at once. -/
def State.endBurst (s : State) (joules : Nat) : State :=
  let total := s.selv.burstJoules + joules
  let s := s.modSelv fun v => { v with
    burstJoules := total % 1000
    recoveryLeft := BitVec.ofNat 13 (min 8191 (4 * v.windowUsed))
    windowLeft := 0
    windowUsed := 0
    capped := 0xFFFF }
  let s := s.repower false
  if total / 1000 = 0 then s else s.yard 1 (total / 1000)

/-- A transition starts (R91). Leaving Burst without a measured energy counts a free one of at most 124 J (R530). -/
def State.startTransition (s : State) (target : DevSt) (cmd : Option CmdRef) (deferredFlag : Bool) : State :=
  let from_ := s.selv.st
  let s := s.modSelv fun v => { v with trans := some ⟨target, cmd, deferredFlag⟩ }
  if from_ = .burst ∧ target = .taut then (s.endBurst (s.freeVal.toNat % 125)).useFree
  else if from_.working ∧ (target = .sentinel ∨ target = .selvage) then s.srefEnter
  else if (from_ = .selvage ∨ from_ = .sentinel) ∧ target.working then s.srefExit
  else s

/-- The device-state code in a reply (R146). -/
def DevSt.ofCode : Nat → DevSt
  | 1 => .selvage | 2 => .sentinel | 3 => .loose | 4 => .taut | 5 => .burst | _ => .off

/-- A request arrives (R90, R92): deferred behind a running transition, replacing a request still deferred. -/
def State.request (s : State) (target : DevSt) (cmd : Option CmdRef) : State :=
  if s.selv.trans.isSome then
    let s := s.replyOpt (s.selv.deferred.bind Deferred.cmd) stConflict
    s.modSelv fun v => { v with deferred := some ⟨target, cmd⟩ }
  else if target = s.selv.st then
    (match cmd with | some r => s.ok r [(20, 1, target.code.toNat)] | none => s)
  else match s.requestBad target with
    | some (st, d) => (match cmd with | some r => s.reply r st d | none => s)
    | none => s.startTransition target cmd false

/-- SET_DEVICE_STATE (R146, R90). -/
def cmdSetDeviceState : Cmd where
  op := 2
  target := 0
  used := [(8, 1)]
  bad := fun e _ => if 1 ≤ e.u 8 1 ∧ e.u 8 1 ≤ 5 then [] else [8]
  state := fun _ s => if s.rep.run.isSome then some 2 else none
  act := fun r e s => (s.inFlight r 2 e).request (DevSt.ofCode (e.u 8 1)) (some r)

/-- Whether the far sides have let the transition end: no SREF exchange and no training outstanding on a stack port,
and no save outstanding (R91, R386, R536). -/
def State.transitionReady (s : State) : Bool :=
  (s.portsOf .stack).all (fun p =>
    decide (s.ports[p].sref = .none) && s.ports[p].st != .mbTrain && s.ports[p].st != .creditInit) &&
  (allFin 8).all fun i => s.swatches[i].holdStep = .none

/-- Cores after the cluster is powered off (R395): a host-owned core loses its state. -/
def Distaff.poweredOff (c : Distaff) : Distaff :=
  match c.granted with
  | none => { Distaff.reset with resetPc := c.resetPc, irqEnable := c.irqEnable, ucustom := c.ucustom, irqToM := c.irqToM }
  | some _ => { c with st := .off }

/-- What entering a state does beside power: opening a Burst window, switching the distaff cluster off (R90, R395), and
the saves that waited for the stacks (R197). -/
def State.enter (s : State) (d : DevSt) : State :=
  let s := s.modSelv fun v => { v with
    st := d
    windowLeft := if d = .burst then 2000 else 0
    windowUsed := 0
    capped := 0 }
  let s := if d = .selvage ∨ d = .sentinel then { s with distaffs := mapV s.distaffs fun _ c => c.poweredOff } else s
  let s := if d = .loose ∨ d = .taut then
      (allFin 8).foldl (fun s i =>
        if s.swatches[i].st = .held ∧ s.swatches[i].saveOwed then s.modSw i fun w => { w with holdStep := .saving } else s) s
    else s
  s.repower false

/-- DEVICE_STATE_TRANSITION_END (R91, R92): the state is entered, the request answered, and a deferred request is
evaluated now. -/
def endTransition (s : State) : State :=
  match s.selv.trans with
  | none => s
  | some t =>
    if !s.transitionReady then s
    else
      let s := (s.modSelv fun v => { v with trans := none }).enter t.target
      let s := match t.cmd with
        | some r => s.reply r stOk 0 [(20, 1, t.target.code.toNat)] (b2n t.deferredFlag)
        | none => s
      match s.selv.deferred with
      | none => s
      | some q =>
        let s := s.modSelv fun v => { v with deferred := none }
        if q.target = s.selv.st then
          (match q.cmd with | some r => s.reply r stOk 0 [(20, 1, q.target.code.toNat)] 1 | none => s)
        else match s.requestBad q.target with
          | some x => (match q.cmd with
            | some r => s.reply r stConflict (if x.1 = stConflict then x.2 else 0)
            | none => s)
          | none => s.startTransition q.target q.cmd true

/-- A census aborted (R500): nothing found is kept and the census stays pending; stores and program stores are zeroed. -/
def State.abortCensus (s : State) : State :=
  match s.rep.run with
  | none => s
  | some c =>
    let s := s.modRep fun r => { r with run := none, pending := true, pendingFull := r.pendingFull || c.full }
    ({ s with mem := memClear s.mem 0 0x4000000, poison := s.poison.filter fun a => decide (0x4000000 ≤ a) }).replyOpt c.cmd
      stAborted

/-- The critical-temperature transition (R29, R90, R129, R141): every cast swatch Held with THERMAL, every open KNIT and
every grant ended, a running transition cut short with ABORTED. -/
def State.critical (s : State) : State :=
  let s := s.holdAll Swatch.isCast stThermal
  let s := (allFin 8).foldl (fun s i => s.abortKnit i) s
  let s := s.endGrants (fun _ => true) (some stThermal)
  let s := s.replyOpt (s.selv.trans.bind Transition.cmd) stAborted
  let s := s.replyOpt (s.selv.deferred.bind Deferred.cmd) stConflict
  let s := s.abortCensus
  let s := s.modSelv fun v => { v with deferred := none, thermalStep := 2 }
  let s := if s.selv.st = .burst then (s.endBurst (s.freeVal.toNat % 125)).useFree else s
  (s.modSelv fun v => { v with trans := some ⟨.selvage, none, false⟩ }).srefEnter

/-- The logical skein of the hottest reading, 0xFF when that is not a skein of the map (R529). -/
def State.hottestSkein (s : State) : Nat :=
  match s.selv.readings with
  | none => 0xFF
  | some r =>
    let top := max r.die r.stackMax
    match (allFin 20).find? fun p => r.skeins[p].toInt = top with
    | some p => (((allFin 16).find? fun k => (s.map.skeins[k].map LogSkein.phys) = some p).map Fin.val).getD 0xFF
    | none => 0xFF
/-- The reading of a logical skein. -/
def State.tempOf (s : State) (k : Fin 16) : Int :=
  match s.selv.readings, s.map.skeins[k] with
  | some r, some l => r.skeins[l.phys].toInt
  | _, _ => -32768

/-- Step 1 entered (R528, R529): THERMAL_STEP, and a Burst window is cut. -/
def State.stepOne (s : State) : State :=
  let s := s.event 0x05 s.hottestSkein stThermal
  if s.selv.st = .burst ∧ s.selv.trans.isNone then
    let s := (s.selvFault 12).event 0x07 0xFF stThermal
    s.startTransition .taut none false
  else s

/-- SENSOR_SAMPLE (R527, R528): the readings, SELV_TEMP, and every limit reached. -/
def sampleSensors (r : Readings) (s : State) : State :=
  let s := s.modSelv fun v => { v with readings := some r, hottest := BitVec.ofInt 16 r.die }
  let atLeast (d t : Int) : Bool := decide (d ≤ r.die ∨ t ≤ r.stackMax)
  let s := if s.selv.ready ∧ atLeast 95 88 ∧ s.selv.thermalStep = 0 then
      (s.modSelv fun v => { v with thermalStep := 1 }).stepOne else s
  let s := if s.selv.ready ∧ atLeast 100 92 then s.modSelv fun v => { v with thermalStep := 2, raising := false } else s
  let done := match s.selv.trans with
    | some t => decide (t.target = .selvage) && s.castList.all (fun i => s.swatches[i].st = .held)
    | none => decide (s.selv.st = .selvage) && s.rep.run.isNone && s.castList.all (fun i => s.swatches[i].st = .held)
  let s := if s.selv.ready ∧ atLeast 105 98 ∧ done = false then s.critical else s
  if 120 ≤ r.die ∧ s.selv.thermtripN then (s.modSelv fun v => { v with thermtripN := false }).emit .thermtrip else s

/-- One of several skeins, where no rule says which (log 11). -/
def State.pickSkein (s : State) (ks : List (Fin 16)) : Option (Fin 16) := ks[s.freeVal.toNat % ks.length]?

/-- Powered skeins above P0 of the swatches of a class. -/
def State.lowerable (s : State) (c : TickClass) : List (Fin 16) :=
  (allFin 16).filter fun k => s.powered k && decide (s.selv.ppoint[k] ≠ 0) &&
    match s.swatchOf k with
    | some i => decide (s.swatches[i].cls = c)
    | none => false

/-- BUDGET_LIMITER (R95): above the budget one skein of a free, then of a loose swatch is lowered; more than 10% below
it one lowered skein is raised, unless a thermal step is in force (R529). -/
def limitBudget (avg : Word) (s : State) : State :=
  let s := s.modSelv fun v => { v with avg1s := BitVec.ofNat 16 (min 0xFFFF avg.toNat) }
  let b := s.selv.budget.toNat
  if b < avg.toNat then
    let s := s.selvFault 11
    let ks := if (s.lowerable .free).isEmpty then s.lowerable .loose else s.lowerable .free
    match s.pickSkein ks with
    | some k =>
      ((s.useFree.modSelv fun v => { v with limited := upd v.limited k (· + 1) }).repower false).event 0x06 k.val
        stPowerLimit
    | none => s
  else if avg.toNat * 10 < b * 9 ∧ s.selv.thermalStep = 0 then
    match s.pickSkein ((allFin 16).filter fun k => decide (0 < s.selv.limited[k])) with
    | some k => (s.useFree.modSelv fun v => { v with limited := upd v.limited k (· - 1) }).repower false
    | none => s
  else s

/-- BURST_POWER_CHECK (R531, R96): a millisecond of the window has passed; above 62 W one P3 skein drops to P2. -/
def checkBurst (avg : Word) (s : State) : State :=
  let s := s.modSelv fun v => { v with avg1ms := BitVec.ofNat 16 (min 0xFFFF avg.toNat) }
  if s.selv.st ≠ .burst then s
  else
    let s := s.modSelv fun v => { v with windowLeft := v.windowLeft - (if v.windowLeft = 0 then 0 else 1)
                                         windowUsed := min 2000 (v.windowUsed + 1) }
    if 62000 < avg.toNat then
      match s.pickSkein ((allFin 16).filter fun k => s.powered k && decide (s.selv.ppoint[k] = 3)) with
      | some k => (s.useFree.modSelv fun v => { v with capped := setBit v.capped k.val }).repower false
      | none => s
    else s

/-- THERMAL_STEP_2_LOWER (R528, R529): the hottest powered skein of free swatches, then loose, then hard. -/
def lowerHottest (s : State) : State :=
  if s.selv.thermalStep ≠ 2 then s
  else
    let ks := if !(s.lowerable .free).isEmpty then s.lowerable .free
      else if !(s.lowerable .loose).isEmpty then s.lowerable .loose else s.lowerable .hard
    let top := ks.foldl (fun m k => max m (s.tempOf k)) (-32768)
    match ks.find? fun k => decide (s.tempOf k = top) with
    | some k =>
      ((s.modSelv fun v => { v with throttled := upd v.throttled k (· + 1) }).repower false).event 0x05 s.hottestSkein
        stThermal
    | none => s

/-- THERMAL_STEP_RELEASE (R528, R529): with every reading below the release figures, the step ends. -/
def releaseStep (s : State) : State :=
  match s.selv.thermalStep.val with
  | 2 => if s.cooler 95 87 then
      s.modSelv fun v => { v with thermalStep := if s.cooler 90 83 then 0 else 1, raising := true }
    else s
  | 1 => if s.cooler 90 83 then s.modSelv fun v => { v with thermalStep := 0 } else s
  | _ => s

/-- THERMAL_RAISE (R529): one skein lowered by step 2 is raised one P-point. -/
def raiseOne (s : State) : State :=
  if s.selv.raising = false ∨ s.selv.thermalStep = 2 then s
  else match s.pickSkein ((allFin 16).filter fun k => decide (0 < s.selv.throttled[k])) with
    | some k => (s.useFree.modSelv fun v => { v with throttled := upd v.throttled k (· - 1) }).repower false
    | none => s.modSelv fun v => { v with raising := false }

/-- Whether a swatch's skeins run at what its P-point asks (R94). -/
def State.ppReached (s : State) (i : Fin 8) : Bool :=
  s.swatches[i].skeinList.all fun k => !s.powered k || decide (s.selv.ppoint[k].toNat = s.wantPp k)
/-- The P-point in force on a swatch: the lowest its skeins are to run at (R151, R95, R528). -/
def State.ppInForce (s : State) (i : Fin 8) : Nat :=
  s.swatches[i].skeinList.foldl (fun m k => min m (s.wantPp k)) s.swatches[i].ppoint.toNat
/-- SET_SWATCH_PPOINT commands whose P-point is in force answered with it. -/
def State.answerPp (s : State) : State :=
  (allFin 8).foldl (fun s i =>
    match s.swatches[i].ppCmd with
    | some r => if s.ppReached i then
        (s.modSw i fun w => { w with ppCmd := none }).ok r [(20, 1, s.ppInForce i)] else s
    | none => s) s
/-- RAIL_RAMP_DONE (R94): the rail is up and the waiting clocks switch. -/
def rampDone (s : State) : State :=
  match s.selv.ramp with
  | some r => ((s.modSelv fun v => { v with rail := r, ramp := none }).repower false).answerPp
  | none => s

/-- HEM_EVENT (R60, R90): an enabled wake in Selvage, or while Selvage is being entered, requests Sentinel. -/
def hemEvent (src : HemSource) (s : State) : State :=
  let bit : Nat := match src with | .gpio => 0 | .soundwire => 1 | .outerChain => 2
  let selvage := decide (s.selv.st = .selvage) || decide (s.selv.trans.map Transition.target = some .selvage)
  if s.shuskaub ∧ s.selv.ready ∧ s.selv.wake.getLsbD bit ∧ s.selv.wake.getLsbD 3 ∧ selvage then s.request .sentinel none else s

/-! ### The device commands that only read or set (R146) -/

def cmdNop : Cmd where
  op := 0
  target := 0
  used := []
  act := fun r _ s => s.ok r

/-- QUERY_DEVICE (R146). -/
def cmdQueryDevice : Cmd where
  op := 1
  target := 0
  used := []
  act := fun r _ s => s.ok r [(20, 4, s.statusWord.toNat), (24, 4, s.selv.fault.toNat),
    (28, 4, (s.fuses.assemblyWord).toNat), (32, 4, s.map.summaryWord.toNat), (36, 4, s.selv.censusWord.toNat),
    (40, 4, Config.ifVersion.toNat), (44, 4, s.tick.period.toNat), (48, 8, s.tick.count.toNat)]

/-- The sustained budget clamped to its range (R95). -/
def clampBudget (n : Nat) : Nat := max 6000 (min 40000 n)
/-- SET_BUDGET (R95, R149). -/
def cmdSetBudget : Cmd where
  op := 3
  target := 0
  used := [(8, 4), (12, 1)]
  bad := fun e _ => if e.u 12 1 ≤ 1 then [] else [12]
  state := fun _ s => if s.selv.budgetLock then some 2 else none
  act := fun r e s =>
    let b := clampBudget (e.u 8 4)
    (s.modSelv fun v => { v with budget := BitVec.ofNat 16 b, budgetLock := decide (e.u 12 1 = 1) }).ok r [(20, 4, b)]

/-- SET_WAKE (R146). -/
def cmdSetWake : Cmd where
  op := 4
  target := 0
  used := [(8, 4)]
  bad := fun e _ => if bitsN (e.u 8 4) 7 4 = 0 ∧ bitsN (e.u 8 4) 31 12 = 0 then [] else [8]
  state := fun e s =>
    let k := bitsN (e.u 8 4) 11 8
    if s.selv.st = .sentinel ∧ k ≠ s.sentinelSkein.val then some 0
    else if s.skeinIn (Fin.ofNat 16 k) then none else some 2
  act := fun r e s =>
    (s.modSelv fun v => { v with wake := BitVec.ofNat 32 (e.u 8 4) }).ok r [(20, 4, e.u 8 4)]

/-- QUERY_POWER (R146). -/
def cmdQueryPower : Cmd where
  op := 5
  target := 0
  used := []
  act := fun r _ s => s.ok r [(20, 4, s.selv.powerWord.toNat), (24, 4, s.selv.tempWord.toNat),
    (28, 4, s.selv.burstWord.toNat), (32, 4, s.selv.ppointWord.toNat), (36, 4, s.selv.budgetWord.toNat)]

/-- Opcodes of the classes MEDIUM and LONG (R131, R146 to R175). -/
def longOps : List Nat := [0x002, 0x007, 0x100, 0x105, 0x203, 0x204, 0x300, 0x301, 0x302, 0x601, 0x603, 0x700, 0x702,
  0x703, 0x705, 0x706, 0x707, 0x708, 0x800, 0x802]
/-- Whether a MEDIUM or LONG command is running. -/
def State.longRunning (s : State) : Bool := s.jobs.any fun j => longOps.contains j.2.1.toNat

/-- RESTART (R146, R147): accepted, answered first; RESTART_BEGIN does the rest. -/
def cmdRestart : Cmd where
  op := 6
  target := 0
  used := [(8, 1)]
  bad := fun e _ => if e.u 8 1 ≤ 2 then [] else [8]
  state := fun _ s =>
    if !s.castList.isEmpty then some 1
    else if s.grants.any (fun g => g.waiting.isNone) || s.longRunning then some 2 else none
  act := fun r e s =>
    let s := s.modSelv fun v => { v with restartCmd := true }
    (s.modBoot fun b => { b with forceFull := match e.u 8 1 with
      | 1 => some false
      | 2 => some true
      | _ => none }).ok r

/-! ### The rows -/

/-- On a twin secondary the row stands for the package-wide request of the primary (R512; log 17). -/
def execSetDeviceState (e : Entry) (s : State) : Host.Outcome State Fault Refusal :=
  .next (if s.fuses.twin ∧ !s.fuses.primary then s.request (DevSt.ofCode (e.u 8 1)) none else cmdSetDeviceState.dispatch e s)
def execDeviceStateTransitionEnd (s : State) : Host.Outcome State Fault Refusal := .next (endTransition s)
def execNop (e : Entry) (s : State) : Host.Outcome State Fault Refusal := .next (cmdNop.dispatch e s)
def execQueryDevice (e : Entry) (s : State) : Host.Outcome State Fault Refusal := .next (cmdQueryDevice.dispatch e s)
def execSetBudget (e : Entry) (s : State) : Host.Outcome State Fault Refusal := .next (cmdSetBudget.dispatch e s)
def execSetWake (e : Entry) (s : State) : Host.Outcome State Fault Refusal := .next (cmdSetWake.dispatch e s)
def execQueryPower (e : Entry) (s : State) : Host.Outcome State Fault Refusal := .next (cmdQueryPower.dispatch e s)
def execRestart (e : Entry) (s : State) : Host.Outcome State Fault Refusal := .next (cmdRestart.dispatch e s)
def execBudgetLimiter (avg1s : Word) (s : State) : Host.Outcome State Fault Refusal :=
  .next (if s.selv.ready then limitBudget avg1s s else s)
/-- BURST_WINDOW_END (R96): after 2 s the window ends with its measured energy and the device goes to Taut. -/
def execBurstWindowEnd (joules : Nat) (s : State) : Host.Outcome State Fault Refusal :=
  .next (if s.selv.st = .burst ∧ s.selv.trans.isNone then
    (s.modSelv fun v => { v with trans := some ⟨.taut, none, false⟩, windowUsed := 2000 }).endBurst joules else s)
def execBurstPowerCheck (avg1ms : Word) (s : State) : Host.Outcome State Fault Refusal := .next (checkBurst avg1ms s)
def execBurstRecoveryEnd (s : State) : Host.Outcome State Fault Refusal :=
  .next (s.modSelv fun v => { v with recoveryLeft := 0 })
def execSensorSample (r : Readings) (s : State) : Host.Outcome State Fault Refusal :=
  .next (if s.selv.spwrok then sampleSensors r s else s)
def execThermalStep2Lower (s : State) : Host.Outcome State Fault Refusal := .next (lowerHottest s)
def execThermalStepRelease (s : State) : Host.Outcome State Fault Refusal := .next (releaseStep s)
def execThermalRaise (s : State) : Host.Outcome State Fault Refusal := .next (raiseOne s)
def execRailRampDone (s : State) : Host.Outcome State Fault Refusal := .next (rampDone s)
def execHemEvent (source : HemSource) (s : State) : Host.Outcome State Fault Refusal := .next (hemEvent source s)

end Sys2Proof.Machine
end

