-- ==== Sys2Proof/Machine/Startup.lean ====
section
/-! DEFINITION. Start-up (04 R68 to R86): power good, the boot channel, count-off, the census and its record
(19 R493 to R505), the logical map, port training up to READY, and the warm restart (06 R147). -/
namespace Sys2Proof.Machine
open Sys2Proof

/-! ### Physical numbering (R19) and the repair record (R502 to R505) -/

def physNeedle (p : Fin 20) (j : Fin 7) : Fin 140 := ⟨7 * p.val + j.val, by omega⟩
def physSkein (y : Fin 4) (x : Fin 5) : Fin 20 := ⟨5 * y.val + x.val, by omega⟩

/-- An increment of a counter; only the primary's tally keeps counters (R478). -/
def State.yardP (s : State) (c n : Nat) : State := if s.fuses.primary then s.yard c n else s

/-- A sticky REP event. -/
def State.repEvent (s : State) (b : Nat) : State := s.modRep fun r => { r with events := setBit r.events b }

/-- The logical skein of a physical one, 0xFF outside the map (R120). -/
def State.logicalOf (s : State) (p : Nat) : Nat :=
  (((allFin 16).find? fun k => (s.map.skeins[k].map fun l => l.phys.val) = some p).map Fin.val).getD 0xFF

/-- The detail bytes of DROPPED_STITCH (R505): kind, die, number, bank and row, margin, epoch. -/
def State.stitchDetail (s : State) (kind num bankRow margin : Nat) : DWord :=
  BitVec.ofNat 64 (leNat [BitVec.ofNat 8 kind, if s.fuses.primary then 0 else 1] +
    if kind = 4 then num * 2 ^ 16 + (margin * 2 ^ 48) + s.map.epoch.toNat * 2 ^ 56
    else num % 65536 * 2 ^ 16 + bankRow * 2 ^ 32 + margin * 2 ^ 48 + s.map.epoch.toNat * 2 ^ 56)
/-- DROPPED_STITCH posted (R120, R505). -/
def State.droppedStitch (s : State) (source kind num bankRow margin : Nat) : State :=
  s.event 0x0A source stOk (s.stitchDetail kind num bankRow margin)

/-- A retirement recorded and counted (R503, R504): a full record keeps no entry; a lane already recorded is none. -/
def State.addEntry (s : State) (kind : Fin 5) (num bankRow : Nat) (source : Nat) : State :=
  let e : RepEntry := ⟨!s.fuses.primary, kind, BitVec.ofNat 32 num, BitVec.ofNat 16 bankRow, false⟩
  if s.rep.entries.any fun x => decide (x.kind = e.kind ∧ x.num = e.num ∧ x.bankRow = e.bankRow ∧ x.die = e.die) then s
  else
    let s := if s.rep.entries.length < 1024 then
        s.modRep fun r => { r with entries := r.entries ++ [e], added := r.added + 1 }
      else (s.modRep fun r => { r with listFull := true, added := r.added + 1 }).repEvent 5
    (s.yardP 3 1).droppedStitch source kind.val num bankRow 0

/-- The number of a stack-page entry: the stack and the granule's offset in 256-byte units (R502). -/
def State.pageEntry (s : State) (a : Nat) : Nat :=
  let b := s.stackOf a
  b.val * 2 ^ 27 + (s.place a).offset / 256
/-- Pages freed, and the pages this retires recorded and counted (R383, R502). -/
def State.release (s : State) (base count : Nat) : State :=
  let bad := s.badPages.filter fun a => decide (base ≤ pageOf a ∧ pageOf a < base + count)
  bad.foldl (fun s a => (s.addEntry 4 (s.pageEntry a) 0 0xFF).repEvent 1) (s.freeRange base count)
/-- Every run that meets a condition freed; the pages counted. -/
def State.releaseRuns (s : State) (sel : PageSt → Bool) : State × Nat :=
  let rs := s.pages.filter fun r => sel r.st
  (rs.foldl (fun s r => s.release r.base r.count) s, sumN (rs.map PageRun.count))

/-! ### What a census finds (R82, R493) -/

/-- A needle that is not retired and passes. -/
def State.needleGood (s : State) (p : Fin 20) (j : Fin 7) : Bool :=
  !s.rep.retiredNeedles.getLsbD (physNeedle p j).val && !s.phys.badNeedles.contains (physNeedle p j)
/-- Spare rows of a bank of a physical skein: rows recorded and rows found failing (R82, R502). -/
def State.sparesOf (s : State) (p : Fin 20) (b : Fin 16) : Nat :=
  let rec_ := (s.rep.entries.filter fun e => decide (e.kind = 2 ∧ e.die = !s.fuses.primary ∧ e.num.toNat = p.val ∧
    e.bankRow.toNat / 256 = b.val)).map fun e => e.bankRow.toNat % 256
  let found := (s.phys.storeRows.filter fun r => decide (r.1 = p ∧ r.2.1 = b)).map fun r => r.2.2.val
  (rec_ ++ found).dedup.length
/-- Whether a physical skein passes by itself. -/
def State.skeinSound (s : State) (p : Fin 20) : Bool :=
  !s.phys.badSkeins.contains p && (allFin 16).all fun b => decide (s.sparesOf p b ≤ 8)
/-- A good physical skein (R82). -/
def State.skeinGood (s : State) (p : Fin 20) : Bool :=
  !s.rep.retiredSkeins.getLsbD p.val && s.skeinSound p && decide (6 ≤ ((allFin 7).filter (s.needleGood p)).length)
/-- The needles of a skein that count as good: none of a retired skein (R82). -/
def State.goodNeedles (s : State) (p : Fin 20) : List (Fin 7) :=
  if s.rep.retiredSkeins.getLsbD p.val then [] else (allFin 7).filter (s.needleGood p)

/-- Every failing resource retired and recorded (R493): needles, then skeins, then store rows. -/
def State.retireFailures (s : State) : State :=
  let live (p : Fin 20) : Bool := !s.rep.retiredSkeins.getLsbD p.val
  let needles := (allFin 20).flatMap fun p => if live p then
    ((allFin 7).filter fun j => !s.rep.retiredNeedles.getLsbD (physNeedle p j).val && !s.needleGood p j).map fun j =>
      (p, physNeedle p j) else []
  let skeins := (allFin 20).filter fun p => live p && !s.skeinGood p
  let rows := s.phys.storeRows.filter fun r => live r.1 && s.skeinGood r.1
  let s := needles.foldl (fun s x => (s.modRep fun r => { r with
    retiredNeedles := setBit r.retiredNeedles x.2.val }).addEntry 0 x.2.val 0 (s.logicalOf x.1.val)) s
  let s := skeins.foldl (fun s p => (s.modRep fun r => { r with
    retiredSkeins := setBit r.retiredSkeins p.val }).addEntry 1 p.val 0 (s.logicalOf p.val)) s
  let s := rows.foldl (fun s x => s.addEntry 2 x.1.val (x.2.1.val * 256 + x.2.2.val) (s.logicalOf x.1.val)) s
  if needles.isEmpty && skeins.isEmpty && rows.isEmpty then s else s.repEvent 1

/-- A logical skein on a physical one: its six lowest good needles (R20). -/
def State.placeSkein (s : State) (p : Fin 20) : LogSkein where
  phys := p
  needles := Vector.ofFn fun k => (s.goodNeedles p)[k.val]?.getD 0
/-- The rows that are enabled (R83). -/
def State.enabledRows (s : State) : List (Fin 4) :=
  (allFin 4).filter fun y =>
    decide (4 ≤ ((allFin 5).filter fun x => s.skeinGood (physSkein y x)).length) && !s.phys.badRows.contains y
/-- The logical map (R83), or the fallback map (R84). -/
def State.newMap (s : State) : LMap :=
  let rows := s.enabledRows
  let goods := (allFin 20).filter s.skeinGood
  match rows, goods with
  | [], p :: _ =>
    { LMap.none with skeins := LMap.none.skeins.set 0 (some (s.placeSkein p)), fallback := true, courses := 1,
                     epoch := s.map.epoch }
  | _, _ =>
    { skeins := Vector.ofFn fun k =>
        (rows[k.val / 4]?).bind fun y =>
          (((allFin 5).filter fun x => s.skeinGood (physSkein y x))[k.val % 4]?).map fun x => s.placeSkein (physSkein y x)
      rows := rows.foldl (fun m y => setBit m y.val) 0
      fallback := false
      courses := BitVec.ofNat 3 rows.length
      epoch := s.map.epoch }

/-- The stores, program stores and skein blocks as a census leaves them (R82). -/
def State.clearSkeins (s : State) : State :=
  { s with
    mem := memClear s.mem 0 0x4000000
    poison := s.poison.filter fun a => decide (0x4000000 ≤ a)
    needles := mapV s.needles fun _ x => x.halt
    skeins := mapV s.skeins fun k x =>
      match s.map.skeins[k] with
      | some l => { x with spareRows := Vector.ofFn fun b => BitVec.ofNat 4 (s.sparesOf l.phys b) }
      | none => { x with spareRows := Vector.replicate 16 0 } }

/-- A census at its end (R82 to R84, R499): failures retired, results, the map, the epoch, the distance table; the
flag says whether the map changed. -/
def State.census (s : State) (full first : Bool) : State × Bool :=
  let before := s.map
  let goodS := ((allFin 20).filter s.skeinGood).length
  let goodN := sumN ((allFin 20).map fun p => (s.goodNeedles p).length)
  let rowsBefore := s.map.rows
  let s := s.yardP 2 1
  let s := s.modSelv fun v => { v with
    goodSkeins := BitVec.ofNat 5 goodS, goodNeedles := BitVec.ofNat 8 goodN, censusFull := full }
  let s := if goodS < 20 ∨ goodN < 140 then s.selvFault 5 else s
  let m := s.newMap
  let changed := decide ({ m with epoch := 0 } ≠ { before with epoch := 0 })
  let s := { s with map := { m with epoch := if first then 1 else if changed then before.epoch + 1 else before.epoch } }
  let s := s.retireFailures
  let s := { s with gauge := { s.gauge with distEpoch := s.map.epoch } }
  let s := if m.rows ≠ 0xF then s.selvFault 6 else s
  let s := if rowsBefore &&& ~~~m.rows ≠ 0 ∨ (first ∧ m.rows ≠ 0xF) then s.repEvent 4 else s
  let s := if m.fallback then s.selvFault 7 else s
  let s := s.clearSkeins
  let wake : Fin 16 := s.sentinelSkein
  (if s.skeinIn wake then s else s.modSelv fun v => { v with wake := v.wake &&& 0xFFFFF0FF }, changed)

/-! ### Ports starting up (R61, R70) -/

/-- The port's role announced on its sideband (R35, R60). -/
def State.announce (s : State) (p : Fin 10) : State :=
  (s.modPort p fun e => { e with st := .roleCheck }).emit
    (.sideband p 0x01 [s.fuses.ports[p].role.code.setWidth 8, if s.fuses.primary then 1 else 0])
/-- Full training started from the sideband on. -/
def State.trainPort (s : State) (p : Fin 10) : State :=
  if s.ports[p].sideband then s.announce p else s.modPort p fun e => { e with st := .sbInit }
/-- Ports whose training has ended. -/
def PortSt.settled : PortSt → Bool
  | .active => true | .degraded => true | .down => true | .sleep => true | .off => true | _ => false

/-- The state of a port as the slice routing sees it: one that retrains keeps its slices, whose requests wait (R57). -/
def EdgePort.routeSt (e : EdgePort) : PortSt :=
  if e.st = .retrain then (if e.modules = 3 then .active else .degraded) else e.st
/-- Which ports serve slices 0 to 7 and slices 8 to 15 of a stack in the present port states (R59). -/
def State.routes (s : State) (b : Fin 4) : Option (Fin 10) × Option (Fin 10) :=
  match s.stackPorts b with
  | [p] => if s.portCarries p then (some p, some p) else (none, none)
  | p :: q :: _ =>
    let a := s.ports[p].routeSt
    let c := s.ports[q].routeSt
    if a = c ∧ a.up then (some p, some q)
    else if a = .active then (some p, some p)
    else if c = .active then (some q, some q)
    else if a.up then (some p, some p)
    else if c.up then (some q, some q)
    else (none, none)
  | [] => (none, none)
def State.reroute (s : State) (b : Fin 4) : State :=
  s.modStack b fun t => { t with routeLo := (s.routes b).1, routeHi := (s.routes b).2 }

/-! ### Steps 8 and 9 (R71, R85, R87) -/

/-- Pages of recorded stack-page entries retired (R502). -/
def State.retireRecorded (s : State) : State :=
  (s.rep.entries.filter fun e => decide (e.kind = 4 ∧ e.die = !s.fuses.primary)).foldl (fun s e =>
    let b : Fin 4 := Fin.ofNat 4 (fld e.num 28 27)
    if s.stack[b].present then s.setPages (pageOf (s.addrOf b (fld e.num 26 0 * 256))) 1 .retired else s) s
/-- Pages retired on each stack. -/
def State.countRetired (s : State) : State :=
  let n (b : Fin 4) : Nat := sumN (s.pages.map fun r => if r.st = .retired then
    ((List.range r.count).filter fun k => s.stackOf (pageAddr (r.base + k)) = b).length else 0)
  { s with stack := mapV s.stack fun b t => { t with retired := BitVec.ofNat 16 (n b) } }

/-- Step 8: the stacks are checked and the interleave is programmed (R71); a stack with no port up, or that fails, is
lost. -/
def State.stepEight (s : State) : State :=
  let s := (s.namedStacks).foldl (fun s b =>
    let good := (s.stackPorts b).any s.portUp && !s.phys.badStacks.contains b
    let s := s.modStack b fun t => { t with
      present := good, lost := !good, events := if good then t.events else setBit t.events 2 }
    (if good then s else s.selvFault 10).reroute b) s
  let s := if s.boot.warm then s else { s with localMap := 0 }
  let s := s.retireRecorded.countRetired
  s.modSelv fun v => { v with bootStep := 8 }

/-- The services of R85: READY and MGMT_OK with the management service, COMPUTE_OK with a logical skein too; the fault bit
of each that is absent. -/
def State.services (s : State) (mgmt : Bool) : State :=
  let comp := mgmt && !(s.skeinList).isEmpty
  let s := if mgmt then s else s.selvFault 8
  let s := if comp then s else s.selvFault 9
  s.modSelv fun v => { v with ready := mgmt, mgmtOk := mgmt, computeOk := comp }

/-- A read of the flash: bytes past what was programmed into a slot are erased ones (log 154). -/
def flashRead (l : List Byte) (off n : Nat) : List Byte := (List.range n).map fun i => l.getD (off + i) 0xFF
/-- Whether a pair of the board block names a register it may (R411): BOB 0x4000 to 0x6FFF, BOB_UART_CFG or a PIN_CFG. -/
def boardPairOk (off : Nat) : Bool :=
  if off < 2 ^ 31 then decide ((0x4000 ≤ off ∧ off ≤ 0x6FFF) ∨ off = 0x7000)
  else decide (off - 2 ^ 31 < 0x80 ∧ off % 4 = 0)
/-- The pairs of a board block, or none where it is refused whole (R411). -/
def boardPairs (l : List Byte) : Option (List (Nat × Word)) :=
  let block := flashRead l 0 4096
  let n := leAt block 6 2
  let body := (block.drop 16).take (8 * n)
  let pairs := (List.range n).map fun i => (leAt body (8 * i) 4, BitVec.ofNat 32 (leAt body (8 * i + 4) 4))
  if leAt block 0 4 = 0x44524F42 ∧ leAt block 4 2 = 1 ∧ n ≤ 510 ∧ leAt block 8 4 = crc32c body ∧
      pairs.all (fun x => boardPairOk x.1) then some pairs
  else none
/-- BOARD_BLOCK_APPLY (R411): the pairs in order, a later one overriding an earlier one; refused whole, it sets BAD. It is
read and written over the SHUS port (R407). -/
def State.applyBoard (s : State) : State :=
  if !(s.portsOf .shus).any s.portUp then s
  else match boardPairs s.flash.board with
    | some ps =>
      let put (s : State) (x : Nat × Word) : State :=
        if x.1 < 2 ^ 31 then s.blkPoke .bob x.1 x.2 else s.blkPoke .pin (x.1 - 2 ^ 31) x.2
      (ps.foldl put s).modIo fun i => { i with boardStatus := BitVec.ofNat 32 (1 + 4 * ps.length) }
    | none => s.modIo fun i => { i with boardStatus := 2 }

/-- A DAT entry given a dynamic address. -/
def datEntry (w : Word) (a : Nat) : Word := (w &&& 0xFF) ||| BitVec.ofNat 32 (0x8000 + 256 * a)
/-- A target given the lowest free dynamic address, statics skipped, in the first entry that is not VALID (R410). -/
def State.i3cAssign (s : State) (ctl : Fin 2) : State :=
  let dat := s.io.i3cDat[ctl]
  let used (a : Nat) : Bool := dat.toList.any fun w => (w.getLsbD 15 && decide (fld w 14 8 = a)) || decide (fld w 6 0 = a)
  match (allFin 32).find? (fun t => !dat[t].getLsbD 15), (List.range 0x76).find? fun k => !used (8 + k) with
  | some t, some k => s.modIo fun i => { i with i3cDat := upd i.i3cDat ctl fun d => upd d t fun w => datEntry w (8 + k) }
  | _, _ => s
/-- ENTDAA at READY on each enabled controller (R410): the targets on the bus, in ascending order of provisional ID, each
get the lowest free address; addresses of an earlier start-up are given up first (log 158). -/
def State.entdaa (s : State) : State :=
  if !(s.portsOf .shus).any s.portUp then s
  else (allFin 2).foldl (fun s c =>
    if !s.io.i3cCfg[c].getLsbD 5 then s
    else
      let clear (w : Word) : Word := w &&& 0xFF
      let s := s.modIo fun i => { i with i3cDat := upd i.i3cDat c fun d => d.map clear }
      (List.range s.phys.i3cTargets[c]).foldl (fun s _ => s.i3cAssign c) s) s

/-- Step 9: READY in Selvage, the stacks sent to self-refresh (R87), with the board block applied before it (R411) and
ENTDAA run at it (R410); READY_TIME is a free value (log 11). Without the management service READY is not set, and
BOOT_STEP stays at 8, the last step that ended (log 155). -/
def State.stepNine (s : State) (mgmt : Bool) : State :=
  let s := (s.modBoot fun b => { b with phase := .done }).applyBoard
  if mgmt then
    let s := (s.services true).modSelv fun v => { v with
      st := .selvage, bootStep := 9, readyTime := BitVec.ofNat 16 s.freeVal.toNat }
    let s := s.useFree.entdaa
    let s : State := { s with distaffs := mapV s.distaffs fun _ c => { c with st := .halted } }
    (s.repower false).srefEnter
  else s.services false

/-- What follows step 7: step 8, then READY, the report of a twin secondary, or a twin primary's wait for it (R79). -/
def State.afterTraining (s : State) : State :=
  let s := s.modSelv fun v => { v with bootStep := 7 }
  if s.fuses.twin ∧ s.fuses.primary then
    let s := (s.emit (.twinImage s.boot.image)).stepEight
    if s.boot.secondary then s.stepNine s.mgmtPresent else s.modBoot fun b => { b with phase := .waitSecondary }
  else if s.fuses.twin then (s.stepEight.emit .secondaryReport).stepNine true
  else let s := s.stepEight; s.stepNine s.mgmtPresent
/-- A port's training has gone on; when every port has settled, start-up goes on (R62). -/
def State.portMoved (s : State) : State :=
  if s.boot.phase = .training ∧ (allFin 10).all (fun p => s.ports[p].st.settled) then s.afterTraining else s

/-! ### Steps 4 to 7 -/

/-- Steps 5 to 7: the census, the map, and the ports (R82, R83, R62). A twin secondary's TWIN ports have trained. -/
def State.stepsFive (s : State) : State :=
  let full := s.boot.forceFull.getD s.selv.fullCensus
  let s := (s.census full (!s.boot.warm)).1
  let s := s.modSelv fun v => { v with bootStep := 6 }
  let s := s.modBoot fun b => { b with phase := .training }
  let ps := (allFin 10).filter fun p =>
    s.fuses.ports[p].role != .none && s.ports[p].st != .down && (s.fuses.primary || s.fuses.ports[p].role != .twin)
  (ps.foldl State.trainPort s).portMoved

/-- The number of dies count-off should return (R81). -/
def Fuses.dies (f : Fuses) : Nat := 1 + f.shusDies.toNat + f.stackCount.toNat + b2n f.twin
/-- COUNT_OFF sent with count 1 (R80). -/
def State.sendCountOff (s : State) (tries : Nat) : State :=
  (s.modBoot fun b => { b with phase := .countOff tries }).emit (.inner 0x01 0xFF 0 [1])
/-- Step 3 ends: the image runs (R68, R77). -/
def State.acceptImage (s : State) (src : BootSrc) (svn : Byte) : State :=
  let s := s.modSelv fun v => { v with source := src.code, svn := svn, bootStep := 3 }
  let s := s.modBoot fun b => { b with offer := none, measure := BitVec.ofNat 256 (Config.sha256 b.image).toNat }
  if s.fuses.primary then s.sendCountOff 1 else s.stepsFive

/-! ### The boot channel (R74 to R79) -/

/-- The sources of ORDER (R100). -/
def bootOrder (o : BitVec 2) : List BootSrc :=
  match o.toNat with
  | 0 => [.slotA, .slotB, .host]
  | 1 => [.host, .slotA, .slotB]
  | 2 => [.slotA, .slotB]
  | _ => [.host]
/-- The port a source is served through (R74), an OFFER's own port first. -/
def State.bootPort (s : State) (src : BootSrc) : Option (Fin 10) :=
  match s.boot.offer, src with
  | some (p, _), _ => some p
  | none, .host => if s.fuses.shusPcie then s.shusPort else (s.portsOf .host).head?
  | none, _ => s.shusPort
/-- A source is tried: its port's sideband comes up first. -/
def State.trySource (s : State) (src : BootSrc) (rest : List BootSrc) : State :=
  let s := s.modBoot fun b => { b with phase := .fetching src, rest := rest, image := [], due := 0, seq := 0 }
  match s.bootPort src with
  | some p => if s.ports[p].st = .off then s.modPort p fun e => { e with st := .sbInit } else s
  | none => s
/-- The present source has failed (R74, R78). -/
def State.sourceFailed (s : State) (src : BootSrc) : State :=
  let s := match src with
    | .slotA => s.selvFault 0
    | .slotB => s.selvFault 1
    | _ => s.selvFault 2
  match s.boot.offer, s.boot.rest with
  | none, n :: rest => s.trySource n rest
  | _, _ => (s.selvFault 3).modBoot fun b => { b with phase := .noImage, offer := none }

/-- What verification finds (R77). -/
inductive ImageCheck | ok | badForm | badSign | badSvn
deriving DecidableEq, Repr
/-- Verification of an image (R76, R77). -/
def checkImage (svnMin : Byte) (image : List Byte) : ImageCheck :=
  let p := Config.imageParts image
  if p.magic ≠ 0x4E524E46 ∨ p.size ≠ image.length ∨ 0x30000 < image.length ∨ image.length < 512 then .badForm
  else if !(Config.certChains p.cert Config.romRootHash) ||
     !(Config.ecdsaVerify (Config.certKey p.cert) (Config.sha256 p.signed) p.signature) then .badSign
  else if p.svn.toNat < svnMin.toNat then .badSvn
  else .ok
/-- A fetched image verified: accepted, or the source fails; a bad signature or certificate counts as tampering (18). -/
def State.verifyImage (s : State) (src : BootSrc) : State :=
  match checkImage s.tally.svnMin s.boot.image with
  | .ok => s.acceptImage src (Config.imageParts s.boot.image).svn
  | .badSign => (s.yardP 6 1).sourceFailed src
  | _ => s.sourceFailed src

/-- Bytes the fetch still has to read: the header first, then what its size field or the OFFER names (R76). -/
def Boot.total (b : Boot) : Nat :=
  match b.offer with
  | some (_, n) => n
  | none => if b.image.length < 512 then 512 else max 512 (min 0x30000 (Config.imageParts (b.image.take 512)).size)
/-- Where a source's image lies in what its READ offset addresses (R74): slot B of the flash at 0x0010_0000. -/
def BootSrc.base : BootSrc → Nat
  | .slotB => 0x100000
  | _ => 0
/-- The DATA pieces with which the hem serves a READ of a flash slot over the boot channel (R74, R75). -/
def State.hemServe (s : State) (src : BootSrc) (p : Fin 10) (off len : Nat) : List Out :=
  let piece (l : List Byte) : List Out := (List.range ((len + 7) / 8)).map fun i =>
    .sideband p 0x08 (0x02 :: leBytes 2 i ++ flashRead l (off + 8 * i) 8)
  match src with
  | .slotA => piece s.flash.slotA
  | .slotB => piece s.flash.slotB
  | _ => []
/-- BOOT_READ (R75): the next READ, of at most 4,096 bytes; the first covers the header. The hem answers a READ of a flash
slot at once (log 154). -/
def bootRead (s : State) : State :=
  match s.boot.phase with
  | .fetching src =>
    match s.bootPort src with
    | some p =>
      if s.boot.due ≠ 0 ∨ s.ports[p].sideband = false then s
      else
        let off := s.boot.image.length
        let len := min 4096 (if off < 512 then 512 - off else s.boot.total - off)
        if len = 0 then s
        else ((s.modBoot fun b => { b with due := len, seq := 0 }).emit
          (.sideband p 0x08 (0x01 :: leBytes 4 (src.base + off) ++ leBytes 2 len))).emits (s.hemServe src p off len)
    | none => s
  | _ => s
/-- BOOT_DATA (R75): a piece of the READ in order; a source whose header names an impossible size fails at once. -/
def bootData (seq : Half) (data : List Byte) (s : State) : State :=
  match s.boot.phase with
  | .fetching src =>
    if s.boot.due = 0 ∨ seq ≠ s.boot.seq then s
    else
      let n := min 8 s.boot.due
      let s := s.modBoot fun b => { b with image := b.image ++ data.take n, due := b.due - n, seq := b.seq + 1 }
      if s.boot.due ≠ 0 ∨ s.boot.image.length < 512 then s
      else if s.boot.image.length < s.boot.total then s
      else s.verifyImage src
  | _ => s
/-- OFFER (R78): served by a ROM that holds no image. -/
def offerImage (p : Fin 10) (size : Nat) (s : State) : State :=
  if s.boot.phase = .noImage ∧ (s.fuses.ports[p].role = .host ∨ s.fuses.ports[p].role = .shus) then
    let s := (s.modPort p fun e => { e with sideband := true }).modBoot fun b => { b with offer := some (p, size) }
    s.trySource .host []
  else s
/-- STATUS_REQ (R75, R86): answered at any time while the selvage is powered. -/
def answerStatus (p : Fin 10) (s : State) : State :=
  if s.selv.spwrok ∧ s.fuses.ports[p].role ≠ .none then
    s.emit (.sideband p 0x08 (0x04 :: leBytes 4 s.statusWord.toNat ++ leBytes 4 s.selv.fault.toNat ++
      leBytes 4 s.selv.bootStatusWord.toNat))
  else s

/-! ### Step 1 and 2, power loss and restart -/

/-- The tally's counters checked against their floors (R484), and uncounted repair entries counted (R503). -/
def State.checkCounters (s : State) : State :=
  if !s.fuses.primary then s
  else
    let s := s.modTally fun t => { t with rolledBack := false }
    let s := (allFin 16).foldl (fun s c =>
      if c.val = 7 then s
      else
        let v := s.tally.value c
        let f := s.tally.floor c.val
        if (ydSlot s.tally.slots[c]).isNone ∨ v.toNat < f * 4096 then
          let s := s.yard c.val (min 0xFFFFFFFF ((f + 1) * 4096) - v.toNat)
          (s.modTally fun t => { t with events := setBit t.events 0, rolledBack := true }).yard 6 1
        else if f < v.toNat / 4096 then s.yard c.val 0
        else s) s
    (s.rep.entries.filter fun e => !e.counted).foldl (fun s _ => s.yard 3 1) s

/-- The retired resources the record names, loaded (R502, R506). -/
def State.loadRecord (s : State) : State :=
  let mine := s.rep.entries.filter fun e => decide (e.die = !s.fuses.primary)
  s.modRep fun r => { r with
    added := 0
    listFull := decide (1024 ≤ r.entries.length)
    retiredSkeins := (mine.filter fun e => decide (e.kind = 1)).foldl (fun m e => setBit m e.num.toNat) 0
    retiredNeedles := (mine.filter fun e => decide (e.kind = 0)).foldl (fun m e => setBit m e.num.toNat) 0 }

/-- Step 2 and the start of step 3 (R68, R74); the EDGE and STK blocks are reset at every start-up (R67, R389), rows and
device time count from its READY, and the period is 1 ms again (R180, R181, R415). -/
def State.stepTwo (s : State) (warm : Bool) : State :=
  let s := { s with
    ports := mapV s.ports fun _ e => { EdgePort.reset with sideband := e.sideband }
    stack := Vector.replicate 4 Stack.reset
    tick := { Tick.reset with status := s.tick.status, commitLast := s.tick.commitLast }
    deviceTime := 0 }
  let s := s.modSelv fun v => { v with bootStep := 2, source := 0, svn := 0, ready := false, mgmtOk := false, computeOk := false }
  let s := s.modBoot fun b => { b with warm := warm, secondary := false, offer := none }
  let s := s.loadRecord.checkCounters
  if s.fuses.primary then
    match bootOrder s.selv.order with
    | src :: rest => s.trySource src rest
    | [] => s
  else
    let s := s.modBoot fun b => { b with phase := .waitImage }
    (s.portsOf .twin).foldl State.trainPort s

/-- What the supply's loss leaves: OTP, eMRAM, the flash, the tags; an eMRAM slot being written is torn (R481, R524). -/
def State.unpowered (s : State) : State :=
  let torn := match s.tally.run with
    | some ⟨u, _, .writing _⟩ => upd s.tally.slots u.counter fun p =>
        if ydSlot p = some p.1 then (p.1, { p.2 with valid := false }) else ({ p.1 with valid := false }, p.2)
    | _ => s.tally.slots
  let burnt := match s.tally.run with
    | some ⟨_, _, .flooring _⟩ => s.tally.floorWords ++ [0]
    | _ => s.tally.floorWords
  let flash := match s.flash.writing with
    | some (true, _, _) => { s.flash with slotB := Config.freeBytes s.freeCtr, writing := none }
    | some (false, _, _) => { s.flash with slotA := Config.freeBytes s.freeCtr, writing := none }
    | none => s.flash
  { State.reset with
    fuses := s.fuses
    phys := s.phys
    flash := flash
    tags := s.tags
    tally := { s.tally with run := none, waiting := [], attests := [], events := 0, rolledBack := false, slots := torn, floorWords := burnt }
    rep := { Rep.reset with entries := s.rep.entries }
    out := s.out
    freeCtr := s.freeCtr + 1
    pending := s.pending }

/-- SELVAGE_POWER_GOOD (R68, R74, R100): steps 1 and 2; the fuses load SELV_BOOT_CTRL and SELV_BUDGET. The chain line,
which idles high, is sampled high from here (R435, log 149). -/
def powerGood (s : State) : State :=
  if s.selv.spwrok then s
  else
    let s := s.unpowered.modChain fun c => { c with line := true }
    let s := s.modSelv fun v => { v with
      spwrok := true, bootStep := 1, order := s.fuses.order, fullCensus := s.fuses.fullCensus,
      budget := BitVec.ofNat 16 (clampBudget s.fuses.budget.toNat) }
    s.stepTwo false
/-- SPWROK_FALL and RAIL_OUT_OF_TOLERANCE (R524, R525): everything without a memory of its own is lost. -/
def powerLost (rail : Bool) (s : State) : State :=
  if s.selv.spwrok then s.unpowered.modSelv fun v => { v with railFault := rail } else s

/-- The twin secondary's image (R79), verified by its own ROM; one that fails sets NO_IMAGE, and the ROM goes on waiting
for another (log 156). -/
def secondaryImage (image : List Byte) (s : State) : State :=
  if s.boot.phase ≠ .waitImage then s
  else
    let s := s.modBoot fun b => { b with image := image }
    match checkImage s.tally.svnMin image with
    | .ok => s.acceptImage .twinPrimary (Config.imageParts image).svn
    | _ => s.selvFault 3

/-- COUNT_OFF (R80, R81, R461). -/
def countOffArrives (n : Byte) (s : State) : State :=
  if !s.selv.spwrok then s
  else if s.fuses.primary then
    match s.boot.phase with
    | .countOff _ =>
      let s := s.modInner fun c => { c with
        hasAddr := true, addr := 0, returned := n, expected := BitVec.ofNat 8 s.fuses.dies,
        events := if n.toNat = s.fuses.dies then c.events else setBit c.events 3 }
      let s := if n.toNat = s.fuses.dies then s else s.selvFault 4
      (s.modSelv fun v => { v with bootStep := 4 }).stepsFive
    | _ => s
  else
    (s.modInner fun c => { c with hasAddr := true, addr := n }).emit (.inner 0x01 0xFF n [n + 1])
/-- COUNT_OFF_TIMEOUT (R81): sent again at most twice; then the fault, and start-up goes on. -/
def countOffLate (s : State) : State :=
  match s.boot.phase with
  | .countOff t =>
    if t < 3 then s.sendCountOff (t + 1)
    else
      let s := s.modInner fun c => { c with
        hasAddr := true, returned := 0, expected := BitVec.ofNat 8 s.fuses.dies, events := setBit c.events 1 }
      ((s.selvFault 4).modSelv fun v => { v with bootStep := 4 }).stepsFive
  | _ => s

/-- RESTART_BEGIN (R147): rings go OFF without posting, READY clears, and start-up runs from step 2. -/
def restartBegin (s : State) : State :=
  if !s.selv.restartCmd then s
  else
    let s := { s with
      sqs := mapV s.sqs fun _ q => { q with fsm := EnFsm.off, epoch := q.epoch + 1, inflight := 0, rung := false }
      cqs := mapV s.cqs fun _ c => { c with fsm := EnFsm.off, held := [], rung := false, holdoff := false, due := false }
      fns := mapV s.fns fun _ h => { h with events := [] }
      distaffs := mapV s.distaffs fun _ c => c.poweredOff }
    let s := s.modSelv fun v => { v with
      restartCmd := false, st := .off, trans := none, deferred := none, skeinsOn := 0, windowLeft := 0 }
    s.stepTwo true

/-! ### Re-census (R498 to R500) -/

/-- The conditions of a re-census (R498). -/
def State.censusMay (s : State) : Bool :=
  s.selv.ready && decide (s.selv.st ≠ .off ∧ s.selv.st ≠ .burst) && s.selv.trans.isNone && s.castList.isEmpty &&
  (s.grants.all fun g => g.waiting.isSome || !decide (blockCls g.block = 1 ∨ blockCls g.block = 2 ∨ blockCls g.block = 3)) &&
  ((allFin 48).all fun b => !(s.bobbins[b].bound && decide (s.bobbins[b].ring.toNat < 0x4000000))) &&
  s.rep.run.isNone
/-- A census begins (R498, R499): the kind asked for, or full if the pending one is full. -/
def State.startCensus (s : State) (full : Bool) (cmd : Option CmdRef) : State :=
  (s.modRep fun r => { r with run := some ⟨full || r.pendingFull, cmd⟩ }).repower false
/-- RUN_CENSUS (R165, R498). -/
def cmdRunCensus : Cmd where
  op := 0x601
  target := 0
  used := [(8, 1)]
  bad := fun e _ => if e.u 8 1 ≤ 1 then [] else [8]
  state := fun _ s => if s.censusMay then none else
    if decide (s.selv.st ≠ .off ∧ s.selv.st ≠ .burst) && s.selv.trans.isNone then
      (if s.castList.isEmpty then some 2 else some 1) else some 0
  act := fun r e s => (s.inFlight r 0x601 e).startCensus (decide (e.u 8 1 = 1)) (some r)
/-- CENSUS_END (R499). -/
def endCensus (s : State) : State :=
  match s.rep.run with
  | none => s
  | some c =>
    let res := s.census c.full false
    let s := res.1
    let s := s.modRep fun r => { r with
      run := none, pending := false, pendingFull := false
      suspect := r.suspect &&& r.retiredSkeins }
    let s := s.services s.mgmtPresent
    let s := s.repower false
    match c.cmd with
    | some r => s.ok r [(20, 1, s.map.epoch.toNat), (21, 1, s.map.courses.toNat), (22, 1, s.map.needles),
        (23, 1, b2n res.2)]
    | none => s

/-! ### The rows -/

def execSelvagePowerGood (s : State) : Host.Outcome State Fault Refusal := .next (powerGood s)
def execSpwrokFall (s : State) : Host.Outcome State Fault Refusal := .next (powerLost false s)
def execRailOutOfTolerance (s : State) : Host.Outcome State Fault Refusal := .next (powerLost true s)
def execSecondaryImageWaitEnd (image : List Byte) (s : State) : Host.Outcome State Fault Refusal :=
  .next (secondaryImage image s)
/-- BOOT_SOURCE_TIMEOUT (R74). -/
def execBootSourceTimeout (s : State) : Host.Outcome State Fault Refusal :=
  .next (match s.boot.phase with
    | .fetching src => s.sourceFailed src
    | _ => s)
def execBootRead (s : State) : Host.Outcome State Fault Refusal := .next (bootRead s)
def execBootData (seq : Half) (data : Vector Byte 8) (s : State) : Host.Outcome State Fault Refusal :=
  .next (bootData seq data.toList s)
def execStatusReq (port : Fin 10) (s : State) : Host.Outcome State Fault Refusal := .next (answerStatus port s)
def execOffer (port : Fin 10) (size : Word) (s : State) : Host.Outcome State Fault Refusal :=
  .next (offerImage port size.toNat s)
def execCountOff (count : Byte) (s : State) : Host.Outcome State Fault Refusal := .next (countOffArrives count s)
def execCountOffTimeout (s : State) : Host.Outcome State Fault Refusal := .next (countOffLate s)
def execRestartBegin (s : State) : Host.Outcome State Fault Refusal := .next (restartBegin s)
/-- SECONDARY_START_UP_REPORT (R79). -/
def execSecondaryStartUpReport (s : State) : Host.Outcome State Fault Refusal :=
  let s := s.modBoot fun b => { b with secondary := true }
  .next (if s.boot.phase = .waitSecondary then s.stepNine s.mgmtPresent else s)
def execRunCensus (e : Entry) (s : State) : Host.Outcome State Fault Refusal := .next (cmdRunCensus.dispatch e s)
def execCensusEnd (s : State) : Host.Outcome State Fault Refusal := .next (endCensus s)
/-- AUTO_CENSUS_START (R498). -/
def execAutoCensusStart (s : State) : Host.Outcome State Fault Refusal :=
  .next (if s.rep.pending && s.rep.autoCensus && s.censusMay then s.startCensus s.rep.pendingFull none else s)

end Sys2Proof.Machine
end

