-- ==== Sys2Proof/Machine/HostSide.lean ====
section
/-! DEFINITION. The host side: function resets and D3hot (03 R45 to R47), the BAR4 window (14 R387), doorbells and ring
states (05 R110, R116, R118), relays to a twin secondary (R106). -/
namespace Sys2Proof.Machine
open Sys2Proof

/-! ### Function resets and power states -/

/-- The grants of a function that another function waits for: blocks and the waiting functions. -/
def State.awaitedOf (s : State) (f : Fin 2) : List (Half × Fin 2) :=
  (s.grants.filter fun g => decide (g.holder = .host f) && g.waiting.isNone).flatMap fun g =>
    ((allFin 2).filter fun o => decide (o ≠ f) &&
      s.grants.any fun x => decide (x.holder = .host o ∧ x.block = g.block) && x.waiting.isSome).map fun o => (g.block, o)
/-- A function reset (R46): ring control, doorbells, MSI-X table and windows at their reset values, the function's grants
revoked without an event to it, host-window swatches Held, host-ring bobbins stopped. Another function hears of the blocks it
waits for (05, Corners). DESIGN CHOICE (log 152): events that wait in the reset function's queue are dropped and counted
nowhere; R46 speaks of completion entries only. -/
def resetFunction (f : Fin 2) (s : State) : State :=
  if !s.fnExists f then s
  else
    let s := { s with
      sqs := mapV s.sqs fun i q => if s.ringFn i = f ∧ !q.distaffOwned then { Sq.reset with epoch := q.epoch + 1 } else q
      cqs := mapV s.cqs fun i c => if s.ringFn i = f ∧ !c.distaffOwned then Cq.reset else c }
    let s := s.modFn f fun h => { h with
      bar2Window := 0, bar4Base := 0, msix := HostFn.reset.msix, pba := 0, resetting := true, d3hot := false, events := [] }
    let heard := s.awaitedOf f
    let s := s.endGrants (fun g => decide (g.holder = .host f)) none
    let s := heard.foldl (fun s x => s.eventTo x.2
      ⟨0x0C, BitVec.ofNat 8 (x.1.toNat % 256), BitVec.ofNat 8 stHostReset, 1, 0, s.tick.count, false⟩) s
    (s.holdAll (fun w => w.isCast && w.hostWindow) stHostReset).stopHostBobbins

/-- Pending unmasked vectors signalled (R45, R47). -/
def State.signalPending (s : State) (f : Fin 2) : State :=
  (allFin 64).foldl (fun s v =>
    if s.selv.ready && s.fns[f].pba.getLsbD v.val && !(s.fns[f].msix[v]).mask && !s.fns[f].d3hot then
      (s.modFn f fun h => { h with pba := clrBit h.pba v.val }).emit (.msix f v) else s) s
/-- Held entries and events of a function's rings posted (R47, R135). -/
def State.flushFn (s : State) (f : Fin 2) : State :=
  let s := (allFin 16).foldl (fun s j => if s.ringFn j = f then s.flushHeld j (s.cqs[j].held.length) else s) s
  s.flushEvents f (s.fns[f].events.length)
/-- D3hot entry (R47): the swatches and bobbins that reach host memory through the function stop, which is the one host
traffic goes through (R374). -/
def enterD3 (f : Fin 2) (s : State) : State :=
  if !s.fnExists f ∨ s.fns[f].d3hot then s
  else
    let mine := decide (s.hostPath = s.fnPort f)
    let s := s.modFn f fun h => { h with d3hot := true }
    if mine then (s.holdAll (fun w => w.isCast && w.hostWindow) stHostReset).stopHostBobbins else s
/-- Return to D0 (R47). -/
def returnD0 (f : Fin 2) (s : State) : State :=
  if s.fns[f].d3hot then ((s.modFn f fun h => { h with d3hot := false }).flushFn f).signalPending f else s

/-- MSIX_UNMASK (R388, R45); nothing is signalled before READY (R73). -/
def unmaskVector (f : Fin 2) (v : Fin 64) (s : State) : State :=
  if !s.fnExists f ∨ s.fns[f].d3hot then s
  else
    let s := s.modFn f fun h => { h with msix := upd h.msix v fun m => { m with mask := false } }
    if s.selv.ready && s.fns[f].pba.getLsbD v.val then
      (s.modFn f fun h => { h with pba := clrBit h.pba v.val }).emit (.msix f v) else s

/-! ### BAR4 (R44, R387) -/

/-- Whether a BAR4 access lies inside the sized BAR of a function that answers. -/
def State.bar4In (s : State) (f : Fin 2) (off len : Nat) : Bool :=
  s.fnExists f && !s.fns[f].d3hot && decide (off + len ≤ 2 ^ (30 + s.fns[f].bar4Log.val))
/-- The yarn address of a BAR4 offset. -/
def State.bar4Addr (s : State) (f : Fin 2) (off : Nat) : Nat := s.fns[f].bar4Base.toNat + off

/-- BAR4_READ (R387). -/
def bar4Read (f : Fin 2) (off len : Nat) (s : State) : State :=
  if !s.bar4In f off len then s.emit (.barData f false [])
  else
    let a := s.bar4Addr f off
    match s.region a, s.twinPort.filter fun _ => s.selv.ready with
    | .twin, some p => (pieces a len len).foldl (fun s x =>
        s.sendAccess (.host f) p (x.1 - twinBase) x.1 (.read x.2) .none .mgmt) s
    | _, _ => match s.hostCheck a len false with
      | .ok b => s.emit (.barData f false (memRead s.mem b len))
      | .bad => (s.emit (.barData f true (List.replicate len 0))).mediaError none
          (s.firstBad ((s.hostSpan a len false).getD a) len)
      | .refused => (s.emit (.barData f false (List.replicate len 0xFF))).badAcc
/-- BAR4_WRITE (R387). -/
def bar4Write (f : Fin 2) (off : Nat) (data : List Byte) (s : State) : State :=
  if !s.bar4In f off data.length ∨ data.isEmpty then s
  else
    let a := s.bar4Addr f off
    match s.region a, s.twinPort.filter fun _ => s.selv.ready with
    | .twin, some p => (pieces a data.length data.length).foldl (fun s x =>
        s.sendAccess (.host f) p (x.1 - twinBase) x.1 (.write ((slice data (x.1 - a) x.2).map some)) .none .mgmt) s
    | _, _ => match s.hostCheck a data.length true with
      | .ok b => s.put b (data.map some)
      | .bad =>
        let x := s.firstBad ((s.hostSpan a data.length true).getD a) data.length
        let uncorr (t : Stack) : Stack := { t with events := setBit t.events 1 }
        ((s.modStack (s.stackOf x) uncorr).maskFail x).mediaError none x
      | .refused => s.badAcc

/-! ### Ring states (R110, R116) -/

end Sys2Proof.Machine

namespace Sys2Proof

/-- A ring's number in RING_FAULT and its fault bit (R120, R136). -/
def RingId.num : RingId → Nat
  | .sq i => i.val
  | .cq j => 16 + j.val
/-- The ring pair's index. -/
def RingId.idx : RingId → Fin 16
  | .sq i => i
  | .cq j => j

end Sys2Proof

namespace Sys2Proof.Machine
open Sys2Proof

/-- A ring stopped by a fault (R110, R111): ERROR, FAULT_KIND, the owner's fault bit and RING_FAULT. -/
def State.ringFault (s : State) (r : RingId) (kind : BitVec 2) : State :=
  let s := match r with
    | .sq i => s.modSq i fun q => { q with error := true, faultKind := kind }
    | .cq j => s.modCq j fun c => { c with error := true, faultKind := kind }
  let s := s.modFn (s.ringFn r.idx) fun h => { h with ringFault := setBit h.ringFault r.num }
  s.event 0x09 r.num stInvalidParam

/-- Whether a ring's bytes lie in private memory of a swatch (R102, R105): a private window or a store of its own. -/
def State.ringPrivate (s : State) (sw : Nat) (base size : Nat) : Bool :=
  if h : sw < 8 then
    let w := s.swatches[sw]
    w.isCast && ((w.windows.any fun x => decide (x.kind = 0) && within base size x.base x.size) ||
      (s.ownStore ⟨sw, h⟩ base && s.ownStore ⟨sw, h⟩ (base + size - 1)))
  else false
/-- LOG2_SIZE in range (R102). -/
def sizeOk (cfg : Word) : Bool := decide (4 ≤ fld cfg 3 0 ∧ fld cfg 3 0 ≤ 12)
/-- A valid SQ configuration, its CQ ON (R102, R104, R105, R107, R110). -/
def State.sqValid (s : State) (i : Fin 16) : Bool :=
  let q := s.sqs[i]
  let c := s.cqs[q.cq]
  let die := q.cfg.getLsbD 12
  sizeOk q.cfg && (decide (q.scope < 8) || decide (q.scope = 15)) && (!die || s.fuses.twin) &&
  decide (c.fsm.st = .on) && decide (q.distaffOwned = c.distaffOwned) &&
  (!q.distaffOwned || (decide (q.scope < 8 ∧ q.scope = fld c.cfg 28 25) && decide (die = c.cfg.getLsbD 29) &&
    (die || s.ringPrivate q.scope q.base.toNat (64 * ringSize q.cfg))))
/-- A valid CQ configuration (R102, R105, R108). -/
def State.cqValid (s : State) (j : Fin 16) : Bool :=
  let c := s.cqs[j]
  let die := c.cfg.getLsbD 29
  sizeOk c.cfg && (!c.distaffOwned ||
    (decide (fld c.cfg 9 8 = 0 ∧ fld c.cfg 28 25 < 8) && (!die || s.fuses.twin) &&
      (die || s.ringPrivate (fld c.cfg 28 25) c.base.toNat (64 * ringSize c.cfg))))

/-- EN := 1 of a ring that is OFF. -/
def State.ringRise (s : State) (r : RingId) : State :=
  match r with
  | .sq i =>
    if s.sqValid i then s.modSq i fun q => { q with
      fsm := ⟨true, .rising, false, false⟩, error := false, faultKind := 0, head := 0, tail := 0, inflight := 0,
      rung := false, fenced := false, epoch := q.epoch + 1 }
    else (s.modSq i fun q => { q with fsm := { q.fsm with en := true } }).ringFault r 1
  | .cq j =>
    if s.cqValid j then s.modCq j fun c => { c with
      fsm := ⟨true, .rising, false, false⟩, error := false, faultKind := 0, head := 0, tail := 0, phase := true,
      rung := false, holdoff := false, due := false, held := [] }
    else (s.modCq j fun c => { c with fsm := { c.fsm with en := true } }).ringFault r 1
/-- The enable state machine of a ring. -/
def State.ringFsm (s : State) (r : RingId) : EnFsm :=
  match r with
  | .sq i => s.sqs[i].fsm
  | .cq j => s.cqs[j].fsm
def State.modRingFsm (s : State) (r : RingId) (f : EnFsm → EnFsm) : State :=
  match r with
  | .sq i => s.modSq i fun q => { q with fsm := f q.fsm }
  | .cq j => s.modCq j fun c => { c with fsm := f c.fsm }
/-- Whether a function's writes reach ring control (R73, R103, R47). -/
def State.mayControl (s : State) (f : Fin 2) (r : RingId) : Bool :=
  s.selv.ready && s.fnExists f && decide (s.ringFn r.idx = f) && !s.fns[f].d3hot
/-- RING_ENABLE (R99, R110). -/
def enableRing (f : Fin 2) (r : RingId) (s : State) : State :=
  if !s.mayControl f r then s
  else if (s.ringFsm r).st = .off then s.ringRise r
  else s.modRingFsm r EnFsm.enable
/-- RING_DISABLE (R99, R110). -/
def disableRing (f : Fin 2) (r : RingId) (s : State) : State :=
  if s.mayControl f r then s.modRingFsm r EnFsm.disable else s

/-- An SQ tail taken (R110, R116). -/
def State.takeTail (s : State) (i : Fin 16) : State :=
  let q := s.sqs[i]
  if q.doorbell.toNat < ringSize q.cfg then s.modSq i fun q => { q with tail := q.doorbell, rung := false }
  else s.ringFault (.sq i) 2
/-- A CQ head taken: its slots are free, and held entries and events follow (R110, R135). -/
def State.takeHead (s : State) (j : Fin 16) : State :=
  let c := s.cqs[j]
  let n := ringSize c.cfg
  let dist (x : Half) : Nat := (x.toNat + n - c.head.toNat) % n
  if c.doorbell.toNat < n ∧ dist c.doorbell ≤ dist c.tail then
    let s := s.modCq j fun c => { c with head := c.doorbell, rung := false }
    let s := s.flushHeld j s.cqs[j].held.length
    (allFin 2).foldl (fun s f => s.flushEvents f s.fns[f].events.length) s
  else s.ringFault (.cq j) 2
/-- A doorbell that reaches its ring (R116, R118). -/
def State.ringBell (s : State) (r : RingId) (v : Half) : State :=
  let s := match r with
    | .sq i => s.modSq i fun q => { q with doorbell := v, rung := true }
    | .cq j => s.modCq j fun c => { c with doorbell := v, rung := true }
  if (s.ringFsm r).st = .rising then s
  else match r with
    | .sq i => s.takeTail i
    | .cq j => s.takeHead j
/-- A host doorbell (R73, R103, R116, R118): dropped and counted before READY, for a distaff-owned ring, and while the
ring is OFF or FALLING; ignored for a ring pair of another function. -/
def hostBell (f : Fin 2) (r : RingId) (v : Word) (s : State) : State :=
  if !s.fnExists f ∨ s.fns[f].d3hot then s
  else if !s.selv.ready then s.badAcc
  else if s.ringFn r.idx ≠ f then s
  else
    let distaff : Bool := match r with
      | .sq i => s.sqs[i].distaffOwned
      | .cq j => s.cqs[j].distaffOwned
    if distaff ∨ (s.ringFsm r).st = .off ∨ (s.ringFsm r).st = .falling then s.badAcc
    else s.ringBell r (v.setWidth 16)

/-- RING_FRONT_END_READY (R110): ON, and a doorbell recorded during RISING acts. -/
def frontEndReady (r : RingId) (s : State) : State :=
  if (s.ringFsm r).st ≠ .rising then s
  else
    let s := s.modRingFsm r EnFsm.rose
    if (s.ringFsm r).st ≠ .on then s
    else match r with
      | .sq i => if s.sqs[i].rung then s.takeTail i else s
      | .cq j => if s.cqs[j].rung then s.takeHead j else s
/-- RING_QUIESCED (R110, R99). -/
def quiesceRing (r : RingId) (s : State) : State :=
  if (s.ringFsm r).st ≠ .falling then s
  else
    let done := match r with
      | .sq i => decide (s.sqs[i].inflight = 0)
      | .cq j => (allFin 16).all fun i => decide (s.sqs[i].cq ≠ j ∨ s.sqs[i].fsm.st = .off)
    if !done then s
    else
      let again := (s.ringFsm r).pendEn
      let s := match r with
        | .sq i => s.modSq i fun q => { q with fsm := ⟨again, .off, false, false⟩, error := false, faultKind := 0 }
        | .cq j =>
          let lost := s.cqs[j].held.length
          (s.modFn (s.ringFn j) fun h => { h with eventsLost := satAdd h.eventsLost lost }).modCq j fun c => { c with
            fsm := ⟨again, .off, false, false⟩, error := false, faultKind := 0, held := [] }
      if again then s.ringRise r else s
/-- RING_ACCESS_FAULT (R110). -/
def accessFault (r : RingId) (s : State) : State := if (s.ringFsm r).st = .on then s.ringFault r 3 else s

/-- HOLDOFF_EXPIRY (R119). -/
def endHoldoff (j : Fin 16) (s : State) : State :=
  let c := s.cqs[j]
  if !c.holdoff then s
  else
    let s := s.modCq j fun c => { c with holdoff := false }
    if c.due then s.cqSignal j else s

/-- UNDEFINED_OPCODE (R123, R145); of an SQ with SCOPE_DIE = 1 the secondary answers it (R106). -/
def undefinedOp (op : Nat) (e : Entry) (s : State) : State :=
  match s.takeEntry e with
  | none => s.noteFence e
  | some s1 =>
    if (s1.sqs[e.sq]).cfg.getLsbD 12 then s1.relay op e else s1.reply (e.ref false s1.sqs[e.sq].epoch) stInvalidOpcode

/-! ### Relays (R106, R65) -/

/-- A completion entry read back from its 64 bytes. -/
def CEntry.ofBytes (l : List Byte) (noIrq : Bool) : CEntry where
  cmdId := BitVec.ofNat 16 (leAt l 0 2)
  status := l.getD 2 0
  detail := l.getD 3 0
  sqId := l.getD 4 0
  flags := (l.getD 5 0 &&& 0x7F) ||| 4
  row := BitVec.ofNat 64 (leAt l 8 8)
  devState := l.getD 16 0
  swtState := l.getD 17 0
  result := slice l 20 44
  noIrq := noIrq
/-- The distaff-owned rings faulted whose scope is a swatch of this die, or of the twin secondary (R105). -/
def State.faultRings (s : State) (i : Nat) (twin : Bool) : State :=
  let mine (r : RingId) : Bool := match r with
    | .sq k => s.sqs[k].distaffOwned && decide (s.sqs[k].scope = i ∧ s.sqs[k].fsm.st ≠ .off) && s.sqs[k].cfg.getLsbD 12 == twin
    | .cq k => s.cqs[k].distaffOwned && decide (fld s.cqs[k].cfg 28 25 = i ∧ s.cqs[k].fsm.st ≠ .off) &&
        s.cqs[k].cfg.getLsbD 29 == twin
  (((allFin 16).map RingId.sq ++ (allFin 16).map RingId.cq).filter mine).foldl (fun s r => s.ringFault r 3) s
/-- RELAY_RSP (R106): the secondary's event, or its reply to a relayed command, posted with TWIN set; a reply of a row
whose TICK_DONE is due waits for it (R65). A swatch of the secondary that was bound off takes its rings with it (R105). -/
def relayReply (bytes : List Byte) (sq : Fin 16) (event : Bool) (s : State) : State :=
  if event then
    let ev : EventRec := ⟨bytes.getD 20 0, bytes.getD 21 0, bytes.getD 2 0, BitVec.ofNat 16 (leAt bytes 22 2),
      BitVec.ofNat 64 (leAt bytes 24 8), BitVec.ofNat 64 (leAt bytes 8 8), true⟩
    (allFin 2).foldl (fun s f => if s.fnExists f then s.eventTo f ev else s) s
  else
    match s.jobs.find? fun j => decide (j.1.sq = sq ∧ j.1.cmdId.toNat = leAt bytes 0 2) && s.sqs[sq].cfg.getLsbD 12 with
    | none => s
    | some j =>
      let e := { CEntry.ofBytes bytes j.1.noIrq with sqId := BitVec.ofNat 8 sq.val }
      let s := if j.2.1 = 0x105 ∧ e.status = 0 then s.faultRings (j.1.swatch.toNat) true else s
      if e.flags.getLsbD 1 ∧ s.tick.twinDone = some e.row then
        s.modTick fun t => { t with twinHeld := t.twinHeld ++ [(j.1, e)] }
      else s.finish j.1 e
/-- TICK_DONE (R65). -/
def twinTickDone (row : DWord) (s : State) : State :=
  if s.tick.twinDone = some row then
    let held := s.tick.twinHeld
    let s := s.modTick fun t => { t with twinDone := none, twinHeld := [] }
    held.foldl (fun s x => s.finish x.1 x.2) s
  else s

/-! ### The rows -/

def execFunctionLevelReset (fn : Fin 2) (s : State) : Host.Outcome State Fault Refusal := .next (resetFunction fn s)
def execHotReset (fn : Fin 2) (s : State) : Host.Outcome State Fault Refusal := .next (resetFunction fn s)
/-- HOST_LINK_DOWN (R46). -/
def execHostLinkDown (port : Fin 10) (s : State) : Host.Outcome State Fault Refusal :=
  .next (match s.portFn port with
    | some f => if s.fuses.ports[port].role = .host then resetFunction f s else s
    | none => s)
/-- FUNCTION_RESET_COMPLETE (R46): the HOST_RESET cause is over. -/
def execFunctionResetComplete (fn : Fin 2) (s : State) : Host.Outcome State Fault Refusal :=
  .next (s.modFn fn fun h => { h with resetting := false })
def execD3hotEntry (fn : Fin 2) (s : State) : Host.Outcome State Fault Refusal := .next (enterD3 fn s)
def execD0Return (fn : Fin 2) (s : State) : Host.Outcome State Fault Refusal := .next (returnD0 fn s)
def execMsixUnmask (fn : Fin 2) (vector : Fin 64) (s : State) : Host.Outcome State Fault Refusal :=
  .next (unmaskVector fn vector s)
def execBar4Read (fn : Fin 2) (offset : BitVec 37) (len : Nat) (s : State) : Host.Outcome State Fault Refusal :=
  .next (bar4Read fn offset.toNat len s)
def execBar4Write (fn : Fin 2) (offset : BitVec 37) (data : List Byte) (s : State) : Host.Outcome State Fault Refusal :=
  .next (bar4Write fn offset.toNat data s)
def execSqDoorbell (fn : Fin 2) (ring : Fin 16) (value : Word) (s : State) : Host.Outcome State Fault Refusal :=
  .next (hostBell fn (.sq ring) value s)
def execCqDoorbell (fn : Fin 2) (ring : Fin 16) (value : Word) (s : State) : Host.Outcome State Fault Refusal :=
  .next (hostBell fn (.cq ring) value s)
def execRingEnable (fn : Fin 2) (ring : RingId) (s : State) : Host.Outcome State Fault Refusal :=
  .next (enableRing fn ring s)
def execRingDisable (fn : Fin 2) (ring : RingId) (s : State) : Host.Outcome State Fault Refusal :=
  .next (disableRing fn ring s)
def execRingFrontEndReady (ring : RingId) (s : State) : Host.Outcome State Fault Refusal := .next (frontEndReady ring s)
def execRingQuiesced (ring : RingId) (s : State) : Host.Outcome State Fault Refusal := .next (quiesceRing ring s)
def execRingAccessFault (ring : RingId) (s : State) : Host.Outcome State Fault Refusal := .next (accessFault ring s)
def execHoldoffExpiry (cq : Fin 16) (s : State) : Host.Outcome State Fault Refusal := .next (endHoldoff cq s)
def execUndefinedOpcode (opcode : Half) (e : Entry) (s : State) : Host.Outcome State Fault Refusal :=
  .next (undefinedOp opcode.toNat e s)
def execRelayRsp (entry : Vector Byte 64) (sq : Fin 16) (event : Bool) (s : State) :
    Host.Outcome State Fault Refusal := .next (relayReply entry.toList sq event s)
def execTickDone (row : DWord) (s : State) : Host.Outcome State Fault Refusal := .next (twinTickDone row s)
/-- SHUSKAUB_PCIE_LINK_UP (R85): in a build whose function is Shuskaub's, management may come up after step 9. -/
def execShuskaubPcieLinkUp (s : State) : Host.Outcome State Fault Refusal :=
  let s := { s with shusPcieUp := true }
  .next (if s.boot.phase = .done ∧ !s.selv.ready ∧ s.mgmtPresent then s.stepNine true else s)
/-- SHUSKAUB_PCIE_LINK_DOWN (R46). -/
def execShuskaubPcieLinkDown (s : State) : Host.Outcome State Fault Refusal :=
  let s := { s with shusPcieUp := false }
  .next (if s.fuses.shusPcie then resetFunction 0 s else s)

end Sys2Proof.Machine
end

