-- ==== Sys2Proof/Machine/Ports.lean ====
section
/-! DEFINITION. Edge ports (03): the states of R61, roles and training (R35 to R39), retry and repair (R56, R57), routing
(R59), messages (R60), self-refresh (14 R386), stack errors (R383), twin windows and chain ends (R66, 09 R254). -/
namespace Sys2Proof.Machine
open Sys2Proof

/-- Sticky EDGE_EVENTS bits set; new ones post PORT_EVENT (R67, R120). -/
def State.edgeEvent (s : State) (p : Fin 10) (bits : Word) : State :=
  let new := bits &&& ~~~(s.ports[p].events)
  let s := s.modPort p fun e => { e with events := e.events ||| bits }
  if new = 0 then s
  else s.event 0x04 p.val (if new.getLsbD 3 then stPortLost else stOk) (new.setWidth 64)

/-- GAUGE_EVENTS.RATE_CHANGE (09 R256): not at SLEEP entry, nor on a return to the rate from before SLEEP; a retrain
changes no rate (R38). -/
def State.noteRate (s : State) (p : Fin 10) : State :=
  let e := s.ports[p]
  let r := s.rateGb p
  if e.st = .sleep ∨ e.st = .mbTrain ∨ e.st = .creditInit ∨ e.st = .retrain ∨ e.credited = r then s
  else
    let s := s.modPort p fun e => { e with credited := r }
    if s.selv.ready then { s with gauge := { s.gauge with events := setBit s.gauge.events 1 } } else s

/-- The routing of a stack brought to its port states once no request is outstanding on a port whose slices move
(R59). -/
def State.tryReroute (s : State) (b : Fin 4) : State :=
  let n := s.routes b
  let t := s.stack[b]
  let busy (p : Option (Fin 10)) : Bool := match p with
    | some p => s.accesses.any fun a => decide (a.path = .port p)
    | none => false
  let moved := (if n.1 = t.routeLo then [] else [t.routeLo]) ++ if n.2 = t.routeHi then [] else [t.routeHi]
  if moved.any busy then s else s.reroute b

/-- Lanes newly in use recorded once each (19 R504). A lane's number is port · 16 + its bit in EDGE_REPAIR_MAP. -/
def State.noteLanes (s : State) (p : Fin 10) (map : Half) : State :=
  let s := (List.range 16).foldl (fun s i =>
    if map.getLsbD i && !(s.ports[p].repairMap.getLsbD i) then s.addEntry 3 (16 * p.val + i) 0 0xFF else s) s
  s.modPort p fun e => { e with repairMap := e.repairMap ||| map.setWidth 32 }

/-- A role that is not confirmed (R35). -/
def State.mismatch (s : State) (p : Fin 10) : State :=
  ((s.modPort p fun e => { e with st := .down, mismatch := true }).edgeEvent p 0x88).portMoved

/-- A PORT_REENABLE that waits for a port answered (R166). -/
def State.answerReenable (s : State) (p : Fin 10) (status : Nat) : State :=
  match s.jobs.find? fun j => decide (j.2.1 = 0x603 ∧ leAt j.2.2 0 1 = p.val) with
  | some j => s.reply j.1 status 0 (if status = stOk then [(20, 4, (s.edgeRead p 4).toNat)] else [])
  | none => s

/-- A port enters ACTIVE or DEGRADED (R39, R61): its stack leaves self-refresh (R386) and routes follow; where the device has
turned back to Selvage or Sentinel meanwhile, the stack is sent to self-refresh again (R87, R90). -/
def State.portRises (s : State) (p : Fin 10) : State :=
  let s := s.modPort p fun e => { e with
    st := if e.modules = 3 then .active else .degraded
    retryTally := 0, nextSend := 0, nextRecv := 0, farAcked := 0x3FF, unacked := 0, retryBuf := [], rx := [] }
  let s := s.noteRate p
  let s := if s.fuses.ports[p].role = .stack then
      let b := s.fuses.ports[p].stack
      let s := (s.modStack b fun t => { t with sref := false }).tryReroute b
      if s.srefState then s.srefWant b else s
    else s
  ((s.portMoved).answerReenable p stOk).flow p

/-- SIDEBAND_UP (R61, R70): in the ROM's step 3 the port waits with its sideband up; later it announces its role. -/
def sidebandUp (p : Fin 10) (s : State) : State :=
  if s.ports[p].st ≠ .sbInit then s
  else
    let s := s.modPort p fun e => { e with sideband := true }
    match s.boot.phase with
    | .fetching _ => s
    | .noImage => s
    | .countOff _ => s
    | _ => s.announce p
/-- Whether the far side's class answers the port's role (R35). -/
def Fuses.answers (f : Fuses) (r : Role) (cls : BitVec 3) (primary : Bool) : Bool :=
  match r with
  | .stack => decide (cls = 2)
  | .shus => decide (cls = 3)
  | .twin => decide (cls = 4) && (primary != f.primary)
  | _ => false
/-- ROLE_ACK (R35). -/
def roleAck (p : Fin 10) (cls : BitVec 3) (primary : Bool) (s : State) : State :=
  if s.ports[p].st ≠ .roleCheck then s
  else
    let s := s.modPort p fun e => { e with farClass := cls }
    if s.fuses.answers s.fuses.ports[p].role cls primary then
      s.modPort p fun e => { e with confirmed := true, st := .mbTrain }
    else s.mismatch p
/-- ROLE_CHECK_TIMEOUT (R35): silence confirms a HOST port that offers the PCIe flit mode. -/
def roleTimeout (p : Fin 10) (flit : Bool) (s : State) : State :=
  if s.ports[p].st ≠ .roleCheck then s
  else if s.fuses.ports[p].role = .host ∧ flit then
    s.modPort p fun e => { e with farClass := 1, confirmed := true, st := .mbTrain }
  else s.mismatch p

/-- The credits Lumaz advertises, as six half words (R53). -/
def ownCredits : List Byte := [256, 512, 8, 8, 32, 224].flatMap fun n => leBytes 2 n
/-- CREDIT_INIT (R53, R61). -/
def creditInit (p : Fin 10) (c : Credits) (s : State) : State :=
  if s.ports[p].st = .creditInit ∧ s.fuses.ports[p].role ≠ .host then
    (s.modPort p fun e => { e with far := c, advert := c }).portRises p
  else s
/-- PCIE_LINK_UP (R61). -/
def pcieUp (p : Fin 10) (s : State) : State :=
  if s.ports[p].st = .creditInit ∧ s.fuses.ports[p].role = .host then s.portRises p else s

/-! ### Retry and repair (R56, R57) -/

/-- ACK_TIMER (R56). -/
def ackTimer (p : Fin 10) (s : State) : State :=
  if s.ports[p].unacked = 0 ∨ !s.portUp p then s
  else (s.modPort p fun e => { e with unacked := 0 }).emit (.ack p false (s.ports[p].nextRecv - 1))
/-- Flits up to an acknowledged number dropped from the retry buffer (R56); the last flit kept is nextSend - 1. -/
def EdgePort.acked (e : EdgePort) (aseq : BitVec 10) : EdgePort :=
  { e with retryBuf := e.retryBuf.drop (e.retryBuf.length - (e.nextSend - 1 - aseq).toNat), farAcked := aseq }
/-- NAK_RECEIVED (R56): everything after ASEQ is replayed and counts one retry. -/
def nakReceived (p : Fin 10) (aseq : BitVec 10) (s : State) : State :=
  if !s.portUp p ∨ s.fuses.ports[p].role = .host then s
  else
    let s := s.modPort p fun e =>
      { e.acked aseq with retryCount := satAdd e.retryCount 1, retryTally := e.retryTally + 1 }
    ((s.edgeEvent p 1).emit (.replay p (aseq + 1) s.ports[p].retryBuf)).flow p
/-- A run-time retrain begins (R57). -/
def State.retrain (s : State) (p : Fin 10) : State :=
  if s.portUp p then s.modPort p fun e => { e with st := .retrain } else s
/-- RETRY_LIMIT_CROSSED (R57): on a HOST port the UCIe adapter keeps its own tally. -/
def limitCrossed (p : Fin 10) (s : State) : State :=
  if s.fuses.ports[p].role = .host ∨ s.ports[p].retryLimit.toNat < s.ports[p].retryTally then s.retrain p else s
/-- LANE_REPAIR_DONE (R57): the retry buffer is replayed and traffic resumes. -/
def repairDone (p : Fin 10) (modules : BitVec 2) (map : Half) (spike : Word) (s : State) : State :=
  if s.ports[p].st ≠ .retrain ∨ modules = 0 then s
  else
    let lost := s.ports[p].modules &&& ~~~modules
    let s := s.noteLanes p map
    let s := s.modPort p fun e => { e with
      st := if modules = 3 then .active else .degraded
      modules := modules, spikeLast := spike, retrainReq := false, retryTally := 0 }
    let s := s.edgeEvent p (if lost = 0 then 2 else 6)
    let s := ((s.noteRate p).emit (.replay p (s.ports[p].farAcked + 1) s.ports[p].retryBuf)).flow p
    if s.fuses.ports[p].role = .stack then (s.tryReroute s.fuses.ports[p].stack).trySref s.fuses.ports[p].stack else s

/-! ### Losing a port (R58) -/

/-- Whether bytes of a window lie on a stack. -/
def State.windowOn (s : State) (b : Fin 4) (w : Window) : Bool :=
  s.region w.base = .stack &&
  (let n := s.nStacks
   let i0 := (w.base - stackBase) / 0x40000000
   let i1 := (w.base + w.size - 1 - stackBase) / 0x40000000
   (List.range (i1 + 1 - i0)).any fun k =>
     !s.localMap.getLsbD ((i0 + k) / n) || decide ((i0 + k) % n = s.presentStacks.idxOf b))
/-- A stack marked lost (R58, R385, R386). -/
def State.loseStack (s : State) (b : Fin 4) : State :=
  (s.modStack b fun t => { t with lost := true, events := setBit t.events 2, routeLo := none, routeHi := none }).selvFault 10
/-- The hold of R58: swatches whose windows need the port. A stack goes on through its other port, also while that one
retrains (R57). -/
def State.portLostHolds (s : State) (p : Fin 10) : State :=
  match s.fuses.ports[p].role with
  | .stack =>
    let b := s.fuses.ports[p].stack
    if (s.stackPorts b).any s.portCarries then s
    else (s.loseStack b).holdAll (fun w => w.isCast && w.windows.any (s.windowOn b)) stPortLost
  | .host => if s.hostPath.isSome then s else s.holdAll (fun w => w.isCast && w.hostWindow) stPortLost
  | .shus => if s.fuses.shusPcie then s.holdAll (fun w => w.isCast && w.hostWindow) stPortLost else s
  | .twin => if s.twinPort.isSome then s
    else s.holdAll (fun w => w.isCast && w.windows.any fun x => decide (s.region x.base = .twin)) stPortLost
  | .none => s

/-! ### Self-refresh (R386) -/

/-- SREF_ACK (R61, R386). -/
def srefAck (p : Fin 10) (s : State) : State :=
  match s.ports[p].sref with
  | .entering _ =>
    if s.portUp p then s.modPort p fun e => { e with st := .sleep, sref := .none, modules := 0 } else s
  | .exiting _ => s.modPort p fun e => { e with st := .mbTrain, sref := .none }
  | _ => s
/-- SREF_ACK_TIMEOUT (R386): sent once more, then the stack is lost and the transition goes on. -/
def srefSilent (p : Fin 10) (s : State) : State :=
  let again (resent exit : Bool) : State :=
    let b := s.fuses.ports[p].stack
    if !resent then
      (s.modPort p fun e => { e with sref := if exit then .exiting true else .entering true }).emit (srefMsg p exit)
    else
      ((s.modPort p fun e => { e with sref := .none }).modStack b fun t => { t with events := setBit t.events 3 }).loseStack b
  match s.ports[p].sref with
  | .entering r => again r false
  | .exiting r => again r true
  | _ => s

/-! ### Stack messages (R60, R383, R527) -/

/-- TEMP (R527). -/
def stackTemp (p : Fin 10) (c : Half) (s : State) : State :=
  if s.fuses.ports[p].role ≠ .stack then s
  else
    let b := s.fuses.ports[p].stack
    (s.modStack b fun t => { t with temp := c }).modSelv fun v => { v with
      readings := v.readings.map fun r => { r with stackT := upd r.stackT b fun _ => c } }
/-- ECC_CORR (R383). -/
def eccCorrected (p : Fin 10) (n : Half) (s : State) : State :=
  if s.fuses.ports[p].role ≠ .stack then s
  else s.modStack s.fuses.ports[p].stack fun t => { t with
    eccCorr := satAdd t.eccCorr n.toNat, events := setBit t.events 0 }
/-- ECC_UNCORR (R383): the granule stays uncorrectable until a whole write, its page retires when freed, and MEDIA_ERROR is
posted. -/
def eccUncorrected (p : Fin 10) (off : Nat) (s : State) : State :=
  if s.fuses.ports[p].role ≠ .stack then s
  else
    let b := s.fuses.ports[p].stack
    let s := s.modStack b fun t => { t with
      eccUncorr := satAdd t.eccUncorr 1, uncorrLast := BitVec.ofNat 64 off, events := setBit t.events 1 }
    let s := if s.stack[b].present then
        let a := s.addrOf b off / 32 * 32
        { s with poison := if s.poison.contains a then s.poison else s.poison ++ [a],
                 badPages := if s.badPages.contains a then s.badPages else s.badPages ++ [a] }
      else s
    s.event 0x08 b.val stMediaError

/-! ### The twin's windows and chain ends -/

/-- TWIN_WINDOW (R66): a range registered after the check of R381, or a release with its pages zeroed and freed. -/
def twinWindow (sender : Fin 8) (base size : Nat) (kind : Fin 4) (rights : BitVec 3) (s : State) : State :=
  if size = 0 then
    let gone := s.twinWins.filter fun w => decide (w.sender = sender ∧ w.base = base)
    let s := { s with twinWins := s.twinWins.filter fun w => !decide (w.sender = sender ∧ w.base = base) }
    gone.foldl (fun s w => if w.kind = 0 then s.release (pageOf w.base) (w.size / pageSize) else s) s
  else
    let p0 := pageOf base
    let n := (size + pageSize - 1) / pageSize
    let whole := decide (base % pageSize = 0 ∧ size % pageSize = 0) && decide (s.region base = .stack) &&
      decide (s.region (base + size - 1) = .stack)
    let held := rangeAll s.pages p0 n fun st => match st with | .hostHeld _ => true | _ => false
    let front := s.castList.any fun i => s.swatches[i].windows.any fun x =>
      decide (x.kind = 1) && within base size x.base x.size
    let clash := s.castList.any fun i => s.swatches[i].windows.any fun x =>
      decide (x.kind.val ≤ 1 ∨ kind = 0) && overlaps base size x.base x.size
    let w : TwinWin := ⟨sender, base, size, kind, rights⟩
    if !whole then s
    else if kind = 0 ∧ held ∧ !clash then
      { s with twinWins := s.twinWins ++ [w], pages := putRun s.pages p0 n (.twinHeld sender rights) }
    else if kind = 2 ∧ ((held ∧ !clash) ∨ front) then { s with twinWins := s.twinWins ++ [w] }
    else s
/-- TWIN_CHAIN (09 R254). -/
def twinChainEnd (chain : Byte) (pos : BitVec 12) (sw : Fin 8) (tenant : Byte) (withdraw : Bool) (s : State) : State :=
  let keep := s.twinChains.filter fun c => !decide (c.chain = chain ∧ c.position = pos)
  let s : State := { s with twinChains := if withdraw then keep else keep ++ [⟨chain, pos, sw, tenant⟩] }
  let mine (c : Chan) : Bool := decide (c.chain = chain ∧ c.position = pos)
  if withdraw then
    let stop (f : ChanFifo) : ChanFifo := match s.chanRec f.swatch f.chan with
      | some c => if c.link = 5 ∧ mine c then { f with credits := 0 } else f
      | none => f
    { s with chans := s.chans.map stop }
  else (allFin 8).foldl (fun s i => s.grantTwin i mine) s

/-- PORT_REENABLE (06 R165, R166): a port whose role was not confirmed stays DOWN until the next start-up (R35), and the
command is refused as for a port that is not DOWN (log 160). -/
def cmdPortReenable : Cmd where
  op := 0x603
  target := 0
  used := [(8, 1)]
  bad := fun e _ => if e.u 8 1 ≤ 9 then [] else [8]
  deny := fun e s => s.granted 4 (e.u 8 1)
  state := fun e s =>
    if !s.selv.st.working then some 0
    else if !s.castList.isEmpty then some 1
    else
      let x := s.ports[Fin.ofNat 10 (e.u 8 1)]
      if x.st = .down ∧ !x.mismatch then none else some 2
  act := fun r e s => (s.inFlight r 0x603 e).modPort (Fin.ofNat 10 (e.u 8 1)) fun x => { x with
    st := .sbInit, sideband := false, confirmed := false, rate := 0, modules := 0 }

/-! ### The rows -/

def execSidebandUp (port : Fin 10) (s : State) : Host.Outcome State Fault Refusal := .next (sidebandUp port s)
/-- SB_INIT_TIMEOUT (R61). -/
def execSbInitTimeout (port : Fin 10) (s : State) : Host.Outcome State Fault Refusal :=
  .next (if s.ports[port].st = .sbInit ∧ !s.ports[port].sideband then s.mismatch port else s)
def execRoleAck (port : Fin 10) (dieClass : BitVec 3) (primary : Bool) (s : State) :
    Host.Outcome State Fault Refusal := .next (roleAck port dieClass primary s)
def execRoleCheckTimeout (port : Fin 10) (pcieFlit : Bool) (s : State) : Host.Outcome State Fault Refusal :=
  .next (roleTimeout port pcieFlit s)
def execCreditInit (port : Fin 10) (credits : Credits) (s : State) : Host.Outcome State Fault Refusal :=
  .next (creditInit port credits s)
def execPcieLinkUp (port : Fin 10) (s : State) : Host.Outcome State Fault Refusal := .next (pcieUp port s)
def execAckTimer (port : Fin 10) (s : State) : Host.Outcome State Fault Refusal := .next (ackTimer port s)
def execNakReceived (port : Fin 10) (aseq : BitVec 10) (s : State) : Host.Outcome State Fault Refusal :=
  .next (nakReceived port aseq s)
def execRetryLimitCrossed (port : Fin 10) (s : State) : Host.Outcome State Fault Refusal := .next (limitCrossed port s)
/-- RETRY_INTERVAL_END (R57). -/
def execRetryIntervalEnd (port : Fin 10) (s : State) : Host.Outcome State Fault Refusal :=
  .next (s.modPort port fun e => { e with retryTally := 0 })
def execLaneRepairDone (port : Fin 10) (modules : BitVec 2) (repair : Half) (spike : Word) (s : State) :
    Host.Outcome State Fault Refusal := .next (repairDone port modules repair spike s)
def execStackPortReroute (stack : Fin 4) (s : State) : Host.Outcome State Fault Refusal := .next (s.tryReroute stack)
/-- UNKNOWN_MESSAGE (R60). -/
def execUnknownMessage (port : Fin 10) (_code : Half) (s : State) : Host.Outcome State Fault Refusal :=
  .next (s.edgeEvent port 0x40)
def execSrefAck (port : Fin 10) (s : State) : Host.Outcome State Fault Refusal := .next (srefAck port s)
def execSrefAckTimeout (port : Fin 10) (s : State) : Host.Outcome State Fault Refusal := .next (srefSilent port s)
def execTemp (port : Fin 10) (celsius : Half) (s : State) : Host.Outcome State Fault Refusal :=
  .next (stackTemp port celsius s)
def execEccCorr (port : Fin 10) (count : Half) (_offset : BitVec 40) (s : State) : Host.Outcome State Fault Refusal :=
  .next (eccCorrected port count s)
def execEccUncorr (port : Fin 10) (offset : BitVec 40) (s : State) : Host.Outcome State Fault Refusal :=
  .next (eccUncorrected port offset.toNat s)
/-- IRQ (R60, R45): Shuskaub signals the vector on its endpoint. -/
def execIrq (vector : Fin 64) (s : State) : Host.Outcome State Fault Refusal :=
  .next (if s.fuses.shusPcie then s.emit (.msix 0 vector) else s)
def execTwinWindow (sender : Fin 8) (base size : BitVec 48) (kind : Fin 4) (rights : BitVec 3) (s : State) :
    Host.Outcome State Fault Refusal := .next (twinWindow sender base.toNat size.toNat kind rights s)
def execTwinChain (chain : Byte) (position : BitVec 12) (swatch : Fin 8) (tenant : Byte) (withdraw : Bool) (s : State) :
    Host.Outcome State Fault Refusal := .next (twinChainEnd chain position swatch tenant withdraw s)
def execPortReenable (e : Entry) (s : State) : Host.Outcome State Fault Refusal := .next (cmdPortReenable.dispatch e s)

end Sys2Proof.Machine
end

