-- ==== Sys2Proof/Machine/Swatches.lean ====
section
/-! DEFINITION. Swatch commands (06 R150 to R155): cast with its window and admission checks (07 R188, 14 R381), KNIT,
hold and restore (07 R194 to R198), bind-off (R179), P-point and gauge, distaff cores, drafts (08 R212 to R215). -/
namespace Sys2Proof.Machine
open Sys2Proof

/-! ### Objects in memory (R138, R143) -/

/-- The address of an object: a host bus address for a host-owned ring, a yarn address for a distaff-owned one. -/
def State.objKey (s : State) (q : Fin 16) (a : Nat) : Nat := if s.sqs[q].distaffOwned then a else hostBase + a
/-- Whether an object can be read or written. -/
def State.objOk (s : State) (q : Fin 16) (a n : Nat) : Bool :=
  if s.sqs[q].distaffOwned then
    s.ringPrivate s.sqs[q].scope a n && !(s.region a = .stack && (s.anyBad a n || s.inSref a))
  else decide (a + n ≤ hostBase) && (s.hostPath.isSome || !s.fuses.primary)
/-- The bytes of an object. -/
def State.objRead (s : State) (q : Fin 16) (a n : Nat) : List Byte := memRead s.mem (s.objKey q a) n
/-- An object written. -/
def State.objWrite (s : State) (q : Fin 16) (a : Nat) (bs : List Byte) : State :=
  s.put (s.objKey q a) (bs.map some)

/-- The target's swatch in one of some states; DETAIL 1 otherwise. -/
def State.swIn (s : State) (e : Entry) (sts : List SwSt) : Option Nat :=
  match e.target with
  | some i => if sts.contains s.swatches[i].st then none else some 1
  | none => none
/-- Device states in which a command is legal; DETAIL 0 otherwise. -/
def State.devIn (s : State) (l : List DevSt) : Option Nat := if l.contains s.selv.st then none else some 0
def casted : List SwSt := [.cast, .knitting, .frogged, .held]
def loTaBu : List DevSt := [.loose, .taut, .burst]
def seLoTaBu : List DevSt := [.sentinel, .loose, .taut, .burst]
/-- The first of several answers. -/
def firstOf (l : List (Option Nat)) : Option Nat := l.findSome? id
/-- A swatch command's effect on its target. -/
def onTarget (f : CmdRef → Entry → Fin 8 → State → State) (r : CmdRef) (e : Entry) (s : State) : State :=
  match e.target with
  | some i => f r e i s
  | none => s

/-! ### Cast (R150, R151, R381) -/

/-- A window record (R150): none where KIND, RIGHTS or a write-0 byte is out of range. -/
def winRecord (b : List Byte) : Option Window :=
  let k := leAt b 16 1
  let r := leAt b 17 1
  if h : k < 4 then
    if r < 8 ∧ (slice b 18 14).all (· = 0) then some ⟨leAt b 0 8, leAt b 8 8, ⟨k, h⟩, BitVec.ofNat 3 r⟩ else none
  else none
/-- A list of answers, if every one is there. -/
def allSome {α : Type} : List (Option α) → Option (List α)
  | [] => some []
  | none :: _ => none
  | some a :: l => (allSome l).map (a :: ·)
/-- The windows of a cast. -/
def winList (b : List Byte) (n : Nat) : Option (List Window) :=
  allSome ((List.range n).map fun i => winRecord (slice b (32 * i) 32))

/-- The pages a window needs: both copies of a shared hank. -/
def Window.pages (x : Window) : Nat × Nat := (pageOf x.base, (if x.kind = 1 then 2 else 1) * (x.size / pageSize))
/-- A range lies wholly in stack memory. -/
def State.inStack (s : State) (a n : Nat) : Bool := decide (s.region a = .stack) && decide (s.region (a + n - 1) = .stack)
/-- Whether pages are host-held, or held by another cast swatch, which the overlap rule decides (R381). -/
def State.pagesOk (s : State) (base count : Nat) : Bool :=
  rangeAll s.pages base count fun st => match st with
    | .hostHeld _ => true
    | .swatchHeld _ _ => true
    | _ => false
/-- Whether a window record meets the table of R381 for a rectangle. -/
def State.winOk (s : State) (c0 w0 cm wm : Nat) (x : Window) : Bool :=
  let stores : Bool := (List.range ((x.size + 0x3FFFFF) / 0x400000)).all fun k =>
    match s.region (x.base + min (x.size - 1) (k * 0x400000)), s.region (x.base + x.size - 1) with
    | .store a, .store b => inRect c0 w0 cm wm a && inRect c0 w0 cm wm b
    | _, _ => false
  let twin : Bool := s.fuses.twin && within x.base x.size twinBase 0x4000000000
  let noStack := decide (s.nStacks = 0)
  let held : Bool := s.inStack x.base (x.pages.2 * pageSize) && s.pagesOk x.pages.1 x.pages.2
  let sized : Bool := decide (0 < x.size ∧ x.base % pageSize = 0 ∧ x.size % pageSize = 0)
  sized && match x.kind.val with
    | 0 => (!x.rights.getLsbD 2 || x.rights.getLsbD 1) && (stores || (!noStack && (held || twin)))
    | 1 => held
    | 2 => (x.rights &&& 6) = 0 && !noStack &&
        (held || twin || (within x.base x.size viewBase 0xA00000000))
    | _ => !x.rights.getLsbD 2 && !noStack && decide (s.region x.base = .host) && within x.base x.size hostBase hostBase
/-- No two windows of a list overlap. -/
def winsApart : List Window → Bool
  | [] => true
  | x :: l => l.all (fun y => !overlaps x.base (x.pages.2 * pageSize) y.base (y.pages.2 * pageSize) ||
      decide (x.kind = 3 ∨ y.kind = 3) && !overlaps x.base x.size y.base y.size) && winsApart l
/-- A window that clashes with one of another cast swatch (R381): private against any, but for a read window over the
front range of a shared hank. -/
def winClash (x y : Window) : Bool :=
  let xp := decide (x.kind.val ≤ 1)
  let yp := decide (y.kind.val ≤ 1)
  let front : Bool := (decide (x.kind = 2 ∧ y.kind = 1) && within x.base x.size y.base y.size) ||
    (decide (x.kind = 1 ∧ y.kind = 2) && within y.base y.size x.base x.size)
  (xp || yp) && overlaps x.base (x.pages.2 * pageSize) y.base (y.pages.2 * pageSize) && !front

/-- The fields of a cast. -/
structure CastReq where
  c0 : Nat
  w0 : Nat
  cs : Nat
  ws : Nat
  cls : Nat
  pp : Nat
  near : Nat
  prio : Nat
  share : Nat
  tenant : Nat
  nwin : Nat
  budget : Nat
  list : Nat
deriving DecidableEq, Repr
def castReq (e : Entry) : CastReq :=
  ⟨e.u 8 1, e.u 9 1, e.u 10 1, e.u 11 1, e.u 12 1, e.u 13 1, e.u 14 1, e.u 15 1, e.u 16 2, e.u 18 1, e.u 19 1, e.u 20 4,
   e.u 24 8⟩
/-- Fields of a cast out of range (R150). -/
def castBad (e : Entry) (s : State) : List Nat :=
  let q := castReq e
  let chk (ok : Bool) (o : Nat) : List Nat := if ok then [] else [o]
  chk (decide (q.c0 ≤ 3)) 8 ++ chk (decide (q.w0 ≤ 3)) 9 ++ chk (decide (1 ≤ q.cs ∧ q.c0 + q.cs ≤ 4)) 10 ++
  chk (decide (1 ≤ q.ws ∧ q.w0 + q.ws ≤ 4)) 11 ++ chk (decide (q.cls ≤ 2)) 12 ++
  chk (decide (q.pp ≤ 3 ∧ ¬(q.pp = 3 ∧ q.cls = 0))) 13 ++ chk (decide (q.near ≤ 1 ∧ ¬(q.near = 1 ∧ q.cls = 0))) 14 ++
  chk (decide (q.prio ≤ 3)) 15 ++ chk (decide (1 ≤ q.share ∧ q.share ≤ 256)) 16 ++
  chk (decide (1 ≤ q.nwin ∧ q.nwin ≤ 16)) 19 ++
  chk (if q.cls = 0 then decide (1 ≤ q.budget ∧ q.budget ≤ s.tick.period.toNat) else decide (q.budget = 0)) 20 ++
  chk (decide (q.list % 32 = 0)) 24
/-- The windows a cast names. -/
def State.castWins (s : State) (e : Entry) : Option (List Window) :=
  winList (s.objRead e.sq (castReq e).list (32 * (castReq e).nwin)) (castReq e).nwin
/-- The object check of a cast (R143, R381). -/
def castObject (e : Entry) (s : State) : Option Nat :=
  let q := castReq e
  if !s.objOk e.sq q.list (32 * q.nwin) then some 0xFE
  else match s.castWins e with
    | none => some 0xFD
    | some ws => if ws.all (s.winOk q.c0 q.w0 (q.cs - 1) (q.ws - 1)) && winsApart ws then none else some 0xFD
/-- The skeins of a cast's rectangle. -/
def CastReq.skeins (q : CastReq) : List (Fin 16) := (allFin 16).filter (inRect q.c0 q.w0 (q.cs - 1) (q.ws - 1))
/-- A cast that needs a block of another grantee (R130). -/
def castDeny (e : Entry) (s : State) : Bool :=
  (castReq e).skeins.any fun k => s.granted 1 k.val || s.granted 2 k.val || s.granted 3 k.val
/-- STATE_CONFLICT of a cast (R151, R88, R500): swatch, device state, absent service, grid; from the acceptance of
RESTART no swatch is cast, since the map is rebuilt (R23, log 148). -/
def castState (e : Entry) (s : State) : Option Nat :=
  let q := castReq e
  let k := s.sentinelSkein
  let wins := (s.castWins e).getD []
  let senOk : Bool := s.castList.isEmpty && decide (q.skeins = [k] ∧ q.pp = 0) &&
    wins.all fun x => within x.base x.size (0x400000 * k.val) 0x400000
  firstOf [if s.rep.run.isSome ∨ s.selv.restartCmd = true then some 2 else none, s.swIn e [.unset], s.devIn seLoTaBu,
    if s.selv.st = .sentinel ∧ !senOk then some 0 else none,
    if s.selv.computeOk then none else some 3,
    if q.skeins.all s.skeinIn then none else some 2]

/-- Whether a swatch has a window in stack memory. -/
def State.usesStack (s : State) (ws : List Window) : Bool := ws.any fun x => decide (s.region x.base = .stack)
/-- A swatch as admission sees it: its number, ROW_BUDGET, windows and skeins. -/
structure Admit where
  num : Nat
  budget : Nat
  wins : List Window
  size : Nat
deriving DecidableEq, Repr
/-- The cast hard swatches as admission sees them. -/
def State.admitted (s : State) : List Admit :=
  (s.castList.filter fun i => s.swatches[i].cls = .hard).map fun i =>
    ⟨i.val, s.swatches[i].budget.toNat, s.swatches[i].windows, s.swatches[i].size⟩
/-- Usable rate of the stack ports [GB/s], in each direction; a retrain changes no rate (R38). -/
def State.stackRate (s : State) : Nat :=
  sumN ((s.portsOf .stack).map fun p => if s.ports[p].st = .retrain then s.ports[p].credited else s.rateGb p)
/-- Condition 3 of R188 for some hard swatches. -/
def State.rateOk (s : State) (l : List Admit) : Bool :=
  let n := sumN (l.map Admit.size)
  !(l.any fun a => s.usesStack a.wins) || decide (4 * 256 * n ≤ 3 * s.stackRate ∧ 4 * 128 * n ≤ 3 * s.stackRate)
/-- Admission (R188) in ascending swatch number: the first swatch that fails; condition 3 is charged to the new swatch of
a cast, and without one fails every hard swatch. -/
def State.admission (s : State) (l : List Admit) (period : Nat) (new : Option Nat) : Option Nat :=
  let one (a : Admit) : Bool := decide (a.budget + 200 ≤ period) && !(a.wins.any fun x => decide (x.kind = 3))
  let rate (a : Admit) : Bool := s.rateOk l || (new.isSome && new != some a.num)
  (l.find? fun a => !(one a && rate a)).map Admit.num

/-- SHARE of the cast swatches of a priority level, with the management class on level 3 (R236). -/
def State.shareSum (s : State) (p : Nat) : Nat :=
  (if p = 3 then 16 else 0) +
  sumN ((s.castList.filter fun i => s.swatches[i].prio.toNat = p).map fun i => s.swatches[i].shareM1.toNat + 1)
/-- Resource checks of a cast (R151, R123 step 5): admission, overlap, share, windows, save area, the other die's
check (R66; log 11). -/
def castRes (e : Entry) (s : State) : Option (Nat × Nat) :=
  let q := castReq e
  let wins := (s.castWins e).getD []
  let num := e.swatch.toNat
  let mine : Admit := ⟨num, q.budget, wins, q.cs * q.ws⟩
  let l := (s.admitted.filter fun a => decide (a.num < num)) ++ [mine] ++ s.admitted.filter fun a => decide (num < a.num)
  let adm : Option Nat := if q.cls = 0 then s.admission l s.tick.period.toNat (some num) else none
  let twin : Bool := wins.any fun x => decide (twinBase ≤ x.base ∧ x.base < hostBase)
  match adm with
  | some n => some (stAdmission, n)
  | none =>
    if q.skeins.any (fun k => (s.swatchOf k).isSome) then some (stNoResource, 1)
    else if 256 < s.shareSum q.prio + q.share then some (stNoResource, 2)
    else if s.castList.any (fun i => s.swatches[i].windows.any fun y => wins.any fun x => winClash x y) ||
        (twin && s.freeVal.getLsbD 0) then some (stNoResource, 3)
    else if s.nStacks ≠ 0 ∧ (allocUniform s (84 * q.skeins.length)).isNone then some (stNoResource, 4)
    else none

/-- TWIN_WINDOW (R60, R66): the sending swatch, base and size in the other die's map, KIND and RIGHTS. -/
def twinWinMsg (i : Fin 8) (base size : Nat) (kind rights : Nat) : List Byte :=
  padTo 32 ([BitVec.ofNat 8 i.val, BitVec.ofNat 8 kind, BitVec.ofNat 8 rights, 0] ++ leBytes 4 0 ++
    leBytes 8 base ++ leBytes 8 size)
/-- Every twin window of a swatch announced, or released with size 0. -/
def State.sendTwinWins (s : State) (i : Fin 8) (ws : List Window) (gone : Bool) : State :=
  match s.twinPort with
  | some p => (ws.filter fun x => decide (twinBase ≤ x.base ∧ x.base < hostBase)).foldl (fun s x =>
      s.sendMsg p 0x32 (twinWinMsg i (x.base - twinBase) (if gone then 0 else x.size) x.kind.val x.rights.toNat)) s
  | none => s

/-- The routers and links of a rectangle given to a swatch (R244, R250): links that cross its edge are off. -/
def State.setRouters (s : State) (i : Fin 8) (q : CastReq) : State :=
  let lastC := q.c0 + q.cs - 1
  let lastW := q.w0 + q.ws - 1
  { s with skeins := mapV s.skeins fun k x =>
      if inRect q.c0 q.w0 (q.cs - 1) (q.ws - 1) k then
        { x with
          mesh := { MeshUnit.reset with
            swatch := some i, course0 := Fin.ofNat 4 q.c0, wale0 := Fin.ofNat 4 q.w0,
            coursesM1 := Fin.ofNat 4 (q.cs - 1), walesM1 := Fin.ofNat 4 (q.ws - 1),
            events := x.mesh.events, dropCount := x.mesh.dropCount, dropLast := x.mesh.dropLast }
          stch := { x.stch with links := BitVec.ofNat 4 (b2n (decide (q.c0 < (courseOf k).val)) +
            2 * b2n (decide ((waleOf k).val < lastW)) + 4 * b2n (decide ((courseOf k).val < lastC)) +
            8 * b2n (decide (q.w0 < (waleOf k).val))) } }
      else x }

/-- CAST_SWATCH's effect (R151, R194, R196, R381). -/
def State.castNow (s : State) (i : Fin 8) (q : CastReq) (wins : List Window) : State :=
  let area := 84 * q.skeins.length
  let got : Nat × State := if s.nStacks = 0 then (0, s) else (s.takeFirmware area (some i)).getD (0, s)
  let s : State := got.2
  let claim (st : PageSt) : PageSt := match st with
    | .hostHeld id => .swatchHeld i id
    | x => x
  let mine := wins.filter fun x => decide (x.kind.val ≤ 1) && decide (s.region x.base = .stack)
  let runs := mine.foldl (fun rs x => mapRuns rs x.pages.1 x.pages.2 claim) s.pages
  let s : State := { s with pages := runs }
  let w : Swatch := { Swatch.unset with
    st := .cast
    course0 := Fin.ofNat 4 q.c0, wale0 := Fin.ofNat 4 q.w0
    coursesM1 := Fin.ofNat 4 (q.cs - 1), walesM1 := Fin.ofNat 4 (q.ws - 1)
    cls := if q.cls = 0 then .hard else if q.cls = 1 then .loose else .free
    ppoint := BitVec.ofNat 2 q.pp, near := decide (q.near = 1)
    prio := BitVec.ofNat 2 q.prio, tenant := BitVec.ofNat 8 q.tenant, shareM1 := BitVec.ofNat 8 (q.share - 1)
    budget := BitVec.ofNat 32 q.budget
    saveBase := if s.nStacks = 0 then 0 else BitVec.ofNat 64 (pageAddr got.1)
    windows := wins }
  let s : State := { (s.modSw i fun _ => w) with saves := s.saves.set i none }
  let s : State := s.setRouters i q
  let s : State := s.modNeedlesOf i fun _ => Needle.reset
  ((s.sendTwinWins i wins false).repower false)

/-- CAST_SWATCH (R150). -/
def cmdCastSwatch : Cmd where
  op := 0x100
  target := 1
  used := [(8, 24)]
  bad := castBad
  object := castObject
  deny := castDeny
  state := castState
  res := castRes
  act := onTarget fun r e i s =>
    let q := castReq e
    let wins := (s.castWins e).getD []
    let s : State := if wins.any (fun x => decide (twinBase ≤ x.base ∧ x.base < hostBase)) then s.useFree else s
    let s : State := s.castNow i q wins
    s.ok r [(20, 2, s.swatches[i].mask.toNat), (22, 1, 6 * q.skeins.length), (24, 4, q.budget)]

/-! ### KNIT and STOP_KNIT (R152, R153) -/

/-- The program of a swatch with an id. -/
def Swatch.program (w : Swatch) (id : Nat) : Option Program := w.programs.find? fun p => decide (p.id = id)
/-- KNIT (R150). -/
def cmdKnit : Cmd where
  op := 0x101
  target := 1
  used := [(8, 40)]
  bad := fun e s =>
    let cls := (e.target.map fun i => s.swatches[i].cls).getD .hard
    (if cls ≠ .hard ∧ e.u 10 2 ≠ 1 then [10] else []) ++ (if e.u 12 4 % 4 = 0 ∧ e.u 12 4 < 0x20000 then [] else [12])
  state := fun e s => firstOf [s.devIn seLoTaBu,
    e.target.bind fun i => if s.swatches[i].knit.isSome then some 2 else none, s.swIn e [.cast]]
  res := fun e s => e.target.bind fun i =>
    if (s.swatches[i].program (e.u 8 2)).isNone then some (stNotFound, 0) else none
  act := onTarget fun r e i s =>
    let k : Knit := {
      cmd := r, prog := e.u 8 2, entry := BitVec.ofNat 32 (e.u 12 4),
      args := Vector.ofFn fun j => BitVec.ofNat 64 (e.u (16 + 8 * j.val) 8),
      rows := BitVec.ofNat 16 (e.u 10 2), committed := 0, frogged := 0, flags := 0, media := false, armed := true,
      stop := false, firstRow := 0, lastRow := 0 }
    (s.inFlight r 0x101 e).modSw i fun w => { w with knit := some k }
/-- STOP_KNIT (R153): the row that is running when it is dispatched is the last. -/
def cmdStopKnit : Cmd where
  op := 0x102
  target := 1
  used := []
  state := fun e s => firstOf [s.swIn e [.knitting, .frogged],
    e.target.bind fun i => if s.swatches[i].cls = .hard then none else some 1]
  act := onTarget fun r _ i s =>
    let last := s.tick.count - (if s.swatches[i].st = .frogged then 1 else 0)
    let stop (k : Knit) : Knit := { k with stop := true }
    (s.modSw i fun w => { w with knit := w.knit.map stop }).ok r [(20, 8, last.toNat)]

/-! ### Hold and restore (R154, R194 to R198) -/

/-- HOLD_SWATCH (R150, R195): Held from here; the reply is posted when the save ends. -/
def cmdHoldSwatch : Cmd where
  op := 0x103
  target := 1
  used := []
  state := fun e s => s.swIn e [.knitting, .frogged]
  act := onTarget fun r e i s => ((s.inFlight r 0x103 e).hold i 0).modSw i fun w => { w with holdCmd := some r }

/-- HOLD_QUIESCE_TIMEOUT (R195): the 2 µs are over. -/
def quiesceOver (i : Fin 8) (s : State) : State :=
  if s.swatches[i].st = .held ∧ s.swatches[i].holdStep = .quiesce then
    (s.modNeedlesOf i fun x => { x with bed := x.bed.discard }).modSw i fun w => { w with holdStep := .saving }
  else s

/-- A vector register as 256 bytes, and back. -/
def vecBytes (v : VReg) : List Byte := v.toList.flatMap fun w => leBytes 4 w.toNat
def vecOf (l : List Byte) : VReg := Vector.ofFn fun (i : Fin 64) => BitVec.ofNat 32 (leAt l (4 * i.val) 4)
/-- Entries of one range of memory put at another place; what that place held is gone. -/
def memMove (m : List (Nat × Byte)) (src dst n : Nat) : List (Nat × Byte) :=
  (m.filter fun c => within c.1 1 src n).foldl (fun m c => memSet m (c.1 - src + dst) c.2) (memClear m dst n)
/-- The bytes of the vector registers v0 to v31, and of s0 to s31 with p0 to p7 after them, in a needle record (R292). -/
def Needle.vRecord (x : Needle) : List Byte := x.v.toList.flatMap vecBytes
def Needle.sRecord (x : Needle) : List Byte := (x.s.toList ++ x.p.toList).flatMap fun w => leBytes 8 w.toNat
/-- A needle's record written at its place: both feed buffers, the vector, scalar and predicate registers. -/
def Needle.save (x : Needle) (a : Nat) (m : List (Nat × Byte)) : List (Nat × Byte) :=
  let m := x.feed.foldl (fun m c => memSet m (a + c.1) c.2) m
  memWrite (memWrite m (a + 0x2C000) x.vRecord) (a + 0x2E000) x.sRecord
/-- The save area written (R195, R292): each skein's record with its store, then the records of its needles. -/
def State.writeSave (s : State) (i : Fin 8) : State :=
  let w := s.swatches[i]
  let m := w.skeinList.foldl (fun m k =>
    memMove (memClear m (s.saveRec i k) 0x540000) (0x400000 * k.val) (s.saveRec i k) 0x400000) s.mem
  { s with mem := w.needleList.foldl (fun m n => (s.needles[n]).save (s.saveNdl i n) m) m
           poison := s.poison.filter fun g => !within g 1 w.saveBase.toNat (0x540000 * w.size) }
/-- A needle's record read back from its place. -/
def Needle.unsave (x : Needle) (a : Nat) (m : List (Nat × Byte)) : Needle :=
  let v := memRead m (a + 0x2C000) 8192
  let s := memRead m (a + 0x2E000) 320
  { x with
    feed := (m.filter fun c => within c.1 1 a 0x20000).map fun c => (c.1 - a, c.2)
    v := Vector.ofFn fun (r : Fin 32) => vecOf (slice v (256 * r.val) 256)
    s := Vector.ofFn fun (r : Fin 32) => BitVec.ofNat 64 (leAt s (8 * r.val) 8)
    p := Vector.ofFn fun (r : Fin 8) => BitVec.ofNat 64 (leAt s (256 + 8 * r.val) 8) }

/-- What a hold saves beside those bytes (R195, R196, log 15). -/
def State.saveImage (s : State) (i : Fin 8) : SaveImage where
  skeins := (s.swatches[i].skeinList).map fun k => (k, s.skeins[k])
  needles := (s.swatches[i].needleList).map fun n => (n, s.needles[n])
  chans := s.chans.filter fun c => decide (c.swatch = i)
  core := (allFin 4).findSome? fun d => if s.distaffs[d].granted = some i then some s.distaffs[d] else none

/-- Whether the state of a Held swatch is kept in place: no stack, or Sentinel (R196, R197). -/
def State.inPlace (s : State) : Bool := decide (s.nStacks = 0 ∨ s.selv.st = .sentinel)

/-- A core stopped by a hold with its lines written back (R404). -/
def Distaff.held (c : Distaff) : Distaff := { c with st := .halted, halting := false, saved := true }

/-- HOLD_SAVE_DONE (R195, R196, R197, R404): once nothing is outstanding the save ends; kept in place it is owed. Skeins
powered off without a save are lost. -/
def saveDone (i : Fin 8) (s : State) : State :=
  let w := s.swatches[i]
  let draining := w.needleList.any fun n => (s.needles[n]).bed.drains.any Drain.carded
  if w.st ≠ .held ∨ w.holdStep = .none ∨ s.anyAccess i ∨ (w.holdStep = .quiesce ∧ s.anyTentative i) ∨ draining then s
  else
    let s : State := s.flushCache (s.inPrivate i)
    let s : State := s.modCoresOf i Distaff.held
    let s : State := s.modNeedlesOf i fun x => { x with bed := x.bed.discard }
    let s : State := if s.inPlace then s.modSw i fun w => { w with holdStep := .none, saveOwed := decide (s.nStacks ≠ 0) }
      else { ((s.writeSave i).modSw i fun w => { w with holdStep := .none, saveOwed := false, saveValid := true }) with
             saves := s.saves.set i (some (s.saveImage i)) }
    let s : State := s.repower false
    let off := !w.skeinList.all s.powered
    let s : State := if off && !s.swatches[i].saveValid then s.swStatus i 6 else s
    match w.holdCmd with
    | some r => (s.modSw i fun w => { w with holdCmd := none }).ok r [(20, 1, (w.causes.head?.getD 0).toNat)]
    | none => s

/-- Whether a hold cause still persists (R154). -/
def State.causeStays (s : State) (w : Swatch) (c : Byte) : Bool :=
  if c = 0x0E then w.windows.any fun x => match s.region x.base with
    | .stack => s.presentStacks.any fun b => s.windowOn b x && !(s.stackPorts b).any s.portUp
    | .host => s.hostPath.isNone
    | .twin => s.twinPort.isNone
    | _ => false
  else if c = 0x0F then w.hostWindow && (allFin 2).any fun f => s.fnExists f && (s.fns[f].resetting || (s.fns[f].d3hot && s.hostPath = s.fnPort f))
  else if c = 0x10 then decide (s.selv.st = .selvage ∨ s.selv.st = .sentinel)
  else false
/-- Why a restore is refused, if it is (R154, R194, R196). -/
def State.restoreBad (s : State) (i : Fin 8) : Option Nat :=
  let w := s.swatches[i]
  if w.status.getLsbD 6 then some 1
  else if w.holdStep ≠ .none ∨ w.restoreCmd.isSome ∨ w.causes.any (s.causeStays w) then some 2
  else none
/-- RESTORE_SWATCH (R150, R198). -/
def cmdRestoreSwatch : Cmd where
  op := 0x104
  target := 1
  used := []
  state := fun e s => firstOf [s.devIn loTaBu, s.swIn e [.held], e.target.bind s.restoreBad]
  act := onTarget fun r e i s =>
    ((s.inFlight r 0x104 e).modSw i fun w => { w with restoreCmd := some r }).repower false

/-- A save brought back (R198): stores, skein and needle records, FIFOs, the core (R404). -/
def State.reload (s : State) (i : Fin 8) (im : SaveImage) : State :=
  let s : State := { s with
    mem := (s.swatches[i]).skeinList.foldl (fun m k => memMove m (s.saveRec i k) (0x400000 * k.val) 0x400000) s.mem
    skeins := mapV s.skeins fun k x => ((im.skeins.find? fun y => decide (y.1 = k)).map Prod.snd).getD x
    needles := mapV s.needles fun n x => match im.needles.find? fun y => decide (y.1 = n) with
      | some y => y.2.unsave (s.saveNdl i n) s.mem
      | none => x
    chans := (s.chans.filter fun c => decide (c.swatch ≠ i)) ++ im.chans }
  s.modCoresOf i fun c =>
    if c.saved then { im.core.getD c with irqEnable := c.irqEnable, irqPending := c.irqPending, granted := some i, saved := false }
    else c
/-- Cores continue after a restore: RESTORED is set (R404). -/
def Distaff.resumed (c : Distaff) : Distaff :=
  { c with st := .running, wait := .none, saved := false, irqPending := setBit c.irqPending 19 }

/-- The core granted to a swatch continues. -/
def State.resumeCore (s : State) (i : Fin 8) : State := s.modCoresOf i Distaff.resumed
/-- A save no longer needed. -/
def State.dropSave (s : State) (i : Fin 8) : State := { s with saves := s.saves.set i none }
/-- A faulted needle re-runs its faulting instruction after a restore (R288). -/
def Needle.retry (x : Needle) : Needle := if x.st = .faulted then { x with st := .running, wait := .none } else x
/-- RESTORE_RELOAD_DONE (R198). -/
def reloadDone (i : Fin 8) (s : State) : State :=
  match s.swatches[i].restoreCmd with
  | none => s
  | some r =>
    let s : State := s.modSw i fun w => { w with restoreCmd := none }
    match s.restoreBad i with
    | some d => (s.repower false).reply r stConflict d
    | none =>
      let s : State := match s.saves[i] with
        | some im => if s.swatches[i].saveValid then s.reload i im else s
        | none => s
      let s : State := ((s.resumeCore i).dropSave i).replayTiles i
      let w := s.swatches[i]
      let hard := decide (w.cls = .hard)
      let s : State := (s.modNeedlesOf i fun x => if hard || w.knit.isNone then x.cleared else x.retry).modCoresOf i fun c =>
        if hard then { c with draft := 0 } else c
      let s : State := s.modSw i fun w => { w with
        st := if w.knit.isSome then .knitting else .cast
        causes := [], saveValid := false, saveOwed := false,
        startNext := (w.knit.map fun k => hard || k.armed).getD false }
      let s : State := s.repower false
      s.ok r [(20, 8, (s.tick.count + (if hard then 1 else 0)).toNat)]

/-! ### Bind-off (R154, R179) -/

/-- A granted core returned to the host (R394): halted, its lines written back, its state zeroed. -/
def State.returnCore (s : State) (d : Fin 4) (free : Bool) : State :=
  let c := s.distaffs[d]
  match c.granted with
  | none => s
  | some i =>
    let s : State := s.flushCache (s.inPrivate i)
    let s : State := { s with accesses := s.accesses.map fun a => if a.who = .distaff d then { a with dest := .none, live := false } else a }
    let s : State := match c.recordPage, free with
      | some p, true => s.release p 1
      | _, _ => s
    s.modDst d fun c => { Distaff.reset with st := if c.st = .off then .off else .halted, resetPc := c.resetPc }

/-- What bind-off discards of an outstanding command: ABORTED (R141). -/
def State.abortWaiting (s : State) (i : Fin 8) : State :=
  let w := s.swatches[i]
  let s : State := (((s.replyOpt w.holdCmd stAborted).replyOpt w.restoreCmd stAborted).replyOpt w.ppCmd stAborted).replyOpt
    w.gaugeCmd stAborted
  let s : State := w.copies.foldl (fun s c => s.ok c.1 [(20, 2, c.2.2.1), (22, 1, c.2.2.2)]) s
  s.modSw i fun w => { w with holdCmd := none, restoreCmd := none, ppCmd := none, gaugeCmd := none, copies := [] }

/-- TWIN_CHAIN sent for every twin channel of a map (09 R254, R60). -/
def State.sendTwinChains (s : State) (i : Fin 8) (m : StitchMap) (withdraw : Bool) : State :=
  match s.twinPort with
  | some p => (m.chans.filter fun c => decide (c.link = 5)).foldl (fun s c =>
      s.sendMsg p 0x33 (padTo 32 ([c.chain, BitVec.ofNat 8 i.val, s.swatches[i].tenant, BitVec.ofNat 8 (b2n withdraw)] ++
        leBytes 2 c.position.toNat))) s
  | none => s

/-- BIND_OFF_SWATCH begins (R154, R220): Bound from here. -/
def State.bindOff (s : State) (i : Fin 8) (r : CmdRef) : State :=
  let s : State := s.faultRings i.val false
  let s : State := (s.abortKnit i).abortWaiting i
  let s : State := s.frogAll i
  let s : State := s.endGrants (fun g => decide (g.holder = .swatch i)) (some stOk)
  let s : State := (allFin 4).foldl (fun s d => if s.distaffs[d].granted = some i then s.returnCore d false else s) s
  let s : State := { s with bobbins := mapV s.bobbins fun _ b => if b.bound ∧ b.swatch = some i then b.unbind else b }
  let s : State := match s.swatches[i].map with
    | some m => s.sendTwinChains i m true
    | none => s
  let s : State := s.modNeedlesOf i Needle.cleared
  s.modSw i fun w => { w with st := .bound, pubDepth := 0, bindCmd := some r, holdStep := .none, startNext := false }
/-- BIND_OFF_SWATCH (R150). -/
def cmdBindOffSwatch : Cmd where
  op := 0x105
  target := 1
  used := []
  state := fun e s => s.swIn e casted
  act := onTarget fun r e i s => (s.inFlight r 0x105 e).bindOff i r

/-- Host-held allocations left with no page gone, and the targeted ones of a swatch (R157, R381). -/
def State.pruneHanks (s : State) (i : Fin 8) : State :=
  { s with hanks := s.hanks.filter fun h => match h.target with
    | some j => decide (j ≠ i)
    | none => s.pages.any fun r => match r.st with
      | .hostHeld id => decide (id = h.id)
      | .swatchHeld _ id => decide (id = h.id)
      | _ => false }

/-- BIND_OFF_ZEROING_DONE (R179, R154): once the swatch's accesses have drained, its stores, needles and skeins are zeroed,
its pages freed and counted, its windows on the twin released, its skeins powered down. -/
def zeroingDone (i : Fin 8) (s : State) : State :=
  match s.swatches[i].bindCmd with
  | none => s
  | some r =>
    if s.anyAccess i then s
    else
      let w := s.swatches[i]
      let res := s.releaseRuns fun st => match st with
        | .swatchHeld j _ => decide (j = i)
        | .firmware (some j) => decide (j = i)
        | _ => false
      let s : State := (res.1.pruneHanks i).sendTwinWins i w.windows true
      let s : State := { s with
        mem := w.skeinList.foldl (fun m k => memClear m (0x400000 * k.val) 0x400000) s.mem
        poison := s.poison.filter fun a => !(decide (a < 0x4000000) && s.ownStore i a)
        chans := s.chans.filter fun c => decide (c.swatch ≠ i)
        saves := s.saves.set i none }
      let s : State := s.modNeedlesOf i fun _ => Needle.reset
      let s : State := s.modSkeinsOf i fun x => { x with
        movers := Vector.replicate 2 Mover.reset
        carders := mapV x.carders fun _ c => { c with jobs := [] }
        mesh := { MeshUnit.reset with events := x.mesh.events, dropCount := x.mesh.dropCount, dropLast := x.mesh.dropLast }
        stch := { x.stch with links := 0 } }
      let whole (v : Vector Nat 16) : Vector Nat 16 := mapV v fun k n => if w.skeinList.contains k then 0 else n
      let s : State := s.modSelv fun v => { v with limited := whole v.limited, throttled := whole v.throttled }
      let s : State := (s.modSw i fun _ => Swatch.unset).repower false
      s.ok r [(20, 4, res.2)]

/-! ### Queries and settings -/

/-- QUERY_SWATCH (R150). -/
def cmdQuerySwatch : Cmd where
  op := 0x106
  target := 1
  used := []
  act := onTarget fun r _ i s =>
    let w := s.swatches[i]
    s.ok r [(20, 1, w.st.code.toNat), (21, 1, w.cls.code.toNat), (22, 1, w.ppoint.toNat), (23, 1, b2n w.near),
      (24, 2, if w.isCast then w.mask.toNat else 0), (26, 1, (w.causes.head?.getD 0).toNat), (27, 1, w.drafts.length),
      (28, 4, w.overruns.toNat), (32, 8, w.lastRow.toNat), (40, 1, fld w.status 7 0)]
/-- SET_SWATCH_PPOINT (R150, R94, R127): answered when the clocks have switched. DESIGN CHOICE (log 146): a second one while
one of the same swatch is open is refused with DETAIL 2, and neither this command nor CAST_SWATCH returns POWER_LIMIT,
for which the spec gives no condition. -/
def cmdSetSwatchPpoint : Cmd where
  op := 0x107
  target := 1
  used := [(8, 1)]
  bad := fun e _ => if e.u 8 1 ≤ 3 then [] else [8]
  deny := fun e s => (e.target.map fun i => s.swatches[i].skeinList.any fun k => s.granted 1 k.val).getD false
  state := fun e s => firstOf [s.devIn loTaBu, s.swIn e casted,
    e.target.bind fun i => if s.swatches[i].cls = .hard ∧ e.u 8 1 = 3 then some 1
      else if s.swatches[i].ppCmd.isSome then some 2 else none]
  act := onTarget fun r e i s =>
    (((s.inFlight r 0x107 e).modSw i fun w => { w with ppoint := BitVec.ofNat 2 (e.u 8 1), ppCmd := some r }).repower
      false).answerPp
/-- SET_SWATCH_GAUGE (R150, R234): in force from the next tick. -/
def cmdSetSwatchGauge : Cmd where
  op := 0x108
  target := 1
  used := [(8, 1)]
  bad := fun e _ => if e.u 8 1 ≤ 1 then [] else [8]
  state := fun e s => firstOf [s.swIn e casted,
    e.target.bind fun i => if s.swatches[i].cls = .hard ∧ e.u 8 1 = 1 then some 1 else none]
  act := onTarget fun r e i s =>
    (s.modSw i fun w => { w with nearNext := some (decide (e.u 8 1 = 1)) }).ok r [(20, 8, (s.tick.count + 1).toNat)]

/-- The SWT base of a swatch (R24). -/
def swtBase (i : Fin 8) : Nat := 0x10040000 + 0x1000 * i.val
/-- Whether an address lies in a swatch's private memory: a store of its own or a private window (R102, R392). -/
def State.ownPrivate (s : State) (i : Fin 8) (a : Nat) : Bool :=
  s.ownStore i a || ((s.swatches[i].winAt a 1).map fun w => decide (w.kind = 0)).getD false
/-- GRANT_DISTAFF (R150, R394, R404). -/
def cmdGrantDistaff : Cmd where
  op := 0x109
  target := 1
  used := [(8, 1), (16, 8)]
  bad := fun e s => (if e.u 8 1 ≤ 3 then [] else [8]) ++
    (match e.target with
      | some i => if s.swatches[i].isCast && !s.ownPrivate i (e.u 16 8) then [16] else []
      | none => [])
  deny := fun e s => s.granted 6 (e.u 8 1)
  state := fun e s => firstOf [s.devIn loTaBu, s.swIn e casted,
    let c := s.distaffs[Fin.ofNat 4 (e.u 8 1)]
    if c.granted.isNone ∧ c.st ≠ .running ∧ c.st ≠ .waiting then none else some 2]
  res := fun _ s => if s.nStacks ≠ 0 ∧ (allocUniform s 1).isNone then some (stNoResource, 0) else none
  act := onTarget fun r e i s =>
    let d : Fin 4 := Fin.ofNat 4 (e.u 8 1)
    let got : Option (Nat × State) := if s.nStacks = 0 then none else s.takeFirmware 1 (some i)
    let s : State := match got with
      | some g => g.2
      | none => s
    let x := ((Vector.replicate 32 (0 : DWord)).set 10 (BitVec.ofNat 64 i.val)).set 11 (BitVec.ofNat 64 (swtBase i))
    let held := decide (s.swatches[i].st = .held)
    let s : State := s.flushCache fun a => match s.pageSt (pageOf a) with
      | .hostHeld _ => true
      | _ => false
    let s : State := s.modDst d fun c => { Distaff.reset with
      st := if held then .halted else .running, granted := some i, resetPc := c.resetPc, saved := held
      pc := BitVec.ofNat 64 (e.u 16 8), x := x, recordPage := got.map Prod.fst }
    let waiting : List (Fin 16) := (allFin 16).filter fun (j : Fin 16) =>
      let c : Cq := s.cqs[j]
      c.distaffOwned && !c.onTwin && decide (fld c.cfg 28 25 = i.val ∧ c.fsm.st = .on ∧ c.head ≠ c.tail) &&
        c.cfg.getLsbD 10
    (waiting.foldl (fun s j => s.raiseLine i.val (fld s.cqs[j].cfg 7 4)) s).ok r
/-- RETURN_DISTAFF (R150, R394). -/
def cmdReturnDistaff : Cmd where
  op := 0x10A
  target := 1
  used := [(8, 1)]
  bad := fun e _ => if e.u 8 1 ≤ 3 then [] else [8]
  deny := fun e s => s.granted 6 (e.u 8 1)
  state := fun e s => if s.distaffs[Fin.ofNat 4 (e.u 8 1)].granted = e.target ∧ e.target.isSome then none else some 2
  act := fun r e s => (s.returnCore (Fin.ofNat 4 (e.u 8 1)) true).ok r

/-! ### Drafts (R155, R212 to R215, R514) -/

/-- COMMIT_DRAFT's first stage (R212): every tentative position of each ancestor, oldest first, then those of the draft
below COUNT. -/
def Swatch.commitDraft (w : Swatch) (id : Byte) (n : Nat) : Swatch × Nat × List (Nat × Nat) :=
  let anc := ((w.draftChain id 64).drop 1).reverse.map Draft.id
  let r := anc.foldl (fun (a : Swatch × Nat × List (Nat × Nat)) d =>
    let x := a.1.commitPositions d fun _ => true
    (x.1, a.2.1 + x.2.1, a.2.2 ++ x.2.2)) (w, 0, [])
  let x := r.1.commitPositions id fun p => decide (p.toNat < n)
  (x.1, r.2.1 + x.2.1, r.2.2 ++ x.2.2)
/-- The checks COMMIT_DRAFT and FROG_DRAFT share. -/
def draftState (e : Entry) (s : State) : Option Nat := firstOf [s.devIn loTaBu, s.swIn e [.knitting, .frogged, .held]]
def draftRes (e : Entry) (s : State) : Option (Nat × Nat) := e.target.bind fun i =>
  if (s.swatches[i].draft (BitVec.ofNat 8 (e.u 8 1))).isNone then some (stNotFound, 0) else none
/-- COMMIT_DRAFT (R150, R212): committed at one instant; the reply waits for the slot copies. -/
def cmdCommitDraft : Cmd where
  op := 0x10B
  target := 1
  used := [(8, 2)]
  bad := fun e _ => (if e.u 8 1 = 0 then [8] else []) ++ (if e.u 9 1 = 0 then [9] else [])
  state := draftState
  res := draftRes
  act := onTarget fun r e i s =>
    let id := BitVec.ofNat 8 (e.u 8 1)
    let x := (s.swatches[i]).commitDraft id (e.u 9 1)
    let left := ((x.1.draft id).map fun d => d.tentative.length).getD 0
    (s.inFlight r 0x10B e).modSw i fun w => { x.1.closeDone with copies := w.copies ++ [(r, x.2.2, x.2.1, left)] }
/-- DRAFT_COMMIT_COPIES_DONE (R212): the oldest commit's slots are copied into their rows and free, and its reply is posted.
While an access of a row or of its slot is in flight, its copy has not ended. -/
def copiesDone (i : Fin 8) (s : State) : State :=
  let w := s.swatches[i]
  match w.copies with
  | (r, l, n, left) :: rest =>
    if l.any fun x => s.portTouches x.1 256 || s.portTouches (w.slotAddr x.2) 256 then s
    else
      let s : State := (l.filter fun x => s.inKv i x.1).foldl (fun s x => s.copyRow (w.slotAddr x.2) x.1) s
      (s.modSw i fun w => { w with copies := rest, poolUsed := w.poolUsed.filter fun k => !(l.map Prod.snd).contains k }).ok r
        [(20, 2, n), (22, 1, left)]
  | [] => s
/-- FROG_DRAFT (R150, R213). -/
def cmdFrogDraft : Cmd where
  op := 0x10C
  target := 1
  used := [(8, 1)]
  bad := fun e _ => if e.u 8 1 = 0 then [8] else []
  state := draftState
  res := draftRes
  act := onTarget fun r e i s =>
    let w := s.swatches[i]
    let x := w.frog (w.below (BitVec.ofNat 8 (e.u 8 1)))
    (s.modSw i fun _ => x.1).ok r [(20, 2, x.2.1), (24, 4, x.2.2)]

/-! ### The rows -/

def execCastSwatch (e : Entry) (s : State) : Host.Outcome State Fault Refusal := .next (cmdCastSwatch.dispatch e s)
def execKnit (e : Entry) (s : State) : Host.Outcome State Fault Refusal := .next (cmdKnit.dispatch e s)
def execStopKnit (e : Entry) (s : State) : Host.Outcome State Fault Refusal := .next (cmdStopKnit.dispatch e s)
def execHoldSwatch (e : Entry) (s : State) : Host.Outcome State Fault Refusal := .next (cmdHoldSwatch.dispatch e s)
def execHoldQuiesceTimeout (swatch : Fin 8) (s : State) : Host.Outcome State Fault Refusal := .next (quiesceOver swatch s)
def execHoldSaveDone (swatch : Fin 8) (s : State) : Host.Outcome State Fault Refusal := .next (saveDone swatch s)
def execRestoreSwatch (e : Entry) (s : State) : Host.Outcome State Fault Refusal := .next (cmdRestoreSwatch.dispatch e s)
def execBindOffSwatch (e : Entry) (s : State) : Host.Outcome State Fault Refusal := .next (cmdBindOffSwatch.dispatch e s)
def execBindOffZeroingDone (swatch : Fin 8) (s : State) : Host.Outcome State Fault Refusal := .next (zeroingDone swatch s)
def execQuerySwatch (e : Entry) (s : State) : Host.Outcome State Fault Refusal := .next (cmdQuerySwatch.dispatch e s)
def execSetSwatchPpoint (e : Entry) (s : State) : Host.Outcome State Fault Refusal :=
  .next (cmdSetSwatchPpoint.dispatch e s)
def execSetSwatchGauge (e : Entry) (s : State) : Host.Outcome State Fault Refusal :=
  .next (cmdSetSwatchGauge.dispatch e s)
def execGrantDistaff (e : Entry) (s : State) : Host.Outcome State Fault Refusal := .next (cmdGrantDistaff.dispatch e s)
def execReturnDistaff (e : Entry) (s : State) : Host.Outcome State Fault Refusal := .next (cmdReturnDistaff.dispatch e s)
def execCommitDraft (e : Entry) (s : State) : Host.Outcome State Fault Refusal := .next (cmdCommitDraft.dispatch e s)
def execDraftCommitCopiesDone (swatch : Fin 8) (s : State) : Host.Outcome State Fault Refusal :=
  .next (copiesDone swatch s)
def execFrogDraft (e : Entry) (s : State) : Host.Outcome State Fault Refusal := .next (cmdFrogDraft.dispatch e s)

end Sys2Proof.Machine
end

