-- ==== Sys2Proof/Machine/Views.lean ====
section
/-! DEFINITION. Accesses cut in parts, and accesses through the carded views of the edge ports (13 R369, R370). -/
namespace Sys2Proof.Machine
open Sys2Proof

/-! ### Parts of an access -/

/-- A range cut at multiples of g. -/
def cuts (g a : Nat) : Nat → Nat → List (Nat × Nat)
  | 0, _ => []
  | fuel + 1, len =>
    if len = 0 then []
    else
      let k := min len (g - a % g)
      (a, k) :: cuts g (a + k) fuel (len - k)
/-- The part of an operation from an offset. -/
def AccOp.part (op : AccOp) (off len : Nat) : AccOp :=
  match op with
  | .read _ => .read len
  | .write b => .write ((b.drop off).take len)
  | .atomic f b => .atomic f ((b.drop off).take len)
  | o => o
def AccOp.isRead : AccOp → Bool
  | .read _ => true
  | _ => false
/-- The right an operation needs. -/
def AccOp.need : AccOp → Need
  | .read _ => .read
  | .atomic _ _ => .atomic
  | _ => .write

/-! ### Carded views -/

/-- Whether a port serves a stored range by itself (R369, R59). -/
def State.portServes (s : State) (p : Fin 10) (a n : Nat) : Bool :=
  match s.fuses.ports[p].role with
  | .stack =>
    let last := a + n - 1
    let slice (x : Nat) : Nat := (s.place x).slice
    let b := s.stack[s.fuses.ports[p].stack]
    let mine (x : Nat) : Bool := decide (s.region x = .stack) && decide (s.stackOf x = s.fuses.ports[p].stack) &&
      s.localMap.getLsbD ((x - stackBase) / 0x40000000 / s.nStacks) &&
      decide ((if slice x < 8 then b.routeLo else b.routeHi) = some p)
    let half : Nat := 0x20000000
    mine a && mine last && (List.range (last / half - a / half)).all fun k => mine ((a / half + 1 + k) * half)
  | .host => within a n hostBase hostBase
  | .twin => within a n twinBase 0x4000000000
  | _ => false
/-- Whether a slot converts one unscaled format into another (R372). -/
def slotConverts (slot : List Byte) (inFmt outFmt : Nat) : Bool :=
  decide (slot.length ≠ 0 ∧ leAt slot 2 1 = inFmt ∧ leAt slot 3 1 = outFmt ∧ leAt slot 4 1 = 0 ∧ leAt slot 5 1 = 0)

/-- What an access through a view gives: its stored bytes are asked for, a refusal by the view (R370) or by a window, an
uncorrectable error, or it is held back (R366). -/
inductive ViewAns
  | sent
  | off
  | refused
  | bad
  | busy
deriving DecidableEq, Repr

/-- The address of a view (R369). -/
def viewAddr (p : Fin 10) (v : Fin 4) : Nat := viewBase + 0x40000000 * (4 * p.val + v.val)
/-- Elements in a view granule of 64 bytes. -/
def View.elems (v : View) : Nat := 512 / fmtWidth v.viewFmt.toNat
/-- The stored range of a view granule: address and length (R369). -/
def View.range (v : View) (off : Nat) : Nat × Nat :=
  let ws := fmtWidth v.storedFmt.toNat
  (v.stored.toNat + off * ws / fmtWidth v.viewFmt.toNat, v.elems * ws / 8)
/-- VIEW_REFUSED (R370). -/
def State.viewRefused (s : State) (p : Fin 10) : State := s.modEdgeCarder p fun c => c.note 3
/-- A granule converted by the edge carder: one job (R357, R370). -/
def State.viewConvert (s : State) (p : Fin 10) (v : Fin 4) (off : Nat) (write : Bool) (d : List Byte) : State × List Byte :=
  let w := (s.edgeCarders[p]).views[v]
  let c := (s.edgeCarders[p]).begin
  let slot := Fin.ofNat 16 (if write then w.writeSlot else w.readSlot).toNat
  let r := c.cardRow (cardProg c.slots[slot]) w.elems 0 (off * 8 / fmtWidth w.viewFmt.toNat) d
  (s.modEdgeCarder p fun _ => r.1, r.2.take (if write then (w.range off).2 else 64))
/-- Whether a view takes an access to a granule at all; the slot still has to convert the formats (log 30). -/
def State.viewTakes (s : State) (p : Fin 10) (v : Fin 4) (off : Nat) (write : Bool) : Bool :=
  let c := s.edgeCarders[p]
  let w := c.views[v]
  let sf := w.storedFmt.toNat
  let vf := w.viewFmt.toNat
  decide (w.fsm.st = .on) && (if write then w.writeEn else w.readEn) && decide (off + 64 ≤ w.size.toNat * 65536) &&
  s.portServes p (w.range off).1 (w.range off).2 &&
  (if write then slotConverts c.slots[Fin.ofNat 16 w.writeSlot.toNat] vf sf
   else slotConverts c.slots[Fin.ofNat 16 w.readSlot.toNat] sf vf)
/-- The stored range of a granule checked as a direct access, row by row (R370, R382): where each part is served; one window
covers all of it. -/
def State.rangeCheck (s : State) (i : Fin 8) (draft : Word) (a len : Nat) (need : Need) : State × Chk × List (Nat × Nat × Nat) :=
  if ((s.swatches[i]).winAt a len).isNone then (s, .refused, [])
  else (cuts 256 a len len).foldl (fun r c => match r.2.1 with
    | .ok _ => (match r.1.spoolCheck i draft c.1 c.2 need with
      | (t, .ok b) => (t, .ok 0, r.2.2 ++ [(c.1 - a, b, c.2)])
      | (t, q) => (t, q, []))
    | _ => r) (s, .ok 0, [])
/-- The parts of a stored range sent through the port that serves the view, at most 128 bytes each. -/
def State.viewSend (s : State) (i : Fin 8) (who : Who) (p : Fin 10) (parts : List (Nat × Nat × Nat)) (op : AccOp)
    (dest : Nat → Dest) (pc : Nat) : State :=
  (parts.flatMap fun x => (cuts 128 x.2.1 x.2.2 x.2.2).map fun c => (x.1 + (c.1 - x.2.1), c.1, c.2)).foldl (fun s c =>
    let wire := match s.region c.2.1 with
      | .twin => c.2.1 - twinBase
      | .host => c.2.1 - hostBase
      | _ => (s.place c.2.1).offset
    s.sendAccess who p wire c.2.1
      (op.part c.1 c.2.2) (dest c.1) (s.classOf (some i)) pc) s
/-- The parts of an address in the aperture: port, view and offset (R369). -/
def viewOf (a : Nat) : Fin 10 × Fin 4 × Nat :=
  (Fin.ofNat 10 ((a - viewBase) / 0x100000000), Fin.ofNat 4 ((a - viewBase) / 0x40000000), (a - viewBase) % 0x40000000)
/-- How an access through a view is checked: by the view, and against a window over its address and one over the stored range
(R370). -/
def State.viewCheck (s : State) (i : Fin 8) (draft : Word) (p : Fin 10) (v : Fin 4) (off skip len : Nat) (need : Need) :
    State × ViewAns × List (Nat × Nat × Nat) :=
  if !s.viewTakes p v off (decide (need = .write)) then (s, .off, [])
  else match s.windowCheck i (viewAddr p v + off + skip) len need with
    | .ok _ =>
      let r := ((s.edgeCarders[p]).views[v]).range off
      let c := s.rangeCheck i draft r.1 r.2 need
      (match c.2.1 with
      | .ok _ => (c.1, .sent, c.2.2)
      | .bad => (c.1, .bad, [])
      | .refused => (c.1, .refused, []))
    | _ => (s, .refused, [])
/-- A read of `len` bytes at `skip` of the granule at `off`, whatever waits for the edge carder. -/
def State.viewReadNow (s : State) (i : Fin 8) (draft : Word) (who : Who) (p : Fin 10) (v : Fin 4) (off skip len : Nat)
    (dest : Dest) (pc : Nat) : State × ViewAns :=
  match s.viewCheck i draft p v off skip len .read with
  | (t, .sent, l) =>
    (t.viewSend i who p l (.read (((s.edgeCarders[p]).views[v]).range off).2)
      (fun o => .view p v off skip len s.nextAccess o [] dest) pc, .sent)
  | (t, .off, _) => (t.viewRefused p, .off)
  | (t, q, _) => (t, q)
/-- Whether a new access waits for a program load at the edge carder (R366). -/
def State.viewHeld (s : State) (p : Fin 10) (v : Fin 4) (off : Nat) (write : Bool) : Bool :=
  s.viewTakes p v off write && !(s.edgeCarders[p]).loads.isEmpty
/-- A read of `len` bytes at `skip` of the granule at `off` (R370). -/
def State.viewRead (s : State) (i : Fin 8) (draft : Word) (who : Who) (p : Fin 10) (v : Fin 4) (off skip len : Nat)
    (dest : Dest) (pc : Nat) : State × ViewAns :=
  if s.viewHeld p v off false then (s, .busy) else s.viewReadNow i draft who p v off skip len dest pc
/-- A write of a whole granule (R370). -/
def State.viewWrite (s : State) (i : Fin 8) (draft : Word) (who : Who) (p : Fin 10) (v : Fin 4) (off : Nat) (d : List Byte)
    (pc : Nat) : State × ViewAns :=
  if wrId draft ≠ 0 ∨ off % 64 ≠ 0 ∨ d.length ≠ 64 then (s.viewRefused p, .off)
  else if s.viewHeld p v off true then (s, .busy)
  else match s.viewCheck i draft p v off 0 64 .write with
    | (t, .sent, l) =>
      let y := t.viewConvert p v off true d
      (y.1.viewSend i who p l (.write (y.2.map some)) (fun _ => .none) pc, .sent)
    | (t, .off, _) => (t.viewRefused p, .off)
    | (t, q, _) => (t, q)

end Sys2Proof.Machine
end

