-- ==== Sys2Proof/Machine/MemCmds.lean ====
section
/-! DEFINITION. Memory commands (06 R156 to R158, 14 R379, R380) and program loads (06 R159, R160): needle object files
(10 R271, R272) and stitch maps (09 R255). -/
namespace Sys2Proof.Machine
open Sys2Proof

/-! ### Memory (R156 to R158) -/

/-- QUERY_MEMORY (R156). -/
def cmdQueryMemory : Cmd where
  op := 0x200
  target := 0
  used := []
  act := fun r _ s =>
    let bits (f : Stack → Bool) : Nat := sumN ((allFin 4).map fun b => if f s.stack[b] then 2 ^ b.val else 0)
    let count (f : Stack → Word) : Nat := min 0xFFFFFFFF (sumN ((allFin 4).map fun b => (f s.stack[b]).toNat))
    s.ok r [(20, 1, bits Stack.present), (21, 1, bits Stack.lost), (24, 4, s.freePages),
      (28, 4, count Stack.eccCorr), (32, 4, count Stack.eccUncorr)]

/-- Ranges of a swatch that targeted allocations use. -/
def State.usedRanges (s : State) (i : Fin 8) : List (Nat × Nat) :=
  (s.hanks.filter fun h => decide (h.target = some i)).map fun h => (h.base, h.count * pageSize)
/-- The lowest room of n bytes in one KIND 0 window of a swatch (R380). -/
def State.windowRoom (s : State) (i : Fin 8) (n : Nat) (kv : Bool) : Option Nat :=
  let used := s.usedRanges i
  let ok (x : Window) (a : Nat) : Bool := within a n x.base x.size && used.all fun u => !overlaps a n u.1 u.2
  let wins := s.swatches[i].windows.filter fun x => decide (x.kind = 0) && (!kv || decide (s.region x.base = .stack))
  (wins.flatMap fun x => (x.base :: used.map fun u => u.1 + u.2).filter (ok x)).min?
/-- The KIND 1 window of n bytes that no targeted allocation names. -/
def State.hankRoom (s : State) (i : Fin 8) (n : Nat) : Option Nat :=
  ((s.swatches[i].windows.filter fun x => decide (x.kind = 1 ∧ x.size = n) &&
    !((s.usedRanges i).any fun u => decide (u.1 = x.base))).map Window.base).min?
/-- Sixteen pages for a draft pool in the placement of a KV range (R210, R380). -/
def State.poolRoom (s : State) (a : Nat) : Option Nat :=
  let n := s.nStacks
  let band := (a - stackBase) / 0x40000000
  let j := band / n
  let cand : List Nat :=
    if s.localMap.getLsbD j then
      let half := (a - stackBase) / 0x20000000
      (List.range 0x2000).map (· + 0x2000 * half)
    else (List.range (0x4000 * n)).map (· + 0x4000 * n * j)
  let lim := if s.localMap.getLsbD j then 0x2000 * ((a - stackBase) / 0x20000000 + 1) else 0x4000 * n * (j + 1)
  let fits (p : Nat) : Bool := decide (p + 16 ≤ lim) && rangeFree s.pages p 16
  if s.localMap.getLsbD j then cand.reverse.find? fits else cand.find? fits

/-- Where ALLOC_HANKS finds its range (R377, R379, R380): first address, the band map after, the draft pool's pages. -/
def State.allocWhere (s : State) (e : Entry) : Option (Nat × BitVec 24 × Option Nat) :=
  let n := e.u 8 4
  match e.target with
  | some i =>
    match e.u 12 1 with
    | 0 => (s.windowRoom i (n * pageSize) false).map fun a => (a, s.localMap, none)
    | 1 => (s.hankRoom i (n * pageSize)).map fun a => (a, s.localMap, none)
    | _ => (s.windowRoom i (n * pageSize) true).bind fun a =>
        if s.swatches[i].pool.isSome then some (a, s.localMap, none)
        else (s.poolRoom a).map fun p => (a, s.localMap, some p)
  | none =>
    if e.u 13 1 = 0 then (allocUniform s n).map fun r => (pageAddr r.1, r.2, none)
    else
      let b : Fin 4 := Fin.ofNat 4 (e.u 14 1)
      let half : Option Nat := if bitsN (e.u 14 1) 2 2 = 1 then some (bitsN (e.u 14 1) 3 3) else none
      (allocLocal s (s.presentStacks.idxOf b) n half).map fun r => (pageAddr r.1, r.2, none)
/-- ALLOC_HANKS (R156, R157, R379, R380). -/
def cmdAllocHanks : Cmd where
  op := 0x201
  target := 2
  used := [(8, 7)]
  bad := fun e _ =>
    (if e.u 8 4 = 0 then [8] else []) ++
    (if e.u 12 1 ≤ 2 ∧ (e.target.isSome ∨ e.u 12 1 = 0) then [] else [12]) ++
    (if e.target.isSome then [] else
      (if e.u 13 1 ≤ 1 then [] else [13]) ++
      (if (if e.u 13 1 = 1 then e.u 14 1 < 16 else e.u 14 1 = 0) then [] else [14]))
  state := fun e s => firstOf [s.devIn loTaBu, s.swIn e casted,
    if e.target.isNone ∧ e.u 13 1 = 1 then
      let b := s.stack[Fin.ofNat 4 (e.u 14 1)]
      if b.present ∧ !b.lost then none else some 2
    else none]
  res := fun e s => if (s.allocWhere e).isSome then none else some (stNoResource, 0)
  act := fun r e s =>
    match s.allocWhere e with
    | none => s.reply r stNoResource
    | some (a, m, pool) =>
      let n := e.u 8 4
      let h : Hank := ⟨s.nextHank, a, n, BitVec.ofNat 8 (e.u 12 1), e.target⟩
      let s : State := { s with localMap := m, nextHank := s.nextHank + 1, hanks := s.hanks ++ [h] }
      let s : State := match e.target, pool with
        | some i, some p => (s.setPages p 16 (.firmware (some i))).modSw i fun w => { w with pool := some p }
        | some _, none => s
        | none, _ => s.setPages (pageOf a) n (.hostHeld h.id)
      s.ok r [(20, 8, a), (28, 4, h.id)]

/-- The allocation a FREE_HANKS names: with a target, one of its own (R145). -/
def State.hankOf (s : State) (e : Entry) : Option Hank :=
  s.hanks.find? fun h => decide (h.id = e.u 8 4) && (e.target.isNone || decide (h.target = e.target))
/-- Whether an allocation is in use (R156, R380). -/
def State.hankBusy (s : State) (h : Hank) : Bool :=
  let n := h.count * pageSize * (if h.kind = 1 then 2 else 1)
  match h.target with
  | some i =>
    (allFin 48).any (fun b => s.bobbins[b].bound &&
      overlaps s.bobbins[b].ring.toNat (256 + s.bobbins[b].size * strideOf s.bobbins[b].frame.toNat) h.base n) ||
    s.swatches[i].drafts.any fun d => d.slots.any fun x => within x.row 1 h.base n
  | none => s.pages.any fun r => match r.st with
      | .swatchHeld _ id => decide (id = h.id)
      | .hostHeld id => decide (id = h.id) && s.castList.any fun i => s.swatches[i].windows.any fun x =>
          overlaps x.base x.size (pageAddr r.base) (r.count * pageSize)
      | _ => false
/-- A range of a swatch's windows zeroed (R380): over the TWIN port where it lies on the other die. -/
def State.zeroRange (s : State) (a n : Nat) : State :=
  match s.region a, s.twinPort with
  | .twin, some p => (List.range (n / 128)).foldl (fun s k =>
      s.sendAccess .firmware p (a - twinBase + 128 * k) (a + 128 * k) (.write (List.replicate 128 (some 0))) .none .mgmt) s
  | _, _ => { s with mem := memClear s.mem a n, poison := s.poison.filter fun g => decide (g < a ∨ a + n ≤ g) }
/-- FREE_HANKS (R156, R380, R381): no target, but from a ring of a swatch's scope its own (R145, log 18). -/
def cmdFreeHanks : Cmd where
  op := 0x202
  target := 4
  used := [(8, 4)]
  state := fun e s => (s.hankOf e).bind fun h => if s.hankBusy h then some 2 else none
  res := fun e s => if (s.hankOf e).isNone then some (stNotFound, 0) else none
  act := fun r e s =>
    match s.hankOf e with
    | none => s.reply r stNotFound
    | some h =>
      let s : State := { s with hanks := s.hanks.filter fun x => decide (x.id ≠ h.id) }
      match h.target with
      | some _ =>
        let n := h.count * (if h.kind = 1 then 2 else 1)
        (s.zeroRange h.base (n * pageSize)).ok r [(20, 4, n)]
      | none =>
        let x := s.releaseRuns fun st => decide (st = .hostHeld h.id)
        x.1.ok r [(20, 4, x.2)]

/-- The check of one 32-byte piece of MEM_FILL or MEM_COPY (R158): where it is served, if it is. A piece in a carded view passes
both checks of R370, a view's window being read only (R381). -/
def State.memPiece (s : State) (t : Option (Fin 8)) (a : Nat) (n : Need) : Option Nat :=
  match t with
  | some i =>
    if s.ownStore i a then some a
    else if s.region a = .views then
      let v := viewOf a
      match (s.viewCheck i 0 v.1 v.2.1 (v.2.2 / 64 * 64) (v.2.2 % 64) 32 n).2.1 with
      | .sent | .bad => some a
      | _ => none
    else match s.windowCheck i a 32 n with
      | .ok b => some b
      | _ => none
  | none =>
    match s.region a with
    | .host => some a
    | .twin => some a
    | _ => s.hostSpan a 32 (decide (n = .write))
/-- The addresses of the pieces of a range. -/
def granules (a n : Nat) : List Nat := (List.range (n / 32)).map fun k => a + 32 * k
/-- Whether every piece of a range passes. -/
def State.memOk (s : State) (t : Option (Fin 8)) (a n : Nat) (need : Need) : Bool :=
  (granules a n).all fun g => (s.memPiece t g need).isSome
/-- A write into a swatch's own store while a save holds it goes to the save record too: a restore returns no committed byte to
an earlier value (08 R202). -/
def State.putOwn (s : State) (t : Option (Fin 8)) (a : Nat) (bs : List (Option Byte)) : State :=
  match t with
  | some i => if s.ownStore i a ∧ s.swatches[i].saveValid then (s.put a bs).put (s.savedAt i a) bs else s.put a bs
  | none => s.put a bs
/-- One 32-byte piece written: over the TWIN port where it lies on the other die. False where it lies on a lost stack. -/
def State.memPut (s : State) (r : CmdRef) (t : Option (Fin 8)) (a : Nat) (bs : List Byte) : State × Bool :=
  let b := (s.memPiece t a .write).getD a
  if s.onLost b then (s.mediaError none b, false)
  else match s.region b, s.twinPort with
    | .twin, some p => (s.sendAccess .firmware p (b - twinBase) b (.write (bs.map some)) (.copy none r) .mgmt, true)
    | _, _ => (s.putOwn t b (bs.map some), true)
/-- Pieces written in order until one fails. -/
def State.memPuts (s : State) (r : CmdRef) (t : Option (Fin 8)) : List (Nat × List Byte) → State × Bool
  | [] => (s, true)
  | (a, bs) :: l =>
    let x := s.memPut r t a bs
    if x.2 then x.1.memPuts r t l else x
/-- Whether an access is part of a command. -/
def Access.partOf (a : Access) (r : CmdRef) : Bool :=
  match a.dest with
  | .copy _ q => decide (q = r)
  | .view _ _ _ _ _ _ _ _ (.copy _ q) => decide (q = r)
  | _ => false
/-- The end of MEM_FILL and MEM_COPY: answered now, or when the other die has answered. -/
def State.memEnd (s : State) (r : CmdRef) (op : Nat) (e : Entry) (ok : Bool) : State :=
  if !ok then ({ s with accesses := s.accesses.map fun a => if a.partOf r then { a with dest := .none, live := false } else a } : State).reply r stMediaError
  else if s.accesses.any (fun a => a.partOf r) then s.inFlight r op e
  else s.ok r
/-- Addresses and lengths in multiples of 32 (R158). -/
def mult32 (e : Entry) (offs : List Nat) : List Nat := offs.filter fun o => decide (e.u o 8 % 32 ≠ 0)

/-- MEM_FILL (R158). -/
def cmdMemFill : Cmd where
  op := 0x203
  target := 2
  used := [(8, 20)]
  bad := fun e _ => mult32 e [8, 16]
  state := fun _ s => s.devIn loTaBu
  res := fun e s => if s.memOk e.target (e.u 8 8) (e.u 16 8) .write then none else some (stNotPermitted, 0)
  act := fun r e s =>
    let bs := (List.replicate 8 (leBytes 4 (e.u 24 4))).flatten
    let x := s.memPuts r e.target ((granules (e.u 8 8) (e.u 16 8)).map fun a => (a, bs))
    x.1.memEnd r 0x203 e x.2
/-- Whether a piece of a view gives data: its stored range holds no uncorrectable error. -/
def State.viewReads (s : State) (t : Option (Fin 8)) (a : Nat) : Bool :=
  let v := viewOf a
  match t with
  | some i => decide ((s.viewCheck i 0 v.1 v.2.1 (v.2.2 / 64 * 64) (v.2.2 % 64) 32 .read).2.1 = .sent)
  | none => false
/-- A piece of a source asked for: over the TWIN port, or through a carded view, before any program load that waits there. -/
def State.memAsk (s : State) (t : Option (Fin 8)) (a : Nat) (dest : Dest) : State :=
  let v := viewOf a
  match s.region a, t, s.twinPort with
  | .views, some i, _ => (s.viewReadNow i 0 .firmware v.1 v.2.1 (v.2.2 / 64 * 64) (v.2.2 % 64) 32 dest 0).1
  | .twin, _, some p => s.sendAccess .firmware p (a - twinBase) a (.read 32) dest .mgmt
  | _, _, _ => s
/-- MEM_COPY (R158): the whole source is read before the first write; a source on the other die arrives later. -/
def cmdMemCopy : Cmd where
  op := 0x204
  target := 2
  used := [(8, 24)]
  bad := fun e _ => mult32 e [8, 16, 24]
  state := fun _ s => s.devIn loTaBu
  res := fun e s =>
    if s.memOk e.target (e.u 8 8) (e.u 24 8) .read && s.memOk e.target (e.u 16 8) (e.u 24 8) .write then none
    else some (stNotPermitted, 0)
  act := fun r e s =>
    let src (k : Nat) : Nat := (s.memPiece e.target (e.u 8 8 + 32 * k) .read).getD (e.u 8 8 + 32 * k)
    let dst (k : Nat) : Nat := (s.memPiece e.target (e.u 16 8 + 32 * k) .write).getD (e.u 16 8 + 32 * k)
    let ks := List.range (e.u 24 8 / 32)
    let view (k : Nat) : Bool := decide (s.region (src k) = .views)
    let far (k : Nat) : Bool := view k || decide (s.region (src k) = .twin)
    let good := ks.takeWhile fun k => if view k then s.viewReads e.target (src k) else far k || !s.isBad (src k)
    let x := s.memPuts r e.target ((good.filter fun k => !far k).map fun k => (e.u 16 8 + 32 * k, memRead s.mem (src k) 32))
    let s : State := (good.filter far).foldl (fun s k => s.memAsk e.target (src k) (.copy (some (dst k)) r)) x.1
    let all := decide (good.length = ks.length)
    let s : State := if x.2 && !all then s.mediaError none (src good.length) else s
    s.memEnd r 0x204 e (x.2 && all)

/-! ### Needle object files (R271, R272) -/

/-- A section of an object file. -/
structure Sect where
  kind : Nat
  skein : Nat
  offset : Nat
  size : Nat
  from_ : Nat
deriving DecidableEq, Repr
/-- The sections of a file. -/
def sects (b : List Byte) : List Sect :=
  (List.range (leAt b 6 2)).map fun k =>
    let o := 32 + 16 * k
    ⟨leAt b o 1, leAt b (o + 1) 1, leAt b (o + 4) 4, leAt b (o + 8) 4, leAt b (o + 12) 4⟩
/-- A section in order (R271, R272). -/
def Sect.ok (x : Sect) (skeins text nsect len : Nat) : Bool :=
  decide (x.kind ≤ 2 ∧ 32 + 16 * nsect ≤ x.from_ ∧ x.from_ + x.size ≤ len) &&
  (if x.kind = 0 then decide (x.skein = 0 ∧ x.offset = 0 ∧ x.size = text)
   else decide ((if x.kind = 2 then x.skein < skeins else x.skein = 0) ∧ x.offset % 64 = 0 ∧ x.size % 64 = 0 ∧
     x.offset + x.size ≤ 0x400000))
/-- A well-formed needle object file for a swatch of some skeins (R271, R272). -/
def objFileOk (b : List Byte) (len skeins : Nat) : Bool :=
  let n := leAt b 6 2
  let text := leAt b 8 4
  decide (32 ≤ len ∧ leAt b 0 4 = 0x4C444E58 ∧ leAt b 4 2 = 1 ∧ 1 ≤ n ∧ n ≤ 64 ∧ text % 8 = 0 ∧ text ≤ 131072 ∧
    leAt b 12 4 = len ∧ 32 + 16 * n ≤ len) && (slice b 16 16).all (· = 0) &&
  (List.range n).all (fun k => decide (leAt b (32 + 16 * k + 2) 2 = 0)) &&
  (sects b).all (fun x => x.ok skeins text n len) && decide (((sects b).filter fun x => decide (x.kind = 0)).length = 1)
/-- An object read and checked: 0xFE where it cannot be read, 0xFD where it is malformed (R142, R143). -/
def objCheck (ok : Entry → State → List Byte → Nat → Bool) (e : Entry) (s : State) : Option Nat :=
  if !s.objOk e.sq (e.u 8 8) (e.u 16 4) then some 0xFE
  else if ok e s (s.objRead e.sq (e.u 8 8) (e.u 16 4)) (e.u 16 4) then none else some 0xFD
/-- Number of skeins of the target. -/
def State.targetSize (s : State) (e : Entry) : Nat := (e.target.map fun i => s.swatches[i].size).getD 0
/-- Pages of a text's firmware copy (R271). -/
def textPages (n : Nat) : Nat := (n + pageSize - 1) / pageSize
/-- The lowest free program id (R271). -/
def Swatch.freeId (w : Swatch) : Nat := ((List.range 16).find? fun k => (w.program k).isNone).getD 0
/-- A store image written (R272): into the store, or for a saved swatch into the save area. -/
def State.putImage (s : State) (i : Fin 8) (k : Fin 16) (off : Nat) (bs : List Byte) : State :=
  let a := 0x400000 * k.val + off
  s.put (if s.swatches[i].saveValid then s.savedAt i a else a) (bs.map some)
/-- LOAD_PROGRAM (R159, R271, R272). -/
def cmdLoadProgram : Cmd where
  op := 0x300
  target := 1
  used := [(8, 12)]
  object := objCheck fun e s b n => objFileOk b n (s.targetSize e)
  state := fun e s => firstOf [if s.rep.run.isSome then some 2 else none, s.devIn seLoTaBu, s.swIn e [.cast, .held]]
  res := fun e s => e.target.bind fun i =>
    let w := s.swatches[i]
    let text := leAt (s.objRead e.sq (e.u 8 8) 32) 8 4
    if 16 ≤ w.programs.length ∨ 131072 < w.progBytes + text ∨
      (s.nStacks ≠ 0 ∧ text ≠ 0 ∧ (allocUniform s (textPages text)).isNone) then some (stNoResource, 0) else none
  act := onTarget fun r e i s =>
    let b := s.objRead e.sq (e.u 8 8) (e.u 16 4)
    let w := s.swatches[i]
    let text := leAt b 8 4
    let body := ((sects b).find? fun x => decide (x.kind = 0)).map fun x => slice b x.from_ x.size
    let got : Option (Nat × State) := if s.nStacks = 0 ∨ text = 0 then none else s.takeFirmware (textPages text) (some i)
    let s : State := match got with
      | some g => g.2
      | none => s
    let p : Program := ⟨w.freeId, w.progBytes, text, body.getD [], got.map Prod.fst⟩
    let s : State := s.modSw i fun w => { w with programs := w.programs ++ [p] }
    let s : State := (sects b).foldl (fun s x =>
      if x.kind = 1 then w.skeinList.foldl (fun s k => s.putImage i k x.offset (slice b x.from_ x.size)) s
      else if x.kind = 2 then s.putImage i (w.atRel x.skein) x.offset (slice b x.from_ x.size)
      else s) s
    s.ok r [(20, 2, p.id)]
/-- UNLOAD_PROGRAM (R159, R271): its id and its firmware copy are free. -/
def cmdUnloadProgram : Cmd where
  op := 0x303
  target := 1
  used := [(8, 2)]
  state := fun e s => e.target.bind fun i =>
    if (s.swatches[i].knit.map Knit.prog) = some (e.u 8 2) then some 2 else none
  res := fun e s => e.target.bind fun i =>
    if (s.swatches[i].program (e.u 8 2)).isNone then some (stNotFound, 0) else none
  act := onTarget fun r e i s =>
    match s.swatches[i].program (e.u 8 2) with
    | none => s.reply r stNotFound
    | some p =>
      let s : State := match p.copy with
        | some q => s.release q (textPages p.len)
        | none => s
      (s.modSw i fun w => { w with programs := w.programs.filter fun x => decide (x.id ≠ p.id) }).ok r

/-! ### Stitch maps (R255) -/

/-- The channel records of a map. -/
def mapChans (b : List Byte) : List Chan :=
  (List.range (leAt b 8 2)).map fun k =>
    let o := 32 + 8 * k
    let x (j : Nat) : Byte := b.getD (o + j) 0
    let twin := decide (x 5 = 5)
    ⟨x 0, x 1, if twin then 0 else x 2, x 3, decide (x 4 = 1), Fin.ofNat 6 (x 5).toNat, x 6,
     BitVec.ofNat 12 ((x 7).toNat + (if twin then 256 * ((x 2).toNat % 16) else 0))⟩
/-- The byte ranges of one channel record. -/
def chanBytesOk (b : List Byte) (k : Nat) : Bool :=
  let o := 32 + 8 * k
  decide (leAt b (o + 1) 1 ≤ 5 ∧ leAt b (o + 3) 1 ≤ 5 ∧ leAt b (o + 4) 1 ≤ 1 ∧ leAt b (o + 5) 1 ≤ 5 ∧
    (if leAt b (o + 4) 1 = 1 then leAt b (o + 6) 1 ≤ 15 else leAt b (o + 6) 1 = 0) ∧
    (leAt b (o + 5) 1 = 5 → leAt b (o + 2) 1 < 16))
/-- Whether a channel's ends fit the rectangle and its link (R255, R254): north is one course down, east one wale up. -/
def Chan.ok (c : Chan) (w : Swatch) (twinBuild primary : Bool) : Bool :=
  let cs := w.coursesM1.val + 1
  let ws := w.walesM1.val + 1
  let sc := c.srcSkein.toNat / ws
  let sw := c.srcSkein.toNat % ws
  let dc := c.dstSkein.toNat / ws
  let dw := c.dstSkein.toNat % ws
  decide (c.srcSkein.toNat < cs * ws) &&
  (if c.link = 5 then twinBuild && decide (w.wale0.val + sw = if primary then 3 else 0)
   else decide (c.dstSkein.toNat < cs * ws) && match c.link.val with
    | 0 => decide (c.srcSkein = c.dstSkein)
    | 1 => decide (dc + 1 = sc ∧ dw = sw)
    | 2 => decide (dc = sc ∧ dw = sw + 1)
    | 3 => decide (dc = sc + 1 ∧ dw = sw)
    | _ => decide (dc = sc ∧ dw + 1 = sw))
/-- Whether a wheel slot names a channel whose source is on that skein and link: the twin exit uses the east wheel on the
primary and the west wheel on the secondary. -/
def wheelOk (chans : List Chan) (primary : Bool) (skein dir : Nat) (x : Byte) : Bool :=
  x = 0xFF || match chans[x.toNat]? with
    | some c => decide (c.srcSkein.toNat = skein) &&
        decide ((if c.link = 5 then (if primary then 2 else 4) else c.link.val) = dir)
    | none => false
/-- A well-formed stitch map for a swatch (R255). -/
def mapOk (s : State) (i : Fin 8) (b : List Byte) (len : Nat) : Bool :=
  let w := s.swatches[i]
  let n := leAt b 8 2
  let wh := leAt b 10 1
  let tw := s.fuses.twin
  let chans := mapChans b
  let wheels := 32 + 8 * n
  decide (32 ≤ len ∧ leAt b 0 4 = 0x4D545453 ∧ leAt b 4 2 = 1 ∧ leAt b 6 1 = w.coursesM1.val + 1 ∧
    leAt b 7 1 = w.walesM1.val + 1 ∧ 1 ≤ n ∧ n ≤ 255 ∧ 1 ≤ wh ∧ wh ≤ 16 ∧ leAt b 11 1 ≤ 1 ∧ leAt b 12 4 = len ∧
    len = wheels + 5 * w.size * wh) && (slice b 16 16).all (· = 0) &&
  (List.range n).all (chanBytesOk b) && chans.all (fun c => c.ok w tw s.fuses.primary) &&
  (decide (leAt b 11 1 = 1) || chans.all fun c => decide (c.link ≠ 5)) &&
  (List.range (5 * w.size * wh)).all fun k =>
    wheelOk chans s.fuses.primary (k / wh / 5) (k / wh % 5) (b.getD (wheels + k) 0)
/-- LOAD_STITCH_MAP (R159, R160, R255): in force from the row the next tick opens. -/
def cmdLoadStitchMap : Cmd where
  op := 0x301
  target := 1
  used := [(8, 12)]
  object := objCheck fun e s b n => match e.target with
    | some i => mapOk s i b n
    | none => false
  deny := fun e s => (e.target.map fun i => s.swatches[i].skeinList.any fun k => s.granted 3 k.val).getD false
  state := fun e s => firstOf [s.devIn seLoTaBu, s.swIn e casted]
  act := onTarget fun r e i s =>
    let b := s.objRead e.sq (e.u 8 8) (e.u 16 4)
    let m : StitchMap := ⟨leAt b 10 1, mapChans b, b.drop (32 + 8 * leAt b 8 2)⟩
    (s.modSw i fun w => { w with mapNext := some m }).ok r [(20, 8, (s.tick.count + 1).toNat)]

/-! ### The rows -/

def execQueryMemory (e : Entry) (s : State) : Host.Outcome State Fault Refusal := .next (cmdQueryMemory.dispatch e s)
def execAllocHanks (e : Entry) (s : State) : Host.Outcome State Fault Refusal := .next (cmdAllocHanks.dispatch e s)
def execFreeHanks (e : Entry) (s : State) : Host.Outcome State Fault Refusal := .next (cmdFreeHanks.dispatch e s)
def execMemFill (e : Entry) (s : State) : Host.Outcome State Fault Refusal := .next (cmdMemFill.dispatch e s)
def execMemCopy (e : Entry) (s : State) : Host.Outcome State Fault Refusal := .next (cmdMemCopy.dispatch e s)
def execLoadProgram (e : Entry) (s : State) : Host.Outcome State Fault Refusal := .next (cmdLoadProgram.dispatch e s)
def execUnloadProgram (e : Entry) (s : State) : Host.Outcome State Fault Refusal := .next (cmdUnloadProgram.dispatch e s)
def execLoadStitchMap (e : Entry) (s : State) : Host.Outcome State Fault Refusal := .next (cmdLoadStitchMap.dispatch e s)

end Sys2Proof.Machine
end

