-- ==== Sys2Proof/Machine/Bobbins.lean ====
section
/-! DEFINITION. Bobbins (16 R412 to R422): rings and their checks, input and output frames, the drop rule, host rings,
and the stream commands (06 R161, R162). -/
namespace Sys2Proof.Machine
open Sys2Proof

/-! ### A bobbin's memory (R413, R414) -/

/-- The offset of the slot of the k-th frame, from 1. -/
def Bobbin.slotOff (b : Bobbin) (k : Nat) : Nat := 256 + (k - 1) % b.size * strideOf b.frame.toNat
/-- Where an access of a bobbin is served (R413, R217): as its swatch under R382, an output ring in a shared hank from the
front copy; as the host scope under R387; or in the sentinel skein's store. None where it is refused or uncorrectable. -/
def State.bobAt (s : State) (b : Bobbin) (a n : Nat) (write : Bool) : Option Nat :=
  let chk : Chk := match b.swatch with
    | some i =>
      if s.ownStore i a then .ok a
      else
        let front : Option Nat := if b.dirOut ∧ !write then
            (s.swatches[i].winAt a n).bind fun x => if x.kind = 1 then some (frontAddr s.swatches[i] x a) else none
          else none
        match front, s.windowCheck i a n (if write then .write else .read) with
        | some f, .ok _ => .ok f
        | _, c => c
    | none =>
      if s.region a = .store s.sentinelSkein ∧ s.powered s.sentinelSkein then .ok a else s.hostCheck a n write
  match chk with
  | .ok x => if s.inSref x || (!write && s.anyBad x n) || s.onLost x then none else some x
  | _ => none
/-- The pieces of a range in 256-byte rows: offset and length. -/
def rowsOf (a : Nat) : Nat → Nat → List (Nat × Nat)
  | 0, _ => []
  | fuel + 1, len =>
    if len = 0 then []
    else
      let n := min len (256 - a % 256)
      (a, n) :: rowsOf (a + n) fuel (len - n)
/-- Where the rows of an access of a bobbin are served; none where one is refused. -/
def State.bobRows (s : State) (b : Bobbin) (a n : Nat) (write : Bool) : Option (List (Nat × Nat)) :=
  let one : Bool := match b.swatch with
    | some i => s.ownStore i a || ((s.swatches[i]).winAt a n).isSome
    | none => (s.bobAt b a n write).isSome
  if !one then none
  else (rowsOf a (n / 256 + 2) n).mapM fun c => (s.bobAt b c.1 c.2 write).map fun x => (x, c.2)
/-- Bytes read by a bobbin. -/
def State.bobGet (s : State) (b : Bobbin) (a n : Nat) : Option (List Byte) :=
  (s.bobRows b a n false).map fun l => l.flatMap fun x => memRead s.mem x.1 x.2
/-- Bytes written by a bobbin; BOB_EVENTS.ACCESS where it may not (R422). -/
def State.bobPut (s : State) (n : Fin 48) (a : Nat) (bs : List Byte) : State :=
  match s.bobRows s.bobbins[n] a bs.length true with
  | some l => (l.foldl (fun (r : State × List Byte) x => (r.1.putOwn s.bobbins[n].swatch x.1 ((r.2.take x.2).map some), r.2.drop x.2)) (s, bs)).1
  | none => s.modBob n fun b => { b with events := setBit b.events 5 }
/-- Where the consumer count lies (R414). -/
def State.countAddr (s : State) (b : Bobbin) : Nat :=
  match s.bobGet b (b.ring.toNat + 24) 8 with
  | some l => if leNat l = 0 then b.ring.toNat + 32 else leNat l
  | none => b.ring.toNat + 32
/-- The consumer's count read (R417): one above PRODUCED is taken as PRODUCED, with CONSUMED_BAD; a count that cannot be
read sets ACCESS. -/
def State.readCount (s : State) (n : Fin 48) : State :=
  let b := s.bobbins[n]
  match s.bobGet b (s.countAddr b) 8 with
  | some l =>
    if b.published.toNat < leNat l then
      s.modBob n fun b => { b with consumed := b.published.toNat, events := setBit b.events 3 }
    else s.modBob n fun b => { b with consumed := leNat l }
  | none => s.modBob n fun b => { b with events := setBit b.events 5 }

/-! ### Input frames (R416 to R418) -/

/-- The slot header (R414). -/
def slotHeader (seq time row len flags info : Nat) : List Byte :=
  padTo 64 (leBytes 8 seq ++ leBytes 8 time ++ leBytes 8 row ++ leBytes 4 len ++ leBytes 4 flags ++ leBytes 4 info)
/-- A frame begins: the free test of R417, SEQ, slot and time. A refused access to the count or the slot sets ACCESS, and the
frame is dropped (R422); in low power it is dropped without an access (R89, R421). -/
def State.openFrame (s : State) (n : Fin 48) (time : DWord) (info : Nat) : State :=
  let low := s.bobLowPower n
  let counted := (s.bobGet s.bobbins[n] (s.countAddr s.bobbins[n]) 8).isSome
  let s : State := if low then s else s.readCount n
  let b := s.bobbins[n]
  let full := decide (b.size ≤ b.written - b.consumed)
  let slotted := (s.bobAt b (b.ring.toNat + b.slotOff (b.written + 1)) 64 true).isSome
  let refused := !low && (!counted || (!full && !slotted))
  let drop := full || low || refused
  let b := if refused then { b with events := setBit b.events 5 } else b
  let b := if drop then b.drop else b
  let f : OpenFrame := ⟨if drop then none else some (b.written + 1), b.seq + 1, time, 0,
    BitVec.ofNat 32 (if drop then 0 else if b.dropsSince ≠ 0 then 4 else 0), BitVec.ofNat 32 info⟩
  s.modBob n fun _ => { b with
    seq := b.seq + 1, full := full, opened := some f
    written := b.written + (if drop then 0 else 1)
    dropsSince := if drop then b.dropsSince else 0 }
/-- Bytes of the frame being written: where the access is refused ACCESS is set and the frame dropped (R422). -/
def State.framePut (s : State) (n : Fin 48) (a : Nat) (bs : List Byte) : State :=
  if (s.bobRows s.bobbins[n] a bs.length true).isSome then s.bobPut n a bs else (s.bobPut n a bs).modBob n Bobbin.lose
/-- Payload appended to the open frame, cut at FRAME (R418). -/
def State.addPayload (s : State) (n : Fin 48) (bs : List Byte) : State :=
  let b := s.bobbins[n]
  match b.opened with
  | none => s
  | some f =>
    let room := b.frame.toNat - f.len
    let bs' := bs.take room
    let cut := decide (room < bs.length)
    let more (g : OpenFrame) : OpenFrame :=
      { g with len := f.len + bs'.length, flags := if cut then setBit f.flags 0 else f.flags }
    let s : State := match f.slot with
      | some k => if bs'.isEmpty then s else s.framePut n (b.ring.toNat + b.slotOff k + 64 + f.len) bs'
      | none => s
    s.modBob n fun b => { b with opened := b.opened.map more, events := if cut then setBit b.events 1 else b.events }
/-- The last byte is written: ROW and LENGTH with it (R416). -/
def State.closeFrame (s : State) (n : Fin 48) (extra : Word) : State :=
  let b := s.bobbins[n]
  match b.opened with
  | none => s
  | some f =>
    let flags := f.flags ||| extra
    let s : State := match f.slot with
      | some k => s.framePut n (b.ring.toNat + b.slotOff k)
          (slotHeader f.seq.toNat f.time.toNat s.tick.count.toNat f.len flags.toNat f.info.toNat)
      | none => s
    let whole (b : Bobbin) : Bool := (b.opened.map fun g => g.slot.isSome).getD false
    s.modBob n fun b => { b with opened := none, complete := b.complete + b2n (whole b),
                                 events := if extra.getLsbD 0 then setBit b.events 1 else b.events }

/-- The running input bobbins of a far end. -/
def State.feeding (s : State) (src : Nat) (port : Nat) (sel : Byte → Bool) : List (Fin 48) :=
  (allFin 48).filter fun n =>
    let b := s.bobbins[n]
    b.bound && !b.dirOut && decide (b.source.toNat = src ∧ b.port.toNat = port) && sel b.channel &&
    decide (b.fsm.st = .on)
/-- The image data types of R408 by their codes of CSI-2 v3.0 (log 159): YUV422 8-bit, RGB888, RAW8, RAW10, RAW12, RAW14. -/
def csiImageTypes : List (BitVec 6) := [0x1E, 0x24, 0x2A, 0x2B, 0x2C, 0x2D]
/-- The CHANNEL type group of a CSI-2 data type (R412); 3, which no bobbin names, for a type R408 does not list. -/
def csiGroup (dt : BitVec 6) : Nat :=
  if dt = 0x12 then 1 else if 0x30 ≤ dt ∧ dt ≤ 0x37 then 2 else if csiImageTypes.contains dt then 0 else 3
/-- A CSI-2 port register changed. -/
def State.modCsi (s : State) (p : Fin 8) (f : Word → Word) (errs : Word → Word) : State :=
  s.modIo fun i => { i with csiStatus := upd i.csiStatus p f, csiErrors := upd i.csiErrors p errs }
/-- Whether a configuration is one R408 lists: 1, 2 or 4 lanes, 80 Mb/s to 2.5 Gb/s (R8, R9). -/
def csiCfgOk (w : Word) : Bool :=
  decide ((fld w 2 0 = 1 ∨ fld w 2 0 = 2 ∨ fld w 2 0 = 4) ∧ 8 ≤ fld w 15 8 ∧ fld w 15 8 ≤ 250)
/-- Whether a CSI-2 port is enabled: a port set to an option R408 does not list receives nothing (log 159). -/
def State.csiOn (s : State) (p : Fin 8) : Bool := s.io.csiCfg[p].getLsbD 5 && csiCfgOk s.io.csiCfg[p]

/-- CSI2_FRAME_START (R415, R417, R418). -/
def csiStart (p : Fin 8) (vc : Fin 16) (time : DWord) (s : State) : State :=
  if !s.csiOn p then s
  else
    let s : State := s.modCsi p (fun w => setBit w 5) id
    (s.feeding 0 p.val fun c => decide (fld c 3 0 = vc.val)).foldl (fun s n =>
      (s.closeFrame n 1).openFrame n time vc.val) s
/-- Sixteen-bit counts in one word that saturate. -/
def bumpHalf (w : Word) (hi : Bool) : Word :=
  if hi then (if fld w 31 16 = 0xFFFF then w else w + 0x10000) else if fld w 15 0 = 0xFFFF then w else w + 1
/-- CSI2_PACKET (R412, R418): a line padded to 64 bytes; a discarded or bad packet sets CRC_ERR. -/
def csiPacket (p : Fin 8) (vc : Fin 16) (dt : BitVec 6) (h : EccResult) (crcOk : Bool) (payload : List Byte) (s : State) :
    State :=
  if !s.csiOn p then s
  else
    let bad : Bool := match h with
      | .failed => true
      | _ => !crcOk
    let s : State := match h with
      | .corrected => s.modCsi p id fun w => bumpHalf w false
      | _ => s
    let s : State := if bad then s.modCsi p id (fun w => bumpHalf w true) else s
    let line := payload ++ List.replicate ((64 - payload.length % 64) % 64) 0
    let mine (c : Byte) : Bool := decide (fld c 3 0 = vc.val) && (decide (h = .failed) || decide (fld c 7 4 = csiGroup dt))
    (s.feeding 0 p.val mine).foldl (fun s n =>
      let mark (f : OpenFrame) : OpenFrame := { f with
        flags := if bad then setBit f.flags 1 else f.flags
        info := if f.len = 0 ∧ h ≠ .failed then BitVec.ofNat 32 (vc.val + 256 * dt.toNat) else f.info }
      let s : State := s.modBob n fun b => { b with
        opened := b.opened.map mark
        events := if bad ∧ b.opened.isSome then setBit b.events 2 else b.events }
      if h = .failed then s else s.addPayload n line) s
/-- CSI2_FRAME_END (R416). -/
def csiEnd (p : Fin 8) (vc : Fin 16) (s : State) : State :=
  if !s.csiOn p then s
  else
    let s : State := s.modCsi p (fun w => clrBit w 5) id
    (s.feeding 0 p.val fun c => decide (fld c 3 0 = vc.val)).foldl (fun s n => s.closeFrame n 0) s

/-- The data-port entry of a SoundWire far end (R412, R422): CHANNEL_MASK, word bits, rate code. -/
def State.sdwEntry (s : State) (m : Nat) (ch : Byte) : Option (Nat × Nat × Nat) :=
  ((s.io.sdwDp[Fin.ofNat 4 m]).toList.find? fun w => w.getLsbD 24 && decide (fld w 7 4 = fld ch 3 0 ∧ fld w 3 0 = fld ch 7 4)).map
    fun w => (fld w 15 8, fld w 20 16 + 1, fld w 23 21)
/-- Set bits of a number below 2^8. -/
def popN (m : Nat) : Nat := sumN ((List.range 8).map fun i => bitsN m i i)
/-- Channels of a SoundWire bobbin. -/
def State.sdwChannels (s : State) (b : Bobbin) : Nat :=
  ((s.sdwEntry b.port.toNat b.channel).map fun x => popN x.1).getD 0

/-! ### Output frames (R419) -/

/-- Frame number k is one dropped already. -/
def Bobbin.skipped (b : Bobbin) (k : Nat) : Bool := b.skips.any fun r => decide (r.1 < k ∧ k ≤ r.2)
/-- The consumer count written back. -/
def State.writeCount (s : State) (n : Fin 48) : State :=
  s.bobPut n (s.countAddr s.bobbins[n]) (leBytes 8 s.bobbins[n].consumed)
/-- Frames that cannot be sent passed over: those dropped as the newest, and slots whose SEQ differs, counted. -/
def State.passOver (s : State) (n : Fin 48) : Nat → State
  | 0 => s
  | fuel + 1 =>
    let b := s.bobbins[n]
    let k := b.consumed + 1
    if b.produced < k then s
    else if b.skipped k then ((s.modBob n fun b => { b with consumed := k }).writeCount n).passOver n fuel
    else match s.bobGet b (b.ring.toNat + b.slotOff k) 64 with
      | none => ((s.modBob n fun b => { b.drop with consumed := k, events := setBit b.drop.events 5 }).writeCount n).passOver n fuel
      | some h =>
        if leAt h 0 8 = k then s
        else ((s.modBob n fun b => { b.drop with consumed := k }).writeCount n).passOver n fuel
/-- PRODUCED read at a tick (R419): frames above CONSUMED plus the slots are the newest and are dropped. -/
def State.readProduced (s : State) (n : Fin 48) : State :=
  let b := s.bobbins[n]
  match s.bobGet b (b.ring.toNat + 16) 8 with
  | none => s.modBob n fun b => { b with events := setBit b.events 5 }
  | some l =>
    let p := leNat l
    let lim := max (b.consumed + b.size) b.produced
    if lim < p then
      s.modBob n fun b => { b with
        produced := p, skips := b.skips ++ [(lim, p)], dropped := satAdd b.dropped (p - lim), events := setBit b.events 0,
        dropsRow := b.dropsRow + (p - lim) }
    else s.modBob n fun b => { b with produced := max p b.produced }
/-- The payload of the next frame to send, its number given. -/
def State.frameBytes (s : State) (b : Bobbin) (k : Nat) : List Byte :=
  let a := b.ring.toNat + b.slotOff k
  let len := (s.bobGet b (a + 24) 4).map leNat
  ((s.bobGet b (a + 64) (min (len.getD 0) b.frame.toNat))).getD []
/-- OUTPUT_FRAME_SENT (R419, R421): one frame is out; an I3C frame that is not acknowledged is dropped. -/
def outputSent (n : Fin 48) (acked : Bool) (s : State) : State :=
  let b := s.bobbins[n]
  let ready : Bool := b.bound && b.dirOut && decide (b.source ≠ 3) &&
    decide (b.fsm.st = .on ∨ (b.fsm.st = .falling ∧ b.opened.isSome))
  if !ready then s
  else
    let s : State := s.passOver n b.size
    let b := s.bobbins[n]
    let k := b.consumed + 1
    let whole : Bool := match b.source.toNat, b.opened with
      | 1, some f => decide (b.frame.toNat ≤ f.len)
      | 1, none => false
      | _, _ => true
    if b.produced < k ∨ !whole then s
    else
      let lost := decide (b.source = 2) && !acked
      let s : State := if lost then s else s.emit (.frameOut n (s.frameBytes b k))
      (s.modBob n fun b =>
        let b := if lost then b.drop else { b with published := b.published + 1 }
        { b with consumed := k, opened := none }).writeCount n
/-- SOUNDWIRE_SAMPLE_INSTANT (R412, R415, R419). -/
def soundwireSample (n : Fin 48) (time : DWord) (samples : List Word) (s : State) : State :=
  let b := s.bobbins[n]
  match (if b.bound ∧ b.source = 1 then s.sdwEntry b.port.toNat b.channel else none) with
  | none => s
  | some (mask, bits, rate) =>
    let ch := popN mask
    if !b.dirOut then
      if b.fsm.st ≠ .on then s
      else
        let s : State := if b.opened.isSome then s else s.openFrame n time (ch + 16 * rate)
        let keep (w : Word) : Word := w &&& BitVec.ofNat 32 (2 ^ 32 - 2 ^ (32 - bits))
        let s : State := s.addPayload n (((List.range ch).map fun i => leBytes 4 (keep (samples.getD i 0)).toNat).flatten)
        if (s.bobbins[n].opened.map OpenFrame.len) = some s.bobbins[n].frame.toNat then s.closeFrame n 0 else s
    else if b.fsm.st = .off ∨ b.fsm.st = .rising ∨ (b.fsm.st = .falling ∧ b.opened.isNone) then s
    else
      let s : State := if b.opened.isSome then s else s.passOver n b.size
      let b := s.bobbins[n]
      match b.opened with
      | some f => s.modBob n fun b => { b with opened := some { f with len := f.len + 4 * ch } }
      | none =>
        if b.consumed < b.produced then
          s.modBob n fun b => { b with opened := some ⟨some (b.consumed + 1), 0, time, 4 * ch, 0, 0⟩ }
        else (s.modBob n fun b => { b with events := setBit b.events 4 }).emit (.zeroSample n ch)

/-- IBI (R412, R415): the payload is one input frame; one above 256 bytes is not supported and is refused (R408). -/
def ibiFrame (ctl : Fin 2) (addr : BitVec 7) (time : DWord) (payload : List Byte) (s : State) : State :=
  if !s.io.i3cCfg[ctl].getLsbD 5 ∨ 256 < payload.length then s
  else (s.feeding 2 ctl.val fun c => decide (c.toNat = addr.toNat)).foldl (fun s n =>
    ((s.openFrame n time addr.toNat).addPayload n payload).closeFrame n 0) s
/-- HOT_JOIN (R410): the lowest free dynamic address, statics skipped, in the first entry that is not VALID. -/
def hotJoined (ctl : Fin 2) (s : State) : State :=
  let cfg := s.io.i3cCfg[ctl]
  if !cfg.getLsbD 5 ∨ !cfg.getLsbD 3 then s else s.i3cAssign ctl

/-! ### Host rings (R420) -/

/-- The host bus address of a bobbin's host ring, as a yarn address. -/
def State.hostRing (s : State) (b : Bobbin) : Option Nat :=
  (s.bobGet b (b.ring.toNat + 40) 8).map fun l => hostBase + leNat l
/-- A host frame copied into the hank ring (DIR 0). -/
def State.takeHost (s : State) (n : Fin 48) (h : Nat) (time : DWord) (k : Nat) : State :=
  let b := s.bobbins[n]
  let a := h + b.slotOff k
  let len := min (leNat (memRead s.mem (a + 24) 4)) b.frame.toNat
  let bs := memRead s.mem (a + 64) len
  let s : State := ((s.openFrame n time 0).addPayload n bs).closeFrame n 0
  (s.modBob n fun b => { b with produced := k }).put (h + 32) ((leBytes 8 k).map some)
/-- A hank frame copied into the host ring, or dropped where that is full (DIR 1). -/
def State.giveHost (s : State) (n : Fin 48) (h : Nat) (time : DWord) : State :=
  let s : State := s.passOver n s.bobbins[n].size
  let b := s.bobbins[n]
  let k := b.consumed + 1
  if b.produced < k then s
  else
    let full := decide (b.size ≤ b.complete - leNat (memRead s.mem (h + 32) 8))
    let bs := s.frameBytes b k
    let j := b.complete + 1
    let s : State := if full then s.modBob n Bobbin.drop else
      let s : State := s.put (h + b.slotOff j)
        ((slotHeader k time.toNat s.tick.count.toNat bs.length (if b.dropsSince = 0 then 0 else 4) 0 ++ bs).map some)
      (s.modBob n fun b => { b with complete := j, published := b.published + 1, dropsSince := 0 }).put (h + 16) ((leBytes 8 j).map some)
    (s.modBob n fun b => { b with consumed := k }).writeCount n
/-- HOST_RING_POLL (R420). -/
def pollHostRing (n : Fin 48) (time : DWord) (s : State) : State :=
  let b := s.bobbins[n]
  if !(b.bound && decide (b.source = 3 ∧ b.fsm.st = .on)) ∨ s.hostPath.isNone then s
  else match s.hostRing b with
    | none => s.modBob n fun b => { b with events := setBit b.events 5 }
    | some h =>
      if !b.dirOut then
        let p := leNat (memRead s.mem (h + 16) 8)
        (List.range (min (p - b.produced) b.size)).foldl (fun s i => s.takeHost n h time (b.produced + 1 + i)) s
      else (List.range b.size).foldl (fun s _ => s.giveHost n h time) s

/-! ### The tick (R416, R417, R419) -/

/-- Step 3 of R27 for one bobbin: frames complete before the tick are published. -/
def State.publishOne (s : State) (n : Fin 48) : State :=
  let b := s.bobbins[n]
  if !b.bound ∨ b.dirOut ∨ b.complete = b.published.toNat ∨ s.bobLowPower n then s
  else match s.bobAt b (b.ring.toNat + 16) 8 true with
    | none => s.modBob n fun b => { b with events := setBit b.events 5 }
    | some a =>
      (s.putOwn b.swatch a ((leBytes 8 b.complete).map some)).modBob n fun b =>
        { b with published := BitVec.ofNat 64 b.complete, lastRow := s.tick.count }
/-- Step 3 of R27. -/
def State.publish (s : State) : State := (allFin 48).foldl State.publishOne s
/-- BOBBIN_DROP events of a row (R417). -/
def State.dropEvents (s : State) (row : DWord) : State :=
  (allFin 48).foldl (fun s n =>
    let k := s.bobbins[n].dropsRow
    if k = 0 then s
    else (s.modBob n fun b => { b with dropsRow := 0 }).eventN 0x0B n.val stNoResource k row) s
/-- What Shuskaub does at a tick beside publishing (R417, R419, R422): consumer counts and PRODUCED are read, FSYNC pulses. -/
def State.shusTick (s : State) : State :=
  let s : State := (allFin 48).foldl (fun s n =>
    let b := s.bobbins[n]
    if !b.bound ∨ s.bobLowPower n then s
    else if b.dirOut then (if b.fsm.st = .on then s.readProduced n else s)
    else s.readCount n) s
  (allFin 8).foldl (fun s p => if s.io.csiCfg[p].getLsbD 6 then s.emit (.fsync p) else s) s

/-! ### Stream commands (R161, R162, R412, R413, R421) -/

/-- BOB_STATUS[7:0] of a bobbin. -/
def State.bobStatus (s : State) (n : Fin 48) : Nat := fld (s.bobRead (0x100 * n.val + 8)) 7 0
/-- The bobbin a stream command names. -/
def bobOf (e : Entry) : Fin 48 := Fin.ofNat 48 (e.u 8 1)
def bobBad (e : Entry) : List Nat := if e.u 8 1 < 48 then [] else [8]
/-- Whether a bobbin is granted, to whomever: every basic command that would touch it is refused (R127). -/
def bobDeny (e : Entry) (s : State) : Bool := s.granted 7 (e.u 8 1)
/-- Far-end fields out of range (R412). -/
def farBad (e : Entry) (s : State) : List Nat :=
  let port := e.u 10 1
  let ch := e.u 11 1
  let dir := e.u 12 1
  let portOk : Bool := match e.u 9 1 with
    | 0 => decide (port ≤ 7)
    | 1 => decide (port ≤ 3)
    | 2 => decide (port ≤ 1)
    | _ => decide (port = 0)
  let chOk : Bool := match e.u 9 1 with
    | 0 => decide (ch / 16 ≤ 2)
    | 1 => decide (1 ≤ ch % 16 ∧ ch % 16 ≤ 14 ∧ 1 ≤ ch / 16 ∧ ch / 16 ≤ 11)
    | 2 => decide (8 ≤ ch ∧ ch ≤ 0x7D)
    | _ => decide (ch = 0)
  let frame := e.u 16 4
  let sdw : Bool := match e.u 9 1, s.sdwEntry port (BitVec.ofNat 8 ch) with
    | 1, some x => decide (frame % (4 * popN x.1) = 0)
    | _, _ => true
  let chk (ok : Bool) (o : Nat) : List Nat := if ok then [] else [o]
  chk (decide (e.u 9 1 ≤ 3)) 9 ++ chk portOk 10 ++ chk chOk 11 ++
  chk (decide (dir ≤ 1) && (decide (e.u 9 1 ≠ 0) || decide (dir = 0))) 12 ++
  chk (decide (1 ≤ e.u 13 1 ∧ e.u 13 1 ≤ 12)) 13 ++
  chk (decide (4 ≤ frame ∧ frame ≤ 0x2000000 ∧ frame % 4 = 0) && sdw) 16
/-- Where a ring may lie (R413). -/
def State.ringPlace (s : State) (e : Entry) : Bool :=
  let a := e.u 24 8
  let n := 256 + 2 ^ (e.u 13 1) * strideOf (e.u 16 4)
  let k := s.sentinelSkein.val
  let store := within a n (0x400000 * k) 0x400000
  decide (a % 256 = 0) && (store || match e.target with
    | some i => (match s.swatches[i].winAt a n with
        | some x => x.rights.getLsbD 0 && (decide (e.u 12 1 = 1) || x.rights.getLsbD 1)
        | none => false)
    | none => s.inStack a n && rangeAll s.pages (pageOf a) (pageOf (a + n - 1) + 1 - pageOf a) fun st =>
        match st with
        | .hostHeld _ => true
        | _ => false)
/-- The bobbin a BIND_BOBBIN asks for. -/
def bindRequest (e : Entry) (old : Bobbin) : Bobbin :=
  { Bobbin.reset with
    bound := true, source := BitVec.ofNat 2 (e.u 9 1), dirOut := decide (e.u 12 1 = 1), port := BitVec.ofNat 3 (e.u 10 1),
    channel := BitVec.ofNat 8 (e.u 11 1), log2Slots := BitVec.ofNat 4 (e.u 13 1), swatch := e.target,
    frame := BitVec.ofNat 32 (e.u 16 4), ring := BitVec.ofNat 64 (e.u 24 8), events := old.events }
/-- The ring header against the request (R413, R414). -/
def bindObject (e : Entry) (s : State) : Option Nat :=
  let b := bindRequest e Bobbin.reset
  match s.bobGet b b.ring.toNat 256 with
  | none => some 0xFE
  | some h =>
    let shared : Bool := match e.target with
      | some i => ((s.swatches[i].winAt b.ring.toNat 256).map fun x => decide (x.kind = 1)).getD false
      | none => (s.hankOwner b.ring.toNat 256).isSome
    let host := leAt h 40 8
    if leAt h 0 4 = 0x4E424F42 ∧ leAt h 4 2 = 1 ∧ leAt h 6 1 = e.u 12 1 ∧ leAt h 7 1 = e.u 13 1 ∧
       leAt h 8 4 = e.u 16 4 ∧ leAt h 12 4 = strideOf (e.u 16 4) ∧ (slice h 48 208).all (· = 0) ∧
       (if e.u 9 1 = 3 then leNat (memRead s.mem (hostBase + host + 24) 8) = 0 else host = 0) ∧
       (b.dirOut ∧ shared → e.target.isSome ∧ leAt h 24 8 ≠ 0) then none else some 0xFD
/-- Whether the far end of a request is enabled (R412). -/
def farOn (e : Entry) (s : State) : Bool :=
  match e.u 9 1 with
  | 0 => s.csiOn (Fin.ofNat 8 (e.u 10 1))
  | 1 => s.io.sdwCfg[Fin.ofNat 4 (e.u 10 1)].getLsbD 10 && (s.sdwEntry (e.u 10 1) (BitVec.ofNat 8 (e.u 11 1))).isSome
  | 2 => s.io.i3cCfg[Fin.ofNat 2 (e.u 10 1)].getLsbD 5
  | _ => true
/-- BIND_BOBBIN (R161, R412, R413, R500). NO_RESOURCE where another bobbin is bound to the same port and channel; bobbins on
host rings name none, so the test spares them: a DESIGN CHOICE, R162 making no exception (log 145). -/
def cmdBindBobbin : Cmd where
  op := 0x400
  target := 2
  used := [(8, 6), (16, 4), (24, 8)]
  bad := fun e s => bobBad e ++ farBad e s ++ (if s.ringPlace e then [] else [24])
  object := bindObject
  deny := bobDeny
  state := fun e s => firstOf [
    if s.bobbins[bobOf e].bound then some 2 else none,
    if e.target.isSome ∧ !s.selv.computeOk then some 3 else none,
    if farOn e s then none else some 2,
    if e.u 24 8 < 0x4000000 ∧ s.rep.run.isSome then some 2 else none]
  res := fun e s =>
    let b := bindRequest e Bobbin.reset
    if (allFin 48).any fun n =>
        let x := s.bobbins[n]
        x.bound && decide (x.source = b.source ∧ x.port = b.port ∧ x.channel = b.channel ∧ x.dirOut = b.dirOut ∧
          x.source ≠ 3)
    then some (stNoResource, 0) else none
  act := fun r e s => (s.modBob (bobOf e) (bindRequest e)).ok r
/-- UNBIND_BOBBIN (R161, R162): of an output bobbin that sends a frame, once that frame is out (R421). -/
def cmdUnbindBobbin : Cmd where
  op := 0x401
  target := 0
  used := [(8, 1)]
  bad := fun e _ => bobBad e
  deny := bobDeny
  state := fun e s => if s.bobbins[bobOf e].bound then none else some 2
  act := fun r e s =>
    let n := bobOf e
    let b := s.bobbins[n]
    let s : State := s.replyOpt b.runCmd stConflict 2
    let s : State := s.modBob n fun b => { b with runCmd := none }
    if b.dirOut ∧ b.opened.isSome ∧ b.fsm.st ≠ .off then
      (s.inFlight r 0x401 e).modBob n fun b => { b with fsm := b.fsm.disable, unbindCmd := some r }
    else (s.modBob n Bobbin.unbind).ok r
/-- RUN_BOBBIN (R161, R98, R409, R421): a start while it stops, or a stop while it starts, is deferred; a later command
replaces it. -/
def cmdRunBobbin : Cmd where
  op := 0x402
  target := 0
  used := [(8, 2)]
  bad := fun e _ => bobBad e ++ (if e.u 9 1 ≤ 1 then [] else [9])
  deny := fun e s => bobDeny e s || (decide (e.u 9 1 = 1) && s.granted 7 48)
  state := fun e s => if s.bobbins[bobOf e].bound then none else some 2
  act := fun r e s =>
    let n := bobOf e
    let s : State := s.replyOpt s.bobbins[n].runCmd stConflict 2
    let st := s.bobbins[n].fsm.st
    let start := decide (e.u 9 1 = 1)
    let wait := decide (start = true ∧ st = .falling) || decide (start = false ∧ st = .rising)
    let s : State := s.modBob n fun b =>
      let b : Bobbin := { b with runCmd := none }
      if start then { b with fsm := b.fsm.enable } else b.stop
    if wait then (s.inFlight r 0x402 e).modBob n fun b => { b with runCmd := some r }
    else s.ok r [(20, 1, s.bobStatus n)]
/-- QUERY_BOBBIN (R161). -/
def cmdQueryBobbin : Cmd where
  op := 0x403
  target := 0
  used := [(8, 1)]
  bad := fun e _ => bobBad e
  act := fun r e s =>
    let b := s.bobbins[bobOf e]
    s.ok r [(20, 8, b.published.toNat), (28, 4, b.dropped.toNat), (32, 8, b.lastRow.toNat)]

/-! ### The rows -/

def execBindBobbin (e : Entry) (s : State) : Host.Outcome State Fault Refusal := .next (cmdBindBobbin.dispatch e s)
def execUnbindBobbin (e : Entry) (s : State) : Host.Outcome State Fault Refusal := .next (cmdUnbindBobbin.dispatch e s)
def execRunBobbin (e : Entry) (s : State) : Host.Outcome State Fault Refusal := .next (cmdRunBobbin.dispatch e s)
def execQueryBobbin (e : Entry) (s : State) : Host.Outcome State Fault Refusal := .next (cmdQueryBobbin.dispatch e s)
def execCsi2FrameStart (csi : Fin 8) (vc : Fin 16) (time : DWord) (s : State) : Host.Outcome State Fault Refusal :=
  .next (csiStart csi vc time s)
def execCsi2Packet (csi : Fin 8) (vc : Fin 16) (dataType : BitVec 6) (header : EccResult) (crcOk : Bool)
    (payload : List Byte) (s : State) : Host.Outcome State Fault Refusal :=
  .next (csiPacket csi vc dataType header crcOk payload s)
def execCsi2FrameEnd (csi : Fin 8) (vc : Fin 16) (s : State) : Host.Outcome State Fault Refusal := .next (csiEnd csi vc s)
def execSoundwireSampleInstant (b : Fin 48) (time : DWord) (samples : List Word) (s : State) :
    Host.Outcome State Fault Refusal := .next (soundwireSample b time samples s)
def execIbi (ctl : Fin 2) (addr : BitVec 7) (time : DWord) (payload : List Byte) (s : State) :
    Host.Outcome State Fault Refusal := .next (ibiFrame ctl addr time payload s)
def execHotJoin (ctl : Fin 2) (s : State) : Host.Outcome State Fault Refusal := .next (hotJoined ctl s)
def execOutputFrameSent (b : Fin 48) (acked : Bool) (s : State) : Host.Outcome State Fault Refusal :=
  .next (outputSent b acked s)
def execHostRingPoll (b : Fin 48) (time : DWord) (s : State) : Host.Outcome State Fault Refusal :=
  .next (pollHostRing b time s)
/-- SHUS_TICK (R416, R415): Shuskaub's part of the tick that closed `row`. -/
def execShusTick (row : DWord) (s : State) : Host.Outcome State Fault Refusal :=
  .next (if s.selv.ready ∧ row + 1 = s.tick.count then s.shusTick else s)

end Sys2Proof.Machine
end

