-- ==== Sys2Proof/Machine/Tick.lean ====
section
/-! DEFINITION. The row tick (02 R27 to R29, 07 R180 to R193): finished rows, overruns, flips, program starts, the tick
commands (06 R163, R164), the publish gate. -/
namespace Sys2Proof.Machine
open Sys2Proof

/-! ### Program starts (R270) -/

/-- A needle at its program start. -/
def Needle.start (x : Needle) (k : Knit) : Needle :=
  { x.cleared with
    st := .running
    pc := BitVec.ofNat 17 k.entry.toNat
    s := Vector.ofFn fun i => if h : 1 ≤ i.val ∧ i.val ≤ 4 then k.args[i.val - 1] else 0 }
/-- The program of a swatch started on its needles (R185): the draft state of every agent of the swatch is 0 (08 R206). -/
def State.startProgram (s : State) (i : Fin 8) (k : Knit) : State :=
  (((s.modNeedlesOf i fun x => x.start k).resetChans i).modCoresOf i fun c => { c with draft := 0 }).modSw i fun w =>
    { w with finished := false }

/-! ### Ending a KNIT (R152, R153) -/

/-- The status of a KNIT's reply (R152). -/
def Knit.status (k : Knit) : Nat := if k.media then stMediaError else if k.frogged ≠ 0 then stOverrun else stOk
/-- Whether rows remain (R152, R153, R194). -/
def Knit.more (k : Knit) : Bool := !k.stop && (decide (k.rows = 0) || decide (k.committed + k.frogged < k.rows.toNat))
/-- The result of a KNIT (R150). -/
def Knit.result (k : Knit) : List (Nat × Nat × Nat) :=
  [(20, 4, k.committed), (24, 4, k.frogged), (28, 1, k.flags.toNat), (32, 8, k.firstRow.toNat)]
/-- An open KNIT's end: Cast, the gate closed (R192). -/
def Swatch.knitEnd (w : Swatch) (stop : Bool) : Swatch :=
  { w with st := .cast, knit := none, pubDepth := 0, startNext := false,
           status := if stop then setBit w.status 7 else w.status }
/-- A KNIT completed with the row of the tick that made its last work visible (R29, R152). -/
def State.endKnit (s : State) (i : Fin 8) (row : DWord) : State :=
  match s.swatches[i].knit with
  | none => s
  | some k =>
    let k : Knit := if k.stop then { k with flags := setBit k.flags 2 } else k
    let s : State := (s.modNeedlesOf i Needle.cleared).modSw i fun w => w.knitEnd k.stop
    s.reply k.cmd k.status 0 k.result 0 (some (if k.committed = 0 then row else k.lastRow))

/-! ### The commit actions (R27) -/

/-- Step 1 for one swatch (R186): the overrun of a hard row that has not finished. -/
def State.overrun (s : State) (i : Fin 8) : State :=
  let frog (k : Knit) : Knit := { k with frogged := k.frogged + 1 }
  (s.abandonRow i).modSw i fun w => { w with
    st := .frogged, status := setBit w.status 0, overruns := satAdd w.overruns 1, knit := w.knit.map frog }
/-- Step 2 for one swatch: its hanks flip (R190, R193). -/
def State.flip (s : State) (i : Fin 8) (row : DWord) : State :=
  let up (k : Knit) : Knit := { k with committed := k.committed + 1, lastRow := row }
  s.modSw i fun w => { w with flipCount := w.flipCount + 1, lastRow := row, knit := w.knit.map up }
/-- What a tick finds of each swatch: an overrun, a finished row, ended work, a running loose one, a program to start. -/
inductive TickKind | none | over | finished | ended | running | start
deriving DecidableEq, Repr
/-- The latched finish state of a swatch (R181, R184). -/
def State.tickKind (s : State) (i : Fin 8) : TickKind :=
  let w := s.swatches[i]
  if w.knitting then
    if w.cls = .hard then (if s.rowDone i then .finished else .over)
    else if s.rowDone i then .ended
    else if w.cls = .loose then .running else .none
  else if w.st = .knitting ∨ (w.st = .cast ∧ ((w.knit.map Knit.armed).getD false)) then .start
  else .none
/-- Steps 1 and 2 for one swatch. -/
def State.commitOne (s : State) (row : DWord) (x : Fin 8 × TickKind) : State :=
  let i := x.1
  match x.2 with
  | .over => s.overrun i
  | .finished => (s.noteFinish i).flip i row
  | .ended => s.flip i row
  | .running => if s.swatches[i].pubDepth = 0 then s.flip i row else s.swStatus i 4
  | _ => s
/-- Starts and ends after the commit: the next row of a hard swatch, an armed or restored program, or the end of the KNIT
(R152, R194, R198). -/
def State.carryOn (s : State) (row : DWord) (x : Fin 8 × TickKind) : State :=
  let i := x.1
  let begun (k : Knit) : Knit := if k.armed then { k with armed := false, firstRow := row + 1 } else k
  match x.2, s.swatches[i].knit with
  | .finished, some k => if k.more then s.startProgram i k else s.endKnit i row
  | .ended, some _ => s.endKnit i row
  | .start, some k =>
    if k.stop then s.endKnit i row
    else (s.startProgram i k).modSw i fun w => { w with st := .knitting, startNext := false, knit := w.knit.map begun }
  | _, _ => s
/-- A gauge change and a stitch map that wait for the tick (R234, R255): MAP_SWAP, the new channels empty. -/
def State.swapMaps (s : State) (row : DWord) (i : Fin 8) : State :=
  let w := s.swatches[i]
  let s : State := match w.nearNext with
    | some g => s.modSw i fun w => { w with near := g, nearNext := none }
    | none => s
  match w.mapNext with
  | none => s
  | some m =>
    let s : State := match w.map with
      | some old => s.sendTwinChains i old true
      | none => s
    let s : State := s.sendTwinChains i m false
    let s : State := s.modSkeinsOf i fun x => { x with stch := { x.stch with events := setBit x.stch.events 2 } }
    let s : State := { s.modSw i fun w => { w with map := some m, mapNext := none, mapRow := row + 1 } with
      chans := s.chans.filter fun c => decide (c.swatch ≠ i) }
    s.grantTwin i fun _ => true
/-- WAIT_TICKs of this row, or of a row that has passed (R164). -/
def State.answerWaits (s : State) (row : DWord) : State :=
  let due := s.tick.waits.filter fun w => decide (w.row.toNat ≤ row.toNat)
  let s : State := s.modTick fun t => { t with waits := t.waits.filter fun w => decide (row.toNat < w.row.toNat) }
  due.foldl (fun s w => s.reply w.cmd stOk 0 [] 0 (some row)) s
/-- OVERRUN events of a tick (R186, R120). -/
def State.overrunEvents (s : State) (row : DWord) (l : List (Fin 8 × TickKind)) : State :=
  l.foldl (fun s x => if x.2 = .over then s.eventN 0x01 x.1.val stOverrun 1 row else s) s
/-- The row advances (R180, R181); TICK_COMMIT_LAST is a free value (log 11). Every core's tick line is raised (R401). -/
def State.nextRow (s : State) : State :=
  let s : State := s.modTick fun t => { t with
    count := t.count + 1, period := t.nextPeriod, phase := 0, commitLast := s.freeVal.setWidth 32 }
  let s : State := { s with
    deviceTime := s.deviceTime + BitVec.ofNat 64 s.tick.period.toNat
    distaffs := mapV s.distaffs fun _ c =>
      if c.st ≠ .off then { c with irqPending := setBit c.irqPending 16 } else c }
  s.useFree
/-- One tick (R27). -/
def State.runTick (s : State) : State :=
  let row := s.tick.count
  let kinds := (s.castList.filter fun i => s.swatches[i].st ≠ .held).map fun i => (i, s.tickKind i)
  let s : State := { s with distaffs := mapV s.distaffs fun _ c => { c with frogged := false } }
  let s : State := kinds.foldl (fun s x => s.commitOne row x) s
  let s : State := (allFin 8).foldl (fun s i => s.swapMaps row i) s
  let s : State := s.publish
  let s : State := s.nextRow
  let s : State := kinds.foldl (fun s x => s.carryOn row x) s
  let s : State := (s.answerWaits row).overrunEvents row kinds
  ((s.dropEvents row).repower true).answerPp
/-- TICK sent to Shuskaub and to a twin secondary (R60, R182). -/
def State.sendTick (s : State) (row : DWord) : State :=
  let pay := padTo 32 (leBytes 8 row.toNat)
  let s : State := match s.shusPort with
    | some p => s.sendMsg p 0x20 pay
    | none => s
  match s.twinPort with
  | some p => (s.sendMsg p 0x30 pay).modTick fun t => { t with twinDone := some row }
  | none => s
/-- ROW_TICK: the primary's tick generator runs from READY (R180). -/
def rowTick (s : State) : State :=
  if s.selv.ready && s.fuses.primary && !s.tripped then
    let s1 : State := s.sendTick s.tick.count
    s1.runTick
  else s

/-- FROG_DRAIN_DONE (R186, R194): the next row starts afresh, or the KNIT completes. -/
def frogDrained (i : Fin 8) (s : State) : State :=
  if s.swatches[i].st ≠ .frogged ∨ s.anyAccess i then s
  else match s.swatches[i].knit with
    | none => s
    | some k =>
      if k.more then (s.startProgram i k).modSw i fun w => { w with st := .knitting }
      else s.endKnit i (s.tick.count - 1)
/-- BUDGET_WINDOW_END (R187). -/
def budgetOver (i : Fin 8) (s : State) : State :=
  let w := s.swatches[i]
  if w.knitting ∧ w.cls = .hard ∧ !s.rowDone i then s.swStatus i 1 else s

/-! ### The publish gate (R192, R200) -/

/-- A write of SWT_PUB: both bits set leave the depth; CLOSE at depth 0 sets BAD_ACCESS. -/
def State.pubWrite (s : State) (i : Fin 8) (opn close : Bool) : State :=
  let w := s.swatches[i]
  if w.st = .unset ∨ opn = close then s
  else if opn then s.modSw i fun w => { w with pubDepth := satAdd w.pubDepth 1 }
  else if w.pubDepth = 0 then s.swStatus i 5
  else s.modSw i fun w => { w with pubDepth := w.pubDepth - 1 }

/-! ### The tick commands (R163, R164) -/

/-- QUERY_TICK. -/
def cmdQueryTick : Cmd where
  op := 0x500
  target := 0
  used := []
  act := fun r _ s => s.ok r [(20, 4, s.tick.period.toNat), (24, 8, s.tick.count.toNat), (32, 1, s.hardMask)]
/-- SET_TICK_PERIOD: admission is checked again (R188). -/
def cmdSetTickPeriod : Cmd where
  op := 0x501
  target := 0
  used := [(8, 4)]
  bad := fun e _ => if 5000 ≤ e.u 8 4 ∧ e.u 8 4 ≤ 10000000 then [] else [8]
  res := fun e s => (s.admission s.admitted (e.u 8 4) none).map fun n => (stAdmission, n)
  act := fun r e s =>
    (s.modTick fun t => { t with nextPeriod := BitVec.ofNat 32 (e.u 8 4) }).ok r [(20, 8, (s.tick.count + 1).toNat)]
/-- WAIT_TICK: answered at step 4 of the tick of its row. -/
def cmdWaitTick : Cmd where
  op := 0x502
  target := 0
  used := [(8, 8)]
  act := fun r e s =>
    let row := if e.u 8 8 < s.tick.count.toNat then s.tick.count else BitVec.ofNat 64 (e.u 8 8)
    (s.inFlight r 0x502 e).modTick fun t => { t with waits := t.waits ++ [⟨r, row⟩] }

/-! ### The rows -/

def execRowTick (s : State) : Host.Outcome State Fault Refusal := .next (rowTick s)
def execFrogDrainDone (swatch : Fin 8) (s : State) : Host.Outcome State Fault Refusal := .next (frogDrained swatch s)
def execBudgetWindowEnd (swatch : Fin 8) (s : State) : Host.Outcome State Fault Refusal := .next (budgetOver swatch s)
def execSwtPubOpen (swatch : Fin 8) (s : State) : Host.Outcome State Fault Refusal := .next (s.pubWrite swatch true false)
def execSwtPubClose (swatch : Fin 8) (s : State) : Host.Outcome State Fault Refusal := .next (s.pubWrite swatch false true)
def execQueryTick (e : Entry) (s : State) : Host.Outcome State Fault Refusal := .next (cmdQueryTick.dispatch e s)
def execSetTickPeriod (e : Entry) (s : State) : Host.Outcome State Fault Refusal := .next (cmdSetTickPeriod.dispatch e s)
def execWaitTick (e : Entry) (s : State) : Host.Outcome State Fault Refusal := .next (cmdWaitTick.dispatch e s)

end Sys2Proof.Machine
end

