-- ==== Sys2Proof/Machine/Regs.lean ====
section
/-! DEFINITION. The expert registers as agents reach them: who may access what (01 R25, 03 R43, 05 R125 to R128, 10 R280),
what a read and a write do (01 R13 to R18), the actions a write requests, the flag units (09 R249), the switchable
functions (04 R99), and the register rows of the table. -/
namespace Sys2Proof

/-- The answer to a packet: source and destination change places (R242). -/
def PktHead.back (h : PktHead) : PktHead := { h with src := h.dst, dst := h.src }
/-- RO through a swatch grant (R405). -/
def Agent.viaSwatch : Agent → Bool
  | .needle _ => true
  | .core _ => true
  | _ => false
/-- Who a register access of an agent is on the wire: only the host and the firmware reach the other die (R65). -/
def Agent.twinWho : Agent → Option Machine.Who
  | .host f => some (.host f)
  | .firmware => some .firmware
  | _ => none

end Sys2Proof

namespace Sys2Proof.Machine
open Sys2Proof

/-! ### Who may access a block -/

/-- Shuskaub's blocks are absent while the SHUS port is DOWN (R407). -/
def State.blkGone (s : State) (b : Blk) : Bool :=
  let shus : Bool := match b with
    | .bob => true
    | .pin => true
    | .chnOut => true
    | _ => false
  shus && (s.portsOf .shus).all fun p => decide (s.ports[p].st = .down)
/-- Whether a holder has the grant of the block an address lies in (R125, R126). -/
def State.holds (s : State) (h : Holder) (b : Blk) (off : Nat) : Bool :=
  match blkGrant b off with
  | some (cls, inst) => (s.grantOf (BitVec.ofNat 16 (cls * 2048 + inst))).map Grant.holder = some h
  | none => false
/-- Whether an agent itself holds the grant of the block an address lies in. -/
def State.agentHolds (s : State) (ag : Agent) (b : Blk) (off : Nat) : Bool :=
  match ag with
  | .host f => s.holds (.host f) b off
  | .needle n => ((s.swatchOf (skeinOf n)).map fun i => s.holds (.swatch i) b off).getD false
  | .core d => (s.distaffs[d].granted.map fun i => s.holds (.swatch i) b off).getD false
  | _ => false
/-- The skein a granted block needs powered (R511). -/
def Blk.skein : Blk → Option (Fin 16)
  | .skn k => some k
  | .ndl n => some (skeinOf n)
  | .card k _ => some k
  | .mesh k => some k
  | .stch k => some k
  | _ => none
/-- What a swatch's needles and granted core reach (R199, R200, R257, R280). -/
def State.swatchReaches (s : State) (i : Fin 8) (b : Blk) (off : Nat) (write : Bool) : Bool :=
  match b with
  | .tick => !write
  | .swt j => decide (i = j)
  | .mesh k =>
    (decide (s.swatches[i].home = k ∧ s.skeins[k].mesh.swatch = some i) &&
      decide ((0x100 ≤ off ∧ off < 0x144) ∨ (0x200 ≤ off ∧ off < 0x300))) || s.holds (.swatch i) b off
  | _ => s.holds (.swatch i) b off
/-- Whether an agent's access reaches its register (R43, R73, R199, R433, R511). -/
def State.reaches (s : State) (ag : Agent) (b : Blk) (off : Nat) (write : Bool) : Bool :=
  match ag with
  | .firmware => true
  | .jtag => !write
  | .host f => s.selv.ready && s.fnExists f && !s.fns[f].d3hot &&
      ((decide (b = .tick) && !write) ||
        (s.holds (.host f) b off && (b.skein.map s.powered).getD true))
  | .needle n => match s.swatchOf (skeinOf n) with
    | some i => s.swatchReaches i b off write
    | none => false
  | .core d => match s.distaffs[d].granted with
    | some i => s.swatchReaches i b off write
    | none => decide (b = .tick) && !write

/-! ### Flag units (R249) -/

/-- Whether a waiting flag operation is satisfied. -/
def FlagWait.done (w : FlagWait) (v : Word) : Bool := if w.eq then decide (v = w.operand) else decide (w.operand.toNat ≤ v.toNat)
/-- Waiting operations that a flag's value satisfies answered in the order they came. -/
def State.settleFlag (s : State) (k : Fin 16) (f : Fin 64) : State :=
  let v := s.skeins[k].mesh.flags[f]
  let hit (w : FlagWait) : Bool := decide (w.flag = f) && w.done v
  let due := s.skeins[k].mesh.waits.filter hit
  let s : State := s.modMesh k fun m => { m with waits := m.waits.filter fun w => !hit w }
  s.emits (due.map fun w => .flagReply w.h.back false v)
/-- A flag given a value. -/
def State.putFlag (s : State) (k : Fin 16) (f : Fin 64) (v : Word) : State :=
  (s.modMesh k fun m => { m with flags := m.flags.set f v }).settleFlag k f
/-- A flag operation at the home unit, in order of arrival. -/
def State.flagOp (s : State) (k : Fin 16) (h : PktHead) (op : FlagKind) (f : Fin 64) (x : Word) : State :=
  let old := s.skeins[k].mesh.flags[f]
  let wait (eq : Bool) : State := (s.modMesh k fun m => { m with waits := m.waits ++ [FlagWait.mk h f eq x] }).settleFlag k f
  match op with
  | .set => (s.emit (.flagReply h.back false old)).putFlag k f x
  | .add => (s.emit (.flagReply h.back false old)).putFlag k f (old + x)
  | .waitGe => wait false
  | .waitEq => wait true

/-! ### Actions -/

/-- The LFSR state a seed gives (R357). -/
def lfsrSeed (w : Word) : Word := if w = 0 then 1 else w
/-- Statistics, histogram and counts cleared (R367). -/
def Carder.clearStats (c : Carder) : Carder :=
  { c with nan := 0, clip := 0, count := 0, min := 0x7F800000, max := 0xFF800000, absmax := 0, sum := (0, 0), sumsq := (0, 0)
           hist := Vector.replicate 64 0 }
/-- Formats a carded view may name (R369). -/
def viewFmtOk (f : Nat) : Bool := decide (f ≤ 4 ∨ (7 ≤ f ∧ f ≤ 12))
/-- The stored bytes a view of a size reaches (R369). -/
def View.storedSize (v : View) : Nat := v.size.toNat * 65536 * fmtWidth v.storedFmt.toNat / fmtWidth v.viewFmt.toNat
/-- A view's configuration as R369 and R372 demand it. -/
def State.viewOk (s : State) (p : Fin 10) (v : View) : Bool :=
  let c := s.edgeCarders[p]
  let sf := v.storedFmt.toNat
  let vf := v.viewFmt.toNat
  let ratio : Bool := decide (fmtWidth vf ≤ 8 * fmtWidth sf ∧ fmtWidth sf ≤ 4 * fmtWidth vf)
  viewFmtOk sf && viewFmtOk vf && ratio && decide (v.stored.toNat % 256 = 0 ∧ 1 ≤ v.size.toNat ∧ v.size.toNat ≤ 16384) &&
  s.portServes p v.stored.toNat v.storedSize &&
  slotConverts c.slots[Fin.ofNat 16 v.readSlot.toNat] sf vf && slotConverts c.slots[Fin.ofNat 16 v.writeSlot.toNat] vf sf
/-- A write to an edge carder's view word: an enable of a bad configuration leaves OFF and sets CFG_ERR (R372). -/
def State.pokeView (s : State) (p : Fin 10) (off : Nat) (w : Word) : State :=
  let i : Fin 4 := Fin.ofNat 4 ((off - 0x400) / 0x20)
  let old := s.edgeCarders[p].views[i]
  let s1 : State := s.blkPoke (.edgeCard p) off w
  let v := s1.edgeCarders[p].views[i]
  if old.fsm.st = .off ∧ v.fsm.st = .rising ∧ !s1.viewOk p v then
    let back (x : View) : View := { x with fsm := ⟨true, .off, false, false⟩ }
    s1.modEdgeCarder p fun c => { c with views := upd c.views i back, events := setBit c.events 5 }
  else s1

/-- RUN of a host-owned core (R405, R406): from DST_RESET_PC, in machine mode; deferred while it halts. -/
def Distaff.run (c : Distaff) : Distaff :=
  if c.halting then { c with pendingRun := true }
  else match c.st with
    | .off => { c with st := .running, pc := c.resetPc, mode := 3, retired := 0, wait := .none, reserved := none }
    | .halted => { c with st := .running, pc := c.resetPc, mode := 3, retired := 0, wait := .none, reserved := none }
    | _ => c
/-- HALT (R405, R406): a core that waits halts at the instruction that waits. -/
def Distaff.halt (c : Distaff) : Distaff :=
  if c.pendingRun then { c with pendingRun := false }
  else match c.st with
    | .running => { c with halting := true }
    | .waiting => { c with st := .halted, wait := .none }
    | _ => c
/-- A halting core at its instruction boundary. -/
def Distaff.haltDone (c : Distaff) : Distaff :=
  if !c.halting then c
  else
    let c' : Distaff := { c with halting := false, st := .halted, wait := .none, pendingRun := false }
    if c.pendingRun then c'.run else c'

/-- HALT, RUN and STEP of a needle (R295, R296): a HALT at once between instructions, otherwise when the wait ends; RUN
and STEP of a halted needle only, whose program has not ended. -/
def Needle.control (x : Needle) (w : Word) : Needle :=
  let x : Needle := if w.getLsbD 0 ∧ x.st = .running then
      (if x.wait = .none then { x with st := .halted, haltReq := false, stepReq := false } else { x with haltReq := true })
    else x
  let x : Needle := if w.getLsbD 1 ∧ x.st = .halted ∧ x.wait ≠ .ended then { x with st := .running } else x
  if w.getLsbD 2 ∧ x.st = .halted ∧ x.wait ≠ .ended then { x with st := .running, stepReq := true } else x
/-- An instruction boundary: a pending HALT or the end of a STEP takes effect (R296). -/
def Needle.boundary (x : Needle) : Needle :=
  if x.st = .running ∧ x.wait = .none ∧ (x.haltReq ∨ x.stepReq) then
    { x with st := .halted, haltReq := false, stepReq := false }
  else x
/-- A wait that ends. -/
def State.wake (s : State) (n : Fin 96) (f : Needle → Needle) : State :=
  s.modNeedle n fun x => (f { x with wait := .none }).boundary
/-- Needles that wait for a mover go on (R283). -/
def State.moverWake (s : State) (k : Fin 16) (m : Fin 2) : State :=
  (allFin 6).foldl (fun s j =>
    let n := needleOf k j
    if (s.needles[n]).wait = .mover m then s.wake n id else s) s
/-- CLEAR of a mover (R293, R294): it is idle then, and a needle that waits for that goes on (R283). -/
def State.clearMover (s : State) (k : Fin 16) (m : Fin 2) : State :=
  let may : Bool := match s.swatchOf k with
    | some i => decide ((s.grantOf (BitVec.ofNat 16 (2048 + k.val))).map Grant.holder = some (.swatch i))
    | none => true
  if may then
    let s : State := { s with accesses := s.accesses.map fun a => if a.who = .mover k m then { a with dest := .none, live := false } else a }
    (s.modMover k m fun x => { x with queue := [], fault := none }).moverWake k m
  else s

/-- Pins given an output level. -/
def State.pinOut (s : State) (mask : Word) (b : Bool) : State :=
  { s with pins := mapV s.pins fun p x => if mask.getLsbD p.val then { x with cfg := putBit x.cfg 4 b } else x }

/-- The next character of the TX FIFO sent, if the UART is idle and enabled (R427). -/
def State.uartNext (s : State) : State :=
  match s.io.uartTx with
  | c :: rest =>
    if s.io.uartBusy ∨ !s.io.uartCfg.getLsbD 0 then s
    else (s.modIo fun i => { i with uartTx := rest, uartBusy := true }).emit (.uart c)
  | [] => s
/-- A character pushed to the TX FIFO of 64 entries. -/
def State.uartPush (s : State) (c : Byte) : State :=
  if 64 ≤ s.io.uartTx.length then s else (s.modIo fun i => { i with uartTx := i.uartTx ++ [c] }).uartNext

/-- The sequencer operation of an OP code (R464). -/
def SeqOp.ofCode : Nat → Option SeqOp
  | 1 => some .reset | 2 => some .sendChar | 3 => some .readChar | 4 => some .rollWindow | 5 => some .ackSlot
  | 6 => some .strong | 7 => some .endGap | 8 => some .sendFrame | 9 => some .recvFrame
  | _ => none
/-- A write of CHN_SEQ_CMD (R464): ignored while BUSY. -/
def State.seqCmd (s : State) (w : Word) : State :=
  match SeqOp.ofCode (fld w 3 0) with
  | none => s
  | some op =>
    if s.chain.busy then s
    else
      let s : State := s.modChain fun c => { c with seqOp := some op, strong := decide (op = .strong) }
      let s : State := if op = .sendFrame then s.emit (.chainCmd (s.chain.frameBuf.toList.take (min 256 (fld w 31 16)))) else s
      s.emit (.chainSeq op w)

/-! ### Writes -/

/-- A write of an RW1C word: the events cleared; none where the word is no RW1C word. -/
def State.blkW1c (s : State) (b : Blk) (off : Nat) (w : Word) : Option State :=
  let off' := off
  match b with
  | .selv => if off' = 4 then some (s.modSelv fun v => { v with fault := v.fault &&& ~~~w }) else none
  | .tally => if off' = 4 then some (s.modTally fun t => { t with events := t.events &&& ~~~w }) else none
  | .tick => if off' = 0x18 then some (s.modTick fun t => { t with status := t.status &&& ~~~w }) else none
  | .swt i => if off' = 0xC then some (s.modSw i fun x => { x with status := x.status &&& ~~~w }) else none
  | .gauge => if off' = 0x10 then some { s with gauge := { s.gauge with events := s.gauge.events &&& ~~~w } } else none
  | .rep => if off' = 8 then some (s.modRep fun r => { r with events := r.events &&& ~~~w }) else none
  | .chnIn => if off' = 4 then some (s.modInner fun c => { c with events := c.events &&& ~~~w }) else none
  | .mesh k => if off' = 8 then some (s.modMesh k fun m => { m with events := m.events &&& ~~~w }) else none
  | .stch k => if off' = 0x10 then some (s.modStch k fun t => { t with events := t.events &&& ~~~w }) else none
  | .card k m => if off' = 8 then some (s.modCarder k m fun c => { c with events := c.events &&& ~~~w }) else none
  | .edgeCard p => if off' = 8 then some (s.modEdgeCarder p fun c => { c with events := c.events &&& ~~~w }) else none
  | .edge p => if off' = 0xC then some (s.modPort p fun e => { e with events := e.events &&& ~~~w }) else none
  | .stk i => if off' = 0xC then some (s.modStack i fun t => { t with events := t.events &&& ~~~w }) else none
  | .dst d => if off' = 0x10 then some (s.modDst d fun c => { c with irqPending := c.irqPending &&& ~~~w }) else none
  | .l2 => if off' = 0 then some { s with l2Events := s.l2Events &&& ~~~w } else none
  | .bob =>
    if off' < 0x3000 ∧ off' % 0x100 = 0xC then
      some (s.modBob (Fin.ofNat 48 (off' / 0x100)) fun b => { b with events := b.events &&& ~~~w })
    else if off' = 0x7008 then some (s.modIo fun i => { i with uartEvents := i.uartEvents &&& ~~~w }) else none
  | .pin => if off' = 0x8C then some { s with wakeEvents := s.wakeEvents &&& ~~~w } else none
  | .chnOut => if off' = 8 then some (s.modChain fun c => { c with events := c.events &&& ~~~w }) else none
  | _ => none

/-- A write of a mesh word (R249, R257). -/
def State.writeMesh (s : State) (k : Fin 16) (off : Nat) (w : Word) : State :=
  if !s.isHome k then s
  else if 0x100 ≤ off ∧ off < 0x140 ∧ off % 4 = 0 then
    let i : Fin 16 := Fin.ofNat 16 ((off - 0x100) / 4)
    if s.skeins[k].mesh.barriers[i].arrived.isEmpty then s.blkPoke (.mesh k) off w
    else s.modMesh k fun m => { m with events := setBit m.events 4 }
  else if 0x200 ≤ off ∧ off < 0x300 ∧ off % 4 = 0 then s.putFlag k (Fin.ofNat 64 ((off - 0x200) / 4)) w
  else s
/-- A write of a carder word (R357, R367, R372). -/
def State.writeCard (s : State) (b : Blk) (m : (Carder → Carder) → State → State) (off : Nat) (w : Word) : State :=
  let s : State := s.blkPoke b off w
  if off = 0 ∧ w.getLsbD 1 then m Carder.clearStats s
  else if off = 0xC then m (fun c => { c with lfsr := lfsrSeed w }) s
  else s
/-- Whether a write may set a block's LOCK bit: one that does not come through a grant (R128). -/
def setsLock (ag : Agent) (w : Word) : Bool :=
  match ag with
  | .firmware => w.getLsbD 31
  | .jtag => w.getLsbD 31
  | _ => false
/-- A write of an edge-port word (R16, R57, R67, R128). -/
def State.writeEdge (s : State) (ag : Agent) (p : Fin 10) (off : Nat) (w : Word) : State :=
  let s1 : State := if s.ports[p].lock then s else s.blkPoke (.edge p) off w
  if off ≠ 8 then s1
  else
    let s1 : State := s1.modPort p fun e => { e with lock := e.lock || setsLock ag w }
    if w.getLsbD 2 ∧ s1.portUp p then (s1.modPort p fun e => { e with retrainReq := true }).retrain p else s1
/-- A write of a core's word (R405, R406). -/
def State.writeDst (s : State) (d : Fin 4) (off : Nat) (w : Word) (swatch : Bool) : State :=
  if swatch ∧ (off = 8 ∨ off = 0xC) then s
  else
    let s : State := s.blkPoke (.dst d) off w
    if off ≠ 0 ∨ swatch then s
    else
      let s : State := if w.getLsbD 0 ∧ s.distaffs[d].granted.isNone ∧ s.selv.st.working then s.modDst d Distaff.run else s
      if w.getLsbD 1 then s.modDst d Distaff.halt else s
/-- A write of a bobbin or sensor-port word (R99, R421, R422). -/
def State.writeBob (s : State) (off : Nat) (w : Word) : State :=
  if off < 0x3000 ∧ off % 0x100 = 4 then
    s.modBob (Fin.ofNat 48 (off / 0x100)) fun b =>
      if w.getLsbD 0 then (if b.bound then { b with fsm := b.fsm.enable } else b) else b.stop
  else if off = 0x700C then s.uartPush (w.setWidth 8)
  else if off = 0x7000 then (s.blkPoke .bob off w).uartNext
  else s.blkPoke .bob off w
/-- A write of a pin word. -/
def State.writePins (s : State) (off : Nat) (w : Word) : State :=
  if off < 0x80 ∧ off % 4 = 0 then s.writePin (Fin.ofNat 32 (off / 4)) w
  else if off = 0x90 then s.pinOut w true
  else if off = 0x94 then s.pinOut w false
  else s
/-- A write of a ring register (R107 to R110): base and configuration only while OFF. -/
def State.ringWrite (s : State) (f : Fin 2) (r : RingId) (off : Nat) (w : Word) : State :=
  if s.ringFn r.idx ≠ f then s
  else if off = 0xC then (if w.getLsbD 0 then enableRing f r s else disableRing f r s)
  else if (s.ringFsm r).st ≠ .off then s
  else match r with
    | .sq i =>
      if at64 off 0 then s.modSq i fun q => { q with base := put64 q.base w (decide (off = 4)) &&& ~~~0xFFF#64 }
      else if off = 8 then s.modSq i fun q => { q with cfg := w &&& 0x001F1FFF } else s
    | .cq j =>
      if at64 off 0 then s.modCq j fun c => { c with base := put64 c.base w (decide (off = 4)) &&& ~~~0xFFF#64 }
      else if off = 8 then s.modCq j fun c => { c with cfg := w &&& 0x3FFF07FF } else s
/-- A write of a mailbox or ring-control word (R107 to R110, R136). -/
def State.mailboxWrite (s : State) (f : Fin 2) (off : Nat) (w : Word) : State :=
  if off = 0x20 then s.modFn f fun h => { h with bar2Window := w &&& 0x10F }
  else if at64 off 0x28 then s.modFn f fun h => { h with bar4Base := put64 h.bar4Base w (decide (off = 0x2C)) &&& ~~~0x3FFFFFFF#64 }
  else if off = 0x34 then
    (s.modFn f fun h => { h with eventCtrl := w &&& 0x1F }).flushEvents f s.fns[f].events.length
  else if off = 0x3C then s.modFn f fun h => { h with ringFault := h.ringFault &&& ~~~w }
  else if 0x100 ≤ off ∧ off < 0x500 then s.ringWrite f (.sq (Fin.ofNat 16 ((off - 0x100) / 0x40))) (off % 0x40) w
  else if 0x500 ≤ off ∧ off < 0x900 then s.ringWrite f (.cq (Fin.ofNat 16 ((off - 0x500) / 0x40))) (off % 0x40) w
  else s
/-- A register write of a SELV word by the firmware (R14, R16, R95, R100, R149). -/
def State.writeSelv (s : State) (ag : Agent) (off : Nat) (w : Word) : State :=
  s.modSelv fun v =>
    if off = 0xC then
      let lock := v.bootLock || setsLock ag w
      if v.bootLock then v else { v with order := BitVec.ofNat 2 (fld w 1 0), fullCensus := w.getLsbD 2, bootLock := lock }
    else if off = 0x20 then
      let lock := v.budgetLock || setsLock ag w
      if v.budgetLock then v else { v with budget := BitVec.ofNat 16 (clampBudget (fld w 15 0)), budgetLock := lock }
    else if off = 0x30 then { v with wake := w &&& 0xF0F }
    else v
/-- A register write of a REP word by the firmware (R16, R506). -/
def State.writeRep (s : State) (ag : Agent) (off : Nat) (w : Word) : State :=
  s.modRep fun r =>
    if r.lock then r
    else if off = 4 then { r with autoCensus := w.getLsbD 0, lock := setsLock ag w }
    else if off = 0x18 then { r with limits := w }
    else r
/-- A register write of a MBX word by the firmware: a ring's word acts for the function that owns the ring, every other
word is function 0's, as a read of it is (R107 to R110, R136; log 150). -/
def State.writeMbx (s : State) (off : Nat) (w : Word) : State :=
  let f : Fin 2 :=
    if 0x100 ≤ off ∧ off < 0x500 then s.ringFn (Fin.ofNat 16 ((off - 0x100) / 0x40))
    else if 0x500 ≤ off ∧ off < 0x900 then s.ringFn (Fin.ofNat 16 ((off - 0x500) / 0x40)) else 0
  s.mailboxWrite f off w
/-- A write that reaches a word of a block (R14). -/
def State.blkWrite (s : State) (ag : Agent) (b : Blk) (off : Nat) (w : Word) : State :=
  match s.blkW1c b off w with
  | some t => t
  | none =>
    match b with
    | .selv => s.writeSelv ag off w
    | .rep => s.writeRep ag off w
    | .mbx => s.writeMbx off w
    | .swt i => if off = 0x18 then s.pubWrite i (w.getLsbD 8) (w.getLsbD 9) else s
    | .mesh k => s.writeMesh k off w
    | .skn k =>
      if off = 0x30 ∧ w.getLsbD 0 then s.clearMover k 0
      else if off = 0x50 ∧ w.getLsbD 0 then s.clearMover k 1 else s
    | .ndl n =>
      if off = 0 then (if s.agentHolds ag b off then s.modNeedle n fun x => x.control w else s)
      else s.blkPoke b off w
    | .card k m => s.writeCard b (fun f s => s.modCarder k m f) off w
    | .edgeCard p =>
      if 0x400 ≤ off ∧ off < 0x480 then s.pokeView p off w
      else s.writeCard b (fun f s => s.modEdgeCarder p f) off w
    | .edge p => s.writeEdge ag p off w
    | .stk i =>
      if off ≠ 0x28 then s
      else
        let s : State := if s.stack[i].lock then s else s.blkPoke b off w
        s.modStack i fun t => { t with lock := t.lock || setsLock ag w }
    | .dst d => s.writeDst d off w ag.viaSwatch
    | .bob => s.writeBob off w
    | .pin => s.writePins off w
    | .chnOut => if off = 0x10 then s.seqCmd w else s.blkPoke b off w
    | _ => s

/-! ### Reads -/

/-- The low words of the 64-bit registers (R13). -/
def Blk.wide (b : Blk) (off : Nat) : Bool :=
  match b with
  | .tally => decide (off = 8)
  | .tick => decide (off = 8)
  | .swt _ => decide (off = 0x20)
  | .mbx => decide (off = 0x28) || (decide (0x100 ≤ off ∧ off < 0x900) && decide (off % 0x40 = 0))
  | .stch _ => decide (off = 8)
  | .skn _ => decide (off = 0x10 ∨ off = 0x28 ∨ off = 0x48)
  | .ndl _ => decide (off = 0x10 ∨ off = 0x20 ∨ off = 0x28)
  | .card _ _ => decide (off = 0x20 ∨ off = 0x38 ∨ off = 0x40)
  | .edgeCard _ => decide (off = 0x20 ∨ off = 0x38 ∨ off = 0x40) || decide (0x400 ≤ off ∧ off < 0x480 ∧ off % 0x20 = 0)
  | .stk _ => decide (off = 0x18)
  | .dst _ => decide (off = 8 ∨ off = 0x18 ∨ off = 0x20)
  | .bob => decide (off < 0x3000) && decide (off % 0x100 = 0x18 ∨ off % 0x100 = 0x20 ∨ off % 0x100 = 0x28 ∨ off % 0x100 = 0x38)
  | _ => false
/-- TICK_PHASE at a read (R199; log 11): a later time of the running row. -/
def State.refreshPhase (s : State) : State :=
  let p := s.tick.phase.toNat
  (s.modTick fun t => { t with phase := BitVec.ofNat 32 (p + s.freeVal.toNat % (t.period.toNat - p)) }).useFree
/-- A word read, with everything a read does: the latch of R13, the fields that clear (R14, R18). -/
def State.blkTake (s : State) (a : Nat) (b : Blk) (off : Nat) : State × Word :=
  match s.latch.find? fun l => decide (l.1 = a) with
  | some l => ({ s with latch := s.latch.filter fun x => decide (x.1 ≠ a) }, l.2)
  | none =>
    let s : State := match b with
      | .tick => if off = 0x10 then s.refreshPhase else s
      | .swt i => if off = 0x14 then s.noteFinish i else s
      | _ => s
    let v := s.blkRead b off
    let s : State := if b.wide off then
        { s with latch := (s.latch.filter fun x => decide (x.1 ≠ a + 4)) ++ [(a + 4, s.blkRead b (off + 4))] }
      else s
    (s.blkClear b off, v)

/-! ### One access (R13, R25, R43) -/

/-- A register read by an agent at a yarn address. -/
def State.regRead (s : State) (ag : Agent) (a : Nat) : State × Word :=
  if a % 4 ≠ 0 then (s, 0xFFFFFFFF)
  else match s.blockAt a with
    | none => (s.badAcc, 0xFFFFFFFF)
    | some (b, off) => if s.blkGone b ∨ !s.reaches ag b off false then (s.badAcc, 0xFFFFFFFF) else s.blkTake a b off
/-- A register written by an agent at a yarn address. -/
def State.regWrite (s : State) (ag : Agent) (a : Nat) (w : Word) : State :=
  if a % 4 ≠ 0 then s
  else match s.blockAt a with
    | none => s.badAcc
    | some (b, off) => if s.blkGone b ∨ !s.reaches ag b off true then s.badAcc else s.blkWrite ag b off w

/-! ### BAR0 (R41, R73, R101, R103, R136) -/

/-- The MSI-X table and pending bits (R41, R45). -/
def HostFn.msixRead (h : HostFn) (off : Nat) : Word :=
  if 0x2000 ≤ off ∧ off < 0x2400 then
    let m := h.msix[Fin.ofNat 64 ((off - 0x2000) / 16)]
    match off % 16 with
    | 0 => m.addr.setWidth 32
    | 4 => (m.addr >>> 32).setWidth 32
    | 8 => m.data
    | _ => BitVec.ofNat 32 (b2n m.mask)
  else if at64 off 0x3000 then word64 h.pba off 0x3000
  else 0
/-- The offsets of BAR0 whose 64-bit registers latch. -/
def bar0Wide (off : Nat) : Bool :=
  decide (off = 0x28 ∨ off = 0x3000) || (decide (0x100 ≤ off ∧ off < 0x900) && decide (off % 0x40 = 0))
/-- A BAR0 word without side effects. -/
def State.bar0Peek (s : State) (f : Fin 2) (off : Nat) : Word :=
  if off = 0 then s.statusWord
  else if off = 4 then s.selv.fault
  else if off = 8 then s.selvRead 8
  else if off = 0xC then s.selv.bootStatusWord
  else if off = 0x10 then s.tick.count.setWidth 32
  else if !s.selv.ready then 0
  else if 0x2000 ≤ off then s.fns[f].msixRead off
  else s.mailboxRead f false off
/-- Where the high words read through BAR0 are latched: above every register address. -/
def bar0Latch (f : Fin 2) (off : Nat) : Nat := 0x100000000 + 0x10000 * f.val + off
/-- A BAR0 read. -/
def State.bar0Read (s : State) (f : Fin 2) (off : Nat) : State × Word :=
  if off % 4 ≠ 0 ∨ !s.fnExists f ∨ s.fns[f].d3hot then (s, 0xFFFFFFFF)
  else match s.latch.find? fun l => decide (l.1 = bar0Latch f off) with
    | some l => ({ s with latch := s.latch.filter fun x => decide (x.1 ≠ bar0Latch f off) }, l.2)
    | none =>
      let v := s.bar0Peek f off
      let s1 : State := if bar0Wide off ∧ s.selv.ready then { s with
          latch := (s.latch.filter fun x => decide (x.1 ≠ bar0Latch f (off + 4))) ++ [(bar0Latch f (off + 4), s.bar0Peek f (off + 4))] }
        else s
      (if off = 0x38 ∧ s.selv.ready then s1.modFn f fun h => { h with eventsLost := 0 } else s1, v)
/-- A write of the MSI-X table: an unmasking signals a pending vector (R45). -/
def State.msixWrite (s : State) (f : Fin 2) (off : Nat) (w : Word) : State :=
  let v : Fin 64 := Fin.ofNat 64 ((off - 0x2000) / 16)
  match off % 16 with
  | 12 => if w.getLsbD 0 then s.modFn f fun h => { h with msix := upd h.msix v fun m => { m with mask := true } }
          else unmaskVector f v s
  | 8 => s.modFn f fun h => { h with msix := upd h.msix v fun m => { m with data := w } }
  | 4 => s.modFn f fun h => { h with msix := upd h.msix v fun m => { m with addr := put64 m.addr w true } }
  | _ => s.modFn f fun h => { h with msix := upd h.msix v fun m => { m with addr := put64 m.addr w false } }
/-- A BAR0 write. -/
def State.bar0Write (s : State) (f : Fin 2) (off : Nat) (w : Word) : State :=
  if off % 4 ≠ 0 ∨ !s.fnExists f ∨ s.fns[f].d3hot then s
  else if off = 4 then s.modSelv fun v => { v with fault := v.fault &&& ~~~w }
  else if 0x1000 ≤ off ∧ off < 0x1040 then hostBell f (.sq (Fin.ofNat 16 ((off - 0x1000) / 4))) w s
  else if 0x1040 ≤ off ∧ off < 0x1080 then hostBell f (.cq (Fin.ofNat 16 ((off - 0x1040) / 4))) w s
  else if 0x2000 ≤ off ∧ off < 0x2400 then s.msixWrite f off w
  else if !s.selv.ready then s
  else s.mailboxWrite f off w

/-! ### The generic access of the rows -/

/-- The other die's registers, reached over the TWIN port (R26, R42, R65) from READY on (R73). -/
def State.twinReg (s : State) (a : Nat) : Option (Fin 10) :=
  if twinBase + regBase ≤ a ∧ a < twinBase + 0x20000000 ∧ s.fuses.twin ∧ s.selv.ready then s.twinPort else none
/-- The eight fields of the assembly code in ASCII (R31, R40): X and N, the digits a, b, c and d, and the twin mark, blank
where there is none; the order is a DESIGN CHOICE (log 153). -/
def Fuses.codeChar (u : Fuses) (k : Fin 8) : Nat :=
  match k.val with
  | 0 => 0x58 | 1 => 0x4E | 2 => 0x30 + u.hostPorts.toNat | 3 => 0x30 + u.stackCount.toNat
  | 4 => 0x30 + u.perStack.toNat | 5 => 0x30 + u.shusDies.toNat | 6 => if u.twin then 0x54 else 0x20 | _ => 0x20
/-- An item of a function's configuration space (R40, R44, R47). -/
def State.cfgRead (s : State) (f : Fin 2) (x : CfgItem) : Word :=
  let u := s.fuses
  match x with
  | .vendorId => 0x1F9C
  | .deviceId => if u.twin ∧ !u.primary then 0x0B61 else 0x0B60
  | .classCode => 0x120000
  | .revisionId => u.stepping.setWidth 32
  | .subsystemVendor => u.subVendor.setWidth 32
  | .subsystemId => u.subsystem.setWidth 32
  | .capabilities => 0x7F
  | .powerCap => 0x7
  | .powerState => if s.fns[f].d3hot then 3 else 0
  | .serialLow => u.serial.setWidth 32
  | .serialHigh => (u.serial >>> 32).setWidth 32
  | .bar4Size => BitVec.ofNat 32 (10 + s.fns[f].bar4Log.val)
  | .bar4Sizes => 0x3FC00
  | .dvsecHeader => 0x00011F9C
  | .dvsecCode k => BitVec.ofNat 32 (u.codeChar k)
  | .dvsecDie => mkW [(0, 1, b2n u.primary), (8, 8, s.inner.addr.toNat)]
  | .maxPayload => 512
  | .tagBits => 10
  | .flr => 1
/-- A write of configuration space: the resizable BAR takes any size it offers (R44); a change of the power state enters or
leaves D3hot (R47). -/
def State.cfgWrite (s : State) (f : Fin 2) (x : CfgItem) (w : Word) : State :=
  match x with
  | .bar4Size =>
    if 10 ≤ w.toNat ∧ w.toNat ≤ 17 then s.modFn f fun h => { h with bar4Log := Fin.ofNat 8 (w.toNat - 10) } else s
  | .powerState => if fld w 1 0 = 3 then enterD3 f s else if fld w 1 0 = 0 then returnD0 f s else s
  | _ => s
/-- A register read by an agent, the value sent back to it (log 3). -/
def State.accRead (s : State) (ag : Agent) (sp : RegSpace) : State :=
  match sp with
  | .config f x => s.emit (.readData ag (if ag = .host f ∧ s.fnExists f then s.cfgRead f x else 0xFFFFFFFF))
  | .bar0 f off => let r := s.bar0Read f off.toNat; r.1.emit (.readData ag r.2)
  | .yarn a =>
    match s.twinReg a.toNat, ag.twinWho with
    | some p, some w => s.sendAccess w p (a.toNat - twinBase) a.toNat .regRead .none .mgmt
    | _, _ => let r := s.regRead ag a.toNat; r.1.emit (.readData ag r.2)
/-- A register written by an agent. -/
def State.accWrite (s : State) (ag : Agent) (sp : RegSpace) (v : Word) : State :=
  match sp with
  | .config f x => if ag = .host f ∧ s.fnExists f then s.cfgWrite f x v else s
  | .bar0 f off => s.bar0Write f off.toNat v
  | .yarn a =>
    match s.twinReg a.toNat, ag.twinWho with
    | some p, some w => s.sendAccess w p (a.toNat - twinBase) a.toNat (.regWrite v) .none .mgmt
    | _, _ => s.regWrite ag a.toNat v
/-- The yarn address a BAR2 offset reaches (R42). -/
def State.bar2Addr (s : State) (f : Fin 2) (off : Nat) : Nat :=
  let w := s.fns[f].bar2Window
  regBase + fld w 3 0 * 0x1000000 + off + (if w.getLsbD 8 then twinBase else 0)
/-- A BAR2 access (R42, R43, R73). -/
def bar2Access (f : Fin 2) (off : Nat) (acc : RegAccess) (s : State) : State :=
  let a : BitVec 48 := BitVec.ofNat 48 (s.bar2Addr f off)
  if !s.fnExists f ∨ s.fns[f].d3hot then s
  else match acc with
    | .read => s.accRead (.host f) (.yarn a)
    | .write v => s.accWrite (.host f) (.yarn a) v
    | .oddRead => s.emit (.readData (.host f) 0xFFFFFFFF)
    | .oddWrite => s

/-! ### Addresses of single registers -/

def ndlBase (n : Fin 96) : Nat := 0x11000000 + 0x100000 * (skeinOf n).val + 0x10000 * ((kOf n).val + 1)
def sknBase (k : Fin 16) : Nat := 0x11000000 + 0x100000 * k.val
def edgeBase (p : Fin 10) : Nat := 0x12000000 + 0x10000 * p.val
def meshBase (k : Fin 16) : Nat := 0x10100000 + 0x1000 * k.val
def cardBase : CarderId → Nat
  | .skein k m => 0x11080000 + 0x100000 * k.val + 0x10000 * m.val
  | .edge p => 0x12100000 + 0x10000 * p.val
def funcAddr : FuncId → Nat
  | .bobbin b => 0x18000004 + 0x100 * b.val
  | .view p v => 0x1210040C + 0x10000 * p.val + 0x20 * v.val
def dstBase (d : Fin 4) : Nat := 0x14000000 + 0x10000 * d.val
def chnBase : Nat := 0x18200000
def pinBase : Nat := 0x18100000

/-! ### Switchable functions (R98, R99, R421) -/

/-- EN written through the function's own register: the other fields of a view keep their values. -/
def enableFunc (f : FuncId) (ag : Agent) (on : Bool) (s : State) : State :=
  let a := funcAddr f
  let w := match f with
    | .bobbin _ => BitVec.ofNat 32 (b2n on)
    | .view p v => putBit s.edgeCarders[p].views[v].cfgWord 18 on
  s.regWrite ag a w
/-- The RUN_BOBBIN that waits for a bobbin answered with DEFERRED (R98, R421). -/
def State.answerRun (s : State) (n : Fin 48) : State :=
  match s.bobbins[n].runCmd with
  | some r => (s.modBob n fun b => { b with runCmd := none }).reply r stOk 0 [(20, 1, s.bobStatus n)] 1
  | none => s
/-- The end of RISING of a function. -/
def riseDone (f : FuncId) (s : State) : State :=
  match f with
  | .bobbin n =>
    if s.bobbins[n].fsm.st ≠ .rising then s
    else
      let s1 : State := s.modBob n fun b => { b with fsm := b.fsm.rose }
      if s1.bobbins[n].fsm.st = .falling then (s1.modBob n Bobbin.stop).answerRun n else s1
  | .view p v => s.modEdgeCarder p fun c => { c with views := upd c.views v fun x => { x with fsm := x.fsm.rose } }
/-- The end of FALLING of a function: a bobbin that sends a frame finishes it first (R421), and an UNBIND that waited
unbinds. -/
def fallDone (f : FuncId) (s : State) : State :=
  match f with
  | .bobbin n =>
    let b := s.bobbins[n]
    if b.fsm.st ≠ .falling ∨ (b.dirOut ∧ b.opened.isSome) then s
    else
      let s1 : State := s.modBob n fun b => { b with fsm := b.fsm.fell }
      match b.unbindCmd with
      | some r => (s1.modBob n Bobbin.unbind).ok r
      | none => if s1.bobbins[n].fsm.st = .rising then s1.answerRun n else s1
  | .view p v => s.modEdgeCarder p fun c => { c with views := upd c.views v fun x => { x with fsm := x.fsm.fell } }

/-! ### JTAG (R432, R433) -/

/-- The SHUS sideband JTAG's STATUS and REG_READ travel over. -/
def State.jtagLink (s : State) : Bool := (s.shusPort.map fun p => s.ports[p].sideband).getD false
/-- A TAP instruction selected; at the end of EXTEST the pins return to their functions through a park (R432). -/
def State.jtagSet (s : State) (i : JtagInstr) : State :=
  let s : State := if s.jtag.instr = .extest ∧ i ≠ .extest then
      { s with pins := mapV s.pins fun _ x => { x with parking := true } } else s
  s.modJtag fun j => { j with instr := i }
/-- What the TAP does: nothing on a die of a part without Shuskaub, which has no TAP (R3, R432). -/
def State.tap (s : State) (f : State → State) : State := if s.shuskaub then f s else s
/-- RTS of the UART (R427). -/
def State.uartRts (s : State) : Bool := s.io.uartCfg.getLsbD 2 && decide (48 ≤ s.io.uartRx.length)
/-- What a pin drives, nothing while it parks: its GPIO, or its alternate function (R423, R424), whose TX and FSYNC stand at
their idle levels between bits and pulses (log 181). -/
def State.pinDrives (s : State) (p : Fin 32) : Option Bool :=
  let x := s.pins[p]
  if x.parking then none
  else if x.cfg.getLsbD 0 then
    if p.val = 0 then some true
    else if p.val = 2 then some s.uartRts
    else if 8 ≤ p.val ∧ p.val < 16 then some false
    else none
  else if x.cfg.getLsbD 3 then some (x.cfg.getLsbD 4) else none
/-- The boundary cells as the pins stand: level, output, output enable of each pin (R432). -/
def State.boundaryCells (s : State) : BitVec 128 :=
  (allFin 32).foldl (fun b p =>
    let b := putBit b (3 * p.val) s.pins[p].level
    let b := putBit b (3 * p.val + 1) ((s.pinDrives p).getD (s.pins[p].cfg.getLsbD 4))
    putBit b (3 * p.val + 2) (s.pinDrives p).isSome) 0

/-! ### The pins, the UART and the TAP as rows -/

/-- PIN_PARK_END (R424, R425): the new function is connected; the level is the new reference. -/
def parkEnd (p : Fin 32) (level : Bool) (s : State) : State :=
  if s.pins[p].parking ∧ s.shuskaub then s.modPin p fun x => { x with parking := false, level := level, ref := level } else s
/-- Whether a level change is an enabled wake edge (R426): rising, falling, both, low level. -/
def Pin.wakes (x : Pin) (level : Bool) : Bool :=
  x.cfg.getLsbD 6 && !x.parking && (match fld x.cfg 8 7 with
    | 0 => level && !x.ref
    | 1 => !level && x.ref
    | 2 => level != x.ref
    | _ => !level)
/-- A wake source reported to Lumaz (R60, R426): when SELV_WAKE selects it. -/
def State.hemWake (s : State) (src : HemSource) : State := hemEvent src s
/-- PIN_WAKE (R426): a parking pin keeps the level last sampled, and its wake detection is masked (R423, R425). -/
def pinWake (p : Fin 32) (level : Bool) (s : State) : State :=
  if !s.shuskaub then s else
  let hit := s.pins[p].wakes level
  let s : State := s.modPin p fun x => if x.parking then x else { x with level := level, ref := level }
  if hit then ({ s with wakeEvents := setBit s.wakeEvents p.val }).hemWake .gpio else s

/-- UART_CHARACTER (R427 to R429): a break stores nothing; a full FIFO loses the character; a character from a substitute
start with a low stop starts RESYNC, in which no start is accepted. -/
def uartCharacter (c : Byte) (parityOk stopHigh isBreak substitute : Bool) (s : State) : State :=
  if !s.io.uartCfg.getLsbD 0 ∨ !s.shuskaub then s
  else if isBreak then s.modIo fun i => { i with uartEvents := setBit i.uartEvents 3, uartResync := false }
  else if s.io.uartResync ∧ substitute then s
  else
    let fe := !stopHigh
    let pe := s.io.uartCfg.getLsbD 1 && !parityOk
    let resync := fe && substitute
    let full := decide (64 ≤ s.io.uartRx.length)
    let ch : BitVec 10 := putBit (putBit (c.setWidth 10) 8 fe) 9 pe
    s.modIo fun i =>
      let ev := putBit i.uartEvents 0 (i.uartEvents.getLsbD 0 || fe)
      let ev := putBit ev 1 (ev.getLsbD 1 || pe)
      let ev := putBit ev 2 (ev.getLsbD 2 || full)
      { i with
        uartEvents := putBit ev 4 (ev.getLsbD 4 || resync)
        uartResync := resync
        uartRx := if full then i.uartRx else i.uartRx ++ [ch] }
/-- UART_TX_CHARACTER_DONE (R427): the next character, unless CTS is high with FLOW set. -/
def uartTxDone (ctsHigh : Bool) (s : State) : State :=
  if !s.shuskaub then s else
  let s : State := s.modIo fun i => { i with uartBusy := false }
  if ctsHigh ∧ s.io.uartCfg.getLsbD 2 then s else s.uartNext

/-- JTAG_STATUS (R433). -/
def jtagCapture (s : State) : State :=
  if !s.shuskaub then s else
  let s : State := s.jtagSet .status
  let v : BitVec 96 := if s.jtagLink then
      s.selv.bootStatusWord.setWidth 32 ++ (s.selv.fault ++ s.statusWord) else BitVec.allOnes 96
  (s.modJtag fun j => { j with status := v }).emit (.jtag v)
/-- REG_READ of the TAP (R433). -/
def jtagRead (a : Nat) (s : State) : State :=
  if !s.shuskaub then s else
  let s : State := s.jtagSet .regRead
  if !s.jtagLink then s.modJtag fun j => { j with regValue := 0xFFFFFFFF, regDone := true, regErr := true }
  else
    let r := s.regRead .jtag a
    (r.1.modJtag fun j => { j with regValue := r.2, regDone := true, regErr := false }).emit
      (.readData .jtag r.2)

/-! ### The rows -/

def execBar2Access (fn : Fin 2) (offset : BitVec 24) (acc : RegAccess) (s : State) :
    Host.Outcome State Fault Refusal := .next (bar2Access fn offset.toNat acc s)
/-- READ_CLEAR (R18). -/
def execReadClear (space : RegSpace) (agent : Agent) (s : State) : Host.Outcome State Fault Refusal :=
  .next (s.accRead agent space)
/-- UNMAPPED_REGISTER_ACCESS (R25). -/
def execUnmappedRegisterAccess (addr : BitVec 48) (acc : RegAccess) (agent : Agent) (s : State) :
    Host.Outcome State Fault Refusal :=
  .next (match acc with
    | .read => s.accRead agent (.yarn addr)
    | .write v => s.accWrite agent (.yarn addr) v
    | .oddRead => s.emit (.readData agent 0xFFFFFFFF)
    | .oddWrite => s)
/-- REGISTER_WRITE (R14). -/
def execRegisterWrite (space : RegSpace) (value : Word) (agent : Agent) (s : State) :
    Host.Outcome State Fault Refusal := .next (s.accWrite agent space value)
def execNdlHalt (n : Fin 96) (agent : Agent) (s : State) : Host.Outcome State Fault Refusal :=
  .next (s.regWrite agent (ndlBase n) 1)
def execNdlRun (n : Fin 96) (agent : Agent) (s : State) : Host.Outcome State Fault Refusal :=
  .next (s.regWrite agent (ndlBase n) 2)
def execNdlStep (n : Fin 96) (agent : Agent) (s : State) : Host.Outcome State Fault Refusal :=
  .next (s.regWrite agent (ndlBase n) 4)
def execMoverClear (k : Fin 16) (m : Fin 2) (agent : Agent) (s : State) : Host.Outcome State Fault Refusal :=
  .next (s.regWrite agent (sknBase k + 0x30 + 0x20 * m.val) 1)
/-- EDGE_RETRAIN (R57): the RWL field is written with the value it holds. -/
def execEdgeRetrain (port : Fin 10) (agent : Agent) (s : State) : Host.Outcome State Fault Refusal :=
  .next (s.regWrite agent (edgeBase port + 8) (mkW [(0, 2, s.ports[port].maxRate.toNat), (2, 1, 1)]))
def execEdgeCtrlLock (port : Fin 10) (agent : Agent) (s : State) : Host.Outcome State Fault Refusal :=
  .next (s.regWrite agent (edgeBase port + 8) (mkW [(0, 2, s.ports[port].maxRate.toNat), (31, 1, 1)]))
def execStkCtrlLock (stack : Fin 4) (agent : Agent) (s : State) : Host.Outcome State Fault Refusal :=
  .next (s.regWrite agent (0x13000028 + 0x100000 * stack.val) (mkW [(0, 1, b2n s.stack[stack].scrubEn), (31, 1, 1)]))
def execMeshFlagWrite (k : Fin 16) (flag : Fin 64) (value : Word) (agent : Agent) (s : State) :
    Host.Outcome State Fault Refusal := .next (s.regWrite agent (meshBase k + 0x200 + 4 * flag.val) value)
def execMeshBarCfgWrite (k : Fin 16) (barrier : Fin 16) (value : Word) (agent : Agent) (s : State) :
    Host.Outcome State Fault Refusal := .next (s.regWrite agent (meshBase k + 0x100 + 4 * barrier.val) value)
/-- The carder an id names. -/
def State.carder (s : State) (c : CarderId) : Carder :=
  match c with
  | .skein k m => s.skeins[k].carders[m]
  | .edge p => s.edgeCarders[p]
def execStatClear (c : CarderId) (agent : Agent) (s : State) : Host.Outcome State Fault Refusal :=
  .next (s.regWrite agent (cardBase c)
    (mkW [(0, 1, b2n (s.carder c).ftz), (1, 1, 1), (2, 1, b2n (s.carder c).reseed)]))
def execCardLfsrSeedWrite (c : CarderId) (value : Word) (agent : Agent) (s : State) :
    Host.Outcome State Fault Refusal := .next (s.regWrite agent (cardBase c + 0xC) value)
def execFunctionEnable (f : FuncId) (agent : Agent) (s : State) : Host.Outcome State Fault Refusal :=
  .next (enableFunc f agent true s)
def execFunctionDisable (f : FuncId) (agent : Agent) (s : State) : Host.Outcome State Fault Refusal :=
  .next (enableFunc f agent false s)
def execFunctionRiseDone (f : FuncId) (s : State) : Host.Outcome State Fault Refusal := .next (riseDone f s)
def execFunctionFallDone (f : FuncId) (s : State) : Host.Outcome State Fault Refusal := .next (fallDone f s)
def execDstRun (d : Fin 4) (agent : Agent) (s : State) : Host.Outcome State Fault Refusal :=
  .next (s.regWrite agent (dstBase d) (mkW [(0, 1, 1), (3, 1, b2n s.distaffs[d].ucustom), (4, 1, b2n s.distaffs[d].irqToM)]))
def execDstHalt (d : Fin 4) (agent : Agent) (s : State) : Host.Outcome State Fault Refusal :=
  .next (s.regWrite agent (dstBase d) (mkW [(1, 1, 1), (3, 1, b2n s.distaffs[d].ucustom), (4, 1, b2n s.distaffs[d].irqToM)]))
def execDstHaltDone (d : Fin 4) (s : State) : Host.Outcome State Fault Refusal := .next (s.modDst d Distaff.haltDone)
def execPinFuncChange (pin : Fin 32) (value : Word) (agent : Agent) (s : State) : Host.Outcome State Fault Refusal :=
  .next (s.regWrite agent (pinBase + 4 * pin.val) value)
def execPinParkEnd (pin : Fin 32) (level : Bool) (s : State) : Host.Outcome State Fault Refusal :=
  .next (parkEnd pin level s)
def execPinOutSet (mask : Word) (agent : Agent) (s : State) : Host.Outcome State Fault Refusal :=
  .next (s.regWrite agent (pinBase + 0x90) mask)
def execPinOutClr (mask : Word) (agent : Agent) (s : State) : Host.Outcome State Fault Refusal :=
  .next (s.regWrite agent (pinBase + 0x94) mask)
def execPinWake (pin : Fin 32) (level : Bool) (s : State) : Host.Outcome State Fault Refusal := .next (pinWake pin level s)
def execUartCharacter (data : Byte) (parityOk stopHigh isBreak substitute : Bool) (s : State) :
    Host.Outcome State Fault Refusal := .next (uartCharacter data parityOk stopHigh isBreak substitute s)
def execUartDataRead (agent : Agent) (s : State) : Host.Outcome State Fault Refusal :=
  .next (s.accRead agent (.yarn 0x1800700C))
def execUartDataWrite (value : Word) (agent : Agent) (s : State) : Host.Outcome State Fault Refusal :=
  .next (s.regWrite agent 0x1800700C value)
def execUartTxCharacterDone (ctsHigh : Bool) (s : State) : Host.Outcome State Fault Refusal := .next (uartTxDone ctsHigh s)
/-- SOUNDWIRE_WAKE (R407). -/
def execSoundwireWake (s : State) : Host.Outcome State Fault Refusal := .next (s.hemWake .soundwire)
/-- EXTEST: the boundary register captures the cells; the pins leave their functions (R432). -/
def execExtest (s : State) : Host.Outcome State Fault Refusal :=
  .next (s.tap fun s =>
    let s : State := s.jtagSet .extest
    s.modJtag fun j => { j with boundary := s.boundaryCells })
/-- IDCODE (R432). -/
def execIdcode (s : State) : Host.Outcome State Fault Refusal := 
  .next (s.tap fun s => (s.jtagSet .idcode).emit (.jtag 0x1B610A6F))
/-- SAMPLE/PRELOAD: the cells are sampled out, and the register holds what is preloaded (R432). -/
def execSamplePreload (preload : BitVec 128) (s : State) : Host.Outcome State Fault Refusal :=
  .next (s.tap fun s =>
    let s : State := s.jtagSet .samplePreload
    (s.modJtag fun j => { j with boundary := preload }).emit (.jtag (s.boundaryCells.setWidth 96)))
/-- CLAMP: the pins are held at the preloaded values (R432). -/
def execClamp (s : State) : Host.Outcome State Fault Refusal := 
  .next (s.tap fun s => s.jtagSet .clamp)
/-- HIGHZ: every output is off (R432). -/
def execHighz (s : State) : Host.Outcome State Fault Refusal := 
  .next (s.tap fun s => s.jtagSet .highz)
def execJtagStatus (s : State) : Host.Outcome State Fault Refusal := .next (jtagCapture s)
def execRegRead (addr : BitVec 48) (s : State) : Host.Outcome State Fault Refusal := .next (jtagRead addr.toNat s)
/-- BYPASS (R432). -/
def execBypass (s : State) : Host.Outcome State Fault Refusal := 
  .next (s.tap fun s => s.jtagSet .bypass)

end Sys2Proof.Machine
end

