-- ==== Sys2Proof/Machine/Needle.lean ====
section
/-! DEFINITION. The needle (10): issue, faults, scalar instructions, branches, control registers, and the synchronisation
class with the barrier and flag packets (09 R248, R249). -/
namespace Sys2Proof.Machine
open Sys2Proof

/-! ### Registers -/

/-- A scalar register: s0 reads 0 (10, needle state). -/
def Needle.sr (x : Needle) (i : Fin 32) : DWord := if i = 0 then 0 else x.s[i]
/-- A scalar register written: s0 ignores writes. -/
def Needle.setS (x : Needle) (i : Fin 32) (v : DWord) : Needle := if i = 0 then x else { x with s := x.s.set i v }
def Needle.setV (x : Needle) (i : Fin 32) (v : VReg) : Needle := { x with v := x.v.set i v }
def Needle.setP (x : Needle) (i : Fin 8) (v : DWord) : Needle := { x with p := x.p.set i v }
/-- Bits [31:0] of a scalar. -/
def Needle.lo (x : Needle) (i : Fin 32) : Word := (x.sr i).setWidth 32
/-- Whether a predicate field admits a lane (R274). -/
def Needle.admits (x : Needle) (p : Pred) (i : Nat) : Bool := !p.on || ((x.p[p.pr]).getLsbD i != p.inv)

/-! ### Program text -/

/-- The program a needle runs: that of the open KNIT (R152). -/
def State.programOf (s : State) (n : Fin 96) : Option Program :=
  (s.swatchOf (skeinOf n)).bind fun i => s.swatches[i].knit.bind fun k => s.swatches[i].program k.prog
/-- TEXT_LEN of that program; 0 without one. -/
def State.textLen (s : State) (n : Fin 96) : Nat := ((s.programOf n).map Program.len).getD 0
/-- Whether an offset is the second word of a pair (R274): the 8-byte-aligned word before it is a pair's first. -/
def State.secondWord (s : State) (n : Fin 96) (pc : Nat) : Bool :=
  match s.programOf n with
  | some p => decide (pc % 8 = 4 ∧ pc < p.len ∧ 0x38 ≤ leAt p.text (pc - 4) 4 % 64)
  | none => false

/-! ### Faults (R288) -/

/-- The header of a packet of a needle to a skein (R241). -/
def State.pkt (s : State) (n : Fin 96) (dst : Fin 16) : PktHead :=
  ⟨skeinOf n, dst, (s.swatchOf (skeinOf n)).getD 0, .needle (kOf n), s.nextAccess⟩
/-- The home skein of a needle's swatch. -/
def State.homeOf (s : State) (n : Fin 96) : Fin 16 :=
  match s.swatchOf (skeinOf n) with
  | some i => s.swatches[i].home
  | none => skeinOf n
/-- The number of the next packet or access used up. -/
def State.useId (s : State) : State := { s with nextAccess := s.nextAccess + 1 }
/-- A needle stopped by a fault. -/
def Needle.stopped (x : Needle) (cause pc addr : Nat) : Needle :=
  { x with
    st := .faulted, wait := .none, haltReq := false, stepReq := false, pc := BitVec.ofNat 17 pc
    fault := mkW [(0, 4, cause), (8, 17, pc)], faultAddr := BitVec.ofNat 64 addr }
/-- What a fault sets in the swatch: BAD_ACCESS for causes 3, 4 and 6, the KNIT's MEDIA_ERROR for cause 5. -/
def State.faultSide (s : State) (i : Option (Fin 8)) (cause addr : Nat) : State :=
  if cause = 3 ∨ cause = 4 ∨ cause = 6 then (match i with
    | some i => s.swStatus i 5
    | none => s)
  else if cause = 5 then s.mediaError i addr else s
/-- A needle faults: CAUSE, PC and data address recorded, and the flag ADD of FAULT_FLAG made. -/
def State.needleFault (s : State) (n : Fin 96) (cause pc addr : Nat) : State :=
  let x := s.needles[n]
  let s : State := (s.modNeedle n fun x => x.stopped cause pc addr).faultSide (s.swatchOf (skeinOf n)) cause addr
  if x.faultFlag.getLsbD 6 then
    (s.emit (.flagOp (s.pkt n (s.homeOf n)) .add (Fin.ofNat 64 (fld x.faultFlag 5 0))
      (BitVec.ofNat 32 (fld x.faultFlag 63 32)))).useId
  else s

/-! ### Issue (R289, R290) -/

/-- What an instruction does when it issues: it is done, stalls, or faults with a cause and a data address; a view that
refuses an access notes it (R370). -/
inductive NStep
  | done (s : State)
  | stall
  | fault (cause addr : Nat)
  | viewOff (p : Fin 10) (addr : Nat)

/-- Where the data of an access goes in the end. -/
def Dest.final : Dest → Dest
  | .view _ _ _ _ _ _ _ _ d => d.final
  | d => d
/-- Whether a needle may issue: running, not waiting, powered, and its swatch neither Held, Frogged nor Bound. -/
def State.mayIssue (s : State) (n : Fin 96) : Bool :=
  decide (s.needles[n].st = .running ∧ s.needles[n].wait = .none) && s.powered (skeinOf n) && !s.tripped &&
  match s.swatchOf (skeinOf n) with
  | some i => decide (s.swatches[i].st ≠ .held ∧ s.swatches[i].st ≠ .frogged ∧ s.swatches[i].st ≠ .bound)
  | none => true
/-- Whether a load still owes one of some registers its data: a source not ready (R290). -/
def State.loading (s : State) (n : Fin 96) (ss vs : List (Fin 32)) : Bool :=
  s.accesses.any fun a => a.live && decide (a.who = .needle n) && match a.dest.final with
    | .sreg r _ _ => decide (r ≠ 0) && ss.contains r
    | .vreg r _ => vs.contains r
    | _ => false
/-- The counts of an issue (R295): one retired, some clocks stalled before it (free, log 11), the PC past it. -/
def Needle.clocked (x : Needle) (len : Nat) (d : DWord) : Needle :=
  { x with retired := x.retired + 1, stalls := x.stalls + d, cycles := x.cycles + d + 1, pc := x.pc + BitVec.ofNat 17 len }
def State.clocked (s : State) (n : Fin 96) (len : Nat) : State :=
  (s.modNeedle n fun x => x.clocked len s.freeVal).useFree
/-- One instruction of `len` bytes that names some scalar and vector registers. -/
def State.issue (s : State) (n : Fin 96) (len : Nat) (ss vs : List (Fin 32)) (f : State → NStep) : State :=
  let pc := (s.needles[n]).pc.toNat
  if !s.mayIssue n then s
  else if s.textLen n ≤ pc then s.needleFault n 8 pc 0
  else if s.secondWord n pc ∨ (len = 8 ∧ pc % 8 ≠ 0) then s.needleFault n 7 pc 0
  else if s.loading n ss vs then s
  else match f (s.clocked n len) with
    | .done t => t.modNeedle n Needle.boundary
    | .stall => s
    | .fault c a => s.needleFault n c pc a
    | .viewOff p a => (s.modEdgeCarder p fun c => { c with events := setBit c.events 3 }).needleFault n 3 pc a

/-! ### Scalar instructions (R275) -/

/-- s[rd] := a value of the registers. -/
def State.scalar (s : State) (n : Fin 96) (rd : Fin 32) (srcs : List (Fin 32)) (v : Needle → DWord) : State :=
  s.issue n 4 (rd :: srcs) [] fun t => .done (t.modNeedle n fun x => x.setS rd (v x))
/-- A two-operand form. -/
def State.scalar2 (s : State) (n : Fin 96) (rd ra rb : Fin 32) (f : DWord → DWord → DWord) : State :=
  s.scalar n rd [ra, rb] fun x => f (x.sr ra) (x.sr rb)
/-- An F-operation on bits [31:0], its result zero-extended. -/
def State.scalarF (s : State) (n : Fin 96) (rd ra rb : Fin 32) (f : Num → Num → Num) : State :=
  s.scalar n rd [ra, rb] fun x => (enc32 (f (dec32 (x.lo ra)) (dec32 (x.lo rb)))).setWidth 64
def divS (a b : DWord) : DWord := if b = 0 then BitVec.allOnes 64 else a.sdiv b
def remS (a b : DWord) : DWord := if b = 0 then a else a.srem b
def mulhS (a b : DWord) : DWord := BitVec.ofInt 64 (a.toInt * b.toInt / 2 ^ 64)
/-- The shift amount: modulo 64. -/
def amt64 (b : DWord) : Nat := b.toNat % 64
def boolW (b : Bool) : DWord := if b then 1 else 0
/-- An immediate sign-extended. -/
def imm64 (i : Half) : DWord := i.signExtend 64

def execAdd (n : Fin 96) (rd ra rb : Fin 32) (s : State) : Host.Outcome State Fault Refusal :=
  .next (s.scalar2 n rd ra rb fun a b => a + b)
def execSub (n : Fin 96) (rd ra rb : Fin 32) (s : State) : Host.Outcome State Fault Refusal :=
  .next (s.scalar2 n rd ra rb fun a b => a - b)
def execMul (n : Fin 96) (rd ra rb : Fin 32) (s : State) : Host.Outcome State Fault Refusal :=
  .next (s.scalar2 n rd ra rb fun a b => a * b)
def execMulh (n : Fin 96) (rd ra rb : Fin 32) (s : State) : Host.Outcome State Fault Refusal :=
  .next (s.scalar2 n rd ra rb mulhS)
def execDiv (n : Fin 96) (rd ra rb : Fin 32) (s : State) : Host.Outcome State Fault Refusal :=
  .next (s.scalar2 n rd ra rb divS)
def execRem (n : Fin 96) (rd ra rb : Fin 32) (s : State) : Host.Outcome State Fault Refusal :=
  .next (s.scalar2 n rd ra rb remS)
def execAnd (n : Fin 96) (rd ra rb : Fin 32) (s : State) : Host.Outcome State Fault Refusal :=
  .next (s.scalar2 n rd ra rb fun a b => a &&& b)
def execOr (n : Fin 96) (rd ra rb : Fin 32) (s : State) : Host.Outcome State Fault Refusal :=
  .next (s.scalar2 n rd ra rb fun a b => a ||| b)
def execXor (n : Fin 96) (rd ra rb : Fin 32) (s : State) : Host.Outcome State Fault Refusal :=
  .next (s.scalar2 n rd ra rb fun a b => a ^^^ b)
def execShl (n : Fin 96) (rd ra rb : Fin 32) (s : State) : Host.Outcome State Fault Refusal :=
  .next (s.scalar2 n rd ra rb fun a b => a <<< amt64 b)
def execShr (n : Fin 96) (rd ra rb : Fin 32) (s : State) : Host.Outcome State Fault Refusal :=
  .next (s.scalar2 n rd ra rb fun a b => a >>> amt64 b)
def execSra (n : Fin 96) (rd ra rb : Fin 32) (s : State) : Host.Outcome State Fault Refusal :=
  .next (s.scalar2 n rd ra rb fun a b => a.sshiftRight (amt64 b))
def execSlt (n : Fin 96) (rd ra rb : Fin 32) (s : State) : Host.Outcome State Fault Refusal :=
  .next (s.scalar2 n rd ra rb fun a b => boolW (a.slt b))
def execSltu (n : Fin 96) (rd ra rb : Fin 32) (s : State) : Host.Outcome State Fault Refusal :=
  .next (s.scalar2 n rd ra rb fun a b => boolW (a.ult b))
def execMin (n : Fin 96) (rd ra rb : Fin 32) (s : State) : Host.Outcome State Fault Refusal :=
  .next (s.scalar2 n rd ra rb fun a b => if b.slt a then b else a)
def execMax (n : Fin 96) (rd ra rb : Fin 32) (s : State) : Host.Outcome State Fault Refusal :=
  .next (s.scalar2 n rd ra rb fun a b => if a.slt b then b else a)
def execFadd (n : Fin 96) (rd ra rb : Fin 32) (s : State) : Host.Outcome State Fault Refusal :=
  .next (s.scalarF n rd ra rb Num.add)
def execFsub (n : Fin 96) (rd ra rb : Fin 32) (s : State) : Host.Outcome State Fault Refusal :=
  .next (s.scalarF n rd ra rb fun a b => a.add b.neg)
def execFmul (n : Fin 96) (rd ra rb : Fin 32) (s : State) : Host.Outcome State Fault Refusal :=
  .next (s.scalarF n rd ra rb Num.mul)
/-- RD + RA·RB, rounded once. -/
def execFma (n : Fin 96) (rd ra rb : Fin 32) (s : State) : Host.Outcome State Fault Refusal :=
  .next (s.scalar n rd [ra, rb] fun x =>
    (enc32 ((dec32 (x.lo rd)).add ((dec32 (x.lo ra)).mul (dec32 (x.lo rb))))).setWidth 64)
/-- FCVT: binary32 to INT64, saturating and NaN to 0, or INT64 to binary32. -/
def fcvt (toFloat : Bool) (v : DWord) : DWord :=
  if toFloat then (enc32 (.ofInt v.toInt)).setWidth 64
  else BitVec.ofInt 64 (toIntSat .rne (-9223372036854775808) 9223372036854775807 (dec32 (v.setWidth 32)))
def execFcvt (n : Fin 96) (toFloat : Bool) (rd ra : Fin 32) (s : State) : Host.Outcome State Fault Refusal :=
  .next (s.scalar n rd [ra] fun x => fcvt toFloat (x.sr ra))

def execAddi (n : Fin 96) (rd ra : Fin 32) (imm : Half) (s : State) : Host.Outcome State Fault Refusal :=
  .next (s.scalar n rd [ra] fun x => x.sr ra + imm64 imm)
def execAndi (n : Fin 96) (rd ra : Fin 32) (imm : Half) (s : State) : Host.Outcome State Fault Refusal :=
  .next (s.scalar n rd [ra] fun x => x.sr ra &&& imm64 imm)
def execOri (n : Fin 96) (rd ra : Fin 32) (imm : Half) (s : State) : Host.Outcome State Fault Refusal :=
  .next (s.scalar n rd [ra] fun x => x.sr ra ||| imm64 imm)
def execXori (n : Fin 96) (rd ra : Fin 32) (imm : Half) (s : State) : Host.Outcome State Fault Refusal :=
  .next (s.scalar n rd [ra] fun x => x.sr ra ^^^ imm64 imm)
def execLui (n : Fin 96) (rd : Fin 32) (imm : Half) (s : State) : Host.Outcome State Fault Refusal :=
  .next (s.scalar n rd [] fun _ => imm64 imm <<< 16)
/-- Shift immediate: kind 3 is undefined and faults with CAUSE 1. -/
def shiftImm (n : Fin 96) (rd ra : Fin 32) (imm : Half) (s : State) : State :=
  let k := fld imm 5 0
  match fld imm 7 6 with
  | 0 => s.scalar n rd [ra] fun x => x.sr ra <<< k
  | 1 => s.scalar n rd [ra] fun x => x.sr ra >>> k
  | 2 => s.scalar n rd [ra] fun x => (x.sr ra).sshiftRight k
  | _ => s.issue n 4 [rd, ra] [] fun _ => .fault 1 0
def execShiftImmediate (n : Fin 96) (rd ra : Fin 32) (imm : Half) (s : State) : Host.Outcome State Fault Refusal :=
  .next (shiftImm n rd ra imm s)
/-- An undefined major, FUNC or non-zero write-0 field: CAUSE 1 (R273, R537). -/
def execIllegalInstruction (n : Fin 96) (s : State) : Host.Outcome State Fault Refusal :=
  .next (s.issue n 4 [] [] fun _ => .fault 1 0)

/-! ### Branches and jumps (R273, R274) -/

/-- The PC given the low 17 bits of a target (log 24); a branch or jump to the second word of a pair faults with CAUSE 7 and
has no effect (R274, R288). -/
def State.jumpTo (s : State) (n : Fin 96) (target : DWord) (f : Needle → Needle) : NStep :=
  if s.secondWord n (target.setWidth 17).toNat then .fault 7 0
  else .done (s.modNeedle n fun x => { f x with pc := target.setWidth 17 })
/-- A branch: PC := PC + 4·OFF13 where the condition holds. -/
def State.branch (s : State) (n : Fin 96) (ra rb : Fin 32) (off : BitVec 13) (c : DWord → DWord → Bool) : State :=
  let x := s.needles[n]
  s.issue n 4 [ra, rb] [] fun t =>
    if c (x.sr ra) (x.sr rb) then t.jumpTo n (x.pc.setWidth 64 + (off.signExtend 64) <<< 2) id else .done t
def execBrEq (n : Fin 96) (ra rb : Fin 32) (off : BitVec 13) (s : State) : Host.Outcome State Fault Refusal :=
  .next (s.branch n ra rb off fun a b => a == b)
def execBrNe (n : Fin 96) (ra rb : Fin 32) (off : BitVec 13) (s : State) : Host.Outcome State Fault Refusal :=
  .next (s.branch n ra rb off fun a b => a != b)
def execBrLt (n : Fin 96) (ra rb : Fin 32) (off : BitVec 13) (s : State) : Host.Outcome State Fault Refusal :=
  .next (s.branch n ra rb off fun a b => a.slt b)
def execBrGe (n : Fin 96) (ra rb : Fin 32) (off : BitVec 13) (s : State) : Host.Outcome State Fault Refusal :=
  .next (s.branch n ra rb off fun a b => !a.slt b)
def execBrLtu (n : Fin 96) (ra rb : Fin 32) (off : BitVec 13) (s : State) : Host.Outcome State Fault Refusal :=
  .next (s.branch n ra rb off fun a b => a.ult b)
def execBrGeu (n : Fin 96) (ra rb : Fin 32) (off : BitVec 13) (s : State) : Host.Outcome State Fault Refusal :=
  .next (s.branch n ra rb off fun a b => !a.ult b)
/-- The address of the next instruction, as a link register takes it. -/
def linkOf (x : Needle) : DWord := x.pc.setWidth 64 + 4
def execJal (n : Fin 96) (rd : Fin 32) (off : BitVec 21) (s : State) : Host.Outcome State Fault Refusal :=
  let x := s.needles[n]
  .next (s.issue n 4 [rd] [] fun t =>
    t.jumpTo n (x.pc.setWidth 64 + (off.signExtend 64) <<< 2) fun y => y.setS rd (linkOf x))
def execJalr (n : Fin 96) (rd ra : Fin 32) (imm : Half) (s : State) : Host.Outcome State Fault Refusal :=
  let x := s.needles[n]
  .next (s.issue n 4 [rd, ra] [] fun t =>
    t.jumpTo n ((x.sr ra + imm64 imm) &&& ~~~3) fun y => y.setS rd (linkOf x))

/-! ### Control registers (R268) -/

/-- CSRR: an index not listed faults with CAUSE 1 (log 25). -/
def execCsrr (n : Fin 96) (rd rb : Fin 32) (s : State) : Host.Outcome State Fault Refusal :=
  .next (s.issue n 4 [rd] [] fun t => match s.ctrlReg n rb.val with
    | some v => .done (t.modNeedle n fun x => x.setS rd v)
    | none => .fault 1 0)
/-- CSRW: bits a register does not have stay 0. -/
def execCsrw (n : Fin 96) (ra rb : Fin 32) (s : State) : Host.Outcome State Fault Refusal :=
  let v := (s.needles[n]).sr ra
  .next (s.issue n 4 [ra] [] fun t => match rb.val with
    | 1 => .done (t.modNeedle n fun x => { x with draft := v.setWidth 32 })
    | 2 => .done (t.modNeedle n fun x => { x with ignoreNan := v.getLsbD 0 })
    | 3 => .done (t.modNeedle n fun x => { x with faultFlag := v &&& 0xFFFFFFFF0000007F })
    | _ => .fault 1 0)

/-! ### HALT, TICKWAIT (R286, R287) -/

def execHalt (n : Fin 96) (s : State) : Host.Outcome State Fault Refusal :=
  .next (s.issue n 4 [] [] fun t =>
    .done (t.modNeedle n fun x => { x with st := .halted, wait := .ended, haltReq := false, stepReq := false }))
/-- Whether a needle lies in a hard swatch. -/
def State.inHard (s : State) (n : Fin 96) : Bool :=
  match s.swatchOf (skeinOf n) with
  | some i => decide (s.swatches[i].cls = .hard)
  | none => false
/-- TICKWAIT: in a hard swatch the row ends here. -/
def tickwait (n : Fin 96) (rd ra : Fin 32) (s : State) : State :=
  let target : DWord := if ra = 0 then s.tick.count + 1 else (s.needles[n]).sr ra
  s.issue n 4 [rd, ra] [] fun t =>
    if s.inHard n then .done (t.modNeedle n fun x => { x with wait := .ended })
    else if ra ≠ 0 ∧ target.toNat ≤ s.tick.count.toNat then .done (t.modNeedle n fun x => x.setS rd s.tick.count)
    else .done (t.modNeedle n fun x => { x with wait := .tick rd target (decide (ra = 0)) })
def execTickwait (n : Fin 96) (rd ra : Fin 32) (s : State) : Host.Outcome State Fault Refusal :=
  .next (tickwait n rd ra s)
/-- Whether a needle's swatch lets a waiting needle go on. -/
def State.swatchRuns (s : State) (n : Fin 96) : Bool :=
  match s.swatchOf (skeinOf n) with
  | some i => decide (s.swatches[i].st ≠ .held)
  | none => true
/-- NEEDLE_TICKWAIT_RESUME. -/
def tickResume (n : Fin 96) (s : State) : State :=
  match (s.needles[n]).wait with
  | .tick rd target _ =>
    if target.toNat ≤ s.tick.count.toNat && s.swatchRuns n then s.wake n fun x => x.setS rd s.tick.count else s
  | _ => s
def execNeedleTickwaitResume (n : Fin 96) (s : State) : Host.Outcome State Fault Refusal := .next (tickResume n s)

/-! ### The mesh's confinement (R244) -/

/-- MESH_EVENTS bit, count and record of a drop; KIND as R538. -/
def MeshUnit.drop (m : MeshUnit) (h : PktHead) (bit vc kind : Nat) : MeshUnit :=
  { m with
    events := setBit m.events bit, dropCount := satAdd m.dropCount 1
    dropLast := mkW [(0, 4, h.src.val), (4, 4, h.dst.val), (8, 2, vc), (10, 4, kind)] }
/-- Why a router drops a packet for some destinations: the bit of MESH_EVENTS. -/
def MeshUnit.refuses (m : MeshUnit) (h : PktHead) (dests : List (Fin 16)) (mcast : Bool) : Option Nat :=
  if m.swatch ≠ some h.swatch then some 2
  else if dests.all (inRect m.course0.val m.wale0.val m.coursesM1.val m.walesM1.val) then none
  else some (if mcast then 1 else 0)
/-- A packet that arrives at a router: dropped with what a drop does, or passed on to `f`. -/
def State.arrive (s : State) (r : Fin 16) (h : PktHead) (dests : List (Fin 16)) (mcast : Bool) (vc kind : Nat)
    (err : Option Out) (f : State) : State :=
  match (s.skeins[r]).mesh.refuses h dests mcast with
  | none => f
  | some bit =>
    let s : State := (s.modMesh r fun m => m.drop h bit vc kind).swStatus h.swatch 5
    match err with
    | some o => s.emit o
    | none => s

/-! ### Barriers (R248) -/

/-- BAR: an arrival packet goes to the home skein, and the needle stalls until the release. -/
def execBar (n : Fin 96) (ra : Fin 32) (s : State) : Host.Outcome State Fault Refusal :=
  .next (s.issue n 4 [] [] fun t =>
    if h : ra.val < 16 then
      let i : Fin 16 := ⟨ra.val, h⟩
      .done (((t.emit (.barrierArrive (t.pkt n (t.homeOf n)) i)).useId).modNeedle n fun x => { x with wait := .barrier i })
    else .fault 1 0)
/-- An arrival at the home unit: a stray is released at once; the last member's releases all and toggles GEN. -/
def State.barArrive (s : State) (k : Fin 16) (sw : Fin 8) (n : Fin 96) (i : Fin 16) : State :=
  let b := (s.skeins[k]).mesh.barriers[i]
  if !b.members.contains n then
    ((s.modMesh k fun m => { m with events := setBit m.events 4 }).swStatus sw 5).emit (.barrierRelease n i)
  else
    let got := if b.arrived.contains n then b.arrived else b.arrived ++ [n]
    let full := b.members.all got.contains
    let b' : Barrier := if full then { b with arrived := [], gen := !b.gen } else { b with arrived := got }
    let s : State := s.modMesh k fun m => { m with barriers := m.barriers.set i b' }
    if full then s.emits (b.members.map fun x => .barrierRelease x i) else s
/-- BARRIER_ARRIVAL at a router: forwarded, or counted at its home unit. -/
def barrierArrival (r : Fin 16) (h : PktHead) (i : Fin 16) (s : State) : State :=
  s.arrive r h [h.dst] false 2 9 none
    (if r ≠ h.dst then s.emit (.barrierArrive h i)
     else match h.issuer with
      | .needle k => s.barArrive r h.swatch (needleOf h.src k) i
      | _ => s)
def execBarrierArrival (at_ : Fin 16) (h : PktHead) (barrier : Fin 16) (s : State) : Host.Outcome State Fault Refusal :=
  .next (barrierArrival at_ h barrier s)
def execBarrierRelease (n : Fin 96) (barrier : Fin 16) (s : State) : Host.Outcome State Fault Refusal :=
  .next (if (s.needles[n]).wait = .barrier barrier then s.wake n id else s)

/-! ### Flags (R249, R286) -/

/-- A FLAG instruction: SET and ADD owe s[RD] the reply, the waits stall until it. -/
def State.flagInstr (s : State) (n : Fin 96) (rd ra rb : Fin 32) (op : FlagKind) : State :=
  let x := s.needles[n]
  let f : Fin 64 := Fin.ofNat 64 (x.sr ra).toNat
  let stay : Bool := match op with
    | .waitGe => true
    | .waitEq => true
    | _ => false
  s.issue n 4 [rd, ra, rb] [] fun t =>
    let h := t.pkt n (t.homeOf n)
    let t : State := t.emit (.flagOp h op f (x.lo rb))
    if stay then .done ((t.useId).modNeedle n fun y => { y with wait := .flag rd h.id })
    else
      let a : Access := ⟨h.id, .needle n, .mesh h.dst, .needle, 0, .read 4, .sreg rd 2 false, none, x.pc.toNat, true, false⟩
      .done { t.useId with accesses := t.accesses ++ [a] }
def execFlagSet (n : Fin 96) (rd ra rb : Fin 32) (s : State) : Host.Outcome State Fault Refusal :=
  .next (s.flagInstr n rd ra rb .set)
def execFlagAdd (n : Fin 96) (rd ra rb : Fin 32) (s : State) : Host.Outcome State Fault Refusal :=
  .next (s.flagInstr n rd ra rb .add)
def execFlagWaitGe (n : Fin 96) (rd ra rb : Fin 32) (s : State) : Host.Outcome State Fault Refusal :=
  .next (s.flagInstr n rd ra rb .waitGe)
def execFlagWaitEq (n : Fin 96) (rd ra rb : Fin 32) (s : State) : Host.Outcome State Fault Refusal :=
  .next (s.flagInstr n rd ra rb .waitEq)
/-- FLAG_OPERATION at a router: forwarded, or made at its home unit. -/
def flagOperation (r : Fin 16) (h : PktHead) (op : FlagKind) (f : Fin 64) (x : Word) (s : State) : State :=
  s.arrive r h [h.dst] false 0 3 (some (.flagReply h.back true 0))
    (if r ≠ h.dst then s.emit (.flagOp h op f x) else s.flagOp r h op f x)
def execFlagOperation (at_ : Fin 16) (h : PktHead) (op : FlagKind) (flag : Fin 64) (operand : Word) (s : State) :
    Host.Outcome State Fault Refusal := .next (flagOperation at_ h op flag operand s)

end Sys2Proof.Machine
end

