-- ==== Sys2Proof/Machine/Vectors.lean ====
section
/-! DEFINITION. Vector arithmetic (10 R276), permutes and predicates (R277, R537). -/
namespace Sys2Proof.Machine
open Sys2Proof

/-! ### Lanes -/

/-- A vector register given lane by lane where the predicate admits it (R274). -/
def Needle.setLanes (x : Needle) (p : Pred) (rd : Fin 32) (f : Fin 64 → Word) : Needle :=
  x.setV rd (Vector.ofFn fun (i : Fin 64) => if x.admits p i.val then f i else (x.v[rd])[i])
/-- The second operand: v[RB], or the low 32 bits of s[RB] in every lane. -/
def Needle.second (x : Needle) (bcast : Bool) (rb : Fin 32) (i : Fin 64) : Word := if bcast then x.lo rb else (x.v[rb])[i]
/-- The scalars and vectors the second operand names. -/
def secondS (bcast : Bool) (rb : Fin 32) : List (Fin 32) := if bcast then [rb] else []
def secondV (bcast : Bool) (rb : Fin 32) : List (Fin 32) := if bcast then [] else [rb]
/-- v[RD] lane by lane from the old v[RD], v[RA] and the second operand. -/
def State.lanewise (s : State) (n : Fin 96) (p : Pred) (bcast : Bool) (rd ra rb : Fin 32) (f : Word → Word → Word → Word) :
    State :=
  s.issue n 4 (secondS bcast rb) ([rd, ra] ++ secondV bcast rb) fun t => .done (t.modNeedle n fun x =>
    x.setLanes p rd fun i => f (x.v[rd])[i] (x.v[ra])[i] (x.second bcast rb i))
/-- The float format of a vector type. -/
def vtFmt : VType → Fmt
  | .fp16 => .f16
  | .bf16 => .bf16
  | _ => .f32
/-- An operation on the elements of a lane: one of 32 bits, or two of 16. -/
def onLane (ty : VType) (int : Word → Word → Word → Word) (flt : Fmt → Nat → Nat → Nat → Nat) (d a b : Word) : Word :=
  match ty with
  | .int32 => int d a b
  | .fp32 => BitVec.ofNat 32 (flt .f32 d.toNat a.toNat b.toNat)
  | ty =>
    let f := vtFmt ty
    let half (i : Nat) : Nat := flt f (fld d (16 * i + 15) (16 * i)) (fld a (16 * i + 15) (16 * i)) (fld b (16 * i + 15) (16 * i))
    mkW [(0, 16, half 0), (16, 16, half 1)]

/-! ### Arithmetic (R276) -/

def execVadd (n : Fin 96) (ty : VType) (pr : Pred) (bcast : Bool) (rd ra rb : Fin 32) (s : State) :
    Host.Outcome State Fault Refusal :=
  .next (s.lanewise n pr bcast rd ra rb (onLane ty (fun _ a b => a + b) fun f _ a b => f.addBits a b))
def execVsub (n : Fin 96) (ty : VType) (pr : Pred) (bcast : Bool) (rd ra rb : Fin 32) (s : State) :
    Host.Outcome State Fault Refusal :=
  .next (s.lanewise n pr bcast rd ra rb (onLane ty (fun _ a b => a - b) fun f _ a b => f.subBits a b))
def execVmul (n : Fin 96) (ty : VType) (pr : Pred) (bcast : Bool) (rd ra rb : Fin 32) (s : State) :
    Host.Outcome State Fault Refusal :=
  .next (s.lanewise n pr bcast rd ra rb (onLane ty (fun _ a b => a * b) fun f _ a b => f.mulBits a b))
/-- RD + RA·RB; the float forms are fused. -/
def execVfma (n : Fin 96) (ty : VType) (pr : Pred) (bcast : Bool) (rd ra rb : Fin 32) (s : State) :
    Host.Outcome State Fault Refusal :=
  .next (s.lanewise n pr bcast rd ra rb (onLane ty (fun d a b => d + a * b) fun f d a b => f.fmaBits d a b))
/-- MIN and MAX: minimumNumber and maximumNumber with IGNORE_NAN. -/
def State.minmax (s : State) (n : Fin 96) (ty : VType) (pr : Pred) (bcast : Bool) (rd ra rb : Fin 32) (isMax : Bool) : State :=
  let ig := (s.needles[n]).ignoreNan
  s.lanewise n pr bcast rd ra rb
    (onLane ty (fun _ a b => if b.slt a == isMax then a else b) fun f _ a b => f.minmax isMax ig a b)
def execVmin (n : Fin 96) (ty : VType) (pr : Pred) (bcast : Bool) (rd ra rb : Fin 32) (s : State) :
    Host.Outcome State Fault Refusal := .next (s.minmax n ty pr bcast rd ra rb false)
def execVmax (n : Fin 96) (ty : VType) (pr : Pred) (bcast : Bool) (rd ra rb : Fin 32) (s : State) :
    Host.Outcome State Fault Refusal := .next (s.minmax n ty pr bcast rd ra rb true)
/-- A float code without its sign, or with the opposite one; a NaN becomes the default NaN. -/
def absBits (f : Fmt) (a : Nat) : Nat := if (f.dec a).isNan then f.nanCode else a % 2 ^ (f.width - 1)
def negBits (f : Fmt) (a : Nat) : Nat :=
  if (f.dec a).isNan then f.nanCode else if a.testBit (f.width - 1) then a % 2 ^ (f.width - 1) else a + 2 ^ (f.width - 1)
def execVabs (n : Fin 96) (ty : VType) (pr : Pred) (rd ra : Fin 32) (s : State) : Host.Outcome State Fault Refusal :=
  .next (s.lanewise n pr false rd ra ra (onLane ty (fun _ a _ => if a.msb then -a else a) fun f _ a _ => absBits f a))
def execVneg (n : Fin 96) (ty : VType) (pr : Pred) (rd ra : Fin 32) (s : State) : Host.Outcome State Fault Refusal :=
  .next (s.lanewise n pr false rd ra ra (onLane ty (fun _ a _ => -a) fun f _ a _ => negBits f a))
def execVand (n : Fin 96) (pr : Pred) (bcast : Bool) (rd ra rb : Fin 32) (s : State) : Host.Outcome State Fault Refusal :=
  .next (s.lanewise n pr bcast rd ra rb fun _ a b => a &&& b)
def execVor (n : Fin 96) (pr : Pred) (bcast : Bool) (rd ra rb : Fin 32) (s : State) : Host.Outcome State Fault Refusal :=
  .next (s.lanewise n pr bcast rd ra rb fun _ a b => a ||| b)
def execVxor (n : Fin 96) (pr : Pred) (bcast : Bool) (rd ra rb : Fin 32) (s : State) : Host.Outcome State Fault Refusal :=
  .next (s.lanewise n pr bcast rd ra rb fun _ a b => a ^^^ b)
def execVshl (n : Fin 96) (pr : Pred) (bcast : Bool) (rd ra rb : Fin 32) (s : State) : Host.Outcome State Fault Refusal :=
  .next (s.lanewise n pr bcast rd ra rb fun _ a b => a <<< (b.toNat % 32))
def execVshr (n : Fin 96) (pr : Pred) (bcast : Bool) (rd ra rb : Fin 32) (s : State) : Host.Outcome State Fault Refusal :=
  .next (s.lanewise n pr bcast rd ra rb fun _ a b => a >>> (b.toNat % 32))
def execVsra (n : Fin 96) (pr : Pred) (bcast : Bool) (rd ra rb : Fin 32) (s : State) : Host.Outcome State Fault Refusal :=
  .next (s.lanewise n pr bcast rd ra rb fun _ a b => a.sshiftRight (b.toNat % 32))
/-- The high 32 bits of the signed product. -/
def execVmulh (n : Fin 96) (pr : Pred) (bcast : Bool) (rd ra rb : Fin 32) (s : State) : Host.Outcome State Fault Refusal :=
  .next (s.lanewise n pr bcast rd ra rb fun _ a b => BitVec.ofInt 32 (a.toInt * b.toInt / 2 ^ 32))

/-- The vector type a number names (R276): major minus 0x10. -/
def vtOf : Nat → Option VType
  | 0 => some .int32 | 1 => some .fp32 | 2 => some .fp16 | 3 => some .bf16 | _ => none
/-- Elements in a lane. -/
def vtCount : VType → Nat
  | .fp16 => 2 | .bf16 => 2 | _ => 1
/-- An element of a type as a value, and a value rounded into a type. -/
def vtNum (ty : VType) (v : Nat) : Num :=
  match ty with
  | .int32 => .ofInt (BitVec.ofNat 32 v).toInt
  | ty => (vtFmt ty).dec v
def vtBits (ty : VType) (x : Num) : Nat :=
  match ty with
  | .int32 => (BitVec.ofInt 32 (toIntSat .rne (-2147483648) 2147483647 x)).toNat
  | ty => (vtFmt ty).rne x
/-- A lane converted between types of one width. -/
def cvtLane (a b : VType) (w : Word) : Word :=
  if vtCount a = 1 then BitVec.ofNat 32 (vtBits b (vtNum a w.toNat))
  else mkW [(0, 16, vtBits b (vtNum a (fld w 15 0))), (16, 16, vtBits b (vtNum a (fld w 31 16)))]
/-- An element of a vector register under a type. -/
def vtElem (ty : VType) (v : VReg) (j : Nat) : Nat :=
  if vtCount ty = 1 then (v[Fin.ofNat 64 j]).toNat else fld v[Fin.ofNat 64 (j / 2)] (16 * (j % 2) + 15) (16 * (j % 2))
/-- An element of the result of a conversion between widths: the source element it is made from, converted, or a free value
where none is (log 26). -/
def cvtElem (a b : VType) (v : VReg) (c j : Nat) : Nat :=
  match Config.cvtPlace (decide (vtCount b = 1)) j with
  | some k => vtBits b (vtNum a (vtElem a v k))
  | none => (Config.freeBits (c + j / 2)).toNat
/-- A lane of that result. -/
def cvtWide (a b : VType) (v : VReg) (c i : Nat) : Word :=
  if vtCount b = 1 then BitVec.ofNat 32 (cvtElem a b v c i)
  else mkW [(0, 16, cvtElem a b v c (2 * i)), (16, 16, cvtElem a b v c (2 * i + 1))]
/-- CVT: between types of one width lane by lane. Between a 32-bit and a 16-bit type every value is converted alike, but no rule
says which element of the source meets which of the result: that is free (log 26). A number that names no type faults with
CAUSE 1. -/
def vcvt (n : Fin 96) (ty : VType) (pr : Pred) (rd ra rb : Fin 32) (s : State) : State :=
  s.issue n 4 [] [rd, ra] fun t => match vtOf rb.val with
    | none => .fault 1 0
    | some b =>
      if vtCount ty = vtCount b then
        .done (t.modNeedle n fun x => x.setLanes pr rd fun i => cvtLane ty b (x.v[ra])[i])
      else
        let c := t.freeCtr
        let t : State := t.modNeedle n fun x => x.setLanes pr rd fun i => cvtWide ty b x.v[ra] c i.val
        .done { t with freeCtr := c + 64 }
def execVcvt (n : Fin 96) (ty : VType) (pr : Pred) (rd ra rb : Fin 32) (s : State) : Host.Outcome State Fault Refusal :=
  .next (vcvt n ty pr rd ra rb s)

/-! ### Permutes (R537) -/

def execBcast (n : Fin 96) (pr : Pred) (rd ra : Fin 32) (s : State) : Host.Outcome State Fault Refusal :=
  .next (s.issue n 4 [ra] [rd] fun t => .done (t.modNeedle n fun x => x.setLanes pr rd fun _ => x.lo ra))
def execShuffle (n : Fin 96) (pr : Pred) (rd ra rb : Fin 32) (s : State) : Host.Outcome State Fault Refusal :=
  .next (s.issue n 4 [] [rd, ra, rb] fun t => .done (t.modNeedle n fun x =>
    x.setLanes pr rd fun i => (x.v[ra])[Fin.ofNat 64 ((x.v[rb])[i]).toNat]))
/-- Lane i − s[RB], where i ≥ s[RB]; lower lanes keep what they hold. -/
def execSlideup (n : Fin 96) (pr : Pred) (rd ra rb : Fin 32) (s : State) : Host.Outcome State Fault Refusal :=
  .next (s.issue n 4 [rb] [rd, ra] fun t => .done (t.modNeedle n fun x =>
    let d := (x.sr rb).toNat
    x.setLanes pr rd fun i => if d ≤ i.val then (x.v[ra])[Fin.ofNat 64 (i.val - d)] else (x.v[rd])[i]))
/-- Lane i + s[RB], 0 where there is none. -/
def execSlidedn (n : Fin 96) (pr : Pred) (rd ra rb : Fin 32) (s : State) : Host.Outcome State Fault Refusal :=
  .next (s.issue n 4 [rb] [rd, ra] fun t => .done (t.modNeedle n fun x =>
    let d := (x.sr rb).toNat
    x.setLanes pr rd fun i => if i.val + d < 64 then (x.v[ra])[Fin.ofNat 64 (i.val + d)] else 0))
def execLaneget (n : Fin 96) (rd ra rb : Fin 32) (s : State) : Host.Outcome State Fault Refusal :=
  .next (s.issue n 4 [rd, rb] [ra] fun t => .done (t.modNeedle n fun x =>
    x.setS rd (((x.v[ra])[Fin.ofNat 64 (x.sr rb).toNat]).setWidth 64)))
def execLaneset (n : Fin 96) (pr : Pred) (rd ra rb : Fin 32) (s : State) : Host.Outcome State Fault Refusal :=
  .next (s.issue n 4 [ra, rb] [rd] fun t => .done (t.modNeedle n fun x =>
    let l := (x.sr rb).toNat % 64
    x.setLanes pr rd fun i => if i.val = l then x.lo ra else (x.v[rd])[i]))

/-! ### Predicates (R277, R537) -/

/-- p[RD] bit by bit where the predicate admits the lane; a field beyond p7 faults with CAUSE 1. -/
def State.predOp (s : State) (n : Fin 96) (vs : List (Fin 32)) (ps : List (Fin 32)) (pr : Pred) (rd : Fin 32)
    (f : Needle → Nat → Bool) : State :=
  s.issue n 4 [] vs fun t =>
    if (rd :: ps).any (fun i => decide (7 < i.val)) then .fault 1 0
    else
      let d : Fin 8 := Fin.ofNat 8 rd.val
      .done (t.modNeedle n fun x => x.setP d (BitVec.ofFnLE fun (i : Fin 64) =>
        if x.admits pr i.val then f x i.val else (x.p[d]).getLsbD i.val))
/-- A compare of two lanes; a NaN compares false, but for NE. -/
def cmpLane (k : CmpKind) (lt eq : Bool) (neg : Bool) (a b : Word) : Bool :=
  match k with
  | .signed => ((lt && a.slt b) || (eq && a == b)) != neg
  | .unsigned => ((lt && a.ult b) || (eq && a == b)) != neg
  | .fp32 => ((lt && (dec32 a).lt (dec32 b)) || (eq && (dec32 a).eqv (dec32 b))) != neg
def State.predCmp (s : State) (n : Fin 96) (k : CmpKind) (pr : Pred) (rd ra rb : Fin 32) (lt eq neg : Bool) : State :=
  s.predOp n [ra, rb] [] pr rd fun x i =>
    cmpLane k lt eq neg (x.v[ra])[Fin.ofNat 64 i] (x.v[rb])[Fin.ofNat 64 i]
def execPredEq (n : Fin 96) (kind : CmpKind) (pr : Pred) (rd ra rb : Fin 32) (s : State) :
    Host.Outcome State Fault Refusal := .next (s.predCmp n kind pr rd ra rb false true false)
def execPredNe (n : Fin 96) (kind : CmpKind) (pr : Pred) (rd ra rb : Fin 32) (s : State) :
    Host.Outcome State Fault Refusal := .next (s.predCmp n kind pr rd ra rb false true true)
def execPredLt (n : Fin 96) (kind : CmpKind) (pr : Pred) (rd ra rb : Fin 32) (s : State) :
    Host.Outcome State Fault Refusal := .next (s.predCmp n kind pr rd ra rb true false false)
def execPredLe (n : Fin 96) (kind : CmpKind) (pr : Pred) (rd ra rb : Fin 32) (s : State) :
    Host.Outcome State Fault Refusal := .next (s.predCmp n kind pr rd ra rb true true false)
/-- A predicate register by a five-bit field. -/
def Needle.pf (x : Needle) (i : Fin 32) : DWord := x.p[Fin.ofNat 8 i.val]
def execPredAnd (n : Fin 96) (pr : Pred) (rd ra rb : Fin 32) (s : State) : Host.Outcome State Fault Refusal :=
  .next (s.predOp n [] [ra, rb] pr rd fun x i => (x.pf ra).getLsbD i && (x.pf rb).getLsbD i)
def execPredOr (n : Fin 96) (pr : Pred) (rd ra rb : Fin 32) (s : State) : Host.Outcome State Fault Refusal :=
  .next (s.predOp n [] [ra, rb] pr rd fun x i => (x.pf ra).getLsbD i || (x.pf rb).getLsbD i)
def execPredXor (n : Fin 96) (pr : Pred) (rd ra rb : Fin 32) (s : State) : Host.Outcome State Fault Refusal :=
  .next (s.predOp n [] [ra, rb] pr rd fun x i => (x.pf ra).getLsbD i != (x.pf rb).getLsbD i)
def execPredNot (n : Fin 96) (pr : Pred) (rd ra : Fin 32) (s : State) : Host.Outcome State Fault Refusal :=
  .next (s.predOp n [] [ra] pr rd fun x i => !(x.pf ra).getLsbD i)
/-- The lowest set bit, or 64. -/
def firstBit (p : DWord) : Nat := ((List.range 64).find? fun i => p.getLsbD i).getD 64
/-- The number of set bits. -/
def countBits (p : DWord) : Nat := ((List.range 64).filter fun i => p.getLsbD i).length
/-- FIRST and COUNT: a scalar from a predicate. RD and RA above 7 fault with CAUSE 1 (log 27). -/
def State.predCount (s : State) (n : Fin 96) (rd ra : Fin 32) (f : DWord → Nat) : State :=
  s.issue n 4 [rd] [] fun t =>
    if 7 < rd.val ∨ 7 < ra.val then .fault 1 0
    else .done (t.modNeedle n fun x => x.setS rd (BitVec.ofNat 64 (f (x.pf ra))))
def execFirst (n : Fin 96) (rd ra : Fin 32) (s : State) : Host.Outcome State Fault Refusal :=
  .next (s.predCount n rd ra firstBit)
def execCount (n : Fin 96) (rd ra : Fin 32) (s : State) : Host.Outcome State Fault Refusal :=
  .next (s.predCount n rd ra countBits)

end Sys2Proof.Machine
end

