-- ==== Sys2Proof/Machine/Reduce.lean ====
section
/-! DEFINITION. Rib reductions (10 R278, 12 R339 to R341). -/
namespace Sys2Proof.Machine
open Sys2Proof

/-- The admitted lanes of a vector register. -/
def Needle.admitted (x : Needle) (p : Pred) (ra : Fin 32) : List (Option Word) :=
  (allFin 64).map fun (i : Fin 64) => if x.admits p i.val then some (x.v[ra])[i] else none
/-- The index and value of each admitted lane. -/
def Needle.candidates (x : Needle) (p : Pred) (ra : Fin 32) (base : Word) : List (Word × Word) :=
  ((allFin 64).filter fun (i : Fin 64) => x.admits p i.val).map fun i => ((x.v[ra])[i], base + BitVec.ofNat 32 i.val)

/-- SUM and SUMSQ on FP32: the new bits [31:0], or none where no lane is admitted. -/
def fpSum (squares acc : Bool) (prev : Word) (l : List (Option Word)) : Option Word :=
  let root : Option Num := if squares then treeSquares l else (treeSum l).map dec32
  match root, acc with
  | none, _ => none
  | some r, true => some (enc32 ((dec32 prev).add r))
  | some r, false => some (if squares then enc32 r else (treeSum l).getD (enc32 r))
/-- SUM and SUMSQ on INT32, exact modulo 2^64. -/
def intSum (squares : Bool) (l : List (Option Word)) : Int :=
  l.foldl (fun t o => match o with
    | some w => t + (if squares then w.toInt * w.toInt else w.toInt)
    | none => t) 0
/-- s[RD] after SUM or SUMSQ. -/
def Needle.summed (x : Needle) (int acc squares : Bool) (pr : Pred) (rd ra : Fin 32) : DWord :=
  let l := x.admitted pr ra
  if int then
    let t := BitVec.ofInt 64 (intSum squares l)
    if acc then x.sr rd + t else t
  else match fpSum squares acc (x.lo rd) l with
    | some w => w.setWidth 64
    | none => if acc then x.sr rd else 0
def State.redSum (s : State) (n : Fin 96) (int acc squares : Bool) (pr : Pred) (rd ra : Fin 32) : State :=
  s.issue n 4 [rd] [ra] fun t => .done (t.modNeedle n fun x => x.setS rd (x.summed int acc squares pr rd ra))
def execSum (n : Fin 96) (int acc : Bool) (pr : Pred) (rd ra : Fin 32) (s : State) : Host.Outcome State Fault Refusal :=
  .next (s.redSum n int acc false pr rd ra)
def execSumsq (n : Fin 96) (int acc : Bool) (pr : Pred) (rd ra : Fin 32) (s : State) : Host.Outcome State Fault Refusal :=
  .next (s.redSum n int acc true pr rd ra)

/-- The state of MEANVAR: n, m, M2 (R340). -/
structure MeanVar where
  n  : Nat
  m  : Word
  m2 : Word
deriving DecidableEq, Repr
/-- merge(a, b) of R340. -/
def MeanVar.merge (a b : MeanVar) : MeanVar :=
  if b.n = 0 then a
  else if a.n = 0 then b
  else
    let n := a.n + b.n
    let rn (x : Num) : Word := enc32 x
    let d := sub32 b.m a.m
    let w1 := rn ((Num.ofInt b.n).div (.ofInt n))
    let w2 := rn ((Num.ofInt (a.n * b.n)).div (.ofInt n))
    let dd := rn ((dec32 d).mul (dec32 d))
    ⟨n, rn ((dec32 a.m).add ((dec32 d).mul (dec32 w1))),
      rn ((dec32 (add32 a.m2 b.m2)).add ((dec32 dd).mul (dec32 w2)))⟩
/-- MEANVAR: count, mean and M2; INT32 or RD above 30 faults with CAUSE 1. -/
def redMeanvar (n : Fin 96) (int acc : Bool) (pr : Pred) (rd ra : Fin 32) (s : State) : State :=
  s.issue n 4 [rd, rd + 1] [ra] fun t =>
    if int ∨ 30 < rd.val then .fault 1 0
    else
      let x := t.needles[n]
      let new : MeanVar := (treeFold MeanVar.merge ((x.admitted pr ra).map fun o =>
        o.map fun w => MeanVar.mk 1 w 0)).getD ⟨0, 0, 0⟩
      let hi := x.sr (rd + 1)
      let old : MeanVar := ⟨(x.sr rd).toNat, hi.setWidth 32, (hi >>> 32).setWidth 32⟩
      let r : MeanVar := if acc then old.merge new else new
      let out : DWord := BitVec.ofNat 64 (r.m.toNat + r.m2.toNat * 2 ^ 32)
      if acc ∧ new.n = 0 then .done t
      else .done (t.modNeedle n fun x => (x.setS rd (BitVec.ofNat 64 r.n)).setS (rd + 1) out)
def execMeanvar (n : Fin 96) (int acc : Bool) (pr : Pred) (rd ra : Fin 32) (s : State) :
    Host.Outcome State Fault Refusal := .next (redMeanvar n int acc pr rd ra s)

/-- The winner among INT32 candidates, the lowest index of equal values (R341). -/
def pickInt (isMax : Bool) (l : List (Word × Word)) : Option (Word × Word) :=
  l.foldl (fun b x => match b with
    | none => some x
    | some y =>
      let better := if isMax then y.1.slt x.1 else x.1.slt y.1
      if better || (decide (x.1 = y.1) && decide (x.2.toNat < y.2.toNat)) then some x else b) none
/-- The empty result of R278. -/
def redEmpty : Word × Word := (0xFFC00000, 0xFFFFFFFF)
/-- MAX, MIN, ARGMAX, ARGMIN with ACC's previous candidate (R341): an empty previous state is none; MAX and MIN hold no
index, and their previous value counts before every lane. -/
def Needle.winner (x : Needle) (int acc isMax arg : Bool) (pr : Pred) (rd ra : Fin 32) (base : Word) : Word × Word :=
  let lanes := x.candidates pr ra base
  let old : Word × Word := (x.lo rd, if arg then ((x.sr rd) >>> 32).setWidth 32 else 0)
  let emptyOld : Bool := if arg then decide (old = redEmpty) else decide (old.1 = redEmpty.1 ∧ !int)
  let l := if acc && !emptyOld then old :: lanes else lanes
  (if int then pickInt isMax l else pick32 isMax x.ignoreNan l).getD redEmpty
def State.redPick (s : State) (n : Fin 96) (int acc isMax arg : Bool) (pr : Pred) (rd ra rb : Fin 32) : State :=
  s.issue n 4 (if arg then [rd, rb] else [rd]) [ra] fun t =>
    let x := t.needles[n]
    if acc ∧ (x.candidates pr ra 0).isEmpty then .done t
    else
      let w := x.winner int acc isMax arg pr rd ra (if arg then x.lo rb else 0)
      let v : DWord := if arg then BitVec.ofNat 64 (w.1.toNat + w.2.toNat * 2 ^ 32) else w.1.setWidth 64
      .done (t.modNeedle n fun y => y.setS rd v)
def execRedMax (n : Fin 96) (int acc : Bool) (pr : Pred) (rd ra : Fin 32) (s : State) : Host.Outcome State Fault Refusal :=
  .next (s.redPick n int acc true false pr rd ra 0)
def execRedMin (n : Fin 96) (int acc : Bool) (pr : Pred) (rd ra : Fin 32) (s : State) : Host.Outcome State Fault Refusal :=
  .next (s.redPick n int acc false false pr rd ra 0)
def execArgmax (n : Fin 96) (int acc : Bool) (pr : Pred) (rd ra rb : Fin 32) (s : State) :
    Host.Outcome State Fault Refusal := .next (s.redPick n int acc true true pr rd ra rb)
def execArgmin (n : Fin 96) (int acc : Bool) (pr : Pred) (rd ra rb : Fin 32) (s : State) :
    Host.Outcome State Fault Refusal := .next (s.redPick n int acc false true pr rd ra rb)

end Sys2Proof.Machine
end

