-- ==== Sys2Proof/Machine/Access.lean ====
section
/-! DEFINITION. The needles' memory accesses: carded views (13 R369, R370), access paths (10 R279 to R282), bank arbitration
(R259 to R262), the mesh's store packets (09 R241 to R244), fences (R281). -/
namespace Sys2Proof.Machine
open Sys2Proof

/-! ### What an edge carder's jobs wait for (R366) -/

/-- The record at an offset of an object, with the offset after it. -/
def cardRecord (b : List Byte) (off : Nat) : List Byte := slice b off (48 + 4 * leAt b (off + 1) 1)
/-- The records of an object, in order, and the offset after them. -/
def cardRecords (b : List Byte) : Nat → Nat → List (List Byte) × Nat
  | 0, off => ([], off)
  | n + 1, off =>
    let r := cardRecord b off
    let l := cardRecords b n (off + r.length)
    (r :: l.1, l.2)
/-- An object loaded into a carder: flags, slots and parameters; slots no record names stay. -/
def Carder.load (c : Carder) (b : List Byte) : Carder :=
  let flags := leAt b 7 1
  let seed : Word := BitVec.ofNat 32 (leAt b 16 4)
  let words := leAt b 8 2
  let base := leAt b 10 2
  let r := cardRecords b (leAt b 6 1) 32
  let c : Carder := { c with ftz := flags.testBit 0 }
  let c : Carder := if flags.testBit 1 then c.clearStats else c
  let c : Carder := if flags.testBit 2 then { c with seed := seed, lfsr := lfsrSeed seed } else c
  { c with
    slots := r.1.foldl (fun v x => v.set (Fin.ofNat 16 (leAt x 0 1)) x) c.slots
    params := mapV c.params fun i w =>
      if base ≤ i.val ∧ i.val < base + words then BitVec.ofNat 32 (leAt b (r.2 + 4 * (i.val - base)) 4) else w }
/-- Whether stored bytes that an edge carder is to convert are still to come. -/
def State.viewBusy (s : State) (p : Fin 10) : Bool := (s.viewJob p).isSome
/-- Whether an edge carder has a load of a command to come. -/
def State.loadDue (s : State) (r : CmdRef) : Bool := (allFin 10).any fun p => (s.edgeCarders[p]).loads.any fun x => decide (x.1 = r)
/-- LOAD_CARD_PROGRAMs that waited carried out on an edge carder whose jobs have ended; each is answered with its last carder
(R366). -/
def State.loadsAt (s : State) (p : Fin 10) : State :=
  let l := (s.edgeCarders[p]).loads
  if l.isEmpty || s.viewBusy p then s
  else
    let s : State := s.modEdgeCarder p fun c => { l.foldl (fun c x => c.load x.2) c with loads := [] }
    l.foldl (fun s x => if s.loadDue x.1 then s else s.ok x.1) s
def State.viewLoads (s : State) : State := (allFin 10).foldl State.loadsAt s

/-! ### Data that arrives -/

/-- Bytes laid over part of a list. -/
def overlay (l : List Byte) (off : Nat) (d : List Byte) : List Byte := l.take off ++ d ++ l.drop (off + d.length)
/-- A loaded scalar of 2^size bytes. -/
def loadVal (size : Nat) (signed : Bool) (d : List Byte) : DWord :=
  let w := leAt d 0 (2 ^ size)
  let top := 2 ^ (8 * 2 ^ size - 1)
  if signed ∧ top ≤ w then BitVec.ofInt 64 ((w : Int) - ((2 * top : Nat) : Int)) else BitVec.ofNat 64 w
/-- Cast-on bytes of a tile; with the last one its elements stand (R304, R305). -/
def Tile.castGot (t : Tile) (off : Nat) (d : List Byte) : Tile :=
  let got := memWrite t.castBytes off d
  let due := t.due - d.length
  if due = 0 then
    let total := sumN ((t.cast.ranges t.shape).map Prod.snd)
    { t with due := 0, castBytes := [], elems := castElems t.shape t.lfmt t.cast.mode t.shift (memRead got 0 total) }
  else { t with due := due, castBytes := got }
def Bed.modTile (b : Bed) (unit : Fin 16) (f : Tile → Tile) : Bed :=
  { b with tiles := b.tiles.map fun t => if t.unit = unit then f t else t }
/-- Data delivered to a needle. -/
def State.deliver (s : State) (n : Fin 96) : Dest → List Byte → State
  | .sreg rd size signed, d => s.modNeedle n fun x => x.setS rd (loadVal size signed d)
  | .vreg rd off, d => s.modNeedle n fun x => x.setV rd (vecOf (overlay (vecBytes x.v[rd]) off d))
  | .feed a, d => s.modNeedle n fun x => { x with feed := memWrite x.feed a d }
  | .castOn unit off, d => s.modNeedle n fun x => { x with bed := x.bed.modTile unit fun t => t.castGot off d }
  | .viewOut p v, d => s.emit (.viewData p v true d)
  | _, _ => s
/-- Whether an access is part of a view's job. -/
def Access.ofJob (a : Access) (job : Nat) : Bool :=
  match a.dest with
  | .view _ _ _ _ _ j _ _ _ => decide (j = job)
  | _ => false
/-- Data that came for an access: part of a view's stored range waits for the rest of it, and the last part gives the bytes of
the view (R370). -/
def State.viewPart (s : State) (dest : Dest) (d : List Byte) : State × Option (Dest × List Byte) :=
  match dest with
  | .view p v off skip len job part got onward =>
    let got := memWrite got part d
    let keep (x : Dest) : Dest := match x with
      | .view p v off skip len job part more onward =>
        .view p v off skip len job part (more.foldl (fun m y => memWrite m y.1 [y.2]) got) onward
      | x => x
    (match s.accesses.find? fun a => a.ofJob job with
    | some b => ({ s with accesses := s.accesses.map fun a => if a.id = b.id then { a with dest := keep a.dest } else a }, none)
    | none =>
      let c := s.viewConvert p v off false (memRead got 0 (((s.edgeCarders[p]).views[v]).range off).2)
      (c.1, some (onward, slice c.2 skip len)))
  | x => (s, some (x, d))
/-- What an error of an access ends: the rest of a view's job, which its user is told. -/
def State.viewCut (s : State) (dest : Dest) : State :=
  match dest with
  | .view p v _ _ _ job _ _ onward =>
    let s : State := { s with accesses := s.accesses.map fun a => if a.ofJob job then { a with dest := .none } else a }
    if onward = .viewOut p v then s.emit (.viewData p v false []) else s
  | _ => s

/-- Whether a needle has a store to its own skein store outstanding. -/
def State.ownStores (s : State) (n : Fin 96) : Bool :=
  s.accesses.any fun a => a.live && decide (a.who = .needle n) && match a.path, a.op with
    | .bank _ _, .read _ => false
    | .bank _ _, _ => true
    | _, _ => false
/-- Whether a needle has any access outstanding. -/
def State.anyOf (s : State) (n : Fin 96) : Bool := s.accesses.any fun a => a.live && decide (a.who = .needle n)
/-- A fence whose condition holds ends (R281): a drain of the needle writes its own skein store (R316), and both fences
wait for it (log 39). -/
def State.settleFence (s : State) (n : Fin 96) : State :=
  match (s.needles[n]).wait with
  | .fenceL => if s.ownStores n || !(s.needles[n]).bed.drains.isEmpty then s else s.wake n id
  | .fenceY => if s.anyOf n || !(s.needles[n]).bed.drains.isEmpty then s else s.wake n id
  | _ => s
/-- An access gone. -/
def State.dropAccess (s : State) (id : Nat) : State := { s with accesses := s.accesses.filter fun a => decide (a.id ≠ id) }
/-- A needle's access completed: with data, or with the cause of a fault. -/
def State.finishNeedle (s : State) (n : Fin 96) (a : Access) (r : Option Nat) (d : List Byte) : State :=
  let s : State := s.dropAccess a.id
  if !a.live then s.viewLoads
  else
    let s : State := match r with
      | none => (match s.viewPart a.dest d with
        | (t, some x) => t.deliver n x.1 x.2
        | (t, none) => t)
      | some cause => (s.viewCut a.dest).needleFault n cause a.pc a.addr
    s.viewLoads.settleFence n

/-! ### Access paths (R279, R280) -/

/-- A destination further on. -/
def Dest.shift (d : Dest) (off : Nat) : Dest :=
  match d with
  | .vreg rd o => .vreg rd (o + off)
  | .feed a => .feed (a + off)
  | .castOn u o => .castOn u (o + off)
  | d => d
/-- An access put on the list. -/
def State.addAccess (s : State) (n : Fin 96) (path : Path) (addr : Nat) (op : AccOp) (dest : Dest) (pc : Nat) : State :=
  { s.useId with accesses := s.accesses ++ [⟨s.nextAccess, .needle n, path, .needle, addr, op, dest, none, pc, true, false⟩] }
/-- The bank of a store address (R259). -/
def bankOf (a : Nat) : Fin 16 := Fin.ofNat 16 (a / 64)
/-- An access to the own store: one bank access for each granule. -/
def State.ownAccess (s : State) (n : Fin 96) (a len : Nat) (op : AccOp) (dest : Dest) (pc : Nat) : State :=
  (cuts 64 a len len).foldl (fun s c =>
    s.addAccess n (.bank (skeinOf n) (bankOf c.1)) c.1 (op.part (c.1 - a) c.2) (dest.shift (c.1 - a)) pc) s
/-- An access to another store of the swatch: one packet on REQ. -/
def State.meshAccess (s : State) (n : Fin 96) (k : Fin 16) (a : Nat) (op : AccOp) (dest : Dest) (pc : Nat) : State :=
  let h := s.pkt n k
  let off : BitVec 22 := BitVec.ofNat 22 a
  let o : Out := match op with
    | .read len => .storeRead h off len
    | .atomic f b => .atomicAdd h off (decide (f = .fp32)) b
    | .write b => .storeWrite h off b
    | _ => .storeWrite h off []
  (s.emit o).addAccess n (.mesh k) a op dest pc
/-- Requests sent through a port, at most 128 bytes each. -/
def State.portAccess (s : State) (n : Fin 96) (i : Fin 8) (p : Fin 10) (wire a len : Nat) (op : AccOp) (dest : Dest) (pc : Nat) :
    State :=
  (pieces a len len).foldl (fun s c =>
    s.sendAccess (.needle n) p (wire + (c.1 - a)) c.1 (op.part (c.1 - a) c.2) (dest.shift (c.1 - a)) (s.classOf (some i)) pc) s
/-- The granules an access through a view covers (R370). -/
def State.viewAccess (s : State) (n : Fin 96) (i : Fin 8) (draft : Word) (a len : Nat) (op : AccOp) (dest : Dest) (pc : Nat) :
    State × ViewAns :=
  let p := (viewOf a).1
  let v := (viewOf a).2.1
  let off := (viewOf a).2.2
  (cuts 64 off len len).foldl (fun (r : State × ViewAns) c =>
    match r.2, op with
    | .sent, .read _ => r.1.viewRead i draft (.needle n) p v (c.1 / 64 * 64) (c.1 % 64) c.2 (dest.shift (c.1 - off)) pc
    | .sent, .write b =>
      let part := (b.drop (c.1 - off)).take c.2
      if part.all Option.isSome then r.1.viewWrite i draft (.needle n) p v c.1 (part.map fun o => o.getD 0) pc
      else (r.1.viewRefused p, .off)
    | .sent, _ => (r.1.viewRefused p, .off)
    | _, _ => r) (s, .sent)
/-- A register access of a needle (R25, R43, R280): aligned 4 bytes, checked as a BAR2 access; outside every present block it
reads all ones, or does nothing, and is counted. -/
def State.regAccess (s : State) (n : Fin 96) (draft : Word) (a len : Nat) (op : AccOp) (dest : Dest) : NStep :=
  let may (write : Bool) : Bool := match s.blockAt a with
    | some (b, off) => !s.blkGone b && s.reaches (.needle n) b off write
    | none => false
  let here : Bool := match s.blockAt a with
    | some (b, _) => !s.blkGone b
    | none => false
  if len ≠ 4 then .fault 3 a
  else if !here then match op with
    | .read _ => .done (s.badAcc.deliver n dest (leBytes 4 0xFFFFFFFF))
    | .write _ => if wrId draft ≠ 0 then .fault 6 a else .done s.badAcc
    | _ => .fault 3 a
  else match op with
    | .read _ =>
      if may false then let r := s.regRead (.needle n) a; .done (r.1.deliver n dest (leBytes 4 r.2.toNat))
      else .fault 3 a
    | .write b =>
      if wrId draft ≠ 0 then .fault 6 a
      else if may true ∧ b.all Option.isSome then
        .done (s.regWrite (.needle n) a (BitVec.ofNat 32 (leAt (b.map fun o => o.getD 0) 0 4)))
      else .fault 3 a
    | _ => .fault 3 a
/-- An access within one 256-byte row (R280, R382). -/
def State.rowAccess (s : State) (n : Fin 96) (scalar : Bool) (a len : Nat) (op : AccOp) (dest : Dest) (pc : Nat) : NStep :=
  let draft := (s.needles[n]).draft
  match s.region a, s.swatchOf (skeinOf n) with
  | .store k, sw =>
    if k = skeinOf n then .done (s.ownAccess n a len op dest pc)
    else match sw with
      | some i => if (s.swatches[i]).covers k then .done (s.meshAccess n k a op dest pc) else .fault 3 a
      | none => .fault 3 a
  | .regs, _ => if scalar then s.regAccess n draft a len op dest else .fault 3 a
  | .views, some i =>
    (match s.viewAccess n i draft a len op dest pc with
    | (_, .refused) => .fault 3 a
    | (_, .off) => .viewOff (Fin.ofNat 10 ((a - viewBase) / 0x100000000)) a
    | (_, .bad) => .fault 5 a
    | (_, .busy) => .stall
    | (t, .sent) => .done t)
  | .nothing, _ => .fault 3 a
  | _, none => .fault 3 a
  | r, some i =>
    let atomic : Bool := match op with
      | .atomic _ _ => true
      | _ => false
    if r = .host ∧ atomic then .fault 3 a
    else match s.windowCheck i a len op.need, s.spoolCheck i draft a len op.need with
      | .ok _, (_, .refused) => .fault 6 a
      | .ok _, (_, .bad) => .fault 5 a
      | .ok _, (t, .ok b) =>
        (match r with
        | .host =>
          if t.hostPath.isNone then .fault 9 a
          else (match op with
            | .read k => .done (t.deliver n dest (memRead t.mem b k))
            | .write d => .done (t.put b d)
            | _ => .fault 3 a)
        | .twin => (match t.twinPort with
          | some p => .done (t.portAccess n i p (b - twinBase) b len op dest pc)
          | none => .fault 9 a)
        | _ => (match t.stackPort b with
          | some p => .done (t.portAccess n i p (t.place b).offset b len op dest pc)
          | none => .fault 9 a))
      | _, _ => .fault 3 a
/-- Granules of 64 bytes a range touches. -/
def slotCount (a len : Nat) : Nat := if len = 0 then 0 else (a + len - 1) / 64 + 1 - a / 64
/-- Granules a needle has outstanding on the spool and mesh planes, of reads or of writes (R263). -/
def State.slotsUsed (s : State) (n : Fin 96) (read : Bool) : Nat :=
  sumN ((s.accesses.filter fun a => decide (a.who = .needle n)).map fun a => match a.path, a.op with
    | .bank _ _, _ => 0
    | _, .read k => if read then slotCount a.addr k else 0
    | _, .write b => if read then 0 else slotCount a.addr b.length
    | _, .atomic _ b => if read then 0 else slotCount a.addr b.length
    | _, _ => 0)
/-- Whether one window of a needle's swatch covers every byte of an access on the spool (R382). -/
def State.oneWindow (s : State) (n : Fin 96) (a len : Nat) : Bool :=
  let spool : Bool := match s.region a with
    | .stack => true
    | .views => true
    | .twin => true
    | .host => true
    | _ => false
  match s.swatchOf (skeinOf n) with
  | some i => !spool || ((s.swatches[i]).winAt a len).isSome
  | none => true
/-- Whether an access leaves the skein: it takes slots of the spool or mesh plane (R263). -/
def State.offStore (s : State) (n : Fin 96) (a : Nat) : Bool := decide (s.region a ≠ .store (skeinOf n))
/-- Whether a spool access of a needle finds its class's FIFO full, apart from the control slot (R238). -/
def State.fifoStall (s : State) (n : Fin 96) (a len : Nat) : Bool :=
  let port : Option (Fin 10) := match s.region a with
    | .stack => s.stackPort a
    | .twin => s.twinPort
    | .views => some (Fin.ofNat 10 ((a - viewBase) / 0x100000000))
    | _ => none
  match port with
  | some p => s.fifoFull (.skein (skeinOf n)) (s.classOf (s.swatchOf (skeinOf n))) p len
  | none => false
/-- An access of a needle, row by row; a fault in any row leaves no effect (R288). It stalls while its slots or the FIFO of its
class are full. -/
def State.access (s : State) (n : Fin 96) (scalar : Bool) (a len : Nat) (op : AccOp) (dest : Dest) (pc : Nat) : NStep :=
  if (s.offStore n a && decide (64 < s.slotsUsed n op.isRead + slotCount a len)) || s.fifoStall n a len then .stall
  else if !s.oneWindow n a len then .fault 3 a
  else (cuts 256 a len len).foldl (fun r c => match r with
    | .done t => t.rowAccess n scalar c.1 c.2 (op.part (c.1 - a) c.2) (dest.shift (c.1 - a)) pc
    | r => r) (.done s)

/-! ### Loads and stores (R279) -/

/-- The address of an M-format access: s[RA] + OFF12 times a scale. -/
def mAddr (x : Needle) (ra : Fin 32) (off : BitVec 12) (scale : Nat) : Nat :=
  (x.sr ra + off.signExtend 64 * BitVec.ofNat 64 scale).toNat
/-- A scalar access: a misaligned one faults with CAUSE 2. -/
def State.scalarAccess (s : State) (n : Fin 96) (rt ra : Fin 32) (size : Nat) (off : BitVec 12) (op : Needle → AccOp)
    (dest : Dest) : State :=
  let x := s.needles[n]
  let a := mAddr x ra off (2 ^ size)
  s.issue n 4 [rt, ra] [] fun t =>
    if a % 2 ^ size ≠ 0 then .fault 2 a else t.access n true a (2 ^ size) (op x) dest x.pc.toNat
/-- The low bytes of a scalar. -/
def regBytes (x : Needle) (rt : Fin 32) (size : Nat) : List (Option Byte) := (leBytes (2 ^ size) (x.sr rt).toNat).map some
def execSld (n : Fin 96) (rt ra : Fin 32) (size : Fin 4) (signed : Bool) (off : BitVec 12) (s : State) :
    Host.Outcome State Fault Refusal :=
  .next (s.scalarAccess n rt ra size.val off (fun _ => .read (2 ^ size.val)) (.sreg rt size.val signed))
def execSst (n : Fin 96) (rt ra : Fin 32) (size : Fin 4) (off : BitVec 12) (s : State) : Host.Outcome State Fault Refusal :=
  .next (s.scalarAccess n rt ra size.val off (fun x => .write (regBytes x rt size.val)) .none)
/-- SST atomic add: a size other than 4 is undefined and faults with CAUSE 1. -/
def sstAtomicAdd (n : Fin 96) (rt ra : Fin 32) (size : Fin 4) (fp32 : Bool) (off : BitVec 12) (s : State) : State :=
  if size.val ≠ 2 then s.issue n 4 [rt, ra] [] fun _ => .fault 1 0
  else s.scalarAccess n rt ra 2 off (fun x => .atomic (if fp32 then .fp32 else .int32) (regBytes x rt 2)) .none
def execSstAtomicAdd (n : Fin 96) (rt ra : Fin 32) (size : Fin 4) (fp32 : Bool) (off : BitVec 12) (s : State) :
    Host.Outcome State Fault Refusal := .next (sstAtomicAdd n rt ra size fp32 off s)
/-- A vector access at s[RA] + 64·OFF12. -/
def State.vecAccess (s : State) (n : Fin 96) (rt ra : Fin 32) (off : BitVec 12) (op : Needle → AccOp) (dest : Dest) : State :=
  let x := s.needles[n]
  let a := mAddr x ra off 64
  s.issue n 4 [ra] [rt] fun t => if a % 64 ≠ 0 then .fault 2 a else t.access n false a 256 (op x) dest x.pc.toNat
/-- The bytes of v[RT], those of lanes p7 does not hold masked off when asked. -/
def maskedBytes (x : Needle) (rt : Fin 32) (masked : Bool) : List (Option Byte) :=
  (vecBytes x.v[rt]).zipIdx.map fun b => if !masked || (x.p[(7 : Fin 8)]).getLsbD (b.2 / 4) then some b.1 else none
def execVld (n : Fin 96) (rt ra : Fin 32) (off : BitVec 12) (s : State) : Host.Outcome State Fault Refusal :=
  .next (s.vecAccess n rt ra off (fun _ => .read 256) (.vreg rt 0))
def execVst (n : Fin 96) (rt ra : Fin 32) (masked : Bool) (off : BitVec 12) (s : State) :
    Host.Outcome State Fault Refusal := .next (s.vecAccess n rt ra off (fun x => .write (maskedBytes x rt masked)) .none)
def execVstAtomicAdd (n : Fin 96) (rt ra : Fin 32) (masked fp32 : Bool) (off : BitVec 12) (s : State) :
    Host.Outcome State Fault Refusal :=
  .next (s.vecAccess n rt ra off
    (fun x => .atomic (if fp32 then .fp32 else .int32) (maskedBytes x rt masked)) .none)

/-! ### Feed buffers (R267, R282) -/

/-- Whether a feed range is aligned and lies in one buffer. -/
def feedOk (f len : Nat) : Bool := decide (f < 0x20000 ∧ f % 64 = 0 ∧ f % 0x10000 + len ≤ 0x10000)
/-- Whether loads still owe bytes of a feed range. -/
def State.feedDue (s : State) (n : Fin 96) (f len : Nat) : Bool :=
  s.accesses.any fun a => a.live && decide (a.who = .needle n) && match a.dest.final, a.op with
    | .feed g, .read k => overlaps f len g k
    | _, _ => false
/-- FEED.LD and FEED.ST: a length or address out of range faults with CAUSE 2 (log 29). -/
def State.feedMove (s : State) (n : Fin 96) (rd ra rb : Fin 32) (load : Bool) : State :=
  let x := s.needles[n]
  let f := (x.sr rd).toNat
  let a := (x.sr ra).toNat
  let len := (x.sr rb).toNat
  s.issue n 4 [rd, ra, rb] [] fun t =>
    if len < 64 ∨ 4096 < len ∨ len % 64 ≠ 0 ∨ a % 64 ≠ 0 then .fault 2 a
    else if !feedOk f len then .fault 2 f
    else if s.feedDue n f len then .stall
    else if load then t.access n false a len (.read len) (.feed f) x.pc.toNat
    else t.access n false a len (.write ((memRead x.feed f len).map some)) .none x.pc.toNat
def execFeedLd (n : Fin 96) (rd ra rb : Fin 32) (s : State) : Host.Outcome State Fault Refusal :=
  .next (s.feedMove n rd ra rb true)
def execFeedSt (n : Fin 96) (rd ra rb : Fin 32) (s : State) : Host.Outcome State Fault Refusal :=
  .next (s.feedMove n rd ra rb false)
/-- VPUT and VGET. -/
def State.feedReg (s : State) (n : Fin 96) (ss vs : List (Fin 32)) (f : Nat) (g : Needle → Needle) : State :=
  s.issue n 4 ss vs fun t =>
    if !feedOk f 256 then .fault 2 f
    else if s.feedDue n f 256 then .stall
    else .done (t.modNeedle n g)
def execVput (n : Fin 96) (rd ra : Fin 32) (s : State) : Host.Outcome State Fault Refusal :=
  let f := ((s.needles[n]).sr rd).toNat
  .next (s.feedReg n [rd] [ra] f fun x => { x with feed := memWrite x.feed f (vecBytes x.v[ra]) })
def execVget (n : Fin 96) (rd ra : Fin 32) (s : State) : Host.Outcome State Fault Refusal :=
  let f := ((s.needles[n]).sr ra).toNat
  .next (s.feedReg n [ra] [rd] f fun x => x.setV rd (vecOf (memRead x.feed f 256)))

/-! ### Fences (R281) -/

def execFenceL (n : Fin 96) (s : State) : Host.Outcome State Fault Refusal :=
  .next (s.issue n 4 [] [] fun t => .done ((t.modNeedle n fun x => { x with wait := .fenceL }).settleFence n))
def execFenceY (n : Fin 96) (s : State) : Host.Outcome State Fault Refusal :=
  .next (s.issue n 4 [] [] fun t => .done ((t.modNeedle n fun x => { x with wait := .fenceY }).settleFence n))

/-! ### Operations on memory -/

/-- An operation on memory: the state after, and the bytes a read returns. -/
def State.serve (s : State) (a : Nat) (op : AccOp) : State × List Byte :=
  match op with
  | .read n => (s, memRead s.mem a n)
  | .write b => (s.put a b, [])
  | .atomic f b => ({ s with mem := memWriteM s.mem a (atomicBytes f s.mem a b.length b) }, [])
  | .promote ps => (s.put a ((ps.zipIdx.flatMap fun y =>
      let old (o : Nat) : Word := BitVec.ofNat 32 (leAt (memRead s.mem (a + 8 * y.2 + o) 4) 0 4)
      let v := dwAdd (old 0, old 4) y.1
      leBytes 4 v.1.toNat ++ leBytes 4 v.2.toNat).map some), [])
  | _ => (s, [])

/-! ### Bank arbitration (R260) -/

def bankWeight (g : Fin 4) : Nat := match g.val with | 0 => 4 | 1 => 2 | _ => 1
/-- Deficit round robin: the group served and the arbiter after; an empty group loses its turn. -/
def Bank.pick (b : Bank) (waiting : Fin 4 → Bool) : Nat → Option (Fin 4 × Bank)
  | 0 => none
  | fuel + 1 =>
    let g := b.turn
    if waiting g then
      let d := (if b.deficit[g] = 0 then bankWeight g else b.deficit[g]) - 1
      some (g, { b with deficit := b.deficit.set g d, turn := if d = 0 then g + 1 else g })
    else Bank.pick { b with deficit := b.deficit.set g 0, turn := g + 1 } waiting fuel
/-- The oldest access of a group, and of some requester, waiting at a bank. -/
def State.bankAccess (s : State) (g : Group) (sel : Who → Bool) (k b : Fin 16) : Option Access :=
  s.accesses.find? fun a => decide (a.path = .bank k b ∧ a.group = g) && sel a.who
/-- The needle in turn: ascending k after the last served. -/
def State.bankNeedle (s : State) (k b : Fin 16) : Option Access :=
  let last := (((s.skeins[k]).banks[b]).needle).val
  ((List.range 6).map fun j => needleOf k (Fin.ofNat 6 (last + 1 + j))).findSome? fun n =>
    s.bankAccess .needle (fun w => decide (w = .needle n)) k b
/-- The mover in turn: the other one after the last served. -/
def State.bankMover (s : State) (k b : Fin 16) : Option Access :=
  let last := ((s.skeins[k]).banks[b]).mover
  ([last + 1, last] : List (Fin 2)).findSome? fun m => s.bankAccess .mover (fun w => decide (w = .mover k m)) k b
/-- The oldest store packet with a granule left at a bank. -/
def Serve.wants (v : Serve) (b : Fin 16) : Option Nat := v.left.find? fun g => decide (bankOf g = b)
/-- The answer of a store packet once its last granule is granted. -/
def Serve.answer (v : Serve) : Out :=
  match v.op with
  | .read n => .meshData v.h.back false (memRead v.got v.offset n)
  | _ => .meshAck v.h.back false
/-- A multicast write is acknowledged when every target has written it (R245). -/
def State.mcastDone (s : State) (h : PktHead) (k : Fin 16) : State :=
  let step (x : PktHead × BitVec 16) : PktHead × BitVec 16 := if x.1 = h then (x.1, clrBit x.2 k.val) else x
  let s : State := s.modMesh h.src fun m => { m with mcasts := m.mcasts.map step }
  let due := ((s.skeins[h.src]).mesh.mcasts.filter fun x => decide (x.1 = h ∧ x.2 = 0))
  if due.isEmpty then s
  else (s.modMesh h.src fun m => { m with mcasts := m.mcasts.filter fun x => decide (x.1 ≠ h) }).emit (.meshAck h.back false)
/-- One granule of a store packet served. -/
def State.serveRemote (s : State) (k : Fin 16) (v : Serve) (g : Nat) : State :=
  let lo := max v.offset g
  let len := sumN ((cuts 64 v.offset 512 (match v.op with
    | .read n => n
    | .write b => b.length
    | .atomic _ b => b.length
    | _ => 0)).filterMap fun c => if c.1 / 64 * 64 = g then some c.2 else none)
  let r := s.serve (0x400000 * k.val + lo) (v.op.part (lo - v.offset) len)
  let v' : Serve := { v with left := v.left.filter fun x => decide (x ≠ g), got := memWrite v.got lo r.2 }
  let s : State := r.1
  let same (x : Serve) : Bool := decide (x.h = v.h)
  if v'.left.isEmpty then
    let s : State := s.modMesh k fun m => { m with serving := m.serving.filter fun x => !same x }
    if (s.skeins[v.h.src]).mesh.mcasts.any (fun x => decide (x.1 = v.h)) then s.mcastDone v.h k else s.emit v'.answer
  else s.modMesh k fun m => { m with serving := m.serving.map fun x => if same x then v' else x }
/-- SKN_BANK_WAIT_MAX: a wait, free within what R261 bounds (log 11). -/
def State.noteBankWait (s : State) (k : Fin 16) : State :=
  let w : Word := BitVec.ofNat 32 (s.freeVal.toNat % 49)
  (s.modSkein k fun x => { x with bankWaitMax := if x.bankWaitMax.toNat < w.toNat then w else x.bankWaitMax }).useFree
/-! ### Store packets (09 R241 to R245) -/

/-- A packet taken in by the store it names: its granules wait at their banks (R260). -/
def State.takePacket (s : State) (r : Fin 16) (h : PktHead) (offset len : Nat) (op : AccOp) : State :=
  let left := (cuts 64 offset len len).map fun c => c.1 / 64 * 64
  let v : Serve := ⟨h, offset, op, left, []⟩
  if len = 0 then s.emit v.answer else s.modMesh r fun m => { m with serving := m.serving ++ [v] }
def storeRead (r : Fin 16) (h : PktHead) (offset : BitVec 22) (len : Nat) (s : State) : State :=
  s.arrive r h [h.dst] false 0 0 (some (.meshData h.back true []))
    (if r ≠ h.dst then s.emit (.storeRead h offset len) else s.takePacket r h offset.toNat len (.read len))
def storeWrite (r : Fin 16) (h : PktHead) (offset : BitVec 22) (b : List (Option Byte)) (s : State) : State :=
  s.arrive r h [h.dst] false 0 1 (some (.meshAck h.back true))
    (if r ≠ h.dst then s.emit (.storeWrite h offset b) else s.takePacket r h offset.toNat (min 256 b.length) (.write (b.take 256)))
def atomicAddAtStore (r : Fin 16) (h : PktHead) (offset : BitVec 22) (fp32 : Bool) (b : List (Option Byte)) (s : State) :
    State :=
  s.arrive r h [h.dst] false 0 2 (some (.meshAck h.back true))
    (if r ≠ h.dst then s.emit (.atomicAdd h offset fp32 b)
     else s.takePacket r h offset.toNat (min 256 b.length) (.atomic (if fp32 then .fp32 else .int32) (b.take 256)))
def execStoreRead (at_ : Fin 16) (h : PktHead) (offset : BitVec 22) (len : Fin 257) (s : State) :
    Host.Outcome State Fault Refusal := .next (storeRead at_ h offset len.val s)
def execStoreWrite (at_ : Fin 16) (h : PktHead) (offset : BitVec 22) (bytes : List (Option Byte)) (s : State) :
    Host.Outcome State Fault Refusal := .next (storeWrite at_ h offset bytes s)
def execAtomicAddAtStore (at_ : Fin 16) (h : PktHead) (offset : BitVec 22) (fp32 : Bool) (bytes : List (Option Byte))
    (s : State) : Host.Outcome State Fault Refusal := .next (atomicAddAtStore at_ h offset fp32 bytes s)

end Sys2Proof.Machine
end

