-- ==== Sys2Proof/Machine/Mesh.lean ====
section
/-! DEFINITION. The mesh class of a needle (10 R285), multicast (09 R245) and fixed-tree addition (09 R246, R247; 12 R338). -/
namespace Sys2Proof.Machine
open Sys2Proof

/-! ### Routes (R241) -/

/-- The neighbour of a skein in a direction: north is course − 1, east is wale + 1 (R250). -/
def stepTo (r : Fin 16) : Dir → Fin 16
  | .here => r
  | .west => Fin.ofNat 16 (r.val - 1)
  | .east => Fin.ofNat 16 (r.val + 1)
  | .north => Fin.ofNat 16 (r.val - 4)
  | .south => Fin.ofNat 16 (r.val + 4)
/-- The direction a packet for a skein leaves a router in: along the course first, then along the wale. -/
def leaves (r dst : Fin 16) : Dir :=
  if (waleOf dst).val < (waleOf r).val then .west
  else if (waleOf r).val < (waleOf dst).val then .east
  else if (courseOf dst).val < (courseOf r).val then .north
  else if (courseOf r).val < (courseOf dst).val then .south
  else .here
/-- The input a router receives a packet of a source on its way to a destination at; none off the route. -/
def enters (src dst r : Fin 16) : Option Dir :=
  let cs := (courseOf src).val
  let ws := (waleOf src).val
  let cd := (courseOf dst).val
  let wd := (waleOf dst).val
  let cr := (courseOf r).val
  let wr := (waleOf r).val
  let mid (a b c : Nat) : Bool := decide ((a ≤ b ∧ b ≤ c) ∨ (c ≤ b ∧ b ≤ a))
  if cr = cs ∧ mid ws wr wd then
    some (if wr = ws then .here else if ws < wr then .west else .east)
  else if wr = wd ∧ mid cs cr cd then some (if cs < cr then .north else .south)
  else none

/-! ### MESH.MCAST and multicast writes -/

/-- The targets a mask or rectangle names; none when a field of a rectangle lies beyond the grid (R245, R285). -/
def mcastTargets (w : DWord) : Option (List (Fin 16)) :=
  if w.getLsbD 16 then
    let c0 := fld w 3 0
    let w0 := fld w 7 4
    let c1 := fld w 11 8
    let w1 := fld w 15 12
    if c0 ≤ 3 ∧ w0 ≤ 3 ∧ c1 ≤ 3 ∧ w1 ≤ 3 then
      some ((allFin 16).filter fun k => decide (c0 ≤ k.val / 4 ∧ k.val / 4 ≤ c1 ∧ w0 ≤ k.val % 4 ∧ k.val % 4 ≤ w1))
    else none
  else some ((allFin 16).filter fun k => w.getLsbD k.val)
/-- A set of skeins as bits. -/
def skeinMask (l : List (Fin 16)) : BitVec 16 := l.foldl (fun m k => setBit m k.val) 0
/-- The skeins of a set of bits. -/
def maskSkeins (m : BitVec 16) : List (Fin 16) := (allFin 16).filter fun k => m.getLsbD k.val
/-- A mesh request of a needle that owes it an acknowledgement. -/
def State.addMesh (s : State) (n : Fin 96) (k : Fin 16) (addr len : Nat) (dest : Dest) (pc : Nat) : State :=
  s.addAccess n (.mesh k) addr (.write (List.replicate len none)) dest pc
/-- What a router does to a packet it drops: counted, and the error response sent (R244). -/
def State.dropAt (s : State) (r : Fin 16) (h : PktHead) (bit vc kind : Nat) : State :=
  ((s.modMesh r fun m => m.drop h bit vc kind).swStatus h.swatch 5).emit (.meshAck h.back true)
/-- MESH.MCAST (R285): an offset out of range faults with CAUSE 2 (log 34). -/
def meshMcast (n : Fin 96) (rd ra rb : Fin 32) (s : State) : State :=
  let x := s.needles[n]
  let off := (x.sr rd).toNat
  let k := skeinOf n
  s.issue n 4 [rd, rb] [ra] fun t =>
    if off % 64 ≠ 0 ∨ 0x400000 < off + 256 then .fault 2 off
    else if 64 < t.slotsUsed n false + 4 then .stall
    else
      let h := t.pkt n k
      .done (match mcastTargets (x.sr rb) with
        | some l => (t.emit (.mcast k h (skeinMask l) (BitVec.ofNat 22 off) (vecBytes x.v[ra]))).addMesh n k off 256 .none x.pc.toNat
        | none => (t.dropAt k h 1 2 7).addMesh n k off 256 .none x.pc.toNat)
def execMeshMcast (n : Fin 96) (rd ra rb : Fin 32) (s : State) : Host.Outcome State Fault Refusal :=
  .next (meshMcast n rd ra rb s)

/-- A multicast taken in at its source: it is acknowledged once every target has written it. -/
def State.mcastBegin (s : State) (h : PktHead) (targets : BitVec 16) : State :=
  if targets = 0 then s.emit (.meshAck h.back false)
  else s.modMesh h.src fun m => { m with mcasts := m.mcasts ++ [(h, targets)] }
/-- The copies a router sends on: along the course, then along the wale (R241, R245). -/
def mcastOn (r : Fin 16) (h : PktHead) (targets : List (Fin 16)) (offset : BitVec 22) (d : List Byte) : List Out :=
  [Dir.west, .east, .north, .south].filterMap fun dir =>
    let l := targets.filter fun k => decide (leaves r k = dir)
    if l.isEmpty then none else some (.mcast (stepTo r dir) h (skeinMask l) offset d)
/-- MULTICAST_WRITE at a router (R244, R245). -/
def multicastWrite (r : Fin 16) (h : PktHead) (targets : BitVec 16) (offset : BitVec 22) (d : List Byte) (s : State) : State :=
  let l := maskSkeins targets
  s.arrive r h l true 2 7 (some (.meshAck h.back true))
    (let s : State := if r = h.src then s.mcastBegin h targets else s
     let s : State := s.emits (mcastOn r h l offset d)
     if targets.getLsbD r.val then s.takePacket r h offset.toNat (min 256 d.length) (.write ((d.take 256).map some)) else s)
def execMulticastWrite (at_ : Fin 16) (h : PktHead) (targets : BitVec 16) (offset : BitVec 22) (data : List Byte) (s : State) :
    Host.Outcome State Fault Refusal := .next (multicastWrite at_ h targets offset data s)

/-! ### Shift alignment of INT32 adds (R338) -/

/-- Two INT32 vectors added with their shifts aligned: elements, shift, and whether the sum did not fit at shift 8. -/
def alignAdd (x y : List Int) (sx sy : Nat) (s : Nat) : Nat → List Int × Nat × Bool
  | 0 => (x, s, false)
  | fuel + 1 =>
    let z := (x.zip y).map fun p => roundEven p.1 (s - sx) + roundEven p.2 (s - sy)
    let fits := z.all fun v => !outside32 v
    if fits || decide (8 ≤ s) then (z.map clamp32, s, !fits) else alignAdd x y sx sy (s + 1) fuel
/-- The same from the larger of both shifts. -/
def addShifted (x y : List Int × Nat) : List Int × Nat × Bool := alignAdd x.1 y.1 x.2 y.2 (max x.2 y.2) 9

/-! ### Fixed-tree addition -/

/-- 32-bit words of some bytes, and back. -/
def wordsOf (d : List Byte) : List Word := (List.range (d.length / 4)).map fun i => BitVec.ofNat 32 (leAt d (4 * i) 4)
def wordBytes (l : List Word) : List Byte := l.flatMap fun w => leBytes 4 w.toNat
/-- Compensated pairs added (R337). -/
def addPairs : List Word → List Word → List Word
  | a :: b :: x, c :: d :: y => let v := dwAdd (a, b) (c, d); v.1 :: v.2 :: addPairs x y
  | _, _ => []
/-- FP32+ words of some bytes, eight bytes each, and back: so the partials of an FP32 addition travel (log 165). -/
def plusWords (d : List Byte) : List (BitVec 48) := (List.range (d.length / 8)).map fun i => BitVec.ofNat 48 (leAt d (8 * i) 8)
def plusBytes (l : List (BitVec 48)) : List Byte := l.flatMap fun w => leBytes 8 w.toNat
/-- What a sum is while it is formed: its words, its shift, its SAT_EXHAUSTED, and whether an add did not fit at shift 8. -/
structure TreeSum where
  words : List (BitVec 48)
  shift : Nat
  sat   : Bool
  red   : Bool
deriving DecidableEq, Repr
/-- An input as it enters the sum: a needle's FP32 contribution is exact in FP32+. -/
def TreeIn.sum (fmt : TreeFmt) (i : TreeIn) : TreeSum :=
  let words : List (BitVec 48) := match fmt, i.dir with
    | .fp32, .here => (wordsOf i.data).map plusOf
    | .fp32, _ => plusWords i.data
    | _, _ => (wordsOf i.data).map fun w => w.setWidth 48
  ⟨words, i.shift, i.sat, false⟩
/-- Two of them added: FP32 with one rounding to FP32+, pairs by dw_add, INT32 with their shifts aligned (R247, R338, R343,
R344). -/
def treeAdd (fmt : TreeFmt) (x y : TreeSum) : TreeSum :=
  let w (l : List (BitVec 48)) : List Word := l.map fun v => v.setWidth 32
  match fmt with
  | .fp32 => ⟨List.zipWith (fun a b => encPlus ((decPlus a).add (decPlus b))) x.words y.words, 0, false, false⟩
  | .pair => ⟨(addPairs (w x.words) (w y.words)).map fun v => v.setWidth 48, 0, false, false⟩
  | .int32 =>
    let r := addShifted ((w x.words).map BitVec.toInt, x.shift) ((w y.words).map BitVec.toInt, y.shift)
    ⟨r.1.map fun v => (BitVec.ofInt 32 v).setWidth 48, r.2.1, x.sat || y.sat || r.2.2, x.red || r.2.2⟩
/-- Inputs folded in order. -/
def treeSumIn (fmt : TreeFmt) : List TreeIn → TreeSum
  | [] => ⟨[], 0, false, false⟩
  | i :: l => l.foldl (fun a j => treeAdd fmt a (j.sum fmt)) (i.sum fmt)
/-- The bytes of a sum as it travels on, and as it is written at D. -/
def TreeSum.onward (v : TreeSum) (fmt : TreeFmt) : List Byte :=
  match fmt with
  | .fp32 => plusBytes v.words
  | _ => wordBytes (v.words.map fun w => w.setWidth 32)
def TreeSum.result (v : TreeSum) (fmt : TreeFmt) : List Byte :=
  match fmt with
  | .fp32 => wordBytes (v.words.map plusTo32)
  | _ => wordBytes (v.words.map fun w => w.setWidth 32)
/-- The formats of R285; 3 is none. -/
def treeFmt (c : Nat) : Option TreeFmt :=
  match c with
  | 0 => some .int32 | 1 => some .fp32 | 2 => some .pair | _ => none
/-- The inputs M implies at a router, in the fold order of R247: the needles of a member skein, then each side a member's
route enters from. -/
def expected (members : BitVec 16) (dst r : Fin 16) : List (Dir × Fin 6) :=
  let sides := (maskSkeins members).map fun m => enters m dst r
  (if members.getLsbD r.val then (allFin 6).map fun k => (Dir.here, k) else []) ++
  ([Dir.west, .east, .north, .south].filter fun d => sides.contains (some d)).map fun d => (d, (0 : Fin 6))
/-- The inputs of a part in the fold order, once all have arrived. -/
def TreePart.whole (p : TreePart) (r : Fin 16) : Option (List TreeIn) :=
  (expected p.members p.dst r).mapM fun e => p.got.find? fun i => decide (i.dir = e.1 ∧ i.k = e.2)
/-- MESH.TREE (R285): the k-th contribution of a needle belongs to instance k of the reduce id. -/
def meshTree (n : Fin 96) (rd ra rb : Fin 32) (s : State) : State :=
  let x := s.needles[n]
  let w := x.sr rb
  let off := (x.sr rd).toNat
  let k := skeinOf n
  let red : Fin 16 := Fin.ofNat 16 (fld w 3 0)
  let rel := fld w 7 4
  s.issue n 4 [rd, rb] [ra] fun t =>
    if fld w 9 8 = 3 then .fault 1 0
    else if off % 64 ≠ 0 ∨ 0x400000 < off + 256 then .fault 2 off
    else if 64 < t.slotsUsed n false + 4 then .stall
    else
      let inst := (((t.skeins[k]).mesh.nextInst[kOf n])[red])
      let (size, dst) : Nat × Fin 16 := match t.swatchOf k with
        | some i => ((t.swatches[i]).size, (t.swatches[i]).atRel rel)
        | none => (1, k)
      let h := t.pkt n dst
      let th : TreeHead := ⟨red, inst, Fin.ofNat 3 (fld w 9 8), BitVec.ofNat 16 (fld w 31 16), BitVec.ofNat 22 off, .here (kOf n), 0, false⟩
      let t : State := t.modMesh k fun m => { m with nextInst := upd m.nextInst (kOf n) fun v => upd v red fun c => c + 1 }
      let t : State := if size ≤ rel then t.dropAt k h 0 2 8 else t.emit (.tree k h th (vecBytes x.v[ra]))
      .done (t.addMesh n dst off 256 (.tree red inst) x.pc.toNat)
def execMeshTree (n : Fin 96) (rd ra rb : Fin 32) (s : State) : Host.Outcome State Fault Refusal :=
  .next (meshTree n rd ra rb s)

/-- The acknowledgements of a fixed-tree result: one to every contribution of its members. -/
def State.treeAcks (s : State) (h : PktHead) (reduce : Fin 16) (inst : Nat) (members : BitVec 16) : List Out :=
  s.accesses.filterMap fun a => match a.who, a.dest with
    | .needle n, .tree r i =>
      if r = reduce ∧ i = inst ∧ members.getLsbD (skeinOf n).val ∧ s.swatchOf (skeinOf n) = some h.swatch then
        some (.meshAck ⟨h.dst, skeinOf n, h.swatch, .needle (kOf n), a.id⟩ false)
      else none
    | _, _ => none
/-- The side a contribution came from. -/
def inDir : TreeDir → Dir × Fin 6
  | .here k => (.here, k)
  | .west => (.west, 0)
  | .east => (.east, 0)
  | .north => (.north, 0)
  | .south => (.south, 0)
/-- The side a neighbour receives what leaves a router in a direction. -/
def farSide : Dir → TreeDir
  | .west => .east
  | .east => .west
  | .north => .south
  | .south => .north
  | .here => .here 0
/-- The sum of a part whose inputs have all arrived: sent on, or written at D and acknowledged (R247). -/
def State.treeSend (s : State) (r : Fin 16) (h : PktHead) (t : TreeHead) (fmt : TreeFmt) (l : List TreeIn) : State :=
  let v := treeSumIn fmt l
  let s : State := if v.red then s.modMesh r fun m => { m with events := setBit m.events 3 } else s
  if r = h.dst then
    (s.put (0x400000 * r.val + t.offset.toNat) ((v.result fmt).map some)).emits (s.treeAcks h t.reduce t.inst t.members)
  else
    let d := leaves r h.dst
    s.emit (.tree (stepTo r d) h { t with dir := farSide d, shift := Fin.ofNat 9 v.shift, sat := v.sat } (v.onward fmt))
/-- FIXED_TREE_CONTRIBUTION at a router: one of the inputs of its instance (R247). -/
def treeInput (r : Fin 16) (h : PktHead) (t : TreeHead) (fmt : TreeFmt) (d : List Byte) (s : State) : State :=
  let side := inDir t.dir
  let most := if fmt = .fp32 ∧ side.1 ≠ .here then 512 else 256
  let i : TreeIn := ⟨side.1, side.2, d.take most, t.shift.val, t.sat⟩
  let same (p : TreePart) : Bool :=
    decide (p.reduce = t.reduce ∧ p.inst = t.inst ∧ p.fmt = fmt ∧ p.members = t.members ∧ p.dst = h.dst ∧ p.offset = t.offset)
  let old := (s.skeins[r]).mesh.parts
  let p : TreePart := (old.find? same).getD ⟨t.reduce, t.inst, fmt, t.members, h.dst, t.offset, []⟩
  let p : TreePart := { p with got := p.got ++ [i] }
  let rest := old.filter fun q => !same q
  match p.whole r with
  | some l => (s.modMesh r fun m => { m with parts := rest }).treeSend r h t fmt l
  | none => s.modMesh r fun m => { m with parts := rest ++ [p] }
def fixedTree (r : Fin 16) (h : PktHead) (t : TreeHead) (d : List Byte) (s : State) : State :=
  s.arrive r h [h.dst] false 2 8 (some (.meshAck h.back true))
    (match treeFmt t.fmt.val with
     | some f => treeInput r h t f d s
     | none => s)
def execFixedTreeContribution (at_ : Fin 16) (h : PktHead) (t : TreeHead) (data : List Byte) (s : State) :
    Host.Outcome State Fault Refusal := .next (fixedTree at_ h t data s)

end Sys2Proof.Machine
end

