-- ==== Sys2Proof/Machine/Movers.lean ====
section
/-! DEFINITION. The hank movers (10 R264 to R266, R283, R291): enqueue, status and wait, and a descriptor's reads, its card
job and its writes; the grants of the store banks (R259 to R262) and the answers of store packets (09 R242, R244). -/
namespace Sys2Proof.Machine
open Sys2Proof

/-! ### The descriptor (R264) -/

def MoveDesc.u (d : MoveDesc) (off n : Nat) : Nat := leAt d.bytes.toList off n
def MoveDesc.rowBytes (d : MoveDesc) : Nat := d.u 16 4
def MoveDesc.rows (d : MoveDesc) : Nat := d.u 20 4
def MoveDesc.card (d : MoveDesc) : Nat := d.u 40 1
def MoveDesc.srcFeed (d : MoveDesc) : Bool := (d.u 41 1).testBit 0
def MoveDesc.dstFeed (d : MoveDesc) : Bool := (d.u 41 1).testBit 1
def MoveDesc.signal (d : MoveDesc) : Bool := (d.u 41 1).testBit 2
/-- The address a row begins at. -/
def MoveDesc.srcRow (d : MoveDesc) (r : Nat) : Nat :=
  (BitVec.ofNat 64 (d.u 0 8) + BitVec.ofNat 64 (d.u 24 8) * BitVec.ofNat 64 r).toNat
def MoveDesc.dstRow (d : MoveDesc) (r : Nat) : Nat :=
  (BitVec.ofNat 64 (d.u 8 8) + BitVec.ofNat 64 (d.u 32 8) * BitVec.ofNat 64 r).toNat
/-- Fields in range, bytes 48 to 63 zero (R266). -/
def MoveDesc.ok (d : MoveDesc) : Bool :=
  decide (d.rowBytes % 32 = 0 ∧ 32 ≤ d.rowBytes ∧ d.rowBytes ≤ 0x100000 ∧ 1 ≤ d.rows ∧ d.rows ≤ 65536 ∧
    d.u 24 8 % 32 = 0 ∧ d.u 32 8 % 32 = 0 ∧ (d.card ≤ 15 ∨ d.card = 0xFF) ∧ d.u 41 1 ≤ 7 ∧
    (d.signal = true → d.u 42 1 ≤ 63) ∧ (d.dstFeed = true → d.u 43 1 ≤ 5) ∧ d.u 48 16 = 0)
/-- Whether a program cards rows of a descriptor (R360, R364): elements per row. -/
def moverElems (slot : List Byte) (rowBytes : Nat) : Option Nat :=
  let p := cardProg slot
  if !progOk slot ∨ p.needsMax then none
  else (p.rowElems rowBytes).filter fun n => decide (p.outScheme = 0 ∨ n % blockLen p.outScheme = 0)

/-! ### Accesses of a mover (R263, R265, R266) -/

/-- What a piece of a descriptor's transfer gives: its bytes at once, an access that is answered later, a wait at the full FIFO
of its class (R238) or at an edge carder that is loaded (R366), or a fault. -/
inductive MvAns
  | bytes (l : List Byte)
  | sent
  | busy
  | fault (cause addr : Nat)
deriving DecidableEq, Repr

/-- The cause of a refused or uncorrectable access at a check point. -/
def refusedBy (window : Chk) : Nat :=
  match window with
  | .ok _ => 6
  | _ => 3
/-- A view's answer as a mover takes it. -/
def ofView (a : Nat) : ViewAns → MvAns
  | .sent => .sent
  | .busy => .busy
  | .off => .fault 3 a
  | .refused => .fault 3 a
  | .bad => .fault 5 a
/-- The port and the wire address of a served address. -/
def State.portOf (s : State) (b : Nat) : Option (Fin 10) :=
  match s.region b with
  | .host => s.hostPath
  | .twin => s.twinPort
  | _ => s.stackPort b
/-- An access of a mover put on the list. -/
def State.moverAccess (s : State) (k : Fin 16) (m : Fin 2) (path : Path) (a : Nat) (op : AccOp) (dest : Dest) : State :=
  { s.useId with accesses := s.accesses ++ [⟨s.nextAccess, .mover k m, path, .mover, a, op, dest, none, 0, true, false⟩] }
/-- One piece, within a 64-byte granule, read or written (R263, R280, R382): mover accesses are checked like those of a needle.
The own store is reached at its bank, another store of the swatch by a packet on REQ (R242), the rest through the ports. -/
def State.moverPiece (s : State) (k : Fin 16) (m : Fin 2) (i : Fin 8) (draft : Word) (a : Nat) (w : Option (List Byte))
    (len : Nat) (dest : Dest) : State × MvAns :=
  let who : Who := .mover k m
  let need : Need := if w.isSome then .write else .read
  let op : AccOp := match w with
    | some d => .write (d.map some)
    | none => .read len
  match s.region a with
  | .store q =>
    if !(s.swatches[i]).covers q then (s, .fault 3 a)
    else if q = k then (s.moverAccess k m (.bank k (bankOf a)) a op dest, .sent)
    else
      let h : PktHead := ⟨k, q, i, .mover m, s.nextAccess⟩
      let o : Out := match w with
        | some d => .storeWrite h (BitVec.ofNat 22 a) (d.map some)
        | none => .storeRead h (BitVec.ofNat 22 a) len
      ((s.emit o).moverAccess k m (.mesh q) a op dest, .sent)
  | .regs => (s, .fault 3 a)
  | .nothing => (s, .fault 3 a)
  | .views =>
    let p : Fin 10 := Fin.ofNat 10 ((a - viewBase) / 0x100000000)
    let v : Fin 4 := Fin.ofNat 4 ((a - viewBase) / 0x40000000)
    let off := (a - viewBase) % 0x40000000
    if s.fifoFull (.skein k) (s.classOf (some i)) p len then (s, .busy)
    else
      let r := match w with
        | some d => s.viewWrite i draft who p v off d 0
        | none => s.viewRead i draft who p v (off / 64 * 64) (off % 64) len dest 0
      (r.1, ofView a r.2)
  | _ =>
    if ((s.portOf a).map fun p => s.fifoFull (.skein k) (s.classOf (some i)) p len).getD false then (s, .busy)
    else
      let c := s.spoolCheck i draft a len need
      (match c.2 with
      | .refused => (s, .fault (refusedBy (s.windowCheck i a len need)) a)
      | .bad => (s, .fault 5 a)
      | .ok b =>
        (match s.portOf b, w with
        | none, _ => (s, .fault 9 a)
        | some p, _ =>
          match s.region b, w with
          | .host, some d => if s.writeBad b len then (c.1.maskFail (s.firstBad b len), .fault 5 a) else (c.1.put b (d.map some), .bytes [])
          | .host, none => (c.1, if s.anyBad b len then .fault 5 a else .bytes (memRead s.mem b len))
          | .twin, _ => (c.1.sendAccess who p (b - twinBase) b op dest (s.classOf (some i)), .sent)
          | _, _ => (c.1.sendAccess who p (s.place b).offset b op dest (s.classOf (some i)), .sent)))

/-! ### The head descriptor -/

def State.moverOf (s : State) (k : Fin 16) (m : Fin 2) : Mover := (s.skeins[k]).movers[m]
/-- The head descriptor changed. -/
def State.modHead (s : State) (k : Fin 16) (m : Fin 2) (f : MoveDesc → MoveDesc) : State :=
  s.modMover k m fun x => { x with queue := match x.queue with
    | d :: l => f d :: l
    | [] => [] }
/-- Whether requests of a mover are outstanding. -/
def State.moverBusy (s : State) (k : Fin 16) (m : Fin 2) : Bool :=
  s.accesses.any fun a => a.live && decide (a.who = .mover k m)
/-- A mover faults (R266): it stops and keeps its queue. -/
def State.moverFault (s : State) (k : Fin 16) (m : Fin 2) (cause addr : Nat) : State :=
  ((s.modMover k m fun x => { x with fault := some (BitVec.ofNat 4 cause), faultAddr := BitVec.ofNat 64 addr }).faultSide
    (s.swatchOf k) cause addr).moverWake k m
/-- A job put on a carder's list. -/
def State.addJob (s : State) (k : Fin 16) (m : Fin 2) (j : CardJob) : State :=
  s.modCarder k m fun c => { c with jobs := c.jobs ++ [j] }
/-- A new head descriptor: its card job waits from now on. -/
def State.newHead (s : State) (k : Fin 16) (m : Fin 2) : State :=
  match (s.moverOf k m).queue with
  | d :: _ =>
    let s : State := s.modMover k m fun x => { x with lastK := d.k }
    if d.card = 0xFF then s else s.addJob k m (.mover k m)
  | [] => s
/-- Bytes staged for the head. -/
def MoveDesc.stage (d : MoveDesc) (off : Nat) (l : List Byte) : MoveDesc :=
  { d with staged := some (memWrite (d.staged.getD []) off l) }
/-- Accesses of a mover outstanding, of reads or of writes: it holds at most 512 of each (R263). -/
def State.moverSlots (s : State) (k : Fin 16) (m : Fin 2) (read : Bool) : Nat :=
  (s.accesses.filter fun a => a.live && decide (a.who = .mover k m) && (a.op.isRead == read)).length
/-- The piece of a transfer that begins at a byte of its data: address and length, within one granule of 64 bytes. -/
def pieceAt (rowLen : Nat) (addr : Nat → Nat) (o : Nat) : Nat × Nat :=
  let a := addr (o / rowLen) + o % rowLen
  (a, min (rowLen - o % rowLen) (64 - a % 64))
/-- The head begun: its fields checked, and a source in a feed buffer copied (R264, R266, R267). -/
def State.moverStart (s : State) (k : Fin 16) (m : Fin 2) (d : MoveDesc) : State :=
  let carder := (s.skeins[k]).carders[m]
  let bad : Bool := !d.ok || (decide (d.card ≠ 0xFF) && (moverElems carder.slots[Fin.ofNat 16 d.card] d.rowBytes).isNone)
  let n := needleOf k d.k
  let feedBad : Option Nat :=
    if d.srcFeed then (List.range d.rows).findSome? fun r =>
      if feedOk (d.srcRow r) d.rowBytes && decide (d.rowBytes % 64 = 0) then none else some (d.srcRow r) else none
  match bad, feedBad with
  | true, _ => s.moverFault k m 1 0
  | _, some a => s.moverFault k m 2 a
  | _, none =>
    let s : State := s.modHead k m fun d => { d with staged := some [] }
    if d.srcFeed then
      let got := (List.range d.rows).flatMap fun r => memRead (s.needles[n]).feed (d.srcRow r) d.rowBytes
      s.modHead k m fun d => { d.stage 0 got with readTo := d.rows * d.rowBytes }
    else s
/-- Source pieces asked for from the byte reached, while slots last; all of the source is read before a byte is written
(log 35). -/
def State.moverReads (s : State) (k : Fin 16) (m : Fin 2) (i : Fin 8) : Nat → State
  | 0 => s
  | fuel + 1 =>
    match (s.moverOf k m).queue with
    | [] => s
    | d :: _ =>
      if d.rows * d.rowBytes ≤ d.readTo ∨ 512 ≤ s.moverSlots k m true then s
      else
        let c := pieceAt d.rowBytes d.srcRow d.readTo
        match s.moverPiece k m i d.draft c.1 none c.2 (.stage d.readTo) with
        | (t, .bytes l) => (t.modHead k m fun x => { x.stage d.readTo l with readTo := d.readTo + c.2 }).moverReads k m i fuel
        | (t, .sent) => (t.modHead k m fun x => { x with readTo := d.readTo + c.2 }).moverReads k m i fuel
        | (_, .busy) => s
        | (t, .fault cause a) => t.moverFault k m cause a
/-- The head's data as it is to be written. -/
def MoveDesc.data (d : MoveDesc) : List Byte :=
  match d.carded with
  | some l => l
  | none => memRead (d.staged.getD []) 0 (d.rows * d.rowBytes)
/-- Bytes of a destination row. -/
def MoveDesc.rowOut (d : MoveDesc) : Nat := d.data.length / d.rows
/-- Rows of a destination in a feed buffer written in order, up to a fault (R267). -/
def State.moverFeed (s : State) (k : Fin 16) (m : Fin 2) (d : MoveDesc) : State :=
  let data := d.data
  let rowLen := d.rowOut
  let n := needleOf k (Fin.ofNat 6 (d.u 43 1))
  let bad := (List.range d.rows).find? fun r => !(feedOk (d.dstRow r) rowLen && decide (rowLen % 64 = 0))
  let s : State := (List.range (bad.getD d.rows)).foldl (fun s r =>
    s.modNeedle n fun x => { x with feed := memWrite x.feed (d.dstRow r) (slice data (r * rowLen) rowLen) }) s
  match bad with
  | some r => s.moverFault k m 2 (d.dstRow r)
  | none => s.modHead k m fun x => { x with writeTo := data.length }
/-- Destination pieces sent from the byte reached, while slots last. -/
def State.moverWrites (s : State) (k : Fin 16) (m : Fin 2) (i : Fin 8) : Nat → State
  | 0 => s
  | fuel + 1 =>
    match (s.moverOf k m).queue with
    | [] => s
    | d :: _ =>
      if d.data.length ≤ d.writeTo ∨ 512 ≤ s.moverSlots k m false then s
      else
        let c := pieceAt d.rowOut d.dstRow d.writeTo
        match s.moverPiece k m i d.draft c.1 (some (slice d.data d.writeTo c.2)) c.2 .none with
        | (_, .busy) => s
        | (t, .fault cause a) => t.moverFault k m cause a
        | (t, _) => (t.modHead k m fun x => { x with writeTo := d.writeTo + c.2 }).moverWrites k m i fuel
/-- The most pieces a transfer has. -/
def pieceFuel (rows rowLen : Nat) : Nat := rows * (rowLen / 64 + 2) + 1
/-- Whether the source of the head has come, and its card job has run where it has one. -/
def State.moverReady (s : State) (k : Fin 16) (m : Fin 2) (d : MoveDesc) : Bool :=
  d.staged.isSome && decide (d.rows * d.rowBytes ≤ d.readTo) && decide (s.moverSlots k m true = 0) &&
  (decide (d.card = 0xFF) || d.carded.isSome)
/-- Whether a mover may issue requests: powered, and its swatch not Held (R291). -/
def State.moverRuns (s : State) (k : Fin 16) : Bool :=
  s.powered k && !s.tripped && match s.swatchOf k with
    | some i => decide ((s.swatches[i]).st ≠ .held)
    | none => true

/-- A mover goes on with its head as far as it can: it begins it, asks for the source, and sends the destination once the
source has come and is carded. A hold stops it where it stands, and a restore lets it go on from there (R291). -/
def State.moverBegin (s : State) (k : Fin 16) (m : Fin 2) : State :=
  match (s.moverOf k m).fault, (s.moverOf k m).queue with
  | none, d :: _ => if d.staged.isNone then s.moverStart k m d else s
  | _, _ => s
def State.moverMove (s : State) (k : Fin 16) (m : Fin 2) : State :=
  match (s.moverOf k m).fault, (s.moverOf k m).queue, s.swatchOf k with
  | none, d :: _, none => s.moverFault k m 3 (d.u 0 8)
  | none, d :: _, some i =>
    let s : State := s.moverReads k m i (pieceFuel d.rows d.rowBytes)
    (match (s.moverOf k m).fault, (s.moverOf k m).queue with
    | none, d :: _ =>
      if !s.moverReady k m d then s
      else if d.dstFeed then (if d.writeTo = 0 then s.moverFeed k m d else s)
      else s.moverWrites k m i (pieceFuel d.rows d.rowOut)
    | _, _ => s)
  | _, _, _ => s
def State.moverGo (s : State) (k : Fin 16) (m : Fin 2) : State :=
  if s.moverRuns k then (s.moverBegin k m).moverMove k m else s
/-- The head done: its flag ADD, and the next descriptor (R265). -/
def State.moverPop (s : State) (k : Fin 16) (m : Fin 2) (d : MoveDesc) : State :=
  let home : Fin 16 := match s.swatchOf k with
    | some i => (s.swatches[i]).home
    | none => k
  let h : PktHead := ⟨k, home, (s.swatchOf k).getD 0, .mover m, s.nextAccess⟩
  let s : State := if d.signal then
      (s.emit (.flagOp h .add (Fin.ofNat 64 (d.u 42 1)) (BitVec.ofNat 32 (d.u 44 4)))).useId else s
  let s : State := (s.modMover k m fun x => { x with queue := x.queue.drop 1 }).newHead k m
  let s : State := s.moverGo k m
  if (s.moverOf k m).queue.isEmpty then s.moverWake k m else s
/-- MOVER_DESCRIPTOR_DONE: the head is done when its last write has been acknowledged. -/
def State.moverEnd (s : State) (k : Fin 16) (m : Fin 2) : State :=
  match (s.moverOf k m).fault, (s.moverOf k m).queue with
  | none, d :: _ =>
    if s.moverReady k m d && decide (d.data.length ≤ d.writeTo) && !s.moverBusy k m then s.moverPop k m d else s
  | _, _ => s
def moverDone (k : Fin 16) (m : Fin 2) (s : State) : State := (s.moverGo k m).moverEnd k m
def execMoverDescriptorDone (s_ : Fin 16) (m : Fin 2) (s : State) : Host.Outcome State Fault Refusal :=
  .next (moverDone s_ m s)
/-- The movers of a restored swatch go on (R291). -/
def State.moversResume (s : State) (i : Fin 8) : State :=
  (s.swatches[i]).skeinList.foldl (fun s k => (allFin 2).foldl (fun s m => s.moverGo k m) s) s
def execRestoreReloadDone (swatch : Fin 8) (s : State) : Host.Outcome State Fault Refusal :=
  .next ((reloadDone swatch s).moversResume swatch)

/-- An access of a mover answered: data staged, or the cause of a fault; the mover goes on. -/
def State.finishMover (s : State) (k : Fin 16) (m : Fin 2) (a : Access) (err : Option Nat) (d : List Byte) : State :=
  let s : State := s.dropAccess a.id
  if !a.live then s.viewLoads
  else match err with
    | some cause => ((s.viewCut a.dest).moverFault k m cause a.addr).viewLoads
    | none =>
      let s : State := match s.viewPart a.dest d with
        | (t, some (.stage o, l)) => t.modHead k m fun x => x.stage o l
        | (t, _) => t
      s.viewLoads.moverGo k m

/-- A mover's card job (R360): its staged source carded row by row. -/
def State.moverCard (s : State) (k : Fin 16) (m : Fin 2) : State :=
  let done (s : State) : State := s.modCarder k m fun c => { c with jobs := c.jobs.filter fun j => decide (j ≠ .mover k m) }
  match (s.moverOf k m).fault, (s.moverOf k m).queue with
  | some _, _ => done s
  | _, [] => done s
  | none, d :: _ =>
    if d.card = 0xFF then done s
    else if d.staged.isNone || decide (d.readTo < d.rows * d.rowBytes) || decide (s.moverSlots k m true ≠ 0) then s
    else
      let c := ((s.skeins[k]).carders[m]).begin
      let slot := c.slots[Fin.ofNat 16 d.card]
      match moverElems slot d.rowBytes with
      | none => (done s).moverFault k m 1 0
      | some n =>
        let r := (List.range d.rows).foldl (fun (a : Carder × List Byte) r =>
          let o := a.1.cardRow (cardProg slot) n r 0 (memRead (d.staged.getD []) (r * d.rowBytes) d.rowBytes)
          (o.1, a.2 ++ o.2)) (c, [])
        (done ((s.modCarder k m fun _ => r.1).modHead k m fun x => { x with carded := some r.2 })).moverGo k m

/-! ### The MOVE class (R283) -/

/-- MOVE.ENQ: the descriptor with the draft state of this moment (R265). -/
def moveEnq (n : Fin 96) (ra rb : Fin 32) (s : State) : State :=
  let x := s.needles[n]
  let k := skeinOf n
  let m : Fin 2 := Fin.ofNat 2 (x.sr rb).toNat
  s.issue n 4 [rb] [ra] fun t =>
    let q := (t.moverOf k m).queue
    if 16 ≤ q.length then .stall
    else
      let d : MoveDesc := ⟨toVec 64 ((vecBytes x.v[ra]).take 64), kOf n, x.draft, none, none, 0, 0⟩
      let t : State := t.modMover k m fun y => { y with queue := y.queue ++ [d] }
      .done (if q.isEmpty then (t.newHead k m).moverGo k m else t)
def execMoveEnq (n : Fin 96) (ra rb : Fin 32) (s : State) : Host.Outcome State Fault Refusal := .next (moveEnq n ra rb s)
def execMoveStatus (n : Fin 96) (rd rb : Fin 32) (s : State) : Host.Outcome State Fault Refusal :=
  let m : Fin 2 := Fin.ofNat 2 ((s.needles[n]).sr rb).toNat
  .next (s.issue n 4 [rd, rb] [] fun t =>
    .done (t.modNeedle n fun x => x.setS rd ((s.moverOf (skeinOf n) m).statusWord.setWidth 64)))
def execMoveWait (n : Fin 96) (rb : Fin 32) (s : State) : Host.Outcome State Fault Refusal :=
  let m : Fin 2 := Fin.ofNat 2 ((s.needles[n]).sr rb).toNat
  .next (s.issue n 4 [rb] [] fun t =>
    let v := t.moverOf (skeinOf n) m
    if v.queue.isEmpty ∨ v.fault.isSome then .done t else .done (t.modNeedle n fun x => { x with wait := .mover m }))

/-! ### Bank grants (R260) -/

/-- The arbiter after an access is served: who was last among the movers and among the needles. -/
def Bank.served (b : Bank) (a : Access) : Bank :=
  match a.group, a.who with
  | .mover, .mover _ m => { b with mover := m }
  | .needle, .needle n => { b with needle := kOf n }
  | _, _ => b
/-- A waiting access served, which completes it. -/
def State.bankServe (s : State) (a : Access) : State :=
  let err : Option Nat := match a.op with
    | .read len => if s.anyBad a.addr len then some 5 else none
    | _ => none
  let r := s.serve a.addr a.op
  match a.who with
  | .needle n => r.1.finishNeedle n a err r.2
  | .mover k m => r.1.finishMover k m a err r.2
  | _ => r.1.dropAccess a.id
/-- BANK_GRANT: one waiting access of a bank is served, of the group whose turn it is. -/
def bankGrant (k b : Fin 16) (s : State) : State :=
  if !s.powered k then s
  else
    let remote := (s.skeins[k]).mesh.serving.findSome? fun v => (v.wants b).map fun g => (v, g)
    let group (g : Fin 4) : Option Access := match g.val with
      | 0 => s.bankAccess .drain (fun _ => true) k b
      | 2 => s.bankMover k b
      | 3 => s.bankNeedle k b
      | _ => none
    match ((s.skeins[k]).banks[b]).pick (fun g => if g = 1 then remote.isSome else (group g).isSome) 5 with
    | none => s
    | some (g, bank) =>
      let s : State := s.noteBankWait k
      match remote, group g with
      | _, some a => (s.modSkein k fun x => { x with banks := x.banks.set b (bank.served a) }).bankServe a
      | some (v, gr), none => (s.modSkein k fun x => { x with banks := x.banks.set b bank }).serveRemote k v gr
      | none, none => s
def execBankGrant (s_ : Fin 16) (bank : Fin 16) (s : State) : Host.Outcome State Fault Refusal :=
  .next (bankGrant s_ bank s)

/-! ### Answers of store packets (09 R242, R244) -/

/-- An answer for an access of a needle or a mover: by the number that ties it to its request; an error faults with CAUSE 4. -/
def State.meshAnswer (s : State) (h : PktHead) (error : Bool) (d : List Byte) : State :=
  let mesh (a : Access) : Bool := match a.path with
    | .mesh _ => true
    | _ => false
  let err : Option Nat := if error then some 4 else none
  match s.accesses.find? fun a => decide (a.id = h.id) && mesh a with
  | none => s
  | some a => match h.issuer, a.who with
    | .needle k, .needle n => if n = needleOf h.dst k then s.finishNeedle n a err d else s
    | .mover m, .mover k m' => if k = h.dst ∧ m = m' then s.finishMover k m a err d else s
    | _, _ => s
def readData (r : Fin 16) (h : PktHead) (error : Bool) (d : List Byte) (s : State) : State :=
  s.arrive r h [h.dst] false 1 4 none (if r ≠ h.dst then s.emit (.meshData h error d) else s.meshAnswer h error d)
def writeAcknowledgement (r : Fin 16) (h : PktHead) (error : Bool) (s : State) : State :=
  s.arrive r h [h.dst] false 1 5 none (if r ≠ h.dst then s.emit (.meshAck h error) else s.meshAnswer h error [])
def execReadData (at_ : Fin 16) (h : PktHead) (error : Bool) (data : List Byte) (s : State) :
    Host.Outcome State Fault Refusal := .next (readData at_ h error data s)
def execWriteAcknowledgement (at_ : Fin 16) (h : PktHead) (error : Bool) (s : State) :
    Host.Outcome State Fault Refusal := .next (writeAcknowledgement at_ h error s)

end Sys2Proof.Machine
end

