-- ==== Sys2Proof/Machine/Stitch.lean ====
section
/-! DEFINITION. The stitch plane (09 R250 to R254; 10 R284): sending and receiving on channels, landing windows (11 R310),
and the adds of ply chains (11 R322, 12 R343). -/
namespace Sys2Proof.Machine
open Sys2Proof

/-! ### Channels -/

/-- The sending needle of a channel. -/
def Chan.source (x : Chan) (w : Swatch) : Fin 96 := needleOf (w.atRel x.srcSkein.toNat) (Fin.ofNat 6 x.srcK.toNat)
/-- The receiving needle; over the twin exit, that of the local end (R254). -/
def Chan.sink (x : Chan) (w : Swatch) : Fin 96 :=
  needleOf (w.atRel (if x.link = 5 then x.srcSkein else x.dstSkein).toNat) (Fin.ofNat 6 x.dstK.toNat)
/-- The wheel a channel is served by: line, north, east, south, west; the twin exit is the east wheel of a primary and
the west wheel of a secondary (R255). -/
def wheelOf (x : Chan) (primary : Bool) : Nat := if x.link = 5 then (if primary then 2 else 4) else x.link.val
/-- The slots of an outgoing link of a relative skein (R255). -/
def StitchMap.slots (m : StitchMap) (rel link : Nat) : List Byte := slice m.wheels ((5 * rel + link) * m.wheel) m.wheel
/-- Whether a wheel of its link serves a channel: without a slot it sends nothing. -/
def StitchMap.serves (m : StitchMap) (c : Byte) (x : Chan) (primary : Bool) : Bool :=
  decide (c ∈ m.slots x.srcSkein.toNat (wheelOf x primary))
/-- A channel of a needle's swatch of which it is the source, or the receiver; none is a misuse (R284). -/
def State.ownChan (s : State) (n : Fin 96) (c : Byte) (source : Bool) : Option (Fin 8 × Chan) :=
  (s.swatchOf (skeinOf n)).bind fun i => (s.chanRec i c).bind fun x =>
    if (if source then x.source s.swatches[i] else x.sink s.swatches[i]) = n then some (i, x) else none

/-! ### Sending -/

/-- One entry sent: on its link, or as a PLY transaction over the twin exit (R254, R50), which carries the shift byte of an
INT32 transfer with its first entry, in ADDR[23:16] with ADDR[24] set (log 33). -/
def State.sendEntry (s : State) (i : Fin 8) (c : Byte) (x : Chan) (e : Option Byte × Vector Byte 64) : State :=
  let s : State := s.modSkein (skeinOf (x.source s.swatches[i])) fun k =>
    { k with stch := { k.stch with xferCount := satAdd k.stch.xferCount 1 } }
  if x.link = 5 then (match s.twinPort with
    | some p =>
      let shift := match e.1 with
        | some b => 0x1000000 + 0x10000 * b.toNat
        | none => 0
      s.transmit ⟨0x11, 0, ⟨p, 0, 1, 0, false, BitVec.ofNat 40 (shift + x.chain.toNat * 4096 + x.position.toNat)⟩, e.2.toList.map some⟩
    | none => s)
  else s.emit (.stitch i c x.position e.2)
/-- Whether a channel can send at all: it has a slot, and over the twin exit a port. -/
def State.chanOpen (s : State) (i : Fin 8) (c : Byte) (x : Chan) : Bool :=
  (match s.swatches[i].map with
  | some m => m.serves c x s.fuses.primary
  | none => false) && (decide (x.link ≠ 5) || s.twinPort.isSome)
/-- Whether a channel has an entry and a credit for it. -/
def State.sendable (s : State) (i : Fin 8) (c : Byte) : Bool :=
  match s.chanRec i c with
  | some x => !(s.chan i c).outq.isEmpty && decide ((s.chan i c).credits ≠ 0) && s.chanOpen i c x
  | none => false
/-- The slot the link of a channel serves next: the first, from where its wheel stands, whose channel has data and credit; in
the others the link sends nothing (R251). -/
def State.nextSlot (s : State) (i : Fin 8) (x : Chan) : Option (Nat × Byte) :=
  (s.swatches[i]).map.bind fun m =>
    let w := wheelOf x s.fuses.primary
    let l := m.slots x.srcSkein.toNat w
    let at0 := (s.skeins[skeinOf (x.source s.swatches[i])]).stch.wheel.toList.getD w 0
    (List.range l.length).findSome? fun j =>
      let q := (at0 + j) % l.length
      if s.sendable i (l.getD q 0) then some (q, l.getD q 0) else none
/-- The needle that sends on a channel goes on when its last entry is sent. -/
def State.sendEnds (s : State) (i : Fin 8) (c : Byte) : State :=
  match s.chanRec i c with
  | none => s
  | some x =>
    let n := x.source s.swatches[i]
    if (s.chan i c).outq.isEmpty ∧ (s.needles[n]).wait = .send c then s.wake n id else s
/-- The wheel of a link turned while it finds something to send. -/
def State.pumpLink (s : State) (i : Fin 8) (x : Chan) : Nat → State
  | 0 => s
  | fuel + 1 =>
    match s.nextSlot i x with
    | none => s
    | some (q, c) => match s.chanRec i c, (s.chan i c).outq with
      | some y, e :: rest =>
        let f := s.chan i c
        let k := skeinOf (y.source s.swatches[i])
        let w := wheelOf y s.fuses.primary
        let s : State := s.modSkein k fun r =>
          { r with stch := { r.stch with wheel := if h : w < 5 then r.stch.wheel.set w (q + 1) else r.stch.wheel } }
        ((((s.putChan { f with outq := rest, credits := f.credits - 1 }).sendEntry i c y e).sendEnds i c)).pumpLink i x fuel
      | _, _ => s
/-- Entries sent on the link of a channel while credits last (R251): each of its channels holds at most four. -/
def State.pumpSend (s : State) (i : Fin 8) (c : Byte) : State :=
  match s.chanRec i c with
  | none => s
  | some x => (s.sendEnds i c).pumpLink i x 1025
/-- Entries queued by a SEND, and sent as far as credits go. -/
def State.sendOn (s : State) (n : Fin 96) (i : Fin 8) (c : Byte) (l : List (Option Byte × Vector Byte 64)) : State :=
  let f := s.chan i c
  let s : State := s.modNeedle n fun x => { x with wait := .send c }
  (s.putChan { f with outq := f.outq ++ l }).pumpSend i c
/-- Bytes as 64-byte entries, without a shift byte. -/
def entriesOf (d : List Byte) : List (Option Byte × Vector Byte 64) := (chunksOf 64 d.length d).map fun l => (none, toVec 64 l)
/-- STCH.SEND (R284): v[RA] as four entries. -/
def stchSend (n : Fin 96) (ra rb : Fin 32) (s : State) : State :=
  let x := s.needles[n]
  let c : Byte := (x.sr rb).setWidth 8
  s.issue n 4 [rb] [ra] fun t => match t.ownChan n c true with
    | none => .fault 10 0
    | some (i, _) => .done (t.sendOn n i c (entriesOf (vecBytes x.v[ra])))
def execStchSend (n : Fin 96) (ra rb : Fin 32) (s : State) : Host.Outcome State Fault Refusal := .next (stchSend n ra rb s)

/-! ### Ply adds (R322, R343) -/

/-- The shift byte (R315). -/
def Tile.shiftByte (t : Tile) : Byte :=
  BitVec.ofNat 8 (t.shift + 16 * b2n t.satEx + 32 * b2n t.isInt)
/-- A tile as entries: eight internal words each, zero-extended to 64 bits; the first of an INT32 tile with its shift byte. -/
def Tile.entries (t : Tile) : List (Option Byte × Vector Byte 64) :=
  match entriesOf (t.elems.flatMap fun w => leBytes 8 w.toNat) with
  | e :: l => (if t.isInt then some t.shiftByte else none, e.2) :: l
  | [] => []
/-- Internal words of received entries. -/
def plyWords (d : List Byte) : List (BitVec 48) := (List.range (d.length / 8)).map fun i => BitVec.ofNat 48 (leAt d (8 * i) 8)
/-- Two lists of pairs added, received first. -/
def plyPairs : List (BitVec 48) → List (BitVec 48) → List (BitVec 48)
  | a :: b :: x, c :: d :: y =>
    let v := dwAdd (plusTo32 a, plusTo32 b) (plusTo32 c, plusTo32 d)
    plusOf v.1 :: plusOf v.2 :: plyPairs x y
  | _, _ => []
/-- A received tile added, with its shift byte (R343, R338). -/
def Tile.plyAdd (t : Tile) (d : List Byte) (shift : Byte) : Tile :=
  let l := plyWords d
  match t.lfmt.val with
  | 0 =>
    let r := addShifted (l.map loopInt, min 8 (fld shift 3 0)) (t.elems.map loopInt, t.shift)
    { t with elems := r.1.map fun v => intWord v false, shift := r.2.1, satEx := t.satEx || shift.getLsbD 4 || r.2.2 }
  | 1 => { t with elems := List.zipWith (fun x y => encPlus ((decPlus x).add (decPlus y))) l t.elems }
  | _ => { t with elems := plyPairs l t.elems }
def Bed.tile (b : Bed) (unit : Fin 16) : Option Tile := b.tiles.find? fun t => decide (t.unit = unit)

/-! ### Receiving -/

/-- The entry at the head taken out, its credit returned (R251). -/
def State.takeEntry64 (s : State) (i : Fin 8) (c : Byte) : Option (Vector Byte 64 × State) :=
  let f := s.chan i c
  match f.fifo with
  | [] => none
  | e :: rest => some (e, (s.putChan { f with fifo := rest }).emits (s.creditOut i c))
/-- The shift byte of a PLY transfer taken; where none came, the positions differ in LFMT and the value is unspecified (R343): a
free value. -/
def State.takeShift (s : State) (i : Fin 8) (c : Byte) : Byte × State :=
  let f := s.chan i c
  match f.shifts with
  | b :: rest => (b, s.putChan { f with shifts := rest })
  | [] => ((s.freeVal.setWidth 8 : Byte), s.useFree)
/-- A received tile that is complete added into the tile of the needle. -/
def State.plyDone (s : State) (n : Fin 96) (i : Fin 8) (c : Byte) (unit : Fin 16) (d : List Byte) : State :=
  let r := if ((s.needles[n]).bed.tile unit).any Tile.isInt then s.takeShift i c else (0, s)
  r.2.wake n fun x => { x with bed := x.bed.modTile unit fun t => t.plyAdd d r.1 }
/-- What a receiving needle waits for taken from the FIFO (R284, R322). -/
def State.pumpRecv (s : State) (n : Fin 96) (i : Fin 8) (c : Byte) : Nat → State
  | 0 => s
  | fuel + 1 =>
    match (s.needles[n]).wait with
    | .recv c' rd got =>
      if c' ≠ c then s
      else if 256 ≤ got.length then s.wake n fun x => x.setV rd (vecOf got)
      else (match s.takeEntry64 i c with
        | none => s
        | some (e, s) => (s.modNeedle n fun x => { x with wait := .recv c rd (got ++ e.toList) }).pumpRecv n i c fuel)
    | .recvTile c' unit got =>
      let need := (((s.needles[n]).bed.tile unit).map fun t => 8 * t.elems.length).getD 0
      if c' ≠ c then s
      else if need ≤ got.length then s.plyDone n i c unit got
      else (match s.takeEntry64 i c with
        | none => s
        | some (e, s) => (s.modNeedle n fun x => { x with wait := .recvTile c unit (got ++ e.toList) }).pumpRecv n i c fuel)
    | _ => s
/-- STCH.RECV (R284). -/
def stchRecv (n : Fin 96) (rd rb : Fin 32) (s : State) : State :=
  let c : Byte := ((s.needles[n]).sr rb).setWidth 8
  s.issue n 4 [rb] [rd] fun t => match t.ownChan n c false with
    | none => .fault 10 0
    | some (i, _) => .done ((t.modNeedle n fun x => { x with wait := .recv c rd [] }).pumpRecv n i c 6)
def execStchRecv (n : Fin 96) (rd rb : Fin 32) (s : State) : Host.Outcome State Fault Refusal := .next (stchRecv n rd rb s)

/-! ### Landing windows (R310) -/

/-- Entries written into an armed window in order, their credits returned; the rest wait. -/
def State.pumpLand (s : State) (n : Fin 96) (i : Fin 8) (c : Byte) : Nat → State
  | 0 => s
  | fuel + 1 =>
    let f := s.chan i c
    match f.land, f.fifo with
    | some w, e :: rest =>
      if w.size ≤ w.got then s
      else
        let s : State := s.putChan { f with fifo := rest, land := some { w with got := w.got + 64 } }
        let s : State := s.modNeedle n fun x => { x with feed := memWrite x.feed (w.base + w.got) e.toList }
        (s.emits (s.creditOut i c)).pumpLand n i c fuel
    | _, _ => s
/-- Whether some feed bytes lie in an armed window and have not arrived. -/
def State.landDue (s : State) (n : Fin 96) (f len : Nat) : Bool :=
  s.chans.any fun c => match c.land, s.chanRec c.swatch c.chan with
    | some w, some x => decide (x.sink s.swatches[c.swatch] = n) && overlaps f len (w.base + w.got) (w.size - w.got)
    | _, _ => false
/-- LAND (R310): a pair. -/
def land (n : Fin 96) (ra rb rs : Fin 32) (s : State) : State :=
  let x := s.needles[n]
  let c : Byte := (x.sr rb).setWidth 8
  let base := (x.sr ra).toNat
  let size := (x.sr rs).toNat
  s.issue n 8 [ra, rb, rs] [] fun t => match t.ownChan n c false with
    | none => .fault 10 0
    | some (i, r) =>
      if r.ply then .fault 10 0
      else if size = 0 then .done (t.putChan { t.chan i c with land := none })
      else if size % 64 ≠ 0 ∨ 65536 < size ∨ !feedOk base size then .fault 2 base
      else .done ((t.putChan { t.chan i c with land := some ⟨base, size, 0⟩ }).pumpLand n i c 5)
def execLand (n : Fin 96) (ra rb rs : Fin 32) (s : State) : Host.Outcome State Fault Refusal := .next (land n ra rb rs s)

/-! ### The rows of the links -/

/-- STCH_EVENTS of a skein. -/
def State.stchEvent (s : State) (k : Fin 16) (b : Nat) : State :=
  s.modSkein k fun x => { x with stch := { x.stch with events := setBit x.stch.events b } }
/-- An entry that reaches the receiver of a channel (R251, R252), with the shift byte that came along: a PLY transfer of a wrong
position is dropped; an entry goes to an armed window, to a needle that waits, or stays. A sender's credits keep the FIFO
within its four entries. -/
def State.entryArrives (s : State) (i : Fin 8) (c : Byte) (position : BitVec 12) (shift : Option Byte) (e : Vector Byte 64) : State :=
  match s.chanRec i c with
  | none => s
  | some x =>
    let n := x.sink s.swatches[i]
    let f := s.chan i c
    if x.ply ∧ position ≠ x.position then s.stchEvent (skeinOf n) 0
    else if (x.link = 5 ∧ !s.twinMatched i x) ∨ 4 ≤ f.fifo.length then s
    else ((s.putChan { f with fifo := f.fifo ++ [e], shifts := f.shifts ++ shift.toList }).pumpLand n i c 5).pumpRecv n i c 6
/-- STITCH_ENTRY_ARRIVAL. -/
def stitchArrival (i : Fin 8) (c : Byte) (position : BitVec 12) (e : Vector Byte 64) (s : State) : State :=
  s.entryArrives i c position none e
def execStitchEntryArrival (swatch : Fin 8) (chan : Byte) (position : BitVec 12) (entry : Vector Byte 64) (s : State) :
    Host.Outcome State Fault Refusal := .next (stitchArrival swatch chan position entry s)
/-- STITCH_CREDIT_RETURN (R251): at most the four entries of a FIFO. -/
def creditReturn (i : Fin 8) (c : Byte) (s : State) : State :=
  if (s.chanRec i c).isNone then s
  else
    let f := s.chan i c
    (s.putChan { f with credits := min 4 (f.credits + 1) }).pumpSend i c
def execStitchCreditReturn (swatch : Fin 8) (chan : Byte) (s : State) : Host.Outcome State Fault Refusal :=
  .next (creditReturn swatch chan s)
/-- TWIN_UNMATCHED_TIMEOUT (R254). -/
def twinUnmatched (i : Fin 8) (c : Byte) (s : State) : State :=
  match s.chanRec i c with
  | some x => if x.link = 5 ∧ (s.chan i c).credits = 0 then s.stchEvent (skeinOf (x.source s.swatches[i])) 1 else s
  | none => s
def execTwinUnmatchedTimeout (swatch : Fin 8) (chan : Byte) (s : State) : Host.Outcome State Fault Refusal :=
  .next (twinUnmatched swatch chan s)
/-- The local channel of a PLY transaction (R254): chain in ADDR[15:12], position in ADDR[11:0]. -/
def State.plyChan (s : State) (addr : Nat) : Option (Fin 8 × Byte) :=
  let here (exact : Bool) : Option (Fin 8 × Byte) := s.castList.findSome? fun i =>
    ((s.twinChansOf i).find? fun x => decide (x.2.chain.toNat = addr / 4096 % 16) &&
      (!exact || decide (x.2.position.toNat = addr % 4096))).map fun x => (i, x.1)
  (here true).or (here false)

end Sys2Proof.Machine
end

