-- ==== Sys2Proof/Machine/Bed.lean ====
section
/-! DEFINITION. The tensor and loop pairs (11 R300 to R322; 12 R331, R332): cast-on, multiply-accumulate, replay, bind-off
up to the drain's card job, and the loop and ply pairs. -/
namespace Sys2Proof.Machine
open Sys2Proof

/-! ### The bed of a needle -/

/-- Units two tiles share. -/
def unitsMeet (a n b m : Nat) : Bool := decide (a < b + m ∧ b < a + n)
/-- Whether the bed of a needle works: powered, and its swatch not Held, or still quiescing (R195, R323). -/
def State.bedRuns (s : State) (n : Fin 96) : Bool :=
  s.powered (skeinOf n) && !s.tripped && match s.swatchOf (skeinOf n) with
    | some i => decide ((s.swatches[i]).st ≠ .held ∨ (s.swatches[i]).holdStep = .quiesce)
    | none => true
/-- Whether every earlier MMA into a tile, and every replay of it, has reached the loops (R309, R312). -/
def Bed.settled (b : Bed) (unit : Fin 16) : Bool :=
  decide (b.running ≠ some unit) && !b.replays.contains unit && b.pending unit == 0
/-- Whether copies of a tile's operands are still to be written into its replay area (R314). -/
def State.copyDue (s : State) (n : Fin 96) (unit : Fin 16) : Bool :=
  s.accesses.any fun a => a.live && decide (a.who = .needle n ∧ a.dest = .replay unit)
/-- Whether the pair that runs has reached the loops as far as its copies go. -/
def State.bedMayEnd (s : State) (n : Fin 96) : Bool :=
  match (s.needles[n]).bed.running with
  | some unit => !s.copyDue n unit
  | none => true
def State.modBed (s : State) (n : Fin 96) (f : Bed → Bed) : State := s.modNeedle n fun x => { x with bed := f x.bed }
/-- A flag of the open KNIT's reply (R152). -/
def State.knitFlag (s : State) (i : Fin 8) (b : Nat) : State :=
  let mark (k : Knit) : Knit := { k with flags := setBit k.flags b }
  s.modSw i fun w => { w with knit := w.knit.map mark }
/-- LONGSUM_EXCEEDED, when a count lies above 2^21 (R332). -/
def State.longSum (s : State) (n : Fin 96) (count : Nat) : State :=
  match s.swatchOf (skeinOf n) with
  | some i => if 2 ^ 21 < count then (s.swStatus i 3).knitFlag i 1 else s
  | none => s
/-- SAT_EXHAUSTED (R311). -/
def State.satNote (s : State) (n : Fin 96) : State :=
  match s.swatchOf (skeinOf n) with
  | some i => (s.swStatus i 2).knitFlag i 0
  | none => s
/-- Whether a store offset is aligned and a range stays below 4 MiB (R303). -/
def offOk (off len : Nat) : Bool := decide (off % 64 = 0 ∧ off + len ≤ 0x400000)

/-! ### Cast-on (R303 to R306) -/

/-- The chunk length LOG2_CHUNK gives; none where it is illegal (R306). -/
def chunkOf (isInt : Bool) (l : Nat) : Option Nat :=
  if isInt then (if l = 0 then some 0 else none)
  else if l = 0 then some 256
  else if 4 ≤ l ∧ l ≤ 10 then some (2 ^ l) else none
/-- Why a cast-on faults: the cause and the address. -/
def castFault (b : Bed) (o : CastOps) (mode : Fin 4) (c : CastRec) : Option (Nat × Nat) :=
  let pair : Bool := decide (o.lfmt.val = 2)
  let units := tileUnits o.shape pair
  let illegal : Bool := decide (o.lfmt.val = 3 ∨ o.unit.val % units ≠ 0 ∨ (mode.val = 3 ∧ o.lfmt.val ≠ 2) ∨ (o.rfs = true ∧ o.lfmt.val ≠ 0)) ||
    (chunkOf (decide (o.lfmt.val = 0)) o.log2Chunk.val).isNone ||
    b.tiles.any fun t => unitsMeet o.unit.val units t.unit.val t.units
  if illegal then some (1, 0)
  else if mode.val ≠ 0 ∧ (c.src % 64 ≠ 0 ∨ (2 ≤ mode.val ∧ c.stride % 64 ≠ 0)) then some (2, c.src)
  else if o.rfs ∧ !offOk c.area 0 then some (2, c.area)
  else ((c.ranges o.shape).find? fun r => decide (0x400000 < r.1 + r.2)).map fun r => (2, r.1)
/-- CAST: a tile opened, and its source read (R304); a float tile's RS is its term count K₀ (R331). -/
def castOn (n : Fin 96) (o : CastOps) (mode : Fin 4) (s : State) : State :=
  let x := s.needles[n]
  let isInt : Bool := decide (o.lfmt.val = 0)
  let rs := (x.sr o.rs).toNat
  let c : CastRec := ⟨mode, (x.sr o.ra).toNat, (x.sr o.rb).toNat, if isInt then rs else 0⟩
  s.issue n 8 [o.ra, o.rb, o.rs] [] fun t => match castFault x.bed o mode c with
    | some (cause, a) => .fault cause a
    | none =>
      let ranges := c.ranges o.shape
      let due := sumN (ranges.map Prod.snd)
      let terms := if isInt then 0 else rs
      let lfmt : Fin 3 := Fin.ofNat 3 o.lfmt.val
      let elems := if due = 0 then castElems o.shape lfmt mode 0 [] else []
      let tile : Tile := ⟨o.unit, o.shape, lfmt, (chunkOf isInt o.log2Chunk.val).getD 0, o.rfs, elems, due, [], 0, terms,
        0, false, false, !isInt, c, []⟩
      let t : State := (t.modBed n fun b => { b with tiles := b.tiles ++ [tile] }).longSum n terms
      .done ((ranges.foldl (fun (a : State × Nat) r =>
        (a.1.ownAccess n (ownAddr n r.1) r.2 (.read r.2) (.castOn o.unit a.2) x.pc.toNat, a.2 + r.2)) (t, 0)).1)
def execCastZero (n : Fin 96) (o : CastOps) (s : State) : Host.Outcome State Fault Refusal := .next (castOn n o 0 s)
def execCastBias (n : Fin 96) (o : CastOps) (s : State) : Host.Outcome State Fault Refusal := .next (castOn n o 1 s)
def execCastResid (n : Fin 96) (o : CastOps) (s : State) : Host.Outcome State Fault Refusal := .next (castOn n o 2 s)
def execCastTotal (n : Fin 96) (o : CastOps) (s : State) : Host.Outcome State Fault Refusal := .next (castOn n o 3 s)

/-! ### Multiply-accumulate (R306 to R314) -/

/-- Bytes an MMA copies into the replay area (R314). -/
def MmaRec.copyLen (m : MmaRec) (shape : Fin 4) : Nat := m.lenA shape + m.lenB shape
/-- Why an MMA faults with CAUSE 1 (R302, R306 to R308, R311, R312). -/
def mmaIllegal (t : Tile) (m : MmaRec) : Bool :=
  let int (f : Fin 16) : Bool := decide (f.val ≤ 3)
  let float (f : Fin 16) : Bool := decide (4 ≤ f.val ∧ f.val ≤ 11)
  let k := m.k
  t.closed || decide (m.kq = 0 ∨ m.scale.val = 3) ||
  (if t.isInt then !(int m.afmt && int m.bfmt) || decide (m.scale.val ≠ 0 ∨ 16 ≤ t.mmas.length)
   else !(float m.afmt && float m.bfmt) || decide (m.scale.val ≠ 0 ∧ k % m.block ≠ 0) ||
    (if t.isPair then decide (k % t.chunk ≠ 0) else decide (t.chunk < t.ksum + k)))
/-- The feed ranges an MMA reads. -/
def MmaRec.reads (m : MmaRec) (shape : Fin 4) : List (Nat × Nat) :=
  [(m.a, m.lenA shape), (m.b, m.lenB shape)] ++ if m.scale.val = 0 then [] else [(m.sc, m.lenSc shape)]
/-- Operand bytes forwarded on a channel (R310). -/
def State.forward (s : State) (n : Fin 96) (c : Byte) (d : List Byte) : State :=
  match s.ownChan n c true with
  | some (i, _) =>
    let l := entriesOf d
    let f := s.chan i c
    (s.putChan { f with outq := f.outq ++ l }).pumpSend i c
  | none => s
/-- The copy of an MMA's operands into the replay area, through the NEEDLE bank group (R314); the pair has the bed until it is
written. -/
def State.copyOps (s : State) (n : Fin 96) (t : Tile) (m : MmaRec) (o : MmaBytes) : State :=
  let d := o.a ++ o.b
  if t.rfs then
    s.ownAccess n (ownAddr n (t.cast.area + m.copyAt)) d.length (.write (d.map some)) (.replay t.unit) (s.needles[n]).pc.toNat
  else s
/-- An MMA takes the bed: its operands are read and accumulated. -/
def State.mmaBegin (s : State) (n : Fin 96) (unit : Fin 16) (m : MmaRec) (fa fb : Bool) (c : Byte) : State :=
  match (s.needles[n]).bed.tile unit with
  | none => s
  | some t =>
    let o := s.mmaBytes n t m false
    let s : State := s.modBed n fun b => { b.modTile unit (fun t => t.accum m o) with running := some unit }
    let s : State := s.copyOps n t m o
    let s : State := if fa then s.forward n c o.a else s
    if fb then s.forward n c o.b else s
/-- MMA. -/
def mma (n : Fin 96) (o : MmaOps) (s : State) : State :=
  let x := s.needles[n]
  s.issue n 8 [o.ra, o.rb, o.rs] [] fun t => match x.bed.tile o.unit with
    | none => .fault 1 0
    | some tile =>
      let copyAt := sumN (tile.mmas.map fun m => m.copyLen tile.shape)
      let m : MmaRec := ⟨(x.sr o.ra).toNat, (x.sr o.rb).toNat, (x.sr o.rs).toNat, o.afmt, o.bfmt, o.scale, o.kq.val, copyAt⟩
      let fwd := t.ownChan n o.fwdCh true
      let range := (m.reads tile.shape).find? fun r => !feedOk r.1 r.2
      if mmaIllegal tile m then .fault 1 0
      else if range.isSome then .fault 2 ((range.map Prod.fst).getD 0)
      else if tile.rfs ∧ !offOk tile.cast.area (copyAt + m.copyLen tile.shape) then .fault 2 tile.cast.area
      else if (o.fwdA ∨ o.fwdB) ∧ ((fwd.map fun c => c.2.ply).getD true) then .fault 10 0
      else if tile.due ≠ 0 then .stall
      else if (m.reads tile.shape).any fun r => t.feedDue n r.1 r.2 || t.landDue n r.1 r.2 then .stall
      else if 2 ≤ x.bed.queue.length then .stall
      else
        let more (y : Tile) : Tile := { y with mmas := if y.isInt then y.mmas ++ [m] else [], ksum := y.ksum + m.k
                                               terms := if y.isInt then 0 else (y.terms + m.k) % 2 ^ 64 }
        let t : State := (t.modBed n fun b => b.modTile o.unit more).longSum n (if tile.isInt then 0 else (tile.terms + m.k) % 2 ^ 64)
        if x.bed.running.isNone ∧ x.bed.queue.isEmpty then .done (t.mmaBegin n o.unit m o.fwdA o.fwdB o.fwdCh)
        else .done (t.modBed n fun b => { b with queue := b.queue ++ [(o.unit, m, o.fwdA, o.fwdB, o.fwdCh)] })
def execMma (n : Fin 96) (o : MmaOps) (s : State) : Host.Outcome State Fault Refusal := .next (mma n o s)

/-! ### Bind-off and what a waiting pair does (R311, R316, R321, R322) -/

/-- Whether a drain still holds the spare copy of a tile's units. -/
def Bed.spareBusy (b : Bed) (t : Tile) : Bool :=
  b.drains.any fun d => unitsMeet t.unit.val t.units d.tile.unit.val d.tile.units
/-- BIND of a confirmed tile: its copies exchanged, its units free, and its drain waiting at the carder. -/
def State.doBind (s : State) (n : Fin 96) (unit : Fin 16) (r : BindRec) : State :=
  match (s.needles[n]).bed.tile unit with
  | none => s
  | some t =>
    if (s.needles[n]).bed.spareBusy t then s.modNeedle n fun x => { x with wait := .spare unit (.bind r) }
    else
      let s : State := s.modBed n fun b => { b with
        tiles := b.tiles.filter (fun y => decide (y.unit ≠ unit)), drains := b.drains ++ [⟨t, r, false⟩] }
      (s.addJob (skeinOf n) r.carder (.drain n unit)).wake n id
/-- The 64 elements LGET reads (R321): for a pair the hi and the lo words. -/
def lgetWords (t : Tile) (index : Nat) (lo : Bool) : VReg :=
  Vector.ofFn fun (i : Fin 64) =>
    let e (j : Nat) : BitVec 48 := t.elems.getD j 0
    match t.lfmt.val with
    | 0 => (e (index + i.val)).setWidth 32
    | 1 => plusTo32 (e (index + i.val))
    | _ => plusTo32 (e (2 * (index + i.val) + b2n lo))
/-- LSCALE (R321). -/
def Tile.scaleRows (t : Tile) (v : VReg) : Tile :=
  let per := t.cols * (if t.isPair then 2 else 1)
  { t with elems := t.elems.zipIdx.map fun x =>
      let p := (decPlus x.1).mul (dec32 (v.toList.getD (x.2 / per) 0))
      if t.isPair then plusOf (enc32 p) else encPlus p }
/-- What a pair does once its tile may be read. -/
def State.runCont (s : State) (n : Fin 96) (unit : Fin 16) (k : PairCont) : State :=
  match (s.needles[n]).bed.tile unit, k with
  | none, _ => s
  | some _, .bind r => s.doBind n unit r
  | some _, .lconf => s.wake n id
  | some t, .lget ra index => s.wake n fun x =>
      let y := x.setV ra (lgetWords t index false)
      if t.isPair then y.setV (ra + 1) (lgetWords t index true) else y
  | some t, .lshift rb => s.wake n fun x => x.setS rb (t.shiftByte.setWidth 64)
  | some _, .lscale ra => s.wake n fun x => { x with bed := x.bed.modTile unit fun t => t.scaleRows x.v[ra] }
  | some t, .plySend c => (match s.ownChan n c true with
    | some (i, x) =>
      let f := s.chan i c
      let s : State := if t.isInt ∧ x.link ≠ 5 then s.putChan { f with shifts := f.shifts ++ [t.shiftByte] } else s
      s.sendOn n i c t.entries
    | none => s.wake n id)
  | some _, .plyAdd c => (match s.ownChan n c false with
    | some (i, _) => (s.modNeedle n fun x => { x with wait := .recvTile c unit [] }).pumpRecv n i c 260
    | none => s.wake n id)
/-- Whether a waiting pair may go on: every MMA into the tile is in the loops, and the tile is confirmed; LCONF waits for
the MMAs alone. -/
def Bed.ready (b : Bed) (unit : Fin 16) (k : PairCont) : Bool :=
  b.settled unit && (decide (k = .lconf) || ((b.tile unit).map Tile.confirmed).getD false)
/-- A pair that waits for its tile goes on as soon as it may. -/
def State.settleBed (s : State) (n : Fin 96) : State :=
  match (s.needles[n]).wait with
  | .confirm unit k => if (s.needles[n]).bed.ready unit k then s.runCont n unit k else s
  | _ => s
/-- A pair that names an open tile: an INT32 tile is closed by it (R311). -/
def State.pair (s : State) (n : Fin 96) (unit : Fin 16) (ss vs : List (Fin 32)) (bad : Tile → State → Option (Nat × Nat))
    (k : PairCont) : State :=
  let x := s.needles[n]
  s.issue n 8 ss vs fun t => match x.bed.tile unit with
    | none => .fault 1 0
    | some tile => match bad tile t with
      | some (cause, a) => .fault cause a
      | none =>
        if tile.due ≠ 0 then .stall
        else .done (((t.modBed n fun b => b.modTile unit fun y => { y with closed := y.closed || y.isInt }).modNeedle n
          fun x => { x with wait := .confirm unit k }).settleBed n)

/-- Bytes one tile row occupies in the destination (R316, R318, R364): the row, before the padding to SEG. -/
def rowOut (t : Tile) (slot : Option CardProg) (promote : Bool) : Nat :=
  if promote then 8 * t.cols
  else match slot with
    | none => t.cols * (if t.isPair then 8 else 4)
    | some p => (t.cols * fmtWidth p.outFmt + 7) / 8 + if p.outScheme = 0 ∨ p.sep then 0 else t.cols / blockLen p.outScheme
/-- SEG (R363). -/
def segOf (n : Nat) : Nat := (n + 63) / 64 * 64
/-- Why a BIND faults (R316 to R320, R360, R364). -/
def bindFault (slots : Vector (List Byte) 16) (r : BindRec) (t : Tile) : Option (Nat × Nat) :=
  let pass : Bool := decide (r.slot = 0xFF)
  let b := slots[Fin.ofNat 16 r.slot.toNat]
  let p := cardProg b
  let illegal : Bool := decide (r.fuse.val = 3 ∨ (r.fuse.val ≠ 0 ∧ r.side = false) ∨ (r.promote = true ∧ t.isPair = true)) ||
    (!pass && (decide (16 ≤ r.slot.toNat) || !drainOk b || (p.needsMax && decide (r.fuse.val ≠ 2)) ||
      (r.promote && decide (p.outFmt ≠ 11 ∨ p.outScheme ≠ 0)) ||
      (decide (p.outScheme ≠ 0) && decide (t.cols % blockLen p.outScheme ≠ 0))))
  let seg := segOf (rowOut t (if pass then none else some p) r.promote)
  let sepAt : Int := (r.dst : Int) + p.scaleOff
  let sepLen := t.cols / blockLen p.outScheme * t.rows
  if illegal then some (1, 0)
  else if r.stride % 64 ≠ 0 ∨ !offOk r.dst (r.stride * (t.rows - 1) + seg) then some (2, r.dst)
  else if r.side ∧ !offOk r.sideAt (8 + if r.fuse.val = 0 then 0 else 8 * t.rows) then some (2, r.sideAt)
  else if !pass ∧ p.sep ∧ p.outScheme ≠ 0 ∧ (sepAt < 0 ∨ 0x400000 < sepAt + sepLen) then some (2, sepAt.toNat)
  else none
/-- BIND with DRAIN. -/
def bindOff (n : Fin 96) (o : BindOps) (promote : Bool) (s : State) : State :=
  let x := s.needles[n]
  let r : BindRec := ⟨promote, o.fuse, o.side, (x.sr o.ra).toNat, (x.sr o.rb).toNat, (x.sr o.rs).toNat, o.carder, o.slot, x.ignoreNan⟩
  s.pair n o.unit [o.ra, o.rb, o.rs] []
    (fun t s => bindFault ((s.skeins[skeinOf n]).carders[o.carder]).slots r t) (.bind r)
def execBindDrain (n : Fin 96) (o : BindOps) (s : State) : Host.Outcome State Fault Refusal := .next (bindOff n o false s)
def execBindPromote (n : Fin 96) (o : BindOps) (s : State) : Host.Outcome State Fault Refusal := .next (bindOff n o true s)
/-- BIND with DROP (R316): the units free at once; what was queued for the tile goes with it. -/
def Bed.drop (b : Bed) (unit : Fin 16) : Bed :=
  { b with tiles := b.tiles.filter (fun t => decide (t.unit ≠ unit)), queue := b.queue.filter fun q => decide (q.1 ≠ unit)
           replays := b.replays.filter fun u => decide (u ≠ unit) }
/-- Cast-on reads of a dropped tile lose their destination. -/
def Access.dropCast (a : Access) (n : Fin 96) (unit : Fin 16) : Access :=
  match a.dest with
  | .castOn u _ => if a.who = .needle n ∧ u = unit then { a with dest := .none } else a
  | _ => a
def bindDrop (n : Fin 96) (unit : Fin 16) (s : State) : State :=
  let x := s.needles[n]
  s.issue n 8 [] [] fun t => match x.bed.tile unit with
    | none => .fault 1 0
    | some _ => .done { t.modBed n (fun b => b.drop unit) with accesses := t.accesses.map fun a => a.dropCast n unit }
def execBindDrop (n : Fin 96) (unit : Fin 16) (s : State) : Host.Outcome State Fault Refusal := .next (bindDrop n unit s)

/-! ### LCONF, LOOP and PLY (R311, R321, R322) -/

def execLconf (n : Fin 96) (unit : Fin 16) (s : State) : Host.Outcome State Fault Refusal :=
  .next (s.pair n unit [] [] (fun _ _ => none) .lconf)
/-- LGET: an index that is no multiple of 64 or lies beyond the tile faults with CAUSE 2; a pair needs RA at most 30. -/
def execLget (n : Fin 96) (unit : Fin 16) (ra rb : Fin 32) (s : State) : Host.Outcome State Fault Refusal :=
  let i := ((s.needles[n]).sr rb).toNat
  .next (s.pair n unit [rb] [ra] (fun t _ =>
    if t.isPair ∧ ra.val = 31 then some (1, 0)
    else if i % 64 ≠ 0 ∨ t.rows * t.cols ≤ i then some (2, 0) else none) (.lget ra i))
def execLshift (n : Fin 96) (unit : Fin 16) (rb : Fin 32) (s : State) : Host.Outcome State Fault Refusal :=
  .next (s.pair n unit [rb] [] (fun _ _ => none) (.lshift rb))
def execLscale (n : Fin 96) (unit : Fin 16) (ra : Fin 32) (s : State) : Host.Outcome State Fault Refusal :=
  .next (s.pair n unit [] [ra] (fun t _ => if t.isInt then some (1, 0) else none) (.lscale ra))
/-- A channel of kind PLY with this needle at its end; any other is a misuse. -/
def plyMisuse (n : Fin 96) (c : Byte) (source : Bool) (s : State) : Option (Nat × Nat) :=
  match s.ownChan n c source with
  | some (_, x) => if x.ply then none else some (10, 0)
  | none => some (10, 0)
def execPlySend (n : Fin 96) (unit : Fin 16) (rb : Fin 32) (s : State) : Host.Outcome State Fault Refusal :=
  let c : Byte := ((s.needles[n]).sr rb).setWidth 8
  .next (s.pair n unit [rb] [] (fun _ t => plyMisuse n c true t) (.plySend c))
def execPlyAdd (n : Fin 96) (unit : Fin 16) (rb : Fin 32) (s : State) : Host.Outcome State Fault Refusal :=
  let c : Byte := ((s.needles[n]).sr rb).setWidth 8
  .next (s.pair n unit [rb] [] (fun _ t => plyMisuse n c false t) (.plyAdd c))

/-! ### The bed's own rows -/

/-- A replay takes the bed: the cast-on and the MMAs of the tile repeated at its shift (R311, R312). -/
def State.startReplay (s : State) (n : Fin 96) (unit : Fin 16) : State :=
  match (s.needles[n]).bed.tile unit with
  | some t =>
    let again := s.rerun n t
    s.modBed n fun b => { b.modTile unit (fun _ => again) with running := some unit }
  | none => s
/-- MMA_QUEUE_START (R309): the running pair has reached the loops, and the next replay or pair takes the bed. -/
def mmaQueueStart (n : Fin 96) (s : State) : State :=
  if !s.bedRuns n || !s.bedMayEnd n then s
  else match (s.needles[n]).bed.replays, (s.needles[n]).bed.queue with
    | u :: rest, _ => ((s.modBed n fun b => { b with running := none, replays := rest }).startReplay n u).settleBed n
    | [], [] => (s.modBed n fun b => { b with running := none }).settleBed n
    | [], (u, m, fa, fb, c) :: rest =>
      ((s.modBed n fun b => { b with running := none, queue := rest }).mmaBegin n u m fa fb c).settleBed n
def execMmaQueueStart (n : Fin 96) (s : State) : Host.Outcome State Fault Refusal := .next (mmaQueueStart n s)
/-- CONFIRMATION_TEST (R311, R336): a tile with a sticky bit is discarded and repeated at the next shift, which occupies the
bed (R312), and the eighth is confirmed saturated. -/
def confirmationTest (n : Fin 96) (unit : Fin 16) (s : State) : State :=
  let s : State := if s.bedRuns n ∧ s.bedMayEnd n ∧ (s.needles[n]).bed.running = some unit then s.modBed n fun b => { b with running := none } else s
  match (s.needles[n]).bed.tile unit with
  | none => s
  | some t =>
    if !s.bedRuns n || !t.isInt || !t.closed || t.confirmed || decide (t.due ≠ 0) || !(s.needles[n]).bed.settled unit then s
    else
      let sticky := t.elems.any loopSticky
      if sticky ∧ t.shift < 8 then
        let s : State := s.modBed n fun b => b.modTile unit fun t => { t with shift := t.shift + 1, elems := [] }
        if (s.needles[n]).bed.running.isNone then s.startReplay n unit
        else s.modBed n fun b => { b with replays := b.replays ++ [unit] }
      else
        let s : State := s.modBed n fun b => b.modTile unit fun y => { y with confirmed := true, satEx := sticky }
        (if sticky then s.satNote n else s).settleBed n
def execConfirmationTest (n : Fin 96) (unit : Fin 16) (s : State) : Host.Outcome State Fault Refusal :=
  .next (confirmationTest n unit s)

/-! ### The drain's card job (R316 to R320, R330, R361 to R364) -/

/-- What the card program of a drain receives for an element, as FP32 with 2^SHIFT applied. -/
def Tile.drainF (t : Tile) (i : Nat) : Word :=
  let e (j : Nat) : BitVec 48 := t.elems.getD j 0
  match t.lfmt.val with
  | 0 => enc32 (.fin (decide (loopInt (e i) < 0)) (loopInt (e i)).natAbs t.shift)
  | 1 => plusTo32 (e i)
  | _ => enc32 ((decPlus (e (2 * i))).add (decPlus (e (2 * i + 1))))
/-- The values of a row as the program receives them, flushed under FTZ (R319, R359). -/
def Tile.rowVals (t : Tile) (c : Carder) (r : Nat) : List Word := (List.range t.cols).map fun j => c.flush (t.drainF (r * t.cols + j))
/-- M_r of a row (R319, R342): the empty result where only NaNs are left. -/
def Tile.rowMax (t : Tile) (c : Carder) (ignore : Bool) (r : Nat) : Word :=
  ((pick32 true ignore ((t.rowVals c r).zipIdx.map fun x => (x.1, BitVec.ofNat 32 x.2))).map Prod.fst).getD 0xFFC00000
/-- What a drain's card job makes: the carder after, the FP32 value of every element, its codes and its scales. -/
structure DrainOut where
  carder : Carder
  vals   : List Word
  codes  : List Nat
  scales : List Byte
deriving DecidableEq, Repr
/-- The tile through the program, 64 elements at a time in row-major order. -/
def Tile.cardRun (t : Tile) (c : Carder) (p : CardProg) (r : BindRec) (seg : Nat) : DrainOut :=
  let j0 := t.cols * ((if r.stride = 0 then r.dst else r.dst % r.stride) / seg)
  let int : Bool := t.isInt && p.keepInt
  let x := (List.range (t.rows * t.cols)).map fun i =>
    (if int then (t.elems.getD i 0).setWidth 32 else c.flush (t.drainF i),
     LaneAt.mk (j0 + i % t.cols) (i / t.cols) (if r.fuse.val = 2 then t.rowMax c r.ignoreNan (i / t.cols) else 0))
  (chunksOf 64 x.length x).foldl (fun (a : DrainOut) v =>
    let y := a.carder.program p t.shift (v.map Prod.snd) ⟨int, v.map Prod.fst⟩
    let o := y.1.output p y.2
    ⟨o.1, a.vals ++ y.2.x.map (laneF32 y.2.int), a.codes ++ o.2.1, a.scales ++ o.2.2⟩) ⟨c, [], [], []⟩
/-- A tile passed on unchanged (R316). -/
def Tile.passBytes (t : Tile) : List Byte :=
  t.elems.flatMap fun w => leBytes 4 (if t.isInt then w.setWidth 32 else plusTo32 w).toNat
/-- The pair PROMOTE adds for an element of a tile passed unchanged (R318, R328, R330). -/
def Tile.promotePair (t : Tile) (i : Nat) : Word × Word :=
  if t.isInt then (t.drainF i, 0) else splitPair (decPlus (t.elems.getD i 0))
/-- S_r: the sum of a row's values in ascending column order (R319). -/
def rowSum (l : List Word) : Word :=
  match l with
  | [] => 0
  | a :: l => l.foldl add32 a
/-- The side record (R320). -/
def Tile.sideRecord (t : Tile) (c : Carder) (r : BindRec) (vals : List Word) : List Byte :=
  [t.shiftByte, BitVec.ofNat 8 t.lfmt.val] ++ leBytes 2 t.rows ++ leBytes 4 0 ++
  if r.fuse.val = 0 then [] else (List.range t.rows).flatMap fun i =>
    leBytes 4 (t.rowMax c r.ignoreNan i).toNat ++
    leBytes 4 (if r.fuse.val = 2 then rowSum ((vals.drop (i * t.cols)).take t.cols) else 0).toNat
/-- The writes of a drain, by address (R316, R318, R320, R364): the rows, the separate scales and the side record; with PROMOTE
the pairs to add. -/
def Tile.drainOps (t : Tile) (n : Fin 96) (r : BindRec) (p : Option CardProg) (o : DrainOut) (side : List Byte) : List (Nat × Nat × AccOp) :=
  let row (i : Nat) : Nat := ownAddr n (r.dst + i * r.stride)
  let bytes (a : Nat) (l : List Byte) : Nat × Nat × AccOp := (a, l.length, .write (l.map some))
  let rows := List.range t.rows
  let main : List (Nat × Nat × AccOp) :=
    if r.promote then rows.map fun i => (row i, 8 * t.cols, .promote ((List.range t.cols).map fun c => match p with
      | some _ => (BitVec.ofNat 32 (o.codes.getD (i * t.cols + c) 0), 0)
      | none => t.promotePair (i * t.cols + c)))
    else match p with
      | none =>
        let w := t.cols * (if t.isPair then 8 else 4)
        rows.map fun i => bytes (row i) (slice t.passBytes (i * w) w)
      | some p =>
        let blocks := if p.outScheme = 0 then 0 else t.cols / blockLen p.outScheme
        (rows.map fun i =>
          let e := packCodes (fmtWidth p.outFmt) ((o.codes.drop (i * t.cols)).take t.cols)
          let sc := if p.sep then [] else (o.scales.drop (i * blocks)).take blocks
          bytes (row i) (padMult 64 (e ++ sc))) ++
        (if p.sep then (List.range blocks).map fun b =>
          bytes (ownAddr n ((r.dst : Int) + p.scaleOff).toNat + b * t.rows) (rows.map fun i => o.scales.getD (i * blocks + b) 0)
         else [])
  main ++ (if r.side then [bytes (ownAddr n r.sideAt) side] else [])
/-- An access of a drain: it waits at its bank in the DRAIN group (R260). -/
def State.drainAccess (s : State) (n : Fin 96) (unit : Fin 16) (a : Nat) (op : AccOp) : State :=
  let x : Access := ⟨s.nextAccess, .needle n, .bank (skeinOf n) (bankOf a), .drain, a, op, .drain unit, none, 0, true, false⟩
  { s.useId with accesses := s.accesses ++ [x] }
/-- The part of a drain's operation from an offset: of a promotion, whole pairs. -/
def AccOp.drainPart (op : AccOp) (off len : Nat) : AccOp :=
  match op with
  | .promote l => .promote ((l.drop (off / 8)).take (len / 8))
  | o => o.part off len
/-- A drain's writes put before their banks, one access for each granule: the drain is not indivisible (R330). -/
def State.drainWrite (s : State) (n : Fin 96) (unit : Fin 16) (l : List (Nat × Nat × AccOp)) : State :=
  l.foldl (fun s x => (cuts 64 x.1 x.2.1 x.2.1).foldl (fun s c =>
    s.drainAccess n unit c.1 (x.2.2.drainPart (c.1 - x.1) c.2)) s) s
/-- A drain's card job: the oldest one of its carder. -/
def State.drainCard (s : State) (k : Fin 16) (m : Fin 2) (n : Fin 96) (unit : Fin 16) : State :=
  let s : State := s.modCarder k m fun c => { c with jobs := c.jobs.filter fun j => decide (j ≠ .drain n unit) }
  match (s.needles[n]).bed.drains.find? fun d => decide (d.tile.unit = unit) && !d.carded with
  | none => s
  | some d =>
    let t := d.tile
    let r := d.bind
    let c := ((s.skeins[k]).carders[m]).begin
    let p : Option CardProg := if r.slot = 0xFF then none else some (cardProg c.slots[Fin.ofNat 16 r.slot.toNat])
    let o : DrainOut := match p with
      | some p => t.cardRun c p r (segOf (rowOut t (some p) r.promote))
      | none => ⟨c, (List.range (t.rows * t.cols)).map fun i => c.flush (t.drainF i), [], []⟩
    let s : State := (s.modCarder k m fun _ => o.carder).drainWrite n unit (t.drainOps n r p o (t.sideRecord c r o.vals))
    s.modBed n fun b => { b with drains := b.drains.map fun y =>
      if y.tile.unit = unit ∧ !y.carded then { y with carded := true } else y }
/-- Whether writes of a drain are still to be served. -/
def State.drainDue (s : State) (n : Fin 96) (unit : Fin 16) : Bool :=
  s.accesses.any fun a => a.live && decide (a.who = .needle n ∧ a.dest = .drain unit)
/-- DRAIN_DONE (R316, R320): the last write of a drain is acknowledged; its spare copy is free. A drain that has started
finishes before the save of a hold (R323). -/
def drainDone (n : Fin 96) (unit : Fin 16) (s : State) : State :=
  match (s.needles[n]).bed.drains.find? fun d => decide (d.tile.unit = unit) && d.carded with
  | none => s
  | some _ =>
    if !s.powered (skeinOf n) || s.tripped || s.drainDue n unit then s
    else
      let s : State := s.modBed n fun b => { b with drains := b.drains.filter fun y => !(decide (y.tile.unit = unit) && y.carded) }
      match (s.needles[n]).wait with
      | .spare u (.bind r) => s.doBind n u r
      | _ => s.settleFence n
def execDrainDone (n : Fin 96) (unit : Fin 16) (s : State) : Host.Outcome State Fault Refusal := .next (drainDone n unit s)

end Sys2Proof.Machine
end

