-- ==== Sys2Proof/Machine/Distaff.lean ====
section
/-! DEFINITION. The distaff cores (15): control registers and traps of the privileged architecture, accesses in a core's
scope with the cluster's caches, standard instructions by their effect (R390; log 14), the custom-0 instructions (R396,
R397), and flag replies (09 R249). -/
namespace Sys2Proof.Machine
open Sys2Proof

/-! ### Control and status registers (R390, R398, R401) -/

/-- A stored CSR; one never written reads 0 (R394). -/
def Distaff.raw (c : Distaff) (k : Nat) : DWord := ((c.csrs.find? fun x => decide (x.1 = k)).map Prod.snd).getD 0
def Distaff.setRaw (c : Distaff) (k : Nat) (v : DWord) : Distaff :=
  let rest := c.csrs.filter fun x => decide (x.1 ≠ k)
  { c with csrs := if v = 0 then rest else rest ++ [(k, v)] }
/-- Bits of mstatus that sstatus shows. -/
def sstatusMask : DWord := 0x80000003000DE762
/-- mip: the stored bits, and the external interrupt an enabled pending line raises (R401). -/
def Distaff.mip (c : Distaff) : DWord :=
  if c.irqPending &&& c.irqEnable = 0 then c.raw 0x344 else setBit (c.raw 0x344) (if c.irqToM then 11 else 9)
/-- A CSR read. The time CSR counts 10 ns steps. -/
def State.dstCsr (s : State) (d : Fin 4) (k : Nat) : DWord :=
  let c := s.distaffs[d]
  match k with
  | 0x800 => if c.granted.isSome then c.draft.setWidth 64 else 0
  | 0xCC0 => (mkW [(0, 3, (c.granted.map Fin.val).getD 0), (3, 1, b2n c.granted.isSome)]).setWidth 64
  | 0xCC1 => s.tick.count
  | 0xC01 => s.deviceTime
  | 0x100 => c.raw 0x300 &&& sstatusMask
  | 0x104 => c.raw 0x304 &&& c.raw 0x303
  | 0x144 => c.mip &&& c.raw 0x303
  | 0x344 => c.mip
  | _ => c.raw k
/-- Bits of a word replaced under a mask. -/
def merge (m old new : DWord) : DWord := (old &&& ~~~m) ||| (new &&& m)
/-- A CSR written. -/
def Distaff.setCsr (c : Distaff) (k : Nat) (v : DWord) : Distaff :=
  match k with
  | 0x800 => if c.granted.isSome then { c with draft := v.setWidth 32 } else c
  | 0xCC0 => c
  | 0xCC1 => c
  | 0xC01 => c
  | 0x100 => c.setRaw 0x300 (merge sstatusMask (c.raw 0x300) v)
  | 0x104 => c.setRaw 0x304 (merge (c.raw 0x303) (c.raw 0x304) v)
  | 0x144 => c.setRaw 0x344 (merge (c.raw 0x303) (c.raw 0x344) v)
  | _ => c.setRaw k v
def Distaff.setX (c : Distaff) (rd : Fin 32) (v : DWord) : Distaff := if rd = 0 then c else { c with x := c.x.set rd v }
def Distaff.getX (c : Distaff) (rs : Fin 32) : DWord := if rs = 0 then 0 else c.x[rs]

/-! ### Traps (R390, R402) -/

/-- The handler's address: vectored for an interrupt. -/
def tvec (base cause : DWord) : DWord :=
  if base.getLsbD 0 ∧ cause.getLsbD 63 then (base &&& ~~~3) + 4 * (clrBit cause 63) else base &&& ~~~3
/-- A trap taken at the present pc, into supervisor or machine mode (Privileged Architecture 1.12). -/
def Distaff.trap (c : Distaff) (toS : Bool) (cause tval : DWord) : Distaff :=
  let ms := c.raw 0x300
  if toS then
    let ms := putBit (clrBit (putBit ms 5 (ms.getLsbD 1)) 1) 8 (decide (c.mode ≠ 0))
    let c := (((c.setRaw 0x300 ms).setRaw 0x141 c.pc).setRaw 0x142 cause).setRaw 0x143 tval
    { c with pc := tvec (c.raw 0x105) cause, mode := 1, wait := .none, st := .running }
  else
    let ms := clrBit (putBit ms 7 (ms.getLsbD 3)) 3
    let ms := merge 0x1800 ms (c.mode.setWidth 64 <<< 11)
    let c := (((c.setRaw 0x300 ms).setRaw 0x341 c.pc).setRaw 0x342 cause).setRaw 0x343 tval
    { c with pc := tvec (c.raw 0x305) cause, mode := 3, wait := .none, st := .running }
/-- An exception of the present instruction: delegated by medeleg from supervisor and user mode. -/
def Distaff.exception (c : Distaff) (cause : Nat) (tval : DWord) : Distaff :=
  c.trap ((c.raw 0x302).getLsbD cause && decide (c.mode ≠ 3)) (BitVec.ofNat 64 cause) tval
/-- MRET and SRET. -/
def Distaff.mret (c : Distaff) : Distaff :=
  let ms := c.raw 0x300
  let mpp : BitVec 2 := BitVec.ofNat 2 (fld ms 12 11)
  let ms := setBit (putBit ms 3 (ms.getLsbD 7)) 7
  let ms := ms &&& ~~~(0x1800 : DWord)
  let ms := if mpp = 3 then ms else clrBit ms 17
  { c.setRaw 0x300 ms with mode := mpp, pc := c.raw 0x341 }
def Distaff.sret (c : Distaff) : Distaff :=
  let ms := c.raw 0x300
  let spp := ms.getLsbD 8
  let ms := clrBit (clrBit (setBit (putBit ms 1 (ms.getLsbD 5)) 5) 8) 17
  { c.setRaw 0x300 ms with mode := if spp then 1 else 0, pc := c.raw 0x141 }
/-- A refused access (R402): the ACCESS line, its address, BAD_ACCESS, and the exception. -/
def State.coreRefused (s : State) (d : Fin 4) (cause addr : Nat) : State :=
  let s : State := match s.distaffs[d].granted with
    | some i => s.swStatus i 5
    | none => s
  s.modDst d fun c =>
    { c with irqPending := setBit c.irqPending 18, faultAddr := BitVec.ofNat 64 addr }.exception cause (BitVec.ofNat 64 addr)
/-- Uncorrectable data (R402, R210): MEDIA_ERROR to the KNIT, and a load access fault, or a store access fault of a write. -/
def State.corePoisoned (s : State) (d : Fin 4) (cause addr : Nat) : State :=
  (s.mediaError s.distaffs[d].granted addr).modDst d fun c =>
    { c with irqPending := setBit c.irqPending 18, faultAddr := BitVec.ofNat 64 addr }.exception cause (BitVec.ofNat 64 addr)

/-! ### The cluster's caches (R391, R392, R400) -/

/-- Whether an address lies on the pages of a distaff-owned ring. -/
def State.onRing (s : State) (a : Nat) : Bool :=
  let hit (base size : Nat) : Bool := decide (base / pageSize ≤ a / pageSize ∧ a / pageSize ≤ (base + size - 1) / pageSize)
  (allFin 16).any fun i =>
    (s.sqs[i].distaffOwned && decide (s.sqs[i].fsm.st ≠ .off) && hit s.sqs[i].base.toNat (64 * ringSize s.sqs[i].cfg)) ||
    (s.cqs[i].distaffOwned && decide (s.cqs[i].fsm.st ≠ .off) && hit s.cqs[i].base.toNat (64 * ringSize s.cqs[i].cfg))
/-- The cacheable set of a core (R392). -/
def State.cacheable (s : State) (d : Fin 4) (a : Nat) : Bool :=
  decide (s.region a = .stack) && match s.distaffs[d].granted with
    | some i => decide ((((s.swatches[i]).winAt a 1).map Window.kind) = some 0) && !s.inKv i a && !s.onRing a
    | none => (match s.pageSt (pageOf a) with
      | .hostHeld _ => true
      | _ => false)
/-- A line written back. -/
def State.writeBack (s : State) (l : CacheLine) : State := if l.dirty then s.put l.addr (l.data.map some) else s
/-- An eviction the caches may make at any time: which line, if any, is free (R400; log 36). -/
def State.evict (s : State) : State :=
  let w := s.freeVal.toNat
  let s : State := s.useFree
  match s.cache[w / 2 % (s.cache.length + 1)]? with
  | some l => if w % 2 = 1 then { s.writeBack l with cache := s.cache.filter fun x => decide (x.addr ≠ l.addr) } else s
  | none => s
/-- Lines of the set of the L2 an address falls in: 1 MiB of 64-byte lines, 16 ways, so 1,024 sets (R3, R391; log 157). -/
def State.cacheSet (s : State) (base : Nat) : List CacheLine :=
  s.cache.filter fun l => decide (l.addr / 64 % 1024 = base / 64 % 1024)
/-- A way of a full set freed: which line goes is a free value (log 157). -/
def State.makeRoom (s : State) (base : Nat) : State :=
  let ways := s.cacheSet base
  if ways.length < 16 then s
  else match ways[s.freeVal.toNat % ways.length]? with
    | some l => { (s.useFree).writeBack l with cache := s.cache.filter fun x => decide (x.addr ≠ l.addr) }
    | none => s
/-- A line present, filled from memory where it was not. -/
def State.fill (s : State) (base : Nat) : State × CacheLine :=
  match s.cache.find? fun l => decide (l.addr = base) with
  | some l => (s, l)
  | none =>
    let s : State := s.makeRoom base
    let l : CacheLine := ⟨base, memRead s.mem base 64, false⟩
    ({ s with cache := s.cache ++ [l] }, l)
/-- A read of a cacheable range within a line. -/
def State.cacheRead (s : State) (a len : Nat) : State × Option (List Byte) :=
  let s : State := s.evict
  let base := a / 64 * 64
  if (s.cache.all fun l => decide (l.addr ≠ base)) && s.anyBad base 64 then
    (s, if s.anyBad a len then none else some (memRead s.mem a len))
  else
    let r := s.fill base
    (r.1, some (slice r.2.data (a - base) len))
/-- A write of one: a line that cannot be filled is written through. -/
def State.cacheWrite (s : State) (a : Nat) (d : List Byte) : State :=
  let s : State := s.evict
  let base := a / 64 * 64
  if (s.cache.all fun l => decide (l.addr ≠ base)) && s.anyBad base 64 then s.put a (d.map some)
  else
    let r := s.fill base
    let l : CacheLine := { r.2 with data := overlay r.2.data (a - base) d, dirty := true }
    { r.1 with cache := r.1.cache.map fun x => if x.addr = base then l else x }

/-! ### Accesses of a core (R382, R387, R393) -/

/-- What a core's access gives; one held back by an edge carder waits (R366). -/
inductive CoreAns
  | bytes (l : List Byte)
  | sent
  | refused
  | bad
  | busy
deriving DecidableEq, Repr
/-- A view's answer, and a check point's. -/
def coreOfView : ViewAns → CoreAns
  | .sent => .sent
  | .off => .refused
  | .refused => .refused
  | .bad => .bad
  | .busy => .busy
/-- One piece within a 64-byte granule: a read, or a write of some bytes. -/
def State.corePiece (s : State) (d : Fin 4) (a len : Nat) (w : Option (List Byte)) (dest : Dest) (pc : Nat) : State × CoreAns :=
  let c := s.distaffs[d]
  let need : Need := if w.isSome then .write else .read
  let write : Bool := w.isSome
  /- an address that has been translated and checked -/
  let go (s : State) (b : Nat) (i : Option (Fin 8)) : State × CoreAns :=
    match s.region b, s.portOf b with
    | _, none => (s, .refused)
    | .twin, some p =>
      let op : AccOp := match w with
        | some x => .write (x.map some)
        | none => .read len
      (s.sendAccess (.distaff d) p (b - twinBase) b op dest (s.classOf i) pc, .sent)
    | _, _ =>
      (match w with
      | some x => if s.cacheable d a then (s.cacheWrite b x, .bytes [])
        else if s.writeBad b len then (s.maskFail (s.firstBad b len), .bad) else (s.put b (x.map some), .bytes [])
      | none =>
        if s.cacheable d a then (match s.cacheRead b len with
          | (t, some l) => (t, .bytes l)
          | (t, none) => (t, .bad))
        else (s, if s.anyBad b len then .bad else .bytes (memRead s.mem b len)))
  if 2 ^ 48 ≤ a then (s, .refused)
  else match s.region a, c.granted with
    | .nothing, _ => (s, .refused)
    | .regs, _ =>
      let here : Bool := match s.blockAt a with
        | some (b, _) => !s.blkGone b
        | none => false
      let may : Bool := match s.blockAt a with
        | some (b, off) => s.reaches (.core d) b off write
        | none => false
      let ones : CoreAns := .bytes (if write then [] else padTo len (List.replicate (min 4 len) 0xFF))
      if write ∧ wrId c.draft ≠ 0 then (s, .refused)
      else if len ≠ 4 ∨ a % 4 ≠ 0 then (s, ones)
      else if !here then (s.badAcc, ones)
      else if !may then (s, .refused)
      else (match w with
        | some x => (s.regWrite (.core d) a (BitVec.ofNat 32 (leAt x 0 4)), .bytes [])
        | none => let r := s.regRead (.core d) a; (r.1, .bytes (leBytes 4 r.2.toNat)))
    | .store k, some i =>
      if !(s.swatches[i]).covers k ∨ (write ∧ wrId c.draft ≠ 0) then (s, .refused)
      else (match w with
        | some x => (s.put a (x.map some), .bytes [])
        | none => (s, if s.anyBad a len then .bad else .bytes (memRead s.mem a len)))
    | .store _, none => (s, .refused)
    | .views, some i =>
      let p : Fin 10 := Fin.ofNat 10 ((a - viewBase) / 0x100000000)
      let v : Fin 4 := Fin.ofNat 4 ((a - viewBase) / 0x40000000)
      let off := (a - viewBase) % 0x40000000
      let r := match w with
        | some x => s.viewWrite i c.draft (.distaff d) p v off x pc
        | none => s.viewRead i c.draft (.distaff d) p v (off / 64 * 64) (off % 64) len dest pc
      (r.1, coreOfView r.2)
    | .views, none => (s, .refused)
    | _, some i =>
      let r := s.spoolCheck i c.draft a len need
      (match r.2 with
      | .ok b => go r.1 b (some i)
      | .bad => (s, .bad)
      | .refused => (s, .refused))
    | .twin, none => go s a none
    | _, none => (match s.hostCheck a len write with
      | .ok b => go s b none
      | .bad => (s, .bad)
      | .refused => (s, .refused))
/-- A read: all its bytes, or the first answer that is none. -/
def State.coreRead (s : State) (d : Fin 4) (a len : Nat) (dest : Nat → Dest) (pc : Nat) : State × CoreAns :=
  (cuts 64 a len len).foldl (fun (r : State × CoreAns) x => match r.2 with
    | .refused => r
    | .bad => r
    | .busy => r
    | .sent => (match r.1.corePiece d x.1 x.2 none (dest (x.1 - a)) pc with
      | (t, .bytes _) => (t, .sent)
      | q => q)
    | .bytes l => (match r.1.corePiece d x.1 x.2 none (dest (x.1 - a)) pc with
      | (t, .bytes m) => (t, .bytes (l ++ m))
      | q => q)) (s, .bytes [])
/-- A write. Other cores' reservations of the lines end. -/
def State.coreWrite (s : State) (d : Fin 4) (a : Nat) (l : List Byte) : State × CoreAns :=
  let lost (c : Distaff) : Distaff := { c with reserved := c.reserved.filter fun r => decide (r / 64 ≠ a / 64) }
  let s : State := { s with distaffs := mapV s.distaffs fun e c => if e = d then c else lost c }
  (cuts 64 a l.length l.length).foldl (fun (r : State × CoreAns) x => match r.2 with
    | .refused => r
    | .bad => r
    | .busy => r
    | _ => r.1.corePiece d x.1 x.2 (some (slice l (x.1 - a) x.2)) .none 0) (s, .bytes [])

/-! ### Standard instructions (R390; log 14) -/

/-- Where an instruction stands after some of its effects: going on, its load under way, trapped, or not begun because an
access is held back. -/
inductive CoreSt | go | loading | trapped | held
deriving DecidableEq, Repr
/-- A 32-bit float in a 64-bit register. -/
def nanBox (w : Nat) : DWord := BitVec.ofNat 64 (0xFFFFFFFF00000000 + w % 2 ^ 32)
/-- Bytes laid over the vector registers from rd upward. -/
def Distaff.setVBytes (c : Distaff) (rd : Fin 32) (off : Nat) (l : List Byte) : Distaff :=
  { c with v := mapV c.v fun r x =>
      if rd.val ≤ r.val then
        let base := 32 * (r.val - rd.val)
        BitVec.ofNat 256 (leNat ((leBytes 32 x.toNat).zipIdx.map fun b =>
          if off ≤ base + b.2 ∧ base + b.2 < off + l.length then l.getD (base + b.2 - off) 0 else b.1))
      else x }
/-- Data delivered to a core. -/
def State.coreDeliver (s : State) (d : Fin 4) : Dest → List Byte → State
  | .xreg rd size signed, l => s.modDst d fun c => c.setX rd (loadVal size signed l)
  | .freg rd wide, l => s.modDst d fun c => { c with f := c.f.set rd (if wide then BitVec.ofNat 64 (leNat l) else nanBox (leNat l)) }
  | .xvec rd off, l => s.modDst d fun c => c.setVBytes rd off l
  | .viewOut p v, l => s.emit (.viewData p v true l)
  | _, _ => s
/-- A load of an instruction. -/
def State.coreLoad (s : State) (d : Fin 4) (addr : DWord) (len : Nat) (dest : Nat → Dest) (next : DWord) : State × CoreSt :=
  match s.coreRead d addr.toNat len dest next.toNat with
  | (t, .bytes l) => (t.coreDeliver d (dest 0) l, .go)
  | (t, .sent) => (t, .loading)
  | (t, .refused) => (t.coreRefused d 5 addr.toNat, .trapped)
  | (t, .bad) => (t.corePoisoned d 5 addr.toNat, .trapped)
  | (_, .busy) => (s, .held)
/-- A store of one. -/
def State.coreStore (s : State) (d : Fin 4) (addr : DWord) (l : List Byte) : State × CoreSt :=
  match s.coreWrite d addr.toNat l with
  | (t, .refused) => (t.coreRefused d 7 addr.toNat, .trapped)
  | (t, .bad) => (t.corePoisoned d 7 addr.toNat, .trapped)
  | (_, .busy) => (s, .held)
  | (t, _) => (t, .go)
/-- The value an atomic memory instruction leaves. -/
def amoValue (k : AmoKind) (wide : Bool) (old v : Nat) : Nat :=
  let n := if wide then 64 else 32
  let a := old % 2 ^ n
  let b := v % 2 ^ n
  let sg (x : Nat) : Int := if x < 2 ^ (n - 1) then (x : Int) else (x : Int) - ((2 ^ n : Nat) : Int)
  match k with
  | .swap => b
  | .add => (a + b) % 2 ^ n
  | .xor => a ^^^ b
  | .and => a &&& b
  | .or => a ||| b
  | .min => if sg b < sg a then b else a
  | .max => if sg a < sg b then b else a
  | .minu => min a b
  | .maxu => max a b
/-- Bytes of a size code. -/
def szOf (wide : Bool) : Nat := if wide then 3 else 2
/-- An atomic memory instruction: a twin address or a view cannot serve one. -/
def State.coreAmo (s : State) (d : Fin 4) (rd : Fin 32) (wide : Bool) (k : AmoKind) (addr v : DWord) : State × CoreSt :=
  let n := 2 ^ szOf wide
  if s.region addr.toNat = .twin ∨ s.region addr.toNat = .views then (s.coreRefused d 7 addr.toNat, .trapped)
  else match s.coreRead d addr.toNat n (fun _ => .none) 0 with
    | (t, .bytes l) => (match t.coreStore d addr (leBytes n (amoValue k wide (leNat l) v.toNat)) with
      | (u, .go) => (u.modDst d fun c => c.setX rd (loadVal (szOf wide) true l), .go)
      | q => q)
    | (t, .bad) => (t.corePoisoned d 7 addr.toNat, .trapped)
    | (t, _) => (t.coreRefused d 7 addr.toNat, .trapped)
/-- One effect. -/
def State.coreOp (s : State) (d : Fin 4) (next : DWord) : DstOp → State × CoreSt
  | .writeX rd v => (s.modDst d fun c => c.setX rd v, .go)
  | .writeF rd v => (s.modDst d fun c => { c with f := c.f.set rd v }, .go)
  | .writeV rd v => (s.modDst d fun c => { c with v := c.v.set rd v }, .go)
  | .writeCsr k v => (s.modDst d fun c => c.setCsr k.toNat v, .go)
  | .swapCsr rd k v => (s.modDst d fun c => (c.setX rd (s.dstCsr d k.toNat)).setCsr k.toNat v, .go)
  | .load rd size signed addr => s.coreLoad d addr (2 ^ size.val) (fun _ => .xreg rd size.val signed) next
  | .loadF rd wide addr => s.coreLoad d addr (2 ^ szOf wide) (fun _ => .freg rd wide) next
  | .loadV rd off addr len => s.coreLoad d addr len (fun o => .xvec rd (off + o)) next
  | .store size addr v => s.coreStore d addr (leBytes (2 ^ size.val) v.toNat)
  | .storeV addr l => s.coreStore d addr l
  | .amo rd wide k addr v => s.coreAmo d rd wide k addr v
  | .lr rd wide addr =>
    (s.modDst d fun c => { c with reserved := some addr.toNat }).coreLoad d addr (2 ^ szOf wide) (fun _ => .xreg rd (szOf wide) true) next
  | .sc rd wide addr v =>
    let held : Bool := decide (s.distaffs[d].reserved = some addr.toNat)
    let s : State := s.modDst d fun c => { c with reserved := none }
    if held then (match s.coreStore d addr (leBytes (2 ^ szOf wide) v.toNat) with
      | (t, .go) => (t.modDst d fun c => c.setX rd 0, .go)
      | q => q)
    else (s.modDst d fun c => c.setX rd 1, .go)
  | .fetchRefused addr => (s.coreRefused d 1 addr.toNat, .trapped)
  | .trap toS cause tval => (s.modDst d fun c => c.trap toS cause tval, .trapped)
  | .mret => (s.modDst d fun c => { c.mret with retired := c.retired + 1 }, .trapped)
  | .sret => (s.modDst d fun c => { c.sret with retired := c.retired + 1 }, .trapped)
/-- A core's access still owed to an instruction. -/
def Dest.isCore : Dest → Bool
  | .xreg _ _ _ => true
  | .freg _ _ => true
  | .xvec _ _ => true
  | .bell _ => true
  | .view _ _ _ _ _ _ _ _ d => d.isCore
  | _ => false
/-- Whether a core may execute: running with no load under way, and its swatch not Held. -/
def State.coreRuns (s : State) (d : Fin 4) : Bool :=
  let c := s.distaffs[d]
  decide (c.st = .running) && !s.tripped &&
  !(s.accesses.any fun a => a.live && decide (a.who = .distaff d) && a.dest.isCore) &&
  match c.granted with
  | some i => decide ((s.swatches[i]).st ≠ .held)
  | none => true
/-- Whether any access of a core is outstanding. -/
def State.coreBusy (s : State) (d : Fin 4) : Bool := s.accesses.any fun a => a.live && decide (a.who = .distaff d)
/-- An instruction retired, and the boundary after it (R405, R406). -/
def Distaff.retire (c : Distaff) (next : DWord) : Distaff :=
  { c with pc := next, retired := c.retired + 1, wait := .none, st := .running }.haltDone
/-- DISTAFF_INSTRUCTION: the effects in order; a trap ends them. An interrupt is a trap taken while the core waits
(R397). -/
def distaffInstruction (d : Fin 4) (next : DWord) (ops : List DstOp) (s : State) : State :=
  let waiting : Bool := decide (s.distaffs[d].st = .waiting)
  let s0 : State := if waiting then (match ops with
    | [.trap toS cause tval] => s.modDst d fun c => c.trap toS cause tval
    | _ => s) else s
  if waiting ∨ !s.coreRuns d then s0
  else
    let r := ops.foldl (fun (r : State × CoreSt) o =>
      if r.2 = .trapped ∨ r.2 = .held then r
      else
        let q := r.1.coreOp d next o
        (q.1, if r.2 = .loading ∧ q.2 = .go then .loading else q.2)) (s, .go)
    match r.2 with
    | .go => r.1.modDst d fun c => c.retire next
    | .loading => r.1
    | .trapped => r.1.modDst d Distaff.haltDone
    | .held => s
def execDistaffInstruction (d : Fin 4) (nextPc : DWord) (ops : List DstOp) (s : State) : Host.Outcome State Fault Refusal :=
  .next (distaffInstruction d nextPc ops s)
/-- A request of a core answered: its load retires with the last of its data. -/
def State.finishCore (s : State) (d : Fin 4) (a : Access) (err : Option Nat) (l : List Byte) : State :=
  let s : State := s.dropAccess a.id
  let bell : Option (Fin 32) := match a.dest with
    | .bell rd => some rd
    | _ => none
  if !a.live then s.viewLoads
  else if bell.isSome then
    s.modDst d fun c => (c.setX (bell.getD 0) (BitVec.ofNat 64 (b2n err.isSome))).retire (BitVec.ofNat 64 a.pc)
  else match err with
    | some e =>
      let cause := if a.op.isRead then 5 else 7
      let s : State := s.viewCut a.dest
      (if e = 5 then s.corePoisoned d cause a.addr else s.coreRefused d cause a.addr).viewLoads
    | none =>
      let s : State := match s.viewPart a.dest l with
        | (t, some x) => t.coreDeliver d x.1 x.2
        | (t, none) => t
      let s : State := s.viewLoads
      if a.dest.isCore && !(s.accesses.any fun x => x.live && decide (x.who = .distaff d) && x.dest.isCore) then
        s.modDst d fun c => c.retire (BitVec.ofNat 64 a.pc)
      else s

/-! ### Custom-0 instructions (R396, R397) -/

/-- A custom-0 instruction: illegal in user mode without UCUSTOM. -/
def State.custom (s : State) (d : Fin 4) (f : State → State) : State :=
  let c := s.distaffs[d]
  if !s.coreRuns d then s
  else if c.mode = 0 ∧ !c.ucustom then s.modDst d fun c => (c.exception 2 0).haltDone
  else f s
/-- rd written, and the instruction retired. -/
def State.coreDone (s : State) (d : Fin 4) (rd : Fin 32) (v : DWord) : State :=
  s.modDst d fun c => (c.setX rd v).retire (c.pc + 4)
/-- Whether the doorbell of a core granted to swatch i of a die reaches a ring (R106, R116, R118). -/
def State.bellFor (s : State) (twin : Bool) (i : Nat) (r : RingId) : Bool :=
  let mine : Bool := match r with
    | .sq k => s.sqs[k].distaffOwned && decide (s.sqs[k].scope = i ∧ s.sqs[k].cfg.getLsbD 12 = twin)
    | .cq k => s.cqs[k].distaffOwned && decide (fld s.cqs[k].cfg 28 25 = i ∧ s.cqs[k].onTwin = twin)
  mine && decide ((s.ringFsm r).st = .on ∨ (s.ringFsm r).st = .rising)
/-- Whether a core's doorbell reaches a ring of its own die. -/
def State.bellTaken (s : State) (d : Fin 4) (r : RingId) : Bool :=
  (s.distaffs[d].granted.map fun i => s.bellFor false i.val r).getD false
/-- DST.DOORBELL: it waits for the core's stores, here by having no effect until they are acknowledged. A core of a twin
secondary rings the primary's mailbox over the TWIN port, and its rd waits for the answer (R106; log 141). -/
def dstDoorbell (d : Fin 4) (rd rs1 rs2 : Fin 32) (s : State) : State :=
  let c := s.distaffs[d]
  s.custom d fun s =>
    if s.coreBusy d then s
    else
      let n := fld (c.getX rs1) 4 0
      let r : RingId := if n < 16 then .sq (Fin.ofNat 16 n) else .cq (Fin.ofNat 16 n)
      match s.fuses.twin && !s.fuses.primary, s.twinPort, c.granted with
      | true, some p, some i =>
        s.sendAccess (.distaff d) p (0x10031000 + 4 * n) (twinBase + 0x10031000 + 4 * n)
          (.regWrite (BitVec.ofNat 32 (fld (c.getX rs2) 15 0 + 0x10000 * i.val))) (.bell rd) (s.classOf (some i)) (c.pc + 4).toNat true
      | _, _, _ =>
      if s.bellTaken d r then (s.ringBell r ((c.getX rs2).setWidth 16)).coreDone d rd 0
      else s.badAcc.coreDone d rd 1
def execDstDoorbell (d : Fin 4) (rd rs1 rs2 : Fin 32) (s : State) : Host.Outcome State Fault Refusal :=
  .next (dstDoorbell d rd rs1 rs2 s)
/-- What a TICKWAIT returns: TICK_COUNT, with bit 63 for a frog at the tick that ended it. -/
def tickResult (count : DWord) (frogged : Bool) : DWord := putBit count 63 frogged
/-- DST.TICKWAIT. -/
def dstTickwait (d : Fin 4) (rd rs1 : Fin 32) (s : State) : State :=
  let row := (s.distaffs[d]).getX rs1
  let target : DWord := if row = 0 then s.tick.count + 1 else row
  s.custom d fun s =>
    if row ≠ 0 ∧ row.toNat ≤ s.tick.count.toNat then s.coreDone d rd s.tick.count
    else s.modDst d fun c => { c with st := .waiting, wait := .tick rd target (decide (row = 0)), frogged := false }
def execDstTickwait (d : Fin 4) (rd rs1 : Fin 32) (s : State) : Host.Outcome State Fault Refusal :=
  .next (dstTickwait d rd rs1 s)
/-- DST_TICKWAIT_RESUME. -/
def dstResume (d : Fin 4) (s : State) : State :=
  let c := s.distaffs[d]
  let held : Bool := match c.granted with
    | some i => decide ((s.swatches[i]).st = .held)
    | none => false
  match c.st, c.wait with
  | .waiting, .tick rd target _ =>
    if target.toNat ≤ s.tick.count.toNat && !held then s.coreDone d rd (tickResult s.tick.count c.frogged) else s
  | _, _ => s
def execDstTickwaitResume (d : Fin 4) (s : State) : Host.Outcome State Fault Refusal := .next (dstResume d s)
/-- DST.SWFENCE: lines of the core's cacheable set written back, and invalidated; it waits for the core's accesses. -/
def dstSwfence (d : Fin 4) (rs1 : Fin 32) (s : State) : State :=
  let w := (s.distaffs[d]).getX rs1
  s.custom d fun s =>
    if s.coreBusy d then s
    else
      let mine (l : CacheLine) : Bool := s.cacheable d l.addr
      let clean (l : CacheLine) : CacheLine := if mine l then { l with dirty := false } else l
      let t : State := if w.getLsbD 0 then (s.cache.filter mine).foldl State.writeBack s else s
      let lines := if w.getLsbD 0 then t.cache.map clean else t.cache
      let t : State := { t with cache := if w.getLsbD 1 then lines.filter fun l => !mine l else lines }
      t.modDst d fun c => c.retire (c.pc + 4)
def execDstSwfence (d : Fin 4) (rs1 : Fin 32) (s : State) : Host.Outcome State Fault Refusal := .next (dstSwfence d rs1 s)
/-- DST.FLAG: sent to the home unit once the core's earlier accesses are done; its reply retires it (R249, R399). -/
def State.coreFlag (s : State) (d : Fin 4) (rd rs1 rs2 : Fin 32) (op : FlagKind) : State :=
  let c := s.distaffs[d]
  s.custom d fun s => match c.granted with
    | none => s.modDst d fun c => (c.exception 2 0).haltDone
    | some i =>
      if s.coreBusy d then s
      else
        let home := (s.swatches[i]).home
        let h : PktHead := ⟨home, home, i, .core d, s.nextAccess⟩
        ((s.emit (.flagOp h op (Fin.ofNat 64 (fld (c.getX rs1) 5 0)) ((c.getX rs2).setWidth 32))).useId).modDst d fun c =>
          { c with st := .waiting, wait := .flag rd h.id }
def execDstFlagSet (d : Fin 4) (rd rs1 rs2 : Fin 32) (s : State) : Host.Outcome State Fault Refusal :=
  .next (s.coreFlag d rd rs1 rs2 .set)
def execDstFlagAdd (d : Fin 4) (rd rs1 rs2 : Fin 32) (s : State) : Host.Outcome State Fault Refusal :=
  .next (s.coreFlag d rd rs1 rs2 .add)
def execDstFlagWaitGe (d : Fin 4) (rd rs1 rs2 : Fin 32) (s : State) : Host.Outcome State Fault Refusal :=
  .next (s.coreFlag d rd rs1 rs2 .waitGe)
def execDstFlagWaitEq (d : Fin 4) (rd rs1 rs2 : Fin 32) (s : State) : Host.Outcome State Fault Refusal :=
  .next (s.coreFlag d rd rs1 rs2 .waitEq)
/-- An undefined custom-0 word: the illegal-instruction exception (R396). -/
def State.coreIllegal (s : State) (d : Fin 4) : State :=
  s.custom d fun s => s.modDst d fun c => (c.exception 2 0).haltDone
/-- What a custom-0 word spells (R396), nothing where its major opcode is another. -/
def distaffWord (d : Fin 4) (w : Word) (s : State) : Option (Host.Outcome State Fault Refusal) :=
  let rd : Fin 32 := Fin.ofNat 32 (fld w 11 7)
  let rs1 : Fin 32 := Fin.ofNat 32 (fld w 19 15)
  let rs2 : Fin 32 := Fin.ofNat 32 (fld w 24 20)
  if fld w 6 0 ≠ 0x0B then none
  else some <| match fld w 14 12, fld w 31 25 with
    | 0, _ => execDstDoorbell d rd rs1 rs2 s
    | 1, _ => execDstTickwait d rd rs1 s
    | 2, _ => execDstSwfence d rs1 s
    | 3, 0 => execDstFlagSet d rd rs1 rs2 s
    | 3, 1 => execDstFlagAdd d rd rs1 rs2 s
    | 3, 2 => execDstFlagWaitGe d rd rs1 rs2 s
    | 3, 3 => execDstFlagWaitEq d rd rs1 rs2 s
    | _, _ => .next (s.coreIllegal d)

/-! ### Flag replies (R249) -/

/-- A reply at its requester. -/
def State.flagAnswer (s : State) (h : PktHead) (error : Bool) (v : Word) : State :=
  match h.issuer with
  | .needle k =>
    let n := needleOf h.dst k
    (match (s.needles[n]).wait with
    | .flag rd id =>
      if id ≠ h.id then s.meshAnswer h error (leBytes 4 v.toNat)
      else if error then s.needleFault n 4 ((s.needles[n]).pc.toNat - 4) 0
      else s.wake n fun x => x.setS rd (v.setWidth 64)
    | _ => s.meshAnswer h error (leBytes 4 v.toNat))
  | .mover m => if error then s.moverFault h.dst m 4 0 else s
  | .core d =>
    (match s.distaffs[d].wait with
    | .flag rd id =>
      if id ≠ h.id ∨ s.distaffs[d].st ≠ .waiting then s
      else if error then s.coreRefused d 5 0
      else s.coreDone d rd (v.setWidth 64)
    | _ => s)
  | .firmware => s
/-- FLAG_REPLY at a router: forwarded, or taken by its requester. -/
def flagReply (r : Fin 16) (h : PktHead) (error : Bool) (v : Word) (s : State) : State :=
  s.arrive r h [h.dst] false 1 6 none (if r ≠ h.dst then s.emit (.flagReply h error v) else s.flagAnswer h error v)
def execFlagReply (at_ : Fin 16) (h : PktHead) (error : Bool) (value : Word) (s : State) :
    Host.Outcome State Fault Refusal := .next (flagReply at_ h error value s)

end Sys2Proof.Machine
end

