-- ==== Sys2Proof/Machine/Card.lean ====
section
/-! DEFINITION. The carders' rows (13): LOAD_CARD_PROGRAM (06 R159, R160; 13 R365, R366), reads and writes through a carded
view (R370), and a carder's next job (R360). -/
namespace Sys2Proof.Machine
open Sys2Proof

/-! ### Card program objects (R365) -/

/-- A well-formed record (R365). -/
def recordOk (edge : Bool) (r : List Byte) : Bool :=
  let p := cardProg r
  let ply : Bool := decide (p.inScheme = 2 ∨ p.outScheme = 2)
  progOk r && decide (leAt r 0 1 ≤ 15 ∧ leAt r 8 1 ≤ 15 ∧ leAt r 9 1 = 0 ∧ (p.t2 = true → ply = true) ∧
    (p.sep = false → p.scaleOff = 0) ∧ ¬(p.sep = true ∧ edge = true)) && p.steps.all (stepOk p.needsMax)
/-- A well-formed object of a length. -/
def cardObjOk (b : List Byte) (len : Nat) (edge : Bool) : Bool :=
  let n := leAt b 6 1
  let words := leAt b 8 2
  let base := leAt b 10 2
  decide (32 ≤ len ∧ leAt b 0 4 = 0x44524143 ∧ leAt b 4 2 = 1 ∧ n ≤ 16 ∧ leAt b 7 1 ≤ 7 ∧ words ≤ 2048 ∧ base + words ≤ 2048 ∧
    leAt b 12 4 = len) && (slice b 20 12).all (· = 0) &&
  (let r := cardRecords b n 32
   r.1.all (recordOk edge) && decide (r.2 + 4 * words = len) && decide ((r.1.map fun x => leAt x 0 1).Nodup))
/-- The edge carders an entry names. -/
def edgesOf (e : Entry) : List (Fin 10) := (allFin 10).filter fun p => (e.u 24 2).testBit p.val
/-- The skein carders an entry names. -/
def moversOf (e : Entry) : List (Fin 16 × Fin 2) :=
  (allFin 16).flatMap fun k => ((allFin 2).filter fun m => (e.u 20 4).testBit (2 * k.val + m.val)).map fun m => (k, m)
/-- A skein carder of a swatch changed: where a save holds the skein, in the save. -/
def State.modSaved (s : State) (i : Fin 8) (k : Fin 16) (m : Fin 2) (f : Carder → Carder) : State :=
  match s.saves[i] with
  | some im =>
    if s.swatches[i].saveValid then
      let x := im.skeins.map fun y => if y.1 = k then (y.1, { y.2 with carders := upd y.2.carders m f }) else y
      { s with saves := s.saves.set i (some { im with skeins := x }) }
    else s.modCarder k m f
  | none => s.modCarder k m f
/-- LOAD_CARD_PROGRAM (R159, R365): an edge carder with a job that runs is loaded when its jobs have ended (R366). -/
def cmdLoadCardProgram : Cmd where
  op := 0x302
  target := 2
  used := [(8, 18)]
  bad := fun e s =>
    (if e.u 24 2 = 0 then (if e.target.isNone then [3] else []) else (if e.target.isSome then [3] else [])) ++
    (match e.target with
     | some i => if (moversOf e).all fun x => (s.swatches[i]).covers x.1 then [] else [20]
     | none => if e.u 20 4 = 0 then [] else [20]) ++
    (if e.u 24 2 < 1024 then [] else [24])
  object := objCheck fun e _ b n => cardObjOk b n (decide (e.u 24 2 ≠ 0))
  deny := fun e s => ((edgesOf e).any fun p => s.granted 4 p.val) || (moversOf e).any fun x => s.granted 1 x.1.val
  state := fun e s => firstOf [s.devIn seLoTaBu, if e.target.isSome then s.swIn e [.cast, .held] else none]
  act := fun r e s =>
    let b := s.objRead e.sq (e.u 8 8) (e.u 16 4)
    let s : State := match e.target with
      | some i => (moversOf e).foldl (fun s x => s.modSaved i x.1 x.2 fun c => c.load b) s
      | none => s
    let s : State := (edgesOf e).foldl (fun s p => s.modEdgeCarder p fun c => { c with loads := c.loads ++ [(r, b)] }) s
    let s : State := s.inFlight r 0x302 e
    if (edgesOf e).isEmpty then s.ok r else s.viewLoads
def execLoadCardProgram (e : Entry) (s : State) : Host.Outcome State Fault Refusal :=
  .next (cmdLoadCardProgram.dispatch e s)

/-! ### Carded views (R370) -/

/-- The swatch and the draft state of a view's user. -/
def State.viewUser (s : State) : ViewUser → Option (Fin 8) × Word
  | .needle n => (s.swatchOf (skeinOf n), (s.needles[n]).draft)
  | .core d => (s.distaffs[d].granted, s.distaffs[d].draft)
/-- The agent an access of a view's user is issued by. -/
def whoOf : ViewUser → Who
  | .needle n => .needle n
  | .core d => .distaff d
/-- What a user of a view is told: a refusal or an error with what it causes; the bytes of a read follow when they have come.
An access that is held back while the carder is loaded has no effect: its user asks again (R366; log 166). -/
def State.viewTold (s : State) (u : ViewUser) (p : Fin 10) (v : Fin 4) (a : Nat) (write : Bool) (r : ViewAns) : State :=
  let fail (s : State) (cause : Nat) : State :=
    let s : State := s.emit (.viewData p v false [])
    match u with
    | .needle n => if (s.needles[n]).st = .running then s.needleFault n cause (s.needles[n]).pc.toNat a else s
    | .core d => if s.distaffs[d].st ≠ .running then s
      else if cause = 5 then s.corePoisoned d (if write then 7 else 5) a else s.coreRefused d (if write then 7 else 5) a
  match r with
  | .sent => s
  | .busy => s
  | .off => fail s 3
  | .refused => fail s 3
  | .bad => fail s 5
/-- CARD_VIEW_READ: the granule an offset lies in. -/
def cardViewRead (p : Fin 10) (v : Fin 4) (off : Nat) (u : ViewUser) (s : State) : State :=
  let g := off / 64 * 64
  let a := viewAddr p v + g
  match s.viewUser u with
  | (some i, draft) =>
    let pc := match u with
      | .needle n => (s.needles[n]).pc.toNat
      | .core _ => 0
    let r := s.viewRead i draft (whoOf u) p v g 0 64 (.viewOut p v) pc
    r.1.viewTold u p v a false r.2
  | (none, _) => s.viewTold u p v a false .refused
def execCardViewRead (port : Fin 10) (view : Fin 4) (offset : BitVec 30) (who : ViewUser) (s : State) :
    Host.Outcome State Fault Refusal := .next (cardViewRead port view offset.toNat who s)
/-- CARD_VIEW_WRITE. -/
def cardViewWrite (p : Fin 10) (v : Fin 4) (off : Nat) (u : ViewUser) (d : List Byte) (s : State) : State :=
  let a := viewAddr p v + off
  match s.viewUser u with
  | (some i, draft) =>
    let r := s.viewWrite i draft (whoOf u) p v off d 0
    r.1.viewTold u p v a true r.2
  | (none, _) => s.viewTold u p v a true .refused
def execCardViewWrite (port : Fin 10) (view : Fin 4) (offset : BitVec 30) (who : ViewUser) (data : List Byte) (s : State) :
    Host.Outcome State Fault Refusal := .next (cardViewWrite port view offset.toNat who data s)

/-! ### Jobs (R360) -/

/-- The job a carder takes: the oldest drain first, then the mover's descriptor. -/
def nextJob (l : List CardJob) : Option CardJob :=
  let drain (j : CardJob) : Bool := match j with
    | .drain _ _ => true
    | .mover _ _ => false
  (l.find? drain).or l.head?
/-- CARD_JOB. -/
def cardJob (k : Fin 16) (m : Fin 2) (s : State) : State :=
  if !s.moverRuns k then s
  else match nextJob ((s.skeins[k]).carders[m]).jobs with
    | some (.drain n unit) => s.drainCard k m n unit
    | some (.mover q x) => s.moverCard q x
    | none => s
def execCardJob (c : Fin 16) (m : Fin 2) (s : State) : Host.Outcome State Fault Refusal := .next (cardJob c m s)

end Sys2Proof.Machine
end

