-- ==== Sys2Proof/Machine/Mgmt.lean ====
section
/-! DEFINITION. Management commands: health and repair (06 R165 to R167, 09 R235), image updates and boot control (06
R148, R149, 16 R431), expert grants (05 R125 to R130, 06 R173, R174) and debug (06 R175, R176). -/
namespace Sys2Proof.Machine
open Sys2Proof

/-! ### Health (R165, R166) -/

/-- The least aging margin of the powered logical skeins (R165): 0 where none is powered. -/
def State.leastMargin (s : State) : Nat :=
  let on := s.skeinList.filter fun k => s.selv.skeinsOn.getLsbD k.val
  ((on.filterMap fun k => (s.map.skeins[k]).map fun l => fld s.rep.aging[l.phys] 7 0).min?).getD 0
/-- Ports of a state as bits. -/
def State.portMask (s : State) (st : PortSt) : Nat :=
  sumN (((allFin 10).filter fun p => s.ports[p].st = st).map fun p => 2 ^ p.val)
/-- QUERY_HEALTH (R165). -/
def cmdQueryHealth : Cmd where
  op := 0x600
  target := 0
  used := []
  act := fun r _ s =>
    (s.modRep fun x => { x with droopQuery := 0 }).ok r
      [(20, 2, s.selv.hottest.toNat), (22, 2, min 0xFFFF s.rep.droopQuery), (24, 1, s.leastMargin),
       (26, 2, s.portMask .down), (28, 2, s.portMask .degraded), (30, 2, min 0xFFFF s.rep.added)]

/-- The logical skein a physical one is. -/
def State.logSkein (s : State) (p : Fin 20) : Option (Fin 16) :=
  s.skeinList.find? fun k => (s.map.skeins[k]).map LogSkein.phys = some p
/-- Spare store rows in use of a physical skein (R166). -/
def State.spareSum (s : State) (p : Fin 20) : Nat :=
  match s.logSkein p with
  | some k => sumN (s.skeins[k].spareRows.toList.map BitVec.toNat)
  | none => sumN ((allFin 16).map fun b => s.sparesOf p b)
/-- One record of READ_MAP (R166). -/
def State.mapRecord (s : State) (p : Fin 20) : List Byte :=
  let good := s.goodNeedles p
  let mask := sumN (good.map fun j => 2 ^ j.val)
  let log := s.logSkein p
  let status := if log.isSome then 0 else if !s.skeinGood p then 2 else if !s.map.rows.getLsbD (p.val / 5) then 3 else 1
  let spare := if log.isSome then (good[6]?.map Fin.val).getD 0xFF else 0xFF
  leBytes 1 ((log.map Fin.val).getD 0xFF) ++ leBytes 1 mask ++ leBytes 1 spare ++ leBytes 1 status ++
  leBytes 2 (s.spareSum p) ++ [0, 0]
/-- The table READ_MAP writes (R166). -/
def State.mapTable (s : State) : List Byte := (allFin 20).flatMap s.mapRecord
/-- A command that writes an object before its completion (R143). -/
def State.writeOut (s : State) (r : CmdRef) (a : Nat) (bs : List Byte) (res : List (Nat × Nat × Nat)) : State :=
  if s.objOk r.sq a bs.length then (s.objWrite r.sq a bs).ok r res else s.reply r stInvalidParam 0xFE
/-- READ_MAP (R166). -/
def cmdReadMap : Cmd where
  op := 0x602
  target := 0
  used := [(8, 8)]
  act := fun r e s => s.writeOut r (e.u 8 8) s.mapTable [(20, 1, s.map.epoch.toNat)]

/-! ### The distance table (R232, R233, R235) -/

/-- Whether a port is usable: neither NONE nor DOWN (R235). -/
def State.portUsable (s : State) (p : Fin 10) : Bool :=
  decide (s.fuses.ports[p].role ≠ .none) && decide (s.ports[p].st ≠ .down)
/-- A distance record (R235). -/
def State.distRecord (s : State) (k : Fin 20) (p : Fin 10) : List Byte :=
  let d := dist2 k p
  let spur := spurPort (k.val / 5) p
  leBytes 1 (if !s.portUsable p then 0 else if spur then 1 else 2) ++ leBytes 1 d ++
  leBytes 2 ((if spur then 120 else 150) + 2 * d)
/-- The distance table (R235). -/
def State.distTable (s : State) : List Byte :=
  let ks := s.skeinList.filterMap fun k => (s.map.skeins[k]).map LogSkein.phys
  leBytes 1 s.map.epoch.toNat ++ leBytes 1 s.map.courses.toNat ++
  leBytes 2 (sumN (((allFin 10).filter s.portUsable).map fun p => 2 ^ p.val)) ++
  leBytes 2 180 ++ leBytes 2 40 ++ leBytes 2 (10 * ks.length) ++ List.replicate 6 0 ++
  ks.flatMap fun k => (allFin 10).flatMap fun p => s.distRecord k p
/-- READ_DISTANCE (R165, R235). -/
def cmdReadDistance : Cmd where
  op := 0x604
  target := 0
  used := [(8, 8)]
  act := fun r e s => s.writeOut r (e.u 8 8) s.distTable [(20, 4, s.distTable.length)]

/-- SET_REPAIR_CTRL (R165, R167). -/
def cmdSetRepairCtrl : Cmd where
  op := 0x605
  target := 0
  used := [(8, 3), (12, 4)]
  bad := fun e _ =>
    (if e.u 8 1 ≤ 1 then [] else [8]) ++ (if e.u 9 1 ≤ 1 then [] else [9]) ++ (if e.u 10 1 ≤ 1 then [] else [10]) ++
    (if e.u 9 1 = 1 ∧ (bitsN (e.u 12 4) 7 0 < bitsN (e.u 12 4) 15 8 ∨ bitsN (e.u 12 4) 31 16 = 0) then [12] else [])
  state := fun _ s => if s.rep.lock then some 2 else none
  act := fun r e s =>
    let s : State := s.modRep fun x => { x with
      autoCensus := decide (e.u 8 1 = 1)
      limits := if e.u 9 1 = 1 then BitVec.ofNat 32 (e.u 12 4) else x.limits
      lock := decide (e.u 10 1 = 1) }
    s.ok r [(20, 4, s.rep.ctrlWord.toNat), (24, 4, s.rep.limits.toNat)]

/-! ### Images (R148, R149, R431) -/

/-- FW_UPDATE (R148): verified first; FW_UPDATE_FLASH_DONE ends the write. DESIGN CHOICE (log 170): a second one while a flash
write runs is refused with DETAIL 2. -/
def cmdFwUpdate : Cmd where
  op := 7
  target := 0
  used := [(8, 1), (16, 12)]
  bad := fun e _ => (if e.u 8 1 ≤ 1 then [] else [8]) ++ (if e.u 24 4 ≤ 196608 then [] else [24])
  object := fun e s => if s.objOk e.sq (e.u 16 8) (e.u 24 4) then none else some 0xFE
  state := fun _ s =>
    if s.flash.writing.isSome then some 2
    else match s.shusPort with
      | some p => if s.portUp p then none else some 2
      | none => some 2
  res := fun e s =>
    if checkImage s.tally.svnMin (s.objRead e.sq (e.u 16 8) (e.u 24 4)) = .ok then none else some (stAuthFail, 0)
  act := fun r e s =>
    let f : Flash := { s.flash with
      writing := some (decide (e.u 8 1 = 1), s.objRead e.sq (e.u 16 8) (e.u 24 4), r) }
    { s with flash := f }.inFlight r 7 e
/-- FW_UPDATE_FLASH_DONE (R148): the read-back matched, and YD_FW_UPDATES counts; or 2 s passed, and the slot's content is
undefined (log 11). -/
def flashDone (good : Bool) (s : State) : State :=
  match s.flash.writing with
  | none => s
  | some (b, image, r) =>
    let put (l : List Byte) : Flash :=
      if b then { s.flash with slotB := l, writing := none } else { s.flash with slotA := l, writing := none }
    if good then
      { s with flash := put image }.yard 4 1 (some r) [(20, 1, (Config.imageParts image).svn.toNat)]
    else ({ s with flash := put (Config.freeBytes s.freeCtr) }.useFree).reply r stTimeout
/-- SET_BOOT_CTRL (R146, R149). LOCK above 1 is refused as out of range: a DESIGN CHOICE, R149 giving a meaning to 1 alone
(log 144). -/
def cmdSetBootCtrl : Cmd where
  op := 8
  target := 0
  used := [(8, 3)]
  bad := fun e _ =>
    (if e.u 8 1 ≤ 3 then [] else [8]) ++ (if e.u 9 1 ≤ 1 then [] else [9]) ++ (if e.u 10 1 ≤ 1 then [] else [10])
  state := fun _ s => if s.selv.bootLock then some 2 else none
  act := fun r e s =>
    let s : State := s.modSelv fun v => { v with
      order := BitVec.ofNat 2 (e.u 8 1), fullCensus := decide (e.u 9 1 = 1), bootLock := decide (e.u 10 1 = 1) }
    s.ok r [(20, 4, s.selv.bootCtrlWord.toNat)]

/-! ### Grants (R125 to R130, R173, R174) -/

/-- Whether BLOCK_ID names a block instance that is present and may be granted (R125). -/
def State.grantable (s : State) (cls inst : Nat) : Bool :=
  let shus := decide (s.fuses.shusDies ≠ 0)
  match cls with
  | 1 => decide (inst < 16) && s.skeinIn (Fin.ofNat 16 inst)
  | 2 => decide (inst < 16) && s.skeinIn (Fin.ofNat 16 inst)
  | 3 => decide (inst < 16) && s.skeinIn (Fin.ofNat 16 inst)
  | 4 => decide (inst < 10)
  | 5 => decide (inst < 4) && s.namedStacks.contains (Fin.ofNat 4 inst)
  | 6 => decide (inst < 4)
  | 7 => shus && decide (inst ≤ 48)
  | 8 => shus && decide (inst = 0)
  | 9 => shus && decide (inst = 0)
  | _ => false
/-- Whether a basic command runs on a block (R127). -/
def State.blockBusy (s : State) (cls inst : Nat) : Bool :=
  match cls with
  | 1 => swBusy s inst
  | 2 => swBusy s inst
  | 3 => swBusy s inst
  | 4 => s.jobs.any fun j => decide (j.2.1 = 0x603 ∧ (j.2.2.getD 0 0).toNat = inst)
  | 7 => decide (inst < 48) &&
      (let b := s.bobbins[Fin.ofNat 48 inst]
       b.runCmd.isSome || b.unbindCmd.isSome)
  | 9 => s.chain.search.isSome || s.chain.run.isSome || !s.chain.waiting.isEmpty
  | _ => false
where
  /-- A basic command runs on the swatch a skein lies in. Its KNIT is not one: a swatch holds a grant of its skeins while it
  knits (20, "Expert SKN grant × hard × overrun"; log 115). -/
  swBusy (s : State) (inst : Nat) : Bool :=
    match s.swatchOf (Fin.ofNat 16 inst) with
    | some i =>
      let w := s.swatches[i]
      w.holdCmd.isSome || w.restoreCmd.isSome || w.bindCmd.isSome || w.ppCmd.isSome || w.gaugeCmd.isSome
    | none => false
/-- Who issued a grant command: the swatch of the ring's scope, the target, or the host function of the ring (R104, R173;
log 18). -/
def State.issuer (s : State) (r : CmdRef) (e : Entry) : Holder :=
  let q := s.sqs[r.sq]
  if h : r.relayed = false ∧ q.scope < 8 then .swatch ⟨q.scope, h.2⟩
  else match e.target with
    | some i => .swatch i
    | none => .host (s.ringFn r.sq)
/-- The grantee EXPERT_GRANT names (R173). -/
def State.grantee (s : State) (e : Entry) : Holder :=
  match e.u 10 1, e.target with
  | 1, some i => .swatch i
  | _, _ => .host (s.ringFn e.sq)
/-- The block an entry names. -/
def grantBlock (e : Entry) : Half := BitVec.ofNat 16 (e.u 8 2)
/-- EXPERT_GRANT (R127, R173, R174, R500): GRANT_TAKES_EFFECT grants the block. -/
def cmdExpertGrant : Cmd where
  op := 0x900
  target := 3
  used := [(8, 3)]
  bad := fun e s =>
    (if s.grantable (blockCls (grantBlock e)) (blockInst (grantBlock e)) then [] else [8]) ++
    (if e.u 10 1 ≤ 1 then [] else [10])
  deny := fun e s => match s.grantOf (grantBlock e) with
    | some g => decide (g.holder ≠ s.grantee e)
    | none => false
  state := fun e s =>
    let c := blockCls (grantBlock e)
    if s.rep.run.isSome && decide (1 ≤ c ∧ c ≤ 3) then some 2
    else if s.mayHold (s.grantee e) c (blockInst (grantBlock e)) then none else some 2
  act := fun r e s =>
    if (s.grantOf (grantBlock e)).isSome then s.ok r [(20, 2, e.u 8 2)]
    else
      let g : Grant := ⟨grantBlock e, s.grantee e, some r, []⟩
      { s with grants := s.grants ++ [g] }.inFlight r 0x900 e
/-- GRANT_TAKES_EFFECT (R127): the words recorded, the block granted. A request whose block was granted meanwhile, or
whose condition no longer holds, is answered as at its dispatch. -/
def grantNow (block : Half) (s : State) : State :=
  let c := blockCls block
  let n := blockInst block
  match s.grants.find? fun g => decide (g.block = block) && g.waiting.isSome with
  | none => s
  | some g =>
    match g.waiting with
    | none => s
    | some r =>
      let drop : State := { s with grants := s.grants.filter fun x => decide (x ≠ g) }
      match s.grantOf block with
      | some h => if h.holder = g.holder then drop.ok r [(20, 2, block.toNat)] else drop.reply r stNotPermitted
      | none =>
        if s.blockBusy c n then s
        else if !s.mayHold g.holder c n then drop.reply r stConflict 2
        else
          let saved := (rwWords c n).map fun a => (a, s.peekAt a)
          let s : State := { drop with grants := drop.grants ++ [⟨block, g.holder, none, saved⟩] }
          (s.ok r [(20, 2, block.toNat)]).repower false
/-- EXPERT_RELEASE (R129, R174). -/
def cmdExpertRelease : Cmd where
  op := 0x901
  target := 4
  used := [(8, 2)]
  state := fun e s => if (s.grantOf (grantBlock e)).isSome then none else some 2
  act := fun r e s =>
    match s.grantOf (grantBlock e) with
    | none => s.reply r stConflict 2
    | some g =>
      if g.holder ≠ s.issuer r e then s.reply r stNotPermitted
      else ((s.endGrant g none).ok r).repower false
/-- The holder byte of QUERY_GRANT (R173). -/
def Grant.code (g : Grant) : Nat :=
  match g.holder with
  | .host f => f.val + 1
  | .swatch i => 0x10 + i.val
/-- QUERY_GRANT (R173). -/
def cmdQueryGrant : Cmd where
  op := 0x902
  target := 4
  used := [(8, 2)]
  act := fun r e s => s.ok r [(20, 1, ((s.grantOf (grantBlock e)).map Grant.code).getD 0)]

/-! ### Debug (R175, R176) -/

/-- DEBUG_ECHO (R175, R176). -/
def cmdDebugEcho : Cmd where
  op := 0xA00
  target := 0
  used := [(8, 56)]
  act := fun r e s => s.finish r (s.compose r stOk 0 0 none (e.params.toList.take 44))
/-- Entries of the log that fit a buffer, oldest first, and those that stay. -/
def logFit : List (List Byte) → Nat → List Byte × List (List Byte)
  | [], _ => ([], [])
  | x :: l, n =>
    if x.length ≤ n then
      let r := logFit l (n - x.length)
      (x ++ r.1, r.2)
    else ([], x :: l)
/-- DEBUG_READ_LOG (R175, R176): what entered the log since the last read, and how many entries were lost, is given
nowhere (log 19). -/
def cmdDebugReadLog : Cmd where
  op := 0xA01
  target := 0
  used := [(8, 12)]
  act := fun r e s =>
    let new := Config.freeBytes s.freeCtr
    let s : State := s.useFree
    let fit := logFit (s.fwLog ++ [new]) (e.u 16 4)
    let lost := s.freeVal.toNat
    let s : State := s.useFree
    if s.objOk r.sq (e.u 8 8) fit.1.length then
      ({ s with fwLog := fit.2 }.objWrite r.sq (e.u 8 8) fit.1).ok r [(20, 4, fit.1.length), (24, 4, lost)]
    else { s with fwLog := s.fwLog ++ [new] }.reply r stInvalidParam 0xFE
/-- DEBUG_READ_REG (R175, R176, R18, R25). -/
def cmdDebugReadReg : Cmd where
  op := 0xA02
  target := 0
  used := [(8, 8)]
  bad := fun e _ => if e.u 8 8 % 4 = 0 ∧ regBase ≤ e.u 8 8 ∧ e.u 8 8 < 0x20000000 then [] else [8]
  act := fun r e s =>
    let x := s.regRead .firmware (e.u 8 8)
    x.1.ok r [(20, 4, x.2.toNat)]
/-- DEBUG_SET_LOG (R175). -/
def cmdDebugSetLog : Cmd where
  op := 0xA03
  target := 0
  used := [(8, 1)]
  bad := fun e _ => if e.u 8 1 ≤ 3 then [] else [8]
  act := fun r e s => (s.modIo fun i => { i with logLevel := BitVec.ofNat 2 (e.u 8 1) }).ok r

/-! ### The rows -/

def execQueryHealth (e : Entry) (s : State) : Host.Outcome State Fault Refusal := .next (cmdQueryHealth.dispatch e s)
def execReadMap (e : Entry) (s : State) : Host.Outcome State Fault Refusal := .next (cmdReadMap.dispatch e s)
def execReadDistance (e : Entry) (s : State) : Host.Outcome State Fault Refusal := .next (cmdReadDistance.dispatch e s)
def execSetRepairCtrl (e : Entry) (s : State) : Host.Outcome State Fault Refusal := .next (cmdSetRepairCtrl.dispatch e s)
def execFwUpdate (e : Entry) (s : State) : Host.Outcome State Fault Refusal := .next (cmdFwUpdate.dispatch e s)
def execFwUpdateFlashDone (ok : Bool) (s : State) : Host.Outcome State Fault Refusal := .next (flashDone ok s)
def execSetBootCtrl (e : Entry) (s : State) : Host.Outcome State Fault Refusal := .next (cmdSetBootCtrl.dispatch e s)
def execExpertGrant (e : Entry) (s : State) : Host.Outcome State Fault Refusal := .next (cmdExpertGrant.dispatch e s)
def execGrantTakesEffect (block : Half) (s : State) : Host.Outcome State Fault Refusal := .next (grantNow block s)
def execExpertRelease (e : Entry) (s : State) : Host.Outcome State Fault Refusal := .next (cmdExpertRelease.dispatch e s)
def execQueryGrant (e : Entry) (s : State) : Host.Outcome State Fault Refusal := .next (cmdQueryGrant.dispatch e s)
def execDebugEcho (e : Entry) (s : State) : Host.Outcome State Fault Refusal := .next (cmdDebugEcho.dispatch e s)
def execDebugReadLog (e : Entry) (s : State) : Host.Outcome State Fault Refusal := .next (cmdDebugReadLog.dispatch e s)
def execDebugReadReg (e : Entry) (s : State) : Host.Outcome State Fault Refusal := .next (cmdDebugReadReg.dispatch e s)
def execDebugSetLog (e : Entry) (s : State) : Host.Outcome State Fault Refusal := .next (cmdDebugSetLog.dispatch e s)

end Sys2Proof.Machine
end

