-- ==== Sys2Proof/Machine/Tally.lean ====
section
/-! DEFINITION. The tally (18): keys, ownership, attestation and the inner chain's die proofs, yardage and its floor. -/
namespace Sys2Proof.Machine
open Sys2Proof

/-! ### Octet strings and keys (R466 to R469) -/

/-- The n octets of a number, most significant first. -/
def beBytes (n v : Nat) : List Byte := (leBytes n v).reverse
/-- The number of an octet string, most significant first. -/
def beNat (l : List Byte) : Nat := leNat l.reverse
/-- A label's octets. -/
def label (t : String) : List Byte := t.toList.map fun c => BitVec.ofNat 8 c.toNat
/-- The SP 800-108 KDF in counter mode with CMAC, as octets (R467). -/
def kdf (k : BitVec 128) (lab : String) (ctx : List Byte) (bits : Nat) : List Byte :=
  ((List.range ((bits + 127) / 128)).flatMap fun i =>
    beBytes 16 (Config.cmac k (beBytes 1 (i + 1) ++ label lab ++ [0] ++ ctx ++ beBytes 2 bits)).toNat).take (bits / 8)
/-- A 128-bit key from the KDF. -/
def kdf128 (k : BitVec 128) (lab : String) (ctx : List Byte) : BitVec 128 := BitVec.ofNat 128 (beNat (kdf k lab ctx 128))
/-- The P-256 group order (FIPS 186-5, R7). -/
def p256Order : Nat := 0xFFFFFFFF00000000FFFFFFFFFFFFFFFFBCE6FAADA7179E84F3B9CAC2FC632551
/-- SERIAL's octets, as an integer of a signed message (R466). -/
def State.serialBytes (s : State) : List Byte := leBytes 8 s.fuses.serial.toNat
/-- The die's private key (R469). -/
def State.dieKey (s : State) : BitVec 256 :=
  BitVec.ofNat 256 (beNat (kdf s.tally.rootId "XNDEVID" s.serialBytes 320) % (p256Order - 1) + 1)
/-- K_STORE (R469). -/
def State.storeKey (s : State) : BitVec 128 := kdf128 s.tally.rootStore "XNSTORE" s.serialBytes
/-- A signature of the die over some bytes. -/
def State.sign (s : State) (bs : List Byte) : List Byte :=
  beBytes 64 (Config.ecdsaSign s.dieKey (Config.sha256 bs)).toNat
/-- Whether a signature of a key over some bytes verifies. -/
def sigOk (key bs sig : List Byte) : Bool := Config.ecdsaVerify key (Config.sha256 bs) sig

/-! ### Die proofs (R471) and the inner chain (R460, R461) -/

/-- Bytes 0 to 11 of a DIE_PROVE reply, which IDENT's payload resembles (R460, R471). -/
def State.dieHead (s : State) : List Byte :=
  [4, s.fuses.stepping, BitVec.ofNat 8 (1 + 2 * b2n s.fuses.primary), 0] ++ s.serialBytes
/-- The compressed public key (R466). -/
def State.pubCompressed (s : State) : List Byte :=
  let k := Config.ecdsaPub s.dieKey
  BitVec.ofNat 8 (2 + k.toNat % 2) :: beBytes 32 (k.toNat / 2 ^ 256)
/-- The payload of a DIE_PROVE reply (R471). -/
def State.dieProof (s : State) (nonce : List Byte) (addr : Byte) : List Byte :=
  s.dieHead ++ s.pubCompressed ++ s.sign (label "XNDIE" ++ nonce ++ [addr] ++ s.dieHead)
/-- The payload of an IDENT reply (R460). -/
def State.identPayload (s : State) : List Byte :=
  [4, BitVec.ofNat 8 (b2n s.fuses.primary), s.fuses.stepping, 0] ++ s.serialBytes
/-- Whether a frame is addressed to this die. -/
def State.innerMine (s : State) (dest : Byte) : Bool :=
  if s.fuses.primary then decide (dest = 0) else s.inner.hasAddr && decide (dest = s.inner.addr)

/-- The attestation report with its signature (R476). -/
def State.report (s : State) (t : Attest) : List Byte :=
  let d := t.dies
  let owner := s.tally.owner
  let flags := b2n owner.isSome + 2 * b2n s.tally.tmk.isSome + 4 * b2n (s.selv.fault.getLsbD 4) +
    8 * b2n (decide (1024 ≤ s.tally.floorWords.length)) + 16 * b2n s.tally.rolledBack
  let ownerHash := match owner with
    | some o => beBytes 32 (Config.sha256 o.key).toNat
    | none => List.replicate 32 0
  let body := leBytes 4 0x54524158 ++ leBytes 2 1 ++ leBytes 2 (288 + 116 * d) ++ t.nonce ++
    beBytes 32 s.boot.measure.toNat ++ [s.selv.svn, s.tally.svnMin, s.map.epoch, s.map.courses.setWidth 8] ++
    leBytes 4 s.fuses.assemblyWord.toNat ++ beBytes 32 (Config.sha256 s.mapTable).toNat ++
    ((t.yards.getD []).flatMap fun v => leBytes 4 v.toNat) ++ ownerHash ++
    [BitVec.ofNat 8 flags, s.inner.returned, s.inner.expected, 0] ++ s.serialBytes ++ List.replicate 4 0 ++
    ((t.records.zip (List.range d)).flatMap fun x =>
      [BitVec.ofNat 8 (x.2 + 1), x.1.1, 0, 0] ++ padTo 109 x.1.2 ++ [0, 0, 0])
  body ++ s.sign body
/-- The running attestation goes on (R476, R477): the next die is asked, or the yardage read once no update runs, or the
report written and the next attestation begun. -/
def State.attestStep (s : State) : Nat → State
  | 0 => s
  | fuel + 1 =>
    match s.tally.attests with
    | [] => s
    | t :: rest =>
      let n := t.records.length
      if n < t.dies then
        (s.modInner fun c => { c with busy := some (.prove (BitVec.ofNat 8 (n + 1))) }).emit
          (.inner 0x03 (BitVec.ofNat 8 (n + 1)) 0 t.nonce)
      else if s.tally.run.isSome then s
      else
        let t : Attest := { t with yards := some ((allFin 16).map s.tally.value) }
        let s : State := s.modTally fun x => { x with attests := rest }
        let bs := s.report t
        (s.writeOut t.cmd t.dst bs [(20, 2, bs.length)]).attestStep fuel
/-- The die being asked is done with a STATUS and a payload (R476). -/
def State.attestGot (s : State) (status : Byte) (payload : List Byte) : State :=
  let s : State := s.modInner fun c => { c with busy := none }
  match s.tally.attests with
  | [] => s
  | t :: rest =>
    (s.modTally fun x => { x with attests := { t with records := t.records ++ [(status, padTo 109 payload)] } :: rest }).attestStep
      (rest.length + 1)
/-- A request whose reply is missing (R461). -/
def State.innerMissing (s : State) : State :=
  match s.inner.busy with
  | none => s
  | some q =>
    let s : State := s.modInner fun c => { c with events := setBit c.events 1, busy := none }
    match q with
    | .prove _ => s.attestGot 1 []
    | .ident _ => s

/-- IDENT arrives (R460, R461). -/
def innerIdent (dest src : Byte) (s : State) : State :=
  if s.innerMine dest then s.emit (.inner 0x82 0 s.inner.addr s.identPayload)
  else if s.fuses.primary ∧ src = 0 then s.innerMissing
  else s.emit (.inner 0x02 dest src [])
/-- DIE_PROVE arrives (R460, R461, R471). -/
def innerProve (dest src : Byte) (nonce : List Byte) (s : State) : State :=
  if s.innerMine dest then s.emit (.inner 0x83 0 s.inner.addr (s.dieProof nonce s.inner.addr))
  else if s.fuses.primary ∧ src = 0 then s.innerMissing
  else s.emit (.inner 0x03 dest src nonce)
/-- A frame of another TYPE (R460): answered with NAK. -/
def innerUnknown (dest src type : Byte) (s : State) : State :=
  if s.innerMine dest then s.emit (.inner 0xFF 0 s.inner.addr [])
  else if s.fuses.primary ∧ src = 0 then s.innerMissing
  else s.emit (.inner type dest src [])
/-- A reply frame arrives (R460, R461): at the primary it answers the outstanding request; another die forwards it. -/
def innerReply (src type : Byte) (payload : List Byte) (s : State) : State :=
  if !s.fuses.primary then s.emit (.inner type 0 src payload)
  else if src = 0 then s.innerMissing
  else match s.inner.busy with
    | some (.prove d) =>
      if d ≠ src then s
      else if type = 0x83 then s.attestGot 0 payload
      else if type = 0xFF then (s.modInner fun c => { c with events := setBit c.events 2 }).attestGot 3 []
      else s
    | some (.ident d) =>
      if d ≠ src then s
      else if type = 0x82 then s.modInner fun c => { c with busy := none }
      else if type = 0xFF then s.modInner fun c => { c with events := setBit c.events 2, busy := none }
      else s
    | none => s
/-- A frame discarded for a timing error (R461, R476): at the primary it was the reply it waits for (log 21). -/
def innerTiming (s : State) : State :=
  let s : State := s.modInner fun c => { c with events := setBit c.events 0, errors := satAdd c.errors 1 }
  match s.inner.busy with
  | some (.prove _) => if s.fuses.primary then s.attestGot 2 [] else s
  | some (.ident _) => s.modInner fun c => { c with busy := none }
  | none => s

/-! ### Yardage (R477 to R484) -/

/-- An update ends (R480): its command completes, an uncounted repair is marked (R503), the next update begins. -/
def State.yardEnd (s : State) (u : YdUpdate) (status : Nat) : State :=
  let v := (s.tally.value u.counter).toNat
  let s : State := s.modTally fun t => { t with run := none }
  let mark (l : List RepEntry) : List RepEntry :=
    (l.takeWhile RepEntry.counted) ++ match l.dropWhile RepEntry.counted with
      | e :: r => { e with counted := true } :: r
      | [] => []
  let s : State := if u.counter = 3 ∧ status = stOk then s.modRep fun r => { r with entries := mark r.entries } else s
  let s : State := match u.cmd with
    | some r => if status = stOk then s.ok r (u.res ++ if u.value20 then [(20, 4, v)] else []) else s.reply r status
    | none => s
  (s.yardStart s.tally.waiting.length).attestStep s.tally.attests.length
/-- A floor word (R482): D, and the count of its 0 bits. -/
def floorWord (c f : Nat) : Word :=
  let d := c % 16 * 0x100000 + f % 0x100000
  BitVec.ofNat 32 (((List.range 24).filter fun i => !d.testBit i).length * 0x1000000 + d)
/-- YARDAGE_SLOT_WRITE_DONE (R480). -/
def slotWritten (valid : Bool) (s : State) : State :=
  match s.tally.run with
  | some ⟨u, v, .writing retried⟩ =>
    let put (p : YdSlot × YdSlot) : YdSlot × YdSlot :=
      let seq := ((ydSlot p).map YdSlot.seq).getD 0 + 1
      let x : YdSlot := ⟨v, seq, valid⟩
      if ydSlot p = some p.1 then (p.1, x) else (x, p.2)
    let s : State := s.modTally fun t => { t with slots := upd t.slots u.counter put }
    if valid then
      if s.tally.floor u.counter.val < v.toNat / 4096 ∧ s.tally.floorWords.length < 1024 then
        s.modTally fun t => { t with run := some ⟨u, v, .flooring false⟩ }
      else s.yardEnd u stOk
    else if retried then (s.modTally fun t => { t with events := setBit t.events 1 }).yardEnd u stInternal
    else s.modTally fun t => { t with run := some ⟨u, v, .writing true⟩ }
  | _ => s
/-- FLOOR_BURN_DONE (R480, R482, R483): a word that fails its check counts as used. -/
def floorBurnt (valid : Bool) (s : State) : State :=
  match s.tally.run with
  | some ⟨u, v, .flooring retried⟩ =>
    let w := if valid then floorWord u.counter.val (v.toNat / 4096) else 0
    let s : State := s.modTally fun t => { t with floorWords := t.floorWords ++ [w] }
    if valid then s.yardEnd u stOk
    else if !retried ∧ s.tally.floorWords.length < 1024 then
      s.modTally fun t => { t with run := some ⟨u, v, .flooring true⟩ }
    else (s.modTally fun t => { t with events := setBit t.events 2 }).yardEnd u stOk
  | _ => s

/-! ### Tally commands (R168, R169) -/

/-- ATTEST (R168, R476, R477). -/
def cmdAttest : Cmd where
  op := 0x700
  target := 0
  used := [(8, 42)]
  res := fun e s => if e.u 48 2 < 288 + 116 * (s.inner.returned.toNat - 1) then some (stNoResource, 0) else none
  act := fun r e s =>
    let t : Attest := ⟨r, slice e.params.toList 0 32, e.u 40 8, s.inner.returned.toNat - 1, [], none⟩
    let first := s.tally.attests.isEmpty
    let s : State := (s.modTally fun x => { x with attests := x.attests ++ [t] }).inFlight r 0x700 e
    if first then s.attestStep 1 else s
/-- GET_CERTS (R168, R470). -/
def cmdGetCerts : Cmd where
  op := 0x701
  target := 0
  used := [(8, 10)]
  res := fun e _ => if e.u 16 2 < certBytes.length then some (stNoResource, 0) else none
  act := fun r e s => s.writeOut r (e.u 8 8) certBytes [(20, 2, certBytes.length)]
where
  /-- The certificates as written. -/
  certBytes : List Byte :=
    leBytes 2 3 ++ (allFin 3).flatMap fun i => leBytes 2 (Config.certificate i).length ++ Config.certificate i

/-- AUTH_FAIL of a tally command, counted on YD_TAMPER (R472, R474, R477). -/
def State.tamper (s : State) (r : CmdRef) : State :=
  ((s.modTally fun t => { t with events := setBit t.events 3 }).yard 6 1).reply r stAuthFail
/-- An object of a tally command: readable, with its magic, version and bytes 6 to 7. -/
def tallyObject (off n magic w67 : Nat) (e : Entry) (s : State) : Option Nat :=
  if !s.objOk e.sq (e.u off 8) n then some 0xFE
  else
    let b := s.objRead e.sq (e.u off 8) n
    if leAt b 0 4 = magic ∧ leAt b 4 2 = 1 ∧ leAt b 6 2 = w67 then none else some 0xFD
/-- YD_ADOPTIONS with the adoptions whose update still runs. -/
def State.adoptions (s : State) : Word :=
  let us := (s.tally.run.map YdRun.upd).toList ++ s.tally.waiting
  s.tally.value 5 + BitVec.ofNat 32 (us.filter fun u => decide (u.counter = 5)).length
/-- Whether an adoption block is accepted (R472). -/
def State.adoptOk (s : State) (b : List Byte) : Bool :=
  let n := s.adoptions
  decide (leAt b 8 8 = s.fuses.serial.toNat) && decide (leAt b 16 4 = n.toNat + 1) &&
  sigOk (slice b 20 64) (slice b 0 100) (slice b 100 64) &&
  (if n = 0 then (slice b 164 64).all (· = 0)
   else match s.tally.owners.find? fun o => decide (o.adoption = n) with
    | some o => sigOk o.key (slice b 0 164) (slice b 164 64)
    | none => false)
/-- ADOPT (R472, R473): the record is written, then YD_ADOPTIONS rises. -/
def cmdAdopt : Cmd where
  op := 0x702
  target := 0
  used := [(8, 8)]
  object := tallyObject 8 228 0x50444F41 228
  act := fun r e s =>
    let b := s.objRead e.sq (e.u 8 8) 228
    if !s.adoptOk b then s.tamper r
    else
      let n := s.adoptions
      let o : Owner := ⟨slice b 20 64, BitVec.ofNat 128 (beNat (slice b 84 16)), n + 1⟩
      let keep := s.tally.owners.filter fun x => decide (s.tally.value 5 ≤ x.adoption ∧ x.adoption ≤ n)
      ((s.modTally fun t => { t with owners := keep ++ [o] }).inFlight r 0x702 e).yard 5 1 (some r) [] true
/-- Whether a tag master block is accepted (R474). -/
def State.wrapOk (s : State) (o : Owner) (b : List Byte) : Bool :=
  decide (leAt b 8 8 = s.fuses.serial.toNat) && decide (leAt b 16 4 = (s.tally.value 5).toNat) &&
  decide (beNat (slice b 36 16) = (Config.cmac (kdf128 o.wrapRoot "XNWRAPM" s.serialBytes) (slice b 0 36)).toNat)
/-- LOAD_TAG_MASTER (R168, R474). -/
def cmdLoadTagMaster : Cmd where
  op := 0x703
  target := 0
  used := [(8, 8)]
  object := tallyObject 8 52 0x4D474154 0
  state := fun _ s => if s.tally.owner.isNone || s.tally.tmk.isSome then some 2 else none
  act := fun r e s =>
    let b := s.objRead e.sq (e.u 8 8) 52
    match s.tally.owner with
    | none => s.reply r stConflict 2
    | some o =>
      if !s.wrapOk o b then s.tamper r
      else
        let k := Config.aesDecrypt (kdf128 o.wrapRoot "XNWRAPE" s.serialBytes) (BitVec.ofNat 128 (beNat (slice b 20 16)))
        (s.modTally fun t => { t with tagMaster := some (k, t.value 5) }).ok r
/-- READ_YARDAGE (R168). -/
def cmdReadYardage : Cmd where
  op := 0x704
  target := 0
  used := [(8, 2)]
  bad := fun e _ => (if e.u 8 1 ≤ 15 then [] else [8]) ++ (if 1 ≤ e.u 9 1 ∧ e.u 9 1 ≤ 8 ∧ e.u 8 1 + e.u 9 1 ≤ 16 then [] else [9])
  act := fun r e s => s.ok r ((List.range (e.u 9 1)).map fun k =>
    (20 + 4 * k, 4, (s.tally.value (Fin.ofNat 16 (e.u 8 1 + k))).toNat))
/-- ADD_YARDAGE (R168, R169). -/
def cmdAddYardage : Cmd where
  op := 0x705
  target := 0
  used := [(8, 1), (12, 4)]
  bad := fun e _ => (if 8 ≤ e.u 8 1 ∧ e.u 8 1 ≤ 15 then [] else [8]) ++ (if 1 ≤ e.u 12 4 then [] else [12])
  state := fun e s => if s.tally.value (Fin.ofNat 16 (e.u 8 1)) = BitVec.allOnes 32 then some 2 else none
  act := fun r e s => (s.inFlight r 0x705 e).yard (e.u 8 1) (e.u 12 4) (some r) [] true
/-- RAISE_SVN (R168, R475). -/
def cmdRaiseSvn : Cmd where
  op := 0x706
  target := 0
  used := [(8, 1), (16, 8)]
  object := fun e s => tallyObject 16 80 0x4E565352 (e.u 8 1) e s
  state := fun e s =>
    if s.tally.owner.isSome ∧ s.tally.svnMin.toNat < e.u 8 1 ∧ e.u 8 1 ≤ s.selv.svn.toNat then none else some 2
  act := fun r e s =>
    let b := s.objRead e.sq (e.u 16 8) 80
    match s.tally.owner with
    | none => s.reply r stConflict 2
    | some o =>
      if leAt b 8 8 = s.fuses.serial.toNat ∧ sigOk o.key (slice b 0 16) (slice b 16 64) then
        (s.modTally fun t => { t with svnMin := BitVec.ofNat 8 (e.u 8 1) }).ok r [(20, 1, e.u 8 1)]
      else s.tamper r

/-! ### The rows -/

def execAttest (e : Entry) (s : State) : Host.Outcome State Fault Refusal := .next (cmdAttest.dispatch e s)
def execGetCerts (e : Entry) (s : State) : Host.Outcome State Fault Refusal := .next (cmdGetCerts.dispatch e s)
def execAdopt (e : Entry) (s : State) : Host.Outcome State Fault Refusal := .next (cmdAdopt.dispatch e s)
def execLoadTagMaster (e : Entry) (s : State) : Host.Outcome State Fault Refusal := .next (cmdLoadTagMaster.dispatch e s)
def execReadYardage (e : Entry) (s : State) : Host.Outcome State Fault Refusal := .next (cmdReadYardage.dispatch e s)
def execAddYardage (e : Entry) (s : State) : Host.Outcome State Fault Refusal := .next (cmdAddYardage.dispatch e s)
def execRaiseSvn (e : Entry) (s : State) : Host.Outcome State Fault Refusal := .next (cmdRaiseSvn.dispatch e s)
def execIdent (dest src : Byte) (s : State) : Host.Outcome State Fault Refusal := .next (innerIdent dest src s)
def execDieProve (dest src : Byte) (nonce : Vector Byte 32) (s : State) : Host.Outcome State Fault Refusal :=
  .next (innerProve dest src nonce.toList s)
def execInnerReply (src type_ : Byte) (payload : List Byte) (s : State) : Host.Outcome State Fault Refusal :=
  .next (innerReply src type_ payload s)
def execInnerReplyTimeout (s : State) : Host.Outcome State Fault Refusal := .next s.innerMissing
/-- ATTEST_DIE_TIMEOUT (R476): STATUS 1 and a zero payload. -/
def execAttestDieTimeout (s : State) : Host.Outcome State Fault Refusal := .next s.innerMissing
def execInnerFrameTimingError (s : State) : Host.Outcome State Fault Refusal := .next (innerTiming s)
def execInnerFrameUnknownType (dest src type_ : Byte) (s : State) : Host.Outcome State Fault Refusal :=
  .next (innerUnknown dest src type_ s)
/-- YARDAGE_INCREMENT (R478, R480): in the primary's tally only. -/
def execYardageIncrement (counter : Fin 16) (amount : Word) (s : State) : Host.Outcome State Fault Refusal :=
  .next (if s.fuses.primary ∧ amount ≠ 0 then s.yard counter.val amount.toNat else s)
def execYardageSlotWriteDone (valid : Bool) (s : State) : Host.Outcome State Fault Refusal := .next (slotWritten valid s)
def execFloorBurnDone (valid : Bool) (s : State) : Host.Outcome State Fault Refusal := .next (floorBurnt valid s)
/-- POWER_HOUR (R477). -/
def execPowerHour (s : State) : Host.Outcome State Fault Refusal :=
  .next (if s.fuses.primary ∧ s.selv.spwrok then (s.modTally fun t => { t with residue := 0 }).yard 0 1 else s)
/-- POWER_HOUR_RESIDUE_SAVE (R477). -/
def execPowerHourResidueSave (residue : Word) (s : State) : Host.Outcome State Fault Refusal :=
  .next (if s.fuses.primary ∧ s.selv.spwrok then s.modTally fun t => { t with residue := residue } else s)

end Sys2Proof.Machine
end

