-- ==== Sys2Proof/Machine/Chain.lean ====
section
/-! DEFINITION. The outer chain line (17): the commands that use it, the search, presence monitoring, the expert
sequencer; and the tags on it with the five-step write (17 R451, 18 R486 to R491). -/
namespace Sys2Proof.Machine
open Sys2Proof

/-! ### The master: what it sends -/

/-- A sticky bit of CHN_EVENTS (R464). -/
def State.chnEvent (s : State) (b : Nat) : State := s.modChain fun c => { c with events := setBit c.events b }
/-- The prefix bytes of ROLL and ASSIGN: nibbles from the low end (R447). -/
def prefixBytes (nibbles pfx : Nat) : List Byte := leBytes ((nibbles + 1) / 2) (pfx % 16 ^ nibbles)
/-- A search changed. -/
def State.modSearch (s : State) (f : Search → Search) : State := s.modChain fun c => { c with search := c.search.map f }
/-- TIMING noted in a search (R440, R452). -/
def State.noteTiming (s : State) : State := (s.modSearch fun x => { x with timing := true }).chnEvent 1
/-- A widened retry of a search (R440). -/
def State.widen (s : State) : State :=
  (s.modSearch fun x => { x with widened := x.widened + 1, wide := true }).chnEvent 2
/-- ROLL sent. -/
def State.sendRoll (s : State) (level pfx : Nat) (retried wide : Bool) : State :=
  (s.modSearch fun x => { x with st := .roll level pfx retried }).emit
    (.chainCmd (BitVec.ofNat 8 1 :: BitVec.ofNat 8 (level + 16 * b2n wide) :: prefixBytes level pfx))
/-- ASSIGN sent. -/
def State.sendAssign (s : State) (nibbles pfx : Nat) (retried widened : Bool) : State :=
  (s.modSearch fun x => { x with st := .assign nibbles pfx retried widened }).emit
    (.chainCmd (BitVec.ofNat 8 2 :: BitVec.ofNat 8 nibbles :: prefixBytes nibbles pfx))
/-- PING or READ_INFO of CONFIRM sent. -/
def State.sendConfirm (s : State) (info : Bool) (addr : Byte) (rest : List Byte) (retried widened : Bool) : State :=
  (s.modSearch fun x => { x with
    st := if info then .confirmInfo addr rest retried widened else .confirmPing addr rest retried widened }).emit
    (.chainCmd [if info then 5 else 4, addr])
/-- READ_INFO to the next new tag, or the search's elements are done (R452). -/
def State.nextInfo (s : State) (l : List Byte) : State :=
  match l with
  | a :: rest => s.sendConfirm true a rest false false
  | [] => s.modSearch fun x => { x with st := .done }
/-- Addresses whose tag is new and has answered. -/
def Chain.newAddrs (c : Chain) : List Byte := (c.list.filter fun t => t.fresh && t.found && !t.dup).map TagEntry.addr
/-- PING to the next address, then READ_INFO to the new tags (R452). -/
def State.nextPing (s : State) (l : List Byte) : State :=
  match l with
  | a :: rest => s.sendConfirm false a rest false false
  | [] => s.nextInfo s.chain.newAddrs
/-- The next pending item, else CONFIRM (R452). -/
def State.nextItem (s : State) : State :=
  match s.chain.search with
  | none => s
  | some x =>
    match x.items with
    | .roll l p :: rest => (s.modSearch fun x => { x with items := rest }).sendRoll l p false x.wide
    | .assign n p :: rest => (s.modSearch fun x => { x with items := rest }).sendAssign n p false false
    | [] => s.nextPing x.given

/-- A search begins (R452): the reference taken, a full reset; every listed tag is to be found again. DESIGN CHOICE (log 169): flag
bit 0 of R171, "found in the last search", is 0 for a tag until the search that runs has found it. -/
def State.startSearch (s : State) (cmd : Option CmdRef) : State :=
  let seek (t : TagEntry) : TagEntry := { t with found := false, fresh := false, dup := false }
  (s.modChain fun c => { c with
    refCur := c.idleCur
    list := c.list.map seek
    search := some ⟨.reset, [], [], 0, 0, false, false, cmd⟩ }).emit (.chainSeq .reset 0)

/-! ### Chain commands that run (R172, R448 to R450) -/

/-- The address of a listed tag that may be sent commands (R454). -/
def Chain.tagAt (c : Chain) (addr : Byte) : Option TagEntry := c.list.find? fun t => decide (t.addr = addr) && !t.dup
/-- The key of a tag (R485). -/
def tagKey (tmk : BitVec 128) (id : List Byte) : BitVec 128 := kdf128 tmk "XNTAG" id
/-- A strong window (R449, R450): its length in 10 µs. -/
def strongOut (len : Nat) : Out := .chainSeq .strong (mkW [(0, 4, 6), (16, 16, len)])
/-- The element of a running command's step. -/
def ChainRun.send (x : ChainRun) : List Out :=
  match x.work with
  | .search => []
  | .ping a => [.chainCmd [4, a]]
  | .prove a _ => [.chainCmd ([6, a] ++ x.nonce), strongOut 500]
  | .increment a expect =>
    match x.step with
    | 0 => [.chainCmd ([6, a] ++ x.nonce), strongOut 500]
    | 1 => [.chainCmd ([7, a] ++ leBytes 4 (expect.toNat + 1) ++ [x.wseq] ++ x.id)]
    | 3 => [.chainCmd [8, a, x.wseq], strongOut 250]
    | _ => [.chainCmd [5, a]]
/-- A running command's element sent. -/
def State.sendRun (s : State) (x : ChainRun) : State := (s.modChain fun c => { c with run := some x }).emits x.send
/-- The work at the head of the queue begins when the line is free (R172); a search only while the line is not stuck low
(R452, R457; log 140). -/
def State.chainNext (s : State) : Nat → State
  | 0 => s
  | fuel + 1 =>
    let c := s.chain
    if c.busy || s.grantedNow 9 0 then s
    else match c.waiting with
    | [] => s
    | (w, cmd) :: rest =>
      if decide (w = .search) && c.stuck then s
      else
      let s : State := s.modChain fun c => { c with waiting := rest }
      match w, cmd with
      | .search, _ => s.startSearch cmd
      | _, none => s.chainNext fuel
      | .ping a, some r =>
        if (c.tagAt a).isNone then (s.reply r stNotFound).chainNext fuel
        else s.sendRun ⟨w, r, 0, false, false, false, 0, [], [], 0⟩
      | .prove a n, some r =>
        if (c.tagAt a).isNone then (s.reply r stNotFound).chainNext fuel
        else s.sendRun ⟨w, r, 0, false, false, false, 0, n, [], 0⟩
      | .increment a _, some r =>
        match c.tagAt a with
        | none => (s.reply r stNotFound 0 [(20, 4, 0xFFFFFFFF)]).chainNext fuel
        | some t =>
          let n := s.tally.proofs + 1
          let nonce := kdf s.storeKey "XNNONCE" (leBytes 4 n) 128
          (s.modTally fun x => { x with proofs := n }).sendRun ⟨w, r, 0, false, false, false, 0, nonce, [], t.wseq + 1⟩
/-- The line is free again: the next work. -/
def State.lineFree (s : State) : State := s.chainNext (s.chain.waiting.length + 1)
/-- A running command's end. -/
def State.runEnd (s : State) (r : CmdRef) (status detail : Nat) (res : List (Nat × Nat × Nat)) : State :=
  ((s.modChain fun c => { c with run := none }).reply r status detail res).lineFree
/-- The end of TAG_INCREMENT (R491): the value read back, the last step reached. -/
def State.incEnd (s : State) (x : ChainRun) (status detail value : Nat) : State :=
  s.runEnd x.cmd status detail [(20, 4, value), (24, 1, x.last)]
/-- The MAC of a proof (R486). -/
def proofMac (k : BitVec 128) (nonce reply : List Byte) : BitVec 128 := Config.cmac k (nonce ++ slice reply 0 13)
/-- The reply of a PROVE checked: whether its MAC is right. -/
def proofOk (tmk : BitVec 128) (nonce reply : List Byte) : Bool :=
  decide (beNat (slice reply 13 16) = (proofMac (tagKey tmk (slice reply 0 8)) nonce reply).toNat)

/-- No answer to a running command's element after its repeat (R448, R450, R491). -/
def State.runSilent (s : State) (x : ChainRun) : State :=
  match x.work with
  | .increment _ _ =>
    (match x.step with
    | 0 => s.incEnd x stNotFound 0 0xFFFFFFFF
    | 5 => s.incEnd x (if x.timing then stTiming else stNotFound) 0 0xFFFFFFFF
    | 3 => s.sendRun { x with step := 5, retried := false, widened := false, last := 5 }
    | _ => s.sendRun { x with step := 5, retried := false, widened := false })
  | .ping a =>
    (s.modChain fun c => { c with list := c.list.filter fun t => decide (t.addr ≠ a) }).runEnd x.cmd stNotFound 0 []
  | _ => s.runEnd x.cmd stNotFound 0 []
/-- An EDGE that a widened retry did not resolve (R440, R491). -/
def State.runTiming (s : State) (x : ChainRun) : State :=
  let s : State := s.chnEvent 1
  match x.work with
  | .increment _ _ =>
    (match x.step with
    | 0 => s.incEnd x stTiming 0 0xFFFFFFFF
    | 5 => s.incEnd x (if x.timing then stTiming else stNotFound) 0 0xFFFFFFFF
    | _ => s.sendRun { x with step := 5, retried := false, widened := false, timing := true })
  | _ => s.runEnd x.cmd stTiming 0 []
/-- The proof of TAG_INCREMENT answered (R486, R488, R491). -/
def State.incProof (s : State) (x : ChainRun) (expect : Word) (reply : List Byte) : State :=
  match s.tally.tmk with
  | none => s.incEnd x stConflict 2 0xFFFFFFFF
  | some k =>
    let count := leAt reply 8 4
    if !proofOk k x.nonce reply then s.incEnd x stAuthFail 0 0xFFFFFFFF
    else if count ≠ expect.toNat ∨ expect = 0xFFFFFFFF then s.incEnd x stConflict 2 0xFFFFFFFF
    else
      let id := slice reply 0 8
      let mac := Config.cmac (tagKey k id) ([7] ++ id ++ leBytes 4 count ++ leBytes 4 (count + 1) ++ [x.wseq])
      s.sendRun { x with step := 1, id := beBytes 16 mac.toNat, retried := false, widened := false, last := 1 }
/-- READ_INFO of step 5 answered (R491). -/
def State.incBack (s : State) (x : ChainRun) (addr : Byte) (expect : Word) (reply : List Byte) : State :=
  let v := leAt reply 2 4
  let s : State := s.modChain fun c => { c with list := c.list.map fun t =>
    if t.addr = addr then { t with wseq := reply.getD 6 0 } else t }
  let st := if x.timing then stTiming else if v = expect.toNat + 1 then stOk else if v = expect.toNat then stTimeout else stAuthFail
  s.incEnd x st 0 v
/-- An element of a running command answered. -/
def State.runAnswer (s : State) (x : ChainRun) (reply : List Byte) : State :=
  match x.work with
  | .search => s
  | .ping _ => s.runEnd x.cmd stOk 0 []
  | .prove _ _ =>
    (match s.tally.tmk with
    | none => s.runEnd x.cmd stConflict 2 []
    | some k =>
      let good := proofOk k x.nonce reply
      s.runEnd x.cmd (if good then stOk else stAuthFail) 0
        [(20, 8, leAt reply 0 8), (28, 4, leAt reply 8 4), (32, 1, leAt reply 12 1), (33, 1, b2n good)])
  | .increment a expect =>
    match x.step with
    | 0 => s.incProof x expect reply
    | 1 => (s.emit (strongOut 250)).sendRun { x with step := 3, retried := false, widened := false, last := 3 }
    | 3 => s.sendRun { x with step := 5, retried := false, widened := false, last := 5 }
    | _ => s.incBack x a expect reply

/-- An answer to an element of CONFIRM: the tag stays, or is dropped (R448, R452). -/
def State.confirmed (s : State) (info : Bool) (addr : Byte) (rest : List Byte) (keep : Bool) (reply : Option (List Byte)) :
    State :=
  let f (t : TagEntry) : TagEntry :=
    if t.addr ≠ addr then t
    else if !keep then { t with found := false }
    else match reply with
      | some b => { t with features := b.getD 0 0, wseq := b.getD 6 0 }
      | none => t
  let s : State := s.modChain fun c => { c with list := c.list.map f }
  if info then s.nextInfo rest else s.nextPing rest
/-- The class of an answer to an element of CONFIRM acted on. -/
def State.confirmReply (s : State) (info : Bool) (addr : Byte) (rest : List Byte) (retried widened : Bool)
    (cls : SlotClass) (bytes : List Byte) : State :=
  match cls with
  | .none => if retried then s.confirmed info addr rest false none else s.sendConfirm info addr rest true widened
  | .edge => if widened then s.noteTiming.confirmed info addr rest true none
             else s.widen.sendConfirm info addr rest retried true
  | _ => s.confirmed info addr rest true (if info then some bytes else none)
/-- CHAIN_REPLY (R440, R448). -/
def chainReply (cls : SlotClass) (bytes : List Byte) (s : State) : State :=
  match s.chain.search, s.chain.run with
  | some x, _ =>
    (match x.st with
    | .confirmPing a rest r w => s.confirmReply false a rest r w cls bytes
    | .confirmInfo a rest r w => s.confirmReply true a rest r w cls bytes
    | _ => s)
  | none, some x =>
    (match cls with
    | .none => if x.retried then s.runSilent x else s.sendRun { x with retried := true }
    | .edge => if x.widened then s.runTiming x else (s.chnEvent 2).sendRun { x with widened := true }
    | _ => s.runAnswer x bytes)
  | none, none => s

/-! ### The search (R452 to R455) -/

/-- PRESENCE_WINDOW_END. -/
def presenceEnd (presence : Bool) (s : State) : State :=
  match s.chain.search.map Search.st with
  | some .reset =>
    if presence then
      let s : State := if s.chain.speed then s.emit (.chainCmd [9, 1]) else s
      (s.modSearch fun x => { x with items := [.roll 0 0] }).nextItem
    else s.modSearch fun x => { x with st := .done }
  | _ => s
/-- What a roll-call slot pends (R452). -/
def rollItem (level pfx k : Nat) (c : SlotClass) : Option SearchItem :=
  let p := pfx + k * 16 ^ level
  match c with
  | .single => some (.assign (level + 1) p)
  | .double => some (if level = 15 then .assign 16 p else .roll (level + 1) p)
  | _ => none
/-- ROLL_WINDOW_END. -/
def rollEnd (classes : Vector SlotClass 16) (s : State) : State :=
  match s.chain.search.map Search.st with
  | some (.roll level pfx retried) =>
    let edge := classes.toList.any fun c => decide (c = .edge)
    if edge && !retried then s.widen.sendRoll level pfx true true
    else
      let s : State := if edge then s.noteTiming else s
      let new := (allFin 16).filterMap fun k => rollItem level pfx k.val classes[k]
      (s.modSearch fun x => { x with items := new ++ x.items }).nextItem
  | _ => s
/-- ADDR 0 sent, and the next item. -/
def State.noAddr (s : State) : State := (s.emit (.chainAddr 0)).nextItem
/-- ASSIGN_ACKNOWLEDGEMENT. -/
def assignAck (cls : SlotClass) (s : State) : State :=
  match s.chain.search.map Search.st with
  | some (.assign n p retried widened) =>
    (match cls with
    | .none => s.noAddr
    | .single => s.modSearch fun x => { x with st := .readId n p retried widened false }
    | .double => s.modSearch fun x => { x with st := .readId n p retried widened true }
    | .edge => if widened then s.noteTiming.noAddr else s.widen.sendAssign n p retried true)
  | _ => s
/-- The lowest address that is neither reserved nor assigned (R453). -/
def Chain.freeAddr (c : Chain) : Option Byte :=
  ((List.range 62).map fun k => BitVec.ofNat 8 (k + 1)).find? fun a => c.list.all fun t => decide (t.addr ≠ a)
/-- An identity's check: its bytes sum to 0 (R446). -/
def idOk (id : DWord) : Bool := decide (sumN ((leBytes 8 id.toNat).map BitVec.toNat) % 256 = 0)
/-- A tag listed at an address, or found again (R453, R454). -/
def State.listTag (s : State) (id : DWord) (dup : Bool) : State × Byte :=
  match s.chain.list.find? fun t => decide (t.id = id) with
  | some t =>
    (s.modChain fun c => { c with list := c.list.map fun x =>
      if x.id = id then { x with found := true, dup := dup } else x }, t.addr)
  | none =>
    match s.chain.freeAddr with
    | some a => (s.modChain fun c => { c with list := c.list ++ [⟨id, a, true, dup, 0, true, 0⟩] }, a)
    | none => (s.chnEvent 5, 0)
/-- ASSIGN_ID_READ (R440, R452 to R454). -/
def assignRead (id : DWord) (edge : Bool) (s : State) : State :=
  match s.chain.search.map Search.st with
  | some (.readId n p retried widened dup) =>
    if edge then
      if widened then s.noteTiming.noAddr else (s.emit (.chainAddr 0)).widen.sendAssign n p retried true
    else if dup then
      ((s.listTag id true).1.modSearch fun x => { x with dups := x.dups + 1 }).chnEvent 3 |>.noAddr
    else if !idOk id then
      if retried then s.noteTiming.noAddr else (s.emit (.chainAddr 0)).sendAssign n p true widened
    else
      let r := s.listTag id false
      ((r.1.modSearch fun x => { x with given := if r.2 = 0 then x.given else x.given ++ [r.2] }).emit
        (.chainAddr r.2)).nextItem
  | _ => s
/-- SEARCH_DONE (R452). -/
def searchEnd (s : State) : State :=
  match s.chain.search with
  | none => s
  | some x =>
    if x.st ≠ .done then s
    else
      let l := s.chain.list
      let kept := l.filter TagEntry.found
      let lost := (l.filter fun t => !t.found && !t.fresh).length
      let new := (kept.filter TagEntry.fresh).length
      let settle (t : TagEntry) : TagEntry := { t with fresh := false }
      let s : State := s.modChain fun c => { c with search := none, list := kept.map settle }
      let s : State := match x.cmd with
        | some r => s.reply r (if x.timing then stTiming else if x.dups ≠ 0 then stDupId else stOk) 0
            [(20, 1, kept.length), (21, 1, new), (22, 1, lost), (23, 1, x.dups), (24, 2, x.widened)]
        | none => s
      s.lineFree
/-- Whether a periodic search may run (R127, R457, R458, R517). -/
def State.searchMay (s : State) : Bool :=
  s.selv.ready && decide (s.selv.st ≠ .off) && decide (s.chain.period ≠ 0) && !s.granted 9 0 && !s.chain.stuck &&
  (match s.shusPort with
    | some p => decide (s.ports[p].st ≠ .down)
    | none => false)
/-- PERIODIC_SEARCH (R452, R458): now, or when the line becomes free. -/
def periodicSearch (idle : Half) (s : State) : State :=
  if !s.searchMay then s
  else
    let queued := s.chain.waiting.any fun w => w.2.isNone
    if s.chain.busy then
      if queued then s else s.modChain fun c => { c with waiting := c.waiting ++ [(.search, none)] }
    else (s.modChain fun c => { c with idleCur := idle }).startSearch none

/-! ### Presence and the line (R456, R457) -/

/-- PRESENCE_CHANGED (R456). -/
def presenceChanged (idle : Half) (s : State) : State :=
  let c := s.chain
  let s : State := s.modChain fun c => { c with idleCur := idle }
  if c.busy || c.strong || !c.line then s
  else if max idle.toNat c.refCur.toNat - min idle.toNat c.refCur.toNat < 60 then s
  else ((s.modChain fun c => { c with events := setBit c.events 0, refCur := idle }).event 0x03 0 stOk).hemWake .outerChain
/-- STUCK_LOW (R457): the running command or search ends with TIMING. -/
def stuckLow (s : State) : State :=
  let s : State := s.modChain fun c => { c with events := setBit c.events 4, stuck := true, line := false }
  match s.chain.search, s.chain.run with
  | some x, _ =>
    let s : State := s.modChain fun c => { c with search := none }
    let s : State := match x.cmd with
      | some r => s.reply r stTiming 0 [(23, 1, x.dups), (24, 2, x.widened)]
      | none => s
    s.lineFree
  | none, some x =>
    (match x.work with
    | .increment _ _ => s.incEnd x stTiming 0 0xFFFFFFFF
    | _ => s.runEnd x.cmd stTiming 0 [])
  | none, none => s
/-- LINE_HIGH_RESUME (R457): a search that waited begins. -/
def lineHigh (s : State) : State := (s.modChain fun c => { c with stuck := false, line := true }).lineFree

/-! ### The commands (R168, R170 to R172, R517) -/

/-- A command of the outer chain waits its turn for the line (R172). -/
def State.chainQueue (s : State) (w : ChainWork) (r : CmdRef) (op : Nat) (e : Entry) : State :=
  ((s.inFlight r op e).modChain fun c => { c with waiting := c.waiting ++ [(w, some r)] }).lineFree
/-- The outer chain is granted (R170). -/
def chainDeny (_ : Entry) (s : State) : Bool := s.granted 9 0
/-- The SHUS port is DOWN (R517). -/
def chainDown (_ : Entry) (s : State) : Option Nat :=
  match s.shusPort with
  | some p => if s.ports[p].st = .down then some 2 else none
  | none => some 2
/-- CHAIN_SEARCH. -/
def cmdChainSearch : Cmd where
  op := 0x800
  target := 0
  used := []
  deny := chainDeny
  state := chainDown
  act := fun r e s => s.chainQueue .search r 0x800 e
/-- One record of CHAIN_LIST (R171). -/
def TagEntry.record (t : TagEntry) : List Byte :=
  leBytes 8 t.id.toNat ++ [t.addr, BitVec.ofNat 8 (b2n t.found + 2 * b2n t.dup)] ++ List.replicate 6 0
/-- CHAIN_LIST (R170, R171): in ascending address order. -/
def cmdChainList : Cmd where
  op := 0x801
  target := 0
  used := [(8, 8)]
  act := fun r e s =>
    let l := (List.range 63).filterMap fun a => s.chain.list.find? fun t => decide (t.addr.toNat = a)
    s.writeOut r (e.u 8 8) (l.flatMap TagEntry.record) [(20, 1, l.length)]
/-- CHAIN_PING. -/
def cmdChainPing : Cmd where
  op := 0x802
  target := 0
  used := [(8, 1)]
  bad := fun e _ => if 1 ≤ e.u 8 1 ∧ e.u 8 1 ≤ 62 then [] else [8]
  deny := chainDeny
  state := chainDown
  act := fun r e s => s.chainQueue (.ping (BitVec.ofNat 8 (e.u 8 1))) r 0x802 e
/-- CHAIN_CONFIG (R170, R444). -/
def cmdChainConfig : Cmd where
  op := 0x803
  target := 0
  used := [(8, 4)]
  bad := fun e _ => (if e.u 8 1 ≤ 1 then [] else [8]) ++ (if e.u 9 1 ≤ 2 ∧ ¬(e.u 9 1 = 1 ∧ e.u 8 1 = 1) then [] else [9])
  deny := chainDeny
  state := fun e s => firstOf [chainDown e s,
    if s.chain.search.isSome || s.chain.run.isSome || !s.chain.waiting.isEmpty then some 2 else none]
  act := fun r e s =>
    (s.modChain fun c => { c with
      speed := decide (e.u 8 1 = 1), mode := BitVec.ofNat 2 (e.u 9 1), period := BitVec.ofNat 16 (e.u 10 2) }).ok r
/-- QUERY_INNER_CHAIN. -/
def cmdQueryInnerChain : Cmd where
  op := 0x804
  target := 0
  used := []
  act := fun r _ s => s.ok r [(20, 1, s.inner.returned.toNat), (21, 1, s.inner.expected.toNat)]
/-- A tag master key must be loaded (R168). -/
def tagState (e : Entry) (s : State) : Option Nat := firstOf [chainDown e s, if s.tally.tmk.isNone then some 2 else none]
/-- TAG_PROVE (R168, R169). -/
def cmdTagProve : Cmd where
  op := 0x707
  target := 0
  used := [(8, 1), (16, 16)]
  bad := fun e _ => if 1 ≤ e.u 8 1 ∧ e.u 8 1 ≤ 62 then [] else [8]
  deny := chainDeny
  state := tagState
  act := fun r e s => s.chainQueue (.prove (BitVec.ofNat 8 (e.u 8 1)) (slice e.params.toList 8 16)) r 0x707 e
/-- TAG_INCREMENT (R168, R169). -/
def cmdTagIncrement : Cmd where
  op := 0x708
  target := 0
  used := [(8, 1), (12, 4)]
  bad := fun e _ => if 1 ≤ e.u 8 1 ∧ e.u 8 1 ≤ 62 then [] else [8]
  deny := chainDeny
  state := tagState
  act := fun r e s => s.chainQueue (.increment (BitVec.ofNat 8 (e.u 8 1)) (BitVec.ofNat 32 (e.u 12 4))) r 0x708 e

/-! ### The expert sequencer (R464) -/

/-- A write of CHN_SEQ_CMD. -/
def seqWrite (op : Nat) (wide : Bool) (data param : Nat) (ag : Agent) (s : State) : State :=
  s.regWrite ag 0x18200010 (mkW [(0, 4, op), (4, 1, b2n wide), (8, 8, data), (16, 16, param)])
/-- The bits of CHN_SEQ_RESULT an operation gives; the others read 0. -/
def SeqOp.mask : SeqOp → Word
  | .rollWindow => 0xFFFFFFFF
  | .readChar => 0x3FF
  | .ackSlot => 3
  | .reset => 1
  | .recvFrame => 0x3FF
  | _ => 0
/-- CHN_SEQ_DONE: the result of an operation. -/
def seqDone (result : Word) (frame : List Byte) (s : State) : State :=
  match s.chain.seqOp with
  | none => s
  | some op =>
    let put (c : Chain) : Chain := { c with
      seqOp := none, strong := false, seqResult := result &&& op.mask
      frameBuf := if op = .recvFrame then toVec 256 (frame ++ c.frameBuf.toList.drop frame.length) else c.frameBuf }
    (s.modChain put).lineFree

/-! ### Tags (17 R447, R451; 18 R486 to R490) -/

/-- STATUS as a tag sends it (R486). -/
def Tag.statusByte (t : Tag) : Byte := putBit t.status 0 (decide (t.write ≠ .idle))
/-- A tag that discards a held write (R489). -/
def Tag.discard (t : Tag) : Tag := { t with write := .idle, committing := false, proving := none }
/-- What a tag does and sends on an event. -/
def State.tagsDo (s : State) (f : Tag → Tag × List Out) : State :=
  { s with tags := s.tags.map fun t => (f t).1 }.emits (s.tags.flatMap fun t => (f t).2)
/-- A tag that is addressed by a command. -/
def Tag.hears (t : Tag) (addr : Byte) : Bool := t.attached && decide (t.st = .addressed ∧ t.addr = addr)
/-- The low bits of an identity (R446). -/
def Tag.low (t : Tag) (nibbles : Nat) : Nat := t.id.toNat % 16 ^ nibbles
/-- FULL_RESET (R451): presence is slot 16. -/
def tagReset (t : Tag) : Tag × List Out :=
  if t.attached then ({ t.discard with st := .unaddressed, addr := 0, fast := false }, [.tagPulse t.id 16]) else (t, [])
/-- ROLL (R447). -/
def tagRoll (level : Nat) (pfx : Nat) (t : Tag) : Tag × List Out :=
  if t.attached ∧ t.st = .unaddressed ∧ t.low level = pfx % 16 ^ level then
    (t, [.tagPulse t.id (t.id.toNat / 16 ^ level % 16)])
  else (t, [])
/-- ASSIGN (R442, R447, R451). -/
def tagAssign (nibbles pfx : Nat) (addr : Byte) (fe : Bool) (t : Tag) : Tag × List Out :=
  if t.attached ∧ t.st = .unaddressed ∧ fe = false ∧ 1 ≤ nibbles ∧ t.low nibbles = pfx % 16 ^ nibbles then
    (if addr = 0 then t else { t with st := .addressed, addr := addr },
     [.tagPulse t.id 0, .tagBytes t.id (leBytes 8 t.id.toNat)])
  else (t, [])
/-- PING. -/
def tagPing (addr : Byte) (t : Tag) : Tag × List Out :=
  if t.hears addr then (t.discard, [.tagPulse t.id 0]) else (t, [])
/-- READ_INFO (R447). -/
def tagInfo (addr : Byte) (t : Tag) : Tag × List Out :=
  if t.hears addr then
    let t := t.discard
    (t, [.tagBytes t.id ([t.features &&& 3, t.statusByte] ++ leBytes 4 t.current.count.toNat ++ [t.current.wseq, 0])])
  else (t, [])
/-- PROVE (R449): the answer follows its strong window. -/
def tagProve (addr : Byte) (nonce : List Byte) (t : Tag) : Tag × List Out :=
  if t.hears addr then ({ t.discard with proving := some nonce }, []) else (t, [])
/-- The answer to PROVE (R486). -/
def Tag.proof (t : Tag) (nonce : List Byte) : List Byte :=
  let m := leBytes 8 t.id.toNat ++ leBytes 4 t.current.count.toNat ++ [t.statusByte]
  m ++ beBytes 16 (Config.cmac t.key (nonce ++ m)).toNat
/-- The MAC of a WRITE_PREPARE (R488). -/
def Tag.writeMac (t : Tag) (new : Word) (wseq : Byte) : BitVec 128 :=
  Config.cmac t.key ([7] ++ leBytes 8 t.id.toNat ++ leBytes 4 t.current.count.toNat ++ leBytes 4 new.toNat ++ [wseq])
/-- WRITE_PREPARE (R442, R488, R489). -/
def tagPrepare (addr : Byte) (new : Word) (wseq : Byte) (mac : BitVec 128) (fe : Bool) (t : Tag) : Tag × List Out :=
  if !t.hears addr || fe then (t, [])
  else
    let t := t.discard
    if wseq = t.current.wseq + 1 ∧ t.current.count ≠ 0xFFFFFFFF ∧ new = t.current.count + 1 ∧ mac = t.writeMac new wseq then
      ({ t with write := .held, held := (new, wseq) }, [.tagPulse t.id 0])
    else (t, [])
/-- WRITE_COMMIT (R442, R489): the MARK is written in the strong window, or a repeat is acknowledged. -/
def tagCommit (addr : Byte) (wseq : Byte) (fe : Bool) (t : Tag) : Tag × List Out :=
  if !t.hears addr || fe then (t, [])
  else if t.write = .programmed ∧ wseq = t.shadow.wseq then ({ t with committing := true, proving := none }, [])
  else if t.write = .idle ∧ wseq = t.current.wseq then ({ t with proving := none }, [.tagPulse t.id 0])
  else (t.discard, [])
/-- SET_SPEED (R436, R442, R451). -/
def tagSpeed (param : Byte) (fe : Bool) (t : Tag) : Tag × List Out :=
  if t.attached ∧ t.st ≠ .dormant ∧ fe = false then ({ t.discard with fast := t.fast || decide (param = 1) }, []) else (t, [])
/-- STRONG_WINDOW_END at one tag (R449, R486, R489). -/
def tagWindowEnd (verified : Bool) (t : Tag) : Tag × List Out :=
  if !t.attached || decide (t.st = .dormant) then (t, [])
  else match t.proving with
  | some n => ({ t with proving := none }, [.tagBytes t.id (t.proof n)])
  | none =>
    if t.committing then
      ({ t with current := { t.shadow with mark := true }, shadow := t.current, write := .idle, committing := false },
       [.tagPulse t.id 0])
    else match t.write with
      | .held =>
        if verified then
          ({ t with shadow := ⟨t.held.1, t.held.2, true, false⟩, write := .programmed, status := clrBit t.status 1 }, [])
        else ({ t with shadow := { t.shadow with valid := false, mark := false }, write := .idle, status := setBit t.status 1 }, [])
      | _ => (t, [])
/-- A tag without supply (R451). -/
def Tag.unpowered (t : Tag) : Tag := { t.discard with st := .dormant, addr := 0, fast := false }
/-- TAG_SUPPLY_LOSS (R490): in the commit window the old or the new count stands. -/
def tagLoss (committed : Bool) (t : Tag) : Tag :=
  if !t.attached then t
  else if t.committing && committed then
    { t with current := { t.shadow with mark := true }, shadow := t.current }.unpowered
  else if t.write = .idle then t.unpowered
  else { t with shadow := { t.shadow with valid := decide (t.write = TagWrite.programmed), mark := false } }.unpowered
/-- One tag changed. -/
def State.modTag (s : State) (i : Nat) (f : Tag → Tag) : State := { s with tags := s.tags.modify i f }

/-! ### The rows -/

def execTagProve (e : Entry) (s : State) : Host.Outcome State Fault Refusal := .next (cmdTagProve.dispatch e s)
def execTagIncrement (e : Entry) (s : State) : Host.Outcome State Fault Refusal := .next (cmdTagIncrement.dispatch e s)
def execChainSearch (e : Entry) (s : State) : Host.Outcome State Fault Refusal := .next (cmdChainSearch.dispatch e s)
def execChainList (e : Entry) (s : State) : Host.Outcome State Fault Refusal := .next (cmdChainList.dispatch e s)
def execChainPing (e : Entry) (s : State) : Host.Outcome State Fault Refusal := .next (cmdChainPing.dispatch e s)
def execChainConfig (e : Entry) (s : State) : Host.Outcome State Fault Refusal := .next (cmdChainConfig.dispatch e s)
def execQueryInnerChain (e : Entry) (s : State) : Host.Outcome State Fault Refusal :=
  .next (cmdQueryInnerChain.dispatch e s)
def execPeriodicSearch (idle : Half) (s : State) : Host.Outcome State Fault Refusal := .next (periodicSearch idle s)
def execPresenceWindowEnd (presence : Bool) (s : State) : Host.Outcome State Fault Refusal := .next (presenceEnd presence s)
def execRollWindowEnd (classes : Vector SlotClass 16) (s : State) : Host.Outcome State Fault Refusal :=
  .next (rollEnd classes s)
def execAssignAcknowledgement (cls : SlotClass) (s : State) : Host.Outcome State Fault Refusal := .next (assignAck cls s)
def execAssignIdRead (id : DWord) (edge : Bool) (s : State) : Host.Outcome State Fault Refusal := .next (assignRead id edge s)
def execSearchDone (s : State) : Host.Outcome State Fault Refusal := .next (searchEnd s)
def execChainReply (cls : SlotClass) (bytes : List Byte) (s : State) : Host.Outcome State Fault Refusal :=
  .next (chainReply cls bytes s)
def execPresenceChanged (idle : Half) (s : State) : Host.Outcome State Fault Refusal := .next (presenceChanged idle s)
def execStuckLow (s : State) : Host.Outcome State Fault Refusal := .next (stuckLow s)
def execLineHighResume (s : State) : Host.Outcome State Fault Refusal := .next (lineHigh s)
def execChnSeqReset (agent : Agent) (s : State) : Host.Outcome State Fault Refusal := .next (seqWrite 1 false 0 0 agent s)
def execSendChar (data : Byte) (agent : Agent) (s : State) : Host.Outcome State Fault Refusal :=
  .next (seqWrite 2 false data.toNat 0 agent s)
def execReadChar (wide : Bool) (agent : Agent) (s : State) : Host.Outcome State Fault Refusal :=
  .next (seqWrite 3 wide 0 0 agent s)
def execRollWindow (wide : Bool) (agent : Agent) (s : State) : Host.Outcome State Fault Refusal :=
  .next (seqWrite 4 wide 0 0 agent s)
def execAckSlot (wide : Bool) (agent : Agent) (s : State) : Host.Outcome State Fault Refusal :=
  .next (seqWrite 5 wide 0 0 agent s)
def execStrong (length : Half) (agent : Agent) (s : State) : Host.Outcome State Fault Refusal :=
  .next (seqWrite 6 false 0 length.toNat agent s)
def execEndGap (agent : Agent) (s : State) : Host.Outcome State Fault Refusal := .next (seqWrite 7 false 0 0 agent s)
def execSendFrame (length : Half) (agent : Agent) (s : State) : Host.Outcome State Fault Refusal :=
  .next (seqWrite 8 false 0 length.toNat agent s)
def execRecvFrame (agent : Agent) (s : State) : Host.Outcome State Fault Refusal := .next (seqWrite 9 false 0 0 agent s)
def execChnSeqDone (result : Word) (frame : List Byte) (s : State) : Host.Outcome State Fault Refusal :=
  .next (seqDone result frame s)
def execFullReset (s : State) : Host.Outcome State Fault Refusal := .next (s.tagsDo tagReset)
def execRoll (level : Fin 16) (_wide : Bool) (prefix_ : DWord) (s : State) : Host.Outcome State Fault Refusal :=
  .next (s.tagsDo (tagRoll level.val prefix_.toNat))
def execAssign (nibbles : Fin 17) (prefix_ : DWord) (address : Byte) (fe : Bool) (s : State) :
    Host.Outcome State Fault Refusal := .next (s.tagsDo (tagAssign nibbles.val prefix_.toNat address fe))
def execPing (address : Byte) (s : State) : Host.Outcome State Fault Refusal := .next (s.tagsDo (tagPing address))
def execReadInfo (address : Byte) (s : State) : Host.Outcome State Fault Refusal := .next (s.tagsDo (tagInfo address))
def execProve (address : Byte) (nonce : Vector Byte 16) (s : State) : Host.Outcome State Fault Refusal :=
  .next (s.tagsDo (tagProve address nonce.toList))
def execWritePrepare (address : Byte) (newCount : Word) (wseq : Byte) (mac : BitVec 128) (fe : Bool) (s : State) :
    Host.Outcome State Fault Refusal := .next (s.tagsDo (tagPrepare address newCount wseq mac fe))
def execWriteCommit (address : Byte) (wseq : Byte) (fe : Bool) (s : State) : Host.Outcome State Fault Refusal :=
  .next (s.tagsDo (tagCommit address wseq fe))
def execSetSpeed (param : Byte) (fe : Bool) (s : State) : Host.Outcome State Fault Refusal :=
  .next (s.tagsDo (tagSpeed param fe))
def execStrongWindowEnd (tag : Nat) (verified : Bool) (s : State) : Host.Outcome State Fault Refusal :=
  .next (match s.tags[tag]? with
    | some t => (s.modTag tag fun t => (tagWindowEnd verified t).1).emits (tagWindowEnd verified t).2
    | none => s)
def execTagSupplyLoss (tag : Nat) (committed : Bool) (s : State) : Host.Outcome State Fault Refusal :=
  .next (s.modTag tag (tagLoss committed))
/-- TAG_POWER_UP (R451). -/
def execTagPowerUp (tag : Nat) (s : State) : Host.Outcome State Fault Refusal :=
  .next (s.modTag tag fun t => { t.unpowered with attached := true })

end Sys2Proof.Machine
end

