-- ==== Sys2Proof/Machine/Repair.lean ====
section
/-! DEFINITION. Repair at run time: row sparing (19 R495), the monitors and suspect skeins (R496, R497), the scrub (14 R384),
and the maintenance packets of the mesh (09 R242, R244). -/
namespace Sys2Proof.Machine
open Sys2Proof

/-! ### Monitors and suspect skeins -/

/-- A physical skein that is powered: the skein of a powered logical one, or any that a census tests (R499). -/
def State.monitored (s : State) (p : Fin 20) : Bool :=
  ((allFin 16).any fun k => s.powered k && decide ((s.map.skeins[k].map fun l => l.phys) = some p)) ||
  (s.rep.run.isSome && !s.rep.retiredSkeins.getLsbD p.val)
/-- A physical skein becomes suspect, which arms a census (R497). -/
def State.suspectSkein (s : State) (p : Fin 20) (full : Bool) (margin : Nat) : State :=
  let s : State := s.modRep fun r => { r with
    suspect := setBit r.suspect p.val, pending := true, pendingFull := r.pendingFull || full }
  (s.repEvent 0).droppedStitch (s.logicalOf p.val) 5 p.val 0 margin
/-- AGING_MEASUREMENT: the margin stored, and the warning or the suspicion below the limits (R497, R506). -/
def agingMeasurement (p : Fin 20) (margin : Byte) (s : State) : State :=
  if !s.monitored p then s
  else
    let m := margin.toNat
    let s : State := s.modRep fun r => { r with aging := r.aging.set p (mkW [(0, 8, m), (8, 1, 1)]) }
    let s : State := if m < fld s.rep.limits 7 0 then
        (s.repEvent 2).droppedStitch (s.logicalOf p.val) 6 p.val 0 m
      else s
    if m < fld s.rep.limits 15 8 then s.suspectSkein p true m else s
/-- One second of device time, which counts in units of 10 ns. -/
def droopWindow : Nat := 100000000
/-- DROOP_EVENT: counted, and more than DROOP_LIMIT of them within 1 s make the skein suspect (R496, R497). -/
def droopEvent (p : Fin 20) (s : State) : State :=
  if !s.monitored p then s
  else
    let now := s.deviceTime
    let recent := (s.rep.droopRecent[p].filter fun t => decide ((now - t).toNat < droopWindow)) ++ [now]
    let s : State := s.modRep fun r => { r with
      droop := r.droop.set p (satAdd r.droop[p] 1), droopQuery := r.droopQuery + 1,
      droopRecent := r.droopRecent.set p recent }
    let s : State := s.repEvent 3
    if fld s.rep.limits 31 16 < recent.length then s.suspectSkein p true (fld s.rep.aging[p] 7 0) else s
/-- ROW_SPARE_COPY_DONE: the row takes a free spare row of its bank and is recorded, its content kept; without a free one the
row stays in use and the skein becomes suspect (R495). -/
def rowSpareCopyDone (k bank : Fin 16) (row : Fin 256) (s : State) : State :=
  match s.map.skeins[k] with
  | none => s
  | some l =>
    if (s.skeins[k]).spareRows[bank].toNat < 8 then
      let s : State := s.modSkein k fun x => { x with spareRows := x.spareRows.set bank (x.spareRows[bank] + 1) }
      (s.repEvent 6).addEntry 2 l.phys.val (bank.val * 256 + row.val) k.val
    else s.suspectSkein l.phys false (fld s.rep.aging[l.phys] 7 0)

/-! ### The scrub -/

/-- The 32-byte granules of one stack of 24 GiB. -/
def stackGranules : Nat := 24 * 0x40000000 / 32
/-- Stacks that the scrub reads. -/
def State.scrubs (s : State) (b : Fin 4) : Bool := s.stack[b].present && s.stack[b].scrubEn
/-- The granule after one, counted over the stacks in order: stacks without the scrub are passed over. -/
def State.nextScrub (s : State) (g : Nat) : Nat :=
  let b := g / stackGranules
  if s.scrubs (Fin.ofNat 4 b) && decide ((g + 1) % stackGranules ≠ 0) then g + 1
  else match [b + 1, b + 2, b + 3, b + 4].find? fun j => s.scrubs (Fin.ofNat 4 j) with
    | some j => j % 4 * stackGranules
    | none => g
/-- SCRUB_READ: the next granule is read. What the base die corrects it writes back itself, and what it cannot correct stays
as it is: either way memory reads as before (R384). -/
def scrubRead (s : State) : State :=
  if s.selv.st.working then s.modRep fun r => { r with scrub := s.nextScrub r.scrub } else s

/-! ### Maintenance packets -/

/-- A maintenance packet at a router: a router of no swatch lets it pass; another confines it like any packet (R244). The
firmware alone issues on MNT: there is no such packet of another issuer, and it does nothing (R242, log 167). -/
def State.maintain (s : State) (r : Fin 16) (h : PktHead) (kind : Nat) (f : State) : State :=
  if h.issuer ≠ .firmware then s else if (s.skeins[r]).mesh.swatch.isNone then f else s.arrive r h [h.dst] false 3 kind none f
/-- CENSUS_LOOPBACK: passed on to its destination, which sends it back. -/
def censusLoopback (r : Fin 16) (h : PktHead) (s : State) : State :=
  s.maintain r h 11 (s.emit (.maintenance (if r = h.dst then h.back else h) 11 []))
/-- SAVE_AND_RESTORE: a save returns the bytes of a store, and a restore writes them. -/
def saveAndRestore (r : Fin 16) (h : PktHead) (restore : Bool) (offset : BitVec 22) (d : List Byte) (s : State) : State :=
  let len := min 256 d.length
  let a := 0x400000 * r.val + offset.toNat
  s.maintain r h 12 (
    if r ≠ h.dst then s.emit (.maintenance h 12 d)
    else if 0x400000 < offset.toNat + len then s
    else if restore then s.put a ((d.take len).map some)
    else s.emit (.maintenance h.back 12 (memRead s.mem a len)))
/-- ROUTER_CONFIGURATION: the rectangle and the swatch of a router (R244). -/
def routerConfiguration (r : Fin 16) (sw : Option (Fin 8)) (c0 w0 c1 w1 : Fin 4) (s : State) : State :=
  s.modMesh r fun m => { m with swatch := sw, course0 := c0, wale0 := w0, coursesM1 := c1, walesM1 := w1 }

/-! ### The rows -/

def execCensusLoopback (at_ : Fin 16) (h : PktHead) (s : State) : Host.Outcome State Fault Refusal :=
  .next (censusLoopback at_ h s)
def execSaveAndRestore (at_ : Fin 16) (h : PktHead) (restore : Bool) (offset : BitVec 22) (data : List Byte) (s : State) :
    Host.Outcome State Fault Refusal := .next (saveAndRestore at_ h restore offset data s)
def execRouterConfiguration (at_ : Fin 16) (swatch : Option (Fin 8)) (course0 wale0 coursesM1 walesM1 : Fin 4) (s : State) :
    Host.Outcome State Fault Refusal := .next (routerConfiguration at_ swatch course0 wale0 coursesM1 walesM1 s)
def execRowSpareCopyDone (s_ : Fin 16) (bank : Fin 16) (row : Fin 256) (s : State) : Host.Outcome State Fault Refusal :=
  .next (rowSpareCopyDone s_ bank row s)
def execAgingMeasurement (p : Fin 20) (margin : Byte) (s : State) : Host.Outcome State Fault Refusal :=
  .next (agingMeasurement p margin s)
def execDroopEvent (p : Fin 20) (s : State) : Host.Outcome State Fault Refusal := .next (droopEvent p s)
def execScrubRead (_corrected _poisoned : Bool) (s : State) : Host.Outcome State Fault Refusal := .next (scrubRead s)

end Sys2Proof.Machine
end

