-- ==== Sys2Proof/Machine/Txn.lean ====
section
/-! DEFINITION. Transactions at the edge ports (03 R48 to R58, R62 to R66): flits, requests served, responses matched, ports
lost, PLY transfers (09 R254), the tick of a twin secondary (07 R182) and relayed commands (05 R106). -/
namespace Sys2Proof.Machine
open Sys2Proof

/-! ### Answers to this die's own requests -/

/-- Part of a MEM_FILL or MEM_COPY on the other die answered (06 R158): data read is written, and the command ends with its
last part or with an error. -/
def State.finishCopy (s : State) (a : Access) (addr : Option Nat) (r : CmdRef) (err : Option Nat) (d : List Byte) : State :=
  let fail (st : Nat) (s : State) : State :=
    let off (x : Access) : Access := if x.partOf r then { x with dest := .none, live := false } else x
    ({ s with accesses := s.accesses.map off } : State).reply r st
  let s : State := s.dropAccess a.id
  if err.isSome then fail (if err ≠ some 5 ∧ s.twinPort.isSome then stNotPermitted else stMediaError) s
  else match addr with
    | none => if s.accesses.any fun x => x.partOf r then s else s.ok r
    | some b =>
      if s.onLost b then fail stMediaError (s.mediaError none b)
      else match s.region b, s.twinPort with
        | .twin, some p => s.sendAccess .firmware p (b - twinBase) b (.write (d.map some)) (.copy none r) .mgmt
        | _, _ =>
          let s : State := s.putOwn (if r.swatch.toNat < 8 then some (Fin.ofNat 8 r.swatch.toNat) else none) b (d.map some)
          if s.accesses.any fun x => x.partOf r then s else s.ok r
/-- An access of the host answered (R387, R13). -/
def State.finishHost (s : State) (f : Fin 2) (a : Access) (err : Option Nat) (d : List Byte) : State :=
  let s : State := s.dropAccess a.id
  match a.op, err with
  | .regRead, none => s.emit (.readData (.host f) (BitVec.ofNat 32 (leAt d 0 4)))
  | .regRead, some _ => (s.emit (.readData (.host f) 0xFFFFFFFF)).badAcc
  | .read _, none => s.emit (.barData f false d)
  | .read n, some 5 => s.emit (.barData f true (List.replicate n 0))
  | .read n, some _ => (s.emit (.barData f false (List.replicate n 0xFF))).badAcc
  | _, none => s
  | _, some _ => s.badAcc
/-- An access of the firmware answered. -/
def State.finishFirmware (s : State) (a : Access) (err : Option Nat) (d : List Byte) : State :=
  match a.dest with
  | .copy addr r => s.finishCopy a addr r err d
  | .view _ _ _ _ _ _ _ _ (.copy addr r) =>
    if err.isSome then (s.viewCut a.dest).finishCopy a addr r err d
    else match (s.dropAccess a.id).viewPart a.dest d with
      | (t, some x) => (t.finishCopy a addr r none x.2).viewLoads
      | (t, none) => t
  | _ =>
    let s : State := s.dropAccess a.id
    match a.op, err with
    | .regRead, none => s.emit (.readData .firmware (BitVec.ofNat 32 (leAt d 0 4)))
    | .regRead, some _ => s.emit (.readData .firmware 0xFFFFFFFF)
    | _, _ => s
/-- The bytes an access asked for, of the granules that came (R49, R50). -/
def Access.wanted (a : Access) (d : List Byte) : List Byte :=
  match a.op with
  | .read n => padTo n (slice d (a.addr % 32) n)
  | .regRead => padTo 4 (slice d 0 4)
  | _ => []
/-- An access at a port ends: with data, or with the cause of a fault (R266, R288, R402). -/
def State.complete (s : State) (a : Access) (err : Option Nat) (d : List Byte) : State :=
  let d := a.wanted d
  match a.who with
  | .needle n => s.finishNeedle n a err d
  | .mover k m => s.finishMover k m a err d
  | .distaff c => s.finishCore c a err d
  | .host f => s.finishHost f a err d
  | .firmware => s.finishFirmware a err d
/-- The access a response is for (R54). -/
def State.byTag (s : State) (p : Fin 10) (tag : Fin 2048) : Option Access :=
  s.accesses.find? fun a => decide (a.path = .port p ∧ a.tag = some tag)
/-- Whether an access waits for RD_RSP, rather than for WR_ACK. -/
def Access.reads (a : Access) : Bool := a.op.isRead || decide (a.op = .regRead)
/-- A flit dropped and answered with a NAK (R56). -/
def State.sendNak (s : State) (p : Fin 10) : State :=
  (s.modPort p fun e => { e with unacked := 0 }).emit (.ack p true (s.ports[p].nextRecv - 1))
/-- A protocol error, treated as a CRC failure (R56). -/
def State.protocolError (s : State) (p : Fin 10) : State := (s.edgeEvent p 0x10).sendNak p
/-- What follows an answer at a port: its TAG is free for a request that waits, and a change of routing (R59) or SREF_ENTER (R386) may wait for it. -/
def State.afterAnswer (s : State) (p : Fin 10) : State :=
  let s : State := s.inject
  if s.fuses.ports[p].role = .stack then (s.tryReroute s.fuses.ports[p].stack).trySref s.fuses.ports[p].stack else s
/-- A response: matched by its TAG, or a protocol error (R50, R54, R56). -/
def State.response (s : State) (h : TxnHead) (fits : Access → Bool) (err : Option Nat) (d : List Byte) : State :=
  if !s.portUp h.port then s
  else match s.byTag h.port h.tag with
    | none => s.protocolError h.port
    | some a => if fits a then (s.complete a err d).afterAnswer h.port else s.protocolError h.port
/-- RD_RSP: data with POISON is uncorrectable (R49, R383). -/
def readResponse (h : TxnHead) (d : List Byte) (s : State) : State :=
  let s : State := if h.poison ∧ s.portUp h.port then s.edgeEvent h.port 0x20 else s
  s.response h Access.reads (if h.poison then some 5 else none) d
/-- WR_ACK (R55). -/
def writeAck (h : TxnHead) (s : State) : State := s.response h (fun a => !a.reads) none []
/-- ERR_RSP: 0x01 uncorrectable, with MASK_FAIL for a masked write (R383), anything else a refusal (R50, R288). -/
def errorResponse (h : TxnHead) (s : State) : State :=
  let part (a : Access) : Bool := match a.op with
    | .write b => decide (a.addr % 32 ≠ 0 ∨ b.length % 32 ≠ 0) || !b.all Option.isSome
    | _ => false
  let masked : State := match s.byTag h.port h.tag with
    | some a => if s.portUp h.port && part a && decide (s.region a.addr = .stack ∧ h.addr.toNat % 256 = 1) then s.maskFail a.addr
      else s
    | none => s
  masked.response h (fun _ => true) (some (if h.addr.toNat % 256 = 1 then 5 else 9)) []

/-! ### Requests served -/

/-- The bytes a request names. -/
def txnBytes (h : TxnHead) : Nat := 32 * (h.len.val + 1)
/-- An answer: the base die and Shuskaub answer what Lumaz sends; Lumaz answers through its port (R50). -/
def State.answer (s : State) (h : TxnHead) (far : Bool) (ttype : BitVec 5) (poison : Bool) (code : Nat) (d : List Byte) : State :=
  let len : Fin 4 := if ttype = 8 then h.len else 0
  let t : SentTxn := ⟨ttype, 0, { h with len := len, poison := poison, addr := BitVec.ofNat 40 code }, d.map some⟩
  if far then s.emit t.sent else s.transmit t
def State.errAnswer (s : State) (h : TxnHead) (far : Bool) (code : Nat) : State := s.answer h far 0x0A false code []
def State.ackAnswer (s : State) (h : TxnHead) (far : Bool) : State := s.answer h far 0x09 false 0 []
/-- What a request meets: the port has no such link, an error code, or the addresses of its granules and whether the far
side serves it. -/
inductive Target
  | noLink
  | err (far : Bool) (code : Nat)
  | at_ (far : Bool) (granules : List Nat)
deriving DecidableEq, Repr
/-- Granules upward from an address. -/
def upFrom (b n : Nat) : List Nat := (List.range n).map fun k => b + 32 * k
/-- A bobbin of this package whose ring an address lies in, served as that bobbin (R413): the addresses of the granules. -/
def State.bobSpan (s : State) (a n : Nat) (write : Bool) : Option (List Nat) :=
  (allFin 48).findSome? fun i =>
    let b := s.bobbins[i]
    if b.bound && within a n b.ring.toNat (256 + b.size * strideOf b.frame.toNat) then
      (s.bobRows b a n write).map fun l => l.flatMap fun x => upFrom x.1 (x.2 / 32)
    else none
/-- Where a memory request lies, by the role of its port (R51, R63, R65): a stack's granules, all of its 24 GiB; Shuskaub's
request, as its bobbin or the host scope, or Lumaz's own into the host window behind it; the other die's request. -/
def State.target (s : State) (h : TxnHead) (need : Need) : Target :=
  let a := h.addr.toNat
  let n := h.len.val + 1
  let write : Bool := decide (need ≠ .read)
  let own (o : Option (List Nat)) : Target :=
    if a % 32 ≠ 0 then .err false 3
    else match o with
      | some l => if l.any s.onLost then .err false 1 else .at_ false l
      | none => .err false 2
  let one (o : Option Nat) : Option (List Nat) := o.map fun b => upFrom b n
  match s.fuses.ports[h.port].role with
  | .stack =>
    let b := s.fuses.ports[h.port].stack
    if a % 32 ≠ 0 then .err true 3
    else if 24 * 0x40000000 < a + (txnBytes h) then .err true 2
    else if s.stack[b].lost then .err true 1
    else .at_ true ((upFrom a n).map (s.addrOf b))
  | .twin => own (one (s.twinSpan a (txnBytes h) need))
  | .shus =>
    if need = .atomic then .err false 3
    else if s.fuses.shusPcie ∧ s.region a = .host then (if a % 32 ≠ 0 then .err true 3 else .at_ true (upFrom a n))
    else own ((s.bobSpan a (txnBytes h) write).or (one (s.hostSpan a (txnBytes h) write)))
  | _ => .noLink
/-- A request that arrives at a port that is up, served where it lies. -/
def State.serveAt (s : State) (h : TxnHead) (need : Need) (f : Bool → List Nat → State → State) : State :=
  if !s.portUp h.port then s
  else match s.target h need with
    | .noLink => s
    | .err far code => s.errAnswer h far code
    | .at_ far l => f far l s
/-- RD: an uncorrectable granule sets POISON, and the base die reports it (R50, R63, R383). -/
def readRequest (h : TxnHead) (s : State) : State :=
  s.serveAt h .read fun far l s =>
    let bad := l.any s.isBad
    let s : State := s.answer h far 0x08 bad 0 (l.flatMap fun g => memRead s.mem g 32)
    if bad ∧ s.fuses.ports[h.port].role = .stack then
      s.emit (.msg h.port 0x12 (padTo 32 (leBytes 5 (h.addr.toNat + 32 * l.findIdx s.isBad))))
    else s
/-- Granules written in order. -/
def State.putGranules (s : State) (l : List Nat) (bs : List (Option Byte)) : State :=
  (l.zip (List.range l.length)).foldl (fun s x => s.put x.1 ((bs.drop (32 * x.2)).take 32)) s
/-- WR: whole granules; data that came with POISON stays uncorrectable (R49, R50). -/
def writeRequest (h : TxnHead) (d : List Byte) (s : State) : State :=
  let d := (padTo (txnBytes h) (d.take (txnBytes h))).map some
  s.serveAt h .write fun far l s =>
    let s : State := s.putGranules l d
    let s : State := if h.poison then { s with poison := s.poison ++ l.filter fun g => !s.poison.contains g } else s
    let s : State := if h.poison ∧ !far then s.edgeEvent h.port 0x20 else s
    s.ackAnswer h far
/-- WR_MASK: a granule with an uncorrectable error refuses a masked write, and then nothing is written (R50, R383, R55). -/
def maskedWrite (h : TxnHead) (mask : Vector Byte 32) (d : List Byte) (s : State) : State :=
  let on (i : Nat) : Bool := ((mask.toList.getD (i / 8) 0).getLsbD (i % 8))
  let bs : List (Option Byte) := (List.range (txnBytes h)).map fun i => if on i then some (d.getD i 0) else none
  s.serveAt h .write fun far l s =>
    let bad := (l.zip (List.range l.length)).any fun x => s.isBad x.1 && ((bs.drop (32 * x.2)).take 32).any Option.isSome
    if bad then s.errAnswer h far 1 else (s.putGranules l bs).ackAnswer h far
/-- SUBOP of an atomic add (R50). -/
def atFmt (c : Fin 8) : Option AtFmt :=
  match c.val with
  | 0 => some .int32 | 1 => some .fp32 | 2 => some .fp16 | 3 => some .bf16 | _ => none
/-- ATOM_ADD: element-wise, in order of arrival (R50, R63, R345). -/
def atomicRequest (h : TxnHead) (subop : Fin 8) (d : List Byte) (s : State) : State :=
  s.serveAt h .atomic fun far l s =>
    match atFmt subop with
    | none => s.errAnswer h far 3
    | some f =>
      if l.any s.isBad then s.errAnswer h far 1
      else
        let bs : List (Option Byte) := (padTo (txnBytes h) (d.take (txnBytes h))).map some
        ((l.zip (List.range l.length)).foldl (fun s x =>
          (s.serve x.1 (.atomic f ((bs.drop (32 * x.2)).take 32))).1) s).ackAnswer h far

/-! ### Register requests -/

/-- Whom a register request of the other die is served for (R65): its firmware, or a host function with the block's grant. -/
def State.regFor (s : State) (fw : Bool) (a : Nat) (write : Bool) : Option Agent :=
  if fw then some .firmware
  else (s.blockAt a).bind fun x => (((allFin 2).find? fun f => s.holds (.host f) x.1 x.2 && s.reaches (.host f) x.1 x.2 write).map
    fun f => Agent.host f)
/-- A register of a block that lies on Shuskaub (R407). -/
def State.onShuskaub (s : State) (a : Nat) : Bool :=
  match s.blockAt a with
  | some (.bob, _) => true
  | some (.pin, _) => true
  | some (.chnOut, _) => true
  | _ => false
/-- A register request: on a SHUS port Shuskaub serves its own registers, on a TWIN port this die serves its own (R50, R65). -/
def State.regRequest (s : State) (h : TxnHead) (fw write : Bool) (f : Bool → Agent → State → State) : State :=
  let a := h.addr.toNat
  if !s.portUp h.port then s
  else match s.fuses.ports[h.port].role with
    | .stack => s.errAnswer h true 3
    | .shus => if a % 4 = 0 && s.onShuskaub a then f true .firmware s else s.errAnswer h true 2
    | .twin => match s.regFor fw a write with
      | some ag => if a % 4 = 0 then f false ag s else s.errAnswer h false 2
      | none => s.errAnswer h false 2
    | _ => s
def regReadRequest (h : TxnHead) (fw : Bool) (s : State) : State :=
  s.regRequest h fw false fun far ag s =>
    let r := s.regRead ag h.addr.toNat
    r.1.answer { h with len := 0 } far 0x08 false 0 (padTo 32 (leBytes 4 r.2.toNat))
/-- A doorbell of a secondary's core (R106): the ring must be of SCOPE_DIE 1 and of the core's swatch, else it is dropped and
counted (R118). The word of the mailbox and the layout of the value are a DESIGN CHOICE (log 141). -/
def State.twinBell (s : State) (h : TxnHead) (far : Bool) (w : Word) : State :=
  let n := (h.addr.toNat - 0x10031000) / 4
  let r : RingId := if n < 16 then .sq (Fin.ofNat 16 n) else .cq (Fin.ofNat 16 n)
  if s.bellFor true (fld w 18 16) r then (s.ringBell r (w.setWidth 16)).ackAnswer h far else s.badAcc.errAnswer h far 2
def regWriteRequest (h : TxnHead) (fw : Bool) (g : Vector Byte 32) (s : State) : State :=
  s.regRequest h fw true fun far ag s =>
    if fw ∧ !far ∧ s.fuses.primary ∧ 0x10031000 ≤ h.addr.toNat ∧ h.addr.toNat < 0x10031080 then
      s.twinBell h far (BitVec.ofNat 32 (leAt g.toList 0 4))
    else
    (s.regWrite ag h.addr.toNat (BitVec.ofNat 32 (leAt g.toList 0 4))).ackAnswer h far

/-! ### PLY, the twin's tick and relayed commands -/

/-- PLY: an entry of a twin channel; without a matching end it is dropped (R254). -/
def plyArrives (h : TxnHead) (d : List Byte) (s : State) : State :=
  if s.fuses.ports[h.port].role ≠ .twin ∨ !s.portUp h.port then s
  else match s.plyChan h.addr.toNat with
    | some x =>
      let a := h.addr.toNat
      let shift : Option Byte := if a / 0x1000000 % 2 = 1 then some (BitVec.ofNat 8 (a / 0x10000)) else none
      s.entryArrives x.1 x.2 (BitVec.ofNat 12 a) shift (toVec 64 d)
    | none => s
/-- TICK from the primary: the secondary runs its tick, and answers when its commit actions have finished (R182, R65). -/
def twinTick (row : DWord) (s : State) : State :=
  if s.selv.ready && !s.fuses.primary && !s.tripped then
    let s : State := s.modTick fun t => { t with count := row }
    let s : State := s.runTick
    match s.twinPort with
    | some p => s.sendMsg p 0x31 (padTo 32 (leBytes 8 row.toNat))
    | none => s
  else s
/-- Every Renaro command (06). -/
def allCmds : List Cmd :=
  [cmdNop, cmdQueryDevice, cmdSetDeviceState, cmdSetBudget, cmdSetWake, cmdQueryPower, cmdRestart, cmdFwUpdate, cmdSetBootCtrl,
   cmdCastSwatch, cmdKnit, cmdStopKnit, cmdHoldSwatch, cmdRestoreSwatch, cmdBindOffSwatch, cmdQuerySwatch, cmdSetSwatchPpoint,
   cmdSetSwatchGauge, cmdGrantDistaff, cmdReturnDistaff, cmdCommitDraft, cmdFrogDraft] ++
  [cmdQueryMemory, cmdAllocHanks, cmdFreeHanks, cmdMemFill, cmdMemCopy, cmdLoadProgram, cmdUnloadProgram, cmdLoadCardProgram,
   cmdLoadStitchMap, cmdBindBobbin, cmdUnbindBobbin, cmdRunBobbin, cmdQueryBobbin, cmdQueryTick, cmdSetTickPeriod, cmdWaitTick,
   cmdQueryHealth, cmdReadMap, cmdReadDistance, cmdRunCensus, cmdPortReenable, cmdSetRepairCtrl] ++
  [cmdExpertGrant, cmdExpertRelease, cmdQueryGrant, cmdDebugEcho, cmdDebugReadLog, cmdDebugReadReg, cmdDebugSetLog,
   cmdAttest, cmdGetCerts, cmdAdopt, cmdLoadTagMaster, cmdReadYardage, cmdAddYardage, cmdRaiseSvn,
   cmdChainSearch, cmdChainList, cmdChainPing, cmdChainConfig, cmdQueryInnerChain, cmdTagProve, cmdTagIncrement]
/-- RELAY_CMD: the secondary checks the command under R123 against its own state, and runs it (R106). -/
def relayedCmd (opcode : Half) (x : RelayEntry) (s : State) : State :=
  if s.fuses.primary ∨ !s.selv.ready then s
  else match allCmds.find? fun c => decide (c.op = opcode.toNat) with
    | some c => c.run x.scope.val (x.entry.ref true 0) x.entry s
    | none => s.reply (x.entry.ref true 0) stInvalidOpcode

/-! ### Ports that fail (R58, R62) -/

/-- A port goes DOWN: what it has not answered is answered with an error, windows that need it are Held, and routes follow. -/
def State.portDown (s : State) (p : Fin 10) : State :=
  let gone (e : EdgePort) : EdgePort :=
    { e with st := .down, rate := 0, modules := 0, retrainReq := false, sref := .none, outq := [], retryBuf := [], rx := [] }
  let s : State := (s.modPort p gone).edgeEvent p 8
  let s : State := { s with gauge := { s.gauge with fifo := s.gauge.fifo.filter fun x => decide (x.port ≠ p) } }
  let s : State := (s.accesses.filter fun a => decide (a.path = .port p)).foldl (fun s a => s.complete a (some 9) []) s
  let s : State := ((s.noteRate p).portLostHolds p).portMoved
  let s : State := if s.fuses.ports[p].role = .stack then
      (s.tryReroute s.fuses.ports[p].stack).trySref s.fuses.ports[p].stack else s
  s.answerReenable p stTimeout
/-- MB_TRAINING_DONE (R38, R39): `rate0` and `rate1` are the highest rates at which each module trains, 0 none:
a module that offers nothing R37 lists (a standard package, another mapping or rate, a retimer) trains at none (R8). With no
module the port is DOWN and R58 applies (R536). -/
def trainingDone (p : Fin 10) (rate0 rate1 : BitVec 2) (map : Half) (s : State) : State :=
  if s.ports[p].st ≠ .mbTrain then s
  else
    let cap := max 1 s.ports[p].maxRate.toNat
    let a := min rate0.toNat cap
    let b := min rate1.toNat cap
    if a = 0 ∧ b = 0 then s.portDown p
    else
      let both := decide (a ≠ 0 ∧ b ≠ 0)
      let s := s.modPort p fun e => { e with
        st := .creditInit
        rate := BitVec.ofNat 2 (if both then min a b else max a b)
        modules := BitVec.ofNat 2 (b2n (decide (a ≠ 0)) + 2 * b2n (decide (b ≠ 0))) }
      let s := if both then s else s.edgeEvent p 0x04
      let s := s.noteLanes p map
      if s.fuses.ports[p].role = .host then s else s.emit (.sideband p 0x03 ownCredits)
/-- PORT_TRAINING_DEADLINE (R62, R536). -/
def trainingLate (p : Fin 10) (s : State) : State :=
  match s.ports[p].st with
  | .sbInit => s.portDown p
  | .roleCheck => s.portDown p
  | .mbTrain => s.portDown p
  | .creditInit => s.portDown p
  | _ => s
/-- RETRAIN_TIMEOUT: modules whose retrain has not finished are down; with the other one the port goes on (R58). -/
def retrainLate (p : Fin 10) (modules : BitVec 2) (s : State) : State :=
  let m := modules &&& s.ports[p].modules
  if s.ports[p].st ≠ .retrain ∨ m = 3 then s
  else if m = 0 then s.portDown p
  else
    let s : State := s.modPort p fun e => { e with
      st := .degraded, modules := m, spikeLast := 20000, retrainReq := false, retryTally := 0 }
    let s : State := (s.edgeEvent p 4).noteRate p
    let s : State := (s.emit (.replay p (s.ports[p].farAcked + 1) s.ports[p].retryBuf)).flow p
    if s.fuses.ports[p].role = .stack then (s.tryReroute s.fuses.ports[p].stack).trySref s.fuses.ports[p].stack else s

/-! ### Flits (R48, R49, R56) -/

/-- Whether the CRC of a flit fits. -/
def flitCrcOk (l : List Byte) : Bool := decide (leAt l 28 4 = crc32c (l.take 28 ++ l.drop 32))
/-- The three transaction-header slots. -/
def flitSlots (l : List Byte) : List DWord := [4, 12, 20].map fun o => BitVec.ofNat 64 (leAt l o 8)
/-- The types of R50. -/
def txnTypes : List Nat := [0x01, 0x02, 0x03, 0x04, 0x05, 0x06, 0x08, 0x09, 0x0A, 0x10, 0x11]
/-- Whether a slot is a protocol error (R56): an undefined TTYPE, or a response with an unknown TAG. -/
def State.slotBad (s : State) (p : Fin 10) (w : DWord) : Bool :=
  let t := fld w 4 0
  decide (t ≠ 0) && (!txnTypes.contains t || (decide (8 ≤ t ∧ t ≤ 0x0A) && (s.byTag p (Fin.ofNat 2048 (fld w 15 5))).isNone))
/-- The header a slot holds (R49). -/
def slotHead (p : Fin 10) (w : DWord) : TxnHead :=
  ⟨p, Fin.ofNat 2048 (fld w 15 5), Fin.ofNat 4 (fld w 17 16), Fin.ofNat 4 (fld w 19 18), w.getLsbD 20, BitVec.ofNat 40 (fld w 63 24)⟩
/-- The class and the data granules of a slot's transaction. -/
def slotCls (w : DWord) : Nat := SentTxn.cls ⟨w.setWidth 5, 0, slotHead 0 w, []⟩
def slotGranules (w : DWord) : Nat := txnGranules (fld w 4 0) (fld w 17 16)
/-- Whether all data of a received transaction has come. -/
def RxTxn.full (x : RxTxn) : Bool := decide (32 * slotGranules x.slot ≤ x.data.length)
/-- One granule of the stream: it belongs to the first transaction that still lacks data, in the order of the headers (R52). -/
def takeGranule : List RxTxn → List Byte → List RxTxn
  | [], _ => []
  | x :: l, d => if x.full then x :: takeGranule l d else { x with data := x.data ++ d } :: l
/-- A flit's headers and granules taken in. -/
def takeFlit (rx : List RxTxn) (l : List Byte) : List RxTxn :=
  let rx := rx ++ ((flitSlots l).filter fun w => decide (fld w 4 0 ≠ 0)).map fun w => ⟨w, []⟩
  (List.range 7).foldl (fun rx k => takeGranule rx (slice l (32 + 32 * k) 32)) rx
/-- Whether the far side sent a transaction without a credit (R53, R56): what it has sent whose credits are not returned is more
than this side advertised. -/
def creditOver (rx : List RxTxn) : Bool :=
  let most : List (Nat × Nat × Nat) := [(0, 256, 512), (1, 8, 8), (2, 32, 224)]
  most.any fun m =>
    let mine := rx.filter fun x => decide (slotCls x.slot = m.1)
    decide (m.2.1 < mine.length ∨ m.2.2 < sumN (mine.map fun x => slotGranules x.slot))
/-- Credits returned for transactions taken in (R53). -/
def State.returnCredits (s : State) (p : Fin 10) (l : List RxTxn) : State :=
  [(0 : Fin 3), 1, 2].foldl (fun s c =>
    let mine := l.filter fun x => decide (slotCls x.slot = c.val)
    if mine.isEmpty then s else s.emit (.credit p c mine.length (sumN (mine.map fun x => slotGranules x.slot)))) s
/-- A message that a flit brought (R60). One from the far side whose code is not listed is counted; the payloads are laid out as
this side sends its own, and RELAY_CMD and RELAY_RSP arrive as their rows (log 38). -/
def takeMessage (h : TxnHead) (d : List Byte) (s : State) : State :=
  let p := h.port
  let on (r : Role) (f : State → State) : State := if s.fuses.ports[p].role = r then f s else s
  match h.addr.toNat % 65536 with
  | 0x10 => on .stack (stackTemp p (BitVec.ofNat 16 (leAt d 0 2)))
  | 0x11 => on .stack (eccCorrected p (BitVec.ofNat 16 (leAt d 0 2)))
  | 0x12 => on .stack (eccUncorrected p (leAt d 0 5))
  | 0x20 | 0x21 | 0x34 | 0x35 => s
  | 0x30 => on .twin (twinTick (BitVec.ofNat 64 (leAt d 0 8)))
  | 0x31 => on .twin (twinTickDone (BitVec.ofNat 64 (leAt d 0 8)))
  | 0x32 => on .twin (twinWindow (Fin.ofNat 8 (leAt d 0 1)) (leAt d 8 8) (leAt d 16 8) (Fin.ofNat 4 (leAt d 1 1))
      (BitVec.ofNat 3 (leAt d 2 1)))
  | 0x33 => on .twin (twinChainEnd (d.getD 0 0) (BitVec.ofNat 12 (leAt d 4 2)) (Fin.ofNat 8 (leAt d 1 1)) (d.getD 2 0)
      (decide (leAt d 3 1 = 1)))
  | _ => s.edgeEvent p 0x40
/-- A transaction whose header and data have come takes effect as its row does (R50). Whether a register request is the other
die's firmware's is in no field of a slot: free (log 38). -/
def State.takeTxn (s : State) (p : Fin 10) (x : RxTxn) : State :=
  let h := slotHead p x.slot
  let d := x.data
  let granule : Vector Byte 32 := Vector.ofFn fun i => d.getD i.val 0
  let fw := s.freeVal.getLsbD 0
  match fld x.slot 4 0 with
  | 0x01 => readRequest h s
  | 0x02 => writeRequest h d s
  | 0x03 => maskedWrite h granule (d.drop 32) s
  | 0x04 => atomicRequest h (Fin.ofNat 8 (fld x.slot 23 21)) d s
  | 0x05 => regReadRequest h fw s.useFree
  | 0x06 => regWriteRequest h fw granule s.useFree
  | 0x08 => readResponse h d s
  | 0x09 => writeAck h s
  | 0x0A => errorResponse h s
  | 0x10 => takeMessage h d s
  | 0x11 => plyArrives h d s
  | _ => s
/-- An acknowledgement in a flit's header (R48): ACK, or NAK with a replay. -/
def State.takeAck (s : State) (p : Fin 10) (ackt aseq : Nat) : State :=
  if ackt = 1 then s.modPort p fun e => e.acked (BitVec.ofNat 10 aseq)
  else if ackt = 2 then nakReceived p (BitVec.ofNat 10 aseq) s
  else s
/-- FLIT_RECEIVED (R48, R52, R56): a flit with a wrong CRC, out of order or with a protocol error is dropped with a NAK. Else its
header is taken, its slots and granules join the stream, and every transaction that is complete takes effect in the order of
the headers, its credits returned. -/
def flitArrives (p : Fin 10) (flit : List Byte) (s : State) : State :=
  let role := s.fuses.ports[p].role
  if !s.portUp p ∨ role = .host ∨ role = .none then s
  else
    let w : Word := BitVec.ofNat 32 (leAt flit 0 4)
    let rx := takeFlit s.ports[p].rx flit
    if !flitCrcOk flit ∨ fld w 9 0 ≠ s.ports[p].nextRecv.toNat then s.sendNak p
    else if (flitSlots flit).any (s.slotBad p) ∨ creditOver rx then s.protocolError p
    else
      let done := rx.filter RxTxn.full
      let s : State := s.modPort p fun e => { e with
        nextRecv := e.nextRecv + 1, unacked := e.unacked + 1, rx := rx.filter fun x => !x.full
        far := creditsGive e.far (fld w 23 22) (fld w 27 24) (fld w 31 28) }
      let s : State := (s.takeAck p (fld w 21 20) (fld w 19 10)).returnCredits p done
      let s : State := if 16 ≤ s.ports[p].unacked then ackTimer p s else s
      (done.foldl (fun s x => s.takeTxn p x) s).flow p

/-! ### The rows -/

def execMbTrainingDone (port : Fin 10) (rate0 rate1 : BitVec 2) (repair : Half) (s : State) :
    Host.Outcome State Fault Refusal := .next (trainingDone port rate0 rate1 repair s)
def execPortTrainingDeadline (port : Fin 10) (s : State) : Host.Outcome State Fault Refusal := .next (trainingLate port s)
def execFlitReceived (port : Fin 10) (flit : Vector Byte 256) (s : State) : Host.Outcome State Fault Refusal :=
  .next (flitArrives port flit.toList s)
def execRetrainTimeout (port : Fin 10) (modules : BitVec 2) (s : State) : Host.Outcome State Fault Refusal :=
  .next (retrainLate port modules s)
def execRd (h : TxnHead) (s : State) : Host.Outcome State Fault Refusal := .next (readRequest h s)
def execWr (h : TxnHead) (data : List Byte) (s : State) : Host.Outcome State Fault Refusal := .next (writeRequest h data s)
def execWrMask (h : TxnHead) (mask : Vector Byte 32) (data : List Byte) (s : State) : Host.Outcome State Fault Refusal :=
  .next (maskedWrite h mask data s)
def execAtomAdd (h : TxnHead) (subop : Fin 8) (data : List Byte) (s : State) : Host.Outcome State Fault Refusal :=
  .next (atomicRequest h subop data s)
def execRdReg (h : TxnHead) (fw : Bool) (s : State) : Host.Outcome State Fault Refusal := .next (regReadRequest h fw s)
def execWrReg (h : TxnHead) (fw : Bool) (granule : Vector Byte 32) (s : State) : Host.Outcome State Fault Refusal :=
  .next (regWriteRequest h fw granule s)
def execRdRsp (h : TxnHead) (data : List Byte) (s : State) : Host.Outcome State Fault Refusal := .next (readResponse h data s)
def execWrAck (h : TxnHead) (s : State) : Host.Outcome State Fault Refusal := .next (writeAck h s)
def execErrRsp (h : TxnHead) (s : State) : Host.Outcome State Fault Refusal := .next (errorResponse h s)
def execPly (h : TxnHead) (data : List Byte) (s : State) : Host.Outcome State Fault Refusal := .next (plyArrives h data s)
def execTwinTick (row : DWord) (s : State) : Host.Outcome State Fault Refusal := .next (twinTick row s)
def execRelayCmd (opcode : Half) (e : RelayEntry) (s : State) : Host.Outcome State Fault Refusal := .next (relayedCmd opcode e s)

end Sys2Proof.Machine
end

