-- ==== Sys2Proof/Machine/Dispatch.lean ====
section
/-! DEFINITION. One arm per command: what `exec` answers is the arm's meaning. -/
namespace Sys2Proof.Machine
open Sys2Proof

/-- The effect of a command on everything but the queue. -/
def exec (i : Instr) (s : State) : Host.Outcome State Fault Refusal :=
  match i with
  | .selvagePowerGood => Sys2Proof.Machine.execSelvagePowerGood s
  | .spwrokFall => Sys2Proof.Machine.execSpwrokFall s
  | .railOutOfTolerance => Sys2Proof.Machine.execRailOutOfTolerance s
  | .secondaryImageWaitEnd image => Sys2Proof.Machine.execSecondaryImageWaitEnd image s
  | .bootSourceTimeout => Sys2Proof.Machine.execBootSourceTimeout s
  | .bootRead => Sys2Proof.Machine.execBootRead s
  | .bootData seq data => Sys2Proof.Machine.execBootData seq data s
  | .statusReq port => Sys2Proof.Machine.execStatusReq port s
  | .offer port size => Sys2Proof.Machine.execOffer port size s
  | .sidebandUp port => Sys2Proof.Machine.execSidebandUp port s
  | .sbInitTimeout port => Sys2Proof.Machine.execSbInitTimeout port s
  | .roleAck port dieClass primary => Sys2Proof.Machine.execRoleAck port dieClass primary s
  | .roleCheckTimeout port pcieFlit => Sys2Proof.Machine.execRoleCheckTimeout port pcieFlit s
  | .mbTrainingDone port rate0 rate1 repair => Sys2Proof.Machine.execMbTrainingDone port rate0 rate1 repair s
  | .portTrainingDeadline port => Sys2Proof.Machine.execPortTrainingDeadline port s
  | .creditInit port credits => Sys2Proof.Machine.execCreditInit port credits s
  | .pcieLinkUp port => Sys2Proof.Machine.execPcieLinkUp port s
  | .flitReceived port flit => Sys2Proof.Machine.execFlitReceived port flit s
  | .ackTimer port => Sys2Proof.Machine.execAckTimer port s
  | .nakReceived port aseq => Sys2Proof.Machine.execNakReceived port aseq s
  | .retryLimitCrossed port => Sys2Proof.Machine.execRetryLimitCrossed port s
  | .retryIntervalEnd port => Sys2Proof.Machine.execRetryIntervalEnd port s
  | .laneRepairDone port modules repair spike => Sys2Proof.Machine.execLaneRepairDone port modules repair spike s
  | .retrainTimeout port modules => Sys2Proof.Machine.execRetrainTimeout port modules s
  | .stackPortReroute stack => Sys2Proof.Machine.execStackPortReroute stack s
  | .rd h => Sys2Proof.Machine.execRd h s
  | .wr h data => Sys2Proof.Machine.execWr h data s
  | .wrMask h mask data => Sys2Proof.Machine.execWrMask h mask data s
  | .atomAdd h subop data => Sys2Proof.Machine.execAtomAdd h subop data s
  | .rdReg h fw => Sys2Proof.Machine.execRdReg h fw s
  | .wrReg h fw granule => Sys2Proof.Machine.execWrReg h fw granule s
  | .rdRsp h data => Sys2Proof.Machine.execRdRsp h data s
  | .wrAck h => Sys2Proof.Machine.execWrAck h s
  | .errRsp h => Sys2Proof.Machine.execErrRsp h s
  | .ply h data => Sys2Proof.Machine.execPly h data s
  | .unknownMessage port code => Sys2Proof.Machine.execUnknownMessage port code s
  | .srefAck port => Sys2Proof.Machine.execSrefAck port s
  | .srefAckTimeout port => Sys2Proof.Machine.execSrefAckTimeout port s
  | .hemEvent source => Sys2Proof.Machine.execHemEvent source s
  | .temp port celsius => Sys2Proof.Machine.execTemp port celsius s
  | .eccCorr port count offset => Sys2Proof.Machine.execEccCorr port count offset s
  | .eccUncorr port offset => Sys2Proof.Machine.execEccUncorr port offset s
  | .shusTick row => Sys2Proof.Machine.execShusTick row s
  | .irq vector => Sys2Proof.Machine.execIrq vector s
  | .twinTick row => Sys2Proof.Machine.execTwinTick row s
  | .tickDone row => Sys2Proof.Machine.execTickDone row s
  | .twinWindow sender base size kind rights => Sys2Proof.Machine.execTwinWindow sender base size kind rights s
  | .twinChain chain position swatch tenant withdraw => Sys2Proof.Machine.execTwinChain chain position swatch tenant withdraw s
  | .relayCmd opcode e => Sys2Proof.Machine.execRelayCmd opcode e s
  | .relayRsp entry sq event => Sys2Proof.Machine.execRelayRsp entry sq event s
  | .functionLevelReset fn => Sys2Proof.Machine.execFunctionLevelReset fn s
  | .hotReset fn => Sys2Proof.Machine.execHotReset fn s
  | .hostLinkDown port => Sys2Proof.Machine.execHostLinkDown port s
  | .functionResetComplete fn => Sys2Proof.Machine.execFunctionResetComplete fn s
  | .d3hotEntry fn => Sys2Proof.Machine.execD3hotEntry fn s
  | .d0Return fn => Sys2Proof.Machine.execD0Return fn s
  | .msixUnmask fn vector => Sys2Proof.Machine.execMsixUnmask fn vector s
  | .bar2Access fn offset acc => Sys2Proof.Machine.execBar2Access fn offset acc s
  | .bar4Read fn offset len => Sys2Proof.Machine.execBar4Read fn offset len s
  | .bar4Write fn offset data => Sys2Proof.Machine.execBar4Write fn offset data s
  | .sqDoorbell fn ring value => Sys2Proof.Machine.execSqDoorbell fn ring value s
  | .cqDoorbell fn ring value => Sys2Proof.Machine.execCqDoorbell fn ring value s
  | .ringEnable fn ring => Sys2Proof.Machine.execRingEnable fn ring s
  | .ringDisable fn ring => Sys2Proof.Machine.execRingDisable fn ring s
  | .ringFrontEndReady ring => Sys2Proof.Machine.execRingFrontEndReady ring s
  | .ringQuiesced ring => Sys2Proof.Machine.execRingQuiesced ring s
  | .ringAccessFault ring => Sys2Proof.Machine.execRingAccessFault ring s
  | .undefinedOpcode opcode e => Sys2Proof.Machine.execUndefinedOpcode opcode e s
  | .holdoffExpiry cq => Sys2Proof.Machine.execHoldoffExpiry cq s
  | .nop e => Sys2Proof.Machine.execNop e s
  | .queryDevice e => Sys2Proof.Machine.execQueryDevice e s
  | .setDeviceState e => Sys2Proof.Machine.execSetDeviceState e s
  | .deviceStateTransitionEnd => Sys2Proof.Machine.execDeviceStateTransitionEnd s
  | .setBudget e => Sys2Proof.Machine.execSetBudget e s
  | .setWake e => Sys2Proof.Machine.execSetWake e s
  | .queryPower e => Sys2Proof.Machine.execQueryPower e s
  | .restart e => Sys2Proof.Machine.execRestart e s
  | .restartBegin => Sys2Proof.Machine.execRestartBegin s
  | .fwUpdate e => Sys2Proof.Machine.execFwUpdate e s
  | .fwUpdateFlashDone ok => Sys2Proof.Machine.execFwUpdateFlashDone ok s
  | .setBootCtrl e => Sys2Proof.Machine.execSetBootCtrl e s
  | .castSwatch e => Sys2Proof.Machine.execCastSwatch e s
  | .knit e => Sys2Proof.Machine.execKnit e s
  | .stopKnit e => Sys2Proof.Machine.execStopKnit e s
  | .holdSwatch e => Sys2Proof.Machine.execHoldSwatch e s
  | .holdQuiesceTimeout swatch => Sys2Proof.Machine.execHoldQuiesceTimeout swatch s
  | .holdSaveDone swatch => Sys2Proof.Machine.execHoldSaveDone swatch s
  | .restoreSwatch e => Sys2Proof.Machine.execRestoreSwatch e s
  | .restoreReloadDone swatch => Sys2Proof.Machine.execRestoreReloadDone swatch s
  | .bindOffSwatch e => Sys2Proof.Machine.execBindOffSwatch e s
  | .bindOffZeroingDone swatch => Sys2Proof.Machine.execBindOffZeroingDone swatch s
  | .querySwatch e => Sys2Proof.Machine.execQuerySwatch e s
  | .setSwatchPpoint e => Sys2Proof.Machine.execSetSwatchPpoint e s
  | .setSwatchGauge e => Sys2Proof.Machine.execSetSwatchGauge e s
  | .grantDistaff e => Sys2Proof.Machine.execGrantDistaff e s
  | .returnDistaff e => Sys2Proof.Machine.execReturnDistaff e s
  | .commitDraft e => Sys2Proof.Machine.execCommitDraft e s
  | .draftCommitCopiesDone swatch => Sys2Proof.Machine.execDraftCommitCopiesDone swatch s
  | .frogDraft e => Sys2Proof.Machine.execFrogDraft e s
  | .queryMemory e => Sys2Proof.Machine.execQueryMemory e s
  | .allocHanks e => Sys2Proof.Machine.execAllocHanks e s
  | .freeHanks e => Sys2Proof.Machine.execFreeHanks e s
  | .memFill e => Sys2Proof.Machine.execMemFill e s
  | .memCopy e => Sys2Proof.Machine.execMemCopy e s
  | .loadProgram e => Sys2Proof.Machine.execLoadProgram e s
  | .loadStitchMap e => Sys2Proof.Machine.execLoadStitchMap e s
  | .loadCardProgram e => Sys2Proof.Machine.execLoadCardProgram e s
  | .unloadProgram e => Sys2Proof.Machine.execUnloadProgram e s
  | .bindBobbin e => Sys2Proof.Machine.execBindBobbin e s
  | .unbindBobbin e => Sys2Proof.Machine.execUnbindBobbin e s
  | .runBobbin e => Sys2Proof.Machine.execRunBobbin e s
  | .queryBobbin e => Sys2Proof.Machine.execQueryBobbin e s
  | .queryTick e => Sys2Proof.Machine.execQueryTick e s
  | .setTickPeriod e => Sys2Proof.Machine.execSetTickPeriod e s
  | .waitTick e => Sys2Proof.Machine.execWaitTick e s
  | .queryHealth e => Sys2Proof.Machine.execQueryHealth e s
  | .runCensus e => Sys2Proof.Machine.execRunCensus e s
  | .readMap e => Sys2Proof.Machine.execReadMap e s
  | .portReenable e => Sys2Proof.Machine.execPortReenable e s
  | .readDistance e => Sys2Proof.Machine.execReadDistance e s
  | .setRepairCtrl e => Sys2Proof.Machine.execSetRepairCtrl e s
  | .attest e => Sys2Proof.Machine.execAttest e s
  | .getCerts e => Sys2Proof.Machine.execGetCerts e s
  | .adopt e => Sys2Proof.Machine.execAdopt e s
  | .loadTagMaster e => Sys2Proof.Machine.execLoadTagMaster e s
  | .readYardage e => Sys2Proof.Machine.execReadYardage e s
  | .addYardage e => Sys2Proof.Machine.execAddYardage e s
  | .raiseSvn e => Sys2Proof.Machine.execRaiseSvn e s
  | .tagProve e => Sys2Proof.Machine.execTagProve e s
  | .tagIncrement e => Sys2Proof.Machine.execTagIncrement e s
  | .chainSearch e => Sys2Proof.Machine.execChainSearch e s
  | .chainList e => Sys2Proof.Machine.execChainList e s
  | .chainPing e => Sys2Proof.Machine.execChainPing e s
  | .chainConfig e => Sys2Proof.Machine.execChainConfig e s
  | .queryInnerChain e => Sys2Proof.Machine.execQueryInnerChain e s
  | .expertGrant e => Sys2Proof.Machine.execExpertGrant e s
  | .grantTakesEffect block => Sys2Proof.Machine.execGrantTakesEffect block s
  | .expertRelease e => Sys2Proof.Machine.execExpertRelease e s
  | .queryGrant e => Sys2Proof.Machine.execQueryGrant e s
  | .debugEcho e => Sys2Proof.Machine.execDebugEcho e s
  | .debugReadLog e => Sys2Proof.Machine.execDebugReadLog e s
  | .debugReadReg e => Sys2Proof.Machine.execDebugReadReg e s
  | .debugSetLog e => Sys2Proof.Machine.execDebugSetLog e s
  | .rowTick => Sys2Proof.Machine.execRowTick s
  | .frogDrainDone swatch => Sys2Proof.Machine.execFrogDrainDone swatch s
  | .budgetWindowEnd swatch => Sys2Proof.Machine.execBudgetWindowEnd swatch s
  | .swtPubOpen swatch => Sys2Proof.Machine.execSwtPubOpen swatch s
  | .swtPubClose swatch => Sys2Proof.Machine.execSwtPubClose swatch s
  | .budgetLimiter avg1s => Sys2Proof.Machine.execBudgetLimiter avg1s s
  | .burstWindowEnd joules => Sys2Proof.Machine.execBurstWindowEnd joules s
  | .burstPowerCheck avg1ms => Sys2Proof.Machine.execBurstPowerCheck avg1ms s
  | .burstRecoveryEnd => Sys2Proof.Machine.execBurstRecoveryEnd s
  | .sensorSample readings => Sys2Proof.Machine.execSensorSample readings s
  | .thermalStep2Lower => Sys2Proof.Machine.execThermalStep2Lower s
  | .thermalStepRelease => Sys2Proof.Machine.execThermalStepRelease s
  | .thermalRaise => Sys2Proof.Machine.execThermalRaise s
  | .illegalInstruction n => Sys2Proof.Machine.execIllegalInstruction n s
  | .add n rd ra rb => Sys2Proof.Machine.execAdd n rd ra rb s
  | .sub n rd ra rb => Sys2Proof.Machine.execSub n rd ra rb s
  | .mul n rd ra rb => Sys2Proof.Machine.execMul n rd ra rb s
  | .mulh n rd ra rb => Sys2Proof.Machine.execMulh n rd ra rb s
  | .div n rd ra rb => Sys2Proof.Machine.execDiv n rd ra rb s
  | .rem n rd ra rb => Sys2Proof.Machine.execRem n rd ra rb s
  | .and n rd ra rb => Sys2Proof.Machine.execAnd n rd ra rb s
  | .or n rd ra rb => Sys2Proof.Machine.execOr n rd ra rb s
  | .xor n rd ra rb => Sys2Proof.Machine.execXor n rd ra rb s
  | .shl n rd ra rb => Sys2Proof.Machine.execShl n rd ra rb s
  | .shr n rd ra rb => Sys2Proof.Machine.execShr n rd ra rb s
  | .sra n rd ra rb => Sys2Proof.Machine.execSra n rd ra rb s
  | .slt n rd ra rb => Sys2Proof.Machine.execSlt n rd ra rb s
  | .sltu n rd ra rb => Sys2Proof.Machine.execSltu n rd ra rb s
  | .min n rd ra rb => Sys2Proof.Machine.execMin n rd ra rb s
  | .max n rd ra rb => Sys2Proof.Machine.execMax n rd ra rb s
  | .fadd n rd ra rb => Sys2Proof.Machine.execFadd n rd ra rb s
  | .fsub n rd ra rb => Sys2Proof.Machine.execFsub n rd ra rb s
  | .fmul n rd ra rb => Sys2Proof.Machine.execFmul n rd ra rb s
  | .fma n rd ra rb => Sys2Proof.Machine.execFma n rd ra rb s
  | .fcvt n toFloat rd ra => Sys2Proof.Machine.execFcvt n toFloat rd ra s
  | .addi n rd ra imm => Sys2Proof.Machine.execAddi n rd ra imm s
  | .andi n rd ra imm => Sys2Proof.Machine.execAndi n rd ra imm s
  | .ori n rd ra imm => Sys2Proof.Machine.execOri n rd ra imm s
  | .xori n rd ra imm => Sys2Proof.Machine.execXori n rd ra imm s
  | .lui n rd imm => Sys2Proof.Machine.execLui n rd imm s
  | .shiftImmediate n rd ra imm => Sys2Proof.Machine.execShiftImmediate n rd ra imm s
  | .brEq n ra rb off => Sys2Proof.Machine.execBrEq n ra rb off s
  | .brNe n ra rb off => Sys2Proof.Machine.execBrNe n ra rb off s
  | .brLt n ra rb off => Sys2Proof.Machine.execBrLt n ra rb off s
  | .brGe n ra rb off => Sys2Proof.Machine.execBrGe n ra rb off s
  | .brLtu n ra rb off => Sys2Proof.Machine.execBrLtu n ra rb off s
  | .brGeu n ra rb off => Sys2Proof.Machine.execBrGeu n ra rb off s
  | .jal n rd off => Sys2Proof.Machine.execJal n rd off s
  | .jalr n rd ra imm => Sys2Proof.Machine.execJalr n rd ra imm s
  | .sld n rt ra size signed off => Sys2Proof.Machine.execSld n rt ra size signed off s
  | .sst n rt ra size off => Sys2Proof.Machine.execSst n rt ra size off s
  | .sstAtomicAdd n rt ra size fp32 off => Sys2Proof.Machine.execSstAtomicAdd n rt ra size fp32 off s
  | .vadd n ty pr bcast rd ra rb => Sys2Proof.Machine.execVadd n ty pr bcast rd ra rb s
  | .vsub n ty pr bcast rd ra rb => Sys2Proof.Machine.execVsub n ty pr bcast rd ra rb s
  | .vmul n ty pr bcast rd ra rb => Sys2Proof.Machine.execVmul n ty pr bcast rd ra rb s
  | .vfma n ty pr bcast rd ra rb => Sys2Proof.Machine.execVfma n ty pr bcast rd ra rb s
  | .vmin n ty pr bcast rd ra rb => Sys2Proof.Machine.execVmin n ty pr bcast rd ra rb s
  | .vmax n ty pr bcast rd ra rb => Sys2Proof.Machine.execVmax n ty pr bcast rd ra rb s
  | .vabs n ty pr rd ra => Sys2Proof.Machine.execVabs n ty pr rd ra s
  | .vneg n ty pr rd ra => Sys2Proof.Machine.execVneg n ty pr rd ra s
  | .vand n pr bcast rd ra rb => Sys2Proof.Machine.execVand n pr bcast rd ra rb s
  | .vor n pr bcast rd ra rb => Sys2Proof.Machine.execVor n pr bcast rd ra rb s
  | .vxor n pr bcast rd ra rb => Sys2Proof.Machine.execVxor n pr bcast rd ra rb s
  | .vshl n pr bcast rd ra rb => Sys2Proof.Machine.execVshl n pr bcast rd ra rb s
  | .vshr n pr bcast rd ra rb => Sys2Proof.Machine.execVshr n pr bcast rd ra rb s
  | .vsra n pr bcast rd ra rb => Sys2Proof.Machine.execVsra n pr bcast rd ra rb s
  | .vmulh n pr bcast rd ra rb => Sys2Proof.Machine.execVmulh n pr bcast rd ra rb s
  | .vcvt n ty pr rd ra rb => Sys2Proof.Machine.execVcvt n ty pr rd ra rb s
  | .vld n rt ra off => Sys2Proof.Machine.execVld n rt ra off s
  | .vst n rt ra masked off => Sys2Proof.Machine.execVst n rt ra masked off s
  | .vstAtomicAdd n rt ra masked fp32 off => Sys2Proof.Machine.execVstAtomicAdd n rt ra masked fp32 off s
  | .bcast n pr rd ra => Sys2Proof.Machine.execBcast n pr rd ra s
  | .shuffle n pr rd ra rb => Sys2Proof.Machine.execShuffle n pr rd ra rb s
  | .slideup n pr rd ra rb => Sys2Proof.Machine.execSlideup n pr rd ra rb s
  | .slidedn n pr rd ra rb => Sys2Proof.Machine.execSlidedn n pr rd ra rb s
  | .laneget n rd ra rb => Sys2Proof.Machine.execLaneget n rd ra rb s
  | .laneset n pr rd ra rb => Sys2Proof.Machine.execLaneset n pr rd ra rb s
  | .predEq n kind pr rd ra rb => Sys2Proof.Machine.execPredEq n kind pr rd ra rb s
  | .predNe n kind pr rd ra rb => Sys2Proof.Machine.execPredNe n kind pr rd ra rb s
  | .predLt n kind pr rd ra rb => Sys2Proof.Machine.execPredLt n kind pr rd ra rb s
  | .predLe n kind pr rd ra rb => Sys2Proof.Machine.execPredLe n kind pr rd ra rb s
  | .predAnd n pr rd ra rb => Sys2Proof.Machine.execPredAnd n pr rd ra rb s
  | .predOr n pr rd ra rb => Sys2Proof.Machine.execPredOr n pr rd ra rb s
  | .predXor n pr rd ra rb => Sys2Proof.Machine.execPredXor n pr rd ra rb s
  | .predNot n pr rd ra => Sys2Proof.Machine.execPredNot n pr rd ra s
  | .first n rd ra => Sys2Proof.Machine.execFirst n rd ra s
  | .count n rd ra => Sys2Proof.Machine.execCount n rd ra s
  | .sum n int acc pr rd ra => Sys2Proof.Machine.execSum n int acc pr rd ra s
  | .sumsq n int acc pr rd ra => Sys2Proof.Machine.execSumsq n int acc pr rd ra s
  | .meanvar n int acc pr rd ra => Sys2Proof.Machine.execMeanvar n int acc pr rd ra s
  | .redMax n int acc pr rd ra => Sys2Proof.Machine.execRedMax n int acc pr rd ra s
  | .redMin n int acc pr rd ra => Sys2Proof.Machine.execRedMin n int acc pr rd ra s
  | .argmax n int acc pr rd ra rb => Sys2Proof.Machine.execArgmax n int acc pr rd ra rb s
  | .argmin n int acc pr rd ra rb => Sys2Proof.Machine.execArgmin n int acc pr rd ra rb s
  | .feedLd n rd ra rb => Sys2Proof.Machine.execFeedLd n rd ra rb s
  | .feedSt n rd ra rb => Sys2Proof.Machine.execFeedSt n rd ra rb s
  | .vput n rd ra => Sys2Proof.Machine.execVput n rd ra s
  | .vget n rd ra => Sys2Proof.Machine.execVget n rd ra s
  | .moveEnq n ra rb => Sys2Proof.Machine.execMoveEnq n ra rb s
  | .moveStatus n rd rb => Sys2Proof.Machine.execMoveStatus n rd rb s
  | .moveWait n rb => Sys2Proof.Machine.execMoveWait n rb s
  | .moverDescriptorDone k m => Sys2Proof.Machine.execMoverDescriptorDone k m s
  | .stchSend n ra rb => Sys2Proof.Machine.execStchSend n ra rb s
  | .stchRecv n rd rb => Sys2Proof.Machine.execStchRecv n rd rb s
  | .stitchEntryArrival swatch chan position entry => Sys2Proof.Machine.execStitchEntryArrival swatch chan position entry s
  | .stitchCreditReturn swatch chan => Sys2Proof.Machine.execStitchCreditReturn swatch chan s
  | .twinUnmatchedTimeout swatch chan => Sys2Proof.Machine.execTwinUnmatchedTimeout swatch chan s
  | .meshMcast n rd ra rb => Sys2Proof.Machine.execMeshMcast n rd ra rb s
  | .meshTree n rd ra rb => Sys2Proof.Machine.execMeshTree n rd ra rb s
  | .halt n => Sys2Proof.Machine.execHalt n s
  | .fenceL n => Sys2Proof.Machine.execFenceL n s
  | .fenceY n => Sys2Proof.Machine.execFenceY n s
  | .bar n ra => Sys2Proof.Machine.execBar n ra s
  | .flagSet n rd ra rb => Sys2Proof.Machine.execFlagSet n rd ra rb s
  | .flagAdd n rd ra rb => Sys2Proof.Machine.execFlagAdd n rd ra rb s
  | .flagWaitGe n rd ra rb => Sys2Proof.Machine.execFlagWaitGe n rd ra rb s
  | .flagWaitEq n rd ra rb => Sys2Proof.Machine.execFlagWaitEq n rd ra rb s
  | .tickwait n rd ra => Sys2Proof.Machine.execTickwait n rd ra s
  | .needleTickwaitResume n => Sys2Proof.Machine.execNeedleTickwaitResume n s
  | .csrr n rd rb => Sys2Proof.Machine.execCsrr n rd rb s
  | .csrw n ra rb => Sys2Proof.Machine.execCsrw n ra rb s
  | .castZero n o => Sys2Proof.Machine.execCastZero n o s
  | .castBias n o => Sys2Proof.Machine.execCastBias n o s
  | .castResid n o => Sys2Proof.Machine.execCastResid n o s
  | .castTotal n o => Sys2Proof.Machine.execCastTotal n o s
  | .mma n o => Sys2Proof.Machine.execMma n o s
  | .mmaQueueStart n => Sys2Proof.Machine.execMmaQueueStart n s
  | .confirmationTest n unit => Sys2Proof.Machine.execConfirmationTest n unit s
  | .bindDrain n o => Sys2Proof.Machine.execBindDrain n o s
  | .bindPromote n o => Sys2Proof.Machine.execBindPromote n o s
  | .bindDrop n unit => Sys2Proof.Machine.execBindDrop n unit s
  | .drainDone n unit => Sys2Proof.Machine.execDrainDone n unit s
  | .lconf n unit => Sys2Proof.Machine.execLconf n unit s
  | .lget n unit ra rb => Sys2Proof.Machine.execLget n unit ra rb s
  | .lshift n unit rb => Sys2Proof.Machine.execLshift n unit rb s
  | .lscale n unit ra => Sys2Proof.Machine.execLscale n unit ra s
  | .plySend n unit rb => Sys2Proof.Machine.execPlySend n unit rb s
  | .plyAdd n unit rb => Sys2Proof.Machine.execPlyAdd n unit rb s
  | .land n ra rb rs => Sys2Proof.Machine.execLand n ra rb rs s
  | .storeRead at_ h offset len => Sys2Proof.Machine.execStoreRead at_ h offset len s
  | .storeWrite at_ h offset bytes => Sys2Proof.Machine.execStoreWrite at_ h offset bytes s
  | .atomicAddAtStore at_ h offset fp32 bytes => Sys2Proof.Machine.execAtomicAddAtStore at_ h offset fp32 bytes s
  | .flagOperation at_ h op flag operand => Sys2Proof.Machine.execFlagOperation at_ h op flag operand s
  | .readData at_ h error data => Sys2Proof.Machine.execReadData at_ h error data s
  | .writeAcknowledgement at_ h error => Sys2Proof.Machine.execWriteAcknowledgement at_ h error s
  | .flagReply at_ h error value => Sys2Proof.Machine.execFlagReply at_ h error value s
  | .multicastWrite at_ h targets offset data => Sys2Proof.Machine.execMulticastWrite at_ h targets offset data s
  | .fixedTreeContribution at_ h t data => Sys2Proof.Machine.execFixedTreeContribution at_ h t data s
  | .barrierArrival at_ h barrier => Sys2Proof.Machine.execBarrierArrival at_ h barrier s
  | .barrierRelease n barrier => Sys2Proof.Machine.execBarrierRelease n barrier s
  | .censusLoopback at_ h => Sys2Proof.Machine.execCensusLoopback at_ h s
  | .saveAndRestore at_ h restore offset data => Sys2Proof.Machine.execSaveAndRestore at_ h restore offset data s
  | .routerConfiguration at_ swatch course0 wale0 coursesM1 walesM1 => Sys2Proof.Machine.execRouterConfiguration at_ swatch course0 wale0 coursesM1 walesM1 s
  | .rowSpareCopyDone k bank row => Sys2Proof.Machine.execRowSpareCopyDone k bank row s
  | .agingMeasurement p margin => Sys2Proof.Machine.execAgingMeasurement p margin s
  | .droopEvent p => Sys2Proof.Machine.execDroopEvent p s
  | .autoCensusStart => Sys2Proof.Machine.execAutoCensusStart s
  | .censusEnd => Sys2Proof.Machine.execCensusEnd s
  | .scrubRead corrected poisoned => Sys2Proof.Machine.execScrubRead corrected poisoned s
  | .distaffInstruction d nextPc ops => Sys2Proof.Machine.execDistaffInstruction d nextPc ops s
  | .dstDoorbell d rd rs1 rs2 => Sys2Proof.Machine.execDstDoorbell d rd rs1 rs2 s
  | .dstTickwait d rd rs1 => Sys2Proof.Machine.execDstTickwait d rd rs1 s
  | .dstTickwaitResume d => Sys2Proof.Machine.execDstTickwaitResume d s
  | .dstSwfence d rs1 => Sys2Proof.Machine.execDstSwfence d rs1 s
  | .dstFlagSet d rd rs1 rs2 => Sys2Proof.Machine.execDstFlagSet d rd rs1 rs2 s
  | .dstFlagAdd d rd rs1 rs2 => Sys2Proof.Machine.execDstFlagAdd d rd rs1 rs2 s
  | .dstFlagWaitGe d rd rs1 rs2 => Sys2Proof.Machine.execDstFlagWaitGe d rd rs1 rs2 s
  | .dstFlagWaitEq d rd rs1 rs2 => Sys2Proof.Machine.execDstFlagWaitEq d rd rs1 rs2 s
  | .dstRun d agent => Sys2Proof.Machine.execDstRun d agent s
  | .dstHalt d agent => Sys2Proof.Machine.execDstHalt d agent s
  | .dstHaltDone d => Sys2Proof.Machine.execDstHaltDone d s
  | .ndlHalt n agent => Sys2Proof.Machine.execNdlHalt n agent s
  | .ndlRun n agent => Sys2Proof.Machine.execNdlRun n agent s
  | .ndlStep n agent => Sys2Proof.Machine.execNdlStep n agent s
  | .moverClear k m agent => Sys2Proof.Machine.execMoverClear k m agent s
  | .edgeRetrain port agent => Sys2Proof.Machine.execEdgeRetrain port agent s
  | .edgeCtrlLock port agent => Sys2Proof.Machine.execEdgeCtrlLock port agent s
  | .stkCtrlLock stack agent => Sys2Proof.Machine.execStkCtrlLock stack agent s
  | .meshFlagWrite k flag value agent => Sys2Proof.Machine.execMeshFlagWrite k flag value agent s
  | .meshBarCfgWrite k barrier value agent => Sys2Proof.Machine.execMeshBarCfgWrite k barrier value agent s
  | .statClear c agent => Sys2Proof.Machine.execStatClear c agent s
  | .cardLfsrSeedWrite c value agent => Sys2Proof.Machine.execCardLfsrSeedWrite c value agent s
  | .functionEnable f agent => Sys2Proof.Machine.execFunctionEnable f agent s
  | .functionDisable f agent => Sys2Proof.Machine.execFunctionDisable f agent s
  | .functionRiseDone f => Sys2Proof.Machine.execFunctionRiseDone f s
  | .functionFallDone f => Sys2Proof.Machine.execFunctionFallDone f s
  | .cardViewRead port view offset who => Sys2Proof.Machine.execCardViewRead port view offset who s
  | .cardViewWrite port view offset who data => Sys2Proof.Machine.execCardViewWrite port view offset who data s
  | .cardJob c m => Sys2Proof.Machine.execCardJob c m s
  | .readClear space agent => Sys2Proof.Machine.execReadClear space agent s
  | .unmappedRegisterAccess addr acc agent => Sys2Proof.Machine.execUnmappedRegisterAccess addr acc agent s
  | .registerWrite space value agent => Sys2Proof.Machine.execRegisterWrite space value agent s
  | .csi2FrameStart csi vc time => Sys2Proof.Machine.execCsi2FrameStart csi vc time s
  | .csi2Packet csi vc dataType header crcOk payload => Sys2Proof.Machine.execCsi2Packet csi vc dataType header crcOk payload s
  | .csi2FrameEnd csi vc => Sys2Proof.Machine.execCsi2FrameEnd csi vc s
  | .soundwireSampleInstant b time samples => Sys2Proof.Machine.execSoundwireSampleInstant b time samples s
  | .ibi ctl addr time payload => Sys2Proof.Machine.execIbi ctl addr time payload s
  | .hotJoin ctl => Sys2Proof.Machine.execHotJoin ctl s
  | .outputFrameSent b acked => Sys2Proof.Machine.execOutputFrameSent b acked s
  | .hostRingPoll b time => Sys2Proof.Machine.execHostRingPoll b time s
  | .pinFuncChange pin value agent => Sys2Proof.Machine.execPinFuncChange pin value agent s
  | .pinParkEnd pin level => Sys2Proof.Machine.execPinParkEnd pin level s
  | .pinOutSet mask agent => Sys2Proof.Machine.execPinOutSet mask agent s
  | .pinOutClr mask agent => Sys2Proof.Machine.execPinOutClr mask agent s
  | .pinWake pin level => Sys2Proof.Machine.execPinWake pin level s
  | .uartCharacter data parityOk stopHigh isBreak substitute => Sys2Proof.Machine.execUartCharacter data parityOk stopHigh isBreak substitute s
  | .uartDataRead agent => Sys2Proof.Machine.execUartDataRead agent s
  | .uartDataWrite value agent => Sys2Proof.Machine.execUartDataWrite value agent s
  | .extest => Sys2Proof.Machine.execExtest s
  | .idcode => Sys2Proof.Machine.execIdcode s
  | .samplePreload preload => Sys2Proof.Machine.execSamplePreload preload s
  | .clamp => Sys2Proof.Machine.execClamp s
  | .highz => Sys2Proof.Machine.execHighz s
  | .jtagStatus => Sys2Proof.Machine.execJtagStatus s
  | .regRead addr => Sys2Proof.Machine.execRegRead addr s
  | .bypass => Sys2Proof.Machine.execBypass s
  | .periodicSearch idle => Sys2Proof.Machine.execPeriodicSearch idle s
  | .presenceWindowEnd presence => Sys2Proof.Machine.execPresenceWindowEnd presence s
  | .rollWindowEnd classes => Sys2Proof.Machine.execRollWindowEnd classes s
  | .assignAcknowledgement cls => Sys2Proof.Machine.execAssignAcknowledgement cls s
  | .assignIdRead id edge => Sys2Proof.Machine.execAssignIdRead id edge s
  | .searchDone => Sys2Proof.Machine.execSearchDone s
  | .chainReply cls bytes => Sys2Proof.Machine.execChainReply cls bytes s
  | .presenceChanged idle => Sys2Proof.Machine.execPresenceChanged idle s
  | .stuckLow => Sys2Proof.Machine.execStuckLow s
  | .lineHighResume => Sys2Proof.Machine.execLineHighResume s
  | .chnSeqReset agent => Sys2Proof.Machine.execChnSeqReset agent s
  | .sendChar data agent => Sys2Proof.Machine.execSendChar data agent s
  | .readChar wide agent => Sys2Proof.Machine.execReadChar wide agent s
  | .rollWindow wide agent => Sys2Proof.Machine.execRollWindow wide agent s
  | .ackSlot wide agent => Sys2Proof.Machine.execAckSlot wide agent s
  | .strong length agent => Sys2Proof.Machine.execStrong length agent s
  | .endGap agent => Sys2Proof.Machine.execEndGap agent s
  | .sendFrame length agent => Sys2Proof.Machine.execSendFrame length agent s
  | .recvFrame agent => Sys2Proof.Machine.execRecvFrame agent s
  | .chnSeqDone result frame => Sys2Proof.Machine.execChnSeqDone result frame s
  | .fullReset => Sys2Proof.Machine.execFullReset s
  | .roll level wide prefix_ => Sys2Proof.Machine.execRoll level wide prefix_ s
  | .assign nibbles prefix_ address fe => Sys2Proof.Machine.execAssign nibbles prefix_ address fe s
  | .ping address => Sys2Proof.Machine.execPing address s
  | .readInfo address => Sys2Proof.Machine.execReadInfo address s
  | .prove address nonce => Sys2Proof.Machine.execProve address nonce s
  | .writePrepare address newCount wseq mac fe => Sys2Proof.Machine.execWritePrepare address newCount wseq mac fe s
  | .writeCommit address wseq fe => Sys2Proof.Machine.execWriteCommit address wseq fe s
  | .setSpeed param fe => Sys2Proof.Machine.execSetSpeed param fe s
  | .strongWindowEnd tag verified => Sys2Proof.Machine.execStrongWindowEnd tag verified s
  | .tagSupplyLoss tag committed => Sys2Proof.Machine.execTagSupplyLoss tag committed s
  | .countOff count => Sys2Proof.Machine.execCountOff count s
  | .countOffTimeout => Sys2Proof.Machine.execCountOffTimeout s
  | .ident dest src => Sys2Proof.Machine.execIdent dest src s
  | .dieProve dest src nonce => Sys2Proof.Machine.execDieProve dest src nonce s
  | .innerReply src type_ payload => Sys2Proof.Machine.execInnerReply src type_ payload s
  | .innerReplyTimeout => Sys2Proof.Machine.execInnerReplyTimeout s
  | .attestDieTimeout => Sys2Proof.Machine.execAttestDieTimeout s
  | .yardageIncrement counter amount => Sys2Proof.Machine.execYardageIncrement counter amount s
  | .yardageSlotWriteDone valid => Sys2Proof.Machine.execYardageSlotWriteDone valid s
  | .floorBurnDone valid => Sys2Proof.Machine.execFloorBurnDone valid s
  | .powerHour => Sys2Proof.Machine.execPowerHour s
  | .powerHourResidueSave residue => Sys2Proof.Machine.execPowerHourResidueSave residue s
  | .secondaryStartUpReport => Sys2Proof.Machine.execSecondaryStartUpReport s
  | .tagPowerUp tag => Sys2Proof.Machine.execTagPowerUp tag s
  | .shuskaubPcieLinkUp => Sys2Proof.Machine.execShuskaubPcieLinkUp s
  | .shuskaubPcieLinkDown => Sys2Proof.Machine.execShuskaubPcieLinkDown s
  | .innerFrameTimingError => Sys2Proof.Machine.execInnerFrameTimingError s
  | .innerFrameUnknownType dest src type_ => Sys2Proof.Machine.execInnerFrameUnknownType dest src type_ s
  | .bankGrant k bank => Sys2Proof.Machine.execBankGrant k bank s
  | .railRampDone => Sys2Proof.Machine.execRailRampDone s
  | .uartTxCharacterDone ctsHigh => Sys2Proof.Machine.execUartTxCharacterDone ctsHigh s
  | .soundwireWake => Sys2Proof.Machine.execSoundwireWake s

end Sys2Proof.Machine
end

