-- ==== Sys2Proof/Machine/NeedleWord.lean ====
section
/-! DEFINITION. The needles' instruction words (10 R273, R274, R537; 11 R303): what a word, or the two words of a pair, spell.
The meaning of a word is the meaning of the command it spells; the neighbour that plays a needle puts that command into the
queue (log 168). -/
namespace Sys2Proof.Machine
open Sys2Proof

/-! ### Fields (R273) -/

/-- A register field at a bit. -/
def regAt (w : Word) (lo : Nat) : Fin 32 := Fin.ofNat 32 (fld w (lo + 4) lo)
/-- The fields of the formats. -/
def wRd (w : Word) : Fin 32 := regAt w 6
def wRa (w : Word) : Fin 32 := regAt w 11
def wRb (w : Word) : Fin 32 := regAt w 16
def wFunc (w : Word) : Nat := fld w 31 26
def wImm (w : Word) : Half := BitVec.ofNat 16 (fld w 31 16)
def wPred (w : Word) : Pred := ⟨w.getLsbD 21, w.getLsbD 22, Fin.ofNat 8 (fld w 25 23)⟩
/-- Whether P, N and PR are 0, as a scalar instruction must have them (R274). -/
def wScalar (w : Word) : Bool := decide (fld w 25 21 = 0)
def mFunc (w : Word) : Nat := fld w 19 16
def wOff12 (w : Word) : BitVec 12 := BitVec.ofNat 12 (fld w 31 20)
def wOff13 (w : Word) : BitVec 13 := BitVec.ofNat 13 (fld w 31 19)
/-- The fields of word 0 of a pair (R303); its MAJOR, UNIT, RA, RB, RS and FUNC. -/
def tUnit (w : Word) : Fin 16 := Fin.ofNat 16 (fld w 9 6)
def tRa (w : Word) : Fin 32 := regAt w 10
def tRb (w : Word) : Fin 32 := regAt w 15
def tRs (w : Word) : Fin 32 := regAt w 20
def tFunc (w : Word) : Nat := fld w 31 25

/-! ### Meanings -/

/-- The meaning of a command. -/
abbrev Meaning := State → Host.Outcome State Fault Refusal

/-! ### The R-format classes (R537, R276 to R286) -/

/-- A three-register form. -/
abbrev Form3 := Fin 96 → Fin 32 → Fin 32 → Fin 32 → Meaning
/-- The scalar register class, by FUNC from 0. -/
def scalarForms : List Form3 :=
  [execAdd, execSub, execMul, execMulh, execDiv, execRem, execAnd, execOr, execXor, execShl, execShr, execSra, execSlt, execSltu, execMin, execMax, execFadd, execFsub, execFmul, execFma]
def scalarWord (n : Fin 96) (w : Word) : Option Meaning :=
  if !wScalar w then none
  else match scalarForms[wFunc w]? with
    | some f => some (f n (wRd w) (wRa w) (wRb w))
    | none => if wFunc w = 20 then some (execFcvt n false (wRd w) (wRa w))
      else if wFunc w = 52 then some (execFcvt n true (wRd w) (wRa w)) else none
/-- The vector arithmetic class; codes 8 to 14 on INT32 only. -/
def vectorWord (n : Fin 96) (ty : VType) (w : Word) : Option Meaning :=
  let p := wPred w
  let b := w.getLsbD 31
  let rd := wRd w
  let ra := wRa w
  let rb := wRb w
  let int (i : Meaning) : Option Meaning := if ty = .int32 then some i else none
  match wFunc w % 32 with
  | 0 => some (execVadd n ty p b rd ra rb)
  | 1 => some (execVsub n ty p b rd ra rb)
  | 2 => some (execVmul n ty p b rd ra rb)
  | 3 => some (execVfma n ty p b rd ra rb)
  | 4 => some (execVmin n ty p b rd ra rb)
  | 5 => some (execVmax n ty p b rd ra rb)
  | 6 => some (execVabs n ty p rd ra)
  | 7 => some (execVneg n ty p rd ra)
  | 8 => int (execVand n p b rd ra rb)
  | 9 => int (execVor n p b rd ra rb)
  | 10 => int (execVxor n p b rd ra rb)
  | 11 => int (execVshl n p b rd ra rb)
  | 12 => int (execVshr n p b rd ra rb)
  | 13 => int (execVsra n p b rd ra rb)
  | 14 => int (execVmulh n p b rd ra rb)
  | 15 => some (execVcvt n ty p rd ra rb)
  | _ => none
/-- VPERM; LANEGET writes a scalar and takes no predicate (log 168). -/
def permWord (n : Fin 96) (w : Word) : Option Meaning :=
  let p := wPred w
  match wFunc w with
  | 0 => some (execBcast n p (wRd w) (wRa w))
  | 1 => some (execShuffle n p (wRd w) (wRa w) (wRb w))
  | 2 => some (execSlideup n p (wRd w) (wRa w) (wRb w))
  | 3 => some (execSlidedn n p (wRd w) (wRa w) (wRb w))
  | 4 => if wScalar w then some (execLaneget n (wRd w) (wRa w) (wRb w)) else none
  | 5 => some (execLaneset n p (wRd w) (wRa w) (wRb w))
  | _ => none
/-- PRED. -/
def predWord (n : Fin 96) (w : Word) : Option Meaning :=
  let p := wPred w
  let f := wFunc w
  let kind : Option CmpKind := match f / 4 % 4 with
    | 0 => some .signed
    | 1 => some .unsigned
    | 2 => some .fp32
    | _ => none
  match f / 16 with
  | 0 => kind.map fun k => match f % 4 with
    | 0 => execPredEq n k p (wRd w) (wRa w) (wRb w)
    | 1 => execPredNe n k p (wRd w) (wRa w) (wRb w)
    | 2 => execPredLt n k p (wRd w) (wRa w) (wRb w)
    | _ => execPredLe n k p (wRd w) (wRa w) (wRb w)
  | 1 => if f / 4 % 4 ≠ 0 then none else some (match f % 4 with
    | 0 => execPredAnd n p (wRd w) (wRa w) (wRb w)
    | 1 => execPredOr n p (wRd w) (wRa w) (wRb w)
    | 2 => execPredXor n p (wRd w) (wRa w) (wRb w)
    | _ => execPredNot n p (wRd w) (wRa w))
  | 2 => if f / 2 % 8 ≠ 0 ∨ !wScalar w then none
    else some (if f % 2 = 0 then execFirst n (wRd w) (wRa w) else execCount n (wRd w) (wRa w))
  | _ => none
/-- RED (R278): operation, lane type, ACC. -/
def redWord (n : Fin 96) (w : Word) : Option Meaning :=
  let p := wPred w
  let f := wFunc w
  let int := f.testBit 3
  let acc := f.testBit 4
  if f.testBit 5 then none
  else match f % 8 with
    | 0 => some (execSum n int acc p (wRd w) (wRa w))
    | 1 => some (execSumsq n int acc p (wRd w) (wRa w))
    | 2 => some (execMeanvar n int acc p (wRd w) (wRa w))
    | 3 => some (execRedMax n int acc p (wRd w) (wRa w))
    | 4 => some (execRedMin n int acc p (wRd w) (wRa w))
    | 5 => some (execArgmax n int acc p (wRd w) (wRa w) (wRb w))
    | 6 => some (execArgmin n int acc p (wRd w) (wRa w) (wRb w))
    | _ => none
/-- FEED, MOVE, STCH, MESH, SYNC and CSR, by MAJOR and FUNC: scalar instructions and moves of whole vectors, without a predicate
(log 168). -/
def planeWord (n : Fin 96) (w : Word) : Option Meaning :=
  let rd := wRd w
  let ra := wRa w
  let rb := wRb w
  if !wScalar w then none
  else match fld w 5 0, wFunc w with
    | 0x19, 0 => some (execFeedLd n rd ra rb)
    | 0x19, 1 => some (execFeedSt n rd ra rb)
    | 0x19, 2 => some (execVput n rd ra)
    | 0x19, 3 => some (execVget n rd ra)
    | 0x1A, 0 => some (execMoveEnq n ra rb)
    | 0x1A, 1 => some (execMoveStatus n rd rb)
    | 0x1A, 2 => some (execMoveWait n rb)
    | 0x1B, 0 => some (execStchSend n ra rb)
    | 0x1B, 1 => some (execStchRecv n rd rb)
    | 0x1C, 0 => some (execMeshMcast n rd ra rb)
    | 0x1C, 1 => some (execMeshTree n rd ra rb)
    | 0x1D, 0 => some (execHalt n)
    | 0x1D, 4 => some (execFenceL n)
    | 0x1D, 8 => some (execFenceY n)
    | 0x1D, 12 => some (execBar n ra)
    | 0x1D, 16 => some (execFlagSet n rd ra rb)
    | 0x1D, 17 => some (execFlagAdd n rd ra rb)
    | 0x1D, 18 => some (execFlagWaitGe n rd ra rb)
    | 0x1D, 19 => some (execFlagWaitEq n rd ra rb)
    | 0x1D, 20 => some (execTickwait n rd ra)
    | 0x1E, 0 => some (execCsrr n rd rb)
    | 0x1E, 1 => some (execCsrw n ra rb)
    | _, _ => none

/-! ### The other formats (R273, R279) -/

/-- The M format. -/
def memWord (n : Fin 96) (w : Word) : Option Meaning :=
  let rt := wRd w
  let ra := wRa w
  let f := mFunc w
  let size : Fin 4 := Fin.ofNat 4 f
  match fld w 5 0 with
  | 0x0C => if f.testBit 3 then none else some (execSld n rt ra size (f.testBit 2) (wOff12 w))
  | 0x0D => if f.testBit 3 then some (execSstAtomicAdd n rt ra size (f.testBit 2) (wOff12 w))
    else if f.testBit 2 then none else some (execSst n rt ra size (wOff12 w))
  | 0x14 => if f = 0 then some (execVld n rt ra (wOff12 w)) else none
  | 0x15 => if f.testBit 3 then none
    else if f.testBit 1 then some (execVstAtomicAdd n rt ra (f.testBit 0) (f.testBit 2) (wOff12 w))
    else if f.testBit 2 then none else some (execVst n rt ra (f.testBit 0) (wOff12 w))
  | _ => none
/-- The B format, whose registers lie one field lower. -/
def branchWord (n : Fin 96) (w : Word) : Option Meaning :=
  let ra := wRd w
  let rb := wRa w
  match fld w 18 16 with
  | 0 => some (execBrEq n ra rb (wOff13 w))
  | 1 => some (execBrNe n ra rb (wOff13 w))
  | 2 => some (execBrLt n ra rb (wOff13 w))
  | 3 => some (execBrGe n ra rb (wOff13 w))
  | 4 => some (execBrLtu n ra rb (wOff13 w))
  | 5 => some (execBrGeu n ra rb (wOff13 w))
  | _ => none

/-! ### Pairs (R303) -/

/-- Whether the register fields of word 0 that a form does not use are 0. -/
def tUnused (w : Word) (ra rb rs : Bool) : Bool :=
  (!ra || decide (tRa w = 0)) && (!rb || decide (tRb w = 0)) && (!rs || decide (tRs w = 0))
/-- A pair of words. -/
def pairWord (n : Fin 96) (w x : Word) : Option Meaning :=
  let u := tUnit w
  let f := tFunc w
  match fld w 5 0 with
  | 0x38 =>
    let o : CastOps := ⟨u, tRa w, tRb w, tRs w, Fin.ofNat 4 (fld x 1 0), Fin.ofNat 4 (fld x 3 2), Fin.ofNat 16 (fld x 7 4), x.getLsbD 8⟩
    if f / 4 ≠ 0 ∨ fld x 31 9 ≠ 0 then none
    else some (match f % 4 with | 0 => execCastZero n o | 1 => execCastBias n o | 2 => execCastResid n o | _ => execCastTotal n o)
  | 0x39 =>
    if f ≠ 0 ∨ fld x 31 30 ≠ 0 then none
    else some (execMma n ⟨u, tRa w, tRb w, tRs w, Fin.ofNat 16 (fld x 3 0), Fin.ofNat 16 (fld x 7 4), Fin.ofNat 4 (fld x 9 8),
      Fin.ofNat 1024 (fld x 19 10), x.getLsbD 20, x.getLsbD 21, BitVec.ofNat 8 (fld x 29 22)⟩)
  | 0x3A =>
    let o : BindOps := ⟨u, tRa w, tRb w, tRs w, Fin.ofNat 4 (f / 4), f.testBit 4, Fin.ofNat 2 (fld x 0 0), BitVec.ofNat 8 (fld x 8 1)⟩
    if f / 32 ≠ 0 ∨ fld x 31 9 ≠ 0 then none
    else (match f % 4 with
      | 0 => some (execBindDrain n o)
      | 1 => some (execBindPromote n o)
      | 2 => if f = 2 ∧ x = 0 ∧ tUnused w true true true then some (execBindDrop n u) else none
      | _ => none)
  | 0x3B => if f = 0 ∧ x = 0 ∧ tUnused w true true true then some (execLconf n u) else none
  | 0x3C =>
    if x ≠ 0 ∨ !tUnused w false false true then none
    else (match f with
      | 0 => some (execLget n u (tRa w) (tRb w))
      | 1 => if tUnused w true false false then some (execLshift n u (tRb w)) else none
      | 2 => if tUnused w false true false then some (execLscale n u (tRa w)) else none
      | _ => none)
  | 0x3D =>
    if x ≠ 0 ∨ !tUnused w true false true then none
    else (match f with
      | 0 => some (execPlySend n u (tRb w))
      | 1 => some (execPlyAdd n u (tRb w))
      | _ => none)
  | 0x3E => if f = 0 ∧ x = 0 ∧ u = 0 then some (execLand n (tRa w) (tRb w) (tRs w)) else none
  | _ => none

/-! ### The command of a needle -/

/-- What a word spells, with the word after it for a pair; undefined majors, FUNC values and non-zero write-0 fields are illegal
(R273, R537). -/
def needleWord (n : Fin 96) (w x : Word) : Meaning :=
  let rd := wRd w
  let ra := wRa w
  let i : Option Meaning := match fld w 5 0 with
    | 0x01 => scalarWord n w
    | 0x02 => some (execAddi n rd ra (wImm w))
    | 0x03 => some (execAndi n rd ra (wImm w))
    | 0x04 => some (execOri n rd ra (wImm w))
    | 0x05 => some (execXori n rd ra (wImm w))
    | 0x06 => some (execLui n rd (wImm w))
    | 0x07 => some (execShiftImmediate n rd ra (wImm w))
    | 0x08 => branchWord n w
    | 0x09 => some (execJal n rd (BitVec.ofNat 21 (fld w 31 11)))
    | 0x0A => some (execJalr n rd ra (wImm w))
    | 0x0C | 0x0D | 0x14 | 0x15 => memWord n w
    | 0x10 => vectorWord n .int32 w
    | 0x11 => vectorWord n .fp32 w
    | 0x12 => vectorWord n .fp16 w
    | 0x13 => vectorWord n .bf16 w
    | 0x16 => permWord n w
    | 0x17 => predWord n w
    | 0x18 => redWord n w
    | 0x19 | 0x1A | 0x1B | 0x1C | 0x1D | 0x1E => planeWord n w
    | 0x38 | 0x39 | 0x3A | 0x3B | 0x3C | 0x3D | 0x3E => pairWord n w x
    | _ => none
  i.getD (execIllegalInstruction n)
/-- What a needle's next issue does: the words at its PC, or CAUSE 8 at or beyond TEXT_LEN (R270, R288). -/
def State.needleNext (s : State) (n : Fin 96) : Host.Outcome State Fault Refusal :=
  let pc := (s.needles[n]).pc.toNat
  let text := ((s.programOf n).map Program.text).getD []
  needleWord n (BitVec.ofNat 32 (leAt text pc 4)) (BitVec.ofNat 32 (leAt text (pc + 4) 4)) s

end Sys2Proof.Machine
end

