-- ==== Sys2Proof/Safety.lean ====
section
/-! DEFINITION. What a safe run is: no step ends in a fault or a refusal, and memory keeps its canonical form. -/
namespace Sys2Proof.Safety
open Sys2Proof Sys2Proof.Machine

/-- The invariant of every state a run reaches: memory is in its canonical form. -/
def Inv (s : State) : Prop := Memory.wf s.mem = true

/-- A step that goes on and keeps the invariant. -/
def StepSafe (s : State) : Prop := Inv s → ∃ t, step s = .next t ∧ Inv t

end Sys2Proof.Safety
end

