-- ==== Sys2Proof/Safety/Terms.lean ====
section
/-! DEFINITION. The words the statements about commands are made of: when a needle may issue, and the state after an
instruction that changes its needle alone. -/
namespace Sys2Proof.Safety
open Sys2Proof Sys2Proof.Machine

/-- Needle n may issue an instruction of `len` bytes that names the scalars `ss` and the vectors `vs`: it runs and waits
for nothing in a powered skein of a swatch that is neither Held, Frogged nor Bound (R288, R290), its PC lies inside the
text and is neither the second word of a pair nor, for a pair, misaligned (R272, R274), and no register it names waits for
a load (R290). -/
structure MayIssue (s : State) (n : Fin 96) (len : Nat) (ss vs : List (Fin 32)) : Prop where
  runs    : s.mayIssue n = true
  inText  : (s.needles[n]).pc.toNat < s.textLen n
  notMid  : s.secondWord n (s.needles[n]).pc.toNat = false
  aligned : len = 8 → (s.needles[n]).pc.toNat % 8 = 0
  loaded  : s.loading n ss vs = false

/-- The state after needle n retired one instruction of `len` bytes that changed its registers by `g`: the counters of R295
and the PC move on, a pending HALT or the end of a STEP takes effect (R296), one free value is used up (log 11), and nothing
else of the state is changed. -/
def retired (s : State) (n : Fin 96) (len : Nat) (g : Needle → Needle) : State :=
  let x := s.needles[n]
  let d := s.freeVal
  { s with
    needles := s.needles.set n (Needle.boundary (g { x with
      retired := x.retired + 1, stalls := x.stalls + d, cycles := x.cycles + d + 1, pc := x.pc + BitVec.ofNat 17 len }))
    freeCtr := s.freeCtr + 1 }

/-- The outcome of an instruction that writes s[rd]: s0 ignores the write. -/
def writesS (s : State) (n : Fin 96) (rd : Fin 32) (v : DWord) : Host.Outcome State Fault Refusal :=
  .next (retired s n 4 fun x => if rd = 0 then x else { x with s := x.s.set rd v })

/-- The outcome of an instruction that writes the lanes of v[rd] the predicate admits (R274). -/
def writesV (s : State) (n : Fin 96) (pr : Pred) (rd : Fin 32) (f : Fin 64 → Word) : Host.Outcome State Fault Refusal :=
  .next (retired s n 4 fun x => { x with v := x.v.set rd (Vector.ofFn fun (i : Fin 64) =>
    if pr.on = true ∧ (s.needles[n].p[pr.pr]).getLsbD i.val = pr.inv then (s.needles[n].v[rd])[i] else f i) })

/-- The outcome of an instruction that writes the bits of p[rd] the predicate admits (R274). -/
def writesP (s : State) (n : Fin 96) (pr : Pred) (rd : Fin 8) (f : Fin 64 → Bool) : Host.Outcome State Fault Refusal :=
  .next (retired s n 4 fun x => { x with p := x.p.set rd (BitVec.ofFnLE fun (i : Fin 64) =>
    if pr.on = true ∧ (s.needles[n].p[pr.pr]).getLsbD i.val = pr.inv then (s.needles[n].p[rd]).getLsbD i.val else f i) })

/-- The outcome of an instruction that issues `cnt` accesses to its own skein store, one for each 64-byte granule from
address a upward (R259): the i-th does `op` and delivers to `dest` of its offset 64·i. -/
def ownAccesses (s : State) (n : Fin 96) (a cnt : Nat) (op : Nat → AccOp) (dest : Nat → Dest) :
    Host.Outcome State Fault Refusal :=
  .next { (retired s n 4 id) with
    nextAccess := s.nextAccess + cnt
    accesses := s.accesses ++ (List.range cnt).map fun i =>
      { id := s.nextAccess + i, who := .needle n, path := .bank (skeinOf n) (Fin.ofNat 16 (a / 64 + i)), group := .needle,
        addr := a + 64 * i, op := op (64 * i), dest := dest (64 * i), tag := none, pc := (s.needles[n]).pc.toNat,
        live := true, spur := false } }

/-- A Renaro entry that its SQ may dispatch now (R110, R134), of a ring that issues on this die (SCOPE_DIE = 0, R106), and
that passes every check of R123 for the command c: s1 is the state with the entry taken from the ring. -/
structure Accepts (c : Cmd) (e : Entry) (s s1 : State) : Prop where
  taken  : s.takeEntry e = some s1
  here   : (s1.sqs[e.sq]).cfg.getLsbD 12 = false
  passes : c.check (s1.sqs[e.sq]).scope false e s1 = none

/-- The identity under which the command of an entry taken is answered. -/
def refOf (e : Entry) (s1 : State) : CmdRef := e.ref false (s1.sqs[e.sq]).epoch

end Sys2Proof.Safety
end

