-- ==== Sys2Proof/Certificates/Slice0/Obligations.lean ====
section
/-! DEFINITION. The statements of this model for the provers: the step and the queue, the Renaro interface, and every family of
commands, each with what it leaves unchanged. -/
open Sys2Proof Sys2Proof.Machine Sys2Proof.Safety

/-- With the command c at the front of its queue, a step from s is exec of c on s with the queue's rest, whatever c and s are; on an empty
queue the step leaves s as it is (the model's choice, log 1). -/
def Obligations.StepTakesFrontCommand : Prop :=
  (∀ (c : Instr) (rest : List Instr) (s : State),
    step { s with pending := c :: rest } = exec c { s with pending := rest }) ∧
  (∀ s : State, s.pending = [] → step s = .next s)

/-- At reset memory lists nothing, so the invariant holds; nothing waits and nothing has been sent. READY is 0 and the state reads 0; every
swatch is Unset, every ring OFF, every needle idle; the row period is 0x000186A0 and the row number 0; CHN_CFG reads 0x00140000 and the other
chain words 0. (Values of registers for which the spec gives none are the model's, log 4 and log 9; none is stated here.) -/
def Obligations.ResetState : Prop :=
  Inv State.reset ∧ State.reset.pending = [] ∧ State.reset.out = [] ∧ State.reset.mem = [] ∧
  State.reset.selv.ready = false ∧ State.reset.statusWord &&& 0xFF = 0 ∧
  (∀ i : Fin 8, State.reset.swatches[i].st = .unset) ∧
  (∀ i : Fin 16, State.reset.sqs[i].fsm.st = .off ∧ State.reset.cqs[i].fsm.st = .off) ∧
  (∀ n : Fin 96, State.reset.needles[n].st = .idle) ∧
  State.reset.tick.period = 0x000186A0 ∧ State.reset.tick.count = 0 ∧
  State.reset.chain.read 0 = 0x00140000 ∧ State.reset.chain.read 8 = 0 ∧ State.reset.chain.read 0xC = 0 ∧ State.reset.chain.read 0x14 = 0

/-- From every state whose memory is in canonical form (addresses strictly rising, no byte listed that equals what an unlisted address reads
as), whatever command stands at the front, a step answers a next state: memory is in canonical form there, the queue is the old queue
without its front, and no fuse of the package has changed. No step ends in a fault or a refusal. -/
def Obligations.EveryStepKeepsMemoryCanonical : Prop :=
  ∀ s : State, Inv s → ∃ t : State, step s = .next t ∧ Inv t ∧ t.pending = s.pending.tail ∧ t.fuses = s.fuses

/-- Every Renaro row is its command, taken from its ring. A command that its ring may not dispatch changes nothing but the note that its FENCE
makes the ring wait; taking one needs READY and a ring that is ON, without a fault, not empty and with fewer than 64 in flight, a FENCE none
in flight, and changes that ring and the turn alone; the command of a ring with SCOPE_DIE = 1 goes to the other die. Its checks come in the order of R123, the lowest offending offset first, and the first that fails is answered with its status and no
other effect. An answer to a ring whose CQ on this die may take it is one entry of 64 bytes, CMD_ID, STATUS, DETAIL, SQ_ID, PHASE, head and row as R113
places them, written at the CQ's tail, which moves on and inverts PHASE at the wrap. -/
def Obligations.RenaroChecksAndReplies : Prop :=
  (let rows : List (Cmd × (Entry → Instr)) :=
    [(cmdNop, .nop), (cmdQueryDevice, .queryDevice), (cmdSetBudget, .setBudget), (cmdSetWake, .setWake),
     (cmdQueryPower, .queryPower), (cmdRestart, .restart), (cmdFwUpdate, .fwUpdate), (cmdSetBootCtrl, .setBootCtrl),
     (cmdCastSwatch, .castSwatch), (cmdKnit, .knit), (cmdStopKnit, .stopKnit), (cmdHoldSwatch, .holdSwatch),
     (cmdRestoreSwatch, .restoreSwatch), (cmdBindOffSwatch, .bindOffSwatch), (cmdQuerySwatch, .querySwatch),
     (cmdSetSwatchPpoint, .setSwatchPpoint), (cmdSetSwatchGauge, .setSwatchGauge), (cmdGrantDistaff, .grantDistaff),
     (cmdReturnDistaff, .returnDistaff), (cmdCommitDraft, .commitDraft), (cmdFrogDraft, .frogDraft),
     (cmdQueryMemory, .queryMemory), (cmdAllocHanks, .allocHanks), (cmdFreeHanks, .freeHanks), (cmdMemFill, .memFill),
     (cmdMemCopy, .memCopy), (cmdLoadProgram, .loadProgram), (cmdLoadStitchMap, .loadStitchMap),
     (cmdLoadCardProgram, .loadCardProgram), (cmdUnloadProgram, .unloadProgram), (cmdBindBobbin, .bindBobbin),
     (cmdUnbindBobbin, .unbindBobbin), (cmdRunBobbin, .runBobbin), (cmdQueryBobbin, .queryBobbin),
     (cmdQueryTick, .queryTick), (cmdSetTickPeriod, .setTickPeriod), (cmdWaitTick, .waitTick),
     (cmdQueryHealth, .queryHealth), (cmdRunCensus, .runCensus), (cmdReadMap, .readMap), (cmdPortReenable, .portReenable),
     (cmdReadDistance, .readDistance), (cmdSetRepairCtrl, .setRepairCtrl), (cmdAttest, .attest), (cmdGetCerts, .getCerts),
     (cmdAdopt, .adopt), (cmdLoadTagMaster, .loadTagMaster), (cmdReadYardage, .readYardage), (cmdAddYardage, .addYardage),
     (cmdRaiseSvn, .raiseSvn), (cmdTagProve, .tagProve), (cmdTagIncrement, .tagIncrement), (cmdChainSearch, .chainSearch),
     (cmdChainList, .chainList), (cmdChainPing, .chainPing), (cmdChainConfig, .chainConfig),
     (cmdQueryInnerChain, .queryInnerChain), (cmdExpertGrant, .expertGrant), (cmdExpertRelease, .expertRelease),
     (cmdQueryGrant, .queryGrant), (cmdDebugEcho, .debugEcho), (cmdDebugReadLog, .debugReadLog),
     (cmdDebugReadReg, .debugReadReg), (cmdDebugSetLog, .debugSetLog)]
   ∀ p ∈ rows, ∀ (e : Entry) (s : State), exec (p.2 e) s = .next (p.1.dispatch e s)) ∧
  (∀ (c : Cmd) (e : Entry) (s : State),
    (s.takeEntry e = none → (∃ i : Fin 16, c.dispatch e s = s ∨
      (e.fence = true ∧ 0 < (s.sqs[i]).inflight ∧ c.dispatch e s = s.modSq i fun q => { q with fenced := true }))) ∧
    (∀ s1, s.takeEntry e = some s1 →
      let q := s.sqs[e.sq]
      s.selv.ready = true ∧ q.fsm.st = .on ∧ q.error = false ∧ q.head ≠ q.tail ∧ q.inflight < 64 ∧ (e.fence = true → q.inflight = 0) ∧
      s1 = { s with turn := e.sq, turnLeft := s1.turnLeft, sqs := s.sqs.set e.sq { q with
        head := if q.head.toNat + 1 = ringSize q.cfg then 0 else q.head + 1, inflight := q.inflight + 1, fenced := false } } ∧
      ((s1.sqs[e.sq]).cfg.getLsbD 12 = true → c.dispatch e s = s1.relay c.op e) ∧
      ((s1.sqs[e.sq]).cfg.getLsbD 12 = false →
        (∀ st d, c.check (s1.sqs[e.sq]).scope false e s1 = some (st, d) → c.dispatch e s = s1.reply (refOf e s1) st d) ∧
        (c.check (s1.sqs[e.sq]).scope false e s1 = none → c.dispatch e s = c.act (refOf e s1) e s1)))) ∧
  (∀ (c : Cmd) (scope : Nat) (e : Entry) (s : State),
    let bad := c.headerBad scope e ++ c.bad e s
    let denied := (scope < 8 ∧ scopeAllows c.op scope e s = false) ∨ c.deny e s = true
    let compute := (c.op / 256 = 1 ∨ c.op / 256 = 3) ∧ s.selv.computeOk = false
    (∀ off ∈ bad, (∀ x ∈ bad, off ≤ x) → c.check scope false e s = some (stInvalidParam, off)) ∧
    (bad = [] →
      (∀ d, c.object e s = some d → c.check scope false e s = some (stInvalidParam, d)) ∧
      (c.object e s = none →
        (denied → c.check scope false e s = some (stNotPermitted, 0)) ∧
        (¬denied →
          (∀ d, c.state e s = some d → c.check scope false e s = some (stConflict, d)) ∧
          (c.state e s = none → (compute → c.check scope false e s = some (stConflict, 3)) ∧
            (¬compute → c.check scope false e s = c.res e s))))) ∧
    (c.target = 0 → e.swatch ≠ 0xFF → 3 ∈ c.headerBad scope e) ∧ (c.target = 1 → 8 ≤ e.swatch.toNat → 3 ∈ c.headerBad scope e) ∧
    (c.target = 2 → 8 ≤ e.swatch.toNat → e.swatch ≠ 0xFF → 3 ∈ c.headerBad scope e) ∧
    (c.target = 4 → e.swatch ≠ 0xFF → 8 ≤ scope ∨ 8 ≤ e.swatch.toNat → 3 ∈ c.headerBad scope e)) ∧
  (∀ (s : State) (r : CmdRef) (st d : Nat) (res : List (Nat × Nat × Nat)), r.relayed = false → (s.sqs[r.sq]).epoch = r.epoch →
    let j := (s.sqs[r.sq]).cq
    let c := s.cqs[j]
    s.tripped = false → c.onTwin = false → c.fsm.st = .on → c.held = [] → s.canPost j = true →
    (c.distaffOwned = false → (s.fns[s.ringFn j]).resetting = false) →
    let t := s.reply r st d res
    let b := (s.compose r st d 0 none (resBytes res)).bytes c.phase (s.sqs[r.sq]).head
    b.length = 64 ∧ memRead t.mem (ringAddr c.distaffOwned c.base c.tail.toNat) 64 = b ∧
    leAt b 0 2 = r.cmdId.toNat ∧ b.getD 2 0 = BitVec.ofNat 8 st ∧ b.getD 3 0 = BitVec.ofNat 8 d ∧
    b.getD 4 0 = BitVec.ofNat 8 r.sq.val ∧ (b.getD 5 0).getLsbD 7 = c.phase ∧ leAt b 6 2 = (s.sqs[r.sq]).head.toNat ∧
    leAt b 8 8 = s.tick.count.toNat ∧
    (t.sqs[r.sq]).inflight = (s.sqs[r.sq]).inflight - 1 ∧
    (c.tail.toNat + 1 = ringSize c.cfg → (t.cqs[j]).tail = 0 ∧ (t.cqs[j]).phase = !c.phase) ∧
    (c.tail.toNat + 1 ≠ ringSize c.cfg → (t.cqs[j]).tail = c.tail + 1 ∧ (t.cqs[j]).phase = c.phase))

/-- For every state and operands in which needle n may issue, ADD to MAX answer the next state in which s[RD] holds the
value R275 states (wrapping sums, high product, division toward zero with its two corners, shift amounts modulo 64, signed
MIN and MAX, SLT and SLTU 1 or 0), s0 ignoring the write, the PC past the instruction, and every other part of the state as
it was. A word with MAJOR 0x01, a FUNC of 0 to 15 and no predicate bits spells these instructions in this order, its register
fields at bits 6, 11 and 16, and a word of an undefined MAJOR spells an illegal instruction. -/
def Obligations.ScalarIntegerResults : Prop :=
  (∀ (n : Fin 96) (rd ra rb : Fin 32) (x : Word),
    ∀ p ∈ [(0, execAdd), (1, execSub), (2, execMul), (3, execMulh), (4, execDiv), (5, execRem), (6, execAnd), (7, execOr),
      (8, execXor), (9, execShl), (10, execShr), (11, execSra), (12, execSlt), (13, execSltu), (14, execMin), (15, execMax)],
      needleWord n (BitVec.ofNat 32 (1 + rd.val * 2 ^ 6 + ra.val * 2 ^ 11 + rb.val * 2 ^ 16 + p.1 * 2 ^ 26)) x = p.2 n rd ra rb) ∧
  (∀ (n : Fin 96) (w x : Word), fld w 5 0 ∈ [0x00, 0x0B, 0x0E, 0x0F, 0x1F, 0x20, 0x37, 0x3F] →
    needleWord n w x = execIllegalInstruction n) ∧
  ∀ (s : State) (n : Fin 96) (rd ra rb : Fin 32), MayIssue s n 4 [rd, ra, rb] [] →
    let a := (s.needles[n]).sr ra
    let b := (s.needles[n]).sr rb
    let k := b.toNat % 64
    exec (.add n rd ra rb) s = writesS s n rd (BitVec.ofNat 64 (a.toNat + b.toNat)) ∧
    exec (.sub n rd ra rb) s = writesS s n rd (BitVec.ofInt 64 (a.toInt - b.toInt)) ∧
    exec (.mul n rd ra rb) s = writesS s n rd (BitVec.ofNat 64 (a.toNat * b.toNat)) ∧
    exec (.mulh n rd ra rb) s = writesS s n rd (BitVec.ofInt 64 (a.toInt * b.toInt / 2 ^ 64)) ∧
    exec (.div n rd ra rb) s = writesS s n rd (if b = 0 then BitVec.allOnes 64 else BitVec.ofInt 64 (a.toInt.tdiv b.toInt)) ∧
    exec (.rem n rd ra rb) s = writesS s n rd (if b = 0 then a else BitVec.ofInt 64 (a.toInt.tmod b.toInt)) ∧
    exec (.and n rd ra rb) s = writesS s n rd (BitVec.ofFnLE fun (i : Fin 64) => a.getLsbD i.val && b.getLsbD i.val) ∧
    exec (.or n rd ra rb) s = writesS s n rd (BitVec.ofFnLE fun (i : Fin 64) => a.getLsbD i.val || b.getLsbD i.val) ∧
    exec (.xor n rd ra rb) s = writesS s n rd (BitVec.ofFnLE fun (i : Fin 64) => a.getLsbD i.val != b.getLsbD i.val) ∧
    exec (.shl n rd ra rb) s = writesS s n rd (BitVec.ofNat 64 (a.toNat * 2 ^ k)) ∧
    exec (.shr n rd ra rb) s = writesS s n rd (BitVec.ofNat 64 (a.toNat / 2 ^ k)) ∧
    exec (.sra n rd ra rb) s = writesS s n rd (BitVec.ofInt 64 (a.toInt / 2 ^ k)) ∧
    exec (.slt n rd ra rb) s = writesS s n rd (if a.toInt < b.toInt then 1 else 0) ∧
    exec (.sltu n rd ra rb) s = writesS s n rd (if a.toNat < b.toNat then 1 else 0) ∧
    exec (.min n rd ra rb) s = writesS s n rd (if a.toInt ≤ b.toInt then a else b) ∧
    exec (.max n rd ra rb) s = writesS s n rd (if a.toInt ≤ b.toInt then b else a)

/-- Where needle n may issue: FADD, FSUB, FMUL and FMA work on bits [31:0], rounding once to nearest even, and write their
result zero-extended; FCVT converts by its direction bit; ADDI, ANDI, ORI, XORI and LUI use the sign-extended IMM16; the
shift immediate uses IMM16[5:0] as its amount and IMM16[7:6] as its kind, and its kind 3 faults with CAUSE 1. -/
def Obligations.ScalarFloatAndImmediateResults : Prop :=
  ∀ (s : State) (n : Fin 96) (rd ra rb : Fin 32) (imm : Half), MayIssue s n 4 [rd, ra, rb] [] →
    let x := s.needles[n]
    let f := fun (i : Fin 32) => dec32 (x.lo i)
    let w := fun (v : Sys2Proof.Num) => writesS s n rd ((enc32 v).setWidth 64)
    let i64 : Int := imm.toInt
    let k := imm.toNat % 64
    exec (.fadd n rd ra rb) s = w ((f ra).add (f rb)) ∧
    exec (.fsub n rd ra rb) s = w ((f ra).add (f rb).neg) ∧
    exec (.fmul n rd ra rb) s = w ((f ra).mul (f rb)) ∧
    exec (.fma n rd ra rb) s = w ((f rd).add ((f ra).mul (f rb))) ∧
    exec (.fcvt n true rd ra) s = w (Sys2Proof.Num.ofInt (x.sr ra).toInt) ∧
    exec (.fcvt n false rd ra) s = writesS s n rd (BitVec.ofInt 64 (toIntSat .rne (-2 ^ 63) (2 ^ 63 - 1) (f ra))) ∧
    exec (.addi n rd ra imm) s = writesS s n rd (BitVec.ofInt 64 ((x.sr ra).toInt + i64)) ∧
    exec (.andi n rd ra imm) s = writesS s n rd (x.sr ra &&& BitVec.ofInt 64 i64) ∧
    exec (.ori n rd ra imm) s = writesS s n rd (x.sr ra ||| BitVec.ofInt 64 i64) ∧
    exec (.xori n rd ra imm) s = writesS s n rd (x.sr ra ^^^ BitVec.ofInt 64 i64) ∧
    exec (.lui n rd imm) s = writesS s n rd (BitVec.ofInt 64 (i64 * 65536)) ∧
    exec (.shiftImmediate n rd ra imm) s =
      (match imm.toNat / 64 % 4 with
      | 0 => writesS s n rd (BitVec.ofNat 64 ((x.sr ra).toNat * 2 ^ k))
      | 1 => writesS s n rd (BitVec.ofNat 64 ((x.sr ra).toNat / 2 ^ k))
      | 2 => writesS s n rd (BitVec.ofInt 64 ((x.sr ra).toInt / 2 ^ k))
      | _ => .next (s.needleFault n 1 x.pc.toNat 0))

/-- Where needle n may issue, a branch whose condition holds sets PC := PC + 4*OFF13 and one whose condition fails goes on to
PC + 4; JAL sets RD := PC + 4 and PC := PC + 4*OFF21; JALR sets RD := PC + 4 and PC := s[RA] + IMM16 with bits [1:0] cleared,
the old s[RA] where RD = RA. Where the target is the second word of a pair the branch or jump faults with CAUSE 7 and changes no
register. The PC keeps the low 17 bits (log 24: the model's reading for a target outside the text). -/
def Obligations.BranchAndJumpTargets : Prop :=
  ∀ (s : State) (n : Fin 96) (rd ra rb : Fin 32) (off : BitVec 13) (far : BitVec 21) (imm : Half),
    MayIssue s n 4 [rd, ra, rb] [] →
    let x := s.needles[n]
    let a := x.sr ra
    let b := x.sr rb
    let go := fun (target : Int) => (.next
      (retired s n 4 fun y => { y with pc := BitVec.ofInt 17 target }) : Host.Outcome State Fault Refusal)
    let mid := fun (target : Int) => s.secondWord n (BitVec.ofInt 17 target).toNat
    let bad := Host.Outcome.next (ρ := Refusal) (φ := Fault) (s.needleFault n 7 x.pc.toNat 0)
    let br := fun (c : Prop) [Decidable c] => (if c then (if mid (x.pc.toNat + 4 * off.toInt) = true then bad else
      go (x.pc.toNat + 4 * off.toInt)) else go (x.pc.toNat + 4) : Host.Outcome State Fault Refusal)
    let link := fun (target : Int) => (if mid target = true then bad else .next (retired s n 4 fun y =>
      { (if rd = 0 then y else { y with s := y.s.set rd (BitVec.ofNat 64 (x.pc.toNat + 4)) }) with
        pc := BitVec.ofInt 17 target }) : Host.Outcome State Fault Refusal)
    exec (.brEq n ra rb off) s = br (a = b) ∧
    exec (.brNe n ra rb off) s = br (a ≠ b) ∧
    exec (.brLt n ra rb off) s = br (a.toInt < b.toInt) ∧
    exec (.brGe n ra rb off) s = br (b.toInt ≤ a.toInt) ∧
    exec (.brLtu n ra rb off) s = br (a.toNat < b.toNat) ∧
    exec (.brGeu n ra rb off) s = br (b.toNat ≤ a.toNat) ∧
    exec (.jal n rd far) s = link (x.pc.toNat + 4 * far.toInt) ∧
    exec (.jalr n rd ra imm) s = link ((a.toInt + imm.toInt) / 4 * 4)

/-- Where needle n may issue, VADD, VSUB, VMUL, VFMA, VMIN and VMAX write each admitted lane of v[RD] with the result of its
type (INT32 modulo 2^32; one binary32, two binary16 or two bfloat16 elements rounded once), VABS and VNEG use v[RA] alone,
and the INT32-only VAND, VOR, VXOR, VSHL, VSHR, VSRA and VMULH act on 32-bit lanes with shift amounts modulo 32. A lane the
predicate does not admit keeps its value, and nothing else of the state changes. -/
def Obligations.VectorArithmeticResults : Prop :=
  ∀ (s : State) (n : Fin 96) (ty : VType) (pr : Pred) (bc : Bool) (rd ra rb : Fin 32),
    MayIssue s n 4 [rb] [rd, ra, rb] →
    let x := s.needles[n]
    let d := fun (i : Fin 64) => (x.v[rd])[i]
    let a := fun (i : Fin 64) => (x.v[ra])[i]
    let b := fun (i : Fin 64) => if bc = true then (x.sr rb).setWidth 32 else (x.v[rb])[i]
    let el := fun (w : Word) (h : Nat) => w.toNat / 2 ^ (16 * h) % 2 ^ 16
    let arith := fun (int : Word → Word → Word → Word) (flt : Fmt → Nat → Nat → Nat → Nat) (i : Fin 64) (y z : Word) =>
      match ty with
      | .int32 => int (d i) y z
      | .fp32 => BitVec.ofNat 32 (flt .f32 (d i).toNat y.toNat z.toNat)
      | .fp16 => BitVec.ofNat 32 (flt .f16 (el (d i) 0) (el y 0) (el z 0) % 65536 + flt .f16 (el (d i) 1) (el y 1) (el z 1) % 65536 * 65536)
      | .bf16 => BitVec.ofNat 32 (flt .bf16 (el (d i) 0) (el y 0) (el z 0) % 65536 + flt .bf16 (el (d i) 1) (el y 1) (el z 1) % 65536 * 65536)
    let w := writesV s n pr rd
    exec (.vadd n ty pr bc rd ra rb) s = w (fun i => arith (fun _ p q => p + q) (fun f _ p q => f.addBits p q) i (a i) (b i)) ∧
    exec (.vsub n ty pr bc rd ra rb) s = w (fun i => arith (fun _ p q => p - q) (fun f _ p q => f.subBits p q) i (a i) (b i)) ∧
    exec (.vmul n ty pr bc rd ra rb) s = w (fun i => arith (fun _ p q => p * q) (fun f _ p q => f.mulBits p q) i (a i) (b i)) ∧
    exec (.vfma n ty pr bc rd ra rb) s = w (fun i => arith (fun o p q => o + p * q) (fun f o p q => f.fmaBits o p q) i (a i) (b i)) ∧
    exec (.vmin n ty pr bc rd ra rb) s = w (fun i => arith (fun _ p q => if p.toInt ≤ q.toInt then p else q)
      (fun f _ p q => f.minmax false x.ignoreNan p q) i (a i) (b i)) ∧
    exec (.vmax n ty pr bc rd ra rb) s = w (fun i => arith (fun _ p q => if p.toInt ≤ q.toInt then q else p)
      (fun f _ p q => f.minmax true x.ignoreNan p q) i (a i) (b i)) ∧
    exec (.vabs n ty pr rd ra) s = w (fun i => arith (fun _ p _ => BitVec.ofNat 32 p.toInt.natAbs)
      (fun f _ p _ => if (f.dec p).isNan = true then f.nanCode else p % 2 ^ (f.width - 1)) i (a i) (a i)) ∧
    exec (.vneg n ty pr rd ra) s = w (fun i => arith (fun _ p _ => BitVec.ofInt 32 (-p.toInt))
      (fun f _ p _ => if (f.dec p).isNan = true then f.nanCode
        else if p.testBit (f.width - 1) = true then p % 2 ^ (f.width - 1) else p + 2 ^ (f.width - 1)) i (a i) (a i)) ∧
    exec (.vand n pr bc rd ra rb) s = w (fun i => a i &&& b i) ∧
    exec (.vor n pr bc rd ra rb) s = w (fun i => a i ||| b i) ∧
    exec (.vxor n pr bc rd ra rb) s = w (fun i => a i ^^^ b i) ∧
    exec (.vshl n pr bc rd ra rb) s = w (fun i => BitVec.ofNat 32 ((a i).toNat * 2 ^ ((b i).toNat % 32))) ∧
    exec (.vshr n pr bc rd ra rb) s = w (fun i => BitVec.ofNat 32 ((a i).toNat / 2 ^ ((b i).toNat % 32))) ∧
    exec (.vsra n pr bc rd ra rb) s = w (fun i => BitVec.ofInt 32 ((a i).toInt / 2 ^ ((b i).toNat % 32))) ∧
    exec (.vmulh n pr bc rd ra rb) s = w (fun i => BitVec.ofInt 32 ((a i).toInt * (b i).toInt / 2 ^ 32))

/-- Where needle n may issue: VCVT between two 32-bit or two 16-bit element types converts every admitted element rounding to
nearest even and saturating into INT32, between different widths every element of the result is such a conversion of some element of
v[RA] or free (which one is free, log 26), and RB above 3 faults with CAUSE 1; BCAST, SHUFFLE, SLIDEUP, SLIDEDN and LANESET write the lanes R537 states, and LANEGET writes s[RD]. -/
def Obligations.ConvertAndPermuteResults : Prop :=
  ∀ (s : State) (n : Fin 96) (ty : VType) (pr : Pred) (rd ra rb : Fin 32),
    MayIssue s n 4 [rd, ra, rb] [rd, ra, rb] →
    let x := s.needles[n]
    let d := fun (i : Fin 64) => (x.v[rd])[i]
    let a := fun (i : Fin 64) => (x.v[ra])[i]
    let idx := fun (i : Nat) => (x.v[ra])[Fin.ofNat 64 i]
    let k := (x.sr rb).toNat
    let w := writesV s n pr rd
    (∀ dst, vtOf rb.val = some dst → vtCount ty = vtCount dst →
      exec (.vcvt n ty pr rd ra rb) s = w (fun i => cvtLane ty dst (a i))) ∧
    (∀ dst, vtOf rb.val = some dst → vtCount ty ≠ vtCount dst → ∃ (u : State) (el : Nat → Nat),
      w (fun i => if vtCount dst = 1 then BitVec.ofNat 32 (el i.val)
        else BitVec.ofNat 32 (el (2 * i.val) % 65536 + el (2 * i.val + 1) % 65536 * 65536)) = .next u ∧
      exec (.vcvt n ty pr rd ra rb) s = .next { u with freeCtr := s.freeCtr + 65 } ∧
      ∀ j k, Config.cvtPlace (decide (vtCount dst = 1)) j = some k → el j = vtBits dst (vtNum ty (vtElem ty x.v[ra] k))) ∧
    (3 < rb.val → exec (.vcvt n ty pr rd ra rb) s = .next (s.needleFault n 1 x.pc.toNat 0)) ∧
    exec (.bcast n pr rd ra) s = w (fun _ => (x.sr ra).setWidth 32) ∧
    exec (.shuffle n pr rd ra rb) s = w (fun i => idx (((x.v[rb])[i]).toNat % 64)) ∧
    exec (.slideup n pr rd ra rb) s = w (fun i => if k ≤ i.val then idx (i.val - k) else d i) ∧
    exec (.slidedn n pr rd ra rb) s = w (fun i => if i.val + k < 64 then idx (i.val + k) else 0) ∧
    exec (.laneget n rd ra rb) s = writesS s n rd ((idx (k % 64)).setWidth 64) ∧
    exec (.laneset n pr rd ra rb) s = w (fun i => if i.val = k % 64 then (x.sr ra).setWidth 32 else d i)

/-- Where needle n may issue and the predicate fields are at most 7: the compares write p[RD] lane by lane with the signed,
unsigned or binary32 relation (a NaN compares false but for NE), AND, OR, XOR and NOT combine predicates bit by bit, FIRST
writes the lowest set index or 64 and COUNT the number of set bits; with RD above 7 each faults with CAUSE 1. -/
def Obligations.PredicateResults : Prop :=
  ∀ (s : State) (n : Fin 96) (kind : CmpKind) (pr : Pred) (rd ra rb : Fin 32),
    MayIssue s n 4 [rd] [ra, rb] →
    let x := s.needles[n]
    let a := fun (i : Fin 64) => (x.v[ra])[i]
    let b := fun (i : Fin 64) => (x.v[rb])[i]
    let bad := Host.Outcome.next (ρ := Refusal) (φ := Fault) (s.needleFault n 1 x.pc.toNat 0)
    let eq := fun (p q : Word) => match kind with
      | .fp32 => (dec32 p).eqv (dec32 q)
      | _ => decide (p = q)
    let lt := fun (p q : Word) => match kind with
      | .signed => decide (p.toInt < q.toInt)
      | .unsigned => decide (p.toNat < q.toNat)
      | .fp32 => (dec32 p).lt (dec32 q)
    (7 < rd.val →
      exec (.predEq n kind pr rd ra rb) s = bad ∧ exec (.predNe n kind pr rd ra rb) s = bad ∧
      exec (.predLt n kind pr rd ra rb) s = bad ∧ exec (.predLe n kind pr rd ra rb) s = bad ∧
      exec (.predAnd n pr rd ra rb) s = bad ∧ exec (.predOr n pr rd ra rb) s = bad ∧
      exec (.predXor n pr rd ra rb) s = bad ∧ exec (.predNot n pr rd ra) s = bad ∧
      exec (.first n rd ra) s = bad ∧ exec (.count n rd ra) s = bad) ∧
    (kind = .fp32 → ∀ p q : Word, dec32 p = .nan ∨ dec32 q = .nan → eq p q = false ∧ lt p q = false) ∧
    (rd.val ≤ 7 →
      let w := writesP s n pr (Fin.ofNat 8 rd.val)
      exec (.predEq n kind pr rd ra rb) s = w (fun i => eq (a i) (b i)) ∧
      exec (.predNe n kind pr rd ra rb) s = w (fun i => !eq (a i) (b i)) ∧
      exec (.predLt n kind pr rd ra rb) s = w (fun i => lt (a i) (b i)) ∧
      exec (.predLe n kind pr rd ra rb) s = w (fun i => lt (a i) (b i) || eq (a i) (b i)) ∧
      (7 < ra.val ∨ 7 < rb.val → exec (.predAnd n pr rd ra rb) s = bad ∧ exec (.predOr n pr rd ra rb) s = bad ∧
        exec (.predXor n pr rd ra rb) s = bad) ∧
      (7 < ra.val → exec (.predNot n pr rd ra) s = bad ∧ exec (.first n rd ra) s = bad ∧ exec (.count n rd ra) s = bad) ∧
      (ra.val ≤ 7 → rb.val ≤ 7 →
        let p := x.p[Fin.ofNat 8 ra.val]
        let q := x.p[Fin.ofNat 8 rb.val]
        exec (.predAnd n pr rd ra rb) s = w (fun i => p.getLsbD i.val && q.getLsbD i.val) ∧
        exec (.predOr n pr rd ra rb) s = w (fun i => p.getLsbD i.val || q.getLsbD i.val) ∧
        exec (.predXor n pr rd ra rb) s = w (fun i => p.getLsbD i.val != q.getLsbD i.val) ∧
        exec (.predNot n pr rd ra) s = w (fun i => !p.getLsbD i.val) ∧
        (∃ f : Nat, exec (.first n rd ra) s = writesS s n rd (BitVec.ofNat 64 f) ∧ f ≤ 64 ∧
          (∀ j, j < f → p.getLsbD j = false) ∧ (f < 64 → p.getLsbD f = true)) ∧
        exec (.count n rd ra) s = writesS s n rd (BitVec.ofNat 64 ((List.finRange 64).countP fun i => p.getLsbD i.val))))

/-- Where needle n may issue: SUM and SUMSQ on INT32 write the exact sum modulo 2^64 (added to s[RD] with ACC), on FP32 the
fixed tree's binary32 result; with no admitted lane and ACC = 1 every reduction leaves its destination, with ACC = 0 SUM and
SUMSQ write 0, MEANVAR count 0 and the MAX family 0xFFC0_0000 (index 0xFFFF_FFFF for ARGMAX and ARGMIN); MEANVAR on INT32 or
with RD above 30 faults with CAUSE 1.
Where needle n may issue and some lane is admitted, RED_MAX and RED_MIN on INT32 without ACC write the value of an
admitted lane that no admitted lane exceeds (or falls below), zero-extended; ARGMAX and ARGMIN write such a lane's value in
[31:0] and, in [63:32], s[RB] plus the lane's number modulo 2^32, where with s[RB] small enough not to wrap no lower admitted lane holds the
same value. -/
def Obligations.ReductionResults : Prop :=
  (∀ (s : State) (n : Fin 96) (acc : Bool) (pr : Pred) (rd ra rb : Fin 32),
    MayIssue s n 4 [rd, rd + 1, rb] [ra] →
    let x := s.needles[n]
    let on := (List.finRange 64).filter fun (i : Fin 64) => x.admits pr i.val
    let lane := fun (i : Fin 64) => (x.v[ra])[i]
    let isum := (on.map fun i => (lane i).toInt).sum
    let isq := (on.map fun i => (lane i).toInt * (lane i).toInt).sum
    let old : Int := if acc = true then (x.sr rd).toInt else 0
    exec (.sum n true acc pr rd ra) s = writesS s n rd (BitVec.ofInt 64 (old + isum)) ∧
    exec (.sumsq n true acc pr rd ra) s = writesS s n rd (BitVec.ofInt 64 (old + isq)) ∧
    (∀ v, fpSum false acc (x.lo rd) (x.admitted pr ra) = some v →
      exec (.sum n false acc pr rd ra) s = writesS s n rd (v.setWidth 64)) ∧
    (∀ v, fpSum true acc (x.lo rd) (x.admitted pr ra) = some v →
      exec (.sumsq n false acc pr rd ra) s = writesS s n rd (v.setWidth 64)) ∧
    exec (.meanvar n true acc pr rd ra) s = .next (s.needleFault n 1 x.pc.toNat 0) ∧
    (30 < rd.val → exec (.meanvar n false acc pr rd ra) s = .next (s.needleFault n 1 x.pc.toNat 0)) ∧
    (on = [] →
      let same := Host.Outcome.next (ρ := Refusal) (φ := Fault) (retired s n 4 id)
      (acc = true →
        exec (.sum n false acc pr rd ra) s = same ∧ exec (.sumsq n false acc pr rd ra) s = same ∧
        (rd.val ≤ 30 → exec (.meanvar n false acc pr rd ra) s = same) ∧
        ∀ int, exec (.redMax n int acc pr rd ra) s = same ∧ exec (.redMin n int acc pr rd ra) s = same ∧
          exec (.argmax n int acc pr rd ra rb) s = same ∧ exec (.argmin n int acc pr rd ra rb) s = same) ∧
      (acc = false →
        exec (.sum n false acc pr rd ra) s = writesS s n rd 0 ∧ exec (.sumsq n false acc pr rd ra) s = writesS s n rd 0 ∧
        (rd.val ≤ 30 → exec (.meanvar n false acc pr rd ra) s = .next (retired s n 4 fun y => (y.setS rd 0).setS (rd + 1) 0)) ∧
        ∀ int, exec (.redMax n int acc pr rd ra) s = writesS s n rd 0xFFC00000 ∧
          exec (.redMin n int acc pr rd ra) s = writesS s n rd 0xFFC00000 ∧
          exec (.argmax n int acc pr rd ra rb) s = writesS s n rd 0xFFFFFFFFFFC00000 ∧
          exec (.argmin n int acc pr rd ra rb) s = writesS s n rd 0xFFFFFFFFFFC00000))) ∧
  (∀ (s : State) (n : Fin 96) (pr : Pred) (rd ra rb : Fin 32),
    MayIssue s n 4 [rd, rb] [ra] →
    let x := s.needles[n]
    let lane := fun (i : Fin 64) => (x.v[ra])[i]
    (∃ i : Fin 64, x.admits pr i.val = true) → (x.lo rb).toNat + 63 < 2 ^ 32 →
    let pick := fun (isMax : Bool) (i : Fin 64) => x.admits pr i.val = true ∧ ∀ j : Fin 64, x.admits pr j.val = true →
      (if isMax = true then (lane j).toInt ≤ (lane i).toInt else (lane i).toInt ≤ (lane j).toInt) ∧
      (lane j = lane i → i.val ≤ j.val)
    let arg := fun (i : Fin 64) => BitVec.ofNat 64 ((lane i).toNat + ((x.lo rb).toNat + i.val) * 2 ^ 32)
    (∃ i, pick true i ∧ exec (.redMax n true false pr rd ra) s = writesS s n rd ((lane i).setWidth 64) ∧
      exec (.argmax n true false pr rd ra rb) s = writesS s n rd (arg i)) ∧
    (∃ i, pick false i ∧ exec (.redMin n true false pr rd ra) s = writesS s n rd ((lane i).setWidth 64) ∧
      exec (.argmin n true false pr rd ra rb) s = writesS s n rd (arg i)))

/-- Where needle n may issue, CSRR writes s[RD] with the register of its index (NEEDLE_ID by its fields, DRAFT, RIB_MODE,
FAULT_FLAG, CYCLES, TICK_COUNT, NDL_FAULT) and faults with CAUSE 1 above index 6 (log 25); CSRW of index 1, 2 or 3 changes that
register's bits alone, and of an RO or unlisted index faults with CAUSE 1. Nothing else changes. -/
def Obligations.ControlRegisterReadsAndWrites : Prop :=
  ∀ (s : State) (n : Fin 96) (rd ra rb : Fin 32), MayIssue s n 4 [rd, ra] [] →
    let x := s.needles[n]
    let v := x.sr ra
    let bad := Host.Outcome.next (ρ := Refusal) (φ := Fault) (s.needleFault n 1 x.pc.toNat 0)
    let put := fun (g : Needle → Needle) => Host.Outcome.next (ρ := Refusal) (φ := Fault) (retired s n 4 g)
    (∀ i : Fin 8, s.swatchOf (skeinOf n) = some i → rb = 0 →
      let w := s.swatches[i]
      let rel := (n.val / 24 - w.course0.val) * (w.walesM1.val + 1) + (n.val / 6 % 4 - w.wale0.val)
      exec (.csrr n rd rb) s = writesS s n rd ((mkW [(0, 7, n.val), (7, 3, n.val % 6), (10, 4, n.val / 6), (14, 2, n.val / 24),
        (16, 2, n.val / 6 % 4), (18, 4, rel), (22, 3, i.val)]).setWidth 64)) ∧
    (rb = 1 → exec (.csrr n rd rb) s = writesS s n rd (x.draft.setWidth 64)) ∧
    (rb = 2 → exec (.csrr n rd rb) s = writesS s n rd (if x.ignoreNan = true then 1 else 0)) ∧
    (rb = 3 → exec (.csrr n rd rb) s = writesS s n rd x.faultFlag) ∧
    (rb = 4 → exec (.csrr n rd rb) s = writesS s n rd x.cycles) ∧
    (rb = 5 → exec (.csrr n rd rb) s = writesS s n rd s.tick.count) ∧
    (rb = 6 → exec (.csrr n rd rb) s = writesS s n rd (x.fault.setWidth 64)) ∧
    (7 ≤ rb.val → exec (.csrr n rd rb) s = bad) ∧
    (rb = 1 → exec (.csrw n ra rb) s = put fun y => { y with draft := v.setWidth 32 }) ∧
    (rb = 2 → exec (.csrw n ra rb) s = put fun y => { y with ignoreNan := v.getLsbD 0 }) ∧
    (rb = 3 → exec (.csrw n ra rb) s = put fun y => { y with faultFlag := v &&& 0xFFFFFFFF0000007F }) ∧
    (rb = 0 ∨ 4 ≤ rb.val → exec (.csrw n ra rb) s = bad)

/-- Where needle n may issue: HALT leaves it Halted with its program ended; TICKWAIT in a hard swatch ends the row without
writing s[RD], with RA = 0 waits for the next tick, else waits until TICK_COUNT reaches s[RA] or, if it has, writes TICK_COUNT
to s[RD] at once. The resume of a waiting needle whose tick has come and whose swatch is not Held writes TICK_COUNT to s[RD];
before that it changes nothing. -/
def Obligations.HaltAndTickWait : Prop :=
  ∀ (s : State) (n : Fin 96) (rd ra : Fin 32),
    let x := s.needles[n]
    let put := fun (g : Needle → Needle) => Host.Outcome.next (ρ := Refusal) (φ := Fault) (retired s n 4 g)
    (MayIssue s n 4 [rd, ra] [] →
      exec (.halt n) s = put (fun y => { y with st := .halted, wait := .ended, haltReq := false, stepReq := false }) ∧
      (s.inHard n = true → exec (.tickwait n rd ra) s = put fun y => { y with wait := .ended }) ∧
      (s.inHard n = false → ra = 0 →
        exec (.tickwait n rd ra) s = put fun y => { y with wait := .tick rd (s.tick.count + 1) true }) ∧
      (s.inHard n = false → ra ≠ 0 → (x.s[ra]).toNat ≤ s.tick.count.toNat →
        exec (.tickwait n rd ra) s = writesS s n rd s.tick.count) ∧
      (s.inHard n = false → ra ≠ 0 → s.tick.count.toNat < (x.s[ra]).toNat →
        exec (.tickwait n rd ra) s = put fun y => { y with wait := .tick rd x.s[ra] false })) ∧
    (∀ target any, x.wait = .tick rd target any →
      (target.toNat ≤ s.tick.count.toNat → s.swatchRuns n = true →
        exec (.needleTickwaitResume n) s = .next (s.modNeedle n fun y =>
          Needle.boundary { y with wait := .none, s := if rd = 0 then y.s else y.s.set rd s.tick.count })) ∧
      (s.tick.count.toNat < target.toNat ∨ s.swatchRuns n = false → exec (.needleTickwaitResume n) s = .next s))

/-- An illegal instruction faults with CAUSE 1; for every instruction a PC at or beyond TEXT_LEN faults with CAUSE 8, the second
word of a pair or a misaligned pair with CAUSE 7, and a needle that does not run changes nothing. A fault with cause c leaves
needle n Faulted at its PC with NDL_FAULT = c + 2^8*PC and NDL_FAULT_ADDR the data address, its registers as they were and every
other needle untouched, sets SWT_STATUS.BAD_ACCESS for causes 3, 4 and 6, and with FAULT_FLAG enabled sends the flag ADD. -/
def Obligations.NeedleFaultEffects : Prop :=
  (∀ (s : State) (n : Fin 96), MayIssue s n 4 [] [] →
    exec (.illegalInstruction n) s = .next (s.needleFault n 1 (s.needles[n]).pc.toNat 0)) ∧
  (∀ (s : State) (n : Fin 96) (len : Nat) (ss vs : List (Fin 32)) (f : State → NStep),
    let pc := (s.needles[n]).pc.toNat
    (s.mayIssue n = false → s.issue n len ss vs f = s) ∧
    (s.mayIssue n = true → s.textLen n ≤ pc → s.issue n len ss vs f = s.needleFault n 8 pc 0) ∧
    (s.mayIssue n = true → pc < s.textLen n → s.secondWord n pc = true ∨ (len = 8 ∧ pc % 8 ≠ 0) →
      s.issue n len ss vs f = s.needleFault n 7 pc 0)) ∧
  (∀ (s : State) (n : Fin 96) (c addr : Nat) (pc : BitVec 17), c < 16 →
    let x := s.needles[n]
    let t := s.needleFault n c pc.toNat addr
    let h : PktHead := ⟨skeinOf n, s.homeOf n, (s.swatchOf (skeinOf n)).getD 0, .needle (kOf n), s.nextAccess⟩
    t.needles[n] = { x with
      st := .faulted, wait := .none, haltReq := false, stepReq := false, pc := pc,
      fault := BitVec.ofNat 32 (c + 256 * pc.toNat), faultAddr := BitVec.ofNat 64 addr } ∧
    (∀ m : Fin 96, m ≠ n → t.needles[m] = s.needles[m]) ∧ (c ≠ 5 → t.mem = s.mem) ∧ t.skeins = s.skeins ∧
    (x.faultFlag.getLsbD 6 = true → t.out.getLast? = some (.flagOp h .add (Fin.ofNat 64 (fld x.faultFlag 5 0))
      (BitVec.ofNat 32 (fld x.faultFlag 63 32)))) ∧
    (x.faultFlag.getLsbD 6 = false → c ≠ 5 → t.out = s.out) ∧
    (∀ i : Fin 8, s.swatchOf (skeinOf n) = some i →
      (c = 3 ∨ c = 4 ∨ c = 6 → (t.swatches[i]).status = setBit (s.swatches[i]).status 5) ∧
      (c ≠ 3 → c ≠ 4 → c ≠ 6 → (t.swatches[i]).status = (s.swatches[i]).status)))

/-- BAR with RA up to 15 sends an arrival to the home skein and stalls, above 15 it faults with CAUSE 1. An arrival at the home
unit of a needle that is no member is released at once, sets MESH_EVENTS.BAR_STRAY and SWT_STATUS.BAD_ACCESS; a member's arrival
is counted; with the last member's every member is released, GEN toggles and the count starts anew. The release ends the wait of
a needle that stalls on that barrier, and changes nothing for another.
Where needle n may issue, FLAG sends its operation on flag s[RA][5:0] with operand s[RB] to the home skein; SET and ADD owe
s[RD] the reply and go on, the waits stall until it. At the home unit SET and ADD return the old value and leave the operand or
the sum modulo 2^32; a wait whose condition holds is answered with the flag's value, and one whose condition fails is kept. -/
def Obligations.BarriersAndFlags : Prop :=
  (∀ (s : State) (n : Fin 96) (ra : Fin 32),
    (MayIssue s n 4 [] [] →
      (∀ h : ra.val < 16, exec (.bar n ra) s = .next { (retired s n 4 fun y => { y with wait := .barrier ⟨ra.val, h⟩ }) with
        out := s.out ++ [.barrierArrive (s.pkt n (s.homeOf n)) ⟨ra.val, h⟩], nextAccess := s.nextAccess + 1 }) ∧
      (16 ≤ ra.val → exec (.bar n ra) s = .next (s.needleFault n 1 (s.needles[n]).pc.toNat 0))) ∧
    (∀ (h : PktHead) (k : Fin 6) (i : Fin 16), h.issuer = .needle k → ((s.skeins[h.dst]).mesh).refuses h [h.dst] false = none →
      let b := ((s.skeins[h.dst]).mesh).barriers[i]
      let m := needleOf h.src k
      let set := fun (b' : Barrier) => s.modMesh h.dst fun u => { u with barriers := u.barriers.set i b' }
      let got := if m ∈ b.arrived then b.arrived else b.arrived ++ [m]
      (m ∉ b.members → exec (.barrierArrival h.dst h i) s =
        .next (((s.modMesh h.dst fun u => { u with events := setBit u.events 4 }).swStatus h.swatch 5).emit
          (.barrierRelease m i))) ∧
      (m ∈ b.members → (∃ j ∈ b.members, j ∉ got) →
        exec (.barrierArrival h.dst h i) s = .next (set { b with arrived := got })) ∧
      (m ∈ b.members → (∀ j ∈ b.members, j ∈ got) →
        exec (.barrierArrival h.dst h i) s =
          .next ((set { b with arrived := [], gen := !b.gen }).emits (b.members.map fun j => .barrierRelease j i)))) ∧
    (∀ i : Fin 16, ((s.needles[n]).wait = .barrier i →
        exec (.barrierRelease n i) s = .next (s.modNeedle n fun y => Needle.boundary { y with wait := .none })) ∧
      ((s.needles[n]).wait ≠ .barrier i → exec (.barrierRelease n i) s = .next s))) ∧
  (∀ (s : State) (n : Fin 96) (rd ra rb : Fin 32), MayIssue s n 4 [rd, ra, rb] [] →
    let x := s.needles[n]
    let h := s.pkt n (s.homeOf n)
    let send := fun (op : FlagKind) (g : Needle → Needle) (l : List Access) =>
      Host.Outcome.next (ρ := Refusal) (φ := Fault) { (retired s n 4 g) with
        out := s.out ++ [.flagOp h op (Fin.ofNat 64 (x.sr ra).toNat) ((x.sr rb).setWidth 32)]
        nextAccess := s.nextAccess + 1, accesses := s.accesses ++ l }
    let owed : Access := ⟨s.nextAccess, .needle n, .mesh (s.homeOf n), .needle, 0, .read 4, .sreg rd 2 false, none, x.pc.toNat, true, false⟩
    exec (.flagSet n rd ra rb) s = send .set id [owed] ∧
    exec (.flagAdd n rd ra rb) s = send .add id [owed] ∧
    exec (.flagWaitGe n rd ra rb) s = send .waitGe (fun y => { y with wait := .flag rd s.nextAccess }) [] ∧
    exec (.flagWaitEq n rd ra rb) s = send .waitEq (fun y => { y with wait := .flag rd s.nextAccess }) []) ∧
  (∀ (s : State) (h : PktHead) (f : Fin 64) (v : Word), ((s.skeins[h.dst]).mesh).refuses h [h.dst] false = none →
    let m := (s.skeins[h.dst]).mesh
    let old := m.flags[f]
    let put := fun (new : Word) => (((s.emit (.flagReply h.back false old)).modMesh h.dst fun u =>
      { u with flags := u.flags.set f new, waits := u.waits.filter fun w => !(decide (w.flag = f) && w.done new) }).emits
      ((m.waits.filter fun w => decide (w.flag = f) && w.done new).map fun w => .flagReply w.h.back false new))
    exec (.flagOperation h.dst h .set f v) s = .next (put v) ∧
    exec (.flagOperation h.dst h .add f v) s = .next (put (BitVec.ofNat 32 (old.toNat + v.toNat))) ∧
    (m.waits = [] →
      (v.toNat ≤ old.toNat → exec (.flagOperation h.dst h .waitGe f v) s =
        .next ((s.modMesh h.dst fun u => { u with waits := [] }).emit (.flagReply h.back false old))) ∧
      (old.toNat < v.toNat → exec (.flagOperation h.dst h .waitGe f v) s =
        .next (s.modMesh h.dst fun u => { u with waits := [⟨h, f, false, v⟩] })) ∧
      (old = v → exec (.flagOperation h.dst h .waitEq f v) s =
        .next ((s.modMesh h.dst fun u => { u with waits := [] }).emit (.flagReply h.back false old))) ∧
      (old ≠ v → exec (.flagOperation h.dst h .waitEq f v) s =
        .next (s.modMesh h.dst fun u => { u with waits := [⟨h, f, true, v⟩] }))))

/-- Where needle n may issue and the bytes lie in its own skein store: SLD, SST and SST ATOMIC ADD at s[RA] + OFF12*size, VLD, VST
and VST ATOMIC ADD at s[RA] + 64*OFF12, and FEED.LD and FEED.ST over s[RB] bytes each put one access per 64-byte granule on the
banks, with the register bytes of a store taken at issue, however many accesses are outstanding; a misaligned address faults with CAUSE 2 and a size other than 4 of
SST ATOMIC ADD with CAUSE 1. -/
def Obligations.OwnStoreAccesses : Prop :=
  ∀ (s : State) (n : Fin 96) (rt ra rb : Fin 32) (size : Fin 4) (signed fp32 masked : Bool) (off : BitVec 12),
    MayIssue s n 4 [rt, ra, rb] [rt] →
    let x := s.needles[n]
    let own := fun (a len : Nat) =>
      s.region a = .store (skeinOf n) ∧ a % 0x400000 + len ≤ 0x400000
    let bad := fun (c addr : Nat) => Host.Outcome.next (ρ := Refusal) (φ := Fault) (s.needleFault n c x.pc.toNat addr)
    let a := mAddr x ra off (2 ^ size.val)
    let bytes := fun (k : Nat) => (leBytes k (x.sr rt).toNat).map some
    let fmt := if fp32 = true then AtFmt.fp32 else AtFmt.int32
    let va := mAddr x ra off 64
    let lanes := fun (i : Nat) => ((maskedBytes x rt masked).drop i).take 64
    let fa := (x.sr ra).toNat
    let f := (x.sr rt).toNat
    let len := (x.sr rb).toNat
    (a % 2 ^ size.val = 0 → own a (2 ^ size.val) → exec (.sld n rt ra size signed off) s =
      ownAccesses s n a 1 (fun _ => .read (2 ^ size.val)) fun _ => .sreg rt size.val signed) ∧
    (a % 2 ^ size.val = 0 → own a (2 ^ size.val) → exec (.sst n rt ra size off) s =
      ownAccesses s n a 1 (fun _ => .write (bytes (2 ^ size.val))) fun _ => .none) ∧
    (size = 2 → a % 4 = 0 → own a 4 → exec (.sstAtomicAdd n rt ra size fp32 off) s =
      ownAccesses s n a 1 (fun _ => .atomic fmt (bytes 4)) fun _ => .none) ∧
    (size ≠ 2 → exec (.sstAtomicAdd n rt ra size fp32 off) s = bad 1 0) ∧
    (a % 2 ^ size.val ≠ 0 → exec (.sld n rt ra size signed off) s = bad 2 a ∧ exec (.sst n rt ra size off) s = bad 2 a) ∧
    (va % 64 = 0 → own va 256 → exec (.vld n rt ra off) s =
      ownAccesses s n va 4 (fun _ => .read 64) fun i => .vreg rt i) ∧
    (va % 64 = 0 → own va 256 →
      exec (.vst n rt ra masked off) s = ownAccesses s n va 4 (fun i => .write (lanes i)) (fun _ => .none) ∧
      exec (.vstAtomicAdd n rt ra masked fp32 off) s =
        ownAccesses s n va 4 (fun i => .atomic fmt (lanes i)) fun _ => .none) ∧
    (va % 64 ≠ 0 → exec (.vld n rt ra off) s = bad 2 va ∧ exec (.vst n rt ra masked off) s = bad 2 va) ∧
    (64 ≤ len → len ≤ 4096 → len % 64 = 0 → fa % 64 = 0 → feedOk f len = true → s.feedDue n f len = false →
      (own fa len → exec (.feedLd n rt ra rb) s =
        ownAccesses s n fa (len / 64) (fun _ => .read 64) fun i => .feed (f + i)) ∧
      (own fa len → exec (.feedSt n rt ra rb) s =
        ownAccesses s n fa (len / 64) (fun i => .write ((((memRead x.feed f len).map some).drop i).take 64)) fun _ => .none)) ∧
    (len < 64 ∨ 4096 < len ∨ len % 64 ≠ 0 ∨ fa % 64 ≠ 0 → exec (.feedLd n rt ra rb) s = bad 2 fa) ∧
    (64 ≤ len → len ≤ 4096 → len % 64 = 0 → fa % 64 = 0 → feedOk f len = false → exec (.feedSt n rt ra rb) s = bad 2 f)

/-- Where needle n may issue and no load owes the range: VPUT writes the 256 bytes of v[RA] at feed address s[RD], VGET reads
v[RD] from feed address s[RA], and an address out of range faults with CAUSE 2. FENCE.L with no store of the needle to its own
skein store outstanding, and FENCE.Y with no access outstanding, end at once (a drain of the needle holds both, log 39);
otherwise the needle waits. -/
def Obligations.FeedRegistersAndFences : Prop :=
  ∀ (s : State) (n : Fin 96) (rd ra : Fin 32), MayIssue s n 4 [rd, ra] [rd, ra] →
    let x := s.needles[n]
    let put := fun (g : Needle → Needle) => Host.Outcome.next (ρ := Refusal) (φ := Fault) (retired s n 4 g)
    let bad := fun (addr : Nat) => Host.Outcome.next (ρ := Refusal) (φ := Fault) (s.needleFault n 2 x.pc.toNat addr)
    let ok := fun (f : Nat) => f < 0x20000 ∧ f % 64 = 0 ∧ f % 0x10000 + 256 ≤ 0x10000
    let d := (x.sr rd).toNat
    let a := (x.sr ra).toNat
    (ok d → s.feedDue n d 256 = false →
      exec (.vput n rd ra) s = put fun y => { y with feed := memWrite y.feed d (vecBytes x.v[ra]) }) ∧
    (ok a → s.feedDue n a 256 = false → exec (.vget n rd ra) s = put fun y => { y with
      v := y.v.set rd (Vector.ofFn fun (i : Fin 64) => BitVec.ofNat 32 (leAt (memRead x.feed a 256) (4 * i.val) 4)) }) ∧
    (¬ ok d → exec (.vput n rd ra) s = bad d) ∧ (¬ ok a → exec (.vget n rd ra) s = bad a) ∧
    (s.ownStores n = false → x.bed.drains = [] → exec (.fenceL n) s = put id) ∧
    (s.ownStores n = true ∨ x.bed.drains ≠ [] → exec (.fenceL n) s = put fun y => { y with wait := .fenceL }) ∧
    (s.anyOf n = false → x.bed.drains = [] → exec (.fenceY n) s = put id) ∧
    (s.anyOf n = true ∨ x.bed.drains ≠ [] → exec (.fenceY n) s = put fun y => { y with wait := .fenceY })

/-- An aligned scalar access to another store of the swatch goes out as one packet. A packet at a router other than its
destination is passed on; at its destination a read, write or atomic add of at least one byte waits at the banks of its granules;
one that the router refuses is dropped with an error answer, counted in MESH_DROP_COUNT and recorded, with BAD_ACCESS set. Read
data and an acknowledgement for an access of a needle complete it: the data reach the register, an error faults it with CAUSE 4.
(No LOAD_CARD_PROGRAM waits at an edge carder there.) -/
def Obligations.StorePackets : Prop :=
  (∀ (s : State) (n : Fin 96) (rt ra : Fin 32) (size : Fin 4) (signed : Bool) (off : BitVec 12) (k : Fin 16) (i : Fin 8),
    MayIssue s n 4 [rt, ra] [] →
    let x := s.needles[n]
    let w := 2 ^ size.val
    let a := mAddr x ra off w
    let sent := fun (o : Out) (op : AccOp) (dest : Dest) => Host.Outcome.next (ρ := Refusal) (φ := Fault) { (retired s n 4 id) with
      out := s.out ++ [o], nextAccess := s.nextAccess + 1
      accesses := s.accesses ++ [⟨s.nextAccess, .needle n, .mesh k, .needle, a, op, dest, none, x.pc.toNat, true, false⟩] }
    a % w = 0 → s.region a = .store k → k ≠ skeinOf n → s.swatchOf (skeinOf n) = some i → (s.swatches[i]).covers k = true →
    (s.slotsUsed n true < 64 → exec (.sld n rt ra size signed off) s =
      sent (.storeRead (s.pkt n k) (BitVec.ofNat 22 a) w) (.read w) (.sreg rt size.val signed)) ∧
    (s.slotsUsed n false < 64 → exec (.sst n rt ra size off) s =
      sent (.storeWrite (s.pkt n k) (BitVec.ofNat 22 a) (regBytes x rt size.val)) (.write (regBytes x rt size.val)) .none)) ∧
  (∀ (s : State) (r : Fin 16) (h : PktHead) (o : BitVec 22) (len : Fin 257) (b : List (Option Byte)) (fp32 : Bool),
    ((s.skeins[r]).mesh).refuses h [h.dst] false = none →
    let wait := fun (n : Nat) (op : AccOp) => Host.Outcome.next (ρ := Refusal) (φ := Fault) (s.modMesh r fun m =>
      { m with serving := m.serving ++ [⟨h, o.toNat, op, (cuts 64 o.toNat n n).map fun c => c.1 / 64 * 64, []⟩] })
    (r ≠ h.dst → exec (.storeRead r h o len) s = .next (s.emit (.storeRead h o len.val)) ∧
      exec (.storeWrite r h o b) s = .next (s.emit (.storeWrite h o b)) ∧
      exec (.atomicAddAtStore r h o fp32 b) s = .next (s.emit (.atomicAdd h o fp32 b))) ∧
    (r = h.dst → 0 < len.val → exec (.storeRead r h o len) s = wait len.val (.read len.val)) ∧
    (r = h.dst → 0 < b.length → b.length ≤ 256 → exec (.storeWrite r h o b) s = wait b.length (.write b) ∧
      exec (.atomicAddAtStore r h o fp32 b) s = wait b.length (.atomic (if fp32 = true then .fp32 else .int32) b))) ∧
  (∀ (s : State) (r : Fin 16) (h : PktHead) (o : BitVec 22) (len : Fin 257) (b : List (Option Byte)) (bit : Nat),
    ((s.skeins[r]).mesh).refuses h [h.dst] false = some bit →
    let drop := fun (kind : Nat) => (s.modMesh r fun m => { m with
      events := setBit m.events bit, dropCount := satAdd m.dropCount 1
      dropLast := mkW [(0, 4, h.src.val), (4, 4, h.dst.val), (8, 2, 0), (10, 4, kind)] }).swStatus h.swatch 5
    exec (.storeRead r h o len) s = .next ((drop 0).emit (.meshData h.back true [])) ∧
    exec (.storeWrite r h o b) s = .next ((drop 1).emit (.meshAck h.back true))) ∧
  (∀ (s : State) (h : PktHead) (k : Fin 6) (a : Access) (dst : Fin 16) (data : List Byte) (rd : Fin 32) (size : Nat) (sg : Bool),
    let n := needleOf h.dst k
    ((s.skeins[h.dst]).mesh).refuses h [h.dst] false = none → h.issuer = .needle k → a.id = h.id → a.path = .mesh dst →
    a.who = .needle n → a.live = true → (s.accesses.find? fun c => decide (c.id = h.id)) = some a → (s.needles[n]).wait = .none →
    (∀ p : Fin 10, (s.edgeCarders[p]).loads = []) →
    let left := { s with accesses := s.accesses.filter fun c => decide (c.id ≠ h.id) }
    (a.dest = .sreg rd size sg → exec (.readData h.dst h false data) s =
      .next (left.modNeedle n fun x => if rd = 0 then x else { x with s := x.s.set rd (loadVal size sg data) })) ∧
    (a.dest = .none → exec (.writeAcknowledgement h.dst h false) s = .next left) ∧
    (a.dest = .none → exec (.writeAcknowledgement h.dst h true) s = .next (left.needleFault n 4 a.pc a.addr)) ∧
    (a.dest = .sreg rd size sg → exec (.readData h.dst h true data) s = .next (left.needleFault n 4 a.pc a.addr)))

/-- At a powered skein where only a needle's access waits at the bank, BANK_GRANT serves it: a read of good bytes delivers
them to its register and leaves memory alone, a write stores its unmasked bytes from its address and nothing else, and either
way the access is gone. With nothing waiting the grant changes nothing. Where several groups wait, a group in turn with nothing
waiting gives way to the next. (No LOAD_CARD_PROGRAM waits at an edge carder there.) -/
def Obligations.BankGrantServesAccess : Prop :=
  ∀ (s : State) (k bank : Fin 16),
    let others := s.bankAccess .drain (fun _ => true) k bank = none ∧ s.bankMover k bank = none ∧
      ∀ v ∈ ((s.skeins[k]).mesh).serving, v.wants bank = none
    (others → s.bankNeedle k bank = none → exec (.bankGrant k bank) s = .next s) ∧
    (s.powered k = false → exec (.bankGrant k bank) s = .next s) ∧
    (∀ (n : Fin 96) (a : Access), s.powered k = true → s.bankNeedle k bank = some a → others → a.who = .needle n →
      a.live = true → (s.needles[n]).wait = .none → (∀ p : Fin 10, (s.edgeCarders[p]).loads = []) →
      (∀ len rd size sg, a.op = .read len → a.dest = .sreg rd size sg → s.anyBad a.addr len = false →
        ∃ t, exec (.bankGrant k bank) s = .next t ∧ t.mem = s.mem ∧
          t.accesses = (s.accesses.filter fun c => decide (c.id ≠ a.id)) ∧
          t.needles = s.needles.set n (if rd = 0 then s.needles[n] else
            { s.needles[n] with s := (s.needles[n]).s.set rd (loadVal size sg (memRead s.mem a.addr len)) })) ∧
      (∀ b, a.op = .write b → a.dest = .none →
        ∃ t, exec (.bankGrant k bank) s = .next t ∧ t.needles = s.needles ∧
          t.accesses = (s.accesses.filter fun c => decide (c.id ≠ a.id)) ∧
          ∀ i : Nat, memGet t.mem i = if a.addr ≤ i ∧ i < a.addr + b.length then
            (((s.landing a.addr b)[i - a.addr]?).getD none).getD (memGet s.mem i) else memGet s.mem i)) ∧
    (∀ (b : Bank) (w : Fin 4 → Bool), (∃ g, w g = true) → ∃ g b', b.pick w 5 = some (g, b') ∧ w g = true ∧
      (w b.turn = true → g = b.turn) ∧ (w b.turn = false → b'.deficit[b.turn] = 0))

/-- Where needle n may issue: MOVE.ENQ appends the 64 bytes of lanes 0 to 15 of v[RA] with the draft state of that moment to
mover s[RB][0] of its skein, or stalls at 16 descriptors; MOVE.STATUS writes NDL_MOVER status to s[RD]; MOVE.WAIT goes on when
the queue is empty or the mover has faulted and waits otherwise. A bad head descriptor faults with CAUSE 1 and stays. For a good one of
one uncarded row that lies in one granule of the own store, MOVER_DESCRIPTOR_DONE asks the bank for the source; with the source staged
it sends the destination's bytes to their bank; with every byte written it takes the descriptor off the queue and makes its signal's
flag ADD. A bank that serves a mover's read of good bytes stages them at their offset, and one that serves its write stores exactly its
bytes, in a Held swatch without more. -/
def Obligations.MoverQueueAndCopy : Prop :=
  (∀ (s : State) (n : Fin 96) (rd ra rb : Fin 32), MayIssue s n 4 [rd, rb] [ra] →
    let x := s.needles[n]
    let k := skeinOf n
    let m : Fin 2 := Fin.ofNat 2 (x.sr rb).toNat
    let q := s.moverOf k m
    let d : MoveDesc := ⟨toVec 64 ((vecBytes x.v[ra]).take 64), kOf n, x.draft, none, none, 0, 0⟩
    (16 ≤ q.queue.length → exec (.moveEnq n ra rb) s = .next s) ∧
    (q.queue ≠ [] → q.queue.length < 16 → exec (.moveEnq n ra rb) s =
      .next ((retired s n 4 id).modMover k m fun y => { y with queue := y.queue ++ [d] })) ∧
    (q.queue = [] → ∃ t, exec (.moveEnq n ra rb) s = .next t ∧ (t.needles[n]).pc = x.pc + 4 ∧ (t.moverOf k m).lastK = kOf n ∧
      ∃ e, (t.moverOf k m).queue = [e] ∧ e.bytes = d.bytes ∧ e.k = d.k ∧ e.draft = d.draft) ∧
    exec (.moveStatus n rd rb) s = writesS s n rd (q.statusWord.setWidth 64) ∧
    (q.queue = [] ∨ q.fault.isSome = true → exec (.moveWait n rb) s = .next (retired s n 4 id)) ∧
    (q.queue ≠ [] → q.fault = none →
      exec (.moveWait n rb) s = .next (retired s n 4 fun y => { y with wait := .mover m }))) ∧
  (∀ (s : State) (k : Fin 16) (m : Fin 2) (i : Fin 8) (d : MoveDesc) (l : List MoveDesc) (p : Fin 16),
    (s.moverOf k m).fault = none → (s.moverOf k m).queue = d :: l → s.moverRuns k = true → s.swatchOf k = some i →
    s.moverBusy k m = false →
    let done := exec (.moverDescriptorDone k m) s
    let sent := fun (f : MoveDesc → MoveDesc) (a : Access) => Host.Outcome.next (ρ := Refusal) (φ := Fault)
      { (s.modMover k m fun x => { x with queue := f d :: l }) with
        nextAccess := s.nextAccess + 1, accesses := s.accesses ++ [a] }
    let piece := fun (op : AccOp) (dest : Dest) (a : Nat) =>
      (⟨s.nextAccess, .mover k m, .bank k (bankOf a), .mover, a, op, dest, none, 0, true, false⟩ : Access)
    let src := d.u 0 8
    let dst := d.u 8 8
    (d.staged = none → d.ok = false → ∃ t, done = .next t ∧ (t.moverOf k m).fault = some 1 ∧
      (t.moverOf k m).queue = d :: l ∧ t.mem = s.mem) ∧
    (d.staged = none → d.readTo = 0 → d.ok = true → d.card = 0xFF → d.rows = 1 → d.srcFeed = false → s.region src = .store k →
      (s.swatches[i]).covers k = true → src % 64 + d.rowBytes ≤ 64 →
      done = sent (fun x => { x with staged := some [], readTo := d.rowBytes }) (piece (.read d.rowBytes) (.stage 0) src)) ∧
    (d.staged.isSome = true → d.readTo = d.rowBytes → d.ok = true → d.card = 0xFF → d.carded = none → d.rows = 1 →
      d.dstFeed = false → d.writeTo = 0 → s.region dst = .store k → (s.swatches[i]).covers k = true → dst % 64 + d.rowBytes ≤ 64 →
      done = sent (fun x => { x with writeTo := d.rowBytes }) (piece (.write (d.data.map some)) .none dst)) ∧
    (d.staged.isSome = true → d.readTo = d.rows * d.rowBytes → d.card = 0xFF → d.writeTo = d.data.length → d.dstFeed = false → l = [] →
      ∃ t, done = .next t ∧ (t.moverOf k m).queue = [] ∧ (t.moverOf k m).fault = none ∧ t.mem = s.mem ∧
        t.out = s.out ++ (if d.signal = true then
          [.flagOp ⟨k, (s.swatches[i]).home, i, .mover m, s.nextAccess⟩ .add (Fin.ofNat 64 (d.u 42 1)) (BitVec.ofNat 32 (d.u 44 4))]
        else []))) ∧
  (∀ (s : State) (k bank : Fin 16) (m : Fin 2) (i : Fin 8) (d : MoveDesc) (a : Access) (o len : Nat),
    s.powered k = true → s.bankMover k bank = some a → s.bankAccess .drain (fun _ => true) k bank = none →
    s.bankNeedle k bank = none → (∀ v ∈ ((s.skeins[k]).mesh).serving, v.wants bank = none) → a.who = .mover k m → a.live = true →
    (∀ p : Fin 10, (s.edgeCarders[p]).loads = []) → (s.moverOf k m).queue = [d] → s.swatchOf k = some i →
    (s.swatches[i]).st = .held → s.tripped = false →
    (a.op = .read len → a.dest = .stage o → s.anyBad a.addr len = false →
      ∃ t, exec (.bankGrant k bank) s = .next t ∧ t.mem = s.mem ∧
        (t.moverOf k m).queue = [d.stage o (memRead s.mem a.addr len)] ∧
        t.accesses = s.accesses.filter fun c => decide (c.id ≠ a.id)) ∧
    (∀ b, a.op = .write b → a.dest = .none →
      ∃ t, exec (.bankGrant k bank) s = .next t ∧ (t.moverOf k m).queue = [d] ∧
        t.accesses = (s.accesses.filter fun c => decide (c.id ≠ a.id)) ∧
        ∀ j : Nat, memGet t.mem j = if a.addr ≤ j ∧ j < a.addr + b.length then
          (((s.landing a.addr b)[j - a.addr]?).getD none).getD (memGet s.mem j) else memGet s.mem j))

/-- Where needle n may issue and the offset is a 64-byte multiple within a store: MESH.MCAST sends v[RA] to the targets s[RB]
names and MESH.TREE sends it as its contribution to the next instance of its reduce id, each with one acknowledgement owed; an
offset out of range faults with CAUSE 2 and format 3 with CAUSE 1. At an accepting router a multicast is copied on by route and,
at a target, waits at the banks; a contribution that does not complete its instance is kept; one that completes it at D writes
the folded sum at the offset and changes no other byte. -/
def Obligations.MulticastAndTree : Prop :=
  (∀ (s : State) (n : Fin 96) (rd ra rb : Fin 32), MayIssue s n 4 [rd, rb] [ra] →
    let x := s.needles[n]
    let k := skeinOf n
    let off := (x.sr rd).toNat
    let w := x.sr rb
    let bad := fun (c addr : Nat) => Host.Outcome.next (ρ := Refusal) (φ := Fault) (s.needleFault n c x.pc.toNat addr)
    let owed := fun (dst : Fin 16) (dest : Dest) => ({ (retired s n 4 id) with
      nextAccess := s.nextAccess + 1
      accesses := s.accesses ++ [⟨s.nextAccess, .needle n, .mesh dst, .needle, off, .write (List.replicate 256 none), dest, none,
        x.pc.toNat, true, false⟩] } : State)
    (off % 64 ≠ 0 ∨ 0x400000 < off + 256 → exec (.meshMcast n rd ra rb) s = bad 2 off ∧
      (fld w 9 8 ≠ 3 → exec (.meshTree n rd ra rb) s = bad 2 off)) ∧
    (fld w 9 8 = 3 → exec (.meshTree n rd ra rb) s = bad 1 0) ∧
    (off % 64 = 0 → off + 256 ≤ 0x400000 → s.slotsUsed n false ≤ 60 →
      (∀ l, mcastTargets w = some l → exec (.meshMcast n rd ra rb) s =
        .next ((owed k .none).emit (.mcast k (s.pkt n k) (skeinMask l) (BitVec.ofNat 22 off) (vecBytes x.v[ra])))) ∧
      (∀ i : Fin 8, s.swatchOf k = some i → fld w 9 8 ≠ 3 → fld w 7 4 < (s.swatches[i]).size →
        let red : Fin 16 := Fin.ofNat 16 (fld w 3 0)
        let inst := ((((s.skeins[k]).mesh).nextInst[kOf n])[red])
        let dst := (s.swatches[i]).atRel (fld w 7 4)
        exec (.meshTree n rd ra rb) s = .next (((owed dst (.tree red inst)).modMesh k fun u =>
          { u with nextInst := upd u.nextInst (kOf n) fun v => upd v red fun c => c + 1 }).emit
          (.tree k (s.pkt n dst) ⟨red, inst, Fin.ofNat 3 (fld w 9 8), BitVec.ofNat 16 (fld w 31 16), BitVec.ofNat 22 off,
            .here (kOf n), 0, false⟩ (vecBytes x.v[ra])))))) ∧
  (∀ (s : State) (r : Fin 16) (h : PktHead) (targets : BitVec 16) (o : BitVec 22) (d : List Byte),
    ((s.skeins[r]).mesh).refuses h (maskSkeins targets) true = none → 0 < d.length → d.length ≤ 256 → targets ≠ 0 →
    let s1 := if r = h.src then s.modMesh r fun m => { m with mcasts := m.mcasts ++ [(h, targets)] } else s
    let s2 := s1.emits (mcastOn r h (maskSkeins targets) o d)
    exec (.multicastWrite r h targets o d) s = .next (if targets.getLsbD r.val = true then s2.modMesh r fun m =>
      { m with serving := m.serving ++ [⟨h, o.toNat, .write (d.map some), (cuts 64 o.toNat d.length d.length).map fun c => c.1 / 64 * 64, []⟩] }
      else s2)) ∧
  (∀ (s : State) (r : Fin 16) (h : PktHead) (t : TreeHead) (f : TreeFmt) (d : List Byte),
    ((s.skeins[r]).mesh).refuses h [h.dst] false = none → treeFmt t.fmt.val = some f →
    (∀ p ∈ ((s.skeins[r]).mesh).parts, ¬(p.reduce = t.reduce ∧ p.inst = t.inst)) →
    let side := inDir t.dir
    let most := if f = .fp32 ∧ side.1 ≠ .here then 512 else 256
    let p : TreePart := ⟨t.reduce, t.inst, f, t.members, h.dst, t.offset, [⟨side.1, side.2, d.take most, t.shift.val, t.sat⟩]⟩
    (p.whole r = none → exec (.fixedTreeContribution r h t d) s =
      .next (s.modMesh r fun m => { m with parts := m.parts ++ [p] })) ∧
    (∀ l, p.whole r = some l → s.poison = [] →
      ∃ u, exec (.fixedTreeContribution r h t d) s = .next u ∧ ((u.skeins[r]).mesh).parts = ((s.skeins[r]).mesh).parts ∧
        let v := treeSumIn f l
        let a0 := 0x400000 * r.val + t.offset.toNat
        (r = h.dst →
          (∀ a : Nat, memGet u.mem a = if a0 ≤ a ∧ a < a0 + (v.result f).length then (v.result f).getD (a - a0) 0 else memGet s.mem a) ∧
          u.out = s.out ++ s.treeAcks h t.reduce t.inst t.members) ∧
        (r ≠ h.dst → u.mem = s.mem ∧
          u.out = s.out ++ [.tree (stepTo r (leaves r h.dst)) h
            { t with dir := farSide (leaves r h.dst), shift := Fin.ofNat 9 v.shift, sat := v.sat } (v.onward f)])))

/-- Where needle n may issue and is the channel's source with a slot on its wheel: SEND with four credits, no other channel of the swatch
having an entry that may go, sends v[RA] as four entries and goes on; without credits it queues them and waits; on a channel not its own it faults with CAUSE 10. RECV with four
entries in the FIFO takes them into v[RD] and returns four credits, and waits on an empty FIFO. An arrival joins the FIFO, or,
of a ply transfer at a wrong position, is dropped with STCH_EVENTS bit 0; a credit return adds one credit up to four; LAND arms
or disarms a window; a starved twin channel sets STCH_EVENTS bit 1. -/
def Obligations.StitchChannels : Prop :=
  (∀ (s : State) (n : Fin 96) (rd ra rb : Fin 32) (i : Fin 8) (ch : Chan), MayIssue s n 4 [rb] [rd, ra] →
    let x := s.needles[n]
    let c : Byte := (x.sr rb).setWidth 8
    let f := s.chan i c
    (s.ownChan n c true = none → exec (.stchSend n ra rb) s = .next (s.needleFault n 10 x.pc.toNat 0)) ∧
    (s.ownChan n c false = none → exec (.stchRecv n rd rb) s = .next (s.needleFault n 10 x.pc.toNat 0)) ∧
    (s.ownChan n c true = some (i, ch) → (∀ c', c' ≠ c → s.sendable i c' = false) →
      s.chanOpen i c ch = true → ch.link ≠ 5 → f.outq = [] → f.credits = 4 →
      ∃ t, exec (.stchSend n ra rb) s = .next t ∧ t.needles = (retired s n 4 id).needles ∧ t.mem = s.mem ∧
        t.chan i c = { f with credits := 0 } ∧
        t.out = s.out ++ (entriesOf (vecBytes x.v[ra])).map fun e => .stitch i c ch.position e.2) ∧
    (s.ownChan n c true = some (i, ch) → (∀ c', c' ≠ c → s.sendable i c' = false) → f.outq = [] → f.credits = 0 →
      ∃ t, exec (.stchSend n ra rb) s = .next t ∧ t.out = s.out ∧
        t.needles = (retired s n 4 fun y => { y with wait := .send c }).needles ∧
        t.chan i c = { f with outq := entriesOf (vecBytes x.v[ra]) }) ∧
    (∀ e0 e1 e2 e3, s.ownChan n c false = some (i, ch) → f.fifo = [e0, e1, e2, e3] → ch.link ≠ 5 →
      ∃ t, exec (.stchRecv n rd rb) s = .next t ∧ t.chan i c = { f with fifo := [] } ∧
        t.needles = (retired s n 4 fun y => { y with
          v := y.v.set rd (vecOf (e0.toList ++ e1.toList ++ e2.toList ++ e3.toList)) }).needles ∧
        t.out = s.out ++ List.replicate 4 (.stitchCredit i c)) ∧
    (s.ownChan n c false = some (i, ch) → f.fifo = [] →
      exec (.stchRecv n rd rb) s = .next (retired s n 4 fun y => { y with wait := .recv c rd [] }))) ∧
  (∀ (s : State) (i : Fin 8) (c : Byte) (ch : Chan) (pos : BitVec 12) (e : Vector Byte 64), s.chanRec i c = some ch →
    let f := s.chan i c
    let n := ch.sink s.swatches[i]
    let ev := fun (k : Fin 16) (b : Nat) => s.modSkein k fun y => { y with stch := { y.stch with events := setBit y.stch.events b } }
    (ch.ply = true → pos ≠ ch.position → exec (.stitchEntryArrival i c pos e) s = .next (ev (skeinOf n) 0)) ∧
    (ch.link ≠ 5 → (ch.ply = true → pos = ch.position) → f.fifo.length < 4 → f.land = none → (s.needles[n]).wait = .none →
      exec (.stitchEntryArrival i c pos e) s = .next (s.putChan { f with fifo := f.fifo ++ [e] })) ∧
    (f.outq = [] → (∀ c', s.sendable i c' = false) → (s.needles[ch.source s.swatches[i]]).wait = .none →
      exec (.stitchCreditReturn i c) s = .next (s.putChan { f with credits := min 4 (f.credits + 1) })) ∧
    (ch.link = 5 → f.credits = 0 → exec (.twinUnmatchedTimeout i c) s = .next (ev (skeinOf (ch.source s.swatches[i])) 1)) ∧
    (ch.link ≠ 5 ∨ f.credits ≠ 0 → exec (.twinUnmatchedTimeout i c) s = .next s)) ∧
  (∀ (s : State) (n : Fin 96) (ra rb rs : Fin 32) (i : Fin 8) (ch : Chan), MayIssue s n 8 [ra, rb, rs] [] →
    let x := s.needles[n]
    let c : Byte := (x.sr rb).setWidth 8
    let base := (x.sr ra).toNat
    let size := (x.sr rs).toNat
    let f := s.chan i c
    (s.ownChan n c false = none → exec (.land n ra rb rs) s = .next (s.needleFault n 10 x.pc.toNat 0)) ∧
    (s.ownChan n c false = some (i, ch) → ch.ply = true → exec (.land n ra rb rs) s = .next (s.needleFault n 10 x.pc.toNat 0)) ∧
    (s.ownChan n c false = some (i, ch) → ch.ply = false →
      (size = 0 → exec (.land n ra rb rs) s = .next ((retired s n 8 id).putChan { f with land := none })) ∧
      (0 < size → size % 64 = 0 → size ≤ 65536 → feedOk base size = true → f.fifo = [] →
        exec (.land n ra rb rs) s = .next ((retired s n 8 id).putChan { f with land := some ⟨base, size, 0⟩ })) ∧
      (0 < size → size % 64 ≠ 0 ∨ 65536 < size ∨ feedOk base size = false →
        exec (.land n ra rb rs) s = .next (s.needleFault n 2 x.pc.toNat base))))

/-- Where needle n may issue: a CAST that breaks no rule of R302 to R306 opens the tile its fields name, with the elements of a
zero cast-on at once and, of the other three modes, reads of its own store that deliver to the tile and sum to the bytes due; one
that breaks a rule faults with its cause. An MMA into an open tile with its operands in the feed buffers and the bed idle runs at
once: the tile is the old one with A*B accumulated, and nothing else of the needle but its record changes. -/
def Obligations.CastOnAndMma : Prop :=
  (∀ (s : State) (n : Fin 96) (o : CastOps) (mode : Fin 4), MayIssue s n 8 [o.ra, o.rb, o.rs] [] →
    let x := s.needles[n]
    let ex := match mode.val with
      | 0 => exec (.castZero n o) s
      | 1 => exec (.castBias n o) s
      | 2 => exec (.castResid n o) s
      | _ => exec (.castTotal n o) s
    let int : Bool := decide (o.lfmt = 0)
    let rs := (x.sr o.rs).toNat
    let c : CastRec := ⟨mode, (x.sr o.ra).toNat, (x.sr o.rb).toNat, if int = true then rs else 0⟩
    let due := ((c.ranges o.shape).map Prod.snd).sum
    let terms := if int = true then 0 else rs
    let tile : Tile := ⟨o.unit, o.shape, Fin.ofNat 3 o.lfmt.val, (chunkOf int o.log2Chunk.val).getD 0, o.rfs,
      if due = 0 then castElems o.shape (Fin.ofNat 3 o.lfmt.val) mode 0 [] else [], due, [], 0, terms, 0, false, false, !int, c, []⟩
    (∀ cause a, castFault x.bed o mode c = some (cause, a) → ex = .next (s.needleFault n cause x.pc.toNat a)) ∧
    (castFault x.bed o mode c = none → terms ≤ 2 ^ 21 → ∃ t, ex = .next t ∧ t.mem = s.mem ∧
      t.needles = (retired s n 8 fun y => { y with bed := { y.bed with tiles := y.bed.tiles ++ [tile] } }).needles ∧
      t.accesses.take s.accesses.length = s.accesses ∧
      (∀ a ∈ t.accesses.drop s.accesses.length, a.who = .needle n ∧ ∃ off, a.dest = .castOn o.unit off) ∧
      ((t.accesses.drop s.accesses.length).map fun a => match a.op with
        | .read k => k
        | _ => 0).sum = due)) ∧
  (∀ (s : State) (n : Fin 96) (o : MmaOps) (tl : Tile), MayIssue s n 8 [o.ra, o.rb, o.rs] [] →
    let x := s.needles[n]
    let m : MmaRec := ⟨(x.sr o.ra).toNat, (x.sr o.rb).toNat, (x.sr o.rs).toNat, o.afmt, o.bfmt, o.scale, o.kq.val,
      sumN (tl.mmas.map fun m => m.copyLen tl.shape)⟩
    let more := fun (y : Tile) => { y with
      mmas := if y.isInt = true then y.mmas ++ [m] else [], ksum := y.ksum + m.k, terms := if y.isInt = true then 0 else (y.terms + m.k) % 2 ^ 64 }
    let ops : MmaBytes := ⟨memRead x.feed m.a (m.lenA tl.shape), memRead x.feed m.b (m.lenB tl.shape), memRead x.feed m.sc (m.lenSc tl.shape)⟩
    x.bed.tile o.unit = some tl → tl.rfs = false → o.fwdA = false → o.fwdB = false →
    (mmaIllegal tl m = true → exec (.mma n o) s = .next (s.needleFault n 1 x.pc.toNat 0)) ∧
    (mmaIllegal tl m = false → (∀ r ∈ m.reads tl.shape, feedOk r.1 r.2 = true) → tl.due = 0 →
      (∀ r ∈ m.reads tl.shape, s.feedDue n r.1 r.2 = false ∧ s.landDue n r.1 r.2 = false) →
      x.bed.running = none → x.bed.queue = [] → (tl.isInt = false → tl.terms + m.k ≤ 2 ^ 21) →
      exec (.mma n o) s = .next (retired s n 8 fun y => { y with
        bed := { y.bed with
          tiles := y.bed.tiles.map fun t => if t.unit = o.unit then (more t).accum m ops else t, running := some o.unit } })))

/-- For an INT32 tile at shift 0 and operand bytes o, where every partial sum of 16 products fits in 32 bits, element i of A*B
accumulated is the old element plus the sum over K of the integer products of its row and column, and its sticky bit is the old
one. -/
def Obligations.IntegerAccumulationIsExact : Prop :=
  ∀ (t : Tile) (m : MmaRec) (o : MmaBytes) (i : Nat), t.lfmt = 0 → t.shift = 0 → i < t.rows * t.cols →
    let old := t.elems.getD i 0
    let sum := fun (k : Nat) => ((List.range k).map fun j => mmaInt m o t.rows t.cols (i / t.cols) (i % t.cols) j).sum
    (∀ g, g ≤ m.kq → -2 ^ 31 ≤ loopInt old + sum (16 * g) ∧ loopInt old + sum (16 * g) < 2 ^ 31) →
    (t.accum m o).elems.length = t.rows * t.cols ∧
    loopInt ((t.accum m o).elems.getD i 0) = loopInt old + sum m.k ∧
    loopSticky ((t.accum m o).elems.getD i 0) = loopSticky old

/-- With the bed working, no pair waiting and the copies of the running pair written: the queue's start frees the bed, or hands it to
the oldest replay, which repeats its tile's record, or else to the oldest queued MMA with its operands as they stand; a test of a closed
INT32 tile with all its MMAs in the loops confirms it when no element has its sticky bit, repeats its record at the next shift below 8
(at once when the bed is free, else behind what runs), and at shift 8 confirms it saturated and sets SWT_STATUS.SAT_EXHAUSTED. A tile
that is confirmed, open or FP is left as it is. -/
def Obligations.BedQueueAndConfirmation : Prop :=
  ∀ (s : State) (n : Fin 96) (unit : Fin 16), s.bedRuns n = true → (s.needles[n]).wait = .none → s.bedMayEnd n = true →
    let bed := (s.needles[n]).bed
    (bed.replays = [] → bed.queue = [] → exec (.mmaQueueStart n) s = .next (s.modBed n fun b => { b with running := none })) ∧
    (∀ u rest tl, bed.replays = u :: rest → bed.tile u = some tl →
      exec (.mmaQueueStart n) s = .next (s.modBed n fun b => { b with
        running := some u, replays := rest, tiles := b.tiles.map fun t => if t.unit = u then s.rerun n tl else t })) ∧
    (∀ u m c rest tl, bed.replays = [] → bed.queue = (u, m, false, false, c) :: rest → bed.tile u = some tl → tl.rfs = false →
      exec (.mmaQueueStart n) s = .next (s.modBed n fun b => { b with
        running := some u, queue := rest
        tiles := b.tiles.map fun t => if t.unit = u then t.accum m (s.mmaBytes n tl m false) else t })) ∧
    (let s0 : State := if bed.running = some unit then s.modBed n fun b => { b with running := none } else s
    let put := fun (f : Tile → Tile) => s0.modBed n fun b => b.modTile unit f
    ∀ tl, bed.tile unit = some tl →
      (tl.isInt = false ∨ tl.closed = false ∨ tl.confirmed = true → exec (.confirmationTest n unit) s = .next s0) ∧
      (tl.isInt = true → tl.closed = true → tl.confirmed = false → tl.due = 0 → ((s0.needles[n]).bed).settled unit = true →
        ((∀ w ∈ tl.elems, loopSticky w = false) →
          exec (.confirmationTest n unit) s = .next (put fun t => { t with confirmed := true, satEx := false })) ∧
        ((∃ w ∈ tl.elems, loopSticky w = true) → tl.shift < 8 →
          (bed.running = none ∨ bed.running = some unit → exec (.confirmationTest n unit) s = .next (s0.modBed n fun b =>
            { b.modTile unit (fun _ => s.rerun n { tl with shift := tl.shift + 1, elems := [] }) with running := some unit })) ∧
          (bed.running ≠ none → bed.running ≠ some unit → exec (.confirmationTest n unit) s = .next (s0.modBed n fun b =>
            { b.modTile unit (fun t => { t with shift := t.shift + 1, elems := [] }) with replays := b.replays ++ [unit] }))) ∧
        ((∃ w ∈ tl.elems, loopSticky w = true) → 8 ≤ tl.shift →
          exec (.confirmationTest n unit) s = .next ((put fun t => { t with confirmed := true, satEx := true }).satNote n))))

/-- Where needle n may issue and the tile is open, complete, settled and confirmed: BIND with DRAIN or PROMOTE that breaks no rule
frees the tile's units, keeps the tile in the spare copy and puts its job on the carder's list; one that breaks a rule faults.
BIND with DROP removes the tile, its queued MMAs and replays and the destinations of its cast-on reads. A carded drain ends, and its
spare copy is free, once no write of it is outstanding, and not before; a bank whose turn the DRAIN group has serves the drain's oldest
write. -/
def Obligations.BindAndDrain : Prop :=
  (∀ (s : State) (n : Fin 96) (o : BindOps) (promote : Bool) (tl : Tile), MayIssue s n 8 [o.ra, o.rb, o.rs] [] →
    let x := s.needles[n]
    let k := skeinOf n
    let ex := if promote = true then exec (.bindPromote n o) s else exec (.bindDrain n o) s
    let r : BindRec := ⟨promote, o.fuse, o.side, (x.sr o.ra).toNat, (x.sr o.rb).toNat, (x.sr o.rs).toNat, o.carder, o.slot, x.ignoreNan⟩
    let slots := ((s.skeins[k]).carders[o.carder]).slots
    x.bed.tile o.unit = some tl →
    (∀ c a, bindFault slots r tl = some (c, a) → ex = .next (s.needleFault n c x.pc.toNat a)) ∧
    (bindFault slots r tl = none → tl.due = 0 → tl.confirmed = true → x.bed.settled o.unit = true → x.bed.spareBusy tl = false →
      ex = .next ((retired s n 8 fun y => { y with
        bed := { y.bed with
          tiles := y.bed.tiles.filter (fun t => decide (t.unit ≠ o.unit))
          drains := y.bed.drains ++ [⟨{ tl with closed := tl.closed || tl.isInt }, r, false⟩] } }).addJob k o.carder (.drain n o.unit)))) ∧
  (∀ (s : State) (n : Fin 96) (unit : Fin 16), MayIssue s n 8 [] [] →
    let x := s.needles[n]
    (x.bed.tile unit = none → exec (.bindDrop n unit) s = .next (s.needleFault n 1 x.pc.toNat 0)) ∧
    (x.bed.tile unit ≠ none → exec (.bindDrop n unit) s = .next { (retired s n 8 fun y => { y with
      bed := { y.bed with
        tiles := y.bed.tiles.filter (fun t => decide (t.unit ≠ unit)), queue := y.bed.queue.filter (fun q => decide (q.1 ≠ unit))
        replays := y.bed.replays.filter fun u => decide (u ≠ unit) } }) with
      accesses := s.accesses.map fun a => a.dropCast n unit })) ∧
  (∀ (s : State) (n : Fin 96) (unit : Fin 16) (d : Drain), s.powered (skeinOf n) = true → s.tripped = false →
    (s.needles[n]).wait = .none → ((s.needles[n]).bed.drains.find? fun y => decide (y.tile.unit = unit) && y.carded) = some d →
    (s.drainDue n unit = true → exec (.drainDone n unit) s = .next s) ∧
    (s.drainDue n unit = false → exec (.drainDone n unit) s =
      .next (s.modBed n fun b => { b with drains := b.drains.filter fun y => !(decide (y.tile.unit = unit) && y.carded) }))) ∧
  (∀ (s : State) (k bank unit : Fin 16) (n : Fin 96) (a : Access) (b : List (Option Byte)),
    s.powered k = true → s.bankAccess .drain (fun _ => true) k bank = some a → ((s.skeins[k]).banks[bank]).turn = 0 →
    a.who = .needle n → a.live = true → a.dest = .drain unit → a.op = .write b → (s.needles[n]).wait = .none →
    (∀ p : Fin 10, (s.edgeCarders[p]).loads = []) →
    ∃ t, exec (.bankGrant k bank) s = .next t ∧ t.needles = s.needles ∧
      t.accesses = (s.accesses.filter fun c => decide (c.id ≠ a.id)) ∧
      ∀ i : Nat, memGet t.mem i = if a.addr ≤ i ∧ i < a.addr + b.length then
        (((s.landing a.addr b)[i - a.addr]?).getD none).getD (memGet s.mem i) else memGet s.mem i)

/-- Where needle n may issue and its open tile is complete, settled and confirmed: LCONF goes on, LGET writes the 64 elements from
the index into v[RA] (and the lo words into the next register for a pair), LSHIFT writes the shift byte, LSCALE scales the rows of
an FP tile and faults on INT32; PLY.SEND sends the tile's entries as far as credits go where no other
channel of the swatch has an entry that may go, PLY.ADD begins to receive, and the last
entry's arrival adds the received tile. A name of no open tile faults with CAUSE 1, a channel that is not its own ply channel with
CAUSE 10. -/
def Obligations.LoopAndPlyPairs : Prop :=
  (∀ (s : State) (n : Fin 96) (unit : Fin 16) (ra rb : Fin 32) (tl : Tile), MayIssue s n 8 [rb] [ra] →
    let x := s.needles[n]
    let put := fun (g : Needle → Needle) => Host.Outcome.next (ρ := Refusal) (φ := Fault) (retired s n 8 fun y =>
      g { y with bed := y.bed.modTile unit fun t => { t with closed := t.closed || t.isInt } })
    let bad := fun (c : Nat) => Host.Outcome.next (ρ := Refusal) (φ := Fault) (s.needleFault n c x.pc.toNat 0)
    let i := (x.sr rb).toNat
    let c : Byte := (x.sr rb).setWidth 8
    (x.bed.tile unit = none → exec (.lconf n unit) s = bad 1 ∧ exec (.lget n unit ra rb) s = bad 1 ∧
      exec (.lshift n unit rb) s = bad 1 ∧ exec (.lscale n unit ra) s = bad 1 ∧ exec (.plySend n unit rb) s = bad 1 ∧
      exec (.plyAdd n unit rb) s = bad 1) ∧
    (x.bed.tile unit = some tl → tl.due = 0 → tl.confirmed = true → x.bed.settled unit = true →
      exec (.lconf n unit) s = put id ∧
      exec (.lshift n unit rb) s = put (fun y => y.setS rb (tl.shiftByte.setWidth 64)) ∧
      (i % 64 = 0 → i < tl.rows * tl.cols → (tl.isPair = true → ra.val ≤ 30) → exec (.lget n unit ra rb) s = put fun y =>
        if tl.isPair = true then (y.setV ra (lgetWords tl i false)).setV (ra + 1) (lgetWords tl i true)
        else y.setV ra (lgetWords tl i false)) ∧
      (i % 64 ≠ 0 ∨ tl.rows * tl.cols ≤ i → (tl.isPair = true → ra.val ≤ 30) → exec (.lget n unit ra rb) s = bad 2) ∧
      (tl.isInt = true → exec (.lscale n unit ra) s = bad 1) ∧
      (tl.isInt = false → exec (.lscale n unit ra) s = put fun y =>
        { y with bed := y.bed.modTile unit fun t => t.scaleRows x.v[ra] }) ∧
      (s.ownChan n c true = none → exec (.plySend n unit rb) s = bad 10) ∧
      (s.ownChan n c false = none → exec (.plyAdd n unit rb) s = bad 10) ∧
      (∀ (j : Fin 8) (ch : Chan), ch.ply = true → ch.link ≠ 5 → tl.isInt = false →
        let f := s.chan j c
        (s.ownChan n c true = some (j, ch) → (∀ c', c' ≠ c → s.sendable j c' = false) → s.chanOpen j c ch = true →
          f.outq = [] → f.credits ≤ 4 → f.credits < tl.entries.length →
          ∃ t, exec (.plySend n unit rb) s = .next t ∧ t.mem = s.mem ∧
            t.chan j c = { f with outq := tl.entries.drop f.credits, credits := 0 } ∧
            t.out = s.out ++ (tl.entries.take f.credits).map (fun e => .stitch j c ch.position e.2) ∧
            (t.needles[n]).wait = .send c) ∧
        (s.ownChan n c false = some (j, ch) → f.fifo = [] → tl.elems ≠ [] →
          exec (.plyAdd n unit rb) s = put fun y => { y with wait := .recvTile c unit [] })))) ∧
  (∀ (s : State) (j : Fin 8) (c : Byte) (ch : Chan) (e : Vector Byte 64) (unit : Fin 16) (got : List Byte) (tl : Tile),
    s.chanRec j c = some ch → ch.ply = true → ch.link ≠ 5 → (s.chan j c).fifo = [] → (s.chan j c).land = none →
    let n := ch.sink s.swatches[j]
    (s.needles[n]).wait = .recvTile c unit got → (s.needles[n]).bed.tile unit = some tl → tl.isInt = false →
    got.length < 8 * tl.elems.length → 8 * tl.elems.length = got.length + 64 →
    ∃ t, exec (.stitchEntryArrival j c ch.position e) s = .next t ∧ t.out = s.out ++ [.stitchCredit j c] ∧
      t.needles = (s.modNeedle n fun y => Needle.boundary { y with
        wait := .none, bed := y.bed.modTile unit fun t => t.plyAdd (got ++ e.toList) 0 }).needles)

/-- Where core d runs with no load under way: a register write changes that register alone (x0 discards it) and retires; a CSR swap
returns the old value; a store of the granted core to its own swatch's store writes its bytes and no other, a load returns them,
an atomic returns the old value and leaves the new one; a store-conditional without its reservation writes 1 to rd and no memory,
with it 0 and the bytes; a trap into machine mode saves pc, cause, value, mode and interrupt enable and goes to the handler, and
MRET restores them. The instruction's effects stand for the standard ones (log 14). -/
def Obligations.DistaffInstructionEffects : Prop :=
  ∀ (s : State) (d : Fin 4) (next : DWord), s.coreRuns d = true →
    let c := s.distaffs[d]
    let ret := fun (f : Distaff → Distaff) => Host.Outcome.next (ρ := Refusal) (φ := Fault) (s.modDst d fun c => (f c).retire next)
    let ex := fun (ops : List DstOp) => exec (.distaffInstruction d next ops) s
    ex [] = ret id ∧
    (∀ (rd : Fin 32) (v : DWord), ex [.writeX rd v] = ret fun c => if rd = 0 then c else { c with x := c.x.set rd v }) ∧
    (∀ (rd : Fin 32) (v : DWord), ex [.writeF rd v] = ret fun c => { c with f := c.f.set rd v }) ∧
    (∀ (rd : Fin 32) (v : BitVec 256), ex [.writeV rd v] = ret fun c => { c with v := c.v.set rd v }) ∧
    (∀ (rd : Fin 32) (v : DWord), ex [.swapCsr rd 0x340 v] = ret fun c => (c.setX rd (c.raw 0x340)).setRaw 0x340 v) ∧
    (∀ (cause tval : DWord), cause.getLsbD 63 = false → c.halting = false →
      ∃ t, ex [.trap false cause tval] = .next t ∧ t.mem = s.mem ∧
        let c' := t.distaffs[d]
        c'.raw 0x341 = c.pc ∧ c'.raw 0x342 = cause ∧ c'.raw 0x343 = tval ∧ c'.mode = 3 ∧ c'.x = c.x ∧ c'.f = c.f ∧ c'.v = c.v ∧
        c'.pc = c.raw 0x305 &&& ~~~3 ∧ c'.retired = c.retired ∧
        (c'.raw 0x300).getLsbD 7 = (c.raw 0x300).getLsbD 3 ∧ (c'.raw 0x300).getLsbD 3 = false ∧ fld (c'.raw 0x300) 12 11 = c.mode.toNat) ∧
    (c.halting = false → ∃ t, ex [.mret] = .next t ∧ t.mem = s.mem ∧
      let c' := t.distaffs[d]
      c'.pc = c.raw 0x341 ∧ c'.mode.toNat = fld (c.raw 0x300) 12 11 ∧ c'.x = c.x ∧ c'.retired = c.retired + 1 ∧
      (c'.raw 0x300).getLsbD 3 = (c.raw 0x300).getLsbD 7 ∧ (c'.raw 0x300).getLsbD 7 = true ∧ fld (c'.raw 0x300) 12 11 = 0) ∧
    (∀ (i : Fin 8) (k : Fin 16) (addr v : DWord) (size : Fin 4) (rd : Fin 32) (sg : Bool),
      let a := addr.toNat
      let w := 2 ^ size.val
      let stored := fun (t : State) (b : List Byte) => ∀ j : Nat,
        memGet t.mem j = if a ≤ j ∧ j < a + b.length then b.getD (j - a) 0 else memGet s.mem j
      c.granted = some i → s.region a = .store k → (s.swatches[i]).covers k = true → a % 64 + w ≤ 64 → s.poison = [] →
      wrId c.draft = 0 → c.halting = false →
      (∃ t, ex [.store size addr v] = .next t ∧ stored t (leBytes w v.toNat) ∧ (t.distaffs[d]).x = c.x ∧ (t.distaffs[d]).pc = next) ∧
      ex [.load rd size sg addr] = ret (fun c => c.setX rd (loadVal size.val sg (memRead s.mem a w))) ∧
      (a % 64 + 8 ≤ 64 →
        (c.reserved ≠ some a → ex [.sc rd true addr v] = ret fun c => { c with reserved := none }.setX rd 1) ∧
        (c.reserved = some a → ∃ t, ex [.sc rd true addr v] = .next t ∧ stored t (leBytes 8 v.toNat) ∧
          (t.distaffs[d]).x = (c.setX rd 0).x ∧ (t.distaffs[d]).reserved = none) ∧
        ex [.lr rd true addr] = ret (fun c => { c with reserved := some a }.setX rd (loadVal 3 true (memRead s.mem a 8))) ∧
        (∃ t, ex [.amo rd true .add addr v] = .next t ∧
          stored t (leBytes 8 ((leNat (memRead s.mem a 8) % 2 ^ 64 + v.toNat) % 2 ^ 64)) ∧
          (t.distaffs[d]).x = (c.setX rd (loadVal 3 true (memRead s.mem a 8))).x)))

/-- Where core d runs: in user mode without UCUSTOM each custom-0 instruction raises illegal instruction. Otherwise, with no access
outstanding, DOORBELL on a ring of the core's swatch rings it and writes 0, on another it is dropped, counted, and writes 1 (on a twin's
secondary it goes to the primary's mailbox as a register write over the TWIN port, whose word is the model's, log 141); TICKWAIT
of a row reached writes TICK_COUNT at once and of a later row waits; its resume writes TICK_COUNT with bit 63 set for a frog; SWFENCE
with neither bit set only retires, WB cleans and INV empties the core's lines; FLAG of a granted core sends its operation to the home
unit and waits, of a host-owned one raises illegal instruction; a flag reply that answers the wait writes rd. -/
def Obligations.DistaffCustomInstructions : Prop :=
  ∀ (s : State) (d : Fin 4) (rd rs1 rs2 : Fin 32),
    let c := s.distaffs[d]
    let illegal := Host.Outcome.next (ρ := Refusal) (φ := Fault) (s.modDst d fun c => (c.exception 2 0).haltDone)
    let done := fun (s : State) (v : DWord) => Host.Outcome.next (ρ := Refusal) (φ := Fault)
      (s.modDst d fun c => (if rd = 0 then c else { c with x := c.x.set rd v }).retire (c.pc + 4))
    let row := c.getX rs1
    let n := row.toNat % 32
    let r : RingId := if n < 16 then .sq (Fin.ofNat 16 n) else .cq (Fin.ofNat 16 n)
    (s.coreRuns d = true → c.mode = 0 → c.ucustom = false →
      exec (.dstDoorbell d rd rs1 rs2) s = illegal ∧ exec (.dstTickwait d rd rs1) s = illegal ∧ exec (.dstSwfence d rs1) s = illegal ∧
      exec (.dstFlagSet d rd rs1 rs2) s = illegal ∧ exec (.dstFlagAdd d rd rs1 rs2) s = illegal ∧
      exec (.dstFlagWaitGe d rd rs1 rs2) s = illegal ∧ exec (.dstFlagWaitEq d rd rs1 rs2) s = illegal) ∧
    (s.coreRuns d = true → c.mode ≠ 0 ∨ c.ucustom = true →
      (row ≠ 0 → row.toNat ≤ s.tick.count.toNat → exec (.dstTickwait d rd rs1) s = done s s.tick.count) ∧
      (s.tick.count.toNat < row.toNat → exec (.dstTickwait d rd rs1) s =
        .next (s.modDst d fun c => { c with st := .waiting, wait := .tick rd row false, frogged := false })) ∧
      (row = 0 → exec (.dstTickwait d rd rs1) s =
        .next (s.modDst d fun c => { c with st := .waiting, wait := .tick rd (s.tick.count + 1) true, frogged := false })) ∧
      (s.coreBusy d = false →
        (s.fuses.twin = false ∨ s.fuses.primary = true →
          (s.bellTaken d r = true → exec (.dstDoorbell d rd rs1 rs2) s = done (s.ringBell r ((c.getX rs2).setWidth 16)) 0) ∧
          (s.bellTaken d r = false → exec (.dstDoorbell d rd rs1 rs2) s = done s.badAcc 1)) ∧
        (∀ (p : Fin 10) (i : Fin 8), s.fuses.twin = true → s.fuses.primary = false → s.twinPort = some p → c.granted = some i →
          exec (.dstDoorbell d rd rs1 rs2) s = .next (s.sendAccess (.distaff d) p (0x10031000 + 4 * n) (twinBase + 0x10031000 + 4 * n)
            (.regWrite (BitVec.ofNat 32 ((c.getX rs2).toNat % 65536 + 65536 * i.val))) (.bell rd) (s.classOf (some i))
            (c.pc + 4).toNat true)) ∧
        (row.getLsbD 0 = false → row.getLsbD 1 = false →
          exec (.dstSwfence d rs1) s = .next (s.modDst d fun c => c.retire (c.pc + 4))) ∧
        (∃ t, exec (.dstSwfence d rs1) s = .next t ∧ (t.distaffs[d]).x = c.x ∧
          (row.getLsbD 0 = true → ∀ l ∈ t.cache, s.cacheable d l.addr = true → l.dirty = false) ∧
          (row.getLsbD 1 = true → ∀ l ∈ t.cache, s.cacheable d l.addr = false) ∧ (row.getLsbD 0 = false → t.mem = s.mem)) ∧
        (∀ i : Fin 8, c.granted = some i →
          let home := (s.swatches[i]).home
          let send := fun (op : FlagKind) => Host.Outcome.next (ρ := Refusal) (φ := Fault)
            (({ s with
              out := s.out ++ [.flagOp ⟨home, home, i, .core d, s.nextAccess⟩ op (Fin.ofNat 64 (row.toNat % 64)) ((c.getX rs2).setWidth 32)]
              nextAccess := s.nextAccess + 1 } : State).modDst d fun c => { c with st := .waiting, wait := .flag rd s.nextAccess })
          exec (.dstFlagSet d rd rs1 rs2) s = send .set ∧ exec (.dstFlagAdd d rd rs1 rs2) s = send .add ∧
          exec (.dstFlagWaitGe d rd rs1 rs2) s = send .waitGe ∧ exec (.dstFlagWaitEq d rd rs1 rs2) s = send .waitEq) ∧
        (c.granted = none → exec (.dstFlagSet d rd rs1 rs2) s = illegal ∧ exec (.dstFlagWaitEq d rd rs1 rs2) s = illegal))) ∧
    (∀ target any, c.st = .waiting → c.wait = .tick rd target any → target.toNat ≤ s.tick.count.toNat →
      (∀ i : Fin 8, c.granted = some i → (s.swatches[i]).st ≠ .held) →
      exec (.dstTickwaitResume d) s = done s (putBit s.tick.count 63 c.frogged)) ∧
    (∀ (h : PktHead) (v : Word), ((s.skeins[h.dst]).mesh).refuses h [h.dst] false = none →
      (h.issuer = .core d → c.st = .waiting → c.wait = .flag rd h.id →
        exec (.flagReply h.dst h false v) s = done s (v.setWidth 64)) ∧
      (∀ k : Fin 6, h.issuer = .needle k → (s.needles[needleOf h.dst k]).wait = .flag rd h.id →
        exec (.flagReply h.dst h false v) s = .next (s.modNeedle (needleOf h.dst k) fun y => Needle.boundary { y with
          wait := .none, s := if rd = 0 then y.s else y.s.set rd (v.setWidth 64) })))

/-- A powered device ignores power good and an unpowered one ignores a loss of supply. At power good the primary holds empty memory
and unset swatches, has loaded order, census kind and the clamped budget from the fuses, stands in step 2 and fetches from the first
source of its order; the flash, the tags and the repair record stay. A loss of supply leaves exactly the fuses, the tags, the record,
the tally's memory and the flash (with no write of theirs in progress), RAIL_FAULT set only for a rail. A restart accepted turns every
ring OFF in a new epoch, ends the device state and starts again from step 2 with memory as it was; without one nothing happens. That
pending commands and what was sent are kept is the model's own (log 1, 3). -/
def Obligations.PowerGoodAndLoss : Prop :=
  ∀ s : State,
    (s.selv.spwrok = true → exec .selvagePowerGood s = .next s) ∧
    (s.selv.spwrok = false → exec .spwrokFall s = .next s ∧ exec .railOutOfTolerance s = .next s) ∧
    (s.selv.restartCmd = false → exec .restartBegin s = .next s) ∧
    (s.selv.spwrok = false → s.fuses.primary = true → ∃ t src rest, exec .selvagePowerGood s = .next t ∧
      bootOrder s.fuses.order = src :: rest ∧
      t.boot.phase = .fetching src ∧ t.boot.rest = rest ∧ t.boot.image = [] ∧ t.boot.warm = false ∧
      t.selv.spwrok = true ∧ t.selv.bootStep = 2 ∧ t.selv.ready = false ∧ t.selv.st = .off ∧ t.selv.fault = 0 ∧
      t.selv.order = s.fuses.order ∧ t.selv.fullCensus = s.fuses.fullCensus ∧
      t.selv.budget.toNat = max 6000 (min 40000 s.fuses.budget.toNat) ∧
      t.mem = [] ∧ t.pages = [] ∧ t.swatches = Vector.replicate 8 Swatch.unset ∧
      t.fuses = s.fuses ∧ t.tags = s.tags ∧ t.flash.board = s.flash.board ∧ t.rep.entries = s.rep.entries ∧
      t.pending = s.pending) ∧
    (s.selv.spwrok = true → s.tally.run = none → s.flash.writing = none →
      let off : State := { State.reset with
        fuses := s.fuses, phys := s.phys, flash := s.flash, tags := s.tags
        tally := { s.tally with waiting := [], attests := [], events := 0 }
        rep := { Rep.reset with entries := s.rep.entries }
        out := s.out, freeCtr := s.freeCtr + 1, pending := s.pending }
      exec .spwrokFall s = .next off ∧
      exec .railOutOfTolerance s = .next ({ off with selv := { Selv.reset with railFault := true } } : State)) ∧
    (s.selv.restartCmd = true → s.fuses.primary = true → ∃ t, exec .restartBegin s = .next t ∧
      (∀ i : Fin 16, t.sqs[i].fsm = EnFsm.off ∧ t.sqs[i].epoch = s.sqs[i].epoch + 1 ∧ t.sqs[i].inflight = 0 ∧
        t.cqs[i].fsm = EnFsm.off ∧ t.cqs[i].held = []) ∧
      t.selv.restartCmd = false ∧ t.selv.ready = false ∧ t.selv.st = .off ∧ t.selv.bootStep = 2 ∧ t.selv.skeinsOn = 0 ∧
      t.boot.warm = true ∧ (∃ src, t.boot.phase = .fetching src) ∧
      t.mem = s.mem ∧ t.pages = s.pages ∧ t.map = s.map ∧ t.tags = s.tags ∧ t.fuses = s.fuses)

/-- While a source is fetched and its port's sideband is up with no READ due, BOOT_READ sends a READ from the offset reached (slot B's from
0x10_0000 on) of at most 4,096 bytes, which the flash of a slot answers with its bytes eight at a time (at once, log 154); a DATA whose number is not the one due changes nothing, one in order adds its bytes. The last byte of a verified image
makes it the running one, with its SVN and its measurement; one that does not verify, and a source that times out, sets the source's
fault bit and the next source is tried, or, after the last, NO_IMAGE is set and the ROM waits for an OFFER. STATUS_REQ is answered
while the selvage is powered. A twin secondary's image is taken only while its ROM waits, and only if it verifies. -/
def Obligations.BootChannel : Prop :=
  (∀ (s : State) (src : BootSrc) (p : Fin 10), s.boot.phase = .fetching src → s.bootPort src = some p → s.boot.due = 0 →
    s.ports[p].sideband = true →
    let off := s.boot.image.length
    let len := min 4096 (if off < 512 then 512 - off else s.boot.total - off)
    0 < len →
    exec .bootRead s = .next ({ s with
      boot := { s.boot with due := len, seq := 0 }
      out := s.out ++ .sideband p 8 (1 :: leBytes 4 (off + if src = .slotB then 0x100000 else 0) ++ leBytes 2 len) ::
        (match src with
          | .host => []
          | _ => (List.range ((len + 7) / 8)).map fun i => .sideband p 8 (2 :: leBytes 2 i ++
            (List.range 8).map fun j => (if src = .slotA then s.flash.slotA else s.flash.slotB).getD (off + 8 * i + j) 0xFF)) } : State)) ∧
  (∀ (s : State) (src : BootSrc) (seq : Half) (data : Vector Byte 8), s.boot.phase = .fetching src →
    (s.boot.due = 0 ∨ seq ≠ s.boot.seq → exec (.bootData seq data) s = .next s) ∧
    (8 < s.boot.due → seq = s.boot.seq → exec (.bootData seq data) s = .next ({ s with
      boot := { s.boot with image := s.boot.image ++ data.toList, due := s.boot.due - 8, seq := s.boot.seq + 1 } } : State)) ∧
    (0 < s.boot.due → s.boot.due ≤ 8 → seq = s.boot.seq →
      let b : Boot := { s.boot with image := s.boot.image ++ data.toList.take s.boot.due, due := 0, seq := s.boot.seq + 1 }
      512 ≤ b.image.length → b.total ≤ b.image.length → s.fuses.primary = true →
      ∃ t, exec (.bootData seq data) s = .next t ∧
        (checkImage s.tally.svnMin b.image = .ok →
          t.boot.phase = .countOff 1 ∧ t.boot.measure = Config.sha256 b.image ∧
          t.selv.svn = (Config.imageParts b.image).svn ∧ t.selv.source = src.code ∧ t.selv.bootStep = 3 ∧
          t.out = s.out ++ [.inner 1 0xFF 0 [1]]) ∧
        (checkImage s.tally.svnMin b.image ≠ .ok →
          t.boot.phase ≠ .countOff 1 ∧
          t.selv.fault.getLsbD (match src with | .slotA => 0 | .slotB => 1 | _ => 2) = true))) ∧
  (∀ (s : State) (src n : BootSrc) (rest : List BootSrc), s.boot.phase = .fetching src → s.boot.offer = none →
    s.boot.rest = n :: rest → ∃ t, exec .bootSourceTimeout s = .next t ∧ t.boot.phase = .fetching n ∧ t.boot.rest = rest ∧
      t.boot.image = [] ∧ t.selv.fault.getLsbD (match src with | .slotA => 0 | .slotB => 1 | _ => 2) = true) ∧
  (∀ (s : State) (src : BootSrc), s.boot.phase = .fetching src → s.boot.rest = [] →
    ∃ t, exec .bootSourceTimeout s = .next t ∧ t.boot.phase = .noImage ∧ t.selv.fault.getLsbD 3 = true ∧
      t.selv.ready = s.selv.ready) ∧
  (∀ (s : State) (p : Fin 10) (size : Word),
    ((s.boot.phase = .noImage ∧ (s.fuses.ports[p].role = .host ∨ s.fuses.ports[p].role = .shus)) →
      ∃ t, exec (.offer p size) s = .next t ∧ t.boot.phase = .fetching .host ∧ t.boot.offer = some (p, size.toNat) ∧
        t.boot.image = [] ∧ t.boot.rest = []) ∧
    (s.boot.phase ≠ .noImage → exec (.offer p size) s = .next s) ∧
    (s.selv.spwrok = true → s.fuses.ports[p].role ≠ .none → exec (.statusReq p) s = .next ({ s with
      out := s.out ++ [.sideband p 8 (4 :: leBytes 4 s.statusWord.toNat ++ leBytes 4 s.selv.fault.toNat ++
        leBytes 4 s.selv.bootStatusWord.toNat)] } : State)) ∧
    (s.selv.spwrok = false → exec (.statusReq p) s = .next s)) ∧
  (∀ (s : State) (image : List Byte),
    (s.boot.phase ≠ .waitImage → exec (.secondaryImageWaitEnd image) s = .next s) ∧
    (s.boot.phase = .waitImage → checkImage s.tally.svnMin image ≠ .ok → exec (.secondaryImageWaitEnd image) s =
      .next ({ s with boot := { s.boot with image := image }
                      selv := { s.selv with fault := setBit s.selv.fault 3 } } : State)) ∧
    (s.boot.phase = .waitImage → checkImage s.tally.svnMin image = .ok → s.fuses.primary = false →
      exec (.secondaryImageWaitEnd image) s = .next (State.stepsFive { s with
        boot := { s.boot with image := image, offer := none, measure := Config.sha256 image }
        selv := { s.selv with source := 4, svn := (Config.imageParts image).svn, bootStep := 3 } })))

/-- A die that is not the primary keeps the count it receives as its address and sends it on plus one. At the primary that waits, the
count returned is compared with 1 + d + b plus 1 in a twin: a difference sets COUNT_OFF, and start-up goes on with step 5. Without an
answer COUNT_OFF is sent again at most twice, and after the third try start-up goes on with COUNT_OFF set. RUN_CENSUS, and a pending
automatic census where a census may run, begin one; without one, its end does nothing. The secondary's report
starts step 9 of a primary that waits for it. -/
def Obligations.CountOffAndCensusStart : Prop :=
  (∀ (s : State) (n : Byte), s.selv.spwrok = true → s.fuses.primary = false → exec (.countOff n) s = .next ({ s with
    inner := { s.inner with hasAddr := true, addr := n }, out := s.out ++ [.inner 1 0xFF n [n + 1]] } : State)) ∧
  (∀ (s : State) (n : Byte) (k : Nat), s.selv.spwrok = true → s.fuses.primary = true → s.boot.phase = .countOff k →
    let d := 1 + s.fuses.shusDies.toNat + s.fuses.stackCount.toNat + (if s.fuses.twin then 1 else 0)
    exec (.countOff n) s = .next (State.stepsFive { s with
      inner := { s.inner with hasAddr := true, addr := 0, returned := n, expected := BitVec.ofNat 8 d
                              events := if n.toNat = d then s.inner.events else setBit s.inner.events 3 }
      selv := { s.selv with bootStep := 4, fault := if n.toNat = d then s.selv.fault else setBit s.selv.fault 4 } })) ∧
  (∀ (s : State) (k : Nat), s.boot.phase = .countOff k →
    (k < 3 → exec .countOffTimeout s = .next ({ s with
      boot := { s.boot with phase := .countOff (k + 1) }, out := s.out ++ [.inner 1 0xFF 0 [1]] } : State)) ∧
    (3 ≤ k → exec .countOffTimeout s = .next (State.stepsFive { s with
      inner := { s.inner with hasAddr := true, returned := 0, expected := BitVec.ofNat 8 s.fuses.dies
                              events := setBit s.inner.events 1 }
      selv := { s.selv with bootStep := 4, fault := setBit s.selv.fault 4 } }))) ∧
  (∀ (e : Entry) (s s1 : State), Accepts cmdRunCensus e s s1 → ∃ t, exec (.runCensus e) s = .next t ∧
    t.rep.run = some ⟨decide (e.u 8 1 = 1) || s1.rep.pendingFull, some (refOf e s1)⟩ ∧
    t.jobs = s1.jobs ++ [(refOf e s1, 0x601, e.params.toList)] ∧ t.mem = s1.mem ∧ t.map = s1.map) ∧
  (∀ s : State, (s.rep.pending = true → s.rep.autoCensus = true → s.censusMay = true →
      ∃ t, exec .autoCensusStart s = .next t ∧ t.rep.run = some ⟨s.rep.pendingFull, none⟩ ∧
        t.selv.skeinsOn = s.mapMask ∧ t.mem = s.mem) ∧
    (s.rep.pending = false → exec .autoCensusStart s = .next s) ∧
    (s.rep.run = none → exec .censusEnd s = .next s)) ∧
  (∀ s : State, s.boot.phase = .waitSecondary →
    exec .secondaryStartUpReport s = .next (State.stepNine { s with boot := { s.boot with secondary := true } } s.mgmtPresent)) ∧
  (∀ s : State, s.boot.phase ≠ .waitSecondary →
    exec .secondaryStartUpReport s = .next ({ s with boot := { s.boot with secondary := true } } : State))

/-- The map a census builds puts logical skein 4c + w on the w-th good skein, from the west, of the c-th enabled row, with its six lowest
good needles; every skein it names is good and every needle too. With no enabled row and a good skein it is the fallback map of that
one skein; with no good skein it is empty. The end of a re-census installs that map, moves the epoch on by one exactly if the map
differs (modulo 256), leaves no census running or pending, and counts the good skeins. A census leaves every byte of the skein
stores 0. -/
def Obligations.CensusBuildsTheMap : Prop :=
  (∀ (s : State) (c w : Fin 4) (l : LogSkein), s.newMap.skeins[4 * c.val + w.val] = some l →
    s.skeinGood l.phys = true ∧ (∀ k : Fin 6, l.needles[k] ∈ s.goodNeedles l.phys) ∧
    (s.enabledRows ≠ [] → ∃ y, s.enabledRows[c.val]? = some y ∧
      ((allFin 5).filter fun x => s.skeinGood (physSkein y x))[w.val]?.map (physSkein y) = some l.phys)) ∧
  (∀ s : State, s.newMap.fallback = true ↔ s.enabledRows = [] ∧ ∃ p, s.skeinGood p = true) ∧
  (∀ s : State, s.newMap.fallback = true → s.newMap.courses = 1 ∧ s.newMap.rows = 0 ∧ s.newMap.needles = 6) ∧
  (∀ s : State, (∀ p, s.skeinGood p = false) → s.newMap.courses = 0 ∧ s.newMap.needles = 0) ∧
  (∀ (s : State) (r : CensusRun), s.rep.run = some r → ∃ t, exec .censusEnd s = .next t ∧
    t.rep.run = none ∧ t.rep.pending = false ∧ t.rep.pendingFull = false ∧
    t.map = { s.newMap with epoch :=
      if { s.newMap with epoch := 0 } = { s.map with epoch := 0 } then s.map.epoch else s.map.epoch + 1 } ∧
    t.selv.goodSkeins.toNat = ((allFin 20).filter s.skeinGood).length ∧ t.selv.censusFull = r.full) ∧
  (∀ (s : State) (full first : Bool) (a : Nat), a < 0x4000000 → memGet (s.census full first).1.mem a = 0)

/-- Each training row acts only in the state it belongs to. In SB_INIT a sideband that comes up announces the role once start-up is past
the ROM; one that does not ends the port DOWN with ROLE_MISMATCH. In ROLE_CHECK the right class confirms the role and any other ends
the port; silence confirms only a HOST port in PCIe flit mode. In MB_TRAIN two modules run at the lower of their rates, one alone at its
own, none ends the port DOWN as lost. The credits, or PCIe's link on a HOST port, make it ACTIVE with two modules and DEGRADED
with one. PORT_REENABLE accepted puts the port back to SB_INIT, and refuses one that is DOWN for its role (log 160); past its deadline a port
that still trains goes DOWN. -/
def Obligations.PortTraining : Prop :=
  ∀ (s : State) (p : Fin 10),
    let e := s.ports[p]
    let role := s.fuses.ports[p].role
    let wrong := fun (s : State) => ((s.modPort p fun e => { e with st := .down, mismatch := true }).edgeEvent p 0x88).portMoved
    (e.st = .sbInit →
      ((∃ src, s.boot.phase = .fetching src) ∨ s.boot.phase = .noImage →
        exec (.sidebandUp p) s = .next (s.modPort p fun e => { e with sideband := true })) ∧
      (s.boot.phase = .training ∨ s.boot.phase = .done → exec (.sidebandUp p) s = .next (State.emit
        (s.modPort p fun e => { e with sideband := true, st := .roleCheck })
        (.sideband p 1 [role.code.setWidth 8, if s.fuses.primary then 1 else 0]))) ∧
      (e.sideband = false → exec (.sbInitTimeout p) s = .next (wrong s))) ∧
    (e.st ≠ .sbInit → exec (.sidebandUp p) s = .next s ∧ exec (.sbInitTimeout p) s = .next s) ∧
    (∀ (cls : BitVec 3) (primary flit : Bool),
      let fits := (role = .stack ∧ cls = 2) ∨ (role = .shus ∧ cls = 3) ∨ (role = .twin ∧ cls = 4 ∧ primary ≠ s.fuses.primary)
      (e.st ≠ .roleCheck → exec (.roleAck p cls primary) s = .next s ∧ exec (.roleCheckTimeout p flit) s = .next s) ∧
      (e.st = .roleCheck →
        (fits → exec (.roleAck p cls primary) s =
          .next (s.modPort p fun e => { e with farClass := cls, confirmed := true, st := .mbTrain })) ∧
        (¬ fits → exec (.roleAck p cls primary) s = .next (wrong (s.modPort p fun e => { e with farClass := cls }))) ∧
        (role = .host ∧ flit = true → exec (.roleCheckTimeout p flit) s =
          .next (s.modPort p fun e => { e with farClass := 1, confirmed := true, st := .mbTrain })) ∧
        (¬ (role = .host ∧ flit = true) → exec (.roleCheckTimeout p flit) s = .next (wrong s)))) ∧
    (∀ (r0 r1 : BitVec 2) (map : Half), e.st = .mbTrain → (r0 ≠ 0 ∨ r1 ≠ 0) →
      ∃ t, exec (.mbTrainingDone p r0 r1 map) s = .next t ∧ t.ports[p].st = .creditInit ∧
        (r0 ≠ 0 → r1 ≠ 0 → t.ports[p].modules = 3 ∧
          t.ports[p].rate.toNat = min (min r0.toNat r1.toNat) (max 1 e.maxRate.toNat)) ∧
        (r1 = 0 → t.ports[p].modules = 1 ∧ t.ports[p].rate.toNat = min r0.toNat (max 1 e.maxRate.toNat)) ∧
        (r0 = 0 → t.ports[p].modules = 2 ∧ t.ports[p].rate.toNat = min r1.toNat (max 1 e.maxRate.toNat)) ∧
        t.ports[p].repairMap = e.repairMap ||| map.setWidth 32 ∧ (r0 = 0 ∨ r1 = 0 → t.ports[p].events.getLsbD 2 = true)) ∧
    (∀ map : Half, e.st = .mbTrain → exec (.mbTrainingDone p 0 0 map) s = .next (s.portDown p)) ∧
    (e.st ≠ .mbTrain → ∀ (r0 r1 : BitVec 2) (map : Half), exec (.mbTrainingDone p r0 r1 map) s = .next s) ∧
    (∀ c : Credits, (e.st = .creditInit → role ≠ .host →
        exec (.creditInit p c) s = .next ((s.modPort p fun e => { e with far := c }).portRises p)) ∧
      (e.st ≠ .creditInit ∨ role = .host → exec (.creditInit p c) s = .next s)) ∧
    (e.st = .creditInit → role = .host → exec (.pcieLinkUp p) s = .next (s.portRises p)) ∧
    (e.st ≠ .creditInit ∨ role ≠ .host → exec (.pcieLinkUp p) s = .next s) ∧
    (s.boot.phase ≠ .training →
      (s.portRises p).ports[p].st = (if e.modules = 3 then .active else .degraded) ∧
      (wrong s).ports[p].st = .down ∧ (wrong s).ports[p].mismatch = true ∧ (wrong s).ports[p].events = e.events ||| 0x88) ∧
    (e.st = .sbInit ∨ e.st = .roleCheck ∨ e.st = .mbTrain ∨ e.st = .creditInit →
      exec (.portTrainingDeadline p) s = .next (s.portDown p)) ∧
    (s.boot.phase ≠ .training → (∀ a ∈ s.accesses, a.path ≠ .port p) →
      (s.portDown p).ports[p].st = .down ∧ (s.portDown p).ports[p].outq = [] ∧ (s.portDown p).ports[p].events.getLsbD 3 = true) ∧
    (e.st.settled = true ∨ e.st = .retrain → exec (.portTrainingDeadline p) s = .next s) ∧
    (∀ (c : Entry) (s1 : State), Accepts cmdPortReenable c s s1 → exec (.portReenable c) s =
      .next (State.modPort (s1.inFlight (refOf c s1) 0x603 c) (Fin.ofNat 10 (c.u 8 1)) fun x => { x with
        st := .sbInit, sideband := false, confirmed := false, rate := 0, modules := 0 })) ∧
    (∀ c : Entry, s.selv.st.working = true → s.castList = [] → (s.ports[Fin.ofNat 10 (c.u 8 1)]).mismatch = true →
      cmdPortReenable.state c s = some 2)

/-- A flit with a wrong CRC, a number out of order or a protocol error (a transaction beyond the credits too) is dropped and answered with
NAK; one in order moves the expected number on, its slots and granules join what has come, and a read that it holds whole is served. The
ACK timer sends what is due. A NAK counts one retry and replays every flit after the number it names. Above the limit the port
retrains, and not below; the interval's end clears the tally. A repaired port is ACTIVE with both modules, DEGRADED with one; with none
left it goes DOWN. A retraining port keeps its slices. SREF_ACK puts an entering port to SLEEP and an exiting one to training; silence repeats the message once, then the
stack is lost. Routing follows the ports unless an access is outstanding where slices move. An unknown message sets its event bit. -/
def Obligations.PortRetrySleepAndRouting : Prop :=
  ∀ (s : State) (p : Fin 10),
    let e := s.ports[p]
    let role := s.fuses.ports[p].role
    let nak := fun (s : State) => State.emit (s.modPort p fun e => { e with unacked := 0 }) (.ack p true (e.nextRecv - 1))
    (∀ flit : Vector Byte 256,
      let w : Word := BitVec.ofNat 32 (leAt flit.toList 0 4)
      (s.portUp p = false ∨ role = .host ∨ role = .none → exec (.flitReceived p flit) s = .next s) ∧
      (s.portUp p = true → role ≠ .host → role ≠ .none →
        (flitCrcOk flit.toList = false ∨ fld w 9 0 ≠ e.nextRecv.toNat → exec (.flitReceived p flit) s = .next (nak s)) ∧
        (flitCrcOk flit.toList = true → fld w 9 0 = e.nextRecv.toNat →
          let rx := takeFlit e.rx flit.toList
          let wrong := (flitSlots flit.toList).any (s.slotBad p) || creditOver rx
          (wrong = true → exec (.flitReceived p flit) s = .next (nak (s.edgeEvent p 0x10))) ∧
          (wrong = false → rx.filter RxTxn.full = [] → ∃ t, exec (.flitReceived p flit) s = .next t ∧
            t.ports[p].nextRecv = e.nextRecv + 1 ∧ t.ports[p].rx = rx ∧ t.mem = s.mem ∧ t.accesses = s.accesses) ∧
          (∀ slot : DWord, wrong = false → rx = [⟨slot, []⟩] → fld slot 4 0 = 1 → fld w 21 20 = 0 →
            ∃ t, exec (.flitReceived p flit) s = .next ((readRequest (slotHead p slot) t).flow p) ∧ t.mem = s.mem ∧
              t.accesses = s.accesses ∧ t.fuses = s.fuses ∧ t.ports[p].nextRecv = e.nextRecv + 1 ∧ t.ports[p].rx = [])))) ∧
    (e.unacked ≠ 0 → s.portUp p = true → exec (.ackTimer p) s =
      .next (State.emit (s.modPort p fun e => { e with unacked := 0 }) (.ack p false (e.nextRecv - 1)))) ∧
    (e.unacked = 0 ∨ s.portUp p = false → exec (.ackTimer p) s = .next s) ∧
    (∀ a : BitVec 10,
      (s.portUp p = false ∨ role = .host → exec (.nakReceived p a) s = .next s) ∧
      (s.portUp p = true → role ≠ .host → ∃ t, exec (.nakReceived p a) s = .next t ∧
        t.ports[p].retryCount = satAdd e.retryCount 1 ∧ t.ports[p].retryTally = e.retryTally + 1 ∧ t.ports[p].farAcked = a ∧
        t.ports[p].events.getLsbD 0 = true ∧
        .replay p (a + 1) (e.retryBuf.drop (e.retryBuf.length - (e.nextSend - 1 - a).toNat)) ∈ t.out)) ∧
    (s.portUp p = true → e.retryLimit.toNat < e.retryTally →
      exec (.retryLimitCrossed p) s = .next (s.modPort p fun e => { e with st := .retrain })) ∧
    (role ≠ .host → e.retryTally ≤ e.retryLimit.toNat → exec (.retryLimitCrossed p) s = .next s) ∧
    exec (.retryIntervalEnd p) s = .next (s.modPort p fun e => { e with retryTally := 0 }) ∧
    (∀ (m : BitVec 2) (map : Half) (spike : Word),
      (e.st ≠ .retrain → exec (.laneRepairDone p m map spike) s = .next s ∧ exec (.retrainTimeout p m) s = .next s) ∧
      (m = 0 → exec (.laneRepairDone p m map spike) s = .next s) ∧
      (e.st = .retrain → m ≠ 0 → ∃ t, exec (.laneRepairDone p m map spike) s = .next t ∧
        t.ports[p].st = (if m = 3 then .active else .degraded) ∧ t.ports[p].modules = m ∧ t.ports[p].spikeLast = spike ∧
        t.ports[p].retryTally = 0 ∧ t.ports[p].events.getLsbD 1 = true ∧ ∃ l, .replay p (e.farAcked + 1) l ∈ t.out) ∧
      (e.st = .retrain → m &&& e.modules = 0 → exec (.retrainTimeout p m) s = .next (s.portDown p)) ∧
      (e.st = .retrain → m &&& e.modules ≠ 0 → m &&& e.modules ≠ 3 → ∃ t, exec (.retrainTimeout p m) s = .next t ∧
        t.ports[p].st = .degraded ∧ t.ports[p].modules = m &&& e.modules ∧ t.ports[p].events.getLsbD 2 = true)) ∧
    (e.sref = .none ∨ e.sref = .waiting → exec (.srefAck p) s = .next s ∧ exec (.srefAckTimeout p) s = .next s) ∧
    (∀ r, e.sref = .entering r →
      (s.portUp p = true →
        exec (.srefAck p) s = .next (s.modPort p fun e => { e with st := .sleep, sref := .none, modules := 0 })) ∧
      (r = false → exec (.srefAckTimeout p) s =
        .next (State.emit (s.modPort p fun e => { e with sref := .entering true }) (.sideband p 4 []))) ∧
      (r = true → ∃ t, exec (.srefAckTimeout p) s = .next t ∧ t.ports[p].sref = .none ∧
        t.stack[s.fuses.ports[p].stack].lost = true ∧ t.selv.fault.getLsbD 10 = true ∧ t.mem = s.mem)) ∧
    (∀ r, e.sref = .exiting r →
      exec (.srefAck p) s = .next (s.modPort p fun e => { e with st := .mbTrain, sref := .none }) ∧
      (r = false → exec (.srefAckTimeout p) s =
        .next (State.emit (s.modPort p fun e => { e with sref := .exiting true }) (.sideband p 5 [])))) ∧
    (∀ b : Fin 4,
      (s.accesses = [] → exec (.stackPortReroute b) s =
        .next (s.modStack b fun t => { t with routeLo := (s.routes b).1, routeHi := (s.routes b).2 })) ∧
      (∀ (q : Fin 10) (a : Access), a ∈ s.accesses → a.path = .port q →
        (s.stack[b].routeLo = some q ∧ (s.routes b).1 ≠ some q ∨ s.stack[b].routeHi = some q ∧ (s.routes b).2 ≠ some q) →
        exec (.stackPortReroute b) s = .next s) ∧
      (∀ q r : Fin 10, s.stackPorts b = [q, r] →
        (s.portUp q = true → s.ports[q].st = s.ports[r].st → s.routes b = (some q, some r)) ∧
        (s.ports[q].st = .active → s.ports[r].st ≠ .active → s.ports[r].st ≠ .retrain → s.routes b = (some q, some q)) ∧
        (s.ports[q].st = .active → s.ports[r].st = .retrain → s.ports[r].modules = 3 → s.routes b = (some q, some r)) ∧
        (s.portCarries q = false → s.portCarries r = false → s.routes b = (none, none)))) ∧
    (∀ code : Half, ∃ t, exec (.unknownMessage p code) s = .next t ∧ t.ports[p].events = e.events ||| 0x40 ∧
      t.ports[p].st = e.st)

/-- On a STACK port, TEMP sets the stack's temperature and reading, ECC_CORR adds to its count, and ECC_UNCORR makes the 32-byte
granule uncorrectable, its page one that retires, with its offset and count recorded; on another port they do nothing. IRQ signals a
vector through the Shuskaub endpoint alone. A private TWIN_WINDOW over whole host-held pages makes them twin-held. A chain end is listed
or withdrawn. The secondary's tick is the primary's row; a primary ignores it. A relayed command is checked and run by the secondary,
an unknown opcode answered INVALID_OPCODE. -/
def Obligations.StackAndTwinMessages : Prop :=
  (∀ (s : State) (p : Fin 10) (c n : Half) (off : BitVec 40),
    let b := s.fuses.ports[p].stack
    (s.fuses.ports[p].role ≠ .stack →
      exec (.temp p c) s = .next s ∧ exec (.eccCorr p n off) s = .next s ∧ exec (.eccUncorr p off) s = .next s) ∧
    (s.fuses.ports[p].role = .stack →
      exec (.temp p c) s = .next (({ s with
        stack := s.stack.set b { s.stack[b] with temp := c }
        selv := { s.selv with readings := s.selv.readings.map fun r => { r with stackT := r.stackT.set b c } } } : State)) ∧
      exec (.eccCorr p n off) s = .next (({ s with
        stack := s.stack.set b { s.stack[b] with
          eccCorr := satAdd s.stack[b].eccCorr n.toNat, events := setBit s.stack[b].events 0 } } : State)) ∧
      (s.stack[b].present = true → ∃ t, exec (.eccUncorr p off) s = .next t ∧
        t.stack = s.stack.set b { s.stack[b] with
          eccUncorr := satAdd s.stack[b].eccUncorr 1, uncorrLast := off.setWidth 64, events := setBit s.stack[b].events 1 } ∧
        s.addrOf b off.toNat / 32 * 32 ∈ t.poison ∧ s.addrOf b off.toNat / 32 * 32 ∈ t.badPages ∧
        (∀ g, g ∈ t.poison ↔ g ∈ s.poison ∨ g = s.addrOf b off.toNat / 32 * 32) ∧ t.pages = s.pages))) ∧
  (∀ (s : State) (v : Fin 64),
    exec (.irq v) s = .next (if s.fuses.shusPcie = true then ({ s with out := s.out ++ [.msix 0 v] } : State) else s)) ∧
  (∀ (s : State) (w : Fin 8) (base size : BitVec 48) (rights : BitVec 3), size ≠ 0 → base.toNat % pageSize = 0 →
    size.toNat % pageSize = 0 → s.region base.toNat = .stack → s.region (base.toNat + size.toNat - 1) = .stack →
    s.castList = [] →
    ((rangeAll s.pages (pageOf base.toNat) (size.toNat / pageSize) fun st => match st with | .hostHeld _ => true | _ => false) = true →
      exec (.twinWindow w base size 0 rights) s = .next (({ s with
        twinWins := s.twinWins ++ [⟨w, base.toNat, size.toNat, 0, rights⟩]
        pages := putRun s.pages (pageOf base.toNat) (size.toNat / pageSize) (.twinHeld w rights) } : State))) ∧
    ((rangeAll s.pages (pageOf base.toNat) (size.toNat / pageSize) fun st => match st with | .hostHeld _ => true | _ => false) = false →
      exec (.twinWindow w base size 0 rights) s = .next s)) ∧
  (∀ (s : State) (w : Fin 8) (base : BitVec 48) (k : Fin 4) (rights : BitVec 3),
    ∃ t, exec (.twinWindow w base 0 k rights) s = .next t ∧
      t.twinWins = s.twinWins.filter fun x => !decide (x.sender = w ∧ x.base = base.toNat)) ∧
  (∀ (s : State) (c : Byte) (pos : BitVec 12) (w : Fin 8) (tenant : Byte),
    let keep := s.twinChains.filter fun x => !decide (x.chain = c ∧ x.position = pos)
    (∃ t, exec (.twinChain c pos w tenant false) s = .next t ∧ t.twinChains = keep ++ [⟨c, pos, w, tenant⟩] ∧ t.chans = s.chans ∧
      t.mem = s.mem) ∧
    (∃ t, exec (.twinChain c pos w tenant true) s = .next t ∧ t.twinChains = keep ∧ t.out = s.out ∧ t.mem = s.mem ∧
      t.chans.map (fun f => (f.swatch, f.chan, f.fifo)) = s.chans.map fun f => (f.swatch, f.chan, f.fifo))) ∧
  (∀ (s : State) (row : DWord),
    (s.fuses.primary = true ∨ s.selv.ready = false → exec (.twinTick row) s = .next s) ∧
    (s.fuses.primary = false → s.selv.ready = true → s.tripped = false →
      let t := State.runTick { s with tick := { s.tick with count := row } }
      exec (.twinTick row) s = .next (match t.twinPort with
        | some p => t.sendMsg p 0x31 (padTo 32 (leBytes 8 row.toNat))
        | none => t))) ∧
  (∀ (s : State) (op : Half) (x : RelayEntry),
    let e := x.entry
    (s.fuses.primary = true ∨ s.selv.ready = false → exec (.relayCmd op x) s = .next s) ∧
    (s.fuses.primary = false → s.selv.ready = true →
      (∀ c ∈ allCmds, c.op = op.toNat → exec (.relayCmd op x) s = .next (c.run x.scope.val (e.ref true 0) e s)) ∧
      ((∀ c ∈ allCmds, c.op ≠ op.toNat) → exec (.relayCmd op x) s = .next (s.reply (e.ref true 0) stInvalidOpcode))))

/-- At a STACK port that is up, a request that is not 32-byte aligned answers 3, beyond the 24 GiB 2, on a lost stack 1. One granule in
range is read back, written whole, written where the mask has a bit, or added to; no other byte of memory changes; a masked write or an
atomic add to an uncorrectable granule answers 1 and writes nothing. Register requests to a base die answer 3; on a SHUS port an address
that is no Shuskaub register answers 2. A response without its tag is a protocol error, one of the right kind completes the access. PLY
enters a matched twin channel with the shift it carries, and is dropped elsewhere. A port that is down serves nothing. A request of this
die for such a port waits in its class's FIFO, whose size is a multiple of 64 and at least 128; a grant goes to a waiting head, and to one
that a reservation covers where there is one. -/
def Obligations.TransactionsServed : Prop :=
  (∀ (s : State) (h : TxnHead) (m : Vector Byte 32) (d : List Byte) (op : Fin 8) (fw : Bool) (g : Vector Byte 32),
    s.portUp h.port = false →
    exec (.rd h) s = .next s ∧ exec (.wr h d) s = .next s ∧ exec (.wrMask h m d) s = .next s ∧ exec (.atomAdd h op d) s = .next s ∧
    exec (.rdReg h fw) s = .next s ∧ exec (.wrReg h fw g) s = .next s ∧ exec (.rdRsp h d) s = .next s ∧
    exec (.wrAck h) s = .next s ∧ exec (.errRsp h) s = .next s ∧ exec (.ply h d) s = .next s) ∧
  (∀ (s : State) (h : TxnHead) (m : Vector Byte 32) (d : List Byte) (op : Fin 8) (code : Nat),
    s.portUp h.port = true → s.fuses.ports[h.port].role = .stack →
    (code = 3 ∧ h.addr.toNat % 32 ≠ 0 ∨ code = 2 ∧ h.addr.toNat % 32 = 0 ∧ 0x600000000 < h.addr.toNat + txnBytes h ∨
      code = 1 ∧ h.addr.toNat % 32 = 0 ∧ h.addr.toNat + txnBytes h ≤ 0x600000000 ∧ s.stack[s.fuses.ports[h.port].stack].lost = true) →
    let answer := Host.Outcome.next (φ := Fault) (ρ := Refusal) (s.emit (.txn 0x0A 0
      { h with len := 0, poison := false, addr := BitVec.ofNat 40 code } []))
    exec (.rd h) s = answer ∧ exec (.wr h d) s = answer ∧ exec (.wrMask h m d) s = answer ∧ exec (.atomAdd h op d) s = answer) ∧
  (∀ (s : State) (h : TxnHead), s.portUp h.port = true → s.fuses.ports[h.port].role = .stack → h.addr.toNat % 32 = 0 →
    h.addr.toNat + 32 ≤ 0x600000000 → s.stack[s.fuses.ports[h.port].stack].lost = false → h.len = 0 →
    let a := s.addrOf s.fuses.ports[h.port].stack h.addr.toNat
    let ack : Out := .txn 9 0 { h with len := 0, poison := false, addr := 0 } []
    (s.isBad a = false → exec (.rd h) s = .next (s.emit
      (.txn 8 0 { h with poison := false, addr := 0 } ((memRead s.mem a 32).map some)))) ∧
    (∀ d : List Byte, d.length = 32 → h.poison = false → s.poison = [] → ∃ t, exec (.wr h d) s = .next t ∧
      t.out = s.out ++ [ack] ∧ t.poison = [] ∧
      ∀ j, memGet t.mem j = if a ≤ j ∧ j < a + 32 then d.getD (j - a) 0 else memGet s.mem j) ∧
    (∀ (m : Vector Byte 32) (d : List Byte), s.poison = [] → s.onLost a = false → ∃ t, exec (.wrMask h m d) s = .next t ∧
      t.out = s.out ++ [ack] ∧
      ∀ j, memGet t.mem j =
        if a ≤ j ∧ j < a + 32 ∧ (m.toList.getD ((j - a) / 8) 0).getLsbD ((j - a) % 8) = true then d.getD (j - a) 0
        else memGet s.mem j) ∧
    (∀ (m : Vector Byte 32) (d : List Byte) (op : Fin 8), s.isBad a = true →
      let bad := Host.Outcome.next (φ := Fault) (ρ := Refusal) (s.emit (.txn 0x0A 0 { h with len := 0, poison := false, addr := 1 } []))
      ((∃ i : Fin 32, (m.toList.getD (i.val / 8) 0).getLsbD (i.val % 8) = true) → exec (.wrMask h m d) s = bad) ∧
      (op.val ≤ 3 → exec (.atomAdd h op d) s = bad)) ∧
    (∀ d : List Byte, d.length = 32 → s.poison = [] → s.isBad a = false → ∃ t, exec (.atomAdd h 0 d) s = .next t ∧
      t.out = s.out ++ [ack] ∧
      (∀ i : Fin 8, leNat (memRead t.mem (a + 4 * i.val) 4) =
        (leNat (memRead s.mem (a + 4 * i.val) 4) + leAt d (4 * i.val) 4) % 2 ^ 32) ∧
      ∀ j, ¬ (a ≤ j ∧ j < a + 32) → memGet t.mem j = memGet s.mem j)) ∧
  (∀ (s : State) (h : TxnHead) (fw : Bool) (g : Vector Byte 32), s.portUp h.port = true →
    let answer := fun (code : Nat) => Host.Outcome.next (φ := Fault) (ρ := Refusal)
      (s.emit (.txn 0x0A 0 { h with len := 0, poison := false, addr := BitVec.ofNat 40 code } []))
    (s.fuses.ports[h.port].role = .stack → exec (.rdReg h fw) s = answer 3 ∧ exec (.wrReg h fw g) s = answer 3) ∧
    (s.fuses.ports[h.port].role = .shus →
      (h.addr.toNat % 4 ≠ 0 ∨ s.onShuskaub h.addr.toNat = false →
        exec (.rdReg h fw) s = answer 2 ∧ exec (.wrReg h fw g) s = answer 2) ∧
      (h.addr.toNat % 4 = 0 → s.onShuskaub h.addr.toNat = true →
        exec (.rdReg h fw) s = .next ((s.regRead .firmware h.addr.toNat).1.emit (.txn 8 0
          { h with len := 0, poison := false, addr := 0 }
          ((padTo 32 (leBytes 4 (s.regRead .firmware h.addr.toNat).2.toNat)).map some))) ∧
        exec (.wrReg h fw g) s = .next ((s.regWrite .firmware h.addr.toNat (BitVec.ofNat 32 (leAt g.toList 0 4))).emit (.txn 9 0
          { h with len := 0, poison := false, addr := 0 } []))))) ∧
  (∀ (s : State) (h : TxnHead) (d : List Byte), s.portUp h.port = true → h.poison = false →
    let wrong := Host.Outcome.next (φ := Fault) (ρ := Refusal) (s.protocolError h.port)
    (s.byTag h.port h.tag = none → exec (.rdRsp h d) s = wrong ∧ exec (.wrAck h) s = wrong ∧ exec (.errRsp h) s = wrong) ∧
    (∀ a, s.byTag h.port h.tag = some a →
      (a.reads = true → exec (.wrAck h) s = wrong ∧
        exec (.rdRsp h d) s = .next ((s.complete a none d).afterAnswer h.port) ∧
        exec (.errRsp h) s = .next ((s.complete a (some (if h.addr.toNat % 256 = 1 then 5 else 9)) []).afterAnswer h.port)) ∧
      (a.reads = false → exec (.rdRsp h d) s = wrong ∧
        exec (.wrAck h) s = .next ((s.complete a none []).afterAnswer h.port)))) ∧
  (∀ (s : State) (h : TxnHead) (d : List Byte), s.portUp h.port = true →
    (s.fuses.ports[h.port].role ≠ .twin ∨ s.plyChan h.addr.toNat = none → exec (.ply h d) s = .next s) ∧
    (∀ (i : Fin 8) (c : Byte), s.fuses.ports[h.port].role = .twin → s.plyChan h.addr.toNat = some (i, c) →
      (h.addr.getLsbD 24 = false →
        exec (.ply h d) s = exec (.stitchEntryArrival i c (BitVec.ofNat 12 h.addr.toNat) (toVec 64 d)) s) ∧
      (h.addr.getLsbD 24 = true → exec (.ply h d) s =
        .next (s.entryArrives i c (BitVec.ofNat 12 h.addr.toNat) (some (BitVec.ofNat 8 (fld h.addr 23 16))) (toVec 64 d))))) ∧
  (∀ (s : State) (c : TClass) (p : Fin 10), s.fifoBytes c p % 64 = 0 ∧ 128 ≤ s.fifoBytes c p) ∧
  (∀ (s : State) (heads : List Inj) (force : Bool) (g : Grants) (r : Inj × Grants), s.grantIn heads force g = some r →
    let covered (x : Inj) : Prop := ∃ i, x.cls = .swatch i ∧ x.bytes ≤ g.res[i]
    r.1 ∈ heads ∧ ((∃ x ∈ heads, covered x) → covered r.1 ∧ r.2.drr = g.drr ∧
      ∀ i, r.1.cls = .swatch i → r.2.res[i] = g.res[i] - r.1.bytes)) ∧
  (∀ (s : State) (who : Who) (p : Fin 10) (wire addr : Nat) (op : AccOp) (dest : Dest) (c : TClass) (pc : Nat),
    s.portUp p = false → s.gauge.fifo = [] →
    let t := s.sendAccess who p wire addr op dest c pc
    t.gauge.fifo.map Inj.id = [s.nextAccess] ∧ t.gauge.fifo.map Inj.cls = [c] ∧ t.out = s.out ∧ t.mem = s.mem ∧
    t.accesses.map Access.id = s.accesses.map Access.id ++ [s.nextAccess])

/-- A request for the state in force answers OK with nothing else done; one during a transition is deferred and turns away the one
deferred before; one that starts a transition follows an arrow of the table, and Burst needs no recovery left, no thermal step and the
entry temperatures. A transition ends, once every exchange it waits for has ended, in its target state, answering its request; entering
Burst opens a window of 2 s. On a die with Shuskaub a hem event requests Sentinel only in Selvage or on the way there, if enabled.
Powered skeins run at the wanted P-point the rail allows, those of running hard swatches changing at a tick only, the rail stays at or
above every P-point in force, and a finished ramp raises it. -/
def Obligations.DeviceStateTransitions : Prop :=
  (∀ (e : Entry) (s s1 : State), Accepts cmdSetDeviceState e s s1 → (s.fuses.twin = false ∨ s.fuses.primary = true) →
    exec (.setDeviceState e) s =
      .next (State.request (s1.inFlight (refOf e s1) 2 e) (DevSt.ofCode (e.u 8 1)) (some (refOf e s1)))) ∧
  (∀ (s : State) (d : DevSt) (r : CmdRef),
    (s.selv.trans = none → d = s.selv.st → s.request d (some r) = s.ok r [(20, 1, d.code.toNat)]) ∧
    (s.selv.trans.isSome = true →
      (s.request d (some r)).selv.deferred = some ⟨d, some r⟩ ∧ (s.request d (some r)).selv.trans = s.selv.trans ∧
      (s.request d (some r)).selv.st = s.selv.st) ∧
    (s.selv.trans = none → d ≠ s.selv.st →
      (∀ x, s.requestBad d = some x → s.request d (some r) = s.reply r x.1 x.2) ∧
      (s.requestBad d = none → (s.request d (some r)).selv.trans = some ⟨d, some r, false⟩ ∧
        (s.request d (some r)).selv.st = s.selv.st ∧
        (s.selv.st, d) ∈ [(DevSt.selvage, DevSt.sentinel), (.selvage, .loose), (.selvage, .taut), (.sentinel, .selvage),
          (.sentinel, .loose), (.sentinel, .taut), (.loose, .taut), (.taut, .loose), (.loose, .sentinel), (.taut, .sentinel),
          (.loose, .selvage), (.taut, .selvage), (.taut, .burst), (.burst, .taut)])) ∧
    (s.selv.st = .taut → s.requestBad .burst = none →
      s.selv.recoveryLeft = 0 ∧ s.selv.thermalStep = 0 ∧ s.cooler 85 80 = true) ∧
    (s.selv.st = .taut → s.rep.run = none → ¬ (s.selv.recoveryLeft = 0 ∧ s.selv.thermalStep = 0 ∧ s.cooler 85 80 = true) →
      s.requestBad .burst = some (stPowerLimit, 0))) ∧
  (∀ s : State, (s.selv.trans = none → exec .deviceStateTransitionEnd s = .next s) ∧
    (s.transitionReady = false → exec .deviceStateTransitionEnd s = .next s) ∧
    (∀ (d : DevSt) (c : Option CmdRef) (f : Bool), s.selv.trans = some ⟨d, c, f⟩ → s.transitionReady = true →
      s.selv.deferred = none →
      let t := State.enter { s with selv := { s.selv with trans := none } } d
      t.selv.st = d ∧ t.selv.trans = none ∧ (d = .burst → t.selv.windowLeft = 2000) ∧
      (c = none → exec .deviceStateTransitionEnd s = .next t) ∧
      (∀ r, c = some r → exec .deviceStateTransitionEnd s =
        .next (t.reply r stOk 0 [(20, 1, d.code.toNat)] (if f then 1 else 0))))) ∧
  (∀ (s : State) (src : HemSource),
    let bit : Nat := match src with | .gpio => 0 | .soundwire => 1 | .outerChain => 2
    (s.shuskaub = true → s.selv.ready = true → s.selv.wake.getLsbD bit = true → s.selv.wake.getLsbD 3 = true →
      s.selv.st = .selvage ∨ s.selv.trans.map Transition.target = some .selvage →
      exec (.hemEvent src) s = .next (s.request .sentinel none)) ∧
    (s.shuskaub = false ∨ s.selv.ready = false ∨ s.selv.wake.getLsbD bit = false ∨ s.selv.wake.getLsbD 3 = false ∨
        (s.selv.st ≠ .selvage ∧ s.selv.trans.map Transition.target ≠ some .selvage) →
      exec (.hemEvent src) s = .next s)) ∧
  (∀ s : State, (s.selv.ramp = none → exec .railRampDone s = .next s) ∧
    (∀ r, s.selv.ramp = some r → exec .railRampDone s =
      .next (State.answerPp (State.repower { s with selv := { s.selv with rail := r, ramp := none } } false)))) ∧
  (∀ (s : State) (k : Fin 16) (tick : Bool),
    let on := if s.rep.run.isSome then s.mapMask else s.wantOn s.selv.st
    let hard := s.powered k && on.getLsbD k.val && match s.swatchOf k with
      | some i => s.swatches[i].cls = .hard && (s.swatches[i].st = .knitting || s.swatches[i].st = .frogged)
      | none => false
    (s.repower tick).selv.skeinsOn = on ∧
    (hard = true → tick = false → (s.repower tick).selv.ppoint[k] = s.selv.ppoint[k]) ∧
    (hard = false ∨ tick = true →
      (s.repower tick).selv.ppoint[k].toNat = if on.getLsbD k.val then min (s.wantPp k) s.selv.rail.toNat else 0) ∧
    (s.repower tick).selv.ppoint[k].toNat ≤ (s.repower tick).selv.rail.toNat)

/-- NOP answers OK. QUERY_DEVICE answers status, faults, assembly, map, census, interface version, tick period and count;
QUERY_POWER power, temperature, Burst, P-points and budget. SET_BUDGET stores its value clamped to 6,000 to 40,000 mW with its lock and
answers it; SET_WAKE stores its word. RESTART is accepted with its census kind and answers before it restarts. Nothing else of the state
changes but the rings that carry the answer. -/
def Obligations.DeviceQueriesAndSettings : Prop :=
  ∀ (e : Entry) (s s1 : State),
    let r := refOf e s1
    (Accepts cmdNop e s s1 → exec (.nop e) s = .next (s1.ok r)) ∧
    (Accepts cmdQueryDevice e s s1 → exec (.queryDevice e) s = .next (s1.ok r [(20, 4, s1.statusWord.toNat),
      (24, 4, s1.selv.fault.toNat), (28, 4, s1.fuses.assemblyWord.toNat), (32, 4, s1.map.summaryWord.toNat),
      (36, 4, s1.selv.censusWord.toNat), (40, 4, Config.ifVersion.toNat), (44, 4, s1.tick.period.toNat),
      (48, 8, s1.tick.count.toNat)])) ∧
    (Accepts cmdQueryPower e s s1 → exec (.queryPower e) s = .next (s1.ok r [(20, 4, s1.selv.powerWord.toNat),
      (24, 4, s1.selv.tempWord.toNat), (28, 4, s1.selv.burstWord.toNat), (32, 4, s1.selv.ppointWord.toNat),
      (36, 4, s1.selv.budgetWord.toNat)])) ∧
    (Accepts cmdSetBudget e s s1 →
      let b := max 6000 (min 40000 (e.u 8 4))
      exec (.setBudget e) s = .next (State.ok { s1 with
        selv := { s1.selv with budget := BitVec.ofNat 16 b, budgetLock := decide (e.u 12 1 = 1) } } r [(20, 4, b)])) ∧
    (Accepts cmdSetWake e s s1 → exec (.setWake e) s = .next (State.ok { s1 with
        selv := { s1.selv with wake := BitVec.ofNat 32 (e.u 8 4) } } r [(20, 4, e.u 8 4)])) ∧
    (Accepts cmdRestart e s s1 → exec (.restart e) s = .next (State.ok { s1 with
        selv := { s1.selv with restartCmd := true }
        boot := { s1.boot with forceFull := match e.u 8 1 with
          | 1 => some false
          | 2 => some true
          | _ => none } } r))

/-- Above the budget one lowerable skein, of a free swatch before a loose one, loses a P-point and the fault bit is set; more than 10%
below, without a thermal step, one lowered skein is raised; between, only the average is noted. A Burst window counts down by the
millisecond, sends one P3 skein to P2 above 62 W, and ends with its energy counted and four times its length of recovery. Readings
below every limit are only noted; at 95 or 88 °C step 1 begins, at 105 or 98 °C every cast swatch is Held, every grant ended and Selvage
entered, at 120 °C the trip falls. Step 2 lowers the hottest skein of the lowest class; below the release figures a step ends and one
lowered skein at a time is raised. Which of several skeins is picked is free (log 11). -/
def Obligations.PowerAndThermalLimits : Prop :=
  (∀ (s : State) (avg : Word),
    let b := s.selv.budget.toNat
    let noted : State := { s with selv := { s.selv with avg1s := BitVec.ofNat 16 (min 0xFFFF avg.toNat) } }
    let ks := if (s.lowerable .free).isEmpty then s.lowerable .loose else s.lowerable .free
    (s.selv.ready = false → exec (.budgetLimiter avg) s = .next s) ∧
    (s.selv.ready = true → avg.toNat ≤ b → b * 9 ≤ avg.toNat * 10 ∨ s.selv.thermalStep ≠ 0 →
      exec (.budgetLimiter avg) s = .next noted) ∧
    (s.selv.ready = true → b < avg.toNat → ks = [] → exec (.budgetLimiter avg) s =
      .next ({ noted with selv := { noted.selv with fault := setBit s.selv.fault 11 } } : State)) ∧
    (s.selv.ready = true → b < avg.toNat → ks ≠ [] → ∃ t, ∃ k ∈ ks, exec (.budgetLimiter avg) s = .next t ∧
      t.selv.fault = setBit s.selv.fault 11 ∧ t.selv.limited = s.selv.limited.set k (s.selv.limited[k] + 1)) ∧
    (s.selv.ready = true → avg.toNat * 10 < b * 9 → s.selv.thermalStep = 0 → (∃ k : Fin 16, 0 < s.selv.limited[k]) →
      ∃ t, ∃ k : Fin 16, 0 < s.selv.limited[k] ∧ exec (.budgetLimiter avg) s = .next t ∧
        t.selv.limited = s.selv.limited.set k (s.selv.limited[k] - 1) ∧ t.selv.fault = s.selv.fault ∧ t.out = s.out)) ∧
  (∀ (s : State) (avg : Word) (j : Nat),
    let noted : State := { s with selv := { s.selv with avg1ms := BitVec.ofNat 16 (min 0xFFFF avg.toNat) } }
    (s.selv.st ≠ .burst → exec (.burstPowerCheck avg) s = .next noted) ∧
    (s.selv.st = .burst → avg.toNat ≤ 62000 → exec (.burstPowerCheck avg) s = .next ({ noted with selv := { noted.selv with
      windowLeft := s.selv.windowLeft - (if s.selv.windowLeft = 0 then 0 else 1)
      windowUsed := min 2000 (s.selv.windowUsed + 1) } } : State)) ∧
    (s.selv.st = .burst → 62000 < avg.toNat → (∃ k : Fin 16, s.powered k = true ∧ s.selv.ppoint[k] = 3) →
      ∃ t, ∃ k : Fin 16, s.powered k = true ∧ s.selv.ppoint[k] = 3 ∧ exec (.burstPowerCheck avg) s = .next t ∧
        t.selv.capped = setBit s.selv.capped k.val ∧ t.mem = s.mem) ∧
    (¬ (s.selv.st = .burst ∧ s.selv.trans = none) → exec (.burstWindowEnd j) s = .next s) ∧
    (s.selv.st = .burst → s.selv.trans = none → ∃ t, exec (.burstWindowEnd j) s = .next t ∧
      t.selv.trans = some ⟨.taut, none, false⟩ ∧ t.selv.recoveryLeft = 8000 ∧ t.selv.windowLeft = 0 ∧
      t.selv.burstJoules = (s.selv.burstJoules + j) % 1000 ∧
      (s.selv.burstJoules + j < 1000 → t.tally = s.tally)) ∧
    exec .burstRecoveryEnd s = .next ({ s with selv := { s.selv with recoveryLeft := 0 } } : State)) ∧
  (∀ (s : State) (r : Readings),
    (s.selv.spwrok = false → exec (.sensorSample r) s = .next s) ∧
    (s.selv.spwrok = true → r.die < 95 → r.stackMax < 88 → exec (.sensorSample r) s = .next ({ s with
      selv := { s.selv with readings := some r, hottest := BitVec.ofInt 16 r.die } } : State)) ∧
    (s.selv.spwrok = true → s.selv.ready = true → (95 ≤ r.die ∨ 88 ≤ r.stackMax) → r.die < 100 → r.stackMax < 92 →
      ∃ t, exec (.sensorSample r) s = .next t ∧ t.selv.thermalStep = (if s.selv.thermalStep = 0 then 1 else s.selv.thermalStep) ∧
        t.selv.readings = some r ∧ (s.selv.st = .burst → s.selv.trans = none → s.selv.thermalStep = 0 →
          t.selv.trans = some ⟨.taut, none, false⟩ ∧ t.selv.fault = setBit s.selv.fault 12)) ∧
    (s.selv.spwrok = true → s.selv.ready = true → (105 ≤ r.die ∨ 98 ≤ r.stackMax) → s.selv.st ≠ .selvage → s.selv.trans = none →
      ∃ t, exec (.sensorSample r) s = .next t ∧ t.selv.trans = some ⟨.selvage, none, false⟩ ∧ t.selv.thermalStep = 2 ∧
        t.grants = [] ∧ (∀ i : Fin 8, s.swatches[i].st = .cast ∨ s.swatches[i].st = .knitting ∨ s.swatches[i].st = .frogged →
          t.swatches[i].st = .held ∧ t.swatches[i].causes = [BitVec.ofNat 8 stThermal])) ∧
    (s.selv.spwrok = true → s.selv.thermtripN = true → 120 ≤ r.die →
      ∃ t, exec (.sensorSample r) s = .next t ∧ t.selv.thermtripN = false ∧ .thermtrip ∈ t.out)) ∧
  (∀ s : State,
    let ks := if (s.lowerable .free).isEmpty then (if (s.lowerable .loose).isEmpty then s.lowerable .hard else s.lowerable .loose)
      else s.lowerable .free
    (s.selv.thermalStep ≠ 2 ∨ ks = [] → exec .thermalStep2Lower s = .next s) ∧
    (s.selv.thermalStep = 2 → ks ≠ [] → ∃ t, ∃ k ∈ ks, exec .thermalStep2Lower s = .next t ∧
      (∀ j ∈ ks, s.tempOf j ≤ s.tempOf k) ∧ t.selv.throttled = s.selv.throttled.set k (s.selv.throttled[k] + 1)) ∧
    (s.selv.thermalStep = 0 → exec .thermalStepRelease s = .next s) ∧
    (s.selv.thermalStep = 1 → exec .thermalStepRelease s =
      .next (if s.cooler 90 83 then ({ s with selv := { s.selv with thermalStep := 0 } } : State) else s)) ∧
    (s.selv.thermalStep = 2 → s.cooler 95 87 = false → exec .thermalStepRelease s = .next s) ∧
    (s.selv.thermalStep = 2 → s.cooler 95 87 = true → exec .thermalStepRelease s = .next ({ s with
      selv := { s.selv with thermalStep := if s.cooler 90 83 then 0 else 1, raising := true } } : State)) ∧
    (s.selv.raising = false ∨ s.selv.thermalStep = 2 → exec .thermalRaise s = .next s) ∧
    (s.selv.raising = true → s.selv.thermalStep ≠ 2 →
      ((∀ k : Fin 16, s.selv.throttled[k] = 0) → exec .thermalRaise s = .next ({ s with
        selv := { s.selv with raising := false } } : State)) ∧
      ((∃ k : Fin 16, 0 < s.selv.throttled[k]) → ∃ t, ∃ k : Fin 16, 0 < s.selv.throttled[k] ∧ exec .thermalRaise s = .next t ∧
        t.selv.throttled = s.selv.throttled.set k (s.selv.throttled[k] - 1) ∧ t.mem = s.mem ∧ t.out = s.out)))

/-- Ring control acts for the owning function alone. Enabling an OFF ring with a valid configuration empties it and starts its rise;
with an invalid one it stops with CONFIG. The rise ends ON, or FALLING if a disable waits; a quiet FALLING ring is OFF, a busy one goes
on. A doorbell of an ON ring moves its index if it is inside the ring and stops the ring with INDEX if not; during RISING it is
recorded; for an OFF, FALLING or distaff-owned ring, and before READY, it is dropped and counted. A memory fault stops an ON ring. A
held-off signal follows the interval's end if one is due. An undefined opcode is answered so, or goes to the other die. A relayed reply
ends its command, and one of a bind-off stops that swatch's rings first. -/
def Obligations.RingLife : Prop :=
  (∀ (s : State) (f : Fin 2) (r : RingId),
    (s.mayControl f r = false → exec (.ringEnable f r) s = .next s ∧ exec (.ringDisable f r) s = .next s) ∧
    (s.mayControl f r = true → exec (.ringDisable f r) s = .next (s.modRingFsm r EnFsm.disable) ∧
      ((s.ringFsm r).st ≠ .off → exec (.ringEnable f r) s = .next (s.modRingFsm r EnFsm.enable))) ∧
    (∀ i, r = .sq i → s.mayControl f r = true → s.sqs[i].fsm.st = .off →
      (s.sqValid i = true → exec (.ringEnable f r) s = .next (({ s with sqs := s.sqs.set i { s.sqs[i] with
        fsm := ⟨true, .rising, false, false⟩, error := false, faultKind := 0, head := 0, tail := 0, inflight := 0
        rung := false, fenced := false, epoch := s.sqs[i].epoch + 1 } } : State))) ∧
      (s.sqValid i = false → ∃ t, exec (.ringEnable f r) s = .next t ∧ t.sqs = s.sqs.set i { s.sqs[i] with
        fsm := { s.sqs[i].fsm with en := true }, error := true, faultKind := 1 } ∧
        t.fns[s.ringFn i].ringFault = setBit s.fns[s.ringFn i].ringFault i.val)) ∧
    (∀ j, r = .cq j → s.mayControl f r = true → s.cqs[j].fsm.st = .off → s.cqValid j = true →
      exec (.ringEnable f r) s = .next (({ s with cqs := s.cqs.set j { s.cqs[j] with
        fsm := ⟨true, .rising, false, false⟩, error := false, faultKind := 0, head := 0, tail := 0, phase := true
        rung := false, holdoff := false, due := false, held := [] } } : State)))) ∧
  (∀ (s : State) (r : RingId),
    ((s.ringFsm r).st ≠ .rising → exec (.ringFrontEndReady r) s = .next s) ∧
    ((s.ringFsm r).st ≠ .falling → exec (.ringQuiesced r) s = .next s) ∧
    ((s.ringFsm r).st ≠ .on → exec (.ringAccessFault r) s = .next s) ∧
    ((s.ringFsm r).st = .rising → (s.ringFsm r).pendDis = true →
      exec (.ringFrontEndReady r) s = .next (s.modRingFsm r fun x => { x with st := .falling, pendDis := false }))) ∧
  (∀ (s : State) (i : Fin 16), let q := s.sqs[i]
    (q.fsm.st = .rising → q.fsm.pendDis = false →
      (q.rung = false → exec (.ringFrontEndReady (.sq i)) s =
        .next (({ s with sqs := s.sqs.set i { q with fsm := { q.fsm with st := .on } } } : State))) ∧
      (q.rung = true → q.doorbell.toNat < ringSize q.cfg → exec (.ringFrontEndReady (.sq i)) s =
        .next (({ s with sqs := s.sqs.set i { q with
          fsm := { q.fsm with st := .on }, tail := q.doorbell, rung := false } } : State)))) ∧
    (q.fsm.st = .falling → q.inflight ≠ 0 → exec (.ringQuiesced (.sq i)) s = .next s) ∧
    (q.fsm.st = .falling → q.inflight = 0 → q.fsm.pendEn = false → exec (.ringQuiesced (.sq i)) s =
      .next (({ s with sqs := s.sqs.set i { q with
        fsm := ⟨false, .off, false, false⟩, error := false, faultKind := 0 } } : State))) ∧
    (q.fsm.st = .on → ∃ t, exec (.ringAccessFault (.sq i)) s = .next t ∧
      t.sqs = s.sqs.set i { q with error := true, faultKind := 3 } ∧ t.pages = s.pages)) ∧
  (∀ (s : State) (f : Fin 2) (i : Fin 16) (v : Word), s.fnExists f = true → s.fns[f].d3hot = false →
    let counted : State := { s with selv := { s.selv with badAccess := satAdd s.selv.badAccess 1 } }
    (s.selv.ready = false → exec (.sqDoorbell f i v) s = .next counted ∧ exec (.cqDoorbell f i v) s = .next counted) ∧
    (s.selv.ready = true → s.ringFn i ≠ f → exec (.sqDoorbell f i v) s = .next s ∧ exec (.cqDoorbell f i v) s = .next s) ∧
    (s.selv.ready = true → s.ringFn i = f →
      (s.sqs[i].distaffOwned = true ∨ s.sqs[i].fsm.st = .off ∨ s.sqs[i].fsm.st = .falling →
        exec (.sqDoorbell f i v) s = .next counted) ∧
      (s.cqs[i].distaffOwned = true ∨ s.cqs[i].fsm.st = .off ∨ s.cqs[i].fsm.st = .falling →
        exec (.cqDoorbell f i v) s = .next counted) ∧
      (s.sqs[i].distaffOwned = false → s.sqs[i].fsm.st = .rising → exec (.sqDoorbell f i v) s = .next (({ s with
        sqs := s.sqs.set i { s.sqs[i] with doorbell := v.setWidth 16, rung := true } } : State))) ∧
      (s.sqs[i].distaffOwned = false → s.sqs[i].fsm.st = .on →
        (v.toNat % 65536 < ringSize s.sqs[i].cfg → exec (.sqDoorbell f i v) s = .next (({ s with
          sqs := s.sqs.set i { s.sqs[i] with doorbell := v.setWidth 16, tail := v.setWidth 16, rung := false } } : State))) ∧
        (ringSize s.sqs[i].cfg ≤ v.toNat % 65536 → ∃ t, exec (.sqDoorbell f i v) s = .next t ∧
          t.sqs[i].error = true ∧ t.sqs[i].faultKind = 2 ∧ t.sqs[i].tail = s.sqs[i].tail)) ∧
      (s.cqs[i].distaffOwned = false → s.cqs[i].fsm.st = .on → s.cqs[i].held = [] → (∀ g : Fin 2, s.fns[g].events = []) →
        let c := s.cqs[i]
        let n := ringSize c.cfg
        v.toNat % 65536 < n → (v.toNat % 65536 + n - c.head.toNat) % n ≤ (c.tail.toNat + n - c.head.toNat) % n →
        exec (.cqDoorbell f i v) s = .next (({ s with
          cqs := s.cqs.set i { c with doorbell := v.setWidth 16, head := v.setWidth 16, rung := false } } : State))))) ∧
  (∀ (s : State) (j : Fin 16),
    (s.cqs[j].holdoff = false → exec (.holdoffExpiry j) s = .next s) ∧
    (s.cqs[j].holdoff = true → s.cqs[j].due = false → exec (.holdoffExpiry j) s =
      .next (({ s with cqs := s.cqs.set j { s.cqs[j] with holdoff := false } } : State))) ∧
    (s.cqs[j].holdoff = true → s.cqs[j].due = true → exec (.holdoffExpiry j) s =
      .next (State.cqSignal { s with cqs := s.cqs.set j { s.cqs[j] with holdoff := false } } j))) ∧
  (∀ (op : Half) (e : Entry) (s s1 : State),
    (s.takeEntry e = none → exec (.undefinedOpcode op e) s = .next (s.noteFence e)) ∧
    (s.takeEntry e = some s1 →
      ((s1.sqs[e.sq]).cfg.getLsbD 12 = false → exec (.undefinedOpcode op e) s = .next (s1.reply (refOf e s1) stInvalidOpcode)) ∧
      ((s1.sqs[e.sq]).cfg.getLsbD 12 = true → exec (.undefinedOpcode op e) s = .next (s1.relay op.toNat e)))) ∧
  (∀ (s : State) (b : Vector Byte 64) (i : Fin 16),
    (s.jobs = [] → exec (.relayRsp b i false) s = .next s) ∧
    (∀ (r : CmdRef) (op : Half) (l : List Byte), s.jobs = [(r, op, l)] → r.sq = i → r.cmdId.toNat = leAt b.toList 0 2 →
      s.sqs[i].cfg.getLsbD 12 = true → s.tick.twinDone = none →
        let x : CEntry := { CEntry.ofBytes b.toList r.noIrq with sqId := BitVec.ofNat 8 i.val }
        (op ≠ 0x105 ∨ x.status ≠ 0 → exec (.relayRsp b i false) s = .next (s.finish r x)) ∧
        (op = 0x105 → x.status = 0 → exec (.relayRsp b i false) s = .next ((s.faultRings r.swatch.toNat true).finish r x)))) ∧
  (∀ (s : State) (b : Vector Byte 64) (i : Fin 16), s.fuses.hostPorts ≠ 2 →
    exec (.relayRsp b i true) s = .next (s.eventTo 0 ⟨b[20], b[21], b[2], BitVec.ofNat 16 (leAt b.toList 22 2),
      BitVec.ofNat 64 (leAt b.toList 24 8), BitVec.ofNat 64 (leAt b.toList 8 8), true⟩)) ∧
  (∀ (s : State) (row : DWord),
    (s.tick.twinDone ≠ some row → exec (.tickDone row) s = .next s) ∧
    (s.tick.twinDone = some row → s.tick.twinHeld = [] → exec (.tickDone row) s =
      .next (({ s with tick := { s.tick with twinDone := none, twinHeld := [] } } : State))))

/-- A reset of a function, hot reset and a HOST link down alike, puts its rings and windows to their reset values in a new epoch,
revokes its grants and holds every swatch with a host window; it lasts until it is complete. D3hot of the function host
traffic goes through holds them too, without touching the
rings, and a function in D3hot stays in it until D0. An unmasked vector that is pending is signalled once, not before READY. A BAR4 read or write
is served where the host scope reaches, writes exactly its bytes, and elsewhere reads all ones or is dropped, and is counted; in the
twin window it goes to the other die. Shuskaub's link coming down resets function 0 where that is the host's. -/
def Obligations.FunctionResetsAndBar4 : Prop :=
  (∀ (s : State) (f : Fin 2),
    let held := fun (t : State) => ∀ i : Fin 8,
      (s.swatches[i].st = .cast ∨ s.swatches[i].st = .knitting ∨ s.swatches[i].st = .frogged) →
      s.swatches[i].hostWindow = true → t.swatches[i].st = .held
    (s.fnExists f = false → exec (.functionLevelReset f) s = .next s ∧ exec (.d3hotEntry f) s = .next s) ∧
    exec (.hotReset f) s = exec (.functionLevelReset f) s ∧
    (s.fnExists f = true → ∃ t, exec (.functionLevelReset f) s = .next t ∧
      (∀ i : Fin 16, s.ringFn i = f → (s.sqs[i].distaffOwned = false →
          t.sqs[i] = { Sq.reset with epoch := s.sqs[i].epoch + 1 }) ∧ (s.cqs[i].distaffOwned = false → t.cqs[i] = Cq.reset)) ∧
      t.fns[f].resetting = true ∧ t.fns[f].bar2Window = 0 ∧ t.fns[f].bar4Base = 0 ∧ t.fns[f].d3hot = false ∧
      t.fns[f].msix = HostFn.reset.msix ∧ t.fns[f].events = [] ∧
      (∀ g ∈ t.grants, g.holder ≠ .host f) ∧ held t) ∧
    (s.fnExists f = true → s.fns[f].d3hot = false → ∃ t, exec (.d3hotEntry f) s = .next t ∧
      t.fns[f].d3hot = true ∧ t.grants = s.grants ∧ (∀ i : Fin 16, t.sqs[i] = s.sqs[i]) ∧
      (s.hostPath ≠ s.fnPort f → t = s.modFn f fun h => { h with d3hot := true }) ∧
      (s.hostPath = s.fnPort f → held t ∧
        ∀ b : Fin 48, s.bobbins[b].bound = true → s.bobbins[b].source = 3 → s.bobbins[b].fsm.st = .on →
          t.bobbins[b].fsm.st = .falling)) ∧
    (s.fns[f].d3hot = true → exec (.d3hotEntry f) s = .next s) ∧
    (s.fns[f].d3hot = false → exec (.d0Return f) s = .next s) ∧
    (s.fns[f].d3hot = true → s.fns[f].pba = 0 → s.fns[f].events = [] → (∀ j : Fin 16, s.ringFn j = f → s.cqs[j].held = []) →
      exec (.d0Return f) s = .next (s.modFn f fun h => { h with d3hot := false })) ∧
    exec (.functionResetComplete f) s = .next (s.modFn f fun h => { h with resetting := false }) ∧
    (∀ p : Fin 10, (s.portFn p = some f → s.fuses.ports[p].role = .host →
        exec (.hostLinkDown p) s = exec (.functionLevelReset f) s) ∧
      (s.fuses.ports[p].role ≠ .host → exec (.hostLinkDown p) s = .next s)) ∧
    (∀ v : Fin 64, s.fnExists f = true → s.fns[f].d3hot = false →
      let h : HostFn := { s.fns[f] with msix := s.fns[f].msix.set v { s.fns[f].msix[v] with mask := false } }
      (s.fns[f].pba.getLsbD v.val = false ∨ s.selv.ready = false →
        exec (.msixUnmask f v) s = .next (({ s with fns := s.fns.set f h } : State))) ∧
      (s.fns[f].pba.getLsbD v.val = true → s.selv.ready = true → exec (.msixUnmask f v) s = .next (({ s with
        fns := s.fns.set f { h with pba := clrBit s.fns[f].pba v.val }, out := s.out ++ [.msix f v] } : State))))) ∧
  (∀ (s : State) (f : Fin 2) (off : BitVec 37) (len : Nat) (d : List Byte),
    let a := s.fns[f].bar4Base.toNat + off.toNat
    let count := fun (s : State) => ({ s with selv := { s.selv with badAccess := satAdd s.selv.badAccess 1 } } : State)
    let here := s.region a ≠ .twin ∨ s.selv.ready = false
    (s.bar4In f off.toNat len = false → exec (.bar4Read f off len) s = .next (s.emit (.barData f false []))) ∧
    (s.bar4In f off.toNat d.length = false → exec (.bar4Write f off d) s = .next s) ∧
    (s.bar4In f off.toNat len = true → here →
      (∀ b, s.hostCheck a len false = .ok b →
        exec (.bar4Read f off len) s = .next (s.emit (.barData f false (memRead s.mem b len)))) ∧
      (s.hostCheck a len false = .refused →
        exec (.bar4Read f off len) s = .next (count (s.emit (.barData f false (List.replicate len 0xFF)))))) ∧
    (s.bar4In f off.toNat d.length = true → d ≠ [] → here →
      (∀ b, s.hostCheck a d.length true = .ok b → s.poison = [] → ∃ t, exec (.bar4Write f off d) s = .next t ∧ t.out = s.out ∧
        t.selv = s.selv ∧ t.pages = s.pages ∧
        ∀ j, memGet t.mem j = if b ≤ j ∧ j < b + d.length then d.getD (j - b) 0 else memGet s.mem j) ∧
      (s.hostCheck a d.length true = .refused → exec (.bar4Write f off d) s = .next (count s))) ∧
    (∀ p, s.twinPort = some p → s.region a = .twin → s.selv.ready = true →
      (s.bar4In f off.toNat len = true → exec (.bar4Read f off len) s = .next ((pieces a len len).foldl (fun s x =>
        s.sendAccess (.host f) p (x.1 - twinBase) x.1 (.read x.2) .none .mgmt) s)) ∧
      (s.bar4In f off.toNat d.length = true → d ≠ [] → exec (.bar4Write f off d) s =
        .next ((pieces a d.length d.length).foldl (fun s x => s.sendAccess (.host f) p (x.1 - twinBase) x.1
          (.write ((slice d (x.1 - a) x.2).map some)) .none .mgmt) s)))) ∧
  (∀ s : State,
    let up : State := { s with shusPcieUp := true }
    let down : State := { s with shusPcieUp := false }
    (¬ (s.boot.phase = .done ∧ s.selv.ready = false ∧ up.mgmtPresent = true) → exec .shuskaubPcieLinkUp s = .next up) ∧
    (s.boot.phase = .done → s.selv.ready = false → up.mgmtPresent = true →
      exec .shuskaubPcieLinkUp s = .next (up.stepNine true)) ∧
    (s.fuses.shusPcie = false → exec .shuskaubPcieLinkDown s = .next down) ∧
    (s.fuses.shusPcie = true → exec .shuskaubPcieLinkDown s = exec (.functionLevelReset 0) down))

/-- An access of an address that no present block answers, or that its agent may not reach, reads all ones or writes nothing, and is
counted. A write to an RW1C word clears exactly the bits written 1; of the SELV words the firmware writes the wake control, the budget
and the boot control while unlocked, and a write to another changes nothing. A read sends its value; a clear-on-read counter is cleared by it; the high word of a 64-bit register reads what it held when the low word was read,
whatever happened since. BAR2 is the same access at the window's address, reads all ones and drops the write where it is of another size,
and does nothing for a function that does not exist or sleeps. A function's configuration space gives it its identity, and its
resizable BAR takes the sizes it offers. -/
def Obligations.RegisterAccessRules : Prop :=
  (∀ (s : State) (a : BitVec 48) (v : Word) (ag : Agent), s.twinReg a.toNat = none →
    let counted : State := { s with selv := { s.selv with badAccess := satAdd s.selv.badAccess 1 } }
    (a.toNat % 4 = 0 → s.blockAt a.toNat = none →
      exec (.unmappedRegisterAccess a .read ag) s = .next (counted.emit (.readData ag 0xFFFFFFFF)) ∧
      exec (.unmappedRegisterAccess a (.write v) ag) s = .next counted ∧
      exec (.readClear (.yarn a) ag) s = .next (counted.emit (.readData ag 0xFFFFFFFF)) ∧
      exec (.registerWrite (.yarn a) v ag) s = .next counted) ∧
    (∀ (b : Blk) (off : Nat), a.toNat % 4 = 0 → s.blockAt a.toNat = some (b, off) →
      (s.reaches ag b off false = false → exec (.readClear (.yarn a) ag) s = .next (counted.emit (.readData ag 0xFFFFFFFF))) ∧
      (s.reaches ag b off true = false → exec (.registerWrite (.yarn a) v ag) s = .next counted) ∧
      (s.blkGone b = false → s.reaches ag b off true = true →
        (∀ t, s.blkW1c b off v = some t → exec (.registerWrite (.yarn a) v ag) s = .next t) ∧
        (b = .selv → ag = .firmware →
          let put := fun (f : Selv → Selv) => Host.Outcome.next (φ := Fault) (ρ := Refusal) ({ s with selv := f s.selv } : State)
          (off ∉ [4, 0xC, 0x20, 0x30] → exec (.registerWrite (.yarn a) v ag) s = .next s) ∧
          (off = 0x30 → exec (.registerWrite (.yarn a) v ag) s = put fun x => { x with wake := v &&& 0xF0F }) ∧
          (off = 0xC → s.selv.bootLock = true → exec (.registerWrite (.yarn a) v ag) s = .next s) ∧
          (off = 0xC → s.selv.bootLock = false → exec (.registerWrite (.yarn a) v ag) s = put fun x => { x with
            order := v.setWidth 2, fullCensus := v.getLsbD 2, bootLock := v.getLsbD 31 }) ∧
          (off = 0x20 → s.selv.budgetLock = true → exec (.registerWrite (.yarn a) v ag) s = .next s) ∧
          (off = 0x20 → s.selv.budgetLock = false → exec (.registerWrite (.yarn a) v ag) s = put fun x => { x with
            budget := BitVec.ofNat 16 (max 6000 (min 40000 (v.toNat % 65536))), budgetLock := v.getLsbD 31 })) ∧
        (b = .selv → off = 4 → exec (.registerWrite (.yarn a) v ag) s =
          .next (({ s with selv := { s.selv with fault := s.selv.fault &&& ~~~v } } : State))) ∧
        (∀ p, b = .edge p → off = 0xC → exec (.registerWrite (.yarn a) v ag) s =
          .next (s.modPort p fun e => { e with events := e.events &&& ~~~v })) ∧
        (∀ k, b = .mesh k → off = 8 → exec (.registerWrite (.yarn a) v ag) s =
          .next (s.modMesh k fun m => { m with events := m.events &&& ~~~v }))) ∧
      (s.blkGone b = false → s.reaches ag b off false = true → s.latch = [] → b.wide off = false → (b = .tick → off ≠ 0x10) →
        (∀ i, b = .swt i → off ≠ 0x14) →
        exec (.readClear (.yarn a) ag) s = .next ((s.blkClear b off).emit (.readData ag (s.blkRead b off)))))) ∧
  (∀ (s u : State) (a : BitVec 48) (ag : Agent) (b : Blk) (off : Nat), a.toNat % 4 = 0 → a.toNat + 4 < 2 ^ 48 →
    s.blockAt a.toNat = some (b, off) → s.blkGone b = false → s.reaches ag b off false = true → s.latch = [] → b.wide off = true →
    s.twinReg a.toNat = none →
    ∃ t, exec (.readClear (.yarn a) ag) s = .next t ∧ t.out = s.out ++ [.readData ag (s.blkRead b off)] ∧
      (u.latch = t.latch → u.twinReg (a.toNat + 4) = none → (∃ b' off', u.blockAt (a.toNat + 4) = some (b', off') ∧
          u.blkGone b' = false ∧ u.reaches ag b' off' false = true) →
        ∃ w, exec (.readClear (.yarn (a + 4)) ag) u = .next w ∧ w.out = u.out ++ [.readData ag (s.blkRead b (off + 4))] ∧
          w.latch = [])) ∧
  (∀ s : State,
    (s.blkClear .selv 0x34).selv = { s.selv with badAccess := 0 } ∧ (∀ off, off ≠ 0x34 → s.blkClear .selv off = s) ∧
    (∀ p : Fin 10, (s.blkClear (.edge p) 0x10) = s.modPort p fun e => { e with retryCount := 0 }) ∧
    (∀ b : Fin 4, (s.blkClear (.stk b) 0x10) = s.modStack b fun t => { t with eccCorr := 0 })) ∧
  (∀ (s : State) (f : Fin 2) (off : BitVec 24) (v : Word),
    let a : BitVec 48 := BitVec.ofNat 48 (0x10000000 + fld s.fns[f].bar2Window 3 0 * 0x1000000 + off.toNat +
      (if s.fns[f].bar2Window.getLsbD 8 then 0x4000000000 else 0))
    (s.fnExists f = false ∨ s.fns[f].d3hot = true →
      exec (.bar2Access f off .read) s = .next s ∧ exec (.bar2Access f off (.write v)) s = .next s) ∧
    (s.fnExists f = true → s.fns[f].d3hot = false →
      exec (.bar2Access f off .read) s = exec (.readClear (.yarn a) (.host f)) s ∧
      exec (.bar2Access f off (.write v)) s = exec (.registerWrite (.yarn a) v (.host f)) s ∧
      exec (.bar2Access f off .oddRead) s = .next (s.emit (.readData (.host f) 0xFFFFFFFF)) ∧
      exec (.bar2Access f off .oddWrite) s = .next s)) ∧
  (∀ (s : State) (a : BitVec 48) (ag : Agent), exec (.unmappedRegisterAccess a .oddRead ag) s = .next (s.emit (.readData ag 0xFFFFFFFF)) ∧
    exec (.unmappedRegisterAccess a .oddWrite ag) s = .next s) ∧
  (∀ (s : State) (f : Fin 2) (w : Word), s.fnExists f = true →
    let answers := fun (x : CfgItem) (v : Word) => exec (.readClear (.config f x) (.host f)) s = .next (s.emit (.readData (.host f) v))
    answers .vendorId 0x1F9C ∧ (s.fuses.twin = false ∨ s.fuses.primary = true → answers .deviceId 0x0B60) ∧
    (s.fuses.twin = true → s.fuses.primary = false → answers .deviceId 0x0B61) ∧ answers .classCode 0x120000 ∧
    answers .maxPayload 512 ∧ answers .powerState (if s.fns[f].d3hot = true then 3 else 0) ∧
    (10 ≤ w.toNat → w.toNat ≤ 17 → ∃ h : HostFn, exec (.registerWrite (.config f .bar4Size) w (.host f)) s =
      .next ({ s with fns := s.fns.set f h } : State) ∧ h = { s.fns[f] with bar4Log := h.bar4Log } ∧ h.bar4Log.val + 10 = w.toNat) ∧
    (w.toNat < 10 ∨ 17 < w.toNat → exec (.registerWrite (.config f .bar4Size) w (.host f)) s = .next s) ∧
    exec (.registerWrite (.config f .powerState) 3 (.host f)) s = exec (.d3hotEntry f) s ∧
    exec (.registerWrite (.config f .powerState) 0 (.host f)) s = exec (.d0Return f) s) ∧
  (∀ (s : State) (f : Fin 2) (off : Half) (v : Word) (ag : Agent), s.fnExists f = true → s.fns[f].d3hot = false →
    (off = 0 → s.latch = [] → exec (.readClear (.bar0 f off) ag) s = .next (s.emit (.readData ag s.statusWord))) ∧
    (off = 4 → exec (.registerWrite (.bar0 f off) v ag) s =
      .next (({ s with selv := { s.selv with fault := s.selv.fault &&& ~~~v } } : State))) ∧
    (off = 0x3C → s.selv.ready = true → exec (.registerWrite (.bar0 f off) v ag) s =
      .next (s.modFn f fun h => { h with ringFault := h.ringFault &&& ~~~v })))

/-- Through a grant, HALT stops a needle between instructions and waits for a wait's end, RUN and STEP act on a halted needle only.
CLEAR empties a mover and ends the waits for it. RETRAIN retrains a port that is up; LOCK is set from outside a grant only. A flag write acts as a SET; a
barrier's configuration is written only while nobody has arrived. STAT_CLEAR clears the statistics, a seed loads the LFSR, 0 as 1.
An enable starts a bound bobbin or a well-configured view and leaves a bad view OFF; their rise and fall end ON and OFF. RUN starts a
host-owned core at its reset PC in machine mode, HALT stops it at its boundary. -/
def Obligations.ControlRegisterActions : Prop :=
  (∀ (s : State) (n : Fin 96) (f : Fin 2), s.skeinIn (skeinOf n) = true → s.reaches (.host f) (.ndl n) 0 true = true →
    s.holds (.host f) (.ndl n) 0 = true →
    let x := s.needles[n]
    let put := fun (y : Needle) => Host.Outcome.next (φ := Fault) (ρ := Refusal) ({ s with needles := s.needles.set n y } : State)
    (x.st = .running → x.wait = .none →
      exec (.ndlHalt n (.host f)) s = put { x with st := .halted, haltReq := false, stepReq := false }) ∧
    (x.st = .running → x.wait ≠ .none → exec (.ndlHalt n (.host f)) s = put { x with haltReq := true }) ∧
    (x.st = .halted → x.wait ≠ .ended → exec (.ndlRun n (.host f)) s = put { x with st := .running } ∧
      exec (.ndlStep n (.host f)) s = put { x with st := .running, stepReq := true }) ∧
    (x.st ≠ .halted → exec (.ndlRun n (.host f)) s = put x ∧ exec (.ndlStep n (.host f)) s = put x)) ∧
  (∀ (s : State) (k : Fin 16) (m : Fin 2), s.skeinIn k = true → s.swatchOf k = none →
    ∃ t, exec (.moverClear k m .firmware) s = .next t ∧ (t.skeins[k]).movers[m] = { (s.skeins[k]).movers[m] with
        queue := [], fault := none } ∧
      t.accesses = (s.accesses.map fun a => if a.who = .mover k m then { a with dest := .none, live := false } else a) ∧
      t.mem = s.mem ∧ ∀ n : Fin 96, t.needles[n] = if skeinOf n = k ∧ (s.needles[n]).wait = .mover m then
        Needle.boundary { s.needles[n] with wait := .none } else s.needles[n]) ∧
  (∀ (s : State) (p : Fin 10),
    (s.portUp p = true → exec (.edgeRetrain p .firmware) s = .next (s.modPort p fun e => { e with retrainReq := true, st := .retrain })) ∧
    (s.portUp p = false → exec (.edgeRetrain p .firmware) s = .next s) ∧
    exec (.edgeCtrlLock p .firmware) s = .next (s.modPort p fun e => { e with lock := true }) ∧
    (∀ f : Fin 2, s.reaches (.host f) (.edge p) 8 true = true → exec (.edgeCtrlLock p (.host f)) s = .next s)) ∧
  (∀ (s : State) (b : Fin 4), s.namedStacks.contains b = true →
    exec (.stkCtrlLock b .firmware) s = .next (s.modStack b fun t => { t with lock := true })) ∧
  (∀ (s : State) (k : Fin 16) (g : Fin 64) (i : Fin 16) (v : Word), s.skeinIn k = true →
    (s.isHome k = true → exec (.meshFlagWrite k g v .firmware) s = .next (s.putFlag k g v) ∧
      ((s.skeins[k]).mesh.barriers[i].arrived = [] → exec (.meshBarCfgWrite k i v .firmware) s =
        .next (s.modMesh k fun m => { m with barriers := m.barriers.set i { m.barriers[i] with
          skeins := v.setWidth 16, needles := (v >>> 16).setWidth 6, enable := v.getLsbD 22 } })) ∧
      ((s.skeins[k]).mesh.barriers[i].arrived ≠ [] → exec (.meshBarCfgWrite k i v .firmware) s =
        .next (s.modMesh k fun m => { m with events := setBit m.events 4 }))) ∧
    (s.isHome k = false → exec (.meshFlagWrite k g v .firmware) s = .next s ∧
      exec (.meshBarCfgWrite k i v .firmware) s = .next s)) ∧
  (∀ (s : State) (k : Fin 16) (m : Fin 2) (p : Fin 10) (v : Word),
    (s.skeinIn k = true →
      exec (.statClear (.skein k m) .firmware) s = .next (s.modCarder k m Carder.clearStats) ∧
      exec (.cardLfsrSeedWrite (.skein k m) v .firmware) s =
        .next (s.modCarder k m fun c => { c with seed := v, lfsr := if v = 0 then 1 else v })) ∧
    exec (.statClear (.edge p) .firmware) s = .next (s.modEdgeCarder p Carder.clearStats) ∧
    exec (.cardLfsrSeedWrite (.edge p) v .firmware) s =
      .next (s.modEdgeCarder p fun c => { c with seed := v, lfsr := if v = 0 then 1 else v })) ∧
  (∀ (s : State) (n : Fin 48), s.fuses.shusDies ≠ 0 → s.blkGone .bob = false →
    (s.bobbins[n].bound = true → exec (.functionEnable (.bobbin n) .firmware) s =
      .next (s.modBob n fun b => { b with fsm := b.fsm.enable })) ∧
    (s.bobbins[n].bound = false → exec (.functionEnable (.bobbin n) .firmware) s = .next s) ∧
    exec (.functionDisable (.bobbin n) .firmware) s = .next (s.modBob n Bobbin.stop)) ∧
  (∀ (s : State) (p : Fin 10) (v : Fin 4), s.viewJob p = none →
    let view := s.edgeCarders[p].views[v]
    (view.fsm = EnFsm.off → s.viewOk p view = true → ∃ t, exec (.functionEnable (.view p v) .firmware) s = .next t ∧
      t.edgeCarders[p].views[v] = { view with fsm := ⟨true, .rising, false, false⟩ } ∧
      t.edgeCarders[p].events = s.edgeCarders[p].events) ∧
    (view.fsm = EnFsm.off → s.viewOk p view = false → ∃ t, exec (.functionEnable (.view p v) .firmware) s = .next t ∧
      t.edgeCarders[p].views[v] = { view with fsm := ⟨true, .off, false, false⟩ } ∧
      t.edgeCarders[p].events = setBit s.edgeCarders[p].events 5) ∧
    (view.fsm.st = .on → ∃ t, exec (.functionDisable (.view p v) .firmware) s = .next t ∧
      t.edgeCarders[p].views[v] = { view with fsm := { view.fsm with en := false, st := .falling } }) ∧
    (view.fsm.st = .rising → view.fsm.pendDis = false → ∃ t, exec (.functionRiseDone (.view p v)) s = .next t ∧
      t.edgeCarders[p].views[v] = { view with fsm := { view.fsm with st := .on } }) ∧
    (view.fsm.st = .falling → view.fsm.pendEn = false → ∃ t, exec (.functionFallDone (.view p v)) s = .next t ∧
      t.edgeCarders[p].views[v] = { view with fsm := { view.fsm with st := .off } })) ∧
  (∀ (s : State) (n : Fin 48), let b := s.bobbins[n]
    (b.fsm.st ≠ .rising → exec (.functionRiseDone (.bobbin n)) s = .next s) ∧
    (b.fsm.st = .rising → b.fsm.pendDis = false → exec (.functionRiseDone (.bobbin n)) s =
      .next (s.modBob n fun b => { b with fsm := { b.fsm with st := .on } })) ∧
    (b.fsm.st ≠ .falling ∨ (b.dirOut = true ∧ b.opened.isSome = true) → exec (.functionFallDone (.bobbin n)) s = .next s) ∧
    (b.fsm.st = .falling → b.fsm.pendEn = false → b.opened = none → b.unbindCmd = none →
      exec (.functionFallDone (.bobbin n)) s = .next (s.modBob n fun b => { b with fsm := { b.fsm with st := .off } }))) ∧
  (∀ (s : State) (d : Fin 4), let c := s.distaffs[d]
    (s.selv.st.working = true → c.granted = none → c.halting = false → c.st = .off ∨ c.st = .halted →
      exec (.dstRun d .firmware) s = .next (s.modDst d fun c => { c with
        st := .running, pc := c.resetPc, mode := 3, retired := 0, wait := .none, reserved := none })) ∧
    (c.granted ≠ none → exec (.dstRun d .firmware) s = .next s) ∧
    (c.pendingRun = false → c.st = .running →
      exec (.dstHalt d .firmware) s = .next (s.modDst d fun c => { c with halting := true })) ∧
    (c.pendingRun = false → c.st = .waiting →
      exec (.dstHalt d .firmware) s = .next (s.modDst d fun c => { c with st := .halted, wait := .none })) ∧
    (c.halting = false → exec (.dstHaltDone d) s = .next s) ∧
    (c.halting = true → c.pendingRun = false → exec (.dstHaltDone d) s = .next (s.modDst d fun c => { c with
      halting := false, st := .halted, wait := .none, pendingRun := false })))

/-- A pin's configuration is written, and it parks when its function changes; the park ends at the level of that moment. OUT_SET and
OUT_CLR drive the pins of their mask. A level that is the enabled wake edge sets the pin's wake event and wakes the hem as GPIO; another
only is the new level, and a parking pin keeps its own. A received character goes to the FIFO with its framing and parity errors, or is lost when 64 wait; a read takes
the oldest; a written character is sent when the UART is idle. EXTEST, SAMPLE/PRELOAD, CLAMP, HIGHZ, BYPASS and IDCODE select their
registers; STATUS sends the selvage's words and REG_READ a register, all ones without the sideband. On a die without Shuskaub none of
these does anything. Before READY the board block is applied if its header, CRC and offsets hold, else BAD is set. -/
def Obligations.PinsUartAndTap : Prop :=
  (∀ s : State,
    ((s.portsOf .shus).any s.portUp = false → s.applyBoard = s) ∧
    ((s.portsOf .shus).any s.portUp = true →
      (boardPairs s.flash.board = none → s.applyBoard = ({ s with io := { s.io with boardStatus := 2 } } : State)) ∧
      (∀ ps, boardPairs s.flash.board = some ps → s.applyBoard.io.boardStatus = BitVec.ofNat 32 (1 + 4 * ps.length) ∧
        s.applyBoard.mem = s.mem)) ∧
    ∀ m, (s.stepNine m).io.boardStatus = s.applyBoard.io.boardStatus) ∧
  (∀ l : List Byte, let block := flashRead l 0 4096
    (leAt block 0 4 ≠ 0x44524F42 ∨ leAt block 4 2 ≠ 1 ∨ 510 < leAt block 6 2 ∨
      leAt block 8 4 ≠ crc32c ((block.drop 16).take (8 * leAt block 6 2)) → boardPairs l = none) ∧
    ∀ ps, boardPairs l = some ps → ps.length = leAt block 6 2 ∧ ∀ x ∈ ps,
      (0x4000 ≤ x.1 ∧ x.1 ≤ 0x6FFF) ∨ x.1 = 0x7000 ∨ (2 ^ 31 ≤ x.1 ∧ x.1 < 2 ^ 31 + 0x80 ∧ x.1 % 4 = 0)) ∧
  (∀ (s : State) (p : Fin 32) (v : Word), s.fuses.shusDies ≠ 0 → s.blkGone .pin = false →
    (p.val < 16 → exec (.pinFuncChange p v .firmware) s = .next (s.modPin p fun x => { x with
      cfg := v &&& 0x1FF, parking := x.parking || (x.cfg.getLsbD 0 != v.getLsbD 0) })) ∧
    (16 ≤ p.val → v.getLsbD 0 = true → ∃ t, exec (.pinFuncChange p v .firmware) s = .next t ∧
      t.pins[p].cfg.getLsbD 0 = s.pins[p].cfg.getLsbD 0 ∧ t.pins[p].parking = s.pins[p].parking ∧
      ∀ i, 1 ≤ i → i < 9 → t.pins[p].cfg.getLsbD i = v.getLsbD i) ∧
    exec (.pinOutSet v .firmware) s = .next (({ s with
      pins := mapV s.pins fun p x => if v.getLsbD p.val then { x with cfg := setBit x.cfg 4 } else x } : State)) ∧
    exec (.pinOutClr v .firmware) s = .next (({ s with
      pins := mapV s.pins fun p x => if v.getLsbD p.val then { x with cfg := clrBit x.cfg 4 } else x } : State))) ∧
  (∀ (s : State) (p : Fin 32) (l : Bool) (c : Byte) (par stop br sub : Bool) (a : BitVec 48) (pre : BitVec 128), s.shuskaub = false →
    ∀ i ∈ [Instr.pinParkEnd p l, .pinWake p l, .uartCharacter c par stop br sub, .uartTxCharacterDone l, .soundwireWake, .extest,
      .idcode, .samplePreload pre, .clamp, .highz, .jtagStatus, .regRead a, .bypass], exec i s = .next s) ∧
  (∀ (s : State) (p : Fin 32) (l : Bool), s.shuskaub = true → let x := s.pins[p]
    (x.parking = true → exec (.pinParkEnd p l) s =
      .next (s.modPin p fun x => { x with parking := false, level := l, ref := l })) ∧
    (x.parking = false → exec (.pinParkEnd p l) s = .next s) ∧
    (x.parking = true → exec (.pinWake p l) s = .next s) ∧
    (x.parking = false →
      let seen := s.modPin p fun x => { x with level := l, ref := l }
      let hit := x.cfg.getLsbD 6 = true ∧ ((fld x.cfg 8 7 = 0 ∧ l = true ∧ x.ref = false) ∨
        (fld x.cfg 8 7 = 1 ∧ l = false ∧ x.ref = true) ∨ (fld x.cfg 8 7 = 2 ∧ l ≠ x.ref) ∨ (fld x.cfg 8 7 = 3 ∧ l = false))
      (hit → exec (.pinWake p l) s = exec (.hemEvent .gpio) { seen with wakeEvents := setBit s.wakeEvents p.val }) ∧
      (¬ hit → exec (.pinWake p l) s = .next seen))) ∧
  (∀ (s : State) (c : Byte) (par stop br sub : Bool), s.shuskaub = true →
    let i := s.io
    (i.uartCfg.getLsbD 0 = false → exec (.uartCharacter c par stop br sub) s = .next s) ∧
    (i.uartCfg.getLsbD 0 = true → br = true → exec (.uartCharacter c par stop br sub) s =
      .next (s.modIo fun i => { i with uartEvents := setBit i.uartEvents 3, uartResync := false })) ∧
    (i.uartCfg.getLsbD 0 = true → br = false → i.uartResync = false →
      ∃ t, exec (.uartCharacter c par stop br sub) s = .next t ∧ t.io.uartTx = i.uartTx ∧
        (i.uartRx.length < 64 → ∃ ch : BitVec 10, t.io.uartRx = i.uartRx ++ [ch] ∧ ch.setWidth 8 = c ∧
          ch.getLsbD 8 = !stop ∧ ch.getLsbD 9 = (i.uartCfg.getLsbD 1 && !par)) ∧
        (64 ≤ i.uartRx.length → t.io.uartRx = i.uartRx ∧ t.io.uartEvents.getLsbD 2 = true) ∧
        (stop = false → t.io.uartEvents.getLsbD 0 = true))) ∧
  (∀ (s : State) (v : Word), s.fuses.shusDies ≠ 0 → s.blkGone .bob = false → s.latch = [] →
    (s.io.uartRx = [] → exec (.uartDataRead .firmware) s = .next (s.emit (.readData .firmware 0))) ∧
    (∀ ch l, s.io.uartRx = ch :: l → exec (.uartDataRead .firmware) s =
      .next (({ s with io := { s.io with uartRx := l }, out := s.out ++ [.readData .firmware (ch.setWidth 32 ||| 0x400)] } : State))) ∧
    (s.io.uartTx = [] → s.io.uartBusy = false → s.io.uartCfg.getLsbD 0 = true → exec (.uartDataWrite v .firmware) s =
      .next (({ s with io := { s.io with uartBusy := true }, out := s.out ++ [.uart (v.setWidth 8)] } : State))) ∧
    (64 ≤ s.io.uartTx.length → exec (.uartDataWrite v .firmware) s = .next s)) ∧
  (∀ (s : State) (cts : Bool), s.shuskaub = true →
    (s.io.uartTx = [] → exec (.uartTxCharacterDone cts) s = .next (s.modIo fun i => { i with uartBusy := false })) ∧
    (∀ c l, s.io.uartTx = c :: l → s.io.uartCfg.getLsbD 0 = true → (cts = false ∨ s.io.uartCfg.getLsbD 2 = false) →
      exec (.uartTxCharacterDone cts) s =
        .next (({ s with io := { s.io with uartTx := l, uartBusy := true }, out := s.out ++ [.uart c] } : State)))) ∧
  (∀ s : State, exec .soundwireWake s = exec (.hemEvent .soundwire) s) ∧
  (∀ (s : State) (pre : BitVec 128) (a : BitVec 48), s.shuskaub = true → s.jtag.instr ≠ .extest →
    let sel := fun (i : JtagInstr) => ({ s with jtag := { s.jtag with instr := i } } : State)
    exec .extest s = .next ((sel .extest).modJtag fun j => { j with boundary := s.boundaryCells }) ∧
    exec .idcode s = .next ((sel .idcode).emit (.jtag 0x1B610A6F)) ∧
    exec (.samplePreload pre) s = .next (State.emit ((sel .samplePreload).modJtag fun j => { j with boundary := pre })
      (.jtag (s.boundaryCells.setWidth 96))) ∧
    exec .clamp s = .next (sel .clamp) ∧ exec .highz s = .next (sel .highz) ∧ exec .bypass s = .next (sel .bypass) ∧
    (s.jtagLink = true → exec .jtagStatus s = .next (State.emit ((sel .status).modJtag fun j => { j with
      status := s.selv.bootStatusWord ++ (s.selv.fault ++ s.statusWord) })
      (.jtag (s.selv.bootStatusWord ++ (s.selv.fault ++ s.statusWord))))) ∧
    (s.jtagLink = false → ∃ t, exec .jtagStatus s = .next t ∧ t.jtag.status = BitVec.allOnes 96) ∧
    (s.jtagLink = false → exec (.regRead a) s = .next ((sel .regRead).modJtag fun j => { j with
      regValue := 0xFFFFFFFF, regDone := true, regErr := true })) ∧
    (s.jtagLink = true → a.toNat % 4 = 0 → s.blockAt a.toNat = none → ∃ t, exec (.regRead a) s = .next t ∧
      t.jtag.regValue = 0xFFFFFFFF ∧ t.jtag.regDone = true ∧ t.selv.badAccess = satAdd s.selv.badAccess 1)) ∧
  (∀ s : State, s.shuskaub = true → s.jtag.instr = .extest → ∃ t, exec .bypass s = .next t ∧ t.jtag.instr = .bypass ∧
    ∀ p : Fin 32, t.pins[p] = { s.pins[p] with parking := true })

/-- QUERY_HEALTH answers and clears the droop count; READ_MAP and READ_DISTANCE write their tables before they answer, INVALID_PARAM
where the object may not be written. SET_REPAIR_CTRL and SET_BOOT_CTRL store their fields. FW_UPDATE begins the write of a slot; its end
puts the image there and counts, or leaves the slot undefined (log 11) and answers TIMEOUT. A granted block answers at once, another
waits until no basic command runs on it, and then is granted with its words recorded; its holder's release ends it. DEBUG_ECHO
returns 44 bytes, DEBUG_READ_REG the register as the firmware reads it, DEBUG_SET_LOG sets the level; DEBUG_READ_LOG writes whole
entries, oldest first, its new ones and its count being free (log 19). -/
def Obligations.ManagementCommands : Prop :=
  (∀ (e : Entry) (s s1 : State),
    let r := refOf e s1
    (Accepts cmdQueryHealth e s s1 → exec (.queryHealth e) s = .next (State.ok { s1 with rep := { s1.rep with droopQuery := 0 } } r
      [(20, 2, s1.selv.hottest.toNat), (22, 2, min 0xFFFF s1.rep.droopQuery), (24, 1, s1.leastMargin),
       (26, 2, s1.portMask .down), (28, 2, s1.portMask .degraded), (30, 2, min 0xFFFF s1.rep.added)])) ∧
    (Accepts cmdReadMap e s s1 →
      (s1.objOk e.sq (e.u 8 8) s1.mapTable.length = true → exec (.readMap e) s =
        .next (State.ok (s1.objWrite e.sq (e.u 8 8) s1.mapTable) r [(20, 1, s1.map.epoch.toNat)])) ∧
      (s1.objOk e.sq (e.u 8 8) s1.mapTable.length = false → exec (.readMap e) s = .next (s1.reply r stInvalidParam 0xFE)) ∧
      s1.mapTable.length = 160) ∧
    (Accepts cmdReadDistance e s s1 →
      (s1.objOk e.sq (e.u 8 8) s1.distTable.length = true → exec (.readDistance e) s =
        .next (State.ok (s1.objWrite e.sq (e.u 8 8) s1.distTable) r [(20, 4, s1.distTable.length)])) ∧
      (s1.objOk e.sq (e.u 8 8) s1.distTable.length = false → exec (.readDistance e) s = .next (s1.reply r stInvalidParam 0xFE)) ∧
      s1.distTable.length = 16 + 40 * s1.skeinList.length) ∧
    (Accepts cmdSetRepairCtrl e s s1 →
      let x : Rep := { s1.rep with
        autoCensus := decide (e.u 8 1 = 1)
        limits := if e.u 9 1 = 1 then BitVec.ofNat 32 (e.u 12 4) else s1.rep.limits
        lock := decide (e.u 10 1 = 1) }
      exec (.setRepairCtrl e) s = .next (State.ok { s1 with rep := x } r [(20, 4, x.ctrlWord.toNat), (24, 4, x.limits.toNat)])) ∧
    (Accepts cmdSetBootCtrl e s s1 →
      let v : Selv := { s1.selv with
        order := BitVec.ofNat 2 (e.u 8 1), fullCensus := decide (e.u 9 1 = 1), bootLock := decide (e.u 10 1 = 1) }
      exec (.setBootCtrl e) s = .next (State.ok { s1 with selv := v } r [(20, 4, v.bootCtrlWord.toNat)])) ∧
    (Accepts cmdFwUpdate e s s1 → exec (.fwUpdate e) s = .next (({ s1 with
      flash := { s1.flash with writing := some (decide (e.u 8 1 = 1), s1.objRead e.sq (e.u 16 8) (e.u 24 4), r) }
      jobs := s1.jobs ++ [(r, 7, e.params.toList)] } : State))) ∧
    (Accepts cmdExpertGrant e s s1 →
      ((s1.grantOf (grantBlock e)).isSome = true → exec (.expertGrant e) s = .next (s1.ok r [(20, 2, e.u 8 2)])) ∧
      (s1.grantOf (grantBlock e) = none → exec (.expertGrant e) s = .next (({ s1 with
        grants := s1.grants ++ [⟨grantBlock e, s1.grantee e, some r, []⟩]
        jobs := s1.jobs ++ [(r, 0x900, e.params.toList)] } : State)))) ∧
    (Accepts cmdExpertRelease e s s1 → ∀ g, s1.grantOf (grantBlock e) = some g →
      (g.holder = s1.issuer r e → exec (.expertRelease e) s = .next (((s1.endGrant g none).ok r).repower false)) ∧
      (g.holder ≠ s1.issuer r e → exec (.expertRelease e) s = .next (s1.reply r stNotPermitted))) ∧
    (Accepts cmdQueryGrant e s s1 → exec (.queryGrant e) s =
      .next (s1.ok r [(20, 1, ((s1.grantOf (grantBlock e)).map Grant.code).getD 0)])) ∧
    (Accepts cmdDebugEcho e s s1 → exec (.debugEcho e) s =
      .next (s1.finish r (s1.compose r stOk 0 0 none (e.params.toList.take 44)))) ∧
    (Accepts cmdDebugReadReg e s s1 → exec (.debugReadReg e) s =
      .next ((s1.regRead .firmware (e.u 8 8)).1.ok r [(20, 4, (s1.regRead .firmware (e.u 8 8)).2.toNat)])) ∧
    (Accepts cmdDebugSetLog e s s1 → exec (.debugSetLog e) s = .next (State.ok { s1 with
      io := { s1.io with logLevel := BitVec.ofNat 2 (e.u 8 1) } } r)) ∧
    (Accepts cmdDebugReadLog e s s1 → s1.objOk e.sq (e.u 8 8) (logFit (s1.fwLog ++ [Config.freeBytes s1.freeCtr]) (e.u 16 4)).1.length = true →
      let fit := logFit (s1.fwLog ++ [Config.freeBytes s1.freeCtr]) (e.u 16 4)
      ∃ lost : Nat, exec (.debugReadLog e) s =
        .next (State.ok (State.objWrite { s1 with freeCtr := s1.freeCtr + 2, fwLog := fit.2 } e.sq (e.u 8 8) fit.1) r
          [(20, 4, fit.1.length), (24, 4, lost)]))) ∧
  (∀ (l : List (List Byte)) (n : Nat), (logFit l n).1.length ≤ n ∧ (logFit l n).1 ++ (logFit l n).2.flatten = l.flatten) ∧
  (∀ (s : State) (good : Bool),
    (s.flash.writing = none → exec (.fwUpdateFlashDone good) s = .next s) ∧
    (∀ (b : Bool) (image : List Byte) (r : CmdRef), s.flash.writing = some (b, image, r) →
      let put := fun (l : List Byte) => ({ s with flash :=
        if b then { s.flash with slotB := l, writing := none } else { s.flash with slotA := l, writing := none } } : State)
      (good = true → exec (.fwUpdateFlashDone good) s =
        .next ((put image).yard 4 1 (some r) [(20, 1, (Config.imageParts image).svn.toNat)])) ∧
      (good = false → exec (.fwUpdateFlashDone good) s =
        .next (State.reply { put (Config.freeBytes s.freeCtr) with freeCtr := s.freeCtr + 1 } r stTimeout)))) ∧
  (∀ (s : State) (block : Half),
    ((∀ g ∈ s.grants, g.block = block → g.waiting = none) → exec (.grantTakesEffect block) s = .next s) ∧
    (∀ (h : Holder) (r : CmdRef), s.grants = [⟨block, h, some r, []⟩] →
      let cls := blockCls block
      let inst := blockInst block
      (s.blockBusy cls inst = true → exec (.grantTakesEffect block) s = .next s) ∧
      (s.blockBusy cls inst = false → s.mayHold h cls inst = true →
        let granted : State := { s with grants := [⟨block, h, none, (rwWords cls inst).map fun a => (a, s.peekAt a)⟩] }
        exec (.grantTakesEffect block) s = .next ((granted.ok r [(20, 2, block.toNat)]).repower false)) ∧
      (s.blockBusy cls inst = false → s.mayHold h cls inst = false →
        exec (.grantTakesEffect block) s = .next (State.reply { s with grants := [] } r stConflict 2))))

/-- A cast makes its swatch Cast with the fields of the entry over exactly its rectangle, resets the needles of that rectangle, and
leaves every other needle and every other swatch that is not Held alone. KNIT opens the knit that the entry describes; STOP_KNIT marks
it and answers the last row. A hold is Held at once, its publish gate closed and a hard running row abandoned; when nothing is
outstanding the save ends, with the stores' bytes in the save area unless it is kept in place. A restore without a persisting cause
ends Knitting or Cast; a hard swatch, and a program not yet started, starts at the next tick.
Bind-off makes the swatch Bound without drafts, knit or grants; at its end it is Unset, its pages are free, its needles reset and its
stores zero. -/
def Obligations.SwatchLife : Prop :=
  (∀ (e : Entry) (s s1 : State) (i : Fin 8), e.target = some i →
    let r := refOf e s1
    let q := castReq e
    let w := s1.swatches[i]
    (Accepts cmdCastSwatch e s s1 → ∀ ws, s1.castWins e = some ws → ∃ (u : State) (res : List (Nat × Nat × Nat)), exec (.castSwatch e) s = .next (u.ok r res) ∧
      (∀ k, (u.swatches[i]).covers k = inRect q.c0 q.w0 (q.cs - 1) (q.ws - 1) k) ∧
      u.swatches[i].st = .cast ∧ u.swatches[i].windows = ws ∧ u.swatches[i].ppoint.toNat = q.pp ∧
      u.swatches[i].cls = (if q.cls = 0 then .hard else if q.cls = 1 then .loose else .free) ∧
      u.swatches[i].budget.toNat = q.budget ∧ u.swatches[i].programs = [] ∧ u.swatches[i].drafts = [] ∧
      u.swatches[i].knit = none ∧ u.saves[i] = none ∧ u.mem = s1.mem ∧
      (∀ j, j ≠ i → s1.swatches[j].st ≠ .held → u.swatches[j] = s1.swatches[j]) ∧
      ∀ n : Fin 96, u.needles[n] =
        if inRect q.c0 q.w0 (q.cs - 1) (q.ws - 1) (skeinOf n) then Needle.reset else s1.needles[n]) ∧
    (Accepts cmdKnit e s s1 → exec (.knit e) s = .next (State.modSw (s1.inFlight r 0x101 e) i fun w => { w with knit := some {
      cmd := r, prog := e.u 8 2, entry := BitVec.ofNat 32 (e.u 12 4)
      args := Vector.ofFn fun j => BitVec.ofNat 64 (e.u (16 + 8 * j.val) 8)
      rows := BitVec.ofNat 16 (e.u 10 2), committed := 0, frogged := 0, flags := 0, media := false, armed := true
      stop := false, firstRow := 0, lastRow := 0 } })) ∧
    (Accepts cmdStopKnit e s s1 → exec (.stopKnit e) s = .next (State.ok
      (s1.modSw i fun w => { w with knit := w.knit.map fun k => { k with stop := true } }) r
      [(20, 8, (s1.tick.count - (if w.st = .frogged then 1 else 0)).toNat)])) ∧
    (Accepts cmdHoldSwatch e s s1 → ∃ t, exec (.holdSwatch e) s = .next t ∧
      t.swatches[i].st = .held ∧ t.swatches[i].causes = [0] ∧ t.swatches[i].holdStep = .quiesce ∧ t.swatches[i].pubDepth = 0 ∧
      t.swatches[i].holdCmd = some r ∧ t.mem = s1.mem ∧ t.jobs = s1.jobs ++ [(r, 0x103, e.params.toList)] ∧
      (∀ n : Fin 96, t.needles[n] = if w.cls = .hard ∧ w.st = .knitting ∧ w.covers (skeinOf n) = true then
        (s1.needles[n]).cleared else s1.needles[n])) ∧
    (Accepts cmdRestoreSwatch e s s1 → exec (.restoreSwatch e) s = .next (State.repower
      (State.modSw (s1.inFlight r 0x104 e) i fun w => { w with restoreCmd := some r }) false)) ∧
    (Accepts cmdBindOffSwatch e s s1 → ∃ t, exec (.bindOffSwatch e) s = .next t ∧ t.swatches[i].st = .bound ∧
      t.swatches[i].bindCmd = some r ∧ t.swatches[i].knit = none ∧ t.swatches[i].drafts = [] ∧ t.swatches[i].pubDepth = 0 ∧
      (∀ g ∈ t.grants, g.holder ≠ .swatch i) ∧
      ∀ n : Fin 96, w.covers (skeinOf n) = true → t.needles[n].st = Needle.reset.st ∧ t.needles[n].s = Needle.reset.s)) ∧
  (∀ (s : State) (i : Fin 8), let w := s.swatches[i]
    (¬ (w.st = .held ∧ w.holdStep = .quiesce) → exec (.holdQuiesceTimeout i) s = .next s) ∧
    (w.st = .held → w.holdStep = .quiesce → ∃ t, exec (.holdQuiesceTimeout i) s = .next t ∧
      t.swatches = s.swatches.set i { w with holdStep := .saving } ∧ t.mem = s.mem ∧
      ∀ n : Fin 96, t.needles[n] = if w.covers (skeinOf n) then
        { s.needles[n] with bed := s.needles[n].bed.discard } else s.needles[n]) ∧
    (w.st ≠ .held ∨ w.holdStep = .none ∨ s.anyAccess i = true → exec (.holdSaveDone i) s = .next s) ∧
    (w.st = .held → w.holdStep = .saving → s.anyAccess i = false →
      (∀ n ∈ w.needleList, (s.needles[n]).bed.drains = []) → w.holdCmd = none →
      ∃ t, exec (.holdSaveDone i) s = .next t ∧ t.swatches[i].holdStep = .none ∧ t.swatches[i].st = .held ∧
        (s.inPlace = true → t.swatches[i].saveValid = w.saveValid ∧ t.saves = s.saves ∧
          (w.skeinList.all t.powered = true → t.swatches[i].saveOwed = decide (s.nStacks ≠ 0))) ∧
        (s.inPlace = false → t.swatches[i].saveValid = true ∧ t.saves[i].isSome = true ∧
          (Inv s → s.cache = [] → 0x4000000 ≤ w.saveBase.toNat →
            (∀ n ∈ w.needleList, ∀ c ∈ (s.needles[n]).feed, c.1 < 0x20000) →
            ∀ k ∈ w.skeinList, ∀ j, j < 0x400000 → memGet t.mem (s.saveRec i k + j) = memGet s.mem (0x400000 * k.val + j)))) ∧
    (w.restoreCmd = none → exec (.restoreReloadDone i) s = .next s) ∧
    (∀ r, w.restoreCmd = some r →
      let u := s.modSw i fun w => { w with restoreCmd := none }
      (∀ d, u.restoreBad i = some d →
        exec (.restoreReloadDone i) s = .next (State.moversResume ((u.repower false).reply r stConflict d) i)) ∧
      (u.restoreBad i = none → ∃ (t : State) (res : List (Nat × Nat × Nat)),
        exec (.restoreReloadDone i) s = .next (State.moversResume (t.ok r res) i) ∧
        t.swatches[i].st = (if w.knit.isSome then .knitting else .cast) ∧ t.swatches[i].causes = [] ∧
        t.swatches[i].saveValid = false ∧ t.saves[i] = none ∧
        t.swatches[i].startNext = (w.knit.map fun k => decide (w.cls = .hard) || k.armed).getD false)) ∧
    (w.bindCmd = none ∨ s.anyAccess i = true → exec (.bindOffZeroingDone i) s = .next s) ∧
    (∀ r, w.bindCmd = some r → s.anyAccess i = false → ∃ (u : State) (n : Nat), exec (.bindOffZeroingDone i) s = .next (u.ok r [(20, 4, n)]) ∧
      u.swatches[i] = Swatch.unset ∧
      (∀ run ∈ u.pages, run.st ≠ .firmware (some i) ∧ ∀ id, run.st ≠ .swatchHeld i id) ∧
      (∀ m : Fin 96, w.covers (skeinOf m) = true → u.needles[m] = Needle.reset) ∧
      (∀ (k : Fin 16) (a : Nat), w.covers k = true → 0x400000 * k.val ≤ a → a < 0x400000 * k.val + 0x400000 →
        memGet u.mem a = 0) ∧
      ∀ j : Fin 8, j ≠ i → s.swatches[j].st ≠ .held → u.swatches[j] = s.swatches[j]))

/-- QUERY_SWATCH answers the swatch as it is. A P-point waits for its clocks and a gauge for the next tick. A granted core
starts at the entry's address, halted if its swatch is Held, with every register 0 but x10 and x11; a returned core keeps nothing but
its reset address. A commit takes every tentative position of the draft's ancestors and those of the draft below COUNT and keeps its slots
until the copies end, whose end puts them into their rows and answers the command; a frog removes the draft and all below it, and their slots, and answers both
counts; no copy ends while an access of its row or slot is in flight. -/
def Obligations.SwatchSettingsAndDrafts : Prop :=
  (∀ (e : Entry) (s s1 : State) (i : Fin 8), e.target = some i →
    let r := refOf e s1
    let w := s1.swatches[i]
    (Accepts cmdQuerySwatch e s s1 → exec (.querySwatch e) s = .next (s1.ok r
      [(20, 1, w.st.code.toNat), (21, 1, w.cls.code.toNat), (22, 1, w.ppoint.toNat), (23, 1, b2n w.near),
       (24, 2, if w.st ≠ .unset then w.mask.toNat else 0), (26, 1, (w.causes.head?.getD 0).toNat), (27, 1, w.drafts.length),
       (28, 4, w.overruns.toNat), (32, 8, w.lastRow.toNat), (40, 1, fld w.status 7 0)])) ∧
    (Accepts cmdSetSwatchPpoint e s s1 → exec (.setSwatchPpoint e) s = .next (State.answerPp (State.repower
      (State.modSw (s1.inFlight r 0x107 e) i fun w => { w with ppoint := BitVec.ofNat 2 (e.u 8 1), ppCmd := some r }) false))) ∧
    (Accepts cmdSetSwatchGauge e s s1 → exec (.setSwatchGauge e) s = .next (State.ok
      (s1.modSw i fun w => { w with nearNext := some (decide (e.u 8 1 = 1)) }) r [(20, 8, (s1.tick.count + 1).toNat)])) ∧
    (Accepts cmdGrantDistaff e s s1 → ∃ u : State, exec (.grantDistaff e) s = .next (u.ok r) ∧
      let c := u.distaffs[Fin.ofNat 4 (e.u 8 1)]
      c.granted = some i ∧ c.st = (if w.st = .held then .halted else .running) ∧ c.pc = BitVec.ofNat 64 (e.u 16 8) ∧
      c.x[10] = BitVec.ofNat 64 i.val ∧ c.x[11] = BitVec.ofNat 64 (0x10040000 + 0x1000 * i.val) ∧
      (∀ k : Fin 32, k.val ≠ 10 → k.val ≠ 11 → c.x[k] = 0) ∧ c.f = Distaff.reset.f ∧ c.mode = Distaff.reset.mode ∧
      c.resetPc = (s1.distaffs[Fin.ofNat 4 (e.u 8 1)]).resetPc) ∧
    (Accepts cmdReturnDistaff e s s1 → ∃ u : State, exec (.returnDistaff e) s = .next (u.ok r) ∧
      let d : Fin 4 := Fin.ofNat 4 (e.u 8 1)
      u.distaffs[d] = { Distaff.reset with
        st := if (s1.distaffs[d]).st = .off then .off else .halted, resetPc := (s1.distaffs[d]).resetPc } ∧
      (s1.badPages = [] → ∀ c : Fin 4, c ≠ d → u.distaffs[c] = s1.distaffs[c])) ∧
    (Accepts cmdCommitDraft e s s1 →
      let id : Byte := BitVec.ofNat 8 (e.u 8 1)
      let x := w.commitDraft id (e.u 9 1)
      exec (.commitDraft e) s = .next ((s1.inFlight r 0x10B e).modSw i fun w => { x.1.closeDone with
        copies := w.copies ++ [(r, x.2.2, x.2.1, ((x.1.draft id).map fun d => d.tentative.length).getD 0)] })) ∧
    (Accepts cmdFrogDraft e s s1 →
      let gone := w.below (BitVec.ofNat 8 (e.u 8 1))
      let mine := w.drafts.filter fun d => gone.contains d.id
      ∃ u : State, exec (.frogDraft e) s = .next (u.ok r [(20, 2, sumN (mine.map fun d => d.tentative.length)),
        (24, 4, (mine.flatMap fun d => d.slots).length)]) ∧
      u.swatches[i].drafts = (w.drafts.filter fun d => !gone.contains d.id) ∧ u.mem = s1.mem ∧
      u.swatches[i].poolUsed = w.poolUsed.filter fun k => !(mine.flatMap fun d => d.slots.map DraftSlot.slot).contains k)) ∧
  (∀ (s : State) (i : Fin 8),
    (s.swatches[i].copies = [] → exec (.draftCommitCopiesDone i) s = .next s) ∧
    (∀ r l n left rest, s.swatches[i].copies = (r, l, n, left) :: rest →
      let done := fun (u : State) => State.ok (u.modSw i fun w => { w with
        copies := rest, poolUsed := w.poolUsed.filter fun k => !(l.map Prod.snd).contains k }) r [(20, 2, n), (22, 1, left)]
      ((∃ x ∈ l, s.portTouches x.1 256 = true ∨ s.portTouches (s.swatches[i].slotAddr x.2) 256 = true) →
        exec (.draftCommitCopiesDone i) s = .next s) ∧
      (l = [] → exec (.draftCommitCopiesDone i) s = .next (done s)) ∧
      (∀ row k, let src := s.swatches[i].slotAddr k
        l = [(row, k)] → s.portTouches row 256 = false → s.portTouches src 256 = false → s.inKv i row = true → s.poison = [] →
        s.onLost row = false → (∀ j, j < 256 → s.onLost (src + j) = false ∧ s.onLost (row + j) = false) →
        src + 256 ≤ row ∨ row + 256 ≤ src →
        ∃ u, exec (.draftCommitCopiesDone i) s = .next (done u) ∧ u.swatches = s.swatches ∧ u.needles = s.needles ∧
          ∀ j, memGet u.mem j = if row ≤ j ∧ j < row + 256 then memGet s.mem (src + (j - row)) else memGet s.mem j))) ∧
  (∀ (w : Swatch) (d : Draft) (n : Nat), w.drafts = [d] → d.parent = 0 → d.id ≠ 0 →
    let ps := (d.written.filter fun p => !d.committed.contains p).filter fun p => decide (p.toNat < n)
    let x := w.commitDraft d.id n
    x.2.1 = ps.length ∧ x.2.2 = ((d.slots.filter fun y => ps.contains y.pos).map fun y => (y.row, y.slot)) ∧
    x.1.drafts = [{ d with committed := d.committed ++ ps, slots := d.slots.filter fun y => !ps.contains y.pos }])

/-- QUERY_MEMORY answers stacks, free pages and error counts. An allocation gets the lowest number unused and the place found for it,
its pages host-held when it has no target; freeing it zeroes and frees its pages, or zeroes a target's. On this die's memory, with no
save of the target valid, MEM_FILL writes its pattern over its range and MEM_COPY the source as it was before, and no other byte; a
valid save takes the pattern too. A loaded program has the lowest free id and its text; an
unloaded one is gone with its copy. A stitch map waits for the next tick. -/
def Obligations.MemoryAndProgramCommands : Prop :=
  (∀ (e : Entry) (s s1 : State),
    let r := refOf e s1
    let bits := fun (f : Stack → Bool) => sumN ((allFin 4).map fun b => if f s1.stack[b] then 2 ^ b.val else 0)
    let count := fun (f : Stack → Word) => min 0xFFFFFFFF (sumN ((allFin 4).map fun b => (f s1.stack[b]).toNat))
    (Accepts cmdQueryMemory e s s1 → exec (.queryMemory e) s = .next (s1.ok r [(20, 1, bits Stack.present),
      (21, 1, bits Stack.lost), (24, 4, s1.freePages), (28, 4, count Stack.eccCorr), (32, 4, count Stack.eccUncorr)])) ∧
    (Accepts cmdAllocHanks e s s1 → ∀ a m pool, s1.allocWhere e = some (a, m, pool) →
      let n := e.u 8 4
      let h : Hank := ⟨s1.nextHank, a, n, BitVec.ofNat 8 (e.u 12 1), e.target⟩
      let listed : State := { s1 with localMap := m, nextHank := s1.nextHank + 1, hanks := s1.hanks ++ [h] }
      (e.target = none → exec (.allocHanks e) s =
        .next (State.ok { listed with pages := putRun s1.pages (pageOf a) n (.hostHeld h.id) } r [(20, 8, a), (28, 4, h.id)])) ∧
      (e.target.isSome = true → pool = none → exec (.allocHanks e) s = .next (listed.ok r [(20, 8, a), (28, 4, h.id)])) ∧
      (∀ i p, e.target = some i → pool = some p → exec (.allocHanks e) s = .next (State.ok { listed with
        pages := putRun s1.pages p 16 (.firmware (some i))
        swatches := s1.swatches.set i { s1.swatches[i] with pool := some p } } r [(20, 8, a), (28, 4, h.id)]))) ∧
    (Accepts cmdFreeHanks e s s1 → ∀ h, s1.hankOf e = some h →
      (h.target.isSome = true → ∃ (u : State) (n : Nat), exec (.freeHanks e) s = .next (u.ok r [(20, 4, n)]) ∧
        n = h.count * (if h.kind = 1 then 2 else 1) ∧ u.hanks = (s1.hanks.filter fun x => decide (x.id ≠ h.id)) ∧
        (s1.region h.base ≠ .twin ∨ s1.twinPort = none →
          ∀ j, memGet u.mem j = if h.base ≤ j ∧ j < h.base + n * 0x10000 then 0 else memGet s1.mem j)) ∧
      (h.target = none → ∃ (u : State) (n : Nat), exec (.freeHanks e) s = .next (u.ok r [(20, 4, n)]) ∧
        u.hanks = (s1.hanks.filter fun x => decide (x.id ≠ h.id)) ∧
        n = sumN ((s1.pages.filter fun x => decide (x.st = .hostHeld h.id)).map PageRun.count) ∧
        ∀ run ∈ u.pages, run.st ≠ .hostHeld h.id)) ∧
    (Accepts cmdMemFill e s s1 →
      let a := e.u 8 8
      let n := e.u 16 8
      (∀ g ∈ granules a n, s1.memPiece e.target g .write = some g ∧ s1.onLost g = false ∧ s1.region g ≠ .twin) →
      s1.poison = [] → (∀ x ∈ s1.accesses, x.partOf r = false) →
      ((∀ i, e.target = some i → s1.swatches[i].saveValid = false) →
        ∃ u : State, exec (.memFill e) s = .next (u.ok r) ∧ u.pages = s1.pages ∧
          ∀ j, memGet u.mem j = if a ≤ j ∧ j < a + n then BitVec.ofNat 8 (e.u 24 4 / 256 ^ ((j - a) % 4)) else memGet s1.mem j) ∧
      (∀ i, e.target = some i → s1.swatches[i].saveValid = true → 0x4000000 ≤ s1.swatches[i].saveBase.toNat →
        (∀ g ∈ granules a n, s1.ownStore i g = true) →
        ∃ u : State, exec (.memFill e) s = .next (u.ok r) ∧ ∀ j, a ≤ j → j < a + n →
          memGet u.mem j = BitVec.ofNat 8 (e.u 24 4 / 256 ^ ((j - a) % 4)) ∧
          memGet u.mem (s1.savedAt i j) = BitVec.ofNat 8 (e.u 24 4 / 256 ^ ((j - a) % 4)))) ∧
    (Accepts cmdMemCopy e s s1 →
      let a := e.u 8 8
      let b := e.u 16 8
      let n := e.u 24 8
      (∀ g ∈ granules a n, s1.memPiece e.target g .read = some g ∧ s1.isBad g = false ∧ s1.region g ≠ .twin ∧ s1.region g ≠ .views) →
      (∀ g ∈ granules b n, s1.memPiece e.target g .write = some g ∧ s1.onLost g = false ∧ s1.region g ≠ .twin) →
      s1.poison = [] → (∀ x ∈ s1.accesses, x.partOf r = false) →
      (∀ i, e.target = some i → s1.swatches[i].saveValid = false) →
      ∃ u : State, exec (.memCopy e) s = .next (u.ok r) ∧ u.pages = s1.pages ∧
        ∀ j, memGet u.mem j = if b ≤ j ∧ j < b + n then memGet s1.mem (a + (j - b)) else memGet s1.mem j)) ∧
  (∀ (e : Entry) (s s1 : State) (i : Fin 8), e.target = some i →
    let r := refOf e s1
    let w := s1.swatches[i]
    (Accepts cmdLoadProgram e s s1 →
      let b := s1.objRead e.sq (e.u 8 8) (e.u 16 4)
      ∃ (u : State) (copy : Option Nat), exec (.loadProgram e) s = .next (u.ok r [(20, 2, w.freeId)]) ∧
        u.swatches[i].programs = w.programs ++ [⟨w.freeId, w.progBytes, leAt b 8 4,
          (((sects b).find? fun x => decide (x.kind = 0)).map fun x => slice b x.from_ x.size).getD [], copy⟩] ∧
        u.needles = s1.needles ∧ ∀ j : Fin 8, j ≠ i → u.swatches[j] = s1.swatches[j]) ∧
    (Accepts cmdUnloadProgram e s s1 → ∀ p, w.program (e.u 8 2) = some p → ∃ u : State, exec (.unloadProgram e) s = .next (u.ok r) ∧
      u.swatches[i].programs = (w.programs.filter fun x => decide (x.id ≠ p.id)) ∧ (p.copy = none → u.pages = s1.pages)) ∧
    (Accepts cmdLoadStitchMap e s s1 →
      let b := s1.objRead e.sq (e.u 8 8) (e.u 16 4)
      exec (.loadStitchMap e) s = .next (State.ok (s1.modSw i fun w => { w with
        mapNext := some ⟨leAt b 10 1, mapChans b, b.drop (32 + 8 * leAt b 8 2)⟩ }) r [(20, 8, (s1.tick.count + 1).toNat)])))

/-- On the primary, from READY and while not tripped, a tick adds one to the row number, takes up the next period, adds the row's
length to the device time and leaves no WAIT_TICK of a row that has passed; else it changes nothing. At it a hard swatch whose row has
not finished is Frogged, with the overrun counted and no flip; finished work flips; a running loose swatch flips unless its gate holds.
A frogged swatch that has drained starts its next row, or its KNIT ends and it is Cast. A starting needle runs at its program's entry
with the arguments in s1 to s4. The end of the budget window notes an unfinished hard row. The publish gate counts its opens, and a
close at depth 0 is a bad access. QUERY_TICK answers, SET_TICK_PERIOD sets the next period, WAIT_TICK waits for its row. -/
def Obligations.RowTickAndGate : Prop :=
  (∀ s : State,
    (s.selv.ready = false ∨ s.fuses.primary = false ∨ s.tripped = true → exec .rowTick s = .next s) ∧
    (s.selv.ready = true → s.fuses.primary = true → s.tripped = false → ∃ t : State, exec .rowTick s = .next t ∧
      t.tick.count = s.tick.count + 1 ∧ t.tick.period = s.tick.nextPeriod ∧ t.tick.phase = 0 ∧
      t.deviceTime = s.deviceTime + BitVec.ofNat 64 s.tick.period.toNat ∧
      (∀ w ∈ t.tick.waits, s.tick.count.toNat < w.row.toNat) ∧
      ∀ i : Fin 8,
        let w := s.swatches[i]
        let u := t.swatches[i]
        let stays := u.flipCount = w.flipCount ∧ u.lastRow = w.lastRow ∧ u.overruns = w.overruns
        let flips := u.flipCount = w.flipCount + 1 ∧ u.lastRow = s.tick.count ∧ u.overruns = w.overruns
        (w.st = .knitting → w.startNext = false → w.cls = .hard → s.rowDone i = false → u.st = .frogged ∧
          u.flipCount = w.flipCount ∧ u.lastRow = w.lastRow ∧ u.overruns = satAdd w.overruns 1 ∧ u.status.getLsbD 0 = true) ∧
        (w.st = .knitting → w.startNext = false → s.rowDone i = true → flips ∧
          (∀ k, w.cls = .hard → w.knit = some k →
            u.st = (if { k with committed := k.committed + 1 }.more = true then .knitting else .cast)) ∧
          (w.cls ≠ .hard → w.knit.isSome = true → u.st = .cast ∧ u.knit = none)) ∧
        (w.st = .knitting → w.startNext = false → w.cls = .loose → s.rowDone i = false → u.st = .knitting ∧
          (w.pubDepth = 0 → flips) ∧ (w.pubDepth ≠ 0 → stays ∧ u.status.getLsbD 4 = true)) ∧
        (w.st = .knitting → w.startNext = false → w.cls = .free → s.rowDone i = false → stays ∧ u.st = .knitting) ∧
        (∀ k, (w.st = .knitting ∧ w.startNext = true) ∨ (w.st = .cast ∧ k.armed = true) → w.knit = some k →
          stays ∧ u.st = (if k.stop = true then .cast else .knitting) ∧ u.startNext = false) ∧
        (w.st = .held ∨ w.st = .unset → stays ∧ u.st = w.st))) ∧
  (∀ (s : State) (i : Fin 8) (row : DWord),
    let w := s.swatches[i]
    let t := (s.commitOne row (i, s.tickKind i)).swatches[i]
    let flipped := t.st = w.st ∧ t.flipCount = w.flipCount + 1 ∧ t.lastRow = row ∧ t.overruns = w.overruns ∧
      t.status = w.status ∧ (t.knit.map Knit.committed) = w.knit.map fun k => k.committed + 1
    (w.st = .knitting → w.startNext = false → w.cls = .hard →
      (s.rowDone i = true → flipped) ∧
      (s.rowDone i = false → t.st = .frogged ∧ t.flipCount = w.flipCount ∧ t.lastRow = w.lastRow ∧ t.status.getLsbD 0 = true ∧
        t.overruns.toNat = min 0xFFFFFFFF (w.overruns.toNat + 1) ∧
        (t.knit.map Knit.frogged) = (w.knit.map fun k => k.frogged + 1) ∧
        ∀ n : Fin 96, w.covers (skeinOf n) = true →
          (s.commitOne row (i, s.tickKind i)).needles[n] = (s.needles[n]).cleared)) ∧
    (w.st = .knitting → w.startNext = false → w.cls ≠ .hard → s.rowDone i = true → flipped) ∧
    (w.st = .knitting → w.startNext = false → w.cls = .loose → s.rowDone i = false →
      (w.pubDepth = 0 → flipped) ∧
      (w.pubDepth ≠ 0 → t.flipCount = w.flipCount ∧ t.status = setBit w.status 4 ∧ t.st = w.st)) ∧
    (w.st = .knitting → w.startNext = false → w.cls = .free → s.rowDone i = false → s.commitOne row (i, s.tickKind i) = s)) ∧
  (∀ (s : State) (i : Fin 8),
    (s.swatches[i].st ≠ .frogged ∨ s.anyAccess i = true → exec (.frogDrainDone i) s = .next s) ∧
    (∀ k, s.swatches[i].st = .frogged → s.anyAccess i = false → s.swatches[i].knit = some k →
      (k.more = true → ∃ t : State, exec (.frogDrainDone i) s = .next t ∧ t.swatches[i] = { s.swatches[i] with st := .knitting, finished := false } ∧
        ∀ n : Fin 96, t.needles[n] = if s.swatches[i].covers (skeinOf n) = true then (s.needles[n]).start k else s.needles[n]) ∧
      (k.more = false → ∃ t : State, exec (.frogDrainDone i) s = .next t ∧ t.swatches[i].st = .cast ∧ t.swatches[i].knit = none ∧
        t.swatches[i].pubDepth = 0 ∧ t.swatches[i].flipCount = s.swatches[i].flipCount)) ∧
    (s.swatches[i].knit = none → exec (.frogDrainDone i) s = .next s)) ∧
  (∀ (x : Needle) (k : Knit),
    let y := x.start k
    y.st = .running ∧ y.pc = BitVec.ofNat 17 k.entry.toNat ∧ y.s[0] = 0 ∧ y.s[1] = k.args[0] ∧ y.s[2] = k.args[1] ∧
    y.s[3] = k.args[2] ∧ y.s[4] = k.args[3] ∧ (∀ j : Fin 32, 5 ≤ j.val → y.s[j] = 0) ∧ y.retired = x.retired) ∧
  (∀ (s : State) (i : Fin 8),
    let w := s.swatches[i]
    exec (.budgetWindowEnd i) s = .next (if w.st = .knitting ∧ w.startNext = false ∧ w.cls = .hard ∧ s.rowDone i = false
      then s.swStatus i 1 else s) ∧
    (w.st = .unset → exec (.swtPubOpen i) s = .next s ∧ exec (.swtPubClose i) s = .next s) ∧
    (w.st ≠ .unset →
      exec (.swtPubOpen i) s = .next (s.modSw i fun w => { w with pubDepth := satAdd w.pubDepth 1 }) ∧
      (w.pubDepth = 0 → exec (.swtPubClose i) s = .next (s.swStatus i 5)) ∧
      (w.pubDepth ≠ 0 → exec (.swtPubClose i) s = .next (s.modSw i fun w => { w with pubDepth := w.pubDepth - 1 })))) ∧
  (∀ (e : Entry) (s s1 : State),
    let r := refOf e s1
    (Accepts cmdQueryTick e s s1 → exec (.queryTick e) s =
      .next (s1.ok r [(20, 4, s1.tick.period.toNat), (24, 8, s1.tick.count.toNat), (32, 1, s1.hardMask)])) ∧
    (Accepts cmdSetTickPeriod e s s1 → exec (.setTickPeriod e) s = .next (State.ok
      { s1 with tick := { s1.tick with nextPeriod := BitVec.ofNat 32 (e.u 8 4) } } r [(20, 8, (s1.tick.count + 1).toNat)])) ∧
    (Accepts cmdWaitTick e s s1 → exec (.waitTick e) s = .next (({ s1 with
      jobs := s1.jobs ++ [(r, 0x502, e.params.toList)]
      tick := { s1.tick with waits := s1.tick.waits ++
        [⟨r, if e.u 8 8 < s1.tick.count.toNat then s1.tick.count else BitVec.ofNat 64 (e.u 8 8)⟩] } } : State))))

/-- LOAD_CARD_PROGRAM loads every carder named, an edge carder once its job has ended: each record replaces its slot, every other slot and
word stays. A view access of a user in no swatch, one the view does not take, and one no window admits, is refused, which faults a running
needle with CAUSE 3 and a running core; one taken is sent, or told that its bytes are bad, and while a load waits nothing happens. A
carder's drain goes before its mover's descriptor, and a carder without a job, or without power, does nothing. The aging monitor
stores its margin, and below the limit its skein becomes suspect, as by too many droops within 1 s, each counted; a row to spare takes a
free spare row, else the skein becomes suspect. The scrub moves to its next granule and changes no data. A maintenance packet of the
firmware, no other, enters a router of its own swatch or of none, and sends back what it asks for; a router takes the rectangle and swatch it is given. -/
def Obligations.CardersAndRepair : Prop :=
  (∀ (e : Entry) (s s1 : State), Accepts cmdLoadCardProgram e s s1 →
    let b := s1.objRead e.sq (e.u 8 8) (e.u 16 4)
    (e.target = none → (∀ p : Fin 10, (s1.edgeCarders[p]).loads = []) →
      ((∀ p : Fin 10, (e.u 24 2).testBit p.val = true → s1.viewJob p = none) →
        ∃ t : State, exec (.loadCardProgram e) s = .next (t.ok (refOf e s1)) ∧ t.skeins = s1.skeins ∧
        t.saves = s1.saves ∧ t.mem = s1.mem ∧
        ∀ p : Fin 10, t.edgeCarders[p] = if (e.u 24 2).testBit p.val then (s1.edgeCarders[p]).load b else s1.edgeCarders[p]) ∧
      (∀ p : Fin 10, (e.u 24 2).testBit p.val = true → (s1.viewJob p).isSome = true →
        ∃ t : State, exec (.loadCardProgram e) s = .next t ∧ t.jobs = s1.jobs ++ [(refOf e s1, 0x302, e.params.toList)] ∧
        t.edgeCarders[p] = { s1.edgeCarders[p] with loads := [(refOf e s1, b)] })) ∧
    (∀ i, e.target = some i → s1.saves[i] = none → ∃ t : State, exec (.loadCardProgram e) s = .next (t.ok (refOf e s1)) ∧
      t.edgeCarders = s1.edgeCarders ∧ t.mem = s1.mem ∧
      ∀ (k : Fin 16) (m : Fin 2), (t.skeins[k]).carders[m] =
        if (e.u 20 4).testBit (2 * k.val + m.val) then ((s1.skeins[k]).carders[m]).load b else (s1.skeins[k]).carders[m])) ∧
  (∀ (c : Carder) (b : List Byte) (j : Fin 16),
    (∀ r ∈ (cardRecords b (leAt b 6 1) 32).1, leAt r 0 1 ≤ 15 ∧ leAt r 0 1 ≠ j.val) → (c.load b).slots[j] = c.slots[j]) ∧
  (∀ (c : Carder) (b : List Byte),
    let l := (cardRecords b (leAt b 6 1) 32).1
    (∀ r ∈ l, leAt r 0 1 ≤ 15) → (l.map fun r => leAt r 0 1).Nodup →
    ∀ r ∈ l, (c.load b).slots[Fin.ofNat 16 (leAt r 0 1)] = r) ∧
  (∀ (c : Carder) (b : List Byte) (j : Fin 2048), leAt b 10 2 ≤ j.val → j.val < leAt b 10 2 + leAt b 8 2 →
    (c.load b).params[j] =
      BitVec.ofNat 32 (leAt b ((cardRecords b (leAt b 6 1) 32).2 + 4 * (j.val - leAt b 10 2)) 4)) ∧
  (∀ (c : Carder) (b : List Byte) (j : Fin 2048), (j.val < leAt b 10 2 ∨ leAt b 10 2 + leAt b 8 2 ≤ j.val) →
    (c.load b).params[j] = c.params[j]) ∧
  (∀ (s : State) (p : Fin 10) (v : Fin 4) (off : BitVec 30) (u : ViewUser) (d : List Byte),
    let told (c : Nat) (write : Bool) (a : Nat) (s : State) : State :=
      let s := s.emit (.viewData p v false [])
      match u with
      | .needle n => if (s.needles[n]).st = .running then s.needleFault n c (s.needles[n]).pc.toNat a else s
      | .core k => if (s.distaffs[k]).st ≠ .running then s
        else if c = 5 then s.corePoisoned k (if write then 7 else 5) a else s.coreRefused k (if write then 7 else 5) a
    let g := off.toNat / 64 * 64
    let ra := viewAddr p v + g
    let wa := viewAddr p v + off.toNat
    let pc := match u with
      | .needle n => (s.needles[n]).pc.toNat
      | .core _ => 0
    ((s.viewUser u).1 = none → exec (.cardViewRead p v off u) s = .next (told 3 false ra s) ∧
      exec (.cardViewWrite p v off u d) s = .next (told 3 true wa s)) ∧
    (∀ i draft, s.viewUser u = (some i, draft) →
      (s.viewTakes p v g false = false →
        exec (.cardViewRead p v off u) s = .next (told 3 false ra (s.viewRefused p))) ∧
      (s.viewTakes p v off.toNat true = false ∨ wrId draft ≠ 0 ∨ off.toNat % 64 ≠ 0 ∨ d.length ≠ 64 →
        exec (.cardViewWrite p v off u d) s = .next (told 3 true wa (s.viewRefused p))) ∧
      (s.viewTakes p v g false = true → (s.edgeCarders[p]).loads ≠ [] → exec (.cardViewRead p v off u) s = .next s) ∧
      (s.viewTakes p v g false = true → (s.edgeCarders[p]).loads = [] → ∀ t ans,
        s.viewReadNow i draft (whoOf u) p v g 0 64 (.viewOut p v) pc = (t, ans) → t.mem = s.mem ∧ t.edgeCarders = s.edgeCarders ∧
        (ans = .sent → exec (.cardViewRead p v off u) s = .next t) ∧
        (ans = .refused → exec (.cardViewRead p v off u) s = .next (told 3 false ra t)) ∧
        (ans = .bad → exec (.cardViewRead p v off u) s = .next (told 5 false ra t))) ∧
      (s.viewTakes p v off.toNat true = true → wrId draft = 0 → off.toNat % 64 = 0 → d.length = 64 →
        ((s.edgeCarders[p]).loads ≠ [] → exec (.cardViewWrite p v off u d) s = .next s) ∧
        ((s.edgeCarders[p]).loads = [] → ∀ t ans, s.viewWrite i draft (whoOf u) p v off.toNat d 0 = (t, ans) →
          (ans = .sent → exec (.cardViewWrite p v off u d) s = .next t) ∧
          (ans = .refused → exec (.cardViewWrite p v off u d) s = .next (told 3 true wa t)) ∧
          (ans = .bad → exec (.cardViewWrite p v off u d) s = .next (told 5 true wa t)))))) ∧
  (∀ (s : State) (k : Fin 16) (m : Fin 2),
    (s.moverRuns k = false ∨ ((s.skeins[k]).carders[m]).jobs = [] → exec (.cardJob k m) s = .next s) ∧
    (∀ (l : List (Fin 16 × Fin 2)) (n : Fin 96) (unit : Fin 16) (rest : List CardJob), s.moverRuns k = true →
      ((s.skeins[k]).carders[m]).jobs = (l.map fun x => CardJob.mover x.1 x.2) ++ .drain n unit :: rest →
      exec (.cardJob k m) s = .next (s.drainCard k m n unit)) ∧
    (∀ (q : Fin 16) (x : Fin 2), s.moverRuns k = true → ((s.skeins[k]).carders[m]).jobs = [.mover q x] →
      exec (.cardJob k m) s = .next (s.moverCard q x))) ∧
  (∀ (s : State) (p : Fin 20) (margin : Byte),
    (s.monitored p = false → exec (.agingMeasurement p margin) s = .next s ∧ exec (.droopEvent p) s = .next s) ∧
    (s.monitored p = true → ∃ t : State, exec (.agingMeasurement p margin) s = .next t ∧
      t.rep.aging[p].toNat = margin.toNat + 256 ∧ t.map = s.map) ∧
    (s.monitored p = true → fld s.rep.limits 7 0 ≤ margin.toNat → fld s.rep.limits 15 8 ≤ margin.toNat →
      exec (.agingMeasurement p margin) s =
        .next (({ s with rep := { s.rep with aging := s.rep.aging.set p (mkW [(0, 8, margin.toNat), (8, 1, 1)]) } } : State))) ∧
    (s.monitored p = true → margin.toNat < fld s.rep.limits 15 8 → ∃ t : State, exec (.agingMeasurement p margin) s = .next t ∧
      t.rep.suspect.getLsbD p.val = true ∧ t.rep.pending = true ∧ t.rep.pendingFull = true ∧ t.rep.events.getLsbD 0 = true) ∧
    (s.monitored p = true → ∃ t : State, exec (.droopEvent p) s = .next t ∧ t.rep.droop[p] = satAdd s.rep.droop[p] 1 ∧
      t.rep.droopQuery = s.rep.droopQuery + 1 ∧ t.rep.events.getLsbD 3 = true ∧ t.map = s.map ∧
      (fld s.rep.limits 31 16 < (s.rep.droopRecent[p].filter fun x => decide ((s.deviceTime - x).toNat < 100000000)).length + 1 →
        t.rep.suspect.getLsbD p.val = true ∧ t.rep.pendingFull = true))) ∧
  (∀ (s : State) (k bank : Fin 16) (row : Fin 256),
    (s.map.skeins[k] = none → exec (.rowSpareCopyDone k bank row) s = .next s) ∧
    (∀ l, s.map.skeins[k] = some l →
      ((s.skeins[k]).spareRows[bank].toNat < 8 → ∃ t : State, exec (.rowSpareCopyDone k bank row) s = .next t ∧
        (t.skeins[k]).spareRows[bank] = (s.skeins[k]).spareRows[bank] + 1 ∧ t.rep.suspect = s.rep.suspect ∧
        (s.rep.entries.length < 1024 → ∃ x ∈ t.rep.entries, x.kind = 2 ∧ x.num = BitVec.ofNat 32 l.phys.val ∧
          x.bankRow = BitVec.ofNat 16 (bank.val * 256 + row.val) ∧ x.die = !s.fuses.primary)) ∧
      (8 ≤ (s.skeins[k]).spareRows[bank].toNat → ∃ t : State, exec (.rowSpareCopyDone k bank row) s = .next t ∧
        t.skeins = s.skeins ∧ t.rep.suspect.getLsbD l.phys.val = true ∧ t.rep.pending = true ∧
        t.rep.pendingFull = s.rep.pendingFull))) ∧
  (∀ (s : State) (c q : Bool),
    exec (.scrubRead c q) s = .next (if s.selv.st.working = true then
      ({ s with rep := { s.rep with scrub := s.nextScrub s.rep.scrub } } : State) else s)) ∧
  (∀ (s : State) (k : Fin 16) (h : PktHead) (off : BitVec 22) (d : List Byte),
    let m := (s.skeins[k]).mesh
    let len := min 256 d.length
    let a := 0x400000 * k.val + off.toNat
    (h.issuer ≠ .firmware → exec (.censusLoopback k h) s = .next s ∧ ∀ w, exec (.saveAndRestore k h w off d) s = .next s) ∧
    (h.issuer = .firmware → m.swatch = none ∨ m.refuses h [h.dst] false = none →
      exec (.censusLoopback k h) s = .next (s.emit (.maintenance (if k = h.dst then h.back else h) 11 [])) ∧
      (k ≠ h.dst → ∀ w, exec (.saveAndRestore k h w off d) s = .next (s.emit (.maintenance h 12 d))) ∧
      (k = h.dst → off.toNat + len ≤ 0x400000 →
        exec (.saveAndRestore k h true off d) s = .next (s.put a ((d.take len).map some)) ∧
        exec (.saveAndRestore k h false off d) s = .next (s.emit (.maintenance h.back 12 (memRead s.mem a len))))) ∧
    (∀ bit, h.issuer = .firmware → m.swatch.isSome = true → m.refuses h [h.dst] false = some bit →
      exec (.censusLoopback k h) s = .next (State.swStatus (s.modMesh k fun m => m.drop h bit 3 11) h.swatch 5) ∧
      ∀ w, exec (.saveAndRestore k h w off d) s = .next (State.swStatus (s.modMesh k fun m => m.drop h bit 3 12) h.swatch 5)) ∧
    (∀ (sw : Option (Fin 8)) (c0 w0 c1 w1 : Fin 4), exec (.routerConfiguration k sw c0 w0 c1 w1) s =
      .next (({ s with skeins := s.skeins.set k { s.skeins[k] with mesh :=
        { m with swatch := sw, course0 := c0, wale0 := w0, coursesM1 := c1, walesM1 := w1 } } } : State))))

/-- BIND_BOBBIN sets the bobbin as asked; RUN_BOBBIN starts or stops it and answers its state, deferred while the opposite change runs;
UNBIND_BOBBIN stops and frees it, or waits for the frame it sends; QUERY_BOBBIN answers its counts. A frame that begins takes the next
SEQ, and the next slot if the ring has one free, else it is dropped and counted; its payload is cut at FRAME with TRUNC, and its end
makes it complete, written with ROW and LENGTH; an access refused drops the frame and sets ACCESS, a ring in low power drops it without
one, and a stop discards and counts the frame being written (log 180). PRODUCED is published at the tick. CSI-2 rows act on an enabled port's running bobbins
of their channel, a port being enabled only with lanes and a rate the spec lists: a start closes an open frame with TRUNC, a packet of a
failed CRC or header sets CRC_ERR, a discarded one, or of a type that no bobbin takes, adds nothing. An IBI of at most 256 bytes is one
frame, a longer one nothing. A hot join takes the lowest free address in the first free entry, and without one nothing. -/
def Obligations.StreamCommandsAndInputFrames : Prop :=
  (∀ (e : Entry) (s s1 : State),
    let r := refOf e s1
    let n := bobOf e
    let b := s1.bobbins[n]
    (Accepts cmdBindBobbin e s s1 → exec (.bindBobbin e) s = .next (State.ok
      { s1 with bobbins := s1.bobbins.set n (bindRequest e b) } r)) ∧
    (∀ x : Bobbin, let y := bindRequest e x
      y.bound = true ∧ y.source.toNat = e.u 9 1 % 4 ∧ y.port.toNat = e.u 10 1 % 8 ∧ y.channel.toNat = e.u 11 1 ∧
      y.dirOut = decide (e.u 12 1 = 1) ∧ y.log2Slots.toNat = e.u 13 1 % 16 ∧ y.fsm = EnFsm.off ∧ y.swatch = e.target ∧
      y.frame = BitVec.ofNat 32 (e.u 16 4) ∧ y.ring = BitVec.ofNat 64 (e.u 24 8) ∧ y.published = 0 ∧ y.dropped = 0 ∧
      y.seq = 0 ∧ y.opened = none) ∧
    (Accepts cmdUnbindBobbin e s s1 →
      let free : State := s1.replyOpt b.runCmd stConflict 2
      let b : Bobbin := { b with runCmd := none }
      ((b.dirOut = false ∨ b.opened = none ∨ b.fsm.st = .off) → exec (.unbindBobbin e) s = .next (State.ok
        { free with bobbins := s1.bobbins.set n b.unbind } r)) ∧
      (b.dirOut = true → b.opened.isSome = true → b.fsm.st ≠ .off → exec (.unbindBobbin e) s = .next (({ free with
        jobs := free.jobs ++ [(r, 0x401, e.params.toList)]
        bobbins := s1.bobbins.set n { b with fsm := b.fsm.disable, unbindCmd := some r } } : State)))) ∧
    (Accepts cmdRunBobbin e s s1 →
      let free : State := s1.replyOpt b.runCmd stConflict 2
      let b : Bobbin := { b with runCmd := none }
      let run : State := { free with bobbins := s1.bobbins.set n (if e.u 9 1 = 1 then { b with fsm := b.fsm.enable } else b.stop) }
      (¬(e.u 9 1 = 1 ∧ b.fsm.st = .falling) → ¬(e.u 9 1 ≠ 1 ∧ b.fsm.st = .rising) →
        exec (.runBobbin e) s = .next (run.ok r [(20, 1, run.bobStatus n)])) ∧
      ((e.u 9 1 = 1 ∧ b.fsm.st = .falling) ∨ (e.u 9 1 ≠ 1 ∧ b.fsm.st = .rising) → exec (.runBobbin e) s = .next (({ run with
        jobs := run.jobs ++ [(r, 0x402, e.params.toList)]
        bobbins := run.bobbins.set n { run.bobbins[n] with runCmd := some r } } : State)))) ∧
    (Accepts cmdQueryBobbin e s s1 → exec (.queryBobbin e) s =
      .next (s1.ok r [(20, 8, b.published.toNat), (28, 4, b.dropped.toNat), (32, 8, b.lastRow.toNat)]))) ∧
  (∀ (b : Bobbin), b.unbind.bound = false ∧ b.unbind.swatch = none ∧ b.unbind.opened = none ∧ b.unbind.complete = b.published.toNat) ∧
  (∀ (s : State) (n : Fin 48) (time : DWord) (info : Nat),
    let low := s.bobLowPower n
    let counted := s.bobGet s.bobbins[n] (s.countAddr s.bobbins[n]) 8
    let u := if low = true then s else s.readCount n
    let b := u.bobbins[n]
    let slot := u.bobAt b (b.ring.toNat + b.slotOff (b.written + 1)) 64 true
    let t := s.openFrame n time info
    let y := t.bobbins[n]
    y.seq = b.seq + 1 ∧ t.mem = s.mem ∧
    (low = false → counted.isSome = true → b.written - b.consumed < b.size → slot.isSome = true →
      y.written = b.written + 1 ∧ y.dropped = b.dropped ∧ y.dropsSince = 0 ∧ y.events = b.events ∧
      y.opened = some ⟨some (b.written + 1), b.seq + 1, time, 0, if b.dropsSince = 0 then 0 else 4, BitVec.ofNat 32 info⟩) ∧
    (low = true ∨ counted = none ∨ b.size ≤ b.written - b.consumed ∨ slot = none → y.written = b.written ∧
      y.dropped = satAdd b.dropped 1 ∧ y.events.getLsbD 0 = true ∧ y.dropsSince = b.dropsSince + 1 ∧ y.dropsRow = b.dropsRow + 1 ∧
      ∃ f : OpenFrame, y.opened = some f ∧ f.slot = none ∧ f.seq = b.seq + 1) ∧
    (low = true ∨ (counted.isSome = true ∧ b.size ≤ b.written - b.consumed) → y.events = setBit b.events 0) ∧
    (low = false → counted = none ∨ (b.written - b.consumed < b.size ∧ slot = none) → y.events.getLsbD 5 = true)) ∧
  (∀ (s : State) (n : Fin 48) (d : List Byte) (extra : Word),
    let b := s.bobbins[n]
    (b.opened = none → s.addPayload n d = s ∧ s.closeFrame n extra = s) ∧
    (∀ f : OpenFrame, b.opened = some f →
      let put := fun k off len => s.bobRows b (b.ring.toNat + b.slotOff k + off) len true
      let y := (s.addPayload n d).bobbins[n]
      let z := (s.closeFrame n extra).bobbins[n]
      ((∀ k, f.slot = some k → (put k (64 + f.len) d.length).isSome = true) → f.len + d.length ≤ b.frame.toNat →
        y.opened = some { f with len := f.len + d.length } ∧ y.events.getLsbD 1 = b.events.getLsbD 1 ∧ y.dropped = b.dropped) ∧
      ((∀ k, f.slot = some k → (put k (64 + f.len) (b.frame.toNat - f.len)).isSome = true) →
        f.len ≤ b.frame.toNat → b.frame.toNat < f.len + d.length →
        y.opened = some { f with len := b.frame.toNat, flags := setBit f.flags 0 } ∧ y.events.getLsbD 1 = true) ∧
      (∀ k, f.slot = some k → d ≠ [] → f.len + d.length ≤ b.frame.toNat → put k (64 + f.len) d.length = none →
        y.opened = some { f with slot := none, len := f.len + d.length } ∧ y.written = b.written - 1 ∧
        y.dropped = satAdd b.dropped 1 ∧ y.events.getLsbD 0 = true ∧ y.events.getLsbD 5 = true ∧ (s.addPayload n d).mem = s.mem) ∧
      z.opened = none ∧
      ((∀ k, f.slot = some k → (put k 0 64).isSome = true) → z.complete = b.complete + (if f.slot.isSome then 1 else 0)) ∧
      (∀ k, f.slot = some k → put k 0 64 = none → z.complete = b.complete ∧ z.written = b.written - 1 ∧
        z.dropped = satAdd b.dropped 1 ∧ z.events.getLsbD 0 = true ∧ z.events.getLsbD 5 = true ∧ (s.closeFrame n extra).mem = s.mem) ∧
      (∀ k x, f.slot = some k → b.ring.toNat % 256 = 0 → (∀ i, b.swatch = some i → s.swatches[i].saveValid = false) →
        s.bobAt b (b.ring.toNat + b.slotOff k) 64 true = some x → (s.closeFrame n extra).mem =
        (s.put x ((slotHeader f.seq.toNat f.time.toNat s.tick.count.toNat f.len (f.flags ||| extra).toNat f.info.toNat).map
          some)).mem))) ∧
  (∀ b : Bobbin, let y := b.stop
    y.fsm = b.fsm.disable ∧ y.complete = b.complete ∧ y.published = b.published ∧
    (b.dirOut = true → y = { b with fsm := b.fsm.disable }) ∧
    (b.dirOut = false → y.opened = none ∧
      (∀ f k, b.opened = some f → f.slot = some k → y.dropped = satAdd b.dropped 1 ∧ y.written = b.written - 1 ∧
        y.events = setBit b.events 0) ∧
      ((∀ f, b.opened = some f → f.slot = none) → y.dropped = b.dropped ∧ y.written = b.written ∧ y.events = b.events))) ∧
  (∀ (s : State) (n : Fin 48),
    let b := s.bobbins[n]
    (b.bound = false ∨ b.dirOut = true ∨ b.complete = b.published.toNat ∨ s.bobLowPower n = true → s.publishOne n = s) ∧
    (∀ a, b.bound = true → b.dirOut = false → b.complete ≠ b.published.toNat → s.bobLowPower n = false → s.bobAt b (b.ring.toNat + 16) 8 true = some a →
      ((∀ i, b.swatch = some i → s.swatches[i].saveValid = false) →
        (s.publishOne n).mem = (s.put a ((leBytes 8 b.complete).map some)).mem) ∧
      (s.publishOne n).bobbins[n] = { b with published := BitVec.ofNat 64 b.complete, lastRow := s.tick.count })) ∧
  (∀ (s : State) (p : Fin 8) (vc : Fin 16) (time : DWord) (dt : BitVec 6) (h : EccResult) (crc : Bool) (d : List Byte),
    let cfg := s.io.csiCfg[p]
    let failed := fun (w : Word) => bumpHalf w true
    let fed := s.feeding 0 p.val fun c => decide (fld c 3 0 = vc.val)
    let group := s.feeding 0 p.val fun c => decide (fld c 3 0 = vc.val) && decide (fld c 7 4 = csiGroup dt)
    (s.csiOn p = true ↔ cfg.getLsbD 5 = true ∧ (fld cfg 2 0 = 1 ∨ fld cfg 2 0 = 2 ∨ fld cfg 2 0 = 4) ∧
      8 ≤ fld cfg 15 8 ∧ fld cfg 15 8 ≤ 250) ∧
    (s.csiOn p = false → exec (.csi2FrameStart p vc time) s = .next s ∧ exec (.csi2Packet p vc dt h crc d) s = .next s ∧
      exec (.csi2FrameEnd p vc) s = .next s) ∧
    (s.csiOn p = true →
      exec (.csi2FrameStart p vc time) s = .next (fed.foldl (fun u n => (u.closeFrame n 1).openFrame n time vc.val)
        (s.modCsi p (fun w => setBit w 5) id)) ∧
      exec (.csi2FrameEnd p vc) s = .next (fed.foldl (fun u n => u.closeFrame n 0) (s.modCsi p (fun w => clrBit w 5) id)) ∧
      exec (.csi2Packet p vc dt .failed crc d) s = .next (fed.foldl (fun u n => u.modBob n fun b => { b with
        opened := b.opened.map fun f => { f with flags := setBit f.flags 1 }
        events := if b.opened.isSome then setBit b.events 2 else b.events }) (s.modCsi p id failed)) ∧
      (group = [] → exec (.csi2Packet p vc dt .ok crc d) s = .next (if crc = true then s else s.modCsi p id failed))) ∧
    (∀ (n : Fin 48) (f : OpenFrame), s.csiOn p = true → h ≠ .failed → s.bobbins[n].opened = some f → group = [n] →
      let line := d ++ List.replicate ((64 - d.length % 64) % 64) 0
      let t : State := if h = .corrected then s.modCsi p id (fun w => bumpHalf w false) else s
      let g : OpenFrame := { f with info := if f.len = 0 then BitVec.ofNat 32 (vc.val + 256 * dt.toNat) else f.info }
      line.length % 64 = 0 ∧
      (crc = true → exec (.csi2Packet p vc dt h crc d) s =
        .next (State.addPayload (t.modBob n fun b => { b with opened := some g }) n line)) ∧
      (crc = false → exec (.csi2Packet p vc dt h crc d) s =
        .next (State.addPayload ((t.modCsi p id failed).modBob n fun b =>
          { b with opened := some { g with flags := setBit f.flags 1 }, events := setBit b.events 2 }) n line)))) ∧
  (∀ (s : State) (c : Fin 2) (addr : BitVec 7) (time : DWord) (d : List Byte),
    (s.io.i3cCfg[c].getLsbD 5 = false → exec (.ibi c addr time d) s = .next s ∧ exec (.hotJoin c) s = .next s) ∧
    (256 < d.length → exec (.ibi c addr time d) s = .next s) ∧
    (s.io.i3cCfg[c].getLsbD 5 = true → d.length ≤ 256 → exec (.ibi c addr time d) s =
      .next ((s.feeding 2 c.val fun x => decide (x.toNat = addr.toNat)).foldl (fun u n =>
        State.closeFrame ((u.openFrame n time addr.toNat).addPayload n d) n 0) s)) ∧
    ((∀ t : Fin 32, s.io.i3cDat[c][t].getLsbD 15 = true) → exec (.hotJoin c) s = .next s) ∧
    (s.io.i3cCfg[c].getLsbD 3 = false → exec (.hotJoin c) s = .next s) ∧
    (∀ (t : Fin 32) (a : Nat),
      let dat := s.io.i3cDat[c]
      let used := fun a : Nat => ∃ j : Fin 32, (dat[j].getLsbD 15 = true ∧ fld dat[j] 14 8 = a) ∨ fld dat[j] 6 0 = a
      s.io.i3cCfg[c].getLsbD 5 = true → s.io.i3cCfg[c].getLsbD 3 = true →
      dat[t].getLsbD 15 = false → (∀ j : Fin 32, j < t → dat[j].getLsbD 15 = true) →
      8 ≤ a → a < 0x7E → ¬used a → (∀ x, 8 ≤ x → x < a → used x) →
      exec (.hotJoin c) s = .next (({ s with io := { s.io with
        i3cDat := s.io.i3cDat.set c (dat.set t ((dat[t] &&& 0xFF) ||| BitVec.ofNat 32 (0x8000 + 256 * a))) } } : State))))

/-- OUTPUT_FRAME_SENT sends the next frame of a running output bobbin and writes its count back; an I3C frame not acknowledged is dropped
and counted. A sample instant adds one sample of each channel to an input frame, which closes at FRAME bytes, or to the output frame being
sent, or begins the next frame to send, or sets UNDERRUN and sends zeros. A poll of a running bobbin's host ring takes the new frames,
each answered in the host ring's CONSUMED, or gives hank frames to the host. At Shuskaub's tick of the row just closed the counts are
read, but for a ring in low power: a consumer count above what was published is taken as that with CONSUMED_BAD, and frames produced
beyond the ring are dropped and counted. -/
def Obligations.OutputFramesAndHostRings : Prop :=
  (∀ (s : State) (n : Fin 48) (ack : Bool),
    let b := s.bobbins[n]
    let y := (s.passOver n b.size).bobbins[n]
    let running := b.bound = true ∧ b.dirOut = true ∧ b.source ≠ 3 ∧ (b.fsm.st = .on ∨ (b.fsm.st = .falling ∧ b.opened.isSome = true))
    (¬running → exec (.outputFrameSent n ack) s = .next s) ∧
    (running → y.produced ≤ y.consumed → exec (.outputFrameSent n ack) s = .next (s.passOver n b.size)) ∧
    (running → y.consumed < y.produced → (y.source = 1 → ∃ f, y.opened = some f ∧ y.frame.toNat ≤ f.len) →
      (y.source ≠ 2 ∨ ack = true → exec (.outputFrameSent n ack) s =
        .next (State.writeCount (((s.passOver n b.size).emit (.frameOut n ((s.passOver n b.size).frameBytes y (y.consumed + 1)))).modBob n
          fun _ => { y with published := y.published + 1, consumed := y.consumed + 1, opened := none }) n)) ∧
      (y.source = 2 → ack = false → exec (.outputFrameSent n ack) s =
        .next (State.writeCount ((s.passOver n b.size).modBob n fun _ =>
          { y with dropped := satAdd y.dropped 1, events := setBit y.events 0, dropsSince := y.dropsSince + 1,
                   dropsRow := y.dropsRow + 1, consumed := y.consumed + 1, opened := none }) n))) ∧
    (running → y.source = 1 → (∀ f, y.opened = some f → f.len < y.frame.toNat) →
      exec (.outputFrameSent n ack) s = .next (s.passOver n b.size))) ∧
  (∀ (s : State) (n : Fin 48) (x : Nat), s.bobAt s.bobbins[n] (s.countAddr s.bobbins[n]) 8 true = some x →
    s.countAddr s.bobbins[n] % 256 ≤ 248 → (∀ i, s.bobbins[n].swatch = some i → s.swatches[i].saveValid = false) →
    s.writeCount n = s.put x ((leBytes 8 s.bobbins[n].consumed).map some)) ∧
  (∀ (s : State) (n : Fin 48) (h : List Byte),
    let b := s.bobbins[n]
    (b.produced ≤ b.consumed → ∀ k, s.passOver n k = s) ∧
    (b.consumed < b.produced → b.skipped (b.consumed + 1) = false →
      s.bobGet b (b.ring.toNat + b.slotOff (b.consumed + 1)) 64 = some h → leAt h 0 8 = b.consumed + 1 →
      ∀ k, s.passOver n k = s)) ∧
  (∀ (s : State) (n : Fin 48) (time : DWord) (l : List Word),
    let b := s.bobbins[n]
    (b.bound = false ∨ b.source ≠ 1 ∨ s.sdwEntry b.port.toNat b.channel = none →
      exec (.soundwireSampleInstant n time l) s = .next s) ∧
    (∀ m bits rate, b.bound = true → b.source = 1 → s.sdwEntry b.port.toNat b.channel = some (m, bits, rate) →
      (b.dirOut = false → b.fsm.st ≠ .on → exec (.soundwireSampleInstant n time l) s = .next s) ∧
      (b.dirOut = false → b.fsm.st = .on →
        let t := if b.opened.isSome = true then s else s.openFrame n time (popN m + 16 * rate)
        let t := t.addPayload n (((List.range (popN m)).map fun i =>
          leBytes 4 ((l.getD i 0) &&& BitVec.ofNat 32 (2 ^ 32 - 2 ^ (32 - bits))).toNat).flatten)
        ((t.bobbins[n].opened.map OpenFrame.len) = some t.bobbins[n].frame.toNat →
          exec (.soundwireSampleInstant n time l) s = .next (t.closeFrame n 0)) ∧
        ((t.bobbins[n].opened.map OpenFrame.len) ≠ some t.bobbins[n].frame.toNat →
          exec (.soundwireSampleInstant n time l) s = .next t)) ∧
      (b.dirOut = true → b.fsm.st = .off ∨ b.fsm.st = .rising → exec (.soundwireSampleInstant n time l) s = .next s) ∧
      (∀ f, b.dirOut = true → b.fsm.st = .on ∨ b.fsm.st = .falling → b.opened = some f →
        exec (.soundwireSampleInstant n time l) s =
          .next (s.modBob n fun b => { b with opened := some { f with len := f.len + 4 * popN m } })) ∧
      (b.dirOut = true → b.fsm.st = .on → b.opened = none → b.produced ≤ b.consumed →
        exec (.soundwireSampleInstant n time l) s =
          .next ((s.modBob n fun b => { b with events := setBit b.events 4 }).emit (.zeroSample n (popN m)))) ∧
      (b.dirOut = true → b.fsm.st = .falling → b.opened = none → exec (.soundwireSampleInstant n time l) s = .next s) ∧
      (b.dirOut = true → b.fsm.st = .on → b.opened = none →
        let t := s.passOver n b.size
        (t.bobbins[n].consumed < t.bobbins[n].produced → exec (.soundwireSampleInstant n time l) s = .next (t.modBob n fun b =>
          { b with opened := some ⟨some (b.consumed + 1), 0, time, 4 * popN m, 0, 0⟩ })) ∧
        (t.bobbins[n].produced ≤ t.bobbins[n].consumed → exec (.soundwireSampleInstant n time l) s =
          .next ((t.modBob n fun b => { b with events := setBit b.events 4 }).emit (.zeroSample n (popN m))))))) ∧
  (∀ (s : State) (n : Fin 48) (time : DWord),
    let b := s.bobbins[n]
    let running := b.bound = true ∧ b.source = 3 ∧ b.fsm.st = .on ∧ s.hostPath.isSome = true
    (¬running → exec (.hostRingPoll n time) s = .next s) ∧
    (running → s.hostRing b = none →
      exec (.hostRingPoll n time) s = .next (s.modBob n fun b => { b with events := setBit b.events 5 })) ∧
    (∀ h, running → s.hostRing b = some h →
      let p := leNat (memRead s.mem (h + 16) 8)
      (b.dirOut = false → exec (.hostRingPoll n time) s = .next
        ((List.range (min (p - b.produced) b.size)).foldl (fun u i => u.takeHost n h time (b.produced + 1 + i)) s)) ∧
      (b.dirOut = true → exec (.hostRingPoll n time) s = .next ((List.range b.size).foldl (fun u _ => u.giveHost n h time) s)) ∧
      (b.dirOut = true → b.produced ≤ b.consumed → exec (.hostRingPoll n time) s = .next s)) ∧
    (∀ h k, ((s.takeHost n h time k).bobbins[n]).produced = k ∧ ((s.takeHost n h time k).bobbins[n]).opened = none ∧
      (s.poison = [] → memRead (s.takeHost n h time k).mem (h + 32) 8 = leBytes 8 k))) ∧
  (∀ (s : State) (row : DWord),
    (s.selv.ready = false ∨ row + 1 ≠ s.tick.count → exec (.shusTick row) s = .next s) ∧
    (s.selv.ready = true → row + 1 = s.tick.count → ∃ t : State, exec (.shusTick row) s = .next t ∧ t.mem = s.mem ∧ t.io = s.io ∧
      (∀ n : Fin 48, s.bobbins[n].bound = false ∨ s.bobLowPower n = true → t.bobbins[n] = s.bobbins[n]) ∧
      (∀ (n : Fin 48) (l : List Byte), s.bobbins[n].bound = true → s.bobLowPower n = false → s.bobbins[n].dirOut = false →
        s.bobGet s.bobbins[n] (s.countAddr s.bobbins[n]) 8 = some l →
        t.bobbins[n].consumed = min (leNat l) s.bobbins[n].published.toNat ∧
        (s.bobbins[n].published.toNat < leNat l → t.bobbins[n].events = setBit s.bobbins[n].events 3)) ∧
      (∀ (n : Fin 48) (l : List Byte), s.bobbins[n].bound = true → s.bobLowPower n = false → s.bobbins[n].dirOut = true →
        s.bobbins[n].fsm.st = .on →
        s.bobGet s.bobbins[n] (s.bobbins[n].ring.toNat + 16) 8 = some l →
        let lim := max (s.bobbins[n].consumed + s.bobbins[n].size) s.bobbins[n].produced
        t.bobbins[n].produced = max (leNat l) s.bobbins[n].produced ∧
        (lim < leNat l → t.bobbins[n].dropped = satAdd s.bobbins[n].dropped (leNat l - lim) ∧
          t.bobbins[n].skips = s.bobbins[n].skips ++ [(lim, leNat l)]) ∧
        (leNat l ≤ lim → t.bobbins[n].dropped = s.bobbins[n].dropped))))

/-- ADOPT of an accepted block records the owner and raises YD_ADOPTIONS; LOAD_TAG_MASTER and RAISE_SVN take their accepted requests; a
block that fails its checks answers AUTH_FAIL, sets the tamper event and raises YD_TAMPER. ATTEST waits its turn, asks the dies in order,
and writes its report with the last answer, or when there is none to ask, once no yardage update runs; GET_CERTS writes the certificates; READ_YARDAGE answers counters, ADD_YARDAGE raises a customer counter. A die answers IDENT,
DIE_PROVE and unknown frames addressed to it, passes on others, and the primary's own frame come back counts as a missing reply. A
missing reply, a NAK and a timing error at the primary end the request with their bits, and the die's record gets STATUS 1, 3 and 2. -/
def Obligations.TallyAndInnerChain : Prop :=
  (∀ (e : Entry) (s s1 : State),
    let r := refOf e s1
    let tampered : State := State.reply (State.yard { s1 with tally := { s1.tally with events := setBit s1.tally.events 3 } } 6 1) r stAuthFail
    (Accepts cmdAttest e s s1 → s1.tally.attests = [] → s1.inner.returned.toNat ≤ 1 → s1.tally.run = none →
      let t : Attest := ⟨r, slice e.params.toList 0 32, e.u 40 8, 0, [], some ((allFin 16).map s1.tally.value)⟩
      let q : State := { s1 with jobs := s1.jobs ++ [(r, 0x700, e.params.toList)] }
      exec (.attest e) s = .next (q.writeOut r (e.u 40 8) (q.report t) [(20, 2, (q.report t).length)])) ∧
    (Accepts cmdAttest e s s1 → s1.tally.attests = [] → s1.inner.returned.toNat ≤ 1 → s1.tally.run.isSome = true →
      exec (.attest e) s = .next (({ s1 with
        jobs := s1.jobs ++ [(r, 0x700, e.params.toList)]
        tally := { s1.tally with attests := [⟨r, slice e.params.toList 0 32, e.u 40 8, 0, [], none⟩] } } : State))) ∧
    (Accepts cmdAttest e s s1 → s1.tally.attests ≠ [] → exec (.attest e) s = .next (({ s1 with
      jobs := s1.jobs ++ [(r, 0x700, e.params.toList)]
      tally := { s1.tally with attests := s1.tally.attests ++
        [⟨r, slice e.params.toList 0 32, e.u 40 8, s1.inner.returned.toNat - 1, [], none⟩] } } : State))) ∧
    (Accepts cmdAttest e s s1 → s1.tally.attests = [] → 2 ≤ s1.inner.returned.toNat → exec (.attest e) s = .next (({ s1 with
      jobs := s1.jobs ++ [(r, 0x700, e.params.toList)]
      inner := { s1.inner with busy := some (.prove 1) }
      tally := { s1.tally with attests := [⟨r, slice e.params.toList 0 32, e.u 40 8, s1.inner.returned.toNat - 1, [], none⟩] }
      out := s1.out ++ [.inner 0x03 1 0 (slice e.params.toList 0 32)] } : State))) ∧
    (Accepts cmdGetCerts e s s1 → exec (.getCerts e) s =
      .next (s1.writeOut r (e.u 8 8) cmdGetCerts.certBytes [(20, 2, cmdGetCerts.certBytes.length)])) ∧
    (Accepts cmdAdopt e s s1 →
      let b := s1.objRead e.sq (e.u 8 8) 228
      (s1.adoptOk b = false → exec (.adopt e) s = .next tampered) ∧
      (s1.adoptOk b = true → s1.tally.run = none → s1.tally.waiting = [] → s1.tally.value 5 ≠ BitVec.allOnes 32 →
        ∃ t : State, exec (.adopt e) s = .next t ∧ t.mem = s1.mem ∧
          (∃ o ∈ t.tally.owners, o.key = slice b 20 64 ∧ o.adoption = s1.tally.value 5 + 1) ∧
          t.tally.run = some ⟨⟨5, 1, some r, [], true⟩, s1.tally.value 5 + 1, .writing false⟩ ∧ t.tally.slots = s1.tally.slots) ∧
      (∀ x, s1.adoptOk b = true → s1.tally.run = some x → ∃ t : State, exec (.adopt e) s = .next t ∧ t.mem = s1.mem ∧
        (∃ o ∈ t.tally.owners, o.key = slice b 20 64 ∧ o.adoption = s1.adoptions + 1) ∧
        t.tally.run = some x ∧ t.tally.waiting = s1.tally.waiting ++ [⟨5, 1, some r, [], true⟩])) ∧
    (Accepts cmdLoadTagMaster e s s1 →
      let b := s1.objRead e.sq (e.u 8 8) 52
      ∀ o, s1.tally.owner = some o →
      (s1.wrapOk o b = false → exec (.loadTagMaster e) s = .next tampered) ∧
      (s1.wrapOk o b = true → ∃ k, exec (.loadTagMaster e) s = .next (State.ok
        { s1 with tally := { s1.tally with tagMaster := some (k, s1.tally.value 5) } } r))) ∧
    (Accepts cmdRaiseSvn e s s1 →
      let b := s1.objRead e.sq (e.u 16 8) 80
      ∀ o, s1.tally.owner = some o →
      let good := leAt b 8 8 = s1.fuses.serial.toNat ∧ sigOk o.key (slice b 0 16) (slice b 16 64) = true
      s1.tally.svnMin.toNat < e.u 8 1 ∧
      (good → exec (.raiseSvn e) s = .next (State.ok
        { s1 with tally := { s1.tally with svnMin := BitVec.ofNat 8 (e.u 8 1) } } r [(20, 1, e.u 8 1)])) ∧
      (¬good → exec (.raiseSvn e) s = .next tampered)) ∧
    (Accepts cmdReadYardage e s s1 → exec (.readYardage e) s = .next (s1.ok r ((List.range (e.u 9 1)).map fun k =>
      (20 + 4 * k, 4, (s1.tally.value (Fin.ofNat 16 (e.u 8 1 + k))).toNat)))) ∧
    (Accepts cmdAddYardage e s s1 → s1.tally.run = none → s1.tally.waiting = [] →
      let c : Fin 16 := Fin.ofNat 16 (e.u 8 1)
      exec (.addYardage e) s = .next (({ s1 with
        jobs := s1.jobs ++ [(r, 0x705, e.params.toList)]
        tally := { s1.tally with run := some ⟨⟨c, BitVec.ofNat 32 (e.u 12 4), some r, [], true⟩,
          satAdd (s1.tally.value c) (e.u 12 4), .writing false⟩ } } : State))) ∧
    (∀ x, Accepts cmdAddYardage e s s1 → s1.tally.run = some x → exec (.addYardage e) s = .next (({ s1 with
        jobs := s1.jobs ++ [(r, 0x705, e.params.toList)]
        tally := { s1.tally with waiting := s1.tally.waiting ++
          [⟨Fin.ofNat 16 (e.u 8 1), BitVec.ofNat 32 (e.u 12 4), some r, [], true⟩] } } : State)))) ∧
  (∀ (s : State) (dest src ty : Byte) (nonce : Vector Byte 32),
    let mine := if s.fuses.primary then decide (dest = 0) else s.inner.hasAddr && decide (dest = s.inner.addr)
    (mine = true →
      exec (.ident dest src) s = .next (s.emit (.inner 0x82 0 s.inner.addr s.identPayload)) ∧
      exec (.dieProve dest src nonce) s = .next (s.emit (.inner 0x83 0 s.inner.addr (s.dieProof nonce.toList s.inner.addr))) ∧
      exec (.innerFrameUnknownType dest src ty) s = .next (s.emit (.inner 0xFF 0 s.inner.addr []))) ∧
    (mine = false → s.fuses.primary = true → src = 0 →
      exec (.ident dest src) s = exec .innerReplyTimeout s ∧ exec (.dieProve dest src nonce) s = exec .innerReplyTimeout s ∧
      exec (.innerFrameUnknownType dest src ty) s = exec .innerReplyTimeout s) ∧
    (mine = false → ¬(s.fuses.primary = true ∧ src = 0) →
      exec (.ident dest src) s = .next (s.emit (.inner 0x02 dest src [])) ∧
      exec (.dieProve dest src nonce) s = .next (s.emit (.inner 0x03 dest src nonce.toList)) ∧
      exec (.innerFrameUnknownType dest src ty) s = .next (s.emit (.inner ty dest src [])))) ∧
  (∀ s : State, (s.dieHead).length = 12 ∧ s.identPayload.length = 12) ∧
  (∀ (s : State) (src ty : Byte) (d : List Byte),
    let idle (s : State) (bit : Nat) : State :=
      { s with inner := { s.inner with events := setBit s.inner.events bit, busy := none } }
    (s.fuses.primary = false → exec (.innerReply src ty d) s = .next (s.emit (.inner ty 0 src d))) ∧
    (s.fuses.primary = true → src = 0 → exec (.innerReply src ty d) s = exec .innerReplyTimeout s) ∧
    exec .attestDieTimeout s = exec .innerReplyTimeout s ∧
    (∀ a, s.inner.busy = some (.ident a) ∨ s.inner.busy = some (.prove a) → s.fuses.primary = true → src ≠ 0 → src ≠ a →
      exec (.innerReply src ty d) s = .next s) ∧
    (∀ a, (s.inner.busy = some (.ident a) ∧ ty ≠ 0x82) ∨ (s.inner.busy = some (.prove a) ∧ ty ≠ 0x83) → s.fuses.primary = true →
      src = a → src ≠ 0 → ty ≠ 0xFF → exec (.innerReply src ty d) s = .next s) ∧
    (∀ a, s.inner.busy = some (.prove a) → s.fuses.primary = false → exec .innerFrameTimingError s = .next (({ s with inner :=
      { s.inner with events := setBit s.inner.events 0, errors := satAdd s.inner.errors 1 } } : State))) ∧
    (s.inner.busy = none → exec .innerReplyTimeout s = .next s ∧
      (s.fuses.primary = true → exec (.innerReply src ty d) s = .next s) ∧
      exec .innerFrameTimingError s = .next (({ s with inner :=
        { s.inner with events := setBit s.inner.events 0, errors := satAdd s.inner.errors 1 } } : State))) ∧
    (∀ a, s.inner.busy = some (.ident a) →
      exec .innerReplyTimeout s = .next (idle s 1) ∧
      (s.fuses.primary = true → src = a → src ≠ 0 →
        (ty = 0x82 → exec (.innerReply src ty d) s = .next (({ s with inner := { s.inner with busy := none } } : State))) ∧
        (ty = 0xFF → exec (.innerReply src ty d) s = .next (idle s 2))) ∧
      exec .innerFrameTimingError s = .next (({ s with inner :=
        { s.inner with events := setBit s.inner.events 0, errors := satAdd s.inner.errors 1, busy := none } } : State))) ∧
    (∀ a t, s.inner.busy = some (.prove a) → s.fuses.primary = true → s.tally.attests = [t] → t.records.length + 1 < t.dies →
      let asked (inner : Inner) (st : Byte) (d : List Byte) : State := { s with
        inner := { inner with busy := some (.prove (BitVec.ofNat 8 (t.records.length + 2))) }
        tally := { s.tally with attests := [{ t with records := t.records ++ [(st, padTo 109 d)] }] }
        out := s.out ++ [.inner 0x03 (BitVec.ofNat 8 (t.records.length + 2)) 0 t.nonce] }
      exec .innerReplyTimeout s = .next (asked { s.inner with events := setBit s.inner.events 1 } 1 []) ∧
      (src = a → src ≠ 0 →
        (ty = 0x83 → exec (.innerReply src ty d) s = .next (asked s.inner 0 d)) ∧
        (ty = 0xFF → exec (.innerReply src ty d) s = .next (asked { s.inner with events := setBit s.inner.events 2 } 3 []))) ∧
      exec .innerFrameTimingError s = .next (asked { s.inner with
        events := setBit s.inner.events 0, errors := satAdd s.inner.errors 1 } 2 [])) ∧
    (∀ a t, s.inner.busy = some (.prove a) → s.fuses.primary = true → s.tally.attests = [t] → t.records.length + 1 = t.dies →
      let got (st : Byte) (d : List Byte) : Attest := { t with records := t.records ++ [(st, padTo 109 d)] }
      let ends (inner : Inner) (st : Byte) (d : List Byte) (o : Host.Outcome State Fault Refusal) : Prop :=
        (s.tally.run.isSome = true → o = .next (({ s with
          inner := { inner with busy := none }, tally := { s.tally with attests := [got st d] } } : State))) ∧
        (s.tally.run = none →
          let q : State := { s with inner := { inner with busy := none }, tally := { s.tally with attests := [] } }
          let all : Attest := { got st d with yards := some ((allFin 16).map s.tally.value) }
          o = .next (q.writeOut t.cmd t.dst (q.report all) [(20, 2, (q.report all).length)]))
      ends { s.inner with events := setBit s.inner.events 1 } 1 [] (exec .innerReplyTimeout s) ∧
      (src = a → src ≠ 0 → ty = 0x83 → ends s.inner 0 d (exec (.innerReply src ty d) s)) ∧
      (src = a → src ≠ 0 → ty = 0xFF →
        ends { s.inner with events := setBit s.inner.events 2 } 3 [] (exec (.innerReply src ty d) s)) ∧
      ends { s.inner with events := setBit s.inner.events 0, errors := satAdd s.inner.errors 1 } 2 [] (exec .innerFrameTimingError s)))

/-- An increment joins the queue; with nothing running it begins at once with min(value + amount, 0xFFFFFFFF). The slot not in force is
written: valid, the new value is in force, and a floor word is burned if its high part passed the floor; invalid, it is written once more,
and then STORE_FAULT is set, the old value stands and the command completes with INTERNAL. A burn that fails is repeated once on the next
word, then FLOOR_FAULT is set. At every outcome the counter keeps its old value or takes the new one. A saturated counter and index 7
change nothing. A power hour raises counter 0 and clears the residue, which its save stores; only a powered primary does so. -/
def Obligations.YardageUpdates : Prop :=
  (∀ (s : State) (c : Fin 16) (a : Word),
    (s.fuses.primary = false ∨ a = 0 → exec (.yardageIncrement c a) s = .next s) ∧
    (s.fuses.primary = true → a ≠ 0 → s.tally.run = none → s.tally.waiting = [] →
      (c ≠ 7 → s.tally.value c ≠ BitVec.allOnes 32 → exec (.yardageIncrement c a) s = .next (({ s with tally := { s.tally with
        run := some ⟨⟨c, a, none, [], false⟩, satAdd (s.tally.value c) a.toNat, .writing false⟩ } } : State))) ∧
      (c = 7 ∨ s.tally.value c = BitVec.allOnes 32 → exec (.yardageIncrement c a) s = .next s)) ∧
    (∀ x, s.fuses.primary = true → a ≠ 0 → s.tally.run = some x → exec (.yardageIncrement c a) s = .next (({ s with
      tally := { s.tally with waiting := s.tally.waiting ++ [⟨c, a, none, [], false⟩] } } : State)))) ∧
  (∀ (s : State) (ok : Bool),
    (s.tally.run = none → exec (.yardageSlotWriteDone ok) s = .next s ∧ exec (.floorBurnDone ok) s = .next s) ∧
    (∀ u v again, s.tally.run = some ⟨u, v, .flooring again⟩ → exec (.yardageSlotWriteDone ok) s = .next s) ∧
    (∀ u v again, s.tally.run = some ⟨u, v, .writing again⟩ → exec (.floorBurnDone ok) s = .next s)) ∧
  (∀ (s : State) (u : YdUpdate) (v : Word) (again : Bool), s.tally.run = some ⟨u, v, .writing again⟩ → u.counter ≠ 7 →
    (∀ x, ydSlot s.tally.slots[u.counter] = some x → x.seq ≠ BitVec.allOnes 32) →
    (∃ t : State, exec (.yardageSlotWriteDone true) s = .next t ∧ t.tally.value u.counter = v ∧
      (∀ c : Fin 16, c ≠ u.counter → t.tally.slots[c] = s.tally.slots[c]) ∧
      (s.tally.floor u.counter.val < v.toNat / 4096 → s.tally.floorWords.length < 1024 →
        t.tally.run = some ⟨u, v, .flooring false⟩ ∧ t.jobs = s.jobs)) ∧
    (∃ t : State, exec (.yardageSlotWriteDone false) s = .next t ∧ t.tally.value u.counter = s.tally.value u.counter ∧
      t.tally.floorWords = s.tally.floorWords ∧
      (again = false → t.tally.run = some ⟨u, v, .writing true⟩ ∧ t.tally.events = s.tally.events) ∧
      (again = true → t.tally.events.getLsbD 1 = true) ∧
      (∀ r, again = true → u.cmd = some r → u.counter ≠ 3 → s.tally.waiting = [] → s.tally.attests = [] → ∃ q : State,
        exec (.yardageSlotWriteDone false) s = .next (q.reply r stInternal) ∧ q.tally.run = none))) ∧
  (∀ (s : State) (u : YdUpdate) (v : Word) (again : Bool), s.tally.run = some ⟨u, v, .flooring again⟩ →
    (∀ ok : Bool, ∃ t : State, exec (.floorBurnDone ok) s = .next t ∧ t.tally.slots = s.tally.slots ∧
      t.tally.floorWords.length = s.tally.floorWords.length + 1) ∧
    (∃ t : State, exec (.floorBurnDone true) s = .next t ∧
      t.tally.floorWords = s.tally.floorWords ++ [floorWord u.counter.val (v.toNat / 4096)] ∧
      t.tally.floor u.counter.val = max (s.tally.floor u.counter.val) (v.toNat / 4096)) ∧
    (again = false → s.tally.floorWords.length < 1023 → ∃ t : State, exec (.floorBurnDone false) s = .next t ∧
      t.tally.run = some ⟨u, v, .flooring true⟩ ∧ t.tally.floor u.counter.val = s.tally.floor u.counter.val) ∧
    (again = true ∨ 1023 ≤ s.tally.floorWords.length → ∃ t : State, exec (.floorBurnDone false) s = .next t ∧
      t.tally.events.getLsbD 2 = true)) ∧
  (∀ (s : State) (u : YdUpdate) (st : Nat) (r : CmdRef), u.cmd = some r → u.counter ≠ 3 → s.tally.waiting = [] → s.tally.attests = [] →
    let q : State := { s with tally := { s.tally with run := none } }
    (st = stOk → s.yardEnd u st = q.ok r (u.res ++ if u.value20 then [(20, 4, (s.tally.value u.counter).toNat)] else [])) ∧
    (st ≠ stOk → s.yardEnd u st = q.reply r st)) ∧
  (∀ (c : Fin 16) (f : Nat), f < 0x100000 → floorValid (floorWord c.val f) = true ∧ fld (floorWord c.val f) 23 20 = c.val ∧
    fld (floorWord c.val f) 19 0 = f) ∧
  (∀ (s : State) (x : Word),
    let on := s.fuses.primary = true ∧ s.selv.spwrok = true
    (¬on → exec .powerHour s = .next s ∧ exec (.powerHourResidueSave x) s = .next s) ∧
    (on → exec (.powerHourResidueSave x) s = .next (({ s with tally := { s.tally with residue := x } } : State))) ∧
    (on → s.tally.run = none → s.tally.waiting = [] → s.tally.value 0 ≠ BitVec.allOnes 32 → exec .powerHour s =
      .next (({ s with tally := { s.tally with
        residue := 0, run := some ⟨⟨0, 1, none, [], false⟩, satAdd (s.tally.value 0) 1, .writing false⟩ } } : State))))

/-- TALLY_STATUS bit 3, FLOOR_FULL, reads 1 exactly when 1,024 floor words are used. From then on no slot write and no start of an update begins a
burn, so every floor stays what it was; and a slot write that holds still puts its new value in force, however far above the floor. -/
def Obligations.FloorFull : Prop :=
  (∀ s : State, (s.tallyRead 0).getLsbD 3 = decide (1024 ≤ s.tally.floorWords.length)) ∧
  (∀ (s : State) (u : YdUpdate) (v : Word) (again : Bool), 1024 ≤ s.tally.floorWords.length →
    s.tally.run = some ⟨u, v, .writing again⟩ → u.counter ≠ 7 →
    (∀ x, ydSlot s.tally.slots[u.counter] = some x → x.seq ≠ BitVec.allOnes 32) →
    ∃ t : State, exec (.yardageSlotWriteDone true) s = .next t ∧ t.tally.value u.counter = v ∧
      t.tally.floorWords = s.tally.floorWords ∧ (∀ c : Nat, t.tally.floor c = s.tally.floor c) ∧
      ∀ (u' : YdUpdate) (v' : Word) (b : Bool), t.tally.run ≠ some ⟨u', v', .flooring b⟩) ∧
  (∀ (s : State) (c : Fin 16) (a : Word), 1024 ≤ s.tally.floorWords.length →
    (∀ (u' : YdUpdate) (v' : Word) (b : Bool), s.tally.run ≠ some ⟨u', v', .flooring b⟩) →
    ∃ t : State, exec (.yardageIncrement c a) s = .next t ∧ t.tally.floorWords = s.tally.floorWords ∧
      ∀ (u' : YdUpdate) (v' : Word) (b : Bool), t.tally.run ≠ some ⟨u', v', .flooring b⟩)

/-- A chain command joins the queue and begins when the line is free; work that ends frees the line for the next. A search starts with a full reset; a ping, proof or increment of a tag that
is not listed answers NOT_FOUND, else its first element is sent. Silence and EDGE are each repeated once, then NOT_FOUND or TIMING; a
silent ping drops its tag. A proof answers what it read with MATCH and fails with AUTH_FAIL; an increment goes from the proof to
WRITE_PREPARE only if the MAC and the count are right, then to WRITE_COMMIT, then reads back and answers by the value. CHAIN_LIST,
CHAIN_CONFIG and QUERY_INNER_CHAIN answer. A write of CHN_SEQ_CMD that reaches the block starts its operation unless BUSY, and its end stores the
result's bits. -/
def Obligations.ChainCommands : Prop :=
  (∀ (e : Entry) (s s1 : State),
    let r := refOf e s1
    let c := s1.chain
    let a : Byte := BitVec.ofNat 8 (e.u 8 1)
    let fly (op : BitVec 16) : State := { s1 with jobs := s1.jobs ++ [(r, op, e.params.toList)] }
    let free := c.busy = false ∧ c.waiting = []
    let run (op : BitVec 16) (x : ChainRun) (l : List Out) : State :=
      { s1 with jobs := s1.jobs ++ [(r, op, e.params.toList)], chain := { c with run := some x }, out := s1.out ++ l }
    (Accepts cmdChainSearch e s s1 →
      (c.busy = true → exec (.chainSearch e) s = .next (({ fly 0x800 with
        chain := { c with waiting := c.waiting ++ [(.search, some r)] } } : State))) ∧
      (free → c.stuck = false → exec (.chainSearch e) s = .next (({ fly 0x800 with
        chain := { c with
          refCur := c.idleCur
          list := c.list.map fun t => { t with found := false, fresh := false, dup := false }
          search := some ⟨.reset, [], [], 0, 0, false, false, some r⟩ }
        out := s1.out ++ [.chainSeq .reset 0] } : State)))) ∧
    let queued (op : BitVec 16) (w : ChainWork) : State := { fly op with chain := { c with waiting := c.waiting ++ [(w, some r)] } }
    (Accepts cmdChainSearch e s s1 → exec (.chainSearch e) s = .next (queued 0x800 .search).lineFree) ∧
    (Accepts cmdChainPing e s s1 → exec (.chainPing e) s = .next (queued 0x802 (.ping a)).lineFree) ∧
    (Accepts cmdTagProve e s s1 → exec (.tagProve e) s =
      .next (queued 0x707 (.prove a (slice e.params.toList 8 16))).lineFree) ∧
    (Accepts cmdTagIncrement e s s1 → exec (.tagIncrement e) s =
      .next (queued 0x708 (.increment a (BitVec.ofNat 32 (e.u 12 4)))).lineFree) ∧
    (∀ op w, (c.busy = true → (queued op w).lineFree = queued op w)) ∧
    (Accepts cmdChainPing e s s1 → free →
      (c.tagAt a = none → exec (.chainPing e) s = .next ((fly 0x802).reply r stNotFound)) ∧
      (∀ t, c.tagAt a = some t → exec (.chainPing e) s =
        .next (run 0x802 ⟨.ping a, r, 0, false, false, false, 0, [], [], 0⟩ [.chainCmd [4, a]]))) ∧
    (Accepts cmdTagProve e s s1 → free →
      let n := slice e.params.toList 8 16
      (c.tagAt a = none → exec (.tagProve e) s = .next ((fly 0x707).reply r stNotFound)) ∧
      (∀ t, c.tagAt a = some t → exec (.tagProve e) s =
        .next (run 0x707 ⟨.prove a n, r, 0, false, false, false, 0, n, [], 0⟩ [.chainCmd ([6, a] ++ n), strongOut 500]))) ∧
    (Accepts cmdTagIncrement e s s1 → free →
      let n := kdf s1.storeKey "XNNONCE" (leBytes 4 (s1.tally.proofs + 1)) 128
      (c.tagAt a = none → exec (.tagIncrement e) s = .next ((fly 0x708).reply r stNotFound 0 [(20, 4, 0xFFFFFFFF)])) ∧
      (∀ t, c.tagAt a = some t → exec (.tagIncrement e) s = .next (({ run 0x708
          ⟨.increment a (BitVec.ofNat 32 (e.u 12 4)), r, 0, false, false, false, 0, n, [], t.wseq + 1⟩
          [.chainCmd ([6, a] ++ n), strongOut 500] with
        tally := { s1.tally with proofs := s1.tally.proofs + 1 } } : State)))) ∧
    (Accepts cmdChainList e s s1 →
      let l := (List.range 63).filterMap fun j => c.list.find? fun t => decide (t.addr.toNat = j)
      exec (.chainList e) s = .next (s1.writeOut r (e.u 8 8) (l.flatMap TagEntry.record) [(20, 1, l.length)])) ∧
    (Accepts cmdChainConfig e s s1 → exec (.chainConfig e) s = .next (State.ok { s1 with chain := { c with
      speed := decide (e.u 8 1 = 1), mode := BitVec.ofNat 2 (e.u 9 1), period := BitVec.ofNat 16 (e.u 10 2) } } r)) ∧
    (Accepts cmdQueryInnerChain e s s1 → exec (.queryInnerChain e) s =
      .next (s1.ok r [(20, 1, s1.inner.returned.toNat), (21, 1, s1.inner.expected.toNat)]))) ∧
  (∀ t : TagEntry, t.record.length = 16) ∧
  (∀ (s : State) (cls : SlotClass) (d : List Byte),
    (s.chain.search = none → s.chain.run = none → exec (.chainReply cls d) s = .next s) ∧
    (∀ x : ChainRun, s.chain.search = none → s.chain.run = some x →
      let send (y : ChainRun) (l : List Out) : State :=
        { s with chain := { s.chain with run := some y }, out := s.out ++ l }
      let done (c : Chain) : State := { s with chain := { c with run := none } }
      let timing : Chain := { s.chain with events := setBit s.chain.events 1 }
      let answered := cls = .single ∨ cls = .double
      (cls = .none → x.retried = false → exec (.chainReply cls d) s = .next (send { x with retried := true } x.send)) ∧
      (cls = .edge → x.widened = false → exec (.chainReply cls d) s = .next (({ send { x with widened := true } x.send with
        chain := { s.chain with run := some { x with widened := true }, events := setBit s.chain.events 2 } } : State))) ∧
      (∀ a, x.work = .ping a →
        (answered → exec (.chainReply cls d) s = .next (State.lineFree ((done s.chain).ok x.cmd))) ∧
        (cls = .none → x.retried = true → exec (.chainReply cls d) s = .next (State.lineFree ((done { s.chain with
          list := s.chain.list.filter fun t => decide (t.addr ≠ a) }).reply x.cmd stNotFound))) ∧
        (cls = .edge → x.widened = true → exec (.chainReply cls d) s = .next (State.lineFree ((done timing).reply x.cmd stTiming)))) ∧
      (∀ a n k, x.work = .prove a n → s.tally.tmk = some k →
        let res (m : Nat) : List (Nat × Nat × Nat) := [(20, 8, leAt d 0 8), (28, 4, leAt d 8 4), (32, 1, leAt d 12 1), (33, 1, m)]
        (answered → proofOk k x.nonce d = true → exec (.chainReply cls d) s = .next (State.lineFree ((done s.chain).ok x.cmd (res 1)))) ∧
        (answered → proofOk k x.nonce d = false →
          exec (.chainReply cls d) s = .next (State.lineFree ((done s.chain).reply x.cmd stAuthFail 0 (res 0)))) ∧
        (cls = .none → x.retried = true → exec (.chainReply cls d) s = .next (State.lineFree ((done s.chain).reply x.cmd stNotFound))) ∧
        (cls = .edge → x.widened = true → exec (.chainReply cls d) s = .next (State.lineFree ((done timing).reply x.cmd stTiming)))) ∧
      (∀ a ex k, x.work = .increment a ex → s.tally.tmk = some k →
        let fails (c : Chain) (st detail : Nat) : State := State.lineFree ((done c).reply x.cmd st detail [(20, 4, 0xFFFFFFFF), (24, 1, x.last)])
        let count := leAt d 8 4
        let id := slice d 0 8
        let mac := Config.cmac (tagKey k id) ([7] ++ id ++ leBytes 4 count ++ leBytes 4 (count + 1) ++ [x.wseq])
        (x.step = 0 → cls = .none → x.retried = true → exec (.chainReply cls d) s = .next (fails s.chain stNotFound 0)) ∧
        (x.step = 0 → answered → proofOk k x.nonce d = false → exec (.chainReply cls d) s = .next (fails s.chain stAuthFail 0)) ∧
        (x.step = 0 → answered → proofOk k x.nonce d = true → (count ≠ ex.toNat ∨ ex = 0xFFFFFFFF) →
          exec (.chainReply cls d) s = .next (fails s.chain stConflict 2)) ∧
        (x.step = 0 → answered → proofOk k x.nonce d = true → count = ex.toNat → ex ≠ 0xFFFFFFFF →
          exec (.chainReply cls d) s = .next (send
            { x with step := 1, id := beBytes 16 mac.toNat, retried := false, widened := false, last := 1 }
            [.chainCmd ([7, a] ++ leBytes 4 (ex.toNat + 1) ++ [x.wseq] ++ beBytes 16 mac.toNat)])) ∧
        (x.step = 1 → answered → exec (.chainReply cls d) s = .next (send
          { x with step := 3, retried := false, widened := false, last := 3 }
          [strongOut 250, .chainCmd [8, a, x.wseq], strongOut 250])) ∧
        (x.step = 3 → answered ∨ (cls = .none ∧ x.retried = true) → exec (.chainReply cls d) s = .next (send
          { x with step := 5, retried := false, widened := false, last := 5 } [.chainCmd [5, a]])) ∧
        (x.step = 5 → answered →
          let v := leAt d 2 4
          exec (.chainReply cls d) s = .next (State.lineFree ((done { s.chain with
              list := s.chain.list.map fun t => if t.addr = a then { t with wseq := d.getD 6 0 } else t }).reply x.cmd
            (if x.timing = true then stTiming else if v = ex.toNat + 1 then stOk else if v = ex.toNat then stTimeout else stAuthFail)
            0 [(20, 4, v), (24, 1, x.last)]))) ∧
        (x.step = 0 → cls = .edge → x.widened = true → exec (.chainReply cls d) s = .next (fails timing stTiming 0)) ∧
        (x.step = 1 → cls = .none → x.retried = true → exec (.chainReply cls d) s = .next (send
          { x with step := 5, retried := false, widened := false } [.chainCmd [5, a]])) ∧
        (x.step = 1 ∨ x.step = 3 → cls = .edge → x.widened = true → exec (.chainReply cls d) s = .next (({ send
            { x with step := 5, retried := false, widened := false, timing := true } [.chainCmd [5, a]] with
          chain := { timing with run := some { x with step := 5, retried := false, widened := false, timing := true } } } : State))) ∧
        (x.step = 5 → cls = .none → x.retried = true → exec (.chainReply cls d) s =
          .next (fails s.chain (if x.timing = true then stTiming else stNotFound) 0)) ∧
        (x.step = 5 → cls = .edge → x.widened = true → exec (.chainReply cls d) s =
          .next (fails timing (if x.timing = true then stTiming else stNotFound) 0))) ∧
      (s.tally.tmk = none → answered →
        (∀ a n, x.work = .prove a n → exec (.chainReply cls d) s =
          .next (State.lineFree ((done s.chain).reply x.cmd stConflict 2))) ∧
        (∀ a ex, x.work = .increment a ex → x.step = 0 → exec (.chainReply cls d) s = .next (State.lineFree
          ((done s.chain).reply x.cmd stConflict 2 [(20, 4, 0xFFFFFFFF), (24, 1, x.last)])))))) ∧
  (∀ (s : State) (ag : Agent) (d : Byte) (w : Bool) (n : Half),
    let start (op : SeqOp) (v : Nat) (l : List Out) : State := { s with
      chain := { s.chain with seqOp := some op, strong := decide (op = .strong) }
      out := s.out ++ l ++ [.chainSeq op (BitVec.ofNat 32 v)] }
    let wd := if w then 16 else 0
    let one (s' : State) : Prop :=
      exec (.chnSeqReset ag) s = .next s' ∧ exec (.sendChar d ag) s = .next s' ∧ exec (.readChar w ag) s = .next s' ∧
      exec (.rollWindow w ag) s = .next s' ∧ exec (.ackSlot w ag) s = .next s' ∧ exec (.strong n ag) s = .next s' ∧
      exec (.endGap ag) s = .next s' ∧ exec (.sendFrame n ag) s = .next s' ∧ exec (.recvFrame ag) s = .next s'
    s.fuses.shusDies ≠ 0 →
    (s.blkGone .chnOut = true ∨ s.reaches ag .chnOut 0x10 true = false → one s.badAcc) ∧
    (s.blkGone .chnOut = false → s.reaches ag .chnOut 0x10 true = true →
      (s.chain.busy = true → one s) ∧
      (s.chain.busy = false →
        exec (.chnSeqReset ag) s = .next (start .reset 1 []) ∧ exec (.sendChar d ag) s = .next (start .sendChar (2 + 256 * d.toNat) []) ∧
        exec (.readChar w ag) s = .next (start .readChar (3 + wd) []) ∧ exec (.rollWindow w ag) s = .next (start .rollWindow (4 + wd) []) ∧
        exec (.ackSlot w ag) s = .next (start .ackSlot (5 + wd) []) ∧ exec (.strong n ag) s = .next (start .strong (6 + 65536 * n.toNat) []) ∧
        exec (.endGap ag) s = .next (start .endGap 7 []) ∧
        exec (.sendFrame n ag) s = .next (start .sendFrame (8 + 65536 * n.toNat)
          [.chainCmd (s.chain.frameBuf.toList.take (min 256 n.toNat))]) ∧
        exec (.recvFrame ag) s = .next (start .recvFrame 9 [])))) ∧
  (∀ (s : State) (v : Word) (l : List Byte),
    (s.chain.seqOp = none → exec (.chnSeqDone v l) s = .next s) ∧
    (∀ op, s.chain.seqOp = some op → exec (.chnSeqDone v l) s = .next (State.lineFree { s with chain := { s.chain with
      seqOp := none, strong := false, seqResult := v &&& op.mask
      frameBuf := if op = .recvFrame then toVec 256 (l ++ s.chain.frameBuf.toList.drop l.length) else s.chain.frameBuf } })) ∧
    (s.chain.waiting = [] → s.lineFree = s))

/-- A periodic search starts when it may, or waits for the line once. With presence the roll call begins at level 0, without it the search is
done. A roll-call window with an EDGE is repeated once, wide; then each SINGLE slot, and each DOUBLE at level 15, pends ASSIGN, each other
DOUBLE a ROLL one level down, in ascending slots before everything pended earlier. No acknowledgement is answered with ADDR 0; a DOUBLE lists
one duplicate; an identity that fails its check is asked once more; one that holds keeps its old address or takes the lowest free one.
Each address given is pinged, and the new tags read; silence and EDGE are repeated once, then the tag is dropped, or TIMING noted. At the end the tags not found leave the list and the search's command is answered. The monitor reports a change of 60 µA while the line is
free. -/
def Obligations.ChainSearch : Prop :=
  (∀ (s : State) (idle : Half),
    let c := s.chain
    (s.searchMay = false → exec (.periodicSearch idle) s = .next s) ∧
    (s.searchMay = true → c.busy = true →
      ((∃ w ∈ c.waiting, w.2 = none) → exec (.periodicSearch idle) s = .next s) ∧
      ((∀ w ∈ c.waiting, w.2 ≠ none) → exec (.periodicSearch idle) s =
        .next (({ s with chain := { c with waiting := c.waiting ++ [(.search, none)] } } : State)))) ∧
    (s.searchMay = true → c.busy = false → exec (.periodicSearch idle) s = .next (({ s with
      chain := { c with
        idleCur := idle, refCur := idle
        list := c.list.map fun t => { t with found := false, fresh := false, dup := false }
        search := some ⟨.reset, [], [], 0, 0, false, false, none⟩ }
      out := s.out ++ [.chainSeq .reset 0] } : State))) ∧
    (c.busy = true ∨ c.strong = true ∨ c.line = false ∨
      max idle.toNat c.refCur.toNat - min idle.toNat c.refCur.toNat < 60 → exec (.presenceChanged idle) s =
        .next (({ s with chain := { c with idleCur := idle } } : State))) ∧
    (c.busy = false → c.strong = false → c.line = true → 60 ≤ max idle.toNat c.refCur.toNat - min idle.toNat c.refCur.toNat →
      exec (.presenceChanged idle) s = .next (State.hemWake (State.event { s with chain :=
        { c with idleCur := idle, refCur := idle, events := setBit c.events 0 } } 0x03 0 stOk) .outerChain))) ∧
  (∀ (s : State) (x : Search), s.chain.search = some x →
    let srch (y : Search) (l : List Out) : State := { s with chain := { s.chain with search := some y }, out := s.out ++ l }
    let ev (s : State) (b : Nat) : State := { s with chain := { s.chain with events := setBit s.chain.events b } }
    let timed := srch { x with timing := true } []
    let roll (level pfx : Nat) (wide : Bool) : Out :=
      .chainCmd (BitVec.ofNat 8 1 :: BitVec.ofNat 8 (level + if wide then 16 else 0) :: prefixBytes level pfx)
    let assign (n pfx : Nat) : Out := .chainCmd (BitVec.ofNat 8 2 :: BitVec.ofNat 8 n :: prefixBytes n pfx)
    let noAddr (s : State) : State := State.nextItem { s with out := s.out ++ [.chainAddr 0] }
    (∀ l p rest, x.items = .roll l p :: rest → s.nextItem = srch { x with items := rest, st := .roll l p false } [roll l p x.wide]) ∧
    (∀ n p rest, x.items = .assign n p :: rest → s.nextItem = srch { x with items := rest, st := .assign n p false false } [assign n p]) ∧
    (∀ a rest, x.items = [] → x.given = a :: rest → s.nextItem = srch { x with st := .confirmPing a rest false false } [.chainCmd [4, a]]) ∧
    (x.items = [] → x.given = [] → s.chain.newAddrs = [] → s.nextItem = srch { x with st := .done } []) ∧
    (∀ b : Bool, x.st ≠ .reset → exec (.presenceWindowEnd b) s = .next s) ∧
    (x.st = .reset →
      exec (.presenceWindowEnd false) s = .next (srch { x with st := .done } []) ∧
      exec (.presenceWindowEnd true) s = .next (srch { x with items := [], st := .roll 0 0 false }
        ((if s.chain.speed then [.chainCmd [9, 1]] else []) ++ [roll 0 0 x.wide]))) ∧
    (∀ (level pfx : Nat) (re : Bool) (v : Vector SlotClass 16), x.st = .roll level pfx re →
      let edge := ∃ k : Fin 16, v[k] = .edge
      let new := (allFin 16).filterMap fun k => rollItem level pfx k.val v[k]
      (edge → re = false → exec (.rollWindowEnd v) s =
        .next (ev (srch { x with widened := x.widened + 1, wide := true, st := .roll level pfx true } [roll level pfx true]) 2)) ∧
      (edge → re = true → exec (.rollWindowEnd v) s =
        .next (ev (srch { x with timing := true, items := new ++ x.items } []) 1).nextItem) ∧
      (¬edge → exec (.rollWindowEnd v) s = .next (srch { x with items := new ++ x.items } []).nextItem)) ∧
    (∀ (n p : Nat) (re wi : Bool), x.st = .assign n p re wi →
      exec (.assignAcknowledgement .none) s = .next (noAddr s) ∧
      exec (.assignAcknowledgement .single) s = .next (srch { x with st := .readId n p re wi false } []) ∧
      exec (.assignAcknowledgement .double) s = .next (srch { x with st := .readId n p re wi true } []) ∧
      (wi = false → exec (.assignAcknowledgement .edge) s =
        .next (ev (srch { x with widened := x.widened + 1, wide := true, st := .assign n p re true } [assign n p]) 2)) ∧
      (wi = true → exec (.assignAcknowledgement .edge) s = .next (noAddr (ev timed 1)))) ∧
    (∀ (n p : Nat) (re wi dup : Bool) (id : DWord), x.st = .readId n p re wi dup →
      (dup = false → idOk id = false →
        (re = false → exec (.assignIdRead id false) s =
          .next (srch { x with st := .assign n p true wi } [.chainAddr 0, assign n p])) ∧
        (re = true → exec (.assignIdRead id false) s = .next (noAddr (ev timed 1)))) ∧
      (dup = false → idOk id = true →
        (∀ t, (s.chain.list.find? fun t => decide (t.id = id)) = some t → exec (.assignIdRead id false) s =
          .next (State.nextItem { s with
            chain := { s.chain with
              search := some { x with given := if t.addr = 0 then x.given else x.given ++ [t.addr] }
              list := s.chain.list.map fun y => if y.id = id then { y with found := true, dup := false } else y }
            out := s.out ++ [.chainAddr t.addr] })) ∧
        (∀ a, (∀ t ∈ s.chain.list, t.id ≠ id) → s.chain.freeAddr = some a → exec (.assignIdRead id false) s =
          .next (State.nextItem { s with
            chain := { s.chain with
              search := some { x with given := x.given ++ [a] }
              list := s.chain.list ++ [⟨id, a, true, false, 0, true, 0⟩] }
            out := s.out ++ [.chainAddr a] })) ∧
        ((∀ t ∈ s.chain.list, t.id ≠ id) → s.chain.freeAddr = none → exec (.assignIdRead id false) s =
          .next (noAddr (ev s 5)))) ∧
      (dup = true → ∀ t, (s.chain.list.find? fun t => decide (t.id = id)) = some t → exec (.assignIdRead id false) s =
        .next (noAddr { s with chain := { s.chain with
          search := some { x with dups := x.dups + 1 }, events := setBit s.chain.events 3
          list := s.chain.list.map fun y => if y.id = id then { y with found := true, dup := true } else y } })) ∧
      (dup = true → (∀ t ∈ s.chain.list, t.id ≠ id) → s.chain.freeAddr = none → exec (.assignIdRead id false) s =
        .next (noAddr { s with chain := { s.chain with
          search := some { x with dups := x.dups + 1 }, events := setBit (setBit s.chain.events 5) 3 } })) ∧
      (wi = false → exec (.assignIdRead id true) s = .next (ev (srch
        { x with widened := x.widened + 1, wide := true, st := .assign n p re true } [.chainAddr 0, assign n p]) 2)) ∧
      (dup = true → (∀ t ∈ s.chain.list, t.id ≠ id) → ∀ a, s.chain.freeAddr = some a → exec (.assignIdRead id false) s =
        .next (noAddr { s with chain := { s.chain with
          search := some { x with dups := x.dups + 1 }, events := setBit s.chain.events 3
          list := s.chain.list ++ [⟨id, a, true, true, 0, true, 0⟩] } })) ∧
      (wi = true → exec (.assignIdRead id true) s = .next (noAddr (ev timed 1)))) ∧
    (x.st ≠ .done → exec .searchDone s = .next s) ∧
    (∀ (cls : SlotClass) (d : List Byte),
      let answered := cls = .single ∨ cls = .double
      let upd (f : TagEntry → TagEntry) (a : Byte) (s : State) : State :=
        { s with chain := { s.chain with list := s.chain.list.map fun t => if t.addr = a then f t else t } }
      let lost (t : TagEntry) : TagEntry := { t with found := false }
      ((∀ a rest re wi, x.st ≠ .confirmPing a rest re wi ∧ x.st ≠ .confirmInfo a rest re wi) →
        exec (.chainReply cls d) s = .next s) ∧
      (∀ a rest re wi, x.st = .confirmPing a rest re wi →
        (answered → exec (.chainReply cls d) s = .next (s.nextPing rest)) ∧
        (cls = .none → re = false → exec (.chainReply cls d) s =
          .next (srch { x with st := .confirmPing a rest true wi } [.chainCmd [4, a]])) ∧
        (cls = .none → re = true → exec (.chainReply cls d) s = .next ((upd lost a s).nextPing rest)) ∧
        (cls = .edge → wi = false → exec (.chainReply cls d) s = .next (ev (srch { x with
          widened := x.widened + 1, wide := true, st := .confirmPing a rest re true } [.chainCmd [4, a]]) 2)) ∧
        (cls = .edge → wi = true → exec (.chainReply cls d) s = .next ((ev timed 1).nextPing rest))) ∧
      (∀ a rest re wi, x.st = .confirmInfo a rest re wi →
        (answered → exec (.chainReply cls d) s =
          .next ((upd (fun t => { t with features := d.getD 0 0, wseq := d.getD 6 0 }) a s).nextInfo rest)) ∧
        (cls = .none → re = false → exec (.chainReply cls d) s =
          .next (srch { x with st := .confirmInfo a rest true wi } [.chainCmd [5, a]])) ∧
        (cls = .none → re = true → exec (.chainReply cls d) s = .next ((upd lost a s).nextInfo rest)) ∧
        (cls = .edge → wi = false → exec (.chainReply cls d) s = .next (ev (srch { x with
          widened := x.widened + 1, wide := true, st := .confirmInfo a rest re true } [.chainCmd [5, a]]) 2)) ∧
        (cls = .edge → wi = true → exec (.chainReply cls d) s = .next ((ev timed 1).nextInfo rest)))) ∧
    (x.st = .done →
      let kept := s.chain.list.filter TagEntry.found
      let ended : State := { s with chain := { s.chain with
        search := none, list := kept.map fun t => { t with fresh := false } } }
      (x.cmd = none → exec .searchDone s = .next ended.lineFree) ∧
      (∀ r, x.cmd = some r → exec .searchDone s = .next (State.lineFree (ended.reply r
        (if x.timing = true then stTiming else if x.dups ≠ 0 then stDupId else stOk) 0
        [(20, 1, kept.length), (21, 1, (kept.filter TagEntry.fresh).length),
         (22, 1, (s.chain.list.filter fun t => !t.found && !t.fresh).length), (23, 1, x.dups), (24, 2, x.widened)]))))) ∧
  (∀ (level pfx k : Nat),
    rollItem level pfx k .none = none ∧ rollItem level pfx k .edge = none ∧
    rollItem level pfx k .single = some (.assign (level + 1) (pfx + k * 16 ^ level)) ∧
    (level < 15 → rollItem level pfx k .double = some (.roll (level + 1) (pfx + k * 16 ^ level))) ∧
    rollItem 15 pfx k .double = some (.assign 16 (pfx + k * 16 ^ 15))) ∧
  (∀ (c : Chain) (a : Byte), c.freeAddr = some a → 1 ≤ a.toNat ∧ a.toNat ≤ 62 ∧ (∀ t ∈ c.list, t.addr ≠ a) ∧
    ∀ b : Byte, 1 ≤ b.toNat → b.toNat < a.toNat → ∃ t ∈ c.list, t.addr = b) ∧
  (∀ s : State, s.chain.search = none → exec .searchDone s = .next s ∧
    ∀ (b : Bool) (v : Vector SlotClass 16) (c : SlotClass) (id : DWord), exec (.presenceWindowEnd b) s = .next s ∧
      exec (.rollWindowEnd v) s = .next s ∧ exec (.assignAcknowledgement c) s = .next s ∧ exec (.assignIdRead id b) s = .next s)

/-- When the line stays low (the row STUCK_LOW), CHN_EVENTS.STUCK_LOW is set; the running chain command (a search that a command asked for,
or a PING, PROVE or INCREMENT) is answered with TIMING and runs no more, and a periodic search ends. While the line is stuck low a periodic
search changes nothing, and one that waits for the line goes on waiting; LINE_HIGH_RESUME (10 ms high) ends that, and then it starts. -/
def Obligations.StuckLine : Prop :=
  (∀ s : State, ∃ t : State, exec .stuckLow s = .next t ∧ t.chain.events.getLsbD 4 = true ∧ t.chain.stuck = true ∧ t.chain.line = false) ∧
  (∀ (s : State) (x : Search), s.chain.search = some x → s.chain.waiting = [] →
    let ended : State := { s with chain := { s.chain with
      events := setBit s.chain.events 4, stuck := true, line := false, search := none } }
    (x.cmd = none → exec .stuckLow s = .next ended) ∧
    (∀ r, x.cmd = some r → exec .stuckLow s = .next (ended.reply r stTiming 0 [(23, 1, x.dups), (24, 2, x.widened)]))) ∧
  (∀ (s : State) (x : ChainRun), s.chain.search = none → s.chain.run = some x → s.chain.waiting = [] →
    ∃ res : List (Nat × Nat × Nat), exec .stuckLow s = .next (State.reply { s with chain := { s.chain with
      events := setBit s.chain.events 4, stuck := true, line := false, run := none } } x.cmd stTiming 0 res)) ∧
  (∀ (s : State) (idle : Half), s.chain.stuck = true → exec (.periodicSearch idle) s = .next s) ∧
  (∀ (s : State) (w : List (ChainWork × Option CmdRef)), s.chain.stuck = true → s.chain.busy = false →
    s.chain.waiting = (.search, none) :: w → ∀ k, s.chainNext k = s) ∧
  (∀ s : State, exec .lineHighResume s = .next (State.lineFree { s with chain := { s.chain with stuck := false, line := true } }) ∧
    (s.chain.waiting = [] →
      exec .lineHighResume s = .next (({ s with chain := { s.chain with stuck := false, line := true } } : State)))) ∧
  (∀ (s : State) (idle : Half), s.selv.ready = true → s.selv.st ≠ .off → s.chain.period ≠ 0 → s.granted 9 0 = false →
    (∃ p, s.shusPort = some p ∧ s.ports[p].st ≠ .down) → s.chain.busy = false → s.chain.stuck = false →
    ∃ t : State, exec (.periodicSearch idle) s = .next t ∧ t.chain.search = some ⟨.reset, [], [], 0, 0, false, false, none⟩)

/-- Each event reaches every tag, which changes and answers by itself. A tag without supply does nothing; a full reset makes any other
unaddressed at standard speed; a dormant one ignores the rest. An unaddressed one answers ROLL in the slot of its next nibble and ASSIGN with
its identity where the prefix is its own; an addressed one answers only commands with its address. A WRITE_PREPARE is held only when WSEQ, the
count and the MAC fit and it has no FE; the strong window programs the shadow, or sets WRITE_FAULT; the commit's window makes it current.
Whatever happens a tag keeps its identity, and a supply that collapses leaves the old count, or in the commit window the new one. -/
def Obligations.TagBehaviour : Prop :=
  (∀ (s : State) (a : Byte) (level : Fin 16) (w fe : Bool) (pfx : DWord) (n : Fin 17) (nonce : Vector Byte 16) (new : Word)
      (q p : Byte) (mac : BitVec 128),
    let all (f : Tag → Tag × List Out) : Host.Outcome State Fault Refusal :=
      .next (({ s with tags := s.tags.map fun t => (f t).1, out := s.out ++ s.tags.flatMap fun t => (f t).2 } : State))
    exec .fullReset s = all tagReset ∧ exec (.roll level w pfx) s = all (tagRoll level.val pfx.toNat) ∧
    exec (.assign n pfx a fe) s = all (tagAssign n.val pfx.toNat a fe) ∧ exec (.ping a) s = all (tagPing a) ∧
    exec (.readInfo a) s = all (tagInfo a) ∧ exec (.prove a nonce) s = all (tagProve a nonce.toList) ∧
    exec (.writePrepare a new q mac fe) s = all (tagPrepare a new q mac fe) ∧ exec (.writeCommit a q fe) s = all (tagCommit a q fe) ∧
    exec (.setSpeed p fe) s = all (tagSpeed p fe)) ∧
  (∀ (s : State) (i : Nat) (ok : Bool),
    (s.tags.length ≤ i → exec (.strongWindowEnd i ok) s = .next s ∧ exec (.tagSupplyLoss i ok) s = .next s ∧
      exec (.tagPowerUp i) s = .next s) ∧
    (∀ t, s.tags[i]? = some t →
      exec (.strongWindowEnd i ok) s = .next (({ s with
        tags := s.tags.set i (tagWindowEnd ok t).1, out := s.out ++ (tagWindowEnd ok t).2 } : State)) ∧
      exec (.tagSupplyLoss i ok) s = .next (({ s with tags := s.tags.set i (tagLoss ok t) } : State)) ∧
      ∃ u : Tag, exec (.tagPowerUp i) s = .next (({ s with tags := s.tags.set i u } : State)) ∧
        u.attached = true ∧ u.st = .dormant ∧ u.addr = 0 ∧ u.fast = false ∧ u.current = t.current ∧ u.shadow = t.shadow)) ∧
  (∀ (t : Tag) (a q p : Byte) (l n pfx : Nat) (new : Word) (mac : BitVec 128) (fe ok : Bool) (d : List Byte),
    (t.attached = false → tagReset t = (t, []) ∧ tagRoll l pfx t = (t, []) ∧ tagAssign n pfx a fe t = (t, []) ∧
      tagSpeed p fe t = (t, []) ∧ tagWindowEnd ok t = (t, []) ∧ tagLoss ok t = t) ∧
    (t.st = .dormant → tagRoll l pfx t = (t, []) ∧ tagAssign n pfx a fe t = (t, []) ∧ tagSpeed p fe t = (t, []) ∧
      tagWindowEnd ok t = (t, [])) ∧
    (t.attached = false ∨ t.st ≠ .addressed ∨ t.addr ≠ a → tagPing a t = (t, []) ∧ tagInfo a t = (t, []) ∧ tagProve a d t = (t, []) ∧
      tagPrepare a new q mac fe t = (t, []) ∧ tagCommit a q fe t = (t, [])) ∧
    (t.attached = true → ∃ u : Tag, tagReset t = (u, [.tagPulse t.id 16]) ∧ u.st = .unaddressed ∧ u.addr = 0 ∧ u.fast = false ∧
      u.write = .idle ∧ u.current = t.current ∧ u.shadow = t.shadow ∧ u.id = t.id) ∧
    (t.attached = true → t.st = .unaddressed →
      (t.id.toNat % 16 ^ l = pfx % 16 ^ l → tagRoll l pfx t = (t, [.tagPulse t.id (t.id.toNat / 16 ^ l % 16)])) ∧
      (t.id.toNat % 16 ^ l ≠ pfx % 16 ^ l → tagRoll l pfx t = (t, [])) ∧
      (1 ≤ n → t.id.toNat % 16 ^ n = pfx % 16 ^ n → fe = false → tagAssign n pfx a fe t =
        (if a = 0 then t else { t with st := .addressed, addr := a }, [.tagPulse t.id 0, .tagBytes t.id (leBytes 8 t.id.toNat)])) ∧
      (fe = true ∨ t.id.toNat % 16 ^ n ≠ pfx % 16 ^ n → tagAssign n pfx a fe t = (t, []))) ∧
    (t.st = .addressed → tagRoll l pfx t = (t, []) ∧ tagAssign n pfx a fe t = (t, [])) ∧
    (t.attached = true → t.st ≠ .dormant → fe = false →
      (tagSpeed p fe t).1.fast = (t.fast || decide (p = 1)) ∧ (tagSpeed p fe t).2 = [] ∧ (tagSpeed p fe t).1.st = t.st) ∧
    (fe = true → tagSpeed p fe t = (t, []) ∧ tagPrepare a new q mac fe t = (t, []) ∧ tagCommit a q fe t = (t, []))) ∧
  (∀ (t : Tag) (a q : Byte) (new : Word) (mac : BitVec 128) (d : List Byte),
    t.attached = true → t.st = .addressed → t.addr = a →
    let dropped : Tag := { t with write := .idle, committing := false, proving := none }
    let fits := q = t.current.wseq + 1 ∧ t.current.count ≠ 0xFFFFFFFF ∧ new = t.current.count + 1 ∧ mac = t.writeMac new q
    let info (u : Tag) : List Byte :=
      [u.features &&& 3, u.statusByte] ++ leBytes 4 u.current.count.toNat ++ [u.current.wseq, 0]
    tagPing a t = (dropped, [.tagPulse t.id 0]) ∧ tagInfo a t = (dropped, [.tagBytes t.id (info dropped)]) ∧
    tagProve a d t = ({ dropped with proving := some d }, []) ∧
    (fits → tagPrepare a new q mac false t = ({ dropped with write := .held, held := (new, q) }, [.tagPulse t.id 0])) ∧
    (¬fits → tagPrepare a new q mac false t = (dropped, [])) ∧
    (t.write = .programmed → q = t.shadow.wseq → tagCommit a q false t = ({ t with committing := true, proving := none }, [])) ∧
    (t.write = .idle → q = t.current.wseq → tagCommit a q false t = ({ t with proving := none }, [.tagPulse t.id 0])) ∧
    (t.write = .held ∨ (t.write = .programmed ∧ q ≠ t.shadow.wseq) ∨ (t.write = .idle ∧ q ≠ t.current.wseq) → tagCommit a q false t = (dropped, []))) ∧
  (∀ (t : Tag), t.attached = true → t.st ≠ .dormant →
    (∀ n ok, t.proving = some n → tagWindowEnd ok t = ({ t with proving := none }, [.tagBytes t.id (t.proof n)])) ∧
    (∀ ok, t.proving = none → t.committing = true →
      (tagWindowEnd ok t).1.current = { t.shadow with mark := true } ∧ (tagWindowEnd ok t).2 = [.tagPulse t.id 0] ∧
      (tagWindowEnd ok t).1.write = .idle) ∧
    (t.proving = none → t.committing = false → t.write = .held →
      (tagWindowEnd true t).1.shadow = ⟨t.held.1, t.held.2, true, false⟩ ∧ (tagWindowEnd true t).1.write = .programmed ∧
      (tagWindowEnd true t).1.current = t.current ∧ (tagWindowEnd true t).2 = [] ∧
      (tagWindowEnd false t).1.write = .idle ∧ (tagWindowEnd false t).1.status.getLsbD 1 = true ∧
      (tagWindowEnd false t).1.current = t.current ∧ (tagWindowEnd false t).2 = [])) ∧
  (∀ (t : Tag) (done : Bool), t.attached = true →
    (tagLoss done t).st = .dormant ∧ (tagLoss done t).addr = 0 ∧ (tagLoss done t).write = .idle ∧
    (t.committing = false → (tagLoss done t).current = t.current) ∧
    ((tagLoss done t).current = t.current ∨ (tagLoss done t).current = { t.shadow with mark := true }) ∧
    (t.write = .held → t.committing = false → (tagLoss done t).shadow.valid = false)) ∧
  (∀ (t : Tag) (d : List Byte), (t.proof d).length = 29)
end

