-- ==== Sys2Proof/Laws/Commands.lean ====
section
/-! SUPPORT. What a Renaro command does once its entry is taken: it acts, or its refusal is answered (R123). -/
namespace Sys2Proof.Safety
open Sys2Proof Sys2Proof.Machine

/-- An accepted command acts on the state with its entry taken. -/
theorem dispatch_accepts {c : Cmd} {e : Entry} {s s1 : State} (h : Accepts c e s s1) :
    c.dispatch e s = c.act (refOf e s1) e s1 := by
  have hr : (e.ref false (s1.sqs[e.sq]).epoch).relayed = false := rfl
  simp only [Cmd.dispatch, h.taken, h.here, Bool.false_eq_true, if_false, Cmd.run, hr, h.passes]
  rfl

/-- A command of a ring on this die whose check fails is answered with the status and the detail of the check. -/
theorem dispatch_refused {c : Cmd} {e : Entry} {s s1 : State} {st d : Nat} (taken : s.takeEntry e = some s1)
    (here : (s1.sqs[e.sq]).cfg.getLsbD 12 = false) (fails : c.check (s1.sqs[e.sq]).scope false e s1 = some (st, d)) :
    c.dispatch e s = s1.reply (refOf e s1) st d := by
  have hr : (e.ref false (s1.sqs[e.sq]).epoch).relayed = false := rfl
  simp only [Cmd.dispatch, taken, here, Bool.false_eq_true, if_false, Cmd.run, hr, fails]
  rfl

/-- A command its ring may not dispatch only notes that a FENCE makes its ring wait. -/
theorem dispatch_waits {c : Cmd} {e : Entry} {s : State} (h : s.takeEntry e = none) :
    c.dispatch e s = s.noteFence e := by
  simp only [Cmd.dispatch, h]

end Sys2Proof.Safety
end

