-- ==== Sys2Proof/Laws/State.lean ====
section
/-! SUPPORT. What each update of one part of the state changes and what it leaves: simp lemmas, all true by unfolding, so
that no later proof opens a record update. -/
namespace Sys2Proof.Machine
open Sys2Proof

/-- An element of a vector after one of its elements changed. -/
theorem upd_get {α : Type} {n : Nat} (v : Vector α n) (i j : Fin n) (f : α → α) :
    (upd v i f)[j] = if i = j then f v[j] else v[j] := by
  simp only [upd, Fin.getElem_fin, Vector.getElem_set, Fin.ext_iff]
  split <;> simp_all

theorem upd_getElem {α : Type} {n : Nat} (v : Vector α n) (i : Fin n) (k : Nat) (h : k < n) (f : α → α) :
    (upd v i f)[k] = if i.val = k then f v[k] else v[k] := by
  have := upd_get v i ⟨k, h⟩ f
  simpa [Fin.ext_iff] using this

@[simp] theorem upd_get_same {α : Type} {n : Nat} (v : Vector α n) (i : Fin n) (f : α → α) :
    (upd v i f)[i.val] = f v[i.val] := by simp [upd_getElem]

theorem upd_get_ne {α : Type} {n : Nat} (v : Vector α n) {i j : Fin n} (h : i ≠ j) (f : α → α) :
    (upd v i f)[j] = v[j] := by rw [upd_get]; simp [h]

@[simp] theorem upd_upd {α : Type} {n : Nat} (v : Vector α n) (i : Fin n) (f g : α → α) :
    upd (upd v i f) i g = upd v i (fun x => g (f x)) := by
  apply Vector.ext; intro j hj
  have h1 := upd_get (upd v i f) i ⟨j, hj⟩ g
  have h2 := upd_get v i ⟨j, hj⟩ f
  have h3 := upd_get v i ⟨j, hj⟩ fun x => g (f x)
  simp only [Fin.getElem_fin] at h1 h2 h3
  rw [h1, h2, h3]; split <;> rfl

/-- An element of a vector after every element changed. -/
@[simp] theorem mapV_get {α : Type} {n : Nat} (v : Vector α n) (f : Fin n → α → α) (j : Fin n) :
    (mapV v f)[j.val] = f j v[j.val] := by simp [mapV]

@[simp] theorem modPort_ports (s : State) (p : Fin 10) (f : EdgePort → EdgePort) :
    (s.modPort p f).ports = upd s.ports p f := rfl
/-- `modPort` leaves every other part of the state. -/
@[simp] theorem modPort_frame (s : State) (p : Fin 10) (f : EdgePort → EdgePort) :
    (s.modPort p f).fuses = s.fuses ∧ (s.modPort p f).phys = s.phys ∧ (s.modPort p f).selv = s.selv ∧
    (s.modPort p f).boot = s.boot ∧ (s.modPort p f).map = s.map ∧ (s.modPort p f).stack = s.stack ∧
    (s.modPort p f).localMap = s.localMap ∧ (s.modPort p f).shusPcieUp = s.shusPcieUp ∧ (s.modPort p f).sqs = s.sqs ∧
    (s.modPort p f).cqs = s.cqs ∧ (s.modPort p f).turn = s.turn ∧ (s.modPort p f).turnLeft = s.turnLeft ∧
    (s.modPort p f).fns = s.fns ∧ (s.modPort p f).grants = s.grants ∧ (s.modPort p f).latch = s.latch ∧
    (s.modPort p f).fwLog = s.fwLog ∧ (s.modPort p f).jobs = s.jobs ∧ (s.modPort p f).tick = s.tick ∧
    (s.modPort p f).swatches = s.swatches ∧ (s.modPort p f).saves = s.saves ∧
    (s.modPort p f).deviceTime = s.deviceTime ∧ (s.modPort p f).mem = s.mem ∧ (s.modPort p f).poison = s.poison ∧
    (s.modPort p f).pages = s.pages ∧ (s.modPort p f).badPages = s.badPages ∧ (s.modPort p f).hanks = s.hanks ∧
    (s.modPort p f).nextHank = s.nextHank ∧ (s.modPort p f).twinWins = s.twinWins ∧
    (s.modPort p f).accesses = s.accesses ∧ (s.modPort p f).nextAccess = s.nextAccess ∧
    (s.modPort p f).gauge = s.gauge ∧ (s.modPort p f).skeins = s.skeins ∧ (s.modPort p f).needles = s.needles ∧
    (s.modPort p f).chans = s.chans ∧ (s.modPort p f).twinChains = s.twinChains ∧
    (s.modPort p f).edgeCarders = s.edgeCarders ∧ (s.modPort p f).distaffs = s.distaffs ∧
    (s.modPort p f).l2Events = s.l2Events ∧ (s.modPort p f).cache = s.cache ∧ (s.modPort p f).bobbins = s.bobbins ∧
    (s.modPort p f).io = s.io ∧ (s.modPort p f).pins = s.pins ∧ (s.modPort p f).wakeEvents = s.wakeEvents ∧
    (s.modPort p f).flash = s.flash ∧ (s.modPort p f).jtag = s.jtag ∧ (s.modPort p f).chain = s.chain ∧
    (s.modPort p f).tags = s.tags ∧ (s.modPort p f).inner = s.inner ∧ (s.modPort p f).tally = s.tally ∧
    (s.modPort p f).rep = s.rep ∧ (s.modPort p f).out = s.out ∧ (s.modPort p f).freeCtr = s.freeCtr ∧
    (s.modPort p f).pending = s.pending :=
  ⟨rfl, rfl, rfl, rfl, rfl, rfl, rfl, rfl, rfl, rfl, rfl, rfl, rfl, rfl, rfl, rfl, rfl, rfl, rfl, rfl, rfl, rfl, rfl, rfl,
   rfl, rfl, rfl, rfl, rfl, rfl, rfl, rfl, rfl, rfl, rfl, rfl, rfl, rfl, rfl, rfl, rfl, rfl, rfl, rfl, rfl, rfl, rfl, rfl,
   rfl, rfl, rfl, rfl, rfl⟩

@[simp] theorem modStack_stack (s : State) (b : Fin 4) (f : Stack → Stack) :
    (s.modStack b f).stack = upd s.stack b f := rfl
/-- `modStack` leaves every other part of the state. -/
@[simp] theorem modStack_frame (s : State) (b : Fin 4) (f : Stack → Stack) :
    (s.modStack b f).fuses = s.fuses ∧ (s.modStack b f).phys = s.phys ∧ (s.modStack b f).selv = s.selv ∧
    (s.modStack b f).boot = s.boot ∧ (s.modStack b f).map = s.map ∧ (s.modStack b f).ports = s.ports ∧
    (s.modStack b f).localMap = s.localMap ∧ (s.modStack b f).shusPcieUp = s.shusPcieUp ∧
    (s.modStack b f).sqs = s.sqs ∧ (s.modStack b f).cqs = s.cqs ∧ (s.modStack b f).turn = s.turn ∧
    (s.modStack b f).turnLeft = s.turnLeft ∧ (s.modStack b f).fns = s.fns ∧ (s.modStack b f).grants = s.grants ∧
    (s.modStack b f).latch = s.latch ∧ (s.modStack b f).fwLog = s.fwLog ∧ (s.modStack b f).jobs = s.jobs ∧
    (s.modStack b f).tick = s.tick ∧ (s.modStack b f).swatches = s.swatches ∧ (s.modStack b f).saves = s.saves ∧
    (s.modStack b f).deviceTime = s.deviceTime ∧ (s.modStack b f).mem = s.mem ∧ (s.modStack b f).poison = s.poison ∧
    (s.modStack b f).pages = s.pages ∧ (s.modStack b f).badPages = s.badPages ∧ (s.modStack b f).hanks = s.hanks ∧
    (s.modStack b f).nextHank = s.nextHank ∧ (s.modStack b f).twinWins = s.twinWins ∧
    (s.modStack b f).accesses = s.accesses ∧ (s.modStack b f).nextAccess = s.nextAccess ∧
    (s.modStack b f).gauge = s.gauge ∧ (s.modStack b f).skeins = s.skeins ∧ (s.modStack b f).needles = s.needles ∧
    (s.modStack b f).chans = s.chans ∧ (s.modStack b f).twinChains = s.twinChains ∧
    (s.modStack b f).edgeCarders = s.edgeCarders ∧ (s.modStack b f).distaffs = s.distaffs ∧
    (s.modStack b f).l2Events = s.l2Events ∧ (s.modStack b f).cache = s.cache ∧
    (s.modStack b f).bobbins = s.bobbins ∧ (s.modStack b f).io = s.io ∧ (s.modStack b f).pins = s.pins ∧
    (s.modStack b f).wakeEvents = s.wakeEvents ∧ (s.modStack b f).flash = s.flash ∧ (s.modStack b f).jtag = s.jtag ∧
    (s.modStack b f).chain = s.chain ∧ (s.modStack b f).tags = s.tags ∧ (s.modStack b f).inner = s.inner ∧
    (s.modStack b f).tally = s.tally ∧ (s.modStack b f).rep = s.rep ∧ (s.modStack b f).out = s.out ∧
    (s.modStack b f).freeCtr = s.freeCtr ∧ (s.modStack b f).pending = s.pending :=
  ⟨rfl, rfl, rfl, rfl, rfl, rfl, rfl, rfl, rfl, rfl, rfl, rfl, rfl, rfl, rfl, rfl, rfl, rfl, rfl, rfl, rfl, rfl, rfl, rfl,
   rfl, rfl, rfl, rfl, rfl, rfl, rfl, rfl, rfl, rfl, rfl, rfl, rfl, rfl, rfl, rfl, rfl, rfl, rfl, rfl, rfl, rfl, rfl, rfl,
   rfl, rfl, rfl, rfl, rfl⟩

@[simp] theorem modSq_sqs (s : State) (i : Fin 16) (f : Sq → Sq) :
    (s.modSq i f).sqs = upd s.sqs i f := rfl
/-- `modSq` leaves every other part of the state. -/
@[simp] theorem modSq_frame (s : State) (i : Fin 16) (f : Sq → Sq) :
    (s.modSq i f).fuses = s.fuses ∧ (s.modSq i f).phys = s.phys ∧ (s.modSq i f).selv = s.selv ∧
    (s.modSq i f).boot = s.boot ∧ (s.modSq i f).map = s.map ∧ (s.modSq i f).ports = s.ports ∧
    (s.modSq i f).stack = s.stack ∧ (s.modSq i f).localMap = s.localMap ∧ (s.modSq i f).shusPcieUp = s.shusPcieUp ∧
    (s.modSq i f).cqs = s.cqs ∧ (s.modSq i f).turn = s.turn ∧ (s.modSq i f).turnLeft = s.turnLeft ∧
    (s.modSq i f).fns = s.fns ∧ (s.modSq i f).grants = s.grants ∧ (s.modSq i f).latch = s.latch ∧
    (s.modSq i f).fwLog = s.fwLog ∧ (s.modSq i f).jobs = s.jobs ∧ (s.modSq i f).tick = s.tick ∧
    (s.modSq i f).swatches = s.swatches ∧ (s.modSq i f).saves = s.saves ∧ (s.modSq i f).deviceTime = s.deviceTime ∧
    (s.modSq i f).mem = s.mem ∧ (s.modSq i f).poison = s.poison ∧ (s.modSq i f).pages = s.pages ∧
    (s.modSq i f).badPages = s.badPages ∧ (s.modSq i f).hanks = s.hanks ∧ (s.modSq i f).nextHank = s.nextHank ∧
    (s.modSq i f).twinWins = s.twinWins ∧ (s.modSq i f).accesses = s.accesses ∧
    (s.modSq i f).nextAccess = s.nextAccess ∧ (s.modSq i f).gauge = s.gauge ∧ (s.modSq i f).skeins = s.skeins ∧
    (s.modSq i f).needles = s.needles ∧ (s.modSq i f).chans = s.chans ∧ (s.modSq i f).twinChains = s.twinChains ∧
    (s.modSq i f).edgeCarders = s.edgeCarders ∧ (s.modSq i f).distaffs = s.distaffs ∧
    (s.modSq i f).l2Events = s.l2Events ∧ (s.modSq i f).cache = s.cache ∧ (s.modSq i f).bobbins = s.bobbins ∧
    (s.modSq i f).io = s.io ∧ (s.modSq i f).pins = s.pins ∧ (s.modSq i f).wakeEvents = s.wakeEvents ∧
    (s.modSq i f).flash = s.flash ∧ (s.modSq i f).jtag = s.jtag ∧ (s.modSq i f).chain = s.chain ∧
    (s.modSq i f).tags = s.tags ∧ (s.modSq i f).inner = s.inner ∧ (s.modSq i f).tally = s.tally ∧
    (s.modSq i f).rep = s.rep ∧ (s.modSq i f).out = s.out ∧ (s.modSq i f).freeCtr = s.freeCtr ∧
    (s.modSq i f).pending = s.pending :=
  ⟨rfl, rfl, rfl, rfl, rfl, rfl, rfl, rfl, rfl, rfl, rfl, rfl, rfl, rfl, rfl, rfl, rfl, rfl, rfl, rfl, rfl, rfl, rfl, rfl,
   rfl, rfl, rfl, rfl, rfl, rfl, rfl, rfl, rfl, rfl, rfl, rfl, rfl, rfl, rfl, rfl, rfl, rfl, rfl, rfl, rfl, rfl, rfl, rfl,
   rfl, rfl, rfl, rfl, rfl⟩

@[simp] theorem modCq_cqs (s : State) (i : Fin 16) (f : Cq → Cq) :
    (s.modCq i f).cqs = upd s.cqs i f := rfl
/-- `modCq` leaves every other part of the state. -/
@[simp] theorem modCq_frame (s : State) (i : Fin 16) (f : Cq → Cq) :
    (s.modCq i f).fuses = s.fuses ∧ (s.modCq i f).phys = s.phys ∧ (s.modCq i f).selv = s.selv ∧
    (s.modCq i f).boot = s.boot ∧ (s.modCq i f).map = s.map ∧ (s.modCq i f).ports = s.ports ∧
    (s.modCq i f).stack = s.stack ∧ (s.modCq i f).localMap = s.localMap ∧ (s.modCq i f).shusPcieUp = s.shusPcieUp ∧
    (s.modCq i f).sqs = s.sqs ∧ (s.modCq i f).turn = s.turn ∧ (s.modCq i f).turnLeft = s.turnLeft ∧
    (s.modCq i f).fns = s.fns ∧ (s.modCq i f).grants = s.grants ∧ (s.modCq i f).latch = s.latch ∧
    (s.modCq i f).fwLog = s.fwLog ∧ (s.modCq i f).jobs = s.jobs ∧ (s.modCq i f).tick = s.tick ∧
    (s.modCq i f).swatches = s.swatches ∧ (s.modCq i f).saves = s.saves ∧ (s.modCq i f).deviceTime = s.deviceTime ∧
    (s.modCq i f).mem = s.mem ∧ (s.modCq i f).poison = s.poison ∧ (s.modCq i f).pages = s.pages ∧
    (s.modCq i f).badPages = s.badPages ∧ (s.modCq i f).hanks = s.hanks ∧ (s.modCq i f).nextHank = s.nextHank ∧
    (s.modCq i f).twinWins = s.twinWins ∧ (s.modCq i f).accesses = s.accesses ∧
    (s.modCq i f).nextAccess = s.nextAccess ∧ (s.modCq i f).gauge = s.gauge ∧ (s.modCq i f).skeins = s.skeins ∧
    (s.modCq i f).needles = s.needles ∧ (s.modCq i f).chans = s.chans ∧ (s.modCq i f).twinChains = s.twinChains ∧
    (s.modCq i f).edgeCarders = s.edgeCarders ∧ (s.modCq i f).distaffs = s.distaffs ∧
    (s.modCq i f).l2Events = s.l2Events ∧ (s.modCq i f).cache = s.cache ∧ (s.modCq i f).bobbins = s.bobbins ∧
    (s.modCq i f).io = s.io ∧ (s.modCq i f).pins = s.pins ∧ (s.modCq i f).wakeEvents = s.wakeEvents ∧
    (s.modCq i f).flash = s.flash ∧ (s.modCq i f).jtag = s.jtag ∧ (s.modCq i f).chain = s.chain ∧
    (s.modCq i f).tags = s.tags ∧ (s.modCq i f).inner = s.inner ∧ (s.modCq i f).tally = s.tally ∧
    (s.modCq i f).rep = s.rep ∧ (s.modCq i f).out = s.out ∧ (s.modCq i f).freeCtr = s.freeCtr ∧
    (s.modCq i f).pending = s.pending :=
  ⟨rfl, rfl, rfl, rfl, rfl, rfl, rfl, rfl, rfl, rfl, rfl, rfl, rfl, rfl, rfl, rfl, rfl, rfl, rfl, rfl, rfl, rfl, rfl, rfl,
   rfl, rfl, rfl, rfl, rfl, rfl, rfl, rfl, rfl, rfl, rfl, rfl, rfl, rfl, rfl, rfl, rfl, rfl, rfl, rfl, rfl, rfl, rfl, rfl,
   rfl, rfl, rfl, rfl, rfl⟩

@[simp] theorem modFn_fns (s : State) (i : Fin 2) (f : HostFn → HostFn) :
    (s.modFn i f).fns = upd s.fns i f := rfl
/-- `modFn` leaves every other part of the state. -/
@[simp] theorem modFn_frame (s : State) (i : Fin 2) (f : HostFn → HostFn) :
    (s.modFn i f).fuses = s.fuses ∧ (s.modFn i f).phys = s.phys ∧ (s.modFn i f).selv = s.selv ∧
    (s.modFn i f).boot = s.boot ∧ (s.modFn i f).map = s.map ∧ (s.modFn i f).ports = s.ports ∧
    (s.modFn i f).stack = s.stack ∧ (s.modFn i f).localMap = s.localMap ∧ (s.modFn i f).shusPcieUp = s.shusPcieUp ∧
    (s.modFn i f).sqs = s.sqs ∧ (s.modFn i f).cqs = s.cqs ∧ (s.modFn i f).turn = s.turn ∧
    (s.modFn i f).turnLeft = s.turnLeft ∧ (s.modFn i f).grants = s.grants ∧ (s.modFn i f).latch = s.latch ∧
    (s.modFn i f).fwLog = s.fwLog ∧ (s.modFn i f).jobs = s.jobs ∧ (s.modFn i f).tick = s.tick ∧
    (s.modFn i f).swatches = s.swatches ∧ (s.modFn i f).saves = s.saves ∧ (s.modFn i f).deviceTime = s.deviceTime ∧
    (s.modFn i f).mem = s.mem ∧ (s.modFn i f).poison = s.poison ∧ (s.modFn i f).pages = s.pages ∧
    (s.modFn i f).badPages = s.badPages ∧ (s.modFn i f).hanks = s.hanks ∧ (s.modFn i f).nextHank = s.nextHank ∧
    (s.modFn i f).twinWins = s.twinWins ∧ (s.modFn i f).accesses = s.accesses ∧
    (s.modFn i f).nextAccess = s.nextAccess ∧ (s.modFn i f).gauge = s.gauge ∧ (s.modFn i f).skeins = s.skeins ∧
    (s.modFn i f).needles = s.needles ∧ (s.modFn i f).chans = s.chans ∧ (s.modFn i f).twinChains = s.twinChains ∧
    (s.modFn i f).edgeCarders = s.edgeCarders ∧ (s.modFn i f).distaffs = s.distaffs ∧
    (s.modFn i f).l2Events = s.l2Events ∧ (s.modFn i f).cache = s.cache ∧ (s.modFn i f).bobbins = s.bobbins ∧
    (s.modFn i f).io = s.io ∧ (s.modFn i f).pins = s.pins ∧ (s.modFn i f).wakeEvents = s.wakeEvents ∧
    (s.modFn i f).flash = s.flash ∧ (s.modFn i f).jtag = s.jtag ∧ (s.modFn i f).chain = s.chain ∧
    (s.modFn i f).tags = s.tags ∧ (s.modFn i f).inner = s.inner ∧ (s.modFn i f).tally = s.tally ∧
    (s.modFn i f).rep = s.rep ∧ (s.modFn i f).out = s.out ∧ (s.modFn i f).freeCtr = s.freeCtr ∧
    (s.modFn i f).pending = s.pending :=
  ⟨rfl, rfl, rfl, rfl, rfl, rfl, rfl, rfl, rfl, rfl, rfl, rfl, rfl, rfl, rfl, rfl, rfl, rfl, rfl, rfl, rfl, rfl, rfl, rfl,
   rfl, rfl, rfl, rfl, rfl, rfl, rfl, rfl, rfl, rfl, rfl, rfl, rfl, rfl, rfl, rfl, rfl, rfl, rfl, rfl, rfl, rfl, rfl, rfl,
   rfl, rfl, rfl, rfl, rfl⟩

@[simp] theorem modSw_swatches (s : State) (i : Fin 8) (f : Swatch → Swatch) :
    (s.modSw i f).swatches = upd s.swatches i f := rfl
/-- `modSw` leaves every other part of the state. -/
@[simp] theorem modSw_frame (s : State) (i : Fin 8) (f : Swatch → Swatch) :
    (s.modSw i f).fuses = s.fuses ∧ (s.modSw i f).phys = s.phys ∧ (s.modSw i f).selv = s.selv ∧
    (s.modSw i f).boot = s.boot ∧ (s.modSw i f).map = s.map ∧ (s.modSw i f).ports = s.ports ∧
    (s.modSw i f).stack = s.stack ∧ (s.modSw i f).localMap = s.localMap ∧ (s.modSw i f).shusPcieUp = s.shusPcieUp ∧
    (s.modSw i f).sqs = s.sqs ∧ (s.modSw i f).cqs = s.cqs ∧ (s.modSw i f).turn = s.turn ∧
    (s.modSw i f).turnLeft = s.turnLeft ∧ (s.modSw i f).fns = s.fns ∧ (s.modSw i f).grants = s.grants ∧
    (s.modSw i f).latch = s.latch ∧ (s.modSw i f).fwLog = s.fwLog ∧ (s.modSw i f).jobs = s.jobs ∧
    (s.modSw i f).tick = s.tick ∧ (s.modSw i f).saves = s.saves ∧ (s.modSw i f).deviceTime = s.deviceTime ∧
    (s.modSw i f).mem = s.mem ∧ (s.modSw i f).poison = s.poison ∧ (s.modSw i f).pages = s.pages ∧
    (s.modSw i f).badPages = s.badPages ∧ (s.modSw i f).hanks = s.hanks ∧ (s.modSw i f).nextHank = s.nextHank ∧
    (s.modSw i f).twinWins = s.twinWins ∧ (s.modSw i f).accesses = s.accesses ∧
    (s.modSw i f).nextAccess = s.nextAccess ∧ (s.modSw i f).gauge = s.gauge ∧ (s.modSw i f).skeins = s.skeins ∧
    (s.modSw i f).needles = s.needles ∧ (s.modSw i f).chans = s.chans ∧ (s.modSw i f).twinChains = s.twinChains ∧
    (s.modSw i f).edgeCarders = s.edgeCarders ∧ (s.modSw i f).distaffs = s.distaffs ∧
    (s.modSw i f).l2Events = s.l2Events ∧ (s.modSw i f).cache = s.cache ∧ (s.modSw i f).bobbins = s.bobbins ∧
    (s.modSw i f).io = s.io ∧ (s.modSw i f).pins = s.pins ∧ (s.modSw i f).wakeEvents = s.wakeEvents ∧
    (s.modSw i f).flash = s.flash ∧ (s.modSw i f).jtag = s.jtag ∧ (s.modSw i f).chain = s.chain ∧
    (s.modSw i f).tags = s.tags ∧ (s.modSw i f).inner = s.inner ∧ (s.modSw i f).tally = s.tally ∧
    (s.modSw i f).rep = s.rep ∧ (s.modSw i f).out = s.out ∧ (s.modSw i f).freeCtr = s.freeCtr ∧
    (s.modSw i f).pending = s.pending :=
  ⟨rfl, rfl, rfl, rfl, rfl, rfl, rfl, rfl, rfl, rfl, rfl, rfl, rfl, rfl, rfl, rfl, rfl, rfl, rfl, rfl, rfl, rfl, rfl, rfl,
   rfl, rfl, rfl, rfl, rfl, rfl, rfl, rfl, rfl, rfl, rfl, rfl, rfl, rfl, rfl, rfl, rfl, rfl, rfl, rfl, rfl, rfl, rfl, rfl,
   rfl, rfl, rfl, rfl, rfl⟩

@[simp] theorem modSkein_skeins (s : State) (i : Fin 16) (f : Skein → Skein) :
    (s.modSkein i f).skeins = upd s.skeins i f := rfl
/-- `modSkein` leaves every other part of the state. -/
@[simp] theorem modSkein_frame (s : State) (i : Fin 16) (f : Skein → Skein) :
    (s.modSkein i f).fuses = s.fuses ∧ (s.modSkein i f).phys = s.phys ∧ (s.modSkein i f).selv = s.selv ∧
    (s.modSkein i f).boot = s.boot ∧ (s.modSkein i f).map = s.map ∧ (s.modSkein i f).ports = s.ports ∧
    (s.modSkein i f).stack = s.stack ∧ (s.modSkein i f).localMap = s.localMap ∧
    (s.modSkein i f).shusPcieUp = s.shusPcieUp ∧ (s.modSkein i f).sqs = s.sqs ∧ (s.modSkein i f).cqs = s.cqs ∧
    (s.modSkein i f).turn = s.turn ∧ (s.modSkein i f).turnLeft = s.turnLeft ∧ (s.modSkein i f).fns = s.fns ∧
    (s.modSkein i f).grants = s.grants ∧ (s.modSkein i f).latch = s.latch ∧ (s.modSkein i f).fwLog = s.fwLog ∧
    (s.modSkein i f).jobs = s.jobs ∧ (s.modSkein i f).tick = s.tick ∧ (s.modSkein i f).swatches = s.swatches ∧
    (s.modSkein i f).saves = s.saves ∧ (s.modSkein i f).deviceTime = s.deviceTime ∧ (s.modSkein i f).mem = s.mem ∧
    (s.modSkein i f).poison = s.poison ∧ (s.modSkein i f).pages = s.pages ∧ (s.modSkein i f).badPages = s.badPages ∧
    (s.modSkein i f).hanks = s.hanks ∧ (s.modSkein i f).nextHank = s.nextHank ∧
    (s.modSkein i f).twinWins = s.twinWins ∧ (s.modSkein i f).accesses = s.accesses ∧
    (s.modSkein i f).nextAccess = s.nextAccess ∧ (s.modSkein i f).gauge = s.gauge ∧
    (s.modSkein i f).needles = s.needles ∧ (s.modSkein i f).chans = s.chans ∧
    (s.modSkein i f).twinChains = s.twinChains ∧ (s.modSkein i f).edgeCarders = s.edgeCarders ∧
    (s.modSkein i f).distaffs = s.distaffs ∧ (s.modSkein i f).l2Events = s.l2Events ∧
    (s.modSkein i f).cache = s.cache ∧ (s.modSkein i f).bobbins = s.bobbins ∧ (s.modSkein i f).io = s.io ∧
    (s.modSkein i f).pins = s.pins ∧ (s.modSkein i f).wakeEvents = s.wakeEvents ∧ (s.modSkein i f).flash = s.flash ∧
    (s.modSkein i f).jtag = s.jtag ∧ (s.modSkein i f).chain = s.chain ∧ (s.modSkein i f).tags = s.tags ∧
    (s.modSkein i f).inner = s.inner ∧ (s.modSkein i f).tally = s.tally ∧ (s.modSkein i f).rep = s.rep ∧
    (s.modSkein i f).out = s.out ∧ (s.modSkein i f).freeCtr = s.freeCtr ∧ (s.modSkein i f).pending = s.pending :=
  ⟨rfl, rfl, rfl, rfl, rfl, rfl, rfl, rfl, rfl, rfl, rfl, rfl, rfl, rfl, rfl, rfl, rfl, rfl, rfl, rfl, rfl, rfl, rfl, rfl,
   rfl, rfl, rfl, rfl, rfl, rfl, rfl, rfl, rfl, rfl, rfl, rfl, rfl, rfl, rfl, rfl, rfl, rfl, rfl, rfl, rfl, rfl, rfl, rfl,
   rfl, rfl, rfl, rfl, rfl⟩

@[simp] theorem modNeedle_needles (s : State) (i : Fin 96) (f : Needle → Needle) :
    (s.modNeedle i f).needles = upd s.needles i f := rfl
/-- `modNeedle` leaves every other part of the state. -/
@[simp] theorem modNeedle_frame (s : State) (i : Fin 96) (f : Needle → Needle) :
    (s.modNeedle i f).fuses = s.fuses ∧ (s.modNeedle i f).phys = s.phys ∧ (s.modNeedle i f).selv = s.selv ∧
    (s.modNeedle i f).boot = s.boot ∧ (s.modNeedle i f).map = s.map ∧ (s.modNeedle i f).ports = s.ports ∧
    (s.modNeedle i f).stack = s.stack ∧ (s.modNeedle i f).localMap = s.localMap ∧
    (s.modNeedle i f).shusPcieUp = s.shusPcieUp ∧ (s.modNeedle i f).sqs = s.sqs ∧ (s.modNeedle i f).cqs = s.cqs ∧
    (s.modNeedle i f).turn = s.turn ∧ (s.modNeedle i f).turnLeft = s.turnLeft ∧ (s.modNeedle i f).fns = s.fns ∧
    (s.modNeedle i f).grants = s.grants ∧ (s.modNeedle i f).latch = s.latch ∧ (s.modNeedle i f).fwLog = s.fwLog ∧
    (s.modNeedle i f).jobs = s.jobs ∧ (s.modNeedle i f).tick = s.tick ∧ (s.modNeedle i f).swatches = s.swatches ∧
    (s.modNeedle i f).saves = s.saves ∧ (s.modNeedle i f).deviceTime = s.deviceTime ∧ (s.modNeedle i f).mem = s.mem ∧
    (s.modNeedle i f).poison = s.poison ∧ (s.modNeedle i f).pages = s.pages ∧
    (s.modNeedle i f).badPages = s.badPages ∧ (s.modNeedle i f).hanks = s.hanks ∧
    (s.modNeedle i f).nextHank = s.nextHank ∧ (s.modNeedle i f).twinWins = s.twinWins ∧
    (s.modNeedle i f).accesses = s.accesses ∧ (s.modNeedle i f).nextAccess = s.nextAccess ∧
    (s.modNeedle i f).gauge = s.gauge ∧ (s.modNeedle i f).skeins = s.skeins ∧ (s.modNeedle i f).chans = s.chans ∧
    (s.modNeedle i f).twinChains = s.twinChains ∧ (s.modNeedle i f).edgeCarders = s.edgeCarders ∧
    (s.modNeedle i f).distaffs = s.distaffs ∧ (s.modNeedle i f).l2Events = s.l2Events ∧
    (s.modNeedle i f).cache = s.cache ∧ (s.modNeedle i f).bobbins = s.bobbins ∧ (s.modNeedle i f).io = s.io ∧
    (s.modNeedle i f).pins = s.pins ∧ (s.modNeedle i f).wakeEvents = s.wakeEvents ∧
    (s.modNeedle i f).flash = s.flash ∧ (s.modNeedle i f).jtag = s.jtag ∧ (s.modNeedle i f).chain = s.chain ∧
    (s.modNeedle i f).tags = s.tags ∧ (s.modNeedle i f).inner = s.inner ∧ (s.modNeedle i f).tally = s.tally ∧
    (s.modNeedle i f).rep = s.rep ∧ (s.modNeedle i f).out = s.out ∧ (s.modNeedle i f).freeCtr = s.freeCtr ∧
    (s.modNeedle i f).pending = s.pending :=
  ⟨rfl, rfl, rfl, rfl, rfl, rfl, rfl, rfl, rfl, rfl, rfl, rfl, rfl, rfl, rfl, rfl, rfl, rfl, rfl, rfl, rfl, rfl, rfl, rfl,
   rfl, rfl, rfl, rfl, rfl, rfl, rfl, rfl, rfl, rfl, rfl, rfl, rfl, rfl, rfl, rfl, rfl, rfl, rfl, rfl, rfl, rfl, rfl, rfl,
   rfl, rfl, rfl, rfl, rfl⟩

@[simp] theorem modDst_distaffs (s : State) (i : Fin 4) (f : Distaff → Distaff) :
    (s.modDst i f).distaffs = upd s.distaffs i f := rfl
/-- `modDst` leaves every other part of the state. -/
@[simp] theorem modDst_frame (s : State) (i : Fin 4) (f : Distaff → Distaff) :
    (s.modDst i f).fuses = s.fuses ∧ (s.modDst i f).phys = s.phys ∧ (s.modDst i f).selv = s.selv ∧
    (s.modDst i f).boot = s.boot ∧ (s.modDst i f).map = s.map ∧ (s.modDst i f).ports = s.ports ∧
    (s.modDst i f).stack = s.stack ∧ (s.modDst i f).localMap = s.localMap ∧
    (s.modDst i f).shusPcieUp = s.shusPcieUp ∧ (s.modDst i f).sqs = s.sqs ∧ (s.modDst i f).cqs = s.cqs ∧
    (s.modDst i f).turn = s.turn ∧ (s.modDst i f).turnLeft = s.turnLeft ∧ (s.modDst i f).fns = s.fns ∧
    (s.modDst i f).grants = s.grants ∧ (s.modDst i f).latch = s.latch ∧ (s.modDst i f).fwLog = s.fwLog ∧
    (s.modDst i f).jobs = s.jobs ∧ (s.modDst i f).tick = s.tick ∧ (s.modDst i f).swatches = s.swatches ∧
    (s.modDst i f).saves = s.saves ∧ (s.modDst i f).deviceTime = s.deviceTime ∧ (s.modDst i f).mem = s.mem ∧
    (s.modDst i f).poison = s.poison ∧ (s.modDst i f).pages = s.pages ∧ (s.modDst i f).badPages = s.badPages ∧
    (s.modDst i f).hanks = s.hanks ∧ (s.modDst i f).nextHank = s.nextHank ∧ (s.modDst i f).twinWins = s.twinWins ∧
    (s.modDst i f).accesses = s.accesses ∧ (s.modDst i f).nextAccess = s.nextAccess ∧
    (s.modDst i f).gauge = s.gauge ∧ (s.modDst i f).skeins = s.skeins ∧ (s.modDst i f).needles = s.needles ∧
    (s.modDst i f).chans = s.chans ∧ (s.modDst i f).twinChains = s.twinChains ∧
    (s.modDst i f).edgeCarders = s.edgeCarders ∧ (s.modDst i f).l2Events = s.l2Events ∧
    (s.modDst i f).cache = s.cache ∧ (s.modDst i f).bobbins = s.bobbins ∧ (s.modDst i f).io = s.io ∧
    (s.modDst i f).pins = s.pins ∧ (s.modDst i f).wakeEvents = s.wakeEvents ∧ (s.modDst i f).flash = s.flash ∧
    (s.modDst i f).jtag = s.jtag ∧ (s.modDst i f).chain = s.chain ∧ (s.modDst i f).tags = s.tags ∧
    (s.modDst i f).inner = s.inner ∧ (s.modDst i f).tally = s.tally ∧ (s.modDst i f).rep = s.rep ∧
    (s.modDst i f).out = s.out ∧ (s.modDst i f).freeCtr = s.freeCtr ∧ (s.modDst i f).pending = s.pending :=
  ⟨rfl, rfl, rfl, rfl, rfl, rfl, rfl, rfl, rfl, rfl, rfl, rfl, rfl, rfl, rfl, rfl, rfl, rfl, rfl, rfl, rfl, rfl, rfl, rfl,
   rfl, rfl, rfl, rfl, rfl, rfl, rfl, rfl, rfl, rfl, rfl, rfl, rfl, rfl, rfl, rfl, rfl, rfl, rfl, rfl, rfl, rfl, rfl, rfl,
   rfl, rfl, rfl, rfl, rfl⟩

@[simp] theorem modBob_bobbins (s : State) (i : Fin 48) (f : Bobbin → Bobbin) :
    (s.modBob i f).bobbins = upd s.bobbins i f := rfl
/-- `modBob` leaves every other part of the state. -/
@[simp] theorem modBob_frame (s : State) (i : Fin 48) (f : Bobbin → Bobbin) :
    (s.modBob i f).fuses = s.fuses ∧ (s.modBob i f).phys = s.phys ∧ (s.modBob i f).selv = s.selv ∧
    (s.modBob i f).boot = s.boot ∧ (s.modBob i f).map = s.map ∧ (s.modBob i f).ports = s.ports ∧
    (s.modBob i f).stack = s.stack ∧ (s.modBob i f).localMap = s.localMap ∧
    (s.modBob i f).shusPcieUp = s.shusPcieUp ∧ (s.modBob i f).sqs = s.sqs ∧ (s.modBob i f).cqs = s.cqs ∧
    (s.modBob i f).turn = s.turn ∧ (s.modBob i f).turnLeft = s.turnLeft ∧ (s.modBob i f).fns = s.fns ∧
    (s.modBob i f).grants = s.grants ∧ (s.modBob i f).latch = s.latch ∧ (s.modBob i f).fwLog = s.fwLog ∧
    (s.modBob i f).jobs = s.jobs ∧ (s.modBob i f).tick = s.tick ∧ (s.modBob i f).swatches = s.swatches ∧
    (s.modBob i f).saves = s.saves ∧ (s.modBob i f).deviceTime = s.deviceTime ∧ (s.modBob i f).mem = s.mem ∧
    (s.modBob i f).poison = s.poison ∧ (s.modBob i f).pages = s.pages ∧ (s.modBob i f).badPages = s.badPages ∧
    (s.modBob i f).hanks = s.hanks ∧ (s.modBob i f).nextHank = s.nextHank ∧ (s.modBob i f).twinWins = s.twinWins ∧
    (s.modBob i f).accesses = s.accesses ∧ (s.modBob i f).nextAccess = s.nextAccess ∧
    (s.modBob i f).gauge = s.gauge ∧ (s.modBob i f).skeins = s.skeins ∧ (s.modBob i f).needles = s.needles ∧
    (s.modBob i f).chans = s.chans ∧ (s.modBob i f).twinChains = s.twinChains ∧
    (s.modBob i f).edgeCarders = s.edgeCarders ∧ (s.modBob i f).distaffs = s.distaffs ∧
    (s.modBob i f).l2Events = s.l2Events ∧ (s.modBob i f).cache = s.cache ∧ (s.modBob i f).io = s.io ∧
    (s.modBob i f).pins = s.pins ∧ (s.modBob i f).wakeEvents = s.wakeEvents ∧ (s.modBob i f).flash = s.flash ∧
    (s.modBob i f).jtag = s.jtag ∧ (s.modBob i f).chain = s.chain ∧ (s.modBob i f).tags = s.tags ∧
    (s.modBob i f).inner = s.inner ∧ (s.modBob i f).tally = s.tally ∧ (s.modBob i f).rep = s.rep ∧
    (s.modBob i f).out = s.out ∧ (s.modBob i f).freeCtr = s.freeCtr ∧ (s.modBob i f).pending = s.pending :=
  ⟨rfl, rfl, rfl, rfl, rfl, rfl, rfl, rfl, rfl, rfl, rfl, rfl, rfl, rfl, rfl, rfl, rfl, rfl, rfl, rfl, rfl, rfl, rfl, rfl,
   rfl, rfl, rfl, rfl, rfl, rfl, rfl, rfl, rfl, rfl, rfl, rfl, rfl, rfl, rfl, rfl, rfl, rfl, rfl, rfl, rfl, rfl, rfl, rfl,
   rfl, rfl, rfl, rfl, rfl⟩

@[simp] theorem modPin_pins (s : State) (i : Fin 32) (f : Pin → Pin) :
    (s.modPin i f).pins = upd s.pins i f := rfl
/-- `modPin` leaves every other part of the state. -/
@[simp] theorem modPin_frame (s : State) (i : Fin 32) (f : Pin → Pin) :
    (s.modPin i f).fuses = s.fuses ∧ (s.modPin i f).phys = s.phys ∧ (s.modPin i f).selv = s.selv ∧
    (s.modPin i f).boot = s.boot ∧ (s.modPin i f).map = s.map ∧ (s.modPin i f).ports = s.ports ∧
    (s.modPin i f).stack = s.stack ∧ (s.modPin i f).localMap = s.localMap ∧
    (s.modPin i f).shusPcieUp = s.shusPcieUp ∧ (s.modPin i f).sqs = s.sqs ∧ (s.modPin i f).cqs = s.cqs ∧
    (s.modPin i f).turn = s.turn ∧ (s.modPin i f).turnLeft = s.turnLeft ∧ (s.modPin i f).fns = s.fns ∧
    (s.modPin i f).grants = s.grants ∧ (s.modPin i f).latch = s.latch ∧ (s.modPin i f).fwLog = s.fwLog ∧
    (s.modPin i f).jobs = s.jobs ∧ (s.modPin i f).tick = s.tick ∧ (s.modPin i f).swatches = s.swatches ∧
    (s.modPin i f).saves = s.saves ∧ (s.modPin i f).deviceTime = s.deviceTime ∧ (s.modPin i f).mem = s.mem ∧
    (s.modPin i f).poison = s.poison ∧ (s.modPin i f).pages = s.pages ∧ (s.modPin i f).badPages = s.badPages ∧
    (s.modPin i f).hanks = s.hanks ∧ (s.modPin i f).nextHank = s.nextHank ∧ (s.modPin i f).twinWins = s.twinWins ∧
    (s.modPin i f).accesses = s.accesses ∧ (s.modPin i f).nextAccess = s.nextAccess ∧
    (s.modPin i f).gauge = s.gauge ∧ (s.modPin i f).skeins = s.skeins ∧ (s.modPin i f).needles = s.needles ∧
    (s.modPin i f).chans = s.chans ∧ (s.modPin i f).twinChains = s.twinChains ∧
    (s.modPin i f).edgeCarders = s.edgeCarders ∧ (s.modPin i f).distaffs = s.distaffs ∧
    (s.modPin i f).l2Events = s.l2Events ∧ (s.modPin i f).cache = s.cache ∧ (s.modPin i f).bobbins = s.bobbins ∧
    (s.modPin i f).io = s.io ∧ (s.modPin i f).wakeEvents = s.wakeEvents ∧ (s.modPin i f).flash = s.flash ∧
    (s.modPin i f).jtag = s.jtag ∧ (s.modPin i f).chain = s.chain ∧ (s.modPin i f).tags = s.tags ∧
    (s.modPin i f).inner = s.inner ∧ (s.modPin i f).tally = s.tally ∧ (s.modPin i f).rep = s.rep ∧
    (s.modPin i f).out = s.out ∧ (s.modPin i f).freeCtr = s.freeCtr ∧ (s.modPin i f).pending = s.pending :=
  ⟨rfl, rfl, rfl, rfl, rfl, rfl, rfl, rfl, rfl, rfl, rfl, rfl, rfl, rfl, rfl, rfl, rfl, rfl, rfl, rfl, rfl, rfl, rfl, rfl,
   rfl, rfl, rfl, rfl, rfl, rfl, rfl, rfl, rfl, rfl, rfl, rfl, rfl, rfl, rfl, rfl, rfl, rfl, rfl, rfl, rfl, rfl, rfl, rfl,
   rfl, rfl, rfl, rfl, rfl⟩

@[simp] theorem modEdgeCarder_edgeCarders (s : State) (i : Fin 10) (f : Carder → Carder) :
    (s.modEdgeCarder i f).edgeCarders = upd s.edgeCarders i f := rfl
/-- `modEdgeCarder` leaves every other part of the state. -/
@[simp] theorem modEdgeCarder_frame (s : State) (i : Fin 10) (f : Carder → Carder) :
    (s.modEdgeCarder i f).fuses = s.fuses ∧ (s.modEdgeCarder i f).phys = s.phys ∧
    (s.modEdgeCarder i f).selv = s.selv ∧ (s.modEdgeCarder i f).boot = s.boot ∧ (s.modEdgeCarder i f).map = s.map ∧
    (s.modEdgeCarder i f).ports = s.ports ∧ (s.modEdgeCarder i f).stack = s.stack ∧
    (s.modEdgeCarder i f).localMap = s.localMap ∧ (s.modEdgeCarder i f).shusPcieUp = s.shusPcieUp ∧
    (s.modEdgeCarder i f).sqs = s.sqs ∧ (s.modEdgeCarder i f).cqs = s.cqs ∧ (s.modEdgeCarder i f).turn = s.turn ∧
    (s.modEdgeCarder i f).turnLeft = s.turnLeft ∧ (s.modEdgeCarder i f).fns = s.fns ∧
    (s.modEdgeCarder i f).grants = s.grants ∧ (s.modEdgeCarder i f).latch = s.latch ∧
    (s.modEdgeCarder i f).fwLog = s.fwLog ∧ (s.modEdgeCarder i f).jobs = s.jobs ∧
    (s.modEdgeCarder i f).tick = s.tick ∧ (s.modEdgeCarder i f).swatches = s.swatches ∧
    (s.modEdgeCarder i f).saves = s.saves ∧ (s.modEdgeCarder i f).deviceTime = s.deviceTime ∧
    (s.modEdgeCarder i f).mem = s.mem ∧ (s.modEdgeCarder i f).poison = s.poison ∧
    (s.modEdgeCarder i f).pages = s.pages ∧ (s.modEdgeCarder i f).badPages = s.badPages ∧
    (s.modEdgeCarder i f).hanks = s.hanks ∧ (s.modEdgeCarder i f).nextHank = s.nextHank ∧
    (s.modEdgeCarder i f).twinWins = s.twinWins ∧ (s.modEdgeCarder i f).accesses = s.accesses ∧
    (s.modEdgeCarder i f).nextAccess = s.nextAccess ∧ (s.modEdgeCarder i f).gauge = s.gauge ∧
    (s.modEdgeCarder i f).skeins = s.skeins ∧ (s.modEdgeCarder i f).needles = s.needles ∧
    (s.modEdgeCarder i f).chans = s.chans ∧ (s.modEdgeCarder i f).twinChains = s.twinChains ∧
    (s.modEdgeCarder i f).distaffs = s.distaffs ∧ (s.modEdgeCarder i f).l2Events = s.l2Events ∧
    (s.modEdgeCarder i f).cache = s.cache ∧ (s.modEdgeCarder i f).bobbins = s.bobbins ∧
    (s.modEdgeCarder i f).io = s.io ∧ (s.modEdgeCarder i f).pins = s.pins ∧
    (s.modEdgeCarder i f).wakeEvents = s.wakeEvents ∧ (s.modEdgeCarder i f).flash = s.flash ∧
    (s.modEdgeCarder i f).jtag = s.jtag ∧ (s.modEdgeCarder i f).chain = s.chain ∧
    (s.modEdgeCarder i f).tags = s.tags ∧ (s.modEdgeCarder i f).inner = s.inner ∧
    (s.modEdgeCarder i f).tally = s.tally ∧ (s.modEdgeCarder i f).rep = s.rep ∧ (s.modEdgeCarder i f).out = s.out ∧
    (s.modEdgeCarder i f).freeCtr = s.freeCtr ∧ (s.modEdgeCarder i f).pending = s.pending :=
  ⟨rfl, rfl, rfl, rfl, rfl, rfl, rfl, rfl, rfl, rfl, rfl, rfl, rfl, rfl, rfl, rfl, rfl, rfl, rfl, rfl, rfl, rfl, rfl, rfl,
   rfl, rfl, rfl, rfl, rfl, rfl, rfl, rfl, rfl, rfl, rfl, rfl, rfl, rfl, rfl, rfl, rfl, rfl, rfl, rfl, rfl, rfl, rfl, rfl,
   rfl, rfl, rfl, rfl, rfl⟩

@[simp] theorem modSelv_selv (s : State) (f : Selv → Selv) :
    (s.modSelv f).selv = f s.selv := rfl
/-- `modSelv` leaves every other part of the state. -/
@[simp] theorem modSelv_frame (s : State) (f : Selv → Selv) :
    (s.modSelv f).fuses = s.fuses ∧ (s.modSelv f).phys = s.phys ∧ (s.modSelv f).boot = s.boot ∧
    (s.modSelv f).map = s.map ∧ (s.modSelv f).ports = s.ports ∧ (s.modSelv f).stack = s.stack ∧
    (s.modSelv f).localMap = s.localMap ∧ (s.modSelv f).shusPcieUp = s.shusPcieUp ∧ (s.modSelv f).sqs = s.sqs ∧
    (s.modSelv f).cqs = s.cqs ∧ (s.modSelv f).turn = s.turn ∧ (s.modSelv f).turnLeft = s.turnLeft ∧
    (s.modSelv f).fns = s.fns ∧ (s.modSelv f).grants = s.grants ∧ (s.modSelv f).latch = s.latch ∧
    (s.modSelv f).fwLog = s.fwLog ∧ (s.modSelv f).jobs = s.jobs ∧ (s.modSelv f).tick = s.tick ∧
    (s.modSelv f).swatches = s.swatches ∧ (s.modSelv f).saves = s.saves ∧ (s.modSelv f).deviceTime = s.deviceTime ∧
    (s.modSelv f).mem = s.mem ∧ (s.modSelv f).poison = s.poison ∧ (s.modSelv f).pages = s.pages ∧
    (s.modSelv f).badPages = s.badPages ∧ (s.modSelv f).hanks = s.hanks ∧ (s.modSelv f).nextHank = s.nextHank ∧
    (s.modSelv f).twinWins = s.twinWins ∧ (s.modSelv f).accesses = s.accesses ∧
    (s.modSelv f).nextAccess = s.nextAccess ∧ (s.modSelv f).gauge = s.gauge ∧ (s.modSelv f).skeins = s.skeins ∧
    (s.modSelv f).needles = s.needles ∧ (s.modSelv f).chans = s.chans ∧ (s.modSelv f).twinChains = s.twinChains ∧
    (s.modSelv f).edgeCarders = s.edgeCarders ∧ (s.modSelv f).distaffs = s.distaffs ∧
    (s.modSelv f).l2Events = s.l2Events ∧ (s.modSelv f).cache = s.cache ∧ (s.modSelv f).bobbins = s.bobbins ∧
    (s.modSelv f).io = s.io ∧ (s.modSelv f).pins = s.pins ∧ (s.modSelv f).wakeEvents = s.wakeEvents ∧
    (s.modSelv f).flash = s.flash ∧ (s.modSelv f).jtag = s.jtag ∧ (s.modSelv f).chain = s.chain ∧
    (s.modSelv f).tags = s.tags ∧ (s.modSelv f).inner = s.inner ∧ (s.modSelv f).tally = s.tally ∧
    (s.modSelv f).rep = s.rep ∧ (s.modSelv f).out = s.out ∧ (s.modSelv f).freeCtr = s.freeCtr ∧
    (s.modSelv f).pending = s.pending :=
  ⟨rfl, rfl, rfl, rfl, rfl, rfl, rfl, rfl, rfl, rfl, rfl, rfl, rfl, rfl, rfl, rfl, rfl, rfl, rfl, rfl, rfl, rfl, rfl, rfl,
   rfl, rfl, rfl, rfl, rfl, rfl, rfl, rfl, rfl, rfl, rfl, rfl, rfl, rfl, rfl, rfl, rfl, rfl, rfl, rfl, rfl, rfl, rfl, rfl,
   rfl, rfl, rfl, rfl, rfl⟩

@[simp] theorem modBoot_boot (s : State) (f : Boot → Boot) :
    (s.modBoot f).boot = f s.boot := rfl
/-- `modBoot` leaves every other part of the state. -/
@[simp] theorem modBoot_frame (s : State) (f : Boot → Boot) :
    (s.modBoot f).fuses = s.fuses ∧ (s.modBoot f).phys = s.phys ∧ (s.modBoot f).selv = s.selv ∧
    (s.modBoot f).map = s.map ∧ (s.modBoot f).ports = s.ports ∧ (s.modBoot f).stack = s.stack ∧
    (s.modBoot f).localMap = s.localMap ∧ (s.modBoot f).shusPcieUp = s.shusPcieUp ∧ (s.modBoot f).sqs = s.sqs ∧
    (s.modBoot f).cqs = s.cqs ∧ (s.modBoot f).turn = s.turn ∧ (s.modBoot f).turnLeft = s.turnLeft ∧
    (s.modBoot f).fns = s.fns ∧ (s.modBoot f).grants = s.grants ∧ (s.modBoot f).latch = s.latch ∧
    (s.modBoot f).fwLog = s.fwLog ∧ (s.modBoot f).jobs = s.jobs ∧ (s.modBoot f).tick = s.tick ∧
    (s.modBoot f).swatches = s.swatches ∧ (s.modBoot f).saves = s.saves ∧ (s.modBoot f).deviceTime = s.deviceTime ∧
    (s.modBoot f).mem = s.mem ∧ (s.modBoot f).poison = s.poison ∧ (s.modBoot f).pages = s.pages ∧
    (s.modBoot f).badPages = s.badPages ∧ (s.modBoot f).hanks = s.hanks ∧ (s.modBoot f).nextHank = s.nextHank ∧
    (s.modBoot f).twinWins = s.twinWins ∧ (s.modBoot f).accesses = s.accesses ∧
    (s.modBoot f).nextAccess = s.nextAccess ∧ (s.modBoot f).gauge = s.gauge ∧ (s.modBoot f).skeins = s.skeins ∧
    (s.modBoot f).needles = s.needles ∧ (s.modBoot f).chans = s.chans ∧ (s.modBoot f).twinChains = s.twinChains ∧
    (s.modBoot f).edgeCarders = s.edgeCarders ∧ (s.modBoot f).distaffs = s.distaffs ∧
    (s.modBoot f).l2Events = s.l2Events ∧ (s.modBoot f).cache = s.cache ∧ (s.modBoot f).bobbins = s.bobbins ∧
    (s.modBoot f).io = s.io ∧ (s.modBoot f).pins = s.pins ∧ (s.modBoot f).wakeEvents = s.wakeEvents ∧
    (s.modBoot f).flash = s.flash ∧ (s.modBoot f).jtag = s.jtag ∧ (s.modBoot f).chain = s.chain ∧
    (s.modBoot f).tags = s.tags ∧ (s.modBoot f).inner = s.inner ∧ (s.modBoot f).tally = s.tally ∧
    (s.modBoot f).rep = s.rep ∧ (s.modBoot f).out = s.out ∧ (s.modBoot f).freeCtr = s.freeCtr ∧
    (s.modBoot f).pending = s.pending :=
  ⟨rfl, rfl, rfl, rfl, rfl, rfl, rfl, rfl, rfl, rfl, rfl, rfl, rfl, rfl, rfl, rfl, rfl, rfl, rfl, rfl, rfl, rfl, rfl, rfl,
   rfl, rfl, rfl, rfl, rfl, rfl, rfl, rfl, rfl, rfl, rfl, rfl, rfl, rfl, rfl, rfl, rfl, rfl, rfl, rfl, rfl, rfl, rfl, rfl,
   rfl, rfl, rfl, rfl, rfl⟩

@[simp] theorem modTick_tick (s : State) (f : Tick → Tick) :
    (s.modTick f).tick = f s.tick := rfl
/-- `modTick` leaves every other part of the state. -/
@[simp] theorem modTick_frame (s : State) (f : Tick → Tick) :
    (s.modTick f).fuses = s.fuses ∧ (s.modTick f).phys = s.phys ∧ (s.modTick f).selv = s.selv ∧
    (s.modTick f).boot = s.boot ∧ (s.modTick f).map = s.map ∧ (s.modTick f).ports = s.ports ∧
    (s.modTick f).stack = s.stack ∧ (s.modTick f).localMap = s.localMap ∧ (s.modTick f).shusPcieUp = s.shusPcieUp ∧
    (s.modTick f).sqs = s.sqs ∧ (s.modTick f).cqs = s.cqs ∧ (s.modTick f).turn = s.turn ∧
    (s.modTick f).turnLeft = s.turnLeft ∧ (s.modTick f).fns = s.fns ∧ (s.modTick f).grants = s.grants ∧
    (s.modTick f).latch = s.latch ∧ (s.modTick f).fwLog = s.fwLog ∧ (s.modTick f).jobs = s.jobs ∧
    (s.modTick f).swatches = s.swatches ∧ (s.modTick f).saves = s.saves ∧ (s.modTick f).deviceTime = s.deviceTime ∧
    (s.modTick f).mem = s.mem ∧ (s.modTick f).poison = s.poison ∧ (s.modTick f).pages = s.pages ∧
    (s.modTick f).badPages = s.badPages ∧ (s.modTick f).hanks = s.hanks ∧ (s.modTick f).nextHank = s.nextHank ∧
    (s.modTick f).twinWins = s.twinWins ∧ (s.modTick f).accesses = s.accesses ∧
    (s.modTick f).nextAccess = s.nextAccess ∧ (s.modTick f).gauge = s.gauge ∧ (s.modTick f).skeins = s.skeins ∧
    (s.modTick f).needles = s.needles ∧ (s.modTick f).chans = s.chans ∧ (s.modTick f).twinChains = s.twinChains ∧
    (s.modTick f).edgeCarders = s.edgeCarders ∧ (s.modTick f).distaffs = s.distaffs ∧
    (s.modTick f).l2Events = s.l2Events ∧ (s.modTick f).cache = s.cache ∧ (s.modTick f).bobbins = s.bobbins ∧
    (s.modTick f).io = s.io ∧ (s.modTick f).pins = s.pins ∧ (s.modTick f).wakeEvents = s.wakeEvents ∧
    (s.modTick f).flash = s.flash ∧ (s.modTick f).jtag = s.jtag ∧ (s.modTick f).chain = s.chain ∧
    (s.modTick f).tags = s.tags ∧ (s.modTick f).inner = s.inner ∧ (s.modTick f).tally = s.tally ∧
    (s.modTick f).rep = s.rep ∧ (s.modTick f).out = s.out ∧ (s.modTick f).freeCtr = s.freeCtr ∧
    (s.modTick f).pending = s.pending :=
  ⟨rfl, rfl, rfl, rfl, rfl, rfl, rfl, rfl, rfl, rfl, rfl, rfl, rfl, rfl, rfl, rfl, rfl, rfl, rfl, rfl, rfl, rfl, rfl, rfl,
   rfl, rfl, rfl, rfl, rfl, rfl, rfl, rfl, rfl, rfl, rfl, rfl, rfl, rfl, rfl, rfl, rfl, rfl, rfl, rfl, rfl, rfl, rfl, rfl,
   rfl, rfl, rfl, rfl, rfl⟩

@[simp] theorem modChain_chain (s : State) (f : Chain → Chain) :
    (s.modChain f).chain = f s.chain := rfl
/-- `modChain` leaves every other part of the state. -/
@[simp] theorem modChain_frame (s : State) (f : Chain → Chain) :
    (s.modChain f).fuses = s.fuses ∧ (s.modChain f).phys = s.phys ∧ (s.modChain f).selv = s.selv ∧
    (s.modChain f).boot = s.boot ∧ (s.modChain f).map = s.map ∧ (s.modChain f).ports = s.ports ∧
    (s.modChain f).stack = s.stack ∧ (s.modChain f).localMap = s.localMap ∧
    (s.modChain f).shusPcieUp = s.shusPcieUp ∧ (s.modChain f).sqs = s.sqs ∧ (s.modChain f).cqs = s.cqs ∧
    (s.modChain f).turn = s.turn ∧ (s.modChain f).turnLeft = s.turnLeft ∧ (s.modChain f).fns = s.fns ∧
    (s.modChain f).grants = s.grants ∧ (s.modChain f).latch = s.latch ∧ (s.modChain f).fwLog = s.fwLog ∧
    (s.modChain f).jobs = s.jobs ∧ (s.modChain f).tick = s.tick ∧ (s.modChain f).swatches = s.swatches ∧
    (s.modChain f).saves = s.saves ∧ (s.modChain f).deviceTime = s.deviceTime ∧ (s.modChain f).mem = s.mem ∧
    (s.modChain f).poison = s.poison ∧ (s.modChain f).pages = s.pages ∧ (s.modChain f).badPages = s.badPages ∧
    (s.modChain f).hanks = s.hanks ∧ (s.modChain f).nextHank = s.nextHank ∧ (s.modChain f).twinWins = s.twinWins ∧
    (s.modChain f).accesses = s.accesses ∧ (s.modChain f).nextAccess = s.nextAccess ∧
    (s.modChain f).gauge = s.gauge ∧ (s.modChain f).skeins = s.skeins ∧ (s.modChain f).needles = s.needles ∧
    (s.modChain f).chans = s.chans ∧ (s.modChain f).twinChains = s.twinChains ∧
    (s.modChain f).edgeCarders = s.edgeCarders ∧ (s.modChain f).distaffs = s.distaffs ∧
    (s.modChain f).l2Events = s.l2Events ∧ (s.modChain f).cache = s.cache ∧ (s.modChain f).bobbins = s.bobbins ∧
    (s.modChain f).io = s.io ∧ (s.modChain f).pins = s.pins ∧ (s.modChain f).wakeEvents = s.wakeEvents ∧
    (s.modChain f).flash = s.flash ∧ (s.modChain f).jtag = s.jtag ∧ (s.modChain f).tags = s.tags ∧
    (s.modChain f).inner = s.inner ∧ (s.modChain f).tally = s.tally ∧ (s.modChain f).rep = s.rep ∧
    (s.modChain f).out = s.out ∧ (s.modChain f).freeCtr = s.freeCtr ∧ (s.modChain f).pending = s.pending :=
  ⟨rfl, rfl, rfl, rfl, rfl, rfl, rfl, rfl, rfl, rfl, rfl, rfl, rfl, rfl, rfl, rfl, rfl, rfl, rfl, rfl, rfl, rfl, rfl, rfl,
   rfl, rfl, rfl, rfl, rfl, rfl, rfl, rfl, rfl, rfl, rfl, rfl, rfl, rfl, rfl, rfl, rfl, rfl, rfl, rfl, rfl, rfl, rfl, rfl,
   rfl, rfl, rfl, rfl, rfl⟩

@[simp] theorem modInner_inner (s : State) (f : Inner → Inner) :
    (s.modInner f).inner = f s.inner := rfl
/-- `modInner` leaves every other part of the state. -/
@[simp] theorem modInner_frame (s : State) (f : Inner → Inner) :
    (s.modInner f).fuses = s.fuses ∧ (s.modInner f).phys = s.phys ∧ (s.modInner f).selv = s.selv ∧
    (s.modInner f).boot = s.boot ∧ (s.modInner f).map = s.map ∧ (s.modInner f).ports = s.ports ∧
    (s.modInner f).stack = s.stack ∧ (s.modInner f).localMap = s.localMap ∧
    (s.modInner f).shusPcieUp = s.shusPcieUp ∧ (s.modInner f).sqs = s.sqs ∧ (s.modInner f).cqs = s.cqs ∧
    (s.modInner f).turn = s.turn ∧ (s.modInner f).turnLeft = s.turnLeft ∧ (s.modInner f).fns = s.fns ∧
    (s.modInner f).grants = s.grants ∧ (s.modInner f).latch = s.latch ∧ (s.modInner f).fwLog = s.fwLog ∧
    (s.modInner f).jobs = s.jobs ∧ (s.modInner f).tick = s.tick ∧ (s.modInner f).swatches = s.swatches ∧
    (s.modInner f).saves = s.saves ∧ (s.modInner f).deviceTime = s.deviceTime ∧ (s.modInner f).mem = s.mem ∧
    (s.modInner f).poison = s.poison ∧ (s.modInner f).pages = s.pages ∧ (s.modInner f).badPages = s.badPages ∧
    (s.modInner f).hanks = s.hanks ∧ (s.modInner f).nextHank = s.nextHank ∧ (s.modInner f).twinWins = s.twinWins ∧
    (s.modInner f).accesses = s.accesses ∧ (s.modInner f).nextAccess = s.nextAccess ∧
    (s.modInner f).gauge = s.gauge ∧ (s.modInner f).skeins = s.skeins ∧ (s.modInner f).needles = s.needles ∧
    (s.modInner f).chans = s.chans ∧ (s.modInner f).twinChains = s.twinChains ∧
    (s.modInner f).edgeCarders = s.edgeCarders ∧ (s.modInner f).distaffs = s.distaffs ∧
    (s.modInner f).l2Events = s.l2Events ∧ (s.modInner f).cache = s.cache ∧ (s.modInner f).bobbins = s.bobbins ∧
    (s.modInner f).io = s.io ∧ (s.modInner f).pins = s.pins ∧ (s.modInner f).wakeEvents = s.wakeEvents ∧
    (s.modInner f).flash = s.flash ∧ (s.modInner f).jtag = s.jtag ∧ (s.modInner f).chain = s.chain ∧
    (s.modInner f).tags = s.tags ∧ (s.modInner f).tally = s.tally ∧ (s.modInner f).rep = s.rep ∧
    (s.modInner f).out = s.out ∧ (s.modInner f).freeCtr = s.freeCtr ∧ (s.modInner f).pending = s.pending :=
  ⟨rfl, rfl, rfl, rfl, rfl, rfl, rfl, rfl, rfl, rfl, rfl, rfl, rfl, rfl, rfl, rfl, rfl, rfl, rfl, rfl, rfl, rfl, rfl, rfl,
   rfl, rfl, rfl, rfl, rfl, rfl, rfl, rfl, rfl, rfl, rfl, rfl, rfl, rfl, rfl, rfl, rfl, rfl, rfl, rfl, rfl, rfl, rfl, rfl,
   rfl, rfl, rfl, rfl, rfl⟩

@[simp] theorem modTally_tally (s : State) (f : Tally → Tally) :
    (s.modTally f).tally = f s.tally := rfl
/-- `modTally` leaves every other part of the state. -/
@[simp] theorem modTally_frame (s : State) (f : Tally → Tally) :
    (s.modTally f).fuses = s.fuses ∧ (s.modTally f).phys = s.phys ∧ (s.modTally f).selv = s.selv ∧
    (s.modTally f).boot = s.boot ∧ (s.modTally f).map = s.map ∧ (s.modTally f).ports = s.ports ∧
    (s.modTally f).stack = s.stack ∧ (s.modTally f).localMap = s.localMap ∧
    (s.modTally f).shusPcieUp = s.shusPcieUp ∧ (s.modTally f).sqs = s.sqs ∧ (s.modTally f).cqs = s.cqs ∧
    (s.modTally f).turn = s.turn ∧ (s.modTally f).turnLeft = s.turnLeft ∧ (s.modTally f).fns = s.fns ∧
    (s.modTally f).grants = s.grants ∧ (s.modTally f).latch = s.latch ∧ (s.modTally f).fwLog = s.fwLog ∧
    (s.modTally f).jobs = s.jobs ∧ (s.modTally f).tick = s.tick ∧ (s.modTally f).swatches = s.swatches ∧
    (s.modTally f).saves = s.saves ∧ (s.modTally f).deviceTime = s.deviceTime ∧ (s.modTally f).mem = s.mem ∧
    (s.modTally f).poison = s.poison ∧ (s.modTally f).pages = s.pages ∧ (s.modTally f).badPages = s.badPages ∧
    (s.modTally f).hanks = s.hanks ∧ (s.modTally f).nextHank = s.nextHank ∧ (s.modTally f).twinWins = s.twinWins ∧
    (s.modTally f).accesses = s.accesses ∧ (s.modTally f).nextAccess = s.nextAccess ∧
    (s.modTally f).gauge = s.gauge ∧ (s.modTally f).skeins = s.skeins ∧ (s.modTally f).needles = s.needles ∧
    (s.modTally f).chans = s.chans ∧ (s.modTally f).twinChains = s.twinChains ∧
    (s.modTally f).edgeCarders = s.edgeCarders ∧ (s.modTally f).distaffs = s.distaffs ∧
    (s.modTally f).l2Events = s.l2Events ∧ (s.modTally f).cache = s.cache ∧ (s.modTally f).bobbins = s.bobbins ∧
    (s.modTally f).io = s.io ∧ (s.modTally f).pins = s.pins ∧ (s.modTally f).wakeEvents = s.wakeEvents ∧
    (s.modTally f).flash = s.flash ∧ (s.modTally f).jtag = s.jtag ∧ (s.modTally f).chain = s.chain ∧
    (s.modTally f).tags = s.tags ∧ (s.modTally f).inner = s.inner ∧ (s.modTally f).rep = s.rep ∧
    (s.modTally f).out = s.out ∧ (s.modTally f).freeCtr = s.freeCtr ∧ (s.modTally f).pending = s.pending :=
  ⟨rfl, rfl, rfl, rfl, rfl, rfl, rfl, rfl, rfl, rfl, rfl, rfl, rfl, rfl, rfl, rfl, rfl, rfl, rfl, rfl, rfl, rfl, rfl, rfl,
   rfl, rfl, rfl, rfl, rfl, rfl, rfl, rfl, rfl, rfl, rfl, rfl, rfl, rfl, rfl, rfl, rfl, rfl, rfl, rfl, rfl, rfl, rfl, rfl,
   rfl, rfl, rfl, rfl, rfl⟩

@[simp] theorem modRep_rep (s : State) (f : Rep → Rep) :
    (s.modRep f).rep = f s.rep := rfl
/-- `modRep` leaves every other part of the state. -/
@[simp] theorem modRep_frame (s : State) (f : Rep → Rep) :
    (s.modRep f).fuses = s.fuses ∧ (s.modRep f).phys = s.phys ∧ (s.modRep f).selv = s.selv ∧
    (s.modRep f).boot = s.boot ∧ (s.modRep f).map = s.map ∧ (s.modRep f).ports = s.ports ∧
    (s.modRep f).stack = s.stack ∧ (s.modRep f).localMap = s.localMap ∧ (s.modRep f).shusPcieUp = s.shusPcieUp ∧
    (s.modRep f).sqs = s.sqs ∧ (s.modRep f).cqs = s.cqs ∧ (s.modRep f).turn = s.turn ∧
    (s.modRep f).turnLeft = s.turnLeft ∧ (s.modRep f).fns = s.fns ∧ (s.modRep f).grants = s.grants ∧
    (s.modRep f).latch = s.latch ∧ (s.modRep f).fwLog = s.fwLog ∧ (s.modRep f).jobs = s.jobs ∧
    (s.modRep f).tick = s.tick ∧ (s.modRep f).swatches = s.swatches ∧ (s.modRep f).saves = s.saves ∧
    (s.modRep f).deviceTime = s.deviceTime ∧ (s.modRep f).mem = s.mem ∧ (s.modRep f).poison = s.poison ∧
    (s.modRep f).pages = s.pages ∧ (s.modRep f).badPages = s.badPages ∧ (s.modRep f).hanks = s.hanks ∧
    (s.modRep f).nextHank = s.nextHank ∧ (s.modRep f).twinWins = s.twinWins ∧ (s.modRep f).accesses = s.accesses ∧
    (s.modRep f).nextAccess = s.nextAccess ∧ (s.modRep f).gauge = s.gauge ∧ (s.modRep f).skeins = s.skeins ∧
    (s.modRep f).needles = s.needles ∧ (s.modRep f).chans = s.chans ∧ (s.modRep f).twinChains = s.twinChains ∧
    (s.modRep f).edgeCarders = s.edgeCarders ∧ (s.modRep f).distaffs = s.distaffs ∧
    (s.modRep f).l2Events = s.l2Events ∧ (s.modRep f).cache = s.cache ∧ (s.modRep f).bobbins = s.bobbins ∧
    (s.modRep f).io = s.io ∧ (s.modRep f).pins = s.pins ∧ (s.modRep f).wakeEvents = s.wakeEvents ∧
    (s.modRep f).flash = s.flash ∧ (s.modRep f).jtag = s.jtag ∧ (s.modRep f).chain = s.chain ∧
    (s.modRep f).tags = s.tags ∧ (s.modRep f).inner = s.inner ∧ (s.modRep f).tally = s.tally ∧
    (s.modRep f).out = s.out ∧ (s.modRep f).freeCtr = s.freeCtr ∧ (s.modRep f).pending = s.pending :=
  ⟨rfl, rfl, rfl, rfl, rfl, rfl, rfl, rfl, rfl, rfl, rfl, rfl, rfl, rfl, rfl, rfl, rfl, rfl, rfl, rfl, rfl, rfl, rfl, rfl,
   rfl, rfl, rfl, rfl, rfl, rfl, rfl, rfl, rfl, rfl, rfl, rfl, rfl, rfl, rfl, rfl, rfl, rfl, rfl, rfl, rfl, rfl, rfl, rfl,
   rfl, rfl, rfl, rfl, rfl⟩

@[simp] theorem modIo_io (s : State) (f : IoPorts → IoPorts) :
    (s.modIo f).io = f s.io := rfl
/-- `modIo` leaves every other part of the state. -/
@[simp] theorem modIo_frame (s : State) (f : IoPorts → IoPorts) :
    (s.modIo f).fuses = s.fuses ∧ (s.modIo f).phys = s.phys ∧ (s.modIo f).selv = s.selv ∧ (s.modIo f).boot = s.boot ∧
    (s.modIo f).map = s.map ∧ (s.modIo f).ports = s.ports ∧ (s.modIo f).stack = s.stack ∧
    (s.modIo f).localMap = s.localMap ∧ (s.modIo f).shusPcieUp = s.shusPcieUp ∧ (s.modIo f).sqs = s.sqs ∧
    (s.modIo f).cqs = s.cqs ∧ (s.modIo f).turn = s.turn ∧ (s.modIo f).turnLeft = s.turnLeft ∧
    (s.modIo f).fns = s.fns ∧ (s.modIo f).grants = s.grants ∧ (s.modIo f).latch = s.latch ∧
    (s.modIo f).fwLog = s.fwLog ∧ (s.modIo f).jobs = s.jobs ∧ (s.modIo f).tick = s.tick ∧
    (s.modIo f).swatches = s.swatches ∧ (s.modIo f).saves = s.saves ∧ (s.modIo f).deviceTime = s.deviceTime ∧
    (s.modIo f).mem = s.mem ∧ (s.modIo f).poison = s.poison ∧ (s.modIo f).pages = s.pages ∧
    (s.modIo f).badPages = s.badPages ∧ (s.modIo f).hanks = s.hanks ∧ (s.modIo f).nextHank = s.nextHank ∧
    (s.modIo f).twinWins = s.twinWins ∧ (s.modIo f).accesses = s.accesses ∧ (s.modIo f).nextAccess = s.nextAccess ∧
    (s.modIo f).gauge = s.gauge ∧ (s.modIo f).skeins = s.skeins ∧ (s.modIo f).needles = s.needles ∧
    (s.modIo f).chans = s.chans ∧ (s.modIo f).twinChains = s.twinChains ∧ (s.modIo f).edgeCarders = s.edgeCarders ∧
    (s.modIo f).distaffs = s.distaffs ∧ (s.modIo f).l2Events = s.l2Events ∧ (s.modIo f).cache = s.cache ∧
    (s.modIo f).bobbins = s.bobbins ∧ (s.modIo f).pins = s.pins ∧ (s.modIo f).wakeEvents = s.wakeEvents ∧
    (s.modIo f).flash = s.flash ∧ (s.modIo f).jtag = s.jtag ∧ (s.modIo f).chain = s.chain ∧
    (s.modIo f).tags = s.tags ∧ (s.modIo f).inner = s.inner ∧ (s.modIo f).tally = s.tally ∧ (s.modIo f).rep = s.rep ∧
    (s.modIo f).out = s.out ∧ (s.modIo f).freeCtr = s.freeCtr ∧ (s.modIo f).pending = s.pending :=
  ⟨rfl, rfl, rfl, rfl, rfl, rfl, rfl, rfl, rfl, rfl, rfl, rfl, rfl, rfl, rfl, rfl, rfl, rfl, rfl, rfl, rfl, rfl, rfl, rfl,
   rfl, rfl, rfl, rfl, rfl, rfl, rfl, rfl, rfl, rfl, rfl, rfl, rfl, rfl, rfl, rfl, rfl, rfl, rfl, rfl, rfl, rfl, rfl, rfl,
   rfl, rfl, rfl, rfl, rfl⟩

@[simp] theorem modJtag_jtag (s : State) (f : Jtag → Jtag) :
    (s.modJtag f).jtag = f s.jtag := rfl
/-- `modJtag` leaves every other part of the state. -/
@[simp] theorem modJtag_frame (s : State) (f : Jtag → Jtag) :
    (s.modJtag f).fuses = s.fuses ∧ (s.modJtag f).phys = s.phys ∧ (s.modJtag f).selv = s.selv ∧
    (s.modJtag f).boot = s.boot ∧ (s.modJtag f).map = s.map ∧ (s.modJtag f).ports = s.ports ∧
    (s.modJtag f).stack = s.stack ∧ (s.modJtag f).localMap = s.localMap ∧ (s.modJtag f).shusPcieUp = s.shusPcieUp ∧
    (s.modJtag f).sqs = s.sqs ∧ (s.modJtag f).cqs = s.cqs ∧ (s.modJtag f).turn = s.turn ∧
    (s.modJtag f).turnLeft = s.turnLeft ∧ (s.modJtag f).fns = s.fns ∧ (s.modJtag f).grants = s.grants ∧
    (s.modJtag f).latch = s.latch ∧ (s.modJtag f).fwLog = s.fwLog ∧ (s.modJtag f).jobs = s.jobs ∧
    (s.modJtag f).tick = s.tick ∧ (s.modJtag f).swatches = s.swatches ∧ (s.modJtag f).saves = s.saves ∧
    (s.modJtag f).deviceTime = s.deviceTime ∧ (s.modJtag f).mem = s.mem ∧ (s.modJtag f).poison = s.poison ∧
    (s.modJtag f).pages = s.pages ∧ (s.modJtag f).badPages = s.badPages ∧ (s.modJtag f).hanks = s.hanks ∧
    (s.modJtag f).nextHank = s.nextHank ∧ (s.modJtag f).twinWins = s.twinWins ∧ (s.modJtag f).accesses = s.accesses ∧
    (s.modJtag f).nextAccess = s.nextAccess ∧ (s.modJtag f).gauge = s.gauge ∧ (s.modJtag f).skeins = s.skeins ∧
    (s.modJtag f).needles = s.needles ∧ (s.modJtag f).chans = s.chans ∧ (s.modJtag f).twinChains = s.twinChains ∧
    (s.modJtag f).edgeCarders = s.edgeCarders ∧ (s.modJtag f).distaffs = s.distaffs ∧
    (s.modJtag f).l2Events = s.l2Events ∧ (s.modJtag f).cache = s.cache ∧ (s.modJtag f).bobbins = s.bobbins ∧
    (s.modJtag f).io = s.io ∧ (s.modJtag f).pins = s.pins ∧ (s.modJtag f).wakeEvents = s.wakeEvents ∧
    (s.modJtag f).flash = s.flash ∧ (s.modJtag f).chain = s.chain ∧ (s.modJtag f).tags = s.tags ∧
    (s.modJtag f).inner = s.inner ∧ (s.modJtag f).tally = s.tally ∧ (s.modJtag f).rep = s.rep ∧
    (s.modJtag f).out = s.out ∧ (s.modJtag f).freeCtr = s.freeCtr ∧ (s.modJtag f).pending = s.pending :=
  ⟨rfl, rfl, rfl, rfl, rfl, rfl, rfl, rfl, rfl, rfl, rfl, rfl, rfl, rfl, rfl, rfl, rfl, rfl, rfl, rfl, rfl, rfl, rfl, rfl,
   rfl, rfl, rfl, rfl, rfl, rfl, rfl, rfl, rfl, rfl, rfl, rfl, rfl, rfl, rfl, rfl, rfl, rfl, rfl, rfl, rfl, rfl, rfl, rfl,
   rfl, rfl, rfl, rfl, rfl⟩

@[simp] theorem emit_out (s : State) (o : Out) :
    (s.emit o).out = s.out ++ [o] := rfl
/-- `emit` leaves every other part of the state. -/
@[simp] theorem emit_frame (s : State) (o : Out) :
    (s.emit o).fuses = s.fuses ∧ (s.emit o).phys = s.phys ∧ (s.emit o).selv = s.selv ∧ (s.emit o).boot = s.boot ∧
    (s.emit o).map = s.map ∧ (s.emit o).ports = s.ports ∧ (s.emit o).stack = s.stack ∧
    (s.emit o).localMap = s.localMap ∧ (s.emit o).shusPcieUp = s.shusPcieUp ∧ (s.emit o).sqs = s.sqs ∧
    (s.emit o).cqs = s.cqs ∧ (s.emit o).turn = s.turn ∧ (s.emit o).turnLeft = s.turnLeft ∧ (s.emit o).fns = s.fns ∧
    (s.emit o).grants = s.grants ∧ (s.emit o).latch = s.latch ∧ (s.emit o).fwLog = s.fwLog ∧
    (s.emit o).jobs = s.jobs ∧ (s.emit o).tick = s.tick ∧ (s.emit o).swatches = s.swatches ∧
    (s.emit o).saves = s.saves ∧ (s.emit o).deviceTime = s.deviceTime ∧ (s.emit o).mem = s.mem ∧
    (s.emit o).poison = s.poison ∧ (s.emit o).pages = s.pages ∧ (s.emit o).badPages = s.badPages ∧
    (s.emit o).hanks = s.hanks ∧ (s.emit o).nextHank = s.nextHank ∧ (s.emit o).twinWins = s.twinWins ∧
    (s.emit o).accesses = s.accesses ∧ (s.emit o).nextAccess = s.nextAccess ∧ (s.emit o).gauge = s.gauge ∧
    (s.emit o).skeins = s.skeins ∧ (s.emit o).needles = s.needles ∧ (s.emit o).chans = s.chans ∧
    (s.emit o).twinChains = s.twinChains ∧ (s.emit o).edgeCarders = s.edgeCarders ∧
    (s.emit o).distaffs = s.distaffs ∧ (s.emit o).l2Events = s.l2Events ∧ (s.emit o).cache = s.cache ∧
    (s.emit o).bobbins = s.bobbins ∧ (s.emit o).io = s.io ∧ (s.emit o).pins = s.pins ∧
    (s.emit o).wakeEvents = s.wakeEvents ∧ (s.emit o).flash = s.flash ∧ (s.emit o).jtag = s.jtag ∧
    (s.emit o).chain = s.chain ∧ (s.emit o).tags = s.tags ∧ (s.emit o).inner = s.inner ∧ (s.emit o).tally = s.tally ∧
    (s.emit o).rep = s.rep ∧ (s.emit o).freeCtr = s.freeCtr ∧ (s.emit o).pending = s.pending :=
  ⟨rfl, rfl, rfl, rfl, rfl, rfl, rfl, rfl, rfl, rfl, rfl, rfl, rfl, rfl, rfl, rfl, rfl, rfl, rfl, rfl, rfl, rfl, rfl, rfl,
   rfl, rfl, rfl, rfl, rfl, rfl, rfl, rfl, rfl, rfl, rfl, rfl, rfl, rfl, rfl, rfl, rfl, rfl, rfl, rfl, rfl, rfl, rfl, rfl,
   rfl, rfl, rfl, rfl, rfl⟩

@[simp] theorem emits_out (s : State) (os : List Out) :
    (s.emits os).out = s.out ++ os := rfl
/-- `emits` leaves every other part of the state. -/
@[simp] theorem emits_frame (s : State) (os : List Out) :
    (s.emits os).fuses = s.fuses ∧ (s.emits os).phys = s.phys ∧ (s.emits os).selv = s.selv ∧
    (s.emits os).boot = s.boot ∧ (s.emits os).map = s.map ∧ (s.emits os).ports = s.ports ∧
    (s.emits os).stack = s.stack ∧ (s.emits os).localMap = s.localMap ∧ (s.emits os).shusPcieUp = s.shusPcieUp ∧
    (s.emits os).sqs = s.sqs ∧ (s.emits os).cqs = s.cqs ∧ (s.emits os).turn = s.turn ∧
    (s.emits os).turnLeft = s.turnLeft ∧ (s.emits os).fns = s.fns ∧ (s.emits os).grants = s.grants ∧
    (s.emits os).latch = s.latch ∧ (s.emits os).fwLog = s.fwLog ∧ (s.emits os).jobs = s.jobs ∧
    (s.emits os).tick = s.tick ∧ (s.emits os).swatches = s.swatches ∧ (s.emits os).saves = s.saves ∧
    (s.emits os).deviceTime = s.deviceTime ∧ (s.emits os).mem = s.mem ∧ (s.emits os).poison = s.poison ∧
    (s.emits os).pages = s.pages ∧ (s.emits os).badPages = s.badPages ∧ (s.emits os).hanks = s.hanks ∧
    (s.emits os).nextHank = s.nextHank ∧ (s.emits os).twinWins = s.twinWins ∧ (s.emits os).accesses = s.accesses ∧
    (s.emits os).nextAccess = s.nextAccess ∧ (s.emits os).gauge = s.gauge ∧ (s.emits os).skeins = s.skeins ∧
    (s.emits os).needles = s.needles ∧ (s.emits os).chans = s.chans ∧ (s.emits os).twinChains = s.twinChains ∧
    (s.emits os).edgeCarders = s.edgeCarders ∧ (s.emits os).distaffs = s.distaffs ∧
    (s.emits os).l2Events = s.l2Events ∧ (s.emits os).cache = s.cache ∧ (s.emits os).bobbins = s.bobbins ∧
    (s.emits os).io = s.io ∧ (s.emits os).pins = s.pins ∧ (s.emits os).wakeEvents = s.wakeEvents ∧
    (s.emits os).flash = s.flash ∧ (s.emits os).jtag = s.jtag ∧ (s.emits os).chain = s.chain ∧
    (s.emits os).tags = s.tags ∧ (s.emits os).inner = s.inner ∧ (s.emits os).tally = s.tally ∧
    (s.emits os).rep = s.rep ∧ (s.emits os).freeCtr = s.freeCtr ∧ (s.emits os).pending = s.pending :=
  ⟨rfl, rfl, rfl, rfl, rfl, rfl, rfl, rfl, rfl, rfl, rfl, rfl, rfl, rfl, rfl, rfl, rfl, rfl, rfl, rfl, rfl, rfl, rfl, rfl,
   rfl, rfl, rfl, rfl, rfl, rfl, rfl, rfl, rfl, rfl, rfl, rfl, rfl, rfl, rfl, rfl, rfl, rfl, rfl, rfl, rfl, rfl, rfl, rfl,
   rfl, rfl, rfl, rfl, rfl⟩

@[simp] theorem store_mem (s : State) (a : Nat) (bs : List Byte) :
    (s.store a bs).mem = memWrite s.mem a bs := rfl
/-- `store` leaves every other part of the state. -/
@[simp] theorem store_frame (s : State) (a : Nat) (bs : List Byte) :
    (s.store a bs).fuses = s.fuses ∧ (s.store a bs).phys = s.phys ∧ (s.store a bs).selv = s.selv ∧
    (s.store a bs).boot = s.boot ∧ (s.store a bs).map = s.map ∧ (s.store a bs).ports = s.ports ∧
    (s.store a bs).stack = s.stack ∧ (s.store a bs).localMap = s.localMap ∧
    (s.store a bs).shusPcieUp = s.shusPcieUp ∧ (s.store a bs).sqs = s.sqs ∧ (s.store a bs).cqs = s.cqs ∧
    (s.store a bs).turn = s.turn ∧ (s.store a bs).turnLeft = s.turnLeft ∧ (s.store a bs).fns = s.fns ∧
    (s.store a bs).grants = s.grants ∧ (s.store a bs).latch = s.latch ∧ (s.store a bs).fwLog = s.fwLog ∧
    (s.store a bs).jobs = s.jobs ∧ (s.store a bs).tick = s.tick ∧ (s.store a bs).swatches = s.swatches ∧
    (s.store a bs).saves = s.saves ∧ (s.store a bs).deviceTime = s.deviceTime ∧ (s.store a bs).poison = s.poison ∧
    (s.store a bs).pages = s.pages ∧ (s.store a bs).badPages = s.badPages ∧ (s.store a bs).hanks = s.hanks ∧
    (s.store a bs).nextHank = s.nextHank ∧ (s.store a bs).twinWins = s.twinWins ∧
    (s.store a bs).accesses = s.accesses ∧ (s.store a bs).nextAccess = s.nextAccess ∧
    (s.store a bs).gauge = s.gauge ∧ (s.store a bs).skeins = s.skeins ∧ (s.store a bs).needles = s.needles ∧
    (s.store a bs).chans = s.chans ∧ (s.store a bs).twinChains = s.twinChains ∧
    (s.store a bs).edgeCarders = s.edgeCarders ∧ (s.store a bs).distaffs = s.distaffs ∧
    (s.store a bs).l2Events = s.l2Events ∧ (s.store a bs).cache = s.cache ∧ (s.store a bs).bobbins = s.bobbins ∧
    (s.store a bs).io = s.io ∧ (s.store a bs).pins = s.pins ∧ (s.store a bs).wakeEvents = s.wakeEvents ∧
    (s.store a bs).flash = s.flash ∧ (s.store a bs).jtag = s.jtag ∧ (s.store a bs).chain = s.chain ∧
    (s.store a bs).tags = s.tags ∧ (s.store a bs).inner = s.inner ∧ (s.store a bs).tally = s.tally ∧
    (s.store a bs).rep = s.rep ∧ (s.store a bs).out = s.out ∧ (s.store a bs).freeCtr = s.freeCtr ∧
    (s.store a bs).pending = s.pending :=
  ⟨rfl, rfl, rfl, rfl, rfl, rfl, rfl, rfl, rfl, rfl, rfl, rfl, rfl, rfl, rfl, rfl, rfl, rfl, rfl, rfl, rfl, rfl, rfl, rfl,
   rfl, rfl, rfl, rfl, rfl, rfl, rfl, rfl, rfl, rfl, rfl, rfl, rfl, rfl, rfl, rfl, rfl, rfl, rfl, rfl, rfl, rfl, rfl, rfl,
   rfl, rfl, rfl, rfl, rfl⟩

@[simp] theorem put_mem (s : State) (a : Nat) (bs : List (Option Byte)) :
    (s.put a bs).mem = memWriteM s.mem a (s.landing a bs) := rfl
@[simp] theorem put_poison (s : State) (a : Nat) (bs : List (Option Byte)) :
    (s.put a bs).poison = s.poison.filter fun g => !coversGran a bs g := rfl
/-- `put` leaves every other part of the state. -/
@[simp] theorem put_frame (s : State) (a : Nat) (bs : List (Option Byte)) :
    (s.put a bs).fuses = s.fuses ∧ (s.put a bs).phys = s.phys ∧ (s.put a bs).selv = s.selv ∧
    (s.put a bs).boot = s.boot ∧ (s.put a bs).map = s.map ∧ (s.put a bs).ports = s.ports ∧
    (s.put a bs).stack = s.stack ∧ (s.put a bs).localMap = s.localMap ∧ (s.put a bs).shusPcieUp = s.shusPcieUp ∧
    (s.put a bs).sqs = s.sqs ∧ (s.put a bs).cqs = s.cqs ∧ (s.put a bs).turn = s.turn ∧
    (s.put a bs).turnLeft = s.turnLeft ∧ (s.put a bs).fns = s.fns ∧ (s.put a bs).grants = s.grants ∧
    (s.put a bs).latch = s.latch ∧ (s.put a bs).fwLog = s.fwLog ∧ (s.put a bs).jobs = s.jobs ∧
    (s.put a bs).tick = s.tick ∧ (s.put a bs).swatches = s.swatches ∧ (s.put a bs).saves = s.saves ∧
    (s.put a bs).deviceTime = s.deviceTime ∧ (s.put a bs).pages = s.pages ∧ (s.put a bs).badPages = s.badPages ∧
    (s.put a bs).hanks = s.hanks ∧ (s.put a bs).nextHank = s.nextHank ∧ (s.put a bs).twinWins = s.twinWins ∧
    (s.put a bs).accesses = s.accesses ∧ (s.put a bs).nextAccess = s.nextAccess ∧ (s.put a bs).gauge = s.gauge ∧
    (s.put a bs).skeins = s.skeins ∧ (s.put a bs).needles = s.needles ∧ (s.put a bs).chans = s.chans ∧
    (s.put a bs).twinChains = s.twinChains ∧ (s.put a bs).edgeCarders = s.edgeCarders ∧
    (s.put a bs).distaffs = s.distaffs ∧ (s.put a bs).l2Events = s.l2Events ∧ (s.put a bs).cache = s.cache ∧
    (s.put a bs).bobbins = s.bobbins ∧ (s.put a bs).io = s.io ∧ (s.put a bs).pins = s.pins ∧
    (s.put a bs).wakeEvents = s.wakeEvents ∧ (s.put a bs).flash = s.flash ∧ (s.put a bs).jtag = s.jtag ∧
    (s.put a bs).chain = s.chain ∧ (s.put a bs).tags = s.tags ∧ (s.put a bs).inner = s.inner ∧
    (s.put a bs).tally = s.tally ∧ (s.put a bs).rep = s.rep ∧ (s.put a bs).out = s.out ∧
    (s.put a bs).freeCtr = s.freeCtr ∧ (s.put a bs).pending = s.pending :=
  ⟨rfl, rfl, rfl, rfl, rfl, rfl, rfl, rfl, rfl, rfl, rfl, rfl, rfl, rfl, rfl, rfl, rfl, rfl, rfl, rfl, rfl, rfl, rfl, rfl,
   rfl, rfl, rfl, rfl, rfl, rfl, rfl, rfl, rfl, rfl, rfl, rfl, rfl, rfl, rfl, rfl, rfl, rfl, rfl, rfl, rfl, rfl, rfl, rfl,
   rfl, rfl, rfl, rfl⟩

@[simp] theorem useFree_freeCtr (s : State) :
    (s.useFree).freeCtr = s.freeCtr + 1 := rfl
/-- `useFree` leaves every other part of the state. -/
@[simp] theorem useFree_frame (s : State) :
    (s.useFree).fuses = s.fuses ∧ (s.useFree).phys = s.phys ∧ (s.useFree).selv = s.selv ∧ (s.useFree).boot = s.boot ∧
    (s.useFree).map = s.map ∧ (s.useFree).ports = s.ports ∧ (s.useFree).stack = s.stack ∧
    (s.useFree).localMap = s.localMap ∧ (s.useFree).shusPcieUp = s.shusPcieUp ∧ (s.useFree).sqs = s.sqs ∧
    (s.useFree).cqs = s.cqs ∧ (s.useFree).turn = s.turn ∧ (s.useFree).turnLeft = s.turnLeft ∧
    (s.useFree).fns = s.fns ∧ (s.useFree).grants = s.grants ∧ (s.useFree).latch = s.latch ∧
    (s.useFree).fwLog = s.fwLog ∧ (s.useFree).jobs = s.jobs ∧ (s.useFree).tick = s.tick ∧
    (s.useFree).swatches = s.swatches ∧ (s.useFree).saves = s.saves ∧ (s.useFree).deviceTime = s.deviceTime ∧
    (s.useFree).mem = s.mem ∧ (s.useFree).poison = s.poison ∧ (s.useFree).pages = s.pages ∧
    (s.useFree).badPages = s.badPages ∧ (s.useFree).hanks = s.hanks ∧ (s.useFree).nextHank = s.nextHank ∧
    (s.useFree).twinWins = s.twinWins ∧ (s.useFree).accesses = s.accesses ∧ (s.useFree).nextAccess = s.nextAccess ∧
    (s.useFree).gauge = s.gauge ∧ (s.useFree).skeins = s.skeins ∧ (s.useFree).needles = s.needles ∧
    (s.useFree).chans = s.chans ∧ (s.useFree).twinChains = s.twinChains ∧ (s.useFree).edgeCarders = s.edgeCarders ∧
    (s.useFree).distaffs = s.distaffs ∧ (s.useFree).l2Events = s.l2Events ∧ (s.useFree).cache = s.cache ∧
    (s.useFree).bobbins = s.bobbins ∧ (s.useFree).io = s.io ∧ (s.useFree).pins = s.pins ∧
    (s.useFree).wakeEvents = s.wakeEvents ∧ (s.useFree).flash = s.flash ∧ (s.useFree).jtag = s.jtag ∧
    (s.useFree).chain = s.chain ∧ (s.useFree).tags = s.tags ∧ (s.useFree).inner = s.inner ∧
    (s.useFree).tally = s.tally ∧ (s.useFree).rep = s.rep ∧ (s.useFree).out = s.out ∧ (s.useFree).pending = s.pending :=
  ⟨rfl, rfl, rfl, rfl, rfl, rfl, rfl, rfl, rfl, rfl, rfl, rfl, rfl, rfl, rfl, rfl, rfl, rfl, rfl, rfl, rfl, rfl, rfl, rfl,
   rfl, rfl, rfl, rfl, rfl, rfl, rfl, rfl, rfl, rfl, rfl, rfl, rfl, rfl, rfl, rfl, rfl, rfl, rfl, rfl, rfl, rfl, rfl, rfl,
   rfl, rfl, rfl, rfl, rfl⟩

@[simp] theorem useId_nextAccess (s : State) :
    (s.useId).nextAccess = s.nextAccess + 1 := rfl
/-- `useId` leaves every other part of the state. -/
@[simp] theorem useId_frame (s : State) :
    (s.useId).fuses = s.fuses ∧ (s.useId).phys = s.phys ∧ (s.useId).selv = s.selv ∧ (s.useId).boot = s.boot ∧
    (s.useId).map = s.map ∧ (s.useId).ports = s.ports ∧ (s.useId).stack = s.stack ∧ (s.useId).localMap = s.localMap ∧
    (s.useId).shusPcieUp = s.shusPcieUp ∧ (s.useId).sqs = s.sqs ∧ (s.useId).cqs = s.cqs ∧ (s.useId).turn = s.turn ∧
    (s.useId).turnLeft = s.turnLeft ∧ (s.useId).fns = s.fns ∧ (s.useId).grants = s.grants ∧
    (s.useId).latch = s.latch ∧ (s.useId).fwLog = s.fwLog ∧ (s.useId).jobs = s.jobs ∧ (s.useId).tick = s.tick ∧
    (s.useId).swatches = s.swatches ∧ (s.useId).saves = s.saves ∧ (s.useId).deviceTime = s.deviceTime ∧
    (s.useId).mem = s.mem ∧ (s.useId).poison = s.poison ∧ (s.useId).pages = s.pages ∧
    (s.useId).badPages = s.badPages ∧ (s.useId).hanks = s.hanks ∧ (s.useId).nextHank = s.nextHank ∧
    (s.useId).twinWins = s.twinWins ∧ (s.useId).accesses = s.accesses ∧ (s.useId).gauge = s.gauge ∧
    (s.useId).skeins = s.skeins ∧ (s.useId).needles = s.needles ∧ (s.useId).chans = s.chans ∧
    (s.useId).twinChains = s.twinChains ∧ (s.useId).edgeCarders = s.edgeCarders ∧ (s.useId).distaffs = s.distaffs ∧
    (s.useId).l2Events = s.l2Events ∧ (s.useId).cache = s.cache ∧ (s.useId).bobbins = s.bobbins ∧
    (s.useId).io = s.io ∧ (s.useId).pins = s.pins ∧ (s.useId).wakeEvents = s.wakeEvents ∧ (s.useId).flash = s.flash ∧
    (s.useId).jtag = s.jtag ∧ (s.useId).chain = s.chain ∧ (s.useId).tags = s.tags ∧ (s.useId).inner = s.inner ∧
    (s.useId).tally = s.tally ∧ (s.useId).rep = s.rep ∧ (s.useId).out = s.out ∧ (s.useId).freeCtr = s.freeCtr ∧
    (s.useId).pending = s.pending :=
  ⟨rfl, rfl, rfl, rfl, rfl, rfl, rfl, rfl, rfl, rfl, rfl, rfl, rfl, rfl, rfl, rfl, rfl, rfl, rfl, rfl, rfl, rfl, rfl, rfl,
   rfl, rfl, rfl, rfl, rfl, rfl, rfl, rfl, rfl, rfl, rfl, rfl, rfl, rfl, rfl, rfl, rfl, rfl, rfl, rfl, rfl, rfl, rfl, rfl,
   rfl, rfl, rfl, rfl, rfl⟩

@[simp] theorem badAcc_selv (s : State) :
    (s.badAcc).selv = { s.selv with badAccess := satAdd s.selv.badAccess 1 } := rfl
/-- `badAcc` leaves every other part of the state. -/
@[simp] theorem badAcc_frame (s : State) :
    (s.badAcc).fuses = s.fuses ∧ (s.badAcc).phys = s.phys ∧ (s.badAcc).boot = s.boot ∧ (s.badAcc).map = s.map ∧
    (s.badAcc).ports = s.ports ∧ (s.badAcc).stack = s.stack ∧ (s.badAcc).localMap = s.localMap ∧
    (s.badAcc).shusPcieUp = s.shusPcieUp ∧ (s.badAcc).sqs = s.sqs ∧ (s.badAcc).cqs = s.cqs ∧
    (s.badAcc).turn = s.turn ∧ (s.badAcc).turnLeft = s.turnLeft ∧ (s.badAcc).fns = s.fns ∧
    (s.badAcc).grants = s.grants ∧ (s.badAcc).latch = s.latch ∧ (s.badAcc).fwLog = s.fwLog ∧
    (s.badAcc).jobs = s.jobs ∧ (s.badAcc).tick = s.tick ∧ (s.badAcc).swatches = s.swatches ∧
    (s.badAcc).saves = s.saves ∧ (s.badAcc).deviceTime = s.deviceTime ∧ (s.badAcc).mem = s.mem ∧
    (s.badAcc).poison = s.poison ∧ (s.badAcc).pages = s.pages ∧ (s.badAcc).badPages = s.badPages ∧
    (s.badAcc).hanks = s.hanks ∧ (s.badAcc).nextHank = s.nextHank ∧ (s.badAcc).twinWins = s.twinWins ∧
    (s.badAcc).accesses = s.accesses ∧ (s.badAcc).nextAccess = s.nextAccess ∧ (s.badAcc).gauge = s.gauge ∧
    (s.badAcc).skeins = s.skeins ∧ (s.badAcc).needles = s.needles ∧ (s.badAcc).chans = s.chans ∧
    (s.badAcc).twinChains = s.twinChains ∧ (s.badAcc).edgeCarders = s.edgeCarders ∧
    (s.badAcc).distaffs = s.distaffs ∧ (s.badAcc).l2Events = s.l2Events ∧ (s.badAcc).cache = s.cache ∧
    (s.badAcc).bobbins = s.bobbins ∧ (s.badAcc).io = s.io ∧ (s.badAcc).pins = s.pins ∧
    (s.badAcc).wakeEvents = s.wakeEvents ∧ (s.badAcc).flash = s.flash ∧ (s.badAcc).jtag = s.jtag ∧
    (s.badAcc).chain = s.chain ∧ (s.badAcc).tags = s.tags ∧ (s.badAcc).inner = s.inner ∧ (s.badAcc).tally = s.tally ∧
    (s.badAcc).rep = s.rep ∧ (s.badAcc).out = s.out ∧ (s.badAcc).freeCtr = s.freeCtr ∧ (s.badAcc).pending = s.pending :=
  ⟨rfl, rfl, rfl, rfl, rfl, rfl, rfl, rfl, rfl, rfl, rfl, rfl, rfl, rfl, rfl, rfl, rfl, rfl, rfl, rfl, rfl, rfl, rfl, rfl,
   rfl, rfl, rfl, rfl, rfl, rfl, rfl, rfl, rfl, rfl, rfl, rfl, rfl, rfl, rfl, rfl, rfl, rfl, rfl, rfl, rfl, rfl, rfl, rfl,
   rfl, rfl, rfl, rfl, rfl⟩

@[simp] theorem selvFault_selv (s : State) (i : Nat) :
    (s.selvFault i).selv = { s.selv with fault := setBit s.selv.fault i } := rfl
/-- `selvFault` leaves every other part of the state. -/
@[simp] theorem selvFault_frame (s : State) (i : Nat) :
    (s.selvFault i).fuses = s.fuses ∧ (s.selvFault i).phys = s.phys ∧ (s.selvFault i).boot = s.boot ∧
    (s.selvFault i).map = s.map ∧ (s.selvFault i).ports = s.ports ∧ (s.selvFault i).stack = s.stack ∧
    (s.selvFault i).localMap = s.localMap ∧ (s.selvFault i).shusPcieUp = s.shusPcieUp ∧ (s.selvFault i).sqs = s.sqs ∧
    (s.selvFault i).cqs = s.cqs ∧ (s.selvFault i).turn = s.turn ∧ (s.selvFault i).turnLeft = s.turnLeft ∧
    (s.selvFault i).fns = s.fns ∧ (s.selvFault i).grants = s.grants ∧ (s.selvFault i).latch = s.latch ∧
    (s.selvFault i).fwLog = s.fwLog ∧ (s.selvFault i).jobs = s.jobs ∧ (s.selvFault i).tick = s.tick ∧
    (s.selvFault i).swatches = s.swatches ∧ (s.selvFault i).saves = s.saves ∧
    (s.selvFault i).deviceTime = s.deviceTime ∧ (s.selvFault i).mem = s.mem ∧ (s.selvFault i).poison = s.poison ∧
    (s.selvFault i).pages = s.pages ∧ (s.selvFault i).badPages = s.badPages ∧ (s.selvFault i).hanks = s.hanks ∧
    (s.selvFault i).nextHank = s.nextHank ∧ (s.selvFault i).twinWins = s.twinWins ∧
    (s.selvFault i).accesses = s.accesses ∧ (s.selvFault i).nextAccess = s.nextAccess ∧
    (s.selvFault i).gauge = s.gauge ∧ (s.selvFault i).skeins = s.skeins ∧ (s.selvFault i).needles = s.needles ∧
    (s.selvFault i).chans = s.chans ∧ (s.selvFault i).twinChains = s.twinChains ∧
    (s.selvFault i).edgeCarders = s.edgeCarders ∧ (s.selvFault i).distaffs = s.distaffs ∧
    (s.selvFault i).l2Events = s.l2Events ∧ (s.selvFault i).cache = s.cache ∧ (s.selvFault i).bobbins = s.bobbins ∧
    (s.selvFault i).io = s.io ∧ (s.selvFault i).pins = s.pins ∧ (s.selvFault i).wakeEvents = s.wakeEvents ∧
    (s.selvFault i).flash = s.flash ∧ (s.selvFault i).jtag = s.jtag ∧ (s.selvFault i).chain = s.chain ∧
    (s.selvFault i).tags = s.tags ∧ (s.selvFault i).inner = s.inner ∧ (s.selvFault i).tally = s.tally ∧
    (s.selvFault i).rep = s.rep ∧ (s.selvFault i).out = s.out ∧ (s.selvFault i).freeCtr = s.freeCtr ∧
    (s.selvFault i).pending = s.pending :=
  ⟨rfl, rfl, rfl, rfl, rfl, rfl, rfl, rfl, rfl, rfl, rfl, rfl, rfl, rfl, rfl, rfl, rfl, rfl, rfl, rfl, rfl, rfl, rfl, rfl,
   rfl, rfl, rfl, rfl, rfl, rfl, rfl, rfl, rfl, rfl, rfl, rfl, rfl, rfl, rfl, rfl, rfl, rfl, rfl, rfl, rfl, rfl, rfl, rfl,
   rfl, rfl, rfl, rfl, rfl⟩

@[simp] theorem swStatus_swatches (s : State) (i : Fin 8) (b : Nat) :
    (s.swStatus i b).swatches = upd s.swatches i fun w => { w with status := setBit w.status b } := rfl
/-- `swStatus` leaves every other part of the state. -/
@[simp] theorem swStatus_frame (s : State) (i : Fin 8) (b : Nat) :
    (s.swStatus i b).fuses = s.fuses ∧ (s.swStatus i b).phys = s.phys ∧ (s.swStatus i b).selv = s.selv ∧
    (s.swStatus i b).boot = s.boot ∧ (s.swStatus i b).map = s.map ∧ (s.swStatus i b).ports = s.ports ∧
    (s.swStatus i b).stack = s.stack ∧ (s.swStatus i b).localMap = s.localMap ∧
    (s.swStatus i b).shusPcieUp = s.shusPcieUp ∧ (s.swStatus i b).sqs = s.sqs ∧ (s.swStatus i b).cqs = s.cqs ∧
    (s.swStatus i b).turn = s.turn ∧ (s.swStatus i b).turnLeft = s.turnLeft ∧ (s.swStatus i b).fns = s.fns ∧
    (s.swStatus i b).grants = s.grants ∧ (s.swStatus i b).latch = s.latch ∧ (s.swStatus i b).fwLog = s.fwLog ∧
    (s.swStatus i b).jobs = s.jobs ∧ (s.swStatus i b).tick = s.tick ∧ (s.swStatus i b).saves = s.saves ∧
    (s.swStatus i b).deviceTime = s.deviceTime ∧ (s.swStatus i b).mem = s.mem ∧ (s.swStatus i b).poison = s.poison ∧
    (s.swStatus i b).pages = s.pages ∧ (s.swStatus i b).badPages = s.badPages ∧ (s.swStatus i b).hanks = s.hanks ∧
    (s.swStatus i b).nextHank = s.nextHank ∧ (s.swStatus i b).twinWins = s.twinWins ∧
    (s.swStatus i b).accesses = s.accesses ∧ (s.swStatus i b).nextAccess = s.nextAccess ∧
    (s.swStatus i b).gauge = s.gauge ∧ (s.swStatus i b).skeins = s.skeins ∧ (s.swStatus i b).needles = s.needles ∧
    (s.swStatus i b).chans = s.chans ∧ (s.swStatus i b).twinChains = s.twinChains ∧
    (s.swStatus i b).edgeCarders = s.edgeCarders ∧ (s.swStatus i b).distaffs = s.distaffs ∧
    (s.swStatus i b).l2Events = s.l2Events ∧ (s.swStatus i b).cache = s.cache ∧
    (s.swStatus i b).bobbins = s.bobbins ∧ (s.swStatus i b).io = s.io ∧ (s.swStatus i b).pins = s.pins ∧
    (s.swStatus i b).wakeEvents = s.wakeEvents ∧ (s.swStatus i b).flash = s.flash ∧ (s.swStatus i b).jtag = s.jtag ∧
    (s.swStatus i b).chain = s.chain ∧ (s.swStatus i b).tags = s.tags ∧ (s.swStatus i b).inner = s.inner ∧
    (s.swStatus i b).tally = s.tally ∧ (s.swStatus i b).rep = s.rep ∧ (s.swStatus i b).out = s.out ∧
    (s.swStatus i b).freeCtr = s.freeCtr ∧ (s.swStatus i b).pending = s.pending :=
  ⟨rfl, rfl, rfl, rfl, rfl, rfl, rfl, rfl, rfl, rfl, rfl, rfl, rfl, rfl, rfl, rfl, rfl, rfl, rfl, rfl, rfl, rfl, rfl, rfl,
   rfl, rfl, rfl, rfl, rfl, rfl, rfl, rfl, rfl, rfl, rfl, rfl, rfl, rfl, rfl, rfl, rfl, rfl, rfl, rfl, rfl, rfl, rfl, rfl,
   rfl, rfl, rfl, rfl, rfl⟩

@[simp] theorem setPages_pages (s : State) (base count : Nat) (st : PageSt) :
    (s.setPages base count st).pages = putRun s.pages base count st := rfl
/-- `setPages` leaves every other part of the state. -/
@[simp] theorem setPages_frame (s : State) (base count : Nat) (st : PageSt) :
    (s.setPages base count st).fuses = s.fuses ∧ (s.setPages base count st).phys = s.phys ∧
    (s.setPages base count st).selv = s.selv ∧ (s.setPages base count st).boot = s.boot ∧
    (s.setPages base count st).map = s.map ∧ (s.setPages base count st).ports = s.ports ∧
    (s.setPages base count st).stack = s.stack ∧ (s.setPages base count st).localMap = s.localMap ∧
    (s.setPages base count st).shusPcieUp = s.shusPcieUp ∧ (s.setPages base count st).sqs = s.sqs ∧
    (s.setPages base count st).cqs = s.cqs ∧ (s.setPages base count st).turn = s.turn ∧
    (s.setPages base count st).turnLeft = s.turnLeft ∧ (s.setPages base count st).fns = s.fns ∧
    (s.setPages base count st).grants = s.grants ∧ (s.setPages base count st).latch = s.latch ∧
    (s.setPages base count st).fwLog = s.fwLog ∧ (s.setPages base count st).jobs = s.jobs ∧
    (s.setPages base count st).tick = s.tick ∧ (s.setPages base count st).swatches = s.swatches ∧
    (s.setPages base count st).saves = s.saves ∧ (s.setPages base count st).deviceTime = s.deviceTime ∧
    (s.setPages base count st).mem = s.mem ∧ (s.setPages base count st).poison = s.poison ∧
    (s.setPages base count st).badPages = s.badPages ∧ (s.setPages base count st).hanks = s.hanks ∧
    (s.setPages base count st).nextHank = s.nextHank ∧ (s.setPages base count st).twinWins = s.twinWins ∧
    (s.setPages base count st).accesses = s.accesses ∧ (s.setPages base count st).nextAccess = s.nextAccess ∧
    (s.setPages base count st).gauge = s.gauge ∧ (s.setPages base count st).skeins = s.skeins ∧
    (s.setPages base count st).needles = s.needles ∧ (s.setPages base count st).chans = s.chans ∧
    (s.setPages base count st).twinChains = s.twinChains ∧ (s.setPages base count st).edgeCarders = s.edgeCarders ∧
    (s.setPages base count st).distaffs = s.distaffs ∧ (s.setPages base count st).l2Events = s.l2Events ∧
    (s.setPages base count st).cache = s.cache ∧ (s.setPages base count st).bobbins = s.bobbins ∧
    (s.setPages base count st).io = s.io ∧ (s.setPages base count st).pins = s.pins ∧
    (s.setPages base count st).wakeEvents = s.wakeEvents ∧ (s.setPages base count st).flash = s.flash ∧
    (s.setPages base count st).jtag = s.jtag ∧ (s.setPages base count st).chain = s.chain ∧
    (s.setPages base count st).tags = s.tags ∧ (s.setPages base count st).inner = s.inner ∧
    (s.setPages base count st).tally = s.tally ∧ (s.setPages base count st).rep = s.rep ∧
    (s.setPages base count st).out = s.out ∧ (s.setPages base count st).freeCtr = s.freeCtr ∧
    (s.setPages base count st).pending = s.pending :=
  ⟨rfl, rfl, rfl, rfl, rfl, rfl, rfl, rfl, rfl, rfl, rfl, rfl, rfl, rfl, rfl, rfl, rfl, rfl, rfl, rfl, rfl, rfl, rfl, rfl,
   rfl, rfl, rfl, rfl, rfl, rfl, rfl, rfl, rfl, rfl, rfl, rfl, rfl, rfl, rfl, rfl, rfl, rfl, rfl, rfl, rfl, rfl, rfl, rfl,
   rfl, rfl, rfl, rfl, rfl⟩

@[simp] theorem modNeedlesOf_needles (s : State) (i : Fin 8) (f : Needle → Needle) :
    (s.modNeedlesOf i f).needles = mapV s.needles fun n x => if s.swatches[i].covers (skeinOf n) then f x else x := rfl
/-- `modNeedlesOf` leaves every other part of the state. -/
@[simp] theorem modNeedlesOf_frame (s : State) (i : Fin 8) (f : Needle → Needle) :
    (s.modNeedlesOf i f).fuses = s.fuses ∧ (s.modNeedlesOf i f).phys = s.phys ∧ (s.modNeedlesOf i f).selv = s.selv ∧
    (s.modNeedlesOf i f).boot = s.boot ∧ (s.modNeedlesOf i f).map = s.map ∧ (s.modNeedlesOf i f).ports = s.ports ∧
    (s.modNeedlesOf i f).stack = s.stack ∧ (s.modNeedlesOf i f).localMap = s.localMap ∧
    (s.modNeedlesOf i f).shusPcieUp = s.shusPcieUp ∧ (s.modNeedlesOf i f).sqs = s.sqs ∧
    (s.modNeedlesOf i f).cqs = s.cqs ∧ (s.modNeedlesOf i f).turn = s.turn ∧
    (s.modNeedlesOf i f).turnLeft = s.turnLeft ∧ (s.modNeedlesOf i f).fns = s.fns ∧
    (s.modNeedlesOf i f).grants = s.grants ∧ (s.modNeedlesOf i f).latch = s.latch ∧
    (s.modNeedlesOf i f).fwLog = s.fwLog ∧ (s.modNeedlesOf i f).jobs = s.jobs ∧ (s.modNeedlesOf i f).tick = s.tick ∧
    (s.modNeedlesOf i f).swatches = s.swatches ∧ (s.modNeedlesOf i f).saves = s.saves ∧
    (s.modNeedlesOf i f).deviceTime = s.deviceTime ∧ (s.modNeedlesOf i f).mem = s.mem ∧
    (s.modNeedlesOf i f).poison = s.poison ∧ (s.modNeedlesOf i f).pages = s.pages ∧
    (s.modNeedlesOf i f).badPages = s.badPages ∧ (s.modNeedlesOf i f).hanks = s.hanks ∧
    (s.modNeedlesOf i f).nextHank = s.nextHank ∧ (s.modNeedlesOf i f).twinWins = s.twinWins ∧
    (s.modNeedlesOf i f).accesses = s.accesses ∧ (s.modNeedlesOf i f).nextAccess = s.nextAccess ∧
    (s.modNeedlesOf i f).gauge = s.gauge ∧ (s.modNeedlesOf i f).skeins = s.skeins ∧
    (s.modNeedlesOf i f).chans = s.chans ∧ (s.modNeedlesOf i f).twinChains = s.twinChains ∧
    (s.modNeedlesOf i f).edgeCarders = s.edgeCarders ∧ (s.modNeedlesOf i f).distaffs = s.distaffs ∧
    (s.modNeedlesOf i f).l2Events = s.l2Events ∧ (s.modNeedlesOf i f).cache = s.cache ∧
    (s.modNeedlesOf i f).bobbins = s.bobbins ∧ (s.modNeedlesOf i f).io = s.io ∧ (s.modNeedlesOf i f).pins = s.pins ∧
    (s.modNeedlesOf i f).wakeEvents = s.wakeEvents ∧ (s.modNeedlesOf i f).flash = s.flash ∧
    (s.modNeedlesOf i f).jtag = s.jtag ∧ (s.modNeedlesOf i f).chain = s.chain ∧ (s.modNeedlesOf i f).tags = s.tags ∧
    (s.modNeedlesOf i f).inner = s.inner ∧ (s.modNeedlesOf i f).tally = s.tally ∧ (s.modNeedlesOf i f).rep = s.rep ∧
    (s.modNeedlesOf i f).out = s.out ∧ (s.modNeedlesOf i f).freeCtr = s.freeCtr ∧
    (s.modNeedlesOf i f).pending = s.pending := by
  simp only [State.modNeedlesOf, and_self]

@[simp] theorem modSkeinsOf_skeins (s : State) (i : Fin 8) (f : Skein → Skein) :
    (s.modSkeinsOf i f).skeins = mapV s.skeins fun k x => if s.swatches[i].covers k then f x else x := rfl
/-- `modSkeinsOf` leaves every other part of the state. -/
@[simp] theorem modSkeinsOf_frame (s : State) (i : Fin 8) (f : Skein → Skein) :
    (s.modSkeinsOf i f).fuses = s.fuses ∧ (s.modSkeinsOf i f).phys = s.phys ∧ (s.modSkeinsOf i f).selv = s.selv ∧
    (s.modSkeinsOf i f).boot = s.boot ∧ (s.modSkeinsOf i f).map = s.map ∧ (s.modSkeinsOf i f).ports = s.ports ∧
    (s.modSkeinsOf i f).stack = s.stack ∧ (s.modSkeinsOf i f).localMap = s.localMap ∧
    (s.modSkeinsOf i f).shusPcieUp = s.shusPcieUp ∧ (s.modSkeinsOf i f).sqs = s.sqs ∧
    (s.modSkeinsOf i f).cqs = s.cqs ∧ (s.modSkeinsOf i f).turn = s.turn ∧ (s.modSkeinsOf i f).turnLeft = s.turnLeft ∧
    (s.modSkeinsOf i f).fns = s.fns ∧ (s.modSkeinsOf i f).grants = s.grants ∧ (s.modSkeinsOf i f).latch = s.latch ∧
    (s.modSkeinsOf i f).fwLog = s.fwLog ∧ (s.modSkeinsOf i f).jobs = s.jobs ∧ (s.modSkeinsOf i f).tick = s.tick ∧
    (s.modSkeinsOf i f).swatches = s.swatches ∧ (s.modSkeinsOf i f).saves = s.saves ∧
    (s.modSkeinsOf i f).deviceTime = s.deviceTime ∧ (s.modSkeinsOf i f).mem = s.mem ∧
    (s.modSkeinsOf i f).poison = s.poison ∧ (s.modSkeinsOf i f).pages = s.pages ∧
    (s.modSkeinsOf i f).badPages = s.badPages ∧ (s.modSkeinsOf i f).hanks = s.hanks ∧
    (s.modSkeinsOf i f).nextHank = s.nextHank ∧ (s.modSkeinsOf i f).twinWins = s.twinWins ∧
    (s.modSkeinsOf i f).accesses = s.accesses ∧ (s.modSkeinsOf i f).nextAccess = s.nextAccess ∧
    (s.modSkeinsOf i f).gauge = s.gauge ∧ (s.modSkeinsOf i f).needles = s.needles ∧
    (s.modSkeinsOf i f).chans = s.chans ∧ (s.modSkeinsOf i f).twinChains = s.twinChains ∧
    (s.modSkeinsOf i f).edgeCarders = s.edgeCarders ∧ (s.modSkeinsOf i f).distaffs = s.distaffs ∧
    (s.modSkeinsOf i f).l2Events = s.l2Events ∧ (s.modSkeinsOf i f).cache = s.cache ∧
    (s.modSkeinsOf i f).bobbins = s.bobbins ∧ (s.modSkeinsOf i f).io = s.io ∧ (s.modSkeinsOf i f).pins = s.pins ∧
    (s.modSkeinsOf i f).wakeEvents = s.wakeEvents ∧ (s.modSkeinsOf i f).flash = s.flash ∧
    (s.modSkeinsOf i f).jtag = s.jtag ∧ (s.modSkeinsOf i f).chain = s.chain ∧ (s.modSkeinsOf i f).tags = s.tags ∧
    (s.modSkeinsOf i f).inner = s.inner ∧ (s.modSkeinsOf i f).tally = s.tally ∧ (s.modSkeinsOf i f).rep = s.rep ∧
    (s.modSkeinsOf i f).out = s.out ∧ (s.modSkeinsOf i f).freeCtr = s.freeCtr ∧
    (s.modSkeinsOf i f).pending = s.pending := by
  simp only [State.modSkeinsOf, and_self]

end Sys2Proof.Machine
end

