-- ==== Sys2Proof/Laws/Issue.lean ====
section
/-! SUPPORT. What issuing an instruction on a needle can do (10 R272, R274, R288 to R290): the four refusals of the issue,
and the three outcomes of an instruction that issues. -/
namespace Sys2Proof.Machine
open Sys2Proof Sys2Proof.Safety

/-- An instruction that issues and is done. -/
theorem issue_done {s : State} {n : Fin 96} {len : Nat} {ss vs : List (Fin 32)} {f : State → NStep} {t : State}
    (h : MayIssue s n len ss vs) (hf : f (s.clocked n len) = .done t) :
    s.issue n len ss vs f = t.modNeedle n Needle.boundary := by
  obtain ⟨h1, h2, h3, h4, h5⟩ := h
  have h3' : ¬(s.secondWord n (s.needles[n]).pc.toNat = true ∨ len = 8 ∧ (s.needles[n]).pc.toNat % 8 ≠ 0) := by
    rintro (h | ⟨h, h'⟩)
    · rw [h3] at h; cases h
    · exact h' (h4 h)
  unfold State.issue
  dsimp only
  rw [h1, h5, if_neg (by simp), if_neg (by omega), if_neg h3', if_neg (by simp), hf]

/-- An instruction that issues and stalls. -/
theorem issue_stall {s : State} {n : Fin 96} {len : Nat} {ss vs : List (Fin 32)} {f : State → NStep}
    (h : MayIssue s n len ss vs) (hf : f (s.clocked n len) = .stall) : s.issue n len ss vs f = s := by
  obtain ⟨h1, h2, h3, h4, h5⟩ := h
  have h3' : ¬(s.secondWord n (s.needles[n]).pc.toNat = true ∨ len = 8 ∧ (s.needles[n]).pc.toNat % 8 ≠ 0) := by
    rintro (h | ⟨h, h'⟩)
    · rw [h3] at h; cases h
    · exact h' (h4 h)
  unfold State.issue
  dsimp only
  rw [h1, h5, if_neg (by simp), if_neg (by omega), if_neg h3', if_neg (by simp), hf]

/-- An instruction that issues and faults. -/
theorem issue_fault {s : State} {n : Fin 96} {len : Nat} {ss vs : List (Fin 32)} {f : State → NStep} {c a : Nat}
    (h : MayIssue s n len ss vs) (hf : f (s.clocked n len) = .fault c a) :
    s.issue n len ss vs f = s.needleFault n c (s.needles[n]).pc.toNat a := by
  obtain ⟨h1, h2, h3, h4, h5⟩ := h
  have h3' : ¬(s.secondWord n (s.needles[n]).pc.toNat = true ∨ len = 8 ∧ (s.needles[n]).pc.toNat % 8 ≠ 0) := by
    rintro (h | ⟨h, h'⟩)
    · rw [h3] at h; cases h
    · exact h' (h4 h)
  unfold State.issue
  dsimp only
  rw [h1, h5, if_neg (by simp), if_neg (by omega), if_neg h3', if_neg (by simp), hf]

/-- The counters moved on and a change of the needle, put together. -/
theorem clocked_mod (s : State) (n : Fin 96) (len : Nat) (g : Needle → Needle) :
    ((s.clocked n len).modNeedle n g).modNeedle n Needle.boundary = retired s n len g := by
  simp only [State.clocked, State.modNeedle, State.useFree, retired, upd_upd, State.freeVal]
  simp only [upd, Needle.clocked, Fin.getElem_fin]

/-- An instruction that issues and changes its needle alone. -/
theorem issue_retired {s : State} {n : Fin 96} {len : Nat} {ss vs : List (Fin 32)} {f : State → NStep}
    {g : Needle → Needle} (h : MayIssue s n len ss vs)
    (hf : f (s.clocked n len) = .done ((s.clocked n len).modNeedle n g)) :
    s.issue n len ss vs f = retired s n len g := by
  rw [issue_done h hf, clocked_mod]

/-- The registers of the needle after the counters moved on. -/
@[simp] theorem clocked_needle (s : State) (n : Fin 96) (len : Nat) :
    (s.clocked n len).needles[n.val] = (s.needles[n.val]).clocked len s.freeVal := by
  simp [State.clocked]

/-- Moving the counters on leaves every register. -/
@[simp] theorem needle_clocked_regs (x : Needle) (len : Nat) (d : DWord) :
    (x.clocked len d).s = x.s ∧ (x.clocked len d).v = x.v ∧ (x.clocked len d).p = x.p ∧ (x.clocked len d).st = x.st ∧
    (x.clocked len d).wait = x.wait ∧ (x.clocked len d).draft = x.draft ∧ (x.clocked len d).bed = x.bed ∧
    (x.clocked len d).feed = x.feed ∧ (x.clocked len d).ignoreNan = x.ignoreNan ∧
    (x.clocked len d).faultFlag = x.faultFlag := ⟨rfl, rfl, rfl, rfl, rfl, rfl, rfl, rfl, rfl, rfl⟩

@[simp] theorem needle_clocked_sr (x : Needle) (len : Nat) (d : DWord) (i : Fin 32) : (x.clocked len d).sr i = x.sr i := rfl
@[simp] theorem needle_clocked_lo (x : Needle) (len : Nat) (d : DWord) (i : Fin 32) : (x.clocked len d).lo i = x.lo i := rfl
@[simp] theorem needle_clocked_admits (x : Needle) (len : Nat) (d : DWord) (p : Pred) (i : Nat) :
    (x.clocked len d).admits p i = x.admits p i := rfl

/-- A scalar instruction that issues writes the value its registers give. -/
theorem scalar_retired {s : State} {n rd srcs v} (h : MayIssue s n 4 (rd :: srcs) []) (hv : ∀ len d, v ((s.needles[n]).clocked len d) = v (s.needles[n])) :
    Host.Outcome.next (φ := Fault) (ρ := Refusal) (s.scalar n rd srcs v) = writesS s n rd (v (s.needles[n])) := by
  unfold State.scalar writesS
  congr 1
  have : (s.clocked n 4).modNeedle n (fun x => x.setS rd (v x)) = (s.clocked n 4).modNeedle n (fun x => if rd = 0 then x else { x with s := x.s.set rd (v (s.needles[n])) }) := by
    unfold State.modNeedle
    congr 1
    unfold upd
    simp only [Fin.getElem_fin, clocked_needle]
    congr 1
    unfold Needle.setS
    simp only [Fin.getElem_fin] at hv
    rw [hv]
  apply issue_retired h
  rw [this]
/-- A needle that may issue naming some registers may issue naming fewer. -/
theorem mayIssue_fewer {s n len ss vs ss' vs'} (h : MayIssue s n len ss vs) (h1 : ss' ⊆ ss) (h2 : vs' ⊆ vs) : MayIssue s n len ss' vs' := by
  refine ⟨h.1, h.2, h.3, h.4, ?_⟩
  have := h.5
  unfold State.loading at this ⊢
  rw [List.any_eq_false] at this ⊢
  intro a ha hb
  apply this a ha
  revert hb
  simp only [Bool.and_eq_true, decide_eq_true_eq]
  rintro ⟨h3, h4⟩
  refine ⟨h3, ?_⟩
  revert h4
  split
  · simp only [Bool.and_eq_true, decide_eq_true_eq, List.contains_iff_mem]
    exact fun h => ⟨h.1, h1 h.2⟩
  · simp only [List.contains_iff_mem]; exact fun h => h2 h
  · simp

/-- Two changes of a needle that agree on it are one. -/
theorem modNeedle_congr {s : State} {n : Fin 96} {f g : Needle → Needle} (h : f s.needles[n.val] = g s.needles[n.val]) :
    s.modNeedle n f = s.modNeedle n g := by
  unfold State.modNeedle upd
  rw [Fin.getElem_fin, h]

/-- An instruction that issues and changes its needle alone, the change given at the needle. -/
theorem issue_retired_at {s : State} {n : Fin 96} {len : Nat} {ss vs : List (Fin 32)} {f : State → NStep}
    {g k : Needle → Needle} (h : MayIssue s n len ss vs)
    (hf : f (s.clocked n len) = .done ((s.clocked n len).modNeedle n k))
    (hk : k ((s.needles[n.val]).clocked len s.freeVal) = g ((s.needles[n.val]).clocked len s.freeVal)) :
    s.issue n len ss vs f = retired s n len g := by
  refine issue_retired h (hf.trans (congrArg _ (modNeedle_congr ?_)))
  rw [clocked_needle, hk]

/-- Lanes written under a predicate (R274). -/
theorem setLanes_eq (x : Needle) (pr : Pred) (rd : Fin 32) (f : Fin 64 → Word) :
    x.setLanes pr rd f = { x with v := x.v.set rd (Vector.ofFn fun (i : Fin 64) =>
      if pr.on = true ∧ (x.p[pr.pr]).getLsbD i.val = pr.inv then (x.v[rd])[i] else f i) } := by
  have e : (fun (i : Fin 64) => if x.admits pr i.val then f i else (x.v[rd])[i]) = fun (i : Fin 64) =>
      if pr.on = true ∧ (x.p[pr.pr]).getLsbD i.val = pr.inv then (x.v[rd])[i] else f i := by
    funext i
    unfold Needle.admits
    cases pr.on <;> cases pr.inv <;> cases h : (x.p[pr.pr]).getLsbD i.val <;> simp [h]
  unfold Needle.setLanes Needle.setV
  rw [e]

/-- An instruction that issues and writes lanes of v[rd]. -/
theorem issue_lanes {s : State} {n : Fin 96} {ss vs : List (Fin 32)} {pr : Pred} {rd : Fin 32} {f : Needle → Fin 64 → Word}
    {g : Fin 64 → Word} (h : MayIssue s n 4 ss vs)
    (hg : ∀ i, f ((s.needles[n.val]).clocked 4 s.freeVal) i = g i) :
    (.next (s.issue n 4 ss vs fun t => .done (t.modNeedle n fun x => x.setLanes pr rd (f x))) :
      Host.Outcome State Fault Refusal) = writesV s n pr rd g := by
  unfold writesV
  refine congrArg _ (issue_retired_at h rfl ?_)
  rw [setLanes_eq, funext hg]
  rfl

/-- A lane-wise instruction that issues (R276). -/
theorem lanewise_writes {s : State} {n : Fin 96} {pr : Pred} {bc : Bool} {rd ra rb : Fin 32}
    {f : Word → Word → Word → Word} {g : Fin 64 → Word} (h : MayIssue s n 4 [rb] [rd, ra, rb])
    (hg : ∀ i : Fin 64, f ((s.needles[n].v[rd])[i]) ((s.needles[n].v[ra])[i])
      (if bc = true then (s.needles[n].sr rb).setWidth 32 else (s.needles[n].v[rb])[i]) = g i) :
    (.next (s.lanewise n pr bc rd ra rb f) : Host.Outcome State Fault Refusal) = writesV s n pr rd g := by
  have h' : MayIssue s n 4 (secondS bc rb) ([rd, ra] ++ secondV bc rb) :=
    mayIssue_fewer h (by unfold secondS; split <;> simp) (by unfold secondV; split <;> simp)
  exact issue_lanes h' hg

end Sys2Proof.Machine
end

