-- ==== Sys2Proof/Laws/Memory.lean ====
section
/-! SUPPORT. Memory (14): a read after a write, what a write leaves alone, and the canonical form kept by every
operation. -/
namespace Sys2Proof.Machine
open Sys2Proof

/-! ### What an address reads as -/

/-- An address outside a list reads as the default. -/
theorem memGet_absent {m : List (Nat × Byte)} {a : Nat} (h : ∀ c ∈ m, c.1 ≠ a) : memGet m a = memDefault := by
  induction m with
  | nil => rfl
  | cons c m ih =>
    obtain ⟨k, b⟩ := c
    have hk : a ≠ k := fun e => h (k, b) (by simp) e.symm
    simp [memGet, hk, ih fun c hc => h c (by simp [hc])]

/-- Two lists one after the other: the first that lists the address counts. -/
theorem memGet_append_left {m n : List (Nat × Byte)} {a : Nat} (h : ∀ c ∈ n, c.1 ≠ a) :
    memGet (m ++ n) a = memGet m a := by
  induction m with
  | nil => simpa [memGet] using memGet_absent h
  | cons c m ih => obtain ⟨k, b⟩ := c; simp [memGet, ih]

theorem memGet_append_right {m n : List (Nat × Byte)} {a : Nat} (h : ∀ c ∈ m, c.1 ≠ a) :
    memGet (m ++ n) a = memGet n a := by
  induction m with
  | nil => rfl
  | cons c m ih =>
    obtain ⟨k, b⟩ := c
    have hk : a ≠ k := fun e => h (k, b) (by simp) e.symm
    simp [memGet, hk, ih fun c hc => h c (by simp [hc])]

/-- A filter that keeps an address's entries keeps what it reads as. -/
theorem memGet_filter {m : List (Nat × Byte)} {a : Nat} {p : Nat × Byte → Bool} (h : ∀ b, p (a, b) = true) :
    memGet (m.filter p) a = memGet m a := by
  induction m with
  | nil => rfl
  | cons c m ih =>
    obtain ⟨k, b⟩ := c
    by_cases hk : a = k
    · subst hk; simp [h, memGet]
    · by_cases hp : p (k, b) <;> simp [hp, memGet, hk, ih]

/-- The addresses of written cells. -/
theorem memCells_range {a : Nat} {bs : List Byte} : ∀ c ∈ memCells a bs, a ≤ c.1 ∧ c.1 < a + bs.length := by
  induction bs generalizing a with
  | nil => intro c hc; simp [memCells] at hc
  | cons b bs ih =>
    intro c hc
    have key : c = (a, b) ∨ c ∈ memCells (a + 1) bs := by
      simp only [memCells] at hc
      split at hc
      · exact .inr hc
      · simpa using hc
    rcases key with rfl | h
    · simp
    · have := ih c h; simp only [List.length_cons]; omega

/-- What written cells read as. -/
theorem memGet_memCells {a k : Nat} {bs : List Byte} (h : a ≤ k) (h' : k < a + bs.length) :
    memGet (memCells a bs) k = bs.getD (k - a) memDefault := by
  induction bs generalizing a with
  | nil => simp at h'; omega
  | cons b bs ih =>
    by_cases e : k = a
    · subst e
      simp only [memCells]
      split
      · next hb =>
        rw [memGet_absent]
        · simp [hb]
        · intro c hc; have := memCells_range c hc; omega
      · simp [memGet]
    · have h1 : a + 1 ≤ k := by omega
      have h2 : k < a + 1 + bs.length := by simp only [List.length_cons] at h'; omega
      have h3 : k - a = (k - (a + 1)) + 1 := by omega
      simp only [memCells]
      split
      · rw [ih h1 h2, h3]; simp
      · simp [memGet, e, ih h1 h2, h3]

/-- A read after a write: the written bytes in the range, what it held elsewhere. -/
theorem memGet_memWrite (m : List (Nat × Byte)) (a : Nat) (bs : List Byte) (k : Nat) :
    memGet (memWrite m a bs) k = if a ≤ k ∧ k < a + bs.length then bs.getD (k - a) memDefault else memGet m k := by
  unfold memWrite
  by_cases h1 : k < a
  · rw [memGet_append_left, memGet_append_left, memGet_filter]
    · simp [Nat.not_le.mpr h1]
    · simp [h1]
    · intro c hc; have := memCells_range c hc; omega
    · intro c hc; simp only [List.mem_filter, decide_eq_true_eq] at hc; omega
  · by_cases h2 : k < a + bs.length
    · rw [memGet_append_left, memGet_append_right, memGet_memCells (by omega) h2]
      · simp [Nat.not_lt.mp h1, h2]
      · intro c hc; simp only [List.mem_filter, decide_eq_true_eq] at hc; omega
      · intro c hc; simp only [List.mem_filter, decide_eq_true_eq] at hc; omega
    · rw [memGet_append_right, memGet_filter]
      · simp [h2]
      · simp [Nat.not_lt.mp h2]
      · intro c hc
        rcases List.mem_append.mp hc with hc | hc
        · simp only [List.mem_filter, decide_eq_true_eq] at hc; omega
        · have := memCells_range c hc; omega

/-- A write leaves every other byte alone. -/
theorem memGet_memWrite_outside (m : List (Nat × Byte)) (a : Nat) (bs : List Byte) (k : Nat)
    (h : k < a ∨ a + bs.length ≤ k) : memGet (memWrite m a bs) k = memGet m k := by
  rw [memGet_memWrite, if_neg (by omega)]

/-- A byte of a range read. -/
theorem memRead_getElem (m : List (Nat × Byte)) (a n i : Nat) (h : i < n) :
    (memRead m a n).getD i memDefault = memGet m (a + i) := by
  simp [memRead, h]
  exact memGet_filter (by simp [h])

@[simp] theorem memRead_length (m : List (Nat × Byte)) (a n : Nat) : (memRead m a n).length = n := by
  simp [memRead]

/-- A masked write: masked bytes hold what they held. -/
theorem memGet_memWriteM (m : List (Nat × Byte)) (a : Nat) (bs : List (Option Byte)) (k : Nat) :
    memGet (memWriteM m a bs) k =
      if a ≤ k ∧ k < a + bs.length then (bs.getD (k - a) none).getD (memGet m k) else memGet m k := by
  unfold memWriteM
  split
  · next hall =>
    rw [memGet_memWrite]
    simp only [List.length_map]
    split
    · next hk =>
      have hi : k - a < bs.length := by omega
      have hs : (bs[k - a]).isSome := by
        have := List.all_eq_true.mp hall _ (List.getElem_mem hi); exact this
      obtain ⟨b, hb⟩ := Option.isSome_iff_exists.mp hs
      simp [List.getD_eq_getElem?_getD, hi, hb]
    · rfl
  · rw [memGet_memWrite]
    simp only [List.length_zipWith, memRead_length, Nat.min_self]
    split
    · next hk =>
      have hi : k - a < bs.length := by omega
      have hr := memRead_getElem m a bs.length (k - a) hi
      have e : a + (k - a) = k := by omega
      rw [e] at hr
      simp only [List.getD_eq_getElem?_getD] at hr ⊢
      simp [hi] at hr ⊢
      simp [hr]
    · rfl

/-- A range put back reads as the default, and the rest as before. -/
theorem memGet_memClear (m : List (Nat × Byte)) (a n k : Nat) :
    memGet (memClear m a n) k = if a ≤ k ∧ k < a + n then memDefault else memGet m k := by
  unfold memClear
  split
  · rw [memGet_absent]
    intro c hc
    simp only [List.mem_filter, Bool.or_eq_true, decide_eq_true_eq] at hc
    omega
  · rw [memGet_filter]
    intro b
    simp only [Bool.or_eq_true, decide_eq_true_eq]
    omega

/-- An agent's write changes no byte outside the bytes it writes. -/
theorem put_outside (s : State) (a : Nat) (bs : List (Option Byte)) (k : Nat) (h : k < a ∨ a + bs.length ≤ k) :
    memGet (s.put a bs).mem k = memGet s.mem k := by
  have hl : (s.landing a bs).length = bs.length := by unfold State.landing; split <;> simp
  rw [put_mem, memGet_memWriteM, if_neg (by omega)]

/-! ### The canonical form -/

/-- The canonical form, said of all entries at once. -/
theorem wf_iff (m : List (Nat × Byte)) :
    Memory.wf m = true ↔ m.Pairwise (fun c d => c.1 < d.1) ∧ ∀ c ∈ m, c.2 ≠ memDefault := by
  induction m with
  | nil => simp [Memory.wf]
  | cons c m ih =>
    obtain ⟨k, b⟩ := c
    simp only [Memory.wf, Bool.and_eq_true, bne_iff_ne, List.all_eq_true, decide_eq_true_eq, ih, List.pairwise_cons,
      List.mem_cons, forall_eq_or_imp]
    tauto

theorem wf_filter {m : List (Nat × Byte)} (h : Memory.wf m = true) (p : Nat × Byte → Bool) :
    Memory.wf (m.filter p) = true := by
  rw [wf_iff] at h ⊢
  exact ⟨h.1.filter p, fun c hc => h.2 c (List.mem_filter.mp hc).1⟩

theorem memCells_wf (a : Nat) (bs : List Byte) : Memory.wf (memCells a bs) = true := by
  induction bs generalizing a with
  | nil => rfl
  | cons b bs ih =>
    simp only [memCells]
    split
    · exact ih _
    · next hb =>
      simp only [Memory.wf, Bool.and_eq_true, bne_iff_ne, List.all_eq_true, decide_eq_true_eq]
      refine ⟨⟨hb, fun c hc => ?_⟩, ih _⟩
      have := memCells_range c hc; omega

/-- Memory after a write is in its canonical form. -/
theorem memWrite_wf {m : List (Nat × Byte)} (h : Memory.wf m = true) (a : Nat) (bs : List Byte) :
    Memory.wf (memWrite m a bs) = true := by
  have h1 := (wf_iff _).mp (wf_filter h fun c => decide (c.1 < a))
  have h2 := (wf_iff _).mp (memCells_wf a bs)
  have h3 := (wf_iff _).mp (wf_filter h fun c => decide (a + bs.length ≤ c.1))
  rw [wf_iff, memWrite]
  refine ⟨List.pairwise_append.mpr ⟨List.pairwise_append.mpr ⟨h1.1, h2.1, ?_⟩, h3.1, ?_⟩, ?_⟩
  · intro c hc d hd
    have := memCells_range d hd
    simp only [List.mem_filter, decide_eq_true_eq] at hc; omega
  · intro c hc d hd
    simp only [List.mem_filter, decide_eq_true_eq] at hd
    rcases List.mem_append.mp hc with hc | hc
    · simp only [List.mem_filter, decide_eq_true_eq] at hc; omega
    · have := memCells_range c hc; omega
  · intro c hc
    rcases List.mem_append.mp hc with hc | hc
    · rcases List.mem_append.mp hc with hc | hc
      · exact h1.2 c hc
      · exact h2.2 c hc
    · exact h3.2 c hc

theorem memWriteM_wf {m : List (Nat × Byte)} (h : Memory.wf m = true) (a : Nat) (bs : List (Option Byte)) :
    Memory.wf (memWriteM m a bs) = true := by
  unfold memWriteM; split <;> exact memWrite_wf h _ _

theorem memClear_wf {m : List (Nat × Byte)} (h : Memory.wf m = true) (a n : Nat) : Memory.wf (memClear m a n) = true :=
  wf_filter h _

theorem memSet_mem {m : List (Nat × Byte)} {a : Nat} {b : Byte} : ∀ c ∈ memSet m a b, c = (a, b) ∨ c ∈ m := by
  induction m with
  | nil => intro c hc; simp only [memSet] at hc; split at hc <;> simp_all
  | cons d m ih =>
    obtain ⟨k, e⟩ := d
    intro c hc
    simp only [memSet] at hc
    split at hc
    · split at hc <;> simp_all
    · split at hc
      · split at hc <;> simp_all <;> tauto
      · rcases List.mem_cons.mp hc with rfl | hc
        · simp
        · rcases ih c hc with h | h <;> simp [h]

theorem memSet_wf {m : List (Nat × Byte)} (h : Memory.wf m = true) (a : Nat) (b : Byte) :
    Memory.wf (memSet m a b) = true := by
  induction m with
  | nil => simp only [memSet]; split <;> simp_all [Memory.wf]
  | cons d m ih =>
    obtain ⟨k, e⟩ := d
    have h' := h
    simp only [Memory.wf, Bool.and_eq_true, bne_iff_ne, List.all_eq_true, decide_eq_true_eq] at h
    simp only [memSet]
    split
    · next hk =>
      split
      · exact h'
      · next hb =>
        simp only [Memory.wf, Bool.and_eq_true, bne_iff_ne, List.all_eq_true, decide_eq_true_eq, List.mem_cons]
        refine ⟨⟨hb, fun c hc => ?_⟩, h⟩
        rcases hc with rfl | hc
        · exact hk
        · have := h.1.2 c hc; omega
    · split
      · next _ hk =>
        subst hk
        split
        · exact h.2
        · next hb =>
          simp only [Memory.wf, Bool.and_eq_true, bne_iff_ne, List.all_eq_true, decide_eq_true_eq]
          exact ⟨⟨hb, h.1.2⟩, h.2⟩
      · next h1 h2 =>
        simp only [Memory.wf, Bool.and_eq_true, bne_iff_ne, List.all_eq_true, decide_eq_true_eq]
        refine ⟨⟨h.1.1, fun c hc => ?_⟩, ih h.2⟩
        rcases memSet_mem c hc with rfl | hc
        · simp only; omega
        · exact h.1.2 c hc

theorem foldl_memSet_wf {l m : List (Nat × Byte)} (h : Memory.wf m = true) :
    Memory.wf (l.foldl (fun m c => memSet m c.1 c.2) m) = true := by
  induction l generalizing m with
  | nil => exact h
  | cons c l ih => exact ih (memSet_wf h _ _)

theorem foldl_memClear_wf {α : Type} {f : α → Nat} {n : Nat} {l : List α} {m : List (Nat × Byte)}
    (h : Memory.wf m = true) : Memory.wf (l.foldl (fun m k => memClear m (f k) n) m) = true := by
  induction l generalizing m with
  | nil => exact h
  | cons c l ih => exact ih (memClear_wf h _ _)

/-- An agent's write keeps the canonical form. -/
theorem put_wf {s : State} (h : Memory.wf s.mem = true) (a : Nat) (bs : List (Option Byte)) :
    Memory.wf (s.put a bs).mem = true := memWriteM_wf h _ _

theorem store_wf {s : State} (h : Memory.wf s.mem = true) (a : Nat) (bs : List Byte) :
    Memory.wf (s.store a bs).mem = true := memWrite_wf h _ _

end Sys2Proof.Machine
end

