-- ==== Sys2Proof/Laws/Kept.lean ====
section
/-! SUPPORT. What every operation of the machine keeps: the queue, the assembly fuses, and the canonical form of memory.
`Kept s t` is said once of each operation in the files KeptA to KeptD, and of each command in KeptExec, callers citing callees. -/
namespace Sys2Proof.Machine
open Sys2Proof

/-- From s to t the queue and the fuses are as they were, and memory stays in its canonical form. -/
structure Kept (s t : State) : Prop where
  pending : t.pending = s.pending
  fuses   : t.fuses = s.fuses
  wf      : Memory.wf s.mem = true → Memory.wf t.mem = true

theorem Kept.refl {s : State} : Kept s s := ⟨rfl, rfl, id⟩
theorem Kept.trans {s t u : State} (h : Kept s t) (k : Kept t u) : Kept s u :=
  ⟨k.pending.trans h.pending, k.fuses.trans h.fuses, fun w => k.wf (h.wf w)⟩
theorem Kept.pair {α : Type} {s t : State} {p : State × α} {r : α} (k : Kept s p.1) (h : p = (t, r)) : Kept s t := by
  subst h; exact k
theorem Kept.ite {s a b : State} {c : Prop} [Decidable c] (ha : Kept s a) (hb : Kept s b) :
    Kept s (if c then a else b) := by split <;> assumption
theorem Kept.iteFst {α : Type} {s : State} {a b : State × α} {c : Prop} [Decidable c] (ha : Kept s a.1)
    (hb : Kept s b.1) : Kept s (if c then a else b).1 := by split <;> assumption
theorem Kept.dite {s : State} {c : Prop} [Decidable c] {a : c → State} {b : ¬c → State} (ha : ∀ h, Kept s (a h))
    (hb : ∀ h, Kept s (b h)) : Kept s (if h : c then a h else b h) := by
  split
  · exact ha _
  · exact hb _
theorem Kept.foldl {α : Type} {s x : State} {f : State → α → State} {l : List α} (h : Kept s x)
    (hf : ∀ a y, Kept a (f a y)) : Kept s (l.foldl f x) := by
  induction l generalizing x with
  | nil => exact h
  | cons a l ih => exact ih (h.trans (hf _ _))

theorem Kept.foldlFst {α β : Type} {s : State} {r : State × β} {f : State × β → α → State × β} {l : List α}
    (h : Kept s r.1) (hf : ∀ r y, Kept r.1 (f r y).1) : Kept s (l.foldl f r).1 := by
  induction l generalizing r with
  | nil => exact h
  | cons a l ih => exact ih (h.trans (hf _ _))

/-- An update of other fields. -/
theorem Kept.fields {s x : State} {f1 f2 f3 f4 f5 f6 f7 f8 f9 f10 f11 f12 f13 f14 f15 f16 f17 f18 f19 f20 f21 f23 f24 f25 f26 f27 f28 
      f29 f30 f31 f32 f33 f34 f35 f36 f37 f38 f39 f40 f41 f42 f43 f44 f45 f46 f47 f48 f49 f50 f51 f52} (h : Kept s x) :
    Kept s (State.mk x.fuses f1 f2 f3 f4 f5 f6 f7 f8 f9 f10 f11 f12 f13 f14 f15 f16 f17 f18 f19 f20 f21 x.mem f23 f24 f25 
      f26 f27 f28 f29 f30 f31 f32 f33 f34 f35 f36 f37 f38 f39 f40 f41 f42 f43 f44 f45 f46 f47 f48 f49 f50 
      f51 f52 x.pending) := ⟨h.pending, h.fuses, h.wf⟩
theorem Kept.fields_iff {s x : State} {f1 f2 f3 f4 f5 f6 f7 f8 f9 f10 f11 f12 f13 f14 f15 f16 f17 f18 f19 f20 f21 f23 f24 f25 f26 f27 f28 
      f29 f30 f31 f32 f33 f34 f35 f36 f37 f38 f39 f40 f41 f42 f43 f44 f45 f46 f47 f48 f49 f50 f51 f52} :
    Kept s (State.mk x.fuses f1 f2 f3 f4 f5 f6 f7 f8 f9 f10 f11 f12 f13 f14 f15 f16 f17 f18 f19 f20 f21 x.mem f23 f24 f25 
      f26 f27 f28 f29 f30 f31 f32 f33 f34 f35 f36 f37 f38 f39 f40 f41 f42 f43 f44 f45 f46 f47 f48 f49 f50 
      f51 f52 x.pending) ↔ Kept s x :=
  ⟨fun h => ⟨h.pending, h.fuses, h.wf⟩, fun h => h.fields⟩
/-- An update of memory and other fields. -/
theorem Kept.memory {s x : State} {f1 f2 f3 f4 f5 f6 f7 f8 f9 f10 f11 f12 f13 f14 f15 f16 f17 f18 f19 f20 f21 f23 f24 f25 f26 f27 f28 
      f29 f30 f31 f32 f33 f34 f35 f36 f37 f38 f39 f40 f41 f42 f43 f44 f45 f46 f47 f48 f49 f50 f51 f52 m} (h : Kept s x) (hm : Memory.wf x.mem = true → Memory.wf m = true) :
    Kept s (State.mk x.fuses f1 f2 f3 f4 f5 f6 f7 f8 f9 f10 f11 f12 f13 f14 f15 f16 f17 f18 f19 f20 f21 m f23 f24 f25 f26 
      f27 f28 f29 f30 f31 f32 f33 f34 f35 f36 f37 f38 f39 f40 f41 f42 f43 f44 f45 f46 f47 f48 f49 f50 f51 
      f52 x.pending) := ⟨h.pending, h.fuses, fun w => hm (h.wf w)⟩

end Sys2Proof.Machine
end

