-- ==== Sys2Proof/Laws/KeptA.lean ====
section
/-! SUPPORT. What is kept (Laws/Kept) by the shared operations, rings, windows, registers, holds and power. -/
namespace Sys2Proof.Machine
open Sys2Proof

theorem State.modPort_kept : ∀ {u s a1 a2}, Kept u s → Kept u (State.modPort s a1 a2) := by
  intros; refine Kept.trans (by assumption) ?_; unfold State.modPort; try dsimp only
  repeat' first
    | simp only [Kept.fields_iff]
    | with_reducible apply Kept.refl

theorem State.modStack_kept : ∀ {u s a1 a2}, Kept u s → Kept u (State.modStack s a1 a2) := by
  intros; refine Kept.trans (by assumption) ?_; unfold State.modStack; try dsimp only
  repeat' first
    | simp only [Kept.fields_iff]
    | with_reducible apply Kept.refl

theorem State.modSq_kept : ∀ {u s a1 a2}, Kept u s → Kept u (State.modSq s a1 a2) := by
  intros; refine Kept.trans (by assumption) ?_; unfold State.modSq; try dsimp only
  repeat' first
    | simp only [Kept.fields_iff]
    | with_reducible apply Kept.refl

theorem State.modCq_kept : ∀ {u s a1 a2}, Kept u s → Kept u (State.modCq s a1 a2) := by
  intros; refine Kept.trans (by assumption) ?_; unfold State.modCq; try dsimp only
  repeat' first
    | simp only [Kept.fields_iff]
    | with_reducible apply Kept.refl

theorem State.modFn_kept : ∀ {u s a1 a2}, Kept u s → Kept u (State.modFn s a1 a2) := by
  intros; refine Kept.trans (by assumption) ?_; unfold State.modFn; try dsimp only
  repeat' first
    | simp only [Kept.fields_iff]
    | with_reducible apply Kept.refl

theorem State.modSw_kept : ∀ {u s a1 a2}, Kept u s → Kept u (State.modSw s a1 a2) := by
  intros; refine Kept.trans (by assumption) ?_; unfold State.modSw; try dsimp only
  repeat' first
    | simp only [Kept.fields_iff]
    | with_reducible apply Kept.refl

theorem State.modSkein_kept : ∀ {u s a1 a2}, Kept u s → Kept u (State.modSkein s a1 a2) := by
  intros; refine Kept.trans (by assumption) ?_; unfold State.modSkein; try dsimp only
  repeat' first
    | simp only [Kept.fields_iff]
    | with_reducible apply Kept.refl

theorem State.modNeedle_kept : ∀ {u s a1 a2}, Kept u s → Kept u (State.modNeedle s a1 a2) := by
  intros; refine Kept.trans (by assumption) ?_; unfold State.modNeedle; try dsimp only
  repeat' first
    | simp only [Kept.fields_iff]
    | with_reducible apply Kept.refl

theorem State.modDst_kept : ∀ {u s a1 a2}, Kept u s → Kept u (State.modDst s a1 a2) := by
  intros; refine Kept.trans (by assumption) ?_; unfold State.modDst; try dsimp only
  repeat' first
    | simp only [Kept.fields_iff]
    | with_reducible apply Kept.refl

theorem State.modBob_kept : ∀ {u s a1 a2}, Kept u s → Kept u (State.modBob s a1 a2) := by
  intros; refine Kept.trans (by assumption) ?_; unfold State.modBob; try dsimp only
  repeat' first
    | simp only [Kept.fields_iff]
    | with_reducible apply Kept.refl

theorem State.modPin_kept : ∀ {u s a1 a2}, Kept u s → Kept u (State.modPin s a1 a2) := by
  intros; refine Kept.trans (by assumption) ?_; unfold State.modPin; try dsimp only
  repeat' first
    | simp only [Kept.fields_iff]
    | with_reducible apply Kept.refl

theorem State.modEdgeCarder_kept : ∀ {u s a1 a2}, Kept u s → Kept u (State.modEdgeCarder s a1 a2) := by
  intros; refine Kept.trans (by assumption) ?_; unfold State.modEdgeCarder; try dsimp only
  repeat' first
    | simp only [Kept.fields_iff]
    | with_reducible apply Kept.refl

theorem State.modSelv_kept : ∀ {u s a1}, Kept u s → Kept u (State.modSelv s a1) := by
  intros; refine Kept.trans (by assumption) ?_; unfold State.modSelv; try dsimp only
  repeat' first
    | simp only [Kept.fields_iff]
    | with_reducible apply Kept.refl

theorem State.modBoot_kept : ∀ {u s a1}, Kept u s → Kept u (State.modBoot s a1) := by
  intros; refine Kept.trans (by assumption) ?_; unfold State.modBoot; try dsimp only
  repeat' first
    | simp only [Kept.fields_iff]
    | with_reducible apply Kept.refl

theorem State.modTick_kept : ∀ {u s a1}, Kept u s → Kept u (State.modTick s a1) := by
  intros; refine Kept.trans (by assumption) ?_; unfold State.modTick; try dsimp only
  repeat' first
    | simp only [Kept.fields_iff]
    | with_reducible apply Kept.refl

theorem State.modChain_kept : ∀ {u s a1}, Kept u s → Kept u (State.modChain s a1) := by
  intros; refine Kept.trans (by assumption) ?_; unfold State.modChain; try dsimp only
  repeat' first
    | simp only [Kept.fields_iff]
    | with_reducible apply Kept.refl

theorem State.modInner_kept : ∀ {u s a1}, Kept u s → Kept u (State.modInner s a1) := by
  intros; refine Kept.trans (by assumption) ?_; unfold State.modInner; try dsimp only
  repeat' first
    | simp only [Kept.fields_iff]
    | with_reducible apply Kept.refl

theorem State.modTally_kept : ∀ {u s a1}, Kept u s → Kept u (State.modTally s a1) := by
  intros; refine Kept.trans (by assumption) ?_; unfold State.modTally; try dsimp only
  repeat' first
    | simp only [Kept.fields_iff]
    | with_reducible apply Kept.refl

theorem State.modRep_kept : ∀ {u s a1}, Kept u s → Kept u (State.modRep s a1) := by
  intros; refine Kept.trans (by assumption) ?_; unfold State.modRep; try dsimp only
  repeat' first
    | simp only [Kept.fields_iff]
    | with_reducible apply Kept.refl

theorem State.modIo_kept : ∀ {u s a1}, Kept u s → Kept u (State.modIo s a1) := by
  intros; refine Kept.trans (by assumption) ?_; unfold State.modIo; try dsimp only
  repeat' first
    | simp only [Kept.fields_iff]
    | with_reducible apply Kept.refl

theorem State.modJtag_kept : ∀ {u s a1}, Kept u s → Kept u (State.modJtag s a1) := by
  intros; refine Kept.trans (by assumption) ?_; unfold State.modJtag; try dsimp only
  repeat' first
    | simp only [Kept.fields_iff]
    | with_reducible apply Kept.refl

theorem State.emit_kept : ∀ {u s a1}, Kept u s → Kept u (State.emit s a1) := by
  intros; refine Kept.trans (by assumption) ?_; unfold State.emit; try dsimp only
  repeat' first
    | simp only [Kept.fields_iff]
    | with_reducible apply Kept.refl

theorem State.emits_kept : ∀ {u s a1}, Kept u s → Kept u (State.emits s a1) := by
  intros; refine Kept.trans (by assumption) ?_; unfold State.emits; try dsimp only
  repeat' first
    | simp only [Kept.fields_iff]
    | with_reducible apply Kept.refl

theorem State.store_kept {u s a bs} (k : Kept u s) : Kept u (State.store s a bs) := k.trans ⟨rfl, rfl, fun h => store_wf h a bs⟩

theorem State.put_kept {u s a bs} (k : Kept u s) : Kept u (State.put s a bs) := k.trans ⟨rfl, rfl, fun h => put_wf h a bs⟩

theorem State.useFree_kept : ∀ {u s}, Kept u s → Kept u (State.useFree s) := by
  intros; refine Kept.trans (by assumption) ?_; unfold State.useFree; try dsimp only
  repeat' first
    | simp only [Kept.fields_iff]
    | with_reducible apply Kept.refl

theorem State.badAcc_kept : ∀ {u s}, Kept u s → Kept u (State.badAcc s) := by
  intros; refine Kept.trans (by assumption) ?_; unfold State.badAcc; try dsimp only
  repeat' first
    | with_reducible apply Kept.refl
    | with_reducible apply State.modSelv_kept

theorem State.selvFault_kept : ∀ {u s a1}, Kept u s → Kept u (State.selvFault s a1) := by
  intros; refine Kept.trans (by assumption) ?_; unfold State.selvFault; try dsimp only
  repeat' first
    | with_reducible apply Kept.refl
    | with_reducible apply State.modSelv_kept

theorem State.swStatus_kept : ∀ {u s a1 a2}, Kept u s → Kept u (State.swStatus s a1 a2) := by
  intros; refine Kept.trans (by assumption) ?_; unfold State.swStatus; try dsimp only
  repeat' first
    | with_reducible apply Kept.refl
    | with_reducible apply State.modSw_kept

theorem State.pumpPort_kept : ∀ {u s a1}, Kept u s → Kept u (State.pumpPort s a1) := by
  intros; refine Kept.trans (by assumption) ?_; unfold State.pumpPort; try dsimp only
  repeat' first
    | with_reducible apply Kept.refl
    | with_reducible apply State.emits_kept
    | with_reducible apply State.modPort_kept
    | with_reducible apply Kept.ite

theorem State.transmit_kept : ∀ {u s a1}, Kept u s → Kept u (State.transmit s a1) := by
  intros; refine Kept.trans (by assumption) ?_; unfold State.transmit; try dsimp only
  repeat' first
    | with_reducible apply Kept.refl
    | with_reducible apply State.pumpPort_kept
    | with_reducible apply State.modPort_kept
    | with_reducible apply Kept.ite

theorem State.sendMsg_kept : ∀ {u s a1 a2 a3}, Kept u s → Kept u (State.sendMsg s a1 a2 a3) := by
  intros; refine Kept.trans (by assumption) ?_; unfold State.sendMsg; try dsimp only
  repeat' first
    | with_reducible apply Kept.refl
    | with_reducible apply State.transmit_kept

theorem State.modCoresOf_kept : ∀ {u s a1 a2}, Kept u s → Kept u (State.modCoresOf s a1 a2) := by
  intros; refine Kept.trans (by assumption) ?_; unfold State.modCoresOf; try dsimp only
  repeat' first
    | simp only [Kept.fields_iff]
    | with_reducible apply Kept.refl
    | intro _
    | with_reducible apply Kept.ite
    | with_reducible apply Kept.iteFst
    | split

theorem State.modNeedlesOf_kept : ∀ {u s a1 a2}, Kept u s → Kept u (State.modNeedlesOf s a1 a2) := by
  intros; refine Kept.trans (by assumption) ?_; unfold State.modNeedlesOf; try dsimp only
  repeat' first
    | simp only [Kept.fields_iff]
    | with_reducible apply Kept.refl

theorem State.modSkeinsOf_kept : ∀ {u s a1 a2}, Kept u s → Kept u (State.modSkeinsOf s a1 a2) := by
  intros; refine Kept.trans (by assumption) ?_; unfold State.modSkeinsOf; try dsimp only
  repeat' first
    | simp only [Kept.fields_iff]
    | with_reducible apply Kept.refl

theorem State.setPages_kept : ∀ {u s a1 a2 a3}, Kept u s → Kept u (State.setPages s a1 a2 a3) := by
  intros; refine Kept.trans (by assumption) ?_; unfold State.setPages; try dsimp only
  repeat' first
    | simp only [Kept.fields_iff]
    | with_reducible apply Kept.refl

theorem State.takeFirmware_keeps {u s count sw b t} (h : State.takeFirmware s count sw = some (b, t)) (k : Kept u s) :
    Kept u t := by
  unfold State.takeFirmware at h
  obtain ⟨r, -, hr⟩ := Option.map_eq_some_iff.mp h
  injection hr with _ h2; subst h2
  exact Kept.fields k
theorem State.takeFirmware_getD_kept {u s count sw b} (k : Kept u s) :
    Kept u ((State.takeFirmware s count sw).getD (b, s)).2 := by
  cases h : State.takeFirmware s count sw with
  | none => exact k
  | some r => exact State.takeFirmware_keeps (b := r.1) (t := r.2) h k
theorem State.takeFirmware_if_keeps {c : Prop} [Decidable c] {u s count sw} {g : Nat × State}
    (h : (if c then none else State.takeFirmware s count sw) = some g) (k : Kept u s) : Kept u g.2 := by
  split at h
  · cases h
  · exact State.takeFirmware_keeps (b := g.1) (t := g.2) h k

theorem State.freeRange_kept {u s base count} (k : Kept u s) : Kept u (State.freeRange s base count) := by
  unfold State.freeRange; dsimp only
  refine Kept.foldl (Kept.memory k fun h => memClear_wf h _ _) fun a y => ?_
  with_reducible refine Kept.fields Kept.refl

theorem State.replayTiles_kept : ∀ {u s a1}, Kept u s → Kept u (State.replayTiles s a1) := by
  intros; refine Kept.trans (by assumption) ?_; unfold State.replayTiles; try dsimp only
  repeat' first
    | simp only [Kept.fields_iff]
    | with_reducible apply Kept.refl

theorem State.enqueue_kept : ∀ {u s a1}, Kept u s → Kept u (State.enqueue s a1) := by
  intros; refine Kept.trans (by assumption) ?_; unfold State.enqueue; try dsimp only
  repeat' first
    | simp only [Kept.fields_iff]
    | with_reducible apply Kept.refl
    | with_reducible apply Kept.ite
    | with_reducible apply Kept.iteFst
    | split

theorem State.noteWait_kept : ∀ {u s a1}, Kept u s → Kept u (State.noteWait s a1) := by
  intros; refine Kept.trans (by assumption) ?_; unfold State.noteWait; try dsimp only
  repeat' first
    | simp only [Kept.fields_iff]
    | with_reducible apply Kept.refl
    | with_reducible apply State.useFree_kept
    | with_reducible apply Kept.ite
    | with_reducible apply Kept.iteFst
    | split

theorem State.injectNow_kept : ∀ {u s a1 a2}, Kept u s → Kept u (State.injectNow s a1 a2) := by
  intros; refine Kept.trans (by assumption) ?_; unfold State.injectNow; try dsimp only
  repeat' first
    | simp only [Kept.fields_iff]
    | with_reducible apply Kept.refl
    | intro _
    | with_reducible apply State.noteWait_kept
    | with_reducible apply State.modPort_kept
    | with_reducible apply State.transmit_kept
    | with_reducible apply Kept.ite
    | with_reducible apply Kept.iteFst
    | split

theorem State.injectAll_kept : ∀ {u s a1}, Kept u s → Kept u (State.injectAll s a1) := by
  intro u s n
  induction n generalizing s with
  | zero => exact id
  | succ n ih =>
    intro h; unfold State.injectAll; split
    · exact ih (State.injectNow_kept h)
    · exact h

theorem State.inject_kept : ∀ {u s}, Kept u s → Kept u (State.inject s) := by
  intros; refine Kept.trans (by assumption) ?_; unfold State.inject; try dsimp only
  repeat' first
    | with_reducible apply Kept.refl
    | with_reducible apply State.injectAll_kept
    | with_reducible apply Kept.ite
    | with_reducible apply Kept.iteFst
    | split

theorem State.flow_kept : ∀ {u s a1}, Kept u s → Kept u (State.flow s a1) := by
  intros; refine Kept.trans (by assumption) ?_; unfold State.flow; try dsimp only
  repeat' first
    | with_reducible apply Kept.refl
    | with_reducible apply State.pumpPort_kept
    | with_reducible apply State.inject_kept

theorem State.sendAccess_kept : ∀ {u s a1 a2 a3 a4 a5 a6 a7 a8 a9}, Kept u s → Kept u (State.sendAccess s a1 a2 a3 a4 a5 a6 a7 a8 a9) := by
  intros; refine Kept.trans (by assumption) ?_; unfold State.sendAccess; try dsimp only
  repeat' first
    | intro _
    | simp only [Kept.fields_iff]
    | with_reducible apply Kept.refl
    | with_reducible apply State.transmit_kept
    | with_reducible apply State.modPort_kept
    | with_reducible apply State.enqueue_kept
    | with_reducible apply State.inject_kept
    | with_reducible apply Kept.ite
    | split

theorem State.signalVector_kept : ∀ {u s a1}, Kept u s → Kept u (State.signalVector s a1) := by
  intros; refine Kept.trans (by assumption) ?_; unfold State.signalVector; try dsimp only
  repeat' first
    | with_reducible apply Kept.refl
    | intro _
    | with_reducible apply State.modFn_kept
    | with_reducible apply State.sendMsg_kept
    | with_reducible apply State.emit_kept
    | with_reducible apply Kept.foldl
    | split

theorem State.raiseLine_kept : ∀ {u s a1 a2}, Kept u s → Kept u (State.raiseLine s a1 a2) := by
  intros; refine Kept.trans (by assumption) ?_; unfold State.raiseLine; try dsimp only
  repeat' first
    | with_reducible apply Kept.refl
    | with_reducible apply State.modDst_kept
    | split

theorem State.cqSignal_kept : ∀ {u s a1}, Kept u s → Kept u (State.cqSignal s a1) := by
  intros; refine Kept.trans (by assumption) ?_; unfold State.cqSignal; try dsimp only
  repeat' first
    | intro _
    | with_reducible apply Kept.refl
    | with_reducible apply State.modCq_kept
    | with_reducible apply State.raiseLine_kept
    | with_reducible apply State.signalVector_kept
    | with_reducible apply State.emit_kept
    | with_reducible apply Kept.ite

theorem State.ringStore_kept : ∀ {u s a1 a2 a3 a4}, Kept u s → Kept u (State.ringStore s a1 a2 a3 a4) := by
  intros; refine Kept.trans (by assumption) ?_; unfold State.ringStore; try dsimp only
  repeat' first
    | with_reducible apply Kept.refl
    | with_reducible apply State.sendAccess_kept
    | with_reducible apply State.store_kept
    | with_reducible apply Kept.ite
    | with_reducible apply Kept.iteFst
    | split

theorem State.postNow_kept : ∀ {u s a1 a2}, Kept u s → Kept u (State.postNow s a1 a2) := by
  intros; refine Kept.trans (by assumption) ?_; unfold State.postNow; try dsimp only
  repeat' first
    | intro _
    | with_reducible apply Kept.refl
    | with_reducible apply State.store_kept
    | with_reducible apply State.modCq_kept
    | with_reducible apply State.cqSignal_kept
    | with_reducible apply State.ringStore_kept
    | with_reducible apply Kept.ite

theorem State.post_kept : ∀ {u s a1 a2}, Kept u s → Kept u (State.post s a1 a2) := by
  intros; refine Kept.trans (by assumption) ?_; unfold State.post; try dsimp only
  repeat' first
    | with_reducible apply Kept.refl
    | with_reducible apply State.postNow_kept
    | with_reducible apply State.modCq_kept
    | with_reducible apply Kept.ite

theorem State.flushHeld_kept {u s j k} (h : Kept u s) : Kept u (State.flushHeld s j k) := by
  induction k generalizing s with
  | zero => exact h
  | succ k ih =>
    unfold State.flushHeld
    split
    · exact Kept.ite (ih (State.postNow_kept (State.modCq_kept h))) h
    · exact h

theorem State.flushEvents_kept {u s f k} (h : Kept u s) : Kept u (State.flushEvents s f k) := by
  induction k generalizing s with
  | zero => exact h
  | succ k ih =>
    unfold State.flushEvents; dsimp only
    split
    · exact Kept.ite (ih (State.postNow_kept (State.modFn_kept h))) h
    · exact h

theorem State.eventTo_kept : ∀ {u s a1 a2}, Kept u s → Kept u (State.eventTo s a1 a2) := by
  intros; refine Kept.trans (by assumption) ?_; unfold State.eventTo; try dsimp only
  repeat' first
    | with_reducible apply Kept.refl
    | with_reducible apply State.modFn_kept
    | with_reducible apply State.flushEvents_kept
    | with_reducible apply Kept.ite

theorem State.relayMsg_kept : ∀ {u s a1 a2}, Kept u s → Kept u (State.relayMsg s a1 a2) := by
  intros; refine Kept.trans (by assumption) ?_; unfold State.relayMsg; try dsimp only
  repeat' first
    | with_reducible apply Kept.refl
    | with_reducible apply State.sendMsg_kept
    | split

theorem State.event_kept : ∀ {u s a1 a2 a3 a4}, Kept u s → Kept u (State.event s a1 a2 a3 a4) := by
  intros; refine Kept.trans (by assumption) ?_; unfold State.event; try dsimp only
  repeat' first
    | with_reducible apply Kept.refl
    | intro _
    | with_reducible apply State.relayMsg_kept
    | with_reducible apply State.eventTo_kept
    | with_reducible apply Kept.ite
    | with_reducible apply Kept.foldl

theorem State.eventN_kept : ∀ {u s a1 a2 a3 a4 a5}, Kept u s → Kept u (State.eventN s a1 a2 a3 a4 a5) := by
  intros; refine Kept.trans (by assumption) ?_; unfold State.eventN; try dsimp only
  repeat' first
    | with_reducible apply Kept.refl
    | intro _
    | with_reducible apply State.relayMsg_kept
    | with_reducible apply State.eventTo_kept
    | with_reducible apply Kept.ite
    | with_reducible apply Kept.foldl

theorem State.finish_kept : ∀ {u s a1 a2}, Kept u s → Kept u (State.finish s a1 a2) := by
  intros; refine Kept.trans (by assumption) ?_; unfold State.finish; try dsimp only
  repeat' first
    | simp only [Kept.fields_iff]
    | with_reducible apply Kept.refl
    | with_reducible apply State.relayMsg_kept
    | with_reducible apply State.post_kept
    | with_reducible apply State.modSq_kept
    | with_reducible apply Kept.ite

theorem State.reply_kept : ∀ {u s a1 a2 a3 a4 a5 a6}, Kept u s → Kept u (State.reply s a1 a2 a3 a4 a5 a6) := by
  intros; refine Kept.trans (by assumption) ?_; unfold State.reply; try dsimp only
  repeat' first
    | with_reducible apply Kept.refl
    | with_reducible apply State.finish_kept

theorem State.ok_kept : ∀ {u s a1 a2}, Kept u s → Kept u (State.ok s a1 a2) := by
  intros; refine Kept.trans (by assumption) ?_; unfold State.ok; try dsimp only
  repeat' first
    | with_reducible apply Kept.refl
    | with_reducible apply State.reply_kept

theorem State.inFlight_kept : ∀ {u s a1 a2 a3}, Kept u s → Kept u (State.inFlight s a1 a2 a3) := by
  intros; refine Kept.trans (by assumption) ?_; unfold State.inFlight; try dsimp only
  repeat' first
    | simp only [Kept.fields_iff]
    | with_reducible apply Kept.refl

theorem State.takeEntry_keeps {u s t : State} {e : Entry} (h : State.takeEntry s e = some t) (k : Kept u s) : Kept u t := by
  unfold State.takeEntry at h
  split at h
  · split at h
    · injection h with h; subst h; exact Kept.fields k
    · cases h
  · cases h

theorem State.noteFence_kept : ∀ {u s a1}, Kept u s → Kept u (State.noteFence s a1) := by
  intros; refine Kept.trans (by assumption) ?_; unfold State.noteFence; try dsimp only
  repeat' first
    | simp only [Kept.fields_iff]
    | with_reducible apply Kept.refl
    | intro _
    | with_reducible apply State.modSq_kept
    | with_reducible apply Kept.ite
    | with_reducible apply Kept.iteFst
    | split

theorem Cmd.run_kept {c : Cmd} {u n r e s} (k : Kept u s) (hc : ∀ {r e t}, Kept t (c.act r e t)) :
    Kept u (c.run n r e s) := by
  unfold Cmd.run
  split
  · exact State.reply_kept k
  · exact k.trans hc

theorem State.relay_kept : ∀ {u s a1 a2}, Kept u s → Kept u (State.relay s a1 a2) := by
  intros; refine Kept.trans (by assumption) ?_; unfold State.relay; try dsimp only
  repeat' first
    | with_reducible apply Kept.refl
    | with_reducible apply State.relayMsg_kept
    | with_reducible apply State.inFlight_kept

theorem Cmd.dispatch_kept {c : Cmd} {u e s} (k : Kept u s) (hc : ∀ {r e t}, Kept t (c.act r e t)) :
    Kept u (c.dispatch e s) := by
  unfold Cmd.dispatch; dsimp only
  split
  · exact State.noteFence_kept k
  · next t h =>
    refine k.trans ((State.takeEntry_keeps h Kept.refl).trans ?_)
    exact Kept.ite (State.relay_kept Kept.refl) (Cmd.run_kept Kept.refl hc)

theorem State.draftWrite_kept : ∀ {u s a1 a2 a3}, Kept u s → Kept u (State.draftWrite s a1 a2 a3).1 := by
  intros; unfold State.draftWrite
  dsimp only
  split
  · assumption
  · split
    · assumption
    · split
      · exact State.modSw_kept (by assumption)
      · split
        · assumption
        · with_reducible apply Kept.iteFst
          · assumption
          · dsimp only; exact State.modSw_kept (State.put_kept (by assumption))
theorem State.draftWrite_keeps : ∀ {u s a1 a2 a3 r t}, State.draftWrite s a1 a2 a3 = (t, r) → Kept u s → Kept u t := by
  intros; rename_i h k; exact k.trans (Kept.pair (State.draftWrite_kept Kept.refl) h)

theorem State.spoolCheck_kept : ∀ {u s a1 a2 a3 a4 a5}, Kept u s → Kept u (State.spoolCheck s a1 a2 a3 a4 a5).1 := by
  intros; refine Kept.trans (by assumption) ?_; unfold State.spoolCheck; try dsimp only
  repeat' first
    | with_reducible apply Kept.refl
    | with_reducible apply State.draftWrite_kept
    | with_reducible apply State.ok_kept
    | with_reducible apply Kept.iteFst
    | split
theorem State.spoolCheck_keeps : ∀ {u s a1 a2 a3 a4 a5 r t}, State.spoolCheck s a1 a2 a3 a4 a5 = (t, r) → Kept u s → Kept u t := by
  intros; rename_i h k; exact k.trans (Kept.pair (State.spoolCheck_kept Kept.refl) h)

theorem State.copyRow_kept : ∀ {u s a1 a2}, Kept u s → Kept u (State.copyRow s a1 a2) := by
  intros; refine Kept.trans (by assumption) ?_; unfold State.copyRow; try dsimp only
  repeat' first
    | simp only [Kept.fields_iff]
    | with_reducible apply Kept.refl
    | intro _
    | with_reducible apply State.put_kept
    | with_reducible apply Kept.ite
    | with_reducible apply Kept.iteFst
    | with_reducible apply Kept.foldl
    | split

theorem State.modCarder_kept : ∀ {u s a1 a2 a3}, Kept u s → Kept u (State.modCarder s a1 a2 a3) := by
  intros; refine Kept.trans (by assumption) ?_; unfold State.modCarder; try dsimp only
  repeat' first
    | with_reducible apply Kept.refl
    | with_reducible apply State.modSkein_kept

theorem State.modMover_kept : ∀ {u s a1 a2 a3}, Kept u s → Kept u (State.modMover s a1 a2 a3) := by
  intros; refine Kept.trans (by assumption) ?_; unfold State.modMover; try dsimp only
  repeat' first
    | with_reducible apply Kept.refl
    | with_reducible apply State.modSkein_kept

theorem State.modMesh_kept : ∀ {u s a1 a2}, Kept u s → Kept u (State.modMesh s a1 a2) := by
  intros; refine Kept.trans (by assumption) ?_; unfold State.modMesh; try dsimp only
  repeat' first
    | with_reducible apply Kept.refl
    | with_reducible apply State.modSkein_kept

theorem State.modStch_kept : ∀ {u s a1 a2}, Kept u s → Kept u (State.modStch s a1 a2) := by
  intros; refine Kept.trans (by assumption) ?_; unfold State.modStch; try dsimp only
  repeat' first
    | with_reducible apply Kept.refl
    | with_reducible apply State.modSkein_kept

theorem State.blkClear_kept : ∀ {u s a1 a2}, Kept u s → Kept u (State.blkClear s a1 a2) := by
  intros; refine Kept.trans (by assumption) ?_; unfold State.blkClear; try dsimp only
  repeat' first
    | simp only [Kept.fields_iff]
    | with_reducible apply Kept.refl
    | with_reducible apply State.modSelv_kept
    | with_reducible apply State.modFn_kept
    | with_reducible apply State.modRep_kept
    | with_reducible apply State.modInner_kept
    | with_reducible apply State.modMesh_kept
    | with_reducible apply State.modStch_kept
    | with_reducible apply State.modSkein_kept
    | with_reducible apply State.modPort_kept
    | with_reducible apply State.modStack_kept
    | with_reducible apply State.modIo_kept
    | split

theorem State.writePin_kept : ∀ {u s a1 a2}, Kept u s → Kept u (State.writePin s a1 a2) := by
  intros; refine Kept.trans (by assumption) ?_; unfold State.writePin; try dsimp only
  repeat' first
    | with_reducible apply Kept.refl
    | with_reducible apply State.modPin_kept
    | with_reducible apply Kept.ite

theorem State.blkPoke_kept : ∀ {u s a1 a2 a3}, Kept u s → Kept u (State.blkPoke s a1 a2 a3) := by
  intros; refine Kept.trans (by assumption) ?_; unfold State.blkPoke; try dsimp only
  repeat' first
    | intro _
    | with_reducible apply Kept.refl
    | with_reducible apply State.modMesh_kept
    | with_reducible apply State.modNeedle_kept
    | with_reducible apply State.modCarder_kept
    | with_reducible apply State.modEdgeCarder_kept
    | with_reducible apply State.modPort_kept
    | with_reducible apply State.modStack_kept
    | with_reducible apply State.modDst_kept
    | with_reducible apply State.modBob_kept
    | with_reducible apply State.modIo_kept
    | with_reducible apply State.modPin_kept
    | with_reducible apply State.modChain_kept
    | with_reducible apply State.put_kept
    | with_reducible apply State.writePin_kept
    | split
    | with_reducible apply Kept.ite

theorem State.noteLost_kept : ∀ {u s}, Kept u s → Kept u (State.noteLost s) := by
  intros; refine Kept.trans (by assumption) ?_; unfold State.noteLost; try dsimp only
  repeat' first
    | simp only [Kept.fields_iff]
    | with_reducible apply Kept.refl
    | intro _
    | with_reducible apply State.modSw_kept
    | with_reducible apply Kept.ite
    | with_reducible apply Kept.iteFst
    | with_reducible apply Kept.foldl
    | split

theorem State.repower_kept : ∀ {u s a1}, Kept u s → Kept u (State.repower s a1) := by
  intros; refine Kept.trans (by assumption) ?_; unfold State.repower; try dsimp only
  repeat' first
    | intro _
    | with_reducible apply Kept.refl
    | with_reducible apply State.modSelv_kept
    | with_reducible apply Cmd.run_kept
    | with_reducible apply State.noteLost_kept
    | with_reducible apply Kept.ite
    | with_reducible apply Kept.foldl

theorem State.flushCache_kept {u s ok} (k : Kept u s) : Kept u (State.flushCache s ok) := by
  unfold State.flushCache; dsimp only
  refine Kept.memory k fun h => ?_
  generalize List.filter (fun l => ok l.addr) s.cache = ls
  generalize s.mem = m at h
  induction ls generalizing m with
  | nil => exact h
  | cons l ls ih =>
    refine ih _ ?_
    beta_reduce
    split
    · exact memWrite_wf h _ _
    · exact h

theorem State.stopHostBobbins_kept : ∀ {u s}, Kept u s → Kept u (State.stopHostBobbins s) := by
  intros; refine Kept.trans (by assumption) ?_; unfold State.stopHostBobbins; try dsimp only
  repeat' first
    | simp only [Kept.fields_iff]
    | with_reducible apply Kept.refl

theorem State.pokeAt_kept : ∀ {u s a1 a2}, Kept u s → Kept u (State.pokeAt s a1 a2) := by
  intros; refine Kept.trans (by assumption) ?_; unfold State.pokeAt; try dsimp only
  repeat' first
    | with_reducible apply Kept.refl
    | with_reducible apply State.blkPoke_kept
    | split

theorem State.stopExpert_kept : ∀ {u s a1 a2}, Kept u s → Kept u (State.stopExpert s a1 a2) := by
  intros; refine Kept.trans (by assumption) ?_; unfold State.stopExpert; try dsimp only
  repeat' first
    | simp only [Kept.fields_iff]
    | with_reducible apply Kept.refl
    | intro _
    | with_reducible apply State.modBob_kept
    | with_reducible apply Kept.ite
    | with_reducible apply Kept.dite

theorem State.endGrant_kept : ∀ {u s a1 a2}, Kept u s → Kept u (State.endGrant s a1 a2) := by
  intros; refine Kept.trans (by assumption) ?_; unfold State.endGrant; try dsimp only
  repeat' first
    | simp only [Kept.fields_iff]
    | with_reducible apply Kept.refl
    | intro _
    | with_reducible apply State.stopExpert_kept
    | with_reducible apply State.pokeAt_kept
    | with_reducible apply State.event_kept
    | with_reducible apply Kept.foldl
    | split

theorem State.endGrants_kept : ∀ {u s a1 a2}, Kept u s → Kept u (State.endGrants s a1 a2) := by
  intros; refine Kept.trans (by assumption) ?_; unfold State.endGrants; try dsimp only
  repeat' first
    | with_reducible apply Kept.refl
    | intro _
    | with_reducible apply State.endGrant_kept
    | with_reducible apply State.reply_kept
    | with_reducible apply Kept.foldl
    | split

theorem State.putChan_kept : ∀ {u s a1}, Kept u s → Kept u (State.putChan s a1) := by
  intros; refine Kept.trans (by assumption) ?_; unfold State.putChan; try dsimp only
  repeat' first
    | simp only [Kept.fields_iff]
    | with_reducible apply Kept.refl

theorem State.grantTwin_kept : ∀ {u s a1 a2}, Kept u s → Kept u (State.grantTwin s a1 a2) := by
  intros; refine Kept.trans (by assumption) ?_; unfold State.grantTwin; try dsimp only
  repeat' first
    | with_reducible apply Kept.refl
    | with_reducible apply State.emits_kept
    | with_reducible apply Kept.ite

theorem State.resetChans_kept : ∀ {u s a1}, Kept u s → Kept u (State.resetChans s a1) := by
  intros; refine Kept.trans (by assumption) ?_; unfold State.resetChans; try dsimp only
  repeat' first
    | simp only [Kept.fields_iff]
    | with_reducible apply Kept.refl

theorem State.frogAll_kept : ∀ {u s a1}, Kept u s → Kept u (State.frogAll s a1) := by
  intros; refine Kept.trans (by assumption) ?_; unfold State.frogAll; try dsimp only
  repeat' first
    | with_reducible apply Kept.refl
    | with_reducible apply State.modSw_kept

theorem State.abandonRow_kept : ∀ {u s a1}, Kept u s → Kept u (State.abandonRow s a1) := by
  intros; refine Kept.trans (by assumption) ?_; unfold State.abandonRow; try dsimp only
  repeat' first
    | intro _
    | simp only [Kept.fields_iff]
    | with_reducible apply Kept.refl
    | with_reducible apply State.resetChans_kept
    | with_reducible apply State.modNeedlesOf_kept
    | with_reducible apply State.modSkeinsOf_kept
    | with_reducible apply State.frogAll_kept
    | with_reducible apply State.modCoresOf_kept
    | with_reducible apply Kept.ite
    | split

theorem State.noteFinish_kept : ∀ {u s a1}, Kept u s → Kept u (State.noteFinish s a1) := by
  intros; refine Kept.trans (by assumption) ?_; unfold State.noteFinish; try dsimp only
  repeat' first
    | with_reducible apply Kept.refl
    | with_reducible apply State.useFree_kept
    | with_reducible apply State.modSw_kept
    | with_reducible apply Kept.ite

theorem State.hold_kept : ∀ {u s a1 a2}, Kept u s → Kept u (State.hold s a1 a2) := by
  intros; refine Kept.trans (by assumption) ?_; unfold State.hold; try dsimp only
  repeat' first
    | intro _
    | with_reducible apply Kept.refl
    | with_reducible apply State.modSw_kept
    | with_reducible apply State.abandonRow_kept
    | with_reducible apply State.event_kept
    | with_reducible apply State.noteFinish_kept
    | split
    | with_reducible apply Kept.ite

theorem State.holdAll_kept : ∀ {u s a1 a2}, Kept u s → Kept u (State.holdAll s a1 a2) := by
  intros; refine Kept.trans (by assumption) ?_; unfold State.holdAll; try dsimp only
  repeat' first
    | with_reducible apply Kept.refl
    | intro _
    | with_reducible apply State.hold_kept
    | with_reducible apply Kept.ite
    | with_reducible apply Kept.foldl

theorem State.abortKnit_kept : ∀ {u s a1}, Kept u s → Kept u (State.abortKnit s a1) := by
  intros; refine Kept.trans (by assumption) ?_; unfold State.abortKnit; try dsimp only
  repeat' first
    | with_reducible apply Kept.refl
    | with_reducible apply State.reply_kept
    | with_reducible apply State.modSw_kept
    | split

theorem State.mediaError_kept : ∀ {u s a1 a2}, Kept u s → Kept u (State.mediaError s a1 a2) := by
  intros; refine Kept.trans (by assumption) ?_; unfold State.mediaError; try dsimp only
  repeat' first
    | with_reducible apply Kept.refl
    | with_reducible apply State.modSw_kept
    | with_reducible apply State.event_kept
    | split

theorem State.maskFail_kept : ∀ {u s a1}, Kept u s → Kept u (State.maskFail s a1) := by
  intros; refine Kept.trans (by assumption) ?_; unfold State.maskFail; try dsimp only
  repeat' first
    | with_reducible apply Kept.refl
    | with_reducible apply State.modStack_kept
    | with_reducible apply Kept.ite

theorem State.yardStart_kept {u s k} (h : Kept u s) : Kept u (State.yardStart s k) := by
  induction k generalizing s with
  | zero => exact h
  | succ k ih =>
    unfold State.yardStart; dsimp only
    repeat' first
      | with_reducible assumption
      | with_reducible apply ih
      | with_reducible apply State.ok_kept
      | with_reducible apply State.modTally_kept
      | split

theorem State.yard_kept : ∀ {u s a1 a2 a3 a4 a5}, Kept u s → Kept u (State.yard s a1 a2 a3 a4 a5) := by
  intros; refine Kept.trans (by assumption) ?_; unfold State.yard; try dsimp only
  repeat' first
    | with_reducible apply Kept.refl
    | with_reducible apply State.modTally_kept
    | with_reducible apply State.yardStart_kept

theorem State.trySref_kept : ∀ {u s a1}, Kept u s → Kept u (State.trySref s a1) := by
  intros; refine Kept.trans (by assumption) ?_; unfold State.trySref; try dsimp only
  repeat' first
    | simp only [Kept.fields_iff]
    | with_reducible apply Kept.refl
    | intro _
    | with_reducible apply State.modPort_kept
    | with_reducible apply State.modStack_kept
    | with_reducible apply State.emit_kept
    | with_reducible apply Kept.ite
    | with_reducible apply Kept.iteFst
    | with_reducible apply Kept.foldl
    | split

theorem State.srefWant_kept : ∀ {u s a1}, Kept u s → Kept u (State.srefWant s a1) := by
  intros; refine Kept.trans (by assumption) ?_; unfold State.srefWant; try dsimp only
  repeat' first
    | simp only [Kept.fields_iff]
    | with_reducible apply Kept.refl
    | intro _
    | with_reducible apply State.modPort_kept
    | with_reducible apply State.trySref_kept
    | with_reducible apply Kept.ite
    | with_reducible apply Kept.iteFst
    | with_reducible apply Kept.foldl
    | split

theorem State.srefEnter_kept : ∀ {u s}, Kept u s → Kept u (State.srefEnter s) := by
  intros; refine Kept.trans (by assumption) ?_; unfold State.srefEnter; try dsimp only
  repeat' first
    | with_reducible apply Kept.refl
    | intro _
    | with_reducible apply State.modStack_kept
    | with_reducible apply State.emit_kept
    | with_reducible apply State.modPort_kept
    | with_reducible apply State.srefWant_kept
    | with_reducible apply Kept.ite
    | with_reducible apply Kept.foldl

theorem State.srefExit_kept : ∀ {u s}, Kept u s → Kept u (State.srefExit s) := by
  intros; refine Kept.trans (by assumption) ?_; unfold State.srefExit; try dsimp only
  repeat' first
    | with_reducible apply Kept.refl
    | intro _
    | with_reducible apply State.emit_kept
    | with_reducible apply State.modPort_kept
    | with_reducible apply Kept.ite
    | with_reducible apply Kept.foldl

theorem State.replyOpt_kept : ∀ {u s a1 a2 a3}, Kept u s → Kept u (State.replyOpt s a1 a2 a3) := by
  intros; refine Kept.trans (by assumption) ?_; unfold State.replyOpt; try dsimp only
  repeat' first
    | with_reducible apply Kept.refl
    | with_reducible apply State.reply_kept
    | split

theorem State.endBurst_kept : ∀ {u s a1}, Kept u s → Kept u (State.endBurst s a1) := by
  intros; refine Kept.trans (by assumption) ?_; unfold State.endBurst; try dsimp only
  repeat' first
    | with_reducible apply Kept.refl
    | with_reducible apply State.modSelv_kept
    | with_reducible apply State.repower_kept
    | with_reducible apply State.yard_kept
    | with_reducible apply Kept.ite

theorem State.startTransition_kept : ∀ {u s a1 a2 a3}, Kept u s → Kept u (State.startTransition s a1 a2 a3) := by
  intros; refine Kept.trans (by assumption) ?_; unfold State.startTransition; try dsimp only
  repeat' first
    | with_reducible apply Kept.refl
    | with_reducible apply State.modSelv_kept
    | with_reducible apply State.useFree_kept
    | with_reducible apply State.endBurst_kept
    | with_reducible apply State.srefEnter_kept
    | with_reducible apply State.srefExit_kept
    | with_reducible apply Kept.ite

theorem State.request_kept : ∀ {u s a1 a2}, Kept u s → Kept u (State.request s a1 a2) := by
  intros; refine Kept.trans (by assumption) ?_; unfold State.request; try dsimp only
  repeat' first
    | with_reducible apply Kept.refl
    | with_reducible apply State.replyOpt_kept
    | with_reducible apply State.modSelv_kept
    | with_reducible apply State.ok_kept
    | with_reducible apply State.reply_kept
    | with_reducible apply State.startTransition_kept
    | split

theorem cmdSetDeviceState_kept : ∀ {u r e s}, Kept u s → Kept u (cmdSetDeviceState.act r e s) := by
  intros; refine Kept.trans (by assumption) ?_; unfold cmdSetDeviceState; try dsimp only
  repeat' first
    | with_reducible apply Kept.refl
    | with_reducible apply State.request_kept
    | with_reducible apply State.inFlight_kept

theorem State.enter_kept : ∀ {u s a1}, Kept u s → Kept u (State.enter s a1) := by
  intros; refine Kept.trans (by assumption) ?_; unfold State.enter; try dsimp only
  repeat' first
    | simp only [Kept.fields_iff]
    | with_reducible apply Kept.refl
    | intro _
    | with_reducible apply State.modSelv_kept
    | with_reducible apply State.swStatus_kept
    | with_reducible apply State.modSw_kept
    | with_reducible apply State.repower_kept
    | with_reducible apply Kept.ite
    | with_reducible apply Kept.foldl

theorem endTransition_kept : ∀ {u s}, Kept u s → Kept u (endTransition s) := by
  intros; refine Kept.trans (by assumption) ?_; unfold endTransition; try dsimp only
  repeat' first
    | with_reducible apply Kept.refl
    | with_reducible apply State.enter_kept
    | with_reducible apply State.modSelv_kept
    | with_reducible apply State.reply_kept
    | with_reducible apply State.startTransition_kept
    | split
    | with_reducible apply Kept.ite

theorem State.abortCensus_kept : ∀ {u s}, Kept u s → Kept u (State.abortCensus s) := by
  intros; refine Kept.trans (by assumption) ?_; unfold State.abortCensus; try dsimp only
  repeat' first
    | with_reducible apply Kept.refl
    | with_reducible apply State.modRep_kept
    | with_reducible apply State.replyOpt_kept
    | split
    | with_reducible refine Kept.memory ?_ (fun h => foldl_memClear_wf h)
    | with_reducible refine Kept.memory ?_ (fun h => memClear_wf h _ _)

theorem State.critical_kept : ∀ {u s}, Kept u s → Kept u (State.critical s) := by
  intros; refine Kept.trans (by assumption) ?_; unfold State.critical; try dsimp only
  repeat' first
    | intro _
    | with_reducible apply Kept.refl
    | with_reducible apply State.holdAll_kept
    | with_reducible apply State.endGrants_kept
    | with_reducible apply State.replyOpt_kept
    | with_reducible apply State.abortCensus_kept
    | with_reducible apply State.modSelv_kept
    | with_reducible apply State.useFree_kept
    | with_reducible apply State.endBurst_kept
    | with_reducible apply State.srefEnter_kept
    | with_reducible apply State.abortKnit_kept
    | with_reducible apply Kept.ite
    | with_reducible apply Kept.foldl

theorem State.stepOne_kept : ∀ {u s}, Kept u s → Kept u (State.stepOne s) := by
  intros; refine Kept.trans (by assumption) ?_; unfold State.stepOne; try dsimp only
  repeat' first
    | with_reducible apply Kept.refl
    | with_reducible apply State.event_kept
    | with_reducible apply State.selvFault_kept
    | with_reducible apply State.startTransition_kept
    | with_reducible apply Kept.ite

theorem sampleSensors_kept : ∀ {u a0 s}, Kept u s → Kept u (sampleSensors a0 s) := by
  intros; refine Kept.trans (by assumption) ?_; unfold sampleSensors; try dsimp only
  repeat' first
    | intro _
    | with_reducible apply Kept.refl
    | with_reducible apply State.modSelv_kept
    | with_reducible apply State.stepOne_kept
    | with_reducible apply State.critical_kept
    | with_reducible apply State.emit_kept
    | with_reducible apply Cmd.run_kept
    | with_reducible apply Kept.ite
    | split

theorem limitBudget_kept : ∀ {u a0 s}, Kept u s → Kept u (limitBudget a0 s) := by
  intros; refine Kept.trans (by assumption) ?_; unfold limitBudget; try dsimp only
  repeat' first
    | with_reducible apply Kept.refl
    | with_reducible apply State.modSelv_kept
    | with_reducible apply State.selvFault_kept
    | with_reducible apply State.event_kept
    | with_reducible apply State.repower_kept
    | with_reducible apply State.useFree_kept
    | split

theorem checkBurst_kept : ∀ {u a0 s}, Kept u s → Kept u (checkBurst a0 s) := by
  intros; refine Kept.trans (by assumption) ?_; unfold checkBurst; try dsimp only
  repeat' first
    | with_reducible apply Kept.refl
    | with_reducible apply State.modSelv_kept
    | with_reducible apply State.repower_kept
    | with_reducible apply State.useFree_kept
    | split

theorem lowerHottest_kept : ∀ {u s}, Kept u s → Kept u (lowerHottest s) := by
  intros; refine Kept.trans (by assumption) ?_; unfold lowerHottest; try dsimp only
  repeat' first
    | with_reducible apply Kept.refl
    | with_reducible apply State.event_kept
    | with_reducible apply State.repower_kept
    | with_reducible apply State.modSelv_kept
    | split

theorem releaseStep_kept : ∀ {u s}, Kept u s → Kept u (releaseStep s) := by
  intros; refine Kept.trans (by assumption) ?_; unfold releaseStep; try dsimp only
  repeat' first
    | with_reducible apply Kept.refl
    | with_reducible apply State.modSelv_kept
    | split

theorem raiseOne_kept : ∀ {u s}, Kept u s → Kept u (raiseOne s) := by
  intros; refine Kept.trans (by assumption) ?_; unfold raiseOne; try dsimp only
  repeat' first
    | with_reducible apply Kept.refl
    | with_reducible apply State.repower_kept
    | with_reducible apply State.modSelv_kept
    | with_reducible apply State.useFree_kept
    | split

theorem State.answerPp_kept : ∀ {u s}, Kept u s → Kept u (State.answerPp s) := by
  intros; refine Kept.trans (by assumption) ?_; unfold State.answerPp; try dsimp only
  repeat' first
    | with_reducible apply Kept.refl
    | intro _
    | with_reducible apply State.ok_kept
    | with_reducible apply State.modSw_kept
    | with_reducible apply Kept.foldl
    | split
    | with_reducible apply Kept.ite

theorem rampDone_kept : ∀ {u s}, Kept u s → Kept u (rampDone s) := by
  intros; refine Kept.trans (by assumption) ?_; unfold rampDone; try dsimp only
  repeat' first
    | with_reducible apply Kept.refl
    | with_reducible apply State.answerPp_kept
    | with_reducible apply State.repower_kept
    | with_reducible apply State.modSelv_kept
    | split

theorem hemEvent_kept : ∀ {u a0 s}, Kept u s → Kept u (hemEvent a0 s) := by
  intros; refine Kept.trans (by assumption) ?_; unfold hemEvent; try dsimp only
  repeat' first
    | with_reducible apply Kept.refl
    | with_reducible apply State.request_kept
    | with_reducible apply State.wake_kept
    | with_reducible apply Kept.ite
    | split

theorem cmdNop_kept : ∀ {u r e s}, Kept u s → Kept u (cmdNop.act r e s) := by
  intros; refine Kept.trans (by assumption) ?_; unfold cmdNop; try dsimp only
  repeat' first
    | with_reducible apply Kept.refl
    | with_reducible apply State.ok_kept

theorem cmdQueryDevice_kept : ∀ {u r e s}, Kept u s → Kept u (cmdQueryDevice.act r e s) := by
  intros; refine Kept.trans (by assumption) ?_; unfold cmdQueryDevice; try dsimp only
  repeat' first
    | with_reducible apply Kept.refl
    | with_reducible apply State.ok_kept

theorem cmdSetBudget_kept : ∀ {u r e s}, Kept u s → Kept u (cmdSetBudget.act r e s) := by
  intros; refine Kept.trans (by assumption) ?_; unfold cmdSetBudget; try dsimp only
  repeat' first
    | with_reducible apply Kept.refl
    | with_reducible apply State.ok_kept
    | with_reducible apply State.modSelv_kept

theorem cmdSetWake_kept : ∀ {u r e s}, Kept u s → Kept u (cmdSetWake.act r e s) := by
  intros; refine Kept.trans (by assumption) ?_; unfold cmdSetWake; try dsimp only
  repeat' first
    | with_reducible apply Kept.refl
    | with_reducible apply State.ok_kept
    | with_reducible apply State.modSelv_kept

theorem cmdQueryPower_kept : ∀ {u r e s}, Kept u s → Kept u (cmdQueryPower.act r e s) := by
  intros; refine Kept.trans (by assumption) ?_; unfold cmdQueryPower; try dsimp only
  repeat' first
    | with_reducible apply Kept.refl
    | with_reducible apply State.ok_kept

theorem cmdRestart_kept : ∀ {u r e s}, Kept u s → Kept u (cmdRestart.act r e s) := by
  intros; refine Kept.trans (by assumption) ?_; unfold cmdRestart; try dsimp only
  repeat' first
    | with_reducible apply Kept.refl
    | with_reducible apply State.modSelv_kept
    | with_reducible apply State.ok_kept
    | with_reducible apply State.modBoot_kept
    | with_reducible apply Kept.ite
    | split

end Sys2Proof.Machine
end

