-- ==== Sys2Proof/Laws/KeptB.lean ====
section
/-! SUPPORT. What is kept (Laws/Kept) by start-up, the host side, ports, swatches, memory commands, bobbins, the tick and registers. -/
namespace Sys2Proof.Machine
open Sys2Proof

theorem State.yardP_kept : ∀ {u s a1 a2}, Kept u s → Kept u (State.yardP s a1 a2) := by
  intros; refine Kept.trans (by assumption) ?_; unfold State.yardP; try dsimp only
  repeat' first
    | with_reducible apply Kept.refl
    | with_reducible apply State.yard_kept
    | with_reducible apply Kept.ite

theorem State.repEvent_kept : ∀ {u s a1}, Kept u s → Kept u (State.repEvent s a1) := by
  intros; refine Kept.trans (by assumption) ?_; unfold State.repEvent; try dsimp only
  repeat' first
    | with_reducible apply Kept.refl
    | with_reducible apply State.modRep_kept

theorem State.droppedStitch_kept : ∀ {u s a1 a2 a3 a4 a5}, Kept u s → Kept u (State.droppedStitch s a1 a2 a3 a4 a5) := by
  intros; refine Kept.trans (by assumption) ?_; unfold State.droppedStitch; try dsimp only
  repeat' first
    | with_reducible apply Kept.refl
    | with_reducible apply State.event_kept

theorem State.addEntry_kept : ∀ {u s a1 a2 a3 a4}, Kept u s → Kept u (State.addEntry s a1 a2 a3 a4) := by
  intros; refine Kept.trans (by assumption) ?_; unfold State.addEntry; try dsimp only
  repeat' first
    | with_reducible apply Kept.refl
    | with_reducible apply State.modRep_kept
    | with_reducible apply State.repEvent_kept
    | with_reducible apply State.droppedStitch_kept
    | with_reducible apply State.yardP_kept
    | with_reducible apply Kept.ite

theorem State.release_kept : ∀ {u s a1 a2}, Kept u s → Kept u (State.release s a1 a2) := by
  intros; refine Kept.trans (by assumption) ?_; unfold State.release; try dsimp only
  repeat' first
    | with_reducible apply Kept.refl
    | intro _
    | with_reducible apply State.repEvent_kept
    | with_reducible apply State.addEntry_kept
    | with_reducible apply State.freeRange_kept
    | with_reducible apply Kept.foldl

theorem State.releaseRuns_kept : ∀ {u s a1}, Kept u s → Kept u (State.releaseRuns s a1).1 := by
  intros; refine Kept.trans (by assumption) ?_; unfold State.releaseRuns; try dsimp only
  repeat' first
    | with_reducible apply Kept.refl
    | intro _
    | with_reducible apply State.release_kept
    | with_reducible apply Kept.iteFst
    | with_reducible apply Kept.foldl
theorem State.releaseRuns_keeps : ∀ {u s a1 r t}, State.releaseRuns s a1 = (t, r) → Kept u s → Kept u t := by
  intros; rename_i h k; exact k.trans (Kept.pair (State.releaseRuns_kept Kept.refl) h)

theorem State.retireFailures_kept : ∀ {u s}, Kept u s → Kept u (State.retireFailures s) := by
  intros; refine Kept.trans (by assumption) ?_; unfold State.retireFailures; try dsimp only
  repeat' first
    | with_reducible apply Kept.refl
    | intro _
    | with_reducible apply State.addEntry_kept
    | with_reducible apply State.modRep_kept
    | with_reducible apply State.repEvent_kept
    | with_reducible apply Kept.ite
    | with_reducible apply Kept.foldl

theorem State.clearSkeins_kept : ∀ {u s}, Kept u s → Kept u (State.clearSkeins s) := by
  intros; refine Kept.trans (by assumption) ?_; unfold State.clearSkeins; try dsimp only
  repeat' first
    | with_reducible apply Kept.refl
    | with_reducible refine Kept.memory ?_ (fun h => foldl_memClear_wf h)
    | with_reducible refine Kept.memory ?_ (fun h => memClear_wf h _ _)

theorem State.census_kept : ∀ {u s a1 a2}, Kept u s → Kept u (State.census s a1 a2).1 := by
  intros; refine Kept.trans (by assumption) ?_; unfold State.census; try dsimp only
  repeat' first
    | simp only [Kept.fields_iff]
    | with_reducible apply Kept.refl
    | with_reducible apply State.yardP_kept
    | with_reducible apply State.modSelv_kept
    | with_reducible apply State.selvFault_kept
    | with_reducible apply State.retireFailures_kept
    | with_reducible apply State.repEvent_kept
    | with_reducible apply State.clearSkeins_kept
    | with_reducible apply Kept.ite
theorem State.census_keeps : ∀ {u s a1 a2 r t}, State.census s a1 a2 = (t, r) → Kept u s → Kept u t := by
  intros; rename_i h k; exact k.trans (Kept.pair (State.census_kept Kept.refl) h)

theorem State.announce_kept : ∀ {u s a1}, Kept u s → Kept u (State.announce s a1) := by
  intros; refine Kept.trans (by assumption) ?_; unfold State.announce; try dsimp only
  repeat' first
    | with_reducible apply Kept.refl
    | with_reducible apply State.emit_kept
    | with_reducible apply State.modPort_kept

theorem State.trainPort_kept : ∀ {u s a1}, Kept u s → Kept u (State.trainPort s a1) := by
  intros; refine Kept.trans (by assumption) ?_; unfold State.trainPort; try dsimp only
  repeat' first
    | with_reducible apply Kept.refl
    | with_reducible apply State.announce_kept
    | with_reducible apply State.modPort_kept
    | with_reducible apply Kept.ite

theorem State.reroute_kept : ∀ {u s a1}, Kept u s → Kept u (State.reroute s a1) := by
  intros; refine Kept.trans (by assumption) ?_; unfold State.reroute; try dsimp only
  repeat' first
    | with_reducible apply Kept.refl
    | with_reducible apply State.modStack_kept

theorem State.retireRecorded_kept : ∀ {u s}, Kept u s → Kept u (State.retireRecorded s) := by
  intros; refine Kept.trans (by assumption) ?_; unfold State.retireRecorded; try dsimp only
  repeat' first
    | with_reducible apply Kept.refl
    | intro _
    | with_reducible apply State.setPages_kept
    | with_reducible apply Kept.ite
    | with_reducible apply Kept.foldl

theorem State.countRetired_kept : ∀ {u s}, Kept u s → Kept u (State.countRetired s) := by
  intros; refine Kept.trans (by assumption) ?_; unfold State.countRetired; try dsimp only
  repeat' first
    | simp only [Kept.fields_iff]
    | with_reducible apply Kept.refl

theorem State.stepEight_kept : ∀ {u s}, Kept u s → Kept u (State.stepEight s) := by
  intros; refine Kept.trans (by assumption) ?_; unfold State.stepEight; try dsimp only
  repeat' first
    | simp only [Kept.fields_iff]
    | with_reducible apply Kept.refl
    | intro _
    | with_reducible apply State.modStack_kept
    | with_reducible apply State.reroute_kept
    | with_reducible apply State.selvFault_kept
    | with_reducible apply State.countRetired_kept
    | with_reducible apply State.retireRecorded_kept
    | with_reducible apply State.modSelv_kept
    | with_reducible apply Kept.ite
    | with_reducible apply Kept.foldl

theorem State.services_kept : ∀ {u s a1}, Kept u s → Kept u (State.services s a1) := by
  intros; refine Kept.trans (by assumption) ?_; unfold State.services; try dsimp only
  repeat' first
    | with_reducible apply Kept.refl
    | with_reducible apply State.selvFault_kept
    | with_reducible apply State.modSelv_kept
    | with_reducible apply Kept.ite

theorem State.applyBoard_kept : ∀ {u s}, Kept u s → Kept u (State.applyBoard s) := by
  intros; refine Kept.trans (by assumption) ?_; unfold State.applyBoard; try dsimp only
  repeat' first
    | simp only [Kept.fields_iff]
    | with_reducible apply Kept.refl
    | intro _
    | with_reducible apply State.put_kept
    | with_reducible apply State.blkPoke_kept
    | with_reducible apply State.modIo_kept
    | with_reducible apply Kept.ite
    | with_reducible apply Kept.iteFst
    | with_reducible apply Kept.foldl
    | split

theorem State.i3cAssign_kept : ∀ {u s a1}, Kept u s → Kept u (State.i3cAssign s a1) := by
  intros; refine Kept.trans (by assumption) ?_; unfold State.i3cAssign; try dsimp only
  repeat' first
    | simp only [Kept.fields_iff]
    | with_reducible apply Kept.refl
    | intro _
    | with_reducible apply State.modIo_kept
    | split

theorem State.entdaa_kept : ∀ {u s}, Kept u s → Kept u (State.entdaa s) := by
  intros; refine Kept.trans (by assumption) ?_; unfold State.entdaa; try dsimp only
  repeat' first
    | simp only [Kept.fields_iff]
    | with_reducible apply Kept.refl
    | intro _
    | with_reducible apply State.modIo_kept
    | with_reducible apply State.i3cAssign_kept
    | with_reducible apply Kept.ite
    | with_reducible apply Kept.iteFst
    | with_reducible apply Kept.foldl
    | split

theorem State.stepNine_kept : ∀ {u s a1}, Kept u s → Kept u (State.stepNine s a1) := by
  intros; refine Kept.trans (by assumption) ?_; unfold State.stepNine; try dsimp only
  repeat' first
    | intro _
    | simp only [Kept.fields_iff]
    | with_reducible apply Kept.refl
    | with_reducible apply State.modBoot_kept
    | with_reducible apply State.modSelv_kept
    | with_reducible apply State.services_kept
    | with_reducible apply State.useFree_kept
    | with_reducible apply State.srefEnter_kept
    | with_reducible apply State.repower_kept
    | with_reducible apply State.applyBoard_kept
    | with_reducible apply State.entdaa_kept
    | with_reducible apply Kept.ite

theorem State.afterTraining_kept : ∀ {u s}, Kept u s → Kept u (State.afterTraining s) := by
  intros; refine Kept.trans (by assumption) ?_; unfold State.afterTraining; try dsimp only
  repeat' first
    | with_reducible apply Kept.refl
    | with_reducible apply State.modSelv_kept
    | with_reducible apply State.stepEight_kept
    | with_reducible apply State.emit_kept
    | with_reducible apply State.stepNine_kept
    | with_reducible apply State.modBoot_kept
    | with_reducible apply Kept.ite

theorem State.portMoved_kept : ∀ {u s}, Kept u s → Kept u (State.portMoved s) := by
  intros; refine Kept.trans (by assumption) ?_; unfold State.portMoved; try dsimp only
  repeat' first
    | with_reducible apply Kept.refl
    | with_reducible apply State.afterTraining_kept
    | with_reducible apply Kept.ite

theorem State.stepsFive_kept : ∀ {u s}, Kept u s → Kept u (State.stepsFive s) := by
  intros; refine Kept.trans (by assumption) ?_; unfold State.stepsFive; try dsimp only
  repeat' first
    | with_reducible apply Kept.refl
    | intro _
    | with_reducible apply State.census_kept
    | with_reducible apply State.modSelv_kept
    | with_reducible apply State.modBoot_kept
    | with_reducible apply State.portMoved_kept
    | with_reducible apply State.trainPort_kept
    | with_reducible apply Kept.foldl

theorem State.sendCountOff_kept : ∀ {u s a1}, Kept u s → Kept u (State.sendCountOff s a1) := by
  intros; refine Kept.trans (by assumption) ?_; unfold State.sendCountOff; try dsimp only
  repeat' first
    | with_reducible apply Kept.refl
    | with_reducible apply State.emit_kept
    | with_reducible apply State.modBoot_kept

theorem State.acceptImage_kept : ∀ {u s a1 a2}, Kept u s → Kept u (State.acceptImage s a1 a2) := by
  intros; refine Kept.trans (by assumption) ?_; unfold State.acceptImage; try dsimp only
  repeat' first
    | with_reducible apply Kept.refl
    | with_reducible apply State.modSelv_kept
    | with_reducible apply State.modBoot_kept
    | with_reducible apply State.sendCountOff_kept
    | with_reducible apply State.stepsFive_kept
    | with_reducible apply Kept.ite

theorem State.trySource_kept : ∀ {u s a1 a2}, Kept u s → Kept u (State.trySource s a1 a2) := by
  intros; refine Kept.trans (by assumption) ?_; unfold State.trySource; try dsimp only
  repeat' first
    | with_reducible apply Kept.refl
    | with_reducible apply State.modBoot_kept
    | with_reducible apply State.modPort_kept
    | split

theorem State.sourceFailed_kept : ∀ {u s a1}, Kept u s → Kept u (State.sourceFailed s a1) := by
  intros; refine Kept.trans (by assumption) ?_; unfold State.sourceFailed; try dsimp only
  repeat' first
    | with_reducible apply Kept.refl
    | with_reducible apply State.selvFault_kept
    | with_reducible apply State.trySource_kept
    | with_reducible apply State.modBoot_kept
    | split

theorem State.verifyImage_kept : ∀ {u s a1}, Kept u s → Kept u (State.verifyImage s a1) := by
  intros; refine Kept.trans (by assumption) ?_; unfold State.verifyImage; try dsimp only
  repeat' first
    | with_reducible apply Kept.refl
    | with_reducible apply State.acceptImage_kept
    | with_reducible apply State.sourceFailed_kept
    | with_reducible apply State.yardP_kept
    | split

theorem bootRead_kept : ∀ {u s}, Kept u s → Kept u (bootRead s) := by
  intros; refine Kept.trans (by assumption) ?_; unfold bootRead; try dsimp only
  repeat' first
    | intro _
    | with_reducible apply Kept.refl
    | with_reducible apply State.emit_kept
    | with_reducible apply State.modBoot_kept
    | with_reducible apply State.emits_kept
    | split
    | with_reducible apply Kept.ite

theorem bootData_kept : ∀ {u a0 a1 s}, Kept u s → Kept u (bootData a0 a1 s) := by
  intros; refine Kept.trans (by assumption) ?_; unfold bootData; try dsimp only
  repeat' first
    | with_reducible apply Kept.refl
    | with_reducible apply State.modBoot_kept
    | with_reducible apply State.verifyImage_kept
    | split

theorem offerImage_kept : ∀ {u a0 a1 s}, Kept u s → Kept u (offerImage a0 a1 s) := by
  intros; refine Kept.trans (by assumption) ?_; unfold offerImage; try dsimp only
  repeat' first
    | with_reducible apply Kept.refl
    | with_reducible apply State.modBoot_kept
    | with_reducible apply State.modPort_kept
    | with_reducible apply State.trySource_kept
    | with_reducible apply Kept.ite

theorem answerStatus_kept : ∀ {u a0 s}, Kept u s → Kept u (answerStatus a0 s) := by
  intros; refine Kept.trans (by assumption) ?_; unfold answerStatus; try dsimp only
  repeat' first
    | with_reducible apply Kept.refl
    | with_reducible apply State.emit_kept
    | with_reducible apply Kept.ite

theorem State.checkCounters_kept : ∀ {u s}, Kept u s → Kept u (State.checkCounters s) := by
  intros; refine Kept.trans (by assumption) ?_; unfold State.checkCounters; try dsimp only
  repeat' first
    | with_reducible apply Kept.refl
    | intro _
    | with_reducible apply State.yard_kept
    | with_reducible apply State.modTally_kept
    | with_reducible apply Kept.ite
    | with_reducible apply Kept.foldl

theorem State.loadRecord_kept : ∀ {u s}, Kept u s → Kept u (State.loadRecord s) := by
  intros; refine Kept.trans (by assumption) ?_; unfold State.loadRecord; try dsimp only
  repeat' first
    | with_reducible apply Kept.refl
    | with_reducible apply State.modRep_kept

theorem State.stepTwo_kept : ∀ {u s a1}, Kept u s → Kept u (State.stepTwo s a1) := by
  intros; refine Kept.trans (by assumption) ?_; unfold State.stepTwo; try dsimp only
  repeat' first
    | simp only [Kept.fields_iff]
    | with_reducible apply Kept.refl
    | intro _
    | with_reducible apply State.modSelv_kept
    | with_reducible apply State.modBoot_kept
    | with_reducible apply State.checkCounters_kept
    | with_reducible apply State.loadRecord_kept
    | with_reducible apply State.trySource_kept
    | with_reducible apply State.trainPort_kept
    | with_reducible apply Kept.foldl
    | split
    | with_reducible apply Kept.ite

theorem State.unpowered_kept {u s} (k : Kept u s) : Kept u (State.unpowered s) := by
  refine k.trans ?_
  unfold State.unpowered; dsimp only
  exact ⟨rfl, rfl, fun _ => rfl⟩

theorem powerGood_kept : ∀ {u s}, Kept u s → Kept u (powerGood s) := by
  intros; refine Kept.trans (by assumption) ?_; unfold powerGood; try dsimp only
  repeat' first
    | intro _
    | with_reducible apply Kept.refl
    | with_reducible apply State.unpowered_kept
    | with_reducible apply State.modSelv_kept
    | with_reducible apply State.stepTwo_kept
    | with_reducible apply State.modChain_kept
    | with_reducible apply Kept.ite

theorem powerLost_kept : ∀ {u a0 s}, Kept u s → Kept u (powerLost a0 s) := by
  intros; refine Kept.trans (by assumption) ?_; unfold powerLost; try dsimp only
  repeat' first
    | with_reducible apply Kept.refl
    | with_reducible apply State.modSelv_kept
    | with_reducible apply State.unpowered_kept
    | with_reducible apply Kept.ite

theorem secondaryImage_kept : ∀ {u a0 s}, Kept u s → Kept u (secondaryImage a0 s) := by
  intros; refine Kept.trans (by assumption) ?_; unfold secondaryImage; try dsimp only
  repeat' first
    | with_reducible apply Kept.refl
    | with_reducible apply State.modBoot_kept
    | with_reducible apply State.acceptImage_kept
    | with_reducible apply State.selvFault_kept
    | split

theorem countOffArrives_kept : ∀ {u a0 s}, Kept u s → Kept u (countOffArrives a0 s) := by
  intros; refine Kept.trans (by assumption) ?_; unfold countOffArrives; try dsimp only
  repeat' first
    | with_reducible apply Kept.refl
    | with_reducible apply State.modInner_kept
    | with_reducible apply State.selvFault_kept
    | with_reducible apply State.stepsFive_kept
    | with_reducible apply State.modSelv_kept
    | with_reducible apply State.emit_kept
    | split

theorem countOffLate_kept : ∀ {u s}, Kept u s → Kept u (countOffLate s) := by
  intros; refine Kept.trans (by assumption) ?_; unfold countOffLate; try dsimp only
  repeat' first
    | with_reducible apply Kept.refl
    | with_reducible apply State.sendCountOff_kept
    | with_reducible apply State.modInner_kept
    | with_reducible apply State.stepsFive_kept
    | with_reducible apply State.modSelv_kept
    | with_reducible apply State.selvFault_kept
    | split

theorem restartBegin_kept : ∀ {u s}, Kept u s → Kept u (restartBegin s) := by
  intros; refine Kept.trans (by assumption) ?_; unfold restartBegin; try dsimp only
  repeat' first
    | simp only [Kept.fields_iff]
    | with_reducible apply Kept.refl
    | with_reducible apply State.modSelv_kept
    | with_reducible apply State.stepTwo_kept
    | with_reducible apply Kept.ite

theorem State.startCensus_kept : ∀ {u s a1 a2}, Kept u s → Kept u (State.startCensus s a1 a2) := by
  intros; refine Kept.trans (by assumption) ?_; unfold State.startCensus; try dsimp only
  repeat' first
    | with_reducible apply Kept.refl
    | with_reducible apply State.repower_kept
    | with_reducible apply State.modRep_kept

theorem cmdRunCensus_kept : ∀ {u r e s}, Kept u s → Kept u (cmdRunCensus.act r e s) := by
  intros; refine Kept.trans (by assumption) ?_; unfold cmdRunCensus; try dsimp only
  repeat' first
    | with_reducible apply Kept.refl
    | with_reducible apply State.startCensus_kept
    | with_reducible apply State.inFlight_kept

theorem endCensus_kept : ∀ {u s}, Kept u s → Kept u (endCensus s) := by
  intros; refine Kept.trans (by assumption) ?_; unfold endCensus; try dsimp only
  repeat' first
    | with_reducible apply Kept.refl
    | with_reducible apply State.census_kept
    | with_reducible apply State.modRep_kept
    | with_reducible apply State.services_kept
    | with_reducible apply State.repower_kept
    | with_reducible apply State.ok_kept
    | split

theorem resetFunction_kept : ∀ {u a0 s}, Kept u s → Kept u (resetFunction a0 s) := by
  intros; refine Kept.trans (by assumption) ?_; unfold resetFunction; try dsimp only
  repeat' first
    | intro _
    | simp only [Kept.fields_iff]
    | with_reducible apply Kept.refl
    | with_reducible apply State.modFn_kept
    | with_reducible apply State.endGrants_kept
    | with_reducible apply State.stopHostBobbins_kept
    | with_reducible apply State.holdAll_kept
    | with_reducible apply State.eventTo_kept
    | with_reducible apply Kept.ite
    | with_reducible apply Kept.foldl

theorem State.signalPending_kept : ∀ {u s a1}, Kept u s → Kept u (State.signalPending s a1) := by
  intros; refine Kept.trans (by assumption) ?_; unfold State.signalPending; try dsimp only
  repeat' first
    | with_reducible apply Kept.refl
    | intro _
    | with_reducible apply State.emit_kept
    | with_reducible apply State.modFn_kept
    | with_reducible apply Kept.ite
    | with_reducible apply Kept.foldl

theorem State.flushFn_kept : ∀ {u s a1}, Kept u s → Kept u (State.flushFn s a1) := by
  intros; refine Kept.trans (by assumption) ?_; unfold State.flushFn; try dsimp only
  repeat' first
    | with_reducible apply Kept.refl
    | intro _
    | with_reducible apply State.flushHeld_kept
    | with_reducible apply State.flushEvents_kept
    | with_reducible apply Kept.ite
    | with_reducible apply Kept.foldl

theorem enterD3_kept : ∀ {u a0 s}, Kept u s → Kept u (enterD3 a0 s) := by
  intros; refine Kept.trans (by assumption) ?_; unfold enterD3; try dsimp only
  repeat' first
    | with_reducible apply Kept.refl
    | with_reducible apply State.modFn_kept
    | with_reducible apply State.stopHostBobbins_kept
    | with_reducible apply State.holdAll_kept
    | with_reducible apply Kept.ite

theorem returnD0_kept : ∀ {u a0 s}, Kept u s → Kept u (returnD0 a0 s) := by
  intros; refine Kept.trans (by assumption) ?_; unfold returnD0; try dsimp only
  repeat' first
    | with_reducible apply Kept.refl
    | with_reducible apply State.signalPending_kept
    | with_reducible apply State.flushFn_kept
    | with_reducible apply State.modFn_kept
    | with_reducible apply Kept.ite

theorem unmaskVector_kept : ∀ {u a0 a1 s}, Kept u s → Kept u (unmaskVector a0 a1 s) := by
  intros; refine Kept.trans (by assumption) ?_; unfold unmaskVector; try dsimp only
  repeat' first
    | with_reducible apply Kept.refl
    | with_reducible apply State.modFn_kept
    | with_reducible apply State.emit_kept
    | with_reducible apply Kept.ite

theorem bar4Read_kept : ∀ {u a0 a1 a2 s}, Kept u s → Kept u (bar4Read a0 a1 a2 s) := by
  intros; refine Kept.trans (by assumption) ?_; unfold bar4Read; try dsimp only
  repeat' first
    | with_reducible apply Kept.refl
    | intro _
    | with_reducible apply State.emit_kept
    | with_reducible apply State.sendAccess_kept
    | with_reducible apply State.mediaError_kept
    | with_reducible apply State.badAcc_kept
    | with_reducible apply State.ok_kept
    | with_reducible apply Kept.foldl
    | split
    | with_reducible apply Kept.ite

theorem bar4Write_kept : ∀ {u a0 a1 a2 s}, Kept u s → Kept u (bar4Write a0 a1 a2 s) := by
  intros; refine Kept.trans (by assumption) ?_; unfold bar4Write; try dsimp only
  repeat' first
    | with_reducible apply Kept.refl
    | intro _
    | with_reducible apply State.sendAccess_kept
    | with_reducible apply State.put_kept
    | with_reducible apply State.mediaError_kept
    | with_reducible apply State.maskFail_kept
    | with_reducible apply State.modStack_kept
    | with_reducible apply State.badAcc_kept
    | with_reducible apply State.ok_kept
    | with_reducible apply Kept.foldl
    | split
    | with_reducible apply Kept.ite

theorem State.ringFault_kept : ∀ {u s a1 a2}, Kept u s → Kept u (State.ringFault s a1 a2) := by
  intros; refine Kept.trans (by assumption) ?_; unfold State.ringFault; try dsimp only
  repeat' first
    | with_reducible apply Kept.refl
    | with_reducible apply State.modSq_kept
    | with_reducible apply State.modCq_kept
    | with_reducible apply State.modFn_kept
    | with_reducible apply State.event_kept
    | split

theorem State.ringRise_kept : ∀ {u s a1}, Kept u s → Kept u (State.ringRise s a1) := by
  intros; refine Kept.trans (by assumption) ?_; unfold State.ringRise; try dsimp only
  repeat' first
    | with_reducible apply Kept.refl
    | with_reducible apply State.modSq_kept
    | with_reducible apply State.ringFault_kept
    | with_reducible apply State.modCq_kept
    | split
    | with_reducible apply Kept.ite

theorem State.modRingFsm_kept : ∀ {u s a1 a2}, Kept u s → Kept u (State.modRingFsm s a1 a2) := by
  intros; refine Kept.trans (by assumption) ?_; unfold State.modRingFsm; try dsimp only
  repeat' first
    | with_reducible apply Kept.refl
    | with_reducible apply State.modSq_kept
    | with_reducible apply State.modCq_kept
    | split

theorem enableRing_kept : ∀ {u a0 a1 s}, Kept u s → Kept u (enableRing a0 a1 s) := by
  intros; refine Kept.trans (by assumption) ?_; unfold enableRing; try dsimp only
  repeat' first
    | with_reducible apply Kept.refl
    | with_reducible apply State.ringRise_kept
    | with_reducible apply State.modRingFsm_kept
    | with_reducible apply Kept.ite

theorem disableRing_kept : ∀ {u a0 a1 s}, Kept u s → Kept u (disableRing a0 a1 s) := by
  intros; refine Kept.trans (by assumption) ?_; unfold disableRing; try dsimp only
  repeat' first
    | with_reducible apply Kept.refl
    | with_reducible apply State.modRingFsm_kept
    | with_reducible apply Kept.ite

theorem State.takeTail_kept : ∀ {u s a1}, Kept u s → Kept u (State.takeTail s a1) := by
  intros; refine Kept.trans (by assumption) ?_; unfold State.takeTail; try dsimp only
  repeat' first
    | with_reducible apply Kept.refl
    | with_reducible apply State.modSq_kept
    | with_reducible apply State.ringFault_kept
    | with_reducible apply Kept.ite

theorem State.takeHead_kept : ∀ {u s a1}, Kept u s → Kept u (State.takeHead s a1) := by
  intros; refine Kept.trans (by assumption) ?_; unfold State.takeHead; try dsimp only
  repeat' first
    | with_reducible apply Kept.refl
    | intro _
    | with_reducible apply State.modCq_kept
    | with_reducible apply State.flushHeld_kept
    | with_reducible apply State.flushEvents_kept
    | with_reducible apply State.ringFault_kept
    | with_reducible apply Kept.ite
    | with_reducible apply Kept.foldl

theorem State.ringBell_kept : ∀ {u s a1 a2}, Kept u s → Kept u (State.ringBell s a1 a2) := by
  intros; refine Kept.trans (by assumption) ?_; unfold State.ringBell; try dsimp only
  repeat' first
    | with_reducible apply Kept.refl
    | with_reducible apply State.modSq_kept
    | with_reducible apply State.modCq_kept
    | with_reducible apply State.takeTail_kept
    | with_reducible apply State.takeHead_kept
    | split

theorem hostBell_kept : ∀ {u a0 a1 a2 s}, Kept u s → Kept u (hostBell a0 a1 a2 s) := by
  intros; refine Kept.trans (by assumption) ?_; unfold hostBell; try dsimp only
  repeat' first
    | with_reducible apply Kept.refl
    | with_reducible apply State.badAcc_kept
    | with_reducible apply State.ringBell_kept
    | with_reducible apply Kept.ite

theorem frontEndReady_kept : ∀ {u a0 s}, Kept u s → Kept u (frontEndReady a0 s) := by
  intros; refine Kept.trans (by assumption) ?_; unfold frontEndReady; try dsimp only
  repeat' first
    | with_reducible apply Kept.refl
    | with_reducible apply State.modRingFsm_kept
    | with_reducible apply State.takeTail_kept
    | with_reducible apply State.takeHead_kept
    | split

theorem quiesceRing_kept : ∀ {u a0 s}, Kept u s → Kept u (quiesceRing a0 s) := by
  intros; refine Kept.trans (by assumption) ?_; unfold quiesceRing; try dsimp only
  repeat' first
    | with_reducible apply Kept.refl
    | with_reducible apply State.modSq_kept
    | with_reducible apply State.modCq_kept
    | with_reducible apply State.modFn_kept
    | with_reducible apply State.ringRise_kept
    | split

theorem accessFault_kept : ∀ {u a0 s}, Kept u s → Kept u (accessFault a0 s) := by
  intros; refine Kept.trans (by assumption) ?_; unfold accessFault; try dsimp only
  repeat' first
    | with_reducible apply Kept.refl
    | with_reducible apply State.ringFault_kept
    | with_reducible apply Kept.ite

theorem endHoldoff_kept : ∀ {u a0 s}, Kept u s → Kept u (endHoldoff a0 s) := by
  intros; refine Kept.trans (by assumption) ?_; unfold endHoldoff; try dsimp only
  repeat' first
    | with_reducible apply Kept.refl
    | with_reducible apply State.modCq_kept
    | with_reducible apply State.cqSignal_kept
    | with_reducible apply Kept.ite

theorem undefinedOp_kept : ∀ {u a0 a1 s}, Kept u s → Kept u (undefinedOp a0 a1 s) := by
  intros; refine Kept.trans (by assumption) ?_; unfold undefinedOp; try dsimp only
  repeat' first
    | with_reducible apply Kept.refl
    | with_reducible refine (State.takeEntry_keeps (by assumption)) ?_
    | with_reducible apply State.reply_kept
    | with_reducible apply State.noteFence_kept
    | with_reducible apply State.relay_kept
    | split
    | with_reducible apply Kept.ite

theorem State.faultRings_kept : ∀ {u s a1 a2}, Kept u s → Kept u (State.faultRings s a1 a2) := by
  intros; refine Kept.trans (by assumption) ?_; unfold State.faultRings; try dsimp only
  repeat' first
    | with_reducible apply Kept.refl
    | intro _
    | with_reducible apply State.ringFault_kept
    | with_reducible apply Kept.foldl
    | split

theorem relayReply_kept : ∀ {u a0 a1 a2 s}, Kept u s → Kept u (relayReply a0 a1 a2 s) := by
  intros; refine Kept.trans (by assumption) ?_; unfold relayReply; try dsimp only
  repeat' first
    | with_reducible apply Kept.refl
    | intro _
    | with_reducible apply State.eventTo_kept
    | with_reducible apply State.modTick_kept
    | with_reducible apply State.finish_kept
    | with_reducible apply State.event_kept
    | with_reducible apply State.faultRings_kept
    | with_reducible apply Kept.foldl
    | split
    | with_reducible apply Kept.ite

theorem twinTickDone_kept : ∀ {u a0 s}, Kept u s → Kept u (twinTickDone a0 s) := by
  intros; refine Kept.trans (by assumption) ?_; unfold twinTickDone; try dsimp only
  repeat' first
    | with_reducible apply Kept.refl
    | intro _
    | with_reducible apply State.modTick_kept
    | with_reducible apply State.finish_kept
    | with_reducible apply Kept.ite
    | with_reducible apply Kept.foldl

theorem State.edgeEvent_kept : ∀ {u s a1 a2}, Kept u s → Kept u (State.edgeEvent s a1 a2) := by
  intros; refine Kept.trans (by assumption) ?_; unfold State.edgeEvent; try dsimp only
  repeat' first
    | with_reducible apply Kept.refl
    | with_reducible apply State.modPort_kept
    | with_reducible apply State.event_kept
    | with_reducible apply Kept.ite

theorem State.noteRate_kept : ∀ {u s a1}, Kept u s → Kept u (State.noteRate s a1) := by
  intros; refine Kept.trans (by assumption) ?_; unfold State.noteRate; try dsimp only
  repeat' first
    | intro _
    | simp only [Kept.fields_iff]
    | with_reducible apply Kept.refl
    | with_reducible apply State.modPort_kept
    | with_reducible apply creditInit_kept
    | with_reducible apply State.retrain_kept
    | with_reducible apply Kept.ite

theorem State.tryReroute_kept : ∀ {u s a1}, Kept u s → Kept u (State.tryReroute s a1) := by
  intros; refine Kept.trans (by assumption) ?_; unfold State.tryReroute; try dsimp only
  repeat' first
    | with_reducible apply Kept.refl
    | with_reducible apply State.reroute_kept
    | with_reducible apply Kept.ite

theorem State.noteLanes_kept : ∀ {u s a1 a2}, Kept u s → Kept u (State.noteLanes s a1 a2) := by
  intros; refine Kept.trans (by assumption) ?_; unfold State.noteLanes; try dsimp only
  repeat' first
    | with_reducible apply Kept.refl
    | intro _
    | with_reducible apply State.addEntry_kept
    | with_reducible apply State.modPort_kept
    | with_reducible apply Kept.ite
    | with_reducible apply Kept.foldl

theorem State.mismatch_kept : ∀ {u s a1}, Kept u s → Kept u (State.mismatch s a1) := by
  intros; refine Kept.trans (by assumption) ?_; unfold State.mismatch; try dsimp only
  repeat' first
    | with_reducible apply Kept.refl
    | with_reducible apply State.portMoved_kept
    | with_reducible apply State.edgeEvent_kept
    | with_reducible apply State.modPort_kept

theorem State.answerReenable_kept : ∀ {u s a1 a2}, Kept u s → Kept u (State.answerReenable s a1 a2) := by
  intros; refine Kept.trans (by assumption) ?_; unfold State.answerReenable; try dsimp only
  repeat' first
    | with_reducible apply Kept.refl
    | with_reducible apply State.reply_kept
    | split

theorem State.portRises_kept : ∀ {u s a1}, Kept u s → Kept u (State.portRises s a1) := by
  intros; refine Kept.trans (by assumption) ?_; unfold State.portRises; try dsimp only
  repeat' first
    | intro _
    | with_reducible apply Kept.refl
    | with_reducible apply State.modPort_kept
    | with_reducible apply State.noteRate_kept
    | with_reducible apply State.tryReroute_kept
    | with_reducible apply State.modStack_kept
    | with_reducible apply State.pumpPort_kept
    | with_reducible apply State.answerReenable_kept
    | with_reducible apply State.portMoved_kept
    | with_reducible apply State.srefWant_kept
    | with_reducible apply State.flow_kept
    | with_reducible apply Kept.ite

theorem sidebandUp_kept : ∀ {u a0 s}, Kept u s → Kept u (sidebandUp a0 s) := by
  intros; refine Kept.trans (by assumption) ?_; unfold sidebandUp; try dsimp only
  repeat' first
    | with_reducible apply Kept.refl
    | with_reducible apply State.modPort_kept
    | with_reducible apply State.announce_kept
    | split

theorem roleAck_kept : ∀ {u a0 a1 a2 s}, Kept u s → Kept u (roleAck a0 a1 a2 s) := by
  intros; refine Kept.trans (by assumption) ?_; unfold roleAck; try dsimp only
  repeat' first
    | with_reducible apply Kept.refl
    | with_reducible apply State.modPort_kept
    | with_reducible apply State.mismatch_kept
    | with_reducible apply Kept.ite

theorem roleTimeout_kept : ∀ {u a0 a1 s}, Kept u s → Kept u (roleTimeout a0 a1 s) := by
  intros; refine Kept.trans (by assumption) ?_; unfold roleTimeout; try dsimp only
  repeat' first
    | with_reducible apply Kept.refl
    | with_reducible apply State.modPort_kept
    | with_reducible apply State.mismatch_kept
    | with_reducible apply Kept.ite

theorem creditInit_kept : ∀ {u a0 a1 s}, Kept u s → Kept u (creditInit a0 a1 s) := by
  intros; refine Kept.trans (by assumption) ?_; unfold creditInit; try dsimp only
  repeat' first
    | with_reducible apply Kept.refl
    | with_reducible apply State.portRises_kept
    | with_reducible apply State.modPort_kept
    | with_reducible apply Kept.ite

theorem pcieUp_kept : ∀ {u a0 s}, Kept u s → Kept u (pcieUp a0 s) := by
  intros; refine Kept.trans (by assumption) ?_; unfold pcieUp; try dsimp only
  repeat' first
    | with_reducible apply Kept.refl
    | with_reducible apply State.portRises_kept
    | with_reducible apply Kept.ite

theorem ackTimer_kept : ∀ {u a0 s}, Kept u s → Kept u (ackTimer a0 s) := by
  intros; refine Kept.trans (by assumption) ?_; unfold ackTimer; try dsimp only
  repeat' first
    | with_reducible apply Kept.refl
    | with_reducible apply State.emit_kept
    | with_reducible apply State.modPort_kept
    | with_reducible apply Kept.ite

theorem nakReceived_kept : ∀ {u a0 a1 s}, Kept u s → Kept u (nakReceived a0 a1 s) := by
  intros; refine Kept.trans (by assumption) ?_; unfold nakReceived; try dsimp only
  repeat' first
    | intro _
    | with_reducible apply Kept.refl
    | with_reducible apply State.modPort_kept
    | with_reducible apply State.pumpPort_kept
    | with_reducible apply State.emit_kept
    | with_reducible apply State.edgeEvent_kept
    | with_reducible apply State.flow_kept
    | with_reducible apply Kept.ite

theorem State.retrain_kept : ∀ {u s a1}, Kept u s → Kept u (State.retrain s a1) := by
  intros; refine Kept.trans (by assumption) ?_; unfold State.retrain; try dsimp only
  repeat' first
    | with_reducible apply Kept.refl
    | with_reducible apply State.modPort_kept
    | with_reducible apply Kept.ite

theorem limitCrossed_kept : ∀ {u a0 s}, Kept u s → Kept u (limitCrossed a0 s) := by
  intros; refine Kept.trans (by assumption) ?_; unfold limitCrossed; try dsimp only
  repeat' first
    | with_reducible apply Kept.refl
    | with_reducible apply State.retrain_kept
    | with_reducible apply Kept.ite

theorem repairDone_kept : ∀ {u a0 a1 a2 a3 s}, Kept u s → Kept u (repairDone a0 a1 a2 a3 s) := by
  intros; refine Kept.trans (by assumption) ?_; unfold repairDone; try dsimp only
  repeat' first
    | intro _
    | with_reducible apply Kept.refl
    | with_reducible apply State.noteLanes_kept
    | with_reducible apply State.modPort_kept
    | with_reducible apply State.edgeEvent_kept
    | with_reducible apply State.pumpPort_kept
    | with_reducible apply State.emit_kept
    | with_reducible apply State.noteRate_kept
    | with_reducible apply State.tryReroute_kept
    | with_reducible apply State.retrain_kept
    | with_reducible apply State.flow_kept
    | with_reducible apply State.trySref_kept
    | with_reducible apply Kept.ite

theorem State.loseStack_kept : ∀ {u s a1}, Kept u s → Kept u (State.loseStack s a1) := by
  intros; refine Kept.trans (by assumption) ?_; unfold State.loseStack; try dsimp only
  repeat' first
    | with_reducible apply Kept.refl
    | with_reducible apply State.selvFault_kept
    | with_reducible apply State.modStack_kept

theorem State.portLostHolds_kept : ∀ {u s a1}, Kept u s → Kept u (State.portLostHolds s a1) := by
  intros; refine Kept.trans (by assumption) ?_; unfold State.portLostHolds; try dsimp only
  repeat' first
    | with_reducible apply Kept.refl
    | with_reducible apply State.holdAll_kept
    | with_reducible apply State.loseStack_kept
    | split
    | with_reducible apply Kept.ite

theorem srefAck_kept : ∀ {u a0 s}, Kept u s → Kept u (srefAck a0 s) := by
  intros; refine Kept.trans (by assumption) ?_; unfold srefAck; try dsimp only
  repeat' first
    | with_reducible apply Kept.refl
    | with_reducible apply State.modPort_kept
    | split
    | with_reducible apply Kept.ite

theorem srefSilent_kept : ∀ {u a0 s}, Kept u s → Kept u (srefSilent a0 s) := by
  intros; refine Kept.trans (by assumption) ?_; unfold srefSilent; try dsimp only
  repeat' first
    | with_reducible apply Kept.refl
    | with_reducible apply State.emit_kept
    | with_reducible apply State.modPort_kept
    | with_reducible apply State.loseStack_kept
    | with_reducible apply State.modStack_kept
    | split
    | with_reducible apply Kept.ite

theorem stackTemp_kept : ∀ {u a0 a1 s}, Kept u s → Kept u (stackTemp a0 a1 s) := by
  intros; refine Kept.trans (by assumption) ?_; unfold stackTemp; try dsimp only
  repeat' first
    | with_reducible apply Kept.refl
    | with_reducible apply State.modSelv_kept
    | with_reducible apply State.modStack_kept
    | with_reducible apply Kept.ite

theorem eccCorrected_kept : ∀ {u a0 a1 s}, Kept u s → Kept u (eccCorrected a0 a1 s) := by
  intros; refine Kept.trans (by assumption) ?_; unfold eccCorrected; try dsimp only
  repeat' first
    | with_reducible apply Kept.refl
    | with_reducible apply State.modStack_kept
    | with_reducible apply Kept.ite

theorem eccUncorrected_kept : ∀ {u a0 a1 s}, Kept u s → Kept u (eccUncorrected a0 a1 s) := by
  intros; refine Kept.trans (by assumption) ?_; unfold eccUncorrected; try dsimp only
  repeat' first
    | simp only [Kept.fields_iff]
    | with_reducible apply Kept.refl
    | with_reducible apply State.modStack_kept
    | with_reducible apply State.event_kept
    | with_reducible apply Kept.ite

theorem twinWindow_kept : ∀ {u a0 a1 a2 a3 a4 s}, Kept u s → Kept u (twinWindow a0 a1 a2 a3 a4 s) := by
  intros; refine Kept.trans (by assumption) ?_; unfold twinWindow; try dsimp only
  repeat' first
    | simp only [Kept.fields_iff]
    | with_reducible apply Kept.refl
    | intro _
    | with_reducible apply State.release_kept
    | with_reducible apply Kept.ite
    | with_reducible apply Kept.foldl

theorem twinChainEnd_kept : ∀ {u a0 a1 a2 a3 a4 s}, Kept u s → Kept u (twinChainEnd a0 a1 a2 a3 a4 s) := by
  intros; refine Kept.trans (by assumption) ?_; unfold twinChainEnd; try dsimp only
  repeat' first
    | simp only [Kept.fields_iff]
    | with_reducible apply Kept.refl
    | intro _
    | with_reducible apply State.grantTwin_kept
    | with_reducible apply Kept.ite
    | with_reducible apply Kept.foldl

theorem cmdPortReenable_kept : ∀ {u r e s}, Kept u s → Kept u (cmdPortReenable.act r e s) := by
  intros; refine Kept.trans (by assumption) ?_; unfold cmdPortReenable; try dsimp only
  repeat' first
    | intro _
    | with_reducible apply Kept.refl
    | with_reducible apply State.modPort_kept
    | with_reducible apply State.inFlight_kept
    | with_reducible apply State.mismatch_kept
    | with_reducible apply State.confirmed_kept
    | with_reducible apply Kept.ite
    | split

theorem State.objWrite_kept : ∀ {u s a1 a2 a3}, Kept u s → Kept u (State.objWrite s a1 a2 a3) := by
  intros; refine Kept.trans (by assumption) ?_; unfold State.objWrite; try dsimp only
  repeat' first
    | with_reducible apply Kept.refl
    | with_reducible apply State.put_kept

theorem onTarget_kept {f r e u s} (k : Kept u s) (hf : ∀ {r e i t}, Kept t (f r e i t)) :
    Kept u (onTarget f r e s) := by
  unfold onTarget
  split
  · exact k.trans hf
  · exact k

theorem State.sendTwinWins_kept : ∀ {u s a1 a2 a3}, Kept u s → Kept u (State.sendTwinWins s a1 a2 a3) := by
  intros; refine Kept.trans (by assumption) ?_; unfold State.sendTwinWins; try dsimp only
  repeat' first
    | with_reducible apply Kept.refl
    | intro _
    | with_reducible apply State.sendMsg_kept
    | with_reducible apply Kept.foldl
    | split

theorem State.setRouters_kept : ∀ {u s a1 a2}, Kept u s → Kept u (State.setRouters s a1 a2) := by
  intros; refine Kept.trans (by assumption) ?_; unfold State.setRouters; try dsimp only
  repeat' first
    | simp only [Kept.fields_iff]
    | with_reducible apply Kept.refl

theorem State.castNow_kept : ∀ {u s a1 a2 a3}, Kept u s → Kept u (State.castNow s a1 a2 a3) := by
  intros; refine Kept.trans (by assumption) ?_; unfold State.castNow; try dsimp only
  repeat' first
    | simp only [Kept.fields_iff]
    | with_reducible apply Kept.refl
    | with_reducible apply State.takeFirmware_getD_kept
    | with_reducible apply State.modSw_kept
    | with_reducible apply State.setRouters_kept
    | with_reducible apply State.modNeedlesOf_kept
    | with_reducible apply State.repower_kept
    | with_reducible apply State.sendTwinWins_kept
    | split

theorem cmdCastSwatch_kept : ∀ {u r e s}, Kept u s → Kept u (cmdCastSwatch.act r e s) := by
  intros; refine Kept.trans (by assumption) ?_; unfold cmdCastSwatch; try dsimp only
  repeat' first
    | with_reducible apply Kept.refl
    | intro _
    | with_reducible apply onTarget_kept
    | with_reducible apply State.useFree_kept
    | with_reducible apply State.castNow_kept
    | with_reducible apply State.ok_kept
    | with_reducible apply Kept.ite

theorem cmdKnit_kept : ∀ {u r e s}, Kept u s → Kept u (cmdKnit.act r e s) := by
  intros; refine Kept.trans (by assumption) ?_; unfold cmdKnit; try dsimp only
  repeat' first
    | with_reducible apply Kept.refl
    | intro _
    | with_reducible apply onTarget_kept
    | with_reducible apply State.modSw_kept
    | with_reducible apply State.inFlight_kept

theorem cmdStopKnit_kept : ∀ {u r e s}, Kept u s → Kept u (cmdStopKnit.act r e s) := by
  intros; refine Kept.trans (by assumption) ?_; unfold cmdStopKnit; try dsimp only
  repeat' first
    | with_reducible apply Kept.refl
    | intro _
    | with_reducible apply onTarget_kept
    | with_reducible apply State.ok_kept
    | with_reducible apply State.modSw_kept

theorem cmdHoldSwatch_kept : ∀ {u r e s}, Kept u s → Kept u (cmdHoldSwatch.act r e s) := by
  intros; refine Kept.trans (by assumption) ?_; unfold cmdHoldSwatch; try dsimp only
  repeat' first
    | with_reducible apply Kept.refl
    | intro _
    | with_reducible apply onTarget_kept
    | with_reducible apply State.modSw_kept
    | with_reducible apply State.hold_kept
    | with_reducible apply State.inFlight_kept

theorem quiesceOver_kept : ∀ {u a0 s}, Kept u s → Kept u (quiesceOver a0 s) := by
  intros; refine Kept.trans (by assumption) ?_; unfold quiesceOver; try dsimp only
  repeat' first
    | with_reducible apply Kept.refl
    | with_reducible apply State.modSw_kept
    | with_reducible apply State.modNeedlesOf_kept
    | with_reducible apply Kept.ite

theorem foldl_wf {α : Type} {f : List (Nat × Byte) → α → List (Nat × Byte)} {l : List α} {m : List (Nat × Byte)}
    (h : Memory.wf m = true) (hf : ∀ m x, Memory.wf m = true → Memory.wf (f m x) = true) :
    Memory.wf (l.foldl f m) = true := by
  induction l generalizing m with
  | nil => exact h
  | cons a l ih => exact ih (hf _ _ h)
theorem memMove_wf {m : List (Nat × Byte)} (h : Memory.wf m = true) (a b n : Nat) : Memory.wf (memMove m a b n) = true :=
  foldl_wf (memClear_wf h _ _) fun _ _ k => memSet_wf k _ _
theorem Needle.save_wf {m : List (Nat × Byte)} (h : Memory.wf m = true) (x : Needle) (a : Nat) :
    Memory.wf (x.save a m) = true :=
  memWrite_wf (memWrite_wf (foldl_wf h fun _ _ k => memSet_wf k _ _) _ _) _ _
theorem State.writeSave_kept : ∀ {u s a1}, Kept u s → Kept u (State.writeSave s a1) := fun k =>
  k.memory fun h => foldl_wf (foldl_wf h fun _ _ h => memMove_wf (memClear_wf h _ _) _ _ _) fun _ _ h => Needle.save_wf h _ _

theorem saveDone_kept : ∀ {u a0 s}, Kept u s → Kept u (saveDone a0 s) := by
  intros; refine Kept.trans (by assumption) ?_; unfold saveDone; try dsimp only
  repeat' first
    | intro _
    | simp only [Kept.fields_iff]
    | with_reducible apply Kept.refl
    | with_reducible apply State.flushCache_kept
    | with_reducible apply State.modNeedlesOf_kept
    | with_reducible apply State.modSw_kept
    | with_reducible apply State.repower_kept
    | with_reducible apply State.swStatus_kept
    | with_reducible apply State.ok_kept
    | with_reducible apply State.modCoresOf_kept
    | with_reducible apply State.writeSave_kept
    | split
    | with_reducible apply Kept.ite

theorem cmdRestoreSwatch_kept : ∀ {u r e s}, Kept u s → Kept u (cmdRestoreSwatch.act r e s) := by
  intros; refine Kept.trans (by assumption) ?_; unfold cmdRestoreSwatch; try dsimp only
  repeat' first
    | with_reducible apply Kept.refl
    | intro _
    | with_reducible apply onTarget_kept
    | with_reducible apply State.repower_kept
    | with_reducible apply State.modSw_kept
    | with_reducible apply State.inFlight_kept

theorem State.reload_kept : ∀ {u s a1 a2}, Kept u s → Kept u (State.reload s a1 a2) := fun k =>
  State.modCoresOf_kept (k.memory fun h => foldl_wf h fun _ _ h => memMove_wf h _ _ _)

theorem State.resumeCore_kept : ∀ {u s a1}, Kept u s → Kept u (State.resumeCore s a1) := by
  intros; refine Kept.trans (by assumption) ?_; unfold State.resumeCore; try dsimp only
  repeat' first
    | simp only [Kept.fields_iff]
    | with_reducible apply Kept.refl
    | with_reducible apply State.modCoresOf_kept

theorem State.dropSave_kept : ∀ {u s a1}, Kept u s → Kept u (State.dropSave s a1) := by
  intros; refine Kept.trans (by assumption) ?_; unfold State.dropSave; try dsimp only
  repeat' first
    | simp only [Kept.fields_iff]
    | with_reducible apply Kept.refl

theorem reloadDone_kept : ∀ {u a0 s}, Kept u s → Kept u (reloadDone a0 s) := by
  intros; refine Kept.trans (by assumption) ?_; unfold reloadDone; try dsimp only
  repeat' first
    | intro _
    | with_reducible apply Kept.refl
    | with_reducible apply State.modSw_kept
    | with_reducible apply State.reply_kept
    | with_reducible apply State.repower_kept
    | with_reducible apply State.reload_kept
    | with_reducible apply State.replayTiles_kept
    | with_reducible apply State.dropSave_kept
    | with_reducible apply State.resumeCore_kept
    | with_reducible apply State.modNeedlesOf_kept
    | with_reducible apply State.ok_kept
    | with_reducible apply State.modCoresOf_kept
    | split
    | with_reducible apply Kept.ite

theorem State.returnCore_kept : ∀ {u s a1 a2}, Kept u s → Kept u (State.returnCore s a1 a2) := by
  intros; refine Kept.trans (by assumption) ?_; unfold State.returnCore; try dsimp only
  repeat' first
    | simp only [Kept.fields_iff]
    | with_reducible apply Kept.refl
    | with_reducible apply State.flushCache_kept
    | with_reducible apply State.release_kept
    | with_reducible apply State.modDst_kept
    | split

theorem State.abortWaiting_kept : ∀ {u s a1}, Kept u s → Kept u (State.abortWaiting s a1) := by
  intros; refine Kept.trans (by assumption) ?_; unfold State.abortWaiting; try dsimp only
  repeat' first
    | with_reducible apply Kept.refl
    | intro _
    | with_reducible apply State.replyOpt_kept
    | with_reducible apply State.ok_kept
    | with_reducible apply State.modSw_kept
    | with_reducible apply Kept.foldl

theorem State.sendTwinChains_kept : ∀ {u s a1 a2 a3}, Kept u s → Kept u (State.sendTwinChains s a1 a2 a3) := by
  intros; refine Kept.trans (by assumption) ?_; unfold State.sendTwinChains; try dsimp only
  repeat' first
    | with_reducible apply Kept.refl
    | intro _
    | with_reducible apply State.sendMsg_kept
    | with_reducible apply Kept.foldl
    | split

theorem State.bindOff_kept : ∀ {u s a1 a2}, Kept u s → Kept u (State.bindOff s a1 a2) := by
  intros; refine Kept.trans (by assumption) ?_; unfold State.bindOff; try dsimp only
  repeat' first
    | simp only [Kept.fields_iff]
    | with_reducible apply Kept.refl
    | intro _
    | with_reducible apply State.faultRings_kept
    | with_reducible apply State.abortWaiting_kept
    | with_reducible apply State.abortKnit_kept
    | with_reducible apply State.frogAll_kept
    | with_reducible apply State.endGrants_kept
    | with_reducible apply State.returnCore_kept
    | with_reducible apply State.sendTwinChains_kept
    | with_reducible apply State.modNeedlesOf_kept
    | with_reducible apply State.modSw_kept
    | with_reducible apply Kept.foldl
    | split
    | with_reducible apply Kept.ite

theorem cmdBindOffSwatch_kept : ∀ {u r e s}, Kept u s → Kept u (cmdBindOffSwatch.act r e s) := by
  intros; refine Kept.trans (by assumption) ?_; unfold cmdBindOffSwatch; try dsimp only
  repeat' first
    | with_reducible apply Kept.refl
    | intro _
    | with_reducible apply onTarget_kept
    | with_reducible apply State.bindOff_kept
    | with_reducible apply State.inFlight_kept

theorem State.pruneHanks_kept : ∀ {u s a1}, Kept u s → Kept u (State.pruneHanks s a1) := by
  intros; refine Kept.trans (by assumption) ?_; unfold State.pruneHanks; try dsimp only
  repeat' first
    | simp only [Kept.fields_iff]
    | with_reducible apply Kept.refl

theorem zeroingDone_kept : ∀ {u a0 s}, Kept u s → Kept u (zeroingDone a0 s) := by
  intros; refine Kept.trans (by assumption) ?_; unfold zeroingDone; try dsimp only
  repeat' first
    | intro _
    | simp only [Kept.fields_iff]
    | with_reducible apply Kept.refl
    | with_reducible apply State.releaseRuns_kept
    | with_reducible apply State.sendTwinWins_kept
    | with_reducible apply State.pruneHanks_kept
    | with_reducible apply State.modNeedlesOf_kept
    | with_reducible apply State.modSkeinsOf_kept
    | with_reducible apply State.repower_kept
    | with_reducible apply State.modSw_kept
    | with_reducible apply State.ok_kept
    | with_reducible apply State.modSelv_kept
    | split
    | with_reducible refine Kept.memory ?_ (fun h => foldl_memClear_wf h)
    | with_reducible apply Kept.ite
    | with_reducible apply Kept.foldl

theorem cmdQuerySwatch_kept : ∀ {u r e s}, Kept u s → Kept u (cmdQuerySwatch.act r e s) := by
  intros; refine Kept.trans (by assumption) ?_; unfold cmdQuerySwatch; try dsimp only
  repeat' first
    | with_reducible apply Kept.refl
    | intro _
    | with_reducible apply onTarget_kept
    | with_reducible apply State.ok_kept

theorem cmdSetSwatchPpoint_kept : ∀ {u r e s}, Kept u s → Kept u (cmdSetSwatchPpoint.act r e s) := by
  intros; refine Kept.trans (by assumption) ?_; unfold cmdSetSwatchPpoint; try dsimp only
  repeat' first
    | with_reducible apply Kept.refl
    | intro _
    | with_reducible apply onTarget_kept
    | with_reducible apply State.answerPp_kept
    | with_reducible apply State.repower_kept
    | with_reducible apply State.modSw_kept
    | with_reducible apply State.inFlight_kept
    | with_reducible apply Kept.ite

theorem cmdSetSwatchGauge_kept : ∀ {u r e s}, Kept u s → Kept u (cmdSetSwatchGauge.act r e s) := by
  intros; refine Kept.trans (by assumption) ?_; unfold cmdSetSwatchGauge; try dsimp only
  repeat' first
    | with_reducible apply Kept.refl
    | intro _
    | with_reducible apply onTarget_kept
    | with_reducible apply State.ok_kept
    | with_reducible apply State.modSw_kept

theorem cmdGrantDistaff_kept : ∀ {u r e s}, Kept u s → Kept u (cmdGrantDistaff.act r e s) := by
  intros; refine Kept.trans (by assumption) ?_; unfold cmdGrantDistaff; try dsimp only
  repeat' first
    | with_reducible apply Kept.refl
    | intro _
    | with_reducible apply onTarget_kept
    | with_reducible apply State.takeFirmware_getD_kept
    | with_reducible refine (State.takeFirmware_keeps (by assumption)) ?_
    | with_reducible refine (State.takeFirmware_if_keeps (by assumption)) ?_
    | with_reducible apply State.flushCache_kept
    | with_reducible apply State.modDst_kept
    | with_reducible apply State.ok_kept
    | with_reducible apply State.raiseLine_kept
    | with_reducible apply Kept.foldl
    | split
    | with_reducible apply Kept.ite

theorem cmdReturnDistaff_kept : ∀ {u r e s}, Kept u s → Kept u (cmdReturnDistaff.act r e s) := by
  intros; refine Kept.trans (by assumption) ?_; unfold cmdReturnDistaff; try dsimp only
  repeat' first
    | with_reducible apply Kept.refl
    | with_reducible apply State.ok_kept
    | with_reducible apply State.returnCore_kept
    | with_reducible apply Kept.ite

theorem cmdCommitDraft_kept : ∀ {u r e s}, Kept u s → Kept u (cmdCommitDraft.act r e s) := by
  intros; refine Kept.trans (by assumption) ?_; unfold cmdCommitDraft; try dsimp only
  repeat' first
    | with_reducible apply Kept.refl
    | intro _
    | with_reducible apply onTarget_kept
    | with_reducible apply State.inFlight_kept
    | with_reducible apply State.modSw_kept
    | with_reducible apply Kept.ite

theorem copiesDone_kept : ∀ {u a0 s}, Kept u s → Kept u (copiesDone a0 s) := by
  intros; refine Kept.trans (by assumption) ?_; unfold copiesDone; try dsimp only
  repeat' first
    | intro _
    | with_reducible apply Kept.refl
    | with_reducible apply State.ok_kept
    | with_reducible apply State.modSw_kept
    | with_reducible apply State.copyRow_kept
    | split
    | with_reducible apply Kept.ite
    | with_reducible apply Kept.foldl

theorem cmdFrogDraft_kept : ∀ {u r e s}, Kept u s → Kept u (cmdFrogDraft.act r e s) := by
  intros; refine Kept.trans (by assumption) ?_; unfold cmdFrogDraft; try dsimp only
  repeat' first
    | with_reducible apply Kept.refl
    | intro _
    | with_reducible apply onTarget_kept
    | with_reducible apply State.ok_kept
    | with_reducible apply State.modSw_kept

theorem State.viewRefused_kept : ∀ {u s a1}, Kept u s → Kept u (State.viewRefused s a1) := by
  intros; refine Kept.trans (by assumption) ?_; unfold State.viewRefused; try dsimp only
  repeat' first
    | with_reducible apply Kept.refl
    | with_reducible apply State.modEdgeCarder_kept

theorem State.viewConvert_kept : ∀ {u s a1 a2 a3 a4 a5}, Kept u s → Kept u (State.viewConvert s a1 a2 a3 a4 a5).1 := by
  intros; refine Kept.trans (by assumption) ?_; unfold State.viewConvert; try dsimp only
  repeat' first
    | with_reducible apply Kept.refl
    | with_reducible apply State.modEdgeCarder_kept
theorem State.viewConvert_keeps : ∀ {u s a1 a2 a3 a4 a5 r t}, State.viewConvert s a1 a2 a3 a4 a5 = (t, r) → Kept u s → Kept u t := by
  intros; rename_i h k; exact k.trans (Kept.pair (State.viewConvert_kept Kept.refl) h)

theorem State.rangeCheck_kept : ∀ {u s a1 a2 a3 a4 a5}, Kept u s → Kept u (State.rangeCheck s a1 a2 a3 a4 a5).1 := by
  intros; refine Kept.trans (by assumption) ?_; unfold State.rangeCheck; try dsimp only
  refine Kept.iteFst Kept.refl (Kept.foldlFst Kept.refl fun _ _ => ?_)
  split
  · split
    · next h => exact State.spoolCheck_keeps h Kept.refl
    · next h => exact State.spoolCheck_keeps h Kept.refl
  · exact Kept.refl

theorem State.rangeCheck_keeps : ∀ {u s a1 a2 a3 a4 a5 r t}, State.rangeCheck s a1 a2 a3 a4 a5 = (t, r) → Kept u s → Kept u t := by
  intros; rename_i h k; exact k.trans (Kept.pair (State.rangeCheck_kept Kept.refl) h)

theorem State.viewSend_kept : ∀ {u s a1 a2 a3 a4 a5 a6 a7}, Kept u s → Kept u (State.viewSend s a1 a2 a3 a4 a5 a6 a7) := by
  intros; refine Kept.trans (by assumption) ?_; unfold State.viewSend; try dsimp only
  repeat' first
    | with_reducible apply Kept.refl
    | intro _
    | with_reducible apply State.sendAccess_kept
    | with_reducible apply Kept.foldl
    | split

theorem State.viewCheck_kept : ∀ {u s a1 a2 a3 a4 a5 a6 a7 a8}, Kept u s → Kept u (State.viewCheck s a1 a2 a3 a4 a5 a6 a7 a8).1 := by
  intros; refine Kept.trans (by assumption) ?_; unfold State.viewCheck; try dsimp only
  repeat' first
    | with_reducible apply Kept.refl
    | with_reducible apply State.ok_kept
    | with_reducible apply State.rangeCheck_kept
    | with_reducible refine (State.rangeCheck_keeps (by assumption)) ?_
    | with_reducible apply Kept.ite
    | with_reducible apply Kept.iteFst
    | split
theorem State.viewCheck_keeps : ∀ {u s a1 a2 a3 a4 a5 a6 a7 a8 r t}, State.viewCheck s a1 a2 a3 a4 a5 a6 a7 a8 = (t, r) → Kept u s → Kept u t := by
  intros; rename_i h k; exact k.trans (Kept.pair (State.viewCheck_kept Kept.refl) h)

theorem State.viewReadNow_kept : ∀ {u s a1 a2 a3 a4 a5 a6 a7 a8 a9 a10}, Kept u s → Kept u (State.viewReadNow s a1 a2 a3 a4 a5 a6 a7 a8 a9 a10).1 := by
  intros; refine Kept.trans (by assumption) ?_; unfold State.viewReadNow; try dsimp only
  repeat' first
    | with_reducible apply Kept.refl
    | intro _
    | with_reducible apply State.viewCheck_kept
    | with_reducible apply State.viewSend_kept
    | with_reducible apply State.viewRefused_kept
    | with_reducible refine (State.viewCheck_keeps (by assumption)) ?_
    | split
theorem State.viewReadNow_keeps : ∀ {u s a1 a2 a3 a4 a5 a6 a7 a8 a9 a10 r t}, State.viewReadNow s a1 a2 a3 a4 a5 a6 a7 a8 a9 a10 = (t, r) → Kept u s → Kept u t := by
  intros; rename_i h k; exact k.trans (Kept.pair (State.viewReadNow_kept Kept.refl) h)

theorem State.viewRead_kept : ∀ {u s a1 a2 a3 a4 a5 a6 a7 a8 a9 a10}, Kept u s → Kept u (State.viewRead s a1 a2 a3 a4 a5 a6 a7 a8 a9 a10).1 := by
  intros; refine Kept.trans (by assumption) ?_; unfold State.viewRead; try dsimp only
  repeat' first
    | with_reducible apply Kept.refl
    | with_reducible apply State.viewRefused_kept
    | with_reducible apply State.spoolCheck_kept
    | with_reducible refine (State.spoolCheck_keeps (by assumption)) ?_
    | with_reducible apply State.sendAccess_kept
    | with_reducible apply State.viewConvert_kept
    | with_reducible refine (State.viewConvert_keeps (by assumption)) ?_
    | with_reducible apply State.viewReadNow_kept
    | with_reducible refine (State.viewReadNow_keeps (by assumption)) ?_
    | with_reducible apply Kept.iteFst
    | split
theorem State.viewRead_keeps : ∀ {u s a1 a2 a3 a4 a5 a6 a7 a8 a9 a10 r t}, State.viewRead s a1 a2 a3 a4 a5 a6 a7 a8 a9 a10 = (t, r) → Kept u s → Kept u t := by
  intros; rename_i h k; exact k.trans (Kept.pair (State.viewRead_kept Kept.refl) h)

theorem State.viewWrite_kept : ∀ {u s a1 a2 a3 a4 a5 a6 a7 a8}, Kept u s → Kept u (State.viewWrite s a1 a2 a3 a4 a5 a6 a7 a8).1 := by
  intros; refine Kept.trans (by assumption) ?_; unfold State.viewWrite; try dsimp only
  refine Kept.iteFst (State.viewRefused_kept Kept.refl) (Kept.iteFst Kept.refl ?_)
  split
  · next h => dsimp only; exact State.viewSend_kept (State.viewConvert_kept (State.viewCheck_keeps h Kept.refl))
  · next h => exact State.viewRefused_kept (State.viewCheck_keeps h Kept.refl)
  · next h => exact State.viewCheck_keeps h Kept.refl

theorem State.viewWrite_keeps : ∀ {u s a1 a2 a3 a4 a5 a6 a7 a8 r t}, State.viewWrite s a1 a2 a3 a4 a5 a6 a7 a8 = (t, r) → Kept u s → Kept u t := by
  intros; rename_i h k; exact k.trans (Kept.pair (State.viewWrite_kept Kept.refl) h)

theorem cmdQueryMemory_kept : ∀ {u r e s}, Kept u s → Kept u (cmdQueryMemory.act r e s) := by
  intros; refine Kept.trans (by assumption) ?_; unfold cmdQueryMemory; try dsimp only
  repeat' first
    | with_reducible apply Kept.refl
    | with_reducible apply State.ok_kept

theorem cmdAllocHanks_kept : ∀ {u r e s}, Kept u s → Kept u (cmdAllocHanks.act r e s) := by
  intros; refine Kept.trans (by assumption) ?_; unfold cmdAllocHanks; try dsimp only
  repeat' first
    | simp only [Kept.fields_iff]
    | with_reducible apply Kept.refl
    | with_reducible apply State.reply_kept
    | with_reducible apply State.modSw_kept
    | with_reducible apply State.setPages_kept
    | with_reducible apply State.ok_kept
    | split

theorem State.zeroRange_kept : ∀ {u s a1 a2}, Kept u s → Kept u (State.zeroRange s a1 a2) := by
  intros; refine Kept.trans (by assumption) ?_; unfold State.zeroRange; try dsimp only
  split
  · exact Kept.foldl Kept.refl fun _ _ => State.sendAccess_kept Kept.refl
  · exact Kept.memory Kept.refl fun h => memClear_wf h _ _

theorem cmdFreeHanks_kept : ∀ {u r e s}, Kept u s → Kept u (cmdFreeHanks.act r e s) := by
  intros; refine Kept.trans (by assumption) ?_; unfold cmdFreeHanks; try dsimp only
  repeat' first
    | simp only [Kept.fields_iff]
    | with_reducible apply Kept.refl
    | with_reducible apply State.reply_kept
    | with_reducible apply State.zeroRange_kept
    | with_reducible apply State.ok_kept
    | with_reducible apply State.releaseRuns_kept
    | split
    | with_reducible refine Kept.memory ?_ (fun h => foldl_memClear_wf h)
    | with_reducible refine Kept.memory ?_ (fun h => memClear_wf h _ _)
    | with_reducible apply Kept.ite

theorem State.putOwn_kept : ∀ {u s a1 a2 a3}, Kept u s → Kept u (State.putOwn s a1 a2 a3) := by
  intros; refine Kept.trans (by assumption) ?_; unfold State.putOwn; try dsimp only
  repeat' first
    | with_reducible apply Kept.refl
    | with_reducible apply State.put_kept
    | with_reducible apply Kept.ite
    | with_reducible apply Kept.iteFst
    | split

theorem State.memPut_kept : ∀ {u s a1 a2 a3 a4}, Kept u s → Kept u (State.memPut s a1 a2 a3 a4).1 := by
  intros; refine Kept.trans (by assumption) ?_; unfold State.memPut; try dsimp only
  repeat' first
    | with_reducible apply Kept.refl
    | with_reducible apply State.mediaError_kept
    | with_reducible apply State.sendAccess_kept
    | with_reducible apply State.put_kept
    | with_reducible apply State.putOwn_kept
    | with_reducible apply Kept.iteFst
    | split
theorem State.memPut_keeps : ∀ {u s a1 a2 a3 a4 r t}, State.memPut s a1 a2 a3 a4 = (t, r) → Kept u s → Kept u t := by
  intros; rename_i h k; exact k.trans (Kept.pair (State.memPut_kept Kept.refl) h)

theorem State.memPuts_kept {u s r ex l} (k : Kept u s) : Kept u (State.memPuts s r ex l).1 := by
  induction l generalizing s with
  | nil => exact k
  | cons c l ih =>
    unfold State.memPuts
    dsimp only
    apply Kept.iteFst
    · exact ih (State.memPut_kept k)
    · exact State.memPut_kept k
theorem State.memPuts_keeps {u s r ex l b t} (h : State.memPuts s r ex l = (t, b)) (k : Kept u s) : Kept u t :=
  Kept.pair (State.memPuts_kept k) h

theorem State.memEnd_kept : ∀ {u s a1 a2 a3 a4}, Kept u s → Kept u (State.memEnd s a1 a2 a3 a4) := by
  intros; refine Kept.trans (by assumption) ?_; unfold State.memEnd; try dsimp only
  repeat' first
    | simp only [Kept.fields_iff]
    | with_reducible apply Kept.refl
    | with_reducible apply State.reply_kept
    | with_reducible apply State.inFlight_kept
    | with_reducible apply State.ok_kept
    | with_reducible apply Kept.ite

theorem cmdMemFill_kept : ∀ {u r e s}, Kept u s → Kept u (cmdMemFill.act r e s) := by
  intros; refine Kept.trans (by assumption) ?_; unfold cmdMemFill; try dsimp only
  repeat' first
    | with_reducible apply Kept.refl
    | with_reducible apply State.memPuts_kept
    | with_reducible apply State.memEnd_kept

theorem State.memAsk_kept : ∀ {u s a1 a2 a3}, Kept u s → Kept u (State.memAsk s a1 a2 a3) := by
  intros; refine Kept.trans (by assumption) ?_; unfold State.memAsk; try dsimp only
  repeat' first
    | with_reducible apply Kept.refl
    | with_reducible apply State.viewReadNow_kept
    | with_reducible apply State.sendAccess_kept
    | with_reducible refine (State.viewReadNow_keeps (by assumption)) ?_
    | split

theorem cmdMemCopy_kept : ∀ {u r e s}, Kept u s → Kept u (cmdMemCopy.act r e s) := by
  intros; refine Kept.trans (by assumption) ?_; unfold cmdMemCopy; try dsimp only
  repeat' first
    | with_reducible apply Kept.refl
    | intro _
    | with_reducible apply State.memPuts_kept
    | with_reducible apply State.sendAccess_kept
    | with_reducible apply State.mediaError_kept
    | with_reducible apply State.memEnd_kept
    | with_reducible apply State.memAsk_kept
    | with_reducible apply Kept.foldl
    | split
    | with_reducible apply Kept.ite

theorem State.putImage_kept : ∀ {u s a1 a2 a3 a4}, Kept u s → Kept u (State.putImage s a1 a2 a3 a4) := by
  intros; refine Kept.trans (by assumption) ?_; unfold State.putImage; try dsimp only
  repeat' first
    | simp only [Kept.fields_iff]
    | with_reducible apply Kept.refl
    | with_reducible apply State.put_kept
    | split
    | with_reducible apply Kept.ite

theorem cmdLoadProgram_kept : ∀ {u r e s}, Kept u s → Kept u (cmdLoadProgram.act r e s) := by
  intros; refine Kept.trans (by assumption) ?_; unfold cmdLoadProgram; try dsimp only
  repeat' first
    | with_reducible apply Kept.refl
    | intro _
    | with_reducible apply onTarget_kept
    | with_reducible apply State.takeFirmware_getD_kept
    | with_reducible refine (State.takeFirmware_keeps (by assumption)) ?_
    | with_reducible refine (State.takeFirmware_if_keeps (by assumption)) ?_
    | with_reducible apply State.modSw_kept
    | with_reducible apply State.putImage_kept
    | with_reducible apply State.ok_kept
    | with_reducible apply Kept.foldl
    | split

theorem cmdUnloadProgram_kept : ∀ {u r e s}, Kept u s → Kept u (cmdUnloadProgram.act r e s) := by
  intros; refine Kept.trans (by assumption) ?_; unfold cmdUnloadProgram; try dsimp only
  repeat' first
    | with_reducible apply Kept.refl
    | intro _
    | with_reducible apply onTarget_kept
    | with_reducible apply State.reply_kept
    | with_reducible apply State.release_kept
    | with_reducible apply State.ok_kept
    | with_reducible apply State.modSw_kept
    | split

theorem cmdLoadStitchMap_kept : ∀ {u r e s}, Kept u s → Kept u (cmdLoadStitchMap.act r e s) := by
  intros; refine Kept.trans (by assumption) ?_; unfold cmdLoadStitchMap; try dsimp only
  repeat' first
    | with_reducible apply Kept.refl
    | intro _
    | with_reducible apply onTarget_kept
    | with_reducible apply State.ok_kept
    | with_reducible apply State.modSw_kept
    | split

theorem State.bobPut_kept : ∀ {u s a1 a2 a3}, Kept u s → Kept u (State.bobPut s a1 a2 a3) := by
  intros; refine Kept.trans (by assumption) ?_; unfold State.bobPut; try dsimp only
  split
  · exact Kept.foldlFst Kept.refl fun _ _ => State.putOwn_kept Kept.refl
  · exact State.modBob_kept Kept.refl

theorem State.readCount_kept : ∀ {u s a1}, Kept u s → Kept u (State.readCount s a1) := by
  intros; refine Kept.trans (by assumption) ?_; unfold State.readCount; try dsimp only
  repeat' first
    | with_reducible apply Kept.refl
    | with_reducible apply State.modBob_kept
    | split

theorem State.openFrame_kept : ∀ {u s a1 a2 a3}, Kept u s → Kept u (State.openFrame s a1 a2 a3) := by
  intros; refine Kept.trans (by assumption) ?_; unfold State.openFrame; try dsimp only
  repeat' first
    | with_reducible apply Kept.refl
    | with_reducible apply State.readCount_kept
    | with_reducible apply State.modBob_kept
    | with_reducible apply Kept.ite
    | split

theorem State.framePut_kept : ∀ {u s a1 a2 a3}, Kept u s → Kept u (State.framePut s a1 a2 a3) := by
  intros; refine Kept.trans (by assumption) ?_; unfold State.framePut; try dsimp only
  split
  · exact State.bobPut_kept Kept.refl
  · exact State.modBob_kept (State.bobPut_kept Kept.refl)

theorem State.addPayload_kept : ∀ {u s a1 a2}, Kept u s → Kept u (State.addPayload s a1 a2) := by
  intros; refine Kept.trans (by assumption) ?_; unfold State.addPayload; try dsimp only
  repeat' first
    | with_reducible apply Kept.refl
    | with_reducible apply State.framePut_kept
    | with_reducible apply State.modBob_kept
    | split

theorem State.closeFrame_kept : ∀ {u s a1 a2}, Kept u s → Kept u (State.closeFrame s a1 a2) := by
  intros; refine Kept.trans (by assumption) ?_; unfold State.closeFrame; try dsimp only
  repeat' first
    | with_reducible apply Kept.refl
    | with_reducible apply State.framePut_kept
    | with_reducible apply State.modBob_kept
    | split

theorem State.modCsi_kept : ∀ {u s a1 a2 a3}, Kept u s → Kept u (State.modCsi s a1 a2 a3) := by
  intros; refine Kept.trans (by assumption) ?_; unfold State.modCsi; try dsimp only
  repeat' first
    | with_reducible apply Kept.refl
    | with_reducible apply State.modIo_kept

theorem csiStart_kept : ∀ {u a0 a1 a2 s}, Kept u s → Kept u (csiStart a0 a1 a2 s) := by
  intros; refine Kept.trans (by assumption) ?_; unfold csiStart; try dsimp only
  repeat' first
    | with_reducible apply Kept.refl
    | intro _
    | with_reducible apply State.modCsi_kept
    | with_reducible apply State.openFrame_kept
    | with_reducible apply State.closeFrame_kept
    | with_reducible apply Kept.ite
    | with_reducible apply Kept.foldl

theorem csiPacket_kept : ∀ {u a0 a1 a2 a3 a4 a5 s}, Kept u s → Kept u (csiPacket a0 a1 a2 a3 a4 a5 s) := by
  intros; refine Kept.trans (by assumption) ?_; unfold csiPacket; try dsimp only
  repeat' first
    | with_reducible apply Kept.refl
    | intro _
    | with_reducible apply State.modCsi_kept
    | with_reducible apply State.modBob_kept
    | with_reducible apply State.addPayload_kept
    | with_reducible apply Kept.foldl
    | split

theorem csiEnd_kept : ∀ {u a0 a1 s}, Kept u s → Kept u (csiEnd a0 a1 s) := by
  intros; refine Kept.trans (by assumption) ?_; unfold csiEnd; try dsimp only
  repeat' first
    | with_reducible apply Kept.refl
    | intro _
    | with_reducible apply State.modCsi_kept
    | with_reducible apply State.closeFrame_kept
    | with_reducible apply Kept.ite
    | with_reducible apply Kept.foldl

theorem State.writeCount_kept : ∀ {u s a1}, Kept u s → Kept u (State.writeCount s a1) := by
  intros; refine Kept.trans (by assumption) ?_; unfold State.writeCount; try dsimp only
  repeat' first
    | with_reducible apply Kept.refl
    | with_reducible apply State.bobPut_kept

theorem State.passOver_kept : ∀ {u s a1 a2}, Kept u s → Kept u (State.passOver s a1 a2) := by
  intro u s a1 a2 h
  induction a2 generalizing s a1 with
  | zero =>
    unfold State.passOver; try dsimp only
    repeat' first
      | with_reducible assumption
  | succ a ih =>
    unfold State.passOver; try dsimp only
    repeat' first
      | with_reducible assumption
      | with_reducible apply State.writeCount_kept
      | with_reducible apply State.modBob_kept
      | split
      | with_reducible apply ih

theorem State.readProduced_kept : ∀ {u s a1}, Kept u s → Kept u (State.readProduced s a1) := by
  intros; refine Kept.trans (by assumption) ?_; unfold State.readProduced; try dsimp only
  repeat' first
    | with_reducible apply Kept.refl
    | with_reducible apply State.modBob_kept
    | split

theorem outputSent_kept : ∀ {u a0 a1 s}, Kept u s → Kept u (outputSent a0 a1 s) := by
  intros; refine Kept.trans (by assumption) ?_; unfold outputSent; try dsimp only
  repeat' first
    | with_reducible apply Kept.refl
    | with_reducible apply State.passOver_kept
    | with_reducible apply State.emit_kept
    | with_reducible apply State.writeCount_kept
    | with_reducible apply State.modBob_kept
    | with_reducible apply Kept.ite

theorem soundwireSample_kept : ∀ {u a0 a1 a2 s}, Kept u s → Kept u (soundwireSample a0 a1 a2 s) := by
  intros; refine Kept.trans (by assumption) ?_; unfold soundwireSample; try dsimp only
  repeat' first
    | with_reducible apply Kept.refl
    | with_reducible apply State.openFrame_kept
    | with_reducible apply State.addPayload_kept
    | with_reducible apply State.closeFrame_kept
    | with_reducible apply State.passOver_kept
    | with_reducible apply State.emit_kept
    | with_reducible apply State.modBob_kept
    | split

theorem ibiFrame_kept : ∀ {u a0 a1 a2 a3 s}, Kept u s → Kept u (ibiFrame a0 a1 a2 a3 s) := by
  intros; refine Kept.trans (by assumption) ?_; unfold ibiFrame; try dsimp only
  repeat' first
    | with_reducible apply Kept.refl
    | intro _
    | with_reducible apply State.closeFrame_kept
    | with_reducible apply State.addPayload_kept
    | with_reducible apply State.openFrame_kept
    | with_reducible apply Kept.ite
    | with_reducible apply Kept.foldl

theorem hotJoined_kept : ∀ {u a0 s}, Kept u s → Kept u (hotJoined a0 s) := by
  intros; refine Kept.trans (by assumption) ?_; unfold hotJoined; try dsimp only
  repeat' first
    | with_reducible apply Kept.refl
    | with_reducible apply State.modIo_kept
    | with_reducible apply State.i3cAssign_kept
    | split
    | with_reducible apply Kept.ite

theorem State.takeHost_kept : ∀ {u s a1 a2 a3 a4}, Kept u s → Kept u (State.takeHost s a1 a2 a3 a4) := by
  intros; refine Kept.trans (by assumption) ?_; unfold State.takeHost; try dsimp only
  repeat' first
    | with_reducible apply Kept.refl
    | with_reducible apply State.closeFrame_kept
    | with_reducible apply State.addPayload_kept
    | with_reducible apply State.openFrame_kept
    | with_reducible apply State.put_kept
    | with_reducible apply State.modBob_kept

theorem State.giveHost_kept : ∀ {u s a1 a2 a3}, Kept u s → Kept u (State.giveHost s a1 a2 a3) := by
  intros; refine Kept.trans (by assumption) ?_; unfold State.giveHost; try dsimp only
  repeat' first
    | with_reducible apply Kept.refl
    | with_reducible apply State.passOver_kept
    | with_reducible apply State.modBob_kept
    | with_reducible apply State.put_kept
    | with_reducible apply State.writeCount_kept
    | with_reducible apply Kept.ite

theorem pollHostRing_kept : ∀ {u a0 a1 s}, Kept u s → Kept u (pollHostRing a0 a1 s) := by
  intros; refine Kept.trans (by assumption) ?_; unfold pollHostRing; try dsimp only
  repeat' first
    | with_reducible apply Kept.refl
    | intro _
    | with_reducible apply State.modBob_kept
    | with_reducible apply State.takeHost_kept
    | with_reducible apply State.giveHost_kept
    | with_reducible apply Kept.foldl
    | split

theorem State.publishOne_kept : ∀ {u s a1}, Kept u s → Kept u (State.publishOne s a1) := by
  intros; refine Kept.trans (by assumption) ?_; unfold State.publishOne; try dsimp only
  repeat' first
    | with_reducible apply Kept.refl
    | with_reducible apply State.modBob_kept
    | with_reducible apply State.putOwn_kept
    | split

theorem State.publish_kept : ∀ {u s}, Kept u s → Kept u (State.publish s) := by
  intros; refine Kept.trans (by assumption) ?_; unfold State.publish; try dsimp only
  repeat' first
    | with_reducible apply Kept.refl
    | intro _
    | with_reducible apply State.publishOne_kept
    | with_reducible apply Kept.foldl

theorem State.dropEvents_kept : ∀ {u s a1}, Kept u s → Kept u (State.dropEvents s a1) := by
  intros; refine Kept.trans (by assumption) ?_; unfold State.dropEvents; try dsimp only
  repeat' first
    | with_reducible apply Kept.refl
    | intro _
    | with_reducible apply State.eventN_kept
    | with_reducible apply State.modBob_kept
    | with_reducible apply Kept.ite
    | with_reducible apply Kept.foldl

theorem State.shusTick_kept : ∀ {u s}, Kept u s → Kept u (State.shusTick s) := by
  intros; refine Kept.trans (by assumption) ?_; unfold State.shusTick; try dsimp only
  repeat' first
    | with_reducible apply Kept.refl
    | intro _
    | with_reducible apply State.readProduced_kept
    | with_reducible apply State.readCount_kept
    | with_reducible apply State.emit_kept
    | with_reducible apply Kept.ite
    | with_reducible apply Kept.foldl

theorem cmdBindBobbin_kept : ∀ {u r e s}, Kept u s → Kept u (cmdBindBobbin.act r e s) := by
  intros; refine Kept.trans (by assumption) ?_; unfold cmdBindBobbin; try dsimp only
  repeat' first
    | intro _
    | with_reducible apply Kept.refl
    | with_reducible apply State.ok_kept
    | with_reducible apply State.modBob_kept
    | with_reducible apply Cmd.run_kept
    | with_reducible apply Kept.ite

theorem cmdUnbindBobbin_kept : ∀ {u r e s}, Kept u s → Kept u (cmdUnbindBobbin.act r e s) := by
  intros; refine Kept.trans (by assumption) ?_; unfold cmdUnbindBobbin; try dsimp only
  repeat' first
    | with_reducible apply Kept.refl
    | with_reducible apply State.replyOpt_kept
    | with_reducible apply State.modBob_kept
    | with_reducible apply State.inFlight_kept
    | with_reducible apply State.ok_kept
    | with_reducible apply Kept.ite

theorem cmdRunBobbin_kept : ∀ {u r e s}, Kept u s → Kept u (cmdRunBobbin.act r e s) := by
  intros; refine Kept.trans (by assumption) ?_; unfold cmdRunBobbin; try dsimp only
  repeat' first
    | with_reducible apply Kept.refl
    | with_reducible apply State.replyOpt_kept
    | with_reducible apply State.modBob_kept
    | with_reducible apply State.inFlight_kept
    | with_reducible apply State.ok_kept
    | with_reducible apply Kept.ite

theorem cmdQueryBobbin_kept : ∀ {u r e s}, Kept u s → Kept u (cmdQueryBobbin.act r e s) := by
  intros; refine Kept.trans (by assumption) ?_; unfold cmdQueryBobbin; try dsimp only
  repeat' first
    | with_reducible apply Kept.refl
    | with_reducible apply State.ok_kept

theorem State.startProgram_kept : ∀ {u s a1 a2}, Kept u s → Kept u (State.startProgram s a1 a2) := by
  intros; refine Kept.trans (by assumption) ?_; unfold State.startProgram; try dsimp only
  repeat' first
    | intro _
    | with_reducible apply Kept.refl
    | with_reducible apply State.resetChans_kept
    | with_reducible apply State.modNeedlesOf_kept
    | with_reducible apply State.modCoresOf_kept
    | with_reducible apply State.modSw_kept

theorem State.endKnit_kept : ∀ {u s a1 a2}, Kept u s → Kept u (State.endKnit s a1 a2) := by
  intros; refine Kept.trans (by assumption) ?_; unfold State.endKnit; try dsimp only
  repeat' first
    | with_reducible apply Kept.refl
    | with_reducible apply State.modSw_kept
    | with_reducible apply State.modNeedlesOf_kept
    | with_reducible apply State.reply_kept
    | split

theorem State.overrun_kept : ∀ {u s a1}, Kept u s → Kept u (State.overrun s a1) := by
  intros; refine Kept.trans (by assumption) ?_; unfold State.overrun; try dsimp only
  repeat' first
    | with_reducible apply Kept.refl
    | with_reducible apply State.modSw_kept
    | with_reducible apply State.abandonRow_kept

theorem State.flip_kept : ∀ {u s a1 a2}, Kept u s → Kept u (State.flip s a1 a2) := by
  intros; refine Kept.trans (by assumption) ?_; unfold State.flip; try dsimp only
  repeat' first
    | with_reducible apply Kept.refl
    | with_reducible apply State.modSw_kept

theorem State.commitOne_kept : ∀ {u s a1 a2}, Kept u s → Kept u (State.commitOne s a1 a2) := by
  intros; refine Kept.trans (by assumption) ?_; unfold State.commitOne; try dsimp only
  repeat' first
    | with_reducible apply Kept.refl
    | with_reducible apply State.overrun_kept
    | with_reducible apply State.flip_kept
    | with_reducible apply State.noteFinish_kept
    | with_reducible apply State.swStatus_kept
    | split

theorem State.carryOn_kept : ∀ {u s a1 a2}, Kept u s → Kept u (State.carryOn s a1 a2) := by
  intros; refine Kept.trans (by assumption) ?_; unfold State.carryOn; try dsimp only
  repeat' first
    | with_reducible apply Kept.refl
    | with_reducible apply State.startProgram_kept
    | with_reducible apply State.endKnit_kept
    | with_reducible apply State.modSw_kept
    | split

theorem State.swapMaps_kept : ∀ {u s a1 a2}, Kept u s → Kept u (State.swapMaps s a1 a2) := by
  intros; refine Kept.trans (by assumption) ?_; unfold State.swapMaps; try dsimp only
  repeat' first
    | simp only [Kept.fields_iff]
    | with_reducible apply Kept.refl
    | with_reducible apply State.modSw_kept
    | with_reducible apply State.sendTwinChains_kept
    | with_reducible apply State.modSkeinsOf_kept
    | with_reducible apply State.grantTwin_kept
    | split

theorem State.answerWaits_kept : ∀ {u s a1}, Kept u s → Kept u (State.answerWaits s a1) := by
  intros; refine Kept.trans (by assumption) ?_; unfold State.answerWaits; try dsimp only
  repeat' first
    | with_reducible apply Kept.refl
    | intro _
    | with_reducible apply State.modTick_kept
    | with_reducible apply State.reply_kept
    | with_reducible apply Kept.foldl

theorem State.overrunEvents_kept : ∀ {u s a1 a2}, Kept u s → Kept u (State.overrunEvents s a1 a2) := by
  intros; refine Kept.trans (by assumption) ?_; unfold State.overrunEvents; try dsimp only
  repeat' first
    | with_reducible apply Kept.refl
    | intro _
    | with_reducible apply State.eventN_kept
    | with_reducible apply Kept.ite
    | with_reducible apply Kept.foldl

theorem State.nextRow_kept : ∀ {u s}, Kept u s → Kept u (State.nextRow s) := by
  intros; refine Kept.trans (by assumption) ?_; unfold State.nextRow; try dsimp only
  repeat' first
    | simp only [Kept.fields_iff]
    | with_reducible apply Kept.refl
    | with_reducible apply State.modTick_kept
    | with_reducible apply State.useFree_kept

theorem State.runTick_kept : ∀ {u s}, Kept u s → Kept u (State.runTick s) := by
  intros; refine Kept.trans (by assumption) ?_; unfold State.runTick; try dsimp only
  repeat' first
    | simp only [Kept.fields_iff]
    | with_reducible apply Kept.refl
    | intro _
    | with_reducible apply State.commitOne_kept
    | with_reducible apply State.swapMaps_kept
    | with_reducible apply State.publish_kept
    | with_reducible apply State.nextRow_kept
    | with_reducible apply State.carryOn_kept
    | with_reducible apply State.overrunEvents_kept
    | with_reducible apply State.answerWaits_kept
    | with_reducible apply State.answerPp_kept
    | with_reducible apply State.repower_kept
    | with_reducible apply State.dropEvents_kept
    | with_reducible apply Kept.foldl

theorem State.sendTick_kept : ∀ {u s a1}, Kept u s → Kept u (State.sendTick s a1) := by
  intros; refine Kept.trans (by assumption) ?_; unfold State.sendTick; try dsimp only
  repeat' first
    | with_reducible apply Kept.refl
    | with_reducible apply State.sendMsg_kept
    | with_reducible apply State.modTick_kept
    | split

theorem rowTick_kept : ∀ {u s}, Kept u s → Kept u (rowTick s) := by
  intros; refine Kept.trans (by assumption) ?_; unfold rowTick; try dsimp only
  repeat' first
    | with_reducible apply Kept.refl
    | with_reducible apply State.sendTick_kept
    | with_reducible apply State.runTick_kept
    | with_reducible apply Kept.ite

theorem frogDrained_kept : ∀ {u a0 s}, Kept u s → Kept u (frogDrained a0 s) := by
  intros; refine Kept.trans (by assumption) ?_; unfold frogDrained; try dsimp only
  repeat' first
    | with_reducible apply Kept.refl
    | with_reducible apply State.modSw_kept
    | with_reducible apply State.startProgram_kept
    | with_reducible apply State.endKnit_kept
    | split

theorem budgetOver_kept : ∀ {u a0 s}, Kept u s → Kept u (budgetOver a0 s) := by
  intros; refine Kept.trans (by assumption) ?_; unfold budgetOver; try dsimp only
  repeat' first
    | with_reducible apply Kept.refl
    | with_reducible apply State.swStatus_kept
    | with_reducible apply Kept.ite

theorem State.pubWrite_kept : ∀ {u s a1 a2 a3}, Kept u s → Kept u (State.pubWrite s a1 a2 a3) := by
  intros; refine Kept.trans (by assumption) ?_; unfold State.pubWrite; try dsimp only
  repeat' first
    | with_reducible apply Kept.refl
    | with_reducible apply State.modSw_kept
    | with_reducible apply State.swStatus_kept
    | with_reducible apply Kept.ite

theorem cmdQueryTick_kept : ∀ {u r e s}, Kept u s → Kept u (cmdQueryTick.act r e s) := by
  intros; refine Kept.trans (by assumption) ?_; unfold cmdQueryTick; try dsimp only
  repeat' first
    | with_reducible apply Kept.refl
    | with_reducible apply State.ok_kept

theorem cmdSetTickPeriod_kept : ∀ {u r e s}, Kept u s → Kept u (cmdSetTickPeriod.act r e s) := by
  intros; refine Kept.trans (by assumption) ?_; unfold cmdSetTickPeriod; try dsimp only
  repeat' first
    | with_reducible apply Kept.refl
    | with_reducible apply State.ok_kept
    | with_reducible apply State.modTick_kept

theorem cmdWaitTick_kept : ∀ {u r e s}, Kept u s → Kept u (cmdWaitTick.act r e s) := by
  intros; refine Kept.trans (by assumption) ?_; unfold cmdWaitTick; try dsimp only
  repeat' first
    | with_reducible apply Kept.refl
    | with_reducible apply State.modTick_kept
    | with_reducible apply State.inFlight_kept

theorem State.settleFlag_kept : ∀ {u s a1 a2}, Kept u s → Kept u (State.settleFlag s a1 a2) := by
  intros; refine Kept.trans (by assumption) ?_; unfold State.settleFlag; try dsimp only
  repeat' first
    | with_reducible apply Kept.refl
    | with_reducible apply State.modMesh_kept
    | with_reducible apply State.emits_kept

theorem State.putFlag_kept : ∀ {u s a1 a2 a3}, Kept u s → Kept u (State.putFlag s a1 a2 a3) := by
  intros; refine Kept.trans (by assumption) ?_; unfold State.putFlag; try dsimp only
  repeat' first
    | with_reducible apply Kept.refl
    | with_reducible apply State.settleFlag_kept
    | with_reducible apply State.modMesh_kept

theorem State.flagOp_kept : ∀ {u s a1 a2 a3 a4 a5}, Kept u s → Kept u (State.flagOp s a1 a2 a3 a4 a5) := by
  intros; refine Kept.trans (by assumption) ?_; unfold State.flagOp; try dsimp only
  repeat' first
    | with_reducible apply Kept.refl
    | with_reducible apply State.settleFlag_kept
    | with_reducible apply State.modMesh_kept
    | with_reducible apply State.putFlag_kept
    | with_reducible apply State.emit_kept
    | split

theorem State.pokeView_kept : ∀ {u s a1 a2 a3}, Kept u s → Kept u (State.pokeView s a1 a2 a3) := by
  intros; refine Kept.trans (by assumption) ?_; unfold State.pokeView; try dsimp only
  repeat' first
    | with_reducible apply Kept.refl
    | with_reducible apply State.blkPoke_kept
    | with_reducible apply State.modEdgeCarder_kept
    | with_reducible apply Kept.ite

theorem State.wake_kept : ∀ {u s a1 a2}, Kept u s → Kept u (State.wake s a1 a2) := by
  intros; refine Kept.trans (by assumption) ?_; unfold State.wake; try dsimp only
  repeat' first
    | with_reducible apply Kept.refl
    | with_reducible apply State.modNeedle_kept

theorem State.moverWake_kept : ∀ {u s a1 a2}, Kept u s → Kept u (State.moverWake s a1 a2) := by
  intros; refine Kept.trans (by assumption) ?_; unfold State.moverWake; try dsimp only
  repeat' first
    | with_reducible apply Kept.refl
    | intro _
    | with_reducible apply State.wake_kept
    | with_reducible apply Kept.ite
    | with_reducible apply Kept.foldl

theorem State.clearMover_kept : ∀ {u s a1 a2}, Kept u s → Kept u (State.clearMover s a1 a2) := by
  intros; refine Kept.trans (by assumption) ?_; unfold State.clearMover; try dsimp only
  repeat' first
    | intro _
    | simp only [Kept.fields_iff]
    | with_reducible apply Kept.refl
    | with_reducible apply State.modMover_kept
    | with_reducible apply State.moverWake_kept
    | with_reducible apply Kept.ite
    | split

theorem State.pinOut_kept : ∀ {u s a1 a2}, Kept u s → Kept u (State.pinOut s a1 a2) := by
  intros; refine Kept.trans (by assumption) ?_; unfold State.pinOut; try dsimp only
  repeat' first
    | simp only [Kept.fields_iff]
    | with_reducible apply Kept.refl

theorem State.uartNext_kept : ∀ {u s}, Kept u s → Kept u (State.uartNext s) := by
  intros; refine Kept.trans (by assumption) ?_; unfold State.uartNext; try dsimp only
  repeat' first
    | with_reducible apply Kept.refl
    | with_reducible apply State.emit_kept
    | with_reducible apply State.modIo_kept
    | split

theorem State.uartPush_kept : ∀ {u s a1}, Kept u s → Kept u (State.uartPush s a1) := by
  intros; refine Kept.trans (by assumption) ?_; unfold State.uartPush; try dsimp only
  repeat' first
    | with_reducible apply Kept.refl
    | with_reducible apply State.uartNext_kept
    | with_reducible apply State.modIo_kept
    | with_reducible apply Kept.ite

theorem State.seqCmd_kept : ∀ {u s a1}, Kept u s → Kept u (State.seqCmd s a1) := by
  intros; refine Kept.trans (by assumption) ?_; unfold State.seqCmd; try dsimp only
  repeat' first
    | with_reducible apply Kept.refl
    | with_reducible apply State.modChain_kept
    | with_reducible apply State.emit_kept
    | split

theorem State.blkW1c_keeps {u s b off w t} (h : State.blkW1c s b off w = some t) (k : Kept u s) : Kept u t := by
  unfold State.blkW1c at h
  dsimp only at h
  repeat' split at h
  all_goals first
    | (cases h; done)
    | (injection h with h; subst h
       first
       | with_reducible apply State.modSelv_kept k
       | with_reducible apply State.modTally_kept k
       | with_reducible apply State.modTick_kept k
       | with_reducible apply State.modSw_kept k
       | with_reducible apply State.modRep_kept k
       | with_reducible apply State.modInner_kept k
       | with_reducible apply State.modMesh_kept k
       | with_reducible apply State.modStch_kept k
       | with_reducible apply State.modCarder_kept k
       | with_reducible apply State.modEdgeCarder_kept k
       | with_reducible apply State.modPort_kept k
       | with_reducible apply State.modStack_kept k
       | with_reducible apply State.modDst_kept k
       | with_reducible apply State.modBob_kept k
       | with_reducible apply State.modIo_kept k
       | with_reducible apply State.modChain_kept k
       | with_reducible apply Kept.fields k)

theorem State.writeMesh_kept : ∀ {u s a1 a2 a3}, Kept u s → Kept u (State.writeMesh s a1 a2 a3) := by
  intros; refine Kept.trans (by assumption) ?_; unfold State.writeMesh; try dsimp only
  repeat' first
    | with_reducible apply Kept.refl
    | with_reducible apply State.blkPoke_kept
    | with_reducible apply State.modMesh_kept
    | with_reducible apply State.putFlag_kept
    | with_reducible apply Kept.ite

theorem State.writeCard_kept {u s b m off w} (k : Kept u s) (hm : ∀ {f t}, Kept t (m f t)) :
    Kept u (State.writeCard s b m off w) := by
  unfold State.writeCard; dsimp only
  exact Kept.ite ((State.blkPoke_kept k).trans hm) (Kept.ite ((State.blkPoke_kept k).trans hm) (State.blkPoke_kept k))

theorem State.writeEdge_kept : ∀ {u s a1 a2 a3 a4}, Kept u s → Kept u (State.writeEdge s a1 a2 a3 a4) := by
  intros; refine Kept.trans (by assumption) ?_; unfold State.writeEdge; try dsimp only
  repeat' first
    | with_reducible apply Kept.refl
    | with_reducible apply State.blkPoke_kept
    | with_reducible apply State.modPort_kept
    | with_reducible apply State.retrain_kept
    | with_reducible apply Kept.ite

theorem State.writeDst_kept : ∀ {u s a1 a2 a3 a4}, Kept u s → Kept u (State.writeDst s a1 a2 a3 a4) := by
  intros; refine Kept.trans (by assumption) ?_; unfold State.writeDst; try dsimp only
  repeat' first
    | with_reducible apply Kept.refl
    | with_reducible apply State.blkPoke_kept
    | with_reducible apply State.modDst_kept
    | with_reducible apply Kept.ite

theorem State.writeBob_kept : ∀ {u s a1 a2}, Kept u s → Kept u (State.writeBob s a1 a2) := by
  intros; refine Kept.trans (by assumption) ?_; unfold State.writeBob; try dsimp only
  repeat' first
    | with_reducible apply Kept.refl
    | with_reducible apply State.modBob_kept
    | with_reducible apply State.uartPush_kept
    | with_reducible apply State.uartNext_kept
    | with_reducible apply State.blkPoke_kept
    | with_reducible apply Kept.ite

theorem State.writePins_kept : ∀ {u s a1 a2}, Kept u s → Kept u (State.writePins s a1 a2) := by
  intros; refine Kept.trans (by assumption) ?_; unfold State.writePins; try dsimp only
  repeat' first
    | with_reducible apply Kept.refl
    | with_reducible apply State.writePin_kept
    | with_reducible apply State.pinOut_kept
    | with_reducible apply Kept.ite

theorem State.ringWrite_kept : ∀ {u s a1 a2 a3 a4}, Kept u s → Kept u (State.ringWrite s a1 a2 a3 a4) := by
  intros; refine Kept.trans (by assumption) ?_; unfold State.ringWrite; try dsimp only
  repeat' first
    | with_reducible apply Kept.refl
    | with_reducible apply enableRing_kept
    | with_reducible apply disableRing_kept
    | with_reducible apply State.modSq_kept
    | with_reducible apply State.modCq_kept
    | split
    | with_reducible apply Kept.ite

theorem State.mailboxWrite_kept : ∀ {u s a1 a2 a3}, Kept u s → Kept u (State.mailboxWrite s a1 a2 a3) := by
  intros; refine Kept.trans (by assumption) ?_; unfold State.mailboxWrite; try dsimp only
  repeat' first
    | intro _
    | with_reducible apply Kept.refl
    | with_reducible apply State.modFn_kept
    | with_reducible apply State.flushEvents_kept
    | with_reducible apply State.ringWrite_kept
    | with_reducible apply State.ringFault_kept
    | with_reducible apply Kept.ite

theorem State.writeSelv_kept : ∀ {u s a1 a2 a3}, Kept u s → Kept u (State.writeSelv s a1 a2 a3) := by
  intros; refine Kept.trans (by assumption) ?_; unfold State.writeSelv; try dsimp only
  repeat' first
    | simp only [Kept.fields_iff]
    | with_reducible apply Kept.refl
    | intro _
    | with_reducible apply State.modSelv_kept
    | with_reducible apply State.wake_kept
    | with_reducible apply Kept.ite
    | with_reducible apply Kept.iteFst
    | split

theorem State.writeRep_kept : ∀ {u s a1 a2 a3}, Kept u s → Kept u (State.writeRep s a1 a2 a3) := by
  intros; refine Kept.trans (by assumption) ?_; unfold State.writeRep; try dsimp only
  repeat' first
    | simp only [Kept.fields_iff]
    | with_reducible apply Kept.refl
    | intro _
    | with_reducible apply State.modRep_kept
    | with_reducible apply Kept.ite
    | with_reducible apply Kept.iteFst
    | split

theorem State.writeMbx_kept : ∀ {u s a1 a2}, Kept u s → Kept u (State.writeMbx s a1 a2) := by
  intros; refine Kept.trans (by assumption) ?_; unfold State.writeMbx; try dsimp only
  repeat' first
    | with_reducible apply Kept.refl
    | with_reducible apply State.mailboxWrite_kept
    | with_reducible apply Kept.ite
    | with_reducible apply Kept.iteFst
    | split

theorem State.blkWrite_kept : ∀ {u s a1 a2 a3 a4}, Kept u s → Kept u (State.blkWrite s a1 a2 a3 a4) := by
  intros; refine Kept.trans (by assumption) ?_; unfold State.blkWrite; try dsimp only
  repeat' first
    | with_reducible apply Kept.refl
    | intro _
    | with_reducible refine (State.blkW1c_keeps (by assumption)) ?_
    | with_reducible apply State.pubWrite_kept
    | with_reducible apply State.writeMesh_kept
    | with_reducible apply State.clearMover_kept
    | with_reducible apply State.modNeedle_kept
    | with_reducible apply State.blkPoke_kept
    | with_reducible apply State.writeCard_kept
    | with_reducible apply State.modCarder_kept
    | with_reducible apply State.pokeView_kept
    | with_reducible apply State.modEdgeCarder_kept
    | with_reducible apply State.writeEdge_kept
    | with_reducible apply State.modStack_kept
    | with_reducible apply State.writeDst_kept
    | with_reducible apply State.writeBob_kept
    | with_reducible apply State.writePins_kept
    | with_reducible apply State.seqCmd_kept
    | with_reducible apply State.writeSelv_kept
    | with_reducible apply State.writeRep_kept
    | with_reducible apply State.writeMbx_kept
    | split
    | with_reducible apply Kept.ite

theorem State.refreshPhase_kept : ∀ {u s}, Kept u s → Kept u (State.refreshPhase s) := by
  intros; refine Kept.trans (by assumption) ?_; unfold State.refreshPhase; try dsimp only
  repeat' first
    | with_reducible apply Kept.refl
    | with_reducible apply State.useFree_kept
    | with_reducible apply State.modTick_kept

theorem State.blkTake_kept : ∀ {u s a1 a2 a3}, Kept u s → Kept u (State.blkTake s a1 a2 a3).1 := by
  intros; refine Kept.trans (by assumption) ?_; unfold State.blkTake; try dsimp only
  repeat' first
    | intro _
    | simp only [Kept.fields_iff]
    | with_reducible apply Kept.refl
    | with_reducible apply State.refreshPhase_kept
    | with_reducible apply State.blkClear_kept
    | with_reducible apply State.noteFinish_kept
    | with_reducible apply Kept.iteFst
    | split
theorem State.blkTake_keeps : ∀ {u s a1 a2 a3 r t}, State.blkTake s a1 a2 a3 = (t, r) → Kept u s → Kept u t := by
  intros; rename_i h k; exact k.trans (Kept.pair (State.blkTake_kept Kept.refl) h)

theorem State.regRead_kept : ∀ {u s a1 a2}, Kept u s → Kept u (State.regRead s a1 a2).1 := by
  intros; refine Kept.trans (by assumption) ?_; unfold State.regRead; try dsimp only
  repeat' first
    | with_reducible apply Kept.refl
    | with_reducible apply State.badAcc_kept
    | with_reducible apply State.blkTake_kept
    | with_reducible apply Kept.iteFst
    | split
theorem State.regRead_keeps : ∀ {u s a1 a2 r t}, State.regRead s a1 a2 = (t, r) → Kept u s → Kept u t := by
  intros; rename_i h k; exact k.trans (Kept.pair (State.regRead_kept Kept.refl) h)

theorem State.regWrite_kept : ∀ {u s a1 a2 a3}, Kept u s → Kept u (State.regWrite s a1 a2 a3) := by
  intros; refine Kept.trans (by assumption) ?_; unfold State.regWrite; try dsimp only
  repeat' first
    | with_reducible apply Kept.refl
    | with_reducible apply State.badAcc_kept
    | with_reducible apply State.blkWrite_kept
    | split

theorem State.bar0Read_kept : ∀ {u s a1 a2}, Kept u s → Kept u (State.bar0Read s a1 a2).1 := by
  intros; refine Kept.trans (by assumption) ?_; unfold State.bar0Read; try dsimp only
  repeat' first
    | simp only [Kept.fields_iff]
    | with_reducible apply Kept.refl
    | with_reducible apply State.modFn_kept
    | with_reducible apply Kept.iteFst
    | split
theorem State.bar0Read_keeps : ∀ {u s a1 a2 r t}, State.bar0Read s a1 a2 = (t, r) → Kept u s → Kept u t := by
  intros; rename_i h k; exact k.trans (Kept.pair (State.bar0Read_kept Kept.refl) h)

theorem State.msixWrite_kept : ∀ {u s a1 a2 a3}, Kept u s → Kept u (State.msixWrite s a1 a2 a3) := by
  intros; refine Kept.trans (by assumption) ?_; unfold State.msixWrite; try dsimp only
  repeat' first
    | with_reducible apply Kept.refl
    | with_reducible apply State.modFn_kept
    | with_reducible apply unmaskVector_kept
    | split

theorem State.bar0Write_kept : ∀ {u s a1 a2 a3}, Kept u s → Kept u (State.bar0Write s a1 a2 a3) := by
  intros; refine Kept.trans (by assumption) ?_; unfold State.bar0Write; try dsimp only
  repeat' first
    | with_reducible apply Kept.refl
    | with_reducible apply State.modSelv_kept
    | with_reducible apply hostBell_kept
    | with_reducible apply State.msixWrite_kept
    | with_reducible apply State.mailboxWrite_kept
    | with_reducible apply Kept.ite

theorem State.cfgWrite_kept : ∀ {u s a1 a2 a3}, Kept u s → Kept u (State.cfgWrite s a1 a2 a3) := by
  intros; refine Kept.trans (by assumption) ?_; unfold State.cfgWrite; try dsimp only
  repeat' first
    | simp only [Kept.fields_iff]
    | with_reducible apply Kept.refl
    | intro _
    | with_reducible apply State.modFn_kept
    | with_reducible apply enterD3_kept
    | with_reducible apply returnD0_kept
    | with_reducible apply Kept.ite
    | with_reducible apply Kept.iteFst
    | split

theorem State.accRead_kept : ∀ {u s a1 a2}, Kept u s → Kept u (State.accRead s a1 a2) := by
  intros; refine Kept.trans (by assumption) ?_; unfold State.accRead; try dsimp only
  repeat' first
    | with_reducible apply Kept.refl
    | with_reducible apply State.bar0Read_kept
    | with_reducible apply State.emit_kept
    | with_reducible apply State.sendAccess_kept
    | with_reducible apply State.regRead_kept
    | split
    | with_reducible apply Kept.ite

theorem State.accWrite_kept : ∀ {u s a1 a2 a3}, Kept u s → Kept u (State.accWrite s a1 a2 a3) := by
  intros; refine Kept.trans (by assumption) ?_; unfold State.accWrite; try dsimp only
  repeat' first
    | with_reducible apply Kept.refl
    | with_reducible apply State.bar0Write_kept
    | with_reducible apply State.sendAccess_kept
    | with_reducible apply State.regWrite_kept
    | with_reducible apply State.cfgWrite_kept
    | split
    | with_reducible apply Kept.ite

theorem bar2Access_kept : ∀ {u a0 a1 a2 s}, Kept u s → Kept u (bar2Access a0 a1 a2 s) := by
  intros; refine Kept.trans (by assumption) ?_; unfold bar2Access; try dsimp only
  repeat' first
    | with_reducible apply Kept.refl
    | with_reducible apply State.accRead_kept
    | with_reducible apply State.accWrite_kept
    | with_reducible apply State.emit_kept
    | split
    | with_reducible apply Kept.ite

theorem enableFunc_kept : ∀ {u a0 a1 a2 s}, Kept u s → Kept u (enableFunc a0 a1 a2 s) := by
  intros; refine Kept.trans (by assumption) ?_; unfold enableFunc; try dsimp only
  repeat' first
    | with_reducible apply Kept.refl
    | with_reducible apply State.regWrite_kept

theorem State.answerRun_kept : ∀ {u s a1}, Kept u s → Kept u (State.answerRun s a1) := by
  intros; refine Kept.trans (by assumption) ?_; unfold State.answerRun; try dsimp only
  repeat' first
    | with_reducible apply Kept.refl
    | with_reducible apply State.reply_kept
    | with_reducible apply State.modBob_kept
    | split

theorem riseDone_kept : ∀ {u a0 s}, Kept u s → Kept u (riseDone a0 s) := by
  intros; refine Kept.trans (by assumption) ?_; unfold riseDone; try dsimp only
  repeat' first
    | with_reducible apply Kept.refl
    | with_reducible apply State.modBob_kept
    | with_reducible apply State.answerRun_kept
    | with_reducible apply State.modEdgeCarder_kept
    | split

theorem fallDone_kept : ∀ {u a0 s}, Kept u s → Kept u (fallDone a0 s) := by
  intros; refine Kept.trans (by assumption) ?_; unfold fallDone; try dsimp only
  repeat' first
    | with_reducible apply Kept.refl
    | with_reducible apply State.modBob_kept
    | with_reducible apply State.ok_kept
    | with_reducible apply State.answerRun_kept
    | with_reducible apply State.modEdgeCarder_kept
    | split

theorem State.jtagSet_kept : ∀ {u s a1}, Kept u s → Kept u (State.jtagSet s a1) := by
  intros; refine Kept.trans (by assumption) ?_; unfold State.jtagSet; try dsimp only
  repeat' first
    | simp only [Kept.fields_iff]
    | with_reducible apply Kept.refl
    | with_reducible apply State.modJtag_kept
    | with_reducible apply Kept.ite

theorem State.tap_kept {u s : State} {f : State → State} (k : Kept u s) (hf : ∀ {t}, Kept t (f t)) :
    Kept u (s.tap f) := by
  unfold State.tap; split
  · exact k.trans hf
  · exact k

theorem parkEnd_kept : ∀ {u a0 a1 s}, Kept u s → Kept u (parkEnd a0 a1 s) := by
  intros; refine Kept.trans (by assumption) ?_; unfold parkEnd; try dsimp only
  repeat' first
    | with_reducible apply Kept.refl
    | with_reducible apply State.modPin_kept
    | with_reducible apply Kept.ite

theorem State.hemWake_kept : ∀ {u s a1}, Kept u s → Kept u (State.hemWake s a1) := by
  intros; refine Kept.trans (by assumption) ?_; unfold State.hemWake; try dsimp only
  repeat' first
    | with_reducible apply Kept.refl
    | with_reducible apply hemEvent_kept

theorem pinWake_kept : ∀ {u a0 a1 s}, Kept u s → Kept u (pinWake a0 a1 s) := by
  intros; refine Kept.trans (by assumption) ?_; unfold pinWake; try dsimp only
  repeat' first
    | simp only [Kept.fields_iff]
    | with_reducible apply Kept.refl
    | with_reducible apply State.modPin_kept
    | with_reducible apply State.hemWake_kept
    | with_reducible apply Kept.ite

theorem uartCharacter_kept : ∀ {u a0 a1 a2 a3 a4 s}, Kept u s → Kept u (uartCharacter a0 a1 a2 a3 a4 s) := by
  intros; refine Kept.trans (by assumption) ?_; unfold uartCharacter; try dsimp only
  repeat' first
    | with_reducible apply Kept.refl
    | with_reducible apply State.modIo_kept
    | with_reducible apply Kept.ite

theorem uartTxDone_kept : ∀ {u a0 s}, Kept u s → Kept u (uartTxDone a0 s) := by
  intros; refine Kept.trans (by assumption) ?_; unfold uartTxDone; try dsimp only
  repeat' first
    | with_reducible apply Kept.refl
    | with_reducible apply State.modIo_kept
    | with_reducible apply State.uartNext_kept
    | with_reducible apply Kept.ite

theorem jtagCapture_kept : ∀ {u s}, Kept u s → Kept u (jtagCapture s) := by
  intros; refine Kept.trans (by assumption) ?_; unfold jtagCapture; try dsimp only
  repeat' first
    | with_reducible apply Kept.refl
    | with_reducible apply State.jtagSet_kept
    | with_reducible apply State.emit_kept
    | with_reducible apply State.modJtag_kept
    | with_reducible apply Kept.ite

theorem jtagRead_kept : ∀ {u a0 s}, Kept u s → Kept u (jtagRead a0 s) := by
  intros; refine Kept.trans (by assumption) ?_; unfold jtagRead; try dsimp only
  repeat' first
    | with_reducible apply Kept.refl
    | with_reducible apply State.jtagSet_kept
    | with_reducible apply State.modJtag_kept
    | with_reducible apply State.regRead_kept
    | with_reducible apply State.emit_kept
    | with_reducible apply Kept.ite

end Sys2Proof.Machine
end

