-- ==== Sys2Proof/Laws/KeptC.lean ====
section
/-! SUPPORT. What is kept (Laws/Kept) by the needles, the mesh, the movers, the stitch plane and the bed. -/
namespace Sys2Proof.Machine
open Sys2Proof

theorem State.useId_kept : ∀ {u s}, Kept u s → Kept u (State.useId s) := by
  intros; refine Kept.trans (by assumption) ?_; unfold State.useId; try dsimp only
  repeat' first
    | simp only [Kept.fields_iff]
    | with_reducible apply Kept.refl

theorem State.faultSide_kept : ∀ {u s a1 a2 a3}, Kept u s → Kept u (State.faultSide s a1 a2 a3) := by
  intros; refine Kept.trans (by assumption) ?_; unfold State.faultSide; try dsimp only
  repeat' first
    | with_reducible apply Kept.refl
    | with_reducible apply State.swStatus_kept
    | with_reducible apply State.mediaError_kept
    | split

theorem State.needleFault_kept : ∀ {u s a1 a2 a3 a4}, Kept u s → Kept u (State.needleFault s a1 a2 a3 a4) := by
  intros; refine Kept.trans (by assumption) ?_; unfold State.needleFault; try dsimp only
  repeat' first
    | with_reducible apply Kept.refl
    | with_reducible apply State.faultSide_kept
    | with_reducible apply State.modNeedle_kept
    | with_reducible apply State.useId_kept
    | with_reducible apply State.emit_kept
    | with_reducible apply Kept.ite

theorem State.clocked_kept : ∀ {u s a1 a2}, Kept u s → Kept u (State.clocked s a1 a2) := by
  intros; refine Kept.trans (by assumption) ?_; unfold State.clocked; try dsimp only
  repeat' first
    | with_reducible apply Kept.refl
    | with_reducible apply State.useFree_kept
    | with_reducible apply State.modNeedle_kept

def NStep.Keeps (s : State) : NStep → Prop
  | .done t => Kept s t
  | _ => True
theorem NStep.kept_done {s t} (h : Kept s t) : NStep.Keeps s (.done t) := h
theorem NStep.kept_stall {s} : NStep.Keeps s .stall := trivial
theorem NStep.kept_fault {s c a} : NStep.Keeps s (.fault c a) := trivial
theorem NStep.kept_ite {s} {c : Prop} [Decidable c] {a b : NStep} (ha : NStep.Keeps s a) (hb : NStep.Keeps s b) :
    NStep.Keeps s (if c then a else b) := by split <;> assumption
theorem NStep.kept_viewOff {s p a} : NStep.Keeps s (.viewOff p a) := trivial

theorem State.issue_kept {u s n len ss vs f} (k : Kept u s) (hf : ∀ t, NStep.Keeps t (f t)) :
    Kept u (State.issue s n len ss vs f) := by
  unfold State.issue; dsimp only
  refine Kept.ite k (Kept.ite (State.needleFault_kept k) (Kept.ite (State.needleFault_kept k) (Kept.ite k ?_)))
  have h := hf (s.clocked n len)
  split
  · next t e => rw [e] at h; exact State.modNeedle_kept ((State.clocked_kept k).trans h)
  · exact k
  · exact State.needleFault_kept k
  · exact State.needleFault_kept (State.modEdgeCarder_kept k)

theorem State.scalar_kept : ∀ {u s a1 a2 a3 a4}, Kept u s → Kept u (State.scalar s a1 a2 a3 a4) := by
  intros; refine Kept.trans (by assumption) ?_; unfold State.scalar; try dsimp only
  repeat' first
    | with_reducible apply Kept.refl
    | intro _
    | with_reducible apply State.issue_kept
    | with_reducible apply State.jumpTo_kept
    | with_reducible apply State.modNeedle_kept
    | with_reducible apply NStep.kept_done

theorem State.scalar2_kept : ∀ {u s a1 a2 a3 a4 a5}, Kept u s → Kept u (State.scalar2 s a1 a2 a3 a4 a5) := by
  intros; refine Kept.trans (by assumption) ?_; unfold State.scalar2; try dsimp only
  repeat' first
    | with_reducible apply Kept.refl
    | with_reducible apply State.scalar_kept

theorem State.scalarF_kept : ∀ {u s a1 a2 a3 a4 a5}, Kept u s → Kept u (State.scalarF s a1 a2 a3 a4 a5) := by
  intros; refine Kept.trans (by assumption) ?_; unfold State.scalarF; try dsimp only
  repeat' first
    | with_reducible apply Kept.refl
    | with_reducible apply State.scalar_kept

theorem shiftImm_kept : ∀ {u a0 a1 a2 a3 s}, Kept u s → Kept u (shiftImm a0 a1 a2 a3 s) := by
  intros; refine Kept.trans (by assumption) ?_; unfold shiftImm; try dsimp only
  repeat' first
    | with_reducible apply Kept.refl
    | intro _
    | with_reducible apply State.scalar_kept
    | with_reducible apply State.issue_kept
    | with_reducible apply State.jumpTo_kept
    | exact NStep.kept_fault
    | split

/-- What an instruction does at its issue keeps what the operations keep. -/
theorem State.jumpTo_kept {u s n t f} (k : Kept u s) : NStep.Keeps u (State.jumpTo s n t f) :=
  NStep.kept_ite NStep.kept_fault (State.modNeedle_kept k)

theorem State.branch_kept : ∀ {u s a1 a2 a3 a4 a5}, Kept u s → Kept u (State.branch s a1 a2 a3 a4 a5) := by
  intros; refine Kept.trans (by assumption) ?_; unfold State.branch; try dsimp only
  repeat' first
    | with_reducible apply Kept.refl
    | intro _
    | with_reducible apply State.issue_kept
    | with_reducible apply State.jumpTo_kept
    | with_reducible apply NStep.kept_done
    | with_reducible apply NStep.kept_ite

theorem tickwait_kept : ∀ {u a0 a1 a2 s}, Kept u s → Kept u (tickwait a0 a1 a2 s) := by
  intros; refine Kept.trans (by assumption) ?_; unfold tickwait; try dsimp only
  repeat' first
    | with_reducible apply Kept.refl
    | intro _
    | with_reducible apply State.issue_kept
    | with_reducible apply State.jumpTo_kept
    | with_reducible apply State.modNeedle_kept
    | with_reducible apply NStep.kept_done
    | with_reducible apply NStep.kept_ite

theorem tickResume_kept : ∀ {u a0 s}, Kept u s → Kept u (tickResume a0 s) := by
  intros; refine Kept.trans (by assumption) ?_; unfold tickResume; try dsimp only
  repeat' first
    | with_reducible apply Kept.refl
    | with_reducible apply State.wake_kept
    | split

theorem State.arrive_kept {u s r h dests mcast vc kind err f} (k : Kept u s) (hf : Kept u f) :
    Kept u (State.arrive s r h dests mcast vc kind err f) := by
  unfold State.arrive
  split
  · exact hf
  · dsimp only
    split
    · exact State.emit_kept (State.swStatus_kept (State.modMesh_kept k))
    · exact State.swStatus_kept (State.modMesh_kept k)

theorem State.barArrive_kept : ∀ {u s a1 a2 a3 a4}, Kept u s → Kept u (State.barArrive s a1 a2 a3 a4) := by
  intros; refine Kept.trans (by assumption) ?_; unfold State.barArrive; try dsimp only
  repeat' first
    | with_reducible apply Kept.refl
    | with_reducible apply State.emit_kept
    | with_reducible apply State.swStatus_kept
    | with_reducible apply State.modMesh_kept
    | with_reducible apply State.emits_kept
    | with_reducible apply Kept.ite

theorem barrierArrival_kept : ∀ {u a0 a1 a2 s}, Kept u s → Kept u (barrierArrival a0 a1 a2 s) := by
  intros; refine Kept.trans (by assumption) ?_; unfold barrierArrival; try dsimp only
  repeat' first
    | with_reducible apply Kept.refl
    | with_reducible apply State.arrive_kept
    | with_reducible apply State.emit_kept
    | with_reducible apply State.barArrive_kept
    | split

theorem State.flagInstr_kept : ∀ {u s a1 a2 a3 a4 a5}, Kept u s → Kept u (State.flagInstr s a1 a2 a3 a4 a5) := by
  intros; refine Kept.trans (by assumption) ?_; unfold State.flagInstr; try dsimp only
  repeat' first
    | simp only [Kept.fields_iff]
    | with_reducible apply Kept.refl
    | intro _
    | with_reducible apply State.issue_kept
    | with_reducible apply State.jumpTo_kept
    | with_reducible apply State.emit_kept
    | with_reducible apply State.modNeedle_kept
    | with_reducible apply State.useId_kept
    | with_reducible apply NStep.kept_done
    | with_reducible apply NStep.kept_ite
    | with_reducible apply Kept.ite
    | split

theorem flagOperation_kept : ∀ {u a0 a1 a2 a3 a4 s}, Kept u s → Kept u (flagOperation a0 a1 a2 a3 a4 s) := by
  intros; refine Kept.trans (by assumption) ?_; unfold flagOperation; try dsimp only
  repeat' first
    | with_reducible apply Kept.refl
    | with_reducible apply State.arrive_kept
    | with_reducible apply State.emit_kept
    | with_reducible apply State.flagOp_kept
    | with_reducible apply Kept.ite

theorem State.lanewise_kept : ∀ {u s a1 a2 a3 a4 a5 a6 a7}, Kept u s → Kept u (State.lanewise s a1 a2 a3 a4 a5 a6 a7) := by
  intros; refine Kept.trans (by assumption) ?_; unfold State.lanewise; try dsimp only
  repeat' first
    | with_reducible apply Kept.refl
    | intro _
    | with_reducible apply State.issue_kept
    | with_reducible apply State.jumpTo_kept
    | with_reducible apply State.modNeedle_kept
    | with_reducible apply NStep.kept_done

theorem State.minmax_kept : ∀ {u s a1 a2 a3 a4 a5 a6 a7 a8}, Kept u s → Kept u (State.minmax s a1 a2 a3 a4 a5 a6 a7 a8) := by
  intros; refine Kept.trans (by assumption) ?_; unfold State.minmax; try dsimp only
  repeat' first
    | with_reducible apply Kept.refl
    | with_reducible apply State.lanewise_kept

theorem vcvt_kept : ∀ {u a0 a1 a2 a3 a4 a5 s}, Kept u s → Kept u (vcvt a0 a1 a2 a3 a4 a5 s) := by
  intros; refine Kept.trans (by assumption) ?_; unfold vcvt; try dsimp only
  repeat' first
    | simp only [Kept.fields_iff]
    | with_reducible apply Kept.refl
    | intro _
    | with_reducible apply State.issue_kept
    | with_reducible apply State.jumpTo_kept
    | with_reducible apply State.modNeedle_kept
    | exact NStep.kept_fault
    | with_reducible apply NStep.kept_done
    | split
    | with_reducible apply Kept.ite

theorem State.predOp_kept : ∀ {u s a1 a2 a3 a4 a5 a6}, Kept u s → Kept u (State.predOp s a1 a2 a3 a4 a5 a6) := by
  intros; refine Kept.trans (by assumption) ?_; unfold State.predOp; try dsimp only
  repeat' first
    | with_reducible apply Kept.refl
    | intro _
    | with_reducible apply State.issue_kept
    | with_reducible apply State.jumpTo_kept
    | with_reducible apply State.modNeedle_kept
    | exact NStep.kept_fault
    | with_reducible apply NStep.kept_done
    | with_reducible apply NStep.kept_ite

theorem State.predCmp_kept : ∀ {u s a1 a2 a3 a4 a5 a6 a7 a8 a9}, Kept u s → Kept u (State.predCmp s a1 a2 a3 a4 a5 a6 a7 a8 a9) := by
  intros; refine Kept.trans (by assumption) ?_; unfold State.predCmp; try dsimp only
  repeat' first
    | with_reducible apply Kept.refl
    | with_reducible apply State.predOp_kept

theorem State.predCount_kept : ∀ {u s a1 a2 a3 a4}, Kept u s → Kept u (State.predCount s a1 a2 a3 a4) := by
  intros; refine Kept.trans (by assumption) ?_; unfold State.predCount; try dsimp only
  repeat' first
    | with_reducible apply Kept.refl
    | intro _
    | with_reducible apply State.issue_kept
    | with_reducible apply State.jumpTo_kept
    | with_reducible apply State.modNeedle_kept
    | exact NStep.kept_fault
    | with_reducible apply NStep.kept_done
    | with_reducible apply NStep.kept_ite

theorem State.redSum_kept : ∀ {u s a1 a2 a3 a4 a5 a6 a7}, Kept u s → Kept u (State.redSum s a1 a2 a3 a4 a5 a6 a7) := by
  intros; refine Kept.trans (by assumption) ?_; unfold State.redSum; try dsimp only
  repeat' first
    | with_reducible apply Kept.refl
    | intro _
    | with_reducible apply State.issue_kept
    | with_reducible apply State.jumpTo_kept
    | with_reducible apply State.modNeedle_kept
    | with_reducible apply NStep.kept_done

theorem redMeanvar_kept : ∀ {u a0 a1 a2 a3 a4 a5 s}, Kept u s → Kept u (redMeanvar a0 a1 a2 a3 a4 a5 s) := by
  intros; refine Kept.trans (by assumption) ?_; unfold redMeanvar; try dsimp only
  repeat' first
    | with_reducible apply Kept.refl
    | intro _
    | with_reducible apply State.issue_kept
    | with_reducible apply State.jumpTo_kept
    | with_reducible apply State.modNeedle_kept
    | exact NStep.kept_fault
    | with_reducible apply NStep.kept_done
    | with_reducible apply NStep.kept_ite

theorem State.redPick_kept : ∀ {u s a1 a2 a3 a4 a5 a6 a7 a8 a9}, Kept u s → Kept u (State.redPick s a1 a2 a3 a4 a5 a6 a7 a8 a9) := by
  intros; refine Kept.trans (by assumption) ?_; unfold State.redPick; try dsimp only
  repeat' first
    | with_reducible apply Kept.refl
    | intro _
    | with_reducible apply State.issue_kept
    | with_reducible apply State.jumpTo_kept
    | with_reducible apply State.modNeedle_kept
    | with_reducible apply NStep.kept_done
    | with_reducible apply NStep.kept_ite

theorem State.loadsAt_kept : ∀ {u s a1}, Kept u s → Kept u (State.loadsAt s a1) := by
  intros; refine Kept.trans (by assumption) ?_; unfold State.loadsAt; try dsimp only
  repeat' first
    | simp only [Kept.fields_iff]
    | with_reducible apply Kept.refl
    | intro _
    | with_reducible apply State.modEdgeCarder_kept
    | with_reducible apply State.ok_kept
    | with_reducible apply Kept.ite
    | with_reducible apply Kept.iteFst
    | with_reducible apply Kept.foldl
    | split

theorem State.viewLoads_kept : ∀ {u s}, Kept u s → Kept u (State.viewLoads s) := by
  intros; refine Kept.trans (by assumption) ?_; unfold State.viewLoads; try dsimp only
  repeat' first
    | with_reducible apply Kept.refl
    | intro _
    | with_reducible apply State.loadsAt_kept
    | with_reducible apply Kept.foldl

theorem State.deliver_kept {u s n d b} (k : Kept u s) : Kept u (State.deliver s n d b) := by
  cases d with
  | sreg => exact State.modNeedle_kept k
  | vreg => exact State.modNeedle_kept k
  | feed => exact State.modNeedle_kept k
  | castOn => exact State.modNeedle_kept k
  | viewOut => exact State.emit_kept k
  | _ => exact k

theorem State.viewPart_kept : ∀ {u s a1 a2}, Kept u s → Kept u (State.viewPart s a1 a2).1 := by
  intros; refine Kept.trans (by assumption) ?_; unfold State.viewPart; try dsimp only
  repeat' first
    | simp only [Kept.fields_iff]
    | with_reducible apply Kept.refl
    | intro _
    | with_reducible apply State.viewConvert_kept
    | with_reducible refine (State.viewConvert_keeps (by assumption)) ?_
    | with_reducible apply Kept.ite
    | with_reducible apply Kept.iteFst
    | with_reducible apply Kept.foldl
    | split
theorem State.viewPart_keeps : ∀ {u s a1 a2 r t}, State.viewPart s a1 a2 = (t, r) → Kept u s → Kept u t := by
  intros; rename_i h k; exact k.trans (Kept.pair (State.viewPart_kept Kept.refl) h)

theorem State.viewCut_kept : ∀ {u s a1}, Kept u s → Kept u (State.viewCut s a1) := by
  intros; refine Kept.trans (by assumption) ?_; unfold State.viewCut; try dsimp only
  repeat' first
    | simp only [Kept.fields_iff]
    | with_reducible apply Kept.refl
    | intro _
    | with_reducible apply State.emit_kept
    | with_reducible apply Kept.ite
    | with_reducible apply Kept.iteFst
    | split

theorem State.settleFence_kept : ∀ {u s a1}, Kept u s → Kept u (State.settleFence s a1) := by
  intros; refine Kept.trans (by assumption) ?_; unfold State.settleFence; try dsimp only
  repeat' first
    | with_reducible apply Kept.refl
    | with_reducible apply State.wake_kept
    | split

theorem State.dropAccess_kept : ∀ {u s a1}, Kept u s → Kept u (State.dropAccess s a1) := by
  intros; refine Kept.trans (by assumption) ?_; unfold State.dropAccess; try dsimp only
  repeat' first
    | simp only [Kept.fields_iff]
    | with_reducible apply Kept.refl

theorem State.finishNeedle_kept : ∀ {u s a1 a2 a3 a4}, Kept u s → Kept u (State.finishNeedle s a1 a2 a3 a4) := by
  intros; refine Kept.trans (by assumption) ?_; unfold State.finishNeedle; try dsimp only
  repeat' first
    | with_reducible apply Kept.refl
    | with_reducible apply State.dropAccess_kept
    | with_reducible apply State.deliver_kept
    | with_reducible apply State.needleFault_kept
    | with_reducible apply State.settleFence_kept
    | with_reducible apply State.viewLoads_kept
    | with_reducible apply State.viewPart_kept
    | with_reducible apply State.viewCut_kept
    | with_reducible refine (State.viewPart_keeps (by assumption)) ?_
    | split
    | with_reducible apply Kept.ite

theorem State.addAccess_kept : ∀ {u s a1 a2 a3 a4 a5 a6}, Kept u s → Kept u (State.addAccess s a1 a2 a3 a4 a5 a6) := by
  intros; refine Kept.trans (by assumption) ?_; unfold State.addAccess; try dsimp only
  repeat' first
    | simp only [Kept.fields_iff]
    | with_reducible apply Kept.refl
    | with_reducible apply State.useId_kept

theorem State.ownAccess_kept : ∀ {u s a1 a2 a3 a4 a5 a6}, Kept u s → Kept u (State.ownAccess s a1 a2 a3 a4 a5 a6) := by
  intros; refine Kept.trans (by assumption) ?_; unfold State.ownAccess; try dsimp only
  repeat' first
    | with_reducible apply Kept.refl
    | intro _
    | with_reducible apply State.addAccess_kept
    | with_reducible apply Kept.foldl

theorem State.meshAccess_kept : ∀ {u s a1 a2 a3 a4 a5 a6}, Kept u s → Kept u (State.meshAccess s a1 a2 a3 a4 a5 a6) := by
  intros; refine Kept.trans (by assumption) ?_; unfold State.meshAccess; try dsimp only
  repeat' first
    | with_reducible apply Kept.refl
    | with_reducible apply State.addAccess_kept
    | with_reducible apply State.emit_kept

theorem State.portAccess_kept : ∀ {u s a1 a2 a3 a4 a5 a6 a7 a8 a9}, Kept u s → Kept u (State.portAccess s a1 a2 a3 a4 a5 a6 a7 a8 a9) := by
  intros; refine Kept.trans (by assumption) ?_; unfold State.portAccess; try dsimp only
  repeat' first
    | with_reducible apply Kept.refl
    | intro _
    | with_reducible apply State.sendAccess_kept
    | with_reducible apply Kept.foldl

theorem State.viewAccess_kept : ∀ {u s a1 a2 a3 a4 a5 a6 a7 a8}, Kept u s → Kept u (State.viewAccess s a1 a2 a3 a4 a5 a6 a7 a8).1 := by
  intros; refine Kept.trans (by assumption) ?_; unfold State.viewAccess; try dsimp only
  repeat' first
    | with_reducible apply Kept.refl
    | intro _
    | with_reducible apply State.viewRead_kept
    | with_reducible refine (State.viewRead_keeps (by assumption)) ?_
    | with_reducible apply State.deliver_kept
    | with_reducible apply State.viewWrite_kept
    | with_reducible refine (State.viewWrite_keeps (by assumption)) ?_
    | with_reducible apply State.viewRefused_kept
    | with_reducible apply Kept.iteFst
    | with_reducible apply Kept.foldlFst
    | split
theorem State.viewAccess_keeps : ∀ {u s a1 a2 a3 a4 a5 a6 a7 a8 r t}, State.viewAccess s a1 a2 a3 a4 a5 a6 a7 a8 = (t, r) → Kept u s → Kept u t := by
  intros; rename_i h k; exact k.trans (Kept.pair (State.viewAccess_kept Kept.refl) h)

theorem State.regAccess_kept : ∀ {u s a1 a2 a3 a4 a5 a6}, Kept u s → NStep.Keeps u (State.regAccess s a1 a2 a3 a4 a5 a6) := by
  intros; unfold State.regAccess; try dsimp only
  repeat' first
    | intro _
    | with_reducible assumption
    | with_reducible apply State.regRead_kept
    | with_reducible apply State.deliver_kept
    | with_reducible apply State.regWrite_kept
    | exact NStep.kept_fault
    | with_reducible apply NStep.kept_done
    | with_reducible apply State.badAcc_kept
    | split
    | with_reducible apply Kept.ite

theorem State.rowAccess_kept : ∀ {u s a1 a2 a3 a4 a5 a6 a7}, Kept u s → NStep.Keeps u (State.rowAccess s a1 a2 a3 a4 a5 a6 a7) := by
  intros; unfold State.rowAccess; try dsimp only
  repeat' first
    | with_reducible assumption
    | with_reducible apply State.ownAccess_kept
    | with_reducible apply State.meshAccess_kept
    | with_reducible apply State.regAccess_kept
    | with_reducible apply State.viewAccess_kept
    | with_reducible refine (State.viewAccess_keeps (by assumption)) ?_
    | with_reducible apply State.spoolCheck_kept
    | with_reducible refine (State.spoolCheck_keeps (by assumption)) ?_
    | with_reducible apply State.deliver_kept
    | with_reducible apply State.put_kept
    | with_reducible apply State.portAccess_kept
    | exact NStep.kept_fault
    | exact NStep.kept_viewOff
    | exact NStep.kept_stall
    | with_reducible apply NStep.kept_done
    | with_reducible apply State.store_kept
    | with_reducible apply State.scalar_kept
    | with_reducible apply State.ok_kept
    | split
    | with_reducible apply Kept.ite

theorem State.access_kept {u s n vec a len op dest pc} (k : Kept u s) :
    NStep.Keeps u (State.access s n vec a len op dest pc) := by
  unfold State.access
  refine NStep.kept_ite NStep.kept_stall (NStep.kept_ite NStep.kept_fault ?_)
  suffices h : ∀ (l : List (Nat × Nat)) (r : NStep), NStep.Keeps u r → NStep.Keeps u (l.foldl (fun r c => match r with
    | .done t => t.rowAccess n vec c.1 c.2 (op.part (c.1 - a) c.2) (dest.shift (c.1 - a)) pc
    | r => r) r) from h _ _ k
  intro l
  induction l with
  | nil => exact fun r h => h
  | cons c l ih =>
    refine fun r h => ih _ ?_
    dsimp only
    split
    · exact State.rowAccess_kept h
    · exact h

theorem State.scalarAccess_kept : ∀ {u s a1 a2 a3 a4 a5 a6 a7}, Kept u s → Kept u (State.scalarAccess s a1 a2 a3 a4 a5 a6 a7) := by
  intros; refine Kept.trans (by assumption) ?_; unfold State.scalarAccess; try dsimp only
  repeat' first
    | with_reducible apply Kept.refl
    | intro _
    | with_reducible apply State.issue_kept
    | with_reducible apply State.jumpTo_kept
    | with_reducible apply State.access_kept
    | exact NStep.kept_fault
    | with_reducible apply NStep.kept_ite

theorem sstAtomicAdd_kept : ∀ {u a0 a1 a2 a3 a4 a5 s}, Kept u s → Kept u (sstAtomicAdd a0 a1 a2 a3 a4 a5 s) := by
  intros; refine Kept.trans (by assumption) ?_; unfold sstAtomicAdd; try dsimp only
  repeat' first
    | with_reducible apply Kept.refl
    | intro _
    | with_reducible apply State.issue_kept
    | with_reducible apply State.jumpTo_kept
    | with_reducible apply State.scalarAccess_kept
    | with_reducible apply Kept.ite
    | exact NStep.kept_fault

theorem State.vecAccess_kept : ∀ {u s a1 a2 a3 a4 a5 a6}, Kept u s → Kept u (State.vecAccess s a1 a2 a3 a4 a5 a6) := by
  intros; refine Kept.trans (by assumption) ?_; unfold State.vecAccess; try dsimp only
  repeat' first
    | with_reducible apply Kept.refl
    | intro _
    | with_reducible apply State.issue_kept
    | with_reducible apply State.jumpTo_kept
    | with_reducible apply State.access_kept
    | exact NStep.kept_fault
    | with_reducible apply NStep.kept_ite

theorem State.feedMove_kept : ∀ {u s a1 a2 a3 a4 a5}, Kept u s → Kept u (State.feedMove s a1 a2 a3 a4 a5) := by
  intros; refine Kept.trans (by assumption) ?_; unfold State.feedMove; try dsimp only
  repeat' first
    | with_reducible apply Kept.refl
    | intro _
    | with_reducible apply State.issue_kept
    | with_reducible apply State.jumpTo_kept
    | with_reducible apply State.access_kept
    | exact NStep.kept_stall
    | exact NStep.kept_fault
    | with_reducible apply NStep.kept_ite

theorem State.feedReg_kept : ∀ {u s a1 a2 a3 a4 a5}, Kept u s → Kept u (State.feedReg s a1 a2 a3 a4 a5) := by
  intros; refine Kept.trans (by assumption) ?_; unfold State.feedReg; try dsimp only
  repeat' first
    | with_reducible apply Kept.refl
    | intro _
    | with_reducible apply State.issue_kept
    | with_reducible apply State.jumpTo_kept
    | with_reducible apply State.modNeedle_kept
    | exact NStep.kept_stall
    | exact NStep.kept_fault
    | with_reducible apply NStep.kept_done
    | with_reducible apply NStep.kept_ite

theorem State.serve_kept : ∀ {u s a1 a2}, Kept u s → Kept u (State.serve s a1 a2).1 := by
  intros; refine Kept.trans (by assumption) ?_; unfold State.serve; try dsimp only
  repeat' first
    | simp only [Kept.fields_iff]
    | with_reducible apply Kept.refl
    | with_reducible apply State.put_kept
    | with_reducible apply Kept.iteFst
    | split
    | with_reducible refine Kept.memory ?_ (fun h => memWriteM_wf h _ _)
theorem State.serve_keeps : ∀ {u s a1 a2 r t}, State.serve s a1 a2 = (t, r) → Kept u s → Kept u t := by
  intros; rename_i h k; exact k.trans (Kept.pair (State.serve_kept Kept.refl) h)

theorem State.mcastDone_kept : ∀ {u s a1 a2}, Kept u s → Kept u (State.mcastDone s a1 a2) := by
  intros; refine Kept.trans (by assumption) ?_; unfold State.mcastDone; try dsimp only
  repeat' first
    | with_reducible apply Kept.refl
    | with_reducible apply State.modMesh_kept
    | with_reducible apply State.emit_kept
    | with_reducible apply Kept.ite

theorem State.serveRemote_kept : ∀ {u s a1 a2 a3}, Kept u s → Kept u (State.serveRemote s a1 a2 a3) := by
  intros; refine Kept.trans (by assumption) ?_; unfold State.serveRemote; try dsimp only
  repeat' first
    | with_reducible apply Kept.refl
    | with_reducible apply State.serve_kept
    | with_reducible apply State.modMesh_kept
    | with_reducible apply State.mcastDone_kept
    | with_reducible apply State.emit_kept
    | with_reducible apply Kept.ite

theorem State.noteBankWait_kept : ∀ {u s a1}, Kept u s → Kept u (State.noteBankWait s a1) := by
  intros; refine Kept.trans (by assumption) ?_; unfold State.noteBankWait; try dsimp only
  repeat' first
    | with_reducible apply Kept.refl
    | with_reducible apply State.useFree_kept
    | with_reducible apply State.modSkein_kept
    | with_reducible apply Kept.ite

theorem State.takePacket_kept : ∀ {u s a1 a2 a3 a4 a5}, Kept u s → Kept u (State.takePacket s a1 a2 a3 a4 a5) := by
  intros; refine Kept.trans (by assumption) ?_; unfold State.takePacket; try dsimp only
  repeat' first
    | with_reducible apply Kept.refl
    | with_reducible apply State.emit_kept
    | with_reducible apply State.modMesh_kept
    | with_reducible apply Kept.ite

theorem storeRead_kept : ∀ {u a0 a1 a2 a3 s}, Kept u s → Kept u (storeRead a0 a1 a2 a3 s) := by
  intros; refine Kept.trans (by assumption) ?_; unfold storeRead; try dsimp only
  repeat' first
    | with_reducible apply Kept.refl
    | with_reducible apply State.arrive_kept
    | with_reducible apply State.emit_kept
    | with_reducible apply State.takePacket_kept
    | with_reducible apply Kept.ite

theorem storeWrite_kept : ∀ {u a0 a1 a2 a3 s}, Kept u s → Kept u (storeWrite a0 a1 a2 a3 s) := by
  intros; refine Kept.trans (by assumption) ?_; unfold storeWrite; try dsimp only
  repeat' first
    | with_reducible apply Kept.refl
    | with_reducible apply State.arrive_kept
    | with_reducible apply State.emit_kept
    | with_reducible apply State.takePacket_kept
    | with_reducible apply Kept.ite

theorem atomicAddAtStore_kept : ∀ {u a0 a1 a2 a3 a4 s}, Kept u s → Kept u (atomicAddAtStore a0 a1 a2 a3 a4 s) := by
  intros; refine Kept.trans (by assumption) ?_; unfold atomicAddAtStore; try dsimp only
  repeat' first
    | with_reducible apply Kept.refl
    | with_reducible apply State.arrive_kept
    | with_reducible apply State.emit_kept
    | with_reducible apply State.takePacket_kept
    | with_reducible apply Kept.ite

theorem State.addMesh_kept : ∀ {u s a1 a2 a3 a4 a5 a6}, Kept u s → Kept u (State.addMesh s a1 a2 a3 a4 a5 a6) := by
  intros; refine Kept.trans (by assumption) ?_; unfold State.addMesh; try dsimp only
  repeat' first
    | with_reducible apply Kept.refl
    | with_reducible apply State.addAccess_kept

theorem State.dropAt_kept : ∀ {u s a1 a2 a3 a4 a5}, Kept u s → Kept u (State.dropAt s a1 a2 a3 a4 a5) := by
  intros; refine Kept.trans (by assumption) ?_; unfold State.dropAt; try dsimp only
  repeat' first
    | with_reducible apply Kept.refl
    | with_reducible apply State.emit_kept
    | with_reducible apply State.swStatus_kept
    | with_reducible apply State.modMesh_kept

theorem meshMcast_kept : ∀ {u a0 a1 a2 a3 s}, Kept u s → Kept u (meshMcast a0 a1 a2 a3 s) := by
  intros; refine Kept.trans (by assumption) ?_; unfold meshMcast; try dsimp only
  repeat' first
    | with_reducible apply Kept.refl
    | intro _
    | with_reducible apply State.issue_kept
    | with_reducible apply State.jumpTo_kept
    | with_reducible apply State.addMesh_kept
    | with_reducible apply State.emit_kept
    | with_reducible apply State.dropAt_kept
    | exact NStep.kept_stall
    | exact NStep.kept_fault
    | with_reducible apply NStep.kept_done
    | split

theorem State.mcastBegin_kept : ∀ {u s a1 a2}, Kept u s → Kept u (State.mcastBegin s a1 a2) := by
  intros; refine Kept.trans (by assumption) ?_; unfold State.mcastBegin; try dsimp only
  repeat' first
    | with_reducible apply Kept.refl
    | with_reducible apply State.emit_kept
    | with_reducible apply State.modMesh_kept
    | with_reducible apply Kept.ite

theorem multicastWrite_kept : ∀ {u a0 a1 a2 a3 a4 s}, Kept u s → Kept u (multicastWrite a0 a1 a2 a3 a4 s) := by
  intros; refine Kept.trans (by assumption) ?_; unfold multicastWrite; try dsimp only
  repeat' first
    | with_reducible apply Kept.refl
    | with_reducible apply State.arrive_kept
    | with_reducible apply State.mcastBegin_kept
    | with_reducible apply State.emits_kept
    | with_reducible apply State.takePacket_kept
    | with_reducible apply Kept.ite

theorem meshTree_kept : ∀ {u a0 a1 a2 a3 s}, Kept u s → Kept u (meshTree a0 a1 a2 a3 s) := by
  intros; refine Kept.trans (by assumption) ?_; unfold meshTree; try dsimp only
  repeat' first
    | with_reducible apply Kept.refl
    | intro _
    | with_reducible apply State.issue_kept
    | with_reducible apply State.jumpTo_kept
    | with_reducible apply State.modMesh_kept
    | with_reducible apply State.dropAt_kept
    | with_reducible apply State.emit_kept
    | with_reducible apply State.addMesh_kept
    | with_reducible apply Kept.ite
    | exact NStep.kept_stall
    | exact NStep.kept_fault
    | with_reducible apply NStep.kept_done
    | with_reducible apply NStep.kept_ite
    | split

theorem State.treeSend_kept : ∀ {u s a1 a2 a3 a4 a5}, Kept u s → Kept u (State.treeSend s a1 a2 a3 a4 a5) := by
  intros; refine Kept.trans (by assumption) ?_; unfold State.treeSend; try dsimp only
  repeat' first
    | with_reducible apply Kept.refl
    | with_reducible apply State.modMesh_kept
    | with_reducible apply State.emits_kept
    | with_reducible apply State.put_kept
    | with_reducible apply State.emit_kept
    | with_reducible apply Kept.ite

theorem treeInput_kept : ∀ {u a0 a1 a2 a3 a4 s}, Kept u s → Kept u (treeInput a0 a1 a2 a3 a4 s) := by
  intros; refine Kept.trans (by assumption) ?_; unfold treeInput; try dsimp only
  repeat' first
    | with_reducible apply Kept.refl
    | with_reducible apply State.treeSend_kept
    | with_reducible apply State.modMesh_kept
    | split
    | with_reducible apply Kept.ite

theorem fixedTree_kept : ∀ {u a0 a1 a2 a3 s}, Kept u s → Kept u (fixedTree a0 a1 a2 a3 s) := by
  intros; refine Kept.trans (by assumption) ?_; unfold fixedTree; try dsimp only
  repeat' first
    | with_reducible apply Kept.refl
    | with_reducible apply State.arrive_kept
    | with_reducible apply treeInput_kept
    | split

theorem State.moverAccess_kept : ∀ {u s a1 a2 a3 a4 a5 a6}, Kept u s → Kept u (State.moverAccess s a1 a2 a3 a4 a5 a6) := by
  intros; refine Kept.trans (by assumption) ?_; unfold State.moverAccess; try dsimp only
  repeat' first
    | simp only [Kept.fields_iff]
    | with_reducible apply Kept.refl
    | with_reducible apply State.useId_kept

theorem State.moverPiece_kept : ∀ {u s a1 a2 a3 a4 a5 a6 a7 a8}, Kept u s → Kept u (State.moverPiece s a1 a2 a3 a4 a5 a6 a7 a8).1 := by
  intros; refine Kept.trans (by assumption) ?_; unfold State.moverPiece; try dsimp only
  repeat' first
    | with_reducible apply Kept.refl
    | intro _
    | with_reducible apply State.put_kept
    | with_reducible apply State.viewWrite_kept
    | with_reducible apply State.viewRead_kept
    | with_reducible apply State.spoolCheck_kept
    | with_reducible apply State.sendAccess_kept
    | with_reducible apply State.maskFail_kept
    | with_reducible apply State.store_kept
    | with_reducible apply State.moverAccess_kept
    | with_reducible apply storeWrite_kept
    | with_reducible apply storeRead_kept
    | with_reducible apply State.emit_kept
    | with_reducible apply State.ok_kept
    | with_reducible apply Kept.iteFst
    | with_reducible apply Kept.foldl
    | split
theorem State.moverPiece_keeps : ∀ {u s a1 a2 a3 a4 a5 a6 a7 a8 r t}, State.moverPiece s a1 a2 a3 a4 a5 a6 a7 a8 = (t, r) → Kept u s → Kept u t := by
  intros; rename_i h k; exact k.trans (Kept.pair (State.moverPiece_kept Kept.refl) h)

theorem State.modHead_kept : ∀ {u s a1 a2 a3}, Kept u s → Kept u (State.modHead s a1 a2 a3) := by
  intros; refine Kept.trans (by assumption) ?_; unfold State.modHead; try dsimp only
  repeat' first
    | with_reducible apply Kept.refl
    | with_reducible apply State.modMover_kept

theorem State.moverFault_kept : ∀ {u s a1 a2 a3 a4}, Kept u s → Kept u (State.moverFault s a1 a2 a3 a4) := by
  intros; refine Kept.trans (by assumption) ?_; unfold State.moverFault; try dsimp only
  repeat' first
    | with_reducible apply Kept.refl
    | with_reducible apply State.moverWake_kept
    | with_reducible apply State.faultSide_kept
    | with_reducible apply State.modMover_kept

theorem State.addJob_kept : ∀ {u s a1 a2 a3}, Kept u s → Kept u (State.addJob s a1 a2 a3) := by
  intros; refine Kept.trans (by assumption) ?_; unfold State.addJob; try dsimp only
  repeat' first
    | with_reducible apply Kept.refl
    | with_reducible apply State.modCarder_kept

theorem State.newHead_kept : ∀ {u s a1 a2}, Kept u s → Kept u (State.newHead s a1 a2) := by
  intros; refine Kept.trans (by assumption) ?_; unfold State.newHead; try dsimp only
  repeat' first
    | with_reducible apply Kept.refl
    | with_reducible apply State.modMover_kept
    | with_reducible apply State.addJob_kept
    | split

theorem State.moverStart_kept : ∀ {u s a1 a2 a3}, Kept u s → Kept u (State.moverStart s a1 a2 a3) := by
  intros; refine Kept.trans (by assumption) ?_; unfold State.moverStart; try dsimp only
  repeat' first
    | with_reducible apply Kept.refl
    | intro _
    | with_reducible apply State.moverFault_kept
    | with_reducible apply State.modHead_kept
    | with_reducible apply State.moverPiece_kept
    | with_reducible refine (State.moverPiece_keeps (by assumption)) ?_
    | with_reducible apply State.ok_kept
    | split
    | with_reducible apply Kept.ite

theorem State.moverReads_kept : ∀ {u s a1 a2 a3 a4}, Kept u s → Kept u (State.moverReads s a1 a2 a3 a4) := by
  intro u s k m i fuel h
  induction fuel generalizing s with
  | zero => exact h
  | succ f ih =>
    unfold State.moverReads
    dsimp only
    repeat' first
      | with_reducible assumption
      | with_reducible apply ih
      | with_reducible apply State.modHead_kept
      | with_reducible apply State.moverFault_kept
      | with_reducible refine State.moverPiece_keeps (by assumption) ?_
      | split

theorem State.moverFeed_kept : ∀ {u s a1 a2 a3}, Kept u s → Kept u (State.moverFeed s a1 a2 a3) := by
  intros; refine Kept.trans (by assumption) ?_; unfold State.moverFeed; try dsimp only
  repeat' first
    | simp only [Kept.fields_iff]
    | with_reducible apply Kept.refl
    | intro _
    | with_reducible apply State.modNeedle_kept
    | with_reducible apply State.moverFault_kept
    | with_reducible apply State.modHead_kept
    | with_reducible apply Kept.foldl
    | split

theorem State.moverWrites_kept : ∀ {u s a1 a2 a3 a4}, Kept u s → Kept u (State.moverWrites s a1 a2 a3 a4) := by
  intro u s k m i fuel h
  induction fuel generalizing s with
  | zero => exact h
  | succ f ih =>
    unfold State.moverWrites
    dsimp only
    repeat' first
      | with_reducible assumption
      | with_reducible apply ih
      | with_reducible apply State.modHead_kept
      | with_reducible apply State.moverFault_kept
      | with_reducible refine State.moverPiece_keeps (by assumption) ?_
      | split

theorem State.moverBegin_kept : ∀ {u s a1 a2}, Kept u s → Kept u (State.moverBegin s a1 a2) := by
  intros; refine Kept.trans (by assumption) ?_; unfold State.moverBegin; try dsimp only
  repeat' first
    | with_reducible apply Kept.refl
    | with_reducible apply State.moverStart_kept
    | with_reducible apply Kept.ite
    | with_reducible apply Kept.iteFst
    | split

theorem State.moverMove_kept : ∀ {u s a1 a2}, Kept u s → Kept u (State.moverMove s a1 a2) := by
  intros; refine Kept.trans (by assumption) ?_; unfold State.moverMove; try dsimp only
  repeat' first
    | with_reducible apply Kept.refl
    | with_reducible apply State.moverFault_kept
    | with_reducible apply State.moverReads_kept
    | with_reducible apply State.moverFeed_kept
    | with_reducible apply State.moverWrites_kept
    | with_reducible apply Kept.ite
    | with_reducible apply Kept.iteFst
    | split

theorem State.moverGo_kept : ∀ {u s a1 a2}, Kept u s → Kept u (State.moverGo s a1 a2) := by
  intros; refine Kept.trans (by assumption) ?_; unfold State.moverGo; try dsimp only
  repeat' first
    | with_reducible apply Kept.refl
    | with_reducible apply State.moverBegin_kept
    | with_reducible apply State.moverMove_kept
    | with_reducible apply Kept.ite
    | with_reducible apply Kept.iteFst
    | split

theorem State.moverPop_kept : ∀ {u s a1 a2 a3}, Kept u s → Kept u (State.moverPop s a1 a2 a3) := by
  intros; refine Kept.trans (by assumption) ?_; unfold State.moverPop; try dsimp only
  repeat' first
    | intro _
    | with_reducible apply Kept.refl
    | with_reducible apply State.useId_kept
    | with_reducible apply State.emit_kept
    | with_reducible apply State.newHead_kept
    | with_reducible apply State.modMover_kept
    | with_reducible apply State.moverWake_kept
    | with_reducible apply State.moverGo_kept
    | with_reducible apply Kept.ite
    | split

theorem State.moverEnd_kept : ∀ {u s a1 a2}, Kept u s → Kept u (State.moverEnd s a1 a2) := by
  intros; refine Kept.trans (by assumption) ?_; unfold State.moverEnd; try dsimp only
  repeat' first
    | with_reducible apply Kept.refl
    | with_reducible apply State.moverPop_kept
    | with_reducible apply Kept.ite
    | with_reducible apply Kept.iteFst
    | split

theorem moverDone_kept : ∀ {u a0 a1 s}, Kept u s → Kept u (moverDone a0 a1 s) := by
  intros; refine Kept.trans (by assumption) ?_; unfold moverDone; try dsimp only
  repeat' first
    | with_reducible apply Kept.refl
    | with_reducible apply State.moverGo_kept
    | with_reducible apply State.moverEnd_kept
    | with_reducible apply Kept.ite

theorem State.moversResume_kept : ∀ {u s a1}, Kept u s → Kept u (State.moversResume s a1) := by
  intros; refine Kept.trans (by assumption) ?_; unfold State.moversResume; try dsimp only
  repeat' first
    | with_reducible apply Kept.refl
    | intro _
    | with_reducible apply State.moverGo_kept
    | with_reducible apply Kept.foldl

theorem State.finishMover_kept : ∀ {u s a1 a2 a3 a4 a5}, Kept u s → Kept u (State.finishMover s a1 a2 a3 a4 a5) := by
  intros; refine Kept.trans (by assumption) ?_; unfold State.finishMover; try dsimp only
  repeat' first
    | intro _
    | with_reducible apply Kept.refl
    | with_reducible apply State.dropAccess_kept
    | with_reducible apply State.moverFault_kept
    | with_reducible apply State.viewLoads_kept
    | with_reducible apply State.viewCut_kept
    | with_reducible apply State.viewPart_kept
    | with_reducible apply State.modHead_kept
    | with_reducible apply State.moverGo_kept
    | with_reducible refine (State.viewPart_keeps (by assumption)) ?_
    | split
    | with_reducible apply Kept.ite

theorem State.moverCard_kept : ∀ {u s a1 a2}, Kept u s → Kept u (State.moverCard s a1 a2) := by
  intros; refine Kept.trans (by assumption) ?_; unfold State.moverCard; try dsimp only
  repeat' first
    | intro _
    | with_reducible apply Kept.refl
    | with_reducible apply State.modCarder_kept
    | with_reducible apply State.moverFault_kept
    | with_reducible apply State.modHead_kept
    | with_reducible apply State.moverGo_kept
    | split
    | with_reducible apply Kept.ite
    | with_reducible apply Kept.foldl

theorem moveEnq_kept : ∀ {u a0 a1 a2 s}, Kept u s → Kept u (moveEnq a0 a1 a2 s) := by
  intros; refine Kept.trans (by assumption) ?_; unfold moveEnq; try dsimp only
  repeat' first
    | with_reducible apply Kept.refl
    | intro _
    | with_reducible apply State.issue_kept
    | with_reducible apply State.jumpTo_kept
    | with_reducible apply State.modMover_kept
    | with_reducible apply State.newHead_kept
    | with_reducible apply State.moverGo_kept
    | with_reducible apply Kept.ite
    | exact NStep.kept_stall
    | with_reducible apply NStep.kept_done
    | with_reducible apply NStep.kept_ite

theorem State.bankServe_kept : ∀ {u s a1}, Kept u s → Kept u (State.bankServe s a1) := by
  intros; refine Kept.trans (by assumption) ?_; unfold State.bankServe; try dsimp only
  repeat' first
    | with_reducible apply Kept.refl
    | with_reducible apply State.finishNeedle_kept
    | with_reducible apply State.finishMover_kept
    | with_reducible apply State.dropAccess_kept
    | with_reducible apply State.serve_kept
    | split

theorem bankGrant_kept : ∀ {u a0 a1 s}, Kept u s → Kept u (bankGrant a0 a1 s) := by
  intros; refine Kept.trans (by assumption) ?_; unfold bankGrant; try dsimp only
  repeat' first
    | intro _
    | with_reducible apply Kept.refl
    | with_reducible apply State.noteBankWait_kept
    | with_reducible apply State.serveRemote_kept
    | with_reducible apply State.modSkein_kept
    | with_reducible apply State.serve_kept
    | with_reducible apply State.finishNeedle_kept
    | with_reducible apply State.bankServe_kept
    | split
    | with_reducible apply Kept.ite

theorem State.meshAnswer_kept : ∀ {u s a1 a2 a3}, Kept u s → Kept u (State.meshAnswer s a1 a2 a3) := by
  intros; refine Kept.trans (by assumption) ?_; unfold State.meshAnswer; try dsimp only
  repeat' first
    | intro _
    | with_reducible apply Kept.refl
    | with_reducible apply State.finishNeedle_kept
    | with_reducible apply State.finishMover_kept
    | split
    | with_reducible apply Kept.ite

theorem readData_kept : ∀ {u a0 a1 a2 a3 s}, Kept u s → Kept u (readData a0 a1 a2 a3 s) := by
  intros; refine Kept.trans (by assumption) ?_; unfold readData; try dsimp only
  repeat' first
    | with_reducible apply Kept.refl
    | with_reducible apply State.arrive_kept
    | with_reducible apply State.emit_kept
    | with_reducible apply State.meshAnswer_kept
    | with_reducible apply Kept.ite

theorem writeAcknowledgement_kept : ∀ {u a0 a1 a2 s}, Kept u s → Kept u (writeAcknowledgement a0 a1 a2 s) := by
  intros; refine Kept.trans (by assumption) ?_; unfold writeAcknowledgement; try dsimp only
  repeat' first
    | with_reducible apply Kept.refl
    | with_reducible apply State.arrive_kept
    | with_reducible apply State.emit_kept
    | with_reducible apply State.meshAnswer_kept
    | with_reducible apply Kept.ite

theorem State.sendEntry_kept : ∀ {u s a1 a2 a3 a4}, Kept u s → Kept u (State.sendEntry s a1 a2 a3 a4) := by
  intros; refine Kept.trans (by assumption) ?_; unfold State.sendEntry; try dsimp only
  repeat' first
    | with_reducible apply Kept.refl
    | with_reducible apply State.modSkein_kept
    | with_reducible apply State.transmit_kept
    | with_reducible apply State.emit_kept
    | split
    | with_reducible apply Kept.ite

theorem State.sendEnds_kept : ∀ {u s a1 a2}, Kept u s → Kept u (State.sendEnds s a1 a2) := by
  intros; refine Kept.trans (by assumption) ?_; unfold State.sendEnds; try dsimp only
  repeat' first
    | with_reducible apply Kept.refl
    | with_reducible apply State.wake_kept
    | with_reducible apply Kept.ite
    | with_reducible apply Kept.iteFst
    | split

theorem State.pumpLink_kept : ∀ {u s a1 a2 a3}, Kept u s → Kept u (State.pumpLink s a1 a2 a3) := by
  intro u s i x fuel h
  induction fuel generalizing s with
  | zero => exact h
  | succ f ih =>
    unfold State.pumpLink
    dsimp only
    repeat' first
      | with_reducible assumption
      | with_reducible apply ih
      | with_reducible apply State.modSkein_kept
      | with_reducible apply State.putChan_kept
      | with_reducible apply State.sendEntry_kept
      | with_reducible apply State.sendEnds_kept
      | split

theorem State.pumpSend_kept : ∀ {u s a1 a2}, Kept u s → Kept u (State.pumpSend s a1 a2) := by
  intros; refine Kept.trans (by assumption) ?_; unfold State.pumpSend; try dsimp only
  repeat' first
    | with_reducible apply Kept.refl
    | with_reducible apply State.pumpLink_kept
    | with_reducible apply State.sendEnds_kept
    | split

theorem State.sendOn_kept : ∀ {u s a1 a2 a3 a4}, Kept u s → Kept u (State.sendOn s a1 a2 a3 a4) := by
  intros; refine Kept.trans (by assumption) ?_; unfold State.sendOn; try dsimp only
  repeat' first
    | with_reducible apply Kept.refl
    | with_reducible apply State.modNeedle_kept
    | with_reducible apply State.pumpSend_kept
    | with_reducible apply State.putChan_kept

theorem stchSend_kept : ∀ {u a0 a1 a2 s}, Kept u s → Kept u (stchSend a0 a1 a2 s) := by
  intros; refine Kept.trans (by assumption) ?_; unfold stchSend; try dsimp only
  repeat' first
    | with_reducible apply Kept.refl
    | intro _
    | with_reducible apply State.issue_kept
    | with_reducible apply State.jumpTo_kept
    | with_reducible apply State.sendOn_kept
    | exact NStep.kept_fault
    | with_reducible apply NStep.kept_done
    | split

theorem State.takeEntry64_keeps {u s i c e t} (h : State.takeEntry64 s i c = some (e, t)) (k : Kept u s) : Kept u t := by
  unfold State.takeEntry64 at h
  dsimp only at h
  split at h
  · cases h
  · injection h with h; injection h with _ h; subst h
    exact State.emits_kept (State.putChan_kept k)

theorem State.takeShift_kept {u s i c} (k : Kept u s) : Kept u (State.takeShift s i c).2 := by
  unfold State.takeShift; dsimp only
  split
  · exact State.putChan_kept k
  · exact State.useFree_kept k

theorem State.plyDone_kept {u s n i c unit d} (k : Kept u s) : Kept u (State.plyDone s n i c unit d) := by
  unfold State.plyDone; dsimp only
  apply State.wake_kept
  split
  · exact State.takeShift_kept k
  · exact k

theorem State.pumpRecv_kept : ∀ {u s a1 a2 a3 a4}, Kept u s → Kept u (State.pumpRecv s a1 a2 a3 a4) := by
  intro u s a1 a2 a3 a4 h
  induction a4 generalizing s a1 a2 a3 with
  | zero =>
    unfold State.pumpRecv; try dsimp only
    repeat' first
      | with_reducible assumption
  | succ a ih =>
    unfold State.pumpRecv; try dsimp only
    repeat' first
      | with_reducible assumption
      | with_reducible apply State.wake_kept
      | with_reducible refine (State.takeEntry64_keeps (by assumption)) ?_
      | with_reducible apply State.modNeedle_kept
      | with_reducible apply State.plyDone_kept
      | split
      | with_reducible apply ih

theorem stchRecv_kept : ∀ {u a0 a1 a2 s}, Kept u s → Kept u (stchRecv a0 a1 a2 s) := by
  intros; refine Kept.trans (by assumption) ?_; unfold stchRecv; try dsimp only
  repeat' first
    | with_reducible apply Kept.refl
    | intro _
    | with_reducible apply State.issue_kept
    | with_reducible apply State.jumpTo_kept
    | with_reducible apply State.pumpRecv_kept
    | with_reducible apply State.modNeedle_kept
    | exact NStep.kept_fault
    | with_reducible apply NStep.kept_done
    | split

theorem State.pumpLand_kept : ∀ {u s a1 a2 a3 a4}, Kept u s → Kept u (State.pumpLand s a1 a2 a3 a4) := by
  intro u s a1 a2 a3 a4 h
  induction a4 generalizing s a1 a2 a3 with
  | zero =>
    unfold State.pumpLand; try dsimp only
    repeat' first
      | with_reducible assumption
  | succ a ih =>
    unfold State.pumpLand; try dsimp only
    repeat' first
      | with_reducible assumption
      | with_reducible apply State.putChan_kept
      | with_reducible apply State.modNeedle_kept
      | with_reducible apply State.emits_kept
      | split
      | with_reducible apply ih

theorem land_kept : ∀ {u a0 a1 a2 a3 s}, Kept u s → Kept u (land a0 a1 a2 a3 s) := by
  intros; refine Kept.trans (by assumption) ?_; unfold land; try dsimp only
  repeat' first
    | with_reducible apply Kept.refl
    | intro _
    | with_reducible apply State.issue_kept
    | with_reducible apply State.jumpTo_kept
    | with_reducible apply State.putChan_kept
    | with_reducible apply State.pumpLand_kept
    | exact NStep.kept_fault
    | with_reducible apply NStep.kept_done
    | split

theorem State.stchEvent_kept : ∀ {u s a1 a2}, Kept u s → Kept u (State.stchEvent s a1 a2) := by
  intros; refine Kept.trans (by assumption) ?_; unfold State.stchEvent; try dsimp only
  repeat' first
    | with_reducible apply Kept.refl
    | with_reducible apply State.modSkein_kept

theorem State.entryArrives_kept : ∀ {u s a1 a2 a3 a4 a5}, Kept u s → Kept u (State.entryArrives s a1 a2 a3 a4 a5) := by
  intros; refine Kept.trans (by assumption) ?_; unfold State.entryArrives; try dsimp only
  repeat' first
    | simp only [Kept.fields_iff]
    | with_reducible apply Kept.refl
    | with_reducible apply State.stchEvent_kept
    | with_reducible apply State.putChan_kept
    | with_reducible apply State.pumpLand_kept
    | with_reducible apply State.pumpRecv_kept
    | with_reducible apply Kept.ite
    | with_reducible apply Kept.iteFst
    | split

theorem stitchArrival_kept : ∀ {u a0 a1 a2 a3 s}, Kept u s → Kept u (stitchArrival a0 a1 a2 a3 s) := by
  intros; refine Kept.trans (by assumption) ?_; unfold stitchArrival; try dsimp only
  repeat' first
    | with_reducible apply Kept.refl
    | with_reducible apply State.stchEvent_kept
    | with_reducible apply State.pumpRecv_kept
    | with_reducible apply State.pumpLand_kept
    | with_reducible apply State.putChan_kept
    | with_reducible apply State.entryArrives_kept
    | split

theorem creditReturn_kept : ∀ {u a0 a1 s}, Kept u s → Kept u (creditReturn a0 a1 s) := by
  intros; refine Kept.trans (by assumption) ?_; unfold creditReturn; try dsimp only
  repeat' first
    | with_reducible apply Kept.refl
    | with_reducible apply State.pumpSend_kept
    | with_reducible apply State.putChan_kept
    | with_reducible apply Kept.ite

theorem twinUnmatched_kept : ∀ {u a0 a1 s}, Kept u s → Kept u (twinUnmatched a0 a1 s) := by
  intros; refine Kept.trans (by assumption) ?_; unfold twinUnmatched; try dsimp only
  repeat' first
    | with_reducible apply Kept.refl
    | with_reducible apply State.stchEvent_kept
    | split

theorem State.modBed_kept : ∀ {u s a1 a2}, Kept u s → Kept u (State.modBed s a1 a2) := by
  intros; refine Kept.trans (by assumption) ?_; unfold State.modBed; try dsimp only
  repeat' first
    | with_reducible apply Kept.refl
    | with_reducible apply State.modNeedle_kept

theorem State.knitFlag_kept : ∀ {u s a1 a2}, Kept u s → Kept u (State.knitFlag s a1 a2) := by
  intros; refine Kept.trans (by assumption) ?_; unfold State.knitFlag; try dsimp only
  repeat' first
    | with_reducible apply Kept.refl
    | with_reducible apply State.modSw_kept

theorem State.longSum_kept : ∀ {u s a1 a2}, Kept u s → Kept u (State.longSum s a1 a2) := by
  intros; refine Kept.trans (by assumption) ?_; unfold State.longSum; try dsimp only
  repeat' first
    | with_reducible apply Kept.refl
    | with_reducible apply State.knitFlag_kept
    | with_reducible apply State.swStatus_kept
    | split

theorem State.satNote_kept : ∀ {u s a1}, Kept u s → Kept u (State.satNote s a1) := by
  intros; refine Kept.trans (by assumption) ?_; unfold State.satNote; try dsimp only
  repeat' first
    | with_reducible apply Kept.refl
    | with_reducible apply State.knitFlag_kept
    | with_reducible apply State.swStatus_kept
    | split

theorem castOn_kept : ∀ {u a0 a1 a2 s}, Kept u s → Kept u (castOn a0 a1 a2 s) := by
  intros; refine Kept.trans (by assumption) ?_; unfold castOn; try dsimp only
  repeat' first
    | with_reducible apply Kept.refl
    | intro _
    | with_reducible apply State.issue_kept
    | with_reducible apply State.jumpTo_kept
    | with_reducible apply State.longSum_kept
    | with_reducible apply State.modBed_kept
    | with_reducible apply State.ownAccess_kept
    | with_reducible apply Kept.foldlFst
    | exact NStep.kept_fault
    | with_reducible apply NStep.kept_done
    | split

theorem State.forward_kept : ∀ {u s a1 a2 a3}, Kept u s → Kept u (State.forward s a1 a2 a3) := by
  intros; refine Kept.trans (by assumption) ?_; unfold State.forward; try dsimp only
  repeat' first
    | with_reducible apply Kept.refl
    | with_reducible apply State.pumpSend_kept
    | with_reducible apply State.putChan_kept
    | split

theorem State.copyOps_kept : ∀ {u s a1 a2 a3 a4}, Kept u s → Kept u (State.copyOps s a1 a2 a3 a4) := by
  intros; refine Kept.trans (by assumption) ?_; unfold State.copyOps; try dsimp only
  repeat' first
    | with_reducible apply Kept.refl
    | with_reducible apply State.put_kept
    | with_reducible apply State.ownAccess_kept
    | with_reducible apply Kept.ite

theorem State.mmaBegin_kept : ∀ {u s a1 a2 a3 a4 a5 a6}, Kept u s → Kept u (State.mmaBegin s a1 a2 a3 a4 a5 a6) := by
  intros; refine Kept.trans (by assumption) ?_; unfold State.mmaBegin; try dsimp only
  repeat' first
    | with_reducible apply Kept.refl
    | with_reducible apply State.modBed_kept
    | with_reducible apply State.copyOps_kept
    | with_reducible apply State.forward_kept
    | split

theorem mma_kept : ∀ {u a0 a1 s}, Kept u s → Kept u (mma a0 a1 s) := by
  intros; refine Kept.trans (by assumption) ?_; unfold mma; try dsimp only
  repeat' first
    | with_reducible apply Kept.refl
    | intro _
    | with_reducible apply State.issue_kept
    | with_reducible apply State.jumpTo_kept
    | with_reducible apply State.longSum_kept
    | with_reducible apply State.modBed_kept
    | with_reducible apply State.mmaBegin_kept
    | exact NStep.kept_stall
    | exact NStep.kept_fault
    | with_reducible apply NStep.kept_done
    | with_reducible apply NStep.kept_ite
    | split
    | with_reducible apply Kept.ite

theorem State.doBind_kept : ∀ {u s a1 a2 a3}, Kept u s → Kept u (State.doBind s a1 a2 a3) := by
  intros; refine Kept.trans (by assumption) ?_; unfold State.doBind; try dsimp only
  repeat' first
    | with_reducible apply Kept.refl
    | with_reducible apply State.modNeedle_kept
    | with_reducible apply State.modBed_kept
    | with_reducible apply State.wake_kept
    | with_reducible apply State.addJob_kept
    | split
    | with_reducible apply Kept.ite

theorem State.runCont_kept : ∀ {u s a1 a2 a3}, Kept u s → Kept u (State.runCont s a1 a2 a3) := by
  intros; refine Kept.trans (by assumption) ?_; unfold State.runCont; try dsimp only
  repeat' first
    | with_reducible apply Kept.refl
    | with_reducible apply State.doBind_kept
    | with_reducible apply State.wake_kept
    | with_reducible apply State.putChan_kept
    | with_reducible apply State.sendOn_kept
    | with_reducible apply State.pumpRecv_kept
    | with_reducible apply State.modNeedle_kept
    | split

theorem State.settleBed_kept : ∀ {u s a1}, Kept u s → Kept u (State.settleBed s a1) := by
  intros; refine Kept.trans (by assumption) ?_; unfold State.settleBed; try dsimp only
  repeat' first
    | with_reducible apply Kept.refl
    | with_reducible apply State.runCont_kept
    | split

theorem State.pair_kept {u s n unit ss vs bad c} (k : Kept u s) : Kept u (State.pair s n unit ss vs bad c) := by
  unfold State.pair; dsimp only
  refine State.issue_kept k fun t => ?_
  split
  · exact NStep.kept_fault
  · split
    · exact NStep.kept_fault
    · exact NStep.kept_ite NStep.kept_stall
        (NStep.kept_done (State.settleBed_kept (State.modNeedle_kept (State.modBed_kept Kept.refl))))

theorem bindOff_kept : ∀ {u a0 a1 a2 s}, Kept u s → Kept u (bindOff a0 a1 a2 s) := by
  intros; refine Kept.trans (by assumption) ?_; unfold bindOff; try dsimp only
  repeat' first
    | with_reducible apply Kept.refl
    | with_reducible apply State.pair_kept

theorem bindDrop_kept : ∀ {u a0 a1 s}, Kept u s → Kept u (bindDrop a0 a1 s) := by
  intros; refine Kept.trans (by assumption) ?_; unfold bindDrop; try dsimp only
  repeat' first
    | simp only [Kept.fields_iff]
    | with_reducible apply Kept.refl
    | intro _
    | with_reducible apply State.issue_kept
    | with_reducible apply State.jumpTo_kept
    | with_reducible apply State.modBed_kept
    | exact NStep.kept_fault
    | with_reducible apply NStep.kept_done
    | split

theorem State.startReplay_kept : ∀ {u s a1 a2}, Kept u s → Kept u (State.startReplay s a1 a2) := by
  intros; refine Kept.trans (by assumption) ?_; unfold State.startReplay; try dsimp only
  repeat' first
    | simp only [Kept.fields_iff]
    | with_reducible apply Kept.refl
    | intro _
    | with_reducible apply State.modBed_kept
    | split

theorem mmaQueueStart_kept : ∀ {u a0 s}, Kept u s → Kept u (mmaQueueStart a0 s) := by
  intros; refine Kept.trans (by assumption) ?_; unfold mmaQueueStart; try dsimp only
  repeat' first
    | intro _
    | with_reducible apply Kept.refl
    | with_reducible apply State.settleBed_kept
    | with_reducible apply State.modBed_kept
    | with_reducible apply State.mmaBegin_kept
    | with_reducible apply State.startReplay_kept
    | split
    | with_reducible apply Kept.ite

theorem confirmationTest_kept : ∀ {u a0 a1 s}, Kept u s → Kept u (confirmationTest a0 a1 s) := by
  intros; refine Kept.trans (by assumption) ?_; unfold confirmationTest; try dsimp only
  repeat' first
    | intro _
    | with_reducible apply Kept.refl
    | with_reducible apply State.modBed_kept
    | with_reducible apply State.settleBed_kept
    | with_reducible apply State.satNote_kept
    | with_reducible apply State.confirmed_kept
    | with_reducible apply State.startReplay_kept
    | split
    | with_reducible apply Kept.ite

theorem State.drainAccess_kept : ∀ {u s a1 a2 a3 a4}, Kept u s → Kept u (State.drainAccess s a1 a2 a3 a4) := by
  intros; refine Kept.trans (by assumption) ?_; unfold State.drainAccess; try dsimp only
  repeat' first
    | simp only [Kept.fields_iff]
    | with_reducible apply Kept.refl
    | with_reducible apply State.useId_kept

theorem State.drainWrite_kept : ∀ {u s a1 a2 a3}, Kept u s → Kept u (State.drainWrite s a1 a2 a3) := by
  intros; refine Kept.trans (by assumption) ?_; unfold State.drainWrite; try dsimp only
  repeat' first
    | with_reducible apply Kept.refl
    | intro _
    | with_reducible apply State.put_kept
    | with_reducible apply State.drainAccess_kept
    | with_reducible apply Kept.foldl
    | split

theorem State.drainCard_kept : ∀ {u s a1 a2 a3 a4}, Kept u s → Kept u (State.drainCard s a1 a2 a3 a4) := by
  intros; refine Kept.trans (by assumption) ?_; unfold State.drainCard; try dsimp only
  repeat' first
    | with_reducible apply Kept.refl
    | with_reducible apply State.modCarder_kept
    | with_reducible apply State.drainWrite_kept
    | with_reducible apply State.modBed_kept
    | split
    | with_reducible apply Kept.ite

theorem drainDone_kept : ∀ {u a0 a1 s}, Kept u s → Kept u (drainDone a0 a1 s) := by
  intros; refine Kept.trans (by assumption) ?_; unfold drainDone; try dsimp only
  repeat' first
    | with_reducible apply Kept.refl
    | with_reducible apply State.put_kept
    | with_reducible apply State.modBed_kept
    | with_reducible apply State.doBind_kept
    | with_reducible apply State.settleFence_kept
    | split
    | with_reducible apply Kept.ite

end Sys2Proof.Machine
end

