-- ==== Sys2Proof/Laws/KeptD.lean ====
section
/-! SUPPORT. What is kept (Laws/Kept) by the distaff cores, the carders, management, the tally, the chain line, repair and transactions. -/
namespace Sys2Proof.Machine
open Sys2Proof

theorem State.coreRefused_kept : ∀ {u s a1 a2 a3}, Kept u s → Kept u (State.coreRefused s a1 a2 a3) := by
  intros; refine Kept.trans (by assumption) ?_; unfold State.coreRefused; try dsimp only
  repeat' first
    | with_reducible apply Kept.refl
    | with_reducible apply State.swStatus_kept
    | with_reducible apply State.modDst_kept
    | split

theorem State.corePoisoned_kept : ∀ {u s a1 a2 a3}, Kept u s → Kept u (State.corePoisoned s a1 a2 a3) := by
  intros; refine Kept.trans (by assumption) ?_; unfold State.corePoisoned; try dsimp only
  repeat' first
    | with_reducible apply Kept.refl
    | with_reducible apply State.modDst_kept
    | with_reducible apply State.mediaError_kept

theorem State.writeBack_kept : ∀ {u s a1}, Kept u s → Kept u (State.writeBack s a1) := by
  intros; refine Kept.trans (by assumption) ?_; unfold State.writeBack; try dsimp only
  repeat' first
    | with_reducible apply Kept.refl
    | with_reducible apply State.put_kept
    | with_reducible apply Kept.ite

theorem State.evict_kept : ∀ {u s}, Kept u s → Kept u (State.evict s) := by
  intros; refine Kept.trans (by assumption) ?_; unfold State.evict; try dsimp only
  repeat' first
    | simp only [Kept.fields_iff]
    | with_reducible apply Kept.refl
    | with_reducible apply State.useFree_kept
    | with_reducible apply State.writeBack_kept
    | split

theorem State.makeRoom_kept : ∀ {u s a1}, Kept u s → Kept u (State.makeRoom s a1) := by
  intros; refine Kept.trans (by assumption) ?_; unfold State.makeRoom; try dsimp only
  repeat' first
    | simp only [Kept.fields_iff]
    | with_reducible apply Kept.refl
    | intro _
    | with_reducible apply State.useFree_kept
    | with_reducible apply State.writeBack_kept
    | with_reducible apply Kept.ite
    | with_reducible apply Kept.iteFst
    | split

theorem State.fill_kept : ∀ {u s a1}, Kept u s → Kept u (State.fill s a1).1 := by
  intros; refine Kept.trans (by assumption) ?_; unfold State.fill; try dsimp only
  repeat' first
    | intro _
    | simp only [Kept.fields_iff]
    | with_reducible apply Kept.refl
    | with_reducible apply State.makeRoom_kept
    | with_reducible apply Kept.iteFst
    | split
theorem State.fill_keeps : ∀ {u s a1 r t}, State.fill s a1 = (t, r) → Kept u s → Kept u t := by
  intros; rename_i h k; exact k.trans (Kept.pair (State.fill_kept Kept.refl) h)

theorem State.cacheRead_kept : ∀ {u s a1 a2}, Kept u s → Kept u (State.cacheRead s a1 a2).1 := by
  intros; refine Kept.trans (by assumption) ?_; unfold State.cacheRead; try dsimp only
  repeat' first
    | with_reducible apply Kept.refl
    | with_reducible apply State.evict_kept
    | with_reducible apply State.fill_kept
    | with_reducible apply Kept.iteFst
theorem State.cacheRead_keeps : ∀ {u s a1 a2 r t}, State.cacheRead s a1 a2 = (t, r) → Kept u s → Kept u t := by
  intros; rename_i h k; exact k.trans (Kept.pair (State.cacheRead_kept Kept.refl) h)

theorem State.cacheWrite_kept : ∀ {u s a1 a2}, Kept u s → Kept u (State.cacheWrite s a1 a2) := by
  intros; refine Kept.trans (by assumption) ?_; unfold State.cacheWrite; try dsimp only
  repeat' first
    | simp only [Kept.fields_iff]
    | with_reducible apply Kept.refl
    | with_reducible apply State.evict_kept
    | with_reducible apply State.put_kept
    | with_reducible apply State.fill_kept
    | with_reducible apply Kept.ite

theorem State.corePiece_kept : ∀ {u s a1 a2 a3 a4 a5 a6}, Kept u s → Kept u (State.corePiece s a1 a2 a3 a4 a5 a6).1 := by
  intros; refine Kept.trans (by assumption) ?_; unfold State.corePiece; try dsimp only
  repeat' first
    | with_reducible apply Kept.refl
    | with_reducible apply State.sendAccess_kept
    | with_reducible apply State.cacheWrite_kept
    | with_reducible apply State.maskFail_kept
    | with_reducible apply State.put_kept
    | with_reducible apply State.cacheRead_kept
    | with_reducible refine (State.cacheRead_keeps (by assumption)) ?_
    | with_reducible apply State.regWrite_kept
    | with_reducible apply State.regRead_kept
    | with_reducible refine (State.regRead_keeps (by assumption)) ?_
    | with_reducible apply State.viewWrite_kept
    | with_reducible refine (State.viewWrite_keeps (by assumption)) ?_
    | with_reducible apply State.viewRead_kept
    | with_reducible refine (State.viewRead_keeps (by assumption)) ?_
    | with_reducible apply State.spoolCheck_kept
    | with_reducible refine (State.spoolCheck_keeps (by assumption)) ?_
    | with_reducible apply State.badAcc_kept
    | with_reducible apply State.store_kept
    | with_reducible apply State.ok_kept
    | with_reducible apply Kept.iteFst
    | split
theorem State.corePiece_keeps : ∀ {u s a1 a2 a3 a4 a5 a6 r t}, State.corePiece s a1 a2 a3 a4 a5 a6 = (t, r) → Kept u s → Kept u t := by
  intros; rename_i h k; exact k.trans (Kept.pair (State.corePiece_kept Kept.refl) h)

theorem State.coreRead_kept : ∀ {u s a1 a2 a3 a4 a5}, Kept u s → Kept u (State.coreRead s a1 a2 a3 a4 a5).1 := by
  intros; refine Kept.trans (by assumption) ?_; unfold State.coreRead; try dsimp only
  repeat' first
    | with_reducible apply Kept.refl
    | intro _
    | with_reducible apply State.corePiece_kept
    | with_reducible refine (State.corePiece_keeps (by assumption)) ?_
    | with_reducible apply Kept.iteFst
    | with_reducible apply Kept.foldlFst
    | split
theorem State.coreRead_keeps : ∀ {u s a1 a2 a3 a4 a5 r t}, State.coreRead s a1 a2 a3 a4 a5 = (t, r) → Kept u s → Kept u t := by
  intros; rename_i h k; exact k.trans (Kept.pair (State.coreRead_kept Kept.refl) h)

theorem State.coreWrite_kept : ∀ {u s a1 a2 a3}, Kept u s → Kept u (State.coreWrite s a1 a2 a3).1 := by
  intros; refine Kept.trans (by assumption) ?_; unfold State.coreWrite; try dsimp only
  repeat' first
    | simp only [Kept.fields_iff]
    | with_reducible apply Kept.refl
    | intro _
    | with_reducible apply State.corePiece_kept
    | with_reducible apply Kept.iteFst
    | with_reducible apply Kept.foldlFst
    | split
theorem State.coreWrite_keeps : ∀ {u s a1 a2 a3 r t}, State.coreWrite s a1 a2 a3 = (t, r) → Kept u s → Kept u t := by
  intros; rename_i h k; exact k.trans (Kept.pair (State.coreWrite_kept Kept.refl) h)

theorem State.coreDeliver_kept {u s c d b} (k : Kept u s) : Kept u (State.coreDeliver s c d b) := by
  cases d with
  | xreg => exact State.modDst_kept k
  | freg => exact State.modDst_kept k
  | xvec => exact State.modDst_kept k
  | viewOut => exact State.emit_kept k
  | _ => exact k

theorem State.coreLoad_kept : ∀ {u s a1 a2 a3 a4 a5}, Kept u s → Kept u (State.coreLoad s a1 a2 a3 a4 a5).1 := by
  intros; refine Kept.trans (by assumption) ?_; unfold State.coreLoad; try dsimp only
  repeat' first
    | with_reducible apply Kept.refl
    | with_reducible apply State.coreRead_kept
    | with_reducible refine (State.coreRead_keeps (by assumption)) ?_
    | with_reducible apply State.coreDeliver_kept
    | with_reducible apply State.coreRefused_kept
    | with_reducible apply State.corePoisoned_kept
    | with_reducible apply Kept.iteFst
    | split
theorem State.coreLoad_keeps : ∀ {u s a1 a2 a3 a4 a5 r t}, State.coreLoad s a1 a2 a3 a4 a5 = (t, r) → Kept u s → Kept u t := by
  intros; rename_i h k; exact k.trans (Kept.pair (State.coreLoad_kept Kept.refl) h)

theorem State.coreStore_kept : ∀ {u s a1 a2 a3}, Kept u s → Kept u (State.coreStore s a1 a2 a3).1 := by
  intros; refine Kept.trans (by assumption) ?_; unfold State.coreStore; try dsimp only
  repeat' first
    | with_reducible apply Kept.refl
    | with_reducible apply State.coreWrite_kept
    | with_reducible refine (State.coreWrite_keeps (by assumption)) ?_
    | with_reducible apply State.coreRefused_kept
    | with_reducible apply State.corePoisoned_kept
    | with_reducible apply Kept.iteFst
    | split
theorem State.coreStore_keeps : ∀ {u s a1 a2 a3 r t}, State.coreStore s a1 a2 a3 = (t, r) → Kept u s → Kept u t := by
  intros; rename_i h k; exact k.trans (Kept.pair (State.coreStore_kept Kept.refl) h)

theorem State.coreAmo_kept : ∀ {u s a1 a2 a3 a4 a5 a6}, Kept u s → Kept u (State.coreAmo s a1 a2 a3 a4 a5 a6).1 := by
  intros; refine Kept.trans (by assumption) ?_; unfold State.coreAmo; try dsimp only
  repeat' first
    | with_reducible apply Kept.refl
    | with_reducible apply State.coreRefused_kept
    | with_reducible apply State.coreRead_kept
    | with_reducible refine (State.coreRead_keeps (by assumption)) ?_
    | with_reducible apply State.coreStore_kept
    | with_reducible refine (State.coreStore_keeps (by assumption)) ?_
    | with_reducible apply State.modDst_kept
    | with_reducible apply State.corePoisoned_kept
    | with_reducible apply Kept.iteFst
    | split
theorem State.coreAmo_keeps : ∀ {u s a1 a2 a3 a4 a5 a6 r t}, State.coreAmo s a1 a2 a3 a4 a5 a6 = (t, r) → Kept u s → Kept u t := by
  intros; rename_i h k; exact k.trans (Kept.pair (State.coreAmo_kept Kept.refl) h)

theorem State.coreOp_kept : ∀ {u s a1 a2 a3}, Kept u s → Kept u (State.coreOp s a1 a2 a3).1 := by
  intros; refine Kept.trans (by assumption) ?_; unfold State.coreOp; try dsimp only
  repeat' first
    | with_reducible apply Kept.refl
    | with_reducible apply State.modDst_kept
    | with_reducible apply State.coreLoad_kept
    | with_reducible refine (State.coreLoad_keeps (by assumption)) ?_
    | with_reducible apply State.coreStore_kept
    | with_reducible refine (State.coreStore_keeps (by assumption)) ?_
    | with_reducible apply State.coreAmo_kept
    | with_reducible refine (State.coreAmo_keeps (by assumption)) ?_
    | with_reducible apply State.coreRefused_kept
    | with_reducible apply Kept.iteFst
    | split
theorem State.coreOp_keeps : ∀ {u s a1 a2 a3 r t}, State.coreOp s a1 a2 a3 = (t, r) → Kept u s → Kept u t := by
  intros; rename_i h k; exact k.trans (Kept.pair (State.coreOp_kept Kept.refl) h)

theorem distaffInstruction_kept : ∀ {u a0 a1 a2 s}, Kept u s → Kept u (distaffInstruction a0 a1 a2 s) := by
  intros; refine Kept.trans (by assumption) ?_; unfold distaffInstruction; try dsimp only
  repeat' first
    | with_reducible apply Kept.refl
    | intro _
    | with_reducible apply State.modDst_kept
    | with_reducible apply State.coreOp_kept
    | with_reducible apply Kept.foldlFst
    | split
    | with_reducible apply Kept.ite

theorem State.finishCore_kept : ∀ {u s a1 a2 a3 a4}, Kept u s → Kept u (State.finishCore s a1 a2 a3 a4) := by
  intros; refine Kept.trans (by assumption) ?_; unfold State.finishCore; try dsimp only
  repeat' first
    | intro _
    | with_reducible apply Kept.refl
    | with_reducible apply State.dropAccess_kept
    | with_reducible apply State.corePoisoned_kept
    | with_reducible apply State.coreRefused_kept
    | with_reducible apply State.coreDeliver_kept
    | with_reducible apply State.modDst_kept
    | with_reducible apply State.viewLoads_kept
    | with_reducible apply State.viewCut_kept
    | with_reducible apply State.viewPart_kept
    | with_reducible refine (State.viewPart_keeps (by assumption)) ?_
    | split
    | with_reducible apply Kept.ite

theorem State.custom_kept {u s d f} (k : Kept u s) (hf : ∀ {t}, Kept t (f t)) : Kept u (State.custom s d f) := by
  unfold State.custom; dsimp only
  exact Kept.ite k (Kept.ite (State.modDst_kept k) (k.trans hf))

theorem State.coreDone_kept : ∀ {u s a1 a2 a3}, Kept u s → Kept u (State.coreDone s a1 a2 a3) := by
  intros; refine Kept.trans (by assumption) ?_; unfold State.coreDone; try dsimp only
  repeat' first
    | with_reducible apply Kept.refl
    | with_reducible apply State.modDst_kept

theorem dstDoorbell_kept : ∀ {u a0 a1 a2 a3 s}, Kept u s → Kept u (dstDoorbell a0 a1 a2 a3 s) := by
  intros; refine Kept.trans (by assumption) ?_; unfold dstDoorbell; try dsimp only
  repeat' first
    | with_reducible apply Kept.refl
    | intro _
    | with_reducible apply State.custom_kept
    | with_reducible apply State.coreDone_kept
    | with_reducible apply State.ringBell_kept
    | with_reducible apply State.badAcc_kept
    | with_reducible apply State.sendAccess_kept
    | with_reducible apply Kept.ite
    | split

theorem dstTickwait_kept : ∀ {u a0 a1 a2 s}, Kept u s → Kept u (dstTickwait a0 a1 a2 s) := by
  intros; refine Kept.trans (by assumption) ?_; unfold dstTickwait; try dsimp only
  repeat' first
    | with_reducible apply Kept.refl
    | intro _
    | with_reducible apply State.custom_kept
    | with_reducible apply State.coreDone_kept
    | with_reducible apply State.modDst_kept
    | with_reducible apply Kept.ite

theorem dstResume_kept : ∀ {u a0 s}, Kept u s → Kept u (dstResume a0 s) := by
  intros; refine Kept.trans (by assumption) ?_; unfold dstResume; try dsimp only
  repeat' first
    | with_reducible apply Kept.refl
    | with_reducible apply State.coreDone_kept
    | split

theorem dstSwfence_kept : ∀ {u a0 a1 s}, Kept u s → Kept u (dstSwfence a0 a1 s) := by
  intros; refine Kept.trans (by assumption) ?_; unfold dstSwfence; try dsimp only
  repeat' first
    | simp only [Kept.fields_iff]
    | with_reducible apply Kept.refl
    | intro _
    | with_reducible apply State.custom_kept
    | with_reducible apply State.writeBack_kept
    | with_reducible apply State.modDst_kept
    | with_reducible apply Kept.ite
    | with_reducible apply Kept.foldl

theorem State.coreFlag_kept : ∀ {u s a1 a2 a3 a4 a5}, Kept u s → Kept u (State.coreFlag s a1 a2 a3 a4 a5) := by
  intros; refine Kept.trans (by assumption) ?_; unfold State.coreFlag; try dsimp only
  repeat' first
    | with_reducible apply Kept.refl
    | intro _
    | with_reducible apply State.custom_kept
    | with_reducible apply State.modDst_kept
    | with_reducible apply State.useId_kept
    | with_reducible apply State.emit_kept
    | split

theorem State.flagAnswer_kept : ∀ {u s a1 a2 a3}, Kept u s → Kept u (State.flagAnswer s a1 a2 a3) := by
  intros; refine Kept.trans (by assumption) ?_; unfold State.flagAnswer; try dsimp only
  repeat' first
    | with_reducible apply Kept.refl
    | with_reducible apply State.meshAnswer_kept
    | with_reducible apply State.needleFault_kept
    | with_reducible apply State.wake_kept
    | with_reducible apply State.moverFault_kept
    | with_reducible apply State.coreRefused_kept
    | with_reducible apply State.coreDone_kept
    | split

theorem flagReply_kept : ∀ {u a0 a1 a2 a3 s}, Kept u s → Kept u (flagReply a0 a1 a2 a3 s) := by
  intros; refine Kept.trans (by assumption) ?_; unfold flagReply; try dsimp only
  repeat' first
    | with_reducible apply Kept.refl
    | with_reducible apply State.arrive_kept
    | with_reducible apply State.emit_kept
    | with_reducible apply State.flagAnswer_kept
    | with_reducible apply Kept.ite

theorem State.modSaved_kept : ∀ {u s a1 a2 a3 a4}, Kept u s → Kept u (State.modSaved s a1 a2 a3 a4) := by
  intros; refine Kept.trans (by assumption) ?_; unfold State.modSaved; try dsimp only
  repeat' first
    | simp only [Kept.fields_iff]
    | with_reducible apply Kept.refl
    | with_reducible apply State.modCarder_kept
    | split

theorem cmdLoadCardProgram_kept : ∀ {u r e s}, Kept u s → Kept u (cmdLoadCardProgram.act r e s) := by
  intros; refine Kept.trans (by assumption) ?_; unfold cmdLoadCardProgram; try dsimp only
  repeat' first
    | with_reducible apply Kept.refl
    | intro _
    | with_reducible apply State.modSaved_kept
    | with_reducible apply State.ok_kept
    | with_reducible apply State.modEdgeCarder_kept
    | with_reducible apply State.inFlight_kept
    | with_reducible apply State.viewLoads_kept
    | with_reducible apply Kept.foldl
    | split
    | with_reducible apply Kept.ite

theorem State.viewTold_kept : ∀ {u s a1 a2 a3 a4 a5 a6}, Kept u s → Kept u (State.viewTold s a1 a2 a3 a4 a5 a6) := by
  intros; refine Kept.trans (by assumption) ?_; unfold State.viewTold; try dsimp only
  repeat' first
    | with_reducible apply Kept.refl
    | with_reducible apply State.emit_kept
    | with_reducible apply State.needleFault_kept
    | with_reducible apply State.corePoisoned_kept
    | with_reducible apply State.coreRefused_kept
    | split
    | with_reducible apply Kept.ite

theorem cardViewRead_kept : ∀ {u a0 a1 a2 a3 s}, Kept u s → Kept u (cardViewRead a0 a1 a2 a3 s) := by
  intros; refine Kept.trans (by assumption) ?_; unfold cardViewRead; try dsimp only
  repeat' first
    | with_reducible apply Kept.refl
    | with_reducible apply State.viewRead_kept
    | with_reducible apply State.viewTold_kept
    | split

theorem cardViewWrite_kept : ∀ {u a0 a1 a2 a3 a4 s}, Kept u s → Kept u (cardViewWrite a0 a1 a2 a3 a4 s) := by
  intros; refine Kept.trans (by assumption) ?_; unfold cardViewWrite; try dsimp only
  repeat' first
    | with_reducible apply Kept.refl
    | with_reducible apply State.viewWrite_kept
    | with_reducible apply State.viewTold_kept
    | split

theorem cardJob_kept : ∀ {u a0 a1 s}, Kept u s → Kept u (cardJob a0 a1 s) := by
  intros; refine Kept.trans (by assumption) ?_; unfold cardJob; try dsimp only
  repeat' first
    | with_reducible apply Kept.refl
    | with_reducible apply State.drainCard_kept
    | with_reducible apply State.moverCard_kept
    | split

theorem cmdQueryHealth_kept : ∀ {u r e s}, Kept u s → Kept u (cmdQueryHealth.act r e s) := by
  intros; refine Kept.trans (by assumption) ?_; unfold cmdQueryHealth; try dsimp only
  repeat' first
    | with_reducible apply Kept.refl
    | with_reducible apply State.ok_kept
    | with_reducible apply State.modRep_kept

theorem State.writeOut_kept : ∀ {u s a1 a2 a3 a4}, Kept u s → Kept u (State.writeOut s a1 a2 a3 a4) := by
  intros; refine Kept.trans (by assumption) ?_; unfold State.writeOut; try dsimp only
  repeat' first
    | with_reducible apply Kept.refl
    | with_reducible apply State.ok_kept
    | with_reducible apply State.objWrite_kept
    | with_reducible apply State.reply_kept
    | with_reducible apply Kept.ite

theorem cmdReadMap_kept : ∀ {u r e s}, Kept u s → Kept u (cmdReadMap.act r e s) := by
  intros; refine Kept.trans (by assumption) ?_; unfold cmdReadMap; try dsimp only
  repeat' first
    | with_reducible apply Kept.refl
    | with_reducible apply State.writeOut_kept

theorem cmdReadDistance_kept : ∀ {u r e s}, Kept u s → Kept u (cmdReadDistance.act r e s) := by
  intros; refine Kept.trans (by assumption) ?_; unfold cmdReadDistance; try dsimp only
  repeat' first
    | with_reducible apply Kept.refl
    | with_reducible apply State.writeOut_kept

theorem cmdSetRepairCtrl_kept : ∀ {u r e s}, Kept u s → Kept u (cmdSetRepairCtrl.act r e s) := by
  intros; refine Kept.trans (by assumption) ?_; unfold cmdSetRepairCtrl; try dsimp only
  repeat' first
    | with_reducible apply Kept.refl
    | with_reducible apply State.modRep_kept
    | with_reducible apply State.ok_kept

theorem cmdFwUpdate_kept : ∀ {u r e s}, Kept u s → Kept u (cmdFwUpdate.act r e s) := by
  intros; refine Kept.trans (by assumption) ?_; unfold cmdFwUpdate; try dsimp only
  repeat' first
    | simp only [Kept.fields_iff]
    | with_reducible apply Kept.refl
    | with_reducible apply State.inFlight_kept

theorem flashDone_kept : ∀ {u a0 s}, Kept u s → Kept u (flashDone a0 s) := by
  intros; refine Kept.trans (by assumption) ?_; unfold flashDone; try dsimp only
  repeat' first
    | simp only [Kept.fields_iff]
    | with_reducible apply Kept.refl
    | with_reducible apply State.yard_kept
    | with_reducible apply State.reply_kept
    | with_reducible apply State.useFree_kept
    | split

theorem cmdSetBootCtrl_kept : ∀ {u r e s}, Kept u s → Kept u (cmdSetBootCtrl.act r e s) := by
  intros; refine Kept.trans (by assumption) ?_; unfold cmdSetBootCtrl; try dsimp only
  repeat' first
    | with_reducible apply Kept.refl
    | with_reducible apply State.modSelv_kept
    | with_reducible apply State.ok_kept

theorem cmdExpertGrant_kept : ∀ {u r e s}, Kept u s → Kept u (cmdExpertGrant.act r e s) := by
  intros; refine Kept.trans (by assumption) ?_; unfold cmdExpertGrant; try dsimp only
  repeat' first
    | simp only [Kept.fields_iff]
    | with_reducible apply Kept.refl
    | with_reducible apply State.ok_kept
    | with_reducible apply State.inFlight_kept
    | with_reducible apply Kept.ite

theorem grantNow_kept : ∀ {u a0 s}, Kept u s → Kept u (grantNow a0 s) := by
  intros; refine Kept.trans (by assumption) ?_; unfold grantNow; try dsimp only
  repeat' first
    | simp only [Kept.fields_iff]
    | with_reducible apply Kept.refl
    | with_reducible apply State.ok_kept
    | with_reducible apply State.reply_kept
    | with_reducible apply State.repower_kept
    | split

theorem cmdExpertRelease_kept : ∀ {u r e s}, Kept u s → Kept u (cmdExpertRelease.act r e s) := by
  intros; refine Kept.trans (by assumption) ?_; unfold cmdExpertRelease; try dsimp only
  repeat' first
    | with_reducible apply Kept.refl
    | with_reducible apply State.reply_kept
    | with_reducible apply State.repower_kept
    | with_reducible apply State.ok_kept
    | with_reducible apply State.endGrant_kept
    | split
    | with_reducible apply Kept.ite

theorem cmdQueryGrant_kept : ∀ {u r e s}, Kept u s → Kept u (cmdQueryGrant.act r e s) := by
  intros; refine Kept.trans (by assumption) ?_; unfold cmdQueryGrant; try dsimp only
  repeat' first
    | with_reducible apply Kept.refl
    | with_reducible apply State.ok_kept

theorem cmdDebugEcho_kept : ∀ {u r e s}, Kept u s → Kept u (cmdDebugEcho.act r e s) := by
  intros; refine Kept.trans (by assumption) ?_; unfold cmdDebugEcho; try dsimp only
  repeat' first
    | with_reducible apply Kept.refl
    | with_reducible apply State.finish_kept

theorem cmdDebugReadLog_kept : ∀ {u r e s}, Kept u s → Kept u (cmdDebugReadLog.act r e s) := by
  intros; refine Kept.trans (by assumption) ?_; unfold cmdDebugReadLog; try dsimp only
  repeat' first
    | simp only [Kept.fields_iff]
    | with_reducible apply Kept.refl
    | with_reducible apply State.useFree_kept
    | with_reducible apply State.ok_kept
    | with_reducible apply State.objWrite_kept
    | with_reducible apply State.reply_kept
    | with_reducible apply Kept.ite

theorem cmdDebugReadReg_kept : ∀ {u r e s}, Kept u s → Kept u (cmdDebugReadReg.act r e s) := by
  intros; refine Kept.trans (by assumption) ?_; unfold cmdDebugReadReg; try dsimp only
  repeat' first
    | with_reducible apply Kept.refl
    | with_reducible apply State.regRead_kept
    | with_reducible apply State.ok_kept

theorem cmdDebugSetLog_kept : ∀ {u r e s}, Kept u s → Kept u (cmdDebugSetLog.act r e s) := by
  intros; refine Kept.trans (by assumption) ?_; unfold cmdDebugSetLog; try dsimp only
  repeat' first
    | with_reducible apply Kept.refl
    | with_reducible apply State.ok_kept
    | with_reducible apply State.modIo_kept

theorem State.attestStep_kept : ∀ {u s a1}, Kept u s → Kept u (State.attestStep s a1) := by
  intro u s a1 h
  induction a1 generalizing s with
  | zero =>
    unfold State.attestStep; try dsimp only
    repeat' first
      | with_reducible assumption
  | succ a ih =>
    unfold State.attestStep; try dsimp only
    repeat' first
      | with_reducible assumption
      | with_reducible apply State.emit_kept
      | with_reducible apply State.modInner_kept
      | with_reducible apply State.modTally_kept
      | with_reducible apply State.writeOut_kept
      | split
      | with_reducible apply ih

theorem State.attestGot_kept : ∀ {u s a1 a2}, Kept u s → Kept u (State.attestGot s a1 a2) := by
  intros; refine Kept.trans (by assumption) ?_; unfold State.attestGot; try dsimp only
  repeat' first
    | with_reducible apply Kept.refl
    | with_reducible apply State.modInner_kept
    | with_reducible apply State.attestStep_kept
    | with_reducible apply State.modTally_kept
    | split

theorem State.innerMissing_kept : ∀ {u s}, Kept u s → Kept u (State.innerMissing s) := by
  intros; refine Kept.trans (by assumption) ?_; unfold State.innerMissing; try dsimp only
  repeat' first
    | with_reducible apply Kept.refl
    | with_reducible apply State.modInner_kept
    | with_reducible apply State.attestGot_kept
    | split

theorem innerIdent_kept : ∀ {u a0 a1 s}, Kept u s → Kept u (innerIdent a0 a1 s) := by
  intros; refine Kept.trans (by assumption) ?_; unfold innerIdent; try dsimp only
  repeat' first
    | with_reducible apply Kept.refl
    | with_reducible apply State.emit_kept
    | with_reducible apply State.innerMissing_kept
    | with_reducible apply Kept.ite

theorem innerProve_kept : ∀ {u a0 a1 a2 s}, Kept u s → Kept u (innerProve a0 a1 a2 s) := by
  intros; refine Kept.trans (by assumption) ?_; unfold innerProve; try dsimp only
  repeat' first
    | with_reducible apply Kept.refl
    | with_reducible apply State.emit_kept
    | with_reducible apply State.innerMissing_kept
    | with_reducible apply Kept.ite

theorem innerUnknown_kept : ∀ {u a0 a1 a2 s}, Kept u s → Kept u (innerUnknown a0 a1 a2 s) := by
  intros; refine Kept.trans (by assumption) ?_; unfold innerUnknown; try dsimp only
  repeat' first
    | with_reducible apply Kept.refl
    | with_reducible apply State.emit_kept
    | with_reducible apply State.innerMissing_kept
    | with_reducible apply Kept.ite

theorem innerReply_kept : ∀ {u a0 a1 a2 s}, Kept u s → Kept u (innerReply a0 a1 a2 s) := by
  intros; refine Kept.trans (by assumption) ?_; unfold innerReply; try dsimp only
  repeat' first
    | with_reducible apply Kept.refl
    | with_reducible apply State.emit_kept
    | with_reducible apply State.innerMissing_kept
    | with_reducible apply State.attestGot_kept
    | with_reducible apply State.modInner_kept
    | split

theorem innerTiming_kept : ∀ {u s}, Kept u s → Kept u (innerTiming s) := by
  intros; refine Kept.trans (by assumption) ?_; unfold innerTiming; try dsimp only
  repeat' first
    | with_reducible apply Kept.refl
    | with_reducible apply State.modInner_kept
    | with_reducible apply State.attestGot_kept
    | split

theorem State.yardEnd_kept : ∀ {u s a1 a2}, Kept u s → Kept u (State.yardEnd s a1 a2) := by
  intros; refine Kept.trans (by assumption) ?_; unfold State.yardEnd; try dsimp only
  repeat' first
    | with_reducible apply Kept.refl
    | with_reducible apply State.modTally_kept
    | with_reducible apply State.modRep_kept
    | with_reducible apply State.ok_kept
    | with_reducible apply State.reply_kept
    | with_reducible apply State.attestStep_kept
    | with_reducible apply State.yardStart_kept
    | split

theorem slotWritten_kept : ∀ {u a0 s}, Kept u s → Kept u (slotWritten a0 s) := by
  intros; refine Kept.trans (by assumption) ?_; unfold slotWritten; try dsimp only
  repeat' first
    | with_reducible apply Kept.refl
    | with_reducible apply State.modTally_kept
    | with_reducible apply State.yardEnd_kept
    | split

theorem floorBurnt_kept : ∀ {u a0 s}, Kept u s → Kept u (floorBurnt a0 s) := by
  intros; refine Kept.trans (by assumption) ?_; unfold floorBurnt; try dsimp only
  repeat' first
    | with_reducible apply Kept.refl
    | with_reducible apply State.modTally_kept
    | with_reducible apply State.yardEnd_kept
    | split

theorem cmdAttest_kept : ∀ {u r e s}, Kept u s → Kept u (cmdAttest.act r e s) := by
  intros; refine Kept.trans (by assumption) ?_; unfold cmdAttest; try dsimp only
  repeat' first
    | with_reducible apply Kept.refl
    | with_reducible apply State.inFlight_kept
    | with_reducible apply State.modTally_kept
    | with_reducible apply State.attestStep_kept
    | with_reducible apply Kept.ite

theorem cmdGetCerts_kept : ∀ {u r e s}, Kept u s → Kept u (cmdGetCerts.act r e s) := by
  intros; refine Kept.trans (by assumption) ?_; unfold cmdGetCerts; try dsimp only
  repeat' first
    | with_reducible apply Kept.refl
    | with_reducible apply State.writeOut_kept

theorem State.tamper_kept : ∀ {u s a1}, Kept u s → Kept u (State.tamper s a1) := by
  intros; refine Kept.trans (by assumption) ?_; unfold State.tamper; try dsimp only
  repeat' first
    | with_reducible apply Kept.refl
    | with_reducible apply State.reply_kept
    | with_reducible apply State.yard_kept
    | with_reducible apply State.modTally_kept

theorem cmdAdopt_kept : ∀ {u r e s}, Kept u s → Kept u (cmdAdopt.act r e s) := by
  intros; refine Kept.trans (by assumption) ?_; unfold cmdAdopt; try dsimp only
  repeat' first
    | with_reducible apply Kept.refl
    | with_reducible apply State.tamper_kept
    | with_reducible apply State.yard_kept
    | with_reducible apply State.inFlight_kept
    | with_reducible apply State.modTally_kept
    | with_reducible apply Kept.ite

theorem cmdLoadTagMaster_kept : ∀ {u r e s}, Kept u s → Kept u (cmdLoadTagMaster.act r e s) := by
  intros; refine Kept.trans (by assumption) ?_; unfold cmdLoadTagMaster; try dsimp only
  repeat' first
    | with_reducible apply Kept.refl
    | with_reducible apply State.reply_kept
    | with_reducible apply State.tamper_kept
    | with_reducible apply State.ok_kept
    | with_reducible apply State.modTally_kept
    | split

theorem cmdReadYardage_kept : ∀ {u r e s}, Kept u s → Kept u (cmdReadYardage.act r e s) := by
  intros; refine Kept.trans (by assumption) ?_; unfold cmdReadYardage; try dsimp only
  repeat' first
    | with_reducible apply Kept.refl
    | with_reducible apply State.ok_kept

theorem cmdAddYardage_kept : ∀ {u r e s}, Kept u s → Kept u (cmdAddYardage.act r e s) := by
  intros; refine Kept.trans (by assumption) ?_; unfold cmdAddYardage; try dsimp only
  repeat' first
    | with_reducible apply Kept.refl
    | with_reducible apply State.yard_kept
    | with_reducible apply State.inFlight_kept

theorem cmdRaiseSvn_kept : ∀ {u r e s}, Kept u s → Kept u (cmdRaiseSvn.act r e s) := by
  intros; refine Kept.trans (by assumption) ?_; unfold cmdRaiseSvn; try dsimp only
  repeat' first
    | with_reducible apply Kept.refl
    | with_reducible apply State.reply_kept
    | with_reducible apply State.ok_kept
    | with_reducible apply State.modTally_kept
    | with_reducible apply State.tamper_kept
    | split

theorem State.chnEvent_kept : ∀ {u s a1}, Kept u s → Kept u (State.chnEvent s a1) := by
  intros; refine Kept.trans (by assumption) ?_; unfold State.chnEvent; try dsimp only
  repeat' first
    | with_reducible apply Kept.refl
    | with_reducible apply State.modChain_kept

theorem State.modSearch_kept : ∀ {u s a1}, Kept u s → Kept u (State.modSearch s a1) := by
  intros; refine Kept.trans (by assumption) ?_; unfold State.modSearch; try dsimp only
  repeat' first
    | with_reducible apply Kept.refl
    | with_reducible apply State.modChain_kept

theorem State.noteTiming_kept : ∀ {u s}, Kept u s → Kept u (State.noteTiming s) := by
  intros; refine Kept.trans (by assumption) ?_; unfold State.noteTiming; try dsimp only
  repeat' first
    | with_reducible apply Kept.refl
    | with_reducible apply State.chnEvent_kept
    | with_reducible apply State.modSearch_kept

theorem State.widen_kept : ∀ {u s}, Kept u s → Kept u (State.widen s) := by
  intros; refine Kept.trans (by assumption) ?_; unfold State.widen; try dsimp only
  repeat' first
    | with_reducible apply Kept.refl
    | with_reducible apply State.chnEvent_kept
    | with_reducible apply State.modSearch_kept

theorem State.sendRoll_kept : ∀ {u s a1 a2 a3 a4}, Kept u s → Kept u (State.sendRoll s a1 a2 a3 a4) := by
  intros; refine Kept.trans (by assumption) ?_; unfold State.sendRoll; try dsimp only
  repeat' first
    | with_reducible apply Kept.refl
    | with_reducible apply State.emit_kept
    | with_reducible apply State.modSearch_kept

theorem State.sendAssign_kept : ∀ {u s a1 a2 a3 a4}, Kept u s → Kept u (State.sendAssign s a1 a2 a3 a4) := by
  intros; refine Kept.trans (by assumption) ?_; unfold State.sendAssign; try dsimp only
  repeat' first
    | with_reducible apply Kept.refl
    | with_reducible apply State.emit_kept
    | with_reducible apply State.modSearch_kept

theorem State.sendConfirm_kept : ∀ {u s a1 a2 a3 a4 a5}, Kept u s → Kept u (State.sendConfirm s a1 a2 a3 a4 a5) := by
  intros; refine Kept.trans (by assumption) ?_; unfold State.sendConfirm; try dsimp only
  repeat' first
    | with_reducible apply Kept.refl
    | with_reducible apply State.emit_kept
    | with_reducible apply State.modSearch_kept

theorem State.nextInfo_kept : ∀ {u s a1}, Kept u s → Kept u (State.nextInfo s a1) := by
  intros; refine Kept.trans (by assumption) ?_; unfold State.nextInfo; try dsimp only
  repeat' first
    | with_reducible apply Kept.refl
    | with_reducible apply State.sendConfirm_kept
    | with_reducible apply State.modSearch_kept
    | split

theorem State.nextPing_kept : ∀ {u s a1}, Kept u s → Kept u (State.nextPing s a1) := by
  intros; refine Kept.trans (by assumption) ?_; unfold State.nextPing; try dsimp only
  repeat' first
    | with_reducible apply Kept.refl
    | with_reducible apply State.sendConfirm_kept
    | with_reducible apply State.nextInfo_kept
    | split

theorem State.nextItem_kept : ∀ {u s}, Kept u s → Kept u (State.nextItem s) := by
  intros; refine Kept.trans (by assumption) ?_; unfold State.nextItem; try dsimp only
  repeat' first
    | with_reducible apply Kept.refl
    | with_reducible apply State.sendRoll_kept
    | with_reducible apply State.modSearch_kept
    | with_reducible apply State.sendAssign_kept
    | with_reducible apply State.nextPing_kept
    | split

theorem State.startSearch_kept : ∀ {u s a1}, Kept u s → Kept u (State.startSearch s a1) := by
  intros; refine Kept.trans (by assumption) ?_; unfold State.startSearch; try dsimp only
  repeat' first
    | with_reducible apply Kept.refl
    | with_reducible apply State.emit_kept
    | with_reducible apply State.modChain_kept

theorem State.sendRun_kept : ∀ {u s a1}, Kept u s → Kept u (State.sendRun s a1) := by
  intros; refine Kept.trans (by assumption) ?_; unfold State.sendRun; try dsimp only
  repeat' first
    | with_reducible apply Kept.refl
    | with_reducible apply State.emits_kept
    | with_reducible apply State.modChain_kept

theorem State.chainNext_kept : ∀ {u s a1}, Kept u s → Kept u (State.chainNext s a1) := by
  intro u s a1 h
  induction a1 generalizing s with
  | zero =>
    unfold State.chainNext; try dsimp only
    repeat' first
      | with_reducible assumption
  | succ a ih =>
    unfold State.chainNext; try dsimp only
    repeat' first
      | with_reducible assumption
      | with_reducible apply State.modChain_kept
      | with_reducible apply State.startSearch_kept
      | with_reducible apply State.reply_kept
      | with_reducible apply State.sendRun_kept
      | with_reducible apply State.modTally_kept
      | split
      | with_reducible apply ih

theorem State.lineFree_kept : ∀ {u s}, Kept u s → Kept u (State.lineFree s) := by
  intros; refine Kept.trans (by assumption) ?_; unfold State.lineFree; try dsimp only
  repeat' first
    | with_reducible apply Kept.refl
    | with_reducible apply State.chainNext_kept

theorem State.runEnd_kept : ∀ {u s a1 a2 a3 a4}, Kept u s → Kept u (State.runEnd s a1 a2 a3 a4) := by
  intros; refine Kept.trans (by assumption) ?_; unfold State.runEnd; try dsimp only
  repeat' first
    | with_reducible apply Kept.refl
    | with_reducible apply State.lineFree_kept
    | with_reducible apply State.reply_kept
    | with_reducible apply State.modChain_kept

theorem State.incEnd_kept : ∀ {u s a1 a2 a3 a4}, Kept u s → Kept u (State.incEnd s a1 a2 a3 a4) := by
  intros; refine Kept.trans (by assumption) ?_; unfold State.incEnd; try dsimp only
  repeat' first
    | with_reducible apply Kept.refl
    | with_reducible apply State.runEnd_kept

theorem State.runSilent_kept : ∀ {u s a1}, Kept u s → Kept u (State.runSilent s a1) := by
  intros; refine Kept.trans (by assumption) ?_; unfold State.runSilent; try dsimp only
  repeat' first
    | with_reducible apply Kept.refl
    | with_reducible apply State.incEnd_kept
    | with_reducible apply State.sendRun_kept
    | with_reducible apply State.runEnd_kept
    | with_reducible apply State.modChain_kept
    | split

theorem State.runTiming_kept : ∀ {u s a1}, Kept u s → Kept u (State.runTiming s a1) := by
  intros; refine Kept.trans (by assumption) ?_; unfold State.runTiming; try dsimp only
  repeat' first
    | with_reducible apply Kept.refl
    | with_reducible apply State.chnEvent_kept
    | with_reducible apply State.incEnd_kept
    | with_reducible apply State.sendRun_kept
    | with_reducible apply State.runEnd_kept
    | split

theorem State.incProof_kept : ∀ {u s a1 a2 a3}, Kept u s → Kept u (State.incProof s a1 a2 a3) := by
  intros; refine Kept.trans (by assumption) ?_; unfold State.incProof; try dsimp only
  repeat' first
    | with_reducible apply Kept.refl
    | with_reducible apply State.incEnd_kept
    | with_reducible apply State.sendRun_kept
    | split

theorem State.incBack_kept : ∀ {u s a1 a2 a3 a4}, Kept u s → Kept u (State.incBack s a1 a2 a3 a4) := by
  intros; refine Kept.trans (by assumption) ?_; unfold State.incBack; try dsimp only
  repeat' first
    | with_reducible apply Kept.refl
    | with_reducible apply State.modChain_kept
    | with_reducible apply State.incEnd_kept

theorem State.runAnswer_kept : ∀ {u s a1 a2}, Kept u s → Kept u (State.runAnswer s a1 a2) := by
  intros; refine Kept.trans (by assumption) ?_; unfold State.runAnswer; try dsimp only
  repeat' first
    | with_reducible apply Kept.refl
    | with_reducible apply State.runEnd_kept
    | with_reducible apply State.incProof_kept
    | with_reducible apply State.sendRun_kept
    | with_reducible apply State.emit_kept
    | with_reducible apply State.incBack_kept
    | split

theorem State.confirmed_kept : ∀ {u s a1 a2 a3 a4 a5}, Kept u s → Kept u (State.confirmed s a1 a2 a3 a4 a5) := by
  intros; refine Kept.trans (by assumption) ?_; unfold State.confirmed; try dsimp only
  repeat' first
    | with_reducible apply Kept.refl
    | with_reducible apply State.modChain_kept
    | with_reducible apply State.nextInfo_kept
    | with_reducible apply State.nextPing_kept
    | with_reducible apply Kept.ite

theorem State.confirmReply_kept : ∀ {u s a1 a2 a3 a4 a5 a6 a7}, Kept u s → Kept u (State.confirmReply s a1 a2 a3 a4 a5 a6 a7) := by
  intros; refine Kept.trans (by assumption) ?_; unfold State.confirmReply; try dsimp only
  repeat' first
    | with_reducible apply Kept.refl
    | with_reducible apply State.confirmed_kept
    | with_reducible apply State.sendConfirm_kept
    | with_reducible apply State.noteTiming_kept
    | with_reducible apply State.widen_kept
    | split

theorem chainReply_kept : ∀ {u a0 a1 s}, Kept u s → Kept u (chainReply a0 a1 s) := by
  intros; refine Kept.trans (by assumption) ?_; unfold chainReply; try dsimp only
  repeat' first
    | with_reducible apply Kept.refl
    | with_reducible apply State.confirmReply_kept
    | with_reducible apply State.runSilent_kept
    | with_reducible apply State.sendRun_kept
    | with_reducible apply State.runTiming_kept
    | with_reducible apply State.chnEvent_kept
    | with_reducible apply State.runAnswer_kept
    | split

theorem presenceEnd_kept : ∀ {u a0 s}, Kept u s → Kept u (presenceEnd a0 s) := by
  intros; refine Kept.trans (by assumption) ?_; unfold presenceEnd; try dsimp only
  repeat' first
    | with_reducible apply Kept.refl
    | with_reducible apply State.emit_kept
    | with_reducible apply State.nextItem_kept
    | with_reducible apply State.modSearch_kept
    | split

theorem rollEnd_kept : ∀ {u a0 s}, Kept u s → Kept u (rollEnd a0 s) := by
  intros; refine Kept.trans (by assumption) ?_; unfold rollEnd; try dsimp only
  repeat' first
    | with_reducible apply Kept.refl
    | with_reducible apply State.sendRoll_kept
    | with_reducible apply State.widen_kept
    | with_reducible apply State.noteTiming_kept
    | with_reducible apply State.nextItem_kept
    | with_reducible apply State.modSearch_kept
    | split

theorem State.noAddr_kept : ∀ {u s}, Kept u s → Kept u (State.noAddr s) := by
  intros; refine Kept.trans (by assumption) ?_; unfold State.noAddr; try dsimp only
  repeat' first
    | with_reducible apply Kept.refl
    | with_reducible apply State.nextItem_kept
    | with_reducible apply State.emit_kept

theorem assignAck_kept : ∀ {u a0 s}, Kept u s → Kept u (assignAck a0 s) := by
  intros; refine Kept.trans (by assumption) ?_; unfold assignAck; try dsimp only
  repeat' first
    | with_reducible apply Kept.refl
    | with_reducible apply State.noAddr_kept
    | with_reducible apply State.modSearch_kept
    | with_reducible apply State.noteTiming_kept
    | with_reducible apply State.sendAssign_kept
    | with_reducible apply State.widen_kept
    | split

theorem State.listTag_kept : ∀ {u s a1 a2}, Kept u s → Kept u (State.listTag s a1 a2).1 := by
  intros; refine Kept.trans (by assumption) ?_; unfold State.listTag; try dsimp only
  repeat' first
    | with_reducible apply Kept.refl
    | with_reducible apply State.modChain_kept
    | with_reducible apply State.chnEvent_kept
    | with_reducible apply Kept.iteFst
    | split
theorem State.listTag_keeps : ∀ {u s a1 a2 r t}, State.listTag s a1 a2 = (t, r) → Kept u s → Kept u t := by
  intros; rename_i h k; exact k.trans (Kept.pair (State.listTag_kept Kept.refl) h)

theorem assignRead_kept : ∀ {u a0 a1 s}, Kept u s → Kept u (assignRead a0 a1 s) := by
  intros; refine Kept.trans (by assumption) ?_; unfold assignRead; try dsimp only
  repeat' first
    | with_reducible apply Kept.refl
    | with_reducible apply State.noAddr_kept
    | with_reducible apply State.noteTiming_kept
    | with_reducible apply State.sendAssign_kept
    | with_reducible apply State.widen_kept
    | with_reducible apply State.emit_kept
    | with_reducible apply State.chnEvent_kept
    | with_reducible apply State.modSearch_kept
    | with_reducible apply State.listTag_kept
    | with_reducible apply State.nextItem_kept
    | split

theorem searchEnd_kept : ∀ {u s}, Kept u s → Kept u (searchEnd s) := by
  intros; refine Kept.trans (by assumption) ?_; unfold searchEnd; try dsimp only
  repeat' first
    | with_reducible apply Kept.refl
    | with_reducible apply State.modChain_kept
    | with_reducible apply State.reply_kept
    | with_reducible apply State.lineFree_kept
    | split

theorem periodicSearch_kept : ∀ {u a0 s}, Kept u s → Kept u (periodicSearch a0 s) := by
  intros; refine Kept.trans (by assumption) ?_; unfold periodicSearch; try dsimp only
  repeat' first
    | with_reducible apply Kept.refl
    | with_reducible apply State.modChain_kept
    | with_reducible apply State.startSearch_kept
    | with_reducible apply Kept.ite

theorem presenceChanged_kept : ∀ {u a0 s}, Kept u s → Kept u (presenceChanged a0 s) := by
  intros; refine Kept.trans (by assumption) ?_; unfold presenceChanged; try dsimp only
  repeat' first
    | with_reducible apply Kept.refl
    | with_reducible apply State.modChain_kept
    | with_reducible apply State.hemWake_kept
    | with_reducible apply State.event_kept
    | with_reducible apply Kept.ite

theorem stuckLow_kept : ∀ {u s}, Kept u s → Kept u (stuckLow s) := by
  intros; refine Kept.trans (by assumption) ?_; unfold stuckLow; try dsimp only
  repeat' first
    | with_reducible apply Kept.refl
    | with_reducible apply State.modChain_kept
    | with_reducible apply State.reply_kept
    | with_reducible apply State.lineFree_kept
    | with_reducible apply State.incEnd_kept
    | with_reducible apply State.runEnd_kept
    | split

theorem lineHigh_kept : ∀ {u s}, Kept u s → Kept u (lineHigh s) := by
  intros; refine Kept.trans (by assumption) ?_; unfold lineHigh; try dsimp only
  repeat' first
    | with_reducible apply Kept.refl
    | with_reducible apply State.modChain_kept
    | with_reducible apply State.lineFree_kept

theorem State.chainQueue_kept : ∀ {u s a1 a2 a3 a4}, Kept u s → Kept u (State.chainQueue s a1 a2 a3 a4) := by
  intros; refine Kept.trans (by assumption) ?_; unfold State.chainQueue; try dsimp only
  repeat' first
    | with_reducible apply Kept.refl
    | with_reducible apply State.lineFree_kept
    | with_reducible apply State.modChain_kept
    | with_reducible apply State.inFlight_kept

theorem cmdChainSearch_kept : ∀ {u r e s}, Kept u s → Kept u (cmdChainSearch.act r e s) := by
  intros; refine Kept.trans (by assumption) ?_; unfold cmdChainSearch; try dsimp only
  repeat' first
    | with_reducible apply Kept.refl
    | with_reducible apply State.chainQueue_kept

theorem cmdChainList_kept : ∀ {u r e s}, Kept u s → Kept u (cmdChainList.act r e s) := by
  intros; refine Kept.trans (by assumption) ?_; unfold cmdChainList; try dsimp only
  repeat' first
    | with_reducible apply Kept.refl
    | with_reducible apply State.writeOut_kept

theorem cmdChainPing_kept : ∀ {u r e s}, Kept u s → Kept u (cmdChainPing.act r e s) := by
  intros; refine Kept.trans (by assumption) ?_; unfold cmdChainPing; try dsimp only
  repeat' first
    | with_reducible apply Kept.refl
    | with_reducible apply State.chainQueue_kept

theorem cmdChainConfig_kept : ∀ {u r e s}, Kept u s → Kept u (cmdChainConfig.act r e s) := by
  intros; refine Kept.trans (by assumption) ?_; unfold cmdChainConfig; try dsimp only
  repeat' first
    | with_reducible apply Kept.refl
    | with_reducible apply State.ok_kept
    | with_reducible apply State.modChain_kept

theorem cmdQueryInnerChain_kept : ∀ {u r e s}, Kept u s → Kept u (cmdQueryInnerChain.act r e s) := by
  intros; refine Kept.trans (by assumption) ?_; unfold cmdQueryInnerChain; try dsimp only
  repeat' first
    | with_reducible apply Kept.refl
    | with_reducible apply State.ok_kept

theorem cmdTagProve_kept : ∀ {u r e s}, Kept u s → Kept u (cmdTagProve.act r e s) := by
  intros; refine Kept.trans (by assumption) ?_; unfold cmdTagProve; try dsimp only
  repeat' first
    | with_reducible apply Kept.refl
    | with_reducible apply State.chainQueue_kept

theorem cmdTagIncrement_kept : ∀ {u r e s}, Kept u s → Kept u (cmdTagIncrement.act r e s) := by
  intros; refine Kept.trans (by assumption) ?_; unfold cmdTagIncrement; try dsimp only
  repeat' first
    | with_reducible apply Kept.refl
    | with_reducible apply State.chainQueue_kept

theorem seqWrite_kept : ∀ {u a0 a1 a2 a3 a4 s}, Kept u s → Kept u (seqWrite a0 a1 a2 a3 a4 s) := by
  intros; refine Kept.trans (by assumption) ?_; unfold seqWrite; try dsimp only
  repeat' first
    | with_reducible apply Kept.refl
    | with_reducible apply State.regWrite_kept

theorem seqDone_kept : ∀ {u a0 a1 s}, Kept u s → Kept u (seqDone a0 a1 s) := by
  intros; refine Kept.trans (by assumption) ?_; unfold seqDone; try dsimp only
  repeat' first
    | with_reducible apply Kept.refl
    | with_reducible apply State.lineFree_kept
    | with_reducible apply State.modChain_kept
    | split

theorem State.tagsDo_kept : ∀ {u s a1}, Kept u s → Kept u (State.tagsDo s a1) := by
  intros; refine Kept.trans (by assumption) ?_; unfold State.tagsDo; try dsimp only
  repeat' first
    | simp only [Kept.fields_iff]
    | with_reducible apply Kept.refl
    | with_reducible apply State.emits_kept

theorem State.modTag_kept : ∀ {u s a1 a2}, Kept u s → Kept u (State.modTag s a1 a2) := by
  intros; refine Kept.trans (by assumption) ?_; unfold State.modTag; try dsimp only
  repeat' first
    | simp only [Kept.fields_iff]
    | with_reducible apply Kept.refl

theorem State.suspectSkein_kept : ∀ {u s a1 a2 a3}, Kept u s → Kept u (State.suspectSkein s a1 a2 a3) := by
  intros; refine Kept.trans (by assumption) ?_; unfold State.suspectSkein; try dsimp only
  repeat' first
    | with_reducible apply Kept.refl
    | with_reducible apply State.modRep_kept
    | with_reducible apply State.droppedStitch_kept
    | with_reducible apply State.repEvent_kept

theorem agingMeasurement_kept : ∀ {u a0 a1 s}, Kept u s → Kept u (agingMeasurement a0 a1 s) := by
  intros; refine Kept.trans (by assumption) ?_; unfold agingMeasurement; try dsimp only
  repeat' first
    | with_reducible apply Kept.refl
    | with_reducible apply State.modRep_kept
    | with_reducible apply State.droppedStitch_kept
    | with_reducible apply State.repEvent_kept
    | with_reducible apply State.suspectSkein_kept
    | with_reducible apply Kept.ite

theorem droopEvent_kept : ∀ {u a0 s}, Kept u s → Kept u (droopEvent a0 s) := by
  intros; refine Kept.trans (by assumption) ?_; unfold droopEvent; try dsimp only
  repeat' first
    | with_reducible apply Kept.refl
    | with_reducible apply State.modRep_kept
    | with_reducible apply State.repEvent_kept
    | with_reducible apply State.suspectSkein_kept
    | with_reducible apply Kept.ite

theorem rowSpareCopyDone_kept : ∀ {u a0 a1 a2 s}, Kept u s → Kept u (rowSpareCopyDone a0 a1 a2 s) := by
  intros; refine Kept.trans (by assumption) ?_; unfold rowSpareCopyDone; try dsimp only
  repeat' first
    | with_reducible apply Kept.refl
    | with_reducible apply State.modSkein_kept
    | with_reducible apply State.addEntry_kept
    | with_reducible apply State.repEvent_kept
    | with_reducible apply State.suspectSkein_kept
    | split

theorem scrubRead_kept : ∀ {u s}, Kept u s → Kept u (scrubRead s) := by
  intros; refine Kept.trans (by assumption) ?_; unfold scrubRead; try dsimp only
  repeat' first
    | with_reducible apply Kept.refl
    | with_reducible apply State.modRep_kept
    | with_reducible apply Kept.ite

theorem State.maintain_kept {u s r h kind f} (k : Kept u s) (hf : Kept u f) : Kept u (State.maintain s r h kind f) := by
  unfold State.maintain
  exact Kept.ite k (Kept.ite hf (State.arrive_kept k hf))

theorem censusLoopback_kept : ∀ {u a0 a1 s}, Kept u s → Kept u (censusLoopback a0 a1 s) := by
  intros; refine Kept.trans (by assumption) ?_; unfold censusLoopback; try dsimp only
  repeat' first
    | with_reducible apply Kept.refl
    | with_reducible apply State.maintain_kept
    | with_reducible apply State.emit_kept

theorem saveAndRestore_kept : ∀ {u a0 a1 a2 a3 a4 s}, Kept u s → Kept u (saveAndRestore a0 a1 a2 a3 a4 s) := by
  intros; refine Kept.trans (by assumption) ?_; unfold saveAndRestore; try dsimp only
  repeat' first
    | with_reducible apply Kept.refl
    | with_reducible apply State.maintain_kept
    | with_reducible apply State.emit_kept
    | with_reducible apply State.put_kept
    | with_reducible apply Kept.ite

theorem routerConfiguration_kept : ∀ {u a0 a1 a2 a3 a4 a5 s}, Kept u s → Kept u (routerConfiguration a0 a1 a2 a3 a4 a5 s) := by
  intros; refine Kept.trans (by assumption) ?_; unfold routerConfiguration; try dsimp only
  repeat' first
    | with_reducible apply Kept.refl
    | with_reducible apply State.modMesh_kept

theorem State.finishCopy_kept : ∀ {u s a1 a2 a3 a4 a5}, Kept u s → Kept u (State.finishCopy s a1 a2 a3 a4 a5) := by
  intros; refine Kept.trans (by assumption) ?_; unfold State.finishCopy; try dsimp only
  repeat' first
    | intro _
    | simp only [Kept.fields_iff]
    | with_reducible apply Kept.refl
    | with_reducible apply State.reply_kept
    | with_reducible apply State.dropAccess_kept
    | with_reducible apply State.ok_kept
    | with_reducible apply State.mediaError_kept
    | with_reducible apply State.sendAccess_kept
    | with_reducible apply State.put_kept
    | with_reducible apply State.putOwn_kept
    | split
    | with_reducible apply Kept.ite

theorem State.finishHost_kept : ∀ {u s a1 a2 a3 a4}, Kept u s → Kept u (State.finishHost s a1 a2 a3 a4) := by
  intros; refine Kept.trans (by assumption) ?_; unfold State.finishHost; try dsimp only
  repeat' first
    | with_reducible apply Kept.refl
    | with_reducible apply State.dropAccess_kept
    | with_reducible apply State.emit_kept
    | with_reducible apply State.badAcc_kept
    | split

theorem State.finishFirmware_kept : ∀ {u s a1 a2 a3}, Kept u s → Kept u (State.finishFirmware s a1 a2 a3) := by
  intros; refine Kept.trans (by assumption) ?_; unfold State.finishFirmware; try dsimp only
  repeat' first
    | with_reducible apply Kept.refl
    | with_reducible apply State.finishCopy_kept
    | with_reducible apply State.dropAccess_kept
    | with_reducible apply State.emit_kept
    | with_reducible apply State.viewCut_kept
    | with_reducible apply State.viewPart_kept
    | with_reducible apply State.viewLoads_kept
    | with_reducible apply State.regRead_kept
    | with_reducible refine (State.viewPart_keeps (by assumption)) ?_
    | with_reducible refine (State.regRead_keeps (by assumption)) ?_
    | split
    | with_reducible apply Kept.ite

theorem State.complete_kept : ∀ {u s a1 a2 a3}, Kept u s → Kept u (State.complete s a1 a2 a3) := by
  intros; refine Kept.trans (by assumption) ?_; unfold State.complete; try dsimp only
  repeat' first
    | with_reducible apply Kept.refl
    | with_reducible apply State.finishNeedle_kept
    | with_reducible apply State.finishMover_kept
    | with_reducible apply State.finishCore_kept
    | with_reducible apply State.finishHost_kept
    | with_reducible apply State.finishFirmware_kept
    | split

theorem State.sendNak_kept : ∀ {u s a1}, Kept u s → Kept u (State.sendNak s a1) := by
  intros; refine Kept.trans (by assumption) ?_; unfold State.sendNak; try dsimp only
  repeat' first
    | with_reducible apply Kept.refl
    | with_reducible apply State.emit_kept
    | with_reducible apply State.modPort_kept

theorem State.protocolError_kept : ∀ {u s a1}, Kept u s → Kept u (State.protocolError s a1) := by
  intros; refine Kept.trans (by assumption) ?_; unfold State.protocolError; try dsimp only
  repeat' first
    | with_reducible apply Kept.refl
    | with_reducible apply State.sendNak_kept
    | with_reducible apply State.edgeEvent_kept

theorem State.afterAnswer_kept : ∀ {u s a1}, Kept u s → Kept u (State.afterAnswer s a1) := by
  intros; refine Kept.trans (by assumption) ?_; unfold State.afterAnswer; try dsimp only
  repeat' first
    | with_reducible apply Kept.refl
    | with_reducible apply State.tryReroute_kept
    | with_reducible apply State.inject_kept
    | with_reducible apply State.trySref_kept
    | with_reducible apply Kept.ite

theorem State.response_kept : ∀ {u s a1 a2 a3 a4}, Kept u s → Kept u (State.response s a1 a2 a3 a4) := by
  intros; refine Kept.trans (by assumption) ?_; unfold State.response; try dsimp only
  repeat' first
    | with_reducible apply Kept.refl
    | with_reducible apply State.protocolError_kept
    | with_reducible apply State.afterAnswer_kept
    | with_reducible apply State.complete_kept
    | split

theorem readResponse_kept : ∀ {u a0 a1 s}, Kept u s → Kept u (readResponse a0 a1 s) := by
  intros; refine Kept.trans (by assumption) ?_; unfold readResponse; try dsimp only
  repeat' first
    | with_reducible apply Kept.refl
    | with_reducible apply State.edgeEvent_kept
    | with_reducible apply State.response_kept
    | with_reducible apply Kept.ite

theorem writeAck_kept : ∀ {u a0 s}, Kept u s → Kept u (writeAck a0 s) := by
  intros; refine Kept.trans (by assumption) ?_; unfold writeAck; try dsimp only
  repeat' first
    | with_reducible apply Kept.refl
    | with_reducible apply State.response_kept

theorem errorResponse_kept : ∀ {u a0 s}, Kept u s → Kept u (errorResponse a0 s) := by
  intros; refine Kept.trans (by assumption) ?_; unfold errorResponse; try dsimp only
  repeat' first
    | with_reducible apply Kept.refl
    | with_reducible apply State.maskFail_kept
    | with_reducible apply State.response_kept
    | split

theorem State.answer_kept : ∀ {u s a1 a2 a3 a4 a5 a6}, Kept u s → Kept u (State.answer s a1 a2 a3 a4 a5 a6) := by
  intros; refine Kept.trans (by assumption) ?_; unfold State.answer; try dsimp only
  repeat' first
    | with_reducible apply Kept.refl
    | with_reducible apply State.emit_kept
    | with_reducible apply State.transmit_kept
    | with_reducible apply Kept.ite

theorem State.errAnswer_kept : ∀ {u s a1 a2 a3}, Kept u s → Kept u (State.errAnswer s a1 a2 a3) := by
  intros; refine Kept.trans (by assumption) ?_; unfold State.errAnswer; try dsimp only
  repeat' first
    | with_reducible apply Kept.refl
    | with_reducible apply State.answer_kept

theorem State.ackAnswer_kept : ∀ {u s a1 a2}, Kept u s → Kept u (State.ackAnswer s a1 a2) := by
  intros; refine Kept.trans (by assumption) ?_; unfold State.ackAnswer; try dsimp only
  repeat' first
    | with_reducible apply Kept.refl
    | with_reducible apply State.answer_kept

theorem State.serveAt_kept {u s h need f} (k : Kept u s) (hf : ∀ {b l t}, Kept t (f b l t)) :
    Kept u (State.serveAt s h need f) := by
  unfold State.serveAt
  apply Kept.ite k
  split
  · exact k
  · exact State.errAnswer_kept k
  · exact k.trans hf

theorem readRequest_kept : ∀ {u a0 s}, Kept u s → Kept u (readRequest a0 s) := by
  intros; refine Kept.trans (by assumption) ?_; unfold readRequest; try dsimp only
  repeat' first
    | with_reducible apply Kept.refl
    | intro _
    | with_reducible apply State.serveAt_kept
    | with_reducible apply State.answer_kept
    | with_reducible apply State.emit_kept
    | with_reducible apply Kept.ite

theorem State.putGranules_kept : ∀ {u s a1 a2}, Kept u s → Kept u (State.putGranules s a1 a2) := by
  intros; refine Kept.trans (by assumption) ?_; unfold State.putGranules; try dsimp only
  repeat' first
    | with_reducible apply Kept.refl
    | intro _
    | with_reducible apply State.put_kept
    | with_reducible apply Kept.foldl

theorem writeRequest_kept : ∀ {u a0 a1 s}, Kept u s → Kept u (writeRequest a0 a1 s) := by
  intros; refine Kept.trans (by assumption) ?_; unfold writeRequest; try dsimp only
  repeat' first
    | simp only [Kept.fields_iff]
    | with_reducible apply Kept.refl
    | intro _
    | with_reducible apply State.serveAt_kept
    | with_reducible apply State.putGranules_kept
    | with_reducible apply State.edgeEvent_kept
    | with_reducible apply State.ackAnswer_kept
    | with_reducible apply Kept.ite

theorem maskedWrite_kept : ∀ {u a0 a1 a2 s}, Kept u s → Kept u (maskedWrite a0 a1 a2 s) := by
  intros; refine Kept.trans (by assumption) ?_; unfold maskedWrite; try dsimp only
  repeat' first
    | with_reducible apply Kept.refl
    | intro _
    | with_reducible apply State.serveAt_kept
    | with_reducible apply State.errAnswer_kept
    | with_reducible apply State.ackAnswer_kept
    | with_reducible apply State.putGranules_kept
    | with_reducible apply Kept.ite

theorem atomicRequest_kept : ∀ {u a0 a1 a2 s}, Kept u s → Kept u (atomicRequest a0 a1 a2 s) := by
  intros; refine Kept.trans (by assumption) ?_; unfold atomicRequest; try dsimp only
  repeat' first
    | with_reducible apply Kept.refl
    | intro _
    | with_reducible apply State.serveAt_kept
    | with_reducible apply State.errAnswer_kept
    | with_reducible apply State.ackAnswer_kept
    | with_reducible apply State.serve_kept
    | with_reducible apply Kept.foldl
    | split

theorem State.regRequest_kept {u s h fw w f} (k : Kept u s) (hf : ∀ {b g t}, Kept t (f b g t)) :
    Kept u (State.regRequest s h fw w f) := by
  unfold State.regRequest
  dsimp only
  apply Kept.ite k
  split
  · exact State.errAnswer_kept k
  · exact Kept.ite (k.trans hf) (State.errAnswer_kept k)
  · split
    · exact Kept.ite (k.trans hf) (State.errAnswer_kept k)
    · exact State.errAnswer_kept k
  · exact k

theorem regReadRequest_kept : ∀ {u a0 a1 s}, Kept u s → Kept u (regReadRequest a0 a1 s) := by
  intros; refine Kept.trans (by assumption) ?_; unfold regReadRequest; try dsimp only
  repeat' first
    | with_reducible apply Kept.refl
    | intro _
    | with_reducible apply State.regRequest_kept
    | with_reducible apply State.regRead_kept
    | with_reducible apply State.answer_kept

theorem State.twinBell_kept : ∀ {u s a1 a2 a3}, Kept u s → Kept u (State.twinBell s a1 a2 a3) := by
  intros; refine Kept.trans (by assumption) ?_; unfold State.twinBell; try dsimp only
  repeat' first
    | with_reducible apply Kept.refl
    | with_reducible apply State.ringBell_kept
    | with_reducible apply State.ackAnswer_kept
    | with_reducible apply State.badAcc_kept
    | with_reducible apply State.errAnswer_kept
    | with_reducible apply Kept.ite
    | with_reducible apply Kept.iteFst
    | split

theorem regWriteRequest_kept : ∀ {u a0 a1 a2 s}, Kept u s → Kept u (regWriteRequest a0 a1 a2 s) := by
  intros; refine Kept.trans (by assumption) ?_; unfold regWriteRequest; try dsimp only
  repeat' first
    | with_reducible apply Kept.refl
    | intro _
    | with_reducible apply State.regRequest_kept
    | with_reducible apply State.ackAnswer_kept
    | with_reducible apply State.regWrite_kept
    | with_reducible apply State.twinBell_kept
    | with_reducible apply Kept.ite

theorem plyArrives_kept : ∀ {u a0 a1 s}, Kept u s → Kept u (plyArrives a0 a1 s) := by
  intros; refine Kept.trans (by assumption) ?_; unfold plyArrives; try dsimp only
  repeat' first
    | with_reducible apply Kept.refl
    | with_reducible apply stitchArrival_kept
    | with_reducible apply State.entryArrives_kept
    | split
    | with_reducible apply Kept.ite

theorem twinTick_kept : ∀ {u a0 s}, Kept u s → Kept u (twinTick a0 s) := by
  intros; refine Kept.trans (by assumption) ?_; unfold twinTick; try dsimp only
  repeat' first
    | with_reducible apply Kept.refl
    | with_reducible apply State.modTick_kept
    | with_reducible apply State.runTick_kept
    | with_reducible apply State.sendMsg_kept
    | split

theorem allCmds_kept : ∀ c ∈ allCmds, ∀ {r e t}, Kept t (c.act r e t) := by
  intro c hc r e t
  simp only [allCmds, List.mem_append, List.mem_cons, List.not_mem_nil, or_false] at hc
  rcases hc with ((rfl | rfl | rfl | rfl | rfl | rfl | rfl | rfl | rfl | rfl | rfl | rfl | rfl | rfl | rfl | rfl | rfl | rfl | rfl | rfl | rfl | rfl) |
    (rfl | rfl | rfl | rfl | rfl | rfl | rfl | rfl | rfl | rfl | rfl | rfl | rfl | rfl | rfl | rfl | rfl | rfl | rfl | rfl | rfl | rfl)) |
    (rfl | rfl | rfl | rfl | rfl | rfl | rfl | rfl | rfl | rfl | rfl | rfl | rfl | rfl | rfl | rfl | rfl | rfl | rfl | rfl | rfl)
  · exact cmdNop_kept Kept.refl
  · exact cmdQueryDevice_kept Kept.refl
  · exact cmdSetDeviceState_kept Kept.refl
  · exact cmdSetBudget_kept Kept.refl
  · exact cmdSetWake_kept Kept.refl
  · exact cmdQueryPower_kept Kept.refl
  · exact cmdRestart_kept Kept.refl
  · exact cmdFwUpdate_kept Kept.refl
  · exact cmdSetBootCtrl_kept Kept.refl
  · exact cmdCastSwatch_kept Kept.refl
  · exact cmdKnit_kept Kept.refl
  · exact cmdStopKnit_kept Kept.refl
  · exact cmdHoldSwatch_kept Kept.refl
  · exact cmdRestoreSwatch_kept Kept.refl
  · exact cmdBindOffSwatch_kept Kept.refl
  · exact cmdQuerySwatch_kept Kept.refl
  · exact cmdSetSwatchPpoint_kept Kept.refl
  · exact cmdSetSwatchGauge_kept Kept.refl
  · exact cmdGrantDistaff_kept Kept.refl
  · exact cmdReturnDistaff_kept Kept.refl
  · exact cmdCommitDraft_kept Kept.refl
  · exact cmdFrogDraft_kept Kept.refl
  · exact cmdQueryMemory_kept Kept.refl
  · exact cmdAllocHanks_kept Kept.refl
  · exact cmdFreeHanks_kept Kept.refl
  · exact cmdMemFill_kept Kept.refl
  · exact cmdMemCopy_kept Kept.refl
  · exact cmdLoadProgram_kept Kept.refl
  · exact cmdUnloadProgram_kept Kept.refl
  · exact cmdLoadCardProgram_kept Kept.refl
  · exact cmdLoadStitchMap_kept Kept.refl
  · exact cmdBindBobbin_kept Kept.refl
  · exact cmdUnbindBobbin_kept Kept.refl
  · exact cmdRunBobbin_kept Kept.refl
  · exact cmdQueryBobbin_kept Kept.refl
  · exact cmdQueryTick_kept Kept.refl
  · exact cmdSetTickPeriod_kept Kept.refl
  · exact cmdWaitTick_kept Kept.refl
  · exact cmdQueryHealth_kept Kept.refl
  · exact cmdReadMap_kept Kept.refl
  · exact cmdReadDistance_kept Kept.refl
  · exact cmdRunCensus_kept Kept.refl
  · exact cmdPortReenable_kept Kept.refl
  · exact cmdSetRepairCtrl_kept Kept.refl
  · exact cmdExpertGrant_kept Kept.refl
  · exact cmdExpertRelease_kept Kept.refl
  · exact cmdQueryGrant_kept Kept.refl
  · exact cmdDebugEcho_kept Kept.refl
  · exact cmdDebugReadLog_kept Kept.refl
  · exact cmdDebugReadReg_kept Kept.refl
  · exact cmdDebugSetLog_kept Kept.refl
  · exact cmdAttest_kept Kept.refl
  · exact cmdGetCerts_kept Kept.refl
  · exact cmdAdopt_kept Kept.refl
  · exact cmdLoadTagMaster_kept Kept.refl
  · exact cmdReadYardage_kept Kept.refl
  · exact cmdAddYardage_kept Kept.refl
  · exact cmdRaiseSvn_kept Kept.refl
  · exact cmdChainSearch_kept Kept.refl
  · exact cmdChainList_kept Kept.refl
  · exact cmdChainPing_kept Kept.refl
  · exact cmdChainConfig_kept Kept.refl
  · exact cmdQueryInnerChain_kept Kept.refl
  · exact cmdTagProve_kept Kept.refl
  · exact cmdTagIncrement_kept Kept.refl

theorem relayedCmd_kept {u op e s} (k : Kept u s) : Kept u (relayedCmd op e s) := by
  unfold relayedCmd
  apply Kept.ite k
  split
  · next c h => exact Cmd.run_kept k (allCmds_kept c (List.mem_of_find?_eq_some h))
  · exact State.reply_kept k

theorem State.portDown_kept : ∀ {u s a1}, Kept u s → Kept u (State.portDown s a1) := by
  intros; refine Kept.trans (by assumption) ?_; unfold State.portDown; try dsimp only
  repeat' first
    | simp only [Kept.fields_iff]
    | with_reducible apply Kept.refl
    | intro _
    | with_reducible apply State.edgeEvent_kept
    | with_reducible apply State.modPort_kept
    | with_reducible apply State.complete_kept
    | with_reducible apply State.portMoved_kept
    | with_reducible apply State.portLostHolds_kept
    | with_reducible apply State.noteRate_kept
    | with_reducible apply State.tryReroute_kept
    | with_reducible apply State.answerReenable_kept
    | with_reducible apply State.trySref_kept
    | with_reducible apply Kept.ite
    | with_reducible apply Kept.foldl

theorem trainingDone_kept : ∀ {u a0 a1 a2 a3 s}, Kept u s → Kept u (trainingDone a0 a1 a2 a3 s) := by
  intros; refine Kept.trans (by assumption) ?_; unfold trainingDone; try dsimp only
  repeat' first
    | intro _
    | with_reducible apply Kept.refl
    | with_reducible apply State.edgeEvent_kept
    | with_reducible apply State.modPort_kept
    | with_reducible apply State.answerReenable_kept
    | with_reducible apply State.portMoved_kept
    | with_reducible apply State.noteRate_kept
    | with_reducible apply State.noteLanes_kept
    | with_reducible apply State.emit_kept
    | with_reducible apply State.portDown_kept
    | with_reducible apply creditInit_kept
    | with_reducible apply Kept.ite

theorem trainingLate_kept : ∀ {u a0 s}, Kept u s → Kept u (trainingLate a0 s) := by
  intros; refine Kept.trans (by assumption) ?_; unfold trainingLate; try dsimp only
  repeat' first
    | with_reducible apply Kept.refl
    | with_reducible apply State.portDown_kept
    | split

theorem retrainLate_kept : ∀ {u a0 a1 s}, Kept u s → Kept u (retrainLate a0 a1 s) := by
  intros; refine Kept.trans (by assumption) ?_; unfold retrainLate; try dsimp only
  repeat' first
    | intro _
    | with_reducible apply Kept.refl
    | with_reducible apply State.portDown_kept
    | with_reducible apply State.modPort_kept
    | with_reducible apply State.noteRate_kept
    | with_reducible apply State.edgeEvent_kept
    | with_reducible apply State.pumpPort_kept
    | with_reducible apply State.emit_kept
    | with_reducible apply State.tryReroute_kept
    | with_reducible apply State.retrain_kept
    | with_reducible apply State.flow_kept
    | with_reducible apply State.trySref_kept
    | with_reducible apply Kept.ite

theorem State.returnCredits_kept : ∀ {u s a1 a2}, Kept u s → Kept u (State.returnCredits s a1 a2) := by
  intros; refine Kept.trans (by assumption) ?_; unfold State.returnCredits; try dsimp only
  repeat' first
    | with_reducible apply Kept.refl
    | intro _
    | with_reducible apply State.emit_kept
    | with_reducible apply Kept.ite
    | with_reducible apply Kept.foldl

theorem takeMessage_kept : ∀ {u a0 a1 s}, Kept u s → Kept u (takeMessage a0 a1 s) := by
  intros; refine Kept.trans (by assumption) ?_; unfold takeMessage; try dsimp only
  repeat' first
    | with_reducible apply Kept.refl
    | with_reducible apply stackTemp_kept
    | with_reducible apply eccCorrected_kept
    | with_reducible apply eccUncorrected_kept
    | with_reducible apply twinTick_kept
    | with_reducible apply twinTickDone_kept
    | with_reducible apply twinWindow_kept
    | with_reducible apply twinChainEnd_kept
    | with_reducible apply State.edgeEvent_kept
    | with_reducible apply Kept.ite
    | with_reducible apply Kept.iteFst
    | split

theorem State.takeTxn_kept : ∀ {u s a1 a2}, Kept u s → Kept u (State.takeTxn s a1 a2) := by
  intros; refine Kept.trans (by assumption) ?_; unfold State.takeTxn; try dsimp only
  repeat' first
    | with_reducible apply Kept.refl
    | intro _
    | with_reducible apply readRequest_kept
    | with_reducible apply writeRequest_kept
    | with_reducible apply maskedWrite_kept
    | with_reducible apply atomicRequest_kept
    | with_reducible apply regReadRequest_kept
    | with_reducible apply State.useFree_kept
    | with_reducible apply regWriteRequest_kept
    | with_reducible apply readResponse_kept
    | with_reducible apply writeAck_kept
    | with_reducible apply errorResponse_kept
    | with_reducible apply takeMessage_kept
    | with_reducible apply plyArrives_kept
    | split

theorem State.takeAck_kept : ∀ {u s a1 a2 a3}, Kept u s → Kept u (State.takeAck s a1 a2 a3) := by
  intros; refine Kept.trans (by assumption) ?_; unfold State.takeAck; try dsimp only
  repeat' first
    | with_reducible apply Kept.refl
    | with_reducible apply State.modPort_kept
    | with_reducible apply nakReceived_kept
    | with_reducible apply Kept.ite

theorem flitArrives_kept : ∀ {u a0 a1 s}, Kept u s → Kept u (flitArrives a0 a1 s) := by
  intros; refine Kept.trans (by assumption) ?_; unfold flitArrives; try dsimp only
  repeat' first
    | intro _
    | with_reducible apply Kept.refl
    | with_reducible apply State.sendNak_kept
    | with_reducible apply State.protocolError_kept
    | with_reducible apply State.modPort_kept
    | with_reducible apply State.returnCredits_kept
    | with_reducible apply State.takeAck_kept
    | with_reducible apply ackTimer_kept
    | with_reducible apply State.pumpPort_kept
    | with_reducible apply State.takeTxn_kept
    | with_reducible apply State.flow_kept
    | with_reducible apply Kept.ite
    | with_reducible apply Kept.foldl

end Sys2Proof.Machine
end

