-- ==== Sys2Proof/Laws/KeptExec.lean ====
section
/-! SUPPORT. What is kept (Laws/Kept) by each command: one lemma for its meaning. -/
namespace Sys2Proof.Machine
open Sys2Proof

/-! ### Exec -/

theorem execSetDeviceState_kept : ∀ {a0 s t}, execSetDeviceState a0 s = .next t → Kept s t := by
  intro a0 s t h; unfold execSetDeviceState at h; injection h with h; subst h; try dsimp only
  repeat' first
    | with_reducible apply Kept.refl
    | intro _
    | with_reducible apply State.request_kept
    | with_reducible apply Cmd.dispatch_kept
    | with_reducible apply cmdSetDeviceState_kept
    | with_reducible apply Kept.ite

theorem execDeviceStateTransitionEnd_kept : ∀ {s t}, execDeviceStateTransitionEnd s = .next t → Kept s t := by
  intro s t h; unfold execDeviceStateTransitionEnd at h; injection h with h; subst h; try dsimp only
  repeat' first
    | with_reducible apply Kept.refl
    | with_reducible apply endTransition_kept

theorem execNop_kept : ∀ {a0 s t}, execNop a0 s = .next t → Kept s t := by
  intro a0 s t h; unfold execNop at h; injection h with h; subst h; try dsimp only
  repeat' first
    | with_reducible apply Kept.refl
    | intro _
    | with_reducible apply Cmd.dispatch_kept
    | with_reducible apply cmdNop_kept

theorem execQueryDevice_kept : ∀ {a0 s t}, execQueryDevice a0 s = .next t → Kept s t := by
  intro a0 s t h; unfold execQueryDevice at h; injection h with h; subst h; try dsimp only
  repeat' first
    | with_reducible apply Kept.refl
    | intro _
    | with_reducible apply Cmd.dispatch_kept
    | with_reducible apply cmdQueryDevice_kept

theorem execSetBudget_kept : ∀ {a0 s t}, execSetBudget a0 s = .next t → Kept s t := by
  intro a0 s t h; unfold execSetBudget at h; injection h with h; subst h; try dsimp only
  repeat' first
    | with_reducible apply Kept.refl
    | intro _
    | with_reducible apply Cmd.dispatch_kept
    | with_reducible apply cmdSetBudget_kept

theorem execSetWake_kept : ∀ {a0 s t}, execSetWake a0 s = .next t → Kept s t := by
  intro a0 s t h; unfold execSetWake at h; injection h with h; subst h; try dsimp only
  repeat' first
    | with_reducible apply Kept.refl
    | intro _
    | with_reducible apply Cmd.dispatch_kept
    | with_reducible apply cmdSetWake_kept

theorem execQueryPower_kept : ∀ {a0 s t}, execQueryPower a0 s = .next t → Kept s t := by
  intro a0 s t h; unfold execQueryPower at h; injection h with h; subst h; try dsimp only
  repeat' first
    | with_reducible apply Kept.refl
    | intro _
    | with_reducible apply Cmd.dispatch_kept
    | with_reducible apply cmdQueryPower_kept

theorem execRestart_kept : ∀ {a0 s t}, execRestart a0 s = .next t → Kept s t := by
  intro a0 s t h; unfold execRestart at h; injection h with h; subst h; try dsimp only
  repeat' first
    | with_reducible apply Kept.refl
    | intro _
    | with_reducible apply Cmd.dispatch_kept
    | with_reducible apply cmdRestart_kept

theorem execBudgetLimiter_kept : ∀ {a0 s t}, execBudgetLimiter a0 s = .next t → Kept s t := by
  intro a0 s t h; unfold execBudgetLimiter at h; injection h with h; subst h; try dsimp only
  repeat' first
    | with_reducible apply Kept.refl
    | with_reducible apply limitBudget_kept
    | with_reducible apply Kept.ite

theorem execBurstWindowEnd_kept : ∀ {a0 s t}, execBurstWindowEnd a0 s = .next t → Kept s t := by
  intro a0 s t h; unfold execBurstWindowEnd at h; injection h with h; subst h; try dsimp only
  repeat' first
    | with_reducible apply Kept.refl
    | with_reducible apply State.endBurst_kept
    | with_reducible apply State.modSelv_kept
    | with_reducible apply Kept.ite

theorem execBurstPowerCheck_kept : ∀ {a0 s t}, execBurstPowerCheck a0 s = .next t → Kept s t := by
  intro a0 s t h; unfold execBurstPowerCheck at h; injection h with h; subst h; try dsimp only
  repeat' first
    | with_reducible apply Kept.refl
    | with_reducible apply checkBurst_kept

theorem execBurstRecoveryEnd_kept : ∀ {s t}, execBurstRecoveryEnd s = .next t → Kept s t := by
  intro s t h; unfold execBurstRecoveryEnd at h; injection h with h; subst h; try dsimp only
  repeat' first
    | with_reducible apply Kept.refl
    | with_reducible apply State.modSelv_kept

theorem execSensorSample_kept : ∀ {a0 s t}, execSensorSample a0 s = .next t → Kept s t := by
  intro a0 s t h; unfold execSensorSample at h; injection h with h; subst h; try dsimp only
  repeat' first
    | with_reducible apply Kept.refl
    | with_reducible apply sampleSensors_kept
    | with_reducible apply Kept.ite

theorem execThermalStep2Lower_kept : ∀ {s t}, execThermalStep2Lower s = .next t → Kept s t := by
  intro s t h; unfold execThermalStep2Lower at h; injection h with h; subst h; try dsimp only
  repeat' first
    | with_reducible apply Kept.refl
    | with_reducible apply lowerHottest_kept

theorem execThermalStepRelease_kept : ∀ {s t}, execThermalStepRelease s = .next t → Kept s t := by
  intro s t h; unfold execThermalStepRelease at h; injection h with h; subst h; try dsimp only
  repeat' first
    | with_reducible apply Kept.refl
    | with_reducible apply releaseStep_kept

theorem execThermalRaise_kept : ∀ {s t}, execThermalRaise s = .next t → Kept s t := by
  intro s t h; unfold execThermalRaise at h; injection h with h; subst h; try dsimp only
  repeat' first
    | with_reducible apply Kept.refl
    | with_reducible apply raiseOne_kept

theorem execRailRampDone_kept : ∀ {s t}, execRailRampDone s = .next t → Kept s t := by
  intro s t h; unfold execRailRampDone at h; injection h with h; subst h; try dsimp only
  repeat' first
    | with_reducible apply Kept.refl
    | with_reducible apply rampDone_kept

theorem execHemEvent_kept : ∀ {a0 s t}, execHemEvent a0 s = .next t → Kept s t := by
  intro a0 s t h; unfold execHemEvent at h; injection h with h; subst h; try dsimp only
  repeat' first
    | with_reducible apply Kept.refl
    | with_reducible apply hemEvent_kept

theorem execSelvagePowerGood_kept : ∀ {s t}, execSelvagePowerGood s = .next t → Kept s t := by
  intro s t h; unfold execSelvagePowerGood at h; injection h with h; subst h; try dsimp only
  repeat' first
    | with_reducible apply Kept.refl
    | with_reducible apply powerGood_kept

theorem execSpwrokFall_kept : ∀ {s t}, execSpwrokFall s = .next t → Kept s t := by
  intro s t h; unfold execSpwrokFall at h; injection h with h; subst h; try dsimp only
  repeat' first
    | with_reducible apply Kept.refl
    | with_reducible apply powerLost_kept

theorem execRailOutOfTolerance_kept : ∀ {s t}, execRailOutOfTolerance s = .next t → Kept s t := by
  intro s t h; unfold execRailOutOfTolerance at h; injection h with h; subst h; try dsimp only
  repeat' first
    | with_reducible apply Kept.refl
    | with_reducible apply powerLost_kept

theorem execSecondaryImageWaitEnd_kept : ∀ {a0 s t}, execSecondaryImageWaitEnd a0 s = .next t → Kept s t := by
  intro a0 s t h; unfold execSecondaryImageWaitEnd at h; injection h with h; subst h; try dsimp only
  repeat' first
    | with_reducible apply Kept.refl
    | with_reducible apply secondaryImage_kept

theorem execBootSourceTimeout_kept : ∀ {s t}, execBootSourceTimeout s = .next t → Kept s t := by
  intro s t h; unfold execBootSourceTimeout at h; injection h with h; subst h; try dsimp only
  repeat' first
    | with_reducible apply Kept.refl
    | with_reducible apply State.sourceFailed_kept
    | split

theorem execBootRead_kept : ∀ {s t}, execBootRead s = .next t → Kept s t := by
  intro s t h; unfold execBootRead at h; injection h with h; subst h; try dsimp only
  repeat' first
    | with_reducible apply Kept.refl
    | with_reducible apply bootRead_kept

theorem execBootData_kept : ∀ {a0 a1 s t}, execBootData a0 a1 s = .next t → Kept s t := by
  intro a0 a1 s t h; unfold execBootData at h; injection h with h; subst h; try dsimp only
  repeat' first
    | with_reducible apply Kept.refl
    | with_reducible apply bootData_kept

theorem execStatusReq_kept : ∀ {a0 s t}, execStatusReq a0 s = .next t → Kept s t := by
  intro a0 s t h; unfold execStatusReq at h; injection h with h; subst h; try dsimp only
  repeat' first
    | with_reducible apply Kept.refl
    | with_reducible apply answerStatus_kept

theorem execOffer_kept : ∀ {a0 a1 s t}, execOffer a0 a1 s = .next t → Kept s t := by
  intro a0 a1 s t h; unfold execOffer at h; injection h with h; subst h; try dsimp only
  repeat' first
    | with_reducible apply Kept.refl
    | with_reducible apply offerImage_kept

theorem execCountOff_kept : ∀ {a0 s t}, execCountOff a0 s = .next t → Kept s t := by
  intro a0 s t h; unfold execCountOff at h; injection h with h; subst h; try dsimp only
  repeat' first
    | with_reducible apply Kept.refl
    | with_reducible apply countOffArrives_kept

theorem execCountOffTimeout_kept : ∀ {s t}, execCountOffTimeout s = .next t → Kept s t := by
  intro s t h; unfold execCountOffTimeout at h; injection h with h; subst h; try dsimp only
  repeat' first
    | with_reducible apply Kept.refl
    | with_reducible apply countOffLate_kept

theorem execRestartBegin_kept : ∀ {s t}, execRestartBegin s = .next t → Kept s t := by
  intro s t h; unfold execRestartBegin at h; injection h with h; subst h; try dsimp only
  repeat' first
    | with_reducible apply Kept.refl
    | with_reducible apply restartBegin_kept

theorem execSecondaryStartUpReport_kept : ∀ {s t}, execSecondaryStartUpReport s = .next t → Kept s t := by
  intro s t h; unfold execSecondaryStartUpReport at h; injection h with h; subst h; try dsimp only
  repeat' first
    | with_reducible apply Kept.refl
    | with_reducible apply State.modBoot_kept
    | with_reducible apply State.stepNine_kept
    | with_reducible apply Kept.ite

theorem execRunCensus_kept : ∀ {a0 s t}, execRunCensus a0 s = .next t → Kept s t := by
  intro a0 s t h; unfold execRunCensus at h; injection h with h; subst h; try dsimp only
  repeat' first
    | with_reducible apply Kept.refl
    | intro _
    | with_reducible apply Cmd.dispatch_kept
    | with_reducible apply cmdRunCensus_kept

theorem execCensusEnd_kept : ∀ {s t}, execCensusEnd s = .next t → Kept s t := by
  intro s t h; unfold execCensusEnd at h; injection h with h; subst h; try dsimp only
  repeat' first
    | with_reducible apply Kept.refl
    | with_reducible apply endCensus_kept

theorem execAutoCensusStart_kept : ∀ {s t}, execAutoCensusStart s = .next t → Kept s t := by
  intro s t h; unfold execAutoCensusStart at h; injection h with h; subst h; try dsimp only
  repeat' first
    | with_reducible apply Kept.refl
    | with_reducible apply State.startCensus_kept
    | with_reducible apply Kept.ite

theorem execFunctionLevelReset_kept : ∀ {a0 s t}, execFunctionLevelReset a0 s = .next t → Kept s t := by
  intro a0 s t h; unfold execFunctionLevelReset at h; injection h with h; subst h; try dsimp only
  repeat' first
    | with_reducible apply Kept.refl
    | with_reducible apply resetFunction_kept

theorem execHotReset_kept : ∀ {a0 s t}, execHotReset a0 s = .next t → Kept s t := by
  intro a0 s t h; unfold execHotReset at h; injection h with h; subst h; try dsimp only
  repeat' first
    | with_reducible apply Kept.refl
    | with_reducible apply resetFunction_kept

theorem execHostLinkDown_kept : ∀ {a0 s t}, execHostLinkDown a0 s = .next t → Kept s t := by
  intro a0 s t h; unfold execHostLinkDown at h; injection h with h; subst h; try dsimp only
  repeat' first
    | with_reducible apply Kept.refl
    | with_reducible apply resetFunction_kept
    | split

theorem execFunctionResetComplete_kept : ∀ {a0 s t}, execFunctionResetComplete a0 s = .next t → Kept s t := by
  intro a0 s t h; unfold execFunctionResetComplete at h; injection h with h; subst h; try dsimp only
  repeat' first
    | with_reducible apply Kept.refl
    | with_reducible apply State.modFn_kept

theorem execD3hotEntry_kept : ∀ {a0 s t}, execD3hotEntry a0 s = .next t → Kept s t := by
  intro a0 s t h; unfold execD3hotEntry at h; injection h with h; subst h; try dsimp only
  repeat' first
    | with_reducible apply Kept.refl
    | with_reducible apply enterD3_kept

theorem execD0Return_kept : ∀ {a0 s t}, execD0Return a0 s = .next t → Kept s t := by
  intro a0 s t h; unfold execD0Return at h; injection h with h; subst h; try dsimp only
  repeat' first
    | with_reducible apply Kept.refl
    | with_reducible apply returnD0_kept

theorem execMsixUnmask_kept : ∀ {a0 a1 s t}, execMsixUnmask a0 a1 s = .next t → Kept s t := by
  intro a0 a1 s t h; unfold execMsixUnmask at h; injection h with h; subst h; try dsimp only
  repeat' first
    | with_reducible apply Kept.refl
    | with_reducible apply unmaskVector_kept

theorem execBar4Read_kept : ∀ {a0 a1 a2 s t}, execBar4Read a0 a1 a2 s = .next t → Kept s t := by
  intro a0 a1 a2 s t h; unfold execBar4Read at h; injection h with h; subst h; try dsimp only
  repeat' first
    | with_reducible apply Kept.refl
    | with_reducible apply bar4Read_kept

theorem execBar4Write_kept : ∀ {a0 a1 a2 s t}, execBar4Write a0 a1 a2 s = .next t → Kept s t := by
  intro a0 a1 a2 s t h; unfold execBar4Write at h; injection h with h; subst h; try dsimp only
  repeat' first
    | with_reducible apply Kept.refl
    | with_reducible apply bar4Write_kept

theorem execSqDoorbell_kept : ∀ {a0 a1 a2 s t}, execSqDoorbell a0 a1 a2 s = .next t → Kept s t := by
  intro a0 a1 a2 s t h; unfold execSqDoorbell at h; injection h with h; subst h; try dsimp only
  repeat' first
    | with_reducible apply Kept.refl
    | with_reducible apply hostBell_kept

theorem execCqDoorbell_kept : ∀ {a0 a1 a2 s t}, execCqDoorbell a0 a1 a2 s = .next t → Kept s t := by
  intro a0 a1 a2 s t h; unfold execCqDoorbell at h; injection h with h; subst h; try dsimp only
  repeat' first
    | with_reducible apply Kept.refl
    | with_reducible apply hostBell_kept

theorem execRingEnable_kept : ∀ {a0 a1 s t}, execRingEnable a0 a1 s = .next t → Kept s t := by
  intro a0 a1 s t h; unfold execRingEnable at h; injection h with h; subst h; try dsimp only
  repeat' first
    | with_reducible apply Kept.refl
    | with_reducible apply enableRing_kept

theorem execRingDisable_kept : ∀ {a0 a1 s t}, execRingDisable a0 a1 s = .next t → Kept s t := by
  intro a0 a1 s t h; unfold execRingDisable at h; injection h with h; subst h; try dsimp only
  repeat' first
    | with_reducible apply Kept.refl
    | with_reducible apply disableRing_kept

theorem execRingFrontEndReady_kept : ∀ {a0 s t}, execRingFrontEndReady a0 s = .next t → Kept s t := by
  intro a0 s t h; unfold execRingFrontEndReady at h; injection h with h; subst h; try dsimp only
  repeat' first
    | with_reducible apply Kept.refl
    | with_reducible apply frontEndReady_kept

theorem execRingQuiesced_kept : ∀ {a0 s t}, execRingQuiesced a0 s = .next t → Kept s t := by
  intro a0 s t h; unfold execRingQuiesced at h; injection h with h; subst h; try dsimp only
  repeat' first
    | with_reducible apply Kept.refl
    | with_reducible apply quiesceRing_kept

theorem execRingAccessFault_kept : ∀ {a0 s t}, execRingAccessFault a0 s = .next t → Kept s t := by
  intro a0 s t h; unfold execRingAccessFault at h; injection h with h; subst h; try dsimp only
  repeat' first
    | with_reducible apply Kept.refl
    | with_reducible apply accessFault_kept

theorem execHoldoffExpiry_kept : ∀ {a0 s t}, execHoldoffExpiry a0 s = .next t → Kept s t := by
  intro a0 s t h; unfold execHoldoffExpiry at h; injection h with h; subst h; try dsimp only
  repeat' first
    | with_reducible apply Kept.refl
    | with_reducible apply endHoldoff_kept

theorem execUndefinedOpcode_kept : ∀ {a0 a1 s t}, execUndefinedOpcode a0 a1 s = .next t → Kept s t := by
  intro a0 a1 s t h; unfold execUndefinedOpcode at h; injection h with h; subst h; try dsimp only
  repeat' first
    | with_reducible apply Kept.refl
    | with_reducible apply undefinedOp_kept

theorem execRelayRsp_kept : ∀ {a0 a1 a2 s t}, execRelayRsp a0 a1 a2 s = .next t → Kept s t := by
  intro a0 a1 a2 s t h; unfold execRelayRsp at h; injection h with h; subst h; try dsimp only
  repeat' first
    | with_reducible apply Kept.refl
    | with_reducible apply relayReply_kept

theorem execTickDone_kept : ∀ {a0 s t}, execTickDone a0 s = .next t → Kept s t := by
  intro a0 s t h; unfold execTickDone at h; injection h with h; subst h; try dsimp only
  repeat' first
    | with_reducible apply Kept.refl
    | with_reducible apply twinTickDone_kept

theorem execShuskaubPcieLinkUp_kept : ∀ {s t}, execShuskaubPcieLinkUp s = .next t → Kept s t := by
  intro s t h; unfold execShuskaubPcieLinkUp at h; injection h with h; subst h; try dsimp only
  repeat' first
    | simp only [Kept.fields_iff]
    | with_reducible apply Kept.refl
    | with_reducible apply State.stepNine_kept
    | with_reducible apply Kept.ite

theorem execShuskaubPcieLinkDown_kept : ∀ {s t}, execShuskaubPcieLinkDown s = .next t → Kept s t := by
  intro s t h; unfold execShuskaubPcieLinkDown at h; injection h with h; subst h; try dsimp only
  repeat' first
    | simp only [Kept.fields_iff]
    | with_reducible apply Kept.refl
    | with_reducible apply resetFunction_kept
    | with_reducible apply Kept.ite

theorem execSidebandUp_kept : ∀ {a0 s t}, execSidebandUp a0 s = .next t → Kept s t := by
  intro a0 s t h; unfold execSidebandUp at h; injection h with h; subst h; try dsimp only
  repeat' first
    | with_reducible apply Kept.refl
    | with_reducible apply sidebandUp_kept

theorem execSbInitTimeout_kept : ∀ {a0 s t}, execSbInitTimeout a0 s = .next t → Kept s t := by
  intro a0 s t h; unfold execSbInitTimeout at h; injection h with h; subst h; try dsimp only
  repeat' first
    | with_reducible apply Kept.refl
    | with_reducible apply State.mismatch_kept
    | with_reducible apply Kept.ite

theorem execRoleAck_kept : ∀ {a0 a1 a2 s t}, execRoleAck a0 a1 a2 s = .next t → Kept s t := by
  intro a0 a1 a2 s t h; unfold execRoleAck at h; injection h with h; subst h; try dsimp only
  repeat' first
    | with_reducible apply Kept.refl
    | with_reducible apply roleAck_kept

theorem execRoleCheckTimeout_kept : ∀ {a0 a1 s t}, execRoleCheckTimeout a0 a1 s = .next t → Kept s t := by
  intro a0 a1 s t h; unfold execRoleCheckTimeout at h; injection h with h; subst h; try dsimp only
  repeat' first
    | with_reducible apply Kept.refl
    | with_reducible apply roleTimeout_kept

theorem execMbTrainingDone_kept : ∀ {a0 a1 a2 a3 s t}, execMbTrainingDone a0 a1 a2 a3 s = .next t → Kept s t := by
  intro a0 a1 a2 a3 s t h; unfold execMbTrainingDone at h; injection h with h; subst h; try dsimp only
  repeat' first
    | with_reducible apply Kept.refl
    | with_reducible apply trainingDone_kept

theorem execCreditInit_kept : ∀ {a0 a1 s t}, execCreditInit a0 a1 s = .next t → Kept s t := by
  intro a0 a1 s t h; unfold execCreditInit at h; injection h with h; subst h; try dsimp only
  repeat' first
    | with_reducible apply Kept.refl
    | with_reducible apply creditInit_kept

theorem execPcieLinkUp_kept : ∀ {a0 s t}, execPcieLinkUp a0 s = .next t → Kept s t := by
  intro a0 s t h; unfold execPcieLinkUp at h; injection h with h; subst h; try dsimp only
  repeat' first
    | with_reducible apply Kept.refl
    | with_reducible apply pcieUp_kept

theorem execAckTimer_kept : ∀ {a0 s t}, execAckTimer a0 s = .next t → Kept s t := by
  intro a0 s t h; unfold execAckTimer at h; injection h with h; subst h; try dsimp only
  repeat' first
    | with_reducible apply Kept.refl
    | with_reducible apply ackTimer_kept

theorem execNakReceived_kept : ∀ {a0 a1 s t}, execNakReceived a0 a1 s = .next t → Kept s t := by
  intro a0 a1 s t h; unfold execNakReceived at h; injection h with h; subst h; try dsimp only
  repeat' first
    | with_reducible apply Kept.refl
    | with_reducible apply nakReceived_kept

theorem execRetryLimitCrossed_kept : ∀ {a0 s t}, execRetryLimitCrossed a0 s = .next t → Kept s t := by
  intro a0 s t h; unfold execRetryLimitCrossed at h; injection h with h; subst h; try dsimp only
  repeat' first
    | with_reducible apply Kept.refl
    | with_reducible apply limitCrossed_kept

theorem execRetryIntervalEnd_kept : ∀ {a0 s t}, execRetryIntervalEnd a0 s = .next t → Kept s t := by
  intro a0 s t h; unfold execRetryIntervalEnd at h; injection h with h; subst h; try dsimp only
  repeat' first
    | with_reducible apply Kept.refl
    | with_reducible apply State.modPort_kept

theorem execLaneRepairDone_kept : ∀ {a0 a1 a2 a3 s t}, execLaneRepairDone a0 a1 a2 a3 s = .next t → Kept s t := by
  intro a0 a1 a2 a3 s t h; unfold execLaneRepairDone at h; injection h with h; subst h; try dsimp only
  repeat' first
    | with_reducible apply Kept.refl
    | with_reducible apply repairDone_kept

theorem execStackPortReroute_kept : ∀ {a0 s t}, execStackPortReroute a0 s = .next t → Kept s t := by
  intro a0 s t h; unfold execStackPortReroute at h; injection h with h; subst h; try dsimp only
  repeat' first
    | with_reducible apply Kept.refl
    | with_reducible apply State.tryReroute_kept

theorem execUnknownMessage_kept : ∀ {a0 a1 s t}, execUnknownMessage a0 a1 s = .next t → Kept s t := by
  intro a0 a1 s t h; unfold execUnknownMessage at h; injection h with h; subst h; try dsimp only
  repeat' first
    | with_reducible apply Kept.refl
    | with_reducible apply State.edgeEvent_kept

theorem execSrefAck_kept : ∀ {a0 s t}, execSrefAck a0 s = .next t → Kept s t := by
  intro a0 s t h; unfold execSrefAck at h; injection h with h; subst h; try dsimp only
  repeat' first
    | with_reducible apply Kept.refl
    | with_reducible apply srefAck_kept

theorem execSrefAckTimeout_kept : ∀ {a0 s t}, execSrefAckTimeout a0 s = .next t → Kept s t := by
  intro a0 s t h; unfold execSrefAckTimeout at h; injection h with h; subst h; try dsimp only
  repeat' first
    | with_reducible apply Kept.refl
    | with_reducible apply srefSilent_kept

theorem execTemp_kept : ∀ {a0 a1 s t}, execTemp a0 a1 s = .next t → Kept s t := by
  intro a0 a1 s t h; unfold execTemp at h; injection h with h; subst h; try dsimp only
  repeat' first
    | with_reducible apply Kept.refl
    | with_reducible apply stackTemp_kept

theorem execEccCorr_kept : ∀ {a0 a1 a2 s t}, execEccCorr a0 a1 a2 s = .next t → Kept s t := by
  intro a0 a1 a2 s t h; unfold execEccCorr at h; injection h with h; subst h; try dsimp only
  repeat' first
    | with_reducible apply Kept.refl
    | with_reducible apply eccCorrected_kept

theorem execEccUncorr_kept : ∀ {a0 a1 s t}, execEccUncorr a0 a1 s = .next t → Kept s t := by
  intro a0 a1 s t h; unfold execEccUncorr at h; injection h with h; subst h; try dsimp only
  repeat' first
    | with_reducible apply Kept.refl
    | with_reducible apply eccUncorrected_kept

theorem execIrq_kept : ∀ {a0 s t}, execIrq a0 s = .next t → Kept s t := by
  intro a0 s t h; unfold execIrq at h; injection h with h; subst h; try dsimp only
  repeat' first
    | with_reducible apply Kept.refl
    | with_reducible apply State.emit_kept
    | with_reducible apply Kept.ite

theorem execTwinWindow_kept : ∀ {a0 a1 a2 a3 a4 s t}, execTwinWindow a0 a1 a2 a3 a4 s = .next t → Kept s t := by
  intro a0 a1 a2 a3 a4 s t h; unfold execTwinWindow at h; injection h with h; subst h; try dsimp only
  repeat' first
    | with_reducible apply Kept.refl
    | with_reducible apply twinWindow_kept

theorem execTwinChain_kept : ∀ {a0 a1 a2 a3 a4 s t}, execTwinChain a0 a1 a2 a3 a4 s = .next t → Kept s t := by
  intro a0 a1 a2 a3 a4 s t h; unfold execTwinChain at h; injection h with h; subst h; try dsimp only
  repeat' first
    | with_reducible apply Kept.refl
    | with_reducible apply twinChainEnd_kept

theorem execPortReenable_kept : ∀ {a0 s t}, execPortReenable a0 s = .next t → Kept s t := by
  intro a0 s t h; unfold execPortReenable at h; injection h with h; subst h; try dsimp only
  repeat' first
    | with_reducible apply Kept.refl
    | intro _
    | with_reducible apply Cmd.dispatch_kept
    | with_reducible apply cmdPortReenable_kept

theorem execCastSwatch_kept : ∀ {a0 s t}, execCastSwatch a0 s = .next t → Kept s t := by
  intro a0 s t h; unfold execCastSwatch at h; injection h with h; subst h; try dsimp only
  repeat' first
    | with_reducible apply Kept.refl
    | intro _
    | with_reducible apply Cmd.dispatch_kept
    | with_reducible apply cmdCastSwatch_kept

theorem execKnit_kept : ∀ {a0 s t}, execKnit a0 s = .next t → Kept s t := by
  intro a0 s t h; unfold execKnit at h; injection h with h; subst h; try dsimp only
  repeat' first
    | with_reducible apply Kept.refl
    | intro _
    | with_reducible apply Cmd.dispatch_kept
    | with_reducible apply cmdKnit_kept

theorem execStopKnit_kept : ∀ {a0 s t}, execStopKnit a0 s = .next t → Kept s t := by
  intro a0 s t h; unfold execStopKnit at h; injection h with h; subst h; try dsimp only
  repeat' first
    | with_reducible apply Kept.refl
    | intro _
    | with_reducible apply Cmd.dispatch_kept
    | with_reducible apply cmdStopKnit_kept

theorem execHoldSwatch_kept : ∀ {a0 s t}, execHoldSwatch a0 s = .next t → Kept s t := by
  intro a0 s t h; unfold execHoldSwatch at h; injection h with h; subst h; try dsimp only
  repeat' first
    | with_reducible apply Kept.refl
    | intro _
    | with_reducible apply Cmd.dispatch_kept
    | with_reducible apply cmdHoldSwatch_kept

theorem execHoldQuiesceTimeout_kept : ∀ {a0 s t}, execHoldQuiesceTimeout a0 s = .next t → Kept s t := by
  intro a0 s t h; unfold execHoldQuiesceTimeout at h; injection h with h; subst h; try dsimp only
  repeat' first
    | with_reducible apply Kept.refl
    | with_reducible apply quiesceOver_kept

theorem execHoldSaveDone_kept : ∀ {a0 s t}, execHoldSaveDone a0 s = .next t → Kept s t := by
  intro a0 s t h; unfold execHoldSaveDone at h; injection h with h; subst h; try dsimp only
  repeat' first
    | with_reducible apply Kept.refl
    | with_reducible apply saveDone_kept

theorem execRestoreSwatch_kept : ∀ {a0 s t}, execRestoreSwatch a0 s = .next t → Kept s t := by
  intro a0 s t h; unfold execRestoreSwatch at h; injection h with h; subst h; try dsimp only
  repeat' first
    | with_reducible apply Kept.refl
    | intro _
    | with_reducible apply Cmd.dispatch_kept
    | with_reducible apply cmdRestoreSwatch_kept

theorem execRestoreReloadDone_kept : ∀ {a0 s t}, execRestoreReloadDone a0 s = .next t → Kept s t := by
  intro a0 s t h; unfold execRestoreReloadDone at h; injection h with h; subst h; try dsimp only
  repeat' first
    | with_reducible apply Kept.refl
    | with_reducible apply reloadDone_kept
    | with_reducible apply State.moversResume_kept

theorem execBindOffSwatch_kept : ∀ {a0 s t}, execBindOffSwatch a0 s = .next t → Kept s t := by
  intro a0 s t h; unfold execBindOffSwatch at h; injection h with h; subst h; try dsimp only
  repeat' first
    | with_reducible apply Kept.refl
    | intro _
    | with_reducible apply Cmd.dispatch_kept
    | with_reducible apply cmdBindOffSwatch_kept

theorem execBindOffZeroingDone_kept : ∀ {a0 s t}, execBindOffZeroingDone a0 s = .next t → Kept s t := by
  intro a0 s t h; unfold execBindOffZeroingDone at h; injection h with h; subst h; try dsimp only
  repeat' first
    | with_reducible apply Kept.refl
    | with_reducible apply zeroingDone_kept

theorem execQuerySwatch_kept : ∀ {a0 s t}, execQuerySwatch a0 s = .next t → Kept s t := by
  intro a0 s t h; unfold execQuerySwatch at h; injection h with h; subst h; try dsimp only
  repeat' first
    | with_reducible apply Kept.refl
    | intro _
    | with_reducible apply Cmd.dispatch_kept
    | with_reducible apply cmdQuerySwatch_kept

theorem execSetSwatchPpoint_kept : ∀ {a0 s t}, execSetSwatchPpoint a0 s = .next t → Kept s t := by
  intro a0 s t h; unfold execSetSwatchPpoint at h; injection h with h; subst h; try dsimp only
  repeat' first
    | with_reducible apply Kept.refl
    | intro _
    | with_reducible apply Cmd.dispatch_kept
    | with_reducible apply cmdSetSwatchPpoint_kept

theorem execSetSwatchGauge_kept : ∀ {a0 s t}, execSetSwatchGauge a0 s = .next t → Kept s t := by
  intro a0 s t h; unfold execSetSwatchGauge at h; injection h with h; subst h; try dsimp only
  repeat' first
    | with_reducible apply Kept.refl
    | intro _
    | with_reducible apply Cmd.dispatch_kept
    | with_reducible apply cmdSetSwatchGauge_kept

theorem execGrantDistaff_kept : ∀ {a0 s t}, execGrantDistaff a0 s = .next t → Kept s t := by
  intro a0 s t h; unfold execGrantDistaff at h; injection h with h; subst h; try dsimp only
  repeat' first
    | with_reducible apply Kept.refl
    | intro _
    | with_reducible apply Cmd.dispatch_kept
    | with_reducible apply cmdGrantDistaff_kept

theorem execReturnDistaff_kept : ∀ {a0 s t}, execReturnDistaff a0 s = .next t → Kept s t := by
  intro a0 s t h; unfold execReturnDistaff at h; injection h with h; subst h; try dsimp only
  repeat' first
    | with_reducible apply Kept.refl
    | intro _
    | with_reducible apply Cmd.dispatch_kept
    | with_reducible apply cmdReturnDistaff_kept

theorem execCommitDraft_kept : ∀ {a0 s t}, execCommitDraft a0 s = .next t → Kept s t := by
  intro a0 s t h; unfold execCommitDraft at h; injection h with h; subst h; try dsimp only
  repeat' first
    | with_reducible apply Kept.refl
    | intro _
    | with_reducible apply Cmd.dispatch_kept
    | with_reducible apply cmdCommitDraft_kept

theorem execDraftCommitCopiesDone_kept : ∀ {a0 s t}, execDraftCommitCopiesDone a0 s = .next t → Kept s t := by
  intro a0 s t h; unfold execDraftCommitCopiesDone at h; injection h with h; subst h; try dsimp only
  repeat' first
    | with_reducible apply Kept.refl
    | with_reducible apply copiesDone_kept

theorem execFrogDraft_kept : ∀ {a0 s t}, execFrogDraft a0 s = .next t → Kept s t := by
  intro a0 s t h; unfold execFrogDraft at h; injection h with h; subst h; try dsimp only
  repeat' first
    | with_reducible apply Kept.refl
    | intro _
    | with_reducible apply Cmd.dispatch_kept
    | with_reducible apply cmdFrogDraft_kept

theorem execQueryMemory_kept : ∀ {a0 s t}, execQueryMemory a0 s = .next t → Kept s t := by
  intro a0 s t h; unfold execQueryMemory at h; injection h with h; subst h; try dsimp only
  repeat' first
    | with_reducible apply Kept.refl
    | intro _
    | with_reducible apply Cmd.dispatch_kept
    | with_reducible apply cmdQueryMemory_kept

theorem execAllocHanks_kept : ∀ {a0 s t}, execAllocHanks a0 s = .next t → Kept s t := by
  intro a0 s t h; unfold execAllocHanks at h; injection h with h; subst h; try dsimp only
  repeat' first
    | with_reducible apply Kept.refl
    | intro _
    | with_reducible apply Cmd.dispatch_kept
    | with_reducible apply cmdAllocHanks_kept

theorem execFreeHanks_kept : ∀ {a0 s t}, execFreeHanks a0 s = .next t → Kept s t := by
  intro a0 s t h; unfold execFreeHanks at h; injection h with h; subst h; try dsimp only
  repeat' first
    | with_reducible apply Kept.refl
    | intro _
    | with_reducible apply Cmd.dispatch_kept
    | with_reducible apply cmdFreeHanks_kept

theorem execMemFill_kept : ∀ {a0 s t}, execMemFill a0 s = .next t → Kept s t := by
  intro a0 s t h; unfold execMemFill at h; injection h with h; subst h; try dsimp only
  repeat' first
    | with_reducible apply Kept.refl
    | intro _
    | with_reducible apply Cmd.dispatch_kept
    | with_reducible apply cmdMemFill_kept

theorem execMemCopy_kept : ∀ {a0 s t}, execMemCopy a0 s = .next t → Kept s t := by
  intro a0 s t h; unfold execMemCopy at h; injection h with h; subst h; try dsimp only
  repeat' first
    | with_reducible apply Kept.refl
    | intro _
    | with_reducible apply Cmd.dispatch_kept
    | with_reducible apply cmdMemCopy_kept

theorem execLoadProgram_kept : ∀ {a0 s t}, execLoadProgram a0 s = .next t → Kept s t := by
  intro a0 s t h; unfold execLoadProgram at h; injection h with h; subst h; try dsimp only
  repeat' first
    | with_reducible apply Kept.refl
    | intro _
    | with_reducible apply Cmd.dispatch_kept
    | with_reducible apply cmdLoadProgram_kept

theorem execUnloadProgram_kept : ∀ {a0 s t}, execUnloadProgram a0 s = .next t → Kept s t := by
  intro a0 s t h; unfold execUnloadProgram at h; injection h with h; subst h; try dsimp only
  repeat' first
    | with_reducible apply Kept.refl
    | intro _
    | with_reducible apply Cmd.dispatch_kept
    | with_reducible apply cmdUnloadProgram_kept

theorem execLoadStitchMap_kept : ∀ {a0 s t}, execLoadStitchMap a0 s = .next t → Kept s t := by
  intro a0 s t h; unfold execLoadStitchMap at h; injection h with h; subst h; try dsimp only
  repeat' first
    | with_reducible apply Kept.refl
    | intro _
    | with_reducible apply Cmd.dispatch_kept
    | with_reducible apply cmdLoadStitchMap_kept

theorem execBindBobbin_kept : ∀ {a0 s t}, execBindBobbin a0 s = .next t → Kept s t := by
  intro a0 s t h; unfold execBindBobbin at h; injection h with h; subst h; try dsimp only
  repeat' first
    | with_reducible apply Kept.refl
    | intro _
    | with_reducible apply Cmd.dispatch_kept
    | with_reducible apply cmdBindBobbin_kept

theorem execUnbindBobbin_kept : ∀ {a0 s t}, execUnbindBobbin a0 s = .next t → Kept s t := by
  intro a0 s t h; unfold execUnbindBobbin at h; injection h with h; subst h; try dsimp only
  repeat' first
    | with_reducible apply Kept.refl
    | intro _
    | with_reducible apply Cmd.dispatch_kept
    | with_reducible apply cmdUnbindBobbin_kept

theorem execRunBobbin_kept : ∀ {a0 s t}, execRunBobbin a0 s = .next t → Kept s t := by
  intro a0 s t h; unfold execRunBobbin at h; injection h with h; subst h; try dsimp only
  repeat' first
    | with_reducible apply Kept.refl
    | intro _
    | with_reducible apply Cmd.dispatch_kept
    | with_reducible apply cmdRunBobbin_kept

theorem execQueryBobbin_kept : ∀ {a0 s t}, execQueryBobbin a0 s = .next t → Kept s t := by
  intro a0 s t h; unfold execQueryBobbin at h; injection h with h; subst h; try dsimp only
  repeat' first
    | with_reducible apply Kept.refl
    | intro _
    | with_reducible apply Cmd.dispatch_kept
    | with_reducible apply cmdQueryBobbin_kept

theorem execCsi2FrameStart_kept : ∀ {a0 a1 a2 s t}, execCsi2FrameStart a0 a1 a2 s = .next t → Kept s t := by
  intro a0 a1 a2 s t h; unfold execCsi2FrameStart at h; injection h with h; subst h; try dsimp only
  repeat' first
    | with_reducible apply Kept.refl
    | with_reducible apply csiStart_kept

theorem execCsi2Packet_kept : ∀ {a0 a1 a2 a3 a4 a5 s t}, execCsi2Packet a0 a1 a2 a3 a4 a5 s = .next t → Kept s t := by
  intro a0 a1 a2 a3 a4 a5 s t h; unfold execCsi2Packet at h; injection h with h; subst h; try dsimp only
  repeat' first
    | with_reducible apply Kept.refl
    | with_reducible apply csiPacket_kept

theorem execCsi2FrameEnd_kept : ∀ {a0 a1 s t}, execCsi2FrameEnd a0 a1 s = .next t → Kept s t := by
  intro a0 a1 s t h; unfold execCsi2FrameEnd at h; injection h with h; subst h; try dsimp only
  repeat' first
    | with_reducible apply Kept.refl
    | with_reducible apply csiEnd_kept

theorem execSoundwireSampleInstant_kept : ∀ {a0 a1 a2 s t}, execSoundwireSampleInstant a0 a1 a2 s = .next t → Kept s t := by
  intro a0 a1 a2 s t h; unfold execSoundwireSampleInstant at h; injection h with h; subst h; try dsimp only
  repeat' first
    | with_reducible apply Kept.refl
    | with_reducible apply soundwireSample_kept

theorem execIbi_kept : ∀ {a0 a1 a2 a3 s t}, execIbi a0 a1 a2 a3 s = .next t → Kept s t := by
  intro a0 a1 a2 a3 s t h; unfold execIbi at h; injection h with h; subst h; try dsimp only
  repeat' first
    | with_reducible apply Kept.refl
    | with_reducible apply ibiFrame_kept

theorem execHotJoin_kept : ∀ {a0 s t}, execHotJoin a0 s = .next t → Kept s t := by
  intro a0 s t h; unfold execHotJoin at h; injection h with h; subst h; try dsimp only
  repeat' first
    | with_reducible apply Kept.refl
    | with_reducible apply hotJoined_kept

theorem execOutputFrameSent_kept : ∀ {a0 a1 s t}, execOutputFrameSent a0 a1 s = .next t → Kept s t := by
  intro a0 a1 s t h; unfold execOutputFrameSent at h; injection h with h; subst h; try dsimp only
  repeat' first
    | with_reducible apply Kept.refl
    | with_reducible apply outputSent_kept

theorem execHostRingPoll_kept : ∀ {a0 a1 s t}, execHostRingPoll a0 a1 s = .next t → Kept s t := by
  intro a0 a1 s t h; unfold execHostRingPoll at h; injection h with h; subst h; try dsimp only
  repeat' first
    | with_reducible apply Kept.refl
    | with_reducible apply pollHostRing_kept

theorem execShusTick_kept : ∀ {a0 s t}, execShusTick a0 s = .next t → Kept s t := by
  intro a0 s t h; unfold execShusTick at h; injection h with h; subst h; try dsimp only
  repeat' first
    | with_reducible apply Kept.refl
    | with_reducible apply State.shusTick_kept
    | with_reducible apply Kept.ite

theorem execRowTick_kept : ∀ {s t}, execRowTick s = .next t → Kept s t := by
  intro s t h; unfold execRowTick at h; injection h with h; subst h; try dsimp only
  repeat' first
    | with_reducible apply Kept.refl
    | with_reducible apply rowTick_kept

theorem execFrogDrainDone_kept : ∀ {a0 s t}, execFrogDrainDone a0 s = .next t → Kept s t := by
  intro a0 s t h; unfold execFrogDrainDone at h; injection h with h; subst h; try dsimp only
  repeat' first
    | with_reducible apply Kept.refl
    | with_reducible apply frogDrained_kept

theorem execBudgetWindowEnd_kept : ∀ {a0 s t}, execBudgetWindowEnd a0 s = .next t → Kept s t := by
  intro a0 s t h; unfold execBudgetWindowEnd at h; injection h with h; subst h; try dsimp only
  repeat' first
    | with_reducible apply Kept.refl
    | with_reducible apply budgetOver_kept

theorem execSwtPubOpen_kept : ∀ {a0 s t}, execSwtPubOpen a0 s = .next t → Kept s t := by
  intro a0 s t h; unfold execSwtPubOpen at h; injection h with h; subst h; try dsimp only
  repeat' first
    | with_reducible apply Kept.refl
    | with_reducible apply State.pubWrite_kept

theorem execSwtPubClose_kept : ∀ {a0 s t}, execSwtPubClose a0 s = .next t → Kept s t := by
  intro a0 s t h; unfold execSwtPubClose at h; injection h with h; subst h; try dsimp only
  repeat' first
    | with_reducible apply Kept.refl
    | with_reducible apply State.pubWrite_kept

theorem execQueryTick_kept : ∀ {a0 s t}, execQueryTick a0 s = .next t → Kept s t := by
  intro a0 s t h; unfold execQueryTick at h; injection h with h; subst h; try dsimp only
  repeat' first
    | with_reducible apply Kept.refl
    | intro _
    | with_reducible apply Cmd.dispatch_kept
    | with_reducible apply cmdQueryTick_kept

theorem execSetTickPeriod_kept : ∀ {a0 s t}, execSetTickPeriod a0 s = .next t → Kept s t := by
  intro a0 s t h; unfold execSetTickPeriod at h; injection h with h; subst h; try dsimp only
  repeat' first
    | with_reducible apply Kept.refl
    | intro _
    | with_reducible apply Cmd.dispatch_kept
    | with_reducible apply cmdSetTickPeriod_kept

theorem execWaitTick_kept : ∀ {a0 s t}, execWaitTick a0 s = .next t → Kept s t := by
  intro a0 s t h; unfold execWaitTick at h; injection h with h; subst h; try dsimp only
  repeat' first
    | with_reducible apply Kept.refl
    | intro _
    | with_reducible apply Cmd.dispatch_kept
    | with_reducible apply cmdWaitTick_kept

theorem execBar2Access_kept : ∀ {a0 a1 a2 s t}, execBar2Access a0 a1 a2 s = .next t → Kept s t := by
  intro a0 a1 a2 s t h; unfold execBar2Access at h; injection h with h; subst h; try dsimp only
  repeat' first
    | with_reducible apply Kept.refl
    | with_reducible apply bar2Access_kept

theorem execReadClear_kept : ∀ {a0 a1 s t}, execReadClear a0 a1 s = .next t → Kept s t := by
  intro a0 a1 s t h; unfold execReadClear at h; injection h with h; subst h; try dsimp only
  repeat' first
    | with_reducible apply Kept.refl
    | with_reducible apply State.accRead_kept

theorem execUnmappedRegisterAccess_kept : ∀ {a0 a1 a2 s t}, execUnmappedRegisterAccess a0 a1 a2 s = .next t → Kept s t := by
  intro a0 a1 a2 s t h; unfold execUnmappedRegisterAccess at h; injection h with h; subst h; try dsimp only
  repeat' first
    | with_reducible apply Kept.refl
    | with_reducible apply State.accRead_kept
    | with_reducible apply State.accWrite_kept
    | with_reducible apply State.emit_kept
    | split

theorem execRegisterWrite_kept : ∀ {a0 a1 a2 s t}, execRegisterWrite a0 a1 a2 s = .next t → Kept s t := by
  intro a0 a1 a2 s t h; unfold execRegisterWrite at h; injection h with h; subst h; try dsimp only
  repeat' first
    | with_reducible apply Kept.refl
    | with_reducible apply State.accWrite_kept

theorem execNdlHalt_kept : ∀ {a0 a1 s t}, execNdlHalt a0 a1 s = .next t → Kept s t := by
  intro a0 a1 s t h; unfold execNdlHalt at h; injection h with h; subst h; try dsimp only
  repeat' first
    | with_reducible apply Kept.refl
    | with_reducible apply State.regWrite_kept

theorem execNdlRun_kept : ∀ {a0 a1 s t}, execNdlRun a0 a1 s = .next t → Kept s t := by
  intro a0 a1 s t h; unfold execNdlRun at h; injection h with h; subst h; try dsimp only
  repeat' first
    | with_reducible apply Kept.refl
    | with_reducible apply State.regWrite_kept

theorem execNdlStep_kept : ∀ {a0 a1 s t}, execNdlStep a0 a1 s = .next t → Kept s t := by
  intro a0 a1 s t h; unfold execNdlStep at h; injection h with h; subst h; try dsimp only
  repeat' first
    | with_reducible apply Kept.refl
    | with_reducible apply State.regWrite_kept

theorem execMoverClear_kept : ∀ {a0 a1 a2 s t}, execMoverClear a0 a1 a2 s = .next t → Kept s t := by
  intro a0 a1 a2 s t h; unfold execMoverClear at h; injection h with h; subst h; try dsimp only
  repeat' first
    | with_reducible apply Kept.refl
    | with_reducible apply State.regWrite_kept

theorem execEdgeRetrain_kept : ∀ {a0 a1 s t}, execEdgeRetrain a0 a1 s = .next t → Kept s t := by
  intro a0 a1 s t h; unfold execEdgeRetrain at h; injection h with h; subst h; try dsimp only
  repeat' first
    | with_reducible apply Kept.refl
    | with_reducible apply State.regWrite_kept

theorem execEdgeCtrlLock_kept : ∀ {a0 a1 s t}, execEdgeCtrlLock a0 a1 s = .next t → Kept s t := by
  intro a0 a1 s t h; unfold execEdgeCtrlLock at h; injection h with h; subst h; try dsimp only
  repeat' first
    | with_reducible apply Kept.refl
    | with_reducible apply State.regWrite_kept

theorem execStkCtrlLock_kept : ∀ {a0 a1 s t}, execStkCtrlLock a0 a1 s = .next t → Kept s t := by
  intro a0 a1 s t h; unfold execStkCtrlLock at h; injection h with h; subst h; try dsimp only
  repeat' first
    | with_reducible apply Kept.refl
    | with_reducible apply State.regWrite_kept

theorem execMeshFlagWrite_kept : ∀ {a0 a1 a2 a3 s t}, execMeshFlagWrite a0 a1 a2 a3 s = .next t → Kept s t := by
  intro a0 a1 a2 a3 s t h; unfold execMeshFlagWrite at h; injection h with h; subst h; try dsimp only
  repeat' first
    | with_reducible apply Kept.refl
    | with_reducible apply State.regWrite_kept

theorem execMeshBarCfgWrite_kept : ∀ {a0 a1 a2 a3 s t}, execMeshBarCfgWrite a0 a1 a2 a3 s = .next t → Kept s t := by
  intro a0 a1 a2 a3 s t h; unfold execMeshBarCfgWrite at h; injection h with h; subst h; try dsimp only
  repeat' first
    | with_reducible apply Kept.refl
    | with_reducible apply State.regWrite_kept

theorem execStatClear_kept : ∀ {a0 a1 s t}, execStatClear a0 a1 s = .next t → Kept s t := by
  intro a0 a1 s t h; unfold execStatClear at h; injection h with h; subst h; try dsimp only
  repeat' first
    | with_reducible apply Kept.refl
    | with_reducible apply State.regWrite_kept

theorem execCardLfsrSeedWrite_kept : ∀ {a0 a1 a2 s t}, execCardLfsrSeedWrite a0 a1 a2 s = .next t → Kept s t := by
  intro a0 a1 a2 s t h; unfold execCardLfsrSeedWrite at h; injection h with h; subst h; try dsimp only
  repeat' first
    | with_reducible apply Kept.refl
    | with_reducible apply State.regWrite_kept

theorem execFunctionEnable_kept : ∀ {a0 a1 s t}, execFunctionEnable a0 a1 s = .next t → Kept s t := by
  intro a0 a1 s t h; unfold execFunctionEnable at h; injection h with h; subst h; try dsimp only
  repeat' first
    | with_reducible apply Kept.refl
    | with_reducible apply enableFunc_kept

theorem execFunctionDisable_kept : ∀ {a0 a1 s t}, execFunctionDisable a0 a1 s = .next t → Kept s t := by
  intro a0 a1 s t h; unfold execFunctionDisable at h; injection h with h; subst h; try dsimp only
  repeat' first
    | with_reducible apply Kept.refl
    | with_reducible apply enableFunc_kept

theorem execFunctionRiseDone_kept : ∀ {a0 s t}, execFunctionRiseDone a0 s = .next t → Kept s t := by
  intro a0 s t h; unfold execFunctionRiseDone at h; injection h with h; subst h; try dsimp only
  repeat' first
    | with_reducible apply Kept.refl
    | with_reducible apply riseDone_kept

theorem execFunctionFallDone_kept : ∀ {a0 s t}, execFunctionFallDone a0 s = .next t → Kept s t := by
  intro a0 s t h; unfold execFunctionFallDone at h; injection h with h; subst h; try dsimp only
  repeat' first
    | with_reducible apply Kept.refl
    | with_reducible apply fallDone_kept

theorem execDstRun_kept : ∀ {a0 a1 s t}, execDstRun a0 a1 s = .next t → Kept s t := by
  intro a0 a1 s t h; unfold execDstRun at h; injection h with h; subst h; try dsimp only
  repeat' first
    | with_reducible apply Kept.refl
    | with_reducible apply State.regWrite_kept

theorem execDstHalt_kept : ∀ {a0 a1 s t}, execDstHalt a0 a1 s = .next t → Kept s t := by
  intro a0 a1 s t h; unfold execDstHalt at h; injection h with h; subst h; try dsimp only
  repeat' first
    | with_reducible apply Kept.refl
    | with_reducible apply State.regWrite_kept

theorem execDstHaltDone_kept : ∀ {a0 s t}, execDstHaltDone a0 s = .next t → Kept s t := by
  intro a0 s t h; unfold execDstHaltDone at h; injection h with h; subst h; try dsimp only
  repeat' first
    | with_reducible apply Kept.refl
    | with_reducible apply State.modDst_kept

theorem execPinFuncChange_kept : ∀ {a0 a1 a2 s t}, execPinFuncChange a0 a1 a2 s = .next t → Kept s t := by
  intro a0 a1 a2 s t h; unfold execPinFuncChange at h; injection h with h; subst h; try dsimp only
  repeat' first
    | with_reducible apply Kept.refl
    | with_reducible apply State.regWrite_kept

theorem execPinParkEnd_kept : ∀ {a0 a1 s t}, execPinParkEnd a0 a1 s = .next t → Kept s t := by
  intro a0 a1 s t h; unfold execPinParkEnd at h; injection h with h; subst h; try dsimp only
  repeat' first
    | with_reducible apply Kept.refl
    | with_reducible apply parkEnd_kept

theorem execPinOutSet_kept : ∀ {a0 a1 s t}, execPinOutSet a0 a1 s = .next t → Kept s t := by
  intro a0 a1 s t h; unfold execPinOutSet at h; injection h with h; subst h; try dsimp only
  repeat' first
    | with_reducible apply Kept.refl
    | with_reducible apply State.regWrite_kept

theorem execPinOutClr_kept : ∀ {a0 a1 s t}, execPinOutClr a0 a1 s = .next t → Kept s t := by
  intro a0 a1 s t h; unfold execPinOutClr at h; injection h with h; subst h; try dsimp only
  repeat' first
    | with_reducible apply Kept.refl
    | with_reducible apply State.regWrite_kept

theorem execPinWake_kept : ∀ {a0 a1 s t}, execPinWake a0 a1 s = .next t → Kept s t := by
  intro a0 a1 s t h; unfold execPinWake at h; injection h with h; subst h; try dsimp only
  repeat' first
    | with_reducible apply Kept.refl
    | with_reducible apply pinWake_kept

theorem execUartCharacter_kept : ∀ {a0 a1 a2 a3 a4 s t}, execUartCharacter a0 a1 a2 a3 a4 s = .next t → Kept s t := by
  intro a0 a1 a2 a3 a4 s t h; unfold execUartCharacter at h; injection h with h; subst h; try dsimp only
  repeat' first
    | with_reducible apply Kept.refl
    | with_reducible apply uartCharacter_kept

theorem execUartDataRead_kept : ∀ {a0 s t}, execUartDataRead a0 s = .next t → Kept s t := by
  intro a0 s t h; unfold execUartDataRead at h; injection h with h; subst h; try dsimp only
  repeat' first
    | with_reducible apply Kept.refl
    | with_reducible apply State.accRead_kept

theorem execUartDataWrite_kept : ∀ {a0 a1 s t}, execUartDataWrite a0 a1 s = .next t → Kept s t := by
  intro a0 a1 s t h; unfold execUartDataWrite at h; injection h with h; subst h; try dsimp only
  repeat' first
    | with_reducible apply Kept.refl
    | with_reducible apply State.regWrite_kept

theorem execUartTxCharacterDone_kept : ∀ {a0 s t}, execUartTxCharacterDone a0 s = .next t → Kept s t := by
  intro a0 s t h; unfold execUartTxCharacterDone at h; injection h with h; subst h; try dsimp only
  repeat' first
    | with_reducible apply Kept.refl
    | with_reducible apply uartTxDone_kept

theorem execSoundwireWake_kept : ∀ {s t}, execSoundwireWake s = .next t → Kept s t := by
  intro s t h; unfold execSoundwireWake at h; injection h with h; subst h; try dsimp only
  repeat' first
    | with_reducible apply Kept.refl
    | with_reducible apply State.hemWake_kept

theorem execExtest_kept : ∀ {s t}, execExtest s = .next t → Kept s t := by
  intro s t h; unfold execExtest at h; injection h with h; subst h; try dsimp only
  repeat' first
    | intro _
    | with_reducible apply Kept.refl
    | with_reducible apply State.jtagSet_kept
    | with_reducible apply State.modJtag_kept
    | with_reducible apply State.tap_kept

theorem execIdcode_kept : ∀ {s t}, execIdcode s = .next t → Kept s t := by
  intro s t h; unfold execIdcode at h; injection h with h; subst h; try dsimp only
  repeat' first
    | intro _
    | with_reducible apply Kept.refl
    | with_reducible apply State.emit_kept
    | with_reducible apply State.jtagSet_kept
    | with_reducible apply State.tap_kept

theorem execSamplePreload_kept : ∀ {a0 s t}, execSamplePreload a0 s = .next t → Kept s t := by
  intro a0 s t h; unfold execSamplePreload at h; injection h with h; subst h; try dsimp only
  repeat' first
    | intro _
    | with_reducible apply Kept.refl
    | with_reducible apply State.jtagSet_kept
    | with_reducible apply State.emit_kept
    | with_reducible apply State.modJtag_kept
    | with_reducible apply State.tap_kept

theorem execClamp_kept : ∀ {s t}, execClamp s = .next t → Kept s t := by
  intro s t h; unfold execClamp at h; injection h with h; subst h; try dsimp only
  repeat' first
    | intro _
    | with_reducible apply Kept.refl
    | with_reducible apply State.jtagSet_kept
    | with_reducible apply State.tap_kept

theorem execHighz_kept : ∀ {s t}, execHighz s = .next t → Kept s t := by
  intro s t h; unfold execHighz at h; injection h with h; subst h; try dsimp only
  repeat' first
    | intro _
    | with_reducible apply Kept.refl
    | with_reducible apply State.jtagSet_kept
    | with_reducible apply State.tap_kept

theorem execJtagStatus_kept : ∀ {s t}, execJtagStatus s = .next t → Kept s t := by
  intro s t h; unfold execJtagStatus at h; injection h with h; subst h; try dsimp only
  repeat' first
    | with_reducible apply Kept.refl
    | with_reducible apply jtagCapture_kept

theorem execRegRead_kept : ∀ {a0 s t}, execRegRead a0 s = .next t → Kept s t := by
  intro a0 s t h; unfold execRegRead at h; injection h with h; subst h; try dsimp only
  repeat' first
    | with_reducible apply Kept.refl
    | with_reducible apply jtagRead_kept

theorem execBypass_kept : ∀ {s t}, execBypass s = .next t → Kept s t := by
  intro s t h; unfold execBypass at h; injection h with h; subst h; try dsimp only
  repeat' first
    | intro _
    | with_reducible apply Kept.refl
    | with_reducible apply State.jtagSet_kept
    | with_reducible apply State.tap_kept

theorem execAdd_kept : ∀ {a0 a1 a2 a3 s t}, execAdd a0 a1 a2 a3 s = .next t → Kept s t := by
  intro a0 a1 a2 a3 s t h; unfold execAdd at h; injection h with h; subst h; try dsimp only
  repeat' first
    | with_reducible apply Kept.refl
    | with_reducible apply State.scalar2_kept

theorem execSub_kept : ∀ {a0 a1 a2 a3 s t}, execSub a0 a1 a2 a3 s = .next t → Kept s t := by
  intro a0 a1 a2 a3 s t h; unfold execSub at h; injection h with h; subst h; try dsimp only
  repeat' first
    | with_reducible apply Kept.refl
    | with_reducible apply State.scalar2_kept

theorem execMul_kept : ∀ {a0 a1 a2 a3 s t}, execMul a0 a1 a2 a3 s = .next t → Kept s t := by
  intro a0 a1 a2 a3 s t h; unfold execMul at h; injection h with h; subst h; try dsimp only
  repeat' first
    | with_reducible apply Kept.refl
    | with_reducible apply State.scalar2_kept

theorem execMulh_kept : ∀ {a0 a1 a2 a3 s t}, execMulh a0 a1 a2 a3 s = .next t → Kept s t := by
  intro a0 a1 a2 a3 s t h; unfold execMulh at h; injection h with h; subst h; try dsimp only
  repeat' first
    | with_reducible apply Kept.refl
    | with_reducible apply State.scalar2_kept

theorem execDiv_kept : ∀ {a0 a1 a2 a3 s t}, execDiv a0 a1 a2 a3 s = .next t → Kept s t := by
  intro a0 a1 a2 a3 s t h; unfold execDiv at h; injection h with h; subst h; try dsimp only
  repeat' first
    | with_reducible apply Kept.refl
    | with_reducible apply State.scalar2_kept

theorem execRem_kept : ∀ {a0 a1 a2 a3 s t}, execRem a0 a1 a2 a3 s = .next t → Kept s t := by
  intro a0 a1 a2 a3 s t h; unfold execRem at h; injection h with h; subst h; try dsimp only
  repeat' first
    | with_reducible apply Kept.refl
    | with_reducible apply State.scalar2_kept

theorem execAnd_kept : ∀ {a0 a1 a2 a3 s t}, execAnd a0 a1 a2 a3 s = .next t → Kept s t := by
  intro a0 a1 a2 a3 s t h; unfold execAnd at h; injection h with h; subst h; try dsimp only
  repeat' first
    | with_reducible apply Kept.refl
    | with_reducible apply State.scalar2_kept

theorem execOr_kept : ∀ {a0 a1 a2 a3 s t}, execOr a0 a1 a2 a3 s = .next t → Kept s t := by
  intro a0 a1 a2 a3 s t h; unfold execOr at h; injection h with h; subst h; try dsimp only
  repeat' first
    | with_reducible apply Kept.refl
    | with_reducible apply State.scalar2_kept

theorem execXor_kept : ∀ {a0 a1 a2 a3 s t}, execXor a0 a1 a2 a3 s = .next t → Kept s t := by
  intro a0 a1 a2 a3 s t h; unfold execXor at h; injection h with h; subst h; try dsimp only
  repeat' first
    | with_reducible apply Kept.refl
    | with_reducible apply State.scalar2_kept

theorem execShl_kept : ∀ {a0 a1 a2 a3 s t}, execShl a0 a1 a2 a3 s = .next t → Kept s t := by
  intro a0 a1 a2 a3 s t h; unfold execShl at h; injection h with h; subst h; try dsimp only
  repeat' first
    | with_reducible apply Kept.refl
    | with_reducible apply State.scalar2_kept

theorem execShr_kept : ∀ {a0 a1 a2 a3 s t}, execShr a0 a1 a2 a3 s = .next t → Kept s t := by
  intro a0 a1 a2 a3 s t h; unfold execShr at h; injection h with h; subst h; try dsimp only
  repeat' first
    | with_reducible apply Kept.refl
    | with_reducible apply State.scalar2_kept

theorem execSra_kept : ∀ {a0 a1 a2 a3 s t}, execSra a0 a1 a2 a3 s = .next t → Kept s t := by
  intro a0 a1 a2 a3 s t h; unfold execSra at h; injection h with h; subst h; try dsimp only
  repeat' first
    | with_reducible apply Kept.refl
    | with_reducible apply State.scalar2_kept

theorem execSlt_kept : ∀ {a0 a1 a2 a3 s t}, execSlt a0 a1 a2 a3 s = .next t → Kept s t := by
  intro a0 a1 a2 a3 s t h; unfold execSlt at h; injection h with h; subst h; try dsimp only
  repeat' first
    | with_reducible apply Kept.refl
    | with_reducible apply State.scalar2_kept

theorem execSltu_kept : ∀ {a0 a1 a2 a3 s t}, execSltu a0 a1 a2 a3 s = .next t → Kept s t := by
  intro a0 a1 a2 a3 s t h; unfold execSltu at h; injection h with h; subst h; try dsimp only
  repeat' first
    | with_reducible apply Kept.refl
    | with_reducible apply State.scalar2_kept

theorem execMin_kept : ∀ {a0 a1 a2 a3 s t}, execMin a0 a1 a2 a3 s = .next t → Kept s t := by
  intro a0 a1 a2 a3 s t h; unfold execMin at h; injection h with h; subst h; try dsimp only
  repeat' first
    | with_reducible apply Kept.refl
    | with_reducible apply State.scalar2_kept

theorem execMax_kept : ∀ {a0 a1 a2 a3 s t}, execMax a0 a1 a2 a3 s = .next t → Kept s t := by
  intro a0 a1 a2 a3 s t h; unfold execMax at h; injection h with h; subst h; try dsimp only
  repeat' first
    | with_reducible apply Kept.refl
    | with_reducible apply State.scalar2_kept

theorem execFadd_kept : ∀ {a0 a1 a2 a3 s t}, execFadd a0 a1 a2 a3 s = .next t → Kept s t := by
  intro a0 a1 a2 a3 s t h; unfold execFadd at h; injection h with h; subst h; try dsimp only
  repeat' first
    | with_reducible apply Kept.refl
    | with_reducible apply State.scalarF_kept

theorem execFsub_kept : ∀ {a0 a1 a2 a3 s t}, execFsub a0 a1 a2 a3 s = .next t → Kept s t := by
  intro a0 a1 a2 a3 s t h; unfold execFsub at h; injection h with h; subst h; try dsimp only
  repeat' first
    | with_reducible apply Kept.refl
    | with_reducible apply State.scalarF_kept

theorem execFmul_kept : ∀ {a0 a1 a2 a3 s t}, execFmul a0 a1 a2 a3 s = .next t → Kept s t := by
  intro a0 a1 a2 a3 s t h; unfold execFmul at h; injection h with h; subst h; try dsimp only
  repeat' first
    | with_reducible apply Kept.refl
    | with_reducible apply State.scalarF_kept

theorem execFma_kept : ∀ {a0 a1 a2 a3 s t}, execFma a0 a1 a2 a3 s = .next t → Kept s t := by
  intro a0 a1 a2 a3 s t h; unfold execFma at h; injection h with h; subst h; try dsimp only
  repeat' first
    | with_reducible apply Kept.refl
    | with_reducible apply State.scalar_kept

theorem execFcvt_kept : ∀ {a0 a1 a2 a3 s t}, execFcvt a0 a1 a2 a3 s = .next t → Kept s t := by
  intro a0 a1 a2 a3 s t h; unfold execFcvt at h; injection h with h; subst h; try dsimp only
  repeat' first
    | with_reducible apply Kept.refl
    | with_reducible apply State.scalar_kept

theorem execAddi_kept : ∀ {a0 a1 a2 a3 s t}, execAddi a0 a1 a2 a3 s = .next t → Kept s t := by
  intro a0 a1 a2 a3 s t h; unfold execAddi at h; injection h with h; subst h; try dsimp only
  repeat' first
    | with_reducible apply Kept.refl
    | with_reducible apply State.scalar_kept

theorem execAndi_kept : ∀ {a0 a1 a2 a3 s t}, execAndi a0 a1 a2 a3 s = .next t → Kept s t := by
  intro a0 a1 a2 a3 s t h; unfold execAndi at h; injection h with h; subst h; try dsimp only
  repeat' first
    | with_reducible apply Kept.refl
    | with_reducible apply State.scalar_kept

theorem execOri_kept : ∀ {a0 a1 a2 a3 s t}, execOri a0 a1 a2 a3 s = .next t → Kept s t := by
  intro a0 a1 a2 a3 s t h; unfold execOri at h; injection h with h; subst h; try dsimp only
  repeat' first
    | with_reducible apply Kept.refl
    | with_reducible apply State.scalar_kept

theorem execXori_kept : ∀ {a0 a1 a2 a3 s t}, execXori a0 a1 a2 a3 s = .next t → Kept s t := by
  intro a0 a1 a2 a3 s t h; unfold execXori at h; injection h with h; subst h; try dsimp only
  repeat' first
    | with_reducible apply Kept.refl
    | with_reducible apply State.scalar_kept

theorem execLui_kept : ∀ {a0 a1 a2 s t}, execLui a0 a1 a2 s = .next t → Kept s t := by
  intro a0 a1 a2 s t h; unfold execLui at h; injection h with h; subst h; try dsimp only
  repeat' first
    | with_reducible apply Kept.refl
    | with_reducible apply State.scalar_kept

theorem execShiftImmediate_kept : ∀ {a0 a1 a2 a3 s t}, execShiftImmediate a0 a1 a2 a3 s = .next t → Kept s t := by
  intro a0 a1 a2 a3 s t h; unfold execShiftImmediate at h; injection h with h; subst h; try dsimp only
  repeat' first
    | with_reducible apply Kept.refl
    | with_reducible apply shiftImm_kept

theorem execIllegalInstruction_kept : ∀ {a0 s t}, execIllegalInstruction a0 s = .next t → Kept s t := by
  intro a0 s t h; unfold execIllegalInstruction at h; injection h with h; subst h; try dsimp only
  repeat' first
    | with_reducible apply Kept.refl
    | intro _
    | with_reducible apply State.issue_kept
    | with_reducible apply State.jumpTo_kept
    | exact NStep.kept_fault

theorem execBrEq_kept : ∀ {a0 a1 a2 a3 s t}, execBrEq a0 a1 a2 a3 s = .next t → Kept s t := by
  intro a0 a1 a2 a3 s t h; unfold execBrEq at h; injection h with h; subst h; try dsimp only
  repeat' first
    | with_reducible apply Kept.refl
    | with_reducible apply State.branch_kept

theorem execBrNe_kept : ∀ {a0 a1 a2 a3 s t}, execBrNe a0 a1 a2 a3 s = .next t → Kept s t := by
  intro a0 a1 a2 a3 s t h; unfold execBrNe at h; injection h with h; subst h; try dsimp only
  repeat' first
    | with_reducible apply Kept.refl
    | with_reducible apply State.branch_kept

theorem execBrLt_kept : ∀ {a0 a1 a2 a3 s t}, execBrLt a0 a1 a2 a3 s = .next t → Kept s t := by
  intro a0 a1 a2 a3 s t h; unfold execBrLt at h; injection h with h; subst h; try dsimp only
  repeat' first
    | with_reducible apply Kept.refl
    | with_reducible apply State.branch_kept

theorem execBrGe_kept : ∀ {a0 a1 a2 a3 s t}, execBrGe a0 a1 a2 a3 s = .next t → Kept s t := by
  intro a0 a1 a2 a3 s t h; unfold execBrGe at h; injection h with h; subst h; try dsimp only
  repeat' first
    | with_reducible apply Kept.refl
    | with_reducible apply State.branch_kept

theorem execBrLtu_kept : ∀ {a0 a1 a2 a3 s t}, execBrLtu a0 a1 a2 a3 s = .next t → Kept s t := by
  intro a0 a1 a2 a3 s t h; unfold execBrLtu at h; injection h with h; subst h; try dsimp only
  repeat' first
    | with_reducible apply Kept.refl
    | with_reducible apply State.branch_kept

theorem execBrGeu_kept : ∀ {a0 a1 a2 a3 s t}, execBrGeu a0 a1 a2 a3 s = .next t → Kept s t := by
  intro a0 a1 a2 a3 s t h; unfold execBrGeu at h; injection h with h; subst h; try dsimp only
  repeat' first
    | with_reducible apply Kept.refl
    | with_reducible apply State.branch_kept

theorem execJal_kept : ∀ {a0 a1 a2 s t}, execJal a0 a1 a2 s = .next t → Kept s t := by
  intro a0 a1 a2 s t h; unfold execJal at h; injection h with h; subst h; try dsimp only
  repeat' first
    | with_reducible apply Kept.refl
    | intro _
    | with_reducible apply State.issue_kept
    | with_reducible apply State.jumpTo_kept

theorem execJalr_kept : ∀ {a0 a1 a2 a3 s t}, execJalr a0 a1 a2 a3 s = .next t → Kept s t := by
  intro a0 a1 a2 a3 s t h; unfold execJalr at h; injection h with h; subst h; try dsimp only
  repeat' first
    | with_reducible apply Kept.refl
    | intro _
    | with_reducible apply State.issue_kept
    | with_reducible apply State.jumpTo_kept

theorem execCsrr_kept : ∀ {a0 a1 a2 s t}, execCsrr a0 a1 a2 s = .next t → Kept s t := by
  intro a0 a1 a2 s t h; unfold execCsrr at h; injection h with h; subst h; try dsimp only
  repeat' first
    | with_reducible apply Kept.refl
    | intro _
    | with_reducible apply State.issue_kept
    | with_reducible apply State.jumpTo_kept
    | with_reducible apply State.modNeedle_kept
    | exact NStep.kept_fault
    | with_reducible apply NStep.kept_done
    | split

theorem execCsrw_kept : ∀ {a0 a1 a2 s t}, execCsrw a0 a1 a2 s = .next t → Kept s t := by
  intro a0 a1 a2 s t h; unfold execCsrw at h; injection h with h; subst h; try dsimp only
  repeat' first
    | with_reducible apply Kept.refl
    | intro _
    | with_reducible apply State.issue_kept
    | with_reducible apply State.jumpTo_kept
    | with_reducible apply State.modNeedle_kept
    | exact NStep.kept_fault
    | with_reducible apply NStep.kept_done
    | split

theorem execHalt_kept : ∀ {a0 s t}, execHalt a0 s = .next t → Kept s t := by
  intro a0 s t h; unfold execHalt at h; injection h with h; subst h; try dsimp only
  repeat' first
    | with_reducible apply Kept.refl
    | intro _
    | with_reducible apply State.issue_kept
    | with_reducible apply State.jumpTo_kept
    | with_reducible apply State.modNeedle_kept
    | with_reducible apply NStep.kept_done

theorem execTickwait_kept : ∀ {a0 a1 a2 s t}, execTickwait a0 a1 a2 s = .next t → Kept s t := by
  intro a0 a1 a2 s t h; unfold execTickwait at h; injection h with h; subst h; try dsimp only
  repeat' first
    | with_reducible apply Kept.refl
    | with_reducible apply tickwait_kept

theorem execNeedleTickwaitResume_kept : ∀ {a0 s t}, execNeedleTickwaitResume a0 s = .next t → Kept s t := by
  intro a0 s t h; unfold execNeedleTickwaitResume at h; injection h with h; subst h; try dsimp only
  repeat' first
    | with_reducible apply Kept.refl
    | with_reducible apply tickResume_kept

theorem execBar_kept : ∀ {a0 a1 s t}, execBar a0 a1 s = .next t → Kept s t := by
  intro a0 a1 s t h; unfold execBar at h; injection h with h; subst h; try dsimp only
  repeat' first
    | with_reducible apply Kept.refl
    | intro _
    | with_reducible apply State.issue_kept
    | with_reducible apply State.jumpTo_kept
    | with_reducible apply State.modNeedle_kept
    | with_reducible apply State.useId_kept
    | with_reducible apply State.emit_kept
    | exact NStep.kept_fault
    | with_reducible apply NStep.kept_done
    | split

theorem execBarrierArrival_kept : ∀ {a0 a1 a2 s t}, execBarrierArrival a0 a1 a2 s = .next t → Kept s t := by
  intro a0 a1 a2 s t h; unfold execBarrierArrival at h; injection h with h; subst h; try dsimp only
  repeat' first
    | with_reducible apply Kept.refl
    | with_reducible apply barrierArrival_kept

theorem execBarrierRelease_kept : ∀ {a0 a1 s t}, execBarrierRelease a0 a1 s = .next t → Kept s t := by
  intro a0 a1 s t h; unfold execBarrierRelease at h; injection h with h; subst h; try dsimp only
  repeat' first
    | with_reducible apply Kept.refl
    | with_reducible apply State.wake_kept
    | with_reducible apply Kept.ite

theorem execFlagSet_kept : ∀ {a0 a1 a2 a3 s t}, execFlagSet a0 a1 a2 a3 s = .next t → Kept s t := by
  intro a0 a1 a2 a3 s t h; unfold execFlagSet at h; injection h with h; subst h; try dsimp only
  repeat' first
    | with_reducible apply Kept.refl
    | with_reducible apply State.flagInstr_kept

theorem execFlagAdd_kept : ∀ {a0 a1 a2 a3 s t}, execFlagAdd a0 a1 a2 a3 s = .next t → Kept s t := by
  intro a0 a1 a2 a3 s t h; unfold execFlagAdd at h; injection h with h; subst h; try dsimp only
  repeat' first
    | with_reducible apply Kept.refl
    | with_reducible apply State.flagInstr_kept

theorem execFlagWaitGe_kept : ∀ {a0 a1 a2 a3 s t}, execFlagWaitGe a0 a1 a2 a3 s = .next t → Kept s t := by
  intro a0 a1 a2 a3 s t h; unfold execFlagWaitGe at h; injection h with h; subst h; try dsimp only
  repeat' first
    | with_reducible apply Kept.refl
    | with_reducible apply State.flagInstr_kept

theorem execFlagWaitEq_kept : ∀ {a0 a1 a2 a3 s t}, execFlagWaitEq a0 a1 a2 a3 s = .next t → Kept s t := by
  intro a0 a1 a2 a3 s t h; unfold execFlagWaitEq at h; injection h with h; subst h; try dsimp only
  repeat' first
    | with_reducible apply Kept.refl
    | with_reducible apply State.flagInstr_kept

theorem execFlagOperation_kept : ∀ {a0 a1 a2 a3 a4 s t}, execFlagOperation a0 a1 a2 a3 a4 s = .next t → Kept s t := by
  intro a0 a1 a2 a3 a4 s t h; unfold execFlagOperation at h; injection h with h; subst h; try dsimp only
  repeat' first
    | with_reducible apply Kept.refl
    | with_reducible apply flagOperation_kept

theorem execVadd_kept : ∀ {a0 a1 a2 a3 a4 a5 a6 s t}, execVadd a0 a1 a2 a3 a4 a5 a6 s = .next t → Kept s t := by
  intro a0 a1 a2 a3 a4 a5 a6 s t h; unfold execVadd at h; injection h with h; subst h; try dsimp only
  repeat' first
    | with_reducible apply Kept.refl
    | with_reducible apply State.lanewise_kept

theorem execVsub_kept : ∀ {a0 a1 a2 a3 a4 a5 a6 s t}, execVsub a0 a1 a2 a3 a4 a5 a6 s = .next t → Kept s t := by
  intro a0 a1 a2 a3 a4 a5 a6 s t h; unfold execVsub at h; injection h with h; subst h; try dsimp only
  repeat' first
    | with_reducible apply Kept.refl
    | with_reducible apply State.lanewise_kept

theorem execVmul_kept : ∀ {a0 a1 a2 a3 a4 a5 a6 s t}, execVmul a0 a1 a2 a3 a4 a5 a6 s = .next t → Kept s t := by
  intro a0 a1 a2 a3 a4 a5 a6 s t h; unfold execVmul at h; injection h with h; subst h; try dsimp only
  repeat' first
    | with_reducible apply Kept.refl
    | with_reducible apply State.lanewise_kept

theorem execVfma_kept : ∀ {a0 a1 a2 a3 a4 a5 a6 s t}, execVfma a0 a1 a2 a3 a4 a5 a6 s = .next t → Kept s t := by
  intro a0 a1 a2 a3 a4 a5 a6 s t h; unfold execVfma at h; injection h with h; subst h; try dsimp only
  repeat' first
    | with_reducible apply Kept.refl
    | with_reducible apply State.lanewise_kept

theorem execVmin_kept : ∀ {a0 a1 a2 a3 a4 a5 a6 s t}, execVmin a0 a1 a2 a3 a4 a5 a6 s = .next t → Kept s t := by
  intro a0 a1 a2 a3 a4 a5 a6 s t h; unfold execVmin at h; injection h with h; subst h; try dsimp only
  repeat' first
    | with_reducible apply Kept.refl
    | with_reducible apply State.minmax_kept

theorem execVmax_kept : ∀ {a0 a1 a2 a3 a4 a5 a6 s t}, execVmax a0 a1 a2 a3 a4 a5 a6 s = .next t → Kept s t := by
  intro a0 a1 a2 a3 a4 a5 a6 s t h; unfold execVmax at h; injection h with h; subst h; try dsimp only
  repeat' first
    | with_reducible apply Kept.refl
    | with_reducible apply State.minmax_kept

theorem execVabs_kept : ∀ {a0 a1 a2 a3 a4 s t}, execVabs a0 a1 a2 a3 a4 s = .next t → Kept s t := by
  intro a0 a1 a2 a3 a4 s t h; unfold execVabs at h; injection h with h; subst h; try dsimp only
  repeat' first
    | with_reducible apply Kept.refl
    | with_reducible apply State.lanewise_kept

theorem execVneg_kept : ∀ {a0 a1 a2 a3 a4 s t}, execVneg a0 a1 a2 a3 a4 s = .next t → Kept s t := by
  intro a0 a1 a2 a3 a4 s t h; unfold execVneg at h; injection h with h; subst h; try dsimp only
  repeat' first
    | with_reducible apply Kept.refl
    | with_reducible apply State.lanewise_kept

theorem execVand_kept : ∀ {a0 a1 a2 a3 a4 a5 s t}, execVand a0 a1 a2 a3 a4 a5 s = .next t → Kept s t := by
  intro a0 a1 a2 a3 a4 a5 s t h; unfold execVand at h; injection h with h; subst h; try dsimp only
  repeat' first
    | with_reducible apply Kept.refl
    | with_reducible apply State.lanewise_kept

theorem execVor_kept : ∀ {a0 a1 a2 a3 a4 a5 s t}, execVor a0 a1 a2 a3 a4 a5 s = .next t → Kept s t := by
  intro a0 a1 a2 a3 a4 a5 s t h; unfold execVor at h; injection h with h; subst h; try dsimp only
  repeat' first
    | with_reducible apply Kept.refl
    | with_reducible apply State.lanewise_kept

theorem execVxor_kept : ∀ {a0 a1 a2 a3 a4 a5 s t}, execVxor a0 a1 a2 a3 a4 a5 s = .next t → Kept s t := by
  intro a0 a1 a2 a3 a4 a5 s t h; unfold execVxor at h; injection h with h; subst h; try dsimp only
  repeat' first
    | with_reducible apply Kept.refl
    | with_reducible apply State.lanewise_kept

theorem execVshl_kept : ∀ {a0 a1 a2 a3 a4 a5 s t}, execVshl a0 a1 a2 a3 a4 a5 s = .next t → Kept s t := by
  intro a0 a1 a2 a3 a4 a5 s t h; unfold execVshl at h; injection h with h; subst h; try dsimp only
  repeat' first
    | with_reducible apply Kept.refl
    | with_reducible apply State.lanewise_kept

theorem execVshr_kept : ∀ {a0 a1 a2 a3 a4 a5 s t}, execVshr a0 a1 a2 a3 a4 a5 s = .next t → Kept s t := by
  intro a0 a1 a2 a3 a4 a5 s t h; unfold execVshr at h; injection h with h; subst h; try dsimp only
  repeat' first
    | with_reducible apply Kept.refl
    | with_reducible apply State.lanewise_kept

theorem execVsra_kept : ∀ {a0 a1 a2 a3 a4 a5 s t}, execVsra a0 a1 a2 a3 a4 a5 s = .next t → Kept s t := by
  intro a0 a1 a2 a3 a4 a5 s t h; unfold execVsra at h; injection h with h; subst h; try dsimp only
  repeat' first
    | with_reducible apply Kept.refl
    | with_reducible apply State.lanewise_kept

theorem execVmulh_kept : ∀ {a0 a1 a2 a3 a4 a5 s t}, execVmulh a0 a1 a2 a3 a4 a5 s = .next t → Kept s t := by
  intro a0 a1 a2 a3 a4 a5 s t h; unfold execVmulh at h; injection h with h; subst h; try dsimp only
  repeat' first
    | with_reducible apply Kept.refl
    | with_reducible apply State.lanewise_kept

theorem execVcvt_kept : ∀ {a0 a1 a2 a3 a4 a5 s t}, execVcvt a0 a1 a2 a3 a4 a5 s = .next t → Kept s t := by
  intro a0 a1 a2 a3 a4 a5 s t h; unfold execVcvt at h; injection h with h; subst h; try dsimp only
  repeat' first
    | with_reducible apply Kept.refl
    | with_reducible apply vcvt_kept

theorem execBcast_kept : ∀ {a0 a1 a2 a3 s t}, execBcast a0 a1 a2 a3 s = .next t → Kept s t := by
  intro a0 a1 a2 a3 s t h; unfold execBcast at h; injection h with h; subst h; try dsimp only
  repeat' first
    | with_reducible apply Kept.refl
    | intro _
    | with_reducible apply State.issue_kept
    | with_reducible apply State.jumpTo_kept
    | with_reducible apply State.modNeedle_kept
    | with_reducible apply NStep.kept_done

theorem execShuffle_kept : ∀ {a0 a1 a2 a3 a4 s t}, execShuffle a0 a1 a2 a3 a4 s = .next t → Kept s t := by
  intro a0 a1 a2 a3 a4 s t h; unfold execShuffle at h; injection h with h; subst h; try dsimp only
  repeat' first
    | with_reducible apply Kept.refl
    | intro _
    | with_reducible apply State.issue_kept
    | with_reducible apply State.jumpTo_kept
    | with_reducible apply State.modNeedle_kept
    | with_reducible apply NStep.kept_done

theorem execSlideup_kept : ∀ {a0 a1 a2 a3 a4 s t}, execSlideup a0 a1 a2 a3 a4 s = .next t → Kept s t := by
  intro a0 a1 a2 a3 a4 s t h; unfold execSlideup at h; injection h with h; subst h; try dsimp only
  repeat' first
    | with_reducible apply Kept.refl
    | intro _
    | with_reducible apply State.issue_kept
    | with_reducible apply State.jumpTo_kept
    | with_reducible apply State.modNeedle_kept
    | with_reducible apply NStep.kept_done

theorem execSlidedn_kept : ∀ {a0 a1 a2 a3 a4 s t}, execSlidedn a0 a1 a2 a3 a4 s = .next t → Kept s t := by
  intro a0 a1 a2 a3 a4 s t h; unfold execSlidedn at h; injection h with h; subst h; try dsimp only
  repeat' first
    | with_reducible apply Kept.refl
    | intro _
    | with_reducible apply State.issue_kept
    | with_reducible apply State.jumpTo_kept
    | with_reducible apply State.modNeedle_kept
    | with_reducible apply NStep.kept_done

theorem execLaneget_kept : ∀ {a0 a1 a2 a3 s t}, execLaneget a0 a1 a2 a3 s = .next t → Kept s t := by
  intro a0 a1 a2 a3 s t h; unfold execLaneget at h; injection h with h; subst h; try dsimp only
  repeat' first
    | with_reducible apply Kept.refl
    | intro _
    | with_reducible apply State.issue_kept
    | with_reducible apply State.jumpTo_kept
    | with_reducible apply State.modNeedle_kept
    | with_reducible apply NStep.kept_done

theorem execLaneset_kept : ∀ {a0 a1 a2 a3 a4 s t}, execLaneset a0 a1 a2 a3 a4 s = .next t → Kept s t := by
  intro a0 a1 a2 a3 a4 s t h; unfold execLaneset at h; injection h with h; subst h; try dsimp only
  repeat' first
    | with_reducible apply Kept.refl
    | intro _
    | with_reducible apply State.issue_kept
    | with_reducible apply State.jumpTo_kept
    | with_reducible apply State.modNeedle_kept
    | with_reducible apply NStep.kept_done

theorem execPredEq_kept : ∀ {a0 a1 a2 a3 a4 a5 s t}, execPredEq a0 a1 a2 a3 a4 a5 s = .next t → Kept s t := by
  intro a0 a1 a2 a3 a4 a5 s t h; unfold execPredEq at h; injection h with h; subst h; try dsimp only
  repeat' first
    | with_reducible apply Kept.refl
    | with_reducible apply State.predCmp_kept

theorem execPredNe_kept : ∀ {a0 a1 a2 a3 a4 a5 s t}, execPredNe a0 a1 a2 a3 a4 a5 s = .next t → Kept s t := by
  intro a0 a1 a2 a3 a4 a5 s t h; unfold execPredNe at h; injection h with h; subst h; try dsimp only
  repeat' first
    | with_reducible apply Kept.refl
    | with_reducible apply State.predCmp_kept

theorem execPredLt_kept : ∀ {a0 a1 a2 a3 a4 a5 s t}, execPredLt a0 a1 a2 a3 a4 a5 s = .next t → Kept s t := by
  intro a0 a1 a2 a3 a4 a5 s t h; unfold execPredLt at h; injection h with h; subst h; try dsimp only
  repeat' first
    | with_reducible apply Kept.refl
    | with_reducible apply State.predCmp_kept

theorem execPredLe_kept : ∀ {a0 a1 a2 a3 a4 a5 s t}, execPredLe a0 a1 a2 a3 a4 a5 s = .next t → Kept s t := by
  intro a0 a1 a2 a3 a4 a5 s t h; unfold execPredLe at h; injection h with h; subst h; try dsimp only
  repeat' first
    | with_reducible apply Kept.refl
    | with_reducible apply State.predCmp_kept

theorem execPredAnd_kept : ∀ {a0 a1 a2 a3 a4 s t}, execPredAnd a0 a1 a2 a3 a4 s = .next t → Kept s t := by
  intro a0 a1 a2 a3 a4 s t h; unfold execPredAnd at h; injection h with h; subst h; try dsimp only
  repeat' first
    | with_reducible apply Kept.refl
    | with_reducible apply State.predOp_kept

theorem execPredOr_kept : ∀ {a0 a1 a2 a3 a4 s t}, execPredOr a0 a1 a2 a3 a4 s = .next t → Kept s t := by
  intro a0 a1 a2 a3 a4 s t h; unfold execPredOr at h; injection h with h; subst h; try dsimp only
  repeat' first
    | with_reducible apply Kept.refl
    | with_reducible apply State.predOp_kept

theorem execPredXor_kept : ∀ {a0 a1 a2 a3 a4 s t}, execPredXor a0 a1 a2 a3 a4 s = .next t → Kept s t := by
  intro a0 a1 a2 a3 a4 s t h; unfold execPredXor at h; injection h with h; subst h; try dsimp only
  repeat' first
    | with_reducible apply Kept.refl
    | with_reducible apply State.predOp_kept

theorem execPredNot_kept : ∀ {a0 a1 a2 a3 s t}, execPredNot a0 a1 a2 a3 s = .next t → Kept s t := by
  intro a0 a1 a2 a3 s t h; unfold execPredNot at h; injection h with h; subst h; try dsimp only
  repeat' first
    | with_reducible apply Kept.refl
    | with_reducible apply State.predOp_kept

theorem execFirst_kept : ∀ {a0 a1 a2 s t}, execFirst a0 a1 a2 s = .next t → Kept s t := by
  intro a0 a1 a2 s t h; unfold execFirst at h; injection h with h; subst h; try dsimp only
  repeat' first
    | with_reducible apply Kept.refl
    | with_reducible apply State.predCount_kept

theorem execCount_kept : ∀ {a0 a1 a2 s t}, execCount a0 a1 a2 s = .next t → Kept s t := by
  intro a0 a1 a2 s t h; unfold execCount at h; injection h with h; subst h; try dsimp only
  repeat' first
    | with_reducible apply Kept.refl
    | with_reducible apply State.predCount_kept

theorem execSum_kept : ∀ {a0 a1 a2 a3 a4 a5 s t}, execSum a0 a1 a2 a3 a4 a5 s = .next t → Kept s t := by
  intro a0 a1 a2 a3 a4 a5 s t h; unfold execSum at h; injection h with h; subst h; try dsimp only
  repeat' first
    | with_reducible apply Kept.refl
    | with_reducible apply State.redSum_kept

theorem execSumsq_kept : ∀ {a0 a1 a2 a3 a4 a5 s t}, execSumsq a0 a1 a2 a3 a4 a5 s = .next t → Kept s t := by
  intro a0 a1 a2 a3 a4 a5 s t h; unfold execSumsq at h; injection h with h; subst h; try dsimp only
  repeat' first
    | with_reducible apply Kept.refl
    | with_reducible apply State.redSum_kept

theorem execMeanvar_kept : ∀ {a0 a1 a2 a3 a4 a5 s t}, execMeanvar a0 a1 a2 a3 a4 a5 s = .next t → Kept s t := by
  intro a0 a1 a2 a3 a4 a5 s t h; unfold execMeanvar at h; injection h with h; subst h; try dsimp only
  repeat' first
    | with_reducible apply Kept.refl
    | with_reducible apply redMeanvar_kept

theorem execRedMax_kept : ∀ {a0 a1 a2 a3 a4 a5 s t}, execRedMax a0 a1 a2 a3 a4 a5 s = .next t → Kept s t := by
  intro a0 a1 a2 a3 a4 a5 s t h; unfold execRedMax at h; injection h with h; subst h; try dsimp only
  repeat' first
    | with_reducible apply Kept.refl
    | with_reducible apply State.redPick_kept

theorem execRedMin_kept : ∀ {a0 a1 a2 a3 a4 a5 s t}, execRedMin a0 a1 a2 a3 a4 a5 s = .next t → Kept s t := by
  intro a0 a1 a2 a3 a4 a5 s t h; unfold execRedMin at h; injection h with h; subst h; try dsimp only
  repeat' first
    | with_reducible apply Kept.refl
    | with_reducible apply State.redPick_kept

theorem execArgmax_kept : ∀ {a0 a1 a2 a3 a4 a5 a6 s t}, execArgmax a0 a1 a2 a3 a4 a5 a6 s = .next t → Kept s t := by
  intro a0 a1 a2 a3 a4 a5 a6 s t h; unfold execArgmax at h; injection h with h; subst h; try dsimp only
  repeat' first
    | with_reducible apply Kept.refl
    | with_reducible apply State.redPick_kept

theorem execArgmin_kept : ∀ {a0 a1 a2 a3 a4 a5 a6 s t}, execArgmin a0 a1 a2 a3 a4 a5 a6 s = .next t → Kept s t := by
  intro a0 a1 a2 a3 a4 a5 a6 s t h; unfold execArgmin at h; injection h with h; subst h; try dsimp only
  repeat' first
    | with_reducible apply Kept.refl
    | with_reducible apply State.redPick_kept

theorem execSld_kept : ∀ {a0 a1 a2 a3 a4 a5 s t}, execSld a0 a1 a2 a3 a4 a5 s = .next t → Kept s t := by
  intro a0 a1 a2 a3 a4 a5 s t h; unfold execSld at h; injection h with h; subst h; try dsimp only
  repeat' first
    | with_reducible apply Kept.refl
    | with_reducible apply State.scalarAccess_kept

theorem execSst_kept : ∀ {a0 a1 a2 a3 a4 s t}, execSst a0 a1 a2 a3 a4 s = .next t → Kept s t := by
  intro a0 a1 a2 a3 a4 s t h; unfold execSst at h; injection h with h; subst h; try dsimp only
  repeat' first
    | with_reducible apply Kept.refl
    | with_reducible apply State.scalarAccess_kept

theorem execSstAtomicAdd_kept : ∀ {a0 a1 a2 a3 a4 a5 s t}, execSstAtomicAdd a0 a1 a2 a3 a4 a5 s = .next t → Kept s t := by
  intro a0 a1 a2 a3 a4 a5 s t h; unfold execSstAtomicAdd at h; injection h with h; subst h; try dsimp only
  repeat' first
    | with_reducible apply Kept.refl
    | with_reducible apply sstAtomicAdd_kept

theorem execVld_kept : ∀ {a0 a1 a2 a3 s t}, execVld a0 a1 a2 a3 s = .next t → Kept s t := by
  intro a0 a1 a2 a3 s t h; unfold execVld at h; injection h with h; subst h; try dsimp only
  repeat' first
    | with_reducible apply Kept.refl
    | with_reducible apply State.vecAccess_kept

theorem execVst_kept : ∀ {a0 a1 a2 a3 a4 s t}, execVst a0 a1 a2 a3 a4 s = .next t → Kept s t := by
  intro a0 a1 a2 a3 a4 s t h; unfold execVst at h; injection h with h; subst h; try dsimp only
  repeat' first
    | with_reducible apply Kept.refl
    | with_reducible apply State.vecAccess_kept

theorem execVstAtomicAdd_kept : ∀ {a0 a1 a2 a3 a4 a5 s t}, execVstAtomicAdd a0 a1 a2 a3 a4 a5 s = .next t → Kept s t := by
  intro a0 a1 a2 a3 a4 a5 s t h; unfold execVstAtomicAdd at h; injection h with h; subst h; try dsimp only
  repeat' first
    | with_reducible apply Kept.refl
    | with_reducible apply State.vecAccess_kept

theorem execFeedLd_kept : ∀ {a0 a1 a2 a3 s t}, execFeedLd a0 a1 a2 a3 s = .next t → Kept s t := by
  intro a0 a1 a2 a3 s t h; unfold execFeedLd at h; injection h with h; subst h; try dsimp only
  repeat' first
    | with_reducible apply Kept.refl
    | with_reducible apply State.feedMove_kept

theorem execFeedSt_kept : ∀ {a0 a1 a2 a3 s t}, execFeedSt a0 a1 a2 a3 s = .next t → Kept s t := by
  intro a0 a1 a2 a3 s t h; unfold execFeedSt at h; injection h with h; subst h; try dsimp only
  repeat' first
    | with_reducible apply Kept.refl
    | with_reducible apply State.feedMove_kept

theorem execVput_kept : ∀ {a0 a1 a2 s t}, execVput a0 a1 a2 s = .next t → Kept s t := by
  intro a0 a1 a2 s t h; unfold execVput at h; injection h with h; subst h; try dsimp only
  repeat' first
    | with_reducible apply Kept.refl
    | with_reducible apply State.feedReg_kept

theorem execVget_kept : ∀ {a0 a1 a2 s t}, execVget a0 a1 a2 s = .next t → Kept s t := by
  intro a0 a1 a2 s t h; unfold execVget at h; injection h with h; subst h; try dsimp only
  repeat' first
    | with_reducible apply Kept.refl
    | with_reducible apply State.feedReg_kept

theorem execFenceL_kept : ∀ {a0 s t}, execFenceL a0 s = .next t → Kept s t := by
  intro a0 s t h; unfold execFenceL at h; injection h with h; subst h; try dsimp only
  repeat' first
    | with_reducible apply Kept.refl
    | intro _
    | with_reducible apply State.issue_kept
    | with_reducible apply State.jumpTo_kept
    | with_reducible apply State.settleFence_kept
    | with_reducible apply State.modNeedle_kept
    | with_reducible apply NStep.kept_done

theorem execFenceY_kept : ∀ {a0 s t}, execFenceY a0 s = .next t → Kept s t := by
  intro a0 s t h; unfold execFenceY at h; injection h with h; subst h; try dsimp only
  repeat' first
    | with_reducible apply Kept.refl
    | intro _
    | with_reducible apply State.issue_kept
    | with_reducible apply State.jumpTo_kept
    | with_reducible apply State.settleFence_kept
    | with_reducible apply State.modNeedle_kept
    | with_reducible apply NStep.kept_done

theorem execBankGrant_kept : ∀ {a0 a1 s t}, execBankGrant a0 a1 s = .next t → Kept s t := by
  intro a0 a1 s t h; unfold execBankGrant at h; injection h with h; subst h; try dsimp only
  repeat' first
    | with_reducible apply Kept.refl
    | with_reducible apply bankGrant_kept

theorem execStoreRead_kept : ∀ {a0 a1 a2 a3 s t}, execStoreRead a0 a1 a2 a3 s = .next t → Kept s t := by
  intro a0 a1 a2 a3 s t h; unfold execStoreRead at h; injection h with h; subst h; try dsimp only
  repeat' first
    | with_reducible apply Kept.refl
    | with_reducible apply storeRead_kept

theorem execStoreWrite_kept : ∀ {a0 a1 a2 a3 s t}, execStoreWrite a0 a1 a2 a3 s = .next t → Kept s t := by
  intro a0 a1 a2 a3 s t h; unfold execStoreWrite at h; injection h with h; subst h; try dsimp only
  repeat' first
    | with_reducible apply Kept.refl
    | with_reducible apply storeWrite_kept

theorem execAtomicAddAtStore_kept : ∀ {a0 a1 a2 a3 a4 s t}, execAtomicAddAtStore a0 a1 a2 a3 a4 s = .next t → Kept s t := by
  intro a0 a1 a2 a3 a4 s t h; unfold execAtomicAddAtStore at h; injection h with h; subst h; try dsimp only
  repeat' first
    | with_reducible apply Kept.refl
    | with_reducible apply atomicAddAtStore_kept

theorem execReadData_kept : ∀ {a0 a1 a2 a3 s t}, execReadData a0 a1 a2 a3 s = .next t → Kept s t := by
  intro a0 a1 a2 a3 s t h; unfold execReadData at h; injection h with h; subst h; try dsimp only
  repeat' first
    | with_reducible apply Kept.refl
    | with_reducible apply readData_kept

theorem execWriteAcknowledgement_kept : ∀ {a0 a1 a2 s t}, execWriteAcknowledgement a0 a1 a2 s = .next t → Kept s t := by
  intro a0 a1 a2 s t h; unfold execWriteAcknowledgement at h; injection h with h; subst h; try dsimp only
  repeat' first
    | with_reducible apply Kept.refl
    | with_reducible apply writeAcknowledgement_kept

theorem execMeshMcast_kept : ∀ {a0 a1 a2 a3 s t}, execMeshMcast a0 a1 a2 a3 s = .next t → Kept s t := by
  intro a0 a1 a2 a3 s t h; unfold execMeshMcast at h; injection h with h; subst h; try dsimp only
  repeat' first
    | with_reducible apply Kept.refl
    | with_reducible apply meshMcast_kept

theorem execMulticastWrite_kept : ∀ {a0 a1 a2 a3 a4 s t}, execMulticastWrite a0 a1 a2 a3 a4 s = .next t → Kept s t := by
  intro a0 a1 a2 a3 a4 s t h; unfold execMulticastWrite at h; injection h with h; subst h; try dsimp only
  repeat' first
    | with_reducible apply Kept.refl
    | with_reducible apply multicastWrite_kept

theorem execMeshTree_kept : ∀ {a0 a1 a2 a3 s t}, execMeshTree a0 a1 a2 a3 s = .next t → Kept s t := by
  intro a0 a1 a2 a3 s t h; unfold execMeshTree at h; injection h with h; subst h; try dsimp only
  repeat' first
    | with_reducible apply Kept.refl
    | with_reducible apply meshTree_kept

theorem execFixedTreeContribution_kept : ∀ {a0 a1 a2 a3 s t}, execFixedTreeContribution a0 a1 a2 a3 s = .next t → Kept s t := by
  intro a0 a1 a2 a3 s t h; unfold execFixedTreeContribution at h; injection h with h; subst h; try dsimp only
  repeat' first
    | with_reducible apply Kept.refl
    | with_reducible apply fixedTree_kept

theorem execMoverDescriptorDone_kept : ∀ {a0 a1 s t}, execMoverDescriptorDone a0 a1 s = .next t → Kept s t := by
  intro a0 a1 s t h; unfold execMoverDescriptorDone at h; injection h with h; subst h; try dsimp only
  repeat' first
    | with_reducible apply Kept.refl
    | with_reducible apply moverDone_kept

theorem execMoveEnq_kept : ∀ {a0 a1 a2 s t}, execMoveEnq a0 a1 a2 s = .next t → Kept s t := by
  intro a0 a1 a2 s t h; unfold execMoveEnq at h; injection h with h; subst h; try dsimp only
  repeat' first
    | with_reducible apply Kept.refl
    | with_reducible apply moveEnq_kept

theorem execMoveStatus_kept : ∀ {a0 a1 a2 s t}, execMoveStatus a0 a1 a2 s = .next t → Kept s t := by
  intro a0 a1 a2 s t h; unfold execMoveStatus at h; injection h with h; subst h; try dsimp only
  repeat' first
    | with_reducible apply Kept.refl
    | intro _
    | with_reducible apply State.issue_kept
    | with_reducible apply State.jumpTo_kept
    | with_reducible apply State.modNeedle_kept
    | with_reducible apply NStep.kept_done

theorem execMoveWait_kept : ∀ {a0 a1 s t}, execMoveWait a0 a1 s = .next t → Kept s t := by
  intro a0 a1 s t h; unfold execMoveWait at h; injection h with h; subst h; try dsimp only
  repeat' first
    | with_reducible apply Kept.refl
    | intro _
    | with_reducible apply State.issue_kept
    | with_reducible apply State.jumpTo_kept
    | with_reducible apply State.modNeedle_kept
    | with_reducible apply NStep.kept_done
    | with_reducible apply NStep.kept_ite
    | with_reducible apply Kept.ite

theorem execStchSend_kept : ∀ {a0 a1 a2 s t}, execStchSend a0 a1 a2 s = .next t → Kept s t := by
  intro a0 a1 a2 s t h; unfold execStchSend at h; injection h with h; subst h; try dsimp only
  repeat' first
    | with_reducible apply Kept.refl
    | with_reducible apply stchSend_kept

theorem execStchRecv_kept : ∀ {a0 a1 a2 s t}, execStchRecv a0 a1 a2 s = .next t → Kept s t := by
  intro a0 a1 a2 s t h; unfold execStchRecv at h; injection h with h; subst h; try dsimp only
  repeat' first
    | with_reducible apply Kept.refl
    | with_reducible apply stchRecv_kept

theorem execLand_kept : ∀ {a0 a1 a2 a3 s t}, execLand a0 a1 a2 a3 s = .next t → Kept s t := by
  intro a0 a1 a2 a3 s t h; unfold execLand at h; injection h with h; subst h; try dsimp only
  repeat' first
    | with_reducible apply Kept.refl
    | with_reducible apply land_kept

theorem execStitchEntryArrival_kept : ∀ {a0 a1 a2 a3 s t}, execStitchEntryArrival a0 a1 a2 a3 s = .next t → Kept s t := by
  intro a0 a1 a2 a3 s t h; unfold execStitchEntryArrival at h; injection h with h; subst h; try dsimp only
  repeat' first
    | with_reducible apply Kept.refl
    | with_reducible apply stitchArrival_kept

theorem execStitchCreditReturn_kept : ∀ {a0 a1 s t}, execStitchCreditReturn a0 a1 s = .next t → Kept s t := by
  intro a0 a1 s t h; unfold execStitchCreditReturn at h; injection h with h; subst h; try dsimp only
  repeat' first
    | with_reducible apply Kept.refl
    | with_reducible apply creditReturn_kept

theorem execTwinUnmatchedTimeout_kept : ∀ {a0 a1 s t}, execTwinUnmatchedTimeout a0 a1 s = .next t → Kept s t := by
  intro a0 a1 s t h; unfold execTwinUnmatchedTimeout at h; injection h with h; subst h; try dsimp only
  repeat' first
    | with_reducible apply Kept.refl
    | with_reducible apply twinUnmatched_kept

theorem execCastZero_kept : ∀ {a0 a1 s t}, execCastZero a0 a1 s = .next t → Kept s t := by
  intro a0 a1 s t h; unfold execCastZero at h; injection h with h; subst h; try dsimp only
  repeat' first
    | with_reducible apply Kept.refl
    | with_reducible apply castOn_kept

theorem execCastBias_kept : ∀ {a0 a1 s t}, execCastBias a0 a1 s = .next t → Kept s t := by
  intro a0 a1 s t h; unfold execCastBias at h; injection h with h; subst h; try dsimp only
  repeat' first
    | with_reducible apply Kept.refl
    | with_reducible apply castOn_kept

theorem execCastResid_kept : ∀ {a0 a1 s t}, execCastResid a0 a1 s = .next t → Kept s t := by
  intro a0 a1 s t h; unfold execCastResid at h; injection h with h; subst h; try dsimp only
  repeat' first
    | with_reducible apply Kept.refl
    | with_reducible apply castOn_kept

theorem execCastTotal_kept : ∀ {a0 a1 s t}, execCastTotal a0 a1 s = .next t → Kept s t := by
  intro a0 a1 s t h; unfold execCastTotal at h; injection h with h; subst h; try dsimp only
  repeat' first
    | with_reducible apply Kept.refl
    | with_reducible apply castOn_kept

theorem execMma_kept : ∀ {a0 a1 s t}, execMma a0 a1 s = .next t → Kept s t := by
  intro a0 a1 s t h; unfold execMma at h; injection h with h; subst h; try dsimp only
  repeat' first
    | with_reducible apply Kept.refl
    | with_reducible apply mma_kept

theorem execBindDrain_kept : ∀ {a0 a1 s t}, execBindDrain a0 a1 s = .next t → Kept s t := by
  intro a0 a1 s t h; unfold execBindDrain at h; injection h with h; subst h; try dsimp only
  repeat' first
    | with_reducible apply Kept.refl
    | with_reducible apply bindOff_kept

theorem execBindPromote_kept : ∀ {a0 a1 s t}, execBindPromote a0 a1 s = .next t → Kept s t := by
  intro a0 a1 s t h; unfold execBindPromote at h; injection h with h; subst h; try dsimp only
  repeat' first
    | with_reducible apply Kept.refl
    | with_reducible apply bindOff_kept

theorem execBindDrop_kept : ∀ {a0 a1 s t}, execBindDrop a0 a1 s = .next t → Kept s t := by
  intro a0 a1 s t h; unfold execBindDrop at h; injection h with h; subst h; try dsimp only
  repeat' first
    | with_reducible apply Kept.refl
    | with_reducible apply bindDrop_kept

theorem execLconf_kept : ∀ {a0 a1 s t}, execLconf a0 a1 s = .next t → Kept s t := by
  intro a0 a1 s t h; unfold execLconf at h; injection h with h; subst h; try dsimp only
  repeat' first
    | with_reducible apply Kept.refl
    | with_reducible apply State.pair_kept

theorem execLget_kept : ∀ {a0 a1 a2 a3 s t}, execLget a0 a1 a2 a3 s = .next t → Kept s t := by
  intro a0 a1 a2 a3 s t h; unfold execLget at h; injection h with h; subst h; try dsimp only
  repeat' first
    | with_reducible apply Kept.refl
    | with_reducible apply State.pair_kept

theorem execLshift_kept : ∀ {a0 a1 a2 s t}, execLshift a0 a1 a2 s = .next t → Kept s t := by
  intro a0 a1 a2 s t h; unfold execLshift at h; injection h with h; subst h; try dsimp only
  repeat' first
    | with_reducible apply Kept.refl
    | with_reducible apply State.pair_kept

theorem execLscale_kept : ∀ {a0 a1 a2 s t}, execLscale a0 a1 a2 s = .next t → Kept s t := by
  intro a0 a1 a2 s t h; unfold execLscale at h; injection h with h; subst h; try dsimp only
  repeat' first
    | with_reducible apply Kept.refl
    | with_reducible apply State.pair_kept

theorem execPlySend_kept : ∀ {a0 a1 a2 s t}, execPlySend a0 a1 a2 s = .next t → Kept s t := by
  intro a0 a1 a2 s t h; unfold execPlySend at h; injection h with h; subst h; try dsimp only
  repeat' first
    | with_reducible apply Kept.refl
    | with_reducible apply State.pair_kept

theorem execPlyAdd_kept : ∀ {a0 a1 a2 s t}, execPlyAdd a0 a1 a2 s = .next t → Kept s t := by
  intro a0 a1 a2 s t h; unfold execPlyAdd at h; injection h with h; subst h; try dsimp only
  repeat' first
    | with_reducible apply Kept.refl
    | with_reducible apply State.pair_kept

theorem execMmaQueueStart_kept : ∀ {a0 s t}, execMmaQueueStart a0 s = .next t → Kept s t := by
  intro a0 s t h; unfold execMmaQueueStart at h; injection h with h; subst h; try dsimp only
  repeat' first
    | with_reducible apply Kept.refl
    | with_reducible apply mmaQueueStart_kept

theorem execConfirmationTest_kept : ∀ {a0 a1 s t}, execConfirmationTest a0 a1 s = .next t → Kept s t := by
  intro a0 a1 s t h; unfold execConfirmationTest at h; injection h with h; subst h; try dsimp only
  repeat' first
    | with_reducible apply Kept.refl
    | with_reducible apply confirmationTest_kept

theorem execDrainDone_kept : ∀ {a0 a1 s t}, execDrainDone a0 a1 s = .next t → Kept s t := by
  intro a0 a1 s t h; unfold execDrainDone at h; injection h with h; subst h; try dsimp only
  repeat' first
    | with_reducible apply Kept.refl
    | with_reducible apply drainDone_kept

theorem execDistaffInstruction_kept : ∀ {a0 a1 a2 s t}, execDistaffInstruction a0 a1 a2 s = .next t → Kept s t := by
  intro a0 a1 a2 s t h; unfold execDistaffInstruction at h; injection h with h; subst h; try dsimp only
  repeat' first
    | with_reducible apply Kept.refl
    | with_reducible apply distaffInstruction_kept

theorem execDstDoorbell_kept : ∀ {a0 a1 a2 a3 s t}, execDstDoorbell a0 a1 a2 a3 s = .next t → Kept s t := by
  intro a0 a1 a2 a3 s t h; unfold execDstDoorbell at h; injection h with h; subst h; try dsimp only
  repeat' first
    | with_reducible apply Kept.refl
    | with_reducible apply dstDoorbell_kept

theorem execDstTickwait_kept : ∀ {a0 a1 a2 s t}, execDstTickwait a0 a1 a2 s = .next t → Kept s t := by
  intro a0 a1 a2 s t h; unfold execDstTickwait at h; injection h with h; subst h; try dsimp only
  repeat' first
    | with_reducible apply Kept.refl
    | with_reducible apply dstTickwait_kept

theorem execDstTickwaitResume_kept : ∀ {a0 s t}, execDstTickwaitResume a0 s = .next t → Kept s t := by
  intro a0 s t h; unfold execDstTickwaitResume at h; injection h with h; subst h; try dsimp only
  repeat' first
    | with_reducible apply Kept.refl
    | with_reducible apply dstResume_kept

theorem execDstSwfence_kept : ∀ {a0 a1 s t}, execDstSwfence a0 a1 s = .next t → Kept s t := by
  intro a0 a1 s t h; unfold execDstSwfence at h; injection h with h; subst h; try dsimp only
  repeat' first
    | with_reducible apply Kept.refl
    | with_reducible apply dstSwfence_kept

theorem execDstFlagSet_kept : ∀ {a0 a1 a2 a3 s t}, execDstFlagSet a0 a1 a2 a3 s = .next t → Kept s t := by
  intro a0 a1 a2 a3 s t h; unfold execDstFlagSet at h; injection h with h; subst h; try dsimp only
  repeat' first
    | with_reducible apply Kept.refl
    | with_reducible apply State.coreFlag_kept

theorem execDstFlagAdd_kept : ∀ {a0 a1 a2 a3 s t}, execDstFlagAdd a0 a1 a2 a3 s = .next t → Kept s t := by
  intro a0 a1 a2 a3 s t h; unfold execDstFlagAdd at h; injection h with h; subst h; try dsimp only
  repeat' first
    | with_reducible apply Kept.refl
    | with_reducible apply State.coreFlag_kept

theorem execDstFlagWaitGe_kept : ∀ {a0 a1 a2 a3 s t}, execDstFlagWaitGe a0 a1 a2 a3 s = .next t → Kept s t := by
  intro a0 a1 a2 a3 s t h; unfold execDstFlagWaitGe at h; injection h with h; subst h; try dsimp only
  repeat' first
    | with_reducible apply Kept.refl
    | with_reducible apply State.coreFlag_kept

theorem execDstFlagWaitEq_kept : ∀ {a0 a1 a2 a3 s t}, execDstFlagWaitEq a0 a1 a2 a3 s = .next t → Kept s t := by
  intro a0 a1 a2 a3 s t h; unfold execDstFlagWaitEq at h; injection h with h; subst h; try dsimp only
  repeat' first
    | with_reducible apply Kept.refl
    | with_reducible apply State.coreFlag_kept

theorem execFlagReply_kept : ∀ {a0 a1 a2 a3 s t}, execFlagReply a0 a1 a2 a3 s = .next t → Kept s t := by
  intro a0 a1 a2 a3 s t h; unfold execFlagReply at h; injection h with h; subst h; try dsimp only
  repeat' first
    | with_reducible apply Kept.refl
    | with_reducible apply flagReply_kept

theorem execLoadCardProgram_kept : ∀ {a0 s t}, execLoadCardProgram a0 s = .next t → Kept s t := by
  intro a0 s t h; unfold execLoadCardProgram at h; injection h with h; subst h; try dsimp only
  repeat' first
    | with_reducible apply Kept.refl
    | intro _
    | with_reducible apply Cmd.dispatch_kept
    | with_reducible apply cmdLoadCardProgram_kept

theorem execCardViewRead_kept : ∀ {a0 a1 a2 a3 s t}, execCardViewRead a0 a1 a2 a3 s = .next t → Kept s t := by
  intro a0 a1 a2 a3 s t h; unfold execCardViewRead at h; injection h with h; subst h; try dsimp only
  repeat' first
    | with_reducible apply Kept.refl
    | with_reducible apply cardViewRead_kept

theorem execCardViewWrite_kept : ∀ {a0 a1 a2 a3 a4 s t}, execCardViewWrite a0 a1 a2 a3 a4 s = .next t → Kept s t := by
  intro a0 a1 a2 a3 a4 s t h; unfold execCardViewWrite at h; injection h with h; subst h; try dsimp only
  repeat' first
    | with_reducible apply Kept.refl
    | with_reducible apply cardViewWrite_kept

theorem execCardJob_kept : ∀ {a0 a1 s t}, execCardJob a0 a1 s = .next t → Kept s t := by
  intro a0 a1 s t h; unfold execCardJob at h; injection h with h; subst h; try dsimp only
  repeat' first
    | with_reducible apply Kept.refl
    | with_reducible apply cardJob_kept

theorem execQueryHealth_kept : ∀ {a0 s t}, execQueryHealth a0 s = .next t → Kept s t := by
  intro a0 s t h; unfold execQueryHealth at h; injection h with h; subst h; try dsimp only
  repeat' first
    | with_reducible apply Kept.refl
    | intro _
    | with_reducible apply Cmd.dispatch_kept
    | with_reducible apply cmdQueryHealth_kept

theorem execReadMap_kept : ∀ {a0 s t}, execReadMap a0 s = .next t → Kept s t := by
  intro a0 s t h; unfold execReadMap at h; injection h with h; subst h; try dsimp only
  repeat' first
    | with_reducible apply Kept.refl
    | intro _
    | with_reducible apply Cmd.dispatch_kept
    | with_reducible apply cmdReadMap_kept

theorem execReadDistance_kept : ∀ {a0 s t}, execReadDistance a0 s = .next t → Kept s t := by
  intro a0 s t h; unfold execReadDistance at h; injection h with h; subst h; try dsimp only
  repeat' first
    | with_reducible apply Kept.refl
    | intro _
    | with_reducible apply Cmd.dispatch_kept
    | with_reducible apply cmdReadDistance_kept

theorem execSetRepairCtrl_kept : ∀ {a0 s t}, execSetRepairCtrl a0 s = .next t → Kept s t := by
  intro a0 s t h; unfold execSetRepairCtrl at h; injection h with h; subst h; try dsimp only
  repeat' first
    | with_reducible apply Kept.refl
    | intro _
    | with_reducible apply Cmd.dispatch_kept
    | with_reducible apply cmdSetRepairCtrl_kept

theorem execFwUpdate_kept : ∀ {a0 s t}, execFwUpdate a0 s = .next t → Kept s t := by
  intro a0 s t h; unfold execFwUpdate at h; injection h with h; subst h; try dsimp only
  repeat' first
    | with_reducible apply Kept.refl
    | intro _
    | with_reducible apply Cmd.dispatch_kept
    | with_reducible apply cmdFwUpdate_kept

theorem execFwUpdateFlashDone_kept : ∀ {a0 s t}, execFwUpdateFlashDone a0 s = .next t → Kept s t := by
  intro a0 s t h; unfold execFwUpdateFlashDone at h; injection h with h; subst h; try dsimp only
  repeat' first
    | with_reducible apply Kept.refl
    | with_reducible apply flashDone_kept

theorem execSetBootCtrl_kept : ∀ {a0 s t}, execSetBootCtrl a0 s = .next t → Kept s t := by
  intro a0 s t h; unfold execSetBootCtrl at h; injection h with h; subst h; try dsimp only
  repeat' first
    | with_reducible apply Kept.refl
    | intro _
    | with_reducible apply Cmd.dispatch_kept
    | with_reducible apply cmdSetBootCtrl_kept

theorem execExpertGrant_kept : ∀ {a0 s t}, execExpertGrant a0 s = .next t → Kept s t := by
  intro a0 s t h; unfold execExpertGrant at h; injection h with h; subst h; try dsimp only
  repeat' first
    | with_reducible apply Kept.refl
    | intro _
    | with_reducible apply Cmd.dispatch_kept
    | with_reducible apply cmdExpertGrant_kept

theorem execGrantTakesEffect_kept : ∀ {a0 s t}, execGrantTakesEffect a0 s = .next t → Kept s t := by
  intro a0 s t h; unfold execGrantTakesEffect at h; injection h with h; subst h; try dsimp only
  repeat' first
    | with_reducible apply Kept.refl
    | with_reducible apply grantNow_kept

theorem execExpertRelease_kept : ∀ {a0 s t}, execExpertRelease a0 s = .next t → Kept s t := by
  intro a0 s t h; unfold execExpertRelease at h; injection h with h; subst h; try dsimp only
  repeat' first
    | with_reducible apply Kept.refl
    | intro _
    | with_reducible apply Cmd.dispatch_kept
    | with_reducible apply cmdExpertRelease_kept

theorem execQueryGrant_kept : ∀ {a0 s t}, execQueryGrant a0 s = .next t → Kept s t := by
  intro a0 s t h; unfold execQueryGrant at h; injection h with h; subst h; try dsimp only
  repeat' first
    | with_reducible apply Kept.refl
    | intro _
    | with_reducible apply Cmd.dispatch_kept
    | with_reducible apply cmdQueryGrant_kept

theorem execDebugEcho_kept : ∀ {a0 s t}, execDebugEcho a0 s = .next t → Kept s t := by
  intro a0 s t h; unfold execDebugEcho at h; injection h with h; subst h; try dsimp only
  repeat' first
    | with_reducible apply Kept.refl
    | intro _
    | with_reducible apply Cmd.dispatch_kept
    | with_reducible apply cmdDebugEcho_kept

theorem execDebugReadLog_kept : ∀ {a0 s t}, execDebugReadLog a0 s = .next t → Kept s t := by
  intro a0 s t h; unfold execDebugReadLog at h; injection h with h; subst h; try dsimp only
  repeat' first
    | with_reducible apply Kept.refl
    | intro _
    | with_reducible apply Cmd.dispatch_kept
    | with_reducible apply cmdDebugReadLog_kept

theorem execDebugReadReg_kept : ∀ {a0 s t}, execDebugReadReg a0 s = .next t → Kept s t := by
  intro a0 s t h; unfold execDebugReadReg at h; injection h with h; subst h; try dsimp only
  repeat' first
    | with_reducible apply Kept.refl
    | intro _
    | with_reducible apply Cmd.dispatch_kept
    | with_reducible apply cmdDebugReadReg_kept

theorem execDebugSetLog_kept : ∀ {a0 s t}, execDebugSetLog a0 s = .next t → Kept s t := by
  intro a0 s t h; unfold execDebugSetLog at h; injection h with h; subst h; try dsimp only
  repeat' first
    | with_reducible apply Kept.refl
    | intro _
    | with_reducible apply Cmd.dispatch_kept
    | with_reducible apply cmdDebugSetLog_kept

theorem execAttest_kept : ∀ {a0 s t}, execAttest a0 s = .next t → Kept s t := by
  intro a0 s t h; unfold execAttest at h; injection h with h; subst h; try dsimp only
  repeat' first
    | with_reducible apply Kept.refl
    | intro _
    | with_reducible apply Cmd.dispatch_kept
    | with_reducible apply cmdAttest_kept

theorem execGetCerts_kept : ∀ {a0 s t}, execGetCerts a0 s = .next t → Kept s t := by
  intro a0 s t h; unfold execGetCerts at h; injection h with h; subst h; try dsimp only
  repeat' first
    | with_reducible apply Kept.refl
    | intro _
    | with_reducible apply Cmd.dispatch_kept
    | with_reducible apply cmdGetCerts_kept

theorem execAdopt_kept : ∀ {a0 s t}, execAdopt a0 s = .next t → Kept s t := by
  intro a0 s t h; unfold execAdopt at h; injection h with h; subst h; try dsimp only
  repeat' first
    | with_reducible apply Kept.refl
    | intro _
    | with_reducible apply Cmd.dispatch_kept
    | with_reducible apply cmdAdopt_kept

theorem execLoadTagMaster_kept : ∀ {a0 s t}, execLoadTagMaster a0 s = .next t → Kept s t := by
  intro a0 s t h; unfold execLoadTagMaster at h; injection h with h; subst h; try dsimp only
  repeat' first
    | with_reducible apply Kept.refl
    | intro _
    | with_reducible apply Cmd.dispatch_kept
    | with_reducible apply cmdLoadTagMaster_kept

theorem execReadYardage_kept : ∀ {a0 s t}, execReadYardage a0 s = .next t → Kept s t := by
  intro a0 s t h; unfold execReadYardage at h; injection h with h; subst h; try dsimp only
  repeat' first
    | with_reducible apply Kept.refl
    | intro _
    | with_reducible apply Cmd.dispatch_kept
    | with_reducible apply cmdReadYardage_kept

theorem execAddYardage_kept : ∀ {a0 s t}, execAddYardage a0 s = .next t → Kept s t := by
  intro a0 s t h; unfold execAddYardage at h; injection h with h; subst h; try dsimp only
  repeat' first
    | with_reducible apply Kept.refl
    | intro _
    | with_reducible apply Cmd.dispatch_kept
    | with_reducible apply cmdAddYardage_kept

theorem execRaiseSvn_kept : ∀ {a0 s t}, execRaiseSvn a0 s = .next t → Kept s t := by
  intro a0 s t h; unfold execRaiseSvn at h; injection h with h; subst h; try dsimp only
  repeat' first
    | with_reducible apply Kept.refl
    | intro _
    | with_reducible apply Cmd.dispatch_kept
    | with_reducible apply cmdRaiseSvn_kept

theorem execIdent_kept : ∀ {a0 a1 s t}, execIdent a0 a1 s = .next t → Kept s t := by
  intro a0 a1 s t h; unfold execIdent at h; injection h with h; subst h; try dsimp only
  repeat' first
    | with_reducible apply Kept.refl
    | with_reducible apply innerIdent_kept

theorem execDieProve_kept : ∀ {a0 a1 a2 s t}, execDieProve a0 a1 a2 s = .next t → Kept s t := by
  intro a0 a1 a2 s t h; unfold execDieProve at h; injection h with h; subst h; try dsimp only
  repeat' first
    | with_reducible apply Kept.refl
    | with_reducible apply innerProve_kept

theorem execInnerReply_kept : ∀ {a0 a1 a2 s t}, execInnerReply a0 a1 a2 s = .next t → Kept s t := by
  intro a0 a1 a2 s t h; unfold execInnerReply at h; injection h with h; subst h; try dsimp only
  repeat' first
    | with_reducible apply Kept.refl
    | with_reducible apply innerReply_kept

theorem execInnerReplyTimeout_kept : ∀ {s t}, execInnerReplyTimeout s = .next t → Kept s t := by
  intro s t h; unfold execInnerReplyTimeout at h; injection h with h; subst h; try dsimp only
  repeat' first
    | with_reducible apply Kept.refl
    | with_reducible apply State.innerMissing_kept

theorem execAttestDieTimeout_kept : ∀ {s t}, execAttestDieTimeout s = .next t → Kept s t := by
  intro s t h; unfold execAttestDieTimeout at h; injection h with h; subst h; try dsimp only
  repeat' first
    | with_reducible apply Kept.refl
    | with_reducible apply State.innerMissing_kept

theorem execInnerFrameTimingError_kept : ∀ {s t}, execInnerFrameTimingError s = .next t → Kept s t := by
  intro s t h; unfold execInnerFrameTimingError at h; injection h with h; subst h; try dsimp only
  repeat' first
    | with_reducible apply Kept.refl
    | with_reducible apply innerTiming_kept

theorem execInnerFrameUnknownType_kept : ∀ {a0 a1 a2 s t}, execInnerFrameUnknownType a0 a1 a2 s = .next t → Kept s t := by
  intro a0 a1 a2 s t h; unfold execInnerFrameUnknownType at h; injection h with h; subst h; try dsimp only
  repeat' first
    | with_reducible apply Kept.refl
    | with_reducible apply innerUnknown_kept

theorem execYardageIncrement_kept : ∀ {a0 a1 s t}, execYardageIncrement a0 a1 s = .next t → Kept s t := by
  intro a0 a1 s t h; unfold execYardageIncrement at h; injection h with h; subst h; try dsimp only
  repeat' first
    | with_reducible apply Kept.refl
    | with_reducible apply State.yard_kept
    | with_reducible apply Kept.ite

theorem execYardageSlotWriteDone_kept : ∀ {a0 s t}, execYardageSlotWriteDone a0 s = .next t → Kept s t := by
  intro a0 s t h; unfold execYardageSlotWriteDone at h; injection h with h; subst h; try dsimp only
  repeat' first
    | with_reducible apply Kept.refl
    | with_reducible apply slotWritten_kept

theorem execFloorBurnDone_kept : ∀ {a0 s t}, execFloorBurnDone a0 s = .next t → Kept s t := by
  intro a0 s t h; unfold execFloorBurnDone at h; injection h with h; subst h; try dsimp only
  repeat' first
    | with_reducible apply Kept.refl
    | with_reducible apply floorBurnt_kept

theorem execPowerHour_kept : ∀ {s t}, execPowerHour s = .next t → Kept s t := by
  intro s t h; unfold execPowerHour at h; injection h with h; subst h; try dsimp only
  repeat' first
    | with_reducible apply Kept.refl
    | with_reducible apply State.yard_kept
    | with_reducible apply State.modTally_kept
    | with_reducible apply Kept.ite

theorem execPowerHourResidueSave_kept : ∀ {a0 s t}, execPowerHourResidueSave a0 s = .next t → Kept s t := by
  intro a0 s t h; unfold execPowerHourResidueSave at h; injection h with h; subst h; try dsimp only
  repeat' first
    | with_reducible apply Kept.refl
    | with_reducible apply State.modTally_kept
    | with_reducible apply Kept.ite

theorem execTagProve_kept : ∀ {a0 s t}, execTagProve a0 s = .next t → Kept s t := by
  intro a0 s t h; unfold execTagProve at h; injection h with h; subst h; try dsimp only
  repeat' first
    | with_reducible apply Kept.refl
    | intro _
    | with_reducible apply Cmd.dispatch_kept
    | with_reducible apply cmdTagProve_kept

theorem execTagIncrement_kept : ∀ {a0 s t}, execTagIncrement a0 s = .next t → Kept s t := by
  intro a0 s t h; unfold execTagIncrement at h; injection h with h; subst h; try dsimp only
  repeat' first
    | with_reducible apply Kept.refl
    | intro _
    | with_reducible apply Cmd.dispatch_kept
    | with_reducible apply cmdTagIncrement_kept

theorem execChainSearch_kept : ∀ {a0 s t}, execChainSearch a0 s = .next t → Kept s t := by
  intro a0 s t h; unfold execChainSearch at h; injection h with h; subst h; try dsimp only
  repeat' first
    | with_reducible apply Kept.refl
    | intro _
    | with_reducible apply Cmd.dispatch_kept
    | with_reducible apply cmdChainSearch_kept

theorem execChainList_kept : ∀ {a0 s t}, execChainList a0 s = .next t → Kept s t := by
  intro a0 s t h; unfold execChainList at h; injection h with h; subst h; try dsimp only
  repeat' first
    | with_reducible apply Kept.refl
    | intro _
    | with_reducible apply Cmd.dispatch_kept
    | with_reducible apply cmdChainList_kept

theorem execChainPing_kept : ∀ {a0 s t}, execChainPing a0 s = .next t → Kept s t := by
  intro a0 s t h; unfold execChainPing at h; injection h with h; subst h; try dsimp only
  repeat' first
    | with_reducible apply Kept.refl
    | intro _
    | with_reducible apply Cmd.dispatch_kept
    | with_reducible apply cmdChainPing_kept

theorem execChainConfig_kept : ∀ {a0 s t}, execChainConfig a0 s = .next t → Kept s t := by
  intro a0 s t h; unfold execChainConfig at h; injection h with h; subst h; try dsimp only
  repeat' first
    | with_reducible apply Kept.refl
    | intro _
    | with_reducible apply Cmd.dispatch_kept
    | with_reducible apply cmdChainConfig_kept

theorem execQueryInnerChain_kept : ∀ {a0 s t}, execQueryInnerChain a0 s = .next t → Kept s t := by
  intro a0 s t h; unfold execQueryInnerChain at h; injection h with h; subst h; try dsimp only
  repeat' first
    | with_reducible apply Kept.refl
    | intro _
    | with_reducible apply Cmd.dispatch_kept
    | with_reducible apply cmdQueryInnerChain_kept

theorem execPeriodicSearch_kept : ∀ {a0 s t}, execPeriodicSearch a0 s = .next t → Kept s t := by
  intro a0 s t h; unfold execPeriodicSearch at h; injection h with h; subst h; try dsimp only
  repeat' first
    | with_reducible apply Kept.refl
    | with_reducible apply periodicSearch_kept

theorem execPresenceWindowEnd_kept : ∀ {a0 s t}, execPresenceWindowEnd a0 s = .next t → Kept s t := by
  intro a0 s t h; unfold execPresenceWindowEnd at h; injection h with h; subst h; try dsimp only
  repeat' first
    | with_reducible apply Kept.refl
    | with_reducible apply presenceEnd_kept

theorem execRollWindowEnd_kept : ∀ {a0 s t}, execRollWindowEnd a0 s = .next t → Kept s t := by
  intro a0 s t h; unfold execRollWindowEnd at h; injection h with h; subst h; try dsimp only
  repeat' first
    | with_reducible apply Kept.refl
    | with_reducible apply rollEnd_kept

theorem execAssignAcknowledgement_kept : ∀ {a0 s t}, execAssignAcknowledgement a0 s = .next t → Kept s t := by
  intro a0 s t h; unfold execAssignAcknowledgement at h; injection h with h; subst h; try dsimp only
  repeat' first
    | with_reducible apply Kept.refl
    | with_reducible apply assignAck_kept

theorem execAssignIdRead_kept : ∀ {a0 a1 s t}, execAssignIdRead a0 a1 s = .next t → Kept s t := by
  intro a0 a1 s t h; unfold execAssignIdRead at h; injection h with h; subst h; try dsimp only
  repeat' first
    | with_reducible apply Kept.refl
    | with_reducible apply assignRead_kept

theorem execSearchDone_kept : ∀ {s t}, execSearchDone s = .next t → Kept s t := by
  intro s t h; unfold execSearchDone at h; injection h with h; subst h; try dsimp only
  repeat' first
    | with_reducible apply Kept.refl
    | with_reducible apply searchEnd_kept

theorem execChainReply_kept : ∀ {a0 a1 s t}, execChainReply a0 a1 s = .next t → Kept s t := by
  intro a0 a1 s t h; unfold execChainReply at h; injection h with h; subst h; try dsimp only
  repeat' first
    | with_reducible apply Kept.refl
    | with_reducible apply chainReply_kept

theorem execPresenceChanged_kept : ∀ {a0 s t}, execPresenceChanged a0 s = .next t → Kept s t := by
  intro a0 s t h; unfold execPresenceChanged at h; injection h with h; subst h; try dsimp only
  repeat' first
    | with_reducible apply Kept.refl
    | with_reducible apply presenceChanged_kept

theorem execStuckLow_kept : ∀ {s t}, execStuckLow s = .next t → Kept s t := by
  intro s t h; unfold execStuckLow at h; injection h with h; subst h; try dsimp only
  repeat' first
    | with_reducible apply Kept.refl
    | with_reducible apply stuckLow_kept

theorem execLineHighResume_kept : ∀ {s t}, execLineHighResume s = .next t → Kept s t := by
  intro s t h; unfold execLineHighResume at h; injection h with h; subst h; try dsimp only
  repeat' first
    | with_reducible apply Kept.refl
    | with_reducible apply lineHigh_kept

theorem execChnSeqReset_kept : ∀ {a0 s t}, execChnSeqReset a0 s = .next t → Kept s t := by
  intro a0 s t h; unfold execChnSeqReset at h; injection h with h; subst h; try dsimp only
  repeat' first
    | with_reducible apply Kept.refl
    | with_reducible apply seqWrite_kept

theorem execSendChar_kept : ∀ {a0 a1 s t}, execSendChar a0 a1 s = .next t → Kept s t := by
  intro a0 a1 s t h; unfold execSendChar at h; injection h with h; subst h; try dsimp only
  repeat' first
    | with_reducible apply Kept.refl
    | with_reducible apply seqWrite_kept

theorem execReadChar_kept : ∀ {a0 a1 s t}, execReadChar a0 a1 s = .next t → Kept s t := by
  intro a0 a1 s t h; unfold execReadChar at h; injection h with h; subst h; try dsimp only
  repeat' first
    | with_reducible apply Kept.refl
    | with_reducible apply seqWrite_kept

theorem execRollWindow_kept : ∀ {a0 a1 s t}, execRollWindow a0 a1 s = .next t → Kept s t := by
  intro a0 a1 s t h; unfold execRollWindow at h; injection h with h; subst h; try dsimp only
  repeat' first
    | with_reducible apply Kept.refl
    | with_reducible apply seqWrite_kept

theorem execAckSlot_kept : ∀ {a0 a1 s t}, execAckSlot a0 a1 s = .next t → Kept s t := by
  intro a0 a1 s t h; unfold execAckSlot at h; injection h with h; subst h; try dsimp only
  repeat' first
    | with_reducible apply Kept.refl
    | with_reducible apply seqWrite_kept

theorem execStrong_kept : ∀ {a0 a1 s t}, execStrong a0 a1 s = .next t → Kept s t := by
  intro a0 a1 s t h; unfold execStrong at h; injection h with h; subst h; try dsimp only
  repeat' first
    | with_reducible apply Kept.refl
    | with_reducible apply seqWrite_kept

theorem execEndGap_kept : ∀ {a0 s t}, execEndGap a0 s = .next t → Kept s t := by
  intro a0 s t h; unfold execEndGap at h; injection h with h; subst h; try dsimp only
  repeat' first
    | with_reducible apply Kept.refl
    | with_reducible apply seqWrite_kept

theorem execSendFrame_kept : ∀ {a0 a1 s t}, execSendFrame a0 a1 s = .next t → Kept s t := by
  intro a0 a1 s t h; unfold execSendFrame at h; injection h with h; subst h; try dsimp only
  repeat' first
    | with_reducible apply Kept.refl
    | with_reducible apply seqWrite_kept

theorem execRecvFrame_kept : ∀ {a0 s t}, execRecvFrame a0 s = .next t → Kept s t := by
  intro a0 s t h; unfold execRecvFrame at h; injection h with h; subst h; try dsimp only
  repeat' first
    | with_reducible apply Kept.refl
    | with_reducible apply seqWrite_kept

theorem execChnSeqDone_kept : ∀ {a0 a1 s t}, execChnSeqDone a0 a1 s = .next t → Kept s t := by
  intro a0 a1 s t h; unfold execChnSeqDone at h; injection h with h; subst h; try dsimp only
  repeat' first
    | with_reducible apply Kept.refl
    | with_reducible apply seqDone_kept

theorem execFullReset_kept : ∀ {s t}, execFullReset s = .next t → Kept s t := by
  intro s t h; unfold execFullReset at h; injection h with h; subst h; try dsimp only
  repeat' first
    | with_reducible apply Kept.refl
    | with_reducible apply State.tagsDo_kept

theorem execRoll_kept : ∀ {a0 a1 a2 s t}, execRoll a0 a1 a2 s = .next t → Kept s t := by
  intro a0 a1 a2 s t h; unfold execRoll at h; injection h with h; subst h; try dsimp only
  repeat' first
    | with_reducible apply Kept.refl
    | with_reducible apply State.tagsDo_kept

theorem execAssign_kept : ∀ {a0 a1 a2 a3 s t}, execAssign a0 a1 a2 a3 s = .next t → Kept s t := by
  intro a0 a1 a2 a3 s t h; unfold execAssign at h; injection h with h; subst h; try dsimp only
  repeat' first
    | with_reducible apply Kept.refl
    | with_reducible apply State.tagsDo_kept

theorem execPing_kept : ∀ {a0 s t}, execPing a0 s = .next t → Kept s t := by
  intro a0 s t h; unfold execPing at h; injection h with h; subst h; try dsimp only
  repeat' first
    | with_reducible apply Kept.refl
    | with_reducible apply State.tagsDo_kept

theorem execReadInfo_kept : ∀ {a0 s t}, execReadInfo a0 s = .next t → Kept s t := by
  intro a0 s t h; unfold execReadInfo at h; injection h with h; subst h; try dsimp only
  repeat' first
    | with_reducible apply Kept.refl
    | with_reducible apply State.tagsDo_kept

theorem execProve_kept : ∀ {a0 a1 s t}, execProve a0 a1 s = .next t → Kept s t := by
  intro a0 a1 s t h; unfold execProve at h; injection h with h; subst h; try dsimp only
  repeat' first
    | with_reducible apply Kept.refl
    | with_reducible apply State.tagsDo_kept

theorem execWritePrepare_kept : ∀ {a0 a1 a2 a3 a4 s t}, execWritePrepare a0 a1 a2 a3 a4 s = .next t → Kept s t := by
  intro a0 a1 a2 a3 a4 s t h; unfold execWritePrepare at h; injection h with h; subst h; try dsimp only
  repeat' first
    | with_reducible apply Kept.refl
    | with_reducible apply State.tagsDo_kept

theorem execWriteCommit_kept : ∀ {a0 a1 a2 s t}, execWriteCommit a0 a1 a2 s = .next t → Kept s t := by
  intro a0 a1 a2 s t h; unfold execWriteCommit at h; injection h with h; subst h; try dsimp only
  repeat' first
    | with_reducible apply Kept.refl
    | with_reducible apply State.tagsDo_kept

theorem execSetSpeed_kept : ∀ {a0 a1 s t}, execSetSpeed a0 a1 s = .next t → Kept s t := by
  intro a0 a1 s t h; unfold execSetSpeed at h; injection h with h; subst h; try dsimp only
  repeat' first
    | with_reducible apply Kept.refl
    | with_reducible apply State.tagsDo_kept

theorem execStrongWindowEnd_kept : ∀ {a0 a1 s t}, execStrongWindowEnd a0 a1 s = .next t → Kept s t := by
  intro a0 a1 s t h; unfold execStrongWindowEnd at h; injection h with h; subst h; try dsimp only
  repeat' first
    | with_reducible apply Kept.refl
    | with_reducible apply State.emits_kept
    | with_reducible apply State.modTag_kept
    | split

theorem execTagSupplyLoss_kept : ∀ {a0 a1 s t}, execTagSupplyLoss a0 a1 s = .next t → Kept s t := by
  intro a0 a1 s t h; unfold execTagSupplyLoss at h; injection h with h; subst h; try dsimp only
  repeat' first
    | with_reducible apply Kept.refl
    | with_reducible apply State.modTag_kept

theorem execTagPowerUp_kept : ∀ {a0 s t}, execTagPowerUp a0 s = .next t → Kept s t := by
  intro a0 s t h; unfold execTagPowerUp at h; injection h with h; subst h; try dsimp only
  repeat' first
    | with_reducible apply Kept.refl
    | with_reducible apply State.modTag_kept

theorem execCensusLoopback_kept : ∀ {a0 a1 s t}, execCensusLoopback a0 a1 s = .next t → Kept s t := by
  intro a0 a1 s t h; unfold execCensusLoopback at h; injection h with h; subst h; try dsimp only
  repeat' first
    | with_reducible apply Kept.refl
    | with_reducible apply censusLoopback_kept

theorem execSaveAndRestore_kept : ∀ {a0 a1 a2 a3 a4 s t}, execSaveAndRestore a0 a1 a2 a3 a4 s = .next t → Kept s t := by
  intro a0 a1 a2 a3 a4 s t h; unfold execSaveAndRestore at h; injection h with h; subst h; try dsimp only
  repeat' first
    | with_reducible apply Kept.refl
    | with_reducible apply saveAndRestore_kept

theorem execRouterConfiguration_kept : ∀ {a0 a1 a2 a3 a4 a5 s t}, execRouterConfiguration a0 a1 a2 a3 a4 a5 s = .next t → Kept s t := by
  intro a0 a1 a2 a3 a4 a5 s t h; unfold execRouterConfiguration at h; injection h with h; subst h; try dsimp only
  repeat' first
    | with_reducible apply Kept.refl
    | with_reducible apply routerConfiguration_kept

theorem execRowSpareCopyDone_kept : ∀ {a0 a1 a2 s t}, execRowSpareCopyDone a0 a1 a2 s = .next t → Kept s t := by
  intro a0 a1 a2 s t h; unfold execRowSpareCopyDone at h; injection h with h; subst h; try dsimp only
  repeat' first
    | with_reducible apply Kept.refl
    | with_reducible apply rowSpareCopyDone_kept

theorem execAgingMeasurement_kept : ∀ {a0 a1 s t}, execAgingMeasurement a0 a1 s = .next t → Kept s t := by
  intro a0 a1 s t h; unfold execAgingMeasurement at h; injection h with h; subst h; try dsimp only
  repeat' first
    | with_reducible apply Kept.refl
    | with_reducible apply agingMeasurement_kept

theorem execDroopEvent_kept : ∀ {a0 s t}, execDroopEvent a0 s = .next t → Kept s t := by
  intro a0 s t h; unfold execDroopEvent at h; injection h with h; subst h; try dsimp only
  repeat' first
    | with_reducible apply Kept.refl
    | with_reducible apply droopEvent_kept

theorem execScrubRead_kept : ∀ {a0 a1 s t}, execScrubRead a0 a1 s = .next t → Kept s t := by
  intro a0 a1 s t h; unfold execScrubRead at h; injection h with h; subst h; try dsimp only
  repeat' first
    | with_reducible apply Kept.refl
    | with_reducible apply scrubRead_kept

theorem execPortTrainingDeadline_kept : ∀ {a0 s t}, execPortTrainingDeadline a0 s = .next t → Kept s t := by
  intro a0 s t h; unfold execPortTrainingDeadline at h; injection h with h; subst h; try dsimp only
  repeat' first
    | with_reducible apply Kept.refl
    | with_reducible apply trainingLate_kept

theorem execFlitReceived_kept : ∀ {a0 a1 s t}, execFlitReceived a0 a1 s = .next t → Kept s t := by
  intro a0 a1 s t h; unfold execFlitReceived at h; injection h with h; subst h; try dsimp only
  repeat' first
    | with_reducible apply Kept.refl
    | with_reducible apply flitArrives_kept

theorem execRetrainTimeout_kept : ∀ {a0 a1 s t}, execRetrainTimeout a0 a1 s = .next t → Kept s t := by
  intro a0 a1 s t h; unfold execRetrainTimeout at h; injection h with h; subst h; try dsimp only
  repeat' first
    | with_reducible apply Kept.refl
    | with_reducible apply retrainLate_kept

theorem execRd_kept : ∀ {a0 s t}, execRd a0 s = .next t → Kept s t := by
  intro a0 s t h; unfold execRd at h; injection h with h; subst h; try dsimp only
  repeat' first
    | with_reducible apply Kept.refl
    | with_reducible apply readRequest_kept

theorem execWr_kept : ∀ {a0 a1 s t}, execWr a0 a1 s = .next t → Kept s t := by
  intro a0 a1 s t h; unfold execWr at h; injection h with h; subst h; try dsimp only
  repeat' first
    | with_reducible apply Kept.refl
    | with_reducible apply writeRequest_kept

theorem execWrMask_kept : ∀ {a0 a1 a2 s t}, execWrMask a0 a1 a2 s = .next t → Kept s t := by
  intro a0 a1 a2 s t h; unfold execWrMask at h; injection h with h; subst h; try dsimp only
  repeat' first
    | with_reducible apply Kept.refl
    | with_reducible apply maskedWrite_kept

theorem execAtomAdd_kept : ∀ {a0 a1 a2 s t}, execAtomAdd a0 a1 a2 s = .next t → Kept s t := by
  intro a0 a1 a2 s t h; unfold execAtomAdd at h; injection h with h; subst h; try dsimp only
  repeat' first
    | with_reducible apply Kept.refl
    | with_reducible apply atomicRequest_kept

theorem execRdReg_kept : ∀ {a0 a1 s t}, execRdReg a0 a1 s = .next t → Kept s t := by
  intro a0 a1 s t h; unfold execRdReg at h; injection h with h; subst h; try dsimp only
  repeat' first
    | with_reducible apply Kept.refl
    | with_reducible apply regReadRequest_kept

theorem execWrReg_kept : ∀ {a0 a1 a2 s t}, execWrReg a0 a1 a2 s = .next t → Kept s t := by
  intro a0 a1 a2 s t h; unfold execWrReg at h; injection h with h; subst h; try dsimp only
  repeat' first
    | with_reducible apply Kept.refl
    | with_reducible apply regWriteRequest_kept

theorem execRdRsp_kept : ∀ {a0 a1 s t}, execRdRsp a0 a1 s = .next t → Kept s t := by
  intro a0 a1 s t h; unfold execRdRsp at h; injection h with h; subst h; try dsimp only
  repeat' first
    | with_reducible apply Kept.refl
    | with_reducible apply readResponse_kept

theorem execWrAck_kept : ∀ {a0 s t}, execWrAck a0 s = .next t → Kept s t := by
  intro a0 s t h; unfold execWrAck at h; injection h with h; subst h; try dsimp only
  repeat' first
    | with_reducible apply Kept.refl
    | with_reducible apply writeAck_kept

theorem execErrRsp_kept : ∀ {a0 s t}, execErrRsp a0 s = .next t → Kept s t := by
  intro a0 s t h; unfold execErrRsp at h; injection h with h; subst h; try dsimp only
  repeat' first
    | with_reducible apply Kept.refl
    | with_reducible apply errorResponse_kept

theorem execPly_kept : ∀ {a0 a1 s t}, execPly a0 a1 s = .next t → Kept s t := by
  intro a0 a1 s t h; unfold execPly at h; injection h with h; subst h; try dsimp only
  repeat' first
    | with_reducible apply Kept.refl
    | with_reducible apply plyArrives_kept

theorem execTwinTick_kept : ∀ {a0 s t}, execTwinTick a0 s = .next t → Kept s t := by
  intro a0 s t h; unfold execTwinTick at h; injection h with h; subst h; try dsimp only
  repeat' first
    | with_reducible apply Kept.refl
    | with_reducible apply twinTick_kept

theorem execRelayCmd_kept : ∀ {a0 a1 s t}, execRelayCmd a0 a1 s = .next t → Kept s t := by
  intro a0 a1 s t h; unfold execRelayCmd at h; injection h with h; subst h; try dsimp only
  repeat' first
    | with_reducible apply Kept.refl
    | with_reducible apply relayedCmd_kept

end Sys2Proof.Machine
end

