-- ==== Sys2Proof/WellFormed.lean ====
section
/-! DEFINITION. Which commands are well formed: the lengths of what a command carries, where a rule fixes them. The
meanings take any command; a malformed one stands for nothing the block's neighbours can send. -/
namespace Sys2Proof

/-- The data of a transaction fills LEN + 1 granules of 32 bytes (R49). -/
def granulesOk (h : TxnHead) (n : Nat) : Bool := decide (n = 32 * (h.len.val + 1))
/-- A mesh packet names its own source and router inside one store and carries 1 to 256 bytes (R242). -/
def meshOk (offset : BitVec 22) (n : Nat) : Bool := decide (1 ≤ n ∧ n ≤ 256 ∧ offset.toNat + n ≤ 0x400000)

/-- Well formed. -/
def Instr.wf : Instr → Bool
  | .rd h => decide (h.addr.toNat % 32 = 0)
  | .wr h data => decide (h.addr.toNat % 32 = 0) && granulesOk h data.length
  | .wrMask h _ data => decide (h.addr.toNat % 32 = 0) && granulesOk h data.length
  | .atomAdd h subop data => decide (h.addr.toNat % 32 = 0) && granulesOk h data.length && decide (subop.val ≤ 3)
  | .rdRsp h data => granulesOk h data.length
  | .ply h data => granulesOk h data.length
  | .bar4Read _ _ len => decide (1 ≤ len)
  | .bar4Write _ _ data => decide (1 ≤ data.length)
  | .storeRead _ _ offset len => meshOk offset len.val
  | .storeWrite _ _ offset bytes => meshOk offset bytes.length
  | .atomicAddAtStore _ _ offset _ bytes => meshOk offset bytes.length && decide (bytes.length % 4 = 0)
  | .multicastWrite _ _ _ offset data => decide (data.length = 256) && meshOk offset data.length
  | .soundwireSampleInstant _ _ samples => decide (samples.length ≤ 8)
  | .assign _ _ address _ => decide (address.toNat ≤ 63)
  | .chnSeqDone _ frame => decide (frame.length ≤ 256)
  | _ => true

end Sys2Proof
end

