-- ==== Sys2Proof/Tests/Slice0.lean ====
section
/-! SUPPORT. Tests. `Lab` states are small machines built from the reset state; every theorem is about one step, one operation
or the hypotheses of a statement. The expected values come from the rules of spec/ the comments name, worked out by hand. A
theorem `test_wit_…` shows a state and operands that meet the hypotheses of a clause of the statement it names. -/
namespace Sys2Proof.Tests
set_option Elab.async false
open Sys2Proof Sys2Proof.Machine Sys2Proof.Safety

/-! ### Helpers -/

/-- A submission entry of SQ 1 with CMD_ID 7: its SWATCH byte and, of each request field that is not 0, offset and value. -/
def ent (sw : Nat) (f : List (Nat × Nat)) : Entry :=
  let v := f.foldl (fun acc x => acc + x.2 * 256 ^ (x.1 - 8)) 0
  ⟨1, 0, BitVec.ofNat 8 sw, 7, 0, Vector.ofFn fun i => BitVec.ofNat 8 (v / 256 ^ i.val)⟩
/-- The next state of an outcome; the reset state of a stop. -/
def nextOf : Host.Outcome State Fault Refusal → State
  | .next t => t
  | _ => State.reset
/-- The state one command leads to. -/
def after (i : Instr) (s : State) : State := nextOf (exec i s)
/-- A swatch over one skein, or two along its course. -/
def swatchAt (c w : Fin 4) (wales : Fin 4) (st : SwSt) (cls : TickClass) : Swatch :=
  { Swatch.unset with
    st := st, course0 := c, wale0 := w, walesM1 := wales, cls := cls
    windows := [⟨0x400000 * (4 * c.val + w.val), 0x400000 * (wales.val + 1), 0, 7⟩] }
/-- A command in flight of SQ 1. -/
def ref1 : CmdRef := ⟨1, 0x77, false, 0, false, 0⟩
/-- A KNIT of program 0 for one row. -/
def knit0 : Knit := ⟨ref1, 0, 0, Vector.replicate 4 0, 1, 0, 0, 0, false, false, false, 0, 0⟩
/-- A program of two words and a pair (MAJOR 0x38). -/
def prog0 : Program := ⟨0, 0, 16, [1, 0, 0, 0, 1, 0, 0, 0, 0x38, 0, 0, 0, 0, 0, 0, 0], none⟩
/-- A machine in Taut after start-up: stack 0 on E0 and E1, the host on E4, Shuskaub on E9, every skein powered at P1; all
rings ON with one entry to take and room for completions; swatch 0 free, Knitting over skeins 0 and 1, its needle 0 running
program 0; swatch 1 hard, Cast over skein 4; swatch 2 loose, Held over skein 8. -/
def lab : State := { State.reset with
  selv := { Selv.reset with
    spwrok := true, ready := true, st := .taut, mgmtOk := true, computeOk := true, skeinsOn := 0xFFFF, rail := 1, budget := 30000
    ppoint := Vector.replicate 16 1, svn := 9 }
  boot := { Boot.reset with phase := .done }
  map := { LMap.none with
    skeins := Vector.ofFn fun k => some ⟨Fin.ofNat 20 (5 * (k.val / 4) + k.val % 4), Vector.ofFn fun j => ⟨j.val, by omega⟩⟩
    rows := 0xF, courses := 4 }
  ports := mapV State.reset.ports fun p x =>
    if p = 0 ∨ p = 1 ∨ p = 4 ∨ p = 9 then { x with st := .active, rate := 3, modules := 3, sideband := true, confirmed := true } else x
  stack := State.reset.stack.set 0 { Stack.reset with present := true, routeLo := some 0, routeHi := some 1 }
  sqs := Vector.replicate 16 { Sq.reset with fsm := ⟨true, .on, false, false⟩, cfg := 0xF0014, tail := 1 }
  cqs := Vector.replicate 16 { Cq.reset with fsm := ⟨true, .on, false, false⟩, cfg := 4, phase := true }
  turn := 1
  turnLeft := 1
  swatches := ((Vector.replicate 8 Swatch.unset).set 0
      { swatchAt 0 0 1 .knitting .free with knit := some knit0, programs := [prog0] }
    |>.set 1 { swatchAt 1 0 0 .cast .hard with programs := [prog0], budget := 1000 }).set 2
      { swatchAt 2 0 0 .held .loose with causes := [0] }
  skeins := mapV State.reset.skeins fun k x =>
    if k.val < 2 then { x with mesh := { x.mesh with swatch := some 0, walesM1 := 1 } } else x
  needles := State.reset.needles.set 0 { Needle.reset with st := .running } }
/-- `lab` without a cast swatch. -/
def bare : State := { lab with swatches := Vector.replicate 8 Swatch.unset }
/-- `lab` with needle 0 changed. -/
def labN (f : Needle → Needle) : State := lab.modNeedle 0 f
/-- `lab` with some scalar registers of needle 0. -/
def labS (l : List (Fin 32 × DWord)) : State := labN fun x => l.foldl (fun x r => x.setS r.1 r.2) x
/-- `lab` with swatch i changed. -/
def labW (i : Fin 8) (f : Swatch → Swatch) : State := lab.modSw i f
/-- Host memory with some bytes at an address of the host's. -/
def withObj (s : State) (a : Nat) (b : List Byte) : State := { s with mem := memWrite s.mem (hostBase + a) b }
/-- Whether an entry is taken and its command accepted on this die. -/
def accepts (c : Cmd) (e : Entry) (s : State) : Bool :=
  match s.takeEntry e with
  | some s1 => !(s1.sqs[e.sq]).cfg.getLsbD 12 && decide (c.check (s1.sqs[e.sq]).scope false e s1 = none)
  | none => false
/-- It says what Safety.Accepts says. -/
theorem accepts_iff (c : Cmd) (e : Entry) (s : State) : accepts c e s = true ↔ ∃ s1, Accepts c e s s1 := by
  unfold accepts
  cases h : s.takeEntry e with
  | none => simp; rintro x ⟨t, -, -⟩; simp [h] at t
  | some s1 =>
    simp only [Bool.and_eq_true, Bool.not_eq_true', decide_eq_true_eq]
    constructor
    · rintro ⟨a, b⟩
      exact ⟨s1, h, a, b⟩
    · rintro ⟨x, t, a, b⟩
      cases h.symm.trans t
      exact ⟨a, b⟩

/-! ### Well-formedness: each check refuses a term -/

def head0 : TxnHead := ⟨0, 0, 0, 0, false, 0⟩
def head32 : TxnHead := ⟨0, 0, 0, 0, false, 32⟩
def pkt0 : PktHead := ⟨0, 1, 0, .needle 0, 0⟩
/-- R49: 32-byte alignment, and LEN + 1 granules of data. -/
theorem test_wf_txn : (Instr.rd { head0 with addr := 16 }).wf = false ∧ (Instr.rd head32).wf = true ∧
    (Instr.wr head0 (List.replicate 31 0)).wf = false ∧ (Instr.wr { head0 with len := 3 } (List.replicate 128 0)).wf = true ∧
    (Instr.wr { head0 with addr := 8 } (List.replicate 32 0)).wf = false ∧
    (Instr.wrMask head0 (Vector.replicate 32 0) []).wf = false ∧
    (Instr.wrMask { head0 with addr := 1 } (Vector.replicate 32 0) (List.replicate 32 0)).wf = false ∧
    (Instr.rdRsp head0 [0]).wf = false ∧ (Instr.ply head0 (List.replicate 64 0)).wf = false := by decide +kernel
/-- R50: SUBOP of an atomic add is 0 to 3. -/
theorem test_wf_atom : (Instr.atomAdd head0 4 (List.replicate 32 0)).wf = false ∧
    (Instr.atomAdd head0 3 (List.replicate 32 0)).wf = true ∧ (Instr.atomAdd head0 0 []).wf = false ∧
    (Instr.atomAdd { head0 with addr := 31 } 0 (List.replicate 32 0)).wf = false := by decide +kernel
/-- R43: an access of no byte is none. -/
theorem test_wf_bar4 : (Instr.bar4Read 0 0 0).wf = false ∧ (Instr.bar4Write 0 0 []).wf = false ∧ (Instr.bar4Read 0 0 1).wf = true := by decide +kernel
/-- R242: 1 to 256 bytes inside one store; R246: whole words; R245: 256 bytes. -/
theorem test_wf_mesh : (Instr.storeRead 0 pkt0 0 0).wf = false ∧ (Instr.storeRead 0 pkt0 0x3FFFFF 2).wf = false ∧
    (Instr.storeWrite 0 pkt0 0 []).wf = false ∧ (Instr.storeWrite 0 pkt0 0x3FFFFF [some 1]).wf = true ∧
    (Instr.atomicAddAtStore 0 pkt0 0 false [some 1]).wf = false ∧
    (Instr.atomicAddAtStore 0 pkt0 0x3FFFFE false (List.replicate 4 (some 1))).wf = false ∧
    (Instr.multicastWrite 0 pkt0 1 0 [1]).wf = false ∧ (Instr.multicastWrite 0 pkt0 1 0x3FFFC0 (List.replicate 256 1)).wf = false := by decide +kernel
/-- R420: at most 8 channels; R452: addresses to 63; R464: frames of at most 256 bytes. -/
theorem test_wf_io : (Instr.soundwireSampleInstant 0 0 (List.replicate 9 0)).wf = false ∧ (Instr.assign 1 0 64 false).wf = false ∧
    (Instr.assign 1 0 63 false).wf = true ∧ (Instr.chnSeqDone 0 (List.replicate 257 0)).wf = false := by decide +kernel
/-- No row of the table has bits, so no word spells a command. -/
theorem test_no_word : decodeTableWord 32 0x12345 = none ∧ decodeTableWord 0 0 = none := by decide +kernel

/-! ### The step and the queue -/

theorem test_wit_idle : State.reset.pending = [] := rfl
theorem test_wit_inv : Safety.Inv State.reset := by unfold Safety.Inv; decide
/-- The front command acts on the queue's rest. -/
theorem test_step_queue : (nextOf (step { State.reset with pending := [.burstRecoveryEnd, .powerHour] })).pending = [.powerHour] := by decide +kernel

/-! ### Renaro: the commands of each family are accepted somewhere (Accepts) -/

theorem test_accepts_device :
    accepts cmdNop (ent 0xFF []) lab = true ∧ accepts cmdQueryDevice (ent 0xFF []) lab = true ∧
    accepts cmdSetDeviceState (ent 0xFF [(8, 4)]) lab = true ∧ accepts cmdSetBudget (ent 0xFF [(8, 5999), (12, 1)]) lab = true ∧
    accepts cmdSetWake (ent 0xFF [(8, 0x101)]) lab = true ∧ accepts cmdQueryPower (ent 0xFF []) lab = true ∧
    accepts cmdRestart (ent 0xFF [(8, 2)]) bare = true ∧ accepts cmdSetBootCtrl (ent 0xFF [(8, 3), (9, 1), (10, 1)]) lab = true := by decide +kernel
/-- The window list of a cast over skein 5: its store, read and write. -/
def withWins : State := withObj lab 0x2000 (leBytes 8 0x1400000 ++ leBytes 8 0x400000 ++ [0, 3])
def castEnt : Entry := ent 5 [(8, 1), (9, 1), (10, 1), (11, 1), (12, 2), (13, 2), (16, 1), (19, 1), (24, 0x2000)]
theorem test_accepts_cast : accepts cmdCastSwatch castEnt withWins = true ∧
    withWins.castWins castEnt = some [⟨0x1400000, 0x400000, 0, 3⟩] ∧ castEnt.target = some 5 := by decide +kernel
def draft1 : Draft := ⟨1, 0, 0, [], [0, 1], []⟩
theorem test_accepts_swatch :
    accepts cmdKnit (ent 1 [(10, 2), (12, 4)]) lab = true ∧
    accepts cmdStopKnit (ent 0 []) (labW 0 fun w => { w with cls := .hard }) = true ∧
    accepts cmdHoldSwatch (ent 0 []) lab = true ∧ accepts cmdRestoreSwatch (ent 2 []) lab = true ∧
    accepts cmdBindOffSwatch (ent 1 []) lab = true ∧ accepts cmdQuerySwatch (ent 7 []) lab = true ∧
    accepts cmdSetSwatchPpoint (ent 1 [(8, 2)]) lab = true ∧ accepts cmdSetSwatchGauge (ent 0 [(8, 1)]) lab = true ∧
    accepts cmdGrantDistaff (ent 1 [(8, 3), (16, 0x1000000)]) lab = true ∧
    accepts cmdReturnDistaff (ent 1 [(8, 3)]) (lab.modDst 3 fun c => { c with granted := some 1 }) = true ∧
    accepts cmdCommitDraft (ent 2 [(8, 1), (9, 1)]) (labW 2 fun w => { w with drafts := [draft1] }) = true ∧
    accepts cmdFrogDraft (ent 2 [(8, 1)]) (labW 2 fun w => { w with drafts := [draft1] }) = true := by decide +kernel
/-- A hank of one page in band 0 and its object, a program of one section without text, a one-skein stitch map of one
channel from needle 0 to needle 1, and an empty card object. -/
def withHank : State := { lab with hanks := [⟨1, 0x1000000000, 1, 0, none⟩], pages := [⟨0, 1, .hostHeld 1⟩], nextHank := 2 }
def objProg : List Byte := leBytes 4 0x4C444E58 ++ leBytes 2 1 ++ leBytes 2 1 ++ leBytes 4 0 ++ leBytes 4 48 ++
  List.replicate 16 0 ++ List.replicate 12 0 ++ leBytes 4 48
def objCard : List Byte := leBytes 4 0x44524143 ++ leBytes 2 1 ++ leBytes 6 0 ++ leBytes 4 32 ++ List.replicate 16 0
def objMap : List Byte := leBytes 4 0x4D545453 ++ leBytes 2 1 ++ [1, 1] ++ leBytes 2 1 ++ [1, 0] ++ leBytes 4 45 ++
  List.replicate 16 0 ++ [0, 0, 0, 1, 0, 0, 0, 0] ++ [0, 0xFF, 0xFF, 0xFF, 0xFF]
theorem test_accepts_memory :
    accepts cmdQueryMemory (ent 0xFF []) lab = true ∧
    accepts cmdAllocHanks (ent 0xFF [(8, 3)]) lab = true ∧ accepts cmdAllocHanks (ent 1 [(8, 1)]) lab = true ∧
    accepts cmdFreeHanks (ent 0xFF [(8, 1)]) withHank = true ∧
    accepts cmdMemFill (ent 1 [(8, 0x1000000), (16, 64), (24, 0xA5)]) lab = true ∧
    accepts cmdMemCopy (ent 1 [(8, 0x1000000), (16, 0x1000040), (24, 64)]) lab = true := by decide +kernel
theorem test_accepts_loads :
    accepts cmdLoadProgram (ent 1 [(8, 0x2000), (16, 48)]) (withObj lab 0x2000 objProg) = true ∧
    accepts cmdUnloadProgram (ent 1 []) lab = true ∧
    accepts cmdLoadCardProgram (ent 0xFF [(8, 0x2000), (16, 32), (24, 1)]) (withObj lab 0x2000 objCard) = true ∧
    accepts cmdLoadCardProgram (ent 1 [(8, 0x2000), (16, 32), (20, 0x100)]) (withObj lab 0x2000 objCard) = true ∧
    accepts cmdLoadStitchMap (ent 1 [(8, 0x2000), (16, 45)]) (withObj lab 0x2000 objMap) = true := by decide +kernel
/-- A ring of two slots of 256-byte frames in skein 0's store; CSI-2 port 0 enabled with one lane at 800 Mb/s. -/
def withRing : State :=
  let s : State := { lab with io := { lab.io with csiCfg := lab.io.csiCfg.set 0 0x821 } }
  { s with mem := memWrite s.mem 0 (leBytes 4 0x4E424F42 ++ leBytes 2 1 ++ [0, 1] ++ leBytes 4 256 ++ leBytes 4 (strideOf 256)) }
def bobOn (f : Bobbin → Bobbin) : State := lab.modBob 0 fun b => f { b with bound := true, fsm := ⟨true, .on, false, false⟩ }
theorem test_accepts_stream :
    accepts cmdBindBobbin (ent 0xFF [(13, 1), (16, 256)]) withRing = true ∧
    accepts cmdUnbindBobbin (ent 0xFF []) (bobOn id) = true ∧ accepts cmdRunBobbin (ent 0xFF [(9, 1)]) (bobOn id) = true ∧
    accepts cmdQueryBobbin (ent 0xFF [(8, 47)]) lab = true ∧
    accepts cmdQueryTick (ent 0xFF []) lab = true ∧ accepts cmdSetTickPeriod (ent 0xFF [(8, 5000)]) lab = true ∧
    accepts cmdSetTickPeriod (ent 0xFF [(8, 10000000)]) lab = true ∧ accepts cmdSetTickPeriod (ent 0xFF [(8, 4999)]) lab = false ∧
    accepts cmdWaitTick (ent 0xFF [(8, 5)]) lab = true := by decide +kernel
theorem test_accepts_repair :
    accepts cmdQueryHealth (ent 0xFF []) lab = true ∧ accepts cmdRunCensus (ent 0xFF [(8, 1)]) bare = true ∧
    accepts cmdReadMap (ent 0xFF [(8, 0x1000)]) lab = true ∧ accepts cmdReadDistance (ent 0xFF [(8, 0x1000)]) lab = true ∧
    accepts cmdPortReenable (ent 0xFF [(8, 2)]) (bare.modPort 2 fun x => { x with st := .down }) = true ∧
    accepts cmdSetRepairCtrl (ent 0xFF [(8, 1), (9, 1), (12, 0x0010050A)]) lab = true := by decide +kernel
def owner1 : Owner := ⟨List.replicate 64 0, 0, 1⟩
/-- A tally adopted once: YD_ADOPTIONS 1, an owner and a tag master key of that adoption. -/
def adopted (tmk : Option (BitVec 128 × Word)) : State := { lab with tally := { lab.tally with
  slots := lab.tally.slots.set 5 (⟨1, 0, true⟩, ⟨0, 0, true⟩), owners := [owner1], tagMaster := tmk } }
theorem test_accepts_tally :
    accepts cmdAttest (ent 0xFF [(48, 288)]) lab = true ∧
    accepts cmdAdopt (ent 0xFF [(8, 0x2000)]) (withObj lab 0x2000 (leBytes 4 0x50444F41 ++ leBytes 2 1 ++ leBytes 2 228)) = true ∧
    accepts cmdLoadTagMaster (ent 0xFF [(8, 0x2000)]) (withObj (adopted none) 0x2000 (leBytes 4 0x4D474154 ++ leBytes 2 1)) = true ∧
    accepts cmdReadYardage (ent 0xFF [(8, 8), (9, 8)]) lab = true ∧ accepts cmdReadYardage (ent 0xFF [(8, 9), (9, 8)]) lab = false ∧
    accepts cmdAddYardage (ent 0xFF [(8, 15), (12, 1)]) lab = true ∧
    accepts cmdRaiseSvn (ent 0xFF [(8, 9), (16, 0x2000)])
      (withObj (adopted none) 0x2000 (leBytes 4 0x4E565352 ++ leBytes 2 1 ++ leBytes 2 9)) = true := by decide +kernel
theorem test_accepts_chain :
    accepts cmdTagProve (ent 0xFF [(8, 1)]) (adopted (some (5, 1))) = true ∧
    accepts cmdTagIncrement (ent 0xFF [(8, 62), (12, 3)]) (adopted (some (5, 1))) = true ∧
    accepts cmdTagProve (ent 0xFF [(8, 63)]) (adopted (some (5, 1))) = false ∧
    accepts cmdChainSearch (ent 0xFF []) lab = true ∧ accepts cmdChainList (ent 0xFF []) lab = true ∧
    accepts cmdChainPing (ent 0xFF [(8, 62)]) lab = true ∧ accepts cmdChainConfig (ent 0xFF [(9, 2), (10, 5)]) lab = true ∧
    accepts cmdQueryInnerChain (ent 0xFF []) lab = true := by decide +kernel
/-- EDGE of port 2: block class 4, instance 2. -/
def grant2 (waiting : Option CmdRef) : Grant := ⟨0x2002, .host 0, waiting, []⟩
theorem test_accepts_expert :
    accepts cmdExpertGrant (ent 0xFF [(8, 0x2002)]) lab = true ∧
    accepts cmdExpertRelease (ent 0xFF [(8, 0x2002)]) { lab with grants := [grant2 none] } = true ∧
    ({ lab with grants := [grant2 none] } : State).grantOf 0x2002 = some (grant2 none) ∧
    accepts cmdQueryGrant (ent 0xFF [(8, 0x2002)]) lab = true ∧ accepts cmdDebugEcho (ent 0xFF [(8, 77)]) lab = true ∧
    accepts cmdDebugReadLog (ent 0xFF [(16, 64)]) lab = true ∧ accepts cmdDebugReadReg (ent 0xFF [(8, 0x10000000)]) lab = true ∧
    accepts cmdDebugSetLog (ent 0xFF [(8, 3)]) lab = true := by decide +kernel
/-- FW_UPDATE needs an image whose signature verifies, which no rule makes computable here (log 16): accepted where it does. -/
theorem test_accepts_fw : ((cmdFwUpdate.bad (ent 0xFF [(24, 196608)]) lab = []) ∧ cmdFwUpdate.object (ent 0xFF [(24, 196608)]) lab = none ∧
    cmdFwUpdate.state (ent 0xFF []) lab = none) ∧ cmdFwUpdate.bad (ent 0xFF [(24, 196609)]) lab = [24] := by decide +kernel

/-! ### Renaro: the clauses of RenaroChecksAndReplies and RingLife -/

/-- No entry can be taken at reset; one that waits on FENCE is not taken; an empty ring gives none. -/
theorem test_wit_take : State.reset.takeEntry (ent 0xFF []) = none ∧
    (lab.modSq 1 fun q => { q with inflight := 1 }).takeEntry { ent 0xFF [] with flags := 1 } = none ∧
    (lab.takeEntry (ent 0xFF [])).isSome = true ∧ (lab.takeEntry { ent 0xFF [] with sq := 2 }) = none := by decide +kernel
/-- The relay: SCOPE_DIE of the ring set. -/
theorem test_wit_scope_die : ((lab.modSq 1 fun q => { q with cfg := q.cfg ||| 0x1000 }).takeEntry (ent 0xFF [])).isSome = true ∧
    ((lab.modSq 1 fun q => { q with cfg := q.cfg ||| 0x1000 }).sqs[1]).cfg.getLsbD 12 = true := by decide +kernel
/-- The checks of R123 in order, at their boundaries: reserved flags, SWATCH, an unused byte, a field out of range; a scope that
does not allow the command; a state; the compute service; a resource. -/
theorem test_checks : cmdNop.check 15 false { ent 0xFF [] with flags := 4 } lab = some (stInvalidParam, 2) ∧
    cmdNop.check 15 false (ent 0 []) lab = some (stInvalidParam, 3) ∧
    cmdNop.check 15 false (ent 0xFF [(63, 1)]) lab = some (stInvalidParam, 63) ∧
    cmdKnit.check 15 false (ent 8 []) lab = some (stInvalidParam, 3) ∧
    cmdSetTickPeriod.check 15 false (ent 0xFF [(8, 10000001)]) lab = some (stInvalidParam, 8) ∧
    cmdNop.check 0 false (ent 0xFF []) lab = none ∧ cmdRestart.check 0 false (ent 0xFF []) lab = some (stNotPermitted, 0) ∧
    cmdRestart.check 15 false (ent 0xFF []) lab = some (stConflict, 1) ∧
    cmdKnit.check 15 false (ent 1 [(10, 1)]) { lab with selv := { lab.selv with computeOk := false } } = some (stConflict, 3) ∧
    cmdKnit.check 15 false (ent 1 [(8, 3), (10, 1)]) lab = some (stNotFound, 0) := by decide +kernel
/-- NOP is answered: one entry at the CQ's tail, its CMD_ID, status OK, PHASE 1 (R113). -/
theorem test_nop_reply :
    memRead (after (.nop (ent 0xFF [])) lab).mem hostBase 6 = [7, 0, 0, 0, 1, 0x80] ∧
    ((after (.nop (ent 0xFF [])) lab).cqs[1]).tail = 1 := by decide +kernel
/-- At the wrap of a ring of 16 entries the tail is 0 and PHASE inverted (R113, R117). -/
theorem test_phase_wrap :
    let s := lab.modCq 1 fun c => { c with tail := 15, head := 14 }
    ((after (.nop (ent 0xFF [])) s).cqs[1]).tail = 0 ∧ ((after (.nop (ent 0xFF [])) s).cqs[1]).phase = false := by decide +kernel
theorem test_wit_reply : (lab.sqs[ref1.sq]).epoch = ref1.epoch ∧ lab.tripped = false ∧ (lab.cqs[1]).onTwin = false ∧
    (lab.cqs[1]).fsm.st = .on ∧ (lab.cqs[1]).held = [] ∧ lab.canPost 1 = true ∧ (lab.fns[lab.ringFn 1]).resetting = false := by
  decide +kernel
/-- Ring control: the owning function alone; a valid and an invalid configuration of an OFF ring (R109). -/
def offRing (cfg : Word) : State := lab.modSq 3 fun q => { q with fsm := EnFsm.off, cfg := cfg }
theorem test_wit_ring : lab.mayControl 0 (.sq 3) = true ∧ lab.mayControl 1 (.sq 3) = false ∧ (offRing 0xF0014).sqValid 3 = true ∧
    (offRing 0xF0000).sqValid 3 = false ∧ (lab.modCq 3 fun c => { c with fsm := EnFsm.off }).cqValid 3 = true ∧
    (lab.ringFsm (.sq 3)).st = .on := by decide +kernel
theorem test_wit_ring_moves :
    let rising (d : Bool) (b : Half) := lab.modSq 3 fun q => { q with fsm := ⟨true, .rising, false, d⟩, rung := d, doorbell := b }
    ((rising true 0).ringFsm (.sq 3)).st = .rising ∧ ((rising true 0).ringFsm (.sq 3)).pendDis = true ∧
    ((rising true 15).sqs[(3 : Fin 16)]).doorbell.toNat < ringSize ((rising true 15).sqs[(3 : Fin 16)]).cfg ∧
    ((lab.modSq 3 fun q => { q with fsm := ⟨false, .falling, false, false⟩ }).sqs[(3 : Fin 16)]).inflight = 0 := by decide +kernel
/-- A doorbell inside the ring moves the tail, one at its size stops the ring with INDEX (R110, R116). -/
theorem test_doorbell : ((after (.sqDoorbell 0 3 15) lab).sqs[3]).tail = 15 ∧ ((after (.sqDoorbell 0 3 16) lab).sqs[3]).faultKind = 2 ∧
    ((after (.sqDoorbell 0 3 16) lab).sqs[3]).tail = 1 ∧
    (after (.sqDoorbell 0 3 5) { lab with selv := { lab.selv with ready := false } }).selv.badAccess = 1 := by decide +kernel
theorem test_wit_doorbell : lab.fnExists 0 = true ∧ (lab.fns[0]).d3hot = false ∧ lab.ringFn 3 = 0 ∧ lab.ringFn 3 ≠ 1 ∧
    (lab.sqs[3]).distaffOwned = false ∧ (∀ g : Fin 2, (lab.fns[g]).events = []) := by decide +kernel
/-- With two HOST ports the upper rings are function 1's. -/
theorem test_wit_two_fns : ({ lab with fuses := { lab.fuses with hostPorts := 2 } } : State).ringFn 8 = 1 ∧
    ({ lab with fuses := { lab.fuses with hostPorts := 2 } } : State).fnExists 1 = true ∧ lab.fnExists 1 = false := by decide +kernel
theorem test_wit_relay : let s : State := { lab with jobs := [({ ref1 with cmdId := 0 }, 0x105, [])] }
    s.jobs = [({ ref1 with cmdId := 0 }, 0x105, [])] ∧ s.tick.twinDone = none ∧ lab.fuses.hostPorts ≠ 2 ∧
    ((s.modSq 1 fun q => { q with cfg := q.cfg ||| 0x1000 }).sqs[1]).cfg.getLsbD 12 = true := by decide +kernel

/-! ### Needles: the hypotheses of issue -/

/-- Needle 0 of `lab` may issue any instruction of 4 bytes, whatever it names. -/
theorem test_wit_may_issue (l r : List (Fin 32)) : MayIssue lab 0 4 l r :=
  ⟨by decide +kernel, by decide +kernel, by decide +kernel, by decide +kernel, rfl⟩
/-- And any pair. -/
theorem test_wit_may_issue_pair (l r : List (Fin 32)) : MayIssue lab 0 8 l r :=
  ⟨by decide +kernel, by decide +kernel, by decide +kernel, by decide +kernel, rfl⟩
/-- R288, R272, R274: a needle that does not run, a PC at TEXT_LEN, a second word, a misaligned pair. -/
theorem test_wit_no_issue : lab.mayIssue 1 = false ∧ (labN fun x => { x with pc := 16 }).textLen 0 ≤ 16 ∧
    (labN fun x => { x with pc := 16 }).mayIssue 0 = true ∧ lab.secondWord 0 12 = true ∧ lab.secondWord 0 8 = false ∧
    (labN fun x => { x with pc := 4 }).mayIssue 0 = true := by decide +kernel
def sOf (s : State) (i : Fin 32) : DWord := (s.needles[(0 : Fin 96)]).s[i]
/-- R275: ADD wraps; s0 ignores a write; DIV by 0 and the overflow corner; SHL by 64 is by 0; MULH of -1 and -1 is 0. -/
theorem test_add_wraps : sOf (after (.add 0 5 1 2) (labS [(1, -1), (2, 3)])) 5 = 2 ∧
    sOf (after (.add 0 0 1 2) (labS [(1, 1), (2, 3)])) 0 = 0 := by decide +kernel
theorem test_div_corners : sOf (after (.div 0 5 1 2) (labS [(1, 7)])) 5 = -1 ∧
    sOf (after (.div 0 5 1 2) (labS [(1, 0x8000000000000000), (2, -1)])) 5 = 0x8000000000000000 ∧
    sOf (after (.div 0 5 1 2) (labS [(1, -7), (2, 2)])) 5 = -3 := by decide +kernel
theorem test_rem_corners : sOf (after (.rem 0 5 1 2) (labS [(1, 7)])) 5 = 7 ∧ sOf (after (.rem 0 5 1 2) (labS [(1, -7), (2, 2)])) 5 = -1 := by
  decide +kernel
theorem test_shl_amount : sOf (after (.shl 0 5 1 2) (labS [(1, 3), (2, 65)])) 5 = 6 := by decide +kernel
theorem test_mulh : sOf (after (.mulh 0 5 1 2) (labS [(1, -1), (2, -1)])) 5 = 0 := by decide +kernel
theorem test_slt : sOf (after (.slt 0 5 1 2) (labS [(1, -1), (2, 1)])) 5 = 1 ∧ sOf (after (.sltu 0 5 1 2) (labS [(1, -1), (2, 1)])) 5 = 0 := by
  decide +kernel
/-- R275: 1.5 + 1 = 2.5 and 2 * 3 = 6 in binary32; FMA adds to RD; FCVT both ways, a NaN to 0. -/
theorem test_fadd : sOf (after (.fadd 0 5 1 2) (labS [(1, 0x3FC00000), (2, 0x3F800000)])) 5 = 0x40200000 := by decide +kernel
theorem test_fmul : sOf (after (.fmul 0 5 1 2) (labS [(1, 0x40000000), (2, 0x40400000)])) 5 = 0x40C00000 := by decide +kernel
theorem test_fma : sOf (after (.fma 0 5 1 2) (labS [(1, 0x40000000), (2, 0x40400000), (5, 0x3F800000)])) 5 = 0x40E00000 := by
  decide +kernel
theorem test_fcvt : sOf (after (.fcvt 0 true 5 1) (labS [(1, -2)])) 5 = 0xC0000000 ∧
    sOf (after (.fcvt 0 false 5 1) (labS [(1, 0xC0200000)])) 5 = -2 ∧ sOf (after (.fcvt 0 false 5 1) (labS [(1, 0x7FC00000)])) 5 = 0 := by
  decide +kernel
theorem test_addi : sOf (after (.addi 0 5 1 0xFFFF) (labS [(1, 1)])) 5 = 0 := by decide +kernel
theorem test_lui : sOf (after (.lui 0 5 0x8000) lab) 5 = 0xFFFFFFFF80000000 := by decide +kernel
theorem test_shift_imm : sOf (after (.shiftImmediate 0 5 1 0x82) (labS [(1, -8)])) 5 = -2 ∧
    ((after (.shiftImmediate 0 5 1 0xC2) lab).needles[0]).fault = 1 := by decide +kernel
/-- R286: a taken and an untaken branch; R274: to the second word of a pair it faults with CAUSE 7 and has no effect. -/
theorem test_branch : ((after (.brEq 0 1 2 2) lab).needles[0]).pc = 8 ∧ ((after (.brNe 0 1 2 2) lab).needles[0]).pc = 4 := by decide +kernel
theorem test_branch_mid : ((after (.brEq 0 1 2 3) lab).needles[0]).fault = 7 ∧ ((after (.brEq 0 1 2 3) lab).needles[0]).retired = 0 ∧
    ((after (.jal 0 5 3) lab).needles[0]).fault = 7 ∧ sOf (after (.jal 0 5 3) lab) 5 = 0 := by decide +kernel
theorem test_jalr_same : sOf (after (.jalr 0 5 5 3) (labS [(5, 8)])) 5 = 4 ∧ ((after (.jalr 0 5 5 3) (labS [(5, 8)])).needles[0]).pc = 8 := by
  decide +kernel
/-- R288: an illegal instruction records cause and PC. -/
theorem test_illegal : ((after (.illegalInstruction 0) (labN fun x => { x with pc := 4 })).needles[0]).fault = 0x401 ∧
    ((after (.illegalInstruction 0) lab).needles[0]).st = .faulted := by decide +kernel
theorem test_wit_flag_fault : (labN fun x => { x with faultFlag := 0x40 }).needles[(0 : Fin 96)].faultFlag.getLsbD 6 = true ∧
    lab.swatchOf (skeinOf 0) = some 0 := by decide +kernel
/-- R273: the word of ADD s5, s1, s2 from the field table; an undefined MAJOR. -/
theorem test_needle_word : needleWord 0 (1 + 5 * 64 + 1 * 2048 + 2 * 65536) 0 = execAdd 0 5 1 2 ∧ fld (0x3F : Word) 5 0 = 0x3F := by
  constructor <;> rfl

/-- R396 and the worked example of 15: DST.FLAG WAIT_GE x10, x11, x12; an undefined funct3; another major opcode. -/
theorem test_distaff_word (s : State) : distaffWord 1 0x04C5B50B s = some (execDstFlagWaitGe 1 10 11 12 s) ∧
    distaffWord 1 0x0000400B s = some (.next (s.coreIllegal 1)) ∧ distaffWord 1 0x33 s = none := ⟨rfl, rfl, rfl⟩

/-! ### Vectors, predicates, reductions, control registers -/

def vN (f : Fin 64 → Word) (g : Fin 64 → Word) : State := labN fun x => (x.setV 1 (Vector.ofFn f)).setV 2 (Vector.ofFn g)
def vOf (s : State) (i : Fin 32) (k : Fin 64) : Word := ((s.needles[(0 : Fin 96)]).v[i])[k]
def everyLane : Pred := ⟨false, false, 0⟩
/-- R276: INT32 wraps; a binary16 pair of ones sums to twos; lanes the predicate leaves out keep their value. -/
theorem test_vadd : vOf (after (.vadd 0 .int32 everyLane false 3 1 2) (vN (fun _ => 0xFFFFFFFF) fun k => BitVec.ofNat 32 k.val)) 3 5 = 4 ∧
    vOf (after (.vadd 0 .fp16 everyLane false 3 1 2) (vN (fun _ => 0x3C003C00) fun _ => 0x3C003C00)) 3 0 = 0x40004000 := by decide +kernel
theorem test_vmul_pred : vOf (after (.vmul 0 .int32 ⟨true, false, 0⟩ false 3 1 2) (vN (fun _ => 3) fun _ => 5)) 3 0 = 0 := by decide +kernel
theorem test_vcvt : vOf (after (.vcvt 0 .int32 everyLane 3 1 1) (vN (fun _ => 3) fun _ => 0)) 3 9 = 0x40400000 ∧
    ((after (.vcvt 0 .int32 everyLane 3 1 4) lab).needles[0]).fault = 1 := by decide +kernel
theorem test_wit_vcvt : vtOf 3 = some .bf16 ∧ vtCount .int32 = vtCount .fp32 ∧ vtCount .fp32 ≠ vtCount .fp16 := by decide +kernel
/-- R537: SLIDEUP leaves the lanes below the amount, SLIDEDN writes 0 above. -/
theorem test_slide : vOf (after (.slideup 0 everyLane 3 1 4) ((vN (fun k => BitVec.ofNat 32 k.val) fun _ => 0).modNeedle 0 fun x => x.setS 4 2)) 3 7 = 5 ∧
    vOf (after (.slidedn 0 everyLane 3 1 4) ((vN (fun k => BitVec.ofNat 32 k.val) fun _ => 0).modNeedle 0 fun x => x.setS 4 2)) 3 62 = 0 := by
  decide +kernel
theorem test_laneget : sOf (after (.laneget 0 5 1 4) ((vN (fun k => BitVec.ofNat 32 (k.val + 7)) fun _ => 0).modNeedle 0 fun x => x.setS 4 65)) 5 = 8 := by
  decide +kernel
/-- R537: a compare, its predicate; RD above 7 is illegal; a NaN is not less. -/
theorem test_pred_lt : ((after (.predLt 0 .signed everyLane 1 1 2) (vN (fun k => BitVec.ofNat 32 k.val) fun _ => 2)).needles[0]).p[1] = 3 ∧
    ((after (.predLt 0 .signed everyLane 8 1 2) lab).needles[0]).fault = 1 := by decide +kernel
theorem test_wit_nan : dec32 0x7FC00000 = .nan := by decide +kernel
theorem test_first_count : sOf (after (.first 0 5 0) lab) 5 = 64 ∧
    sOf (after (.count 0 5 2) (labN fun x => x.setP 2 0xF0)) 5 = 4 ∧ sOf (after (.first 0 5 2) (labN fun x => x.setP 2 0xF0)) 5 = 4 := by
  decide +kernel
/-- R278: SUM of INT32 lanes; with no lane admitted and ACC = 0, MAX writes 0xFFC0_0000. -/
theorem test_sum : sOf (after (.sum 0 true false everyLane 5 1) (vN (fun _ => 0xFFFFFFFF) fun _ => 0)) 5 = -64 := by decide +kernel
theorem test_red_empty : sOf (after (.redMax 0 true false ⟨true, false, 0⟩ 5 1) lab) 5 = 0xFFC00000 ∧
    ((after (.meanvar 0 false false everyLane 31 1) lab).needles[0]).fault = 1 := by decide +kernel
theorem test_argmax : sOf (after (.argmax 0 true false everyLane 5 1 0) (vN (fun k => if k.val = 9 ∨ k.val = 11 then 8 else 1) fun _ => 0)) 5 = 0x900000008 := by
  decide +kernel
theorem test_wit_reduce : ((lab.needles[(0 : Fin 96)]).admits everyLane 0) = true ∧ ((lab.needles[(0 : Fin 96)]).admits ⟨true, false, 0⟩ 0) = false ∧
    (fpSum false false 0 ((lab.needles[(0 : Fin 96)]).admitted everyLane 1)).isSome = true ∧ ((lab.needles[(0 : Fin 96)]).lo 0).toNat + 63 < 2 ^ 32 := by
  decide +kernel
/-- R287 and the CSR table: NEEDLE_ID of needle 0, CSRW of DRAFT, an RO index. -/
theorem test_csrr : sOf (after (.csrr 0 5 2) (labN fun x => { x with ignoreNan := true })) 5 = 1 ∧
    ((after (.csrr 0 5 7) lab).needles[0]).fault = 1 := by decide +kernel
theorem test_csrw : ((after (.csrw 0 1 1) (labS [(1, 0x1FF)])).needles[0]).draft = 0x1FF ∧ ((after (.csrw 0 1 0) lab).needles[0]).fault = 1 := by
  decide +kernel
/-- R287: HALT; TICKWAIT in a free swatch waits for the next tick, of a row reached it writes it, in a hard one it ends the row. -/
theorem test_tickwait : ((after (.tickwait 0 5 0) lab).needles[0]).wait = .tick 5 1 true ∧
    ((after (.tickwait 0 5 1) (labS [(1, 4)])).needles[0]).wait = .tick 5 4 false := by decide +kernel
theorem test_wit_tickwait : lab.inHard 0 = false ∧ (labW 0 fun w => { w with cls := .hard }).inHard 0 = true ∧ lab.swatchRuns 0 = true ∧
    (labW 0 fun w => { w with st := .held }).swatchRuns 0 = false ∧ (0 : DWord).toNat ≤ lab.tick.count.toNat ∧
    lab.tick.count.toNat < (1 : DWord).toNat := by decide +kernel
theorem test_halt : ((after (.halt 0) lab).needles[0]).st = .halted ∧ ((after (.halt 0) lab).needles[0]).pc = 4 := by decide +kernel

/-! ### Needles: faults, barriers, flags, accesses -/

/-- R288 packs cause and PC; FAULT_FLAG enabled sends a flag ADD; a bad access is shown in SWT_STATUS. -/
theorem test_needle_fault : ((lab.needleFault 0 3 8 0x123).needles[0]).fault = 0x803 ∧ ((lab.needleFault 0 3 8 0x123).swatches[0]).status = 0x20 ∧
    ((lab.needleFault 0 2 8 0x123).swatches[0]).status = 0 ∧
    ((labN fun x => { x with faultFlag := 0x0000000500000043 }).needleFault 0 2 8 0).out.getLast? =
      some (.flagOp ⟨0, 0, 0, .needle 0, 0⟩ .add 3 5) := by decide +kernel
/-- A barrier of needles 0 and 1 of skein 0 at its home, needle 0 arrived. -/
def withBar (arrived : List (Fin 96)) : State :=
  lab.modMesh 0 fun m => { m with barriers := m.barriers.set 3 ⟨1, 3, true, false, arrived⟩ }
theorem test_wit_barrier : (((withBar []).skeins[(0 : Fin 16)]).mesh).refuses pkt0 [0] false = none ∧
    needleOf 0 0 ∉ ((((withBar []).skeins[(0 : Fin 16)]).mesh).barriers[(2 : Fin 16)]).members ∧
    ((((withBar []).skeins[(0 : Fin 16)]).mesh).barriers[(3 : Fin 16)]).members = [0, 1] ∧ pkt0.dst = 1 := by decide +kernel
def pktHome : PktHead := ⟨0, 0, 0, .needle 0, 0⟩
/-- R248: one arrival of two is kept; the second releases both and GEN toggles; a stray is released and recorded. -/
theorem test_barrier : (((after (.barrierArrival 0 pktHome 3) (withBar [])).skeins[0]).mesh).barriers[3].arrived = [0] ∧
    (after (.barrierArrival 0 pktHome 3) (withBar [1])).out = [.barrierRelease 0 3, .barrierRelease 1 3] ∧
    (((after (.barrierArrival 0 pktHome 3) (withBar [1])).skeins[0]).mesh).barriers[3].gen = true ∧
    (after (.barrierArrival 0 pktHome 5) (withBar [])).out = [.barrierRelease 0 5] := by decide +kernel
theorem test_wit_release : ((labN fun x => { x with wait := .barrier 3 }).needles[(0 : Fin 96)]).wait = .barrier 3 ∧
    (lab.needles[(0 : Fin 96)]).wait ≠ .barrier 3 := by decide +kernel
theorem test_bar : (after (.bar 0 15) lab).out = [.barrierArrive ⟨0, 0, 0, .needle 0, 0⟩ 15] ∧
    ((after (.bar 0 16) lab).needles[0]).fault = 1 := by decide +kernel
/-- R249: an ADD wraps modulo 2^32 and answers the old value; a wait whose condition holds, and one at the boundary. -/
theorem test_flag_add : let s := lab.modMesh 0 fun m => { m with flags := m.flags.set 5 0xFFFFFFFF }
    (((after (.flagOperation 0 pktHome .add 5 2) s).skeins[0]).mesh).flags[5] = 1 ∧
    (after (.flagOperation 0 pktHome .add 5 2) s).out = [.flagReply pktHome.back false 0xFFFFFFFF] ∧
    (after (.flagOperation 0 pktHome .waitGe 5 0xFFFFFFFF) s).out = [.flagReply pktHome.back false 0xFFFFFFFF] ∧
    (after (.flagOperation 0 pktHome .waitEq 5 0) s).out = [] := by decide +kernel
theorem test_wit_flags : ((lab.skeins[(0 : Fin 16)]).mesh).refuses pktHome [0] false = none ∧ ((lab.skeins[(0 : Fin 16)]).mesh).waits = [] ∧
    (1 : Word).toNat > (((lab.skeins[(0 : Fin 16)]).mesh).flags[(5 : Fin 64)]).toNat := by decide +kernel
/-- Needle 0 of `lab` names an address of its own store, the last bytes of it, one of skein 1 and a misaligned one. -/
theorem test_wit_own : lab.region 0x3FFFFC = .store (skeinOf 0) ∧ mAddr (lab.needles[(0 : Fin 96)]) 0 0 8 = 0 ∧
    mAddr ((labS [(1, 0x3FFFF8)]).needles[(0 : Fin 96)]) 1 1 4 = 0x3FFFFC ∧ 0x3FFFFC + 4 ≤ 0x400000 ∧
    mAddr ((labS [(1, 1)]).needles[(0 : Fin 96)]) 1 0 4 % 4 ≠ 0 ∧ mAddr ((labS [(1, 0x3FFF00)]).needles[(0 : Fin 96)]) 1 0 64 + 256 ≤ 0x400000 ∧
    mAddr ((labS [(1, 32)]).needles[(0 : Fin 96)]) 1 0 64 % 64 ≠ 0 ∧ lab.region 0x400000 = .store 1 ∧ (lab.swatches[(0 : Fin 8)]).covers 1 = true ∧
    lab.slotsUsed 0 true < 64 ∧ lab.slotsUsed 0 false < 64 := by decide +kernel
/-- A store of 4 bytes at the store's end: one access at its bank with the register's bytes. -/
theorem test_sst : ((after (.sst 0 2 1 2 1) (labS [(1, 0x3FFFF8), (2, 0x11223344)])).accesses.map fun a => (a.path, a.addr, a.op)) =
    [(.bank 0 15, 0x3FFFFC, .write [some 0x44, some 0x33, some 0x22, some 0x11])] := by decide +kernel
theorem test_sld_misaligned : ((after (.sld 0 2 1 2 false 0) (labS [(1, 2)])).needles[0]).fault = 2 ∧
    ((after (.sstAtomicAdd 0 2 1 1 false 0) lab).needles[0]).fault = 1 := by decide +kernel
theorem test_sst_other_store : (after (.sst 0 2 1 0 0) (labS [(1, 0x400007), (2, 9)])).out =
    [.storeWrite ⟨0, 1, 0, .needle 0, 0⟩ 7 [some 9]] := by decide +kernel
/-- Feed transfers: lengths 64 and 4096 and buffers' ends; one too long; an address out of range. -/
theorem test_wit_feed : feedOk 0xFFC0 64 = true ∧ feedOk 0x1F000 4096 = true ∧ feedOk 0xFFC0 128 = false ∧ lab.feedDue 0 0 4096 = false ∧
    (((labS [(3, 4096)]).needles[(0 : Fin 96)]).sr 3).toNat = 4096 := by decide +kernel
theorem test_feed_ld : (after (.feedLd 0 5 1 2) (labS [(1, 0), (2, 128), (5, 0x10000)])).accesses.length = 2 ∧
    ((after (.feedLd 0 5 1 2) (labS [(2, 63)])).needles[0]).fault = 2 := by decide +kernel
theorem test_wit_vput : (0xFF00 : Nat) < 0x20000 ∧ 0xFF00 % 64 = 0 ∧ 0xFF00 % 0x10000 + 256 ≤ 0x10000 ∧ ¬ (0xFF40 % 0x10000 + 256 ≤ 0x10000) ∧
    lab.feedDue 0 0xFF00 256 = false := by decide +kernel
theorem test_vput_vget : vOf (after (.vget 0 7 5) (after (.vput 0 5 1) (labN fun x => (x.setS 5 0x1FF00).setV 1 (Vector.ofFn fun k => BitVec.ofNat 32 (1000 + k.val))))) 7 63 = 1063 ∧
    ((after (.vput 0 5 1) (labS [(5, 0xFF40)])).needles[0]).fault = 2 := by decide +kernel
/-- One access of needle 0 outstanding: a load of its own store into s5, at bank 0. -/
def acc0 (op : AccOp) (dest : Dest) (path : Path) : Access := ⟨0, .needle 0, path, .needle, 0, op, dest, none, 0, true, false⟩
def withAcc (a : Access) : State := { lab with accesses := [a], nextAccess := 1 }
theorem test_wit_fences : lab.ownStores 0 = false ∧ lab.anyOf 0 = false ∧ ((lab.needles[(0 : Fin 96)]).bed).drains = [] ∧
    (withAcc (acc0 (.write [some 1]) .none (.bank 0 0))).ownStores 0 = true ∧
    (withAcc (acc0 (.read 4) (.sreg 5 2 false) (.bank 0 0))).anyOf 0 = true := by decide +kernel
theorem test_fence : ((after (.fenceL 0) (withAcc (acc0 (.write [some 1]) .none (.bank 0 0)))).needles[0]).wait = .fenceL ∧
    ((after (.fenceL 0) lab).needles[0]).pc = 4 ∧
    ((after (.fenceY 0) (withAcc (acc0 (.read 4) (.sreg 5 2 false) (.bank 0 0)))).needles[0]).wait = .fenceY := by decide +kernel

/-! ### The mesh and the banks -/

theorem test_wit_packets : ((lab.skeins[(0 : Fin 16)]).mesh).refuses pkt0 [1] false = none ∧ (0 : Fin 16) ≠ pkt0.dst ∧
    ((lab.skeins[(1 : Fin 16)]).mesh).refuses pkt0 [1] false = none ∧ ((lab.skeins[(4 : Fin 16)]).mesh).refuses pkt0 [1] false ≠ none := by
  decide +kernel
def backHead : PktHead := ⟨1, 0, 0, .needle 0, 0⟩
theorem test_wit_answer : ((lab.skeins[(0 : Fin 16)]).mesh).refuses backHead [0] false = none ∧ (backHead.issuer = .needle 0) ∧
    (lab.needles[(0 : Fin 96)]).wait = .none ∧ (∀ p : Fin 10, (lab.edgeCarders[p]).loads = []) ∧
    ((withAcc (acc0 (.read 4) (.sreg 5 2 true) (.mesh 1))).accesses.find? fun c => decide (c.id = 0)) =
      some (acc0 (.read 4) (.sreg 5 2 true) (.mesh 1)) := by decide +kernel
/-- Read data arrive sign extended; an error answer is CAUSE 4 (R244, R288). -/
theorem test_read_data : sOf (after (.readData 0 backHead false [0xFE, 0xFF, 0xFF, 0xFF]) (withAcc (acc0 (.read 4) (.sreg 5 2 true) (.mesh 1)))) 5 = -2 ∧
    ((after (.readData 0 backHead true []) (withAcc (acc0 (.read 4) (.sreg 5 2 true) (.mesh 1)))).needles[0]).fault = 4 := by decide +kernel
theorem test_write_ack : ((after (.writeAcknowledgement 0 backHead true) (withAcc (acc0 (.write [some 1]) .none (.mesh 1)))).needles[0]).fault = 4 ∧
    (after (.writeAcknowledgement 0 backHead false) (withAcc (acc0 (.write [some 1]) .none (.mesh 1)))).accesses = [] := by decide +kernel
/-- A packet of swatch 0 at a router of no swatch is dropped with an error answer and counted (R244). -/
theorem test_drop : (after (.storeRead 4 pkt0 0 4) lab).out = [.meshData pkt0.back true []] ∧
    (((after (.storeRead 4 pkt0 0 4) lab).skeins[4]).mesh).dropCount = 1 := by decide +kernel
theorem test_wit_bank : (lab.bankAccess .drain (fun _ => true) 0 0 = none ∧ lab.bankMover 0 0 = none ∧
      ∀ v ∈ ((lab.skeins[(0 : Fin 16)]).mesh).serving, v.wants 0 = none) ∧ lab.bankNeedle 0 0 = none ∧ lab.powered 0 = true ∧
    State.reset.powered 0 = false ∧
    (withAcc (acc0 (.read 4) (.sreg 5 2 true) (.bank 0 0))).bankNeedle 0 0 = some (acc0 (.read 4) (.sreg 5 2 true) (.bank 0 0)) ∧
    (withAcc (acc0 (.write [some 1, none]) .none (.bank 0 0))).bankNeedle 0 0 = some (acc0 (.write [some 1, none]) .none (.bank 0 0)) ∧
    lab.anyBad 0 4 = false ∧ (fun g : Fin 4 => decide (g = 2)) 2 = true := by decide +kernel
theorem test_bank_write : let t := after (.bankGrant 0 0) (withAcc (acc0 (.write [some 7, none, some 9]) .none (.bank 0 0)))
    memGet t.mem 0 = 7 ∧ memGet t.mem 1 = 0 ∧ memGet t.mem 2 = 9 ∧ t.accesses = [] := by decide +kernel
theorem test_bank_read : sOf (after (.bankGrant 0 0) { withAcc (acc0 (.read 2) (.sreg 5 1 true) (.bank 0 0)) with
    mem := memWrite lab.mem 0 [0x00, 0x80] }) 5 = -32768 := by decide +kernel
/-- A descriptor of one row of 32 bytes from offset 64 to offset 128 of skein 0's store, no card program, with a signal to
flag 2 of amount 5. -/
def desc (staged : Option (List (Nat × Byte))) (r w : Nat) : MoveDesc :=
  ⟨toVec 64 (leBytes 8 64 ++ leBytes 8 128 ++ leBytes 4 32 ++ leBytes 4 1 ++ leBytes 16 0 ++ [0xFF, 4, 2, 0] ++ leBytes 4 5 ++ leBytes 16 0),
    0, 0, none, staged, r, w⟩
def withMover (d : List MoveDesc) : State := lab.modMover 0 0 fun x => { x with queue := d }
theorem test_wit_mover : (lab.moverOf 0 0).queue = [] ∧ ((withMover (List.replicate 16 (desc none 0 0))).moverOf 0 0).queue.length = 16 ∧
    ((withMover [desc none 0 0]).moverOf 0 0).queue.length < 16 ∧ (lab.moverOf 0 0).fault = none ∧ (withMover [desc none 0 0]).moverRuns 0 = true ∧
    (withMover [desc none 0 0]).moverBusy 0 0 = false ∧ lab.swatchOf 0 = some 0 := by decide +kernel
/-- Good: read next; staged: write next; written: done. One byte of the reserved field makes it bad. -/
theorem test_wit_desc : (desc none 0 0).ok = true ∧ (desc none 0 0).card = 0xFF ∧ (desc none 0 0).rows = 1 ∧ (desc none 0 0).srcFeed = false ∧
    (desc none 0 0).dstFeed = false ∧ (desc none 0 0).rowBytes = 32 ∧ (desc none 0 0).u 0 8 % 64 + 32 ≤ 64 ∧ lab.region 64 = .store 0 ∧
    lab.region 128 = .store 0 ∧ (desc (some []) 32 32).writeTo = (desc (some []) 32 32).data.length ∧
    ({ desc none 0 0 with bytes := (desc none 0 0).bytes.set 63 1 } : MoveDesc).ok = false := by decide +kernel
theorem test_mover_steps : (after (.moverDescriptorDone 0 0) (withMover [desc none 0 0])).accesses.map (fun a => (a.op, a.addr)) = [(.read 32, 64)] ∧
    (after (.moverDescriptorDone 0 0) (withMover [desc (some []) 32 0])).accesses.map (fun a => a.addr) = [128] ∧
    (after (.moverDescriptorDone 0 0) (withMover [desc (some []) 32 32])).out = [.flagOp ⟨0, 0, 0, .mover 0, 0⟩ .add 2 5] ∧
    ((after (.moverDescriptorDone 0 0) (withMover [{ desc none 0 0 with bytes := (desc none 0 0).bytes.set 63 1 }])).moverOf 0 0).fault = some 1 := by
  decide +kernel
/-- The mover's read at its bank, of a Held swatch. -/
def moverAcc (op : AccOp) (dest : Dest) (a : Nat) : Access := ⟨0, .mover 0 0, .bank 0 (bankOf a), .mover, a, op, dest, none, 0, true, false⟩
def withMoverAcc (a : Access) (d : MoveDesc) : State :=
  { (labW 0 fun w => { w with st := .held }).modMover 0 0 (fun x => { x with queue := [d] }) with accesses := [a], nextAccess := 1 }
theorem test_wit_mover_bank : let s := withMoverAcc (moverAcc (.read 32) (.stage 0) 64) (desc (some []) 32 0)
    s.powered 0 = true ∧ s.bankMover 0 1 = some (moverAcc (.read 32) (.stage 0) 64) ∧ s.bankAccess .drain (fun _ => true) 0 1 = none ∧
    s.bankNeedle 0 1 = none ∧ (∀ v ∈ ((s.skeins[(0 : Fin 16)]).mesh).serving, v.wants 1 = none) ∧ (∀ p : Fin 10, (s.edgeCarders[p]).loads = []) ∧
    (s.moverOf 0 0).queue = [desc (some []) 32 0] ∧ s.swatchOf 0 = some 0 ∧ (s.swatches[(0 : Fin 8)]).st = .held ∧ s.tripped = false ∧
    s.anyBad 64 32 = false ∧
    (withMoverAcc (moverAcc (.write [some 1]) .none 128) (desc (some []) 32 32)).bankMover 0 2 = some (moverAcc (.write [some 1]) .none 128) := by
  decide +kernel
theorem test_move_enq : ((after (.moveEnq 0 1 2) (withMover (List.replicate 16 (desc none 0 0)))).needles[0]).pc = 0 ∧
    ((after (.moveEnq 0 1 2) (withMover [desc none 0 0])).moverOf 0 0).queue.length = 2 := by decide +kernel
theorem test_move_wait : ((after (.moveWait 0 2) (withMover [desc none 0 0])).needles[0]).wait = .mover 0 ∧
    ((after (.moveWait 0 2) lab).needles[0]).pc = 4 ∧ sOf (after (.moveStatus 0 5 2) lab) 5 = 0 := by decide +kernel

/-! ### Multicast, trees and stitch channels -/

theorem test_wit_mcast : mcastTargets 0x3 = some [0, 1] ∧ mcastTargets 0x1_0000 = some [0] ∧ mcastTargets 0x1_0004 = none ∧
    (0x3FFF00 : Nat) % 64 = 0 ∧ 0x3FFF00 + 256 ≤ 0x400000 ∧ 0x400000 < 0x3FFF40 + 256 ∧ lab.slotsUsed 0 false ≤ 60 ∧
    fld (0x10 : DWord) 7 4 < (lab.swatches[(0 : Fin 8)]).size ∧ fld (0x300 : DWord) 9 8 = 3 ∧
    ((lab.skeins[(0 : Fin 16)]).mesh).refuses pktHome (maskSkeins 3) true = none := by decide +kernel
theorem test_mcast : ((after (.meshMcast 0 5 1 2) (labS [(5, 0x3FFF40)])).needles[0]).fault = 2 ∧
    ((after (.meshTree 0 5 1 2) (labS [(2, 0x300)])).needles[0]).fault = 1 ∧
    (after (.meshMcast 0 5 1 2) (labS [(2, 3)])).out = [.mcast 0 ⟨0, 0, 0, .needle 0, 0⟩ 3 0 (List.replicate 256 0)] := by decide +kernel
/-- A multicast at its source goes on to the east and waits at the banks of its own store. -/
theorem test_mcast_router : (after (.multicastWrite 0 pktHome 3 0 [1]) lab).out = [.mcast 1 pktHome 2 0 [1]] ∧
    (((after (.multicastWrite 0 pktHome 3 0 [1]) lab).skeins[0]).mesh).serving.length = 1 := by decide +kernel
def tree0 (dir : TreeDir) (members : BitVec 16) (off : BitVec 22) : TreeHead := ⟨0, 0, 0, members, off, dir, 0, false⟩
/-- A contribution of a member's six needles is one of six; a sum of skein 0 alone entering D from the west is whole. -/
theorem test_wit_tree : (⟨0, 0, .int32, 1, 0, 0, [⟨.here, 0, [], 0, false⟩]⟩ : TreePart).whole 0 = none ∧
    (⟨0, 0, .int32, 1, 1, 0, [⟨.west, 0, [5, 0, 0, 0], 0, false⟩]⟩ : TreePart).whole 1 = some [⟨.west, 0, [5, 0, 0, 0], 0, false⟩] ∧
    (∀ p ∈ ((lab.skeins[(1 : Fin 16)]).mesh).parts, ¬(p.reduce = 0 ∧ p.inst = 0)) ∧ treeFmt 0 = some .int32 ∧ lab.poison = [] ∧
    ((lab.skeins[(1 : Fin 16)]).mesh).refuses pkt0 [1] false = none := by decide +kernel
/-- A router between a member and D: skeins 0 to 2 of one swatch. -/
def wide : State := { lab with skeins := mapV lab.skeins fun k x => if k.val < 3 then { x with mesh := { x.mesh with swatch := some 0, walesM1 := 2 } } else x }
theorem test_wit_tree_on : ((wide.skeins[(1 : Fin 16)]).mesh).refuses ⟨0, 2, 0, .needle 0, 0⟩ [2] false = none ∧
    (⟨0, 0, .int32, 1, 2, 0, [⟨.west, 0, [5], 0, false⟩]⟩ : TreePart).whole 1 = some [⟨.west, 0, [5], 0, false⟩] := by decide +kernel
theorem test_tree_at_d : memRead (after (.fixedTreeContribution 1 pkt0 (tree0 .west 1 64) [5, 0, 0, 0]) lab).mem 0x400040 4 = [5, 0, 0, 0] ∧
    (((after (.fixedTreeContribution 0 pktHome (tree0 (.here 0) 1 64) [5, 0, 0, 0]) lab).skeins[0]).mesh).parts.length = 1 := by decide +kernel
/-- A stitch map of swatch 0: channel 0 from needle 0 to needle 6 on the east link, channel 1 a ply channel between them,
channel 2 from needle 6 to needle 0, channel 3 over the twin exit. -/
def map0 : StitchMap := ⟨2, [⟨0, 0, 1, 0, false, 2, 0, 0⟩, ⟨0, 0, 1, 0, true, 2, 0, 3⟩, ⟨1, 0, 0, 0, false, 4, 0, 0⟩, ⟨0, 0, 0, 0, true, 5, 0, 0⟩],
  [0xFF, 0xFF, 0xFF, 0xFF, 0, 1, 0xFF, 0xFF, 0xFF, 0xFF, 0xFF, 0xFF, 0xFF, 0xFF, 0xFF, 0xFF, 0xFF, 0xFF, 2, 2]⟩
def stch (chans : List ChanFifo) (r : List (Fin 32 × DWord)) : State :=
  { (labW 0 fun w => { w with map := some map0 }).modNeedle 0 (fun x => r.foldl (fun x y => x.setS y.1 y.2) x) with chans := chans }
def ch0 : Chan := ⟨0, 0, 1, 0, false, 2, 0, 0⟩
def ch1 : Chan := ⟨0, 0, 1, 0, true, 2, 0, 3⟩
def ch2 : Chan := ⟨1, 0, 0, 0, false, 4, 0, 0⟩
def ent64 : Vector Byte 64 := Vector.replicate 64 7
theorem test_wit_own_chan : (stch [] []).ownChan 0 0 true = some (0, ch0) ∧ (stch [] []).ownChan 0 0 false = none ∧
    (stch [] []).ownChan 0 2 false = some (0, ch2) ∧ (stch [] []).ownChan 0 2 true = none ∧ (stch [] []).ownChan 0 1 true = some (0, ch1) ∧
    ch0.link ≠ 5 ∧ (stch [] []).chanRec 0 3 = some ⟨0, 0, 0, 0, true, 5, 0, 0⟩ := by decide +kernel
theorem test_wit_send : (stch [] []).chanOpen 0 0 ch0 = true ∧ ((stch [] []).chan 0 0).outq = [] ∧ ((stch [] []).chan 0 0).credits = 4 ∧
    ((stch [⟨0, 0, [], [], [], 0, none⟩] []).chan 0 0).credits = 0 ∧ (∀ c' : Byte, c' ≠ 0 → (stch [] []).sendable 0 c' = false) := by decide +kernel
theorem test_wit_recv : ((stch [⟨0, 2, List.replicate 4 ent64, [], [], 0, none⟩] []).chan 0 2).fifo = [ent64, ent64, ent64, ent64] ∧
    ((stch [] []).chan 0 2).fifo = [] ∧ ((stch [] []).chan 0 2).land = none ∧ ((stch [] []).needles[ch0.sink (stch [] []).swatches[(0 : Fin 8)]]).wait = .none ∧
    ((stch [] []).chan 0 3).credits = 0 ∧ (⟨0, 0, 0, 0, true, 5, 0, 0⟩ : Chan).link = 5 := by decide +kernel
theorem test_send : (after (.stchSend 0 1 2) (stch [] [])).out.length = 4 ∧ ((after (.stchSend 0 1 2) (stch [] [])).chan 0 0).credits = 0 ∧
    ((after (.stchSend 0 1 2) (stch [] [(2, 2)])).needles[0]).fault = 10 := by decide +kernel
theorem test_recv : vOf (after (.stchRecv 0 7 2) (stch [⟨0, 2, List.replicate 4 ent64, [], [], 0, none⟩] [(2, 2)])) 7 63 = 0x07070707 ∧
    (after (.stchRecv 0 7 2) (stch [⟨0, 2, List.replicate 4 ent64, [], [], 0, none⟩] [(2, 2)])).out = List.replicate 4 (.stitchCredit 0 2) ∧
    ((after (.stchRecv 0 7 2) (stch [] [(2, 2)])).needles[0]).wait = .recv 2 7 [] := by decide +kernel
theorem test_arrival : ((after (.stitchEntryArrival 0 0 0 ent64) (stch [] [])).chan 0 0).fifo = [ent64] ∧
    ((after (.stitchEntryArrival 0 1 2 ent64) (stch [] [])).skeins[1]).stch.events = 1 ∧
    ((after (.twinUnmatchedTimeout 0 3) (stch [] [])).skeins[0]).stch.events = 2 ∧
    ((after (.stitchCreditReturn 0 0) (stch [] [])).chan 0 0).credits = 4 := by decide +kernel
/-- LAND: 0 disarms, 65536 is the longest window, 65600 too long; a ply channel is none of its own. -/
theorem test_land : ((after (.land 0 1 2 3) (stch [] [(2, 2), (3, 65536)])).chan 0 2).land = some ⟨0, 65536, 0⟩ ∧
    ((after (.land 0 1 2 3) (stch [] [(2, 2)])).chan 0 2).land = none ∧ ((after (.land 0 1 2 3) (stch [] [(2, 2), (3, 65600)])).needles[0]).fault = 2 ∧
    feedOk 0 65536 = true ∧ ((stch [] []).ownChan 6 1 false = some (0, ch1) ∧ ch1.ply = true) := by decide +kernel

/-! ### The bed, tiles, drains -/

def castOps (shape lfmt : Fin 4) : CastOps := ⟨0, 0, 0, 0, shape, lfmt, 0, false⟩
/-- A 16 by 16 tile of unit 0, INT32 or FP32+. -/
def tileOf (lfmt : Fin 3) (mmas : List MmaRec) : Tile :=
  ⟨0, 2, lfmt, if lfmt = 0 then 0 else 256, false, List.replicate 256 0, 0, [], 0, 0, 0, false, false, lfmt ≠ 0, ⟨0, 0, 0, 0⟩, mmas⟩
def withBed (f : Bed → Bed) : State := labN fun x => { x with bed := f x.bed }
def tiled (t : Tile) : State := withBed fun b => { b with tiles := [t] }
theorem test_wit_cast : castFault ((lab.needles[(0 : Fin 96)]).bed) (castOps 2 0) 0 ⟨0, 0, 0, 0⟩ = none ∧
    castFault ((lab.needles[(0 : Fin 96)]).bed) (castOps 2 2) 3 ⟨3, 0x3FF800, 128, 0⟩ = none ∧
    castFault ((lab.needles[(0 : Fin 96)]).bed) (castOps 2 3) 0 ⟨0, 0, 0, 0⟩ = some (1, 0) ∧
    castFault ((lab.needles[(0 : Fin 96)]).bed) (castOps 2 1) 1 ⟨1, 32, 0, 0⟩ = some (2, 32) := by decide +kernel
theorem test_cast : (((after (.castZero 0 (castOps 2 0)) lab).needles[0]).bed).tiles.map (fun t => (t.elems.length, t.due, t.confirmed)) = [(256, 0, false)] ∧
    (((after (.castBias 0 (castOps 2 1)) lab).needles[0]).bed).tiles.map (fun t => t.due) = [64] ∧
    ((after (.castZero 0 (castOps 2 3)) lab).needles[0]).fault = 1 := by decide +kernel
/-- 16 terms of INT8 (AFMT and BFMT 1): rows of A at feed address 0, columns of B at 0x10000. -/
def mmaOps : MmaOps := ⟨0, 0, 2, 0, 1, 1, 0, 1, false, false, 0⟩
def mmaLab : State := (tiled (tileOf 0 [])).modNeedle 0 fun x =>
  { x.setS 2 0x10000 with feed := memWrite (memWrite x.feed 0 (List.replicate 256 2)) 0x10000 (List.replicate 256 0xFD) }
def rec0 : MmaRec := ⟨0, 0x10000, 0, 1, 1, 0, 1, 0⟩
theorem test_wit_mma : mmaIllegal (tileOf 0 []) rec0 = false ∧ mmaIllegal (tileOf 0 (List.replicate 16 rec0)) rec0 = true ∧
    (∀ r ∈ rec0.reads 2, feedOk r.1 r.2 = true) ∧ (∀ r ∈ rec0.reads 2, mmaLab.feedDue 0 r.1 r.2 = false ∧ mmaLab.landDue 0 r.1 r.2 = false) ∧
    ((mmaLab.needles[(0 : Fin 96)]).bed).tile 0 = some (tileOf 0 []) ∧ ((mmaLab.needles[(0 : Fin 96)]).bed).running = none := by decide +kernel
/-- 16 products of 2 and -3 in every element; the 17th MMA of an INT32 tile is illegal. -/
theorem test_mma : (((after (.mma 0 mmaOps) mmaLab).needles[0]).bed).tiles.map (fun t => loopInt (t.elems.getD 255 0)) = [-96] ∧
    ((after (.mma 0 mmaOps) (tiled (tileOf 0 (List.replicate 16 rec0)))).needles[0]).fault = 1 := by decide +kernel
theorem test_wit_exact : let o : MmaBytes := ⟨List.replicate 256 2, List.replicate 256 0xFD, []⟩
    (tileOf 0 []).shift = 0 ∧ (∀ g, g < 2 → -2 ^ 31 ≤ loopInt ((tileOf 0 []).elems.getD 255 0) +
      ((List.range (16 * g)).map fun j => mmaInt rec0 o 16 16 15 15 j).sum) ∧
    loopInt ((tileOf 0 []).elems.getD 255 0) + ((List.range 16).map fun j => mmaInt rec0 o 16 16 15 15 j).sum = -96 := by decide +kernel
/-- Closed INT32 tiles: clean, and with one sticky element at shift 0, 7 and 8. -/
def closedTile (sticky : Bool) (shift : Nat) : Tile :=
  { tileOf 0 [] with closed := true, shift := shift, elems := (if sticky then 0x100000000 else 0) :: List.replicate 255 0 }
theorem test_wit_bed : (tiled (closedTile false 0)).bedRuns 0 = true ∧ (tiled (closedTile false 0)).bedMayEnd 0 = true ∧
    (((tiled (closedTile false 0)).needles[(0 : Fin 96)]).bed).settled 0 = true ∧ (closedTile true 7).shift < 8 ∧ 8 ≤ (closedTile true 8).shift ∧
    (tileOf 1 []).isInt = false := by decide +kernel
theorem test_wit_sticky : (∀ w ∈ (closedTile false 0).elems, loopSticky w = false) ∧ ∃ w ∈ (closedTile true 7).elems, loopSticky w = true :=
  ⟨fun w h => by
    have e : (closedTile false 0).elems.all (fun w => !loopSticky w) = true := by decide +kernel
    simpa using List.all_eq_true.mp e w h, 0x100000000, List.mem_cons_self .., by decide +kernel⟩
theorem test_confirm : let c (t : Tile) := (((after (.confirmationTest 0 0) (tiled t)).needles[0]).bed)
    (c (closedTile false 0)).tiles.map (fun t => t.confirmed) = [true] ∧ (c (closedTile true 7)).tiles.map (fun t => (t.shift, t.confirmed)) = [(8, false)] ∧
    (c (closedTile true 7)).running = some 0 ∧ (c (closedTile true 8)).tiles.map (fun t => (t.confirmed, t.satEx)) = [(true, true)] ∧
    ((after (.confirmationTest 0 0) (tiled (closedTile true 8))).swatches[0]).status = 4 := by decide +kernel
theorem test_wit_queue : let s := withBed fun b => { b with tiles := [tileOf 0 []], queue := [(0, rec0, false, false, 0)], running := some 0 }
    s.bedRuns 0 = true ∧ s.bedMayEnd 0 = true ∧ ((s.needles[(0 : Fin 96)]).bed).replays = [] ∧ (tileOf 0 []).rfs = false ∧
    (withBed fun b => { b with tiles := [tileOf 0 []], replays := [0] }).bedMayEnd 0 = true := by decide +kernel
theorem test_queue_start : (((after (.mmaQueueStart 0) (withBed fun b => { b with running := some 3 })).needles[0]).bed).running = none ∧
    (((after (.mmaQueueStart 0) (withBed fun b => { b with tiles := [closedTile true 1], replays := [0] })).needles[0]).bed).running = some 0 := by
  decide +kernel
/-- An FP32+ tile, ready; a pass-through drain of it; FUSE 3 is illegal, a stride that is no multiple of 64 an address fault. -/
def ready : State := tiled (tileOf 1 [])
def bindRec (fuse : Fin 4) (stride : Nat) : BindRec := ⟨false, fuse, false, 0, stride, 0, 0, 0xFF, false⟩
theorem test_wit_bind : bindFault ((ready.skeins[(0 : Fin 16)]).carders[(0 : Fin 2)]).slots (bindRec 0 64) (tileOf 1 []) = none ∧
    bindFault ((ready.skeins[(0 : Fin 16)]).carders[(0 : Fin 2)]).slots (bindRec 3 64) (tileOf 1 []) = some (1, 0) ∧
    bindFault ((ready.skeins[(0 : Fin 16)]).carders[(0 : Fin 2)]).slots (bindRec 0 65) (tileOf 1 []) = some (2, 0) ∧
    ((ready.needles[(0 : Fin 96)]).bed).settled 0 = true ∧ ((ready.needles[(0 : Fin 96)]).bed).spareBusy (tileOf 1 []) = false ∧
    (tileOf 1 []).confirmed = true ∧ ((ready.needles[(0 : Fin 96)]).bed).tile 1 = none := by decide +kernel
theorem test_bind : (((after (.bindDrain 0 ⟨0, 0, 1, 0, 0, false, 0, 0xFF⟩) (ready.modNeedle 0 fun x => x.setS 1 64)).needles[0]).bed).drains.length = 1 ∧
    ((after (.bindDrain 0 ⟨0, 0, 1, 0, 0, false, 0, 0xFF⟩) (ready.modNeedle 0 fun x => x.setS 1 65)).needles[0]).fault = 2 ∧
    (((after (.bindDrop 0 0) ready).needles[0]).bed).tiles = [] ∧ ((after (.bindDrop 0 1) ready).needles[0]).fault = 1 := by decide +kernel
def drained (l : List Access) : State := { withBed (fun b => { b with drains := [⟨tileOf 1 [], bindRec 0 64, true⟩] }) with accesses := l }
def drainAcc : Access := ⟨0, .needle 0, .bank 0 0, .drain, 0, .write [some 1, some 2], .drain 0, none, 0, true, false⟩
theorem test_wit_drain : (drained []).powered (skeinOf 0) = true ∧ (drained []).tripped = false ∧ (drained []).drainDue 0 0 = false ∧
    (drained [drainAcc]).drainDue 0 0 = true ∧
    (((drained []).needles[(0 : Fin 96)]).bed.drains.find? fun y => decide (y.tile.unit = 0) && y.carded).isSome = true ∧
    (drained [drainAcc]).bankAccess .drain (fun _ => true) 0 0 = some drainAcc ∧ (((drained []).skeins[(0 : Fin 16)]).banks[(0 : Fin 16)]).turn = 0 := by
  decide +kernel
theorem test_drain_done : (((after (.drainDone 0 0) (drained [])).needles[0]).bed).drains = [] ∧
    (((after (.drainDone 0 0) (drained [drainAcc])).needles[0]).bed).drains.length = 1 ∧
    memRead (after (.bankGrant 0 0) (drained [drainAcc])).mem 0 2 = [1, 2] := by decide +kernel
/-- LGET: index 192 is the last of 256 elements, 256 and 1 are bad; LSCALE of INT32 is illegal. -/
theorem test_lget : ((after (.lget 0 0 5 2) (ready.modNeedle 0 fun x => x.setS 2 192)).needles[0]).pc = 8 ∧
    ((after (.lget 0 0 5 2) (ready.modNeedle 0 fun x => x.setS 2 256)).needles[0]).fault = 2 ∧
    ((after (.lget 0 0 5 2) (ready.modNeedle 0 fun x => x.setS 2 1)).needles[0]).fault = 2 ∧
    ((after (.lconf 0 0) ready).needles[0]).pc = 8 ∧ ((after (.lconf 0 1) ready).needles[0]).fault = 1 := by decide +kernel
theorem test_lshift : sOf (after (.lshift 0 0 5) ready) 5 = 0 ∧
    ((after (.lscale 0 0 1) (tiled { tileOf 0 [] with confirmed := true })).needles[0]).fault = 1 := by decide +kernel
/-- PLY.SEND on channel 1 with its four credits; PLY.ADD on it from its receiver, whose last entry arrives. -/
def plyLab (got : List Byte) (wait : Bool) : State :=
  let x : Needle := { (ready.needles[(0 : Fin 96)]).setS 2 1 with st := .running }
  let y : Needle := { x with wait := if wait then .recvTile 1 0 got else .none }
  { stch [] [] with needles := ((stch [] []).needles.set 0 x).set 6 y }
theorem test_wit_ply : (plyLab [] false).ownChan 0 1 true = some (0, ch1) ∧ (plyLab [] false).chanOpen 0 1 ch1 = true ∧
    ((plyLab [] false).chan 0 1).credits < (tileOf 1 []).entries.length ∧ (plyLab [] false).ownChan 6 1 false = some (0, ch1) ∧
    (plyLab [] false).ownChan 0 1 false = none ∧ (plyLab [] false).ownChan 6 1 true = none ∧
    (∀ c' : Byte, c' ≠ 1 → (plyLab [] false).sendable 0 c' = false) ∧ (tileOf 1 []).elems ≠ [] ∧
    8 * (tileOf 1 []).elems.length = (List.replicate 1984 (0 : Byte)).length + 64 ∧ (plyLab [] true).mayIssue 6 = false := by decide +kernel
theorem test_wit_ply_issue : (plyLab [] false).mayIssue 6 = true ∧ (plyLab [] false).secondWord 6 0 = false ∧
    ((plyLab [] false).needles[(6 : Fin 96)]).pc.toNat < (plyLab [] false).textLen 6 ∧ (plyLab [] false).loading 6 [2] [] = false := by decide +kernel
theorem test_ply : ((after (.plySend 0 0 2) (plyLab [] false)).needles[0]).wait = .send 1 ∧ (after (.plySend 0 0 2) (plyLab [] false)).out.length = 4 ∧
    ((after (.plyAdd 6 0 2) (plyLab [] false)).needles[6]).wait = .recvTile 1 0 [] ∧
    ((after (.stitchEntryArrival 0 1 3 ent64) (plyLab (List.replicate 1984 0) true)).needles[6]).wait = .none := by decide +kernel

/-! ### Distaff cores -/

/-- Core 0 runs, granted to swatch 0, or as f makes it. -/
def core (f : Distaff → Distaff) : State :=
  lab.modDst 0 fun c => f { c with st := .running, granted := some 0, mode := 3, pc := 0x1000, resetPc := 0x1000 }
def xOf (s : State) (r : Fin 32) : DWord := (s.distaffs[(0 : Fin 4)]).x[r]
theorem test_wit_core : (core id).coreRuns 0 = true ∧ (core id).coreBusy 0 = false ∧ ((core id).distaffs[(0 : Fin 4)]).halting = false ∧
    (core id).region 0x40 = .store 0 ∧ ((core id).swatches[(0 : Fin 8)]).covers 0 = true ∧ 0x38 % 64 + 8 ≤ 64 ∧ (core id).poison = [] ∧
    wrId ((core id).distaffs[(0 : Fin 4)]).draft = 0 ∧ (core fun c => { c with mode := 0 }).coreRuns 0 = true ∧
    (0x8000000000000002 : DWord).getLsbD 63 = true ∧ (2 : DWord).getLsbD 63 = false := by decide +kernel
theorem test_core_store : let t := after (.distaffInstruction 0 0x1004 [.store 3 0x38 0x0102030405060708]) (core id)
    memRead t.mem 0x37 3 = [0, 8, 7] ∧ (t.distaffs[0]).pc = 0x1004 ∧
    xOf (after (.distaffInstruction 0 0x1004 [.load 5 0 true 0x38]) { core id with mem := memWrite [] 0x38 [0x80] }) 5 = 0xFFFFFFFFFFFFFF80 ∧
    xOf (after (.distaffInstruction 0 0x1004 [.writeX 0 9]) (core id)) 0 = 0 := by decide +kernel
/-- Without the reservation a store-conditional writes 1, with it 0. -/
theorem test_core_sc : xOf (after (.distaffInstruction 0 4 [.sc 5 true 0x40 9]) (core id)) 5 = 1 ∧
    xOf (after (.distaffInstruction 0 4 [.sc 5 true 0x40 9]) (core fun c => { c with reserved := some 0x40, x := c.x.set 5 7 })) 5 = 0 ∧
    (after (.distaffInstruction 0 4 [.sc 5 true 0x40 9]) (core id)).mem = [] := by decide +kernel
/-- A trap goes to the handler's base with the mode bits of mtvec cleared. -/
theorem test_core_trap : let t := after (.distaffInstruction 0 4 [.trap false 11 0]) (core fun c => c.setRaw 0x305 0x2001)
    (t.distaffs[0]).pc = 0x2000 ∧ (t.distaffs[0]).raw 0x341 = 0x1000 ∧ (t.distaffs[0]).raw 0x342 = 11 := by decide +kernel
theorem test_wit_custom : ((core id).distaffs[(0 : Fin 4)]).mode ≠ 0 ∧ (core id).bellTaken 0 (.sq 3) = false ∧
    ((core id).modSq 3 fun q => { q with cfg := 0x100014 }).bellTaken 0 (.sq 3) = true ∧ ((core id).distaffs[(0 : Fin 4)]).ucustom = false ∧
    (0 : DWord).toNat ≤ (core id).tick.count.toNat ∧ (core id).tick.count.toNat < (1 : DWord).toNat ∧ (core id).fuses.primary = true ∧
    (core fun c => { c with granted := none }).coreRuns 0 = true ∧
    ((lab.skeins[(0 : Fin 16)]).mesh).refuses ⟨1, 0, 0, .core 0, 0⟩ [0] false = none := by decide +kernel
/-- A twin secondary with its TWIN port up. -/
def onSecondary : State := { (core id).modPort 0 id with fuses := Build.twinSecondary.fuses }
theorem test_wit_secondary_bell : onSecondary.coreRuns 0 = true ∧ onSecondary.fuses.twin = true ∧ onSecondary.fuses.primary = false ∧
    onSecondary.twinPort = some 0 ∧ onSecondary.coreBusy 0 = false := by decide +kernel
theorem test_dst_doorbell : let s := (core fun c => { c with x := (c.x.set 1 3).set 2 4 }).modSq 3 fun q => { q with cfg := 0x100014 }
    xOf (after (.dstDoorbell 0 5 1 2) s) 5 = 0 ∧ ((after (.dstDoorbell 0 5 1 2) s).sqs[3]).tail = 4 ∧
    xOf (after (.dstDoorbell 0 5 1 2) (core fun c => { c with x := c.x.set 1 4 })) 5 = 1 ∧
    (after (.dstDoorbell 0 5 1 2) (core fun c => { c with x := c.x.set 1 4 })).selv.badAccess = 1 := by decide +kernel
/-- In user mode without UCUSTOM the custom instructions raise illegal instruction (cause 2). -/
theorem test_dst_user : ((after (.dstSwfence 0 1) (core fun c => { c with mode := 0 })).distaffs[0]).raw 0x342 = 2 ∧
    ((after (.dstFlagSet 0 5 1 2) (core fun c => { c with granted := none })).distaffs[0]).raw 0x342 = 2 := by decide +kernel
theorem test_dst_tickwait : ((after (.dstTickwait 0 5 1) (core id)).distaffs[0]).wait = .tick 5 1 true ∧
    xOf (after (.dstTickwaitResume 0) ({ core (fun c => { c with st := .waiting, wait := .tick 5 1 true, frogged := true }) with
      tick := { lab.tick with count := 2 } })) 5 = 0x8000000000000002 := by decide +kernel
theorem test_dst_flag : (after (.dstFlagAdd 0 5 1 2) (core id)).out = [.flagOp ⟨0, 0, 0, .core 0, 0⟩ .add 0 0] ∧
    xOf (after (.flagReply 0 ⟨0, 0, 0, .core 0, 0⟩ false 77) (core fun c => { c with st := .waiting, wait := .flag 5 0 })) 5 = 77 := by decide +kernel
theorem test_wit_resume : let s := core fun c => { c with st := .waiting, wait := .tick 5 0 false }
    (s.distaffs[(0 : Fin 4)]).st = .waiting ∧ (0 : DWord).toNat ≤ s.tick.count.toNat ∧
    (∀ i : Fin 8, (s.distaffs[(0 : Fin 4)]).granted = some i → (s.swatches[i]).st ≠ .held) ∧
    ((labN fun x => { x with wait := .flag 5 0 }).needles[needleOf 0 0]).wait = .flag 5 0 := by decide +kernel

/-! ### Start-up and ports -/

/-- The state a boot phase and its other fields make of the reset state, with power good. -/
def bootS (f : Boot → Boot) : State := { (after .selvagePowerGood State.reset) with boot := f (after .selvagePowerGood State.reset).boot }
theorem test_wit_power : State.reset.selv.spwrok = false ∧ lab.selv.spwrok = true ∧ lab.selv.restartCmd = false ∧ lab.tally.run = none ∧
    lab.flash.writing = none ∧ State.reset.fuses.primary = true ∧ ({ lab with selv := { lab.selv with restartCmd := true } } : State).selv.restartCmd = true := by
  decide +kernel
/-- R68, R74: the first source of order 0 is slot A; a rail alone sets RAIL_FAULT (R525). -/
theorem test_power_good : (after .selvagePowerGood State.reset).boot.phase = .fetching .slotA ∧ (after .selvagePowerGood State.reset).selv.budget = 6000 ∧
    (after .railOutOfTolerance lab).selv.railFault = true ∧ (after .spwrokFall lab).selv.railFault = false := by decide +kernel
/-- A budget fuse below 6000 and one above 40000 are clamped. -/
theorem test_budget_clamp : let b (n : Half) := (after .selvagePowerGood { State.reset with fuses := { State.reset.fuses with budget := n } }).selv.budget
    b 5999 = 6000 ∧ b 40001 = 40000 ∧ b 40000 = 40000 := by decide +kernel
theorem test_restart : let t := after .restartBegin { lab with selv := { lab.selv with restartCmd := true } }
    t.boot.warm = true ∧ (t.sqs[5]).epoch = 1 ∧ (t.sqs[5]).fsm = EnFsm.off ∧ t.selv.st = .off := by decide +kernel
def fetching (src : BootSrc) : State := (bootS fun b => { b with phase := .fetching src }).modPort 9 fun e => { e with sideband := true }
theorem test_wit_boot : (fetching .slotA).boot.phase = .fetching .slotA ∧ (fetching .slotA).bootPort .slotA = some 9 ∧ (fetching .slotA).boot.due = 0 ∧
    (fetching .slotA).ports[(9 : Fin 10)].sideband = true ∧ (fetching .slotA).boot.offer = none ∧ (fetching .slotA).boot.rest = [.slotB, .host] ∧
    (fetching .slotA).boot.image.length < 512 ∧ (bootS fun b => { b with phase := .fetching .host, rest := [] }).boot.rest = [] ∧
    ((bootS fun b => { b with due := 9, seq := 2 }).boot.due = 9) ∧ (fetching .slotA).fuses.primary = true := by decide +kernel
/-- The last piece of an offered image of 512 bytes. -/
theorem test_wit_last_piece : let s := bootS fun b => { b with phase := .fetching .host, offer := some (4, 512), image := List.replicate 504 0, due := 8, seq := 62 }
    0 < s.boot.due ∧ s.boot.due ≤ 8 ∧ 512 ≤ (s.boot.image ++ List.replicate 8 0).length ∧
    { s.boot with image := s.boot.image ++ List.replicate 8 0, due := 0, seq := 63 }.total = 512 := by decide +kernel
/-- R75: a READ of the first 512 bytes; slot B's lies at 0x10_0000. -/
theorem test_boot_read : (after .bootRead (fetching .slotA)).out.head? = some (.sideband 9 8 [1, 0, 0, 0, 0, 0, 2]) ∧
    (after .bootRead (fetching .slotB)).out.head? = some (.sideband 9 8 [1, 0, 0, 0x10, 0, 0, 2]) ∧
    (after .bootRead (fetching .slotA)).out.length = 65 := by decide +kernel
theorem test_boot_timeout : (after .bootSourceTimeout (fetching .slotA)).boot.phase = .fetching .slotB ∧
    (after .bootSourceTimeout (fetching .slotA)).selv.fault = 1 ∧
    (after .bootSourceTimeout (bootS fun b => { b with phase := .fetching .host, rest := [] })).boot.phase = .noImage := by decide +kernel
def noImage : State := bootS fun b => { b with phase := .noImage }
theorem test_wit_offer : noImage.boot.phase = .noImage ∧ noImage.fuses.ports[(4 : Fin 10)].role = .host ∧ lab.boot.phase ≠ .noImage ∧
    noImage.selv.spwrok = true ∧ State.reset.selv.spwrok = false ∧ (bootS fun b => { b with phase := .waitImage }).boot.phase = .waitImage ∧
    lab.boot.phase ≠ .waitImage ∧ Build.twinSecondary.fuses.primary = false := by decide +kernel
theorem test_offer : (after (.offer 4 1024) noImage).boot.offer = some (4, 1024) ∧ (after (.offer 4 1024) noImage).boot.phase = .fetching .host := by
  decide +kernel
/-- An image shorter than its header does not verify. That one verifies rests on functions no rule makes computable (log 16). -/
theorem test_wit_bad_image : checkImage 0 [] ≠ .ok := by simp [checkImage]
theorem test_wit_count_off : Build.twinSecondary.fuses.primary = false ∧ (bootS fun b => { b with phase := .countOff 1 }).boot.phase = .countOff 1 ∧
    (1 : Nat) < 3 ∧ (bootS fun b => { b with phase := .countOff 3 }).boot.phase = .countOff 3 ∧
    (bootS fun b => { b with phase := .waitSecondary }).boot.phase = .waitSecondary ∧ lab.boot.phase ≠ .waitSecondary ∧ lab.rep.pending = false ∧
    lab.rep.run = none := by decide +kernel
/-- The mainstream build has five dies besides the numbers of R459: 1 + 1 + 3. -/
theorem test_count_off : (after (.countOff 5) (bootS fun b => { b with phase := .countOff 1 })).selv.fault.getLsbD 4 = false ∧
    (after (.countOff 4) (bootS fun b => { b with phase := .countOff 1 })).selv.fault.getLsbD 4 = true ∧
    (after (.countOff 7) { bootS id with fuses := Build.twinSecondary.fuses }).out = [.inner 1 0xFF 7 [8]] := by decide +kernel
def mayCensus : State := { bare with rep := { bare.rep with pending := true, autoCensus := true } }
theorem test_wit_census : mayCensus.censusMay = true ∧ mayCensus.rep.pending = true ∧ mayCensus.rep.autoCensus = true ∧
    ({ bare with rep := { bare.rep with run := some ⟨true, none⟩ } } : State).rep.run = some ⟨true, none⟩ := by decide +kernel
/-- Clean silicon: sixteen logical skeins of 140 minus retired needles; a good skein alone when no row carries; none when all fail. -/
theorem test_wit_map : (State.reset.newMap.skeins[(4 * 3 + 3 : Nat)]).isSome = true ∧ State.reset.enabledRows ≠ [] ∧ State.reset.newMap.fallback = false := by
  decide +kernel
def badPhys (l : List (Fin 20)) : State := { State.reset with phys := { State.reset.phys with badSkeins := l } }
theorem test_wit_fallback : (badPhys ((allFin 20).filter fun k => k ≠ 7)).newMap.fallback = true ∧
    (∀ p, (badPhys (allFin 20)).skeinGood p = false) := by decide +kernel
theorem test_census_end : (after .censusEnd { bare with rep := { bare.rep with run := some ⟨true, none⟩ } }).rep.run = none ∧
    (after .censusEnd { bare with rep := { bare.rep with run := some ⟨true, none⟩ } }).selv.goodSkeins = 20 := by decide +kernel

/-! ### Edge ports -/

def portIn (st : PortSt) (p : Fin 10) : State := lab.modPort p fun e => { e with st := st, sideband := false }
theorem test_wit_training : ((portIn .sbInit 2).ports[(2 : Fin 10)]).st = .sbInit ∧ (portIn .sbInit 2).boot.phase = .done ∧
    (fetching .slotA).boot.phase = .fetching .slotA ∧ (lab.fuses.ports[(2 : Fin 10)]).role = .stack ∧ (lab.fuses.ports[(4 : Fin 10)]).role = .host ∧
    ((portIn .roleCheck 4).ports[(4 : Fin 10)]).st = .roleCheck ∧ ((portIn .mbTrain 2).ports[(2 : Fin 10)]).st = .mbTrain ∧
    ((portIn .creditInit 2).ports[(2 : Fin 10)]).st = .creditInit ∧ (lab.ports[(0 : Fin 10)]).st.settled = true ∧ lab.boot.phase ≠ .training ∧
    (∀ a ∈ lab.accesses, a.path ≠ .port 2) ∧ lab.selv.st.working = true ∧ bare.castList = [] ∧
    ((bare.modPort 2 fun e => { e with st := .down, mismatch := true }).ports[Fin.ofNat 10 ((ent 0xFF [(8, 2)]).u 8 1)]).mismatch = true := by
  decide +kernel
/-- R61: announced in ROLE_CHECK; a wrong class ends the port; two modules run at the lower of their rates, one module alone. -/
theorem test_training : (after (.sidebandUp 2) (portIn .sbInit 2)).out = [.sideband 2 1 [2, 1]] ∧
    ((after (.roleAck 2 3 false) (portIn .roleCheck 2)).ports[2]).mismatch = true ∧ ((after (.roleAck 2 2 false) (portIn .roleCheck 2)).ports[2]).st = .mbTrain ∧
    ((after (.mbTrainingDone 2 3 1 0) (portIn .mbTrain 2)).ports[2]).rate = 1 ∧ ((after (.mbTrainingDone 2 0 3 0) (portIn .mbTrain 2)).ports[2]).modules = 2 ∧
    ((after (.mbTrainingDone 2 0 0 0) (portIn .mbTrain 2)).ports[2]).st = .down ∧ ((after (.pcieLinkUp 4) (portIn .creditInit 4)).ports[4]).st = .active := by
  decide +kernel
theorem test_port_reenable : cmdPortReenable.state (ent 0xFF [(8, 2)]) (bare.modPort 2 fun e => { e with st := .down, mismatch := true }) = some 2 ∧
    ((after (.portReenable (ent 0xFF [(8, 2)])) (bare.modPort 2 fun x => { x with st := .down })).ports[2]).st = .sbInit := by decide +kernel

/-! ### Retry, sleep, routing -/

/-- Flits numbered 0, of slot 0 and the CRC-32C of what is before and after it: a read of one granule, and no header. -/
def rdSlot : DWord := 0x0000002000000021
def flitV (slot : DWord) (crc : Nat) : Vector Byte 256 :=
  toVec 256 (leBytes 4 0 ++ leBytes 8 slot.toNat ++ List.replicate 16 0 ++ leBytes 4 crc ++ List.replicate 224 0)
def flitRd : Vector Byte 256 := flitV rdSlot 57099753
def flitNo : Vector Byte 256 := flitV 0 1743147809
theorem test_wit_crc : flitCrcOk flitRd.toList = true := by decide +kernel
theorem test_wit_crc_none : flitCrcOk flitNo.toList = true := by decide +kernel
theorem test_wit_flit : lab.portUp 0 = true ∧ (lab.fuses.ports[(0 : Fin 10)]).role = .stack ∧
    (lab.ports[(0 : Fin 10)]).nextRecv = 0 ∧ fld (BitVec.ofNat 32 (leAt flitRd.toList 0 4) : Word) 9 0 = 0 ∧
    takeFlit [] flitRd.toList = [⟨rdSlot, []⟩] ∧ fld rdSlot 4 0 = 1 ∧ creditOver [⟨rdSlot, []⟩] = false ∧
    (flitSlots flitRd.toList).any (lab.slotBad 0) = false ∧ (flitSlots (flitV 7 0).toList).any (lab.slotBad 0) = true ∧
    (takeFlit [] flitNo.toList).filter RxTxn.full = [] ∧ (flitSlots flitNo.toList).any (lab.slotBad 0) = false ∧
    lab.portUp 2 = false ∧ (lab.fuses.ports[(4 : Fin 10)]).role = .host := by decide +kernel
/-- R56: a flit of another number than the one due is answered with a NAK naming the last number. -/
theorem test_flit : (after (.flitReceived 0 (Vector.replicate 256 0)) (lab.modPort 0 fun e => { e with nextRecv := 3 })).out = [.ack 0 true 2] := by
  decide +kernel
def portF (f : EdgePort → EdgePort) : State := lab.modPort 0 f
theorem test_wit_retry : ((portF fun e => { e with unacked := 3 }).ports[(0 : Fin 10)]).unacked ≠ 0 ∧ (lab.ports[(0 : Fin 10)]).unacked = 0 ∧
    ((portF fun e => { e with retryTally := 17, retryLimit := 16 }).ports[(0 : Fin 10)]).retryLimit.toNat <
      ((portF fun e => { e with retryTally := 17, retryLimit := 16 }).ports[(0 : Fin 10)]).retryTally ∧
    ((portF fun e => { e with retryTally := 16, retryLimit := 16 }).ports[(0 : Fin 10)]).retryTally ≤ 16 ∧
    ((portF fun e => { e with st := .retrain }).ports[(0 : Fin 10)]).st = .retrain ∧ (1 : BitVec 2) &&& 2 = 0 ∧ (1 : BitVec 2) &&& 3 ≠ 3 ∧
    (lab.ports[(0 : Fin 10)]).sref = .none ∧ ((portF fun e => { e with sref := .entering false }).portUp 0 = true) ∧
    ((portF fun e => { e with sref := .exiting true }).ports[(0 : Fin 10)]).sref = .exiting true := by decide +kernel
theorem test_ack : (after (.ackTimer 0) (portF fun e => { e with unacked := 3, nextRecv := 5 })).out = [.ack 0 false 4] := by decide +kernel
theorem test_nak : ((after (.nakReceived 0 1023) lab).ports[0]).retryCount = 1 := by decide +kernel
theorem test_retry_limit : ((after (.retryLimitCrossed 0) (portF fun e => { e with retryTally := 17, retryLimit := 16 })).ports[0]).st = .retrain ∧
    ((after (.retryLimitCrossed 0) (portF fun e => { e with retryTally := 16, retryLimit := 16 })).ports[0]).st = .active := by decide +kernel
theorem test_retrain : ((after (.retrainTimeout 0 2) (portF fun e => { e with st := .retrain, modules := 1 })).ports[0]).st = .down := by decide +kernel
theorem test_sref : ((after (.srefAck 0) (portF fun e => { e with sref := .entering false })).ports[0]).st = .sleep ∧
    ((after (.srefAck 0) (portF fun e => { e with st := .sleep, sref := .exiting false })).ports[0]).st = .mbTrain ∧
    (after (.srefAckTimeout 0) (portF fun e => { e with sref := .entering false })).out = [.sideband 0 4 []] ∧
    ((after (.srefAckTimeout 0) (portF fun e => { e with sref := .entering true })).stack[0]).lost = true := by decide +kernel
/-- Routing of stack 0 by the states of its two ports (R59). -/
def two (a b : PortSt) : State := (lab.modPort 0 fun e => { e with st := a }).modPort 1 fun e => { e with st := b }
theorem test_wit_routes : lab.stackPorts 0 = [0, 1] ∧ lab.accesses = [] ∧ (two .active .active).routes 0 = (some 0, some 1) ∧
    (two .active .degraded).routes 0 = (some 0, some 0) ∧ ((two .active .retrain).routes 0 = (some 0, some 1)) ∧
    (two .active .retrain).ports[(1 : Fin 10)].modules = 3 ∧ (two .down .down).portCarries 0 = false ∧ (two .down .down).routes 0 = (none, none) ∧
    (two .down .active).stack[(0 : Fin 4)].routeLo = some 0 ∧ ((two .down .active).routes 0).1 ≠ some 0 ∧
    (acc0 (.read 4) .none (.port 0)) ∈ ({ two .down .active with accesses := [acc0 (.read 4) .none (.port 0)] } : State).accesses := by decide +kernel
theorem test_reroute : ((after (.stackPortReroute 0) (two .down .active)).stack[0]).routeLo = some 1 ∧
    ((after (.unknownMessage 0 0x7777) lab).ports[0]).events = 0x40 := by decide +kernel

/-! ### Messages of stacks and of the twin; transactions -/

theorem test_wit_stack : (lab.fuses.ports[(0 : Fin 10)]).stack = 0 ∧ (lab.stack[(0 : Fin 4)]).present = true ∧ (lab.fuses.ports[(4 : Fin 10)]).role ≠ .stack ∧
    lab.selv.ready = true ∧ Build.twinSecondary.fuses.primary = false ∧ lab.tripped = false := by decide +kernel
theorem test_stack_messages : ((after (.temp 0 40) lab).stack[0]).temp = 40 ∧ ((after (.eccCorr 1 3 0) lab).stack[0]).eccCorr = 3 ∧
    ((after (.eccUncorr 0 0x41) lab).poison = [lab.addrOf 0 0x40]) ∧ ((after (.eccUncorr 0 0x41) lab).stack[0]).uncorrLast = 0x41 ∧
    (after (.irq 5) lab).out = [] ∧ (after (.irq 5) { lab with fuses := { lab.fuses with shusPcie := true } }).out = [.msix 0 5] := by decide +kernel
/-- One host-held page of band 0, and one more byte than a page. -/
theorem test_wit_twin_window : withHank.region 0x1000000000 = .stack ∧ pageSize = 0x10000 ∧
    rangeAll withHank.pages (pageOf 0x1000000000) 1 (fun st => match st with | .hostHeld _ => true | _ => false) = true ∧
    rangeAll withHank.pages (pageOf 0x1000000000) 2 (fun st => match st with | .hostHeld _ => true | _ => false) = false ∧
    bare.castList = [] ∧ withHank.region (0x1000000000 + 0x20000 - 1) = .stack := by decide +kernel
theorem test_twin_window : let s : State := { withHank with swatches := Vector.replicate 8 Swatch.unset }
    (after (.twinWindow 3 0x1000000000 0x10000 0 3) s).twinWins = [⟨3, 0x1000000000, 0x10000, 0, 3⟩] ∧
    (after (.twinWindow 3 0x1000000000 0x20000 0 3) s).twinWins = [] ∧
    (after (.twinWindow 3 0x1000000000 0 0 3) (after (.twinWindow 3 0x1000000000 0x10000 0 3) s)).twinWins = [] := by decide +kernel
theorem test_twin_chain : (after (.twinChain 2 7 1 9 false) lab).twinChains = [⟨2, 7, 1, 9⟩] ∧
    (after (.twinChain 2 7 1 9 true) (after (.twinChain 2 7 1 9 false) lab)).twinChains = [] := by decide +kernel
/-- A secondary ready, and a relayed NOP and an undefined opcode. -/
def sec : State := { lab with fuses := Build.twinSecondary.fuses }
theorem test_wit_relayed : sec.fuses.primary = false ∧ sec.selv.ready = true ∧ sec.tripped = false ∧ cmdNop ∈ allCmds ∧ cmdNop.op = (0 : Half).toNat ∧
    (∀ c ∈ allCmds, c.op ≠ (0x7FF : Half).toNat) := by
  refine ⟨by decide +kernel, by decide +kernel, by decide +kernel, ?_, by decide +kernel, ?_⟩
  · simp [allCmds]
  · have e : (allCmds.all fun c => decide (c.op ≠ (0x7FF : Half).toNat)) = true := by decide +kernel
    intro c h
    simpa using List.all_eq_true.mp e c h
/-- The secondary runs row 9 and goes on to row 10. -/
theorem test_twin_tick : (after (.twinTick 9) sec).tick.count = 10 ∧ (after (.twinTick 9) lab).tick.count = 0 := by decide +kernel
def th (addr : BitVec 40) : TxnHead := ⟨0, 5, 0, 0, false, addr⟩
theorem test_wit_txn : lab.portUp (th 0).port = true ∧ (lab.fuses.ports[(th 0).port]).role = .stack ∧ (th 0x10).addr.toNat % 32 ≠ 0 ∧
    0x600000000 < (th 0x600000000).addr.toNat + txnBytes (th 0x600000000) ∧ (th 0x5FFFFFFE0).addr.toNat + 32 ≤ 0x600000000 ∧
    (lab.stack[(0 : Fin 4)]).lost = false ∧ lab.isBad (lab.addrOf 0 0) = false ∧ lab.onLost (lab.addrOf 0 0) = false ∧
    ({ lab with poison := [lab.addrOf 0 0] } : State).isBad (lab.addrOf 0 0) = true ∧
    (lab.modStack 0 fun t => { t with lost := true }).stack[(0 : Fin 4)].lost = true ∧
    (∃ i : Fin 32, ((Vector.replicate 32 (1 : Byte)).toList.getD (i.val / 8) 0).getLsbD (i.val % 8) = true) := by decide +kernel
/-- R50, R386: a write of a granule, a masked one, an atomic add; a misaligned address answers 3, the first beyond the range 2. -/
theorem test_txn : memRead (after (.wr (th 0x20) (List.replicate 32 9)) lab).mem (lab.addrOf 0 0x1F) 2 = [0, 9] ∧
    memRead (after (.wrMask (th 0) (Vector.replicate 32 0 |>.set 0 2) (List.replicate 32 9)) lab).mem (lab.addrOf 0 0) 3 = [0, 9, 0] ∧
    memRead (after (.atomAdd (th 0) 0 (List.replicate 32 0xFF)) { lab with mem := memWrite [] (lab.addrOf 0 0) [1] }).mem (lab.addrOf 0 0) 8 =
      [0, 0, 0, 0, 0xFF, 0xFF, 0xFF, 0xFF] ∧
    (after (.rd (th 0x10)) lab).out = [.txn 0x0A 0 { th 3 with len := 0 } []] ∧
    (after (.rd (th 0x600000000)) lab).out = [.txn 0x0A 0 { th 2 with len := 0 } []] := by decide +kernel
theorem test_wit_regs : (lab.fuses.ports[(9 : Fin 10)]).role = .shus ∧ lab.portUp 9 = true ∧ lab.onShuskaub 0x18000000 = true ∧
    lab.onShuskaub 0x10000000 = false := by decide +kernel
def owed : State := withAcc { acc0 (.read 4) (.sreg 5 2 false) (.port 0) with tag := some 5 }
theorem test_wit_tags : lab.byTag 0 5 = none ∧ (owed.byTag 0 5).isSome = true ∧
    ({ acc0 (.read 4) (.sreg 5 2 false) (.port 0) with tag := some 5 } : Access).reads = true ∧
    ({ acc0 (.write [some 1]) .none (.port 0) with tag := some 5 } : Access).reads = false := by decide +kernel
/-- The answer of a read completes it; one without a TAG is a protocol error (R56). -/
theorem test_rsp : sOf (after (.rdRsp (th 0) (leBytes 4 99 ++ List.replicate 28 0)) owed) 5 = 99 ∧
    ((after (.wrAck (th 0)) lab).ports[0]).events = 0x10 ∧ ((after (.errRsp (th 1)) owed).needles[0]).fault = 5 := by decide +kernel
/-- The twin primary with the stitch map's channel 3 of chain 0, announced by the other die. -/
def prim : State := { stch [] [] with twinChains := [⟨0, 0, 2, 0⟩], fuses := Build.twinPrimary.fuses, ports := mapV lab.ports fun p e => if p = 5 then { e with st := .active } else e }
theorem test_wit_ply_txn : prim.portUp 5 = true ∧ (prim.fuses.ports[(5 : Fin 10)]).role = .twin ∧ prim.plyChan 0 = some (0, 3) ∧
    (0x1000000 : BitVec 40).getLsbD 24 = true ∧ lab.plyChan 0 = none := by decide +kernel
theorem test_ply_txn : ((after (.ply ⟨5, 0, 1, 0, false, 0⟩ (List.replicate 64 7)) prim).chan 0 3).fifo = [ent64] ∧
    ((after (.ply ⟨5, 0, 1, 0, false, 0x1050000⟩ (List.replicate 64 7)) prim).chan 0 3).shifts = [5] := by decide +kernel
/-- A request of the yarn at a port that is down waits in its FIFO; a grant of a covered head. -/
def inj0 : Inj := ⟨7, .skein 0, .swatch 0, false, false, false, ⟨1, 0, th 0, []⟩⟩
theorem test_wit_grant : lab.portUp 2 = false ∧ lab.gauge.fifo = [] ∧
    (lab.grantIn [inj0] false ⟨1024, Vector.replicate 8 32, Drr.reset⟩).isSome = true ∧
    (lab.grantIn [inj0] false ⟨1024, Vector.replicate 8 31, Drr.reset⟩).isSome = true ∧ inj0.bytes = 32 := by decide +kernel

/-! ### Device state, power, rings, functions -/

def selvF (f : Selv → Selv) : State := { lab with selv := f lab.selv }
theorem test_wit_request : lab.selv.trans = none ∧ DevSt.loose ≠ lab.selv.st ∧ lab.requestBad .loose = none ∧
    (selvF fun v => { v with trans := some ⟨.loose, none, false⟩ }).selv.trans.isSome = true ∧ bare.requestBad .burst = none ∧
    (selvF fun v => { v with recoveryLeft := 1 }).requestBad .burst = some (stPowerLimit, 0) ∧ lab.rep.run = none ∧ lab.selv.st = .taut ∧
    lab.fuses.twin = false ∧ lab.requestBad .selvage = some (stConflict, 1) := by decide +kernel
theorem test_set_state : (after (.setDeviceState (ent 0xFF [(8, 3)])) lab).selv.trans.map (fun t => t.target) = some .loose ∧
    (after (.setDeviceState (ent 0xFF [(8, 4)])) lab).selv.trans = none ∧
    (after (.setDeviceState (ent 0xFF [(8, 4)])) (selvF fun v => { v with trans := some ⟨.loose, none, false⟩ })).selv.deferred.isSome = true := by
  decide +kernel
theorem test_wit_transition : (selvF fun v => { v with trans := some ⟨.loose, none, false⟩ }).transitionReady = true ∧ lab.selv.deferred = none ∧
    ((selvF fun v => { v with trans := some ⟨.loose, none, false⟩ }).modPort 0 fun e => { e with sref := .entering false }).transitionReady = false ∧
    lab.selv.ramp = none := by decide +kernel
theorem test_transition : (after .deviceStateTransitionEnd (selvF fun v => { v with trans := some ⟨.burst, none, false⟩ })).selv.windowLeft = 2000 ∧
    (after .deviceStateTransitionEnd (selvF fun v => { v with trans := some ⟨.loose, none, false⟩ })).selv.st = .loose := by decide +kernel
/-- Selvage with the GPIO hem event enabled. -/
def hem : State := { bare with selv := { bare.selv with st := .selvage, wake := 9 } }
theorem test_wit_hem : hem.shuskaub = true ∧ hem.selv.wake.getLsbD 0 = true ∧ hem.selv.wake.getLsbD 3 = true ∧ hem.selv.st = .selvage ∧
    hem.selv.wake.getLsbD 1 = false ∧ lab.selv.st ≠ .selvage := by decide +kernel
theorem test_hem : (after (.hemEvent .gpio) hem).selv.trans.map (fun t => t.target) = some .sentinel ∧ (after (.hemEvent .soundwire) hem).selv.trans = none := by
  decide +kernel
theorem test_ramp : let s := labW 0 fun w => { w with ppoint := 2 }
    (after .railRampDone { s with selv := { s.selv with ramp := some 2 } }).selv.rail = 2 ∧ (selvF fun v => { v with ramp := some 2 }).selv.ramp = some 2 := by
  decide +kernel
/-- A hard swatch's powered skein keeps its P-point but at a tick. -/
theorem test_wit_repower : let s := (labW 1 fun w => { w with st := .knitting }); s.powered 4 = true ∧ (s.wantOn s.selv.st).getLsbD 4 = true ∧
    s.swatchOf 0 = some 0 ∧ (s.swatches[(0 : Fin 8)]).cls = .free := by decide +kernel
theorem test_settings : (after (.setBudget (ent 0xFF [(8, 5999)])) lab).selv.budget = 6000 ∧ (after (.setBudget (ent 0xFF [(8, 40001), (12, 1)])) lab).selv.budget = 40000 ∧
    (after (.setBudget (ent 0xFF [(8, 7000), (12, 1)])) lab).selv.budgetLock = true ∧ (after (.setWake (ent 0xFF [(8, 0x101)])) lab).selv.wake = 0x101 := by
  decide +kernel
theorem test_restart_cmd : (after (.restart (ent 0xFF [(8, 2)])) bare).selv.restartCmd = true ∧ (after (.restart (ent 0xFF [(8, 2)])) bare).boot.forceFull = some true := by
  decide +kernel
/-- Budget 30000: 30001 lowers, 27000 is inside the band, 26999 raises a lowered skein. -/
theorem test_wit_budget : lab.selv.budget.toNat < 30001 ∧ lab.selv.budget.toNat * 9 ≤ 27000 * 10 ∧ 26999 * 10 < lab.selv.budget.toNat * 9 ∧
    lab.lowerable .free = [0, 1] ∧ bare.lowerable .free = [] ∧ (lab.selv.thermalStep = 0) ∧
    (∃ k : Fin 16, 0 < (selvF fun v => { v with limited := v.limited.set 3 1 }).selv.limited[k]) := by decide +kernel
theorem test_limiter_band : (after (.budgetLimiter 27000) lab).selv.fault = 0 := by decide +kernel
def burst : State := selvF fun v => { v with st := .burst, windowLeft := 2000, ppoint := v.ppoint.set 0 3 }
theorem test_wit_burst : burst.selv.st = .burst ∧ lab.selv.st ≠ .burst ∧ (∃ k : Fin 16, burst.powered k = true ∧ burst.selv.ppoint[k] = 3) ∧
    burst.selv.trans = none ∧ burst.selv.burstJoules + 999 < 1000 := by decide +kernel
theorem test_burst : (after (.burstPowerCheck 62000) burst).selv.windowLeft = 1999 ∧ (after (.burstPowerCheck 62000) burst).selv.capped = 0 ∧
    (after (.burstWindowEnd 1000) burst).selv.burstJoules = 0 := by decide +kernel
def hot (die st : Half) : Readings := ⟨Vector.replicate 20 die, Vector.replicate 4 st, 20⟩
theorem test_wit_sensors : (hot 94 87).die < 95 ∧ (hot 94 87).stackMax < 88 ∧ 95 ≤ (hot 95 20).die ∧ 88 ≤ (hot 20 88).stackMax ∧ (hot 99 91).die < 100 ∧
    (hot 99 91).stackMax < 92 ∧ 105 ≤ (hot 105 20).die ∧ 98 ≤ (hot 20 98).stackMax ∧ 120 ≤ (hot 120 20).die ∧ lab.selv.thermtripN = true ∧
    lab.selv.st ≠ .selvage := by decide +kernel
theorem test_sensors : (after (.sensorSample (hot 94 87)) lab).selv.thermalStep = 0 ∧ (after (.sensorSample (hot 20 88)) lab).selv.thermalStep = 1 ∧
    ((after (.sensorSample (hot 105 20)) lab).swatches[1]).st = .held ∧ (after (.sensorSample (hot 105 20)) lab).selv.thermalStep = 2 ∧
    (after (.sensorSample (hot 120 20)) lab).selv.thermtripN = false := by decide +kernel
theorem test_wit_steps : let s (k : Fin 3) (r : Readings) := selvF fun v => { v with thermalStep := k, readings := some r, raising := true }
    (s 2 (hot 20 20)).lowerable .free ≠ [] ∧ (s 2 (hot 95 20)).cooler 95 87 = false ∧ (s 2 (hot 94 86)).cooler 95 87 = true ∧
    (s 1 (hot 20 20)).selv.raising = true ∧ (∀ k : Fin 16, lab.selv.throttled[k] = 0) ∧
    (∃ k : Fin 16, 0 < (selvF fun v => { v with throttled := v.throttled.set 3 1 }).selv.throttled[k]) ∧ bare.lowerable .hard = [] := by decide +kernel
theorem test_steps : let s (k : Fin 3) (r : Readings) := selvF fun v => { v with thermalStep := k, readings := some r, raising := true }
    (after .thermalStepRelease (s 2 (hot 94 86))).selv.thermalStep = 1 ∧ (after .thermalStepRelease (s 1 (hot 90 20))).selv.thermalStep = 1 ∧
    (after .thermalStepRelease (s 1 (hot 89 82))).selv.thermalStep = 0 ∧ (after .thermalRaise (s 1 (hot 20 20))).selv.raising = false := by decide +kernel
/-- Completion rings: HOLDOFF, a doorbell within its bounds, a reply of the other die, a tick of the twin. -/
theorem test_wit_cq : (lab.modCq 3 fun c => { c with holdoff := true, due := true }).cqs[(3 : Fin 16)].due = true ∧ (lab.cqs[(3 : Fin 16)]).holdoff = false ∧
    (lab.cqs[(3 : Fin 16)]).held = [] ∧ 0 < ringSize (lab.cqs[(3 : Fin 16)]).cfg ∧ (lab.cqs[(3 : Fin 16)]).distaffOwned = false ∧
    (0 + 16 - (lab.cqs[(3 : Fin 16)]).head.toNat) % 16 ≤ ((lab.cqs[(3 : Fin 16)]).tail.toNat + 16 - (lab.cqs[(3 : Fin 16)]).head.toNat) % 16 ∧
    ({ lab with tick := { lab.tick with twinDone := some 4 } } : State).tick.twinDone = some 4 ∧ lab.tick.twinHeld = [] ∧ lab.tick.twinDone ≠ some 4 := by
  decide +kernel
theorem test_ring_control : ((after (.ringEnable 0 (.sq 3)) (offRing 0xF0014)).sqs[3]).fsm.st = .rising ∧
    ((after (.ringEnable 0 (.sq 3)) (offRing 0xF0000)).sqs[3]).faultKind = 1 ∧ ((after (.ringDisable 0 (.sq 3)) lab).sqs[3]).fsm.st = .falling ∧
    ((after (.ringAccessFault (.sq 3)) lab).sqs[3]).faultKind = 3 ∧ (after (.tickDone 4) { lab with tick := { lab.tick with twinDone := some 4 } }).tick.twinDone = none := by
  decide +kernel
theorem test_wit_functions : lab.fnExists 0 = true ∧ lab.fnExists 1 = false ∧ lab.ringFn 5 = 0 ∧ (lab.sqs[(5 : Fin 16)]).distaffOwned = false ∧
    lab.hostPath = lab.fnPort 0 ∧ (portIn .down 4).hostPath ≠ (portIn .down 4).fnPort 0 ∧ lab.portFn 4 = some 0 ∧
    ({ lab with fns := lab.fns.set 0 { HostFn.reset with d3hot := true } } : State).fns[(0 : Fin 2)].pba = 0 ∧
    (labW 1 fun w => { w with windows := ⟨hostBase, 0x1000, 3, 3⟩ :: w.windows }).swatches[(1 : Fin 8)].hostWindow = true ∧
    ({ lab with fns := lab.fns.set 0 { HostFn.reset with pba := 0x20 } } : State).fns[(0 : Fin 2)].pba.getLsbD 5 = true ∧ lab.boot.phase = .done := by
  decide +kernel
theorem test_flr : let s := labW 1 fun w => { w with windows := ⟨hostBase, 0x1000, 3, 3⟩ :: w.windows }
    ((after (.functionLevelReset 0) s).swatches[1]).st = .held ∧ ((after (.functionLevelReset 0) s).sqs[5]).epoch = 1 ∧
    ((after (.functionLevelReset 0) s).fns[0]).resetting = true ∧
    ((after (.d3hotEntry 0) s).swatches[1]).st = .held := by decide +kernel
theorem test_unmask : (after (.msixUnmask 0 5) { lab with fns := lab.fns.set 0 { HostFn.reset with pba := 0x20 } }).out = [.msix 0 5] ∧
    (after (.msixUnmask 0 5) { lab with fns := lab.fns.set 0 { HostFn.reset with pba := 0x20 }, selv := { lab.selv with ready := false } }).out = [] := by
  decide +kernel
/-- BAR4 over the host-held page; a refused and an out-of-range access; the twin window. -/
def bar4Lab : State := { withHank with fns := lab.fns.set 0 { HostFn.reset with bar4Base := 0x1000000000 } }
theorem test_wit_bar4 : bar4Lab.bar4In 0 0 4 = true ∧ bar4Lab.bar4In 0 0x3FFFFFFF 2 = false ∧ bar4Lab.bar4In 0 0x3FFFFFFE 2 = true ∧
    bar4Lab.region 0x1000000000 ≠ .twin ∧ bar4Lab.hostCheck 0x1000000000 4 false = .ok 0x1000000000 ∧ bar4Lab.hostCheck 0x1000000000 4 true = .ok 0x1000000000 ∧
    bar4Lab.hostCheck 0x1000200000 4 false = .refused ∧ bar4Lab.hostCheck 0x1000200000 4 true = .refused ∧ bar4Lab.poison = [] := by decide +kernel
theorem test_wit_bar4_twin : prim.twinPort = some 5 ∧ prim.region twinBase = .twin ∧ prim.selv.ready = true ∧
    ({ prim with fns := prim.fns.set 0 { HostFn.reset with bar4Base := BitVec.ofNat 64 twinBase } } : State).bar4In 0 0 64 = true := by decide +kernel
theorem test_bar4 : memRead (after (.bar4Write 0 4 [1, 2]) bar4Lab).mem 0x1000000004 3 = [1, 2, 0] ∧
    (after (.bar4Read 0 0x200000 2) bar4Lab).out = [.barData 0 false [0xFF, 0xFF]] ∧ (after (.bar4Read 0 0x200000 2) bar4Lab).selv.badAccess = 1 := by decide +kernel
theorem test_wit_link : lab.fuses.shusPcie = false ∧ Build.n0H2S2.fuses.shusPcie = true ∧ lab.selv.ready = true ∧
    ({ selvF (fun v => { v with ready := false }) with shusPcieUp := true } : State).mgmtPresent = true := by decide +kernel

/-! ### Registers -/

/-- `lab` with a grant of function 0 on a block. -/
def granted (block : Half) : State := { lab with grants := [⟨block, .host 0, none, []⟩] }
theorem test_wit_blocks : lab.blockAt 0x10000004 = some (.selv, 4) ∧ lab.blockAt 0x1000000C = some (.selv, 0xC) ∧ lab.blockAt 0x10000030 = some (.selv, 0x30) ∧
    lab.blockAt 0x10000020 = some (.selv, 0x20) ∧ lab.blockAt 0x1200000C = some (.edge 0, 0xC) ∧ lab.blockAt 0x10101008 = some (.mesh 1, 8) ∧
    lab.blockAt 0x1FFFFFFC = none ∧ lab.blockAt 0x10020008 = some (.tick, 8) ∧ Blk.tick.wide 8 = true ∧ Blk.selv.wide 4 = false ∧ lab.latch = [] ∧
    lab.twinReg 0x10000004 = none ∧ lab.reaches (.host 0) .selv 4 false = false ∧ lab.reaches .firmware .selv 4 true = true ∧
    lab.blkGone .selv = false ∧ lab.reaches (.host 0) .tick 8 false = true ∧ lab.reaches (.host 0) .tick 12 false = true ∧
    lab.twinReg 0x10020008 = none := by decide +kernel
theorem test_wit_w1c : (lab.blkW1c .selv 4 1).isSome = true ∧ lab.selv.bootLock = false ∧ (selvF fun v => { v with bootLock := true }).selv.bootLock = true ∧
    (0 : Nat) ∉ [4, 0xC, 0x20, 0x30] := by decide +kernel
/-- RW1C clears the bits written 1; the firmware writes the wake control under its mask; a locked word keeps its value; an address
of no block reads all ones and counts (R14, R16, R25, R100). -/
theorem test_register_write : (after (.registerWrite (.yarn 0x10000004) 5 .firmware) (selvF fun v => { v with fault := 7 })).selv.fault = 2 ∧
    (after (.registerWrite (.yarn 0x10000030) 0xFFFFFFFF .firmware) lab).selv.wake = 0xF0F ∧
    (after (.registerWrite (.yarn 0x10000020) 7000 .firmware) (selvF fun v => { v with budgetLock := true })).selv.budget = 30000 ∧
    (after (.readClear (.yarn 0x1FFFFFFC) .firmware) lab).out = [.readData .firmware 0xFFFFFFFF] ∧
    (after (.readClear (.yarn 0x1FFFFFFC) .firmware) lab).selv.badAccess = 1 := by decide +kernel
theorem test_read_clear : (after (.readClear (.yarn 0x10000034) .firmware) (selvF fun v => { v with badAccess := 9 })).selv.badAccess = 0 ∧
    (after (.readClear (.yarn 0x10000034) .firmware) (selvF fun v => { v with badAccess := 9 })).out = [.readData .firmware 9] := by decide +kernel
/-- The high word is what it was when the low word was read (R13). -/
theorem test_latch : let s : State := { lab with tick := { lab.tick with count := 0x500000007 } }
    let t : State := { after (.readClear (.yarn 0x10020008) (.host 0)) s with tick := { lab.tick with count := 0x900000000 } }
    (after (.readClear (.yarn 0x1002000C) (.host 0)) t).out = [.readData (.host 0) 7, .readData (.host 0) 5] := by decide +kernel
theorem test_bar2 : (after (.bar2Access 0 0x20008 .read) lab).out = [.readData (.host 0) 0] ∧ (after (.bar2Access 0 0x20008 .oddRead) lab).out =
      [.readData (.host 0) 0xFFFFFFFF] ∧ (after (.bar2Access 1 0x20008 .read) lab).out = [] ∧
    (after (.unmappedRegisterAccess 0x10000002 .oddRead .firmware) lab).out = [.readData .firmware 0xFFFFFFFF] := by decide +kernel
/-- R40: vendor and device; the resizable BAR takes 10 to 17; D3hot by the power state. -/
theorem test_config : (after (.readClear (.config 0 .vendorId) (.host 0)) lab).out = [.readData (.host 0) 0x1F9C] ∧
    ((after (.registerWrite (.config 0 .bar4Size) 17 (.host 0)) lab).fns[0]).bar4Log = 7 ∧
    ((after (.registerWrite (.config 0 .bar4Size) 18 (.host 0)) lab).fns[0]).bar4Log = 0 ∧
    ((after (.registerWrite (.config 0 .powerState) 3 (.host 0)) lab).fns[0]).d3hot = true := by decide +kernel

/-! ### Control registers -/

theorem test_wit_ndl : (granted 0x800).skeinIn (skeinOf 0) = true ∧ (granted 0x800).reaches (.host 0) (.ndl 0) 0 true = true ∧
    (granted 0x800).holds (.host 0) (.ndl 0) 0 = true ∧ (granted 0x2000).reaches (.host 0) (.edge 0) 8 true = true := by decide +kernel
def heldN (f : Needle → Needle) : State := (granted 0x800).modNeedle 0 f
theorem test_ndl : ((after (.ndlHalt 0 (.host 0)) (granted 0x800)).needles[0]).st = .halted ∧
    ((after (.ndlHalt 0 (.host 0)) (heldN fun x => { x with wait := .fenceL })).needles[0]).haltReq = true ∧
    ((after (.ndlStep 0 (.host 0)) (heldN fun x => { x with st := .halted })).needles[0]).stepReq = true ∧
    ((after (.ndlRun 0 (.host 0)) (heldN fun x => { x with st := .halted })).needles[0]).st = .running ∧
    ((after (.ndlRun 0 (.host 0)) (heldN fun x => { x with st := .idle })).needles[0]).st = .idle := by decide +kernel
theorem test_wit_mover_clear : bare.skeinIn 5 = true ∧ bare.swatchOf 5 = none ∧ lab.namedStacks.contains 0 = true ∧ lab.isHome 0 = true ∧ lab.isHome 1 = false ∧
    (((withBar [0]).skeins[(0 : Fin 16)]).mesh.barriers[(3 : Fin 16)]).arrived ≠ [] := by decide +kernel
/-- CLEAR empties the mover and ends a MOVE.WAIT on it (R283). -/
theorem test_mover_clear : let s := (bare.modMover 0 0 fun x => { x with queue := [desc none 0 0], fault := some 1 }).modNeedle 0 fun x => { x with wait := .mover 0 }
    ((after (.moverClear 0 0 .firmware) s).moverOf 0 0).queue = [] ∧ ((after (.moverClear 0 0 .firmware) s).needles[0]).wait = .none := by decide +kernel
theorem test_edge : ((after (.edgeRetrain 0 .firmware) lab).ports[0]).st = .retrain ∧ ((after (.edgeRetrain 2 .firmware) lab).ports[2]).st = lab.ports[2].st ∧
    ((after (.edgeCtrlLock 0 .firmware) lab).ports[0]).lock = true ∧ ((after (.edgeCtrlLock 0 (.host 0)) (granted 0x2000)).ports[0]).lock = false ∧
    ((after (.stkCtrlLock 0 .firmware) lab).stack[0]).lock = true := by decide +kernel
theorem test_flag_write : ((after (.meshFlagWrite 0 63 9 .firmware) lab).skeins[0]).mesh.flags[63] = 9 ∧
    (((after (.meshBarCfgWrite 0 3 0x430001 .firmware) lab).skeins[0]).mesh.barriers[3]).enable = true ∧
    ((after (.meshBarCfgWrite 0 3 0x430001 .firmware) (withBar [0])).skeins[0]).mesh.events = 0x10 := by decide +kernel
theorem test_seed : ((after (.cardLfsrSeedWrite (.skein 0 1) 0 .firmware) lab).skeins[0]).carders[1].lfsr = 1 ∧
    ((after (.cardLfsrSeedWrite (.edge 3) 77 .firmware) lab).edgeCarders[3]).lfsr = 77 ∧
    ((after (.statClear (.edge 3) .firmware) { lab with edgeCarders := lab.edgeCarders.set 3 { lab.edgeCarders[3] with nan := 5 } }).edgeCarders[3]).nan = 0 := by
  decide +kernel
/-- A view of twin memory on the twin primary's E5. -/
def viewOn (f : View → View) : State :=
  { prim with edgeCarders := prim.edgeCarders.set 5 { prim.edgeCarders[5] with
      slots := prim.edgeCarders[5].slots.set 0 ([0, 0, 7, 7, 0, 0, 0, 0] ++ List.replicate 56 0)
      views := prim.edgeCarders[5].views.set 0 (f ⟨BitVec.ofNat 64 twinBase, 1, 7, 7, 0, 0, true, false, EnFsm.off⟩) } }
theorem test_wit_view : (viewOn id).viewOk 5 ((viewOn id).edgeCarders[(5 : Fin 10)].views[(0 : Fin 4)]) = true ∧ (viewOn id).viewJob 5 = none ∧
    (viewOn fun v => { v with size := 0 }).viewOk 5 ((viewOn fun v => { v with size := 0 }).edgeCarders[(5 : Fin 10)].views[(0 : Fin 4)]) = false := by
  decide +kernel
theorem test_view : (((after (.functionEnable (.view 5 0) .firmware) (viewOn id)).edgeCarders[5]).views[0]).fsm.st = .rising ∧
    ((after (.functionEnable (.view 5 0) .firmware) (viewOn fun v => { v with size := 0 })).edgeCarders[5]).events = 0x20 ∧
    (((after (.functionRiseDone (.view 5 0)) (viewOn fun v => { v with fsm := ⟨true, .rising, false, false⟩ })).edgeCarders[5]).views[0]).fsm.st = .on ∧
    (((after (.functionFallDone (.view 5 0)) (viewOn fun v => { v with fsm := ⟨false, .falling, false, false⟩ })).edgeCarders[5]).views[0]).fsm.st = .off := by
  decide +kernel
theorem test_wit_bobbin_fsm : lab.fuses.shusDies ≠ 0 ∧ lab.blkGone .bob = false ∧ (bobOn id).bobbins[(0 : Fin 48)].bound = true ∧ lab.bobbins[(0 : Fin 48)].bound = false ∧
    (bobOn fun b => { b with fsm := ⟨true, .rising, false, false⟩ }).bobbins[(0 : Fin 48)].fsm.st = .rising ∧
    (bobOn fun b => { b with fsm := ⟨false, .falling, false, false⟩ }).bobbins[(0 : Fin 48)].opened = none ∧
    (bobOn fun b => { b with fsm := ⟨false, .falling, false, false⟩ }).bobbins[(0 : Fin 48)].unbindCmd = none := by decide +kernel
theorem test_bobbin_fsm : ((after (.functionEnable (.bobbin 0) .firmware) (bobOn fun b => { b with fsm := EnFsm.off })).bobbins[0]).fsm.st = .rising ∧
    ((after (.functionRiseDone (.bobbin 0)) (bobOn fun b => { b with fsm := ⟨true, .rising, false, false⟩ })).bobbins[0]).fsm.st = .on ∧
    ((after (.functionFallDone (.bobbin 0)) (bobOn fun b => { b with fsm := ⟨false, .falling, false, false⟩ })).bobbins[0]).fsm.st = .off ∧
    ((after (.functionDisable (.bobbin 0) .firmware) (bobOn id)).bobbins[0]).fsm.st = .falling := by decide +kernel
def dst0 (f : Distaff → Distaff) : State := lab.modDst 0 f
theorem test_wit_dst : lab.selv.st.working = true ∧ (lab.distaffs[(0 : Fin 4)]).granted = none ∧ (lab.distaffs[(0 : Fin 4)]).halting = false ∧
    ((lab.distaffs[(0 : Fin 4)]).st = .off ∨ (lab.distaffs[(0 : Fin 4)]).st = .halted) ∧ (lab.distaffs[(0 : Fin 4)]).pendingRun = false ∧
    ((core id).distaffs[(0 : Fin 4)]).granted ≠ none := by decide +kernel
theorem test_dst_run : ((after (.dstRun 0 .firmware) (dst0 fun c => { c with resetPc := 0x80, st := .halted })).distaffs[0]).pc = 0x80 ∧
    ((after (.dstHalt 0 .firmware) (core id)).distaffs[0]).halting = true ∧
    ((after (.dstHalt 0 .firmware) (core fun c => { c with st := .waiting })).distaffs[0]).st = .halted ∧
    ((after (.dstHaltDone 0) (core fun c => { c with halting := true })).distaffs[0]).st = .halted := by decide +kernel

/-! ### Pins, UART, TAP, the board block -/

/-- A board block of one pair: BOB_CSI_CFG of port 0 becomes 0x821. -/
def board : List Byte := let body := leBytes 4 0x4000 ++ leBytes 4 0x821
  leBytes 4 0x44524F42 ++ leBytes 2 1 ++ leBytes 2 1 ++ leBytes 4 (crc32c body) ++ leBytes 4 0 ++ body
def withBoard (l : List Byte) : State := { lab with flash := { lab.flash with board := l } }
theorem test_wit_board : (lab.portsOf .shus).any lab.portUp = true ∧ ((portIn .down 9).portsOf .shus).any (portIn .down 9).portUp = false ∧
    (boardPairs (leBytes 4 0x44524F42)).isNone = true := by decide +kernel
theorem test_board : boardPairs board = some [(0x4000, 0x821)] ∧ (withBoard board).applyBoard.io.boardStatus = 5 ∧
    (withBoard []).applyBoard.io.boardStatus = 2 := by decide +kernel
def ioF (f : IoPorts → IoPorts) : State := { lab with io := f lab.io }
theorem test_wit_pins : lab.blkGone .pin = false ∧ lab.shuskaub = true ∧ (lab.pins[(3 : Fin 32)]).parking = false ∧
    ({ lab with fuses := Build.twinSecondary.fuses } : State).shuskaub = false ∧ (lab.pins[(3 : Fin 32)]).cfg.getLsbD 6 = false ∧
    (lab.modPin 3 fun x => { x with cfg := 0x40, ref := false }).pins[(3 : Fin 32)].cfg.getLsbD 6 = true := by decide +kernel
theorem test_pins : ((after (.pinFuncChange 3 0x1FF .firmware) lab).pins[3]).cfg = 0x1FF ∧ ((after (.pinFuncChange 3 1 .firmware) lab).pins[3]).parking = true ∧
    ((after (.pinOutSet 8 .firmware) lab).pins[3]).cfg.getLsbD 4 = true ∧ ((after (.pinOutClr 8 .firmware) (after (.pinOutSet 8 .firmware) lab)).pins[3]).cfg.getLsbD 4 = false ∧
    ((after (.pinParkEnd 3 true) (after (.pinFuncChange 3 1 .firmware) lab)).pins[3]).parking = false := by decide +kernel
theorem test_pin_wake : (after (.pinWake 3 true) (lab.modPin 3 fun x => { x with cfg := 0x40, ref := false })).wakeEvents = 8 ∧
    (after (.pinWake 3 true) lab).wakeEvents = 0 := by decide +kernel
theorem test_wit_uart : lab.io.uartRx = [] ∧ (ioF fun i => { i with uartCfg := 1 }).io.uartCfg.getLsbD 0 = true ∧ lab.io.uartResync = false ∧
    lab.io.uartTx = [] ∧ lab.io.uartBusy = false ∧ (ioF fun i => { i with uartTx := List.replicate 64 1 }).io.uartTx.length = 64 ∧
    (ioF fun i => { i with uartRx := List.replicate 63 1 }).io.uartRx.length < 64 := by decide +kernel
theorem test_uart : (after (.uartCharacter 0x41 true true false false) (ioF fun i => { i with uartCfg := 1 })).io.uartRx = [0x41] ∧
    (after (.uartCharacter 0x41 true true false false) (ioF fun i => { i with uartCfg := 1, uartRx := List.replicate 64 1 })).io.uartEvents = 4 ∧
    (after (.uartDataRead .firmware) (ioF fun i => { i with uartRx := [0x41] })).out = [.readData .firmware 0x441] ∧
    (after (.uartDataWrite 0x1FF .firmware) (ioF fun i => { i with uartCfg := 1 })).out = [.uart 0xFF] ∧
    (after (.uartTxCharacterDone true) (ioF fun i => { i with uartCfg := 1, uartTx := [7], uartBusy := true })).out = [.uart 7] := by decide +kernel
theorem test_wit_tap : lab.jtag.instr ≠ .extest ∧ lab.jtagLink = true ∧ (portIn .down 9).jtagLink = false ∧
    ({ lab with jtag := { lab.jtag with instr := .extest } } : State).jtag.instr = .extest ∧ lab.blockAt 0x1FFFFFFC = none := by decide +kernel
theorem test_tap : (after .idcode lab).out = [.jtag 0x1B610A6F] ∧ (after (.regRead 0x10000000) (portIn .down 9)).jtag.regErr = true ∧
    (after .jtagStatus (portIn .down 9)).jtag.status = BitVec.allOnes 96 ∧ (after .clamp lab).jtag.instr = .clamp ∧
    ((after .bypass { lab with jtag := { lab.jtag with instr := .extest } }).pins[7]).parking = true := by decide +kernel

/-! ### Management -/

theorem test_wit_objects : lab.objOk 1 0x2000 160 = true ∧ lab.objOk 1 hostBase 160 = false ∧ lab.objOk 1 0x2000 lab.distTable.length = true ∧
    lab.objOk 1 hostBase lab.distTable.length = false := by decide +kernel
theorem test_read_map : (after (.readMap (ent 0xFF [(8, hostBase)])) lab).cqs[1].tail = 1 ∧ (lab.mapTable.length = 160) := by decide +kernel
theorem test_boot_ctrl : (after (.setBootCtrl (ent 0xFF [(8, 3), (9, 1), (10, 1)])) lab).selv.order = 3 ∧
    (after (.setBootCtrl (ent 0xFF [(8, 3), (9, 1), (10, 1)])) lab).selv.bootLock = true ∧
    cmdSetBootCtrl.check 15 false (ent 0xFF [(10, 2)]) lab = some (stInvalidParam, 10) ∧
    (after (.setRepairCtrl (ent 0xFF [(8, 1), (9, 1), (12, 0x0010050A)])) lab).rep.limits = 0x0010050A := by decide +kernel
theorem test_wit_grants : lab.grantOf 0x2002 = none ∧ ((granted 0x2002).grantOf 0x2002).isSome = true ∧ Holder.host 0 = Holder.host (lab.ringFn 1) ∧
    (∀ g ∈ lab.grants, g.block = 0x2002 → g.waiting = none) ∧ lab.blockBusy 4 2 = false ∧ lab.mayHold (.host 0) 4 2 = true ∧
    lab.mayHold (.swatch 1) 1 4 = true ∧ ({ lab with jobs := [(ref1, 0x603, (ent 0xFF [(8, 2)]).params.toList)] } : State).blockBusy 4 2 = true ∧
    lab.mayHold (.host 0) 1 4 = false ∧ lab.blockBusy 1 4 = false := by decide +kernel
theorem test_grant : (after (.expertGrant (ent 0xFF [(8, 0x2002)])) lab).grants.map (fun g => (g.block, g.waiting.isSome)) = [(0x2002, true)] ∧
    ((after (.grantTakesEffect 0x2002) (after (.expertGrant (ent 0xFF [(8, 0x2002)])) lab)).grants.map fun g => g.waiting) = [none] ∧
    (after (.expertRelease (ent 0xFF [(8, 0x2002)])) (granted 0x2002)).grants = [] := by decide +kernel
theorem test_debug : memRead (after (.debugEcho (ent 0xFF [(8, 77)])) lab).mem (hostBase + 20) 2 = [77, 0] ∧
    (after (.debugSetLog (ent 0xFF [(8, 3)])) lab).io.logLevel = 3 := by decide +kernel
theorem test_wit_flash : ({ lab with flash := { lab.flash with writing := some (true, [1], ref1) } } : State).flash.writing = some (true, [1], ref1) ∧
    lab.flash.writing = none := by decide +kernel
theorem test_flash_fail : (after (.fwUpdateFlashDone false) { lab with flash := { lab.flash with writing := some (true, [1], ref1) } }).flash.writing = none := by
  decide +kernel
theorem test_log_fit : logFit [[1, 2], [3, 4, 5], [6]] 4 = ([1, 2], [[3, 4, 5], [6]]) := by decide +kernel

/-! ### Swatches and drafts -/

theorem test_cast_swatch : let t := after (.castSwatch castEnt) withWins
    (t.swatches[5]).st = .cast ∧ (t.swatches[5]).ppoint = 2 ∧ (t.swatches[5]).cls = .free ∧ (t.swatches[5]).covers 5 = true ∧
    (t.swatches[5]).covers 6 = false := by decide +kernel
theorem test_knit : let t := after (.knit (ent 1 [(10, 2), (12, 4)])) lab
    (t.swatches[1]).knit.map (fun k => (k.rows, k.entry, k.armed)) = some (2, 4, true) ∧ t.jobs.length = 1 := by decide +kernel
theorem test_stop : (after (.stopKnit (ent 0 [])) (labW 0 fun w => { w with cls := .hard })).swatches[0].knit.map (fun k => k.stop) = some true := by decide +kernel
theorem test_hold : let t := after (.holdSwatch (ent 0 [])) (labW 0 fun w => { w with cls := .hard, pubDepth := 2 })
    (t.swatches[0]).st = .held ∧ (t.swatches[0]).pubDepth = 0 ∧ (t.swatches[0]).holdStep = .quiesce ∧ (t.needles[0]).st = .idle := by decide +kernel
theorem test_bind_off : let t := after (.bindOffSwatch (ent 1 [])) lab
    (t.swatches[1]).st = .bound ∧ (t.swatches[1]).knit = none := by decide +kernel
/-- Swatch 0 Held: quiescing, saving with its save area in stack memory, in place in Sentinel, restoring, restored too early. -/
def heldW (f : Swatch → Swatch) : State := labW 0 fun w => f { w with st := .held, causes := [0], saveBase := 0x1000000000 }
theorem test_wit_held : (heldW fun w => { w with holdStep := .quiesce }).swatches[(0 : Fin 8)].holdStep = .quiesce ∧ lab.swatches[(0 : Fin 8)].st ≠ .held ∧
    (heldW fun w => { w with holdStep := .saving }).anyAccess 0 = false ∧ (heldW fun w => { w with holdStep := .saving }).inPlace = false ∧
    ({ heldW (fun w => { w with holdStep := .saving }) with selv := { lab.selv with st := .sentinel } } : State).inPlace = true ∧
    (heldW id).cache = [] ∧ 0x4000000 ≤ ((heldW id).swatches[(0 : Fin 8)]).saveBase.toNat ∧ ((heldW id).swatches[(0 : Fin 8)]).holdCmd = none ∧
    (heldW id).restoreBad 0 = none ∧ (heldW fun w => { w with status := 0x40 }).restoreBad 0 = some 1 ∧
    ({ heldW (fun w => { w with causes := [0x10] }) with selv := { lab.selv with st := .selvage } } : State).restoreBad 0 = some 2 ∧
    (heldW fun w => { w with restoreCmd := some ref1 }).swatches[(0 : Fin 8)].restoreCmd = some ref1 := by decide +kernel
theorem test_wit_held_needles : (∀ n ∈ ((heldW id).swatches[(0 : Fin 8)]).needleList, ((heldW id).needles[n]).bed.drains = []) ∧
    (∀ n ∈ ((heldW id).swatches[(0 : Fin 8)]).needleList, ∀ c ∈ ((heldW id).needles[n]).feed, c.1 < 0x20000) := by decide +kernel
theorem test_wit_held_inv : Safety.Inv (heldW id) := by
  unfold Safety.Inv
  decide
theorem test_quiesce : ((after (.holdQuiesceTimeout 0) (heldW fun w => { w with holdStep := .quiesce })).swatches[0]).holdStep = .saving := by decide +kernel
/-- The save keeps the store's bytes in the save area (R292). -/
theorem test_save : let t := after (.holdSaveDone 0) { heldW (fun w => { w with holdStep := .saving }) with mem := [(5, 9)] }
    (t.swatches[0]).saveValid = true ∧ memGet t.mem 0x1000000005 = 9 := by decide +kernel
theorem test_save_in_place : let s : State := { heldW (fun w => { w with holdStep := .saving }) with selv := { lab.selv with st := .sentinel } }
    ((after (.holdSaveDone 0) s).swatches[0]).saveValid = false ∧ ((after (.holdSaveDone 0) s).swatches[0]).holdStep = .none := by decide +kernel
theorem test_reload : let t := after (.restoreReloadDone 0) (heldW fun w => { w with restoreCmd := some ref1 })
    (t.swatches[0]).st = .knitting ∧ (t.swatches[0]).causes = [] ∧ (t.swatches[0]).startNext = false ∧
    ((after (.restoreReloadDone 0) (heldW fun w => { w with restoreCmd := some ref1, cls := .hard })).swatches[0]).startNext = true := by decide +kernel
theorem test_wit_zeroing : (labW 1 fun w => { w with st := .bound, bindCmd := some ref1 }).anyAccess 1 = false ∧ (lab.swatches[(1 : Fin 8)]).bindCmd = none := by
  decide +kernel
theorem test_zeroing : let t := after (.bindOffZeroingDone 1) { (labW 1 fun w => { w with st := .bound, bindCmd := some ref1 }) with mem := [(0x1000000, 3)] }
    (t.swatches[1]).st = .unset ∧ memGet t.mem 0x1000000 = 0 := by decide +kernel
theorem test_ppoint_gauge : ((after (.setSwatchPpoint (ent 1 [(8, 2)])) lab).swatches[1]).ppoint = 2 ∧
    ((after (.setSwatchGauge (ent 0 [(8, 1)])) lab).swatches[0]).nearNext = some true := by decide +kernel
theorem test_distaff_grant : let t := after (.grantDistaff (ent 1 [(8, 3), (16, 0x1000000)])) lab
    (t.distaffs[3]).granted = some 1 ∧ (t.distaffs[3]).x[10] = 1 ∧ (t.distaffs[3]).x[11] = 0x10041000 ∧ (t.distaffs[3]).pc = 0x1000000 ∧
    ((after (.returnDistaff (ent 1 [(8, 3)])) (lab.modDst 3 fun c => { c with granted := some 1 })).distaffs[3]).granted = none := by decide +kernel
/-- Draft 1 with positions 0 and 1 written and slots in the pool of page 4; a commit below 1 takes position 0 and its slot. -/
def drafted : State := labW 2 fun w => { w with
  drafts := [⟨1, 0, 0, [], [0, 1], [⟨0x1000100000, 0, 0⟩, ⟨0x1000100100, 1, 1⟩]⟩], pool := some 4, poolUsed := [0, 1] }
theorem test_wit_draft : (drafted.swatches[(2 : Fin 8)]).drafts.length = 1 ∧ (1 : Byte) ≠ 0 ∧ (lab.swatches[(2 : Fin 8)]).copies = [] := by decide +kernel
theorem test_commit : let t := after (.commitDraft (ent 2 [(8, 1), (9, 1)])) drafted
    ((t.swatches[2]).copies.map fun c => (c.2.1, c.2.2)) = [([(0x1000100000, 0)], 1, 1)] ∧
    ((t.swatches[2]).drafts.map fun d => d.committed) = [[0]] := by decide +kernel
theorem test_frog_draft : let t := after (.frogDraft (ent 2 [(8, 1)])) drafted
    (t.swatches[2]).drafts = [] ∧ (t.swatches[2]).poolUsed = [] := by decide +kernel
/-- A copy of slot 0 (page 4 of band 0) into a row of a KV range of swatch 2. -/
def copying (l : List (Nat × Nat)) : State :=
  { (labW 2 fun w => { w with pool := some 4, poolUsed := [0], copies := [(ref1, l, 1, 0)] }) with
    hanks := [⟨1, 0x1000100000, 1, 2, some 2⟩] }
theorem test_wit_copies : (copying []).swatches[(2 : Fin 8)].copies = [(ref1, [], 1, 0)] ∧ (copying [(0x1000100000, 0)]).portTouches 0x1000100000 256 = false ∧
    ((copying []).swatches[(2 : Fin 8)]).slotAddr 0 = 0x1000040000 ∧ (copying []).inKv 2 0x1000100000 = true ∧ (copying []).onLost 0x1000100000 = false ∧
    ({ copying [(0x1000100000, 0)] with accesses := [{ acc0 (.write [some 1]) .none (.port 0) with addr := 0x1000100000 }] } : State).portTouches 0x1000100000 256 = true ∧
    0x1000040000 + 256 ≤ 0x1000100000 := by decide +kernel
theorem test_wit_copies_lost : ∀ j, j < 256 → (copying []).onLost (0x1000040000 + j) = false ∧ (copying []).onLost (0x1000100000 + j) = false := by decide +kernel
theorem test_copies : memGet (after (.draftCommitCopiesDone 2) { copying [(0x1000100000, 0)] with mem := [(0x1000040003, 8)] }).mem 0x1000100003 = 8 ∧
    ((after (.draftCommitCopiesDone 2) (copying [(0x1000100000, 0)])).swatches[2]).poolUsed = [] := by decide +kernel

/-! ### Memory, programs, rows -/

theorem test_wit_alloc : (bare.allocWhere (ent 0xFF [(8, 3)])).isSome = true ∧ (lab.allocWhere (ent 1 [(8, 1)])).isSome = true ∧
    (withHank.hankOf (ent 0xFF [(8, 1)])).map Hank.target = some none ∧
    (({ lab with hanks := [⟨1, 0x1000000, 1, 0, some 1⟩] } : State).hankOf (ent 1 [(8, 1)])).map Hank.target = some (some 1) := by decide +kernel
theorem test_alloc : ((after (.allocHanks (ent 0xFF [(8, 3)])) lab).hanks.map fun h => (h.id, h.count)) = [(1, 3)] ∧
    (after (.allocHanks (ent 0xFF [(8, 3)])) lab).pages.map (fun p => (p.count, p.st)) = [(3, .hostHeld 1)] ∧
    (after (.freeHanks (ent 0xFF [(8, 1)])) withHank).hanks = [] ∧ (after (.freeHanks (ent 0xFF [(8, 1)])) withHank).pages = [] := by decide +kernel
def fillEnt : Entry := ent 1 [(8, 0x1000000), (16, 64), (24, 0xA5)]
def copyEnt : Entry := ent 1 [(8, 0x1000000), (16, 0x1000040), (24, 64)]
theorem test_wit_mem : (∀ g ∈ granules (fillEnt.u 8 8) (fillEnt.u 16 8), lab.memPiece fillEnt.target g .write = some g ∧ lab.onLost g = false ∧ lab.region g ≠ .twin) ∧
    (∀ g ∈ granules (copyEnt.u 8 8) (copyEnt.u 24 8), lab.memPiece copyEnt.target g .read = some g ∧ lab.isBad g = false ∧ lab.region g ≠ .twin ∧ lab.region g ≠ .views) ∧
    (∀ g ∈ granules (copyEnt.u 16 8) (copyEnt.u 24 8), lab.memPiece copyEnt.target g .write = some g ∧ lab.onLost g = false ∧ lab.region g ≠ .twin) ∧
    lab.poison = [] ∧ (∀ x ∈ lab.accesses, x.partOf ref1 = false) ∧ (lab.swatches[(1 : Fin 8)]).saveValid = false := by decide +kernel
/-- A Held swatch with a valid save whose own store a fill writes. -/
def saved1 : State := labW 1 fun w => { w with st := .held, causes := [0], saveValid := true, saveBase := 0x1000000000 }
theorem test_wit_saved : (saved1.swatches[(1 : Fin 8)]).saveValid = true ∧ 0x4000000 ≤ (saved1.swatches[(1 : Fin 8)]).saveBase.toNat ∧
    (∀ g ∈ granules 0x1000000 64, saved1.ownStore 1 g = true) ∧ accepts cmdMemFill fillEnt saved1 = true ∧
    (∀ g ∈ granules 0x1000000 64, saved1.memPiece (some 1) g .write = some g ∧ saved1.onLost g = false ∧ saved1.region g ≠ .twin) := by decide +kernel
theorem test_fill : memRead (after (.memFill fillEnt) lab).mem 0x1000000 8 = [0xA5, 0, 0, 0, 0xA5, 0, 0, 0] ∧
    memGet (after (.memFill fillEnt) saved1).mem (saved1.savedAt 1 0x1000004) = 0xA5 := by decide +kernel
theorem test_copy : memRead (after (.memCopy copyEnt) { lab with mem := [(0x1000001, 9)] }).mem 0x1000040 3 = [0, 9, 0] := by decide +kernel
theorem test_programs : ((after (.loadProgram (ent 1 [(8, 0x2000), (16, 48)])) (withObj lab 0x2000 objProg)).swatches[1]).programs.map (fun p => p.id) = [0, 1] ∧
    ((after (.unloadProgram (ent 1 [])) lab).swatches[1]).programs = [] ∧ ((lab.swatches[(1 : Fin 8)]).program 0).isSome = true := by decide +kernel
theorem test_stitch_map : ((after (.loadStitchMap (ent 1 [(8, 0x2000), (16, 45)])) (withObj lab 0x2000 objMap)).swatches[1]).mapNext.map (fun m => (m.wheel, m.chans.length)) =
    some (1, 1) := by decide +kernel

/-- Rows: swatch 0 free, loose or hard; its needles still run (row not done), or have all ended. -/
def rowW (f : Swatch → Swatch) : State := labW 0 f
def doneW (f : Swatch → Swatch) : State := (labW 0 f).modNeedlesOf 0 fun x => { x with st := .halted, wait := .ended }
theorem test_wit_rows : lab.selv.ready = true ∧ lab.fuses.primary = true ∧ lab.tripped = false ∧ sec.fuses.primary = false ∧
    (rowW fun w => { w with cls := .hard }).rowDone 0 = false ∧ (doneW fun w => { w with cls := .hard }).rowDone 0 = true ∧
    (doneW id).rowDone 0 = true ∧ (rowW fun w => { w with cls := .loose }).rowDone 0 = false ∧ (lab.swatches[(0 : Fin 8)]).startNext = false ∧
    (rowW fun w => { w with st := .cast, knit := some { knit0 with armed := true } }).swatches[(0 : Fin 8)].knit = some { knit0 with armed := true } ∧
    (lab.swatches[(2 : Fin 8)]).st = .held := by decide +kernel
theorem test_tick : let t := after .rowTick lab
    t.tick.count = 1 ∧ t.deviceTime = 100000 ∧ (t.swatches[0]).flipCount = 0 ∧ (t.swatches[0]).st = .knitting := by decide +kernel
theorem test_tick_overrun : let t := after .rowTick (rowW fun w => { w with cls := .hard })
    (t.swatches[0]).st = .frogged ∧ (t.swatches[0]).overruns = 1 ∧ (t.swatches[0]).flipCount = 0 := by decide +kernel
theorem test_tick_flip : ((after .rowTick (doneW fun w => { w with cls := .hard })).swatches[0]).flipCount = 1 ∧
    ((after .rowTick (rowW fun w => { w with cls := .loose })).swatches[0]).flipCount = 1 ∧
    ((after .rowTick (rowW fun w => { w with cls := .loose, pubDepth := 1 })).swatches[0]).status = 0x10 := by decide +kernel
theorem test_wit_frogged : let s (r : Half) := rowW fun w => { w with st := .frogged, cls := .hard, knit := some { knit0 with rows := r } }
    (s 1).anyAccess 0 = false ∧ (s 2).anyAccess 0 = false ∧ (({ knit0 with rows := 2, frogged := 1 } : Knit).more = true) ∧
    ({ knit0 with rows := 1, frogged := 1 } : Knit).more = false := by decide +kernel
theorem test_frog_drain : let s (r : Half) := rowW fun w => { w with st := .frogged, cls := .hard, knit := some { knit0 with rows := r, frogged := 1 } }
    ((after (.frogDrainDone 0) (s 2)).swatches[0]).st = .knitting ∧ ((after (.frogDrainDone 0) (s 1)).swatches[0]).st = .cast ∧
    ((after (.frogDrainDone 0) (s 2)).needles[0]).st = .running := by decide +kernel
theorem test_budget_end : ((after (.budgetWindowEnd 0) (rowW fun w => { w with cls := .hard })).swatches[0]).status = 2 ∧
    ((after (.budgetWindowEnd 0) lab).swatches[0]).status = 0 := by decide +kernel
theorem test_gate : ((after (.swtPubOpen 0) (rowW fun w => { w with pubDepth := 255 })).swatches[0]).pubDepth = 255 ∧
    ((after (.swtPubClose 0) lab).swatches[0]).status = 0x20 ∧ ((after (.swtPubClose 0) (rowW fun w => { w with pubDepth := 1 })).swatches[0]).pubDepth = 0 := by
  decide +kernel
theorem test_tick_commands : (after (.setTickPeriod (ent 0xFF [(8, 5000)])) lab).tick.nextPeriod = 5000 ∧ (after (.setTickPeriod (ent 0xFF [(8, 5000)])) lab).tick.period = 100000 ∧
    (after (.waitTick (ent 0xFF [(8, 5)])) lab).tick.waits.map (fun w => w.row) = [5] := by decide +kernel

/-! ### Carders and repair -/

theorem test_wit_loads : (∀ p : Fin 10, (lab.edgeCarders[p]).loads = []) ∧ (∀ p : Fin 10, (1 : Nat).testBit p.val = true → lab.viewJob p = none) ∧
    (lab.saves[(1 : Fin 8)]) = none ∧ ({ lab with accesses := [acc0 (.read 32) (.view 0 0 0 0 32 0 0 [] .none) (.port 0)] } : State).viewJob 0 = some 0 := by decide +kernel
/-- A card object of one record for slot 3 and two parameters from 5. -/
def objOne : List Byte := leBytes 4 0x44524143 ++ leBytes 2 1 ++ [1, 0] ++ leBytes 2 2 ++ leBytes 2 5 ++ leBytes 4 56 ++ List.replicate 16 0 ++
  ([3, 0] ++ List.replicate 46 0) ++ leBytes 4 77 ++ leBytes 4 78
theorem test_wit_records : ((cardRecords objOne (leAt objOne 6 1) 32).1.map fun r => leAt r 0 1) = [3] ∧ leAt objOne 10 2 = 5 ∧ leAt objOne 8 2 = 2 := by decide +kernel
theorem test_card_load : (cardRecords objOne 1 32).2 = 80 ∧ leAt objOne 84 4 = 78 ∧ (Carder.reset.load objOne).slots[3] = slice objOne 32 48 := by decide +kernel
/-- A view of the twin primary read by needle 0 in a swatch with a window over it, by one of no swatch, and off. -/
def viewed : State := (viewOn fun v => { v with fsm := ⟨true, .on, false, false⟩ }).modSw 0 fun w => { w with windows := ⟨viewAddr 5 0, 0x10000, 0, 3⟩ :: ⟨twinBase, 0x10000, 0, 3⟩ :: w.windows }
theorem test_wit_views : (viewed.viewUser (.needle 0)).1 = some 0 ∧ (viewed.viewUser (.needle 95)).1 = none ∧ viewed.viewTakes 5 0 0 false = true ∧
    viewed.viewTakes 5 1 0 false = false ∧ wrId (viewed.viewUser (.needle 0)).2 = 0 ∧ (viewed.edgeCarders[(5 : Fin 10)]).loads = [] ∧
    (viewed.viewReadNow 0 0 (whoOf (.needle 0)) 5 0 0 0 64 (.viewOut 5 0) 0).2 = .sent := by decide +kernel
theorem test_view_read : (after (.cardViewRead 5 0 0 (.needle 0)) viewed).accesses.length = 1 ∧ ((after (.cardViewRead 5 1 0 (.needle 0)) viewed).needles[0]).fault = 3 ∧
    (after (.cardViewRead 5 0 0 (.needle 95)) viewed).out = [.viewData 5 0 false []] := by decide +kernel
def cardJobs (l : List CardJob) : State := lab.modCarder 0 0 fun c => { c with jobs := l }
theorem test_wit_card : (cardJobs []).moverRuns 0 = true ∧ State.reset.moverRuns 0 = false ∧
    (((cardJobs [.mover 0 1, .drain 0 0]).skeins[(0 : Fin 16)]).carders[(0 : Fin 2)]).jobs = [((0 : Fin 16), (1 : Fin 2))].map (fun x => CardJob.mover x.1 x.2) ++ .drain 0 0 :: [] := by
  decide +kernel
theorem test_wit_monitor : lab.monitored 0 = true ∧ State.reset.monitored 0 = false ∧ fld lab.rep.limits 15 8 ≤ (255 : Byte).toNat ∧
    fld lab.rep.limits 7 0 ≤ (255 : Byte).toNat ∧ (0 : Byte).toNat < fld lab.rep.limits 15 8 := by decide +kernel
theorem test_aging : ((after (.agingMeasurement 0 255) lab).rep.aging[0]) = 0x1FF ∧ (after (.agingMeasurement 0 0) lab).rep.suspect = 1 ∧
    (after (.droopEvent 0) lab).rep.droopQuery = 1 := by decide +kernel
def spared (n : BitVec 4) : State := { lab with skeins := mapV lab.skeins fun k x => if k = 0 then { x with spareRows := x.spareRows.set 2 n } else x }
theorem test_wit_spare : (lab.map.skeins[(0 : Fin 16)]).isSome = true ∧ (spared 7).skeins[(0 : Fin 16)].spareRows[(2 : Fin 16)].toNat < 8 ∧
    8 ≤ (spared 8).skeins[(0 : Fin 16)].spareRows[(2 : Fin 16)].toNat ∧ lab.rep.entries.length < 1024 ∧ State.reset.map.skeins[(0 : Fin 16)] = none := by decide +kernel
theorem test_spare : ((after (.rowSpareCopyDone 0 2 9) (spared 7)).skeins[0]).spareRows[2] = 8 ∧ (after (.rowSpareCopyDone 0 2 9) (spared 8)).rep.suspect = 1 ∧
    ((after (.rowSpareCopyDone 0 2 9) (spared 7)).rep.entries.map fun x => x.bankRow) = [0x209] := by decide +kernel
theorem test_scrub : (after (.scrubRead true true) lab).rep.scrub = lab.nextScrub 0 ∧ (after (.scrubRead true true) { lab with selv := { lab.selv with st := .selvage } }).rep.scrub = 0 := by
  decide +kernel
def fwHead : PktHead := ⟨4, 5, 1, .firmware, 0⟩
theorem test_wit_mnt : fwHead.issuer = .firmware ∧ ((lab.skeins[(4 : Fin 16)]).mesh).swatch = none ∧ (4 : Fin 16) ≠ fwHead.dst ∧ pktHome.issuer ≠ .firmware ∧
    ((lab.skeins[(0 : Fin 16)]).mesh).swatch.isSome = true ∧ (((lab.skeins[(0 : Fin 16)]).mesh).refuses fwHead [fwHead.dst] false).isSome = true := by decide +kernel
theorem test_mnt : (after (.censusLoopback 5 fwHead) lab).out = [.maintenance fwHead.back 11 []] ∧ (after (.censusLoopback 0 pktHome) lab).out = [] ∧
    memRead (after (.saveAndRestore 5 fwHead true 0x3FFFFE [1, 2]) lab).mem 0x17FFFFE 2 = [1, 2] ∧
    ((after (.routerConfiguration 4 (some 1) 1 0 0 0) lab).skeins[4]).mesh.swatch = some 1 := by decide +kernel

/-! ### Bobbins and Shuskaub's ports -/

/-- Bobbin 0 bound to a far end, its ring of two slots of 256-byte frames in skein 0's store, header written; CSI-2 port 0 on. -/
def bob (src : BitVec 2) (out : Bool) (ch : Byte) (f : Bobbin → Bobbin) : State :=
  let s : State := { withRing with bobbins := withRing.bobbins.set 0 (f { Bobbin.reset with
    bound := true, source := src, dirOut := out, channel := ch, log2Slots := 1, frame := 256, ring := 0, fsm := ⟨true, .on, false, false⟩ }) }
  { s with io := { s.io with i3cCfg := s.io.i3cCfg.set 0 0x28, sdwDp := s.io.sdwDp.set 0 (Vector.replicate 16 0 |>.set 0 0x010F0311) } }
def frame0 : OpenFrame := ⟨some 1, 1, 5, 0, 0, 0⟩
theorem test_wit_bobbin : ((bobOn id).bobbins[(0 : Fin 48)]).dirOut = false ∧ (bob 1 true 0x11 id).bobbins[(0 : Fin 48)].opened = none ∧
    (bob 1 true 0x11 fun b => { b with opened := some frame0 }).bobbins[(0 : Fin 48)].opened = some frame0 ∧
    accepts cmdUnbindBobbin (ent 0xFF []) (bob 1 true 0x11 fun b => { b with opened := some frame0 }) = true ∧
    accepts cmdRunBobbin (ent 0xFF [(9, 1)]) (bob 0 false 0 fun b => { b with fsm := ⟨false, .falling, false, false⟩ }) = true ∧
    accepts cmdRunBobbin (ent 0xFF []) (bob 0 false 0 fun b => { b with fsm := ⟨true, .rising, false, false⟩ }) = true := by decide +kernel
theorem test_bind_bobbin : let b := (after (.bindBobbin (ent 0xFF [(13, 1), (16, 256)])) withRing).bobbins[0]
    b.bound = true ∧ b.frame = 256 ∧ b.log2Slots = 1 ∧ b.swatch = none ∧ b.fsm.st = .off ∧
    (after (.bindBobbin (ent 0xFF [(13, 1), (16, 260)])) withRing).bobbins[0].bound = false := by decide +kernel
theorem test_unbind : (after (.unbindBobbin (ent 0xFF [])) (bob 0 false 0 id)).bobbins[0].bound = false ∧
    (after (.unbindBobbin (ent 0xFF [])) (bob 1 true 0x11 fun b => { b with opened := some frame0 })).bobbins[0].fsm.st = .falling ∧
    (after (.unbindBobbin (ent 0xFF [])) (bob 1 true 0x11 fun b => { b with opened := some frame0 })).jobs.length = 1 := by decide +kernel
theorem test_run_bobbin : (after (.runBobbin (ent 0xFF [(9, 1)])) (bob 0 false 0 fun b => { b with fsm := EnFsm.off })).bobbins[0].fsm.st = .rising ∧
    (after (.runBobbin (ent 0xFF [])) (bob 0 false 0 fun b => { b with fsm := ⟨true, .rising, false, false⟩ })).jobs.length = 1 := by decide +kernel
/-- Bobbin 0 with its ring at the last 256 bytes of skein 0's store: its header lies there, its slots where no access may go. -/
def cutBob (f : Bobbin → Bobbin) : State := bob 0 false 0 fun b => f { b with ring := 0x3FFF00 }
/-- Bobbin 0 with its ring in stack memory, in Selvage. -/
def lowBob : State :=
  let s := bob 0 false 0 fun b => { b with ring := 0x1000000000 }
  { s with selv := { s.selv with st := .selvage } }
/-- A frame of an input ring with a free slot, one with none left, one whose slot or count is refused, one in low power. -/
theorem test_wit_frame : let s := bob 0 false 0 id
    let b := (s.readCount 0).bobbins[(0 : Fin 48)]
    let get (s : State) := (s.bobGet s.bobbins[(0 : Fin 48)] (s.countAddr s.bobbins[(0 : Fin 48)]) 8).isSome
    let c := ((cutBob id).readCount 0).bobbins[(0 : Fin 48)]
    b.written - b.consumed < b.size ∧ s.bobLowPower 0 = false ∧ get s = true ∧
    ((s.readCount 0).bobAt b (b.ring.toNat + b.slotOff (b.written + 1)) 64 true).isSome = true ∧
    (let c := ((bob 0 false 0 fun b => { b with written := 2 }).readCount 0).bobbins[(0 : Fin 48)]; c.size ≤ c.written - c.consumed) ∧
    frame0.len + (List.replicate 256 (0 : Byte)).length ≤ (s.bobbins[(0 : Fin 48)]).frame.toNat ∧
    (s.bobbins[(0 : Fin 48)]).frame.toNat < frame0.len + (List.replicate 257 (0 : Byte)).length ∧
    (cutBob id).bobLowPower 0 = false ∧ get (cutBob id) = true ∧ c.written - c.consumed < c.size ∧
    ((cutBob id).readCount 0).bobAt c (c.ring.toNat + c.slotOff (c.written + 1)) 64 true = none ∧
    get (bob 0 false 0 fun b => { b with ring := 0x1000000000 }) = false ∧
    (bob 0 false 0 fun b => { b with ring := 0x1000000000 }).bobLowPower 0 = false ∧ lowBob.bobLowPower 0 = true := by decide +kernel
theorem test_wit_close : let s := bob 0 false 0 fun b => { b with opened := some frame0, complete := 1 }
    let b := s.bobbins[(0 : Fin 48)]
    b.opened = some frame0 ∧ frame0.slot = some 1 ∧ b.ring.toNat % 256 = 0 ∧ b.swatch = none ∧
    s.bobAt b (b.ring.toNat + b.slotOff 1) 64 true = some 256 ∧ (s.bobRows b (b.ring.toNat + b.slotOff 1 + 64) 256 true).isSome = true ∧
    (s.bobRows b (b.ring.toNat + b.slotOff 1 + 0) 64 true).isSome = true ∧
    (cutBob id).bobRows ((cutBob id).bobbins[(0 : Fin 48)]) (0x3FFF00 + ((cutBob id).bobbins[(0 : Fin 48)]).slotOff 1 + 64) 2 true = none ∧
    (cutBob id).bobRows ((cutBob id).bobbins[(0 : Fin 48)]) (0x3FFF00 + ((cutBob id).bobbins[(0 : Fin 48)]).slotOff 1 + 0) 64 true = none ∧ b.complete ≠ b.published.toNat ∧ s.bobAt b (b.ring.toNat + 16) 8 true = some 16 := by
  decide +kernel
theorem test_frame : let t := (bob 0 false 0 id).openFrame 0 9 3
    (t.bobbins[0]).opened = some ⟨some 1, 1, 9, 0, 0, 3⟩ ∧ (t.bobbins[0]).written = 1 ∧
    (((bob 0 false 0 fun b => { b with written := 2 }).openFrame 0 9 3).bobbins[0]).dropped = 1 ∧
    (((cutBob id).openFrame 0 9 3).bobbins[0]).events = 0x21 ∧ ((lowBob.openFrame 0 9 3).bobbins[0]).events = 1 := by decide +kernel
/-- R421, R422: a frame whose payload is refused, or whose bobbin is stopped, is dropped and counted. -/
theorem test_lose : let s := cutBob fun b => { b with opened := some frame0, written := 1 }
    ((s.addPayload 0 [7]).bobbins[0]).events = 0x21 ∧ ((s.addPayload 0 [7]).bobbins[0]).opened.map OpenFrame.slot = some none ∧
    ((s.closeFrame 0 0).bobbins[0]).complete = 0 ∧ ((s.closeFrame 0 0).bobbins[0]).written = 0 ∧
    ((after (.functionDisable (.bobbin 0) .firmware) s).bobbins[0]).dropped = 1 := by decide +kernel
/-- The tick publishes the count of complete frames at bytes 16 to 23 of the ring header (R414, R416). -/
theorem test_publish : memRead ((bob 0 false 0 fun b => { b with complete := 3 }).publishOne 0).mem 16 8 = [3, 0, 0, 0, 0, 0, 0, 0] := by decide +kernel
theorem test_wit_csi : (bob 0 false 0 id).csiOn 0 = true ∧ lab.csiOn 0 = false ∧ (ioF fun i => { i with csiCfg := i.csiCfg.set 0 0x823 }).csiOn 0 = false ∧
    ((bob 0 false 0 id).feeding 0 0 fun c => decide (fld c 3 0 = 0) && decide (fld c 7 4 = csiGroup 0x2A)) = [0] ∧
    ((bob 0 false 0 id).feeding 0 0 fun c => decide (fld c 3 0 = 0) && decide (fld c 7 4 = csiGroup 0x12)) = [] ∧
    (EccResult.corrected) ≠ .failed := by decide +kernel
theorem test_csi : let s := bob 0 false 0 fun b => { b with opened := some frame0 }
    ((after (.csi2FrameStart 0 0 9) s).bobbins[0]).opened.map OpenFrame.time = some 9 ∧ ((after (.csi2FrameEnd 0 0) s).bobbins[0]).complete = 1 ∧
    ((after (.csi2Packet 0 0 0x2A .ok true [1, 2, 3]) s).bobbins[0]).opened.map OpenFrame.len = some 64 ∧
    ((after (.csi2Packet 0 0 0x2A .ok true [1, 2, 3]) s).bobbins[0]).opened.map OpenFrame.info = some 0x2A00 ∧
    ((after (.csi2Packet 0 0 0x12 .ok true [1, 2, 3]) s).bobbins[0]).opened.map OpenFrame.len = some 0 := by decide +kernel
theorem test_csi_failed : let s := bob 0 false 0 fun b => { b with opened := some frame0 }
    ((after (.csi2Packet 0 0 0x2A .failed true [1]) s).bobbins[0]).opened.map OpenFrame.flags = some 2 ∧
    (after (.csi2Packet 0 0 0x2A .failed true [1]) s).io.csiErrors[0] = 0x10000 := by decide +kernel
theorem test_wit_i3c : ((bob 2 false 9 id).io.i3cCfg[(0 : Fin 2)]).getLsbD 5 = true ∧ ((bob 2 false 9 id).io.i3cCfg[(0 : Fin 2)]).getLsbD 3 = true ∧
    (lab.io.i3cCfg[(0 : Fin 2)]).getLsbD 5 = false ∧ (List.replicate 257 (0 : Byte)).length > 256 ∧
    ((bob 2 false 9 id).io.i3cDat[(0 : Fin 2)][(0 : Fin 32)]).getLsbD 15 = false ∧ (∀ j : Fin 32, ¬ fld ((bob 2 false 9 id).io.i3cDat[(0 : Fin 2)][j]) 6 0 = 8) ∧
    (∀ j : Fin 32, ((ioF fun i => { i with i3cDat := i.i3cDat.set 0 (Vector.replicate 32 0x8000) }).io.i3cDat[(0 : Fin 2)][j]).getLsbD 15 = true) := by decide +kernel
theorem test_i3c : ((after (.ibi 0 9 4 [1, 2]) (bob 2 false 9 id)).bobbins[0]).complete = 1 ∧ ((after (.ibi 0 9 4 [1, 2]) (bob 2 false 8 id)).bobbins[0]).complete = 0 ∧
    (after (.hotJoin 0) (bob 2 false 9 id)).io.i3cDat[0][0] = 0x8800 := by decide +kernel

/-! ### Output frames and host rings -/

/-- An output ring whose first frame is written, and the states of its bobbin. -/
def outBob (src : BitVec 2) (f : Bobbin → Bobbin) : State :=
  let s := bob src true 0x11 fun b => f { b with produced := 1 }
  { s with mem := memWrite s.mem 256 (slotHeader 1 0 0 4 0 0 ++ [1, 2, 3, 4]) }
def sent0 (n : Nat) : OpenFrame := ⟨some 1, 0, 0, n, 0, 0⟩
theorem test_wit_output : let s := outBob 2 id
    let b := s.bobbins[(0 : Fin 48)]
    b.bound = true ∧ b.dirOut = true ∧ b.source ≠ 3 ∧ b.fsm.st = .on ∧ lab.bobbins[(0 : Fin 48)].bound = false ∧
    ((s.passOver 0 b.size).bobbins[(0 : Fin 48)]).consumed < ((s.passOver 0 b.size).bobbins[(0 : Fin 48)]).produced ∧
    (bob 2 true 0x11 id).bobbins[(0 : Fin 48)].produced ≤ (bob 2 true 0x11 id).bobbins[(0 : Fin 48)].consumed ∧
    s.countAddr b = 32 ∧ s.bobAt b 32 8 true = some 32 ∧ b.skipped (b.consumed + 1) = false := by decide +kernel
theorem test_wit_output_slot : ((outBob 2 id).bobGet ((outBob 2 id).bobbins[(0 : Fin 48)]) (0 + ((outBob 2 id).bobbins[(0 : Fin 48)]).slotOff 1) 64).map (fun h => leAt h 0 8) =
    some 1 := by decide +kernel
theorem test_output : (after (.outputFrameSent 0 true) (outBob 2 id)).out = [.frameOut 0 [1, 2, 3, 4]] ∧
    memRead (after (.outputFrameSent 0 true) (outBob 2 id)).mem 32 2 = [1, 0] ∧
    ((after (.outputFrameSent 0 false) (outBob 2 id)).bobbins[0]).dropped = 1 ∧
    ((after (.outputFrameSent 0 true) (outBob 1 fun b => { b with opened := some (sent0 4) })).bobbins[0]).consumed = 0 ∧
    ((after (.outputFrameSent 0 true) (outBob 1 fun b => { b with opened := some (sent0 256) })).bobbins[0]).consumed = 1 := by decide +kernel
theorem test_wit_soundwire : (bob 1 false 0x11 id).sdwEntry 0 0x11 = some (3, 16, 0) ∧ lab.sdwEntry 0 0 = none ∧ popN 3 = 2 ∧
    ((((bob 1 false 0x11 fun b => { b with frame := 8 }).openFrame 0 7 2).addPayload 0 (List.replicate 8 0)).bobbins[(0 : Fin 48)].opened.map OpenFrame.len) = some 8 ∧
    (outBob 1 fun b => { b with fsm := ⟨false, .falling, false, false⟩ }).bobbins[(0 : Fin 48)].fsm.st = .falling ∧
    (bob 1 true 0x11 fun b => { b with fsm := EnFsm.off }).bobbins[(0 : Fin 48)].fsm.st = .off := by decide +kernel
/-- R412: each sample keeps its 16 top bits; the frame of 8 bytes closes; an output bobbin begins its frame, or underruns. -/
theorem test_soundwire : let t := after (.soundwireSampleInstant 0 7 [0x12345678, 0x9ABCDEF0]) (bob 1 false 0x11 fun b => { b with frame := 8 })
    (t.bobbins[0]).complete = 1 ∧ memRead t.mem 320 8 = [0, 0, 0x34, 0x12, 0, 0, 0xBC, 0x9A] ∧
    ((after (.soundwireSampleInstant 0 7 []) (outBob 1 id)).bobbins[0]).opened = some ⟨some 1, 0, 7, 8, 0, 0⟩ ∧
    ((after (.soundwireSampleInstant 0 7 []) (bob 1 true 0x11 id)).bobbins[0]).events = 0x10 ∧
    (after (.soundwireSampleInstant 0 7 []) (bob 1 true 0x11 id)).out = [.zeroSample 0 2] := by decide +kernel
/-- The BOB status registers (R422): a flash of 4 MiB, a manager stopped, a camera in a frame. -/
theorem test_bob_status : lab.bobRead 0x7100 = 0x1601 ∧ (ioF fun i => { i with sdwCfg := i.sdwCfg.set 1 0xC00 }).bobRead 0x5204 = 0x1000 ∧
    (ioF fun i => { i with csiStatus := i.csiStatus.set 2 0x20 }).bobRead 0x4084 = 0x20 := by decide +kernel
/-- R432, R427: RTS high on pin 2 with 48 characters waiting; a parked pin drives nothing. -/
theorem test_pin_drives : let s := ioF fun i => { i with uartCfg := 5, uartRx := List.replicate 48 1 }
    (s.modPin 2 fun x => { x with cfg := 3 }).pinDrives 2 = some true ∧ (lab.modPin 2 fun x => { x with cfg := 3 }).pinDrives 2 = some false ∧
    (lab.modPin 2 fun x => { x with cfg := 3, parking := true }).pinDrives 2 = none := by decide +kernel
/-- A host ring at host address 0x4000 with one frame of two bytes. -/
def hostBob (out : Bool) (f : Bobbin → Bobbin) : State :=
  let s := bob 3 out 0 f
  let s : State := { s with mem := memWrite s.mem 40 (leBytes 8 0x4000) }
  withObj s 0x4000 (leBytes 8 0 ++ leBytes 8 0 ++ leBytes 8 1 ++ List.replicate 232 0 ++ slotHeader 1 0 0 2 0 0 ++ [8, 9])
theorem test_wit_host_ring : let s := hostBob false id
    s.hostRing (s.bobbins[(0 : Fin 48)]) = some (hostBase + 0x4000) ∧ s.hostPath.isSome = true ∧ s.poison = [] ∧
    (bob 3 false 0 fun b => { b with ring := 0x1000000000 }).hostRing ((bob 3 false 0 fun b => { b with ring := 0x1000000000 }).bobbins[(0 : Fin 48)]) = none := by
  decide +kernel
theorem test_host_ring : let t := after (.hostRingPoll 0 3) (hostBob false id)
    (t.bobbins[0]).complete = 1 ∧ memRead t.mem 320 2 = [8, 9] ∧ memRead t.mem (hostBase + 0x4020) 1 = [1] := by decide +kernel
theorem test_wit_shus_tick : ((0 : DWord) + 1 = ({ bob 0 false 0 id with tick := { lab.tick with count := 1 } } : State).tick.count) ∧
    (bob 0 false 0 id).bobGet ((bob 0 false 0 id).bobbins[(0 : Fin 48)]) 32 8 = some (leBytes 8 0) ∧
    (outBob 2 id).bobGet ((outBob 2 id).bobbins[(0 : Fin 48)]) 16 8 = some (leBytes 8 0) := by decide +kernel
/-- A consumer count above what was published is taken as that (R417); frames produced beyond the ring are dropped (R419). -/
theorem test_shus_tick : let s : State := { bob 0 false 0 id with tick := { lab.tick with count := 1 } }
    let u : State := { bob 2 true 0 id with tick := { lab.tick with count := 1 } }
    ((after (.shusTick 0) { s with mem := memWrite s.mem 32 [5] }).bobbins[0]).events = 8 ∧
    ((after (.shusTick 0) { u with mem := memWrite u.mem 16 [5] }).bobbins[0]).dropped = 3 ∧
    ((after (.shusTick 0) { u with mem := memWrite u.mem 16 [5] }).bobbins[0]).skips = [(2, 5)] := by decide +kernel

/-! ### The tally and the inner chain -/

def tal (f : Tally → Tally) : State := { lab with tally := f lab.tally }
def upd0 (c : Fin 16) : YdUpdate := ⟨c, 1, none, [], false⟩
def run0 (p : YdPhase) : YdRun := ⟨upd0 8, 5, p⟩
def att0 (dies n : Nat) : Attest := ⟨ref1, List.replicate 32 0, 0x3000, dies, List.replicate n (0, List.replicate 109 0), none⟩
def inn (f : Inner → Inner) : State := { lab with inner := f lab.inner }
theorem test_wit_tally : lab.tally.attests = [] ∧ lab.inner.returned.toNat ≤ 1 ∧ lab.tally.run = none ∧ lab.tally.waiting = [] ∧
    (tal fun t => { t with run := some (run0 (.writing false)) }).tally.run.isSome = true ∧
    accepts cmdAttest (ent 0xFF [(48, 404)]) (inn fun i => { i with returned := 2 }) = true ∧
    accepts cmdAttest (ent 0xFF [(48, 288)]) (tal fun t => { t with attests := [att0 0 0] }) = true ∧
    lab.adoptOk (lab.objRead 1 0x2000 228) = false ∧ (adopted none).tally.owner = some owner1 ∧
    (adopted none).tally.svnMin.toNat < (ent 0xFF [(8, 9), (16, 0x2000)]).u 8 1 := by decide +kernel
theorem test_wit_inner : lab.innerMine 0 = true ∧ lab.innerMine 3 = false ∧ sec.innerMine 0 = false ∧ sec.fuses.primary = false ∧ lab.inner.busy = none ∧
    (inn fun i => { i with busy := some (.ident 2) }).inner.busy = some (.ident 2) ∧ (att0 2 0).records.length + 1 < (att0 2 0).dies ∧
    (att0 1 0).records.length + 1 = (att0 1 0).dies := by decide +kernel
/-- A certificate list of any length is accepted where the buffer is long enough; no rule gives the certificates (log 16). -/
theorem test_certs : cmdGetCerts.bad (ent 0xFF [(8, 0x3000)]) lab = [] ∧ cmdGetCerts.state (ent 0xFF []) lab = none := by decide +kernel
theorem test_tamper : let t := after (.adopt (ent 0xFF [(8, 0x2000)])) (withObj lab 0x2000 (leBytes 4 0x50444F41 ++ leBytes 2 1 ++ leBytes 2 228))
    t.tally.events = 8 ∧ t.tally.run.map (fun x => (x.upd.counter, x.value)) = some (6, 1) ∧ t.tally.owners = [] := by decide +kernel
theorem test_add_yardage : (after (.addYardage (ent 0xFF [(8, 15), (12, 3)])) lab).tally.run.map (fun x => (x.upd.counter, x.value)) = some (15, 3) ∧
    (after (.addYardage (ent 0xFF [(8, 15), (12, 3)])) (tal fun t => { t with run := some (run0 (.writing false)) })).tally.waiting.length = 1 := by decide +kernel
theorem test_inner : (after (.ident 3 0) sec).out = [.inner 0x02 3 0 []] ∧ (after (.innerFrameUnknownType 0 5 0x44) lab).out = [.inner 0xFF 0 lab.inner.addr []] ∧
    ((after (.ident 0 0) lab).out.length = 1) ∧ (after (.innerReply 2 0x82 []) (inn fun i => { i with busy := some (.ident 2) })).inner.busy = none ∧
    (after .innerReplyTimeout (inn fun i => { i with busy := some (.ident 2) })).inner.events = 2 ∧
    (after .innerFrameTimingError (inn fun i => { i with busy := some (.ident 2) })).inner.errors = 1 := by decide +kernel
/-- R476: the second die is asked after the first's answer; a NAK leaves STATUS 3 in its record. -/
theorem test_die_proofs : let s : State := { inn (fun i => { i with busy := some (.prove 1) }) with tally := { lab.tally with attests := [att0 2 0] } }
    (after (.innerReply 1 0xFF []) s).inner.busy = some (.prove 2) ∧
    (after (.innerReply 1 0xFF []) s).tally.attests.map (fun t => t.records.map fun r => r.1) = [[3]] ∧
    (after .attestDieTimeout s).tally.attests.map (fun t => t.records.map fun r => r.1) = [[1]] ∧
    (after (.dieProve 2 0 (Vector.replicate 32 1)) sec).out = [.inner 0x03 2 0 (List.replicate 32 1)] := by decide +kernel

/-! ### Yardage -/

def yd (x : YdRun) : State := tal fun t => { t with run := some x }
theorem test_wit_yardage : lab.fuses.primary = true ∧ lab.tally.value 8 ≠ BitVec.allOnes 32 ∧
    (yd (run0 (.writing false))).tally.run = some (run0 (.writing false)) ∧ (upd0 8).counter ≠ 7 ∧ (upd0 8).counter ≠ 3 ∧
    (ydSlot lab.tally.slots[(8 : Fin 16)]).map YdSlot.seq ≠ some (BitVec.allOnes 32) ∧ lab.tally.floorWords.length < 1023 ∧
    lab.tally.floor 8 < (0x5000 : Word).toNat / 4096 ∧ lab.selv.spwrok = true := by decide +kernel
theorem test_yardage : (after (.yardageIncrement 8 5) lab).tally.run.map (fun x => x.value) = some 5 ∧ (after (.yardageIncrement 7 5) lab).tally.run = none ∧
    (after (.yardageSlotWriteDone true) (yd (run0 (.writing false)))).tally.value 8 = 5 ∧
    (after (.yardageSlotWriteDone false) (yd (run0 (.writing false)))).tally.run.map (fun x => x.phase) = some (.writing true) ∧
    (after (.yardageSlotWriteDone false) (yd (run0 (.writing true)))).tally.events = 2 := by decide +kernel
/-- R482: the floor word of counter 8 at 5 has 21 zero bits among its low 24. -/
theorem test_floor : (after (.floorBurnDone true) (yd ⟨upd0 8, 0x5000, .flooring false⟩)).tally.floorWords = [0x15800005] ∧
    (after (.floorBurnDone true) (yd ⟨upd0 8, 0x5000, .flooring false⟩)).tally.floor 8 = 5 ∧
    (after (.floorBurnDone false) (yd ⟨upd0 8, 0x5000, .flooring true⟩)).tally.events = 4 := by decide +kernel
theorem test_power_hour : (after .powerHour lab).tally.run.map (fun x => x.upd.counter) = some 0 ∧ (after (.powerHourResidueSave 9) lab).tally.residue = 9 ∧
    (after (.powerHourResidueSave 9) sec).tally.residue = 0 := by decide +kernel
def full : State := tal fun t => { t with floorWords := List.replicate 1024 0 }
theorem test_wit_floor_full : 1024 ≤ full.tally.floorWords.length ∧ (full.tallyRead 0).getLsbD 3 = true ∧ (lab.tallyRead 0).getLsbD 3 = false ∧
    full.tally.run = none := by decide +kernel
theorem test_floor_full : (after (.yardageSlotWriteDone true) { full with tally := { full.tally with run := some ⟨upd0 8, 0x5000, .writing false⟩ } }).tally.value 8 = 0x5000 ∧
    (after (.yardageIncrement 8 1) full).tally.floorWords.length = 1024 := by decide +kernel

/-! ### The outer chain -/

def chn (f : Chain → Chain) : State := { lab with chain := f lab.chain }
def tag1 : TagEntry := ⟨5, 9, true, false, 0, false, 3⟩
def pinging : ChainRun := ⟨.ping 9, ref1, 0, false, false, false, 0, [], [], 0⟩
def keyed (l : List TagEntry) : State := { adopted (some (5, 1)) with chain := { lab.chain with list := l } }
theorem test_wit_chain : lab.chain.busy = false ∧ lab.chain.waiting = [] ∧ lab.chain.stuck = false ∧ (chn fun c => { c with run := some pinging }).chain.busy = true ∧
    accepts cmdChainSearch (ent 0xFF []) (chn fun c => { c with run := some pinging }) = true ∧
    (keyed [tag1]).chain.tagAt 9 = some tag1 ∧ lab.chain.tagAt 9 = none ∧ (keyed []).tally.tmk.isSome = true ∧ lab.tally.tmk = none ∧
    lab.fuses.shusDies ≠ 0 ∧ lab.blkGone .chnOut = false ∧ lab.reaches .firmware .chnOut 0x10 true = true ∧
    lab.reaches (.needle 0) .chnOut 0x10 true = false := by decide +kernel
theorem test_chain : (after (.chainSearch (ent 0xFF [])) lab).out = [.chainSeq .reset 0] ∧
    (after (.chainSearch (ent 0xFF [])) (chn fun c => { c with run := some pinging })).chain.waiting.length = 1 ∧
    (after (.chainPing (ent 0xFF [(8, 9)])) (keyed [tag1])).out = [.chainCmd [4, 9]] ∧
    (after (.chainPing (ent 0xFF [(8, 9)])) lab).jobs = [] := by decide +kernel
theorem test_tag_commands : (after (.tagProve (ent 0xFF [(8, 9), (16, 7)])) (keyed [tag1])).out =
      [.chainCmd ([6, 9] ++ 7 :: List.replicate 15 0), strongOut 500] ∧
    (after (.chainConfig (ent 0xFF [(9, 2), (10, 5)])) lab).chain.period = 5 ∧
    memRead (after (.chainList (ent 0xFF [(8, 0x3000)])) (keyed [tag1])).mem (hostBase + 0x3000) 9 = tag1.record.take 9 := by decide +kernel
theorem test_chain_reply : let s := chn fun c => { c with run := some pinging, list := [tag1] }
    (after (.chainReply .single []) s).chain.run = none ∧ (after (.chainReply .none []) s).out = [.chainCmd [4, 9]] ∧
    (after (.chainReply .none []) (chn fun c => { c with run := some { pinging with retried := true }, list := [tag1] })).chain.list = [] ∧
    (after (.chainReply .edge []) s).chain.events = 4 := by decide +kernel
def incr (step : Nat) : State := { keyed [tag1] with chain := { lab.chain with
  list := [tag1], run := some ⟨.increment 9 4, ref1, step, false, false, false, step, [], [], 4⟩ } }
/-- R491: steps 1, 3 and 5 of a TAG_INCREMENT; a proof's MAC is no computable value here (log 16). -/
theorem test_increment : (after (.chainReply .single []) (incr 1)).out = [strongOut 250, .chainCmd [8, 9, 4], strongOut 250] ∧
    (after (.chainReply .single []) (incr 3)).out = [.chainCmd [5, 9]] ∧
    (after (.chainReply .single [0, 0, 5, 0, 0, 0, 4, 0]) (incr 5)).chain.list.map TagEntry.wseq = [4] ∧
    (after (.chainReply .single [0, 0, 5, 0, 0, 0, 4, 0]) (incr 5)).chain.run = none := by decide +kernel
theorem test_seq : (after (.sendChar 0x41 .firmware) lab).out = [.chainSeq .sendChar 0x4102] ∧ (after (.readChar true .firmware) lab).out = [.chainSeq .readChar 0x13] ∧
    (after (.strong 7 .firmware) lab).chain.strong = true ∧ (after (.sendFrame 2 .firmware) lab).out = [.chainCmd [0, 0], .chainSeq .sendFrame 0x20008] ∧
    (after (.strong 7 (.needle 0)) lab).selv.badAccess = 1 := by decide +kernel
theorem test_seq_ops : (after (.chnSeqReset .firmware) lab).chain.seqOp = some .reset ∧ (after (.rollWindow false .firmware) lab).chain.seqOp = some .rollWindow ∧
    (after (.ackSlot false .firmware) lab).chain.seqOp = some .ackSlot ∧ (after (.endGap .firmware) lab).chain.seqOp = some .endGap ∧
    (after (.recvFrame .firmware) lab).chain.seqOp = some .recvFrame ∧
    (after (.chnSeqDone 0xFFFF []) (chn fun c => { c with seqOp := some .ackSlot })).chain.seqResult = 3 := by decide +kernel

/-! ### The search -/

def srch (f : Search → Search) : State := chn fun c => { c with search := some (f ⟨.reset, [], [], 0, 0, false, false, none⟩) }
def oneAt (k : Fin 16) (c : SlotClass) : Vector SlotClass 16 := (Vector.replicate 16 .none).set k c
def idGood : DWord := 0x9C00000000000001
theorem test_wit_search : ({ lab with chain := { lab.chain with period := 1 } } : State).searchMay = true ∧ (chn fun c => { c with period := 0 }).searchMay = false ∧
    (oneAt 3 .edge)[(3 : Fin 16)] = .edge ∧ (∀ k : Fin 16, (oneAt 3 .double)[k] ≠ .edge) ∧ lab.chain.freeAddr = some 1 ∧
    (chn fun c => { c with list := [{ tag1 with addr := 1 }] }).chain.freeAddr = some 2 ∧ (lab.chain.list.find? fun t => decide (t.id = 5)) = none ∧
    lab.granted 9 0 = false ∧ lab.shusPort = some 9 ∧ (lab.ports[(9 : Fin 10)]).st ≠ .down ∧ lab.chain.strong = false := by decide +kernel
theorem test_periodic : (after (.periodicSearch 100) (chn fun c => { c with period := 1 })).chain.search.isSome = true ∧
    (after (.periodicSearch 100) (chn fun c => { c with period := 1, run := some pinging })).chain.waiting = [(.search, none)] ∧
    (after (.presenceChanged 60) (chn fun c => { c with line := true })).chain.events = 1 ∧
    (after (.presenceChanged 59) (chn fun c => { c with line := true })).chain.events = 0 := by decide +kernel
theorem test_search : (after (.presenceWindowEnd true) (srch id)).out = [.chainCmd [1, 0]] ∧
    (after (.presenceWindowEnd false) (srch id)).chain.search.map Search.st = some .done ∧
    (after (.rollWindowEnd (oneAt 3 .single)) (srch fun x => { x with st := .roll 0 0 false })).out = [.chainCmd [2, 1, 3]] ∧
    (after (.rollWindowEnd (oneAt 3 .double)) (srch fun x => { x with st := .roll 0 0 false })).out = [.chainCmd [1, 1, 3]] ∧
    (after (.rollWindowEnd (oneAt 3 .edge)) (srch fun x => { x with st := .roll 0 0 false })).out = [.chainCmd [1, 16]] := by decide +kernel
theorem test_assign : (after (.assignAcknowledgement .none) (srch fun x => { x with st := .assign 1 3 false false })).out = [.chainAddr 0] ∧
    (after (.assignAcknowledgement .double) (srch fun x => { x with st := .assign 1 3 false false })).chain.search.map Search.st = some (.readId 1 3 false false true) ∧
    (after (.assignIdRead 0 true) (srch fun x => { x with st := .readId 1 3 false false false })).out = [.chainAddr 0, .chainCmd [2, 1, 3]] := by decide +kernel
theorem test_confirm_tag : let s := srch fun x => { x with st := .confirmPing 9 [] false false }
    (after (.chainReply .single []) s).chain.search.map Search.st = some .done ∧ (after (.chainReply .none []) s).out = [.chainCmd [4, 9]] ∧
    ((after .searchDone (chn fun c => { c with list := [tag1, { tag1 with addr := 2, found := false }], search := some ⟨.done, [], [], 0, 0, false, false, none⟩ })).chain.list) =
      [tag1] := by decide +kernel
theorem test_stuck : (after .stuckLow (srch id)).chain.search = none ∧ (after .stuckLow (srch id)).chain.events = 0x10 ∧
    (after .lineHighResume (chn fun c => { c with stuck := true, line := false })).chain.stuck = false ∧
    (after (.periodicSearch 1) (chn fun c => { c with period := 1, stuck := true })).chain.search = none := by decide +kernel
theorem test_wit_stuck : (chn fun c => { c with run := some pinging }).chain.run = some pinging ∧ (chn fun c => { c with stuck := true, waiting := [(.search, none)] }).chain.busy = false := by
  decide +kernel

/-! ### Tags -/

def tagA (f : Tag → Tag) : Tag := f ⟨0x31, 0, 0, .addressed, 9, false, 0, ⟨4, 3, true, true⟩, ⟨0, 0, false, false⟩, .idle, (0, 0), false, none, true⟩
def withTag (f : Tag → Tag) : State := { lab with tags := [tagA f] }
def tagOf (s : State) : Tag := s.tags.headD (tagA id)
theorem test_wit_tag : (tagA id).attached = true ∧ (tagA id).st = .addressed ∧ (tagA id).addr = 9 ∧ (withTag id).tags[0]? = some (tagA id) ∧ lab.tags.length ≤ 0 ∧
    (tagA fun t => { t with st := .unaddressed }).id.toNat % 16 ^ 1 = 1 % 16 ^ 1 ∧ (tagA fun t => { t with write := .programmed }).shadow.wseq = 0 := by decide +kernel
theorem test_tags : (after .fullReset (withTag id)).out = [.tagPulse 0x31 16] ∧ (tagOf (after .fullReset (withTag id))).st = .unaddressed ∧
    (after (.roll 1 false 1) (withTag fun t => { t with st := .unaddressed })).out = [.tagPulse 0x31 3] ∧
    (after (.roll 1 false 2) (withTag fun t => { t with st := .unaddressed })).out = [] ∧
    (after (.assign 2 0x31 7 false) (withTag fun t => { t with st := .unaddressed })).out = [.tagPulse 0x31 0, .tagBytes 0x31 [0x31, 0, 0, 0, 0, 0, 0, 0]] := by decide +kernel
theorem test_tag_reads : (after (.ping 9) (withTag id)).out = [.tagPulse 0x31 0] ∧ (after (.ping 8) (withTag id)).out = [] ∧
    (after (.readInfo 9) (withTag id)).out = [.tagBytes 0x31 [0, 0, 4, 0, 0, 0, 3, 0]] ∧
    (tagOf (after (.prove 9 (Vector.replicate 16 0)) (withTag id))).proving.isSome = true := by decide +kernel
/-- A WRITE_PREPARE with a wrong count is dropped; a right one needs its MAC, no computable value here (log 16). -/
theorem test_tag_writes : (tagOf (after (.writePrepare 9 6 4 0 false) (withTag id))).write = .idle ∧ (after (.writeCommit 9 3 false) (withTag id)).out = [.tagPulse 0x31 0] ∧
    (tagOf (after (.writeCommit 9 0 false) (withTag fun t => { t with write := .programmed }))).committing = true ∧
    (tagOf (after (.setSpeed 1 false) (withTag id))).fast = true ∧
    (tagOf (after (.strongWindowEnd 0 true) (withTag fun t => { t with write := .held, held := (5, 4) }))).shadow = ⟨5, 4, true, false⟩ ∧
    (tagOf (after (.strongWindowEnd 0 false) (withTag fun t => { t with write := .held, held := (5, 4) }))).status = 2 := by decide +kernel
theorem test_tag_supply : let s := withTag fun t => { t with write := .programmed, committing := true, shadow := ⟨5, 4, true, false⟩ }
    (tagOf (after (.tagSupplyLoss 0 true) s)).current = ⟨5, 4, true, true⟩ ∧ (tagOf (after (.tagSupplyLoss 0 false) s)).current = ⟨4, 3, true, true⟩ ∧
    (tagOf (after (.tagSupplyLoss 0 true) s)).st = .dormant ∧ (tagOf (after (.tagPowerUp 0) (withTag fun t => { t with attached := false }))).attached = true := by decide +kernel

end Sys2Proof.Tests
end

section
/-! SUPPORT. Device time at a row tick (02 R27, 06 R164, 16 R415): a tick that takes up a new period adds that period to
the device time, where the row that has passed had the old one. -/
namespace Sys2Proof.RowTick
open Sys2Proof Sys2Proof.Machine

/-- A primary at READY in its first row, of 100,000 units (R181), with a period of 5,000 set for the next one (R164). -/
def periodChanging : State := { State.reset with
  selv := { Selv.reset with ready := true }
  tick := { Tick.reset with nextPeriod := 5000 } }

theorem periodChanging_ticks :
    periodChanging.selv.ready = true ∧ periodChanging.fuses.primary = true ∧ periodChanging.tripped = false ∧
    periodChanging.tick.period = 100000 ∧ periodChanging.deviceTime = 0 := by decide +kernel

theorem rowTick_periodChanging_deviceTime : (rowTick periodChanging).deviceTime = 5000 := by decide +kernel

/-- Refutes O50: the row that ends at this tick is 100,000 units long, but `State.nextRow` stores the next period before it
reads the period it adds to the device time, so the tick adds 5,000. -/
theorem not_rowTickAndGate : ¬ Obligations.RowTickAndGate := by
  unfold Obligations.RowTickAndGate
  rintro ⟨tick, -⟩
  obtain ⟨hready, hprimary, htripped, hperiod, htime⟩ := periodChanging_ticks
  obtain ⟨t, hexec, -, -, -, hdevice, -⟩ := (tick periodChanging).2 hready hprimary htripped
  have ht : rowTick periodChanging = t := Host.Outcome.next.inj hexec
  rw [← ht, rowTick_periodChanging_deviceTime, hperiod, htime] at hdevice
  exact absurd hdevice (by decide)

end Sys2Proof.RowTick
end

section
/-! SUPPORT. Edge ports (03): the credits a port is given, and the answer to credits a flit returns. -/
namespace Sys2Proof.EdgePorts
open Sys2Proof Sys2Proof.Machine

/-- Port E9, the SHUS port, in CREDIT_INIT. -/
def creditsAwaited : State := State.reset.modPort 9 fun e => { e with st := .creditInit, rate := 3, modules := 3 }

/-- An advertisement of one request header. -/
def oneHeader : Credits := { Credits.zero with reqH := 1 }

theorem creditsAwaited_awaits :
    creditsAwaited.ports[(9 : Fin 10)].st = .creditInit ∧ creditsAwaited.fuses.ports[(9 : Fin 10)].role ≠ .host := by
  decide +kernel

theorem creditInit_notes_advert : ((creditInit 9 oneHeader creditsAwaited).ports[(9 : Fin 10)]).advert = oneHeader := by
  decide +kernel

theorem portRises_leaves_advert :
    (((creditsAwaited.modPort 9 fun e => { e with far := oneHeader }).portRises 9).ports[(9 : Fin 10)]).advert =
      Credits.zero := by decide +kernel

/-- Refutes O34: CREDIT_INIT also keeps the far side's advertisement (R53), by which the port's rate is later limited (R227);
the statement gives the port the credits alone. -/
theorem not_portTraining : ¬ Obligations.PortTraining := by
  unfold Obligations.PortTraining
  intro h
  obtain ⟨-, -, -, -, -, -, credits, -⟩ := h creditsAwaited 9
  have hexec := (credits oneHeader).1 creditsAwaited_awaits.1 creditsAwaited_awaits.2
  have hstate : creditInit 9 oneHeader creditsAwaited = _ := Host.Outcome.next.inj hexec
  have hadvert := creditInit_notes_advert
  rw [hstate, portRises_leaves_advert] at hadvert
  exact absurd hadvert (by decide)

/-- An access of the firmware that waits at port E0 for a credit: a read of 32 bytes at offset 0 of the stack. -/
def waitingRead : Access := ⟨0, .firmware, .port 0, .needle, stackBase, .read 32, .none, none, 0, true, false⟩

/-- Port E0 ACTIVE, the far side's credits used up, and the read waiting in its FIFO (R227, R238). -/
def readWaits : State := { State.reset with
  ports := upd State.reset.ports 0 fun e => { e with
    st := .active, rate := 3, modules := 3, advert := { Credits.zero with reqH := 128, reqD := 256 } }
  accesses := [waitingRead]
  nextAccess := 1
  gauge := { State.reset.gauge with
    fifo := [⟨0, .selvage, .mgmt, false, false, true, accTxn 0 0 3 0 stackBase (.read 32)⟩] } }

/-- The flit numbered 0 that carries no transaction and returns one request header (R48, R53). -/
def creditFlit : Vector Byte 256 := toVec 256 (flitBytes (mkW [(24, 4, 1)]) [] [])

theorem readWaits_serves_flits :
    readWaits.portUp 0 = true ∧ readWaits.fuses.ports[(0 : Fin 10)].role ≠ .host ∧
      readWaits.fuses.ports[(0 : Fin 10)].role ≠ .none := by
  decide +kernel

theorem creditFlit_in_order : flitCrcOk creditFlit.toList = true ∧
    fld (BitVec.ofNat 32 (leAt creditFlit.toList 0 4) : Word) 9 0 = readWaits.ports[(0 : Fin 10)].nextRecv.toNat := by
  decide +kernel

theorem creditFlit_brings_nothing : takeFlit readWaits.ports[(0 : Fin 10)].rx creditFlit.toList = [] := by decide +kernel

theorem creditFlit_has_no_error : ((flitSlots creditFlit.toList).any (readWaits.slotBad 0) ||
    creditOver (takeFlit readWaits.ports[(0 : Fin 10)].rx creditFlit.toList)) = false := by decide +kernel

/-- The header credit lets the read go, and it takes the first TAG (R49, R54). -/
theorem creditFlit_sends_read :
    (flitArrives 0 creditFlit.toList readWaits).accesses = [{ waitingRead with tag := some 0 }] := by decide +kernel

/-- Refutes O35: a flit that carries no transaction may return credits, which send a request that waits: the accesses are not
what they were, for the one sent has its TAG. -/
theorem not_portRetrySleepAndRouting : ¬ Obligations.PortRetrySleepAndRouting := by
  unfold Obligations.PortRetrySleepAndRouting
  intro h
  obtain ⟨hup, hhost, hnone⟩ := readWaits_serves_flits
  obtain ⟨hcrc, hseq⟩ := creditFlit_in_order
  have hinOrder := (((h readWaits 0).1 creditFlit).2 hup hhost hnone).2 hcrc hseq
  obtain ⟨t, hexec, -, -, -, haccesses⟩ := hinOrder.2.1 creditFlit_has_no_error (by rw [creditFlit_brings_nothing]; rfl)
  have ht : flitArrives 0 creditFlit.toList readWaits = t := Host.Outcome.next.inj hexec
  rw [← ht, creditFlit_sends_read] at haccesses
  exact absurd haccesses (by decide)

end Sys2Proof.EdgePorts
end

section
/-! SUPPORT. Registers (01 R24, R25): the block and the offset at the address of each register row, and what a write reaches. -/
namespace Sys2Proof.Machine
open Sys2Proof

/-! ### Where the registers lie -/

/-- The registers of rows are words. -/
theorem bases_aligned (p : Fin 10) (d : Fin 4) (k : Fin 16) (m : Fin 2) : edgeBase p % 4 = 0 ∧ dstBase d % 4 = 0 ∧
    meshBase k % 4 = 0 ∧ sknBase k % 4 = 0 ∧ cardBase (.edge p) % 4 = 0 ∧ cardBase (.skein k m) % 4 = 0 := by
  simp only [edgeBase, dstBase, meshBase, sknBase, cardBase]
  omega

theorem blockAt_edge (s : State) (p : Fin 10) (o : Nat) (h : o < 0x10000) :
    s.blockAt (edgeBase p + o) = some (.edge p, o) := by
  change s.blockAt (0x12000000 + 0x10000 * p.val + o) = _
  have hp := p.isLt
  have hq : (0x12000000 + 0x10000 * p.val + o - 0x12000000) / 0x10000 = p.val := by omega
  have ho : (0x12000000 + 0x10000 * p.val + o) % 0x10000 = o := by omega
  unfold State.blockAt
  simp (disch := omega) only [if_neg, if_pos, hq, ho]
  simp

theorem blockAt_edgeCard (s : State) (p : Fin 10) (o : Nat) (h : o < 0x10000) :
    s.blockAt (cardBase (.edge p) + o) = some (.edgeCard p, o) := by
  change s.blockAt (0x12100000 + 0x10000 * p.val + o) = _
  have hp := p.isLt
  have hq : (0x12100000 + 0x10000 * p.val + o - 0x12100000) / 0x10000 = p.val := by omega
  have ho : (0x12100000 + 0x10000 * p.val + o) % 0x10000 = o := by omega
  unfold State.blockAt
  simp (disch := omega) only [if_neg, if_pos, hq, ho]
  simp

theorem blockAt_stk (s : State) (b : Fin 4) (o : Nat) (h : o < 0x10000) (hb : s.namedStacks.contains b = true) :
    s.blockAt (0x13000000 + 0x100000 * b.val + o) = some (.stk b, o) := by
  have hlt := b.isLt
  have hq : (0x13000000 + 0x100000 * b.val + o - 0x13000000) / 0x100000 = b.val := by omega
  have ho : (0x13000000 + 0x100000 * b.val + o) % 0x10000 = o := by omega
  unfold State.blockAt
  simp (disch := omega) only [if_neg, if_pos, hq, ho]
  simpa using hb

theorem blockAt_dst (s : State) (d : Fin 4) (o : Nat) (h : o < 0x10000) :
    s.blockAt (dstBase d + o) = some (.dst d, o) := by
  change s.blockAt (0x14000000 + 0x10000 * d.val + o) = _
  have hlt := d.isLt
  have hq : (0x14000000 + 0x10000 * d.val + o - 0x14000000) / 0x10000 = d.val := by omega
  have ho : (0x14000000 + 0x10000 * d.val + o) % 0x10000 = o := by omega
  unfold State.blockAt
  simp (disch := omega) only [if_neg, if_pos, hq, ho]
  simp

theorem blockAt_bob (s : State) (o : Nat) (h : o < 0x100000) (hs : s.fuses.shusDies ≠ 0) :
    s.blockAt (0x18000000 + o) = some (.bob, o) := by
  have ho : 0x18000000 + o - 0x18000000 = o := by omega
  unfold State.blockAt
  simp (disch := omega) only [if_neg, ho]
  simpa [show 402653184 + o < 403701760 by omega] using hs

theorem blockAt_mesh (s : State) (k : Fin 16) (o : Nat) (h : o < 0x1000) (hk : s.skeinIn k = true) :
    s.blockAt (meshBase k + o) = some (.mesh k, o) := by
  change s.blockAt (0x10100000 + 0x1000 * k.val + o) = _
  have hlt := k.isLt
  have hq : (0x10100000 + 0x1000 * k.val + o - 0x10100000) / 0x1000 = k.val := by omega
  have ho : (0x10100000 + 0x1000 * k.val + o - 0x10100000) % 0x1000 = o := by omega
  unfold State.blockAt
  simp (disch := omega) only [if_neg, if_pos, hq, ho]
  simp [hk]

/-- The window of a skein: 16 pieces of 0x10000 bytes. -/
theorem skeinWindow (k : Fin 16) (j o : Nat) (hj : j < 16) (ho : o < 0x10000) :
    (0x11000000 + 0x100000 * k.val + 0x10000 * j + o - 0x11000000) / 0x100000 = k.val ∧
    (0x11000000 + 0x100000 * k.val + 0x10000 * j + o) % 0x100000 / 0x10000 = j ∧
    (0x11000000 + 0x100000 * k.val + 0x10000 * j + o) % 0x10000 = o := by
  have hk := k.isLt
  omega

theorem blockAt_skn (s : State) (k : Fin 16) (o : Nat) (h : o < 0x10000) (hk : s.skeinIn k = true) :
    s.blockAt (sknBase k + o) = some (.skn k, o) := by
  change s.blockAt (0x11000000 + 0x100000 * k.val + o) = _
  have hlt := k.isLt
  obtain ⟨hq, hj, ho⟩ := skeinWindow k 0 o (by omega) h
  rw [Nat.mul_zero, Nat.add_zero] at hq hj ho
  unfold State.blockAt
  simp (disch := omega) only [if_neg, if_pos, hq, hj, ho]
  simp [hk]

theorem blockAt_ndl (s : State) (k : Fin 16) (j : Fin 6) (o : Nat) (h : o < 0x10000) (hk : s.skeinIn k = true) :
    s.blockAt (0x11000000 + 0x100000 * k.val + 0x10000 * (j.val + 1) + o) = some (.ndl (needleOf k j), o) := by
  have hlt := k.isLt
  have hj6 := j.isLt
  obtain ⟨hq, hj, ho⟩ := skeinWindow k (j.val + 1) o (by omega) h
  unfold State.blockAt
  simp (disch := omega) only [if_neg, if_pos, dif_pos, hq, hj, ho]
  simp [hk]

theorem blockAt_card (s : State) (k : Fin 16) (m : Fin 2) (o : Nat) (h : o < 0x10000) (hk : s.skeinIn k = true) :
    s.blockAt (cardBase (.skein k m) + o) = some (.card k m, o) := by
  change s.blockAt (0x11080000 + 0x100000 * k.val + 0x10000 * m.val + o) = _
  have hlt := k.isLt
  have e : 0x11080000 + 0x100000 * k.val + 0x10000 * m.val + o = 0x11000000 + 0x100000 * k.val + 0x10000 * (8 + m.val) + o := by
    omega
  obtain ⟨hq, hj, ho⟩ := skeinWindow k (8 + m.val) o (by omega) h
  rw [e]
  unfold State.blockAt
  simp (disch := omega) only [if_neg, if_pos, hq, hj, ho]
  fin_cases m <;> simp [hk]

/-! ### Bits of words put together from fields -/

theorem field_getLsbD (lo w v i : Nat) (h : i < 32) :
    (BitVec.ofNat 32 ((v % 2 ^ w) * 2 ^ lo)).getLsbD i = (decide (lo ≤ i ∧ i < lo + w) && v.testBit (i - lo)) := by
  rw [BitVec.getLsbD_ofNat, Nat.testBit_mul_two_pow, Nat.testBit_mod_two_pow, ← Bool.and_assoc, ← Bool.and_assoc]
  congr 1
  rw [Bool.eq_iff_iff]
  simp only [Bool.and_eq_true, decide_eq_true_eq]
  omega

/-- A bit of a word is set where a field that holds it has it set. -/
theorem mkW_getLsbD (l : List (Nat × Nat × Nat)) (i : Nat) (h : i < 32) :
    (mkW l).getLsbD i = l.any fun f => decide (f.1 ≤ i ∧ i < f.1 + f.2.1) && f.2.2.testBit (i - f.1) := by
  suffices ∀ w : Word, (l.foldl (fun w f => w ||| BitVec.ofNat 32 ((f.2.2 % 2 ^ f.2.1) * 2 ^ f.1)) w).getLsbD i =
      (w.getLsbD i || l.any fun f => decide (f.1 ≤ i ∧ i < f.1 + f.2.1) && f.2.2.testBit (i - f.1)) by
    rw [mkW, this]; simp
  induction l with
  | nil => intro w; simp
  | cons f l ih =>
    intro w
    rw [List.foldl_cons, ih, BitVec.getLsbD_or, field_getLsbD _ _ _ _ h, List.any_cons, Bool.or_assoc]

/-- A bit of a field read. -/
theorem ofNat_fld_getLsbD {n k : Nat} (w : BitVec n) (hi lo i : Nat) (h : i < k) :
    (BitVec.ofNat k (fld w hi lo)).getLsbD i = (decide (i < hi + 1 - lo) && w.getLsbD (lo + i)) := by
  rw [BitVec.getLsbD_ofNat, decide_eq_true h, Bool.true_and, fld, bitsN, Nat.testBit_mod_two_pow, Nat.testBit_div_two_pow]
  rw [Nat.add_comm i lo]
  rfl

theorem b2n_testBit_zero (b : Bool) : (b2n b).testBit 0 = b := by cases b <;> rfl
theorem two_pow_getLsbD {n : Nat} (i j : Nat) (h : j < n) : (BitVec.ofNat n (2 ^ i)).getLsbD j = decide (i = j) := by
  rw [BitVec.getLsbD_ofNat, decide_eq_true h, Bool.true_and, Nat.testBit_two_pow]

theorem putBit_getLsbD {n : Nat} (w : BitVec n) (i j : Nat) (b : Bool) (h : j < n) :
    (putBit w i b).getLsbD j = if i = j then b else w.getLsbD j := by
  unfold putBit
  split <;> simp only [setBit, clrBit, BitVec.getLsbD_or, BitVec.getLsbD_and, BitVec.getLsbD_not, two_pow_getLsbD i j h, h]
  · split <;> simp_all
  · split <;> simp_all

/-- The fields of a view's word, EN changed or not (R372). -/
theorem view_fields (v : View) (b : Bool) : let w := putBit v.cfgWord 18 b
    BitVec.ofNat 4 (fld w 3 0) = v.storedFmt ∧ BitVec.ofNat 4 (fld w 7 4) = v.viewFmt ∧
    BitVec.ofNat 4 (fld w 11 8) = v.readSlot ∧ BitVec.ofNat 4 (fld w 15 12) = v.writeSlot ∧
    w.getLsbD 16 = v.readEn ∧ w.getLsbD 17 = v.writeEn ∧ w.getLsbD 18 = b := by
  have bit (i : Nat) (hi : i < 32) (h18 : i ≠ 18) : (putBit v.cfgWord 18 b).getLsbD i = v.cfgWord.getLsbD i := by
    rw [putBit_getLsbD _ _ _ _ hi, if_neg (Ne.symm h18)]
  have field (lo : Nat) (x : BitVec 4) (hlo : lo ≤ 12) (hx : ∀ i < 4, v.cfgWord.getLsbD (lo + i) = x.toNat.testBit i) :
      BitVec.ofNat 4 (fld (putBit v.cfgWord 18 b) (lo + 3) lo) = x := by
    refine BitVec.eq_of_getLsbD_eq fun i hi => ?_
    rw [ofNat_fld_getLsbD _ _ _ _ hi, bit _ (by omega) (by omega), hx i hi]
    simp [BitVec.getLsbD]; omega
  refine ⟨field 0 _ (by omega) ?stored, field 4 _ (by omega) ?view, field 8 _ (by omega) ?read, field 12 _ (by omega) ?write,
    ?_, ?_, ?_⟩
  case stored | view | read | write =>
    intro i hi
    rw [View.cfgWord, mkW_getLsbD _ _ (by omega)]
    interval_cases i <;> simp [-Nat.testBit_zero]
  · rw [bit 16 (by omega) (by omega), View.cfgWord, mkW_getLsbD _ _ (by omega)]
    simp [-Nat.testBit_zero, b2n_testBit_zero]
  · rw [bit 17 (by omega) (by omega), View.cfgWord, mkW_getLsbD _ _ (by omega)]
    simp [-Nat.testBit_zero, b2n_testBit_zero]
  · rw [putBit_getLsbD _ _ _ _ (by omega), if_pos rfl]

/-! ### What a write reaches -/

/-- A write that reaches its word acts on its block (R14, R25). -/
theorem regWrite_reaching {s : State} {ag : Agent} {a : Nat} {b : Blk} {off : Nat} (w : Word)
    (hat : s.blockAt a = some (b, off)) (haligned : a % 4 = 0) (hhere : s.blkGone b = false)
    (hreach : s.reaches ag b off true = true) : s.regWrite ag a w = s.blkWrite ag b off w := by
  simp [State.regWrite, haligned, hat, hhere, hreach]

/-- The firmware reaches every block that is there. -/
theorem regWrite_firmware {s : State} {a : Nat} {b : Blk} {off : Nat} (w : Word) (hat : s.blockAt a = some (b, off))
    (haligned : a % 4 = 0) (hhere : s.blkGone b = false) : s.regWrite .firmware a w = s.blkWrite .firmware b off w :=
  regWrite_reaching w hat haligned hhere rfl

/-- A part of the state left as it is. -/
theorem upd_id {α : Type} {n : Nat} (v : Vector α n) (i : Fin n) (f : α → α) (h : f v[i] = v[i]) : upd v i f = v := by
  apply Vector.ext
  intro k hk
  rw [upd_getElem]
  split
  · next e => subst e; exact h
  · rfl

theorem upd_congr {α : Type} {n : Nat} (v : Vector α n) (i : Fin n) {f g : α → α} (h : f v[i] = g v[i]) : upd v i f = upd v i g := by
  simp only [upd, h]

theorem modPort_id (s : State) (p : Fin 10) (f : EdgePort → EdgePort) (h : f s.ports[p] = s.ports[p]) : s.modPort p f = s := by
  rw [State.modPort, upd_id _ _ _ h]

theorem modPort_congr (s : State) (p : Fin 10) {f g : EdgePort → EdgePort} (h : f s.ports[p] = g s.ports[p]) :
    s.modPort p f = s.modPort p g := by
  rw [State.modPort, State.modPort, upd_congr _ _ h]

end Sys2Proof.Machine
end

section
/-! SUPPORT. The control registers (03 R67, 04 R99, 09 R249 and R257, 10 R295, 13 R357 and R372, 15 R405): what each row of them does. -/
namespace Sys2Proof.Machine
open Sys2Proof

/-! ### Needles (10 R295, R296) -/

theorem needleOf_skeinOf_kOf (n : Fin 96) : needleOf (skeinOf n) (kOf n) = n := by
  apply Fin.ext; simp only [needleOf, skeinOf, kOf]; omega

theorem blockAt_ndlBase (s : State) (n : Fin 96) (h : s.skeinIn (skeinOf n) = true) :
    s.blockAt (ndlBase n) = some (.ndl n, 0) := by
  have := blockAt_ndl s (skeinOf n) (kOf n) 0 (by omega) h
  rwa [needleOf_skeinOf_kOf] at this

theorem ndlBase_aligned (n : Fin 96) : ndlBase n % 4 = 0 := by unfold ndlBase; omega

theorem regWrite_ndlBase {s : State} {n : Fin 96} {f : Fin 2} (w : Word) (hk : s.skeinIn (skeinOf n) = true)
    (hreach : s.reaches (.host f) (.ndl n) 0 true = true) (hold : s.holds (.host f) (.ndl n) 0 = true) :
    s.regWrite (.host f) (ndlBase n) w = { s with needles := s.needles.set n (s.needles[n].control w) } := by
  rw [regWrite_reaching w (blockAt_ndlBase s n hk) (ndlBase_aligned n) rfl hreach]
  simp only [State.blkWrite, State.blkW1c, State.agentHolds, hold, if_true]
  rfl

theorem control_halt {x : Needle} (h : x.st = .running) : x.control 1 =
    if x.wait = .none then { x with st := .halted, haltReq := false, stepReq := false } else { x with haltReq := true } := by
  split <;> simp_all [Needle.control]

theorem control_run {x : Needle} (h : x.st = .halted) (hw : x.wait ≠ .ended) : x.control 2 = { x with st := .running } := by
  simp [Needle.control, h, hw]

theorem control_step {x : Needle} (h : x.st = .halted) (hw : x.wait ≠ .ended) :
    x.control 4 = { x with st := .running, stepReq := true } := by
  simp [Needle.control, h, hw]

theorem control_not_halted {x : Needle} (h : x.st ≠ .halted) : x.control 2 = x ∧ x.control 4 = x := by
  simp [Needle.control, h]

/-- HALT, RUN and STEP written through a grant (R295, R296). -/
theorem needle_controls (s : State) (n : Fin 96) (f : Fin 2) (hk : s.skeinIn (skeinOf n) = true)
    (hreach : s.reaches (.host f) (.ndl n) 0 true = true) (hold : s.holds (.host f) (.ndl n) 0 = true) :
    let x := s.needles[n]
    let put := fun (y : Needle) => Host.Outcome.next (φ := Fault) (ρ := Refusal) ({ s with needles := s.needles.set n y } : State)
    (x.st = .running → x.wait = .none →
      exec (.ndlHalt n (.host f)) s = put { x with st := .halted, haltReq := false, stepReq := false }) ∧
    (x.st = .running → x.wait ≠ .none → exec (.ndlHalt n (.host f)) s = put { x with haltReq := true }) ∧
    (x.st = .halted → x.wait ≠ .ended → exec (.ndlRun n (.host f)) s = put { x with st := .running } ∧
      exec (.ndlStep n (.host f)) s = put { x with st := .running, stepReq := true }) ∧
    (x.st ≠ .halted → exec (.ndlRun n (.host f)) s = put x ∧ exec (.ndlStep n (.host f)) s = put x) := by
  intro x put
  have write (w : Word) : Host.Outcome.next (s.regWrite (.host f) (ndlBase n) w) = put (x.control w) :=
    congrArg Host.Outcome.next (regWrite_ndlBase w hk hreach hold)
  refine ⟨fun h hw => ?_, fun h hw => ?_, fun h hw => ⟨?_, ?_⟩, fun h => ⟨?_, ?_⟩⟩
  · exact (write 1).trans (by rw [control_halt h, if_pos hw])
  · exact (write 1).trans (by rw [control_halt h, if_neg hw])
  · exact (write 2).trans (by rw [control_run h hw])
  · exact (write 4).trans (by rw [control_step h hw])
  · exact (write 2).trans (by rw [(control_not_halted h).1])
  · exact (write 4).trans (by rw [(control_not_halted h).2])

/-! ### Movers (10 R293, R294) -/

theorem wake_needles (s : State) (n j : Fin 96) :
    (s.wake n id).needles[j] = if n = j then Needle.boundary { s.needles[j] with wait := .none } else s.needles[j] := by
  rw [State.wake, modNeedle_needles, upd_get]; rfl

/-- What waking the needles of a list that wait for a mover leaves. -/
theorem moverWake_fold (m : Fin 2) (k : Fin 16) (l : List (Fin 6)) (hl : l.Nodup) (s : State) :
    let t := l.foldl (fun s j => if (s.needles[needleOf k j]).wait = .mover m then s.wake (needleOf k j) id else s) s
    t.skeins = s.skeins ∧ t.accesses = s.accesses ∧ t.mem = s.mem ∧
    ∀ n : Fin 96, t.needles[n] = if (∃ j ∈ l, needleOf k j = n) ∧ (s.needles[n]).wait = .mover m then
      Needle.boundary { s.needles[n] with wait := .none } else s.needles[n] := by
  induction l generalizing s with
  | nil => simp
  | cons j l ih =>
    obtain ⟨hj, hl⟩ := List.nodup_cons.mp hl
    have inj (i : Fin 6) (h : needleOf k i = needleOf k j) : i = j := by
      simp only [needleOf, Fin.ext_iff] at h ⊢; omega
    dsimp only
    rw [List.foldl_cons]
    obtain ⟨hs, ha, hm, hn⟩ := ih hl (if (s.needles[needleOf k j]).wait = .mover m then s.wake (needleOf k j) id else s)
    refine ⟨?_, ?_, ?_, fun n => ?_⟩
    · rw [hs]; split <;> rfl
    · rw [ha]; split <;> rfl
    · rw [hm]; split <;> rfl
    · rw [hn]
      by_cases e : needleOf k j = n
      · have hnot : ¬ ∃ i ∈ l, needleOf k i = n := fun ⟨i, hi, h⟩ => hj (inj i (h.trans e.symm) ▸ hi)
        simp only [hnot, false_and, if_false]
        subst e
        by_cases hw : (s.needles[needleOf k j]).wait = .mover m
        · rw [if_pos hw, wake_needles, if_pos rfl, if_pos ⟨⟨j, by simp, rfl⟩, hw⟩]
        · rw [if_neg hw, if_neg fun h => hw h.2]
      · have same : (if (s.needles[needleOf k j]).wait = .mover m then s.wake (needleOf k j) id else s).needles[n] = s.needles[n] := by
          split
          · rw [wake_needles, if_neg e]
          · rfl
        rw [same]
        simp only [List.mem_cons, exists_eq_or_imp, e, false_or]

theorem needleOf_of_skein (k : Fin 16) (n : Fin 96) : (∃ j ∈ allFin 6, needleOf k j = n) ↔ skeinOf n = k := by
  constructor
  · rintro ⟨j, -, rfl⟩
    apply Fin.ext; simp only [needleOf, skeinOf]; omega
  · rintro rfl
    exact ⟨kOf n, List.mem_finRange _, needleOf_skeinOf_kOf n⟩

/-- CLEAR of a mover (R257): its queue and its fault are gone, its accesses end without a destination, and the waits for it end. -/
theorem moverClear_clears (s : State) (k : Fin 16) (m : Fin 2) (hk : s.skeinIn k = true) (hfree : s.swatchOf k = none) :
    ∃ t, exec (.moverClear k m .firmware) s = .next t ∧ (t.skeins[k]).movers[m] = { (s.skeins[k]).movers[m] with
        queue := [], fault := none } ∧
      t.accesses = (s.accesses.map fun a => if a.who = .mover k m then { a with dest := .none, live := false } else a) ∧
      t.mem = s.mem ∧ ∀ n : Fin 96, t.needles[n] = if skeinOf n = k ∧ (s.needles[n]).wait = .mover m then
        Needle.boundary { s.needles[n] with wait := .none } else s.needles[n] := by
  have hwrite : s.regWrite .firmware (sknBase k + 0x30 + 0x20 * m.val) 1 = s.clearMover k m := by
    have hm := m.isLt
    rw [Nat.add_assoc, regWrite_firmware 1 (blockAt_skn s k (0x30 + 0x20 * m.val) (by omega) hk)
      (by have := (bases_aligned 0 0 k m).2.2.2.1; omega) rfl]
    fin_cases m <;> simp [State.blkWrite, State.blkW1c]
  have hclear : s.clearMover k m = State.moverWake (State.modMover
      { s with accesses := s.accesses.map fun a => if a.who = .mover k m then { a with dest := .none, live := false } else a }
      k m fun x => { x with queue := [], fault := none }) k m := by
    simp only [State.clearMover, hfree, if_true]
  obtain ⟨hskeins, haccesses, hmem, hneedles⟩ := moverWake_fold m k (allFin 6) (List.nodup_finRange 6) (State.modMover
      { s with accesses := s.accesses.map fun a => if a.who = .mover k m then { a with dest := .none, live := false } else a }
      k m fun x => { x with queue := [], fault := none })
  refine ⟨_, congrArg Host.Outcome.next (hwrite.trans hclear), ?_, haccesses, hmem, fun n => ?_⟩
  · rw [State.moverWake, hskeins]
    simp [State.modMover]
  · rw [State.moverWake, hneedles]
    simp only [needleOf_of_skein]
    rfl

/-! ### Ports and stacks (03 R57, R67; 14 R389) -/

@[simp] theorem modPort_modPort (s : State) (p : Fin 10) (f g : EdgePort → EdgePort) :
    (s.modPort p f).modPort p g = s.modPort p fun e => g (f e) := by
  simp [State.modPort]

@[simp] theorem portUp_modPort_same (s : State) (p : Fin 10) (f : EdgePort → EdgePort) :
    (s.modPort p f).portUp p = (f s.ports[p]).st.up := by
  simp [State.portUp]

/-- The word of EDGE_RETRAIN and of EDGE_CTRL's LOCK: MAX_RATE as it is, RETRAIN or LOCK set. -/
theorem edgeCtrl_words (r : BitVec 2) :
    (BitVec.ofNat 2 (fld (mkW [(0, 2, r.toNat), (2, 1, 1)]) 1 0) = r ∧ (mkW [(0, 2, r.toNat), (2, 1, 1)]).getLsbD 2 = true ∧
      (mkW [(0, 2, r.toNat), (2, 1, 1)]).getLsbD 31 = false) ∧
    (BitVec.ofNat 2 (fld (mkW [(0, 2, r.toNat), (31, 1, 1)]) 1 0) = r ∧ (mkW [(0, 2, r.toNat), (31, 1, 1)]).getLsbD 2 = false ∧
      (mkW [(0, 2, r.toNat), (31, 1, 1)]).getLsbD 31 = true) := by
  revert r; decide

/-- A write of EDGE_CTRL that leaves MAX_RATE as it is. -/
theorem writeEdge_ctrl {s : State} (ag : Agent) {p : Fin 10} {w : Word} (h : BitVec.ofNat 2 (fld w 1 0) = s.ports[p].maxRate) :
    s.writeEdge ag p 8 w =
      if w.getLsbD 2 = true ∧ s.portUp p = true then
        s.modPort p fun e => { e with lock := e.lock || setsLock ag w, retrainReq := true, st := .retrain }
      else s.modPort p fun e => { e with lock := e.lock || setsLock ag w } := by
  have hpoke : s.blkPoke (.edge p) 8 w = s := modPort_id s p _ (by rw [h])
  simp only [State.writeEdge, hpoke, ite_self, ne_eq, not_true_eq_false, if_false, State.retrain, modPort_modPort,
    portUp_modPort_same, show s.ports[p].st.up = s.portUp p from rfl]
  by_cases hr : w.getLsbD 2 = true ∧ s.portUp p = true
  · rw [if_pos hr, if_pos hr, if_pos hr.2]
  · rw [if_neg hr, if_neg hr]

/-- RETRAIN and LOCK of a port (R57, R67). -/
theorem edge_controls (s : State) (p : Fin 10) :
    (s.portUp p = true → exec (.edgeRetrain p .firmware) s =
      .next (s.modPort p fun e => { e with retrainReq := true, st := .retrain })) ∧
    (s.portUp p = false → exec (.edgeRetrain p .firmware) s = .next s) ∧
    exec (.edgeCtrlLock p .firmware) s = .next (s.modPort p fun e => { e with lock := true }) ∧
    (∀ f : Fin 2, s.reaches (.host f) (.edge p) 8 true = true → exec (.edgeCtrlLock p (.host f)) s = .next s) := by
  obtain ⟨⟨hrate, hretrain, hnolock⟩, ⟨hrate', hnoretrain, hlock⟩⟩ := edgeCtrl_words s.ports[p].maxRate
  have haligned : (edgeBase p + 8) % 4 = 0 := by have := (bases_aligned p 0 0 0).1; omega
  have hat := blockAt_edge s p 8 (by omega)
  have write (w : Word) : s.regWrite .firmware (edgeBase p + 8) w = s.writeEdge .firmware p 8 w :=
    regWrite_firmware w hat haligned rfl
  refine ⟨fun hup => congrArg Host.Outcome.next ?_, fun hup => congrArg Host.Outcome.next ?_, congrArg Host.Outcome.next ?_,
    fun f hreach => congrArg Host.Outcome.next ?_⟩
  · rw [write, writeEdge_ctrl _ hrate, if_pos ⟨hretrain, hup⟩]
    exact modPort_congr s p (by simp only [setsLock, hnolock, Bool.or_false])
  · rw [write, writeEdge_ctrl _ hrate, if_neg (by simp [hup])]
    exact modPort_id s p _ (by simp only [setsLock, hnolock, Bool.or_false])
  · rw [write, writeEdge_ctrl _ hrate', if_neg (by rw [hnoretrain]; simp)]
    exact modPort_congr s p (by simp only [setsLock, hlock, Bool.or_true])
  · rw [regWrite_reaching _ hat haligned rfl hreach]
    refine (writeEdge_ctrl (.host f) hrate').trans ?_
    rw [if_neg (by rw [hnoretrain]; simp)]
    exact modPort_id s p _ (by simp only [setsLock, Bool.or_false])

theorem stkCtrlLock_locks (s : State) (b : Fin 4) (h : s.namedStacks.contains b = true) :
    exec (.stkCtrlLock b .firmware) s = .next (s.modStack b fun t => { t with lock := true }) := by
  have word : ∀ x : Bool, (mkW [(0, 1, b2n x), (31, 1, 1)]).getLsbD 0 = x ∧ (mkW [(0, 1, b2n x), (31, 1, 1)]).getLsbD 31 = true := by
    decide
  obtain ⟨hscrub, hlock⟩ := word s.stack[b].scrubEn
  refine congrArg Host.Outcome.next ?_
  have e : 0x13000028 + 0x100000 * b.val = 0x13000000 + 0x100000 * b.val + 0x28 := by omega
  rw [e, regWrite_firmware _ (blockAt_stk s b 0x28 (by omega) h) (by omega) rfl]
  have hpoke : s.blkPoke (.stk b) 0x28 (mkW [(0, 1, b2n s.stack[b].scrubEn), (31, 1, 1)]) = s := by
    simp only [State.blkPoke, if_true, State.modStack, hscrub]
    rw [upd_id _ _ _ rfl]
  simp only [State.blkWrite, State.blkW1c, hpoke, ite_self, setsLock, hlock, Bool.or_true]
  rfl

/-! ### The mesh (09 R249, R257) -/

theorem barrier_fields (v : Word) :
    BitVec.ofNat 16 (fld v 15 0) = v.setWidth 16 ∧ BitVec.ofNat 6 (fld v 21 16) = (v >>> 16).setWidth 6 := by
  constructor <;> refine BitVec.eq_of_getLsbD_eq fun i hi => ?_
  · rw [ofNat_fld_getLsbD _ _ _ _ hi]; simp [hi]
  · rw [ofNat_fld_getLsbD _ _ _ _ hi]; simp [hi]

/-- Flags and barrier configurations written (R249), at the home skein only. -/
theorem mesh_controls (s : State) (k : Fin 16) (g : Fin 64) (i : Fin 16) (v : Word) (hk : s.skeinIn k = true) :
    (s.isHome k = true → exec (.meshFlagWrite k g v .firmware) s = .next (s.putFlag k g v) ∧
      ((s.skeins[k]).mesh.barriers[i].arrived = [] → exec (.meshBarCfgWrite k i v .firmware) s =
        .next (s.modMesh k fun m => { m with barriers := m.barriers.set i { m.barriers[i] with
          skeins := v.setWidth 16, needles := (v >>> 16).setWidth 6, enable := v.getLsbD 22 } })) ∧
      ((s.skeins[k]).mesh.barriers[i].arrived ≠ [] → exec (.meshBarCfgWrite k i v .firmware) s =
        .next (s.modMesh k fun m => { m with events := setBit m.events 4 }))) ∧
    (s.isHome k = false → exec (.meshFlagWrite k g v .firmware) s = .next s ∧
      exec (.meshBarCfgWrite k i v .firmware) s = .next s) := by
  have hg := g.isLt
  have hi := i.isLt
  have haligned := (bases_aligned 0 0 k 0).2.2.1
  have write (o : Nat) (ho : o < 0x1000) (h4 : o % 4 = 0) (h8 : o ≠ 8) :
      s.regWrite .firmware (meshBase k + o) v = s.writeMesh k o v := by
    rw [regWrite_firmware v (blockAt_mesh s k o ho hk) (by omega) rfl]
    simp [State.blkWrite, State.blkW1c, h8]
  have hflag : exec (.meshFlagWrite k g v .firmware) s = .next (s.writeMesh k (0x200 + 4 * g.val) v) :=
    congrArg Host.Outcome.next ((congrArg (s.regWrite .firmware · v) (Nat.add_assoc _ _ _)).trans
      (write _ (by omega) (by omega) (by omega)))
  have hbar : exec (.meshBarCfgWrite k i v .firmware) s = .next (s.writeMesh k (0x100 + 4 * i.val) v) :=
    congrArg Host.Outcome.next ((congrArg (s.regWrite .firmware · v) (Nat.add_assoc _ _ _)).trans
      (write _ (by omega) (by omega) (by omega)))
  have hgi : Fin.ofNat 64 ((0x200 + 4 * g.val - 0x200) / 4) = g := by apply Fin.ext; simp
  have hii : Fin.ofNat 16 ((0x100 + 4 * i.val - 0x100) / 4) = i := by apply Fin.ext; simp
  have hflagOff : ¬ (0x100 ≤ 0x200 + 4 * g.val ∧ 0x200 + 4 * g.val < 0x140 ∧ (0x200 + 4 * g.val) % 4 = 0) := by omega
  have hflagIn : 0x200 ≤ 0x200 + 4 * g.val ∧ 0x200 + 4 * g.val < 0x300 ∧ (0x200 + 4 * g.val) % 4 = 0 := by omega
  have hbarIn : 0x100 ≤ 0x100 + 4 * i.val ∧ 0x100 + 4 * i.val < 0x140 ∧ (0x100 + 4 * i.val) % 4 = 0 := by omega
  rw [hflag, hbar]
  unfold State.writeMesh
  refine ⟨fun hhome => ⟨?_, fun harr => ?_, fun harr => ?_⟩, fun hhome => ?_⟩
  · rw [hhome, if_neg (by simp), if_neg hflagOff, if_pos hflagIn, hgi]
  · obtain ⟨hskeins, hneedles⟩ := barrier_fields v
    rw [hhome, if_neg (by simp), if_pos hbarIn]
    simp only [hii, harr, List.isEmpty_nil, if_true, State.blkPoke]
    rw [if_pos ⟨hhome, hbarIn⟩]
    simp only [hskeins, hneedles]
    rfl
  · rw [hhome, if_neg (by simp), if_pos hbarIn]
    simp only [hii]
    rw [if_neg (by simpa using harr)]
  · simp [hhome]

/-! ### Carders (13 R357, R367, R372) -/

theorem modCarder_id (s : State) (k : Fin 16) (m : Fin 2) (f : Carder → Carder)
    (h : f (s.skeins[k]).carders[m] = (s.skeins[k]).carders[m]) : s.modCarder k m f = s := by
  rw [State.modCarder, State.modSkein, upd_id _ _ _ (by rw [upd_id _ _ _ h])]

theorem modEdgeCarder_id (s : State) (p : Fin 10) (f : Carder → Carder) (h : f s.edgeCarders[p] = s.edgeCarders[p]) :
    s.modEdgeCarder p f = s := by
  rw [State.modEdgeCarder, upd_id _ _ _ h]

@[simp] theorem modCarder_modCarder (s : State) (k : Fin 16) (m : Fin 2) (f g : Carder → Carder) :
    (s.modCarder k m f).modCarder k m g = s.modCarder k m fun c => g (f c) := by
  simp [State.modCarder, State.modSkein]

@[simp] theorem modEdgeCarder_modEdgeCarder (s : State) (p : Fin 10) (f g : Carder → Carder) :
    (s.modEdgeCarder p f).modEdgeCarder p g = s.modEdgeCarder p fun c => g (f c) := by
  simp [State.modEdgeCarder]

/-- The word of STAT_CLEAR: FTZ and RESEED as they are. -/
theorem statClear_word : ∀ ftz reseed : Bool,
    let w := mkW [(0, 1, b2n ftz), (1, 1, 1), (2, 1, b2n reseed)]
    w.getLsbD 0 = ftz ∧ w.getLsbD 1 = true ∧ w.getLsbD 2 = reseed := by decide

/-- A write of a carder's control word that leaves FTZ and RESEED as they are. -/
theorem pokeCard_ctrl {c : Carder} (edge : Bool) {w : Word} (h0 : w.getLsbD 0 = c.ftz) (h2 : w.getLsbD 2 = c.reseed) :
    State.blkPoke.pokeCard c edge 0 w = c := by
  simp only [State.blkPoke.pokeCard, if_true, h0, h2]

/-- STAT_CLEAR and the LFSR's seed (R357). -/
theorem carder_controls (s : State) (k : Fin 16) (m : Fin 2) (p : Fin 10) (v : Word) :
    (s.skeinIn k = true →
      exec (.statClear (.skein k m) .firmware) s = .next (s.modCarder k m Carder.clearStats) ∧
      exec (.cardLfsrSeedWrite (.skein k m) v .firmware) s =
        .next (s.modCarder k m fun c => { c with seed := v, lfsr := if v = 0 then 1 else v })) ∧
    exec (.statClear (.edge p) .firmware) s = .next (s.modEdgeCarder p Carder.clearStats) ∧
    exec (.cardLfsrSeedWrite (.edge p) v .firmware) s =
      .next (s.modEdgeCarder p fun c => { c with seed := v, lfsr := if v = 0 then 1 else v }) := by
  obtain ⟨-, -, -, -, hedge, hskein⟩ := bases_aligned p 0 k m
  refine ⟨fun hk => ⟨congrArg Host.Outcome.next ?_, congrArg Host.Outcome.next ?_⟩, congrArg Host.Outcome.next ?_,
    congrArg Host.Outcome.next ?_⟩
  · obtain ⟨h0, h1, h2⟩ := statClear_word (s.skeins[k]).carders[m].ftz (s.skeins[k]).carders[m].reseed
    rw [regWrite_firmware (a := cardBase (.skein k m)) _ (blockAt_card s k m 0 (by omega) hk) hskein rfl]
    have hpoke : s.blkPoke (.card k m) 0 (mkW [(0, 1, b2n (s.carder (.skein k m)).ftz), (1, 1, 1),
        (2, 1, b2n (s.carder (.skein k m)).reseed)]) = s := modCarder_id s k m _ (pokeCard_ctrl false h0 h2)
    simp only [State.blkWrite, State.blkW1c, State.writeCard, hpoke]
    exact if_pos ⟨trivial, h1⟩
  · rw [regWrite_firmware _ (blockAt_card s k m 0xC (by omega) hk) (by omega) rfl]
    simp [State.blkWrite, State.blkW1c, State.writeCard, State.blkPoke, State.blkPoke.pokeCard, lfsrSeed]
  · obtain ⟨h0, h1, h2⟩ := statClear_word s.edgeCarders[p].ftz s.edgeCarders[p].reseed
    rw [regWrite_firmware (a := cardBase (.edge p)) _ (blockAt_edgeCard s p 0 (by omega)) hedge rfl]
    have hpoke : s.blkPoke (.edgeCard p) 0 (mkW [(0, 1, b2n (s.carder (.edge p)).ftz), (1, 1, 1),
        (2, 1, b2n (s.carder (.edge p)).reseed)]) = s := by
      refine (if_neg (by omega)).trans (modEdgeCarder_id s p _ (pokeCard_ctrl true h0 h2))
    simp only [State.blkWrite, State.blkW1c, State.writeCard, hpoke]
    exact (if_neg (by omega)).trans (if_pos ⟨trivial, h1⟩)
  · rw [regWrite_firmware _ (blockAt_edgeCard s p 0xC (by omega)) (by omega) rfl]
    simp [State.blkWrite, State.blkW1c, State.writeCard, State.blkPoke, State.blkPoke.pokeCard, lfsrSeed]

/-! ### Bobbins (04 R99, 16 R421) -/

theorem modBob_id (s : State) (n : Fin 48) (f : Bobbin → Bobbin) (h : f s.bobbins[n] = s.bobbins[n]) : s.modBob n f = s := by
  rw [State.modBob, upd_id _ _ _ h]
theorem modBob_congr (s : State) (n : Fin 48) {f g : Bobbin → Bobbin} (h : f s.bobbins[n] = g s.bobbins[n]) :
    s.modBob n f = s.modBob n g := by
  rw [State.modBob, State.modBob, upd_congr _ _ h]

theorem regWrite_bobbin {s : State} {n : Fin 48} (w : Word) (hdie : s.fuses.shusDies ≠ 0) (hhere : s.blkGone .bob = false) :
    s.regWrite .firmware (funcAddr (.bobbin n)) w = s.modBob n fun b =>
      if w.getLsbD 0 then (if b.bound then { b with fsm := b.fsm.enable } else b) else b.stop := by
  have hn := n.isLt
  have e : funcAddr (.bobbin n) = 0x18000000 + (0x100 * n.val + 4) := by simp only [funcAddr]; omega
  have hin : 0x100 * n.val + 4 < 0x3000 ∧ (0x100 * n.val + 4) % 0x100 = 4 := by omega
  have hnum : Fin.ofNat 48 ((0x100 * n.val + 4) / 0x100) = n := by
    apply Fin.ext; simp only [Fin.val_ofNat]; omega
  rw [e, regWrite_firmware w (blockAt_bob s _ (by omega) hdie) (by omega) hhere]
  have hnoW1c : s.blkW1c .bob (0x100 * n.val + 4) w = none := by
    simp only [State.blkW1c]
    rw [if_neg (by omega), if_neg (by omega)]
  simp only [State.blkWrite, hnoW1c, State.writeBob]
  rw [if_pos hin]
  simp only [hnum]

theorem enable_bit : (BitVec.ofNat 32 (b2n true)).getLsbD 0 = true ∧ (BitVec.ofNat 32 (b2n false)).getLsbD 0 = false := by decide

/-- EN of a bobbin: a bound one starts, and any stops (R99). -/
theorem bobbin_enables (s : State) (n : Fin 48) (hdie : s.fuses.shusDies ≠ 0) (hhere : s.blkGone .bob = false) :
    (s.bobbins[n].bound = true → exec (.functionEnable (.bobbin n) .firmware) s =
      .next (s.modBob n fun b => { b with fsm := b.fsm.enable })) ∧
    (s.bobbins[n].bound = false → exec (.functionEnable (.bobbin n) .firmware) s = .next s) ∧
    exec (.functionDisable (.bobbin n) .firmware) s = .next (s.modBob n Bobbin.stop) := by
  refine ⟨fun hb => congrArg Host.Outcome.next ?_, fun hb => congrArg Host.Outcome.next ?_, congrArg Host.Outcome.next ?_⟩
  · refine (regWrite_bobbin _ hdie hhere).trans (modBob_congr s n ?_)
    simp only [enable_bit.1, if_true, hb]
  · refine (regWrite_bobbin _ hdie hhere).trans (modBob_id s n _ ?_)
    simp only [enable_bit.1, if_true, hb, Bool.false_eq_true, if_false]
  · exact (regWrite_bobbin _ hdie hhere).trans (modBob_congr s n (by
      simp only [enable_bit.2, Bool.false_eq_true, if_false]))

/-- A bobbin's rise and fall end (R99). -/
theorem bobbin_transitions (s : State) (n : Fin 48) : let b := s.bobbins[n]
    (b.fsm.st ≠ .rising → exec (.functionRiseDone (.bobbin n)) s = .next s) ∧
    (b.fsm.st = .rising → b.fsm.pendDis = false → exec (.functionRiseDone (.bobbin n)) s =
      .next (s.modBob n fun b => { b with fsm := { b.fsm with st := .on } })) ∧
    (b.fsm.st ≠ .falling ∨ (b.dirOut = true ∧ b.opened.isSome = true) → exec (.functionFallDone (.bobbin n)) s = .next s) ∧
    (b.fsm.st = .falling → b.fsm.pendEn = false → b.opened = none → b.unbindCmd = none →
      exec (.functionFallDone (.bobbin n)) s = .next (s.modBob n fun b => { b with fsm := { b.fsm with st := .off } })) := by
  intro b
  have get (f : Bobbin → Bobbin) : (s.modBob n f).bobbins[n] = f b := by simp [b]
  refine ⟨fun h => congrArg Host.Outcome.next (if_pos h), fun h hp => congrArg Host.Outcome.next ?_,
    fun h => congrArg Host.Outcome.next (if_pos h), fun h hp ho hu => congrArg Host.Outcome.next ?_⟩
  · have hrose : b.fsm.rose = { b.fsm with st := .on } := by simp [EnFsm.rose, h, hp]
    simp only [riseDone]
    rw [if_neg (by simp [b] at h ⊢; exact h), get]
    simp only [hrose, reduceCtorEq, if_false]
    exact modBob_congr s n (by rw [← hrose])
  · have hfell : b.fsm.fell = { b.fsm with st := .off } := by simp [EnFsm.fell, h, hp]
    simp only [fallDone]
    rw [if_neg (by rintro (h' | h'); exact h' h; simp [b] at ho; simp [ho] at h')]
    rw [show s.bobbins[n].unbindCmd = none from hu, get]
    simp only [hfell, reduceCtorEq, if_false]
    exact modBob_congr s n (by rw [← hfell])

/-! ### Carded views (13 R369, R372) -/

/-- EN := 1 or 0. -/
def EnFsm.put (f : EnFsm) (on : Bool) : EnFsm := if on then f.enable else f.disable

/-- EN of a view written. -/
def Carder.enView (c : Carder) (v : Fin 4) (on : Bool) : Carder :=
  { c with views := upd c.views v fun x => { x with fsm := x.fsm.put on } }

/-- A write of a view's control word that changes EN alone, whether the view is OFF or not. -/
theorem pokeCard_en (c : Carder) (v : Fin 4) (on : Bool) :
    State.blkPoke.pokeCard c true (0x40C + 0x20 * v.val) (putBit (c.views[v]).cfgWord 18 on) = c.enView v on := by
  have hv := v.isLt
  obtain ⟨hstored, hview, hread, hwrite, hreadEn, hwriteEn, hen⟩ := view_fields c.views[v] on
  have hnum : Fin.ofNat 4 ((0x40C + 0x20 * v.val - 0x400) / 0x20) = v := by apply Fin.ext; simp only [Fin.val_ofNat]; omega
  have hword : (0x40C + 0x20 * v.val) % 0x20 = 0xC := by omega
  unfold State.blkPoke.pokeCard
  rw [if_neg (by omega), if_neg (by omega), if_pos ⟨rfl, by omega⟩]
  simp only [hnum, hword, Carder.enView, EnFsm.put]
  congr 1
  apply upd_congr
  simp only [hen, hstored, hview, hread, hwrite, hreadEn, hwriteEn, if_true]
  split <;> rfl

/-- Whether a view is well configured depends on its fields and on the slots. -/
theorem viewOk_enView (s : State) (p : Fin 10) (v : Fin 4) (on : Bool) :
    let t := s.modEdgeCarder p fun c => c.enView v on
    t.viewOk p t.edgeCarders[p].views[v] = s.viewOk p s.edgeCarders[p].views[v] := by
  intro t
  have hview : t.edgeCarders[p].views[v] =
      { s.edgeCarders[p].views[v] with fsm := (s.edgeCarders[p].views[v]).fsm.put on } := by
    simp [t, Carder.enView]
  have hslots : t.edgeCarders[p].slots = s.edgeCarders[p].slots := by simp [t, Carder.enView]
  rw [hview]
  simp only [State.viewOk, hslots]
  rfl

/-- EN of a view written through its own register: an enable of a bad configuration leaves OFF (R372). -/
theorem enableFunc_view {s : State} {p : Fin 10} {v : Fin 4} (on : Bool) (hjob : s.viewJob p = none) :
    enableFunc (.view p v) .firmware on s =
      if (s.edgeCarders[p].views[v]).fsm.st = .off ∧ on = true ∧ s.viewOk p s.edgeCarders[p].views[v] = false then
        s.modEdgeCarder p fun c => { c.enView v on with
          views := upd (c.enView v on).views v fun x => { x with fsm := ⟨true, .off, false, false⟩ }
          events := setBit c.events 5 }
      else s.modEdgeCarder p fun c => c.enView v on := by
  have hv := v.isLt
  have e : funcAddr (.view p v) = cardBase (.edge p) + (0x40C + 0x20 * v.val) := by simp only [funcAddr, cardBase]; omega
  have haligned := (bases_aligned p 0 0 0).2.2.2.2.1
  have hpoke : s.blkPoke (.edgeCard p) (0x40C + 0x20 * v.val) (putBit (s.edgeCarders[p].views[v]).cfgWord 18 on) =
      s.modEdgeCarder p fun c => c.enView v on := by
    simp only [State.blkPoke, hjob, Option.isSome_none, Bool.false_eq_true, false_and, if_false, State.modEdgeCarder]
    rw [upd_congr (g := fun c => c.enView v on) _ _ (pokeCard_en s.edgeCarders[p] v on)]
  have hnum : Fin.ofNat 4 ((0x40C + 0x20 * v.val - 0x400) / 0x20) = v := by apply Fin.ext; simp only [Fin.val_ofNat]; omega
  have hview : (s.modEdgeCarder p fun c => c.enView v on).edgeCarders[p].views[v] =
      { s.edgeCarders[p].views[v] with fsm := (s.edgeCarders[p].views[v]).fsm.put on } := by
    simp [Carder.enView]
  have hrises : (s.edgeCarders[p].views[v]).fsm.st = .off →
      (((s.edgeCarders[p].views[v]).fsm.put on).st = .rising ↔ on = true) := by
    intro h
    cases on <;> simp only [EnFsm.put, EnFsm.enable, EnFsm.disable, Bool.false_eq_true, if_true, if_false, h, reduceCtorEq]
  unfold enableFunc
  dsimp only
  rw [e, regWrite_firmware _ (blockAt_edgeCard s p _ (by omega)) (by omega) rfl]
  simp only [State.blkWrite, State.blkW1c]
  rw [if_neg (by omega)]
  dsimp only
  rw [if_pos (by omega)]
  unfold State.pokeView
  simp only [hnum, hpoke]
  rw [viewOk_enView, hview]
  have hcond : ((s.edgeCarders[p].views[v]).fsm.st = .off ∧ ((s.edgeCarders[p].views[v]).fsm.put on).st = .rising ∧
      (!s.viewOk p s.edgeCarders[p].views[v]) = true) ↔
      ((s.edgeCarders[p].views[v]).fsm.st = .off ∧ on = true ∧ s.viewOk p s.edgeCarders[p].views[v] = false) := by
    constructor
    · rintro ⟨h, hr, hb⟩; exact ⟨h, (hrises h).mp hr, by simpa using hb⟩
    · rintro ⟨h, ho, hb⟩; exact ⟨h, (hrises h).mpr ho, by simpa using hb⟩
  by_cases hc : (s.edgeCarders[p].views[v]).fsm.st = .off ∧ on = true ∧ s.viewOk p s.edgeCarders[p].views[v] = false
  · rw [if_pos hc]
    refine (if_pos (hcond.mpr hc)).trans ?_
    simp [State.modEdgeCarder, Carder.enView]
  · rw [if_neg hc]
    exact if_neg fun h => hc (hcond.mp h)

/-- EN of a view: it starts well configured, and a bad one stays OFF with its event (R372). -/
theorem view_enables (s : State) (p : Fin 10) (v : Fin 4) (hjob : s.viewJob p = none) :
    let view := s.edgeCarders[p].views[v]
    (view.fsm = EnFsm.off → s.viewOk p view = true → ∃ t, exec (.functionEnable (.view p v) .firmware) s = .next t ∧
      t.edgeCarders[p].views[v] = { view with fsm := ⟨true, .rising, false, false⟩ } ∧
      t.edgeCarders[p].events = s.edgeCarders[p].events) ∧
    (view.fsm = EnFsm.off → s.viewOk p view = false → ∃ t, exec (.functionEnable (.view p v) .firmware) s = .next t ∧
      t.edgeCarders[p].views[v] = { view with fsm := ⟨true, .off, false, false⟩ } ∧
      t.edgeCarders[p].events = setBit s.edgeCarders[p].events 5) ∧
    (view.fsm.st = .on → ∃ t, exec (.functionDisable (.view p v) .firmware) s = .next t ∧
      t.edgeCarders[p].views[v] = { view with fsm := { view.fsm with en := false, st := .falling } }) := by
  intro view
  refine ⟨fun hoff hok => ⟨_, congrArg Host.Outcome.next (enableFunc_view true hjob), ?_⟩,
    fun hoff hbad => ⟨_, congrArg Host.Outcome.next (enableFunc_view true hjob), ?_⟩,
    fun hon => ⟨_, congrArg Host.Outcome.next (enableFunc_view false hjob), ?_⟩⟩
  · rw [if_neg (by rw [show s.viewOk p s.edgeCarders[p].views[v] = true from hok]; simp)]
    have hrise : view.fsm.put true = ⟨true, .rising, false, false⟩ := by rw [hoff]; rfl
    simp only [modEdgeCarder_edgeCarders, Fin.getElem_fin, upd_get_same, Carder.enView, and_true]
    exact congrArg (fun f => { view with fsm := f }) hrise
  · rw [if_pos ⟨congrArg EnFsm.st hoff, rfl, hbad⟩]
    simp only [modEdgeCarder_edgeCarders, Fin.getElem_fin, upd_get_same, Carder.enView, and_true]
    rfl
  · rw [if_neg (by simp)]
    have hfall : view.fsm.put false = { view.fsm with en := false, st := .falling } := by simp [EnFsm.put, EnFsm.disable, hon]
    simp only [modEdgeCarder_edgeCarders, Fin.getElem_fin, upd_get_same, Carder.enView]
    exact congrArg (fun f => { view with fsm := f }) hfall

/-- A view's rise and fall end (R99). -/
theorem view_transitions (s : State) (p : Fin 10) (v : Fin 4) : let view := s.edgeCarders[p].views[v]
    (view.fsm.st = .rising → view.fsm.pendDis = false → ∃ t, exec (.functionRiseDone (.view p v)) s = .next t ∧
      t.edgeCarders[p].views[v] = { view with fsm := { view.fsm with st := .on } }) ∧
    (view.fsm.st = .falling → view.fsm.pendEn = false → ∃ t, exec (.functionFallDone (.view p v)) s = .next t ∧
      t.edgeCarders[p].views[v] = { view with fsm := { view.fsm with st := .off } }) := by
  intro view
  refine ⟨fun h hp => ⟨_, rfl, ?_⟩, fun h hp => ⟨_, rfl, ?_⟩⟩
  · have hrose : view.fsm.rose = { view.fsm with st := .on } := by simp [EnFsm.rose, h, hp]
    simp only [riseDone, modEdgeCarder_edgeCarders, Fin.getElem_fin, upd_get_same]
    exact congrArg (fun f => { view with fsm := f }) hrose
  · have hfell : view.fsm.fell = { view.fsm with st := .off } := by simp [EnFsm.fell, h, hp]
    simp only [fallDone, modEdgeCarder_edgeCarders, Fin.getElem_fin, upd_get_same]
    exact congrArg (fun f => { view with fsm := f }) hfell

/-! ### Distaff cores (15 R405, R406) -/

theorem modDst_id (s : State) (d : Fin 4) (f : Distaff → Distaff) (h : f s.distaffs[d] = s.distaffs[d]) : s.modDst d f = s := by
  rw [State.modDst, upd_id _ _ _ h]
theorem modDst_congr (s : State) (d : Fin 4) {f g : Distaff → Distaff} (h : f s.distaffs[d] = g s.distaffs[d]) :
    s.modDst d f = s.modDst d g := by
  rw [State.modDst, State.modDst, upd_congr _ _ h]

/-- The words of RUN and of HALT: UCUSTOM and IRQ_TO_M as they are. -/
theorem dstCtrl_words : ∀ u i : Bool,
    (let w := mkW [(0, 1, 1), (3, 1, b2n u), (4, 1, b2n i)]
     w.getLsbD 3 = u ∧ w.getLsbD 4 = i ∧ w.getLsbD 0 = true ∧ w.getLsbD 1 = false) ∧
    (let w := mkW [(1, 1, 1), (3, 1, b2n u), (4, 1, b2n i)]
     w.getLsbD 3 = u ∧ w.getLsbD 4 = i ∧ w.getLsbD 0 = false ∧ w.getLsbD 1 = true) := by decide

theorem regWrite_dst {s : State} {d : Fin 4} {w : Word} (hu : w.getLsbD 3 = s.distaffs[d].ucustom)
    (hi : w.getLsbD 4 = s.distaffs[d].irqToM) : s.regWrite .firmware (dstBase d) w =
      let t := if w.getLsbD 0 = true ∧ s.distaffs[d].granted.isNone = true ∧ s.selv.st.working = true then s.modDst d Distaff.run
        else s
      if w.getLsbD 1 then t.modDst d Distaff.halt else t := by
  have hpoke : s.blkPoke (.dst d) 0 w = s := by
    simp only [State.blkPoke, if_true, hu, hi]
    exact modDst_id s d _ rfl
  rw [regWrite_firmware (a := dstBase d) w (blockAt_dst s d 0 (by omega)) (bases_aligned 0 d 0 0).2.1 rfl]
  simp [State.blkWrite, State.blkW1c, State.writeDst, hpoke, Agent.viaSwatch]

/-- RUN of a core that is OFF or HALTED starts it at its reset PC in machine mode (R405). -/
theorem Distaff.run_of_halted {c : Distaff} (hh : c.halting = false) (hst : c.st = .off ∨ c.st = .halted) :
    c.run = { c with st := .running, pc := c.resetPc, mode := 3, retired := 0, wait := .none, reserved := none } := by
  unfold Distaff.run
  rw [if_neg (by simp [hh])]
  rcases hst with hst | hst <;> rw [hst]

/-- HALT of a running core: it halts at its instruction boundary (R406). -/
theorem Distaff.halt_of_running {c : Distaff} (hp : c.pendingRun = false) (hst : c.st = .running) :
    c.halt = { c with halting := true } := by
  unfold Distaff.halt
  rw [if_neg (by simp [hp]), hst]

/-- HALT of a waiting core: it halts at the instruction that waits (R406). -/
theorem Distaff.halt_of_waiting {c : Distaff} (hp : c.pendingRun = false) (hst : c.st = .waiting) :
    c.halt = { c with st := .halted, wait := .none } := by
  unfold Distaff.halt
  rw [if_neg (by simp [hp]), hst]

/-- A halting core at its boundary, no RUN pending. -/
theorem Distaff.haltDone_of_halting {c : Distaff} (hh : c.halting = true) (hp : c.pendingRun = false) :
    c.haltDone = { c with halting := false, st := .halted, wait := .none, pendingRun := false } := by
  unfold Distaff.haltDone
  rw [if_neg (by simp [hh])]
  exact if_neg (by simp [hp])

/-- RUN written by firmware: it acts on a core the host owns, with the selvage working (R405). -/
theorem exec_dstRun (s : State) (d : Fin 4) : exec (.dstRun d .firmware) s =
    .next (if s.distaffs[d].granted.isNone = true ∧ s.selv.st.working = true then s.modDst d Distaff.run else s) := by
  obtain ⟨⟨hu, hi, hrun, hnohalt⟩, -⟩ := dstCtrl_words s.distaffs[d].ucustom s.distaffs[d].irqToM
  refine congrArg Host.Outcome.next ((regWrite_dst hu hi).trans ?_)
  simp only [hrun, hnohalt, Bool.false_eq_true, true_and, if_false]

/-- HALT written by firmware. -/
theorem exec_dstHalt (s : State) (d : Fin 4) : exec (.dstHalt d .firmware) s = .next (s.modDst d Distaff.halt) := by
  obtain ⟨-, hu, hi, hnorun, hhalt⟩ := dstCtrl_words s.distaffs[d].ucustom s.distaffs[d].irqToM
  refine congrArg Host.Outcome.next ((regWrite_dst hu hi).trans ?_)
  simp only [hnorun, hhalt, Bool.false_eq_true, false_and, if_false, if_true]

/-- RUN, HALT and the end of a halt, row by row (R405, R406). -/
theorem core_controls (s : State) (d : Fin 4) : let c := s.distaffs[d]
    (s.selv.st.working = true → c.granted = none → c.halting = false → c.st = .off ∨ c.st = .halted →
      exec (.dstRun d .firmware) s = .next (s.modDst d fun c => { c with
        st := .running, pc := c.resetPc, mode := 3, retired := 0, wait := .none, reserved := none })) ∧
    (c.granted ≠ none → exec (.dstRun d .firmware) s = .next s) ∧
    (c.pendingRun = false → c.st = .running →
      exec (.dstHalt d .firmware) s = .next (s.modDst d fun c => { c with halting := true })) ∧
    (c.pendingRun = false → c.st = .waiting →
      exec (.dstHalt d .firmware) s = .next (s.modDst d fun c => { c with st := .halted, wait := .none })) ∧
    (c.halting = false → exec (.dstHaltDone d) s = .next s) ∧
    (c.halting = true → c.pendingRun = false → exec (.dstHaltDone d) s = .next (s.modDst d fun c => { c with
      halting := false, st := .halted, wait := .none, pendingRun := false })) := by
  intro c
  refine ⟨fun hw hg hh hst => ?_, fun hg => ?_, fun hp hst => ?_, fun hp hst => ?_,
    fun hh => congrArg Host.Outcome.next (modDst_id s d _ ?_),
    fun hh hp => congrArg Host.Outcome.next (modDst_congr s d (Distaff.haltDone_of_halting hh hp))⟩
  · rw [exec_dstRun, if_pos ⟨Option.isNone_iff_eq_none.mpr hg, hw⟩]
    exact congrArg Host.Outcome.next (modDst_congr s d (Distaff.run_of_halted hh hst))
  · rw [exec_dstRun, if_neg fun h => hg (Option.isNone_iff_eq_none.mp h.1)]
  · rw [exec_dstHalt]
    exact congrArg Host.Outcome.next (modDst_congr s d (Distaff.halt_of_running hp hst))
  · rw [exec_dstHalt]
    exact congrArg Host.Outcome.next (modDst_congr s d (Distaff.halt_of_waiting hp hst))
  · change c.haltDone = c
    simp only [Distaff.haltDone, hh, Bool.not_false, if_true]

/-- Settles O44, a clause at a time: every register access is resolved to its block and word by the map's lemmas, and the block's own
write does the rest. -/
theorem controlRegisterActions : Obligations.ControlRegisterActions := by
  unfold Obligations.ControlRegisterActions
  refine ⟨needle_controls, moverClear_clears, edge_controls, stkCtrlLock_locks, mesh_controls, carder_controls, bobbin_enables,
    fun s p v hjob => ?_, bobbin_transitions, core_controls⟩
  obtain ⟨henable, hbad, hdisable⟩ := view_enables s p v hjob
  exact ⟨henable, hbad, hdisable, view_transitions s p v⟩

end Sys2Proof.Machine
end

section
/-! SUPPORT. What sending, posting and holding leave as they were: messages, completion entries and events (03, 05) reach the
ports, the rings and the functions alone. -/
namespace Sys2Proof.Machine
open Sys2Proof

/-! ### Sending -/

/-- s with everything that sending can change as t has it. -/
def State.sending (s t : State) : State := { s with
  ports := t.ports, out := t.out, mem := t.mem, accesses := t.accesses, nextAccess := t.nextAccess, gauge := t.gauge
  distaffs := t.distaffs, freeCtr := t.freeCtr }

/-- From s to t something was sent, stored or raised, and nothing else changed. -/
def Sends (s t : State) : Prop := t = s.sending t

theorem Sends.of_eq {s t : State} (h : t = s.sending t) : Sends s t := h

/-- What is read of a state that something was sent from. -/
theorem Sends.read {α : Type} {s t : State} (h : Sends s t) (g : State → α) : g t = g (s.sending t) := congrArg g h

theorem Sends.trans {s t u : State} (h : Sends s t) (k : Sends t u) : Sends s u :=
  Eq.trans k (h.read fun x => x.sending u)

theorem emit_sends (s : State) (o : Out) : Sends s (s.emit o) := rfl

theorem pumpPort_sends (s : State) (p : Fin 10) : Sends s (s.pumpPort p) := by
  unfold State.pumpPort; split <;> rfl

theorem transmit_sends (s : State) (x : SentTxn) : Sends s (s.transmit x) := by
  unfold State.transmit
  split
  · exact Sends.trans (t := s.modPort x.head.port fun e => { e with outq := e.outq ++ [x] }) rfl (pumpPort_sends _ _)
  · rfl

theorem sendMsg_sends (s : State) (p : Fin 10) (code : Nat) (d : List Byte) : Sends s (s.sendMsg p code d) :=
  transmit_sends s _

theorem noteWait_sends (s : State) (x : Inj) : Sends s (s.noteWait x) := by
  unfold State.noteWait; split <;> rfl

theorem injectNow_sends (s : State) (x : Inj) (g : Grants) : Sends s (s.injectNow x g) :=
  (noteWait_sends s x).trans (.trans (.of_eq rfl) (transmit_sends _ _))

theorem injectAll_sends (s : State) (fuel : Nat) : Sends s (s.injectAll fuel) := by
  induction fuel generalizing s with
  | zero => rfl
  | succ fuel ih =>
    unfold State.injectAll
    split
    · exact (injectNow_sends s _ _).trans (ih _)
    · rfl

theorem inject_sends (s : State) : Sends s s.inject := by
  unfold State.inject
  split
  · rfl
  · exact injectAll_sends s _

theorem sendAccess_sends (s : State) (who : Who) (p : Fin 10) (wire addr : Nat) (op : AccOp) (dest : Dest) (c : TClass)
    (pc : Nat) (control : Bool) : Sends s (s.sendAccess who p wire addr op dest c pc control) :=
  (Sends.of_eq rfl).trans ((inject_sends _).trans (.of_eq rfl))

theorem relayMsg_sends (s : State) (code : Nat) (d : List Byte) : Sends s (s.relayMsg code d) := by
  unfold State.relayMsg
  split
  · exact (sendMsg_sends s _ _ _).trans (sendMsg_sends _ _ _ _)
  · rfl

theorem raiseLine_sends (s : State) (sw line : Nat) : Sends s (s.raiseLine sw line) := by
  unfold State.raiseLine; split <;> rfl

theorem ringStore_sends (s : State) (twin : Bool) (scope a : Nat) (d : List Byte) : Sends s (s.ringStore twin scope a d) := by
  unfold State.ringStore
  split
  · split
    · exact sendAccess_sends s _ _ _ _ _ _ _ _ _
    · rfl
  · rfl

/-! ### The rings and the functions -/

/-- From s to t a completion ring at its reset values stays so, a function stays in its power state, and one that is in reset
gets pending bits at most (R45, R46). -/
structure RingsKept (s t : State) : Prop where
  idle      : ∀ i : Fin 16, s.cqs[i] = Cq.reset → t.cqs[i] = Cq.reset
  d3hot     : ∀ f : Fin 2, t.fns[f].d3hot = s.fns[f].d3hot
  resetting : ∀ f : Fin 2, s.fns[f].resetting = true → t.fns[f] = { s.fns[f] with pba := t.fns[f].pba }

theorem RingsKept.of_eq {s t : State} (hc : t.cqs = s.cqs) (hf : t.fns = s.fns) : RingsKept s t :=
  ⟨fun i h => by rw [hc]; exact h, fun f => by rw [hf], fun f _ => by rw [hf]⟩

theorem RingsKept.refl (s : State) : RingsKept s s := .of_eq rfl rfl

theorem RingsKept.trans {s t u : State} (h : RingsKept s t) (k : RingsKept t u) : RingsKept s u where
  idle i hi := k.idle i (h.idle i hi)
  d3hot f := (k.d3hot f).trans (h.d3hot f)
  resetting f hf := by
    have ht := h.resetting f hf
    have hres : t.fns[f].resetting = true := by rw [ht]; exact hf
    have hu := k.resetting f hres
    rw [ht] at hu
    exact hu

theorem Sends.ringsKept {s t : State} (h : Sends s t) : RingsKept s t :=
  .of_eq (h.read State.cqs) (h.read State.fns)

/-- A change of the functions that leaves the power states, and of those in reset all but the pending bits. -/
theorem modFn_ringsKept (s : State) (f : Fin 2) (g : HostFn → HostFn) (hd : (g s.fns[f]).d3hot = s.fns[f].d3hot)
    (hr : s.fns[f].resetting = true → g s.fns[f] = { s.fns[f] with pba := (g s.fns[f]).pba }) : RingsKept s (s.modFn f g) where
  idle _ h := h
  d3hot k := by
    rw [modFn_fns, upd_get]
    split
    · next e => subst e; exact hd
    · rfl
  resetting k hk := by
    rw [modFn_fns, upd_get]
    split
    · next e => subst e; exact hr hk
    · rfl

theorem modCq_ringsKept (s : State) (j : Fin 16) (g : Cq → Cq) (h : s.cqs[j] = Cq.reset → g Cq.reset = Cq.reset) :
    RingsKept s (s.modCq j g) where
  idle i hi := by
    rw [modCq_cqs, upd_get]
    split
    · next e => subst e; rw [hi]; exact h hi
    · exact hi
  d3hot _ := rfl
  resetting _ _ := rfl

/-! ### Posting -/

/-- s with everything that a post can change as t has it. -/
def State.posting (s t : State) : State := { s.sending t with cqs := t.cqs, fns := t.fns }

/-- From s to t entries, events and messages went out, and nothing else changed. -/
structure Posts (s t : State) : Prop where
  rest  : t = s.posting t
  rings : RingsKept s t

theorem Posts.refl (s : State) : Posts s s := ⟨rfl, .refl s⟩
theorem Posts.read {α : Type} {s t : State} (h : Posts s t) (g : State → α) : g t = g (s.posting t) := congrArg g h.rest
theorem Posts.trans {s t u : State} (h : Posts s t) (k : Posts t u) : Posts s u :=
  ⟨Eq.trans k.rest (h.read fun x => x.posting u), h.rings.trans k.rings⟩
theorem Sends.posts {s t : State} (h : Sends s t) : Posts s t :=
  ⟨h.read fun x => { x with cqs := t.cqs, fns := t.fns }, h.ringsKept⟩
theorem Posts.ite {c : Prop} [Decidable c] {s t u : State} (ht : Posts s t) (hu : Posts s u) : Posts s (if c then t else u) := by
  split <;> assumption
theorem Posts.foldl {α : Type} {s : State} {g : State → α → State} (l : List α) (hg : ∀ s x, Posts s (g s x)) :
    Posts s (l.foldl g s) := by
  induction l generalizing s with
  | nil => exact .refl s
  | cons x l ih => exact (hg s x).trans ih

theorem Posts.stack {s t : State} (h : Posts s t) : t.stack = s.stack := h.read State.stack
theorem Posts.sqs {s t : State} (h : Posts s t) : t.sqs = s.sqs := h.read State.sqs
theorem Posts.grants {s t : State} (h : Posts s t) : t.grants = s.grants := h.read State.grants
theorem Posts.swatches {s t : State} (h : Posts s t) : t.swatches = s.swatches := h.read State.swatches
theorem Posts.poison {s t : State} (h : Posts s t) : t.poison = s.poison := h.read State.poison
theorem Posts.pages {s t : State} (h : Posts s t) : t.pages = s.pages := h.read State.pages
theorem Posts.badPages {s t : State} (h : Posts s t) : t.badPages = s.badPages := h.read State.badPages
theorem Posts.twinWins {s t : State} (h : Posts s t) : t.twinWins = s.twinWins := h.read State.twinWins
theorem Posts.bobbins {s t : State} (h : Posts s t) : t.bobbins = s.bobbins := h.read State.bobbins

/-- A pending bit set (R45). -/
theorem modFn_pba_posts (s : State) (f : Fin 2) (b : HostFn → BitVec 64) :
    Posts s (s.modFn f fun h => { h with pba := b h }) :=
  ⟨rfl, modFn_ringsKept s f _ rfl fun _ => rfl⟩

theorem signalVector_posts (s : State) (v : Fin 64) : Posts s (s.signalVector v) := by
  unfold State.signalVector
  dsimp only
  split
  · exact .foldl _ fun s f => modFn_pba_posts s f _
  · split
    · exact modFn_pba_posts s _ _
    · split
      · exact (sendMsg_sends s _ _ _).posts
      · exact (emit_sends s _).posts

theorem modCq_posts (s : State) (j : Fin 16) (g : Cq → Cq) (h : s.cqs[j] = Cq.reset → g Cq.reset = Cq.reset) :
    Posts s (s.modCq j g) := ⟨rfl, modCq_ringsKept s j g h⟩

theorem cqSignal_posts (s : State) (j : Fin 16) : Posts s (s.cqSignal j) := by
  unfold State.cqSignal
  dsimp only
  split
  · exact .refl s
  · split
    · next hold => exact modCq_posts s j _ fun h => by rw [h] at hold; exact absurd hold (by decide)
    · refine Posts.trans ?_ (modCq_posts _ j _ fun _ => by decide)
      split
      · exact (emit_sends s _).posts
      · exact .ite (raiseLine_sends s _ _).posts (signalVector_posts s _)

theorem postNow_posts (s : State) (j : Fin 16) (e : CEntry) (h : s.cqs[j] ≠ Cq.reset) : Posts s (s.postNow j e) := by
  unfold State.postNow
  dsimp only
  have hstore := ringStore_sends s s.cqs[j].onTwin (fld s.cqs[j].cfg 28 25)
    (ringAddr s.cqs[j].distaffOwned s.cqs[j].base s.cqs[j].tail.toNat)
    ((s.stampRow e).bytes s.cqs[j].phase (if h : e.sqId.toNat < 16 then (s.sqs[e.sqId.toNat]).head else 0))
  have htail := hstore.posts.trans (modCq_posts _ j (fun c => { c with
    tail := if s.cqs[j].tail.toNat + 1 = ringSize s.cqs[j].cfg then 0 else c.tail + 1
    phase := if s.cqs[j].tail.toNat + 1 = ringSize s.cqs[j].cfg then !c.phase else c.phase })
    fun e => absurd ((congrArg (fun v : Vector Cq 16 => v[j]) (hstore.read State.cqs)).symm.trans e) h)
  split
  · simpa using htail
  · simpa using htail.trans (cqSignal_posts _ j)

/-- A ring that can take an entry is ON or FALLING. -/
theorem cq_ne_reset_of_canPost {s : State} {j : Fin 16} (h : s.canPost j = true) : s.cqs[j] ≠ Cq.reset := by
  intro e
  rw [State.canPost, e] at h
  simp [Cq.reset, EnFsm.off] at h

theorem post_posts (s : State) (j : Fin 16) (e : CEntry) : Posts s (s.post j e) := by
  unfold State.post
  dsimp only
  split
  · exact .refl s
  · next hoff =>
    split
    · next hcan => exact postNow_posts s j e (cq_ne_reset_of_canPost (Bool.and_eq_true_iff.mp hcan).2)
    · refine modCq_posts s j _ fun h => absurd ?_ hoff
      rw [h]; simp [Cq.reset, EnFsm.off]

theorem flushEvents_posts (s : State) (f : Fin 2) (k : Nat) : Posts s (s.flushEvents f k) := by
  induction k generalizing s with
  | zero => exact .refl s
  | succ k ih =>
    unfold State.flushEvents
    dsimp only
    split
    · split
      · next hcan =>
        simp only [Bool.and_eq_true, Bool.not_eq_true'] at hcan
        obtain ⟨⟨⟨-, hcan⟩, -⟩, hres⟩ := hcan
        refine Posts.trans ⟨rfl, modFn_ringsKept s f _ rfl fun h => ?_⟩
          (.trans (postNow_posts _ _ _ (cq_ne_reset_of_canPost (s := s) hcan)) (ih _))
        rw [hres] at h; cases h
      · exact .refl s
    · exact .refl s

theorem mergeEvent_d3hot (h : HostFn) (ev : EventRec) : (mergeEvent h ev).d3hot = h.d3hot := by
  unfold mergeEvent; split <;> rfl

theorem eventTo_posts (s : State) (f : Fin 2) (ev : EventRec) : Posts s (s.eventTo f ev) := by
  unfold State.eventTo
  dsimp only
  split
  · exact .refl s
  · next hoff =>
    have hres : s.fns[f].resetting = false := by
      simp only [Bool.or_eq_true, not_or, Bool.not_eq_true] at hoff; exact hoff.1.2
    have hfn (g : HostFn → HostFn) (hg : (g s.fns[f]).d3hot = s.fns[f].d3hot) : Posts s (s.modFn f g) :=
      ⟨rfl, modFn_ringsKept s f g hg fun h => by rw [hres] at h; cases h⟩
    split
    · exact hfn _ (mergeEvent_d3hot _ ev)
    · exact (hfn (fun h => { h with events := h.events ++ [ev] }) rfl).trans (flushEvents_posts _ f _)

theorem event_posts (s : State) (kind source status : Nat) (extra : DWord) : Posts s (s.event kind source status extra) := by
  unfold State.event
  dsimp only
  exact .ite (relayMsg_sends s _ _).posts (.foldl _ fun s f => .ite (eventTo_posts s f _) (.refl s))

end Sys2Proof.Machine
end

section
/-! SUPPORT. Messages of the stacks, of Shuskaub and of the other die (03 R60, R65, R66): what each reports. -/
namespace Sys2Proof.Machine
open Sys2Proof

/-! ### What leaves the twin's windows as they are -/

theorem finish_twinWins (s : State) (r : CmdRef) (e : CEntry) : (s.finish r e).twinWins = s.twinWins := by
  unfold State.finish
  dsimp only
  split
  · exact (relayMsg_sends _ _ _).read State.twinWins
  · split
    · rfl
    · exact (post_posts _ _ _).twinWins

theorem yardStart_twinWins (s : State) (fuel : Nat) : (s.yardStart fuel).twinWins = s.twinWins := by
  induction fuel generalizing s with
  | zero => rfl
  | succ fuel ih =>
    unfold State.yardStart
    split
    · dsimp only
      split
      · rw [ih]
        split
        · exact finish_twinWins _ _ _
        · rfl
      · split
        · rw [ih]
          split <;> rfl
        · rfl
    · rfl

theorem addEntry_twinWins (s : State) (kind : Fin 5) (num bankRow source : Nat) :
    (s.addEntry kind num bankRow source).twinWins = s.twinWins := by
  have counted (t : State) : (t.yardP 3 1).twinWins = t.twinWins := by
    unfold State.yardP
    split
    · exact yardStart_twinWins _ _
    · rfl
  unfold State.addEntry
  dsimp only
  split
  · rfl
  · refine (event_posts _ _ _ _ _).twinWins.trans ((counted _).trans ?_)
    split <;> rfl

/-- A record's part kept through a fold whose steps keep it. -/
theorem foldl_keeps {α β γ : Type} (g : β → γ) (f : β → α → β) (hf : ∀ b a, g (f b a) = g b) (l : List α) (b : β) :
    g (l.foldl f b) = g b := by
  induction l generalizing b with
  | nil => rfl
  | cons a l ih => exact (ih _).trans (hf b a)

theorem release_twinWins (s : State) (base count : Nat) : (s.release base count).twinWins = s.twinWins := by
  unfold State.release
  dsimp only
  refine (foldl_keeps State.twinWins _ ?_ _ _).trans ?_
  · exact fun t a => addEntry_twinWins t _ _ _ _
  · unfold State.freeRange
    dsimp only
    refine (foldl_keeps State.twinWins _ ?_ _ _).trans ?_
    · exact fun _ _ => rfl
    · rfl

/-! ### The stacks (R60, R383, R527) -/

/-- What a granule's address depends on: the stacks present and the address map. -/
theorem addrOf_modStack (s : State) (b c : Fin 4) (f : Stack → Stack) (off : Nat) (h : (f s.stack[b]).present = s.stack[b].present) :
    (s.modStack b f).addrOf c off = s.addrOf c off := by
  have hpresent : (s.modStack b f).presentStacks = s.presentStacks := by
    unfold State.presentStacks
    refine List.filter_congr fun i _ => ?_
    rw [modStack_stack, upd_get]
    split
    · next e => subst e; exact h
    · rfl
  unfold State.addrOf State.nStacks
  rw [hpresent]
  rfl

/-- An element put at the end of a list that lacks it. -/
theorem mem_if_contains {α : Type} [BEq α] [LawfulBEq α] (l : List α) (a x : α) :
    x ∈ (if l.contains a then l else l ++ [a]) ↔ x ∈ l ∨ x = a := by
  split
  · next h =>
    constructor
    · exact .inl
    · rintro (hx | rfl)
      · exact hx
      · exact List.contains_iff_mem.mp h
  · rw [List.mem_append, List.mem_singleton]

/-- A stack with one more uncorrectable error (R383). -/
def Stack.uncorrected (t : Stack) (off : Nat) : Stack := { t with
  eccUncorr := satAdd t.eccUncorr 1, uncorrLast := BitVec.ofNat 64 off, events := setBit t.events 1 }

/-- A granule uncorrectable and its page one that retires. -/
def State.loseGranule (s : State) (a : Nat) : State := { s with
  poison := if s.poison.contains a then s.poison else s.poison ++ [a]
  badPages := if s.badPages.contains a then s.badPages else s.badPages ++ [a] }

/-- ECC_UNCORR of a stack that is present: the granule is lost and MEDIA_ERROR posted. -/
theorem eccUncorrected_present {s : State} {p : Fin 10} (off : Nat) (hr : s.fuses.ports[p].role = .stack)
    (hp : s.stack[s.fuses.ports[p].stack].present = true) :
    eccUncorrected p off s =
      ((s.modStack s.fuses.ports[p].stack fun t => t.uncorrected off).loseGranule
        (s.addrOf s.fuses.ports[p].stack off / 32 * 32)).event 0x08 s.fuses.ports[p].stack.val stMediaError := by
  have hstill : (s.modStack s.fuses.ports[p].stack fun t => t.uncorrected off).stack[s.fuses.ports[p].stack].present = true := by
    rw [modStack_stack, upd_get, if_pos rfl]
    exact hp
  rw [← addrOf_modStack s s.fuses.ports[p].stack s.fuses.ports[p].stack (fun t => t.uncorrected off) off rfl]
  refine (if_neg (not_not_intro hr)).trans ?_
  exact congrArg (fun t => State.event t 0x08 s.fuses.ports[p].stack.val stMediaError) (if_pos hstill)

/-- TEMP, ECC_CORR and ECC_UNCORR, on a STACK port and on another. -/
theorem stack_messages (s : State) (p : Fin 10) (c n : Half) (off : BitVec 40) :
    let b := s.fuses.ports[p].stack
    (s.fuses.ports[p].role ≠ .stack →
      exec (.temp p c) s = .next s ∧ exec (.eccCorr p n off) s = .next s ∧ exec (.eccUncorr p off) s = .next s) ∧
    (s.fuses.ports[p].role = .stack →
      exec (.temp p c) s = .next (({ s with
        stack := s.stack.set b { s.stack[b] with temp := c }
        selv := { s.selv with readings := s.selv.readings.map fun r => { r with stackT := r.stackT.set b c } } } : State)) ∧
      exec (.eccCorr p n off) s = .next (({ s with
        stack := s.stack.set b { s.stack[b] with
          eccCorr := satAdd s.stack[b].eccCorr n.toNat, events := setBit s.stack[b].events 0 } } : State)) ∧
      (s.stack[b].present = true → ∃ t, exec (.eccUncorr p off) s = .next t ∧
        t.stack = s.stack.set b { s.stack[b] with
          eccUncorr := satAdd s.stack[b].eccUncorr 1, uncorrLast := off.setWidth 64, events := setBit s.stack[b].events 1 } ∧
        s.addrOf b off.toNat / 32 * 32 ∈ t.poison ∧ s.addrOf b off.toNat / 32 * 32 ∈ t.badPages ∧
        (∀ g, g ∈ t.poison ↔ g ∈ s.poison ∨ g = s.addrOf b off.toNat / 32 * 32) ∧ t.pages = s.pages)) := by
  intro b
  refine ⟨fun hr => ⟨congrArg Host.Outcome.next (if_pos hr), congrArg Host.Outcome.next (if_pos hr),
    congrArg Host.Outcome.next (if_pos hr)⟩, fun hr => ⟨congrArg Host.Outcome.next (if_neg (not_not_intro hr)),
    congrArg Host.Outcome.next (if_neg (not_not_intro hr)),
    fun hp => ⟨_, congrArg Host.Outcome.next (eccUncorrected_present _ hr hp), ?_⟩⟩⟩
  have hposts := event_posts ((s.modStack b fun t => t.uncorrected off.toNat).loseGranule (s.addrOf b off.toNat / 32 * 32)) 0x08
    b.val stMediaError 0
  have hpoison : ∀ g, g ∈ (State.event ((s.modStack b fun t => t.uncorrected off.toNat).loseGranule
      (s.addrOf b off.toNat / 32 * 32)) 0x08 b.val stMediaError).poison ↔
        g ∈ s.poison ∨ g = s.addrOf b off.toNat / 32 * 32 := by
    intro g
    rw [hposts.poison]
    exact mem_if_contains s.poison _ g
  refine ⟨?_, (hpoison _).mpr (.inr rfl), ?_, hpoison, hposts.pages⟩
  · rw [← BitVec.ofNat_toNat]
    exact hposts.stack
  · rw [hposts.badPages]
    exact (mem_if_contains s.badPages _ _).mpr (.inr rfl)

/-! ### The twin's windows and chain ends (R66, R254) -/

theorem irq_signals (s : State) (v : Fin 64) :
    exec (.irq v) s = .next (if s.fuses.shusPcie = true then ({ s with out := s.out ++ [.msix 0 v] } : State) else s) := rfl

/-- A window of kind 0 over whole pages, with no swatch cast: the pages' states decide. -/
theorem twinWindow_whole (s : State) (w : Fin 8) (base size : BitVec 48) (rights : BitVec 3) (hsize : size ≠ 0)
    (hb : base.toNat % pageSize = 0) (hs : size.toNat % pageSize = 0) (hlo : s.region base.toNat = .stack)
    (hhi : s.region (base.toNat + size.toNat - 1) = .stack) (hcast : s.castList = []) :
    ((rangeAll s.pages (pageOf base.toNat) (size.toNat / pageSize) fun st => match st with | .hostHeld _ => true | _ => false) = true →
      exec (.twinWindow w base size 0 rights) s = .next (({ s with
        twinWins := s.twinWins ++ [⟨w, base.toNat, size.toNat, 0, rights⟩]
        pages := putRun s.pages (pageOf base.toNat) (size.toNat / pageSize) (.twinHeld w rights) } : State))) ∧
    ((rangeAll s.pages (pageOf base.toNat) (size.toNat / pageSize) fun st => match st with | .hostHeld _ => true | _ => false) = false →
      exec (.twinWindow w base size 0 rights) s = .next s) := by
  have hne : size.toNat ≠ 0 := fun h => hsize (BitVec.eq_of_toNat_eq h)
  have hcount : (size.toNat + pageSize - 1) / pageSize = size.toNat / pageSize := by
    unfold pageSize at hs ⊢
    omega
  have hexec : exec (.twinWindow w base size 0 rights) s = .next (twinWindow w base.toNat size.toNat 0 rights s) := rfl
  rw [hexec]
  unfold twinWindow
  simp only [if_neg hne, hcount, hcast, hb, hs, hlo, hhi]
  constructor
  · intro held
    exact congrArg Host.Outcome.next ((if_neg (by decide)).trans (if_pos ⟨trivial, held, rfl⟩))
  · intro free
    refine congrArg Host.Outcome.next ((if_neg (by decide)).trans ((if_neg fun h => ?_).trans (if_neg fun h => ?_)))
    · exact Bool.false_ne_true (free.symm.trans h.2.1)
    · exact absurd h.1 (by decide)

/-- A release takes the window from the list, whatever freeing its pages posts and counts. -/
theorem twinWindow_release (s : State) (w : Fin 8) (base : BitVec 48) (k : Fin 4) (rights : BitVec 3) :
    ∃ t, exec (.twinWindow w base 0 k rights) s = .next t ∧
      t.twinWins = s.twinWins.filter fun x => !decide (x.sender = w ∧ x.base = base.toNat) := by
  refine ⟨_, congrArg Host.Outcome.next (if_pos rfl), ?_⟩
  refine foldl_keeps State.twinWins _ (fun t x => ?_) _ _
  split
  · exact release_twinWins _ _ _
  · rfl

/-- A chain end listed grants credits, which are messages; one withdrawn stops the channels, which keep their entries. -/
theorem twinChain_ends (s : State) (c : Byte) (pos : BitVec 12) (w : Fin 8) (tenant : Byte) :
    let keep := s.twinChains.filter fun x => !decide (x.chain = c ∧ x.position = pos)
    (∃ t, exec (.twinChain c pos w tenant false) s = .next t ∧ t.twinChains = keep ++ [⟨c, pos, w, tenant⟩] ∧
      t.chans = s.chans ∧ t.mem = s.mem) ∧
    (∃ t, exec (.twinChain c pos w tenant true) s = .next t ∧ t.twinChains = keep ∧ t.out = s.out ∧ t.mem = s.mem ∧
      t.chans.map (fun f => (f.swatch, f.chan, f.fifo)) = s.chans.map fun f => (f.swatch, f.chan, f.fifo)) := by
  intro keep
  have grants (t : State) (i : Fin 8) (sel : Chan → Bool) :
      ((t.grantTwin i sel).twinChains, (t.grantTwin i sel).chans, (t.grantTwin i sel).mem) = (t.twinChains, t.chans, t.mem) := by
    unfold State.grantTwin
    split <;> rfl
  constructor
  · refine ⟨_, rfl, ?_⟩
    have h := foldl_keeps (fun t : State => (t.twinChains, t.chans, t.mem))
      (fun t i => t.grantTwin i fun x => decide (x.chain = c ∧ x.position = pos)) (fun t i => grants t i _) (allFin 8)
      ({ s with twinChains := keep ++ [⟨c, pos, w, tenant⟩] } : State)
    simp only [Prod.mk.injEq] at h
    exact h
  · refine ⟨_, rfl, rfl, rfl, rfl, ?_⟩
    refine (List.map_map ..).trans (List.map_congr_left fun f _ => ?_)
    simp only [Function.comp_apply]
    split
    · split <;> rfl
    · rfl

/-! ### The twin's tick and relayed commands (R182, R106) -/

/-- What the secondary answers to a tick: TICK_DONE where it has a TWIN port. -/
def State.answerTick (t : State) (row : DWord) : State :=
  (t.twinPort.map fun p => t.sendMsg p 0x31 (padTo 32 (leBytes 8 row.toNat))).getD t

theorem twinTick_ignored (s : State) (row : DWord) (h : s.fuses.primary = true ∨ s.selv.ready = false) :
    exec (.twinTick row) s = .next s := by
  refine congrArg Host.Outcome.next (if_neg ?_)
  rcases h with h | h <;> simp [h]

theorem twinTick_secondary {s : State} (row : DWord) (hsecond : s.fuses.primary = false) (hready : s.selv.ready = true)
    (htrip : s.tripped = false) :
    exec (.twinTick row) s = .next ((State.runTick { s with tick := { s.tick with count := row } }).answerTick row) := by
  have hruns : (s.selv.ready && !s.fuses.primary && !s.tripped) = true := by simp [hsecond, hready, htrip]
  change Host.Outcome.next (twinTick row s) = _
  unfold twinTick State.answerTick
  rw [if_pos hruns]
  dsimp only [State.modTick]
  generalize State.runTick _ = t
  cases t.twinPort <;> rfl

/-- No two commands have the same opcode. -/
theorem allCmds_nodup : (allCmds.map Cmd.op).Nodup := by decide +kernel

theorem find?_of_op {l : List Cmd} (hl : (l.map Cmd.op).Nodup) {c : Cmd} (hc : c ∈ l) :
    l.find? (fun x => decide (x.op = c.op)) = some c := by
  induction l with
  | nil => cases hc
  | cons x l ih =>
    rw [List.map_cons, List.nodup_cons] at hl
    rw [List.find?_cons]
    rcases List.mem_cons.mp hc with rfl | hc
    · simp
    · have hne : x.op ≠ c.op := fun h => hl.1 (h ▸ List.mem_map_of_mem hc)
      simp only [decide_eq_false hne]
      exact ih hl.2 hc

/-- RELAY_CMD at the secondary: the command of that opcode, or INVALID_OPCODE. -/
theorem relayCmd_runs (s : State) (op : Half) (x : RelayEntry) : let e := x.entry
    (s.fuses.primary = true ∨ s.selv.ready = false → exec (.relayCmd op x) s = .next s) ∧
    (s.fuses.primary = false → s.selv.ready = true →
      (∀ c ∈ allCmds, c.op = op.toNat → exec (.relayCmd op x) s = .next (c.run x.scope.val (e.ref true 0) e s)) ∧
      ((∀ c ∈ allCmds, c.op ≠ op.toNat) → exec (.relayCmd op x) s = .next (s.reply (e.ref true 0) stInvalidOpcode))) := by
  intro e
  refine ⟨fun h => congrArg Host.Outcome.next (if_pos ?_), fun hsecond hready => ?_⟩
  · rcases h with h | h <;> simp [h]
  · have hruns : ¬ (s.fuses.primary = true ∨ (!s.selv.ready) = true) := by simp [hsecond, hready]
    have hexec : exec (.relayCmd op x) s = .next (match allCmds.find? fun c => decide (c.op = op.toNat) with
        | some c => c.run x.scope.val (e.ref true 0) e s
        | none => s.reply (e.ref true 0) stInvalidOpcode) :=
      congrArg Host.Outcome.next (if_neg hruns)
    refine ⟨fun c hc hop => ?_, fun hnone => ?_⟩
    · rw [hexec, ← hop, find?_of_op allCmds_nodup hc]
    · have hfind : allCmds.find? (fun c => decide (c.op = op.toNat)) = none :=
        List.find?_eq_none.mpr fun c hc h => hnone c hc (of_decide_eq_true h)
      rw [hexec, hfind]

/-- Settles O36: each message's row, and for a release and an uncorrectable error what the posts they cause leave as it is. -/
theorem stackAndTwinMessages : Obligations.StackAndTwinMessages := by
  unfold Obligations.StackAndTwinMessages
  refine ⟨stack_messages, irq_signals, twinWindow_whole, twinWindow_release, twinChain_ends,
    fun s row => ⟨twinTick_ignored s row, fun hsecond hready htrip => ?_⟩, relayCmd_runs⟩
  rw [twinTick_secondary row hsecond hready htrip]
  unfold State.answerTick
  dsimp only
  generalize State.runTick _ = t
  cases t.twinPort <;> rfl

end Sys2Proof.Machine
end

section
/-! SUPPORT. Transactions (03 R49 to R56, R63, R65; 09 R227, R228, R238): requests served where they lie, responses matched by their
tag, and requests of this die that wait for a credit. -/
namespace Sys2Proof.Machine
open Sys2Proof

/-! ### What a request meets at a STACK port (R50, R51) -/

theorem serveAt_down {s : State} {h : TxnHead} (hp : s.portUp h.port = false) (need : Need) (f : Bool → List Nat → State → State) :
    s.serveAt h need f = s := by
  unfold State.serveAt
  rw [if_pos (by simp [hp])]

theorem serveAt_err {s : State} {h : TxnHead} {need : Need} {far : Bool} {code : Nat} (hp : s.portUp h.port = true)
    (ht : s.target h need = .err far code) (f : Bool → List Nat → State → State) : s.serveAt h need f = s.errAnswer h far code := by
  unfold State.serveAt
  rw [if_neg (by simp [hp]), ht]

theorem serveAt_at {s : State} {h : TxnHead} {need : Need} {far : Bool} {l : List Nat} (hp : s.portUp h.port = true)
    (ht : s.target h need = .at_ far l) (f : Bool → List Nat → State → State) : s.serveAt h need f = f far l s := by
  unfold State.serveAt
  rw [if_neg (by simp [hp]), ht]

theorem target_stack_err {s : State} {h : TxnHead} (need : Need) {code : Nat} (hr : s.fuses.ports[h.port].role = .stack)
    (hc : code = 3 ∧ h.addr.toNat % 32 ≠ 0 ∨ code = 2 ∧ h.addr.toNat % 32 = 0 ∧ 0x600000000 < h.addr.toNat + txnBytes h ∨
      code = 1 ∧ h.addr.toNat % 32 = 0 ∧ h.addr.toNat + txnBytes h ≤ 0x600000000 ∧
        s.stack[s.fuses.ports[h.port].stack].lost = true) : s.target h need = .err true code := by
  unfold State.target
  simp only [hr]
  rcases hc with ⟨rfl, hodd⟩ | ⟨rfl, hal, hfar⟩ | ⟨rfl, hal, hin, hlost⟩
  · rw [if_pos hodd]
  · rw [if_neg (not_not_intro hal), if_pos (by omega)]
  · rw [if_neg (not_not_intro hal), if_neg (by omega), if_pos hlost]

/-- A request of one granule in range. -/
theorem target_stack_granule {s : State} {h : TxnHead} (need : Need) (hr : s.fuses.ports[h.port].role = .stack)
    (hal : h.addr.toNat % 32 = 0) (hin : h.addr.toNat + 32 ≤ 0x600000000)
    (hlost : s.stack[s.fuses.ports[h.port].stack].lost = false) (hlen : h.len = 0) :
    s.target h need = .at_ true [s.addrOf s.fuses.ports[h.port].stack h.addr.toNat] := by
  have hbytes : txnBytes h = 32 := by unfold txnBytes; rw [hlen]; rfl
  unfold State.target
  simp only [hr]
  rw [if_neg (not_not_intro hal), if_neg (by omega), if_neg (by simp only [hlost, Bool.false_eq_true, not_false_eq_true]), hlen]
  rfl

/-! ### Responses (R54, R55, R56) -/

/-- Whether an access writes part of a granule. -/
def Access.partWrite (a : Access) : Bool :=
  match a.op with
  | .write b => decide (a.addr % 32 ≠ 0 ∨ b.length % 32 ≠ 0) || !b.all Option.isSome
  | _ => false

/-- MASK_FAIL noted for an ERR_RSP (R383). -/
def State.noteMaskFail (s : State) (h : TxnHead) : State :=
  match s.byTag h.port h.tag with
  | some a => if s.portUp h.port && a.partWrite && decide (s.region a.addr = .stack ∧ h.addr.toNat % 256 = 1) then s.maskFail a.addr
    else s
  | none => s

theorem errorResponse_eq (h : TxnHead) (s : State) : errorResponse h s =
    (s.noteMaskFail h).response h (fun _ => true) (some (if h.addr.toNat % 256 = 1 then 5 else 9)) [] := rfl

/-- Only a write of part of a granule, at a port that is up, notes MASK_FAIL. -/
theorem noteMaskFail_eq_self {s : State} {h : TxnHead}
    (hn : ∀ a, s.byTag h.port h.tag = some a → s.portUp h.port = false ∨ a.reads = true) : s.noteMaskFail h = s := by
  unfold State.noteMaskFail
  split
  · next a ha =>
    refine if_neg fun hc => ?_
    simp only [Bool.and_eq_true] at hc
    obtain ⟨⟨hup, hpart⟩, -⟩ := hc
    rcases hn a ha with hdown | hreads
    · rw [hdown] at hup; cases hup
    · unfold Access.partWrite at hpart
      unfold Access.reads at hreads
      split at hpart
      · next b hop => rw [hop] at hreads; revert hreads; exact fun hreads => absurd hreads (by simp [AccOp.isRead])
      · cases hpart
  · rfl

theorem response_down {s : State} {h : TxnHead} (hp : s.portUp h.port = false) (fits : Access → Bool) (err : Option Nat)
    (d : List Byte) : s.response h fits err d = s := if_pos (by simp [hp])

theorem response_untagged {s : State} {h : TxnHead} (hp : s.portUp h.port = true) (ht : s.byTag h.port h.tag = none)
    (fits : Access → Bool) (err : Option Nat) (d : List Byte) : s.response h fits err d = s.protocolError h.port := by
  unfold State.response
  rw [if_neg (by simp [hp]), ht]

theorem response_tagged {s : State} {h : TxnHead} {a : Access} (hp : s.portUp h.port = true) (ht : s.byTag h.port h.tag = some a)
    (fits : Access → Bool) (err : Option Nat) (d : List Byte) : s.response h fits err d =
      if fits a then (s.complete a err d).afterAnswer h.port else s.protocolError h.port := by
  unfold State.response
  rw [if_neg (by simp [hp]), ht]

/-- RD_RSP without POISON. -/
theorem readResponse_clean {h : TxnHead} (hc : h.poison = false) (d : List Byte) (s : State) :
    readResponse h d s = s.response h Access.reads none d := by
  unfold readResponse
  simp only [hc, Bool.false_eq_true, false_and, if_false]

/-- A response ends the access whose TAG it carries and which it answers; any other is a protocol error. -/
theorem responses_matched (s : State) (h : TxnHead) (d : List Byte) (hp : s.portUp h.port = true) (hc : h.poison = false) :
    let wrong := Host.Outcome.next (φ := Fault) (ρ := Refusal) (s.protocolError h.port)
    (s.byTag h.port h.tag = none → exec (.rdRsp h d) s = wrong ∧ exec (.wrAck h) s = wrong ∧ exec (.errRsp h) s = wrong) ∧
    (∀ a, s.byTag h.port h.tag = some a →
      (a.reads = true → exec (.wrAck h) s = wrong ∧
        exec (.rdRsp h d) s = .next ((s.complete a none d).afterAnswer h.port) ∧
        exec (.errRsp h) s = .next ((s.complete a (some (if h.addr.toNat % 256 = 1 then 5 else 9)) []).afterAnswer h.port)) ∧
      (a.reads = false → exec (.rdRsp h d) s = wrong ∧
        exec (.wrAck h) s = .next ((s.complete a none []).afterAnswer h.port))) := by
  intro wrong
  have hread : exec (.rdRsp h d) s = .next (s.response h Access.reads none d) :=
    congrArg Host.Outcome.next (readResponse_clean hc d s)
  have hack : exec (.wrAck h) s = .next (s.response h (fun a => !a.reads) none []) := rfl
  have herr (hn : ∀ a, s.byTag h.port h.tag = some a → s.portUp h.port = false ∨ a.reads = true) : exec (.errRsp h) s =
      .next (s.response h (fun _ => true) (some (if h.addr.toNat % 256 = 1 then 5 else 9)) []) :=
    congrArg Host.Outcome.next (by rw [errorResponse_eq, noteMaskFail_eq_self hn])
  refine ⟨fun ht => ⟨?_, ?_, ?_⟩, fun a ht => ⟨fun hr => ⟨?_, ?_, ?_⟩, fun hr => ⟨?_, ?_⟩⟩⟩
  · rw [hread, response_untagged hp ht]
  · rw [hack, response_untagged hp ht]
  · rw [herr (fun a ha => by rw [ht] at ha; cases ha), response_untagged hp ht]
  · rw [hack, response_tagged hp ht, if_neg (by simp [hr])]
  · rw [hread, response_tagged hp ht, if_pos hr]
  · rw [herr (fun b hb => .inr (by rw [ht] at hb; cases hb; exact hr)), response_tagged hp ht, if_pos rfl]
  · rw [hread, response_tagged hp ht, if_neg (by simp [hr])]
  · rw [hack, response_tagged hp ht, if_pos (by simp [hr])]

/-- A port that is down serves no request and takes no response. -/
theorem down_serves_nothing (s : State) (h : TxnHead) (m : Vector Byte 32) (d : List Byte) (op : Fin 8) (fw : Bool)
    (g : Vector Byte 32) (hp : s.portUp h.port = false) :
    exec (.rd h) s = .next s ∧ exec (.wr h d) s = .next s ∧ exec (.wrMask h m d) s = .next s ∧ exec (.atomAdd h op d) s = .next s ∧
    exec (.rdReg h fw) s = .next s ∧ exec (.wrReg h fw g) s = .next s ∧ exec (.rdRsp h d) s = .next s ∧
    exec (.wrAck h) s = .next s ∧ exec (.errRsp h) s = .next s ∧ exec (.ply h d) s = .next s := by
  have hnot : (!s.portUp h.port) = true := by simp [hp]
  have hread : readResponse h d s = s := by
    unfold readResponse
    rw [if_neg (by simp [hp])]
    exact response_down hp _ _ _
  have herr : errorResponse h s = s := by
    rw [errorResponse_eq, noteMaskFail_eq_self fun _ _ => .inl hp]
    exact response_down hp _ _ _
  have hwr : writeRequest h d s = s := by unfold writeRequest; exact serveAt_down hp _ _
  have hmask : maskedWrite h m d s = s := by unfold maskedWrite; exact serveAt_down hp _ _
  have hatom : atomicRequest h op d s = s := by unfold atomicRequest; exact serveAt_down hp _ _
  exact ⟨congrArg Host.Outcome.next (serveAt_down hp _ _), congrArg Host.Outcome.next hwr, congrArg Host.Outcome.next hmask,
    congrArg Host.Outcome.next hatom, congrArg Host.Outcome.next (if_pos hnot), congrArg Host.Outcome.next (if_pos hnot),
    congrArg Host.Outcome.next hread, congrArg Host.Outcome.next (response_down hp _ _ _), congrArg Host.Outcome.next herr,
    congrArg Host.Outcome.next (if_pos (.inr hnot))⟩

/-- The codes of a request that the base die refuses. -/
theorem stack_refuses (s : State) (h : TxnHead) (m : Vector Byte 32) (d : List Byte) (op : Fin 8) (code : Nat)
    (hp : s.portUp h.port = true) (hr : s.fuses.ports[h.port].role = .stack)
    (hc : code = 3 ∧ h.addr.toNat % 32 ≠ 0 ∨ code = 2 ∧ h.addr.toNat % 32 = 0 ∧ 0x600000000 < h.addr.toNat + txnBytes h ∨
      code = 1 ∧ h.addr.toNat % 32 = 0 ∧ h.addr.toNat + txnBytes h ≤ 0x600000000 ∧
        s.stack[s.fuses.ports[h.port].stack].lost = true) :
    let answer := Host.Outcome.next (φ := Fault) (ρ := Refusal) (s.emit (.txn 0x0A 0
      { h with len := 0, poison := false, addr := BitVec.ofNat 40 code } []))
    exec (.rd h) s = answer ∧ exec (.wr h d) s = answer ∧ exec (.wrMask h m d) s = answer ∧ exec (.atomAdd h op d) s = answer := by
  have served (need : Need) (f : Bool → List Nat → State → State) : s.serveAt h need f = s.errAnswer h true code :=
    serveAt_err hp (target_stack_err need hr hc) f
  have hwr : writeRequest h d s = s.errAnswer h true code := by unfold writeRequest; exact served _ _
  have hmask : maskedWrite h m d s = s.errAnswer h true code := by unfold maskedWrite; exact served _ _
  have hatom : atomicRequest h op d s = s.errAnswer h true code := by unfold atomicRequest; exact served _ _
  exact ⟨congrArg Host.Outcome.next (served _ _), congrArg Host.Outcome.next hwr, congrArg Host.Outcome.next hmask,
    congrArg Host.Outcome.next hatom⟩

/-! ### Register requests (R50, R407) -/

theorem regRequest_up {s : State} {h : TxnHead} (hp : s.portUp h.port = true) (fw write : Bool) (f : Bool → Agent → State → State) :
    (s.fuses.ports[h.port].role = .stack → s.regRequest h fw write f = s.errAnswer h true 3) ∧
    (s.fuses.ports[h.port].role = .shus → s.regRequest h fw write f =
      if h.addr.toNat % 4 = 0 && s.onShuskaub h.addr.toNat then f true .firmware s else s.errAnswer h true 2) := by
  unfold State.regRequest
  rw [if_neg (by simp [hp])]
  constructor
  · intro hr; rw [hr]
  · intro hr; rw [hr]

/-- A base die has no registers; Shuskaub serves its own. -/
theorem register_requests (s : State) (h : TxnHead) (fw : Bool) (g : Vector Byte 32) (hp : s.portUp h.port = true) :
    let answer := fun (code : Nat) => Host.Outcome.next (φ := Fault) (ρ := Refusal)
      (s.emit (.txn 0x0A 0 { h with len := 0, poison := false, addr := BitVec.ofNat 40 code } []))
    (s.fuses.ports[h.port].role = .stack → exec (.rdReg h fw) s = answer 3 ∧ exec (.wrReg h fw g) s = answer 3) ∧
    (s.fuses.ports[h.port].role = .shus →
      (h.addr.toNat % 4 ≠ 0 ∨ s.onShuskaub h.addr.toNat = false →
        exec (.rdReg h fw) s = answer 2 ∧ exec (.wrReg h fw g) s = answer 2) ∧
      (h.addr.toNat % 4 = 0 → s.onShuskaub h.addr.toNat = true →
        exec (.rdReg h fw) s = .next ((s.regRead .firmware h.addr.toNat).1.emit (.txn 8 0
          { h with len := 0, poison := false, addr := 0 }
          ((padTo 32 (leBytes 4 (s.regRead .firmware h.addr.toNat).2.toNat)).map some))) ∧
        exec (.wrReg h fw g) s = .next ((s.regWrite .firmware h.addr.toNat (BitVec.ofNat 32 (leAt g.toList 0 4))).emit (.txn 9 0
          { h with len := 0, poison := false, addr := 0 } [])))) := by
  intro answer
  refine ⟨fun hr => ⟨congrArg Host.Outcome.next ((regRequest_up hp fw false _).1 hr),
    congrArg Host.Outcome.next ((regRequest_up hp fw true _).1 hr)⟩, fun hr => ⟨fun hno => ?_, fun hal hon => ?_⟩⟩
  · have hnot : ¬ (decide (h.addr.toNat % 4 = 0) && s.onShuskaub h.addr.toNat) = true := by
      rcases hno with hodd | hoff
      · simp [hodd]
      · simp [hoff]
    exact ⟨congrArg Host.Outcome.next (((regRequest_up hp fw false _).2 hr).trans (if_neg hnot)),
      congrArg Host.Outcome.next (((regRequest_up hp fw true _).2 hr).trans (if_neg hnot))⟩
  · have hyes : (decide (h.addr.toNat % 4 = 0) && s.onShuskaub h.addr.toNat) = true := by simp [hal, hon]
    refine ⟨congrArg Host.Outcome.next (((regRequest_up hp fw false _).2 hr).trans (if_pos hyes)),
      congrArg Host.Outcome.next (((regRequest_up hp fw true _).2 hr).trans ((if_pos hyes).trans ?_))⟩
    rw [if_neg (by simp)]
    rfl

/-! ### PLY (R254) -/

/-- PLY enters the matched channel as an arriving entry, with the shift of its address bits where one is marked. -/
theorem ply_enters (s : State) (h : TxnHead) (d : List Byte) (hp : s.portUp h.port = true) :
    (s.fuses.ports[h.port].role ≠ .twin ∨ s.plyChan h.addr.toNat = none → exec (.ply h d) s = .next s) ∧
    (∀ (i : Fin 8) (c : Byte), s.fuses.ports[h.port].role = .twin → s.plyChan h.addr.toNat = some (i, c) →
      (h.addr.getLsbD 24 = false →
        exec (.ply h d) s = exec (.stitchEntryArrival i c (BitVec.ofNat 12 h.addr.toNat) (toVec 64 d)) s) ∧
      (h.addr.getLsbD 24 = true → exec (.ply h d) s =
        .next (s.entryArrives i c (BitVec.ofNat 12 h.addr.toNat) (some (BitVec.ofNat 8 (fld h.addr 23 16))) (toVec 64 d)))) := by
  have hbit : h.addr.getLsbD 24 = decide (h.addr.toNat / 0x1000000 % 2 = 1) := by
    rw [BitVec.getLsbD, Nat.testBit_eq_decide_div_mod_eq]
  have hshift : BitVec.ofNat 8 (fld h.addr 23 16) = BitVec.ofNat 8 (h.addr.toNat / 0x10000) := by
    apply BitVec.eq_of_toNat_eq
    simp only [fld, bitsN, BitVec.toNat_ofNat]
    omega
  have stays (hr : s.fuses.ports[h.port].role = .twin) : ¬ (s.fuses.ports[h.port].role ≠ .twin ∨ (!s.portUp h.port) = true) := by
    rw [hr, hp]; decide
  refine ⟨fun hno => congrArg Host.Outcome.next ?_, fun i c hr hc => ?_⟩
  · unfold plyArrives
    by_cases hr : s.fuses.ports[h.port].role = .twin
    · have hnone := hno.resolve_left (not_not_intro hr)
      rw [if_neg (stays hr), hnone]
    · exact if_pos (.inl hr)
  · have harrives : exec (.ply h d) s = .next (s.entryArrives i c (BitVec.ofNat 12 h.addr.toNat)
        (if h.addr.toNat / 0x1000000 % 2 = 1 then some (BitVec.ofNat 8 (h.addr.toNat / 0x10000)) else none) (toVec 64 d)) := by
      refine congrArg Host.Outcome.next ?_
      unfold plyArrives
      rw [if_neg (stays hr), hc]
    rw [hbit]
    refine ⟨fun h0 => ?_, fun h1 => ?_⟩
    · rw [harrives, if_neg (of_decide_eq_false h0)]
      rfl
    · rw [harrives, if_pos (of_decide_eq_true h1), hshift]

end Sys2Proof.Machine
end

section
/-! SUPPORT. One granule read, written, masked and added to at a STACK port (03 R50, R55, R63; 14 R383). -/
namespace Sys2Proof.Machine
open Sys2Proof

/-! ### Bytes -/

theorem slice_of_length {l : List Byte} {off n : Nat} (h : off + n ≤ l.length) : slice l off n = (l.drop off).take n := by
  have hlen : ((l.drop off).take n).length = n := by rw [List.length_take, List.length_drop]; omega
  unfold slice
  dsimp only
  rw [hlen, Nat.sub_self, List.replicate_zero, List.append_nil]

theorem padTo_of_length {l : List Byte} {n : Nat} (h : l.length = n) : padTo n l = l := by
  rw [padTo, slice_of_length (by omega), List.drop_zero, List.take_of_length_le (by omega)]

theorem leBytes_length (n v : Nat) : (leBytes n v).length = n := by
  induction n generalizing v with
  | zero => rfl
  | succ n ih => rw [leBytes, List.length_cons, ih]

theorem leNat_leBytes (n v : Nat) : leNat (leBytes n v) = v % 256 ^ n := by
  induction n generalizing v with
  | zero => rw [Nat.pow_zero, Nat.mod_one]; rfl
  | succ n ih =>
    rw [leBytes, leNat, ih, BitVec.toNat_ofNat, Nat.pow_succ' (m := 256), Nat.mod_mul]

/-- A range reads as a list when each of its bytes does. -/
theorem memRead_eq {m : List (Nat × Byte)} {a n : Nat} {l : List Byte} (hl : l.length = n)
    (h : ∀ i < n, memGet m (a + i) = l.getD i memDefault) : memRead m a n = l := by
  apply List.ext_getElem (by rw [memRead_length, hl])
  intro i hi hi'
  rw [memRead_length] at hi
  have hr := memRead_getElem m a n i hi
  rw [h i hi] at hr
  simpa [hi, hi'] using hr

/-! ### An atomic add of words (R63) -/

/-- The word at an address and the word of the data at the same place, added. -/
def addedWord (m : List (Nat × Byte)) (a : Nat) (d : List Byte) (i : Nat) : Nat :=
  (leNat (memRead m (a + 4 * i) 4) + leAt d (4 * i) 4) % 2 ^ 32

/-- What an add of whole words leaves: each word with its own word of the data added. -/
theorem atomicBytes_words (m : List (Nat × Byte)) (n fuel a : Nat) (d : List Byte) (hf : n ≤ fuel) (hd : d.length = 4 * n) :
    (atomicBytes .int32 m a fuel (d.map some)).length = 4 * n ∧
    ∀ i < n, ((atomicBytes .int32 m a fuel (d.map some)).drop (4 * i)).take 4 = (leBytes 4 (addedWord m a d i)).map some := by
  induction n generalizing fuel a d with
  | zero =>
    have hnil : d = [] := List.eq_nil_of_length_eq_zero hd
    subst hnil
    refine ⟨?_, fun i hi => absurd hi (Nat.not_lt_zero i)⟩
    cases fuel <;> rfl
  | succ n ih =>
    obtain ⟨fuel, rfl⟩ : ∃ k, fuel = k + 1 := ⟨fuel - 1, by omega⟩
    have hrest := ih fuel (a + 4) (d.drop 4) (by omega) (by rw [List.length_drop]; omega)
    have hword : atomicBytes .int32 m a (fuel + 1) (d.map some) =
        (leBytes 4 (addedWord m a d 0)).map some ++ atomicBytes .int32 m (a + 4) fuel ((d.drop 4).map some) := by
      have hlen : (d.take 4).length = 4 := by rw [List.length_take]; omega
      have hmem : leAt (memRead m a 4) 0 4 = leNat (memRead m a 4) := by
        rw [leAt, slice_of_length (by rw [memRead_length]), List.drop_zero, List.take_of_length_le (by rw [memRead_length])]
      have hdata : leAt (((d.map some).take 4).map fun o => o.getD 0) 0 4 = leAt d 0 4 := by
        have hbytes : (((d.map some).take 4).map fun o => o.getD 0) = d.take 4 := by simp [List.map_take, Function.comp_def]
        rw [hbytes, leAt, leAt, slice_of_length (by omega), slice_of_length (by omega), List.drop_zero, List.drop_zero,
          List.take_take, Nat.min_self]
      have hfull : ((d.map some).take 4).length = 4 := by rw [← List.map_take, List.length_map, hlen]
      have hne : ¬ ((d.map some).take 4).isEmpty = true := by
        rw [List.isEmpty_iff, ← List.length_eq_zero_iff, hfull]; decide
      have hall : ((d.map some).take 4).all Option.isSome = true := by
        rw [← List.map_take, List.all_map, List.all_eq_true]; exact fun _ _ => rfl
      rw [atomicBytes]
      refine (if_neg hne).trans (congrArg₂ (· ++ ·) ((if_pos ⟨hfull, hall⟩).trans ?_) ?_)
      · refine congrArg (fun v => (leBytes 4 v).map some) ?_
        change (leAt (memRead m a 4) 0 4 + leAt (((d.map some).take 4).map fun o => o.getD 0) 0 4) % 2 ^ 32 = _
        rw [hmem, hdata]
        rfl
      · rw [List.map_drop]
        rfl
    have hfirst : ((leBytes 4 (addedWord m a d 0)).map some).length = 4 := by rw [List.length_map, leBytes_length]
    rw [hword]
    refine ⟨by rw [List.length_append, hfirst, hrest.1]; omega, fun i hi => ?_⟩
    cases i with
    | zero => rw [Nat.mul_zero, List.drop_zero, List.take_left' hfirst]
    | succ i =>
      have hmove : addedWord m (a + 4) (d.drop 4) i = addedWord m a d (i + 1) := by
        unfold addedWord leAt
        rw [slice_of_length (by rw [List.length_drop]; omega), slice_of_length (by omega), List.drop_drop,
          show a + 4 + 4 * i = a + 4 * (i + 1) by omega, show 4 + 4 * i = 4 * (i + 1) by omega]
      rw [show 4 * (i + 1) = 4 + 4 * i by omega, ← List.drop_drop, List.drop_left' hfirst, hrest.2 i (by omega), hmove]

/-- Memory after an add of whole words. -/
theorem memRead_atomicBytes {m : List (Nat × Byte)} {a n fuel : Nat} {d : List Byte} (hf : n ≤ fuel) (hd : d.length = 4 * n)
    {i : Nat} (hi : i < n) :
    leNat (memRead (memWriteM m a (atomicBytes .int32 m a fuel (d.map some))) (a + 4 * i) 4) = addedWord m a d i := by
  obtain ⟨hlen, hwords⟩ := atomicBytes_words m n fuel a d hf hd
  have hread : memRead (memWriteM m a (atomicBytes .int32 m a fuel (d.map some))) (a + 4 * i) 4 = leBytes 4 (addedWord m a d i) := by
    refine memRead_eq (leBytes_length _ _) fun j hj => ?_
    rw [memGet_memWriteM, if_pos (by omega), show a + 4 * i + j - a = 4 * i + j by omega]
    have hbyte := congrArg (fun l => l[j]?) (hwords i hi)
    simp only [List.getElem?_take, if_pos hj, List.getElem?_drop, List.getElem?_map] at hbyte
    rw [List.getD_eq_getElem?_getD, hbyte, List.getD_eq_getElem?_getD]
    have hin : j < (leBytes 4 (addedWord m a d i)).length := by rw [leBytes_length]; exact hj
    rw [List.getElem?_eq_getElem hin]
    rfl
  rw [hread, leNat_leBytes]
  exact Nat.mod_eq_of_lt (Nat.mod_lt _ (by decide))

/-! ### One granule (R50, R55, R383) -/

/-- Memory after a write, where nothing is uncorrectable: the bytes given, and what was there elsewhere. -/
theorem put_clean {s : State} (hc : s.poison = []) (a : Nat) (bs : List (Option Byte)) :
    (s.put a bs).poison = [] ∧ ∀ j, memGet (s.put a bs).mem j =
      if a ≤ j ∧ j < a + bs.length then (bs.getD (j - a) none).getD (memGet s.mem j) else memGet s.mem j := by
  have hland : s.landing a bs = bs := by unfold State.landing; rw [hc]; rfl
  refine ⟨by rw [put_poison, hc, List.filter_nil], fun j => ?_⟩
  rw [put_mem, hland, memGet_memWriteM]

/-- The same for a write of whole bytes. -/
theorem memGet_put_bytes {s : State} (hc : s.poison = []) (a : Nat) (d : List Byte) (j : Nat) : memGet (s.put a (d.map some)).mem j =
    if a ≤ j ∧ j < a + d.length then d.getD (j - a) 0 else memGet s.mem j := by
  rw [(put_clean hc a (d.map some)).2, List.length_map]
  split
  · next hj =>
    rw [List.getD_eq_getElem?_getD, List.getElem?_map, List.getElem?_eq_getElem (by omega), List.getD_eq_getElem?_getD,
      List.getElem?_eq_getElem (by omega)]
    rfl
  · rfl

theorem putGranules_one (s : State) (a : Nat) {bs : List (Option Byte)} (h : bs.length = 32) : s.putGranules [a] bs = s.put a bs := by
  change s.put a ((bs.drop (32 * 0)).take 32) = _
  rw [Nat.mul_zero, List.drop_zero, List.take_of_length_le (by omega)]

/-- The lanes of WR_MASK: the byte where the mask has a bit, nothing elsewhere. -/
def maskLanes (m : Vector Byte 32) (d : List Byte) : List (Option Byte) :=
  (List.range 32).map fun i => if (m.toList.getD (i / 8) 0).getLsbD (i % 8) then some (d.getD i 0) else none

theorem maskLanes_length (m : Vector Byte 32) (d : List Byte) : (maskLanes m d).length = 32 := by
  rw [maskLanes, List.length_map, List.length_range]

theorem maskLanes_getD (m : Vector Byte 32) (d : List Byte) {i : Nat} (h : i < 32) : (maskLanes m d).getD i none =
    if (m.toList.getD (i / 8) 0).getLsbD (i % 8) then some (d.getD i 0) else none := by
  rw [maskLanes, List.getD_eq_getElem?_getD, List.getElem?_map, List.getElem?_range h]
  rfl

section Granule
variable {s : State} {h : TxnHead} {a : Nat}

/-- One granule asked for. -/
theorem txnBytes_one (hl : h.len = 0) : txnBytes h = 32 := by unfold txnBytes; rw [hl]; rfl

theorem rd_granule (hp : s.portUp h.port = true) (ht : ∀ need, s.target h need = .at_ true [a]) (hg : s.isBad a = false) :
    exec (.rd h) s = .next (s.emit (.txn 8 0 { h with poison := false, addr := 0 } ((memRead s.mem a 32).map some))) := by
  have hbad : [a].any s.isBad = false := by rw [List.any_cons, hg]; rfl
  refine congrArg Host.Outcome.next ((serveAt_at hp (ht .read) _).trans ?_)
  dsimp only
  rw [hbad, if_neg (by simp), List.flatMap_singleton]
  rfl

theorem wr_granule (hp : s.portUp h.port = true) (ht : ∀ need, s.target h need = .at_ true [a]) (hl : h.len = 0) {d : List Byte}
    (hd : d.length = 32) (hc : h.poison = false) : exec (.wr h d) s = .next ((s.put a (d.map some)).ackAnswer h true) := by
  have hdata : padTo (txnBytes h) (d.take (txnBytes h)) = d := by
    rw [txnBytes_one hl, List.take_of_length_le (by omega), padTo_of_length hd]
  have hnone : ¬ h.poison = true := by rw [hc]; exact Bool.false_ne_true
  change Host.Outcome.next (writeRequest h d s) = _
  unfold writeRequest
  rw [hdata]
  refine congrArg Host.Outcome.next ((serveAt_at hp (ht .write) _).trans ?_)
  dsimp only
  rw [if_neg hnone, if_neg (fun hc => hnone hc.1), putGranules_one s a (by rw [List.length_map, hd])]

theorem wrMask_granule (hp : s.portUp h.port = true) (ht : ∀ need, s.target h need = .at_ true [a]) (hl : h.len = 0)
    (m : Vector Byte 32) (d : List Byte) : exec (.wrMask h m d) s = .next
      (if s.isBad a && (maskLanes m d).any Option.isSome then s.errAnswer h true 1
       else (s.put a (maskLanes m d)).ackAnswer h true) := by
  have hlanes : ((maskLanes m d).drop (32 * 0)).take 32 = maskLanes m d := by
    rw [Nat.mul_zero, List.drop_zero, List.take_of_length_le (by rw [maskLanes_length])]
  change Host.Outcome.next (maskedWrite h m d s) = _
  unfold maskedWrite
  rw [txnBytes_one hl]
  refine congrArg Host.Outcome.next ((serveAt_at hp (ht .write) _).trans ?_)
  change (if (s.isBad a && (((maskLanes m d).drop (32 * 0)).take 32).any Option.isSome) || false then s.errAnswer h true 1
    else (s.putGranules [a] (maskLanes m d)).ackAnswer h true) = _
  rw [hlanes, Bool.or_false, putGranules_one s a (maskLanes_length m d)]

theorem atomAdd_bad (hp : s.portUp h.port = true) (ht : ∀ need, s.target h need = .at_ true [a]) (d : List Byte) {op : Fin 8}
    (hop : op.val ≤ 3) (hg : s.isBad a = true) : exec (.atomAdd h op d) s = .next (s.errAnswer h true 1) := by
  obtain ⟨f, hf⟩ : ∃ f, atFmt op = some f := by
    obtain ⟨n, hn⟩ := op
    simp only at hop
    interval_cases n <;> exact ⟨_, rfl⟩
  have hbad : [a].any s.isBad = true := by rw [List.any_cons, hg]; rfl
  change Host.Outcome.next (atomicRequest h op d s) = _
  unfold atomicRequest
  refine congrArg Host.Outcome.next ((serveAt_at hp (ht .atomic) _).trans ?_)
  rw [hf]
  exact if_pos hbad

theorem atomAdd_granule (hp : s.portUp h.port = true) (ht : ∀ need, s.target h need = .at_ true [a]) (hl : h.len = 0)
    {d : List Byte} (hd : d.length = 32) (hg : s.isBad a = false) : exec (.atomAdd h 0 d) s =
      .next (({ s with mem := memWriteM s.mem a (atomicBytes .int32 s.mem a 32 (d.map some)) } : State).ackAnswer h true) := by
  have hdata : padTo (txnBytes h) (d.take (txnBytes h)) = d := by
    rw [txnBytes_one hl, List.take_of_length_le (by omega), padTo_of_length hd]
  have hbytes : ((d.map some).drop (32 * 0)).take 32 = d.map some := by
    rw [Nat.mul_zero, List.drop_zero, List.take_of_length_le (by rw [List.length_map, hd])]
  have hclean : ¬ [a].any s.isBad = true := by rw [List.any_cons, hg]; exact Bool.false_ne_true
  change Host.Outcome.next (atomicRequest h 0 d s) = _
  unfold atomicRequest
  refine congrArg Host.Outcome.next ((serveAt_at hp (ht .atomic) _).trans ((if_neg hclean).trans ?_))
  rw [hdata]
  change State.ackAnswer (s.serve a (.atomic .int32 (((d.map some).drop (32 * 0)).take 32))).1 h true = _
  rw [hbytes]
  change State.ackAnswer { s with mem := memWriteM s.mem a (atomicBytes .int32 s.mem a (d.map some).length (d.map some)) } h true = _
  rw [List.length_map, hd]

end Granule

/-- One granule in range of a stack that is not lost: read, written, masked, refused and added to. -/
theorem one_granule (s : State) (h : TxnHead) (hp : s.portUp h.port = true) (hr : s.fuses.ports[h.port].role = .stack)
    (hal : h.addr.toNat % 32 = 0) (hin : h.addr.toNat + 32 ≤ 0x600000000)
    (hlost : s.stack[s.fuses.ports[h.port].stack].lost = false) (hl : h.len = 0) :
    let a := s.addrOf s.fuses.ports[h.port].stack h.addr.toNat
    let ack : Out := .txn 9 0 { h with len := 0, poison := false, addr := 0 } []
    (s.isBad a = false → exec (.rd h) s = .next (s.emit
      (.txn 8 0 { h with poison := false, addr := 0 } ((memRead s.mem a 32).map some)))) ∧
    (∀ d : List Byte, d.length = 32 → h.poison = false → s.poison = [] → ∃ t, exec (.wr h d) s = .next t ∧
      t.out = s.out ++ [ack] ∧ t.poison = [] ∧
      ∀ j, memGet t.mem j = if a ≤ j ∧ j < a + 32 then d.getD (j - a) 0 else memGet s.mem j) ∧
    (∀ (m : Vector Byte 32) (d : List Byte), s.poison = [] → s.onLost a = false → ∃ t, exec (.wrMask h m d) s = .next t ∧
      t.out = s.out ++ [ack] ∧
      ∀ j, memGet t.mem j =
        if a ≤ j ∧ j < a + 32 ∧ (m.toList.getD ((j - a) / 8) 0).getLsbD ((j - a) % 8) = true then d.getD (j - a) 0
        else memGet s.mem j) ∧
    (∀ (m : Vector Byte 32) (d : List Byte) (op : Fin 8), s.isBad a = true →
      let bad := Host.Outcome.next (φ := Fault) (ρ := Refusal) (s.emit (.txn 0x0A 0 { h with len := 0, poison := false, addr := 1 } []))
      ((∃ i : Fin 32, (m.toList.getD (i.val / 8) 0).getLsbD (i.val % 8) = true) → exec (.wrMask h m d) s = bad) ∧
      (op.val ≤ 3 → exec (.atomAdd h op d) s = bad)) ∧
    (∀ d : List Byte, d.length = 32 → s.poison = [] → s.isBad a = false → ∃ t, exec (.atomAdd h 0 d) s = .next t ∧
      t.out = s.out ++ [ack] ∧
      (∀ i : Fin 8, leNat (memRead t.mem (a + 4 * i.val) 4) =
        (leNat (memRead s.mem (a + 4 * i.val) 4) + leAt d (4 * i.val) 4) % 2 ^ 32) ∧
      ∀ j, ¬ (a ≤ j ∧ j < a + 32) → memGet t.mem j = memGet s.mem j) := by
  intro a ack
  have ht (need : Need) : s.target h need = .at_ true [a] := target_stack_granule need hr hal hin hlost hl
  refine ⟨rd_granule hp ht, fun d hd hc hclean => ⟨_, wr_granule hp ht hl hd hc, ?_⟩, fun m d hclean hon => ?_, fun m d op hg =>
    ⟨fun hlane => ?_, fun hop => atomAdd_bad hp ht d hop hg⟩, fun d hd _ hg => ⟨_, atomAdd_granule hp ht hl hd hg, ?_⟩⟩
  · refine ⟨rfl, (put_clean hclean a _).1, fun j => (memGet_put_bytes hclean a d j).trans ?_⟩
    rw [hd]
  · have hg : s.isBad a = false := by unfold State.isBad; rw [hclean, hon]; rfl
    obtain ⟨-, hmem⟩ := put_clean hclean a (maskLanes m d)
    refine ⟨_, (wrMask_granule hp ht hl m d).trans (congrArg Host.Outcome.next (if_neg (by simp [hg]))), rfl,
      fun j => (hmem j).trans ?_⟩
    rw [maskLanes_length]
    by_cases hj : a ≤ j ∧ j < a + 32
    · rw [if_pos hj, maskLanes_getD m d (by omega)]
      by_cases hon : (m.toList.getD ((j - a) / 8) 0).getLsbD ((j - a) % 8) = true
      · rw [if_pos hon, if_pos ⟨hj.1, hj.2, hon⟩]
        rfl
      · rw [if_neg hon, if_neg fun hall => hon hall.2.2]
        rfl
    · rw [if_neg hj, if_neg fun hall => hj ⟨hall.1, hall.2.1⟩]
  · obtain ⟨i, hi⟩ := hlane
    have hsome : (maskLanes m d).any Option.isSome = true := by
      refine List.any_eq_true.mpr ⟨some (d.getD i.val 0), List.mem_map.mpr ⟨i.val, List.mem_range.mpr i.isLt, if_pos hi⟩, rfl⟩
    exact (wrMask_granule hp ht hl m d).trans (congrArg Host.Outcome.next (if_pos (by rw [hg, hsome]; rfl)))
  · have hwords := atomicBytes_words s.mem 8 32 a d (by omega) hd
    refine ⟨rfl, fun i => memRead_atomicBytes (by omega) hd i.isLt, fun j hj => ?_⟩
    refine (memGet_memWriteM _ _ _ _).trans (if_neg ?_)
    rw [hwords.1]
    exact hj

end Sys2Proof.Machine
end

section
/-! SUPPORT. Requests of this die that wait for a credit (09 R227, R228, R237, R238). -/
namespace Sys2Proof.Machine
open Sys2Proof

/-! ### Class FIFOs and grants -/

/-- W_c is a multiple of 64 and at least 128 (R238). -/
theorem fifoBytes_multiple (s : State) (c : TClass) (p : Fin 10) : s.fifoBytes c p % 64 = 0 ∧ 128 ≤ s.fifoBytes c p := by
  unfold State.fifoBytes
  omega

/-- The class arbitration picks one of the requests it is given. -/
theorem drrPick_mem {s : State} {heads : List Inj} {fuel : Nat} {d : Drr} {r : Inj × Drr} (h : s.drrPick heads fuel d = some r) :
    r.1 ∈ heads := by
  induction fuel generalizing d with
  | zero => cases h
  | succ fuel ih =>
    unfold State.drrPick at h
    dsimp only at h
    split at h
    · cases h
    · split at h
      · exact ih h
      · next x hx =>
        split at h
        · exact ih h
        · split at h
          · exact ih h
          · cases h
            exact (List.mem_filter.mp (List.mem_of_find?_eq_some hx)).1

/-- Where nothing waits the class arbitration picks nothing. -/
theorem drrPick_nil (s : State) (fuel : Nat) (d : Drr) : s.drrPick [] fuel d = none := by
  cases h : s.drrPick [] fuel d with
  | none => rfl
  | some r => cases drrPick_mem h

/-- The reservation that covers a request (R228). -/
def coveredBy (g : Grants) (x : Inj) : Option (Fin 8) := match x.cls with
  | .swatch i => if x.bytes ≤ g.res[i] then some i else none
  | .mgmt => none

theorem coveredBy_eq_some {g : Grants} {x : Inj} {i : Fin 8} : coveredBy g x = some i ↔ x.cls = .swatch i ∧ x.bytes ≤ g.res[i] := by
  unfold coveredBy
  split
  · next j hj =>
    rw [hj]
    constructor
    · intro h
      split at h
      · next hle => cases h; exact ⟨rfl, hle⟩
      · cases h
    · rintro ⟨h, hle⟩
      cases h
      exact if_pos hle
  · next hm => rw [hm]; constructor <;> simp

theorem grantIn_eq (s : State) (heads : List Inj) (force : Bool) (g : Grants) : s.grantIn heads force g =
    match heads.findSome? fun x => (coveredBy g x).map fun i => (x, i) with
    | some (x, i) => some (x, { g with left := g.left - x.bytes, res := upd g.res i fun n => n - x.bytes })
    | none => (s.drrPick heads 40 g.drr).bind fun r =>
        if r.1.bytes ≤ g.left ∨ force then some (r.1, { g with left := g.left - r.1.bytes, drr := r.2 }) else none := rfl

/-- A grant goes to a head, and to one that a reservation covers where there is one (R228). -/
theorem grantIn_head (s : State) (heads : List Inj) (force : Bool) (g : Grants) (r : Inj × Grants)
    (h : s.grantIn heads force g = some r) :
    let covered (x : Inj) : Prop := ∃ i, x.cls = .swatch i ∧ x.bytes ≤ g.res[i]
    r.1 ∈ heads ∧ ((∃ x ∈ heads, covered x) → covered r.1 ∧ r.2.drr = g.drr ∧
      ∀ i, r.1.cls = .swatch i → r.2.res[i] = g.res[i] - r.1.bytes) := by
  intro covered
  rw [grantIn_eq] at h
  split at h
  · next x i hfind =>
    obtain ⟨y, hy, hcov⟩ := List.exists_of_findSome?_eq_some hfind
    obtain ⟨j, hj, hpair⟩ := Option.map_eq_some_iff.mp hcov
    cases hpair
    cases h
    obtain ⟨hcls, hle⟩ := coveredBy_eq_some.mp hj
    refine ⟨hy, fun _ => ⟨⟨_, hcls, hle⟩, rfl, fun k hk => ?_⟩⟩
    rw [hcls] at hk
    cases hk
    exact upd_get_same ..
  · next hfind =>
    obtain ⟨d, hd, hpick⟩ := Option.bind_eq_some_iff.mp h
    have hmem : d.1 ∈ heads := drrPick_mem hd
    split at hpick
    · cases hpick
      refine ⟨hmem, ?_⟩
      rintro ⟨x, hx, i, hcls, hle⟩
      have hnone := List.findSome?_eq_none_iff.mp hfind x hx
      rw [coveredBy_eq_some.mpr ⟨hcls, hle⟩] at hnone
      cases hnone
    · cases hpick

/-! ### A request for a port that is down -/

/-- With one request at the sources, for a port that is down, no port gives a grant. -/
theorem inject_down {s : State} {x : Inj} (hf : s.gauge.fifo = [x]) (hp : s.portUp x.port = false) : s.inject = s := by
  have hcan : s.canInject x = false := by unfold State.canInject; rw [hp]; rfl
  have hheads : (fifoHeads s.gauge.fifo).filter s.canInject = [] := by
    rw [hf]
    change (([x] : List Inj).filter s.canInject) = []
    rw [List.filter_cons, hcan]
    rfl
  have hnone : s.injectable = [] := by
    unfold State.injectable
    simp only [hheads, List.filter_nil, drrPick_nil, List.append_nil]
  have hgrant : s.nextGrant = none := by
    unfold State.nextGrant
    rw [hnone]
    refine List.findSome?_eq_none_iff.mpr fun p _ => rfl
  unfold State.inject
  rw [hf]
  change State.injectAll s 1 = s
  unfold State.injectAll
  rw [hgrant]

/-- The port of the transaction an access sends is the one it was made for. -/
theorem accTxn_port (p : Fin 10) (tag : Fin 2048) (prio : Fin 4) (wire a : Nat) (op : AccOp) :
    (accTxn p tag prio wire a op).head.port = p := by
  unfold accTxn
  cases op <;> dsimp only
  split <;> rfl

/-- The request of an access issued at a port (R50, R227). -/
def State.requestOf (s : State) (who : Who) (p : Fin 10) (wire addr : Nat) (op : AccOp) (c : TClass) : Inj :=
  let near : Bool := match c with
    | .swatch i => (s.swatches[i]).near
    | .mgmt => false
  ⟨s.nextAccess, who.source, c, false, near, false, accTxn p 0 (s.levelOf c) wire addr op⟩

/-- An access kept until its answer. -/
def State.keepAccess (s : State) (who : Who) (p : Fin 10) (addr : Nat) (op : AccOp) (dest : Dest) (pc : Nat) : State := { s with
  accesses := s.accesses ++ [⟨s.nextAccess, who, .port p, .needle, addr, op, dest, none, pc, true, false⟩]
  nextAccess := s.nextAccess + 1 }

/-- Every request that waits has waited. -/
def State.waitedAll (s : State) : State :=
  { s with gauge := { s.gauge with fifo := s.gauge.fifo.map fun y => { y with late := true } } }

theorem sendAccess_eq (s : State) (who : Who) (p : Fin 10) (wire addr : Nat) (op : AccOp) (dest : Dest) (c : TClass) (pc : Nat) :
    s.sendAccess who p wire addr op dest c pc =
      (((s.keepAccess who p addr op dest pc).enqueue (s.requestOf who p wire addr op c)).inject).waitedAll := by
  cases c <;> rfl

theorem enqueue_empty {s : State} {x : Inj} (hf : s.gauge.fifo = []) (hx : x.control = false) :
    s.enqueue x = { s with gauge := { s.gauge with fifo := [x] } } := by
  unfold State.enqueue
  dsimp only
  rw [hx, hf]
  rfl

/-- An access for a port that is down, with nothing waiting before it: it waits in its class, and nothing is sent (R227). -/
theorem sendAccess_waits (s : State) (who : Who) (p : Fin 10) (wire addr : Nat) (op : AccOp) (dest : Dest) (c : TClass) (pc : Nat)
    (hp : s.portUp p = false) (hf : s.gauge.fifo = []) :
    let t := s.sendAccess who p wire addr op dest c pc
    t.gauge.fifo.map Inj.id = [s.nextAccess] ∧ t.gauge.fifo.map Inj.cls = [c] ∧ t.out = s.out ∧ t.mem = s.mem ∧
    t.accesses.map Access.id = s.accesses.map Access.id ++ [s.nextAccess] := by
  have hkept : (s.keepAccess who p addr op dest pc).gauge.fifo = [] := hf
  have hport : (s.requestOf who p wire addr op c).port = p := accTxn_port ..
  intro t
  have ht : t = State.waitedAll { s.keepAccess who p addr op dest pc with
      gauge := { s.gauge with fifo := [s.requestOf who p wire addr op c] } } := by
    rw [show t = _ from sendAccess_eq .., enqueue_empty hkept rfl, inject_down rfl (by rw [hport]; exact hp)]
    rfl
  rw [ht]
  exact ⟨rfl, rfl, rfl, rfl, List.map_append⟩

/-- Settles O37: what a request meets is worked out once for a STACK port, and each kind of request, of response and of message then
takes its branch; a request of this die waits because no port gives a grant. -/
theorem transactionsServed : Obligations.TransactionsServed := by
  unfold Obligations.TransactionsServed
  exact ⟨down_serves_nothing, stack_refuses, one_granule, register_requests, responses_matched, ply_enters, fifoBytes_multiple,
    grantIn_head, sendAccess_waits⟩

end Sys2Proof.Machine
end

section
/-! SUPPORT. Function resets and D3hot (03 R45 to R47): what the end of a function's grants and the holds of its swatches leave as
they are. -/
namespace Sys2Proof.Machine
open Sys2Proof

/-! ### The end of grants (05 R129) -/

/-- From s to t grants ended and requests of theirs were answered: none was added, a ring with no command in flight and the swatches
stayed as they were. -/
structure Revokes (s t : State) : Prop where
  grants   : ∀ g ∈ t.grants, g ∈ s.grants
  sqs      : ∀ i : Fin 16, s.sqs[i].inflight = 0 → t.sqs[i] = s.sqs[i]
  rings    : RingsKept s t
  swatches : t.swatches = s.swatches

theorem Revokes.refl (s : State) : Revokes s s := ⟨fun _ h => h, fun _ _ => rfl, .refl s, rfl⟩

theorem Revokes.trans {s t u : State} (h : Revokes s t) (k : Revokes t u) : Revokes s u where
  grants g hg := h.grants g (k.grants g hg)
  sqs i hi := by
    have ht := h.sqs i hi
    exact (k.sqs i (by rw [ht]; exact hi)).trans ht
  rings := h.rings.trans k.rings
  swatches := k.swatches.trans h.swatches

theorem Revokes.foldl {α : Type} {s : State} {g : State → α → State} (l : List α) (hg : ∀ s x, Revokes s (g s x)) :
    Revokes s (l.foldl g s) := by
  induction l generalizing s with
  | nil => exact .refl s
  | cons x l ih => exact (hg s x).trans ih

theorem Posts.revokes {s t : State} (h : Posts s t) : Revokes s t :=
  ⟨fun g hg => by rw [h.grants] at hg; exact hg, fun i _ => by rw [h.sqs], h.rings, h.swatches⟩

/-- From s to t neither the rings, the functions, the swatches nor the grants changed. -/
structure RecordsKept (s t : State) : Prop where
  sqs      : t.sqs = s.sqs
  cqs      : t.cqs = s.cqs
  fns      : t.fns = s.fns
  swatches : t.swatches = s.swatches
  grants   : t.grants = s.grants

theorem RecordsKept.revokes {s t : State} (h : RecordsKept s t) : Revokes s t where
  grants g hg := h.grants ▸ hg
  sqs i _ := by rw [h.sqs]
  rings := .of_eq h.cqs h.fns
  swatches := h.swatches

/-- A register's stored value lies in none of them. -/
theorem blkPoke_records (s : State) (b : Blk) (off : Nat) (w : Word) : RecordsKept s (s.blkPoke b off w) := by
  have same : RecordsKept s s := ⟨rfl, rfl, rfl, rfl, rfl⟩
  have ite {c : Prop} [Decidable c] {t u : State} (ht : RecordsKept s t) (hu : RecordsKept s u) : RecordsKept s (if c then t else u) := by
    split <;> assumption
  cases b with
  | bob =>
    refine ite ?_ (ite ?_ (ite ?_ (ite ?_ (ite ?_ (ite ?_ (ite ?_ same))))))
    all_goals exact ⟨rfl, rfl, rfl, rfl, rfl⟩
  | chnOut =>
    have chain (f : Chain → Chain) : RecordsKept s (s.modChain f) := ⟨rfl, rfl, rfl, rfl, rfl⟩
    exact ite (chain _) (ite (chain _) same)
  | mesh k | ndl n | edge p => exact ite ⟨rfl, rfl, rfl, rfl, rfl⟩ (ite ⟨rfl, rfl, rfl, rfl, rfl⟩ same)
  | edgeCard p => exact ite same ⟨rfl, rfl, rfl, rfl, rfl⟩
  | stk b => exact ite ⟨rfl, rfl, rfl, rfl, rfl⟩ same
  | pin => exact ite ⟨rfl, rfl, rfl, rfl, rfl⟩ same
  | dst d => exact ite ⟨rfl, rfl, rfl, rfl, rfl⟩ (ite ⟨rfl, rfl, rfl, rfl, rfl⟩ (ite ⟨rfl, rfl, rfl, rfl, rfl⟩ same))
  | _ => exact ⟨rfl, rfl, rfl, rfl, rfl⟩

theorem pokeAt_records (s : State) (a : Nat) (w : Word) : RecordsKept s (s.pokeAt a w) := by
  unfold State.pokeAt
  split
  · exact blkPoke_records s _ _ w
  · exact ⟨rfl, rfl, rfl, rfl, rfl⟩

theorem stopExpert_records (s : State) (cls inst : Nat) : RecordsKept s (s.stopExpert cls inst) := by
  unfold State.stopExpert
  split
  · exact ⟨rfl, rfl, rfl, rfl, rfl⟩
  · split <;> exact ⟨rfl, rfl, rfl, rfl, rfl⟩

/-- An answer of a command: its ring's count falls, where a command was in flight, and its entry goes out. -/
theorem finish_revokes (s : State) (r : CmdRef) (e : CEntry) : Revokes s (s.finish r e) := by
  have counted (t : State) : Revokes t (t.modSq r.sq fun q => { q with inflight := q.inflight - 1 }) := by
    refine ⟨fun _ h => h, fun i hi => ?_, .of_eq rfl rfl, rfl⟩
    rw [modSq_sqs, upd_get]
    split
    · next e =>
      subst e
      rw [hi]
      exact congrArg (fun n => { t.sqs[r.sq] with inflight := n }) hi.symm
    · rfl
  have forgotten : Revokes s { s with jobs := s.jobs.eraseP fun j => decide (j.1 = r) } :=
    RecordsKept.revokes ⟨rfl, rfl, rfl, rfl, rfl⟩
  refine forgotten.trans ?_
  unfold State.finish
  dsimp only
  split
  · exact (relayMsg_sends _ _ _).posts.revokes
  · split
    · exact .refl _
    · exact (counted _).trans (post_posts _ _ _).revokes

/-- s with a grant taken from the list. -/
def State.dropGrant (s : State) (g : Grant) : State := { s with grants := s.grants.filter fun x => decide (x ≠ g) }

theorem endGrant_dropped (s : State) (g : Grant) (reason : Option Nat) : Revokes (s.dropGrant g) (s.endGrant g reason) := by
  unfold State.endGrant
  dsimp only
  split
  · exact .refl _
  · refine (stopExpert_records (s.dropGrant g) (blockCls g.block) (blockInst g.block)).revokes.trans
      ((Revokes.foldl g.saved fun t x => (pokeAt_records t x.1 x.2).revokes).trans ?_)
    split
    · exact (event_posts _ _ _ _ _).revokes
    · exact .refl _

/-- A grant ended is not one any more. -/
theorem endGrant_revokes (s : State) (g : Grant) (reason : Option Nat) :
    Revokes s (s.endGrant g reason) ∧ g ∉ (s.endGrant g reason).grants := by
  have hafter := endGrant_dropped s g reason
  have hless : Revokes s (s.dropGrant g) := ⟨fun x hx => (List.mem_filter.mp hx).1, fun _ _ => rfl, .of_eq rfl rfl, rfl⟩
  exact ⟨hless.trans hafter, fun hg => of_decide_eq_true (List.mem_filter.mp (hafter.grants g hg)).2 rfl⟩

/-- One grant ended and, if its request still waited, that answered. -/
def State.abortGrant (s : State) (g : Grant) (reason : Option Nat) : State :=
  match g.waiting with
  | some r => (s.endGrant g reason).reply r stAborted
  | none => s.endGrant g reason

theorem abortGrant_revokes (s : State) (g : Grant) (reason : Option Nat) :
    Revokes s (s.abortGrant g reason) ∧ g ∉ (s.abortGrant g reason).grants := by
  obtain ⟨hrevokes, hgone⟩ := endGrant_revokes s g reason
  unfold State.abortGrant
  split
  · next r _ =>
    have hreply : Revokes (s.endGrant g reason) ((s.endGrant g reason).reply r stAborted) := finish_revokes _ _ _
    exact ⟨hrevokes.trans hreply, fun hg => hgone (hreply.grants g hg)⟩
  · exact ⟨hrevokes, hgone⟩

/-- Every grant that meets the condition is gone, and no other was added. -/
theorem endGrants_revokes (s : State) (sel : Grant → Bool) (reason : Option Nat) :
    Revokes s (s.endGrants sel reason) ∧ ∀ g ∈ (s.endGrants sel reason).grants, sel g = false := by
  have folded (l : List Grant) (t : State) : Revokes t (l.foldl (fun t g => t.abortGrant g reason) t) ∧
      ∀ g ∈ l, g ∉ (l.foldl (fun t g => t.abortGrant g reason) t).grants := by
    induction l generalizing t with
    | nil => exact ⟨.refl t, fun g hg => by cases hg⟩
    | cons x l ih =>
      obtain ⟨hx, hgone⟩ := abortGrant_revokes t x reason
      obtain ⟨hl, hrest⟩ := ih (t.abortGrant x reason)
      refine ⟨hx.trans hl, fun g hg => ?_⟩
      rcases List.mem_cons.mp hg with rfl | hg
      · exact fun h => hgone (hl.grants g h)
      · exact hrest g hg
  have hends : s.endGrants sel reason = (s.grants.filter sel).foldl (fun t g => t.abortGrant g reason) s := rfl
  obtain ⟨hrevokes, hgone⟩ := folded (s.grants.filter sel) s
  rw [← hends] at hrevokes hgone
  refine ⟨hrevokes, fun g hg => Bool.eq_false_iff.mpr fun hsel => ?_⟩
  exact hgone g (List.mem_filter.mpr ⟨hrevokes.grants g hg, hsel⟩) hg

/-! ### Holds (R195) and stopped bobbins (R421) -/

/-- From s to t swatches were held: the rings, the grants and the bobbins stayed as they were. -/
structure Holding (s t : State) : Prop where
  sqs     : t.sqs = s.sqs
  grants  : t.grants = s.grants
  bobbins : t.bobbins = s.bobbins
  rings   : RingsKept s t

theorem Holding.refl (s : State) : Holding s s := ⟨rfl, rfl, rfl, .refl s⟩
theorem Holding.trans {s t u : State} (h : Holding s t) (k : Holding t u) : Holding s u :=
  ⟨k.sqs.trans h.sqs, k.grants.trans h.grants, k.bobbins.trans h.bobbins, h.rings.trans k.rings⟩
theorem Posts.holding {s t : State} (h : Posts s t) : Holding s t := ⟨h.sqs, h.grants, h.bobbins, h.rings⟩

theorem modSw_holding (s : State) (i : Fin 8) (f : Swatch → Swatch) : Holding s (s.modSw i f) := ⟨rfl, rfl, rfl, .of_eq rfl rfl⟩

theorem noteFinish_holding (s : State) (i : Fin 8) : Holding s (s.noteFinish i) := by
  unfold State.noteFinish
  dsimp only
  split
  · exact ⟨rfl, rfl, rfl, .of_eq rfl rfl⟩
  · exact .refl s

theorem abandonRow_holding (s : State) (i : Fin 8) : Holding s (s.abandonRow i) := by
  have chans (t : State) : Holding t (t.resetChans i) := by
    unfold State.resetChans; exact ⟨rfl, rfl, rfl, .of_eq rfl rfl⟩
  have needles (t : State) (f : Needle → Needle) : Holding t (t.modNeedlesOf i f) := by
    unfold State.modNeedlesOf; exact ⟨rfl, rfl, rfl, .of_eq rfl rfl⟩
  have skeins (t : State) (f : Skein → Skein) : Holding t (t.modSkeinsOf i f) := by
    unfold State.modSkeinsOf; exact ⟨rfl, rfl, rfl, .of_eq rfl rfl⟩
  have cores (t : State) (f : Distaff → Distaff) : Holding t (t.modCoresOf i f) := by
    unfold State.modCoresOf; exact ⟨rfl, rfl, rfl, .of_eq rfl rfl⟩
  have drained (l : List Access) : Holding s { s with accesses := l } := ⟨rfl, rfl, rfl, .of_eq rfl rfl⟩
  unfold State.abandonRow State.frogAll
  dsimp only
  refine Holding.trans ?_ (cores _ _)
  refine Holding.trans ?_ (modSw_holding _ i _)
  refine Holding.trans ?_ (skeins _ _)
  refine Holding.trans ?_ (needles _ _)
  exact Holding.trans (drained _) (chans _)

/-- What the abandoned row of a swatch leaves of another. -/
theorem abandonRow_swatches (s : State) {i j : Fin 8} (h : i ≠ j) : (s.abandonRow i).swatches[j] = s.swatches[j] :=
  upd_get_ne s.swatches h _

theorem noteFinish_swatches (s : State) {i j : Fin 8} (h : i ≠ j) : (s.noteFinish i).swatches[j] = s.swatches[j] := by
  unfold State.noteFinish
  dsimp only
  split
  · exact upd_get_ne s.swatches h _
  · rfl

/-- The row of a hard swatch that knits abandoned, before its hold. -/
def State.quitRow (s : State) (i : Fin 8) : State :=
  if s.swatches[i].cls = .hard ∧ s.swatches[i].st = .knitting then (s.noteFinish i).abandonRow i else s

theorem quitRow_holding (s : State) (i : Fin 8) : Holding s (s.quitRow i) := by
  unfold State.quitRow
  split
  · exact (noteFinish_holding s i).trans (abandonRow_holding _ i)
  · exact .refl s

theorem quitRow_swatches (s : State) {i j : Fin 8} (h : i ≠ j) : (s.quitRow i).swatches[j] = s.swatches[j] := by
  unfold State.quitRow
  split
  · exact (abandonRow_swatches _ h).trans (noteFinish_swatches s h)
  · rfl

/-- A swatch that a hold cause reaches first. -/
def State.becomeHeld (s : State) (i : Fin 8) (cause : Nat) : State :=
  let t := (s.quitRow i).modSw i fun w => { w with
    st := .held, causes := [BitVec.ofNat 8 cause], holdStep := .quiesce, pubDepth := 0 }
  if cause = 0 then t else t.event 0x02 i.val cause

/-- Whether a hold cause makes a swatch Held. -/
def Swatch.live (w : Swatch) : Prop := w.st = .cast ∨ w.st = .knitting ∨ w.st = .frogged

theorem hold_of_live {s : State} {i : Fin 8} (h : s.swatches[i].live) (cause : Nat) : s.hold i cause = s.becomeHeld i cause := by
  unfold State.hold
  dsimp only
  unfold Swatch.live at h
  split
  · next e => rw [e] at h; simp at h
  · rfl
  · rfl
  · rfl
  · next hcast hknit hfrog => rcases h with h | h | h <;> contradiction

theorem hold_of_held {s : State} {i : Fin 8} (h : s.swatches[i].st = .held) (cause : Nat) : s.hold i cause = s.modSw i fun w =>
    { w with causes := if w.causes.contains (BitVec.ofNat 8 cause) then w.causes else w.causes ++ [BitVec.ofNat 8 cause] } := by
  unfold State.hold
  dsimp only
  rw [h]

theorem becomeHeld_holding (s : State) (i : Fin 8) (cause : Nat) : Holding s (s.becomeHeld i cause) := by
  refine (quitRow_holding s i).trans ((modSw_holding _ i fun w => { w with
    st := .held, causes := [BitVec.ofNat 8 cause], holdStep := .quiesce, pubDepth := 0 }).trans ?_)
  unfold State.becomeHeld
  dsimp only
  split
  · exact .refl _
  · exact (event_posts _ _ _ _ _).holding

/-- The swatches after a hold of one that is live: it is Held, the others are as they were. -/
theorem becomeHeld_swatches (s : State) (i : Fin 8) (cause : Nat) : (s.becomeHeld i cause).swatches[i].st = .held ∧
    ∀ j : Fin 8, i ≠ j → (s.becomeHeld i cause).swatches[j] = s.swatches[j] := by
  have hsw : (s.becomeHeld i cause).swatches = upd (s.quitRow i).swatches i fun w => { w with
      st := .held, causes := [BitVec.ofNat 8 cause], holdStep := .quiesce, pubDepth := 0 } := by
    unfold State.becomeHeld
    dsimp only
    split
    · rfl
    · exact (event_posts _ _ _ _ _).swatches
  rw [hsw]
  refine ⟨by rw [upd_get, if_pos rfl], fun j h => ?_⟩
  rw [upd_get_ne _ h, quitRow_swatches s h]

/-- What a hold is: nothing for a swatch that is not cast, a further cause for one that is Held. -/
theorem hold_cases (s : State) (i : Fin 8) (cause : Nat) : s.hold i cause = s ∧ s.swatches[i].st ≠ .held ∧ ¬ s.swatches[i].live ∨
    (∃ f : Swatch → Swatch, s.hold i cause = s.modSw i f ∧ s.swatches[i].st = .held ∧ ∀ w, (f w).st = w.st) ∨
    s.hold i cause = s.becomeHeld i cause ∧ s.swatches[i].live := by
  by_cases hl : s.swatches[i].live
  · exact .inr (.inr ⟨hold_of_live hl cause, hl⟩)
  · by_cases hh : s.swatches[i].st = .held
    · exact .inr (.inl ⟨_, hold_of_held hh cause, hh, fun _ => rfl⟩)
    · refine .inl ⟨?_, hh, hl⟩
      unfold State.hold
      dsimp only
      unfold Swatch.live at hl
      simp only [not_or] at hl
      obtain ⟨hcast, hknit, hfrog⟩ := hl
      split
      · next e => exact (hh e).elim
      · next e => exact (hcast e).elim
      · next e => exact (hknit e).elim
      · next e => exact (hfrog e).elim
      · rfl

theorem hold_holding (s : State) (i : Fin 8) (cause : Nat) : Holding s (s.hold i cause) := by
  rcases hold_cases s i cause with ⟨h, -⟩ | ⟨f, h, -⟩ | ⟨h, -⟩ <;> rw [h]
  · exact .refl s
  · exact modSw_holding s i f
  · exact becomeHeld_holding s i cause

/-- A hold of a swatch that is live or Held leaves it Held, and every other as it was. -/
theorem hold_swatches (s : State) (i : Fin 8) (cause : Nat) :
    (s.swatches[i].live ∨ s.swatches[i].st = .held → (s.hold i cause).swatches[i].st = .held) ∧
    ∀ j : Fin 8, i ≠ j → (s.hold i cause).swatches[j] = s.swatches[j] := by
  rcases hold_cases s i cause with ⟨h, hheld, hlive⟩ | ⟨f, h, hheld, hst⟩ | ⟨h, -⟩ <;> rw [h]
  · exact ⟨fun hor => (hor.elim hlive hheld).elim, fun _ _ => rfl⟩
  · refine ⟨fun _ => ?_, fun j hij => upd_get_ne s.swatches hij f⟩
    rw [modSw_swatches, upd_get, if_pos rfl, hst, hheld]
  · obtain ⟨hnow, hother⟩ := becomeHeld_swatches s i cause
    exact ⟨fun _ => hnow, hother⟩

theorem holdAll_holding (s : State) (sel : Swatch → Bool) (cause : Nat) : Holding s (s.holdAll sel cause) := by
  have folded (l : List (Fin 8)) (t : State) :
      Holding t (l.foldl (fun t i => if sel t.swatches[i] then t.hold i cause else t) t) := by
    induction l generalizing t with
    | nil => exact .refl t
    | cons x l ih =>
      refine Holding.trans ?_ (ih _)
      dsimp only
      split
      · exact hold_holding t x cause
      · exact .refl t
  exact folded (allFin 8) s

/-- Every live swatch that meets the condition is Held after. -/
theorem holdAll_held {s : State} {sel : Swatch → Bool} (cause : Nat) {i : Fin 8} (hlive : s.swatches[i].live)
    (hsel : sel s.swatches[i] = true) : (s.holdAll sel cause).swatches[i].st = .held := by
  have folded (l : List (Fin 8)) (t : State)
      (h : t.swatches[i].st = .held ∨ i ∈ l ∧ t.swatches[i].live ∧ sel t.swatches[i] = true) :
      (l.foldl (fun t i => if sel t.swatches[i] then t.hold i cause else t) t).swatches[i].st = .held := by
    induction l generalizing t with
    | nil => exact h.resolve_right fun hr => by cases hr.1
    | cons x l ih =>
      obtain ⟨hheld, hother⟩ := hold_swatches t x cause
      refine ih _ ?_
      dsimp only
      by_cases hx : x = i
      · subst hx
        left
        rcases h with h | ⟨-, hl, hs⟩
        · split
          · exact hheld (.inr h)
          · exact h
        · rw [if_pos hs]
          exact hheld (.inl hl)
      · have hsame : (if sel t.swatches[x] then t.hold x cause else t).swatches[i] = t.swatches[i] := by
          split
          · exact hother i hx
          · rfl
        rw [hsame]
        exact h.imp_right fun ⟨hm, hr⟩ => ⟨(List.mem_cons.mp hm).resolve_left (Ne.symm hx), hr⟩
  exact folded (allFin 8) s (.inr ⟨List.mem_finRange i, hlive, hsel⟩)

end Sys2Proof.Machine
end

section
/-! SUPPORT. The host side (03 R44 to R47; 14 R387, R388; 04 R85): resets, D3hot, MSI-X, BAR4 and Shuskaub's link. -/
namespace Sys2Proof.Machine
open Sys2Proof

/-! ### Resets of a function (R46) -/

/-- The rings, the windows and the table of a function at their reset values. -/
def State.resetRings (s : State) (f : Fin 2) : State :=
  State.modFn { s with
    sqs := mapV s.sqs fun i q => if s.ringFn i = f ∧ !q.distaffOwned then { Sq.reset with epoch := q.epoch + 1 } else q
    cqs := mapV s.cqs fun i c => if s.ringFn i = f ∧ !c.distaffOwned then Cq.reset else c } f fun h => { h with
      bar2Window := 0, bar4Base := 0, msix := HostFn.reset.msix, pba := 0, resetting := true, d3hot := false, events := [] }

/-- The grants of a function revoked, and the other function told of the blocks it waits for. -/
def State.revokeGrants (s : State) (f : Fin 2) : State :=
  (s.awaitedOf f).foldl (fun s x => s.eventTo x.2
    ⟨0x0C, BitVec.ofNat 8 (x.1.toNat % 256), BitVec.ofNat 8 stHostReset, 1, 0, s.tick.count, false⟩)
    (s.endGrants (fun g => decide (g.holder = .host f)) none)

/-- Every swatch with a host window held. -/
def State.holdWindows (s : State) : State := s.holdAll (fun w => w.isCast && w.hostWindow) stHostReset

theorem resetFunction_eq {s : State} {f : Fin 2} (h : s.fnExists f = true) :
    resetFunction f s = (((s.resetRings f).revokeGrants f).holdWindows).stopHostBobbins := if_neg (by simp [h])

theorem revokeGrants_revokes (s : State) (f : Fin 2) :
    Revokes s (s.revokeGrants f) ∧ ∀ g ∈ (s.revokeGrants f).grants, g.holder ≠ .host f := by
  obtain ⟨hends, hgone⟩ := endGrants_revokes s (fun g => decide (g.holder = .host f)) none
  have htold : Revokes (s.endGrants (fun g => decide (g.holder = .host f)) none) (s.revokeGrants f) :=
    .foldl _ fun t x => (eventTo_posts t _ _).revokes
  exact ⟨hends.trans htold, fun g hg => of_decide_eq_false (hgone g (htold.grants g hg))⟩

/-- The rings of a function in its reset. -/
theorem resetRings_rings (s : State) {f : Fin 2} {i : Fin 16} (hi : s.ringFn i = f) :
    (s.sqs[i].distaffOwned = false → (s.resetRings f).sqs[i] = { Sq.reset with epoch := s.sqs[i].epoch + 1 }) ∧
    (s.cqs[i].distaffOwned = false → (s.resetRings f).cqs[i] = Cq.reset) := by
  constructor
  · intro h
    refine (mapV_get s.sqs _ i).trans (if_pos ⟨hi, ?_⟩)
    exact congrArg not h
  · intro h
    refine (mapV_get s.cqs _ i).trans (if_pos ⟨hi, ?_⟩)
    exact congrArg not h

theorem live_isCast {w : Swatch} (h : w.live) : w.isCast = true := by
  unfold Swatch.isCast
  rcases h with h | h | h <;> rw [h] <;> rfl

/-- A live swatch with a host window is Held after the hold of those. -/
theorem holdWindows_held {s : State} {i : Fin 8} (hl : s.swatches[i].live) (hw : s.swatches[i].hostWindow = true) :
    s.holdWindows.swatches[i].st = .held :=
  holdAll_held stHostReset hl (by rw [live_isCast hl, hw]; rfl)

theorem stopHostBobbins_records (s : State) : RecordsKept s s.stopHostBobbins := by
  unfold State.stopHostBobbins
  exact ⟨rfl, rfl, rfl, rfl, rfl⟩

theorem stopHostBobbins_bobbins (s : State) (b : Fin 48) : s.stopHostBobbins.bobbins[b] =
    if s.bobbins[b].bound ∧ s.bobbins[b].source = 3 then s.bobbins[b].stop else s.bobbins[b] := mapV_get s.bobbins _ b

/-- What a reset leaves: the rings and windows reset, no grant, the swatches of the host window Held. -/
theorem functionReset_resets (s : State) (f : Fin 2) (hf : s.fnExists f = true) : ∃ t, exec (.functionLevelReset f) s = .next t ∧
    (∀ i : Fin 16, s.ringFn i = f → (s.sqs[i].distaffOwned = false →
        t.sqs[i] = { Sq.reset with epoch := s.sqs[i].epoch + 1 }) ∧ (s.cqs[i].distaffOwned = false → t.cqs[i] = Cq.reset)) ∧
    t.fns[f].resetting = true ∧ t.fns[f].bar2Window = 0 ∧ t.fns[f].bar4Base = 0 ∧ t.fns[f].d3hot = false ∧
    t.fns[f].msix = HostFn.reset.msix ∧ t.fns[f].events = [] ∧
    (∀ g ∈ t.grants, g.holder ≠ .host f) ∧
    ∀ i : Fin 8, (s.swatches[i].st = .cast ∨ s.swatches[i].st = .knitting ∨ s.swatches[i].st = .frogged) →
      s.swatches[i].hostWindow = true → t.swatches[i].st = .held := by
  refine ⟨_, congrArg Host.Outcome.next (resetFunction_eq hf), ?_⟩
  obtain ⟨hrevokes, hgone⟩ := revokeGrants_revokes (s.resetRings f) f
  have hholds : Holding ((s.resetRings f).revokeGrants f) ((s.resetRings f).revokeGrants f).holdWindows := holdAll_holding _ _ _
  have hstop := stopHostBobbins_records ((s.resetRings f).revokeGrants f).holdWindows
  have hrings := (hrevokes.rings.trans hholds.rings).trans (.of_eq hstop.cqs hstop.fns)
  have hfn : (s.resetRings f).fns[f] = { s.fns[f] with
      bar2Window := 0, bar4Base := 0, msix := HostFn.reset.msix, pba := 0, resetting := true, d3hot := false, events := [] } := by
    unfold State.resetRings
    rw [modFn_fns, upd_get, if_pos rfl]
  have hkept := hrings.resetting f (by rw [hfn])
  rw [hfn] at hkept
  refine ⟨fun i hi => ⟨fun h => ?_, fun h => ?_⟩, ?_, ?_, ?_, ?_, ?_, ?_, fun g hg => ?_, fun i hl hw => ?_⟩
  · have hreset := (resetRings_rings s hi).1 h
    have hidle := hrevokes.sqs i (by rw [hreset]; rfl)
    rw [hstop.sqs, hholds.sqs, hidle, hreset]
  · exact hrings.idle i ((resetRings_rings s hi).2 h)
  · rw [hkept]
  · rw [hkept]
  · rw [hkept]
  · rw [hkept]
  · rw [hkept]
  · rw [hkept]
  · rw [hstop.grants, hholds.grants] at hg
    exact hgone g hg
  · rw [hstop.swatches]
    refine holdWindows_held ?_ ?_ <;> rw [hrevokes.swatches]
    · exact hl
    · exact hw

/-! ### D3hot and D0 (R47) -/

/-- A bobbin stopped goes the way of a disable. -/
theorem stop_fsm (b : Bobbin) : b.stop.fsm = b.fsm.disable := by
  have lose (b : Bobbin) : b.lose.fsm = b.fsm := by
    unfold Bobbin.lose
    split
    · split <;> rfl
    · rfl
  unfold Bobbin.stop
  dsimp only
  split
  · rfl
  · exact lose _

/-- D3hot entry: the function sleeps, and where host traffic goes through it the swatches are held and the bobbins stop. -/
theorem d3hotEntry_enters (s : State) (f : Fin 2) (hf : s.fnExists f = true) (hd : s.fns[f].d3hot = false) :
    ∃ t, exec (.d3hotEntry f) s = .next t ∧
      t.fns[f].d3hot = true ∧ t.grants = s.grants ∧ (∀ i : Fin 16, t.sqs[i] = s.sqs[i]) ∧
      (s.hostPath ≠ s.fnPort f → t = s.modFn f fun h => { h with d3hot := true }) ∧
      (s.hostPath = s.fnPort f → (∀ i : Fin 8,
          (s.swatches[i].st = .cast ∨ s.swatches[i].st = .knitting ∨ s.swatches[i].st = .frogged) →
          s.swatches[i].hostWindow = true → t.swatches[i].st = .held) ∧
        ∀ b : Fin 48, s.bobbins[b].bound = true → s.bobbins[b].source = 3 → s.bobbins[b].fsm.st = .on →
          t.bobbins[b].fsm.st = .falling) := by
  have hasleep : (s.modFn f fun h => { h with d3hot := true }).fns[f].d3hot = true := by rw [modFn_fns, upd_get, if_pos rfl]
  have henters : exec (.d3hotEntry f) s = .next (if s.hostPath = s.fnPort f then
      ((s.modFn f fun h => { h with d3hot := true }).holdWindows).stopHostBobbins else s.modFn f fun h => { h with d3hot := true }) := by
    refine congrArg Host.Outcome.next ((if_neg (by simp only [hf, hd]; decide)).trans ?_)
    dsimp only
    by_cases hp : s.hostPath = s.fnPort f
    · rw [if_pos hp]; exact if_pos (decide_eq_true hp)
    · rw [if_neg hp]; exact if_neg (by rw [decide_eq_true_iff]; exact hp)
  refine ⟨_, henters, ?_⟩
  by_cases hp : s.hostPath = s.fnPort f
  · rw [if_pos hp]
    have hholds : Holding (s.modFn f fun h => { h with d3hot := true }) (s.modFn f fun h => { h with d3hot := true }).holdWindows :=
      holdAll_holding _ _ _
    have hstop := stopHostBobbins_records (s.modFn f fun h => { h with d3hot := true }).holdWindows
    refine ⟨?_, hstop.grants.trans hholds.grants, fun i => ?_, fun hn => absurd hp hn,
      fun _ => ⟨fun i hl hw => ?_, fun b hb hsrc hon => ?_⟩⟩
    · rw [hstop.fns]
      exact (hholds.rings.d3hot f).trans hasleep
    · rw [hstop.sqs, hholds.sqs]
      rfl
    · rw [hstop.swatches]
      exact holdWindows_held hl hw
    rw [stopHostBobbins_bobbins, hholds.bobbins]
    change (if s.bobbins[b].bound ∧ s.bobbins[b].source = 3 then s.bobbins[b].stop else s.bobbins[b]).fsm.st = .falling
    rw [if_pos ⟨hb, hsrc⟩, stop_fsm]
    simp only [EnFsm.disable, hon]
  · rw [if_neg hp]
    exact ⟨hasleep, rfl, fun _ => rfl, fun _ => rfl, fun h => absurd h hp⟩

/-- With nothing held and no event queued nothing is posted. -/
theorem flushFn_empty {s : State} {f : Fin 2} (he : s.fns[f].events = []) (hc : ∀ j : Fin 16, s.ringFn j = f → s.cqs[j].held = []) :
    s.flushFn f = s := by
  have hheld (j : Fin 16) : (if s.ringFn j = f then s.flushHeld j s.cqs[j].held.length else s) = s := by
    split
    · next hj => rw [hc j hj]; rfl
    · rfl
  unfold State.flushFn
  rw [List.foldl_fixed' hheld]
  dsimp only
  rw [he]
  rfl

/-- With no bit pending nothing is signalled. -/
theorem signalPending_none {s : State} {f : Fin 2} (hp : s.fns[f].pba = 0) : s.signalPending f = s := by
  unfold State.signalPending
  refine List.foldl_fixed' (fun v => if_neg ?_) _
  rw [hp, show BitVec.getLsbD (0 : BitVec 64) v.val = false from BitVec.getLsbD_zero, Bool.and_false, Bool.false_and, Bool.false_and]
  exact Bool.false_ne_true

/-- A return to D0 with nothing that waits (R47). -/
theorem d0Return_quiet (s : State) (f : Fin 2) (hd : s.fns[f].d3hot = true) (hp : s.fns[f].pba = 0) (he : s.fns[f].events = [])
    (hc : ∀ j : Fin 16, s.ringFn j = f → s.cqs[j].held = []) :
    exec (.d0Return f) s = .next (s.modFn f fun h => { h with d3hot := false }) := by
  have hfn : (s.modFn f fun h => { h with d3hot := false }).fns[f] = { s.fns[f] with d3hot := false } := by
    rw [modFn_fns, upd_get, if_pos rfl]
  have quiet {u : State} (he : u.fns[f].events = []) (hc : ∀ j : Fin 16, u.ringFn j = f → u.cqs[j].held = [])
      (hp : u.fns[f].pba = 0) : (u.flushFn f).signalPending f = u := by rw [flushFn_empty he hc, signalPending_none hp]
  refine congrArg Host.Outcome.next ((if_pos hd).trans (quiet ?_ hc ?_))
  · rw [hfn]; exact he
  · rw [hfn]; exact hp

/-- The requests that a function does not answer, and those for the state it is in. -/
theorem function_unmoved (s : State) (f : Fin 2) :
    (s.fnExists f = false → exec (.functionLevelReset f) s = .next s ∧ exec (.d3hotEntry f) s = .next s) ∧
    (s.fns[f].d3hot = true → exec (.d3hotEntry f) s = .next s) ∧ (s.fns[f].d3hot = false → exec (.d0Return f) s = .next s) := by
  have absent (h : s.fnExists f = false) : (!s.fnExists f) = true := by rw [h]; rfl
  have awake (h : s.fns[f].d3hot = false) : ¬ s.fns[f].d3hot = true := by rw [h]; exact Bool.false_ne_true
  exact ⟨fun h => ⟨congrArg Host.Outcome.next (if_pos (absent h)), congrArg Host.Outcome.next (if_pos (.inl (absent h)))⟩,
    fun h => congrArg Host.Outcome.next (if_pos (.inr h)), fun h => congrArg Host.Outcome.next (if_neg (awake h))⟩

/-- HOST_LINK_DOWN (R46). -/
theorem hostLinkDown_resets (s : State) (f : Fin 2) (p : Fin 10) :
    (s.portFn p = some f → s.fuses.ports[p].role = .host → exec (.hostLinkDown p) s = exec (.functionLevelReset f) s) ∧
    (s.fuses.ports[p].role ≠ .host → exec (.hostLinkDown p) s = .next s) := by
  constructor
  · intro hp hr
    change execHostLinkDown p s = _
    unfold execHostLinkDown
    rw [hp]
    exact congrArg Host.Outcome.next (if_pos hr)
  · intro hr
    change execHostLinkDown p s = _
    unfold execHostLinkDown
    split
    · exact congrArg Host.Outcome.next (if_neg hr)
    · rfl

/-- MSIX_UNMASK (R45, R73). -/
theorem msixUnmask_signals (s : State) (f : Fin 2) (v : Fin 64) (hf : s.fnExists f = true) (hd : s.fns[f].d3hot = false) :
    let h : HostFn := { s.fns[f] with msix := s.fns[f].msix.set v { s.fns[f].msix[v] with mask := false } }
    (s.fns[f].pba.getLsbD v.val = false ∨ s.selv.ready = false →
      exec (.msixUnmask f v) s = .next (({ s with fns := s.fns.set f h } : State))) ∧
    (s.fns[f].pba.getLsbD v.val = true → s.selv.ready = true → exec (.msixUnmask f v) s = .next (({ s with
      fns := s.fns.set f { h with pba := clrBit s.fns[f].pba v.val }, out := s.out ++ [.msix f v] } : State))) := by
  intro h
  have hopen : s.modFn f (fun x => { x with msix := upd x.msix v fun m => { m with mask := false } }) =
      { s with fns := s.fns.set f h } := rfl
  have hpba : ({ s with fns := s.fns.set f h } : State).fns[f] = h := by simp
  have hexec : exec (.msixUnmask f v) s = .next (if (s.selv.ready && s.fns[f].pba.getLsbD v.val) = true then
      (State.modFn { s with fns := s.fns.set f h } f fun x => { x with pba := clrBit x.pba v.val }).emit (.msix f v)
      else { s with fns := s.fns.set f h }) := by
    change Host.Outcome.next (unmaskVector f v s) = _
    unfold unmaskVector
    rw [if_neg (by rw [hf, hd]; decide)]
    dsimp only
    rw [hopen, hpba]
  rw [hexec]
  constructor
  · intro hno
    refine congrArg Host.Outcome.next (if_neg ?_)
    rcases hno with hno | hno <;> rw [hno] <;> simp only [Bool.and_false, Bool.false_and, Bool.false_eq_true, not_false_eq_true]
  · intro hp hready
    have hclear : State.modFn { s with fns := s.fns.set f h } f (fun x => { x with pba := clrBit x.pba v.val }) =
        { s with fns := s.fns.set f { h with pba := clrBit s.fns[f].pba v.val } } := by
      unfold State.modFn upd
      rw [hpba]
      simp only [Vector.set_set]
      rfl
    rw [if_pos (by rw [hp, hready]; rfl), hclear]
    rfl

end Sys2Proof.Machine
end

section
/-! SUPPORT. BAR4 (03 R44; 14 R387) and Shuskaub's link (03 R46, 04 R85). -/
namespace Sys2Proof.Machine
open Sys2Proof

/-! ### BAR4 (R387) -/

section Bar4
variable {s : State} {f : Fin 2} {off : Nat}

/-- Outside the twin window, or before READY, an access does not go to the other die. -/
theorem twin_excluded {a : Nat} {p : Fin 10} (hhere : s.region a ≠ .twin ∨ s.selv.ready = false) (hr : s.region a = .twin)
    (hp : (s.twinPort.filter fun _ => s.selv.ready) = some p) : False :=
  hhere.elim (fun h => h hr) fun h => by
    rw [h] at hp
    exact Bool.false_ne_true (Option.filter_eq_some_iff.mp hp).2

/-- A read served, or refused and counted. -/
theorem bar4Read_here {len : Nat} (hin : s.bar4In f off len = true)
    (hhere : s.region (s.bar4Addr f off) ≠ .twin ∨ s.selv.ready = false) :
    (∀ b, s.hostCheck (s.bar4Addr f off) len false = .ok b →
      bar4Read f off len s = s.emit (.barData f false (memRead s.mem b len))) ∧
    (s.hostCheck (s.bar4Addr f off) len false = .refused →
      bar4Read f off len s = (s.emit (.barData f false (List.replicate len 0xFF))).badAcc) := by
  unfold bar4Read
  rw [if_neg (by rw [hin]; decide)]
  dsimp only
  split
  · next hr hp => exact (twin_excluded hhere hr hp).elim
  · exact ⟨fun b hb => by rw [hb], fun hb => by rw [hb]⟩

/-- A write served, or refused and counted. -/
theorem bar4Write_here {d : List Byte} (hin : s.bar4In f off d.length = true) (hd : d ≠ [])
    (hhere : s.region (s.bar4Addr f off) ≠ .twin ∨ s.selv.ready = false) :
    (∀ b, s.hostCheck (s.bar4Addr f off) d.length true = .ok b → bar4Write f off d s = s.put b (d.map some)) ∧
    (s.hostCheck (s.bar4Addr f off) d.length true = .refused → bar4Write f off d s = s.badAcc) := by
  have hserved : ¬ ((!s.bar4In f off d.length) = true ∨ d.isEmpty = true) := by
    rw [hin, List.isEmpty_iff]
    exact fun h => h.elim Bool.false_ne_true hd
  unfold bar4Write
  rw [if_neg hserved]
  dsimp only
  split
  · next hr hp => exact (twin_excluded hhere hr hp).elim
  · exact ⟨fun b hb => by rw [hb], fun hb => by rw [hb]⟩

/-- An access in the twin window goes to the other die in its pieces. -/
theorem bar4_twin {p : Fin 10} (hp : s.twinPort = some p) (hr : s.region (s.bar4Addr f off) = .twin) (hready : s.selv.ready = true) :
    (∀ len, s.bar4In f off len = true → bar4Read f off len s = (pieces (s.bar4Addr f off) len len).foldl (fun s x =>
      s.sendAccess (.host f) p (x.1 - twinBase) x.1 (.read x.2) .none .mgmt) s) ∧
    (∀ d : List Byte, s.bar4In f off d.length = true → d ≠ [] → bar4Write f off d s =
      (pieces (s.bar4Addr f off) d.length d.length).foldl (fun t x => t.sendAccess (.host f) p (x.1 - twinBase) x.1
        (.write ((slice d (x.1 - s.bar4Addr f off) x.2).map some)) .none .mgmt) s) := by
  have hgoes : (s.twinPort.filter fun _ => s.selv.ready) = some p := by rw [hp, hready]; rfl
  constructor
  · intro len hin
    unfold bar4Read
    rw [if_neg (by rw [hin]; decide)]
    dsimp only
    rw [hr, hgoes]
  · intro d hin hd
    have hserved : ¬ ((!s.bar4In f off d.length) = true ∨ d.isEmpty = true) := by
      rw [hin, List.isEmpty_iff]
      exact fun h => h.elim Bool.false_ne_true hd
    unfold bar4Write
    rw [if_neg hserved]
    dsimp only
    rw [hr, hgoes]

end Bar4

/-- BAR4 reads and writes, where each of them lies. -/
theorem bar4_accesses (s : State) (f : Fin 2) (off : BitVec 37) (len : Nat) (d : List Byte) :
    let a := s.fns[f].bar4Base.toNat + off.toNat
    let count := fun (s : State) => ({ s with selv := { s.selv with badAccess := satAdd s.selv.badAccess 1 } } : State)
    let here := s.region a ≠ .twin ∨ s.selv.ready = false
    (s.bar4In f off.toNat len = false → exec (.bar4Read f off len) s = .next (s.emit (.barData f false []))) ∧
    (s.bar4In f off.toNat d.length = false → exec (.bar4Write f off d) s = .next s) ∧
    (s.bar4In f off.toNat len = true → here →
      (∀ b, s.hostCheck a len false = .ok b →
        exec (.bar4Read f off len) s = .next (s.emit (.barData f false (memRead s.mem b len)))) ∧
      (s.hostCheck a len false = .refused →
        exec (.bar4Read f off len) s = .next (count (s.emit (.barData f false (List.replicate len 0xFF)))))) ∧
    (s.bar4In f off.toNat d.length = true → d ≠ [] → here →
      (∀ b, s.hostCheck a d.length true = .ok b → s.poison = [] → ∃ t, exec (.bar4Write f off d) s = .next t ∧ t.out = s.out ∧
        t.selv = s.selv ∧ t.pages = s.pages ∧
        ∀ j, memGet t.mem j = if b ≤ j ∧ j < b + d.length then d.getD (j - b) 0 else memGet s.mem j) ∧
      (s.hostCheck a d.length true = .refused → exec (.bar4Write f off d) s = .next (count s))) ∧
    (∀ p, s.twinPort = some p → s.region a = .twin → s.selv.ready = true →
      (s.bar4In f off.toNat len = true → exec (.bar4Read f off len) s = .next ((pieces a len len).foldl (fun s x =>
        s.sendAccess (.host f) p (x.1 - twinBase) x.1 (.read x.2) .none .mgmt) s)) ∧
      (s.bar4In f off.toNat d.length = true → d ≠ [] → exec (.bar4Write f off d) s =
        .next ((pieces a d.length d.length).foldl (fun s x => s.sendAccess (.host f) p (x.1 - twinBase) x.1
          (.write ((slice d (x.1 - a) x.2).map some)) .none .mgmt) s))) := by
  intro a count here
  have hout {n : Nat} (h : s.bar4In f off.toNat n = false) : (!s.bar4In f off.toNat n) = true := by rw [h]; rfl
  refine ⟨fun h => congrArg Host.Outcome.next (if_pos (hout h)), fun h => congrArg Host.Outcome.next (if_pos (.inl (hout h))),
    fun hin hhere => ?_, fun hin hd hhere => ?_, fun p hp hr hready => ?_⟩
  · obtain ⟨hok, hrefused⟩ := bar4Read_here hin hhere
    exact ⟨fun b hb => congrArg Host.Outcome.next (hok b hb), fun hb => congrArg Host.Outcome.next (hrefused hb)⟩
  · obtain ⟨hok, hrefused⟩ := bar4Write_here hin hd hhere
    refine ⟨fun b hb hc => ⟨_, congrArg Host.Outcome.next (hok b hb), rfl, rfl, rfl, fun j => ?_⟩,
      fun hb => congrArg Host.Outcome.next (hrefused hb)⟩
    exact memGet_put_bytes hc b d j
  · obtain ⟨hread, hwrite⟩ := bar4_twin hp hr hready
    exact ⟨fun hin => congrArg Host.Outcome.next (hread len hin), fun hin hd => congrArg Host.Outcome.next (hwrite d hin hd)⟩

/-! ### Shuskaub's link (R46, R85) -/

/-- Shuskaub's link up may end start-up; down it resets function 0 where that is the host's. -/
theorem shuskaub_link (s : State) :
    let up : State := { s with shusPcieUp := true }
    let down : State := { s with shusPcieUp := false }
    (¬ (s.boot.phase = .done ∧ s.selv.ready = false ∧ up.mgmtPresent = true) → exec .shuskaubPcieLinkUp s = .next up) ∧
    (s.boot.phase = .done → s.selv.ready = false → up.mgmtPresent = true →
      exec .shuskaubPcieLinkUp s = .next (up.stepNine true)) ∧
    (s.fuses.shusPcie = false → exec .shuskaubPcieLinkDown s = .next down) ∧
    (s.fuses.shusPcie = true → exec .shuskaubPcieLinkDown s = exec (.functionLevelReset 0) down) := by
  intro up down
  refine ⟨fun h => congrArg Host.Outcome.next (if_neg fun hc => h ?_), fun hphase hready hm => congrArg Host.Outcome.next (if_pos ?_),
    fun h => congrArg Host.Outcome.next (if_neg ?_), fun h => congrArg Host.Outcome.next (if_pos h)⟩
  · obtain ⟨hphase, hready, hm⟩ := hc
    exact ⟨hphase, by simpa using hready, hm⟩
  · exact ⟨hphase, by rw [hready]; rfl, hm⟩
  · rw [h]; exact Bool.false_ne_true

/-- Settles O42: a reset's rings and functions are followed through the end of its grants (`Revokes`) and the holds (`Holding`); the
rows of D0, MSI-X, BAR4 and the links take their branches. -/
theorem functionResetsAndBar4 : Obligations.FunctionResetsAndBar4 := by
  unfold Obligations.FunctionResetsAndBar4
  refine ⟨fun s f => ?_, bar4_accesses, shuskaub_link⟩
  obtain ⟨habsent, hasleep, hawake⟩ := function_unmoved s f
  exact ⟨habsent, rfl, functionReset_resets s f, d3hotEntry_enters s f, hasleep, hawake, d0Return_quiet s f, rfl,
    hostLinkDown_resets s f, msixUnmask_signals s f⟩

end Sys2Proof.Machine
end

section
/-! SUPPORT. Start-up (04): what the loss of the supply leaves of the tally, and the boot channel's READs. -/
namespace Sys2Proof.StartUp
open Sys2Proof Sys2Proof.Machine

/-- The reset state powered, with a counter found rolled back at its start-up (18 R484). -/
def rolledBack : State := { State.reset with
  selv := { Selv.reset with spwrok := true }
  tally := { Tally.reset with rolledBack := true } }

theorem rolledBack_powered :
    rolledBack.selv.spwrok = true ∧ rolledBack.tally.run = none ∧ rolledBack.flash.writing = none := by decide +kernel

/-- Refutes O30: a loss of supply clears the note that a counter was found rolled back, which is a state of the start-up and not of
the tally's memory; the statement keeps it with that memory. -/
theorem not_powerGoodAndLoss : ¬ Obligations.PowerGoodAndLoss := by
  unfold Obligations.PowerGoodAndLoss
  intro h
  obtain ⟨-, -, -, -, loss, -⟩ := h rolledBack
  obtain ⟨hpowered, hrun, hwriting⟩ := rolledBack_powered
  have hstate : powerLost false rolledBack = _ := Host.Outcome.next.inj (loss hpowered hrun hwriting).1
  have hcleared : (powerLost false rolledBack).tally.rolledBack = false := by decide +kernel
  rw [hstate] at hcleared
  exact absurd hcleared (by decide)

/-- A ROM that fetches from the twin primary, over a SHUS port whose sideband is up. -/
def fetchingFromPrimary : State := { State.reset with
  boot := { Boot.reset with phase := .fetching .twinPrimary }
  ports := upd State.reset.ports 9 fun e => { e with sideband := true } }

theorem fetchingFromPrimary_reads :
    fetchingFromPrimary.boot.phase = .fetching .twinPrimary ∧ fetchingFromPrimary.bootPort .twinPrimary = some 9 ∧
    fetchingFromPrimary.boot.due = 0 ∧ fetchingFromPrimary.ports[(9 : Fin 10)].sideband = true ∧
    fetchingFromPrimary.boot.image.length = 0 := by decide +kernel

/-- Refutes O31: a flash slot answers a READ for its own source alone; the statement has the flash answer for every source but the
host, the twin primary among them. -/
theorem not_bootChannel : ¬ Obligations.BootChannel := by
  unfold Obligations.BootChannel
  rintro ⟨read, -⟩
  obtain ⟨hphase, hport, hdue, hside, himage⟩ := fetchingFromPrimary_reads
  have hexec := read fetchingFromPrimary .twinPrimary 9 hphase hport hdue hside (by rw [himage]; decide)
  have hstate : bootRead fetchingFromPrimary = _ := Host.Outcome.next.inj hexec
  have hsent : (bootRead fetchingFromPrimary).out.length = 1 := by decide +kernel
  rw [hstate, himage] at hsent
  exact absurd hsent (by decide +kernel)

end Sys2Proof.StartUp
end

section
/-! SUPPORT. The state after reset (04 R87, 17 R464) and the device commands that read or set one thing (06 R146). -/
namespace Sys2Proof.Machine
open Sys2Proof Sys2Proof.Safety

theorem reset_empty : Inv State.reset ∧ State.reset.pending = [] ∧ State.reset.out = [] ∧ State.reset.mem = [] :=
  ⟨rfl, rfl, rfl, rfl⟩

/-- READY is 0 and the device state reads 0 (R87). -/
theorem reset_notReady : State.reset.selv.ready = false ∧ State.reset.statusWord &&& 0xFF = 0 := by decide +kernel

theorem reset_chain_words : State.reset.chain.read 0 = 0x00140000 ∧ State.reset.chain.read 8 = 0 ∧
    State.reset.chain.read 0xC = 0 ∧ State.reset.chain.read 0x14 = 0 := by decide +kernel

/-- Settles O2: every record of the reset state is written out in the model; the words put together from fields are evaluated. -/
theorem resetState : Obligations.ResetState := by
  unfold Obligations.ResetState
  obtain ⟨hinv, hpending, hout, hmem⟩ := reset_empty
  obtain ⟨hready, hstatus⟩ := reset_notReady
  refine ⟨hinv, hpending, hout, hmem, hready, hstatus, fun i => ?_, fun i => ⟨?_, ?_⟩, fun n => ?_, rfl, rfl, reset_chain_words⟩
  · exact congrArg Swatch.st (Vector.getElem_replicate _)
  · exact congrArg (fun q : Sq => q.fsm.st) (Vector.getElem_replicate _)
  · exact congrArg (fun c : Cq => c.fsm.st) (Vector.getElem_replicate _)
  · exact congrArg Needle.st (Vector.getElem_replicate _)

/-- Settles O39: each of the commands is accepted, and its effect is what the statement writes out (`dispatch_accepts`). -/
theorem deviceQueriesAndSettings : Obligations.DeviceQueriesAndSettings := by
  unfold Obligations.DeviceQueriesAndSettings
  intro e s s1 r
  have acts {c : Cmd} (h : Accepts c e s s1) : Host.Outcome.next (c.dispatch e s) =
      (.next (c.act r e s1) : Host.Outcome State Fault Refusal) :=
    congrArg Host.Outcome.next (dispatch_accepts h)
  exact ⟨acts, acts, acts, acts, acts, acts⟩

end Sys2Proof.Machine
end

section
/-! SUPPORT. What answers, yardage increments (18 R480) and changes of power (04 R93, R94) leave as they were. -/
namespace Sys2Proof.Machine
open Sys2Proof

/-! ### Answers (05 R144) and increments (18 R480) -/

/-- s with everything that answers, events and increments can change as t has it. -/
def State.answering (s t : State) : State := { s with
  ports := t.ports, out := t.out, mem := t.mem, accesses := t.accesses, nextAccess := t.nextAccess, gauge := t.gauge
  distaffs := t.distaffs, freeCtr := t.freeCtr, cqs := t.cqs, fns := t.fns, sqs := t.sqs, jobs := t.jobs, tally := t.tally }

/-- From s to t commands were answered, events posted and counters raised, and nothing else changed. -/
structure Answers (s t : State) : Prop where
  rest : t = s.answering t

theorem Answers.refl (s : State) : Answers s s := ⟨rfl⟩
theorem Answers.read {α : Type} {s t : State} (h : Answers s t) (g : State → α) : g t = g (s.answering t) := congrArg g h.rest
theorem Answers.trans {s t u : State} (h : Answers s t) (k : Answers t u) : Answers s u :=
  ⟨Eq.trans k.rest (h.read fun x => x.answering u)⟩
theorem Answers.foldl {α : Type} {s : State} {g : State → α → State} (l : List α) (hg : ∀ t x, Answers t (g t x)) :
    Answers s (l.foldl g s) :=
  List.foldlRecOn l g (motive := Answers s) (.refl s) fun _ h x _ => h.trans (hg _ x)
theorem Answers.selv {s t : State} (h : Answers s t) : t.selv = s.selv := h.read State.selv
theorem Posts.answers {s t : State} (h : Posts s t) : Answers s t :=
  ⟨h.read fun x => { x with sqs := t.sqs, jobs := t.jobs, tally := t.tally }⟩

theorem jobs_answers (s : State) (l : List (CmdRef × Half × List Byte)) : Answers s { s with jobs := l } := ⟨rfl⟩
theorem modSq_answers (s : State) (i : Fin 16) (f : Sq → Sq) : Answers s (s.modSq i f) := ⟨rfl⟩
theorem modTally_answers (s : State) (f : Tally → Tally) : Answers s (s.modTally f) := ⟨rfl⟩

theorem finish_answers (s : State) (r : CmdRef) (e : CEntry) : Answers s (s.finish r e) := by
  refine Answers.trans (jobs_answers s (s.jobs.eraseP fun j => decide (j.1 = r))) ?_
  unfold State.finish
  dsimp only
  split
  · exact (relayMsg_sends _ _ _).posts.answers
  · split
    · exact .refl _
    · exact (modSq_answers _ _ _).trans (post_posts _ _ _).answers

theorem reply_answers (s : State) (r : CmdRef) (status detail : Nat) (res : List (Nat × Nat × Nat)) (flags : Nat)
    (row : Option DWord) : Answers s (s.reply r status detail res flags row) := finish_answers _ _ _

theorem ok_answers (s : State) (r : CmdRef) (res : List (Nat × Nat × Nat)) : Answers s (s.ok r res) := finish_answers _ _ _

theorem replyOpt_answers (s : State) (r : Option CmdRef) (status detail : Nat) : Answers s (s.replyOpt r status detail) := by
  cases r with
  | none => exact .refl s
  | some r => exact reply_answers s r status detail _ _ _

theorem yardStart_answers (s : State) (fuel : Nat) : Answers s (s.yardStart fuel) := by
  induction fuel generalizing s with
  | zero => exact .refl s
  | succ fuel ih =>
    unfold State.yardStart
    split
    · next u rest _ _ =>
      refine Answers.trans (modTally_answers s fun t => { t with waiting := rest }) ?_
      generalize (s.modTally fun t => { t with waiting := rest }) = t
      dsimp only
      split
      · refine Answers.trans ?_ (ih _)
        split
        · exact ok_answers _ _ _
        · exact .refl _
      · split
        · refine Answers.trans ?_ (ih _)
          split
          · exact modTally_answers _ _
          · exact .refl _
        · exact modTally_answers _ _
    · exact .refl s

theorem yard_answers (s : State) (c amount : Nat) (cmd : Option CmdRef) (res : List (Nat × Nat × Nat)) (value20 : Bool) :
    Answers s (s.yard c amount cmd res value20) := by
  unfold State.yard
  exact (modTally_answers _ _).trans (yardStart_answers _ _)

theorem yardP_answers (s : State) (c n : Nat) : Answers s (s.yardP c n) := by
  unfold State.yardP
  split
  · exact yard_answers s c n _ _ _
  · exact .refl s

end Sys2Proof.Machine
end

section
/-! SUPPORT. What a change of power and of the device state leaves as it was (04 R88 to R96, 14 R386). -/
namespace Sys2Proof.Machine
open Sys2Proof

/-! ### How the swatches stand -/

/-- A swatch's state and its hold causes. -/
def Swatch.standing (w : Swatch) : SwSt × List Byte := (w.st, w.causes)

/-- Every swatch of t stands as in s. -/
structure Stands (s t : State) : Prop where
  same : ∀ i : Fin 8, t.swatches[i].standing = s.swatches[i].standing

theorem Stands.of_eq {s t : State} (h : t.swatches = s.swatches) : Stands s t := ⟨fun i => by rw [h]⟩
theorem Stands.trans {s t u : State} (h : Stands s t) (k : Stands t u) : Stands s u := ⟨fun i => (k.same i).trans (h.same i)⟩

theorem modSw_stands (s : State) (i : Fin 8) (f : Swatch → Swatch) (h : ∀ w, (f w).standing = w.standing) :
    Stands s (s.modSw i f) := by
  refine ⟨fun j => ?_⟩
  rw [modSw_swatches, upd_get]
  split
  · exact h _
  · rfl

/-! ### Power and P-points (04 R93, R94) -/

/-- The skeins that are to be powered: in a census those it tests (R499). -/
def State.onMask (s : State) : BitVec 16 := if s.rep.run.isSome then s.mapMask else s.wantOn s.selv.st
/-- The P-point a skein is to run at, 0 without power. -/
def State.wantIn (s : State) (k : Fin 16) : Nat := if s.onMask.getLsbD k.val then s.wantPp k else 0
/-- The highest P-point asked for. -/
def State.needPp (s : State) : Nat := (allFin 16).foldl (fun m k => max m (s.wantIn k)) 0
/-- The P-points in force next: a hard swatch's skeins change at a tick only (R94). -/
def State.nextPp (s : State) (tick : Bool) : Vector (BitVec 2) 16 := mapV s.selv.ppoint fun k p =>
  if s.hardSkein k && s.onMask.getLsbD k.val && !tick then p else BitVec.ofNat 2 (min (s.wantIn k) s.selv.rail.toNat)
/-- The highest P-point in force next. -/
def State.usedPp (s : State) (tick : Bool) : Nat := (allFin 16).foldl (fun m k => max m (s.nextPp tick)[k].toNat) 0

/-- v with other power and P-points. -/
def Selv.switched (v : Selv) (on : BitVec 16) (rail : BitVec 2) (ramp : Option (BitVec 2)) (pp : Vector (BitVec 2) 16) : Selv :=
  { v with skeinsOn := on, rail := rail, ramp := ramp, ppoint := pp }

/-- The power switched. -/
def State.switchPower (s : State) (tick : Bool) : State := s.modSelv fun v => v.switched s.onMask
  (BitVec.ofNat 2 (max (min s.needPp s.selv.rail.toNat) (s.usedPp tick)))
  (if s.selv.rail.toNat < s.needPp then some (BitVec.ofNat 2 s.needPp) else none) (s.nextPp tick)

/-- Power brought to what it should be: it is switched, and what Held swatches lose by it is noted. -/
theorem repower_eq (s : State) (tick : Bool) : s.repower tick = (s.switchPower tick).noteLost := rfl

/-- What Held swatches lose changes the swatches alone, and not how they stand. -/
theorem noteLost_cases (s : State) : s.noteLost = { s with swatches := s.noteLost.swatches } ∧ Stands s s.noteLost := by
  unfold State.noteLost
  refine List.foldlRecOn _ _ (motive := fun t : State => t = { s with swatches := t.swatches } ∧ Stands s t)
    ⟨rfl, .of_eq rfl⟩ ?_
  rintro t ⟨hrest, hstands⟩ i -
  dsimp only
  split
  · refine ⟨?_, hstands.trans (modSw_stands t i _ fun _ => rfl)⟩
    exact congrArg (fun x : State => { x with swatches := upd t.swatches i fun w =>
      { w with status := setBit w.status 6, saveOwed := false } }) hrest
  · exact ⟨hrest, hstands⟩

theorem repower_rest (s : State) (tick : Bool) :
    s.repower tick = { s.switchPower tick with swatches := (s.repower tick).swatches } := (noteLost_cases _).1

/-- What is read of a state whose power has changed. -/
theorem repower_read {α : Type} (s : State) (tick : Bool) (g : State → α) :
    g (s.repower tick) = g { s.switchPower tick with swatches := (s.repower tick).swatches } := congrArg g (repower_rest s tick)

theorem repower_selv (s : State) (tick : Bool) : (s.repower tick).selv = s.selv.switched s.onMask
    (BitVec.ofNat 2 (max (min s.needPp s.selv.rail.toNat) (s.usedPp tick)))
    (if s.selv.rail.toNat < s.needPp then some (BitVec.ofNat 2 s.needPp) else none) (s.nextPp tick) :=
  repower_read s tick State.selv

@[simp] theorem switched_skeinsOn (v : Selv) (on : BitVec 16) (rail : BitVec 2) (ramp : Option (BitVec 2))
    (pp : Vector (BitVec 2) 16) : (v.switched on rail ramp pp).skeinsOn = on := rfl
@[simp] theorem switched_rail (v : Selv) (on : BitVec 16) (rail : BitVec 2) (ramp : Option (BitVec 2))
    (pp : Vector (BitVec 2) 16) : (v.switched on rail ramp pp).rail = rail := rfl
@[simp] theorem switched_ppoint (v : Selv) (on : BitVec 16) (rail : BitVec 2) (ramp : Option (BitVec 2))
    (pp : Vector (BitVec 2) 16) : (v.switched on rail ramp pp).ppoint = pp := rfl

theorem repower_skeinsOn (s : State) (tick : Bool) : (s.repower tick).selv.skeinsOn = s.onMask := by
  rw [repower_selv, switched_skeinsOn]
theorem repower_rail (s : State) (tick : Bool) : (s.repower tick).selv.rail =
    BitVec.ofNat 2 (max (min s.needPp s.selv.rail.toNat) (s.usedPp tick)) := by rw [repower_selv, switched_rail]
theorem repower_ppoint (s : State) (tick : Bool) : (s.repower tick).selv.ppoint = s.nextPp tick := by
  rw [repower_selv, switched_ppoint]

/-- What is read of the SELV block beside the power. -/
theorem repower_readSelv {α : Type} (s : State) (tick : Bool) (g : Selv → α)
    (hg : ∀ v on rail ramp pp, g (Selv.switched v on rail ramp pp) = g v) : g (s.repower tick).selv = g s.selv :=
  (congrArg g (repower_selv s tick)).trans (hg _ _ _ _ _)

/-- Beside the SELV block and the swatches nothing changes. -/
theorem repower_frame (s : State) (tick : Bool) :
    (s.repower tick).rep = s.rep ∧ (s.repower tick).jobs = s.jobs ∧ (s.repower tick).mem = s.mem ∧
    (s.repower tick).map = s.map ∧ (s.repower tick).out = s.out ∧ (s.repower tick).tally = s.tally :=
  ⟨repower_read s tick State.rep, repower_read s tick State.jobs, repower_read s tick State.mem,
    repower_read s tick State.map, repower_read s tick State.out, repower_read s tick State.tally⟩

/-! ### Transitions (04 R91, R96) and self-refresh (14 R386) -/

/-- v with the power, the P-points and the Burst accounts of w. -/
def Selv.powering (v w : Selv) : Selv := { v with
  skeinsOn := w.skeinsOn, rail := w.rail, ramp := w.ramp, ppoint := w.ppoint, burstJoules := w.burstJoules
  recoveryLeft := w.recoveryLeft, windowLeft := w.windowLeft, windowUsed := w.windowUsed, capped := w.capped }

/-- s with everything that a change of power, the end of a Burst window and self-refresh can change as t has it. -/
def State.powering (s t : State) : State := { s with
  ports := t.ports, out := t.out, mem := t.mem, accesses := t.accesses, nextAccess := t.nextAccess, gauge := t.gauge
  distaffs := t.distaffs, freeCtr := t.freeCtr, cqs := t.cqs, fns := t.fns, sqs := t.sqs, jobs := t.jobs, tally := t.tally
  selv := t.selv, swatches := t.swatches, stack := t.stack }

/-- From s to t the power changed: nothing else did, and every swatch stands as before. -/
structure Powers (s t : State) : Prop where
  rest   : t = s.powering t
  selv   : t.selv = s.selv.powering t.selv
  stands : Stands s t

theorem Powers.refl (s : State) : Powers s s := ⟨rfl, rfl, .of_eq rfl⟩
theorem Powers.read {α : Type} {s t : State} (h : Powers s t) (g : State → α) : g t = g (s.powering t) := congrArg g h.rest
theorem Powers.trans {s t u : State} (h : Powers s t) (k : Powers t u) : Powers s u where
  rest := Eq.trans k.rest (h.read fun x => x.powering u)
  selv := by
    have hv := congrArg (fun v => Selv.powering v u.selv) h.selv
    exact k.selv.trans hv
  stands := h.stands.trans k.stands
theorem Powers.foldl {α : Type} {s : State} {g : State → α → State} (l : List α) (hg : ∀ t x, Powers t (g t x)) :
    Powers s (l.foldl g s) :=
  List.foldlRecOn l g (motive := Powers s) (.refl s) fun _ h x _ => h.trans (hg _ x)
/-- A change outside the swatches that leaves the SELV block. -/
theorem Powers.of_rest {s t : State} (h : t = s.powering t) (hv : t.selv = s.selv) (hs : t.swatches = s.swatches) : Powers s t :=
  ⟨h, by rw [hv]; rfl, .of_eq hs⟩
theorem Answers.powers {s t : State} (h : Answers s t) : Powers s t :=
  .of_rest (h.read fun x => { x with selv := t.selv, swatches := t.swatches, stack := t.stack }) (h.read State.selv)
    (h.read State.swatches)
theorem Powers.grants {s t : State} (h : Powers s t) : t.grants = s.grants := h.read State.grants

/-- What is read of the SELV block beside the power and the Burst accounts. -/
theorem Powers.readSelv {α : Type} {s t : State} (h : Powers s t) (g : Selv → α) : g t.selv = g (s.selv.powering t.selv) :=
  congrArg g h.selv

/-- A change of the swatches alone. -/
theorem Powers.of_swatches {s t : State} (h : t = { s with swatches := t.swatches }) (hs : Stands s t) : Powers s t where
  rest := by rw [h]; rfl
  selv := by rw [h]; rfl
  stands := hs

/-- A change of the SELV block alone. -/
theorem modSelv_powers (s : State) (f : Selv → Selv) (h : f s.selv = s.selv.powering (f s.selv)) : Powers s (s.modSelv f) :=
  ⟨rfl, h, .of_eq rfl⟩

theorem switched_powering (v : Selv) (on : BitVec 16) (rail : BitVec 2) (ramp : Option (BitVec 2)) (pp : Vector (BitVec 2) 16) :
    v.switched on rail ramp pp = v.powering (v.switched on rail ramp pp) := rfl

theorem switchPower_powers (s : State) (tick : Bool) : Powers s (s.switchPower tick) :=
  modSelv_powers s _ (switched_powering s.selv _ _ _ _)

theorem repower_powers (s : State) (tick : Bool) : Powers s (s.repower tick) := by
  obtain ⟨hrest, hstands⟩ := noteLost_cases (s.switchPower tick)
  rw [repower_eq]
  exact (switchPower_powers s tick).trans (.of_swatches hrest hstands)

theorem trySref_powers (s : State) (b : Fin 4) : Powers s (s.trySref b) := by
  unfold State.trySref
  split
  · exact .refl s
  · refine Powers.foldl _ fun t p => ?_
    split
    · exact .of_rest rfl rfl rfl
    · exact .refl t

theorem srefEnter_powers (s : State) : Powers s s.srefEnter := by
  refine Powers.foldl _ fun t b => ?_
  refine Powers.trans (Powers.foldl _ fun u p => ?_) (trySref_powers _ b)
  split
  · exact .of_rest rfl rfl rfl
  · exact .refl u

theorem srefExit_powers (s : State) : Powers s s.srefExit := by
  refine Powers.foldl _ fun t b => Powers.foldl _ fun u p => ?_
  split
  · exact .of_rest rfl rfl rfl
  · exact .refl u

/-- The accounts of a Burst window that ends, with `joules` more of energy (R96). -/
def Selv.windowOver (v : Selv) (joules : Nat) : Selv := { v with
  burstJoules := (v.burstJoules + joules) % 1000
  recoveryLeft := BitVec.ofNat 13 (min 8191 (4 * v.windowUsed))
  windowLeft := 0, windowUsed := 0, capped := 0xFFFF }

/-- s with its Burst window over, before the energy is counted. -/
def State.closeWindow (s : State) (joules : Nat) : State := (s.modSelv fun v => v.windowOver joules).repower false

/-- The end of a Burst window: its accounts, a change of power, and the increment of a whole kilojoule. -/
theorem endBurst_eq (s : State) (joules : Nat) : s.endBurst joules =
    if (s.selv.burstJoules + joules) / 1000 = 0 then s.closeWindow joules
    else (s.closeWindow joules).yard 1 ((s.selv.burstJoules + joules) / 1000) := rfl

theorem endBurst_answers (s : State) (joules : Nat) : Answers (s.closeWindow joules) (s.endBurst joules) := by
  rw [endBurst_eq]
  split
  · exact .refl _
  · exact yard_answers _ _ _ _ _ _

theorem endBurst_powers (s : State) (joules : Nat) : Powers s (s.endBurst joules) := by
  exact (modSelv_powers s (fun v => v.windowOver joules) rfl).trans ((repower_powers _ false).trans (endBurst_answers s joules).powers)

/-- A transition noted. -/
def State.noteTransition (s : State) (t : Transition) : State := s.modSelv fun v => { v with trans := some t }

/-- A transition that starts is noted, and what it does beside is a matter of power. -/
theorem startTransition_powers (s : State) (d : DevSt) (c : Option CmdRef) (f : Bool) :
    Powers (s.noteTransition ⟨d, c, f⟩) (s.startTransition d c f) := by
  have hfree (t : State) : Powers t t.useFree := .of_rest rfl rfl rfl
  unfold State.startTransition
  dsimp only
  split
  · exact (endBurst_powers _ _).trans (hfree _)
  · split
    · exact srefEnter_powers _
    · split
      · exact srefExit_powers _
      · exact .refl _

end Sys2Proof.Machine
end

section
/-! SUPPORT. Count-off and the census (04 R79 to R85, 19 R493, R498, R499). -/
namespace Sys2Proof.Machine
open Sys2Proof Sys2Proof.Safety

/-! ### Count-off (R80, R81) -/

/-- The count that returns to a primary that waits for it. -/
def State.countReturned (s : State) (n : Byte) : State := { s with
  inner := { s.inner with hasAddr := true, addr := 0, returned := n, expected := BitVec.ofNat 8 s.fuses.dies
                          events := if n.toNat = s.fuses.dies then s.inner.events else setBit s.inner.events 3 }
  selv := { s.selv with bootStep := 4, fault := if n.toNat = s.fuses.dies then s.selv.fault else setBit s.selv.fault 4 } }

theorem countOff_secondary {s : State} (n : Byte) (hpower : s.selv.spwrok = true) (hprimary : s.fuses.primary = false) :
    exec (.countOff n) s = .next ({ s with
      inner := { s.inner with hasAddr := true, addr := n }, out := s.out ++ [.inner 1 0xFF n [n + 1]] } : State) := by
  change Host.Outcome.next (countOffArrives n s) = _
  unfold countOffArrives
  rw [if_neg (by rw [hpower]; decide), if_neg (by rw [hprimary]; decide)]
  rfl

theorem countOff_primary {s : State} (n : Byte) {k : Nat} (hpower : s.selv.spwrok = true) (hprimary : s.fuses.primary = true)
    (hphase : s.boot.phase = .countOff k) : exec (.countOff n) s = .next (s.countReturned n).stepsFive := by
  change Host.Outcome.next (countOffArrives n s) = _
  unfold countOffArrives
  rw [if_neg (by rw [hpower]; decide), if_pos hprimary]
  simp only [hphase]
  refine congrArg (fun t : State => Host.Outcome.next t.stepsFive) ?_
  unfold State.countReturned
  by_cases h : n.toNat = s.fuses.dies
  · simp only [modInner_frame, if_pos h]; rfl
  · simp only [modInner_frame, if_neg h]; rfl

theorem countOffTimeout_again {s : State} {k : Nat} (hphase : s.boot.phase = .countOff k) (hk : k < 3) :
    exec .countOffTimeout s = .next ({ s with
      boot := { s.boot with phase := .countOff (k + 1) }, out := s.out ++ [.inner 1 0xFF 0 [1]] } : State) := by
  change Host.Outcome.next (countOffLate s) = _
  unfold countOffLate
  simp only [hphase, if_pos hk]
  rfl

theorem countOffTimeout_last {s : State} {k : Nat} (hphase : s.boot.phase = .countOff k) (hk : 3 ≤ k) :
    exec .countOffTimeout s = .next (State.stepsFive { s with
      inner := { s.inner with hasAddr := true, returned := 0, expected := BitVec.ofNat 8 s.fuses.dies
                              events := setBit s.inner.events 1 }
      selv := { s.selv with bootStep := 4, fault := setBit s.selv.fault 4 } }) := by
  change Host.Outcome.next (countOffLate s) = _
  unfold countOffLate
  simp only [hphase, if_neg (Nat.not_lt.mpr hk)]
  rfl

/-! ### The start of a census (R498, R499) -/

/-- A census that starts runs, powers the skeins it tests, and leaves memory, the map and the commands in flight. -/
theorem startCensus_starts (s : State) (full : Bool) (cmd : Option CmdRef) :
    (s.startCensus full cmd).rep = { s.rep with run := some ⟨full || s.rep.pendingFull, cmd⟩ } ∧
    (s.startCensus full cmd).selv.skeinsOn = s.mapMask ∧ (s.startCensus full cmd).jobs = s.jobs ∧
    (s.startCensus full cmd).mem = s.mem ∧ (s.startCensus full cmd).map = s.map := by
  unfold State.startCensus
  obtain ⟨hrep, hjobs, hmem, hmap, -, -⟩ :=
    repower_frame (s.modRep fun r => { r with run := some ⟨full || r.pendingFull, cmd⟩ }) false
  rw [hrep, hjobs, hmem, hmap, repower_skeinsOn]
  exact ⟨rfl, rfl, rfl, rfl, rfl⟩

theorem runCensus_starts (e : Entry) (s s1 : State) (h : Accepts cmdRunCensus e s s1) : ∃ t, exec (.runCensus e) s = .next t ∧
    t.rep.run = some ⟨decide (e.u 8 1 = 1) || s1.rep.pendingFull, some (refOf e s1)⟩ ∧
    t.jobs = s1.jobs ++ [(refOf e s1, 0x601, e.params.toList)] ∧ t.mem = s1.mem ∧ t.map = s1.map := by
  have hexec : exec (.runCensus e) s =
      .next ((s1.inFlight (refOf e s1) 0x601 e).startCensus (decide (e.u 8 1 = 1)) (some (refOf e s1))) := by
    change Host.Outcome.next (cmdRunCensus.dispatch e s) = _
    rw [dispatch_accepts h, cmdRunCensus]
  obtain ⟨hrep, -, hjobs, hmem, hmap⟩ :=
    startCensus_starts (s1.inFlight (refOf e s1) 0x601 e) (decide (e.u 8 1 = 1)) (some (refOf e s1))
  exact ⟨_, hexec, congrArg Rep.run hrep, hjobs, hmem, hmap⟩

theorem autoCensusStart_starts (s : State) :
    (s.rep.pending = true → s.rep.autoCensus = true → s.censusMay = true →
      ∃ t, exec .autoCensusStart s = .next t ∧ t.rep.run = some ⟨s.rep.pendingFull, none⟩ ∧
        t.selv.skeinsOn = s.mapMask ∧ t.mem = s.mem) ∧
    (s.rep.pending = false → exec .autoCensusStart s = .next s) := by
  constructor
  · intro hpending hauto hmay
    obtain ⟨hrep, hon, -, hmem, -⟩ := startCensus_starts s s.rep.pendingFull none
    refine ⟨_, congrArg Host.Outcome.next (if_pos (by rw [hpending, hauto, hmay]; rfl)), ?_, hon, hmem⟩
    rw [hrep, Bool.or_self]
  · intro hpending
    exact congrArg Host.Outcome.next (if_neg (by rw [hpending]; exact Bool.false_ne_true))

theorem censusEnd_none {s : State} (h : s.rep.run = none) : exec .censusEnd s = .next s := by
  change Host.Outcome.next (endCensus s) = _
  unfold endCensus
  rw [h]

/-- Settles O32: each row of count-off takes its branch, and a census begins as `startCensus_starts` says. -/
theorem countOffAndCensusStart : Obligations.CountOffAndCensusStart := by
  unfold Obligations.CountOffAndCensusStart
  refine ⟨fun s n hpower hprimary => countOff_secondary n hpower hprimary,
    fun s n k hpower hprimary hphase => countOff_primary n hpower hprimary hphase,
    fun s k hphase => ⟨countOffTimeout_again hphase, countOffTimeout_last hphase⟩, runCensus_starts,
    fun s => ⟨(autoCensusStart_starts s).1, (autoCensusStart_starts s).2, censusEnd_none⟩,
    fun s h => congrArg Host.Outcome.next (if_pos h), fun s h => congrArg Host.Outcome.next (if_neg h)⟩

end Sys2Proof.Machine
end

section
/-! SUPPORT. The map a census builds and what its end leaves (04 R82 to R85, 19 R493, R499). -/
namespace Sys2Proof.Machine
open Sys2Proof Sys2Proof.Safety

/-! ### The map (R83, R84) -/

/-- The good skeins of a physical row, from the west. -/
def State.goodInRow (s : State) (y : Fin 4) : List (Fin 5) := (allFin 5).filter fun x => s.skeinGood (physSkein y x)

/-- The skein at a course and wale of the enabled rows (R83). -/
def State.rowSkein (s : State) (c w : Nat) : Option LogSkein :=
  (s.enabledRows[c]?).bind fun y => ((s.goodInRow y)[w]?).map fun x => s.placeSkein (physSkein y x)

/-- The map of the enabled rows. -/
def State.rowMap (s : State) : LMap where
  skeins := Vector.ofFn fun k => s.rowSkein (k.val / 4) (k.val % 4)
  rows := s.enabledRows.foldl (fun m y => setBit m y.val) 0
  fallback := false
  courses := BitVec.ofNat 3 s.enabledRows.length
  epoch := s.map.epoch

/-- The fallback map of one skein (R84). -/
def State.fallbackMap (s : State) (p : Fin 20) : LMap := { LMap.none with
  skeins := LMap.none.skeins.set 0 (some (s.placeSkein p)), fallback := true, courses := 1, epoch := s.map.epoch }

/-- With no enabled row the first good skein, if there is one, is the fallback; else the rows make the map. -/
theorem newMap_cases (s : State) :
    (s.enabledRows = [] ∧ ∃ p, s.skeinGood p = true ∧ s.newMap = s.fallbackMap p) ∨
    (¬ (s.enabledRows = [] ∧ ∃ p, s.skeinGood p = true) ∧ s.newMap = s.rowMap) := by
  have hgood (p : Fin 20) : p ∈ (allFin 20).filter s.skeinGood ↔ s.skeinGood p = true := by
    rw [List.mem_filter]; exact and_iff_right (List.mem_finRange p)
  unfold State.newMap
  dsimp only
  split
  · next p ps hrows hgoods =>
    refine .inl ⟨hrows, p, (hgood p).mp ?_, rfl⟩
    rw [hgoods]; exact List.mem_cons_self
  · next hother =>
    refine .inr ⟨?_, rfl⟩
    rintro ⟨hrows, p, hp⟩
    obtain ⟨q, qs, hq⟩ := List.exists_cons_of_ne_nil (List.ne_nil_of_mem ((hgood p).mpr hp))
    exact hother q qs hrows hq

/-- A good skein has its six lowest good needles (R20, R82). -/
theorem placeSkein_needles {s : State} {p : Fin 20} (h : s.skeinGood p = true) (k : Fin 6) :
    (s.placeSkein p).needles[k] ∈ s.goodNeedles p := by
  unfold State.skeinGood at h
  simp only [Bool.and_eq_true, Bool.not_eq_true', decide_eq_true_eq] at h
  obtain ⟨⟨hretired, -⟩, hsix⟩ := h
  have hneedles : s.goodNeedles p = (allFin 7).filter (s.needleGood p) := by
    unfold State.goodNeedles; rw [hretired]; rfl
  have hk : k.val < (s.goodNeedles p).length := by rw [hneedles]; omega
  have hget : (s.placeSkein p).needles[k] = (s.goodNeedles p)[k.val] := by
    simp only [State.placeSkein, Fin.getElem_fin, Vector.getElem_ofFn, List.getElem?_eq_getElem hk, Option.getD_some]
  rw [hget]
  exact List.getElem_mem hk

theorem rowSkein_some {s : State} {c w : Nat} {l : LogSkein} (h : s.rowSkein c w = some l) :
    ∃ y x, s.enabledRows[c]? = some y ∧ (s.goodInRow y)[w]? = some x ∧ l = s.placeSkein (physSkein y x) := by
  obtain ⟨y, hy, hx⟩ := Option.bind_eq_some_iff.mp h
  obtain ⟨x, hx, hl⟩ := Option.map_eq_some_iff.mp hx
  exact ⟨y, x, hy, hx, hl.symm⟩

theorem goodInRow_good {s : State} {y : Fin 4} {x : Fin 5} {w : Nat} (h : (s.goodInRow y)[w]? = some x) :
    s.skeinGood (physSkein y x) = true := (List.mem_filter.mp (List.mem_of_getElem? h)).2

theorem rowMap_skein (s : State) (c w : Fin 4) : s.rowMap.skeins[4 * c.val + w.val] = s.rowSkein c.val w.val := by
  unfold State.rowMap
  rw [Vector.getElem_ofFn, show (4 * c.val + w.val) / 4 = c.val by omega, show (4 * c.val + w.val) % 4 = w.val by omega]

theorem fallbackMap_skein {s : State} {p : Fin 20} {k : Nat} {l : LogSkein} {hk : k < 16}
    (h : (s.fallbackMap p).skeins[k] = some l) : l = s.placeSkein p := by
  unfold State.fallbackMap at h
  rw [Vector.getElem_set] at h
  split at h
  · exact (Option.some.inj h).symm
  · rw [LMap.none, Vector.getElem_replicate] at h; cases h

/-- The skein at course c and wale w (R83). -/
theorem newMap_skein (s : State) (c w : Fin 4) (l : LogSkein) (h : s.newMap.skeins[4 * c.val + w.val] = some l) :
    s.skeinGood l.phys = true ∧ (∀ k : Fin 6, l.needles[k] ∈ s.goodNeedles l.phys) ∧
    (s.enabledRows ≠ [] → ∃ y, s.enabledRows[c.val]? = some y ∧ (s.goodInRow y)[w.val]?.map (physSkein y) = some l.phys) := by
  rcases newMap_cases s with ⟨hrows, p, hp, hmap⟩ | ⟨-, hmap⟩
  · have hl : l = s.placeSkein p := fallbackMap_skein (k := 4 * c.val + w.val) (hk := by omega) (by simpa only [hmap] using h)
    subst hl
    exact ⟨hp, placeSkein_needles hp, fun hne => absurd hrows hne⟩
  · simp only [hmap, rowMap_skein] at h
    obtain ⟨y, x, hy, hx, hl⟩ := rowSkein_some h
    subst hl
    have hgood := goodInRow_good hx
    exact ⟨hgood, placeSkein_needles hgood, fun _ => ⟨y, hy, by rw [hx]; rfl⟩⟩

theorem newMap_fallback_iff (s : State) : s.newMap.fallback = true ↔ s.enabledRows = [] ∧ ∃ p, s.skeinGood p = true := by
  rcases newMap_cases s with ⟨hrows, p, hp, hmap⟩ | ⟨hnot, hmap⟩ <;> rw [hmap]
  · exact iff_of_true rfl ⟨hrows, p, hp⟩
  · exact iff_of_false Bool.false_ne_true hnot

theorem fallbackMap_numbers (s : State) (p : Fin 20) :
    (s.fallbackMap p).courses = 1 ∧ (s.fallbackMap p).rows = 0 ∧ (s.fallbackMap p).needles = 6 := by
  refine ⟨rfl, rfl, ?_⟩
  have hin (i : Fin 16) : (s.fallbackMap p).skeins[i].isSome = decide (i = 0) := by
    simp only [State.fallbackMap, LMap.none, Fin.getElem_fin, Vector.getElem_set, Vector.getElem_replicate]
    by_cases h : i = 0
    · subst h; rfl
    · rw [if_neg fun e => h (Fin.ext e.symm)]; simp [h]
  unfold LMap.needles
  simp only [hin]
  rfl

theorem newMap_of_fallback (s : State) (h : s.newMap.fallback = true) :
    s.newMap.courses = 1 ∧ s.newMap.rows = 0 ∧ s.newMap.needles = 6 := by
  rcases newMap_cases s with ⟨-, p, -, hmap⟩ | ⟨hnot, -⟩
  · rw [hmap]; exact fallbackMap_numbers s p
  · exact absurd ((newMap_fallback_iff s).mp h) hnot

/-- With no good skein no row is enabled, and the map is empty. -/
theorem newMap_of_none_good (s : State) (h : ∀ p, s.skeinGood p = false) : s.newMap.courses = 0 ∧ s.newMap.needles = 0 := by
  have hrows : s.enabledRows = [] := by
    refine List.filter_eq_nil_iff.mpr fun y _ => ?_
    simp [h]
  rcases newMap_cases s with ⟨-, p, hp, -⟩ | ⟨-, hmap⟩
  · rw [h p] at hp; cases hp
  · have hempty (i : Fin 16) : s.rowMap.skeins[i].isSome = false := by
      simp [State.rowMap, State.rowSkein, hrows]
    rw [hmap]
    refine ⟨by simp [State.rowMap, hrows], ?_⟩
    unfold LMap.needles
    rw [List.filter_eq_nil_iff.mpr fun i _ => by rw [hempty]; exact Bool.false_ne_true]
    rfl

/-! ### The end of a census (R82, R493, R499) -/

/-- s with everything that retirements can change as t has it. -/
def State.retiring (s t : State) : State := { s with
  ports := t.ports, out := t.out, mem := t.mem, accesses := t.accesses, nextAccess := t.nextAccess, gauge := t.gauge
  distaffs := t.distaffs, freeCtr := t.freeCtr, cqs := t.cqs, fns := t.fns, sqs := t.sqs, jobs := t.jobs, tally := t.tally
  rep := t.rep }

/-- From s to t resources were retired, recorded, counted and reported, and nothing else changed. -/
structure Retires (s t : State) : Prop where
  rest : t = s.retiring t

theorem Retires.refl (s : State) : Retires s s := ⟨rfl⟩
theorem Retires.read {α : Type} {s t : State} (h : Retires s t) (g : State → α) : g t = g (s.retiring t) := congrArg g h.rest
theorem Retires.trans {s t u : State} (h : Retires s t) (k : Retires t u) : Retires s u :=
  ⟨Eq.trans k.rest (h.read fun x => x.retiring u)⟩
theorem Retires.foldl {α : Type} {s : State} {g : State → α → State} (l : List α) (hg : ∀ t x, Retires t (g t x)) :
    Retires s (l.foldl g s) :=
  List.foldlRecOn l g (motive := Retires s) (.refl s) fun _ h x _ => h.trans (hg _ x)
theorem Answers.retires {s t : State} (h : Answers s t) : Retires s t := ⟨h.read fun x => { x with rep := t.rep }⟩
theorem modRep_retires (s : State) (f : Rep → Rep) : Retires s (s.modRep f) := ⟨rfl⟩

theorem addEntry_retires (s : State) (kind : Fin 5) (num bankRow source : Nat) :
    Retires s (s.addEntry kind num bankRow source) := by
  have reported (t : State) : Retires t ((t.yardP 3 1).droppedStitch source kind.val num bankRow 0) :=
    ((yardP_answers t 3 1).trans (event_posts _ _ _ _ _).answers).retires
  unfold State.addEntry
  dsimp only
  split
  · exact .refl s
  · refine Retires.trans ?_ (reported _)
    split
    · exact modRep_retires s _
    · exact (modRep_retires s _).trans (modRep_retires _ _)

theorem retireFailures_retires (s : State) : Retires s s.retireFailures := by
  have hend {t : State} (h : Retires s t) (c : Bool) : Retires s (if c then t else t.repEvent 1) := by
    split
    · exact h
    · exact h.trans (modRep_retires t _)
  unfold State.retireFailures
  refine hend (.trans (.trans (.foldl _ fun t x => ?_) (.foldl _ fun t p => ?_)) (.foldl _ fun t x => ?_)) _
  · exact (modRep_retires t _).trans (addEntry_retires _ _ _ _ _)
  · exact (modRep_retires t _).trans (addEntry_retires _ _ _ _ _)
  · exact addEntry_retires _ _ _ _ _

/-- s with the census counted and its results in SELV_CENSUS. -/
def State.countCensus (s : State) (full : Bool) : State :=
  (s.yardP 2 1).modSelv fun v => { v with
    goodSkeins := BitVec.ofNat 5 ((allFin 20).filter s.skeinGood).length
    goodNeedles := BitVec.ofNat 8 (sumN ((allFin 20).map fun p => (s.goodNeedles p).length)), censusFull := full }
/-- SELV_FAULT of a die with a failing skein or needle. -/
def State.noteBadSilicon (s : State) (goodS goodN : Nat) : State := if goodS < 20 ∨ goodN < 140 then s.selvFault 5 else s
/-- A new map installed in place of `before` (R499). -/
def State.installMap (s : State) (before m : LMap) (first : Bool) : State := { s with map := { m with
  epoch := if first then 1 else if decide ({ m with epoch := 0 } ≠ { before with epoch := 0 }) then before.epoch + 1 else before.epoch } }
/-- The distance table's epoch and the fault bits of a new map. -/
def State.noteMap (s : State) (before m : LMap) (first : Bool) : State :=
  let s := { s with gauge := { s.gauge with distEpoch := s.map.epoch } }
  let s := if m.rows ≠ 0xF then s.selvFault 6 else s
  let s := if before.rows &&& ~~~m.rows ≠ 0 ∨ (first ∧ m.rows ≠ 0xF) then s.repEvent 4 else s
  if m.fallback then s.selvFault 7 else s
/-- SELV_WAKE names a skein of the map, or skein 0. -/
def State.fixWake (s : State) : State :=
  if s.skeinIn s.sentinelSkein then s else s.modSelv fun v => { v with wake := v.wake &&& 0xFFFFF0FF }
/-- s with a census counted and its results noted. -/
def State.censused (s : State) (full : Bool) : State := (s.countCensus full).noteBadSilicon
  ((allFin 20).filter s.skeinGood).length (sumN ((allFin 20).map fun p => (s.goodNeedles p).length))

/-- The steps of a census. -/
theorem census_eq (s : State) (full first : Bool) : (s.census full first).1 =
    ((((s.censused full).installMap s.map (s.censused full).newMap first).retireFailures.noteMap s.map
      (s.censused full).newMap first).clearSkeins).fixWake := rfl

/-- A census leaves every byte of the skein stores 0. -/
theorem census_clears (s : State) (full first : Bool) (a : Nat) (ha : a < 0x4000000) :
    memGet (s.census full first).1.mem a = 0 := by
  have hwake (t : State) : t.fixWake.mem = t.mem := by unfold State.fixWake; split <;> rfl
  rw [census_eq, hwake]
  exact (memGet_memClear _ _ _ _).trans (if_pos ⟨Nat.zero_le a, by omega⟩)

/-- What the map is built from: the silicon, the record, the die and the epoch in force. -/
theorem newMap_congr {s t : State} (hphys : t.phys = s.phys) (hrep : t.rep = s.rep) (hfuses : t.fuses = s.fuses)
    (hmap : t.map = s.map) : t.newMap = s.newMap := by
  have hneedle : t.needleGood = s.needleGood := by funext p j; simp only [State.needleGood, hphys, hrep]
  have hspares : t.sparesOf = s.sparesOf := by funext p b; simp only [State.sparesOf, hphys, hrep, hfuses]
  have hskein : t.skeinGood = s.skeinGood := by
    funext p; simp only [State.skeinGood, State.skeinSound, hphys, hrep, hneedle, hspares]
  have hgood : t.goodNeedles = s.goodNeedles := by funext p; simp only [State.goodNeedles, hrep, hneedle]
  have hplace : t.placeSkein = s.placeSkein := by funext p; simp only [State.placeSkein, hgood]
  have hrows : t.enabledRows = s.enabledRows := by simp only [State.enabledRows, hskein, hphys]
  simp only [State.newMap, hrows, hskein, hplace, hmap]

theorem censused_newMap (s : State) (full : Bool) : (s.censused full).newMap = s.newMap := by
  have hcount := yardP_answers s 2 1
  have hbad (t : State) (m n : Nat) : (t.noteBadSilicon m n).newMap = t.newMap := by
    unfold State.noteBadSilicon; split <;> rfl
  unfold State.censused
  rw [hbad]
  exact newMap_congr (s := s) (t := s.countCensus full) (hcount.read State.phys) (hcount.read State.rep)
    (hcount.read State.fuses) (hcount.read State.map)

/-- From s to t the map and the results of the last census stayed as they were. -/
structure CensusKept (s t : State) : Prop where
  map  : t.map = s.map
  good : t.selv.goodSkeins = s.selv.goodSkeins
  full : t.selv.censusFull = s.selv.censusFull

theorem CensusKept.refl (s : State) : CensusKept s s := ⟨rfl, rfl, rfl⟩
theorem CensusKept.trans {s t u : State} (h : CensusKept s t) (k : CensusKept t u) : CensusKept s u :=
  ⟨k.map.trans h.map, k.good.trans h.good, k.full.trans h.full⟩
theorem CensusKept.ite {c : Prop} [Decidable c] {s t u : State} (ht : CensusKept s t) (hu : CensusKept s u) :
    CensusKept s (if c then t else u) := by split <;> assumption
theorem Retires.censusKept {s t : State} (h : Retires s t) : CensusKept s t :=
  ⟨h.read State.map, h.read fun x => x.selv.goodSkeins, h.read fun x => x.selv.censusFull⟩
theorem Powers.censusKept {s t : State} (h : Powers s t) : CensusKept s t :=
  ⟨h.read State.map, h.readSelv Selv.goodSkeins, h.readSelv Selv.censusFull⟩
theorem modRep_censusKept (s : State) (f : Rep → Rep) : CensusKept s (s.modRep f) := ⟨rfl, rfl, rfl⟩
theorem selvFault_censusKept (s : State) (b : Nat) : CensusKept s (s.selvFault b) := ⟨rfl, rfl, rfl⟩

theorem noteMap_censusKept (s : State) (before m : LMap) (first : Bool) : CensusKept s (s.noteMap before m first) := by
  have fault (t : State) {c : Prop} [Decidable c] (b : Nat) : CensusKept t (if c then t.selvFault b else t) :=
    .ite (selvFault_censusKept t b) (.refl t)
  have event (t : State) {c : Prop} [Decidable c] : CensusKept t (if c then t.repEvent 4 else t) :=
    .ite (modRep_censusKept t _) (.refl t)
  have epoch : CensusKept s { s with gauge := { s.gauge with distEpoch := s.map.epoch } } := ⟨rfl, rfl, rfl⟩
  unfold State.noteMap
  dsimp only
  split
  · exact ((epoch.trans (fault _ 6)).trans (event _)).trans (selvFault_censusKept _ 7)
  · exact (epoch.trans (fault _ 6)).trans (event _)

theorem services_censusKept (s : State) (mgmt : Bool) : CensusKept s (s.services mgmt) := by
  have fault (t : State) (c : Bool) (b : Nat) : CensusKept t (if c then t else t.selvFault b) :=
    .ite (.refl t) (selvFault_censusKept t b)
  have ready (t : State) (a b : Bool) : CensusKept t (t.modSelv fun v => { v with ready := a, mgmtOk := a, computeOk := b }) :=
    ⟨rfl, rfl, rfl⟩
  unfold State.services
  dsimp only
  exact ((fault s mgmt 8).trans (fault _ _ 9)).trans (ready _ _ _)

/-- From the installed map on a census keeps it and its results. -/
theorem census_keeps (s : State) (full first : Bool) :
    CensusKept ((s.censused full).installMap s.map (s.censused full).newMap first) (s.census full first).1 := by
  have clear (t : State) : CensusKept t t.clearSkeins := ⟨rfl, rfl, rfl⟩
  have wake (t : State) : CensusKept t t.fixWake := .ite (.refl t) ⟨rfl, rfl, rfl⟩
  rw [census_eq]
  exact (((retireFailures_retires _).censusKept.trans (noteMap_censusKept _ _ _ _)).trans (clear _)).trans (wake _)

/-- The number of good skeins fits its field. -/
theorem goodSkeins_fits (s : State) : (BitVec.ofNat 5 ((allFin 20).filter s.skeinGood).length).toNat =
    ((allFin 20).filter s.skeinGood).length := by
  have hle := List.length_filter_le s.skeinGood (allFin 20)
  have hall : (allFin 20).length = 20 := List.length_finRange
  rw [BitVec.toNat_ofNat]
  exact Nat.mod_eq_of_lt (by omega)

/-- The results of a census (R82, R499). -/
theorem census_results (s : State) (full : Bool) :
    (s.census full false).1.map = { s.newMap with epoch :=
      if { s.newMap with epoch := 0 } = { s.map with epoch := 0 } then s.map.epoch else s.map.epoch + 1 } ∧
    (s.census full false).1.selv.goodSkeins.toNat = ((allFin 20).filter s.skeinGood).length ∧
    (s.census full false).1.selv.censusFull = full := by
  obtain ⟨hmap, hgood, hfull⟩ := census_keeps s full false
  have hbad (t : State) (m n : Nat) : CensusKept t (t.noteBadSilicon m n) := .ite (selvFault_censusKept t 5) (.refl t)
  rw [hmap, hgood, hfull, censused_newMap]
  refine ⟨?_, ?_, (hbad _ _ _).full⟩
  · unfold State.installMap
    simp only [Bool.false_eq_true, if_false, decide_eq_true_eq, ne_eq, ite_not]
  · exact (congrArg BitVec.toNat (hbad _ _ _).good).trans (goodSkeins_fits s)

/-- s with a census ended. -/
def State.closeCensus (s : State) : State := s.modRep fun r => { r with
  run := none, pending := false, pendingFull := false, suspect := r.suspect &&& r.retiredSkeins }

/-- The end of a re-census: the census, its services, its power, and the answer to a command. -/
theorem endCensus_answers {s : State} {r : CensusRun} (h : s.rep.run = some r) :
    Answers ((((s.census r.full false).1.closeCensus).services
      (s.census r.full false).1.closeCensus.mgmtPresent).repower false) (endCensus s) := by
  unfold endCensus
  rw [h]
  dsimp only
  split
  · exact ok_answers _ _ _
  · exact .refl _

theorem services_rep (s : State) (mgmt : Bool) : (s.services mgmt).rep = s.rep := by
  unfold State.services
  dsimp only
  split <;> split <;> rfl

theorem censusEnd_installs (s : State) (r : CensusRun) (h : s.rep.run = some r) : ∃ t, exec .censusEnd s = .next t ∧
    t.rep.run = none ∧ t.rep.pending = false ∧ t.rep.pendingFull = false ∧
    t.map = { s.newMap with epoch :=
      if { s.newMap with epoch := 0 } = { s.map with epoch := 0 } then s.map.epoch else s.map.epoch + 1 } ∧
    t.selv.goodSkeins.toNat = ((allFin 20).filter s.skeinGood).length ∧ t.selv.censusFull = r.full := by
  obtain ⟨hmap, hgood, hfull⟩ := census_results s r.full
  have hend := endCensus_answers h
  generalize (s.census r.full false).1 = c at hmap hgood hfull hend
  have hpower := (repower_powers (c.closeCensus.services c.closeCensus.mgmtPresent) false).trans hend.powers
  have hkept := ((modRep_censusKept c _).trans (services_censusKept c.closeCensus c.closeCensus.mgmtPresent)).trans hpower.censusKept
  have hrep : (endCensus s).rep = c.closeCensus.rep := (hpower.read State.rep).trans (services_rep _ _)
  refine ⟨endCensus s, rfl, ?_, ?_, ?_, hkept.map.trans hmap, ?_, hkept.full.trans hfull⟩
  · rw [hrep]; rfl
  · rw [hrep]; rfl
  · rw [hrep]; rfl
  · rw [hkept.good, hgood]

/-- Settles O33: the map is the rows' or the fallback (`newMap_cases`), and from its installation on a census keeps it
(`census_keeps`). -/
theorem censusBuildsTheMap : Obligations.CensusBuildsTheMap := by
  unfold Obligations.CensusBuildsTheMap
  exact ⟨newMap_skein, newMap_fallback_iff, newMap_of_fallback, newMap_of_none_good, censusEnd_installs, census_clears⟩

end Sys2Proof.Machine
end

section
/-! SUPPORT. Device states (04 R87 to R94): requests and transitions, hem events, and the P-points in force. -/
namespace Sys2Proof.Machine
open Sys2Proof Sys2Proof.Safety

/-! ### Requests (R90, R92) -/

theorem request_inForce {s : State} {d : DevSt} (r : CmdRef) (ht : s.selv.trans = none) (hd : d = s.selv.st) :
    s.request d (some r) = s.ok r [(20, 1, d.code.toNat)] := by
  unfold State.request
  rw [if_neg (by rw [ht]; exact Bool.false_ne_true), if_pos hd]

theorem request_deferred {s : State} (d : DevSt) (c : Option CmdRef) (ht : s.selv.trans.isSome = true) :
    (s.request d c).selv = { s.selv with deferred := some ⟨d, c⟩ } := by
  have hreply := (replyOpt_answers s (s.selv.deferred.bind Deferred.cmd) stConflict 0).read State.selv
  unfold State.request
  rw [if_pos ht]
  exact congrArg (fun v : Selv => { v with deferred := some ⟨d, c⟩ }) hreply

theorem request_refused {s : State} {d : DevSt} (r : CmdRef) {x : Nat × Nat} (ht : s.selv.trans = none) (hd : d ≠ s.selv.st)
    (hx : s.requestBad d = some x) : s.request d (some r) = s.reply r x.1 x.2 := by
  unfold State.request
  rw [if_neg (by rw [ht]; exact Bool.false_ne_true), if_neg hd, hx]

theorem request_starts {s : State} {d : DevSt} (c : Option CmdRef) (ht : s.selv.trans = none) (hd : d ≠ s.selv.st)
    (hx : s.requestBad d = none) : s.request d c = s.startTransition d c false := by
  unfold State.request
  rw [if_neg (by rw [ht]; exact Bool.false_ne_true), if_neg hd, hx]

theorem startTransition_noted (s : State) (d : DevSt) (c : Option CmdRef) (f : Bool) :
    (s.startTransition d c f).selv.trans = some ⟨d, c, f⟩ ∧ (s.startTransition d c f).selv.st = s.selv.st := by
  have h := startTransition_powers s d c f
  exact ⟨h.readSelv Selv.trans, h.readSelv Selv.st⟩

/-- The arrows of the table of device states (R90). -/
def stateArrows : List (DevSt × DevSt) :=
  [(.selvage, .sentinel), (.selvage, .loose), (.selvage, .taut), (.sentinel, .selvage),
   (.sentinel, .loose), (.sentinel, .taut), (.loose, .taut), (.taut, .loose), (.loose, .sentinel), (.taut, .sentinel),
   (.loose, .selvage), (.taut, .selvage), (.taut, .burst), (.burst, .taut)]

/-- A request that nothing forbids follows an arrow. -/
theorem requestBad_none_arrow {s : State} {d : DevSt} (h : s.requestBad d = none) : (s.selv.st, d) ∈ stateArrows := by
  unfold State.requestBad at h
  dsimp only at h
  generalize s.selv.st = a at h ⊢
  split_ifs at h with hrun hsent hk hselv hcasts hwork hlt hsent2 hselv2 hburst hpower htaut
  · obtain ⟨rfl, rfl⟩ := hsent; decide
  · obtain ⟨rfl, rfl⟩ := hselv; decide
  · obtain ⟨rfl | rfl, rfl | rfl⟩ := hwork <;> decide
  · obtain ⟨rfl, rfl⟩ | ⟨rfl, rfl⟩ := hlt <;> decide
  · obtain ⟨rfl | rfl, rfl⟩ := hsent2 <;> decide
  · obtain ⟨rfl | rfl, rfl⟩ := hselv2 <;> decide
  · obtain ⟨rfl, rfl⟩ := hburst; decide
  · obtain ⟨rfl, rfl⟩ := htaut; decide

/-- What Burst needs (R90, R96). -/
def State.burstFree (s : State) : Prop := s.selv.recoveryLeft = 0 ∧ s.selv.thermalStep = 0 ∧ s.cooler 85 80 = true

theorem requestBad_burst {s : State} (h : s.selv.st = .taut) : s.requestBad .burst =
    if s.rep.run.isSome then some (stConflict, 2)
    else if s.selv.recoveryLeft ≠ 0 ∨ s.selv.thermalStep ≠ 0 ∨ s.cooler 85 80 = false then some (stPowerLimit, 0) else none := by
  unfold State.requestBad
  simp [h]

theorem burstFree_iff (s : State) :
    s.burstFree ↔ ¬ (s.selv.recoveryLeft ≠ 0 ∨ s.selv.thermalStep ≠ 0 ∨ s.cooler 85 80 = false) := by
  unfold State.burstFree
  rw [not_or, not_or, not_not, not_not, Bool.not_eq_false]

theorem burst_needs {s : State} (h : s.selv.st = .taut) :
    (s.requestBad .burst = none → s.burstFree) ∧
    (s.rep.run = none → ¬ s.burstFree → s.requestBad .burst = some (stPowerLimit, 0)) := by
  rw [requestBad_burst h, burstFree_iff, not_not]
  refine ⟨fun hnone hbad => ?_, fun hrun hbad => ?_⟩
  · rw [if_pos hbad] at hnone
    split at hnone <;> cases hnone
  · rw [hrun, if_pos hbad]
    rfl

/-! ### The end of a transition (R91) -/

/-- What is entered with a state, before the power follows. -/
theorem enter_cases (s : State) (d : DevSt) : ∃ u : State, s.enter d = u.repower false ∧
    u.selv = { s.selv with st := d, windowLeft := if d = .burst then 2000 else 0, windowUsed := 0, capped := 0 } := by
  have saves (t : State) : ((allFin 8).foldl (fun s i => if s.swatches[i].st = .held ∧ s.swatches[i].saveOwed then
      s.modSw i fun w => { w with holdStep := .saving } else s) t).selv = t.selv := by
    refine foldl_keeps State.selv _ (fun u i => ?_) _ _
    split <;> rfl
  unfold State.enter
  refine ⟨_, rfl, ?_⟩
  dsimp only
  split
  · rw [saves]; split <;> rfl
  · split <;> rfl

theorem enter_selv (s : State) (d : DevSt) : (s.enter d).selv.st = d ∧ (s.enter d).selv.trans = s.selv.trans ∧
    (s.enter d).selv.deferred = s.selv.deferred ∧ (d = .burst → (s.enter d).selv.windowLeft = 2000) := by
  obtain ⟨u, henter, hselv⟩ := enter_cases s d
  rw [henter, repower_readSelv u false Selv.st fun _ _ _ _ _ => rfl, repower_readSelv u false Selv.trans fun _ _ _ _ _ => rfl,
    repower_readSelv u false Selv.deferred fun _ _ _ _ _ => rfl, repower_readSelv u false Selv.windowLeft fun _ _ _ _ _ => rfl,
    hselv]
  exact ⟨rfl, rfl, rfl, fun hd => if_pos hd⟩

theorem transitionEnd_idle {s : State} (h : s.selv.trans = none ∨ s.transitionReady = false) :
    exec .deviceStateTransitionEnd s = .next s := by
  change Host.Outcome.next (endTransition s) = _
  unfold endTransition
  split
  · rfl
  · next t ht =>
    have hready : s.transitionReady = false := h.resolve_left fun hn => by rw [hn] at ht; cases ht
    rw [if_pos (by rw [hready]; rfl)]

/-- s with its transition over, in state d. -/
def State.arriveIn (s : State) (d : DevSt) : State := (s.modSelv fun v => { v with trans := none }).enter d

theorem arriveIn_eq (s : State) (d : DevSt) : (s.modSelv fun v => { v with trans := none }).enter d = s.arriveIn d := rfl

theorem arriveIn_selv (s : State) (d : DevSt) : (s.arriveIn d).selv.st = d ∧ (s.arriveIn d).selv.trans = none ∧
    (s.arriveIn d).selv.deferred = s.selv.deferred ∧ (d = .burst → (s.arriveIn d).selv.windowLeft = 2000) := by
  unfold State.arriveIn
  exact enter_selv _ d

theorem transitionEnd_arrives {s : State} {d : DevSt} {c : Option CmdRef} {f : Bool} (ht : s.selv.trans = some ⟨d, c, f⟩)
    (hready : s.transitionReady = true) (hq : s.selv.deferred = none) : exec .deviceStateTransitionEnd s = .next (match c with
      | some r => (s.arriveIn d).reply r stOk 0 [(20, 1, d.code.toNat)] (b2n f)
      | none => s.arriveIn d) := by
  obtain ⟨-, -, hdeferred, -⟩ := arriveIn_selv s d
  have hnone : (s.arriveIn d).selv.deferred = none := hdeferred.trans hq
  change Host.Outcome.next (endTransition s) = _
  unfold endTransition
  simp only [ht, hready, arriveIn_eq]
  cases c with
  | none => simp only [hnone]; rfl
  | some r =>
    have hreply : ((s.arriveIn d).reply r stOk 0 [(20, 1, d.code.toNat)] (b2n f)).selv.deferred = none :=
      (congrArg Selv.deferred (reply_answers _ _ _ _ _ _ _).selv).trans hnone
    simp only [hreply]; rfl

/-! ### Hem events (R60, R90) -/

/-- The enable bit of SELV_WAKE of a hem event's source. -/
def HemSource.wakeBit : HemSource → Nat
  | .gpio => 0
  | .soundwire => 1
  | .outerChain => 2

/-- Whether the device is in Selvage or on the way there. -/
def State.selvageBound (s : State) : Prop := s.selv.st = .selvage ∨ s.selv.trans.map Transition.target = some .selvage

theorem hemEvent_eq (s : State) (src : HemSource) : exec (.hemEvent src) s = .next
    (if s.shuskaub ∧ s.selv.ready ∧ s.selv.wake.getLsbD (HemSource.wakeBit src) ∧ s.selv.wake.getLsbD 3 ∧
      (decide (s.selv.st = .selvage) || decide (s.selv.trans.map Transition.target = some .selvage)) then
      s.request .sentinel none else s) := by
  cases src <;> rfl

theorem hemEvent_requests (s : State) (src : HemSource) :
    (s.shuskaub = true → s.selv.ready = true → s.selv.wake.getLsbD (HemSource.wakeBit src) = true → s.selv.wake.getLsbD 3 = true →
      s.selvageBound → exec (.hemEvent src) s = .next (s.request .sentinel none)) ∧
    (s.shuskaub = false ∨ s.selv.ready = false ∨ s.selv.wake.getLsbD (HemSource.wakeBit src) = false ∨
      s.selv.wake.getLsbD 3 = false ∨ ¬ s.selvageBound → exec (.hemEvent src) s = .next s) := by
  have hbound : (decide (s.selv.st = .selvage) || decide (s.selv.trans.map Transition.target = some .selvage)) = true ↔
      s.selvageBound := by rw [Bool.or_eq_true, decide_eq_true_iff, decide_eq_true_iff]; rfl
  rw [hemEvent_eq]
  refine ⟨fun hshus hready hbit henable hsel => congrArg Host.Outcome.next (if_pos ⟨hshus, hready, hbit, henable, hbound.mpr hsel⟩),
    fun hno => congrArg Host.Outcome.next (if_neg ?_)⟩
  rintro ⟨hshus, hready, hbit, henable, hsel⟩
  simp only [hshus, hready, hbit, henable, hbound.mp hsel, Bool.true_eq_false, not_true_eq_false, or_self] at hno

/-! ### The P-points in force and the rail (R93, R94) -/

theorem railRampDone_eq (s : State) : (s.selv.ramp = none → exec .railRampDone s = .next s) ∧
    (∀ r, s.selv.ramp = some r → exec .railRampDone s =
      .next (State.answerPp (State.repower { s with selv := { s.selv with rail := r, ramp := none } } false))) := by
  change (_ → Host.Outcome.next (rampDone s) = _) ∧ ∀ r, _ → Host.Outcome.next (rampDone s) = _
  unfold rampDone
  refine ⟨fun h => by rw [h], fun r h => ?_⟩
  simp only [h]
  rfl

/-- The largest value of a list from a bound up: it bounds them all, and is one of them or the bound. -/
theorem foldl_max_spec {α β : Type} [LinearOrder β] (f : α → β) (l : List α) (b : β) :
    b ≤ l.foldl (fun m k => max m (f k)) b ∧ (∀ k ∈ l, f k ≤ l.foldl (fun m k => max m (f k)) b) ∧
    (l.foldl (fun m k => max m (f k)) b = b ∨ ∃ k ∈ l, l.foldl (fun m k => max m (f k)) b = f k) := by
  induction l generalizing b with
  | nil => exact ⟨le_refl b, fun k hk => absurd hk List.not_mem_nil, .inl rfl⟩
  | cons a l ih =>
    obtain ⟨hbound, hall, hattained⟩ := ih (max b (f a))
    rw [List.foldl_cons]
    refine ⟨(le_max_left _ _).trans hbound, fun k hk => ?_, ?_⟩
    · rcases List.mem_cons.mp hk with rfl | hk
      · exact (le_max_right _ _).trans hbound
      · exact hall k hk
    · rcases hattained with h | ⟨k, hk, h⟩
      · rcases max_choice b (f a) with hm | hm
        · exact .inl (h.trans hm)
        · exact .inr ⟨a, List.mem_cons_self, h.trans hm⟩
      · exact .inr ⟨k, List.mem_cons_of_mem a hk, h⟩

theorem nextPp_get (s : State) (tick : Bool) (k : Fin 16) : (s.nextPp tick)[k] =
    if s.hardSkein k && s.onMask.getLsbD k.val && !tick then s.selv.ppoint[k]
    else BitVec.ofNat 2 (min (s.wantIn k) s.selv.rail.toNat) := mapV_get _ _ k

/-- The P-point of a skein whose clock may switch: what is wanted, as far as the rail allows it. -/
theorem repower_ppoint_free (s : State) (tick : Bool) (k : Fin 16) (h : (s.hardSkein k && s.onMask.getLsbD k.val) = false ∨ tick = true) :
    (s.repower tick).selv.ppoint[k].toNat = if s.onMask.getLsbD k.val then min (s.wantPp k) s.selv.rail.toNat else 0 := by
  have hfree : (s.hardSkein k && s.onMask.getLsbD k.val && !tick) = false := by
    rcases h with h | h <;> rw [h]
    · rfl
    · exact Bool.and_false _
  have hrail := s.selv.rail.isLt
  rw [repower_ppoint, nextPp_get, hfree, if_neg Bool.false_ne_true, BitVec.toNat_ofNat, Nat.mod_eq_of_lt (by omega), State.wantIn]
  split
  · rfl
  · exact Nat.zero_min _

/-- The highest P-point in force is one of them, or 0. -/
theorem usedPp_spec (s : State) (tick : Bool) :
    (∀ k : Fin 16, ((s.nextPp tick)[k]).toNat ≤ s.usedPp tick) ∧ s.usedPp tick < 4 := by
  unfold State.usedPp
  obtain ⟨-, hall, hattained⟩ := foldl_max_spec (fun k => ((s.nextPp tick)[k]).toNat) (allFin 16) 0
  refine ⟨fun k => hall k (List.mem_finRange k), ?_⟩
  rcases hattained with h | ⟨j, -, h⟩ <;> rw [h]
  · decide
  · exact ((s.nextPp tick)[j]).isLt

/-- The rail stays at or above every P-point in force. -/
theorem ppoint_le_rail (s : State) (tick : Bool) (k : Fin 16) :
    (s.repower tick).selv.ppoint[k].toNat ≤ (s.repower tick).selv.rail.toNat := by
  obtain ⟨hall, hused⟩ := usedPp_spec s tick
  have hrail := s.selv.rail.isLt
  rw [repower_rail, repower_ppoint, BitVec.toNat_ofNat, Nat.mod_eq_of_lt (by omega)]
  exact (hall k).trans (le_max_right _ _)

/-- What a change of power does to a skein (R93, R94). -/
theorem repower_skein (s : State) (k : Fin 16) (tick : Bool) :
    let hard := s.hardSkein k && s.onMask.getLsbD k.val
    (s.repower tick).selv.skeinsOn = s.onMask ∧
    (hard = true → tick = false → (s.repower tick).selv.ppoint[k] = s.selv.ppoint[k]) ∧
    (hard = false ∨ tick = true →
      (s.repower tick).selv.ppoint[k].toNat = if s.onMask.getLsbD k.val then min (s.wantPp k) s.selv.rail.toNat else 0) ∧
    (s.repower tick).selv.ppoint[k].toNat ≤ (s.repower tick).selv.rail.toNat := by
  refine ⟨repower_skeinsOn s tick, fun hhard htick => ?_, repower_ppoint_free s tick k, ppoint_le_rail s tick k⟩
  rw [repower_ppoint, nextPp_get, hhard, htick]
  rfl

/-- A hard swatch's powered skein, as the statement writes it. -/
theorem hardSkein_and (s : State) (k : Fin 16) (on : Bool) : (s.hardSkein k && on) = (s.powered k && on && match s.swatchOf k with
    | some i => s.swatches[i].cls = .hard && (s.swatches[i].st = .knitting || s.swatches[i].st = .frogged)
    | none => false) := by
  unfold State.hardSkein
  cases s.swatchOf k with
  | none => exact (Bool.and_false _).symm
  | some i => dsimp only; ac_rfl

/-- The end of a transition whose far sides have let it end (R91). -/
theorem transitionEnd_enters {s : State} {d : DevSt} {c : Option CmdRef} {f : Bool} (ht : s.selv.trans = some ⟨d, c, f⟩)
    (hready : s.transitionReady = true) (hq : s.selv.deferred = none) :
    let t := State.enter { s with selv := { s.selv with trans := none } } d
    t.selv.st = d ∧ t.selv.trans = none ∧ (d = .burst → t.selv.windowLeft = 2000) ∧
    (c = none → exec .deviceStateTransitionEnd s = .next t) ∧
    (∀ r, c = some r → exec .deviceStateTransitionEnd s = .next (t.reply r stOk 0 [(20, 1, d.code.toNat)] (if f then 1 else 0))) := by
  intro t
  have htarget : t = s.arriveIn d := rfl
  obtain ⟨hst, htrans, -, hwindow⟩ := arriveIn_selv s d
  have hend := transitionEnd_arrives ht hready hq
  rw [htarget]
  exact ⟨hst, htrans, hwindow, fun hc => by subst hc; exact hend, fun r hc => by subst hc; exact hend⟩

/-- Settles O38: requests are followed through `State.request`, the end of a transition through `enter_cases`, and the P-points
through `repower_eq`. -/
theorem deviceStateTransitions : Obligations.DeviceStateTransitions := by
  unfold Obligations.DeviceStateTransitions
  refine ⟨fun e s s1 h hhere => ?_, fun s d r => ⟨request_inForce r, fun ht => ?_,
      fun ht hd => ⟨fun x => request_refused r ht hd, fun hx => ?_⟩,
    fun h => (burst_needs h).1, fun h => (burst_needs h).2⟩, fun s => ⟨fun h => transitionEnd_idle (.inl h),
    fun h => transitionEnd_idle (.inr h), fun d c f => transitionEnd_enters⟩, fun s src => ?_, railRampDone_eq, fun s k tick => ?_⟩
  · have hown : ¬ (s.fuses.twin = true ∧ (!s.fuses.primary) = true) := by
      rintro ⟨htwin, hprimary⟩
      rcases hhere with h | h
      · rw [h] at htwin; cases htwin
      · rw [h] at hprimary; cases hprimary
    have hexec : exec (.setDeviceState e) s = .next (cmdSetDeviceState.dispatch e s) := congrArg Host.Outcome.next (if_neg hown)
    rw [hexec, dispatch_accepts h, cmdSetDeviceState]
  · rw [request_deferred d (some r) ht]
    exact ⟨rfl, rfl, rfl⟩
  · obtain ⟨htrans, hst⟩ := startTransition_noted s d (some r) false
    rw [request_starts (some r) ht hd hx]
    exact ⟨htrans, hst, requestBad_none_arrow hx⟩
  · obtain ⟨hgoes, hstays⟩ := hemEvent_requests s src
    refine ⟨hgoes, fun h => hstays ?_⟩
    rw [State.selvageBound, not_or]
    exact h
  · intro on hard
    have hhard : hard = (s.hardSkein k && s.onMask.getLsbD k.val) := (hardSkein_and s k _).symm
    have hon : on = s.onMask := rfl
    rw [hhard, hon]
    exact repower_skein s k tick

end Sys2Proof.Machine
end

section
/-! SUPPORT. The budget (04 R95), the Burst window (R96, 21 R531) and the steps of thermal throttling (21 R528, R529). -/
namespace Sys2Proof.Machine
open Sys2Proof Sys2Proof.Safety

/-! ### One skein of several (log 11) -/

theorem event_selv (s : State) (kind source status : Nat) (extra : DWord) : (s.event kind source status extra).selv = s.selv :=
  (event_posts s kind source status extra).read State.selv

theorem pickSkein_nil (s : State) : s.pickSkein [] = none := rfl

theorem pickSkein_mem (s : State) {ks : List (Fin 16)} (h : ks ≠ []) : ∃ k ∈ ks, s.pickSkein ks = some k := by
  have hlt : s.freeVal.toNat % ks.length < ks.length := Nat.mod_lt _ (List.length_pos_iff.mpr h)
  exact ⟨ks[s.freeVal.toNat % ks.length], List.getElem_mem hlt, List.getElem?_eq_getElem hlt⟩

/-- A skein with a property is picked where there is one. -/
theorem pickSkein_filter (s : State) {p : Fin 16 → Bool} (h : ∃ k, p k = true) :
    ∃ k, p k = true ∧ s.pickSkein ((allFin 16).filter p) = some k := by
  obtain ⟨j, hj⟩ := h
  have hne : (allFin 16).filter p ≠ [] := List.ne_nil_of_mem (List.mem_filter.mpr ⟨List.mem_finRange j, hj⟩)
  obtain ⟨k, hk, hpick⟩ := pickSkein_mem s hne
  exact ⟨k, (List.mem_filter.mp hk).2, hpick⟩

theorem pickSkein_filter_none (s : State) {p : Fin 16 → Bool} (h : ∀ k, p k = false) :
    s.pickSkein ((allFin 16).filter p) = none := by
  rw [List.filter_eq_nil_iff.mpr fun k _ => by rw [h k]; exact Bool.false_ne_true, pickSkein_nil]

/-- Which skeins may be lowered depends on the power and the P-points of the SELV block alone. -/
theorem lowerable_modSelv (s : State) (f : Selv → Selv) (hon : (f s.selv).skeinsOn = s.selv.skeinsOn)
    (hpp : (f s.selv).ppoint = s.selv.ppoint) : (s.modSelv f).lowerable = s.lowerable := by
  funext c
  simp only [State.lowerable, State.powered, modSelv_selv, hon, hpp]
  rfl

/-- s with some of the SELV block changed by a free choice, and the power following it. -/
def State.adjust (s : State) (f : Selv → Selv) : State := (s.useFree.modSelv f).repower false

theorem adjust_readSelv {α : Type} (s : State) (f : Selv → Selv) (g : Selv → α)
    (hg : ∀ v on rail ramp pp, g (Selv.switched v on rail ramp pp) = g v) : g (s.adjust f).selv = g (f s.selv) :=
  repower_readSelv (s.useFree.modSelv f) false g hg

theorem adjust_frame (s : State) (f : Selv → Selv) : (s.adjust f).mem = s.mem ∧ (s.adjust f).out = s.out := by
  obtain ⟨-, -, hmem, -, hout, -⟩ := repower_frame (s.useFree.modSelv f) false
  exact ⟨hmem, hout⟩

/-! ### The budget (R95) -/

/-- s with the average of the last second noted. -/
def State.noteSecond (s : State) (avg : Word) : State := s.modSelv fun v => { v with avg1s := BitVec.ofNat 16 (min 0xFFFF avg.toNat) }
/-- The skeins a power above the budget lowers first: those of free swatches, then of loose ones. -/
def State.budgetSkeins (s : State) : List (Fin 16) := if (s.lowerable .free).isEmpty then s.lowerable .loose else s.lowerable .free
/-- One P-point taken from, and given back to, a skein by the limiter. -/
def Selv.limit (k : Fin 16) (v : Selv) : Selv := { v with limited := upd v.limited k (· + 1) }
def Selv.unlimit (k : Fin 16) (v : Selv) : Selv := { v with limited := upd v.limited k (· - 1) }

theorem limitBudget_eq (avg : Word) (s : State) : limitBudget avg s =
    if s.selv.budget.toNat < avg.toNat then
      match ((s.noteSecond avg).selvFault 11).pickSkein ((s.noteSecond avg).selvFault 11).budgetSkeins with
      | some k => (((s.noteSecond avg).selvFault 11).adjust (Selv.limit k)).event 0x06 k.val stPowerLimit
      | none => (s.noteSecond avg).selvFault 11
    else if avg.toNat * 10 < s.selv.budget.toNat * 9 ∧ s.selv.thermalStep = 0 then
      match (s.noteSecond avg).pickSkein ((allFin 16).filter fun k => decide (0 < s.selv.limited[k])) with
      | some k => (s.noteSecond avg).adjust (Selv.unlimit k)
      | none => s.noteSecond avg
    else s.noteSecond avg := rfl

theorem budgetLimiter_notReady {s : State} (avg : Word) (h : s.selv.ready = false) : exec (.budgetLimiter avg) s = .next s :=
  congrArg Host.Outcome.next (if_neg (by rw [h]; exact Bool.false_ne_true))

theorem budgetLimiter_ready {s : State} (avg : Word) (h : s.selv.ready = true) :
    exec (.budgetLimiter avg) s = .next (limitBudget avg s) := congrArg Host.Outcome.next (if_pos h)

theorem budgetSkeins_noted (s : State) (avg : Word) : ((s.noteSecond avg).selvFault 11).budgetSkeins = s.budgetSkeins := by
  have hlow : ((s.noteSecond avg).selvFault 11).lowerable = s.lowerable :=
    (lowerable_modSelv (s.noteSecond avg) _ rfl rfl).trans (lowerable_modSelv s _ rfl rfl)
  unfold State.budgetSkeins
  rw [hlow]

theorem limitBudget_above {avg : Word} {s : State} (h : s.selv.budget.toNat < avg.toNat) :
    (s.budgetSkeins = [] → limitBudget avg s = (s.noteSecond avg).selvFault 11) ∧
    (s.budgetSkeins ≠ [] → ∃ t, ∃ k ∈ s.budgetSkeins, limitBudget avg s = t ∧
      t.selv.fault = setBit s.selv.fault 11 ∧ t.selv.limited = s.selv.limited.set k (s.selv.limited[k] + 1)) := by
  rw [limitBudget_eq, if_pos h, budgetSkeins_noted]
  refine ⟨fun hks => by rw [hks, pickSkein_nil], fun hks => ?_⟩
  obtain ⟨k, hk, hpick⟩ := pickSkein_mem ((s.noteSecond avg).selvFault 11) hks
  rw [hpick]
  refine ⟨_, k, hk, rfl, ?_, ?_⟩
  · rw [event_selv]
    exact adjust_readSelv _ _ Selv.fault fun _ _ _ _ _ => rfl
  · rw [event_selv]
    exact adjust_readSelv _ _ Selv.limited fun _ _ _ _ _ => rfl

theorem limitBudget_within {avg : Word} {s : State} (h : avg.toNat ≤ s.selv.budget.toNat)
    (hno : s.selv.budget.toNat * 9 ≤ avg.toNat * 10 ∨ s.selv.thermalStep ≠ 0) : limitBudget avg s = s.noteSecond avg := by
  rw [limitBudget_eq, if_neg (Nat.not_lt.mpr h), if_neg]
  rintro ⟨hlow, hstep⟩
  exact hno.elim (fun hle => absurd hlow (Nat.not_lt.mpr hle)) fun hne => hne hstep

theorem limitBudget_below {avg : Word} {s : State} (h : avg.toNat * 10 < s.selv.budget.toNat * 9) (hstep : s.selv.thermalStep = 0)
    (hk : ∃ k : Fin 16, 0 < s.selv.limited[k]) : ∃ t, ∃ k : Fin 16, 0 < s.selv.limited[k] ∧ limitBudget avg s = t ∧
      t.selv.limited = s.selv.limited.set k (s.selv.limited[k] - 1) ∧ t.selv.fault = s.selv.fault ∧ t.out = s.out := by
  obtain ⟨j, hj⟩ := hk
  obtain ⟨k, hk, hpick⟩ := pickSkein_filter (s.noteSecond avg) (p := fun k => decide (0 < s.selv.limited[k])) ⟨j, decide_eq_true hj⟩
  rw [limitBudget_eq, if_neg (by omega), if_pos ⟨h, hstep⟩, hpick]
  refine ⟨_, k, of_decide_eq_true hk, rfl, ?_, ?_, (adjust_frame _ _).2⟩
  · rw [adjust_readSelv _ _ Selv.limited fun _ _ _ _ _ => rfl]
    simp only [Selv.unlimit, State.noteSecond, modSelv_selv, upd]
  · rw [adjust_readSelv _ _ Selv.fault fun _ _ _ _ _ => rfl]
    simp only [Selv.unlimit, State.noteSecond, modSelv_selv]

/-- The rows of the budget limiter. -/
theorem budgetLimiter_limits (s : State) (avg : Word) :
    let b := s.selv.budget.toNat
    let noted : State := { s with selv := { s.selv with avg1s := BitVec.ofNat 16 (min 0xFFFF avg.toNat) } }
    let ks := if (s.lowerable .free).isEmpty then s.lowerable .loose else s.lowerable .free
    (s.selv.ready = false → exec (.budgetLimiter avg) s = .next s) ∧
    (s.selv.ready = true → avg.toNat ≤ b → b * 9 ≤ avg.toNat * 10 ∨ s.selv.thermalStep ≠ 0 →
      exec (.budgetLimiter avg) s = .next noted) ∧
    (s.selv.ready = true → b < avg.toNat → ks = [] → exec (.budgetLimiter avg) s =
      .next ({ noted with selv := { noted.selv with fault := setBit s.selv.fault 11 } } : State)) ∧
    (s.selv.ready = true → b < avg.toNat → ks ≠ [] → ∃ t, ∃ k ∈ ks, exec (.budgetLimiter avg) s = .next t ∧
      t.selv.fault = setBit s.selv.fault 11 ∧ t.selv.limited = s.selv.limited.set k (s.selv.limited[k] + 1)) ∧
    (s.selv.ready = true → avg.toNat * 10 < b * 9 → s.selv.thermalStep = 0 → (∃ k : Fin 16, 0 < s.selv.limited[k]) →
      ∃ t, ∃ k : Fin 16, 0 < s.selv.limited[k] ∧ exec (.budgetLimiter avg) s = .next t ∧
        t.selv.limited = s.selv.limited.set k (s.selv.limited[k] - 1) ∧ t.selv.fault = s.selv.fault ∧ t.out = s.out) := by
  intro b noted ks
  refine ⟨budgetLimiter_notReady avg, fun hready h hno => ?_, fun hready h hks => ?_, fun hready h hks => ?_,
    fun hready h hstep hk => ?_⟩ <;> rw [budgetLimiter_ready avg hready]
  · rw [limitBudget_within h hno]; rfl
  · rw [(limitBudget_above h).1 hks]; rfl
  · obtain ⟨t, k, hk, ht, hrest⟩ := (limitBudget_above h).2 hks
    exact ⟨t, k, hk, congrArg Host.Outcome.next ht, hrest⟩
  · obtain ⟨t, k, hk, ht, hrest⟩ := limitBudget_below h hstep hk
    exact ⟨t, k, hk, congrArg Host.Outcome.next ht, hrest⟩

/-! ### The Burst window (R96, 21 R531) -/

/-- s with the average of the last millisecond noted, and a millisecond of the Burst window passed. -/
def State.noteMillisecond (s : State) (avg : Word) : State := s.modSelv fun v => { v with avg1ms := BitVec.ofNat 16 (min 0xFFFF avg.toNat) }
def State.passMillisecond (s : State) : State := s.modSelv fun v => { v with
  windowLeft := v.windowLeft - (if v.windowLeft = 0 then 0 else 1), windowUsed := min 2000 (v.windowUsed + 1) }
/-- A skein kept from P3. -/
def Selv.cap (k : Fin 16) (v : Selv) : Selv := { v with capped := setBit v.capped k.val }

theorem checkBurst_eq (avg : Word) (s : State) : checkBurst avg s =
    if s.selv.st ≠ .burst then s.noteMillisecond avg
    else if 62000 < avg.toNat then
      match (s.noteMillisecond avg).passMillisecond.pickSkein
          ((allFin 16).filter fun k => s.powered k && decide (s.selv.ppoint[k] = 3)) with
      | some k => (s.noteMillisecond avg).passMillisecond.adjust (Selv.cap k)
      | none => (s.noteMillisecond avg).passMillisecond
    else (s.noteMillisecond avg).passMillisecond := rfl

theorem checkBurst_above {avg : Word} {s : State} (hst : s.selv.st = .burst) (h : 62000 < avg.toNat)
    (hk : ∃ k : Fin 16, s.powered k = true ∧ s.selv.ppoint[k] = 3) :
    ∃ t, ∃ k : Fin 16, s.powered k = true ∧ s.selv.ppoint[k] = 3 ∧ checkBurst avg s = t ∧
      t.selv.capped = setBit s.selv.capped k.val ∧ t.mem = s.mem := by
  obtain ⟨j, hpow, hp3⟩ := hk
  obtain ⟨k, hk, hpick⟩ := pickSkein_filter (s.noteMillisecond avg).passMillisecond
    (p := fun k => s.powered k && decide (s.selv.ppoint[k] = 3)) ⟨j, by rw [hpow, decide_eq_true hp3]; rfl⟩
  obtain ⟨hpow, hp3⟩ := Bool.and_eq_true_iff.mp hk
  rw [checkBurst_eq, if_neg (not_not.mpr hst), if_pos h, hpick]
  refine ⟨_, k, hpow, of_decide_eq_true hp3, rfl, ?_, (adjust_frame _ _).1⟩
  rw [adjust_readSelv _ _ Selv.capped fun _ _ _ _ _ => rfl]
  simp only [Selv.cap, State.noteMillisecond, State.passMillisecond, modSelv_selv]

theorem endBurst_readSelv {α : Type} (s : State) (j : Nat) (g : Selv → α)
    (hg : ∀ v on rail ramp pp, g (Selv.switched v on rail ramp pp) = g v) : g (s.endBurst j).selv = g (s.selv.windowOver j) := by
  rw [(endBurst_answers s j).selv]
  exact repower_readSelv _ false g hg

/-- A Burst window that ends counts no kilojoule while there is none. -/
theorem endBurst_tally {s : State} {j : Nat} (h : s.selv.burstJoules + j < 1000) : (s.endBurst j).tally = s.tally := by
  obtain ⟨-, -, -, -, -, htally⟩ := repower_frame (s.modSelv fun v => v.windowOver j) false
  rw [endBurst_eq, if_pos (Nat.div_eq_of_lt h)]
  exact htally

/-- s with its window of 2 s used up, on the way to Taut. -/
def State.windowToTaut (s : State) : State := s.modSelv fun v => { v with trans := some ⟨.taut, none, false⟩, windowUsed := 2000 }

theorem burstWindowEnd_eq (s : State) (j : Nat) : exec (.burstWindowEnd j) s =
    .next (if s.selv.st = .burst ∧ s.selv.trans = none then s.windowToTaut.endBurst j else s) := by
  have hexec : exec (.burstWindowEnd j) s =
      .next (if s.selv.st = .burst ∧ s.selv.trans.isNone then s.windowToTaut.endBurst j else s) := rfl
  rw [hexec]
  simp only [Option.isNone_iff_eq_none]

theorem windowToTaut_endBurst (s : State) (j : Nat) :
    (s.windowToTaut.endBurst j).selv.trans = some ⟨.taut, none, false⟩ ∧ (s.windowToTaut.endBurst j).selv.recoveryLeft = 8000 ∧
    (s.windowToTaut.endBurst j).selv.windowLeft = 0 ∧
    (s.windowToTaut.endBurst j).selv.burstJoules = (s.selv.burstJoules + j) % 1000 ∧
    (s.selv.burstJoules + j < 1000 → (s.windowToTaut.endBurst j).tally = s.tally) := by
  refine ⟨?_, ?_, ?_, ?_, fun h => endBurst_tally h⟩
  · rw [endBurst_readSelv _ _ Selv.trans fun _ _ _ _ _ => rfl]; rfl
  · rw [endBurst_readSelv _ _ Selv.recoveryLeft fun _ _ _ _ _ => rfl]; rfl
  · rw [endBurst_readSelv _ _ Selv.windowLeft fun _ _ _ _ _ => rfl]; rfl
  · rw [endBurst_readSelv _ _ Selv.burstJoules fun _ _ _ _ _ => rfl]; rfl

/-- The rows of the Burst window. -/
theorem burstWindow_limits (s : State) (avg : Word) (j : Nat) :
    let noted : State := { s with selv := { s.selv with avg1ms := BitVec.ofNat 16 (min 0xFFFF avg.toNat) } }
    (s.selv.st ≠ .burst → exec (.burstPowerCheck avg) s = .next noted) ∧
    (s.selv.st = .burst → avg.toNat ≤ 62000 → exec (.burstPowerCheck avg) s = .next ({ noted with selv := { noted.selv with
      windowLeft := s.selv.windowLeft - (if s.selv.windowLeft = 0 then 0 else 1)
      windowUsed := min 2000 (s.selv.windowUsed + 1) } } : State)) ∧
    (s.selv.st = .burst → 62000 < avg.toNat → (∃ k : Fin 16, s.powered k = true ∧ s.selv.ppoint[k] = 3) →
      ∃ t, ∃ k : Fin 16, s.powered k = true ∧ s.selv.ppoint[k] = 3 ∧ exec (.burstPowerCheck avg) s = .next t ∧
        t.selv.capped = setBit s.selv.capped k.val ∧ t.mem = s.mem) ∧
    (¬ (s.selv.st = .burst ∧ s.selv.trans = none) → exec (.burstWindowEnd j) s = .next s) ∧
    (s.selv.st = .burst → s.selv.trans = none → ∃ t, exec (.burstWindowEnd j) s = .next t ∧
      t.selv.trans = some ⟨.taut, none, false⟩ ∧ t.selv.recoveryLeft = 8000 ∧ t.selv.windowLeft = 0 ∧
      t.selv.burstJoules = (s.selv.burstJoules + j) % 1000 ∧
      (s.selv.burstJoules + j < 1000 → t.tally = s.tally)) ∧
    exec .burstRecoveryEnd s = .next ({ s with selv := { s.selv with recoveryLeft := 0 } } : State) := by
  intro noted
  have hcheck : exec (.burstPowerCheck avg) s = .next (checkBurst avg s) := rfl
  rw [hcheck, burstWindowEnd_eq]
  refine ⟨fun hst => ?_, fun hst h => ?_, fun hst h hk => ?_, fun hno => by rw [if_neg hno], fun hst htrans => ?_, rfl⟩
  · rw [checkBurst_eq, if_pos hst]; rfl
  · rw [checkBurst_eq, if_neg (not_not.mpr hst), if_neg (Nat.not_lt.mpr h)]; rfl
  · obtain ⟨t, k, hpow, hp3, ht, hrest⟩ := checkBurst_above hst h hk
    exact ⟨t, k, hpow, hp3, congrArg Host.Outcome.next ht, hrest⟩
  · exact ⟨_, by rw [if_pos ⟨hst, htrans⟩], windowToTaut_endBurst s j⟩

/-! ### Lowering by step 2 and raising after it (21 R528, R529) -/

theorem tempOf_bound (s : State) (k : Fin 16) : -32768 ≤ s.tempOf k := by
  unfold State.tempOf
  split
  · next r l _ _ => exact BitVec.le_toInt (r.skeins[l.phys])
  · exact le_refl _

/-- The skeins step 2 lowers first. -/
def State.throttleSkeins (s : State) : List (Fin 16) :=
  if (s.lowerable .free).isEmpty then (if (s.lowerable .loose).isEmpty then s.lowerable .hard else s.lowerable .loose)
  else s.lowerable .free
/-- The hottest of some skeins. -/
def State.topTemp (s : State) (ks : List (Fin 16)) : Int := ks.foldl (fun m k => max m (s.tempOf k)) (-32768)
/-- One P-point taken from, and given back to, a skein by thermal throttling. -/
def Selv.throttle (k : Fin 16) (v : Selv) : Selv := { v with throttled := upd v.throttled k (· + 1) }
def Selv.unthrottle (k : Fin 16) (v : Selv) : Selv := { v with throttled := upd v.throttled k (· - 1) }

theorem lowerHottest_eq (s : State) : exec .thermalStep2Lower s = .next (if s.selv.thermalStep ≠ 2 then s
    else match s.throttleSkeins.find? fun k => decide (s.tempOf k = s.topTemp s.throttleSkeins) with
      | some k => ((s.modSelv (Selv.throttle k)).repower false).event 0x05 s.hottestSkein stThermal
      | none => s) := by
  have hks : s.throttleSkeins = if !(s.lowerable .free).isEmpty then s.lowerable .free
      else if !(s.lowerable .loose).isEmpty then s.lowerable .loose else s.lowerable .hard := by
    unfold State.throttleSkeins
    cases (s.lowerable .free).isEmpty <;> cases (s.lowerable .loose).isEmpty <;> rfl
  rw [hks]
  rfl

/-- Of skeins that are hottest one is found. -/
theorem hottest_found (s : State) {ks : List (Fin 16)} (h : ks ≠ []) :
    ∃ k ∈ ks, ks.find? (fun k => decide (s.tempOf k = s.topTemp ks)) = some k ∧ ∀ j ∈ ks, s.tempOf j ≤ s.tempOf k := by
  obtain ⟨-, hall, hattained⟩ := foldl_max_spec s.tempOf ks (-32768)
  change (∀ k ∈ ks, s.tempOf k ≤ s.topTemp ks) at hall
  change s.topTemp ks = -32768 ∨ ∃ k ∈ ks, s.topTemp ks = s.tempOf k at hattained
  have hex : ∃ k ∈ ks, s.tempOf k = s.topTemp ks := by
    rcases hattained with hbound | ⟨k, hk, htop⟩
    · obtain ⟨k, hk⟩ := List.exists_mem_of_ne_nil ks h
      exact ⟨k, hk, le_antisymm (hall k hk) (hbound ▸ tempOf_bound s k)⟩
    · exact ⟨k, hk, htop.symm⟩
  obtain ⟨j, hj, htop⟩ := hex
  obtain ⟨k, hfind⟩ := Option.isSome_iff_exists.mp (List.find?_isSome (p := fun k => decide (s.tempOf k = s.topTemp ks)) |>.mpr
    ⟨j, hj, decide_eq_true htop⟩)
  have hk : s.tempOf k = s.topTemp ks := by simpa using List.find?_some hfind
  exact ⟨k, List.mem_of_find?_eq_some hfind, hfind, fun i hi => hk ▸ hall i hi⟩

theorem thermalStep2Lower_lowers (s : State) :
    (s.selv.thermalStep ≠ 2 ∨ s.throttleSkeins = [] → exec .thermalStep2Lower s = .next s) ∧
    (s.selv.thermalStep = 2 → s.throttleSkeins ≠ [] → ∃ t, ∃ k ∈ s.throttleSkeins, exec .thermalStep2Lower s = .next t ∧
      (∀ j ∈ s.throttleSkeins, s.tempOf j ≤ s.tempOf k) ∧
      t.selv.throttled = s.selv.throttled.set k (s.selv.throttled[k] + 1)) := by
  rw [lowerHottest_eq]
  refine ⟨fun h => ?_, fun hstep hks => ?_⟩
  · split
    · rfl
    · next hstep =>
      rw [h.resolve_left hstep]
      rfl
  · obtain ⟨k, hk, hfind, hall⟩ := hottest_found s hks
    rw [if_neg (not_not.mpr hstep), hfind]
    refine ⟨_, k, hk, rfl, hall, ?_⟩
    rw [event_selv, repower_readSelv _ false Selv.throttled fun _ _ _ _ _ => rfl]
    simp only [Selv.throttle, modSelv_selv, upd]

theorem releaseStep_two {s : State} (h : s.selv.thermalStep = 2) : exec .thermalStepRelease s = .next (if s.cooler 95 87 then
    s.modSelv fun v => { v with thermalStep := if s.cooler 90 83 then 0 else 1, raising := true } else s) := by
  change Host.Outcome.next (releaseStep s) = _
  unfold releaseStep
  rw [h]
  rfl

/-- The rows that end a step (R528, R529). -/
theorem thermalStepRelease_releases (s : State) :
    (s.selv.thermalStep = 0 → exec .thermalStepRelease s = .next s) ∧
    (s.selv.thermalStep = 1 → exec .thermalStepRelease s =
      .next (if s.cooler 90 83 then ({ s with selv := { s.selv with thermalStep := 0 } } : State) else s)) ∧
    (s.selv.thermalStep = 2 → s.cooler 95 87 = false → exec .thermalStepRelease s = .next s) ∧
    (s.selv.thermalStep = 2 → s.cooler 95 87 = true → exec .thermalStepRelease s = .next ({ s with
      selv := { s.selv with thermalStep := if s.cooler 90 83 then 0 else 1, raising := true } } : State)) := by
  refine ⟨fun h => ?_, fun h => ?_, fun h hcool => ?_, fun h hcool => ?_⟩
  · change Host.Outcome.next (releaseStep s) = _
    unfold releaseStep
    rw [h]
    rfl
  · change Host.Outcome.next (releaseStep s) = _
    unfold releaseStep
    rw [h]
    rfl
  · rw [releaseStep_two h, hcool]; rfl
  · rw [releaseStep_two h, hcool]; rfl

theorem thermalRaise_eq (s : State) : exec .thermalRaise s = .next (if s.selv.raising = false ∨ s.selv.thermalStep = 2 then s
    else match s.pickSkein ((allFin 16).filter fun k => decide (0 < s.selv.throttled[k])) with
      | some k => s.adjust (Selv.unthrottle k)
      | none => s.modSelv fun v => { v with raising := false }) := rfl

theorem thermalRaise_raises {s : State} (hraise : s.selv.raising = true) (hstep : s.selv.thermalStep ≠ 2) :
    ((∀ k : Fin 16, s.selv.throttled[k] = 0) → exec .thermalRaise s = .next ({ s with
      selv := { s.selv with raising := false } } : State)) ∧
    ((∃ k : Fin 16, 0 < s.selv.throttled[k]) → ∃ t, ∃ k : Fin 16, 0 < s.selv.throttled[k] ∧ exec .thermalRaise s = .next t ∧
      t.selv.throttled = s.selv.throttled.set k (s.selv.throttled[k] - 1) ∧ t.mem = s.mem ∧ t.out = s.out) := by
  have hgoes : ¬ (s.selv.raising = false ∨ s.selv.thermalStep = 2) := by
    rw [hraise]
    exact fun h => h.elim (fun h => by cases h) hstep
  rw [thermalRaise_eq, if_neg hgoes]
  refine ⟨fun hk => ?_, fun ⟨j, hj⟩ => ?_⟩
  · rw [pickSkein_filter_none s fun k => by rw [hk k]; rfl]
    rfl
  · obtain ⟨k, hk, hpick⟩ := pickSkein_filter s (p := fun k => decide (0 < s.selv.throttled[k])) ⟨j, decide_eq_true hj⟩
    rw [hpick]
    refine ⟨_, k, of_decide_eq_true hk, rfl, ?_, adjust_frame _ _⟩
    rw [adjust_readSelv _ _ Selv.throttled fun _ _ _ _ _ => rfl]
    simp only [Selv.unthrottle, upd]

end Sys2Proof.Machine
end

section
/-! SUPPORT. What a sample of the sensors brings (21 R527 to R529): the steps of throttling, and the critical transition (04 R90). -/
namespace Sys2Proof.Machine
open Sys2Proof Sys2Proof.Safety

/-! ### Holds -/

theorem noteFinish_selv (s : State) (i : Fin 8) : (s.noteFinish i).selv = s.selv := by
  unfold State.noteFinish
  dsimp only
  split <;> rfl

theorem abandonRow_selv (s : State) (i : Fin 8) : (s.abandonRow i).selv = s.selv := by
  have chans (t : State) : (t.resetChans i).selv = t.selv := rfl
  have needles (t : State) (f : Needle → Needle) : (t.modNeedlesOf i f).selv = t.selv := by
    unfold State.modNeedlesOf; dsimp only
  have skeins (t : State) (f : Skein → Skein) : (t.modSkeinsOf i f).selv = t.selv := by
    unfold State.modSkeinsOf; dsimp only
  have cores (t : State) (f : Distaff → Distaff) : (t.modCoresOf i f).selv = t.selv := by
    unfold State.modCoresOf; dsimp only
  have frog (t : State) : (t.frogAll i).selv = t.selv := rfl
  unfold State.abandonRow
  dsimp only
  rw [cores, frog, skeins, needles, chans]

theorem quitRow_selv (s : State) (i : Fin 8) : (s.quitRow i).selv = s.selv := by
  unfold State.quitRow
  split
  · exact (abandonRow_selv _ i).trans (noteFinish_selv s i)
  · rfl

/-- A swatch made Held as a cause first reaches it. -/
def Swatch.heldBy (cause : Nat) (w : Swatch) : Swatch :=
  { w with st := .held, causes := [BitVec.ofNat 8 cause], holdStep := .quiesce, pubDepth := 0 }

theorem becomeHeld_reads {α : Type} (s : State) (i : Fin 8) (cause : Nat) (g : State → α)
    (hg : ∀ t u : State, Posts t u → g u = g t) : g (s.becomeHeld i cause) = g ((s.quitRow i).modSw i (Swatch.heldBy cause)) := by
  unfold State.becomeHeld
  dsimp only
  split
  · rfl
  · exact hg _ _ (event_posts _ _ _ _ _)

theorem hold_selv (s : State) (i : Fin 8) (cause : Nat) : (s.hold i cause).selv = s.selv := by
  rcases hold_cases s i cause with ⟨h, -⟩ | ⟨f, h, -⟩ | ⟨h, -⟩ <;> rw [h]
  · rfl
  · rw [becomeHeld_reads s i cause State.selv fun _ _ h => h.read State.selv]
    exact quitRow_selv s i

/-- A live swatch that a cause reaches is Held with that cause alone. -/
theorem hold_standing {s : State} {i : Fin 8} (h : s.swatches[i].live) (cause : Nat) :
    (s.hold i cause).swatches[i].standing = (.held, [BitVec.ofNat 8 cause]) := by
  rw [hold_of_live h, becomeHeld_reads s i cause State.swatches fun _ _ h => h.swatches, modSw_swatches, upd_get, if_pos rfl]
  rfl

/-- Several swatches held in turn: those not in the list stay, and the live ones of it are Held with the cause. -/
theorem holds_standing (sel : Swatch → Bool) (cause : Nat) (l : List (Fin 8)) (hl : l.Nodup) (s : State) (i : Fin 8) :
    let t := l.foldl (fun t i => if sel t.swatches[i] then t.hold i cause else t) s
    (i ∉ l → t.swatches[i] = s.swatches[i]) ∧
    (i ∈ l → s.swatches[i].live → sel s.swatches[i] = true → t.swatches[i].standing = (.held, [BitVec.ofNat 8 cause])) := by
  induction l generalizing s with
  | nil => exact ⟨fun _ => rfl, fun h => absurd h List.not_mem_nil⟩
  | cons x l ih =>
    obtain ⟨hx, hrest⟩ := List.nodup_cons.mp hl
    have hother (hne : x ≠ i) : (if sel s.swatches[x] then s.hold x cause else s).swatches[i] = s.swatches[i] := by
      split
      · exact (hold_swatches s x cause).2 i hne
      · rfl
    obtain ⟨hout, hin⟩ := ih hrest (if sel s.swatches[x] then s.hold x cause else s)
    refine ⟨fun hi => ?_, fun hi hlive hsel => ?_⟩
    · obtain ⟨hne, hnl⟩ := not_or.mp (List.mem_cons.not.mp hi)
      exact (hout hnl).trans (hother (Ne.symm hne))
    · by_cases hxi : x = i
      · subst hxi
        have hheld := hold_standing hlive cause
        rw [List.foldl_cons, hout hx, if_pos hsel]
        exact hheld
      · have hsame := hother hxi
        refine hin ((List.mem_cons.mp hi).resolve_left (Ne.symm hxi)) ?_ ?_ <;> rw [hsame]
        · exact hlive
        · exact hsel

theorem holdAll_standing {s : State} {sel : Swatch → Bool} (cause : Nat) {i : Fin 8} (hlive : s.swatches[i].live)
    (hsel : sel s.swatches[i] = true) : (s.holdAll sel cause).swatches[i].standing = (.held, [BitVec.ofNat 8 cause]) :=
  (holds_standing sel cause (allFin 8) (List.nodup_finRange 8) s i).2 (List.mem_finRange i) hlive hsel

theorem holdAll_selv (s : State) (sel : Swatch → Bool) (cause : Nat) : (s.holdAll sel cause).selv = s.selv := by
  refine foldl_keeps State.selv _ (fun u i => ?_) _ _
  split
  · exact hold_selv u i cause
  · rfl

theorem isCast_of_live {w : Swatch} (h : w.live) : w.isCast = true := by
  unfold Swatch.isCast
  rcases h with h | h | h <;> rw [h] <;> rfl

/-! ### Work ended: every swatch stands as it did -/

/-- From s to t work was ended: the SELV block is as it was, every swatch stands as before, and no grant is new. -/
structure Ends (s t : State) : Prop where
  selv   : t.selv = s.selv
  stands : Stands s t
  grants : ∀ g ∈ t.grants, g ∈ s.grants

theorem Ends.refl (s : State) : Ends s s := ⟨rfl, .of_eq rfl, fun _ h => h⟩
theorem Ends.trans {s t u : State} (h : Ends s t) (k : Ends t u) : Ends s u :=
  ⟨k.selv.trans h.selv, h.stands.trans k.stands, fun g hg => h.grants g (k.grants g hg)⟩
theorem Ends.foldl {α : Type} {s : State} {g : State → α → State} (l : List α) (hg : ∀ t x, Ends t (g t x)) :
    Ends s (l.foldl g s) :=
  List.foldlRecOn l g (motive := Ends s) (.refl s) fun _ h x _ => h.trans (hg _ x)
theorem Answers.ends {s t : State} (h : Answers s t) : Ends s t :=
  ⟨h.selv, .of_eq (h.read State.swatches), fun g hg => by rw [h.read State.grants] at hg; exact hg⟩

theorem abortKnit_ends (s : State) (i : Fin 8) : Ends s (s.abortKnit i) := by
  unfold State.abortKnit
  split
  · have hclosed : Ends s (s.modSw i fun w => { w with knit := none, startNext := false }) :=
      ⟨rfl, modSw_stands s i _ fun _ => rfl, fun _ h => h⟩
    exact hclosed.trans (reply_answers _ _ _ _ _ _ _).ends
  · exact .refl s

/-- The registers expert work writes lie outside the SELV block. -/
theorem blkPoke_selv (s : State) (b : Blk) (off : Nat) (w : Word) : (s.blkPoke b off w).selv = s.selv := by
  have ite {c : Prop} [Decidable c] {t u : State} (ht : t.selv = s.selv) (hu : u.selv = s.selv) :
      (if c then t else u).selv = s.selv := by
    split <;> assumption
  cases b with
  | bob =>
    refine ite ?_ (ite ?_ (ite ?_ (ite ?_ (ite ?_ (ite ?_ (ite ?_ ?_))))))
    all_goals rfl
  | dst d => exact ite rfl (ite rfl (ite rfl rfl))
  | chnOut =>
    have chain (f : Chain → Chain) : (s.modChain f).selv = s.selv := rfl
    exact ite (chain _) (ite (chain _) rfl)
  | mesh k | ndl n | edge p => exact ite rfl (ite rfl rfl)
  | edgeCard p | stk b | pin => exact ite rfl rfl
  | _ => rfl

theorem pokeAt_selv (s : State) (a : Nat) (w : Word) : (s.pokeAt a w).selv = s.selv := by
  unfold State.pokeAt
  split
  · exact blkPoke_selv s _ _ w
  · rfl

theorem stopExpert_selv (s : State) (cls inst : Nat) : (s.stopExpert cls inst).selv = s.selv := by
  unfold State.stopExpert
  split
  · rfl
  · split <;> rfl

theorem endGrant_selv (s : State) (g : Grant) (reason : Option Nat) : (s.endGrant g reason).selv = s.selv := by
  have hpoked (t : State) : (g.saved.foldl (fun t x => t.pokeAt x.1 x.2) t).selv = t.selv :=
    foldl_keeps State.selv _ (fun u (x : Nat × Word) => pokeAt_selv u x.1 x.2) _ _
  unfold State.endGrant
  dsimp only
  split
  · rfl
  · split
    · rw [event_selv, hpoked, stopExpert_selv]
    · rw [hpoked, stopExpert_selv]

theorem endGrants_ends (s : State) (sel : Grant → Bool) (reason : Option Nat) : Ends s (s.endGrants sel reason) := by
  have hselv : (s.endGrants sel reason).selv = s.selv := by
    refine foldl_keeps State.selv _ (fun u g => ?_) _ _
    dsimp only
    split
    · exact (reply_answers _ _ _ _ _ _ _).selv.trans (endGrant_selv u g reason)
    · exact endGrant_selv u g reason
  obtain ⟨hrevokes, -⟩ := endGrants_revokes s sel reason
  exact ⟨hselv, .of_eq hrevokes.swatches, hrevokes.grants⟩

theorem abortCensus_ends (s : State) : Ends s s.abortCensus := by
  have cleared (t : State) (f : Rep → Rep) (m : List (Nat × Byte)) (l : List Nat) : Ends t { t.modRep f with mem := m, poison := l } :=
    ⟨rfl, .of_eq rfl, fun _ h => h⟩
  unfold State.abortCensus
  split
  · exact .refl s
  · exact (cleared _ _ _ _).trans (replyOpt_answers _ _ _ _).ends

/-! ### The critical transition (R90) -/

/-- s with every cast swatch Held, every KNIT and every grant ended, and the requests and the census turned away. -/
def State.heldHot (s : State) : State := s.holdAll Swatch.isCast stThermal
def State.endWork (s : State) : State := ((allFin 8).foldl (fun s i => s.abortKnit i) s).endGrants (fun _ => true) (some stThermal)
def State.endRequests (s : State) : State :=
  let s := s.replyOpt (s.selv.trans.bind Transition.cmd) stAborted
  (s.replyOpt (s.selv.deferred.bind Deferred.cmd) stConflict).abortCensus
/-- Step 2 entered by the critical transition, and a Burst window cut. -/
def State.enterHot (s : State) : State := s.modSelv fun v => { v with deferred := none, thermalStep := 2 }
def State.cutBurst (s : State) : State := if s.selv.st = .burst then (s.endBurst (s.freeVal.toNat % 125)).useFree else s

theorem critical_eq (s : State) : s.critical =
    (s.heldHot.endWork.endRequests.enterHot.cutBurst.noteTransition ⟨.selvage, none, false⟩).srefEnter := by
  unfold State.critical State.heldHot State.endWork State.endRequests State.enterHot State.cutBurst State.noteTransition
  dsimp only

theorem endWork_ends (s : State) : Ends s s.endWork ∧ s.endWork.grants = [] := by
  refine ⟨(Ends.foldl _ fun t i => abortKnit_ends t i).trans (endGrants_ends _ _ _), ?_⟩
  obtain ⟨-, hgone⟩ := endGrants_revokes ((allFin 8).foldl (fun s i => s.abortKnit i) s) (fun _ => true) (some stThermal)
  exact List.eq_nil_iff_forall_not_mem.mpr fun g hg => Bool.false_ne_true (hgone g hg).symm

theorem endRequests_ends (s : State) : Ends s s.endRequests := by
  unfold State.endRequests
  exact (replyOpt_answers _ _ _ _).ends.trans ((replyOpt_answers _ _ _ _).ends.trans (abortCensus_ends _))

theorem cutBurst_powers (s : State) : Powers s s.cutBurst := by
  unfold State.cutBurst
  split
  · exact (endBurst_powers _ _).trans (.of_rest rfl rfl rfl)
  · exact .refl s

theorem noteTransition_stands (s : State) (d : Transition) : Stands s (s.noteTransition d) := .of_eq rfl
theorem enterHot_stands (s : State) : Stands s s.enterHot := .of_eq rfl

/-- What ends the critical transition: the transition to Selvage noted, and self-refresh entered. -/
theorem noteTransition_srefEnter (s : State) (d : Transition) :
    ((s.noteTransition d).srefEnter).selv.trans = some d ∧
    ((s.noteTransition d).srefEnter).selv.thermalStep = s.selv.thermalStep ∧
    ((s.noteTransition d).srefEnter).selv.thermtripN = s.selv.thermtripN ∧
    ((s.noteTransition d).srefEnter).grants = s.grants ∧ Stands s (s.noteTransition d).srefEnter := by
  have h := srefEnter_powers (s.noteTransition d)
  exact ⟨h.readSelv Selv.trans, h.readSelv Selv.thermalStep, h.readSelv Selv.thermtripN, h.grants,
    (noteTransition_stands s d).trans h.stands⟩

theorem enterHot_cutBurst (s : State) : s.enterHot.cutBurst.selv.thermalStep = 2 ∧
    s.enterHot.cutBurst.selv.thermtripN = s.selv.thermtripN ∧ s.enterHot.cutBurst.grants = s.grants ∧
    Stands s s.enterHot.cutBurst := by
  have h := cutBurst_powers s.enterHot
  exact ⟨h.readSelv Selv.thermalStep, h.readSelv Selv.thermtripN, h.grants, (enterHot_stands s).trans h.stands⟩

/-- The critical transition: Selvage is entered in step 2, every grant is ended, and every live swatch is Held with THERMAL alone. -/
theorem critical_spec (s : State) : s.critical.selv.trans = some ⟨.selvage, none, false⟩ ∧ s.critical.selv.thermalStep = 2 ∧
    s.critical.selv.thermtripN = s.selv.thermtripN ∧ s.critical.grants = [] ∧
    ∀ i : Fin 8, s.swatches[i].live → s.critical.swatches[i].standing = (.held, [BitVec.ofNat 8 stThermal]) := by
  rw [critical_eq]
  obtain ⟨hwork, hnone⟩ := endWork_ends s.heldHot
  have hreq := endRequests_ends s.heldHot.endWork
  have hends := hwork.trans hreq
  have hgone : s.heldHot.endWork.endRequests.grants = [] := List.eq_nil_iff_forall_not_mem.mpr fun g hg => by
    have h := hreq.grants g hg
    rw [hnone] at h
    cases h
  have htrip : s.heldHot.endWork.endRequests.selv.thermtripN = s.selv.thermtripN := by
    rw [hends.selv, State.heldHot, holdAll_selv]
  have hheld (i : Fin 8) (hi : s.swatches[i].live) :
      s.heldHot.swatches[i].standing = (.held, [BitVec.ofNat 8 stThermal]) :=
    holdAll_standing stThermal hi (isCast_of_live hi)
  generalize s.heldHot.endWork.endRequests = u at hends hgone htrip
  obtain ⟨hstep, htrip', hgrants, hstands⟩ := enterHot_cutBurst u
  generalize u.enterHot.cutBurst = v at hstep htrip' hgrants hstands
  obtain ⟨ht, hs, hn, hg, hst⟩ := noteTransition_srefEnter v ⟨.selvage, none, false⟩
  refine ⟨ht, hs.trans hstep, hn.trans (htrip'.trans htrip), hg.trans (hgrants.trans hgone), fun i hi => ?_⟩
  exact (((hends.stands.trans hstands).trans hst).same i).trans (hheld i hi)

/-! ### A sample (R527, R528) -/

/-- Whether one of the two temperatures has reached its limit. -/
def hotAt (r : Readings) (d t : Int) : Bool := decide (d ≤ r.die ∨ t ≤ r.stackMax)

theorem hotAt_false {r : Readings} {d t : Int} (hd : r.die < d) (ht : r.stackMax < t) : hotAt r d t = false :=
  decide_eq_false (not_or.mpr ⟨not_le.mpr hd, not_le.mpr ht⟩)

/-- s with the readings noted. -/
def State.noteReadings (s : State) (r : Readings) : State :=
  s.modSelv fun v => { v with readings := some r, hottest := BitVec.ofInt 16 r.die }
theorem noteReadings_stands (s : State) (r : Readings) : Stands s (s.noteReadings r) := .of_eq rfl
/-- Step 1 entered at the first limit. -/
def State.warmed (s : State) : State := (s.modSelv fun v => { v with thermalStep := 1 }).stepOne
def State.warm (s : State) (r : Readings) : State :=
  if s.selv.ready ∧ hotAt r 95 88 ∧ s.selv.thermalStep = 0 then s.warmed else s
/-- Step 2 entered at the second limit. -/
def State.throttle (s : State) (r : Readings) : State :=
  if s.selv.ready ∧ hotAt r 100 92 then s.modSelv fun v => { v with thermalStep := 2, raising := false } else s
/-- Whether the critical transition has been made or is under way. -/
def State.criticalDone (s : State) : Bool :=
  match s.selv.trans with
  | some t => decide (t.target = .selvage) && s.castList.all (fun i => s.swatches[i].st = .held)
  | none => decide (s.selv.st = .selvage) && s.rep.run.isNone && s.castList.all (fun i => s.swatches[i].st = .held)
/-- The critical transition at the third limit. -/
def State.coolDown (s : State) (r : Readings) : State :=
  if s.selv.ready ∧ hotAt r 105 98 ∧ s.criticalDone = false then s.critical else s
/-- THERMTRIP_N at the last limit. -/
def State.trip (s : State) (r : Readings) : State :=
  if 120 ≤ r.die ∧ s.selv.thermtripN then (s.modSelv fun v => { v with thermtripN := false }).emit .thermtrip else s

theorem sampleSensors_eq (r : Readings) (s : State) :
    sampleSensors r s = ((((s.noteReadings r).warm r).throttle r).coolDown r).trip r := by
  unfold sampleSensors State.trip State.coolDown State.throttle State.warm State.warmed State.noteReadings
  rfl

theorem throttle_below {s : State} {r : Readings} (h : hotAt r 100 92 = false) : s.throttle r = s :=
  if_neg fun hlim => Bool.false_ne_true (h.symm.trans hlim.2)
theorem coolDown_below {s : State} {r : Readings} (h : hotAt r 105 98 = false) : s.coolDown r = s :=
  if_neg fun hlim => Bool.false_ne_true (h.symm.trans hlim.2.1)
theorem trip_below {s : State} {r : Readings} (h : r.die < 120) : s.trip r = s := if_neg fun hlim => absurd hlim.1 (not_le.mpr h)

/-- From s to t a step of throttling began: what the other limits look at is as it was, or a Burst window was cut. -/
structure Warms (s t : State) : Prop where
  ready    : t.selv.ready = s.selv.ready
  st       : t.selv.st = s.selv.st
  trip     : t.selv.thermtripN = s.selv.thermtripN
  readings : t.selv.readings = s.selv.readings
  step     : t.selv.thermalStep = s.selv.thermalStep
  stands   : Stands s t
  trans    : t.selv.trans = s.selv.trans ∨ t.selv.trans = some ⟨.taut, none, false⟩

theorem Answers.warms {s t : State} (h : Answers s t) : Warms s t := by
  refine ⟨?_, ?_, ?_, ?_, ?_, h.powers.stands, .inl ?_⟩ <;> rw [h.selv]

/-- The state in which step 1 cuts a Burst window. -/
def State.burstHot (s : State) : State :=
  ((s.event 0x05 s.hottestSkein stThermal).selvFault 12).event 0x07 0xFF stThermal

theorem stepOne_eq (s : State) : s.stepOne = if s.selv.st = .burst ∧ s.selv.trans.isNone then
    s.burstHot.startTransition .taut none false else s.event 0x05 s.hottestSkein stThermal := by
  have hselv := event_selv s 0x05 s.hottestSkein stThermal 0
  unfold State.stepOne State.burstHot
  dsimp only
  rw [hselv]

theorem burstHot_spec (s : State) : s.burstHot.selv = { s.selv with fault := setBit s.selv.fault 12 } ∧ Stands s s.burstHot := by
  unfold State.burstHot
  refine ⟨?_, .of_eq ?_⟩
  · rw [event_selv]
    exact congrArg (fun v : Selv => { v with fault := setBit v.fault 12 }) (event_selv s 0x05 s.hottestSkein stThermal 0)
  · rw [(event_posts _ _ _ _ _).swatches]
    exact (event_posts _ _ _ _ _).swatches

theorem stepOne_warms (s : State) : Warms s s.stepOne ∧ (s.selv.st = .burst → s.selv.trans = none →
    s.stepOne.selv.trans = some ⟨.taut, none, false⟩ ∧ s.stepOne.selv.fault = setBit s.selv.fault 12) := by
  rw [stepOne_eq]
  split
  · obtain ⟨hselv, hstands⟩ := burstHot_spec s
    generalize s.burstHot = u at hselv hstands
    have h := startTransition_powers u .taut none false
    have hread {α : Type} (g : Selv → α) (hg : ∀ v w, g (Selv.powering v w) = g v) :
        g (u.startTransition .taut none false).selv = g { u.selv with trans := some ⟨.taut, none, false⟩ } :=
      (h.readSelv g).trans (hg _ _)
    rw [hselv] at hread
    refine ⟨⟨hread Selv.ready fun _ _ => rfl, hread Selv.st fun _ _ => rfl, hread Selv.thermtripN fun _ _ => rfl,
      hread Selv.readings fun _ _ => rfl, hread Selv.thermalStep fun _ _ => rfl, (hstands.trans (noteTransition_stands u _)).trans h.stands,
      .inr (hread Selv.trans fun _ _ => rfl)⟩, fun _ _ => ⟨hread Selv.trans fun _ _ => rfl, hread Selv.fault fun _ _ => rfl⟩⟩
  · next hno =>
    refine ⟨(event_posts _ _ _ _ _).answers.warms, fun hst htrans => absurd ⟨hst, ?_⟩ hno⟩
    rw [htrans]
    rfl

theorem warmed_warms (s : State) : s.warmed.selv.thermalStep = 1 ∧ s.warmed.selv.ready = s.selv.ready ∧
    s.warmed.selv.st = s.selv.st ∧ s.warmed.selv.thermtripN = s.selv.thermtripN ∧ s.warmed.selv.readings = s.selv.readings ∧
    Stands s s.warmed ∧ (s.warmed.selv.trans = s.selv.trans ∨ s.warmed.selv.trans = some ⟨.taut, none, false⟩) ∧
    (s.selv.st = .burst → s.selv.trans = none →
      s.warmed.selv.trans = some ⟨.taut, none, false⟩ ∧ s.warmed.selv.fault = setBit s.selv.fault 12) := by
  obtain ⟨h, hburst⟩ := stepOne_warms (s.modSelv fun v => { v with thermalStep := 1 })
  have hstands : Stands s (s.modSelv fun v => { v with thermalStep := 1 }) := .of_eq rfl
  exact ⟨h.step, h.ready, h.st, h.trip, h.readings, hstands.trans h.stands, h.trans, hburst⟩

/-- What the first limit leaves for the others to look at. -/
theorem warm_keeps (s : State) (r : Readings) : (s.warm r).selv.ready = s.selv.ready ∧ (s.warm r).selv.st = s.selv.st ∧
    (s.warm r).selv.thermtripN = s.selv.thermtripN ∧ Stands s (s.warm r) ∧
    ((s.warm r).selv.trans = s.selv.trans ∨ (s.warm r).selv.trans = some ⟨.taut, none, false⟩) := by
  unfold State.warm
  split
  · obtain ⟨-, hready, hst, htrip, -, hstands, htrans, -⟩ := warmed_warms s
    exact ⟨hready, hst, htrip, hstands, htrans⟩
  · exact ⟨rfl, rfl, rfl, .of_eq rfl, .inl rfl⟩

/-- The first limit reached. -/
theorem warm_reached {s : State} {r : Readings} (hready : s.selv.ready = true) (hlim : 95 ≤ r.die ∨ 88 ≤ r.stackMax) :
    (s.warm r).selv.thermalStep = (if s.selv.thermalStep = 0 then 1 else s.selv.thermalStep) ∧
    (s.warm r).selv.readings = s.selv.readings ∧ (s.selv.st = .burst → s.selv.trans = none → s.selv.thermalStep = 0 →
      (s.warm r).selv.trans = some ⟨.taut, none, false⟩ ∧ (s.warm r).selv.fault = setBit s.selv.fault 12) := by
  have hhot : hotAt r 95 88 = true := decide_eq_true hlim
  unfold State.warm
  by_cases hstep : s.selv.thermalStep = 0
  · obtain ⟨hone, -, -, -, hreadings, -, -, hburst⟩ := warmed_warms s
    rw [if_pos ⟨hready, hhot, hstep⟩, if_pos hstep]
    exact ⟨hone, hreadings, fun hst htrans _ => hburst hst htrans⟩
  · rw [if_neg fun h => hstep h.2.2, if_neg hstep]
    exact ⟨rfl, rfl, fun _ _ h => absurd h hstep⟩

theorem throttle_keeps (s : State) (r : Readings) : (s.throttle r).selv.ready = s.selv.ready ∧
    (s.throttle r).selv.st = s.selv.st ∧ (s.throttle r).selv.trans = s.selv.trans ∧
    (s.throttle r).selv.thermtripN = s.selv.thermtripN ∧ Stands s (s.throttle r) := by
  unfold State.throttle
  split <;> exact ⟨rfl, rfl, rfl, rfl, .of_eq rfl⟩

theorem coolDown_thermtripN (s : State) (r : Readings) : (s.coolDown r).selv.thermtripN = s.selv.thermtripN := by
  unfold State.coolDown
  split
  · obtain ⟨-, -, htrip, -⟩ := critical_spec s
    exact htrip
  · rfl

theorem trip_keeps (s : State) (r : Readings) : (s.trip r).selv.trans = s.selv.trans ∧
    (s.trip r).selv.thermalStep = s.selv.thermalStep ∧ (s.trip r).grants = s.grants ∧ (s.trip r).swatches = s.swatches := by
  unfold State.trip
  split <;> exact ⟨rfl, rfl, rfl, rfl⟩

theorem trip_reached {s : State} {r : Readings} (htrip : s.selv.thermtripN = true) (h : 120 ≤ r.die) :
    (s.trip r).selv.thermtripN = false ∧ .thermtrip ∈ (s.trip r).out := by
  unfold State.trip
  rw [if_pos ⟨h, htrip⟩]
  exact ⟨rfl, List.mem_append_right _ (List.mem_singleton.mpr rfl)⟩

/-- The critical transition is not yet made where another state is in force or being entered. -/
theorem criticalDone_false {s : State} (hst : s.selv.st ≠ .selvage)
    (htrans : s.selv.trans = none ∨ s.selv.trans = some ⟨.taut, none, false⟩) : s.criticalDone = false := by
  unfold State.criticalDone
  rcases htrans with h | h <;> rw [h]
  · dsimp only
    rw [decide_eq_false hst, Bool.false_and, Bool.false_and]
  · rfl

theorem sensorSample_eq {s : State} (r : Readings) (h : s.selv.spwrok = true) : exec (.sensorSample r) s =
    .next (((((s.noteReadings r).warm r).throttle r).coolDown r).trip r) := by
  rw [← sampleSensors_eq]
  exact congrArg Host.Outcome.next (if_pos h)

/-- Below every limit the readings are noted. -/
theorem sample_below {s : State} {r : Readings} (hd : r.die < 95) (ht : r.stackMax < 88) :
    ((((s.noteReadings r).warm r).throttle r).coolDown r).trip r = s.noteReadings r := by
  have hwarm : (s.noteReadings r).warm r = s.noteReadings r :=
    if_neg fun hlim => Bool.false_ne_true ((hotAt_false hd ht).symm.trans hlim.2.1)
  rw [hwarm, throttle_below (hotAt_false (by omega) (by omega)), coolDown_below (hotAt_false (by omega) (by omega)),
    trip_below (by omega)]

/-- Between the first limit and the second step 1 is entered. -/
theorem sample_warm {s : State} {r : Readings} (hready : s.selv.ready = true) (hlim : 95 ≤ r.die ∨ 88 ≤ r.stackMax)
    (hd : r.die < 100) (ht : r.stackMax < 92) :
    let t := ((((s.noteReadings r).warm r).throttle r).coolDown r).trip r
    t.selv.thermalStep = (if s.selv.thermalStep = 0 then 1 else s.selv.thermalStep) ∧ t.selv.readings = some r ∧
    (s.selv.st = .burst → s.selv.trans = none → s.selv.thermalStep = 0 →
      t.selv.trans = some ⟨.taut, none, false⟩ ∧ t.selv.fault = setBit s.selv.fault 12) := by
  intro t
  have hwarm : t = (s.noteReadings r).warm r := by
    change State.trip _ r = _
    rw [throttle_below (hotAt_false (by omega) (by omega)), coolDown_below (hotAt_false (by omega) (by omega)), trip_below (by omega)]
  obtain ⟨hstep, hreadings, hburst⟩ := warm_reached (s := s.noteReadings r) hready hlim
  rw [hwarm]
  exact ⟨hstep, hreadings, hburst⟩

/-- At the third limit the critical transition is made. -/
theorem sample_critical {s : State} {r : Readings} (hready : s.selv.ready = true) (hlim : 105 ≤ r.die ∨ 98 ≤ r.stackMax)
    (hst : s.selv.st ≠ .selvage) (htrans : s.selv.trans = none) :
    let t := ((((s.noteReadings r).warm r).throttle r).coolDown r).trip r
    t.selv.trans = some ⟨.selvage, none, false⟩ ∧ t.selv.thermalStep = 2 ∧ t.grants = [] ∧
    ∀ i : Fin 8, s.swatches[i].live → t.swatches[i].st = .held ∧ t.swatches[i].causes = [BitVec.ofNat 8 stThermal] := by
  intro t
  obtain ⟨hready1, hst1, -, hstands1, htrans1⟩ := warm_keeps (s.noteReadings r) r
  obtain ⟨hready2, hst2, htrans2, -, hstands2⟩ := throttle_keeps ((s.noteReadings r).warm r) r
  have hstands : Stands s (((s.noteReadings r).warm r).throttle r) := ((noteReadings_stands s r).trans hstands1).trans hstands2
  have hdone : (((s.noteReadings r).warm r).throttle r).criticalDone = false := by
    refine criticalDone_false (by rw [hst2, hst1]; exact hst) ?_
    rw [htrans2]
    exact htrans1.imp_left fun h => h.trans htrans
  have hcool : (((s.noteReadings r).warm r).throttle r).coolDown r = (((s.noteReadings r).warm r).throttle r).critical :=
    if_pos ⟨by rw [hready2, hready1]; exact hready, decide_eq_true hlim, hdone⟩
  have ht : t = (((s.noteReadings r).warm r).throttle r).critical.trip r := congrArg (fun u => State.trip u r) hcool
  generalize ((s.noteReadings r).warm r).throttle r = u at ht hstands
  obtain ⟨hsel, htwo, -, hgrants, hheld⟩ := critical_spec u
  obtain ⟨ktrans, kstep, kgrants, ksw⟩ := trip_keeps u.critical r
  rw [ht, ksw]
  refine ⟨ktrans.trans hsel, kstep.trans htwo, kgrants.trans hgrants, fun i hi => ?_⟩
  have hlive : u.swatches[i].live := by
    have hsame : u.swatches[i].st = s.swatches[i].st := congrArg Prod.fst (hstands.same i)
    unfold Swatch.live at hi ⊢
    rw [hsame]
    exact hi
  exact Prod.mk.inj (hheld i hlive)

theorem sample_trips {s : State} {r : Readings} (htrip : s.selv.thermtripN = true) (h : 120 ≤ r.die) :
    let t := ((((s.noteReadings r).warm r).throttle r).coolDown r).trip r
    t.selv.thermtripN = false ∧ .thermtrip ∈ t.out := by
  obtain ⟨-, -, hwarm, -⟩ := warm_keeps (s.noteReadings r) r
  obtain ⟨-, -, -, hthrottle, -⟩ := throttle_keeps ((s.noteReadings r).warm r) r
  exact trip_reached (by rw [coolDown_thermtripN, hthrottle, hwarm]; exact htrip) h

/-- Settles O40: the budget and the Burst window by the branches of their rows, a sample of the sensors limit by limit. -/
theorem powerAndThermalLimits : Obligations.PowerAndThermalLimits := by
  unfold Obligations.PowerAndThermalLimits
  refine ⟨budgetLimiter_limits, burstWindow_limits, fun s r => ⟨fun hoff => ?_, fun hon hd ht => ?_,
    fun hon hready hlim hd ht => ⟨_, sensorSample_eq r hon, sample_warm hready hlim hd ht⟩,
    fun hon hready hlim hst htrans => ⟨_, sensorSample_eq r hon, sample_critical hready hlim hst htrans⟩,
    fun hon htrip hd => ⟨_, sensorSample_eq r hon, sample_trips htrip hd⟩⟩, fun s => ?_⟩
  · exact congrArg Host.Outcome.next (if_neg (by rw [hoff]; exact Bool.false_ne_true))
  · rw [sensorSample_eq r hon, sample_below hd ht]
    rfl
  · obtain ⟨hidle, hlowers⟩ := thermalStep2Lower_lowers s
    obtain ⟨hzero, hone, hhot, hcool⟩ := thermalStepRelease_releases s
    refine ⟨hidle, hlowers, hzero, hone, hhot, hcool, fun h => ?_, thermalRaise_raises⟩
    rw [thermalRaise_eq, if_pos h]

end Sys2Proof.Machine
end

section
/-! SUPPORT. Rings (05 R102 to R119): their rise and fall, doorbells, faults, and the replies of the other die (R65, R106). -/
namespace Sys2Proof.Machine
open Sys2Proof Sys2Proof.Safety

/-! ### A ring's record changed -/

theorem modSq_get (s : State) (i : Fin 16) (f : Sq → Sq) : (s.modSq i f).sqs[i] = f s.sqs[i] := by
  rw [modSq_sqs, upd_get, if_pos rfl]
theorem modCq_get (s : State) (j : Fin 16) (f : Cq → Cq) : (s.modCq j f).cqs[j] = f s.cqs[j] := by
  rw [modCq_cqs, upd_get, if_pos rfl]
theorem modSq_modSq (s : State) (i : Fin 16) (f g : Sq → Sq) : (s.modSq i f).modSq i g = s.modSq i fun q => g (f q) := by
  unfold State.modSq
  dsimp only
  rw [upd_upd]
theorem modCq_modCq (s : State) (j : Fin 16) (f g : Cq → Cq) : (s.modCq j f).modCq j g = s.modCq j fun c => g (f c) := by
  unfold State.modCq
  dsimp only
  rw [upd_upd]
/-- Only what the change does to the record that stands there matters. -/
theorem modSq_congr {s : State} {i : Fin 16} {f g : Sq → Sq} (h : f s.sqs[i] = g s.sqs[i]) : s.modSq i f = s.modSq i g := by
  unfold State.modSq upd
  rw [h]
theorem modCq_congr {s : State} {j : Fin 16} {f g : Cq → Cq} (h : f s.cqs[j] = g s.cqs[j]) : s.modCq j f = s.modCq j g := by
  unfold State.modCq upd
  rw [h]

theorem ringFsm_modRingFsm (s : State) (r : RingId) (f : EnFsm → EnFsm) : (s.modRingFsm r f).ringFsm r = f (s.ringFsm r) := by
  cases r with
  | sq i => exact congrArg Sq.fsm (modSq_get s i _)
  | cq j => exact congrArg Cq.fsm (modCq_get s j _)

theorem modRingFsm_congr {s : State} {r : RingId} {f g : EnFsm → EnFsm} (h : f (s.ringFsm r) = g (s.ringFsm r)) :
    s.modRingFsm r f = s.modRingFsm r g := by
  cases r with
  | sq i => exact modSq_congr (congrArg (fun x => { s.sqs[i] with fsm := x }) h)
  | cq j => exact modCq_congr (congrArg (fun x => { s.cqs[j] with fsm := x }) h)

/-! ### Faults (R110, R111) -/

/-- The fault bits of the functions are as in s. -/
def FaultBitsKept (s t : State) : Prop := ∀ f : Fin 2, t.fns[f].ringFault = s.fns[f].ringFault

theorem FaultBitsKept.of_eq {s t : State} (h : t.fns = s.fns) : FaultBitsKept s t := fun f => by rw [h]
theorem FaultBitsKept.trans {s t u : State} (h : FaultBitsKept s t) (k : FaultBitsKept t u) : FaultBitsKept s u :=
  fun f => (k f).trans (h f)
theorem FaultBitsKept.foldl {α : Type} {s : State} {g : State → α → State} (l : List α) (hg : ∀ t x, FaultBitsKept t (g t x)) :
    FaultBitsKept s (l.foldl g s) :=
  List.foldlRecOn l g (motive := FaultBitsKept s) (.of_eq rfl) fun _ h x _ => h.trans (hg _ x)
theorem Sends.faultBits {s t : State} (h : Sends s t) : FaultBitsKept s t := .of_eq (h.read State.fns)

theorem modFn_faultBits (s : State) (f : Fin 2) (g : HostFn → HostFn) (h : (g s.fns[f]).ringFault = s.fns[f].ringFault) :
    FaultBitsKept s (s.modFn f g) := by
  intro k
  rw [modFn_fns, upd_get]
  split
  · next hk => rw [← hk]; exact h
  · rfl

theorem signalVector_faultBits (s : State) (v : Fin 64) : FaultBitsKept s (s.signalVector v) := by
  unfold State.signalVector
  dsimp only
  split
  · exact .foldl _ fun t f => modFn_faultBits t f _ rfl
  · split
    · exact modFn_faultBits s _ _ rfl
    · split
      · exact (sendMsg_sends s _ _ _).faultBits
      · exact (emit_sends s _).faultBits

theorem cqSignal_faultBits (s : State) (j : Fin 16) : FaultBitsKept s (s.cqSignal j) := by
  have modCq (t : State) (g : Cq → Cq) : FaultBitsKept t (t.modCq j g) := .of_eq rfl
  unfold State.cqSignal
  dsimp only
  split
  · exact .of_eq rfl
  · split
    · exact modCq s _
    · refine FaultBitsKept.trans ?_ (modCq _ _)
      split
      · exact (emit_sends s _).faultBits
      · split
        · exact (raiseLine_sends s _ _).faultBits
        · exact signalVector_faultBits s _

theorem postNow_faultBits (s : State) (j : Fin 16) (e : CEntry) : FaultBitsKept s (s.postNow j e) := by
  have modCq (t : State) (g : Cq → Cq) : FaultBitsKept t (t.modCq j g) := .of_eq rfl
  unfold State.postNow
  dsimp only
  split
  · exact (ringStore_sends s _ _ _ _).faultBits.trans (modCq _ _)
  · exact (ringStore_sends s _ _ _ _).faultBits.trans ((modCq _ _).trans (cqSignal_faultBits _ j))

theorem flushEvents_faultBits (s : State) (f : Fin 2) (k : Nat) : FaultBitsKept s (s.flushEvents f k) := by
  induction k generalizing s with
  | zero => exact .of_eq rfl
  | succ k ih =>
    unfold State.flushEvents
    dsimp only
    split
    · split
      · exact (modFn_faultBits s f _ rfl).trans ((postNow_faultBits _ _ _).trans (ih _))
      · exact .of_eq rfl
    · exact .of_eq rfl

theorem mergeEvent_ringFault (h : HostFn) (ev : EventRec) : (mergeEvent h ev).ringFault = h.ringFault := by
  unfold mergeEvent
  split <;> rfl

theorem eventTo_faultBits (s : State) (f : Fin 2) (ev : EventRec) : FaultBitsKept s (s.eventTo f ev) := by
  unfold State.eventTo
  dsimp only
  split
  · exact .of_eq rfl
  · split
    · exact modFn_faultBits s f _ (mergeEvent_ringFault _ ev)
    · exact (modFn_faultBits s f _ rfl).trans (flushEvents_faultBits _ f _)

theorem event_faultBits (s : State) (kind source status : Nat) (extra : DWord) :
    FaultBitsKept s (s.event kind source status extra) := by
  unfold State.event
  dsimp only
  split
  · exact (relayMsg_sends s _ _).faultBits
  · refine .foldl _ fun t f => ?_
    split
    · exact eventTo_faultBits t f _
    · exact .of_eq rfl

/-- A ring's fault noted in its record and in its function's fault bits. -/
def State.noteFault (s : State) (r : RingId) (kind : BitVec 2) : State :=
  (match r with
    | .sq i => s.modSq i fun q => { q with error := true, faultKind := kind }
    | .cq j => s.modCq j fun c => { c with error := true, faultKind := kind }).modFn (s.ringFn r.idx) fun h =>
      { h with ringFault := setBit h.ringFault r.num }

theorem ringFault_eq (s : State) (r : RingId) (kind : BitVec 2) :
    s.ringFault r kind = (s.noteFault r kind).event 0x09 r.num stInvalidParam := by
  cases r <;> rfl

theorem ringFault_sq (s : State) (i : Fin 16) (kind : BitVec 2) :
    (s.ringFault (.sq i) kind).sqs = upd s.sqs i (fun q => { q with error := true, faultKind := kind }) ∧
    (s.ringFault (.sq i) kind).fns[s.ringFn i].ringFault = setBit s.fns[s.ringFn i].ringFault i.val ∧
    (s.ringFault (.sq i) kind).pages = s.pages := by
  have hposts := event_posts (s.noteFault (.sq i) kind) 0x09 (RingId.num (.sq i)) stInvalidParam 0
  have hbits := event_faultBits (s.noteFault (.sq i) kind) 0x09 (RingId.num (.sq i)) stInvalidParam 0 (s.ringFn i)
  have hset : (s.noteFault (.sq i) kind).fns[s.ringFn i].ringFault = setBit s.fns[s.ringFn i].ringFault i.val := by
    unfold State.noteFault
    rw [modFn_fns, upd_get]
    exact congrArg HostFn.ringFault (if_pos rfl)
  rw [ringFault_eq]
  exact ⟨hposts.sqs, hbits.trans hset, hposts.read State.pages⟩

theorem ringFault_tick (s : State) (r : RingId) (kind : BitVec 2) : (s.ringFault r kind).tick = s.tick := by
  have h := (event_posts (s.noteFault r kind) 0x09 r.num stInvalidParam 0).read State.tick
  rw [ringFault_eq]
  cases r <;> exact h

/-! ### Ring control (R99, R110) -/

theorem ringControl_denied {s : State} {f : Fin 2} {r : RingId} (h : s.mayControl f r = false) :
    exec (.ringEnable f r) s = .next s ∧ exec (.ringDisable f r) s = .next s :=
  ⟨congrArg Host.Outcome.next (if_pos (by rw [h]; rfl)), congrArg Host.Outcome.next (if_neg (by rw [h]; exact Bool.false_ne_true))⟩

theorem ringDisable_eq {s : State} {f : Fin 2} {r : RingId} (h : s.mayControl f r = true) :
    exec (.ringDisable f r) s = .next (s.modRingFsm r EnFsm.disable) := congrArg Host.Outcome.next (if_pos h)

theorem ringEnable_eq {s : State} {f : Fin 2} {r : RingId} (h : s.mayControl f r = true) :
    exec (.ringEnable f r) s = .next (if (s.ringFsm r).st = .off then s.ringRise r else s.modRingFsm r EnFsm.enable) :=
  congrArg Host.Outcome.next (if_neg (by rw [h]; exact Bool.false_ne_true))

/-- EN := 1 of an OFF submission ring. -/
theorem ringRise_sq (s : State) (i : Fin 16) :
    (s.sqValid i = true → s.ringRise (.sq i) = { s with sqs := s.sqs.set i { s.sqs[i] with
      fsm := ⟨true, .rising, false, false⟩, error := false, faultKind := 0, head := 0, tail := 0, inflight := 0
      rung := false, fenced := false, epoch := s.sqs[i].epoch + 1 } }) ∧
    (s.sqValid i = false → (s.ringRise (.sq i)).sqs = s.sqs.set i { s.sqs[i] with
        fsm := { s.sqs[i].fsm with en := true }, error := true, faultKind := 1 } ∧
      (s.ringRise (.sq i)).fns[s.ringFn i].ringFault = setBit s.fns[s.ringFn i].ringFault i.val) := by
  refine ⟨fun h => if_pos h, fun h => ?_⟩
  have hrise : s.ringRise (.sq i) = (s.modSq i fun q => { q with fsm := { q.fsm with en := true } }).ringFault (.sq i) 1 :=
    if_neg (by rw [h]; exact Bool.false_ne_true)
  obtain ⟨hsqs, hbit, -⟩ := ringFault_sq (s.modSq i fun q => { q with fsm := { q.fsm with en := true } }) i 1
  rw [hrise]
  refine ⟨?_, hbit⟩
  rw [hsqs, modSq_sqs, upd_upd]
  rfl

theorem ringRise_cq {s : State} {j : Fin 16} (h : s.cqValid j = true) :
    s.ringRise (.cq j) = { s with cqs := s.cqs.set j { s.cqs[j] with
      fsm := ⟨true, .rising, false, false⟩, error := false, faultKind := 0, head := 0, tail := 0, phase := true
      rung := false, holdoff := false, due := false, held := [] } } := if_pos h

/-- The rows of ring control. -/
theorem ringControl_acts (s : State) (f : Fin 2) (r : RingId) :
    (s.mayControl f r = false → exec (.ringEnable f r) s = .next s ∧ exec (.ringDisable f r) s = .next s) ∧
    (s.mayControl f r = true → exec (.ringDisable f r) s = .next (s.modRingFsm r EnFsm.disable) ∧
      ((s.ringFsm r).st ≠ .off → exec (.ringEnable f r) s = .next (s.modRingFsm r EnFsm.enable))) ∧
    (∀ i, r = .sq i → s.mayControl f r = true → s.sqs[i].fsm.st = .off →
      (s.sqValid i = true → exec (.ringEnable f r) s = .next (({ s with sqs := s.sqs.set i { s.sqs[i] with
        fsm := ⟨true, .rising, false, false⟩, error := false, faultKind := 0, head := 0, tail := 0, inflight := 0
        rung := false, fenced := false, epoch := s.sqs[i].epoch + 1 } } : State))) ∧
      (s.sqValid i = false → ∃ t, exec (.ringEnable f r) s = .next t ∧ t.sqs = s.sqs.set i { s.sqs[i] with
        fsm := { s.sqs[i].fsm with en := true }, error := true, faultKind := 1 } ∧
        t.fns[s.ringFn i].ringFault = setBit s.fns[s.ringFn i].ringFault i.val)) ∧
    (∀ j, r = .cq j → s.mayControl f r = true → s.cqs[j].fsm.st = .off → s.cqValid j = true →
      exec (.ringEnable f r) s = .next (({ s with cqs := s.cqs.set j { s.cqs[j] with
        fsm := ⟨true, .rising, false, false⟩, error := false, faultKind := 0, head := 0, tail := 0, phase := true
        rung := false, holdoff := false, due := false, held := [] } } : State))) := by
  have rises (h : s.mayControl f r = true) (hoff : (s.ringFsm r).st = .off) : exec (.ringEnable f r) s = .next (s.ringRise r) := by
    rw [ringEnable_eq h, if_pos hoff]
  refine ⟨ringControl_denied, fun h => ⟨ringDisable_eq h, fun hon => by rw [ringEnable_eq h, if_neg hon]⟩, ?_, ?_⟩
  · rintro i rfl h hoff
    obtain ⟨hvalid, hinvalid⟩ := ringRise_sq s i
    exact ⟨fun hv => (rises h hoff).trans (congrArg Host.Outcome.next (hvalid hv)), fun hv => ⟨_, rises h hoff, hinvalid hv⟩⟩
  · rintro j rfl h hoff hv
    exact (rises h hoff).trans (congrArg Host.Outcome.next (ringRise_cq hv))

/-! ### The end of the rise and of the fall (R110) -/

theorem frontEndReady_eq (s : State) (r : RingId) : exec (.ringFrontEndReady r) s =
    .next (if (s.ringFsm r).st ≠ .rising then s
      else if ((s.modRingFsm r EnFsm.rose).ringFsm r).st ≠ .on then s.modRingFsm r EnFsm.rose
      else match r with
        | .sq i => if (s.modRingFsm r EnFsm.rose).sqs[i].rung then (s.modRingFsm r EnFsm.rose).takeTail i else s.modRingFsm r EnFsm.rose
        | .cq j => if (s.modRingFsm r EnFsm.rose).cqs[j].rung then (s.modRingFsm r EnFsm.rose).takeHead j
          else s.modRingFsm r EnFsm.rose) := by
  cases r <;> rfl

theorem rose_pending {x : EnFsm} (h : x.st = .rising) (hp : x.pendDis = true) :
    x.rose = { x with st := .falling, pendDis := false } := by
  unfold EnFsm.rose
  rw [if_pos h, if_pos hp]
theorem rose_on {x : EnFsm} (h : x.st = .rising) (hp : x.pendDis = false) : x.rose = { x with st := .on } := by
  unfold EnFsm.rose
  rw [if_pos h, hp, if_neg Bool.false_ne_true]

theorem frontEndReady_falls {s : State} {r : RingId} (h : (s.ringFsm r).st = .rising) (hp : (s.ringFsm r).pendDis = true) :
    exec (.ringFrontEndReady r) s = .next (s.modRingFsm r fun x => { x with st := .falling, pendDis := false }) := by
  have hfalls : s.modRingFsm r EnFsm.rose = s.modRingFsm r fun x => { x with st := .falling, pendDis := false } :=
    modRingFsm_congr (rose_pending h hp)
  rw [frontEndReady_eq, if_neg (not_not.mpr h), ringFsm_modRingFsm, rose_pending h hp, hfalls]
  exact congrArg Host.Outcome.next (if_pos (show EnSt.falling ≠ EnSt.on by decide))

theorem takeTail_inside {s : State} {i : Fin 16} (h : s.sqs[i].doorbell.toNat < ringSize s.sqs[i].cfg) :
    s.takeTail i = s.modSq i fun q => { q with tail := q.doorbell, rung := false } := if_pos h
theorem takeTail_outside {s : State} {i : Fin 16} (h : ¬ s.sqs[i].doorbell.toNat < ringSize s.sqs[i].cfg) :
    s.takeTail i = s.ringFault (.sq i) 2 := if_neg h

/-- The rise of a submission ring that is not to fall ends ON; a doorbell recorded meanwhile acts. -/
theorem frontEndReady_rises {s : State} {i : Fin 16} (h : (s.ringFsm (.sq i)).st = .rising)
    (hp : (s.ringFsm (.sq i)).pendDis = false) :
    exec (.ringFrontEndReady (.sq i)) s = .next (if s.sqs[i].rung then
      (s.modSq i fun q => { q with fsm := { q.fsm with st := .on } }).takeTail i
      else s.modSq i fun q => { q with fsm := { q.fsm with st := .on } }) := by
  have hon : s.modRingFsm (.sq i) EnFsm.rose = s.modSq i fun q => { q with fsm := { q.fsm with st := .on } } :=
    modSq_congr (congrArg (fun x => { s.sqs[i] with fsm := x }) (rose_on h hp))
  have hst : ((s.modRingFsm (.sq i) EnFsm.rose).ringFsm (.sq i)).st = .on := by
    rw [ringFsm_modRingFsm]
    exact congrArg EnFsm.st (rose_on h hp)
  rw [frontEndReady_eq, if_neg (not_not.mpr h), if_neg (not_not.mpr hst), hon]
  dsimp only
  rw [modSq_get]

theorem quiesceRing_busy {s : State} {i : Fin 16} (h : s.sqs[i].fsm.st = .falling) (hbusy : s.sqs[i].inflight ≠ 0) :
    exec (.ringQuiesced (.sq i)) s = .next s := by
  have hst : ¬ (s.ringFsm (.sq i)).st ≠ .falling := not_not.mpr h
  change Host.Outcome.next (quiesceRing (.sq i) s) = _
  unfold quiesceRing
  rw [if_neg hst]
  have hopen : (!decide (s.sqs[i].inflight = 0)) = true := by rw [decide_eq_false hbusy]; rfl
  exact congrArg Host.Outcome.next (if_pos hopen)

theorem quiesceRing_quiet {s : State} {i : Fin 16} (h : s.sqs[i].fsm.st = .falling) (hquiet : s.sqs[i].inflight = 0)
    (hp : s.sqs[i].fsm.pendEn = false) : exec (.ringQuiesced (.sq i)) s = .next (s.modSq i fun q => { q with
      fsm := ⟨false, .off, false, false⟩, error := false, faultKind := 0 }) := by
  have hst : ¬ (s.ringFsm (.sq i)).st ≠ .falling := not_not.mpr h
  have hpend : (s.ringFsm (.sq i)).pendEn = false := hp
  have hdone : ¬ (!decide (s.sqs[i].inflight = 0)) = true := by rw [decide_eq_true hquiet]; exact Bool.false_ne_true
  change Host.Outcome.next (quiesceRing (.sq i) s) = _
  unfold quiesceRing
  rw [if_neg hst]
  dsimp only
  rw [if_neg hdone, hpend, if_neg Bool.false_ne_true]

theorem accessFault_on {s : State} {r : RingId} (h : (s.ringFsm r).st = .on) :
    exec (.ringAccessFault r) s = .next (s.ringFault r 3) := congrArg Host.Outcome.next (if_pos h)

/-- The rows of a ring's states. -/
theorem ringStates_pass (s : State) (r : RingId) :
    ((s.ringFsm r).st ≠ .rising → exec (.ringFrontEndReady r) s = .next s) ∧
    ((s.ringFsm r).st ≠ .falling → exec (.ringQuiesced r) s = .next s) ∧
    ((s.ringFsm r).st ≠ .on → exec (.ringAccessFault r) s = .next s) ∧
    ((s.ringFsm r).st = .rising → (s.ringFsm r).pendDis = true →
      exec (.ringFrontEndReady r) s = .next (s.modRingFsm r fun x => { x with st := .falling, pendDis := false })) :=
  ⟨fun h => by rw [frontEndReady_eq, if_pos h], fun h => congrArg Host.Outcome.next (if_pos h),
    fun h => congrArg Host.Outcome.next (if_neg h), frontEndReady_falls⟩

/-- The states of a submission ring. -/
theorem sqStates_pass (s : State) (i : Fin 16) : let q := s.sqs[i]
    (q.fsm.st = .rising → q.fsm.pendDis = false →
      (q.rung = false → exec (.ringFrontEndReady (.sq i)) s =
        .next (({ s with sqs := s.sqs.set i { q with fsm := { q.fsm with st := .on } } } : State))) ∧
      (q.rung = true → q.doorbell.toNat < ringSize q.cfg → exec (.ringFrontEndReady (.sq i)) s =
        .next (({ s with sqs := s.sqs.set i { q with
          fsm := { q.fsm with st := .on }, tail := q.doorbell, rung := false } } : State)))) ∧
    (q.fsm.st = .falling → q.inflight ≠ 0 → exec (.ringQuiesced (.sq i)) s = .next s) ∧
    (q.fsm.st = .falling → q.inflight = 0 → q.fsm.pendEn = false → exec (.ringQuiesced (.sq i)) s =
      .next (({ s with sqs := s.sqs.set i { q with
        fsm := ⟨false, .off, false, false⟩, error := false, faultKind := 0 } } : State))) ∧
    (q.fsm.st = .on → ∃ t, exec (.ringAccessFault (.sq i)) s = .next t ∧
      t.sqs = s.sqs.set i { q with error := true, faultKind := 3 } ∧ t.pages = s.pages) := by
  intro q
  refine ⟨fun h hp => ⟨fun hrung => ?_, fun hrung hin => ?_⟩, quiesceRing_busy, quiesceRing_quiet, fun h => ?_⟩
  · rw [frontEndReady_rises h hp, if_neg (by rw [hrung]; exact Bool.false_ne_true)]
    rfl
  · have htail : (s.modSq i fun q => { q with fsm := { q.fsm with st := .on } }).takeTail i =
        s.modSq i fun q => { q with fsm := { q.fsm with st := .on }, tail := q.doorbell, rung := false } := by
      rw [takeTail_inside (by rw [modSq_get]; exact hin), modSq_modSq]
    rw [frontEndReady_rises h hp, if_pos hrung, htail]
    rfl
  · obtain ⟨hsqs, -, hpages⟩ := ringFault_sq s i 3
    exact ⟨_, accessFault_on h, hsqs, hpages⟩

/-! ### Doorbells (R73, R116, R118) -/

/-- Whether a distaff core owns a ring. -/
def State.ringDistaff (s : State) (r : RingId) : Bool :=
  match r with
  | .sq i => s.sqs[i].distaffOwned
  | .cq j => s.cqs[j].distaffOwned

theorem hostBell_eq {s : State} {f : Fin 2} (hf : s.fnExists f = true) (hd : s.fns[f].d3hot = false) (r : RingId) (v : Word) :
    hostBell f r v s = if s.selv.ready = false then s.badAcc else if s.ringFn r.idx ≠ f then s
      else if s.ringDistaff r = true ∨ (s.ringFsm r).st = .off ∨ (s.ringFsm r).st = .falling then s.badAcc
      else s.ringBell r (v.setWidth 16) := by
  have hgoes : ¬ ((!s.fnExists f) = true ∨ s.fns[f].d3hot = true) := by
    rw [hf, hd]
    exact fun h => h.elim Bool.false_ne_true Bool.false_ne_true
  have hready : ((!s.selv.ready) = true) = (s.selv.ready = false) := by rw [Bool.not_eq_true']
  unfold hostBell
  rw [if_neg hgoes]
  simp only [hready]
  cases r <;> rfl

theorem hostBell_rings {s : State} {f : Fin 2} (hf : s.fnExists f = true) (hd : s.fns[f].d3hot = false) {r : RingId} (v : Word)
    (hready : s.selv.ready = true) (hfn : s.ringFn r.idx = f) (hown : s.ringDistaff r = false)
    (hst : (s.ringFsm r).st = .rising ∨ (s.ringFsm r).st = .on) : hostBell f r v s = s.ringBell r (v.setWidth 16) := by
  rw [hostBell_eq hf hd, if_neg (Bool.not_eq_false _ ▸ hready), if_neg (not_not.mpr hfn), if_neg]
  rw [hown]
  rcases hst with h | h <;> rw [h] <;> decide

theorem ringBell_sq (s : State) (i : Fin 16) (v : Half) : s.ringBell (.sq i) v =
    if s.sqs[i].fsm.st = .rising then s.modSq i fun q => { q with doorbell := v, rung := true }
    else (s.modSq i fun q => { q with doorbell := v, rung := true }).takeTail i := by
  have hst : ((s.modSq i fun q => { q with doorbell := v, rung := true }).ringFsm (.sq i)).st = s.sqs[i].fsm.st :=
    congrArg (fun q => q.fsm.st) (modSq_get s i _)
  unfold State.ringBell
  dsimp only
  rw [hst]

theorem ringBell_cq (s : State) (j : Fin 16) (v : Half) : s.ringBell (.cq j) v =
    if s.cqs[j].fsm.st = .rising then s.modCq j fun c => { c with doorbell := v, rung := true }
    else (s.modCq j fun c => { c with doorbell := v, rung := true }).takeHead j := by
  have hst : ((s.modCq j fun c => { c with doorbell := v, rung := true }).ringFsm (.cq j)).st = s.cqs[j].fsm.st :=
    congrArg (fun c => c.fsm.st) (modCq_get s j _)
  unfold State.ringBell
  dsimp only
  rw [hst]

/-- A doorbell of an ON submission ring: inside the ring it moves the tail, outside it stops the ring with INDEX. -/
theorem ringBell_sq_on {s : State} {i : Fin 16} (hon : s.sqs[i].fsm.st = .on) (v : Half) :
    (v.toNat < ringSize s.sqs[i].cfg → s.ringBell (.sq i) v = s.modSq i fun q => { q with doorbell := v, tail := v, rung := false }) ∧
    (ringSize s.sqs[i].cfg ≤ v.toNat → (s.ringBell (.sq i) v).sqs[i].error = true ∧
      (s.ringBell (.sq i) v).sqs[i].faultKind = 2 ∧ (s.ringBell (.sq i) v).sqs[i].tail = s.sqs[i].tail) := by
  have hbell : s.ringBell (.sq i) v = (s.modSq i fun q => { q with doorbell := v, rung := true }).takeTail i := by
    rw [ringBell_sq, if_neg (by rw [hon]; decide)]
  rw [hbell]
  refine ⟨fun hin => ?_, fun hout => ?_⟩
  · rw [takeTail_inside (by rw [modSq_get]; exact hin), modSq_modSq]
  · obtain ⟨hsqs, -, -⟩ := ringFault_sq (s.modSq i fun q => { q with doorbell := v, rung := true }) i 2
    rw [takeTail_outside (by rw [modSq_get]; exact Nat.not_lt.mpr hout), hsqs, upd_get, if_pos rfl, modSq_get]
    exact ⟨rfl, rfl, rfl⟩

/-- Whether a head lies inside the ring and not beyond its tail. -/
def Cq.headInside (c : Cq) (v : Half) : Prop :=
  v.toNat < ringSize c.cfg ∧ (v.toNat + ringSize c.cfg - c.head.toNat) % ringSize c.cfg ≤
    (c.tail.toNat + ringSize c.cfg - c.head.toNat) % ringSize c.cfg

/-- A head taken where nothing waits for room. -/
theorem takeHead_idle {s : State} {j : Fin 16} (h : Cq.headInside s.cqs[j] s.cqs[j].doorbell) (hheld : s.cqs[j].held = [])
    (hev : ∀ f : Fin 2, s.fns[f].events = []) : s.takeHead j = s.modCq j fun c => { c with head := c.doorbell, rung := false } := by
  have hnone : (s.modCq j fun c => { c with head := c.doorbell, rung := false }).cqs[j].held = [] := by
    rw [modCq_get]
    exact hheld
  have hfns : (s.modCq j fun c => { c with head := c.doorbell, rung := false }).fns = s.fns := rfl
  have htake : s.takeHead j = (allFin 2).foldl (fun t f => t.flushEvents f t.fns[f].events.length)
      ((s.modCq j fun c => { c with head := c.doorbell, rung := false }).flushHeld j
        (s.modCq j fun c => { c with head := c.doorbell, rung := false }).cqs[j].held.length) := if_pos h
  rw [htake, hnone]
  generalize (s.modCq j fun c => { c with head := c.doorbell, rung := false }) = t at hfns
  refine List.foldlRecOn _ _ (motive := fun u : State => u = t) rfl ?_
  rintro u rfl f -
  rw [hfns, hev f]
  rfl

/-- A doorbell of an ON completion ring that nothing waits for moves its head. -/
theorem ringBell_cq_on {s : State} {j : Fin 16} (hon : s.cqs[j].fsm.st = .on) {v : Half} (hin : Cq.headInside s.cqs[j] v)
    (hheld : s.cqs[j].held = []) (hev : ∀ f : Fin 2, s.fns[f].events = []) :
    s.ringBell (.cq j) v = s.modCq j fun c => { c with doorbell := v, head := v, rung := false } := by
  rw [ringBell_cq, if_neg (by rw [hon]; decide), takeHead_idle, modCq_modCq]
  · rw [modCq_get]
    exact hin
  · rw [modCq_get]
    exact hheld
  · exact hev

/-- The rows of the doorbells. -/
theorem doorbells_act (s : State) (f : Fin 2) (i : Fin 16) (v : Word) (hf : s.fnExists f = true) (hd : s.fns[f].d3hot = false) :
    let counted : State := { s with selv := { s.selv with badAccess := satAdd s.selv.badAccess 1 } }
    (s.selv.ready = false → exec (.sqDoorbell f i v) s = .next counted ∧ exec (.cqDoorbell f i v) s = .next counted) ∧
    (s.selv.ready = true → s.ringFn i ≠ f → exec (.sqDoorbell f i v) s = .next s ∧ exec (.cqDoorbell f i v) s = .next s) ∧
    (s.selv.ready = true → s.ringFn i = f →
      (s.sqs[i].distaffOwned = true ∨ s.sqs[i].fsm.st = .off ∨ s.sqs[i].fsm.st = .falling →
        exec (.sqDoorbell f i v) s = .next counted) ∧
      (s.cqs[i].distaffOwned = true ∨ s.cqs[i].fsm.st = .off ∨ s.cqs[i].fsm.st = .falling →
        exec (.cqDoorbell f i v) s = .next counted) ∧
      (s.sqs[i].distaffOwned = false → s.sqs[i].fsm.st = .rising → exec (.sqDoorbell f i v) s = .next (({ s with
        sqs := s.sqs.set i { s.sqs[i] with doorbell := v.setWidth 16, rung := true } } : State))) ∧
      (s.sqs[i].distaffOwned = false → s.sqs[i].fsm.st = .on →
        (v.toNat % 65536 < ringSize s.sqs[i].cfg → exec (.sqDoorbell f i v) s = .next (({ s with
          sqs := s.sqs.set i { s.sqs[i] with doorbell := v.setWidth 16, tail := v.setWidth 16, rung := false } } : State))) ∧
        (ringSize s.sqs[i].cfg ≤ v.toNat % 65536 → ∃ t, exec (.sqDoorbell f i v) s = .next t ∧
          t.sqs[i].error = true ∧ t.sqs[i].faultKind = 2 ∧ t.sqs[i].tail = s.sqs[i].tail)) ∧
      (s.cqs[i].distaffOwned = false → s.cqs[i].fsm.st = .on → s.cqs[i].held = [] → (∀ g : Fin 2, s.fns[g].events = []) →
        let c := s.cqs[i]
        let n := ringSize c.cfg
        v.toNat % 65536 < n → (v.toNat % 65536 + n - c.head.toNat) % n ≤ (c.tail.toNat + n - c.head.toNat) % n →
        exec (.cqDoorbell f i v) s = .next (({ s with
          cqs := s.cqs.set i { c with doorbell := v.setWidth 16, head := v.setWidth 16, rung := false } } : State)))) := by
  intro counted
  have hval : (v.setWidth 16 : Half).toNat = v.toNat % 65536 := BitVec.toNat_setWidth 16 v
  have hsq : exec (.sqDoorbell f i v) s = .next (hostBell f (.sq i) v s) := rfl
  have hcq : exec (.cqDoorbell f i v) s = .next (hostBell f (.cq i) v s) := rfl
  have hcount : s.badAcc = counted := rfl
  have dropped {r : RingId} (hready : s.selv.ready = true) (hfn : s.ringFn r.idx = f)
      (h : s.ringDistaff r = true ∨ (s.ringFsm r).st = .off ∨ (s.ringFsm r).st = .falling) : hostBell f r v s = counted := by
    rw [hostBell_eq hf hd, if_neg (Bool.not_eq_false _ ▸ hready), if_neg (not_not.mpr hfn), if_pos h,
      hcount]
  rw [hsq, hcq]
  refine ⟨fun hready => ?_, fun hready hfn => ?_, fun hready hfn => ⟨fun h => ?_, fun h => ?_, fun hown hst => ?_,
    fun hown hst => ⟨fun hin => ?_, fun hout => ?_⟩, fun hown hst hheld hev => ?_⟩⟩
  · rw [hostBell_eq hf hd, hostBell_eq hf hd, if_pos hready, if_pos hready, hcount]
    exact ⟨rfl, rfl⟩
  · have hother (r : RingId) (hr : r.idx = i) : hostBell f r v s = s := by
      rw [hostBell_eq hf hd, if_neg (Bool.not_eq_false _ ▸ hready), if_pos (by rw [hr]; exact hfn)]
    rw [hother (.sq i) rfl, hother (.cq i) rfl]
    exact ⟨rfl, rfl⟩
  · rw [dropped (r := .sq i) hready hfn h]
  · rw [dropped (r := .cq i) hready hfn h]
  · rw [hostBell_rings (r := .sq i) hf hd v hready hfn hown (.inl hst), ringBell_sq, if_pos hst]
    rfl
  · obtain ⟨hmoves, -⟩ := ringBell_sq_on hst (v.setWidth 16)
    rw [hostBell_rings (r := .sq i) hf hd v hready hfn hown (.inr hst), hmoves (by rw [hval]; exact hin)]
    rfl
  · obtain ⟨-, hstops⟩ := ringBell_sq_on hst (v.setWidth 16)
    exact ⟨_, by rw [hostBell_rings (r := .sq i) hf hd v hready hfn hown (.inr hst)], hstops (by rw [hval]; exact hout)⟩
  · intro c n hin hdist
    have hinside : Cq.headInside s.cqs[i] (v.setWidth 16) := by
      unfold Cq.headInside
      rw [hval]
      exact ⟨hin, hdist⟩
    rw [hostBell_rings (r := .cq i) hf hd v hready hfn hown (.inr hst), ringBell_cq_on hst hinside hheld hev]
    rfl

/-! ### HOLDOFF (R119), undefined opcodes (R123) and replies of the other die (R65, R106) -/

theorem holdoffExpiry_eq (s : State) (j : Fin 16) : exec (.holdoffExpiry j) s =
    .next (if (!s.cqs[j].holdoff) = true then s
      else if s.cqs[j].due = true then (s.modCq j fun c => { c with holdoff := false }).cqSignal j
      else s.modCq j fun c => { c with holdoff := false }) := rfl

theorem holdoffExpiry_acts (s : State) (j : Fin 16) :
    (s.cqs[j].holdoff = false → exec (.holdoffExpiry j) s = .next s) ∧
    (s.cqs[j].holdoff = true → s.cqs[j].due = false → exec (.holdoffExpiry j) s =
      .next (({ s with cqs := s.cqs.set j { s.cqs[j] with holdoff := false } } : State))) ∧
    (s.cqs[j].holdoff = true → s.cqs[j].due = true → exec (.holdoffExpiry j) s =
      .next (State.cqSignal { s with cqs := s.cqs.set j { s.cqs[j] with holdoff := false } } j)) := by
  rw [holdoffExpiry_eq]
  have goes (h : s.cqs[j].holdoff = true) : ¬ (!s.cqs[j].holdoff) = true := by rw [h]; exact Bool.false_ne_true
  refine ⟨fun h => by rw [if_pos (by rw [h]; rfl)], fun h hdue => ?_, fun h hdue => ?_⟩
  · rw [if_neg (goes h), if_neg (Bool.eq_false_iff.mp hdue)]
    rfl
  · rw [if_neg (goes h), if_pos hdue]
    rfl

/-- An undefined opcode whose entry is taken. -/
theorem undefinedOp_taken {op : Nat} {e : Entry} {s s1 : State} (h : s.takeEntry e = some s1) : undefinedOp op e s =
    if (s1.sqs[e.sq]).cfg.getLsbD 12 then s1.relay op e else s1.reply (refOf e s1) stInvalidOpcode := by
  unfold undefinedOp refOf
  simp only [h]

theorem undefinedOpcode_answered (op : Half) (e : Entry) (s s1 : State) :
    (s.takeEntry e = none → exec (.undefinedOpcode op e) s = .next (s.noteFence e)) ∧
    (s.takeEntry e = some s1 →
      ((s1.sqs[e.sq]).cfg.getLsbD 12 = false → exec (.undefinedOpcode op e) s = .next (s1.reply (refOf e s1) stInvalidOpcode)) ∧
      ((s1.sqs[e.sq]).cfg.getLsbD 12 = true → exec (.undefinedOpcode op e) s = .next (s1.relay op.toNat e))) := by
  refine ⟨fun h => ?_, fun h => ⟨fun hdie => ?_, fun hdie => ?_⟩⟩ <;> refine congrArg Host.Outcome.next ?_
  · unfold undefinedOp
    simp only [h]
  · exact (undefinedOp_taken h).trans (if_neg (Bool.eq_false_iff.mp hdie))
  · exact (undefinedOp_taken h).trans (if_pos hdie)

theorem faultRings_tick (s : State) (i : Nat) (twin : Bool) : (s.faultRings i twin).tick = s.tick := by
  unfold State.faultRings
  exact foldl_keeps State.tick _ (fun t r => ringFault_tick t r 3) _ _

/-- The reply a relayed command is ended with. -/
def relayedEntry (b : List Byte) (r : CmdRef) (i : Fin 16) : CEntry :=
  { CEntry.ofBytes b r.noIrq with sqId := BitVec.ofNat 8 i.val }

theorem relayReply_single {s : State} {b : List Byte} {i : Fin 16} {r : CmdRef} {op : Half} {l : List Byte}
    (hjobs : s.jobs = [(r, op, l)]) (hsq : r.sq = i) (hid : r.cmdId.toNat = leAt b 0 2) (hdie : s.sqs[i].cfg.getLsbD 12 = true)
    (hdone : s.tick.twinDone = none) : relayReply b i false s =
      (if op = 0x105 ∧ (relayedEntry b r i).status = 0 then s.faultRings r.swatch.toNat true else s).finish r (relayedEntry b r i) := by
  have hfind : (s.jobs.find? fun j => decide (j.1.sq = i ∧ j.1.cmdId.toNat = leAt b 0 2) && s.sqs[i].cfg.getLsbD 12) =
      some (r, op, l) := by
    rw [hjobs]
    exact List.find?_cons_of_pos (by rw [decide_eq_true ⟨hsq, hid⟩, hdie]; rfl)
  have htick : (if op = 0x105 ∧ (relayedEntry b r i).status = 0 then s.faultRings r.swatch.toNat true else s).tick = s.tick := by
    split
    · exact faultRings_tick s _ _
    · rfl
  unfold relayReply
  rw [if_neg Bool.false_ne_true, hfind]
  refine if_neg fun h => ?_
  have hnone : (if op = 0x105 ∧ (relayedEntry b r i).status = 0 then s.faultRings r.swatch.toNat true else s).tick.twinDone =
      some (relayedEntry b r i).row := h.2
  rw [htick, hdone] at hnone
  cases hnone

theorem relayRsp_ends (s : State) (b : Vector Byte 64) (i : Fin 16) :
    (s.jobs = [] → exec (.relayRsp b i false) s = .next s) ∧
    (∀ (r : CmdRef) (op : Half) (l : List Byte), s.jobs = [(r, op, l)] → r.sq = i → r.cmdId.toNat = leAt b.toList 0 2 →
      s.sqs[i].cfg.getLsbD 12 = true → s.tick.twinDone = none →
        let x : CEntry := { CEntry.ofBytes b.toList r.noIrq with sqId := BitVec.ofNat 8 i.val }
        (op ≠ 0x105 ∨ x.status ≠ 0 → exec (.relayRsp b i false) s = .next (s.finish r x)) ∧
        (op = 0x105 → x.status = 0 → exec (.relayRsp b i false) s = .next ((s.faultRings r.swatch.toNat true).finish r x))) := by
  have hexec : exec (.relayRsp b i false) s = .next (relayReply b.toList i false s) := rfl
  rw [hexec]
  refine ⟨fun h => ?_, fun r op l hjobs hsq hid hdie hdone => ?_⟩
  · unfold relayReply
    rw [h]
    rfl
  · intro x
    rw [relayReply_single hjobs hsq hid hdie hdone]
    refine ⟨fun h => congrArg (fun t : State => Host.Outcome.next (t.finish r x)) (if_neg fun hoff => ?_),
      fun hop hstatus => congrArg (fun t : State => Host.Outcome.next (t.finish r x)) (if_pos ⟨hop, hstatus⟩)⟩
    exact h.elim (fun hop => hop hoff.1) fun hstatus => hstatus hoff.2

theorem fnExists_single {s : State} (h : s.fuses.hostPorts ≠ 2) : s.fnExists 0 = true ∧ s.fnExists 1 = false := by
  unfold State.fnExists State.fnCount
  rw [if_neg h]
  exact ⟨rfl, rfl⟩

theorem relayRsp_event {s : State} (b : Vector Byte 64) (i : Fin 16) (h : s.fuses.hostPorts ≠ 2) :
    exec (.relayRsp b i true) s = .next (s.eventTo 0 ⟨b[20], b[21], b[2], BitVec.ofNat 16 (leAt b.toList 22 2),
      BitVec.ofNat 64 (leAt b.toList 24 8), BitVec.ofNat 64 (leAt b.toList 8 8), true⟩) := by
  have hbyte (k : Nat) (hk : k < 64) : b.toList.getD k 0 = b[k] := by simp [hk]
  have hfold (ev : EventRec) : (allFin 2).foldl (fun t f => if t.fnExists f then t.eventTo f ev else t) s = s.eventTo 0 ev := by
    have hall : allFin 2 = [0, 1] := by decide
    have hfuses : (s.eventTo 0 ev).fuses = s.fuses := (eventTo_posts s 0 ev).read State.fuses
    have hone : (s.eventTo 0 ev).fnExists 1 = false := (fnExists_single (by rw [hfuses]; exact h)).2
    rw [hall, List.foldl_cons, List.foldl_cons, List.foldl_nil, if_pos (fnExists_single h).1,
      if_neg (by rw [hone]; exact Bool.false_ne_true)]
  change Host.Outcome.next (relayReply b.toList i true s) = _
  unfold relayReply
  rw [if_pos rfl]
  dsimp only
  rw [hfold, hbyte 20 (by decide), hbyte 21 (by decide), hbyte 2 (by decide)]

theorem tickDone_acts (s : State) (row : DWord) :
    (s.tick.twinDone ≠ some row → exec (.tickDone row) s = .next s) ∧
    (s.tick.twinDone = some row → s.tick.twinHeld = [] → exec (.tickDone row) s =
      .next (({ s with tick := { s.tick with twinDone := none, twinHeld := [] } } : State))) := by
  refine ⟨fun h => congrArg Host.Outcome.next (if_neg h), fun h hheld => ?_⟩
  change Host.Outcome.next (twinTickDone row s) = _
  unfold twinTickDone
  rw [if_pos h]
  dsimp only
  rw [hheld]
  rfl

/-- Settles O41: ring by ring, through `State.ringRise`, `State.ringBell` and `State.ringFault`. -/
theorem ringLife : Obligations.RingLife := by
  unfold Obligations.RingLife
  exact ⟨ringControl_acts, ringStates_pass, sqStates_pass, doorbells_act, holdoffExpiry_acts, undefinedOpcode_answered, relayRsp_ends,
    fun s b i => relayRsp_event b i, tickDone_acts⟩

end Sys2Proof.Machine
end

section
/-! SUPPORT. Every command goes on, and keeps what every operation keeps (Laws/Kept): the queue, the fuses, memory's canonical form. -/
namespace Sys2Proof.Machine
open Sys2Proof Sys2Proof.Safety

/-! ### Every command -/

/-- No command ends in a fault or a refusal. -/
theorem exec_next (c : Instr) (s : State) : ∃ t, exec c s = .next t := by
  cases c <;> exact ⟨_, rfl⟩

/-- Each command keeps what its meaning keeps. -/
theorem exec_kept {c : Instr} {s t : State} : exec c s = .next t → Kept s t := by
  cases c with
  | selvagePowerGood => exact execSelvagePowerGood_kept
  | spwrokFall => exact execSpwrokFall_kept
  | railOutOfTolerance => exact execRailOutOfTolerance_kept
  | secondaryImageWaitEnd => exact execSecondaryImageWaitEnd_kept
  | bootSourceTimeout => exact execBootSourceTimeout_kept
  | bootRead => exact execBootRead_kept
  | bootData => exact execBootData_kept
  | statusReq => exact execStatusReq_kept
  | offer => exact execOffer_kept
  | sidebandUp => exact execSidebandUp_kept
  | sbInitTimeout => exact execSbInitTimeout_kept
  | roleAck => exact execRoleAck_kept
  | roleCheckTimeout => exact execRoleCheckTimeout_kept
  | mbTrainingDone => exact execMbTrainingDone_kept
  | portTrainingDeadline => exact execPortTrainingDeadline_kept
  | creditInit => exact execCreditInit_kept
  | pcieLinkUp => exact execPcieLinkUp_kept
  | flitReceived => exact execFlitReceived_kept
  | ackTimer => exact execAckTimer_kept
  | nakReceived => exact execNakReceived_kept
  | retryLimitCrossed => exact execRetryLimitCrossed_kept
  | retryIntervalEnd => exact execRetryIntervalEnd_kept
  | laneRepairDone => exact execLaneRepairDone_kept
  | retrainTimeout => exact execRetrainTimeout_kept
  | stackPortReroute => exact execStackPortReroute_kept
  | rd => exact execRd_kept
  | wr => exact execWr_kept
  | wrMask => exact execWrMask_kept
  | atomAdd => exact execAtomAdd_kept
  | rdReg => exact execRdReg_kept
  | wrReg => exact execWrReg_kept
  | rdRsp => exact execRdRsp_kept
  | wrAck => exact execWrAck_kept
  | errRsp => exact execErrRsp_kept
  | ply => exact execPly_kept
  | unknownMessage _ code => exact execUnknownMessage_kept (a1 := code)
  | srefAck => exact execSrefAck_kept
  | srefAckTimeout => exact execSrefAckTimeout_kept
  | hemEvent => exact execHemEvent_kept
  | temp => exact execTemp_kept
  | eccCorr _ _ offset => exact execEccCorr_kept (a2 := offset)
  | eccUncorr => exact execEccUncorr_kept
  | shusTick => exact execShusTick_kept
  | irq => exact execIrq_kept
  | twinTick => exact execTwinTick_kept
  | tickDone => exact execTickDone_kept
  | twinWindow => exact execTwinWindow_kept
  | twinChain => exact execTwinChain_kept
  | relayCmd => exact execRelayCmd_kept
  | relayRsp => exact execRelayRsp_kept
  | functionLevelReset => exact execFunctionLevelReset_kept
  | hotReset => exact execHotReset_kept
  | hostLinkDown => exact execHostLinkDown_kept
  | functionResetComplete => exact execFunctionResetComplete_kept
  | d3hotEntry => exact execD3hotEntry_kept
  | d0Return => exact execD0Return_kept
  | msixUnmask => exact execMsixUnmask_kept
  | bar2Access => exact execBar2Access_kept
  | bar4Read => exact execBar4Read_kept
  | bar4Write => exact execBar4Write_kept
  | sqDoorbell => exact execSqDoorbell_kept
  | cqDoorbell => exact execCqDoorbell_kept
  | ringEnable => exact execRingEnable_kept
  | ringDisable => exact execRingDisable_kept
  | ringFrontEndReady => exact execRingFrontEndReady_kept
  | ringQuiesced => exact execRingQuiesced_kept
  | ringAccessFault => exact execRingAccessFault_kept
  | undefinedOpcode => exact execUndefinedOpcode_kept
  | holdoffExpiry => exact execHoldoffExpiry_kept
  | nop => exact execNop_kept
  | queryDevice => exact execQueryDevice_kept
  | setDeviceState => exact execSetDeviceState_kept
  | deviceStateTransitionEnd => exact execDeviceStateTransitionEnd_kept
  | setBudget => exact execSetBudget_kept
  | setWake => exact execSetWake_kept
  | queryPower => exact execQueryPower_kept
  | restart => exact execRestart_kept
  | restartBegin => exact execRestartBegin_kept
  | fwUpdate => exact execFwUpdate_kept
  | fwUpdateFlashDone => exact execFwUpdateFlashDone_kept
  | setBootCtrl => exact execSetBootCtrl_kept
  | castSwatch => exact execCastSwatch_kept
  | knit => exact execKnit_kept
  | stopKnit => exact execStopKnit_kept
  | holdSwatch => exact execHoldSwatch_kept
  | holdQuiesceTimeout => exact execHoldQuiesceTimeout_kept
  | holdSaveDone => exact execHoldSaveDone_kept
  | restoreSwatch => exact execRestoreSwatch_kept
  | restoreReloadDone => exact execRestoreReloadDone_kept
  | bindOffSwatch => exact execBindOffSwatch_kept
  | bindOffZeroingDone => exact execBindOffZeroingDone_kept
  | querySwatch => exact execQuerySwatch_kept
  | setSwatchPpoint => exact execSetSwatchPpoint_kept
  | setSwatchGauge => exact execSetSwatchGauge_kept
  | grantDistaff => exact execGrantDistaff_kept
  | returnDistaff => exact execReturnDistaff_kept
  | commitDraft => exact execCommitDraft_kept
  | draftCommitCopiesDone => exact execDraftCommitCopiesDone_kept
  | frogDraft => exact execFrogDraft_kept
  | queryMemory => exact execQueryMemory_kept
  | allocHanks => exact execAllocHanks_kept
  | freeHanks => exact execFreeHanks_kept
  | memFill => exact execMemFill_kept
  | memCopy => exact execMemCopy_kept
  | loadProgram => exact execLoadProgram_kept
  | loadStitchMap => exact execLoadStitchMap_kept
  | loadCardProgram => exact execLoadCardProgram_kept
  | unloadProgram => exact execUnloadProgram_kept
  | bindBobbin => exact execBindBobbin_kept
  | unbindBobbin => exact execUnbindBobbin_kept
  | runBobbin => exact execRunBobbin_kept
  | queryBobbin => exact execQueryBobbin_kept
  | queryTick => exact execQueryTick_kept
  | setTickPeriod => exact execSetTickPeriod_kept
  | waitTick => exact execWaitTick_kept
  | queryHealth => exact execQueryHealth_kept
  | runCensus => exact execRunCensus_kept
  | readMap => exact execReadMap_kept
  | portReenable => exact execPortReenable_kept
  | readDistance => exact execReadDistance_kept
  | setRepairCtrl => exact execSetRepairCtrl_kept
  | attest => exact execAttest_kept
  | getCerts => exact execGetCerts_kept
  | adopt => exact execAdopt_kept
  | loadTagMaster => exact execLoadTagMaster_kept
  | readYardage => exact execReadYardage_kept
  | addYardage => exact execAddYardage_kept
  | raiseSvn => exact execRaiseSvn_kept
  | tagProve => exact execTagProve_kept
  | tagIncrement => exact execTagIncrement_kept
  | chainSearch => exact execChainSearch_kept
  | chainList => exact execChainList_kept
  | chainPing => exact execChainPing_kept
  | chainConfig => exact execChainConfig_kept
  | queryInnerChain => exact execQueryInnerChain_kept
  | expertGrant => exact execExpertGrant_kept
  | grantTakesEffect => exact execGrantTakesEffect_kept
  | expertRelease => exact execExpertRelease_kept
  | queryGrant => exact execQueryGrant_kept
  | debugEcho => exact execDebugEcho_kept
  | debugReadLog => exact execDebugReadLog_kept
  | debugReadReg => exact execDebugReadReg_kept
  | debugSetLog => exact execDebugSetLog_kept
  | rowTick => exact execRowTick_kept
  | frogDrainDone => exact execFrogDrainDone_kept
  | budgetWindowEnd => exact execBudgetWindowEnd_kept
  | swtPubOpen => exact execSwtPubOpen_kept
  | swtPubClose => exact execSwtPubClose_kept
  | budgetLimiter => exact execBudgetLimiter_kept
  | burstWindowEnd => exact execBurstWindowEnd_kept
  | burstPowerCheck => exact execBurstPowerCheck_kept
  | burstRecoveryEnd => exact execBurstRecoveryEnd_kept
  | sensorSample => exact execSensorSample_kept
  | thermalStep2Lower => exact execThermalStep2Lower_kept
  | thermalStepRelease => exact execThermalStepRelease_kept
  | thermalRaise => exact execThermalRaise_kept
  | illegalInstruction => exact execIllegalInstruction_kept
  | add => exact execAdd_kept
  | sub => exact execSub_kept
  | mul => exact execMul_kept
  | mulh => exact execMulh_kept
  | div => exact execDiv_kept
  | rem => exact execRem_kept
  | and => exact execAnd_kept
  | or => exact execOr_kept
  | xor => exact execXor_kept
  | shl => exact execShl_kept
  | shr => exact execShr_kept
  | sra => exact execSra_kept
  | slt => exact execSlt_kept
  | sltu => exact execSltu_kept
  | min => exact execMin_kept
  | max => exact execMax_kept
  | fadd => exact execFadd_kept
  | fsub => exact execFsub_kept
  | fmul => exact execFmul_kept
  | fma => exact execFma_kept
  | fcvt => exact execFcvt_kept
  | addi => exact execAddi_kept
  | andi => exact execAndi_kept
  | ori => exact execOri_kept
  | xori => exact execXori_kept
  | lui => exact execLui_kept
  | shiftImmediate => exact execShiftImmediate_kept
  | brEq => exact execBrEq_kept
  | brNe => exact execBrNe_kept
  | brLt => exact execBrLt_kept
  | brGe => exact execBrGe_kept
  | brLtu => exact execBrLtu_kept
  | brGeu => exact execBrGeu_kept
  | jal => exact execJal_kept
  | jalr => exact execJalr_kept
  | sld => exact execSld_kept
  | sst => exact execSst_kept
  | sstAtomicAdd => exact execSstAtomicAdd_kept
  | vadd => exact execVadd_kept
  | vsub => exact execVsub_kept
  | vmul => exact execVmul_kept
  | vfma => exact execVfma_kept
  | vmin => exact execVmin_kept
  | vmax => exact execVmax_kept
  | vabs => exact execVabs_kept
  | vneg => exact execVneg_kept
  | vand => exact execVand_kept
  | vor => exact execVor_kept
  | vxor => exact execVxor_kept
  | vshl => exact execVshl_kept
  | vshr => exact execVshr_kept
  | vsra => exact execVsra_kept
  | vmulh => exact execVmulh_kept
  | vcvt => exact execVcvt_kept
  | vld => exact execVld_kept
  | vst => exact execVst_kept
  | vstAtomicAdd => exact execVstAtomicAdd_kept
  | bcast => exact execBcast_kept
  | shuffle => exact execShuffle_kept
  | slideup => exact execSlideup_kept
  | slidedn => exact execSlidedn_kept
  | laneget => exact execLaneget_kept
  | laneset => exact execLaneset_kept
  | predEq => exact execPredEq_kept
  | predNe => exact execPredNe_kept
  | predLt => exact execPredLt_kept
  | predLe => exact execPredLe_kept
  | predAnd => exact execPredAnd_kept
  | predOr => exact execPredOr_kept
  | predXor => exact execPredXor_kept
  | predNot => exact execPredNot_kept
  | first => exact execFirst_kept
  | count => exact execCount_kept
  | sum => exact execSum_kept
  | sumsq => exact execSumsq_kept
  | meanvar => exact execMeanvar_kept
  | redMax => exact execRedMax_kept
  | redMin => exact execRedMin_kept
  | argmax => exact execArgmax_kept
  | argmin => exact execArgmin_kept
  | feedLd => exact execFeedLd_kept
  | feedSt => exact execFeedSt_kept
  | vput => exact execVput_kept
  | vget => exact execVget_kept
  | moveEnq => exact execMoveEnq_kept
  | moveStatus => exact execMoveStatus_kept
  | moveWait => exact execMoveWait_kept
  | moverDescriptorDone => exact execMoverDescriptorDone_kept
  | stchSend => exact execStchSend_kept
  | stchRecv => exact execStchRecv_kept
  | stitchEntryArrival => exact execStitchEntryArrival_kept
  | stitchCreditReturn => exact execStitchCreditReturn_kept
  | twinUnmatchedTimeout => exact execTwinUnmatchedTimeout_kept
  | meshMcast => exact execMeshMcast_kept
  | meshTree => exact execMeshTree_kept
  | halt => exact execHalt_kept
  | fenceL => exact execFenceL_kept
  | fenceY => exact execFenceY_kept
  | bar => exact execBar_kept
  | flagSet => exact execFlagSet_kept
  | flagAdd => exact execFlagAdd_kept
  | flagWaitGe => exact execFlagWaitGe_kept
  | flagWaitEq => exact execFlagWaitEq_kept
  | tickwait => exact execTickwait_kept
  | needleTickwaitResume => exact execNeedleTickwaitResume_kept
  | csrr => exact execCsrr_kept
  | csrw => exact execCsrw_kept
  | castZero => exact execCastZero_kept
  | castBias => exact execCastBias_kept
  | castResid => exact execCastResid_kept
  | castTotal => exact execCastTotal_kept
  | mma => exact execMma_kept
  | mmaQueueStart => exact execMmaQueueStart_kept
  | confirmationTest => exact execConfirmationTest_kept
  | bindDrain => exact execBindDrain_kept
  | bindPromote => exact execBindPromote_kept
  | bindDrop => exact execBindDrop_kept
  | drainDone => exact execDrainDone_kept
  | lconf => exact execLconf_kept
  | lget => exact execLget_kept
  | lshift => exact execLshift_kept
  | lscale => exact execLscale_kept
  | plySend => exact execPlySend_kept
  | plyAdd => exact execPlyAdd_kept
  | land => exact execLand_kept
  | storeRead => exact execStoreRead_kept
  | storeWrite => exact execStoreWrite_kept
  | atomicAddAtStore => exact execAtomicAddAtStore_kept
  | flagOperation => exact execFlagOperation_kept
  | readData => exact execReadData_kept
  | writeAcknowledgement => exact execWriteAcknowledgement_kept
  | flagReply => exact execFlagReply_kept
  | multicastWrite => exact execMulticastWrite_kept
  | fixedTreeContribution => exact execFixedTreeContribution_kept
  | barrierArrival => exact execBarrierArrival_kept
  | barrierRelease => exact execBarrierRelease_kept
  | censusLoopback => exact execCensusLoopback_kept
  | saveAndRestore => exact execSaveAndRestore_kept
  | routerConfiguration => exact execRouterConfiguration_kept
  | rowSpareCopyDone => exact execRowSpareCopyDone_kept
  | agingMeasurement => exact execAgingMeasurement_kept
  | droopEvent => exact execDroopEvent_kept
  | autoCensusStart => exact execAutoCensusStart_kept
  | censusEnd => exact execCensusEnd_kept
  | scrubRead corrected poisoned => exact execScrubRead_kept (a0 := corrected) (a1 := poisoned)
  | distaffInstruction => exact execDistaffInstruction_kept
  | dstDoorbell => exact execDstDoorbell_kept
  | dstTickwait => exact execDstTickwait_kept
  | dstTickwaitResume => exact execDstTickwaitResume_kept
  | dstSwfence => exact execDstSwfence_kept
  | dstFlagSet => exact execDstFlagSet_kept
  | dstFlagAdd => exact execDstFlagAdd_kept
  | dstFlagWaitGe => exact execDstFlagWaitGe_kept
  | dstFlagWaitEq => exact execDstFlagWaitEq_kept
  | dstRun => exact execDstRun_kept
  | dstHalt => exact execDstHalt_kept
  | dstHaltDone => exact execDstHaltDone_kept
  | ndlHalt => exact execNdlHalt_kept
  | ndlRun => exact execNdlRun_kept
  | ndlStep => exact execNdlStep_kept
  | moverClear => exact execMoverClear_kept
  | edgeRetrain => exact execEdgeRetrain_kept
  | edgeCtrlLock => exact execEdgeCtrlLock_kept
  | stkCtrlLock => exact execStkCtrlLock_kept
  | meshFlagWrite => exact execMeshFlagWrite_kept
  | meshBarCfgWrite => exact execMeshBarCfgWrite_kept
  | statClear => exact execStatClear_kept
  | cardLfsrSeedWrite => exact execCardLfsrSeedWrite_kept
  | functionEnable => exact execFunctionEnable_kept
  | functionDisable => exact execFunctionDisable_kept
  | functionRiseDone => exact execFunctionRiseDone_kept
  | functionFallDone => exact execFunctionFallDone_kept
  | cardViewRead => exact execCardViewRead_kept
  | cardViewWrite => exact execCardViewWrite_kept
  | cardJob => exact execCardJob_kept
  | readClear => exact execReadClear_kept
  | unmappedRegisterAccess => exact execUnmappedRegisterAccess_kept
  | registerWrite => exact execRegisterWrite_kept
  | csi2FrameStart => exact execCsi2FrameStart_kept
  | csi2Packet => exact execCsi2Packet_kept
  | csi2FrameEnd => exact execCsi2FrameEnd_kept
  | soundwireSampleInstant => exact execSoundwireSampleInstant_kept
  | ibi => exact execIbi_kept
  | hotJoin => exact execHotJoin_kept
  | outputFrameSent => exact execOutputFrameSent_kept
  | hostRingPoll => exact execHostRingPoll_kept
  | pinFuncChange => exact execPinFuncChange_kept
  | pinParkEnd => exact execPinParkEnd_kept
  | pinOutSet => exact execPinOutSet_kept
  | pinOutClr => exact execPinOutClr_kept
  | pinWake => exact execPinWake_kept
  | uartCharacter => exact execUartCharacter_kept
  | uartDataRead => exact execUartDataRead_kept
  | uartDataWrite => exact execUartDataWrite_kept
  | extest => exact execExtest_kept
  | idcode => exact execIdcode_kept
  | samplePreload => exact execSamplePreload_kept
  | clamp => exact execClamp_kept
  | highz => exact execHighz_kept
  | jtagStatus => exact execJtagStatus_kept
  | regRead => exact execRegRead_kept
  | bypass => exact execBypass_kept
  | periodicSearch => exact execPeriodicSearch_kept
  | presenceWindowEnd => exact execPresenceWindowEnd_kept
  | rollWindowEnd => exact execRollWindowEnd_kept
  | assignAcknowledgement => exact execAssignAcknowledgement_kept
  | assignIdRead => exact execAssignIdRead_kept
  | searchDone => exact execSearchDone_kept
  | chainReply => exact execChainReply_kept
  | presenceChanged => exact execPresenceChanged_kept
  | stuckLow => exact execStuckLow_kept
  | lineHighResume => exact execLineHighResume_kept
  | chnSeqReset => exact execChnSeqReset_kept
  | sendChar => exact execSendChar_kept
  | readChar => exact execReadChar_kept
  | rollWindow => exact execRollWindow_kept
  | ackSlot => exact execAckSlot_kept
  | strong => exact execStrong_kept
  | endGap => exact execEndGap_kept
  | sendFrame => exact execSendFrame_kept
  | recvFrame => exact execRecvFrame_kept
  | chnSeqDone => exact execChnSeqDone_kept
  | fullReset => exact execFullReset_kept
  | roll _ wide => exact execRoll_kept (a1 := wide)
  | assign => exact execAssign_kept
  | ping => exact execPing_kept
  | readInfo => exact execReadInfo_kept
  | prove => exact execProve_kept
  | writePrepare => exact execWritePrepare_kept
  | writeCommit => exact execWriteCommit_kept
  | setSpeed => exact execSetSpeed_kept
  | strongWindowEnd => exact execStrongWindowEnd_kept
  | tagSupplyLoss => exact execTagSupplyLoss_kept
  | countOff => exact execCountOff_kept
  | countOffTimeout => exact execCountOffTimeout_kept
  | ident => exact execIdent_kept
  | dieProve => exact execDieProve_kept
  | innerReply => exact execInnerReply_kept
  | innerReplyTimeout => exact execInnerReplyTimeout_kept
  | attestDieTimeout => exact execAttestDieTimeout_kept
  | yardageIncrement => exact execYardageIncrement_kept
  | yardageSlotWriteDone => exact execYardageSlotWriteDone_kept
  | floorBurnDone => exact execFloorBurnDone_kept
  | powerHour => exact execPowerHour_kept
  | powerHourResidueSave => exact execPowerHourResidueSave_kept
  | secondaryStartUpReport => exact execSecondaryStartUpReport_kept
  | tagPowerUp => exact execTagPowerUp_kept
  | shuskaubPcieLinkUp => exact execShuskaubPcieLinkUp_kept
  | shuskaubPcieLinkDown => exact execShuskaubPcieLinkDown_kept
  | innerFrameTimingError => exact execInnerFrameTimingError_kept
  | innerFrameUnknownType => exact execInnerFrameUnknownType_kept
  | bankGrant => exact execBankGrant_kept
  | railRampDone => exact execRailRampDone_kept
  | uartTxCharacterDone => exact execUartTxCharacterDone_kept
  | soundwireWake => exact execSoundwireWake_kept

/-! ### The queue -/

theorem step_empty {s : State} (h : s.pending = []) : step s = .next s := by
  unfold step; rw [h]

theorem step_front {s : State} {c : Instr} {rest : List Instr} (h : s.pending = c :: rest) :
    step s = exec c { s with pending := rest } := by
  unfold step; rw [h]

/-- Settles O3: an empty queue changes nothing (`step_empty`); the front command goes on (`exec_next`) and keeps the rest of the
queue, the fuses and the canonical form (`exec_kept`). -/
theorem everyStepKeepsMemoryCanonical : Obligations.EveryStepKeepsMemoryCanonical := by
  unfold Obligations.EveryStepKeepsMemoryCanonical
  intro s hinv
  cases hqueue : s.pending with
  | nil => exact ⟨s, step_empty hqueue, hinv, hqueue, rfl⟩
  | cons c rest =>
    obtain ⟨t, hexec⟩ := exec_next c { s with pending := rest }
    have hkept := exec_kept hexec
    exact ⟨t, (step_front hqueue).trans hexec, hkept.wf hinv, hkept.pending, hkept.fuses⟩

/-- Settles O1, by the two cases of the queue. -/
theorem stepTakesFrontCommand : Obligations.StepTakesFrontCommand := by
  unfold Obligations.StepTakesFrontCommand
  exact ⟨fun _ _ _ => step_front rfl, fun _ => step_empty⟩

end Sys2Proof.Machine
end

section
/-! SUPPORT. How a Renaro command is taken, checked and answered (05 R110 to R123, R134): one lemma for each stage. -/
namespace Sys2Proof.Machine
open Sys2Proof Sys2Proof.Safety

/-! ### Taking an entry (R110, R134) -/

/-- The ring whose turn it is may dispatch. -/
theorem sqReady_of_sqTurn {s : State} {i : Fin 16} {left : Nat} (h : s.sqTurn = some (i, left)) : s.sqReady i = true := by
  unfold State.sqTurn at h
  split at h
  · next hturn =>
    obtain ⟨rfl, -⟩ := Prod.mk.inj (Option.some.inj h)
    exact (Bool.and_eq_true_iff.mp hturn).1
  · obtain ⟨k, hfind, hk⟩ := Option.map_eq_some_iff.mp h
    obtain ⟨rfl, -⟩ := Prod.mk.inj hk
    exact List.find?_some hfind

/-- A ring that may dispatch is ON without a fault, and has an entry to take and room for one in flight. -/
theorem sq_of_sqReady {s : State} {i : Fin 16} (h : s.sqReady i = true) : let q := s.sqs[i]
    s.selv.ready = true ∧ q.fsm.st = .on ∧ q.error = false ∧ q.head ≠ q.tail ∧ q.inflight < 64 := by
  simp only [State.sqReady, Bool.and_eq_true, decide_eq_true_eq, Bool.not_eq_true', bne_iff_ne] at h
  tauto

/-- A ring with its first entry taken (R134). -/
def Sq.take (q : Sq) : Sq := { q with
  head := if q.head.toNat + 1 = ringSize q.cfg then 0 else q.head + 1, inflight := q.inflight + 1, fenced := false }

theorem takeEntry_some {e : Entry} {s s1 : State} (h : s.takeEntry e = some s1) :
    s.sqReady e.sq = true ∧ (e.fence = true → s.sqs[e.sq].inflight = 0) ∧
    s1 = { s with turn := e.sq, turnLeft := s1.turnLeft, sqs := s.sqs.set e.sq s.sqs[e.sq].take } := by
  unfold State.takeEntry at h
  split at h
  · next i left hturn =>
    split at h
    · next htake =>
      obtain ⟨rfl, hfence⟩ := htake
      obtain rfl := Option.some.inj h
      exact ⟨sqReady_of_sqTurn hturn, hfence, rfl⟩
    · exact absurd h (Option.some_ne_none _).symm
  · exact absurd h (Option.some_ne_none _).symm

/-- An entry that is not taken is noted where its FENCE makes its ring wait. -/
theorem noteFence_cases (s : State) (e : Entry) : ∃ i : Fin 16, s.noteFence e = s ∨
    (e.fence = true ∧ 0 < s.sqs[i].inflight ∧ s.noteFence e = s.modSq i fun q => { q with fenced := true }) := by
  unfold State.noteFence
  split
  · next i _ _ =>
    refine ⟨i, ?_⟩
    split
    · next hwaits => exact .inr ⟨hwaits.2.1, hwaits.2.2, rfl⟩
    · exact .inl rfl
  · exact ⟨0, .inl rfl⟩

theorem dispatch_relays {c : Cmd} {e : Entry} {s s1 : State} (taken : s.takeEntry e = some s1)
    (there : (s1.sqs[e.sq]).cfg.getLsbD 12 = true) : c.dispatch e s = s1.relay c.op e := by
  simp only [Cmd.dispatch, taken, there, if_true]

/-- What a command comes to: its FENCE noted where its entry is not taken, else relayed, refused or run (R106, R123, R134). -/
theorem dispatch_cases (c : Cmd) (e : Entry) (s : State) :
    (s.takeEntry e = none → (∃ i : Fin 16, c.dispatch e s = s ∨
      (e.fence = true ∧ 0 < (s.sqs[i]).inflight ∧ c.dispatch e s = s.modSq i fun q => { q with fenced := true }))) ∧
    (∀ s1, s.takeEntry e = some s1 →
      let q := s.sqs[e.sq]
      s.selv.ready = true ∧ q.fsm.st = .on ∧ q.error = false ∧ q.head ≠ q.tail ∧ q.inflight < 64 ∧ (e.fence = true → q.inflight = 0) ∧
      s1 = { s with turn := e.sq, turnLeft := s1.turnLeft, sqs := s.sqs.set e.sq q.take } ∧
      ((s1.sqs[e.sq]).cfg.getLsbD 12 = true → c.dispatch e s = s1.relay c.op e) ∧
      ((s1.sqs[e.sq]).cfg.getLsbD 12 = false →
        (∀ st d, c.check (s1.sqs[e.sq]).scope false e s1 = some (st, d) → c.dispatch e s = s1.reply (refOf e s1) st d) ∧
        (c.check (s1.sqs[e.sq]).scope false e s1 = none → c.dispatch e s = c.act (refOf e s1) e s1))) := by
  refine ⟨fun hnone => ?_, fun s1 htaken => ?_⟩
  · rw [dispatch_waits hnone]
    exact noteFence_cases s e
  · obtain ⟨hready, hfence, hs1⟩ := takeEntry_some htaken
    obtain ⟨hup, hon, hfault, hentry, hroom⟩ := sq_of_sqReady hready
    exact ⟨hup, hon, hfault, hentry, hroom, hfence, hs1, dispatch_relays htaken,
      fun here => ⟨fun _ _ => dispatch_refused htaken here, fun passes => dispatch_accepts ⟨htaken, here, passes⟩⟩⟩

/-! ### The checks (R123, R139) -/

section Check
variable {c : Cmd} {scope : Nat} {e : Entry} {s : State}

theorem check_bad {off : Nat} (hmem : off ∈ c.headerBad scope e ++ c.bad e s)
    (hleast : ∀ x ∈ c.headerBad scope e ++ c.bad e s, off ≤ x) : c.check scope false e s = some (stInvalidParam, off) := by
  unfold Cmd.check
  rw [List.min?_eq_some_iff.mpr ⟨hmem, hleast⟩]

/-- The checks after the offsets, in the order of R123. -/
theorem check_order (hgood : c.headerBad scope e ++ c.bad e s = []) :
    let denied := (scope < 8 ∧ scopeAllows c.op scope e s = false) ∨ c.deny e s = true
    let compute := (c.op / 256 = 1 ∨ c.op / 256 = 3) ∧ s.selv.computeOk = false
    (∀ d, c.object e s = some d → c.check scope false e s = some (stInvalidParam, d)) ∧
    (c.object e s = none →
      (denied → c.check scope false e s = some (stNotPermitted, 0)) ∧
      (¬denied →
        (∀ d, c.state e s = some d → c.check scope false e s = some (stConflict, d)) ∧
        (c.state e s = none → (compute → c.check scope false e s = some (stConflict, 3)) ∧
          (¬compute → c.check scope false e s = c.res e s)))) := by
  intro denied compute
  have hdenied : ((decide (scope < 8) && !scopeAllows c.op scope e s) || (false && primaryOnly c.op) || c.deny e s) = true ↔ denied := by
    simp [denied]
  have hcompute : (decide (c.op / 256 = 1 ∨ c.op / 256 = 3) && !s.selv.computeOk) = true ↔ compute := by
    simp [compute]
  unfold Cmd.check
  rw [hgood, List.min?_nil]
  refine ⟨fun d hobject => by rw [hobject], fun hobject => ?_⟩
  rw [hobject]
  refine ⟨fun h => if_pos (hdenied.mpr h), fun h => ?_⟩
  dsimp only
  rw [if_neg (mt hdenied.mp h)]
  refine ⟨fun d hstate => by rw [hstate], fun hstate => ?_⟩
  rw [hstate]
  exact ⟨fun h => if_pos (hcompute.mpr h), fun h => if_neg (mt hcompute.mp h)⟩

/-- A SWATCH byte that its command's target does not take offends at offset 3 (R139). -/
theorem three_mem_headerBad : (c.target = 0 → e.swatch ≠ 0xFF → 3 ∈ c.headerBad scope e) ∧
    (c.target = 1 → 8 ≤ e.swatch.toNat → 3 ∈ c.headerBad scope e) ∧
    (c.target = 2 → 8 ≤ e.swatch.toNat → e.swatch ≠ 0xFF → 3 ∈ c.headerBad scope e) ∧
    (c.target = 4 → e.swatch ≠ 0xFF → 8 ≤ scope ∨ 8 ≤ e.swatch.toNat → 3 ∈ c.headerBad scope e) := by
  have mem {b : Bool} (h : b = false) : 3 ∈ if b = true then [] else [3] := by rw [h]; exact List.mem_singleton_self 3
  refine ⟨fun ht hn => ?_, fun ht hs => ?_, fun ht hs hn => ?_, fun ht hn hs => ?_⟩ <;>
    simp only [Cmd.headerBad, ht, List.mem_append] <;> refine .inl (.inl (.inr (mem ?_)))
  · exact decide_eq_false hn
  · exact decide_eq_false (Nat.not_lt.mpr hs)
  · rw [decide_eq_false hn, decide_eq_false (Nat.not_lt.mpr hs), Bool.or_false]
  · rw [decide_eq_false hn, Bool.false_or, Bool.and_eq_false_iff, decide_eq_false_iff_not, decide_eq_false_iff_not]
    omega

end Check

end Sys2Proof.Machine
end

section
/-! SUPPORT. The completion entry of a command (05 R113, R114, R119): its bytes, and what its posting writes. -/
namespace Sys2Proof.Machine
open Sys2Proof Sys2Proof.Safety

/-! ### Its bytes (R113) -/

theorem padTo_length (n : Nat) (l : List Byte) : (padTo n l).length = n := by
  unfold padTo slice
  dsimp only
  rw [List.length_append, List.length_replicate, List.length_take]
  omega

theorem memRead_memWrite (m : List (Nat × Byte)) (a : Nat) (bs : List Byte) {n : Nat} (h : bs.length = n) :
    memRead (memWrite m a bs) a n = bs := by
  refine memRead_eq h fun i hi => ?_
  rw [memGet_memWrite, if_pos (by omega), Nat.add_sub_cancel_left]

theorem leNat_leBytes_toNat {n : Nat} (k : Nat) (w : BitVec n) (h : 2 ^ n ≤ 256 ^ k) : leNat (leBytes k w.toNat) = w.toNat := by
  rw [leNat_leBytes, Nat.mod_eq_of_lt (lt_of_lt_of_le w.isLt h)]

theorem CEntry.bytes_length (e : CEntry) (phase : Bool) (sqHead : Half) : (e.bytes phase sqHead).length = 64 := by
  simp only [CEntry.bytes, List.length_append, leBytes_length, padTo_length, List.length_cons, List.length_nil]

/-- Where an entry's fields lie. -/
theorem CEntry.bytes_fields (e : CEntry) (phase : Bool) (sqHead : Half) : let b := e.bytes phase sqHead
    leAt b 0 2 = e.cmdId.toNat ∧ b.getD 2 0 = e.status ∧ b.getD 3 0 = e.detail ∧ b.getD 4 0 = e.sqId ∧
    (b.getD 5 0).getLsbD 7 = phase ∧ leAt b 6 2 = sqHead.toNat ∧ leAt b 8 8 = e.row.toNat := by
  have hphase : (putBit e.flags 7 phase).getLsbD 7 = phase := by rw [putBit_getLsbD _ _ _ _ (by decide), if_pos rfl]
  exact ⟨leNat_leBytes_toNat 2 e.cmdId (by decide), rfl, rfl, rfl, hphase, leNat_leBytes_toNat 2 sqHead (by decide),
    leNat_leBytes_toNat 8 e.row (by decide)⟩

/-! ### Signals (R119) -/

/-- From s to t a completion ring was signalled at most: memory stands, and so do every ring's tail and PHASE. -/
structure Signals (s t : State) : Prop where
  mem   : t.mem = s.mem
  tail  : ∀ i : Fin 16, t.cqs[i].tail = s.cqs[i].tail
  phase : ∀ i : Fin 16, t.cqs[i].phase = s.cqs[i].phase

theorem Signals.of_eq {s t : State} (hm : t.mem = s.mem) (hc : t.cqs = s.cqs) : Signals s t :=
  ⟨hm, fun i => by rw [hc], fun i => by rw [hc]⟩
theorem Signals.trans {s t u : State} (h : Signals s t) (k : Signals t u) : Signals s u :=
  ⟨k.mem.trans h.mem, fun i => (k.tail i).trans (h.tail i), fun i => (k.phase i).trans (h.phase i)⟩

theorem sendMsg_signals (s : State) (p : Fin 10) (code : Nat) (d : List Byte) : Signals s (s.sendMsg p code d) := by
  refine .of_eq ?_ ((sendMsg_sends s p code d).read State.cqs)
  unfold State.sendMsg State.transmit
  split
  · unfold State.pumpPort
    split <;> rfl
  · rfl

theorem raiseLine_signals (s : State) (sw line : Nat) : Signals s (s.raiseLine sw line) := by
  unfold State.raiseLine
  split <;> exact .of_eq rfl rfl

theorem signalVector_signals (s : State) (v : Fin 64) : Signals s (s.signalVector v) := by
  unfold State.signalVector
  dsimp only
  split
  · refine .of_eq (foldl_keeps State.mem _ ?_ _ _) (foldl_keeps State.cqs _ ?_ _ _) <;> exact fun _ _ => rfl
  · split
    · exact .of_eq rfl rfl
    · split
      · exact sendMsg_signals s _ _ _
      · exact .of_eq rfl rfl

/-- A change of a ring that leaves its tail and PHASE. -/
theorem modCq_signals (s : State) (j : Fin 16) (f : Cq → Cq) (ht : (f s.cqs[j]).tail = s.cqs[j].tail)
    (hp : (f s.cqs[j]).phase = s.cqs[j].phase) : Signals s (s.modCq j f) := by
  refine ⟨rfl, fun i => ?_, fun i => ?_⟩ <;> rw [modCq_cqs, upd_get] <;> split
  · next hj => rw [← hj]; exact ht
  · rfl
  · next hj => rw [← hj]; exact hp
  · rfl

theorem cqSignal_signals (s : State) (j : Fin 16) : Signals s (s.cqSignal j) := by
  unfold State.cqSignal
  dsimp only
  split
  · exact .of_eq rfl rfl
  · split
    · exact modCq_signals s j _ rfl rfl
    · refine Signals.trans ?_ (modCq_signals _ j _ rfl rfl)
      split
      · exact .of_eq rfl rfl
      · split
        · exact raiseLine_signals s _ _
        · exact signalVector_signals s _

/-! ### Posting (R114) -/

/-- The SQ_HEAD of an entry: its ring's, and 0 where no ring carried it (R113). -/
def State.headOf (s : State) (e : CEntry) : Half := if h : e.sqId.toNat < 16 then (s.sqs[e.sqId.toNat]).head else 0

/-- The tail and the PHASE behind an entry written (R114). -/
def Cq.advance (c : Cq) : Cq := { c with
  tail := if c.tail.toNat + 1 = ringSize c.cfg then 0 else c.tail + 1
  phase := if c.tail.toNat + 1 = ringSize c.cfg then !c.phase else c.phase }

/-- An entry written into a ring of this die. -/
def State.putEntry (s : State) (j : Fin 16) (e : CEntry) : State :=
  (s.store (ringAddr s.cqs[j].distaffOwned s.cqs[j].base s.cqs[j].tail.toNat)
    ((s.stampRow e).bytes s.cqs[j].phase (s.headOf e))).modCq j Cq.advance

theorem postNow_here {s : State} {j : Fin 16} (e : CEntry) (h : s.cqs[j].onTwin = false) :
    s.postNow j e = if e.noIrq then s.putEntry j e else (s.putEntry j e).cqSignal j := by
  have hadvance (u : State) (hu : u.cqs = s.cqs) : (u.modCq j fun c => { c with
      tail := if decide (s.cqs[j].tail.toNat + 1 = ringSize s.cqs[j].cfg) = true then 0 else c.tail + 1
      phase := if decide (s.cqs[j].tail.toNat + 1 = ringSize s.cqs[j].cfg) = true then !c.phase else c.phase }) =
      u.modCq j Cq.advance := by
    refine modCq_congr ?_
    simp only [hu, Cq.advance, decide_eq_true_eq]
  unfold State.postNow State.ringStore
  dsimp only
  rw [h, if_neg Bool.false_ne_true, hadvance (s.store _ _) rfl]
  rfl

/-- What a posted entry changes of memory and the rings, the hold-off of its signal aside. -/
theorem postNow_writes {s : State} {j : Fin 16} (e : CEntry) (h : s.cqs[j].onTwin = false) :
    Signals (s.putEntry j e) (s.postNow j e) ∧ (s.postNow j e).sqs = s.sqs := by
  rw [postNow_here e h]
  split
  · exact ⟨.of_eq rfl rfl, rfl⟩
  · exact ⟨cqSignal_signals _ j, (cqSignal_posts _ j).sqs⟩

/-- A completion ring of this die that takes an entry now: it is ON, holds none, has room, and its function is not in reset (R46,
R111, R135, R530). -/
structure TakesNow (s : State) (j : Fin 16) : Prop where
  alive : s.tripped = false
  here  : s.cqs[j].onTwin = false
  on    : s.cqs[j].fsm.st = .on
  empty : s.cqs[j].held = []
  room  : s.canPost j = true
  fn    : s.cqs[j].distaffOwned = false → (s.fns[s.ringFn j]).resetting = false

theorem post_now {s : State} {j : Fin 16} (e : CEntry) (h : TakesNow s j) : s.post j e = s.postNow j e := by
  have hresets : (!s.cqs[j].distaffOwned && (s.fns[s.ringFn j]).resetting) = false := by
    cases hd : s.cqs[j].distaffOwned with
    | true => rfl
    | false => exact h.fn hd
  unfold State.post
  simp only [h.alive, h.on, hresets, h.empty, h.room, List.isEmpty_nil, Bool.and_self, if_true]
  rfl

/-! ### Answers (R144) -/

/-- A command no longer in flight. -/
def State.endCmd (s : State) (r : CmdRef) : State :=
  State.modSq { s with jobs := s.jobs.eraseP fun j => decide (j.1 = r) } r.sq fun q => { q with inflight := q.inflight - 1 }

theorem endCmd_sq (s : State) (r : CmdRef) :
    (s.endCmd r).sqs[r.sq] = { s.sqs[r.sq] with inflight := (s.sqs[r.sq]).inflight - 1 } := modSq_get _ _ _

theorem finish_here {s : State} {r : CmdRef} (e : CEntry) (hhere : r.relayed = false) (hepoch : (s.sqs[r.sq]).epoch = r.epoch) :
    s.finish r e = (s.endCmd r).post (s.sqs[r.sq]).cq e := by
  unfold State.finish
  dsimp only
  rw [if_neg (by rw [hhere]; exact Bool.false_ne_true), if_neg (fun h => h hepoch)]
  rfl

/-- The ring a command names in its answer is the one it was taken from. -/
theorem headOf_endCmd (s : State) (r : CmdRef) (st d fl : Nat) (row : Option DWord) (res : List Byte) :
    (s.endCmd r).headOf (s.compose r st d fl row res) = (s.sqs[r.sq]).head := by
  have hid : (BitVec.ofNat 8 r.sq.val).toNat = r.sq.val := by
    rw [BitVec.toNat_ofNat]
    exact Nat.mod_eq_of_lt (by omega)
  have hhead : ∀ (k : Nat) (_ : k = r.sq.val), (if h : k < 16 then ((s.endCmd r).sqs[k]).head else 0) = (s.sqs[r.sq]).head := by
    rintro k rfl
    rw [dif_pos r.sq.isLt]
    exact (congrArg Sq.head (endCmd_sq s r) :)
  exact hhead _ hid

/-- An answer bears the row of its posting already. -/
theorem stampRow_compose (s : State) (r : CmdRef) (st d fl : Nat) (res : List Byte) :
    (s.endCmd r).stampRow (s.compose r st d fl none res) = s.compose r st d fl none res := by
  unfold State.stampRow
  split <;> rfl

/-- An answer posted at once is one entry at the tail of its ring's CQ (R114, R144). -/
theorem reply_writes {s : State} {r : CmdRef} (st d : Nat) (res : List (Nat × Nat × Nat)) (hhere : r.relayed = false)
    (hepoch : (s.sqs[r.sq]).epoch = r.epoch) (hcq : TakesNow s (s.sqs[r.sq]).cq) :
    let j := (s.sqs[r.sq]).cq
    let c := s.cqs[j]
    let t := s.reply r st d res
    t.mem = memWrite s.mem (ringAddr c.distaffOwned c.base c.tail.toNat)
      ((s.compose r st d 0 none (resBytes res)).bytes c.phase (s.sqs[r.sq]).head) ∧
    (t.sqs[r.sq]).inflight = (s.sqs[r.sq]).inflight - 1 ∧
    t.cqs[j].tail = c.advance.tail ∧ t.cqs[j].phase = c.advance.phase := by
  intro j c t
  have hnow : TakesNow (s.endCmd r) j := ⟨hcq.alive, hcq.here, hcq.on, hcq.empty, hcq.room, hcq.fn⟩
  have ht : t = (s.endCmd r).postNow j (s.compose r st d 0 none (resBytes res)) :=
    (finish_here _ hhere hepoch).trans (post_now _ hnow)
  obtain ⟨hsignal, hsqs⟩ := postNow_writes (s.compose r st d 0 none (resBytes res)) hnow.here
  have hring : ((s.endCmd r).putEntry j (s.compose r st d 0 none (resBytes res))).cqs[j] = c.advance := modCq_get _ j _
  rw [ht]
  refine ⟨hsignal.mem.trans ?_, ?_, (hsignal.tail j).trans (congrArg Cq.tail hring), (hsignal.phase j).trans (congrArg Cq.phase hring)⟩
  · unfold State.putEntry
    rw [stampRow_compose, headOf_endCmd]
    rfl
  · rw [hsqs]
    exact (congrArg Sq.inflight (endCmd_sq s r) :)

/-- Settles O4: taking by `dispatch_cases`, checking by `check_bad` and `check_order`, answering by `reply_writes`. -/
theorem renaroChecksAndReplies : Obligations.RenaroChecksAndReplies := by
  unfold Obligations.RenaroChecksAndReplies
  refine ⟨?_, dispatch_cases, fun c scope e s => ⟨fun _ => check_bad, check_order, three_mem_headerBad⟩, ?_⟩
  · dsimp only
    intro p hp
    fin_cases hp <;> exact fun _ _ => rfl
  · intro s r st d res hhere hepoch j c htrip htwin hon hheld hpost hfn t b
    obtain ⟨hmem, hflight, htail, hphase⟩ := reply_writes st d res hhere hepoch ⟨htrip, htwin, hon, hheld, hpost, hfn⟩
    obtain ⟨hid, hstatus, hdetail, hsq, hbit, hhead, hrow⟩ :=
      (s.compose r st d 0 none (resBytes res)).bytes_fields c.phase (s.sqs[r.sq]).head
    have hlen : b.length = 64 := CEntry.bytes_length _ _ _
    have hread : memRead t.mem (ringAddr c.distaffOwned c.base c.tail.toNat) 64 = b := by
      rw [hmem]
      exact memRead_memWrite _ _ _ hlen
    refine ⟨hlen, hread, hid, hstatus, hdetail, hsq, hbit, hhead, hrow, hflight, fun hlast => ?_, fun hmore => ?_⟩
    · exact ⟨htail.trans (if_pos hlast), hphase.trans (if_pos hlast)⟩
    · exact ⟨htail.trans (if_neg hmore), hphase.trans (if_neg hmore)⟩

end Sys2Proof.Machine
end

section
/-! SUPPORT. Management commands (06 R146 to R149, R165 to R167, R173 to R176; 05 R125 to R129): the tables they write, the log they
read, and the waits that flash writes and grants end. -/
namespace Sys2Proof.Machine
open Sys2Proof Sys2Proof.Safety

/-! ### The tables of READ_MAP and READ_DISTANCE (R166, R235) -/

theorem length_flatMap_of_const {α β : Type} {l : List α} {f : α → List β} {n : Nat} (h : ∀ a, (f a).length = n) :
    (l.flatMap f).length = n * l.length := by
  simp only [List.length_flatMap, h, List.map_const', List.sum_replicate, smul_eq_mul, Nat.mul_comm]

theorem allFin_length (n : Nat) : (allFin n).length = n := List.length_finRange

theorem mapTable_length (s : State) : s.mapTable.length = 160 := by
  have hrecord (p : Fin 20) : (s.mapRecord p).length = 8 := by
    simp only [State.mapRecord, List.length_append, leBytes_length, List.length_cons, List.length_nil]
  unfold State.mapTable
  rw [length_flatMap_of_const hrecord, allFin_length]

/-- Every skein of the map has a physical one. -/
theorem physSkeins_length (s : State) :
    (s.skeinList.filterMap fun k => (s.map.skeins[k]).map LogSkein.phys).length = s.skeinList.length := by
  refine List.filterMap_length_eq_length.mpr fun k hk => ?_
  rw [Option.isSome_map]
  exact (List.mem_filter.mp hk).2

theorem distTable_length (s : State) : s.distTable.length = 16 + 40 * s.skeinList.length := by
  have hrecord (k : Fin 20) (p : Fin 10) : (s.distRecord k p).length = 4 := by
    simp only [State.distRecord, List.length_append, leBytes_length]
  have hskein (k : Fin 20) : ((allFin 10).flatMap fun p => s.distRecord k p).length = 40 := by
    rw [length_flatMap_of_const (hrecord k), allFin_length]
  unfold State.distTable
  simp only [List.length_append, leBytes_length, List.length_replicate, length_flatMap_of_const hskein, physSkeins_length]

theorem writeOut_ok {s : State} {r : CmdRef} {a : Nat} {bs : List Byte} (res : List (Nat × Nat × Nat))
    (h : s.objOk r.sq a bs.length = true) : s.writeOut r a bs res = (s.objWrite r.sq a bs).ok r res := if_pos h

theorem writeOut_refused {s : State} {r : CmdRef} {a : Nat} {bs : List Byte} (res : List (Nat × Nat × Nat))
    (h : s.objOk r.sq a bs.length = false) : s.writeOut r a bs res = s.reply r stInvalidParam 0xFE :=
  if_neg (by rw [h]; exact Bool.false_ne_true)

/-! ### The log (R175, R176) -/

/-- Whole entries that fit are taken, and no entry is lost between those taken and those left. -/
theorem logFit_fits (l : List (List Byte)) (n : Nat) :
    (logFit l n).1.length ≤ n ∧ (logFit l n).1 ++ (logFit l n).2.flatten = l.flatten := by
  induction l generalizing n with
  | nil => exact ⟨Nat.zero_le n, rfl⟩
  | cons x l ih =>
    unfold logFit
    split
    · next hfits =>
      obtain ⟨hlen, hall⟩ := ih (n - x.length)
      dsimp only
      rw [List.length_append, List.append_assoc, hall]
      exact ⟨by omega, rfl⟩
    · exact ⟨Nat.zero_le n, rfl⟩

theorem objOk_useFree (s : State) (q : Fin 16) (a n : Nat) : s.useFree.objOk q a n = s.objOk q a n := rfl

theorem debugReadLog_writes {s : State} {r : CmdRef} {e : Entry}
    (hok : s.objOk r.sq (e.u 8 8) (logFit (s.fwLog ++ [Config.freeBytes s.freeCtr]) (e.u 16 4)).1.length = true) :
    let fit := logFit (s.fwLog ++ [Config.freeBytes s.freeCtr]) (e.u 16 4)
    cmdDebugReadLog.act r e s = State.ok (State.objWrite { s with freeCtr := s.freeCtr + 2, fwLog := fit.2 } r.sq (e.u 8 8) fit.1) r
      [(20, 4, fit.1.length), (24, 4, s.useFree.freeVal.toNat)] :=
  if_pos ((objOk_useFree s.useFree _ _ _).trans ((objOk_useFree s _ _ _).trans hok))

/-! ### The end of a flash write (R148) -/

/-- What a flash write ends with in the slot it was for (R148). -/
def State.putSlot (s : State) (b : Bool) (l : List Byte) : State := { s with flash :=
  if b then { s.flash with slotB := l, writing := none } else { s.flash with slotA := l, writing := none } }

theorem flashDone_idle {s : State} (good : Bool) (h : s.flash.writing = none) : flashDone good s = s := by
  unfold flashDone
  rw [h]

theorem flashDone_good {s : State} {b : Bool} {image : List Byte} {r : CmdRef} (h : s.flash.writing = some (b, image, r)) :
    flashDone true s = (s.putSlot b image).yard 4 1 (some r) [(20, 1, (Config.imageParts image).svn.toNat)] := by
  unfold flashDone
  rw [h]
  rfl

theorem flashDone_late {s : State} {b : Bool} {image : List Byte} {r : CmdRef} (h : s.flash.writing = some (b, image, r)) :
    flashDone false s =
      State.reply { s.putSlot b (Config.freeBytes s.freeCtr) with freeCtr := s.freeCtr + 1 } r stTimeout := by
  unfold flashDone
  rw [h]
  rfl

/-! ### Grants (R127, R129) -/

theorem expertGrant_held {s : State} {r : CmdRef} {e : Entry} (h : (s.grantOf (grantBlock e)).isSome = true) :
    cmdExpertGrant.act r e s = s.ok r [(20, 2, e.u 8 2)] := if_pos h

theorem expertGrant_waits {s : State} {r : CmdRef} {e : Entry} (h : s.grantOf (grantBlock e) = none) :
    cmdExpertGrant.act r e s = { s with
      grants := s.grants ++ [⟨grantBlock e, s.grantee e, some r, []⟩]
      jobs := s.jobs ++ [(r, 0x900, e.params.toList)] } :=
  if_neg (by rw [h]; exact Bool.false_ne_true)

theorem expertRelease_acts {s : State} {r : CmdRef} {e : Entry} {g : Grant} (h : s.grantOf (grantBlock e) = some g) :
    cmdExpertRelease.act r e s =
      if g.holder ≠ s.issuer r e then s.reply r stNotPermitted else ((s.endGrant g none).ok r).repower false := by
  unfold cmdExpertRelease
  dsimp only
  rw [h]

/-- A block that no request waits for (R127). -/
theorem grantNow_idle {s : State} {block : Half} (h : ∀ g ∈ s.grants, g.block = block → g.waiting = none) :
    grantNow block s = s := by
  have hnone : (s.grants.find? fun g => decide (g.block = block) && g.waiting.isSome) = none := by
    refine List.find?_eq_none.mpr fun g hg hwaits => ?_
    obtain ⟨hblock, hsome⟩ := Bool.and_eq_true_iff.mp hwaits
    rw [h g hg (of_decide_eq_true hblock)] at hsome
    exact Bool.false_ne_true hsome
  unfold grantNow
  rw [hnone]

/-- A request that waits alone for its block is granted, refused, or left to wait (R127). -/
theorem grantNow_alone {s : State} {block : Half} {h : Holder} {r : CmdRef} (hone : s.grants = [⟨block, h, some r, []⟩]) :
    grantNow block s =
      if s.blockBusy (blockCls block) (blockInst block) then s
      else if !s.mayHold h (blockCls block) (blockInst block) then State.reply { s with grants := [] } r stConflict 2
      else (State.ok { s with grants := [⟨block, h, none, (rwWords (blockCls block) (blockInst block)).map fun a => (a, s.peekAt a)⟩] }
        r [(20, 2, block.toNat)]).repower false := by
  have hfind : (s.grants.find? fun g => decide (g.block = block) && g.waiting.isSome) = some ⟨block, h, some r, []⟩ := by
    rw [hone, List.find?_cons_of_pos]
    simp
  have hfree : s.grantOf block = none := by
    unfold State.grantOf
    rw [hone, List.find?_cons_of_neg (by simp), List.find?_nil]
  have hdrop : (s.grants.filter fun x => decide (x ≠ (⟨block, h, some r, []⟩ : Grant))) = [] := by
    rw [hone, List.filter_cons_of_neg (by simp), List.filter_nil]
  unfold grantNow
  dsimp only
  rw [hfind]
  dsimp only
  rw [hfree, hdrop]
  rfl

/-- Settles O46: an accepted command acts (`dispatch_accepts`), and each of them as its own lemma says or by its definition. -/
theorem managementCommands : Obligations.ManagementCommands := by
  unfold Obligations.ManagementCommands
  refine ⟨?_, logFit_fits, fun s good => ⟨fun h => congrArg Host.Outcome.next (flashDone_idle good h), ?_⟩,
    fun s block => ⟨fun h => congrArg Host.Outcome.next (grantNow_idle h), ?_⟩⟩
  · intro e s s1 r
    have acts {c : Cmd} {t : State} (h : Accepts c e s s1) (ht : c.act r e s1 = t) :
        Host.Outcome.next (c.dispatch e s) = (.next t : Host.Outcome State Fault Refusal) :=
      congrArg Host.Outcome.next ((dispatch_accepts h).trans ht)
    refine ⟨fun h => acts h rfl, fun h => ⟨fun hok => acts h (writeOut_ok _ hok), fun hbad => acts h (writeOut_refused _ hbad),
        mapTable_length s1⟩, fun h => ⟨fun hok => acts h (writeOut_ok _ hok), fun hbad => acts h (writeOut_refused _ hbad),
        distTable_length s1⟩, fun h => acts h rfl, fun h => acts h rfl, fun h => acts h rfl,
      fun h => ⟨fun hheld => acts h (expertGrant_held hheld), fun hfree => acts h (expertGrant_waits hfree)⟩,
      fun h g hg => ⟨fun hown => acts h ((expertRelease_acts hg).trans (if_neg (not_not_intro hown))),
        fun hother => acts h ((expertRelease_acts hg).trans (if_pos hother))⟩,
      fun h => acts h rfl, fun h => acts h rfl, fun h => acts h rfl, fun h => acts h rfl,
      fun h hok => ⟨s1.useFree.freeVal.toNat, acts h (debugReadLog_writes hok)⟩⟩
  · intro b image r hwriting put
    refine ⟨?_, ?_⟩ <;> rintro rfl
    · exact congrArg Host.Outcome.next (flashDone_good hwriting)
    · exact congrArg Host.Outcome.next (flashDone_late hwriting)
  · intro h r hone cls inst
    have hexec : exec (.grantTakesEffect block) s = .next _ := congrArg Host.Outcome.next (grantNow_alone hone)
    refine ⟨fun hbusy => ?_, fun hfree hmay => ?_, fun hfree hmay => ?_⟩
    · rw [hexec, if_pos hbusy]
    · rw [hexec, if_neg (by rw [hfree]; decide), if_neg (by rw [hmay]; decide)]
    · rw [hexec, if_neg (by rw [hfree]; decide), if_pos (by rw [hmay]; decide)]

end Sys2Proof.Machine
end

section
/-! SUPPORT. What a command that passed its checks is known to meet (05 R123), and how it goes on. -/
namespace Sys2Proof.Machine
open Sys2Proof Sys2Proof.Safety

/-- A command that no check refuses has met each of them (R123). -/
structure Passed (c : Cmd) (scope : Nat) (e : Entry) (s : State) : Prop where
  header : c.headerBad scope e = []
  bad    : c.bad e s = []
  object : c.object e s = none
  deny   : c.deny e s = false
  state  : c.state e s = none
  res    : c.res e s = none

theorem passed_of_check {c : Cmd} {scope : Nat} {e : Entry} {s : State} (h : c.check scope false e s = none) :
    Passed c scope e s := by
  unfold Cmd.check at h
  split at h
  · exact absurd h (Option.some_ne_none _)
  · next hgood =>
    obtain ⟨hheader, hbad⟩ := List.append_eq_nil_iff.mp (List.min?_eq_none_iff.mp hgood)
    split at h
    · exact absurd h (Option.some_ne_none _)
    · next hobject =>
      split at h
      · exact absurd h (Option.some_ne_none _)
      · next hallowed =>
        obtain ⟨-, hdeny⟩ := Bool.or_eq_false_iff.mp (Bool.eq_false_of_not_eq_true hallowed)
        split at h
        · exact absurd h (Option.some_ne_none _)
        · next hstate =>
          split at h
          · exact absurd h (Option.some_ne_none _)
          · exact ⟨hheader, hbad, hobject, hdeny, hstate, h⟩

theorem accepts_passed {c : Cmd} {e : Entry} {s s1 : State} (h : Accepts c e s s1) :
    Passed c (s1.sqs[e.sq]).scope e s1 := passed_of_check h.passes

/-- An accepted command goes on to what its effect makes of the state with its entry taken. -/
theorem next_dispatch {c : Cmd} {e : Entry} {s s1 t : State} (h : Accepts c e s s1) (ht : c.act (refOf e s1) e s1 = t) :
    (.next (c.dispatch e s) : Host.Outcome State Fault Refusal) = .next t :=
  congrArg Host.Outcome.next ((dispatch_accepts h).trans ht)

end Sys2Proof.Machine
end

section
/-! SUPPORT. The tally's commands (18 R470 to R480) and the inner chain (17 R460, R461; 18 R476). -/
namespace Sys2Proof.Machine
open Sys2Proof Sys2Proof.Safety

/-! ### Attestation (R476, R477) -/

/-- With a die left to ask, the next one is asked. -/
theorem attestStep_asks {s : State} {t : Attest} {rest : List Attest} (k : Nat) (hrun : s.tally.attests = t :: rest)
    (hleft : t.records.length < t.dies) : s.attestStep (k + 1) = { s with
      inner := { s.inner with busy := some (.prove (BitVec.ofNat 8 (t.records.length + 1))) }
      out := s.out ++ [.inner 0x03 (BitVec.ofNat 8 (t.records.length + 1)) 0 t.nonce] } := by
  unfold State.attestStep
  rw [hrun]
  exact if_pos hleft

/-- With every die asked, it waits for a yardage update that runs. -/
theorem attestStep_waits {s : State} {t : Attest} {rest : List Attest} (k : Nat) (hrun : s.tally.attests = t :: rest)
    (hdone : t.dies ≤ t.records.length) (hyard : s.tally.run.isSome = true) : s.attestStep (k + 1) = s := by
  unfold State.attestStep
  rw [hrun]
  exact (if_neg (Nat.not_lt.mpr hdone)).trans (if_pos hyard)

/-- With every die asked and no update running, the last attestation writes its report. -/
theorem attestStep_reports {s q : State} {t : Attest} (hrun : s.tally.attests = [t]) (hdone : t.dies ≤ t.records.length)
    (hyard : s.tally.run = none) (hq : (s.modTally fun x => { x with attests := [] }) = q) :
    let all : Attest := { t with yards := some ((allFin 16).map s.tally.value) }
    s.attestStep 1 = q.writeOut t.cmd t.dst (q.report all) [(20, 2, (q.report all).length)] := by
  subst hq
  unfold State.attestStep
  rw [hrun]
  refine (if_neg (Nat.not_lt.mpr hdone)).trans (if_neg ?_)
  rw [hyard]
  exact Bool.false_ne_true

section Answer
variable {s : State} {t : Attest} (h : s.tally.attests = [t]) (c : Inner) (st : Byte) (d : List Byte)

/-- A die's answer taken down, and nothing awaited. -/
def State.recorded (s : State) (c : Inner) (t : Attest) (st : Byte) (d : List Byte) : State :=
  { s with
    inner := { c with busy := none }
    tally := { s.tally with attests := [{ t with records := t.records ++ [(st, padTo 109 d)] }] } }

include h

theorem attestGot_alone : State.attestGot { s with inner := c } st d = (s.recorded c t st d).attestStep 1 := by
  have hone : (State.modInner { s with inner := c } fun c => { c with busy := none }).tally.attests = [t] := h
  unfold State.attestGot
  dsimp only
  rw [hone]
  rfl

theorem attestGot_asks (hleft : t.records.length + 1 < t.dies) : State.attestGot { s with inner := c } st d = { s with
    inner := { c with busy := some (.prove (BitVec.ofNat 8 (t.records.length + 2))) }
    tally := { s.tally with attests := [{ t with records := t.records ++ [(st, padTo 109 d)] }] }
    out := s.out ++ [.inner 0x03 (BitVec.ofNat 8 (t.records.length + 2)) 0 t.nonce] } := by
  have hlen : (t.records ++ [(st, padTo 109 d)]).length = t.records.length + 1 := List.length_append
  rw [attestGot_alone h, attestStep_asks 0 rfl (by rw [hlen]; exact hleft), hlen]
  rfl

/-- With the last die's answer taken down, the report waits for a running yardage update, and is written without one. -/
theorem attestGot_ends (hlast : t.records.length + 1 = t.dies) :
    let got : Attest := { t with records := t.records ++ [(st, padTo 109 d)] }
    (s.tally.run.isSome = true → State.attestGot { s with inner := c } st d = s.recorded c t st d) ∧
    (s.tally.run = none →
      let q : State := { s with inner := { c with busy := none }, tally := { s.tally with attests := [] } }
      let all : Attest := { got with yards := some ((allFin 16).map s.tally.value) }
      State.attestGot { s with inner := c } st d = q.writeOut t.cmd t.dst (q.report all) [(20, 2, (q.report all).length)]) := by
  intro got
  have hdone : got.dies ≤ got.records.length := by
    rw [List.length_append]
    exact hlast.ge
  refine ⟨fun hyard => ?_, fun hyard => ?_⟩ <;> rw [attestGot_alone h]
  · exact attestStep_waits 0 rfl hdone hyard
  · exact attestStep_reports (s := s.recorded c t st d) (t := got) rfl hdone hyard rfl

end Answer

/-! ### The inner chain's frames (R461) -/

theorem innerMissing_idle {s : State} (h : s.inner.busy = none) : s.innerMissing = s := by
  unfold State.innerMissing
  rw [h]

theorem innerMissing_ident {s : State} {a : Byte} (h : s.inner.busy = some (.ident a)) :
    s.innerMissing = s.modInner fun c => { c with events := setBit c.events 1, busy := none } := by
  unfold State.innerMissing
  rw [h]

theorem innerMissing_prove {s : State} {a : Byte} (h : s.inner.busy = some (.prove a)) :
    s.innerMissing = (s.modInner fun c => { c with events := setBit c.events 1, busy := none }).attestGot 1 [] := by
  unfold State.innerMissing
  rw [h]

/-- Addressed to this die, brought back to the primary, or to be passed on. -/
theorem frame_cases {s : State} {dest src : Byte} (a b : State) :
    let o := if s.innerMine dest then a else if s.fuses.primary = true ∧ src = 0 then s.innerMissing else b
    (s.innerMine dest = true → o = a) ∧
    (s.innerMine dest = false → s.fuses.primary = true → src = 0 → o = s.innerMissing) ∧
    (s.innerMine dest = false → ¬(s.fuses.primary = true ∧ src = 0) → o = b) := by
  refine ⟨fun h => if_pos h, fun h hp hs => ?_, fun h hother => ?_⟩
  · exact (if_neg (by rw [h]; exact Bool.false_ne_true)).trans (if_pos ⟨hp, hs⟩)
  · exact (if_neg (by rw [h]; exact Bool.false_ne_true)).trans (if_neg hother)

/-- A reply another die passes on. -/
theorem innerReply_secondary {s : State} (src ty : Byte) (d : List Byte) (h : s.fuses.primary = false) :
    innerReply src ty d s = s.emit (.inner ty 0 src d) := if_pos (by rw [h]; rfl)

/-- A frame discarded for a timing error is noted; at the primary it ends what is awaited (R461, R476). -/
def State.noteTimingError (s : State) : State :=
  s.modInner fun c => { c with events := setBit c.events 0, errors := satAdd c.errors 1 }

theorem innerTiming_idle {s : State} (h : s.inner.busy = none) : innerTiming s = s.noteTimingError := by
  unfold innerTiming
  simp only [modInner_inner, h]
  rfl

theorem innerTiming_ident {s : State} {a : Byte} (h : s.inner.busy = some (.ident a)) :
    innerTiming s = s.noteTimingError.modInner fun c => { c with busy := none } := by
  unfold innerTiming
  simp only [modInner_inner, h]
  rfl

theorem innerTiming_prove {s : State} {a : Byte} (h : s.inner.busy = some (.prove a)) :
    innerTiming s = if s.fuses.primary then s.noteTimingError.attestGot 2 [] else s.noteTimingError := by
  unfold innerTiming
  simp only [modInner_inner, h]
  rfl

/-! ### Yardage (R480) -/

/-- A command's increment alone in the queue begins at once. -/
theorem yardStart_begins {s : State} {u : YdUpdate} (hrun : s.tally.run = none) (hwait : s.tally.waiting = [u])
    (hcmd : u.cmd.isSome = true) (hval : s.tally.value u.counter ≠ BitVec.allOnes 32) (hc : u.counter.val ≠ 7) :
    s.yardStart 1 = s.modTally fun t => { t with
      waiting := [], run := some ⟨u, satAdd (s.tally.value u.counter) u.amount.toNat, .writing false⟩ } := by
  have hopen : ¬(s.tally.value u.counter = BitVec.allOnes 32 ∨ u.counter.val = 7) := fun h => h.elim hval hc
  have hasked : ¬(u.amount = 0 ∧ u.cmd = none) := fun h => by rw [h.2] at hcmd; exact Bool.false_ne_true hcmd
  rw [State.yardStart, hrun, hwait]
  dsimp only
  rw [if_neg hopen, if_neg hasked]
  rfl

theorem yard_begins {s : State} {k n : Nat} {r : CmdRef} (hrun : s.tally.run = none) (hwait : s.tally.waiting = [])
    (hval : s.tally.value (Fin.ofNat 16 k) ≠ BitVec.allOnes 32) (hk : (Fin.ofNat 16 k).val ≠ 7) :
    s.yard k n (some r) [] true = s.modTally fun t => { t with
      waiting := []
      run := some ⟨⟨Fin.ofNat 16 k, BitVec.ofNat 32 n, some r, [], true⟩,
        satAdd (s.tally.value (Fin.ofNat 16 k)) (BitVec.ofNat 32 n).toNat, .writing false⟩ } := by
  unfold State.yard
  dsimp only
  rw [modTally_tally, hwait]
  exact yardStart_begins (u := ⟨Fin.ofNat 16 k, BitVec.ofNat 32 n, some r, [], true⟩) hrun (congrArg (· ++ _) hwait) rfl hval hk

theorem yard_waits {s : State} {k n : Nat} {r : CmdRef} {x : YdRun} (hrun : s.tally.run = some x) :
    s.yard k n (some r) [] true = s.modTally fun t => { t with
      waiting := t.waiting ++ [⟨Fin.ofNat 16 k, BitVec.ofNat 32 n, some r, [], true⟩] } := by
  unfold State.yard
  dsimp only
  rw [modTally_tally, List.length_append, List.length_singleton, State.yardStart]
  simp only [modTally_tally, hrun]

/-! ### The commands (R168, R169) -/

/-- The attestation an entry asks for (R476). -/
def attestOf (r : CmdRef) (e : Entry) (s : State) : Attest :=
  ⟨r, slice e.params.toList 0 32, e.u 40 8, s.inner.returned.toNat - 1, [], none⟩

/-- An attestation taken up, the list of those asked for as given (R476). -/
def State.attesting (s : State) (r : CmdRef) (e : Entry) (l : List Attest) : State := { s with
  jobs := s.jobs ++ [(r, 0x700, e.params.toList)]
  tally := { s.tally with attests := l } }

theorem attest_first {r : CmdRef} {e : Entry} {s : State} (h : s.tally.attests = []) :
    cmdAttest.act r e s = (s.attesting r e [attestOf r e s]).attestStep 1 := by
  have hlist : s.tally.attests ++ [attestOf r e s] = [attestOf r e s] := congrArg (· ++ _) h
  rw [← hlist]
  exact if_pos (by rw [h]; rfl)

theorem attest_queues {r : CmdRef} {e : Entry} {s : State} (h : s.tally.attests ≠ []) :
    cmdAttest.act r e s = s.attesting r e (s.tally.attests ++ [attestOf r e s]) :=
  if_neg (by rw [List.isEmpty_iff]; exact h)

/-- With no die to ask, a first attestation has asked all. -/
theorem attestOf_dies {r : CmdRef} {e : Entry} {s : State} (h : s.inner.returned.toNat ≤ 1) : (attestOf r e s).dies = 0 := by
  unfold attestOf
  dsimp only
  omega

/-- The owner records with the one that an adoption block brings (R472, R473). -/
def State.withOwner (s : State) (b : List Byte) : State := s.modTally fun t => { t with
  owners := (s.tally.owners.filter fun x => decide (s.tally.value 5 ≤ x.adoption ∧ x.adoption ≤ s.adoptions)) ++
    [⟨slice b 20 64, BitVec.ofNat 128 (beNat (slice b 84 16)), s.adoptions + 1⟩] }

theorem State.withOwner_owner (s : State) (b : List Byte) :
    ∃ o ∈ (s.withOwner b).tally.owners, o.key = slice b 20 64 ∧ o.adoption = s.adoptions + 1 :=
  ⟨⟨slice b 20 64, BitVec.ofNat 128 (beNat (slice b 84 16)), s.adoptions + 1⟩,
    List.mem_append_right _ (List.mem_singleton_self _), rfl, rfl⟩

/-- With no die to ask and no yardage update running, the report is written at once. -/
theorem attest_reports {r : CmdRef} {e : Entry} {s : State} (hnone : s.tally.attests = []) (hdies : s.inner.returned.toNat ≤ 1)
    (hrun : s.tally.run = none) :
    let t : Attest := ⟨r, slice e.params.toList 0 32, e.u 40 8, 0, [], some ((allFin 16).map s.tally.value)⟩
    let q : State := { s with jobs := s.jobs ++ [(r, 0x700, e.params.toList)] }
    cmdAttest.act r e s = q.writeOut r (e.u 40 8) (q.report t) [(20, 2, (q.report t).length)] := by
  intro t q
  have hq : ((s.attesting r e [attestOf r e s]).modTally fun x => { x with attests := [] }) = q := by
    unfold State.attesting State.modTally
    rw [← hnone]
  have ht : ({ attestOf r e s with yards := some ((allFin 16).map s.tally.value) } : Attest) = t := by
    unfold attestOf
    rw [Nat.sub_eq_zero_of_le hdies]
  have h := attestStep_reports (s := s.attesting r e [attestOf r e s]) rfl (attestOf_dies hdies).le hrun hq
  rw [attest_first hnone]
  exact h.trans (by rw [← ht]; rfl)

/-- With no die to ask, the report waits for a yardage update that runs. -/
theorem attest_waits {r : CmdRef} {e : Entry} {s : State} (hnone : s.tally.attests = []) (hdies : s.inner.returned.toNat ≤ 1)
    (hrun : s.tally.run.isSome = true) :
    cmdAttest.act r e s = s.attesting r e [⟨r, slice e.params.toList 0 32, e.u 40 8, 0, [], none⟩] := by
  have ht : attestOf r e s = ⟨r, slice e.params.toList 0 32, e.u 40 8, 0, [], none⟩ := by
    unfold attestOf
    rw [Nat.sub_eq_zero_of_le hdies]
  rw [attest_first hnone, attestStep_waits (s := s.attesting r e [attestOf r e s]) 0 rfl (attestOf_dies hdies).le hrun, ht]

/-- With a die to ask, the first one is asked. -/
theorem attest_asks {r : CmdRef} {e : Entry} {s : State} (hnone : s.tally.attests = []) (hdies : 2 ≤ s.inner.returned.toNat) :
    cmdAttest.act r e s = { s.attesting r e [attestOf r e s] with
      inner := { s.inner with busy := some (.prove 1) }
      out := s.out ++ [.inner 0x03 1 0 (slice e.params.toList 0 32)] } := by
  have hleft : (attestOf r e s).records.length < (attestOf r e s).dies := Nat.sub_pos_of_lt hdies
  rw [attest_first hnone, attestStep_asks 0 rfl hleft]
  rfl

/-- ADOPT records the owner of an accepted block, and asks YD_ADOPTIONS to rise; another block is tampering (R472, R473). -/
theorem adopt_acts (r : CmdRef) (e : Entry) (s : State) : cmdAdopt.act r e s =
    let b := s.objRead e.sq (e.u 8 8) 228
    if !s.adoptOk b then s.tamper r else ((s.withOwner b).inFlight r 0x702 e).yard 5 1 (some r) [] true := by
  unfold cmdAdopt State.withOwner
  dsimp only

theorem adopt_refused {r : CmdRef} {e : Entry} {s : State} (h : s.adoptOk (s.objRead e.sq (e.u 8 8) 228) = false) :
    cmdAdopt.act r e s = s.tamper r := by
  rw [adopt_acts]
  exact if_pos (by rw [h]; rfl)

theorem adopt_accepted {r : CmdRef} {e : Entry} {s : State} (h : s.adoptOk (s.objRead e.sq (e.u 8 8) 228) = true) :
    cmdAdopt.act r e s = ((s.withOwner (s.objRead e.sq (e.u 8 8) 228)).inFlight r 0x702 e).yard 5 1 (some r) [] true := by
  rw [adopt_acts]
  exact if_neg (by rw [h]; exact Bool.false_ne_true)

theorem adoptions_idle {s : State} (hrun : s.tally.run = none) (hwait : s.tally.waiting = []) :
    s.adoptions = s.tally.value 5 := by
  unfold State.adoptions
  rw [hrun, hwait]
  exact BitVec.add_zero _

theorem loadTagMaster_acts {r : CmdRef} {e : Entry} {s : State} {o : Owner} (h : s.tally.owner = some o) :
    cmdLoadTagMaster.act r e s = let b := s.objRead e.sq (e.u 8 8) 52
      if !s.wrapOk o b then s.tamper r
      else
        let k := Config.aesDecrypt (kdf128 o.wrapRoot "XNWRAPE" s.serialBytes) (BitVec.ofNat 128 (beNat (slice b 20 16)))
        (s.modTally fun t => { t with tagMaster := some (k, t.value 5) }).ok r := by
  unfold cmdLoadTagMaster
  dsimp only
  rw [h]

theorem raiseSvn_acts {r : CmdRef} {e : Entry} {s : State} {o : Owner} (h : s.tally.owner = some o) :
    cmdRaiseSvn.act r e s = let b := s.objRead e.sq (e.u 16 8) 80
      if leAt b 8 8 = s.fuses.serial.toNat ∧ sigOk o.key (slice b 0 16) (slice b 16 64) = true then
        (s.modTally fun t => { t with svnMin := BitVec.ofNat 8 (e.u 8 1) }).ok r [(20, 1, e.u 8 1)]
      else s.tamper r := by
  unfold cmdRaiseSvn
  dsimp only
  rw [h]

/-- An accepted RAISE_SVN raises (R475). -/
theorem raiseSvn_raises {scope : Nat} {e : Entry} {s : State} (h : Passed cmdRaiseSvn scope e s) : s.tally.svnMin.toNat < e.u 8 1 := by
  have hstate := h.state
  unfold cmdRaiseSvn at hstate
  dsimp only at hstate
  split at hstate
  · next hok => exact hok.2.1
  · exact absurd hstate (Option.some_ne_none _)

/-- An accepted ADD_YARDAGE names a customer counter that is not saturated (R168). -/
theorem addYardage_open {scope : Nat} {e : Entry} {s : State} (h : Passed cmdAddYardage scope e s) :
    s.tally.value (Fin.ofNat 16 (e.u 8 1)) ≠ BitVec.allOnes 32 ∧ (Fin.ofNat 16 (e.u 8 1)).val ≠ 7 := by
  have hstate := h.state
  have hbad := (List.append_eq_nil_iff.mp h.bad).1
  unfold cmdAddYardage at hstate
  dsimp only at hstate
  refine ⟨fun hfull => ?_, ?_⟩
  · rw [if_pos hfull] at hstate
    exact Option.some_ne_none _ hstate
  · split at hbad
    · next hrange =>
      rw [Fin.val_ofNat]
      omega
    · exact absurd hbad (List.cons_ne_nil _ _)

theorem leNat_lt (l : List Byte) : leNat l < 256 ^ l.length := by
  induction l with
  | nil => exact Nat.one_pos
  | cons b l ih =>
    have hb : b.toNat < 256 := b.isLt
    rw [leNat, List.length_cons, Nat.pow_succ]
    omega

theorem slice_length (l : List Byte) (off n : Nat) : (slice l off n).length = n := by
  unfold slice
  dsimp only
  rw [List.length_append, List.length_replicate, List.length_take]
  omega

theorem leAt_lt (l : List Byte) (off n : Nat) : leAt l off n < 256 ^ n := by
  unfold leAt
  exact (leNat_lt _).trans_eq (congrArg _ (slice_length l off n))

theorem entry_u_toNat (e : Entry) (off : Nat) : (BitVec.ofNat 32 (e.u off 4)).toNat = e.u off 4 := by
  rw [BitVec.toNat_ofNat]
  exact Nat.mod_eq_of_lt (leAt_lt _ _ 4)

theorem satAdd_one {w : Word} (h : w ≠ BitVec.allOnes 32) : satAdd w 1 = w + 1 := by
  have hlt : w.toNat + 1 < 2 ^ 32 := by
    have hne : w.toNat ≠ 2 ^ 32 - 1 := fun hw => h (BitVec.eq_of_toNat_eq hw)
    have := w.isLt
    omega
  refine (if_pos hlt).trans (BitVec.eq_of_toNat_eq ?_)
  rw [BitVec.toNat_ofNat, BitVec.toNat_add]
  rfl

/-- ADOPT of an accepted block with no update running or waiting: the owner is recorded, and YD_ADOPTIONS is being written. -/
theorem adopt_begins {r : CmdRef} {e : Entry} {s : State} (h : s.adoptOk (s.objRead e.sq (e.u 8 8) 228) = true)
    (hrun : s.tally.run = none) (hwait : s.tally.waiting = []) (hval : s.tally.value 5 ≠ BitVec.allOnes 32) :
    let t := cmdAdopt.act r e s
    t.mem = s.mem ∧
      (∃ o ∈ t.tally.owners, o.key = slice (s.objRead e.sq (e.u 8 8) 228) 20 64 ∧ o.adoption = s.tally.value 5 + 1) ∧
      t.tally.run = some ⟨⟨5, 1, some r, [], true⟩, s.tally.value 5 + 1, .writing false⟩ ∧ t.tally.slots = s.tally.slots := by
  have howner := s.withOwner_owner (s.objRead e.sq (e.u 8 8) 228)
  rw [adoptions_idle hrun hwait] at howner
  rw [adopt_accepted h, yard_begins (s := (s.withOwner (s.objRead e.sq (e.u 8 8) 228)).inFlight r 0x702 e) hrun hwait hval (by decide)]
  refine ⟨rfl, howner, ?_, rfl⟩
  rw [← satAdd_one hval]
  rfl

/-- ADOPT of an accepted block while an update runs: the owner is recorded, and the increment waits. -/
theorem adopt_waits {r : CmdRef} {e : Entry} {s : State} {x : YdRun} (h : s.adoptOk (s.objRead e.sq (e.u 8 8) 228) = true)
    (hrun : s.tally.run = some x) :
    let t := cmdAdopt.act r e s
    t.mem = s.mem ∧
      (∃ o ∈ t.tally.owners, o.key = slice (s.objRead e.sq (e.u 8 8) 228) 20 64 ∧ o.adoption = s.adoptions + 1) ∧
      t.tally.run = some x ∧ t.tally.waiting = s.tally.waiting ++ [⟨5, 1, some r, [], true⟩] := by
  rw [adopt_accepted h, yard_waits (s := (s.withOwner (s.objRead e.sq (e.u 8 8) 228)).inFlight r 0x702 e) hrun]
  exact ⟨rfl, s.withOwner_owner _, hrun, rfl⟩


/-- An accepted ADD_YARDAGE with no update running or waiting begins at once. -/
theorem addYardage_begins {scope : Nat} {r : CmdRef} {e : Entry} {s : State} (h : Passed cmdAddYardage scope e s)
    (hrun : s.tally.run = none) (hwait : s.tally.waiting = []) :
    cmdAddYardage.act r e s = { s with
      jobs := s.jobs ++ [(r, 0x705, e.params.toList)]
      tally := { s.tally with run := some ⟨⟨Fin.ofNat 16 (e.u 8 1), BitVec.ofNat 32 (e.u 12 4), some r, [], true⟩,
        satAdd (s.tally.value (Fin.ofNat 16 (e.u 8 1))) (e.u 12 4), .writing false⟩ } } := by
  obtain ⟨hval, hc⟩ := addYardage_open h
  have hyard := yard_begins (s := s.inFlight r 0x705 e) (n := e.u 12 4) (r := r) hrun hwait hval hc
  rw [entry_u_toNat] at hyard
  refine hyard.trans ?_
  unfold State.modTally
  rw [← hwait]
  rfl

/-! ### Replies at the primary (R461, R476) -/

section Primary
variable {s : State} {src : Byte} (ty : Byte) (d : List Byte) (hprimary : s.fuses.primary = true) (hsrc : src ≠ 0)
include hprimary

theorem innerReply_own : innerReply 0 ty d s = s.innerMissing := by
  unfold innerReply
  rw [hprimary, if_neg (by decide), if_pos rfl]

include hsrc

theorem innerReply_idle (h : s.inner.busy = none) : innerReply src ty d s = s := by
  unfold innerReply
  rw [hprimary, if_neg (by decide), if_neg hsrc, h]

theorem innerReply_prove {a : Byte} (h : s.inner.busy = some (.prove a)) : innerReply src ty d s =
    if a ≠ src then s
    else if ty = 0x83 then s.attestGot 0 d
    else if ty = 0xFF then (s.modInner fun c => { c with events := setBit c.events 2 }).attestGot 3 []
    else s := by
  unfold innerReply
  rw [hprimary, if_neg (by decide), if_neg hsrc, h]

theorem innerReply_ident {a : Byte} (h : s.inner.busy = some (.ident a)) : innerReply src ty d s =
    if a ≠ src then s
    else if ty = 0x82 then s.modInner fun c => { c with busy := none }
    else if ty = 0xFF then s.modInner fun c => { c with events := setBit c.events 2, busy := none }
    else s := by
  unfold innerReply
  rw [hprimary, if_neg (by decide), if_neg hsrc, h]

/-- A reply of another die than the one asked. -/
theorem innerReply_other {a : Byte} (h : s.inner.busy = some (.ident a) ∨ s.inner.busy = some (.prove a)) (hother : src ≠ a) :
    innerReply src ty d s = s := by
  rcases h with h | h
  · rw [innerReply_ident ty d hprimary hsrc h, if_pos hother.symm]
  · rw [innerReply_prove ty d hprimary hsrc h, if_pos hother.symm]

/-- A reply of the die asked that is neither what it was asked for nor a NAK. -/
theorem innerReply_stray (hnak : ty ≠ 0xFF)
    (h : (s.inner.busy = some (.ident src) ∧ ty ≠ 0x82) ∨ (s.inner.busy = some (.prove src) ∧ ty ≠ 0x83)) :
    innerReply src ty d s = s := by
  rcases h with ⟨h, hty⟩ | ⟨h, hty⟩
  · rw [innerReply_ident ty d hprimary hsrc h, if_neg (not_not_intro rfl), if_neg hty, if_neg hnak]
  · rw [innerReply_prove ty d hprimary hsrc h, if_neg (not_not_intro rfl), if_neg hty, if_neg hnak]

theorem innerReply_proof (h : s.inner.busy = some (.prove src)) : innerReply src 0x83 d s = s.attestGot 0 d := by
  rw [innerReply_prove 0x83 d hprimary hsrc h]
  exact (if_neg (not_not_intro rfl)).trans (if_pos rfl)

theorem innerReply_nak (h : s.inner.busy = some (.prove src)) :
    innerReply src 0xFF d s = (s.modInner fun c => { c with events := setBit c.events 2 }).attestGot 3 [] := by
  rw [innerReply_prove 0xFF d hprimary hsrc h]
  exact (if_neg (not_not_intro rfl)).trans ((if_neg (by decide)).trans (if_pos rfl))

end Primary

/-- Settles O54: the commands by their own lemmas, the frames by `frame_cases`, and what a missing reply, a reply and a timing error
come to by `attestGot_asks` and `attestGot_ends`. -/
theorem tallyAndInnerChain : Obligations.TallyAndInnerChain := by
  unfold Obligations.TallyAndInnerChain
  refine ⟨fun e s s1 => ?_, fun s dest src ty nonce => ?_, fun _ => ⟨rfl, rfl⟩, fun s src ty d => ?_⟩
  · intro r tampered
    refine ⟨fun h hnone hdies hrun => next_dispatch h (attest_reports hnone hdies hrun),
      fun h hnone hdies hrun => next_dispatch h (attest_waits hnone hdies hrun),
      fun h hmore => next_dispatch h (attest_queues hmore),
      fun h hnone hdies => next_dispatch h (attest_asks hnone hdies),
      fun h => next_dispatch h rfl, fun h => ⟨fun hbad => next_dispatch h (adopt_refused hbad), fun hok hrun hwait hval => ?_,
        fun x hok hrun => ?_⟩, fun h o ho => ⟨fun hbad => ?_, fun hok => ?_⟩, fun h o ho => ⟨raiseSvn_raises (accepts_passed h),
        fun hgood => ?_, fun hbad => ?_⟩, fun h => next_dispatch h rfl,
      fun h hrun hwait => next_dispatch h (addYardage_begins (accepts_passed h) hrun hwait),
      fun x h hrun => next_dispatch h (yard_waits hrun)⟩
    · exact ⟨_, next_dispatch h rfl, adopt_begins hok hrun hwait hval⟩
    · exact ⟨_, next_dispatch h rfl, adopt_waits hok hrun⟩
    · exact next_dispatch h ((loadTagMaster_acts ho).trans (if_pos (by rw [hbad]; rfl)))
    · exact ⟨_, next_dispatch h ((loadTagMaster_acts ho).trans (if_neg (by rw [hok]; exact Bool.false_ne_true)))⟩
    · exact next_dispatch h ((raiseSvn_acts ho).trans (if_pos hgood))
    · exact next_dispatch h ((raiseSvn_acts ho).trans (if_neg hbad))
  · intro mine
    obtain ⟨hident, hident_own, hident_pass⟩ := frame_cases (s := s) (dest := dest) (src := src)
      (s.emit (.inner 0x82 0 s.inner.addr s.identPayload)) (s.emit (.inner 0x02 dest src []))
    obtain ⟨hprove, hprove_own, hprove_pass⟩ := frame_cases (s := s) (dest := dest) (src := src)
      (s.emit (.inner 0x83 0 s.inner.addr (s.dieProof nonce.toList s.inner.addr))) (s.emit (.inner 0x03 dest src nonce.toList))
    obtain ⟨hother, hother_own, hother_pass⟩ := frame_cases (s := s) (dest := dest) (src := src)
      (s.emit (.inner 0xFF 0 s.inner.addr [])) (s.emit (.inner ty dest src []))
    refine ⟨fun hm => ⟨?_, ?_, ?_⟩, fun hm hp hs => ⟨?_, ?_, ?_⟩, fun hm hsrc => ⟨?_, ?_, ?_⟩⟩
    · exact congrArg Host.Outcome.next (hident hm)
    · exact congrArg Host.Outcome.next (hprove hm)
    · exact congrArg Host.Outcome.next (hother hm)
    · exact congrArg Host.Outcome.next (hident_own hm hp hs)
    · exact congrArg Host.Outcome.next (hprove_own hm hp hs)
    · exact congrArg Host.Outcome.next (hother_own hm hp hs)
    · exact congrArg Host.Outcome.next (hident_pass hm hsrc)
    · exact congrArg Host.Outcome.next (hprove_pass hm hsrc)
    · exact congrArg Host.Outcome.next (hother_pass hm hsrc)
  · intro idle
    have next {u t : State} (h : u = t) : (.next u : Host.Outcome State Fault Refusal) = .next t := congrArg _ h
    refine ⟨fun hsecond => next (innerReply_secondary src ty d hsecond), fun hp hsrc => ?_, rfl,
      fun a hbusy hp hsrc hother => next (innerReply_other ty d hp hsrc hbusy hother),
      fun a hbusy hp hsrc h0 hnak => ?_, fun a hbusy hsecond => next ((innerTiming_prove hbusy).trans ?_),
      fun hbusy => ⟨next (innerMissing_idle hbusy), fun hp => ?_, next (innerTiming_idle hbusy)⟩,
      fun a hbusy => ⟨next (innerMissing_ident hbusy), fun hp hsrc h0 => ⟨fun hty => ?_, fun hty => ?_⟩, next (innerTiming_ident hbusy)⟩,
      fun a t hbusy hp hone hleft => ?_, fun a t hbusy hp hone hlast => ?_⟩
    · subst hsrc
      exact next (innerReply_own ty d hp)
    · subst hsrc
      exact next (innerReply_stray ty d hp h0 hnak hbusy)
    · exact if_neg (by rw [hsecond]; exact Bool.false_ne_true)
    · by_cases h0 : src = 0
      · subst h0
        exact next ((innerReply_own ty d hp).trans (innerMissing_idle hbusy))
      · exact next (innerReply_idle ty d hp h0 hbusy)
    · subst hsrc hty
      exact next ((innerReply_ident 0x82 d hp h0 hbusy).trans ((if_neg (not_not_intro rfl)).trans (if_pos rfl)))
    · subst hsrc hty
      exact next ((innerReply_ident 0xFF d hp h0 hbusy).trans ((if_neg (not_not_intro rfl)).trans
        ((if_neg (by decide)).trans (if_pos rfl))))
    · intro asked
      have hasks (c : Inner) (st : Byte) (d : List Byte) : State.attestGot { s with inner := c } st d = asked c st d :=
        attestGot_asks hone c st d hleft
      refine ⟨next ((innerMissing_prove hbusy).trans (hasks _ 1 [])), fun hsrc h0 => ⟨?_, ?_⟩,
        next ((innerTiming_prove hbusy).trans ((if_pos hp).trans (hasks _ 2 [])))⟩ <;> subst hsrc <;> rintro rfl
      · exact next ((innerReply_proof d hp h0 hbusy).trans (hasks _ 0 d))
      · exact next ((innerReply_nak d hp h0 hbusy).trans (hasks _ 3 []))
    · intro got ends
      have hends (c : Inner) (st : Byte) (d : List Byte) {u : State} (hu : u = State.attestGot { s with inner := c } st d) :
          ends c st d (.next u) := by
        obtain ⟨hwaits, hreports⟩ := attestGot_ends hone c st d hlast
        exact ⟨fun hyard => next (hu.trans (hwaits hyard)), fun hyard => next (hu.trans (hreports hyard))⟩
      refine ⟨hends { s.inner with events := setBit s.inner.events 1, busy := none } 1 [] (innerMissing_prove hbusy), ?_, ?_,
        hends _ 2 [] ((innerTiming_prove hbusy).trans (if_pos hp))⟩ <;> rintro rfl h0 rfl
      · exact hends s.inner 0 d (innerReply_proof d hp h0 hbusy)
      · exact hends _ 3 [] (innerReply_nak d hp h0 hbusy)

end Sys2Proof.Machine
end

section
/-! SUPPORT. The pieces of MEM_FILL and MEM_COPY on this die (06 R158): where each is served does not hang on the bytes memory holds,
and what is written reads back. -/
namespace Sys2Proof.Machine
open Sys2Proof Sys2Proof.Safety

/-- s with other bytes in its memory. -/
def State.withMem (s : State) (m : List (Nat × Byte)) : State := { s with mem := m }

/-! ### Checks that read no byte (R370, R382) -/

/-- Without a draft, the check point's answer leaves the state and hangs on no byte of memory. -/
theorem spoolCheck_withMem (s : State) (i : Fin 8) (a len : Nat) (n : Need) :
    ∃ o, ∀ m, (s.withMem m).spoolCheck i 0 a len n = (s.withMem m, o) := by
  have hdraft : ¬(n ≠ .read ∧ wrId 0 ≠ 0) := fun h => h.2 rfl
  have hwindow (m : List (Nat × Byte)) : (s.withMem m).windowCheck i a len n = s.windowCheck i a len n := rfl
  refine ⟨(s.spoolCheck i 0 a len n).2, fun m => ?_⟩
  unfold State.spoolCheck
  rw [if_neg hdraft, if_neg hdraft, hwindow]
  cases s.windowCheck i a len n <;> rfl

/-- One step of a range's check: the next row is looked at while all before it passed (R370, R382). -/
def rangeStep (i : Fin 8) (draft : Word) (a : Nat) (need : Need) (r : State × Chk × List (Nat × Nat × Nat)) (c : Nat × Nat) :
    State × Chk × List (Nat × Nat × Nat) :=
  match r.2.1 with
  | .ok _ => (match r.1.spoolCheck i draft c.1 c.2 need with
    | (t, .ok b) => (t, .ok 0, r.2.2 ++ [(c.1 - a, b, c.2)])
    | (t, q) => (t, q, []))
  | _ => r

theorem rangeCheck_eq (s : State) (i : Fin 8) (draft : Word) (a len : Nat) (need : Need) :
    s.rangeCheck i draft a len need = if ((s.swatches[i]).winAt a len).isNone then (s, .refused, [])
      else (cuts 256 a len len).foldl (rangeStep i draft a need) (s, .ok 0, []) := rfl

theorem rangeStep_withMem (s : State) (i : Fin 8) (a : Nat) (need : Need) (o : Chk × List (Nat × Nat × Nat)) (c : Nat × Nat) :
    ∃ o', ∀ m, rangeStep i 0 a need (s.withMem m, o) c = (s.withMem m, o') := by
  obtain ⟨chk, l⟩ := o
  cases chk with
  | refused => exact ⟨_, fun _ => rfl⟩
  | bad => exact ⟨_, fun _ => rfl⟩
  | ok b =>
    obtain ⟨q, hq⟩ := spoolCheck_withMem s i c.1 c.2 need
    cases q with
    | ok x => exact ⟨(.ok 0, l ++ [(c.1 - a, x, c.2)]), fun m => by unfold rangeStep; simp only [hq]⟩
    | refused => exact ⟨(.refused, []), fun m => by unfold rangeStep; simp only [hq]⟩
    | bad => exact ⟨(.bad, []), fun m => by unfold rangeStep; simp only [hq]⟩

theorem rangeFold_withMem (s : State) (i : Fin 8) (a : Nat) (need : Need) (l : List (Nat × Nat)) (o : Chk × List (Nat × Nat × Nat)) :
    ∃ o', ∀ m, l.foldl (rangeStep i 0 a need) (s.withMem m, o) = (s.withMem m, o') := by
  induction l generalizing o with
  | nil => exact ⟨o, fun _ => rfl⟩
  | cons c l ih =>
    obtain ⟨o1, h1⟩ := rangeStep_withMem s i a need o c
    obtain ⟨o2, h2⟩ := ih o1
    exact ⟨o2, fun m => by rw [List.foldl_cons, h1, h2]⟩

theorem rangeCheck_withMem (s : State) (i : Fin 8) (a len : Nat) (need : Need) :
    ∃ o, ∀ m, (s.withMem m).rangeCheck i 0 a len need = (s.withMem m, o) := by
  by_cases hwin : ((s.swatches[i]).winAt a len).isNone = true
  · exact ⟨(.refused, []), fun m => (rangeCheck_eq _ _ _ _ _ _).trans (if_pos hwin)⟩
  · obtain ⟨o, ho⟩ := rangeFold_withMem s i a need (cuts 256 a len len) (.ok 0, [])
    exact ⟨o, fun m => (rangeCheck_eq _ _ _ _ _ _).trans ((if_neg hwin).trans (ho m))⟩

theorem viewCheck_withMem (s : State) (i : Fin 8) (p : Fin 10) (v : Fin 4) (off skip len : Nat) (need : Need) :
    ∃ o, ∀ m, (s.withMem m).viewCheck i 0 p v off skip len need = (s.withMem m, o) := by
  have htakes (m : List (Nat × Byte)) : (s.withMem m).viewTakes p v off (decide (need = .write)) =
      s.viewTakes p v off (decide (need = .write)) := rfl
  have hwindow (m : List (Nat × Byte)) : (s.withMem m).windowCheck i (viewAddr p v + off + skip) len need =
      s.windowCheck i (viewAddr p v + off + skip) len need := rfl
  by_cases ht : (!s.viewTakes p v off (decide (need = .write))) = true
  · exact ⟨(.off, []), fun m => if_pos ht⟩
  · obtain ⟨⟨q, l⟩, hq⟩ := rangeCheck_withMem s i (((s.edgeCarders[p]).views[v]).range off).1
      (((s.edgeCarders[p]).views[v]).range off).2 need
    have hq' (m : List (Nat × Byte)) : (s.withMem m).rangeCheck i 0 ((((s.withMem m).edgeCarders[p]).views[v]).range off).1
        ((((s.withMem m).edgeCarders[p]).views[v]).range off).2 need = (s.withMem m, q, l) := hq m
    refine ⟨((s.viewCheck i 0 p v off skip len need).2), fun m => ?_⟩
    have hqs : s.rangeCheck i 0 (((s.edgeCarders[p]).views[v]).range off).1 (((s.edgeCarders[p]).views[v]).range off).2 need =
      (s, q, l) := hq s.mem
    unfold State.viewCheck
    rw [if_neg ht, if_neg (by rw [htakes]; exact ht), hwindow]
    simp only [hq', hqs]
    cases s.windowCheck i (viewAddr p v + off + skip) len need with
    | ok b => cases q <;> rfl
    | refused => rfl
    | bad => rfl

/-- Where a piece is served hangs on no byte of memory. -/
theorem memPiece_withMem (s : State) (m : List (Nat × Byte)) (t : Option (Fin 8)) (a : Nat) (n : Need) :
    (s.withMem m).memPiece t a n = s.memPiece t a n := by
  cases t with
  | none => rfl
  | some i =>
    obtain ⟨o, ho⟩ := viewCheck_withMem s i (viewOf a).1 (viewOf a).2.1 ((viewOf a).2.2 / 64 * 64) ((viewOf a).2.2 % 64) 32 n
    have hown : (s.withMem m).ownStore i a = s.ownStore i a := rfl
    have hregion : (s.withMem m).region a = s.region a := rfl
    have hwindow : (s.withMem m).windowCheck i a 32 n = s.windowCheck i a 32 n := rfl
    have hs := ho s.mem
    change s.viewCheck i 0 _ _ _ _ _ n = (s, o) at hs
    unfold State.memPiece
    simp only [hown, hregion, hwindow, ho m, hs]

/-! ### Pieces written (R158) -/

/-- What memory holds once a piece of a target is written: a valid save of a store takes the bytes too (08 R202). -/
def State.ownMem (s : State) (t : Option (Fin 8)) (m : List (Nat × Byte)) (x : Nat × List Byte) : List (Nat × Byte) :=
  match t with
  | some i => if s.ownStore i x.1 ∧ s.swatches[i].saveValid then memWrite (memWrite m x.1 x.2) (s.savedAt i x.1) x.2
    else memWrite m x.1 x.2
  | none => memWrite m x.1 x.2

theorem ownMem_unsaved {s : State} {t : Option (Fin 8)} (h : ∀ i, t = some i → s.swatches[i].saveValid = false)
    (m : List (Nat × Byte)) (x : Nat × List Byte) : s.ownMem t m x = memWrite m x.1 x.2 := by
  cases t with
  | none => rfl
  | some i => exact if_neg fun hboth => by rw [h i rfl] at hboth; exact Bool.false_ne_true hboth.2

theorem memWriteM_bytes (m : List (Nat × Byte)) (a : Nat) (d : List Byte) : memWriteM m a (d.map some) = memWrite m a d := by
  have hall : (d.map some).all Option.isSome = true := by
    rw [List.all_map]
    exact List.all_eq_true.mpr fun _ _ => rfl
  have hbytes : (d.map some).map (fun o => o.getD memDefault) = d := by
    rw [List.map_map]
    exact List.map_id d
  unfold memWriteM
  rw [if_pos hall, hbytes]

/-- Whole bytes put where nothing is uncorrectable. -/
theorem put_bytes {s : State} (hc : s.poison = []) (a : Nat) (d : List Byte) : s.put a (d.map some) = s.withMem (memWrite s.mem a d) := by
  have hland : s.landing a (d.map some) = d.map some := by unfold State.landing; rw [hc]; rfl
  unfold State.put State.withMem
  rw [hland, memWriteM_bytes, hc, List.filter_nil, ← hc]

theorem putOwn_bytes {s : State} (hc : s.poison = []) (t : Option (Fin 8)) (a : Nat) (d : List Byte) :
    s.putOwn t a (d.map some) = s.withMem (s.ownMem t s.mem (a, d)) := by
  cases t with
  | none => exact put_bytes hc a d
  | some i =>
    unfold State.putOwn State.ownMem
    dsimp only
    split
    · rw [put_bytes hc]
      exact put_bytes (s := s.withMem (memWrite s.mem a d)) hc _ d
    · exact put_bytes hc a d

/-- A piece that is served where it lies, on this die and on no lost stack. -/
structure ServedHere (s : State) (t : Option (Fin 8)) (a : Nat) : Prop where
  piece : s.memPiece t a .write = some a
  found : s.onLost a = false
  here  : s.region a ≠ .twin

theorem memPut_here {s : State} {t : Option (Fin 8)} {a : Nat} (r : CmdRef) (hc : s.poison = []) (h : ServedHere s t a)
    (d : List Byte) : s.memPut r t a d = (s.withMem (s.ownMem t s.mem (a, d)), true) := by
  unfold State.memPut
  rw [h.piece]
  dsimp only [Option.getD_some]
  rw [h.found, if_neg Bool.false_ne_true]
  split
  · next htwin _ => exact absurd htwin h.here
  · rw [putOwn_bytes hc]

theorem memPuts_here {s : State} {t : Option (Fin 8)} (r : CmdRef) (hc : s.poison = []) {l : List (Nat × List Byte)}
    (h : ∀ x ∈ l, ServedHere s t x.1) (m : List (Nat × Byte)) :
    (s.withMem m).memPuts r t l = (s.withMem (l.foldl (s.ownMem t) m), true) := by
  induction l generalizing m with
  | nil => rfl
  | cons x l ih =>
    have hx := h x List.mem_cons_self
    have hone : (s.withMem m).memPut r t x.1 x.2 = (s.withMem (s.ownMem t m x), true) :=
      memPut_here (s := s.withMem m) r hc ⟨(memPiece_withMem s m t x.1 .write).trans hx.piece, hx.found, hx.here⟩ x.2
    unfold State.memPuts
    rw [hone, List.foldl_cons]
    exact ih (fun y hy => h y (List.mem_cons_of_mem x hy)) _

theorem memEnd_done {s : State} {r : CmdRef} (h : ∀ x ∈ s.accesses, x.partOf r = false) (op : Nat) (e : Entry) :
    s.memEnd r op e true = s.ok r := by
  have hnone : ¬ (s.accesses.any fun a => a.partOf r) = true := by
    rw [List.any_eq_true]
    rintro ⟨x, hx, hpart⟩
    rw [h x hx] at hpart
    exact Bool.false_ne_true hpart
  unfold State.memEnd
  exact (if_neg Bool.false_ne_true).trans (if_neg hnone)

/-! ### What a run of pieces leaves -/

theorem memRead_getD (m : List (Nat × Byte)) (a n i : Nat) (h : i < n) : (memRead m a n).getD i 0 = memGet m (a + i) :=
  memRead_getElem m a n i h

/-- The pieces of 32 bytes of a run from an address upward. -/
def runOf (a k : Nat) (f : Nat → List Byte) : List (Nat × List Byte) := (List.range k).map fun i => (a + 32 * i, f i)

theorem runOf_succ (a k : Nat) (f : Nat → List Byte) : runOf a (k + 1) f = runOf a k f ++ [(a + 32 * k, f k)] := by
  unfold runOf
  rw [List.range_succ, List.map_append]
  rfl

theorem granules_map (a n : Nat) (d : List Byte) : (granules a n).map (fun g => (g, d)) = runOf a (n / 32) fun _ => d := by
  unfold granules runOf
  rw [List.map_map]
  rfl

theorem mem_granules {a n g : Nat} : g ∈ granules a n ↔ ∃ k < n / 32, g = a + 32 * k := by
  unfold granules
  simp only [List.mem_map, List.mem_range, eq_comm]

theorem memGet_run (m : List (Nat × Byte)) (a k : Nat) {f : Nat → List Byte} (hf : ∀ i, (f i).length = 32) (j : Nat) :
    memGet ((runOf a k f).foldl (fun m x => memWrite m x.1 x.2) m) j =
      if a ≤ j ∧ j < a + 32 * k then (f ((j - a) / 32)).getD ((j - a) % 32) 0 else memGet m j := by
  induction k with
  | zero => exact (if_neg (by omega)).symm
  | succ k ih =>
    rw [runOf_succ, List.foldl_append, List.foldl_cons, List.foldl_nil, memGet_memWrite, ih, hf]
    by_cases hlast : a + 32 * k ≤ j ∧ j < a + 32 * k + 32
    · have hdiv : (j - a) / 32 = k := by omega
      have hmod : (j - a) % 32 = j - (a + 32 * k) := by omega
      rw [if_pos hlast, if_pos (by omega), hdiv, hmod]
      rfl
    · rw [if_neg hlast]
      by_cases hin : a ≤ j ∧ j < a + 32 * k
      · rw [if_pos hin, if_pos (by omega)]
      · rw [if_neg hin, if_neg (by omega)]

/-! ### The pattern of MEM_FILL -/

theorem leBytes_getD (n v i : Nat) (h : i < n) : (leBytes n v).getD i 0 = BitVec.ofNat 8 (v / 256 ^ i) := by
  induction n generalizing v i with
  | zero => omega
  | succ n ih =>
    unfold leBytes
    cases i with
    | zero => rw [Nat.pow_zero, Nat.div_one]; rfl
    | succ i =>
      rw [List.getD_cons_succ, ih _ _ (by omega), Nat.div_div_eq_div_mul, Nat.pow_succ, Nat.mul_comm]

/-- The 32 bytes of a pattern of four. -/
def fillBytes (v : Nat) : List Byte := (List.replicate 8 (leBytes 4 v)).flatten

theorem fillBytes_length (v : Nat) : (fillBytes v).length = 32 := rfl

theorem memGet_memWrite_fill (m : List (Nat × Byte)) (a v j : Nat) : memGet (memWrite m a (fillBytes v)) j =
    if a ≤ j ∧ j < a + 32 then (fillBytes v).getD (j - a) 0 else memGet m j := memGet_memWrite _ _ _ _

theorem fillBytes_getD (v : Nat) {i : Nat} (h : i < 32) : (fillBytes v).getD i 0 = BitVec.ofNat 8 (v / 256 ^ (i % 4)) := by
  have hword : (fillBytes v).getD i 0 = (leBytes 4 v).getD (i % 4) 0 := by
    unfold fillBytes
    interval_cases i <;> rfl
  rw [hword, leBytes_getD 4 v _ (Nat.mod_lt _ (by decide))]

/-! ### MEM_FILL (R158) -/

theorem memFill_aligned {scope : Nat} {e : Entry} {s : State} (h : Passed cmdMemFill scope e s) :
    e.u 8 8 % 32 = 0 ∧ e.u 16 8 % 32 = 0 := by
  have hbad : (mult32 e [8, 16]) = [] := h.bad
  unfold mult32 at hbad
  rw [List.filter_eq_nil_iff] at hbad
  simpa using hbad

theorem memFill_acts {e : Entry} {s : State} {r : CmdRef} (h : ∀ g ∈ granules (e.u 8 8) (e.u 16 8), ServedHere s e.target g)
    (hc : s.poison = []) (hacc : ∀ x ∈ s.accesses, x.partOf r = false) : cmdMemFill.act r e s =
      (s.withMem ((runOf (e.u 8 8) (e.u 16 8 / 32) fun _ => fillBytes (e.u 24 4)).foldl (s.ownMem e.target) s.mem)).ok r := by
  have hrun : ∀ x ∈ runOf (e.u 8 8) (e.u 16 8 / 32) fun _ => fillBytes (e.u 24 4), ServedHere s e.target x.1 := by
    rw [← granules_map]
    intro x hx
    obtain ⟨g, hg, rfl⟩ := List.mem_map.mp hx
    exact h g hg
  have hact : cmdMemFill.act r e s =
      let x := s.memPuts r e.target ((granules (e.u 8 8) (e.u 16 8)).map fun a => (a, fillBytes (e.u 24 4)))
      x.1.memEnd r 0x203 e x.2 := rfl
  have hput : s.memPuts r e.target _ = _ := memPuts_here r hc hrun s.mem
  rw [hact, granules_map, hput]
  refine memEnd_done ?_ _ _
  exact hacc

/-- Where no save of the target is valid, a range of pieces is written and no other byte. -/
theorem foldl_ownMem_unsaved {s : State} {t : Option (Fin 8)} (h : ∀ i, t = some i → s.swatches[i].saveValid = false) :
    s.ownMem t = fun m x => memWrite m x.1 x.2 := funext fun m => funext fun x => ownMem_unsaved h m x

theorem memGet_fill {e : Entry} (hn : e.u 16 8 % 32 = 0) (m : List (Nat × Byte)) (j : Nat) :
    memGet ((runOf (e.u 8 8) (e.u 16 8 / 32) fun _ => fillBytes (e.u 24 4)).foldl (fun m x => memWrite m x.1 x.2) m) j =
      if e.u 8 8 ≤ j ∧ j < e.u 8 8 + e.u 16 8 then BitVec.ofNat 8 (e.u 24 4 / 256 ^ ((j - e.u 8 8) % 4)) else memGet m j := by
  have hlen : 32 * (e.u 16 8 / 32) = e.u 16 8 := by omega
  have hmod : (j - e.u 8 8) % 32 % 4 = (j - e.u 8 8) % 4 := by omega
  rw [memGet_run m _ _ fun _ => fillBytes_length _, hlen, fillBytes_getD _ (Nat.mod_lt _ (by decide)), hmod]

/-! ### A save that takes the bytes too (08 R202, 10 R292) -/

theorem region_store_low {s : State} {k : Fin 16} {a : Nat} (h : s.region a = .store k) : a < 0x4000000 := by
  by_contra hlow
  unfold State.region at h
  rw [if_neg hlow] at h
  split_ifs at h

theorem ownStore_low {s : State} {i : Fin 8} {a : Nat} (h : s.ownStore i a = true) : a < 0x4000000 := by
  unfold State.ownStore at h
  split at h
  · next hstore => exact region_store_low hstore
  · exact absurd h Bool.false_ne_true

theorem savedAt_add (s : State) (i : Fin 8) {a d : Nat} (ha : a % 32 = 0) (hd : d < 32) :
    s.savedAt i (a + d) = s.savedAt i a + d := by
  have hdiv : (a + d) / 0x400000 = a / 0x400000 := by omega
  have hmod : (a + d) % 0x400000 = a % 0x400000 + d := by omega
  unfold State.savedAt
  rw [hdiv, hmod, Nat.add_assoc]

theorem saveBase_le_savedAt (s : State) (i : Fin 8) (a : Nat) : (s.swatches[i]).saveBase.toNat ≤ s.savedAt i a := by
  unfold State.savedAt State.saveRec
  omega

/-- A saved byte keeps its place in its word. -/
theorem savedAt_mod (s : State) (i : Fin 8) (a : Nat) : s.savedAt i a % 4 = ((s.swatches[i]).saveBase.toNat + a) % 4 := by
  unfold State.savedAt State.saveRec
  omega

/-- A run of pattern pieces of an own store under a valid save: the store and the save both read the pattern. -/
theorem savedRun_fills {s : State} {i : Fin 8} (hsave : s.swatches[i].saveValid = true)
    (hbase : 0x4000000 ≤ (s.swatches[i]).saveBase.toNat) {a v : Nat} (ha : a % 32 = 0) (k : Nat)
    (hown : ∀ x < k, s.ownStore i (a + 32 * x) = true) (m : List (Nat × Byte)) {j : Nat} (hj : a ≤ j ∧ j < a + 32 * k) :
    let t := (runOf a k fun _ => fillBytes v).foldl (s.ownMem (some i)) m
    memGet t j = BitVec.ofNat 8 (v / 256 ^ ((j - a) % 4)) ∧ memGet t (s.savedAt i j) = BitVec.ofNat 8 (v / 256 ^ ((j - a) % 4)) := by
  induction k with
  | zero => omega
  | succ k ih =>
    have hlow := ownStore_low (hown k (Nat.lt_succ_self k))
    have hwrite (m : List (Nat × Byte)) : s.ownMem (some i) m (a + 32 * k, fillBytes v) =
        memWrite (memWrite m (a + 32 * k) (fillBytes v)) (s.savedAt i (a + 32 * k)) (fillBytes v) :=
      if_pos ⟨hown k (Nat.lt_succ_self k), hsave⟩
    have hsaved := saveBase_le_savedAt s i (a + 32 * k)
    have hjsaved := saveBase_le_savedAt s i j
    have hjmod := savedAt_mod s i j
    have hgmod := savedAt_mod s i (a + 32 * k)
    have hpat {d : Nat} (hd : d < 32) (hmod : d % 4 = (j - a) % 4) : (fillBytes v).getD d 0 = BitVec.ofNat 8 (v / 256 ^ ((j - a) % 4)) := by
      rw [fillBytes_getD v hd, hmod]
    rw [runOf_succ, List.foldl_append, List.foldl_cons, List.foldl_nil, hwrite]
    simp only [memGet_memWrite_fill]
    by_cases hlast : a + 32 * k ≤ j
    · obtain ⟨d, rfl⟩ := Nat.exists_eq_add_of_le hlast
      have hd : d < 32 := by omega
      have hadd := savedAt_add s i (a := a + 32 * k) (by omega) hd
      refine ⟨?_, ?_⟩
      · rw [if_neg (by omega), if_pos (by omega)]
        exact hpat (by omega) (by omega)
      · rw [if_pos (by omega)]
        exact hpat (by omega) (by omega)
    · obtain ⟨hstore, hsave'⟩ := ih (fun x hx => hown x (by omega)) (by omega)
      refine ⟨?_, ?_⟩
      · rw [if_neg (by omega), if_neg (by omega)]
        exact hstore
      · split
        · exact hpat (by omega) (by omega)
        · rw [if_neg (by omega)]
          exact hsave'

/-! ### MEM_COPY (R158) -/

theorem memCopy_aligned {scope : Nat} {e : Entry} {s : State} (h : Passed cmdMemCopy scope e s) : e.u 24 8 % 32 = 0 := by
  have hbad : (mult32 e [8, 16, 24]) = [] := h.bad
  unfold mult32 at hbad
  rw [List.filter_eq_nil_iff] at hbad
  simpa using hbad 24 (by decide)

/-- A piece read where it lies on this die, outside the views, with nothing uncorrectable. -/
structure ReadHere (s : State) (t : Option (Fin 8)) (a : Nat) : Prop where
  piece : s.memPiece t a .read = some a
  sound : s.isBad a = false
  here  : s.region a ≠ .twin
  plain : s.region a ≠ .views

/-- The stages of MEM_COPY: where piece k is read and written, whether it comes later, over the TWIN port or through a view, whether it
can be read, and the pieces before the first that cannot. -/
def copySrc (e : Entry) (s : State) (k : Nat) : Nat := (s.memPiece e.target (e.u 8 8 + 32 * k) .read).getD (e.u 8 8 + 32 * k)
def copyDst (e : Entry) (s : State) (k : Nat) : Nat := (s.memPiece e.target (e.u 16 8 + 32 * k) .write).getD (e.u 16 8 + 32 * k)
def copyFar (e : Entry) (s : State) (k : Nat) : Bool :=
  decide (s.region (copySrc e s k) = .views) || decide (s.region (copySrc e s k) = .twin)
def copyReads (e : Entry) (s : State) (k : Nat) : Bool :=
  if decide (s.region (copySrc e s k) = .views) then s.viewReads e.target (copySrc e s k)
  else copyFar e s k || !s.isBad (copySrc e s k)
def copyGood (e : Entry) (s : State) : List Nat := (List.range (e.u 24 8 / 32)).takeWhile (copyReads e s)

theorem memCopy_eq (r : CmdRef) (e : Entry) (s : State) : cmdMemCopy.act r e s =
    let x := s.memPuts r e.target (((copyGood e s).filter fun k => !copyFar e s k).map fun k =>
      (e.u 16 8 + 32 * k, memRead s.mem (copySrc e s k) 32))
    let t : State := ((copyGood e s).filter (copyFar e s)).foldl (fun t k =>
      t.memAsk e.target (copySrc e s k) (.copy (some (copyDst e s k)) r)) x.1
    let all := decide ((copyGood e s).length = (List.range (e.u 24 8 / 32)).length)
    let t : State := if x.2 && !all then t.mediaError none (copySrc e s (copyGood e s).length) else t
    t.memEnd r 0x204 e (x.2 && all) := rfl

theorem memCopy_acts {e : Entry} {s : State} {r : CmdRef} (hread : ∀ g ∈ granules (e.u 8 8) (e.u 24 8), ReadHere s e.target g)
    (hwrite : ∀ g ∈ granules (e.u 16 8) (e.u 24 8), ServedHere s e.target g) (hc : s.poison = [])
    (hacc : ∀ x ∈ s.accesses, x.partOf r = false) : cmdMemCopy.act r e s =
      (s.withMem ((runOf (e.u 16 8) (e.u 24 8 / 32) fun k => memRead s.mem (e.u 8 8 + 32 * k) 32).foldl (s.ownMem e.target) s.mem)).ok r := by
  have hhere (k : Nat) (hk : k ∈ List.range (e.u 24 8 / 32)) : ReadHere s e.target (e.u 8 8 + 32 * k) :=
    hread _ (mem_granules.mpr ⟨k, List.mem_range.mp hk, rfl⟩)
  have hsrc (k : Nat) (hk : k ∈ List.range (e.u 24 8 / 32)) : copySrc e s k = e.u 8 8 + 32 * k := by
    unfold copySrc
    rw [(hhere k hk).piece]
    rfl
  have hnear (k : Nat) (hk : k ∈ List.range (e.u 24 8 / 32)) : copyFar e s k = false := by
    unfold copyFar
    rw [hsrc k hk, decide_eq_false (hhere k hk).plain, decide_eq_false (hhere k hk).here]
    rfl
  have hgood : copyGood e s = List.range (e.u 24 8 / 32) := by
    refine List.takeWhile_eq_self_iff.mpr fun k hk => ?_
    unfold copyReads
    rw [hnear k hk, hsrc k hk, decide_eq_false (hhere k hk).plain, (hhere k hk).sound]
    rfl
  have hall : (List.range (e.u 24 8 / 32)).filter (fun k => !copyFar e s k) = List.range (e.u 24 8 / 32) :=
    List.filter_eq_self.mpr fun k hk => by rw [hnear k hk]; rfl
  have hnone : (List.range (e.u 24 8 / 32)).filter (copyFar e s) = [] :=
    List.filter_eq_nil_iff.mpr fun k hk => by rw [hnear k hk]; exact Bool.false_ne_true
  have hpieces : ((List.range (e.u 24 8 / 32)).map fun k => (e.u 16 8 + 32 * k, memRead s.mem (copySrc e s k) 32)) =
      runOf (e.u 16 8) (e.u 24 8 / 32) fun k => memRead s.mem (e.u 8 8 + 32 * k) 32 :=
    List.map_congr_left fun k hk => by rw [hsrc k hk]
  have hrun : ∀ x ∈ runOf (e.u 16 8) (e.u 24 8 / 32) fun k => memRead s.mem (e.u 8 8 + 32 * k) 32, ServedHere s e.target x.1 := by
    intro x hx
    obtain ⟨k, hk, rfl⟩ := List.mem_map.mp hx
    exact hwrite _ (mem_granules.mpr ⟨k, List.mem_range.mp hk, rfl⟩)
  have hput : s.memPuts r e.target _ = _ := memPuts_here r hc hrun s.mem
  rw [memCopy_eq, hgood, hall, hnone, hpieces, hput, decide_eq_true rfl]
  refine memEnd_done ?_ _ _
  exact hacc

theorem memGet_copy {e : Entry} (hn : e.u 24 8 % 32 = 0) (m : List (Nat × Byte)) (j : Nat) :
    memGet ((runOf (e.u 16 8) (e.u 24 8 / 32) fun k => memRead m (e.u 8 8 + 32 * k) 32).foldl (fun m x => memWrite m x.1 x.2) m) j =
      if e.u 16 8 ≤ j ∧ j < e.u 16 8 + e.u 24 8 then memGet m (e.u 8 8 + (j - e.u 16 8)) else memGet m j := by
  have hlen : 32 * (e.u 24 8 / 32) = e.u 24 8 := by omega
  have hplace : e.u 8 8 + 32 * ((j - e.u 16 8) / 32) + (j - e.u 16 8) % 32 = e.u 8 8 + (j - e.u 16 8) := by omega
  rw [memGet_run m _ _ fun _ => memRead_length _ _ _, hlen, memRead_getD m _ _ _ (Nat.mod_lt _ (by decide)), hplace]

end Sys2Proof.Machine
end

section
/-! SUPPORT. Pages released (14 R378, R383): what a release leaves of the page table, and of everything but memory and its errors. -/
namespace Sys2Proof.Machine
open Sys2Proof Sys2Proof.Safety

/-! ### Runs of pages -/

/-- A run that lies in one of some runs and bears its state. -/
def PageRun.cutOf (x : PageRun) (l : List PageRun) : Prop :=
  0 < x.count ∧ ∃ r ∈ l, x.st = r.st ∧ r.base ≤ x.base ∧ x.base + x.count ≤ r.base + r.count

/-- What is left when a range is taken out lies in the runs before, outside the range. -/
theorem mem_cutRuns {l : List PageRun} {b c : Nat} {x : PageRun} (h : x ∈ cutRuns l b c) :
    x.cutOf l ∧ (x.base + x.count ≤ b ∨ b + c ≤ x.base) := by
  unfold cutRuns at h
  obtain ⟨r, hr, hx⟩ := List.mem_flatMap.mp h
  dsimp only at hx
  rw [List.mem_append] at hx
  rcases hx with hx | hx <;> split at hx
  · next hlt =>
    obtain rfl := List.mem_singleton.mp hx
    exact ⟨⟨by dsimp only; omega, r, hr, rfl, le_refl _, by dsimp only; omega⟩, .inl (by dsimp only; omega)⟩
  · exact absurd hx List.not_mem_nil
  · next hlt =>
    obtain rfl := List.mem_singleton.mp hx
    exact ⟨⟨by dsimp only; omega, r, hr, rfl, by dsimp only; omega, by dsimp only; omega⟩, .inr (by dsimp only; omega)⟩
  · exact absurd hx List.not_mem_nil

/-- The pages of a range freed, in any state of the table: what is not retired was in a run before and lies outside the range. -/
def Frees (b c : Nat) (l m : List PageRun) : Prop :=
  ∀ x ∈ m, x.st = .retired ∨ x.cutOf l ∧ (x.base + x.count ≤ b ∨ b + c ≤ x.base)

theorem retire_frees {b c : Nat} {l m : List PageRun} (h : Frees b c l m) (p : Nat) : Frees b c l (putRun m p 1 .retired) := by
  intro x hx
  unfold putRun at hx
  rw [if_neg (by decide), List.mem_append] at hx
  rcases hx with hx | hx
  · obtain ⟨⟨hpos, r, hr, hst, hlo, hhi⟩, -⟩ := mem_cutRuns hx
    rcases h r hr with hret | ⟨⟨-, r', hr', hst', hlo', hhi'⟩, hout⟩
    · exact .inl (hst.trans hret)
    · exact .inr ⟨⟨hpos, r', hr', hst.trans hst', by omega, by omega⟩, by omega⟩
  · obtain rfl := List.mem_singleton.mp hx
    exact .inl rfl

/-! ### Releases -/

/-- s with what a release can change as t has it. -/
def State.releasing (s t : State) : State := { s.retiring t with
  poison := t.poison, badPages := t.badPages, pages := t.pages, stack := t.stack }

/-- From s to t pages were freed and their errors recorded, and nothing else changed. -/
structure Releases (s t : State) : Prop where
  rest : t = s.releasing t

theorem Releases.refl (s : State) : Releases s s := ⟨rfl⟩
theorem Releases.read {α : Type} {s t : State} (h : Releases s t) (g : State → α) : g t = g (s.releasing t) := congrArg g h.rest
theorem Releases.trans {s t u : State} (h : Releases s t) (k : Releases t u) : Releases s u :=
  ⟨Eq.trans k.rest (h.read fun x => x.releasing u)⟩
theorem Releases.foldl {α : Type} {s : State} {g : State → α → State} (l : List α) (hg : ∀ t x, Releases t (g t x)) :
    Releases s (l.foldl g s) :=
  List.foldlRecOn l g (motive := Releases s) (.refl s) fun _ h x _ => h.trans (hg _ x)

theorem Retires.releases {s t : State} (h : Retires s t) : Releases s t :=
  ⟨h.read fun x => { x with poison := t.poison, badPages := t.badPages, pages := t.pages, stack := t.stack }⟩

theorem freeRange_releases (s : State) (b c : Nat) : Releases s (s.freeRange b c) := by
  unfold State.freeRange
  exact Releases.trans ⟨rfl⟩ (.foldl _ fun _ _ => ⟨rfl⟩)

theorem recordPages_retires (s : State) (l : List Nat) :
    Retires s (l.foldl (fun s a => (s.addEntry 4 (s.pageEntry a) 0 0xFF).repEvent 1) s) :=
  .foldl l fun t _ => (addEntry_retires t _ _ _ _).trans (modRep_retires _ _)

theorem release_releases (s : State) (b c : Nat) : Releases s (s.release b c) :=
  (freeRange_releases s b c).trans (recordPages_retires _ _).releases

theorem freeRange_frees (s : State) (b c : Nat) : Frees b c s.pages (s.freeRange b c).pages := by
  have hcut : Frees b c s.pages (putRun s.pages b c .free) := fun x hx => by
    unfold putRun at hx
    rw [if_pos (.inl rfl)] at hx
    exact .inr (mem_cutRuns hx)
  unfold State.freeRange
  refine List.foldlRecOn _ _ (motive := fun t : State => Frees b c s.pages t.pages) hcut fun t ht p _ => ?_
  exact retire_frees ht p

theorem release_frees (s : State) (b c : Nat) : Frees b c s.pages (s.release b c).pages := by
  have hpages : (s.release b c).pages = (s.freeRange b c).pages := (recordPages_retires _ _).read State.pages
  rw [hpages]
  exact freeRange_frees s b c

/-- The runs left after some were released: retired, or cut from a run before and outside each range released. -/
def FreesAll (rs l m : List PageRun) : Prop :=
  ∀ x ∈ m, x.st = .retired ∨ (∃ r ∈ l, x.st = r.st ∧ r.base ≤ x.base ∧ x.base + x.count ≤ r.base + r.count) ∧
    ∀ r ∈ rs, 0 < x.count ∧ (x.base + x.count ≤ r.base ∨ r.base + r.count ≤ x.base)

theorem releases_freesAll (s : State) (rs : List PageRun) :
    FreesAll rs s.pages (rs.foldl (fun s r => s.release r.base r.count) s).pages ∧
    Releases s (rs.foldl (fun s r => s.release r.base r.count) s) := by
  induction rs using List.reverseRecOn with
  | nil => exact ⟨fun x hx => .inr ⟨⟨x, hx, rfl, le_refl _, le_refl _⟩, fun r hr => absurd hr List.not_mem_nil⟩, .refl s⟩
  | append_singleton rs r ih =>
    obtain ⟨hfree, hrest⟩ := ih
    rw [List.foldl_append, List.foldl_cons, List.foldl_nil]
    refine ⟨fun x hx => ?_, hrest.trans (release_releases _ _ _)⟩
    rcases release_frees _ _ _ x hx with hret | ⟨⟨hpos, y, hy, hst, hlo, hhi⟩, hout⟩
    · exact .inl hret
    · rcases hfree y hy with hret | ⟨⟨z, hz, hst', hlo', hhi'⟩, hall⟩
      · exact .inl (hst.trans hret)
      · refine .inr ⟨⟨z, hz, hst.trans hst', by omega, by omega⟩, fun q hq => ?_⟩
        rcases List.mem_append.mp hq with hq | hq
        · have := hall q hq
          omega
        · obtain rfl := List.mem_singleton.mp hq
          exact ⟨hpos, hout⟩

/-- Every run in a state released: none is left in it, unless retired. -/
theorem releaseRuns_none {s : State} {sel : PageSt → Bool} (hsel : sel .retired = false) :
    ∀ x ∈ (s.releaseRuns sel).1.pages, sel x.st = false := by
  intro x hx
  rcases (releases_freesAll s _).1 x hx with hret | ⟨⟨r, hr, hst, hlo, hhi⟩, hall⟩
  · rw [hret, hsel]
  · by_contra hon
    have hmem : r ∈ s.pages.filter fun r => sel r.st :=
      List.mem_filter.mpr ⟨hr, hst ▸ Bool.eq_true_of_not_eq_false hon⟩
    have := hall r hmem
    omega

theorem releaseRuns_releases (s : State) (sel : PageSt → Bool) : Releases s (s.releaseRuns sel).1 :=
  (releases_freesAll s _).2

end Sys2Proof.Machine
end

section
/-! SUPPORT. Memory commands and program loads (06 R156 to R160; 14 R379 to R381; 10 R271, R272): what each does. -/
namespace Sys2Proof.Machine
open Sys2Proof Sys2Proof.Safety

/-! ### Allocations (R156, R379, R380) -/

/-- A state with the allocation of an entry listed (R379). -/
def State.listHank (s : State) (e : Entry) (a : Nat) (m : BitVec 24) : State := { s with
  localMap := m
  nextHank := s.nextHank + 1
  hanks := s.hanks ++ [⟨s.nextHank, a, e.u 8 4, BitVec.ofNat 8 (e.u 12 1), e.target⟩] }

section Alloc
variable {r : CmdRef} {e : Entry} {s : State} {a : Nat} {m : BitVec 24} {pool : Option Nat}
  (hplace : s.allocWhere e = some (a, m, pool))
include hplace

theorem allocHanks_host (ht : e.target = none) : cmdAllocHanks.act r e s =
    ((s.listHank e a m).setPages (pageOf a) (e.u 8 4) (.hostHeld s.nextHank)).ok r [(20, 8, a), (28, 4, s.nextHank)] := by
  unfold cmdAllocHanks
  simp only [hplace, ht]
  unfold State.listHank
  rw [ht]

theorem allocHanks_target (ht : e.target.isSome = true) (hp : pool = none) : cmdAllocHanks.act r e s =
    (s.listHank e a m).ok r [(20, 8, a), (28, 4, s.nextHank)] := by
  obtain ⟨i, ht⟩ := Option.isSome_iff_exists.mp ht
  subst hp
  unfold cmdAllocHanks
  simp only [hplace, ht]
  unfold State.listHank
  rw [ht]

theorem allocHanks_pool {i : Fin 8} {p : Nat} (ht : e.target = some i) (hp : pool = some p) : cmdAllocHanks.act r e s =
    (((s.listHank e a m).setPages p 16 (.firmware (some i))).modSw i fun w => { w with pool := some p }).ok r
      [(20, 8, a), (28, 4, s.nextHank)] := by
  subst hp
  unfold cmdAllocHanks
  simp only [hplace, ht]
  unfold State.listHank
  rw [ht]

end Alloc

/-! ### Allocations freed (R156, R380, R381) -/

theorem zeroRange_hanks (s : State) (a n : Nat) : (s.zeroRange a n).hanks = s.hanks := by
  unfold State.zeroRange
  split
  · exact foldl_keeps State.hanks _ (fun t k => (sendAccess_sends t _ _ _ _ _ _ _ _ _).read State.hanks) _ _
  · rfl

theorem zeroRange_here {s : State} {a : Nat} (n : Nat) (h : s.region a ≠ .twin ∨ s.twinPort = none) (j : Nat) :
    memGet (s.zeroRange a n).mem j = if a ≤ j ∧ j < a + n then 0 else memGet s.mem j := by
  unfold State.zeroRange
  split
  · next htwin hport => exact absurd h (by rw [htwin, hport]; simp)
  · exact memGet_memClear _ _ _ _

/-- A state without one allocation. -/
def State.dropHank (s : State) (h : Hank) : State := { s with hanks := s.hanks.filter fun x => decide (x.id ≠ h.id) }

section Free
variable {r : CmdRef} {e : Entry} {s : State} {h : Hank} (hhank : s.hankOf e = some h)
include hhank

theorem freeHanks_target (ht : h.target.isSome = true) : cmdFreeHanks.act r e s =
    let n := h.count * (if h.kind = 1 then 2 else 1)
    ((s.dropHank h).zeroRange h.base (n * pageSize)).ok r [(20, 4, n)] := by
  obtain ⟨i, ht⟩ := Option.isSome_iff_exists.mp ht
  unfold cmdFreeHanks
  simp only [hhank, ht]
  rfl

theorem freeHanks_host (ht : h.target = none) : cmdFreeHanks.act r e s =
    let x := (s.dropHank h).releaseRuns fun st => decide (st = .hostHeld h.id)
    x.1.ok r [(20, 4, x.2)] := by
  unfold cmdFreeHanks
  simp only [hhank, ht]
  rfl

end Free

/-! ### Programs (R159, R271, R272) -/

theorem onTarget_some {f : CmdRef → Entry → Fin 8 → State → State} {r : CmdRef} {e : Entry} {i : Fin 8} (h : e.target = some i)
    (s : State) : onTarget f r e s = f r e i s := by
  unfold onTarget
  rw [h]

theorem act_onTarget {c : Cmd} {f : CmdRef → Entry → Fin 8 → State → State} (hc : c.act = onTarget f) {e : Entry} {i : Fin 8}
    (h : e.target = some i) (r : CmdRef) (s : State) : c.act r e s = f r e i s := by
  rw [hc]
  exact onTarget_some h s

/-- An accepted command on a target goes on to its effect on that swatch. -/
theorem next_onTarget {c : Cmd} {f : CmdRef → Entry → Fin 8 → State → State} (hc : c.act = onTarget f) {e : Entry} {s s1 t : State}
    {i : Fin 8} (ht : e.target = some i) (h : Accepts c e s s1) (hf : f (refOf e s1) e i s1 = t) :
    (.next (c.dispatch e s) : Host.Outcome State Fault Refusal) = .next t :=
  next_dispatch h ((act_onTarget hc ht _ s1).trans hf)

theorem modSw_get (s : State) (i : Fin 8) (f : Swatch → Swatch) : (s.modSw i f).swatches[i] = f s.swatches[i] := by
  rw [modSw_swatches, upd_get, if_pos rfl]

theorem modSw_get_ne (s : State) {i j : Fin 8} (h : j ≠ i) (f : Swatch → Swatch) : (s.modSw i f).swatches[j] = s.swatches[j] := by
  rw [modSw_swatches, upd_get_ne _ h.symm]

/-- The store images of an object file written (R272). -/
def State.putImages (s : State) (i : Fin 8) (w : Swatch) (b : List Byte) : State :=
  (sects b).foldl (fun s x =>
    if x.kind = 1 then w.skeinList.foldl (fun s k => s.putImage i k x.offset (slice b x.from_ x.size)) s
    else if x.kind = 2 then s.putImage i (w.atRel x.skein) x.offset (slice b x.from_ x.size)
    else s) s

/-- Store images change memory alone. -/
theorem putImages_keeps {α : Type} (g : State → α) (hg : ∀ (s : State) a bs, g (s.put a bs) = g s) (s : State) (i : Fin 8) (w : Swatch)
    (b : List Byte) : g (s.putImages i w b) = g s := by
  refine foldl_keeps g _ (fun t x => ?_) _ _
  split
  · exact foldl_keeps g _ (fun u k => hg u _ _) _ _
  · split
    · exact hg t _ _
    · rfl

/-- The firmware's copy of a text, with the state that has taken its pages: none without stacks or without a text (R271). -/
def State.textCopy (s : State) (i : Fin 8) (text : Nat) : Option (Nat × State) :=
  if s.nStacks = 0 ∨ text = 0 then none else s.takeFirmware (textPages text) (some i)
/-- The state with that copy taken, where there is one. -/
def State.withCopy (s : State) (i : Fin 8) (text : Nat) : State := ((s.textCopy i text).map Prod.snd).getD s

theorem withCopy_keeps (s : State) (i : Fin 8) (text : Nat) :
    (s.withCopy i text).swatches = s.swatches ∧ (s.withCopy i text).needles = s.needles := by
  unfold State.withCopy State.textCopy
  split
  · exact ⟨rfl, rfl⟩
  · unfold State.takeFirmware
    cases allocUniform s (textPages text) <;> exact ⟨rfl, rfl⟩

/-- The program that a well-formed object file brings to a swatch (R271). -/
def programOf (w : Swatch) (b : List Byte) (copy : Option Nat) : Program :=
  ⟨w.freeId, w.progBytes, leAt b 8 4,
    (((sects b).find? fun x => decide (x.kind = 0)).map fun x => slice b x.from_ x.size).getD [], copy⟩

theorem loadProgram_acts {r : CmdRef} {e : Entry} {i : Fin 8} (ht : e.target = some i) (s : State) : cmdLoadProgram.act r e s =
    let b := s.objRead e.sq (e.u 8 8) (e.u 16 4)
    let w := s.swatches[i]
    let p := programOf w b ((s.textCopy i (leAt b 8 4)).map Prod.fst)
    (((s.withCopy i (leAt b 8 4)).modSw i fun w => { w with programs := w.programs ++ [p] }).putImages i w b).ok r
      [(20, 2, w.freeId)] := by
  refine (act_onTarget rfl ht r s).trans ?_
  unfold State.withCopy
  dsimp only
  cases hcopy : s.textCopy i (leAt (s.objRead e.sq (e.u 8 8) (e.u 16 4)) 8 4) <;> unfold State.textCopy at hcopy <;> rw [hcopy] <;> rfl

theorem unloadProgram_acts {r : CmdRef} {e : Entry} {i : Fin 8} (ht : e.target = some i) {s : State} {p : Program}
    (hp : s.swatches[i].program (e.u 8 2) = some p) : cmdUnloadProgram.act r e s =
    (((p.copy.map fun q => s.release q (textPages p.len)).getD s).modSw i fun w =>
      { w with programs := w.programs.filter fun x => decide (x.id ≠ p.id) }).ok r := by
  refine (act_onTarget rfl ht r s).trans ?_
  dsimp only
  rw [hp]
  dsimp only
  cases p.copy <;> rfl

/-- Settles O49: memory commands by `allocHanks_host` to `memCopy_acts`, program loads by `loadProgram_acts` and `unloadProgram_acts`. -/
theorem memoryAndProgramCommands : Obligations.MemoryAndProgramCommands := by
  unfold Obligations.MemoryAndProgramCommands
  refine ⟨fun e s s1 => ?_, fun e s s1 i ht => ?_⟩
  · intro r bits count
    refine ⟨fun h => next_dispatch h rfl, fun h a m pool hplace => ⟨fun ht => next_dispatch h (allocHanks_host hplace ht),
        fun ht hp => next_dispatch h (allocHanks_target hplace ht hp),
        fun i p ht hp => next_dispatch h (allocHanks_pool hplace ht hp)⟩,
      fun h k hk => ⟨fun ht => ⟨_, _, next_dispatch h (freeHanks_target hk ht), rfl, zeroRange_hanks _ _ _,
          zeroRange_here (s := s1.dropHank k) _⟩,
        fun ht => ⟨_, _, next_dispatch h (freeHanks_host hk ht), (releaseRuns_releases _ _).read State.hanks, rfl, fun run hrun => ?_⟩⟩,
      fun h hserved hclean hfree => ?_, fun h hread hwrite hclean hfree hsave => ?_⟩
    · exact of_decide_eq_false (releaseRuns_none (sel := fun st => decide (st = .hostHeld k.id)) (decide_eq_false PageSt.noConfusion) run hrun)
    · obtain ⟨halign, hlen⟩ := memFill_aligned (accepts_passed h)
      have hhere (g : Nat) (hg : g ∈ granules (e.u 8 8) (e.u 16 8)) : ServedHere s1 e.target g := by
        obtain ⟨hpiece, hfound, hregion⟩ := hserved g hg
        exact ⟨hpiece, hfound, hregion⟩
      refine ⟨fun hsave => ⟨_, next_dispatch h (memFill_acts hhere hclean hfree), rfl, ?_⟩, fun i ht hsave hbase hown =>
        ⟨_, next_dispatch h (memFill_acts hhere hclean hfree), fun j hlo hhi => ?_⟩⟩
      · rw [foldl_ownMem_unsaved hsave]
        exact memGet_fill hlen s1.mem
      · rw [ht]
        exact savedRun_fills hsave hbase halign _ (fun x hx => hown _ (mem_granules.mpr ⟨x, hx, rfl⟩)) s1.mem ⟨hlo, by omega⟩
    · refine ⟨_, next_dispatch h (memCopy_acts (fun g hg => ?_) (fun g hg => ?_) hclean hfree), rfl, ?_⟩
      · obtain ⟨hpiece, hsound, htwin, hview⟩ := hread g hg
        exact ⟨hpiece, hsound, htwin, hview⟩
      · obtain ⟨hpiece, hfound, hregion⟩ := hwrite g hg
        exact ⟨hpiece, hfound, hregion⟩
      · rw [foldl_ownMem_unsaved hsave]
        exact memGet_copy (memCopy_aligned (accepts_passed h)) s1.mem
  · intro r w
    refine ⟨fun h => ⟨_, (s1.textCopy i (leAt (s1.objRead e.sq (e.u 8 8) (e.u 16 4)) 8 4)).map Prod.fst,
        next_dispatch h (loadProgram_acts ht s1), ?_, ?_, fun j hj => ?_⟩,
      fun h p hp => ⟨_, next_dispatch h (unloadProgram_acts ht hp), ?_, fun hcopy => ?_⟩,
      fun h => next_onTarget (c := cmdLoadStitchMap) rfl ht h rfl⟩
    · rw [putImages_keeps State.swatches fun _ _ _ => rfl, modSw_get, (withCopy_keeps _ _ _).1]
      rfl
    · rw [putImages_keeps State.needles fun _ _ _ => rfl]
      exact (withCopy_keeps _ _ _).2
    · rw [putImages_keeps State.swatches fun _ _ _ => rfl, modSw_get_ne _ hj, (withCopy_keeps _ _ _).1]
    · rw [modSw_get]
      cases p.copy with
      | none => rfl
      | some q => exact congrArg (fun v : Vector Swatch 8 => v[i].programs.filter _) ((release_releases s1 q _).read State.swatches)
    · rw [hcopy]
      rfl

end Sys2Proof.Machine
end

section
/-! SUPPORT. What answers, events and retirements leave of the distaff cores (15 R401): the interrupts that wait may change, no
more. -/
namespace Sys2Proof.Machine
open Sys2Proof

/-- A core without the interrupts that wait for it. -/
def Distaff.calm (c : Distaff) : Distaff := { c with irqPending := 0 }

/-- From s to t every core stayed as it was but for the interrupts that wait. -/
structure CoresKept (s t : State) : Prop where
  same : ∀ d : Fin 4, t.distaffs[d].calm = s.distaffs[d].calm

theorem CoresKept.of_eq {s t : State} (h : t.distaffs = s.distaffs) : CoresKept s t := ⟨fun d => by rw [h]⟩
theorem CoresKept.refl (s : State) : CoresKept s s := .of_eq rfl
theorem CoresKept.trans {s t u : State} (h : CoresKept s t) (k : CoresKept t u) : CoresKept s u :=
  ⟨fun d => (k.same d).trans (h.same d)⟩
/-- What is kept from a state with the same cores. -/
theorem CoresKept.of_same {s t u : State} (k : CoresKept t u) (h : t.distaffs = s.distaffs) : CoresKept s u :=
  (CoresKept.of_eq h).trans k
theorem CoresKept.ite {c : Prop} [Decidable c] {s t u : State} (ht : CoresKept s t) (hu : CoresKept s u) :
    CoresKept s (if c then t else u) := by split <;> assumption
theorem CoresKept.foldl {α : Type} {s : State} {g : State → α → State} (l : List α) (hg : ∀ t x, CoresKept t (g t x)) :
    CoresKept s (l.foldl g s) :=
  List.foldlRecOn l g (motive := CoresKept s) (.refl s) fun _ h x _ => h.trans (hg _ x)

/-- What is read of a core beside the interrupts that wait. -/
theorem CoresKept.read {α : Type} {s t : State} (h : CoresKept s t) (g : Distaff → α) (hg : ∀ c, g c = g c.calm) (d : Fin 4) :
    g t.distaffs[d] = g s.distaffs[d] := by rw [hg, h.same d, ← hg]

theorem raiseLine_coresKept (s : State) (sw line : Nat) : CoresKept s (s.raiseLine sw line) := by
  unfold State.raiseLine
  split
  · next d _ =>
    refine ⟨fun k => ?_⟩
    rw [modDst_distaffs, upd_get]
    split <;> rfl
  · exact .refl s

theorem pumpPort_coresKept (s : State) (p : Fin 10) : CoresKept s (s.pumpPort p) := by
  unfold State.pumpPort
  exact .ite (.of_eq rfl) (.refl s)

theorem transmit_coresKept (s : State) (x : SentTxn) : CoresKept s (s.transmit x) := by
  unfold State.transmit
  exact .ite ((pumpPort_coresKept _ _).of_same rfl) (.refl s)

theorem sendMsg_coresKept (s : State) (p : Fin 10) (code : Nat) (d : List Byte) : CoresKept s (s.sendMsg p code d) :=
  transmit_coresKept s _

theorem relayMsg_coresKept (s : State) (code : Nat) (d : List Byte) : CoresKept s (s.relayMsg code d) := by
  unfold State.relayMsg
  split
  · exact (sendMsg_coresKept s _ _ _).trans (sendMsg_coresKept _ _ _ _)
  · exact .refl s

theorem noteWait_coresKept (s : State) (x : Inj) : CoresKept s (s.noteWait x) := .ite (.of_eq rfl) (.refl s)

theorem injectNow_coresKept (s : State) (x : Inj) (g : Grants) : CoresKept s (s.injectNow x g) :=
  (noteWait_coresKept s x).trans ((transmit_coresKept _ _).of_same rfl)

theorem injectAll_coresKept (s : State) (fuel : Nat) : CoresKept s (s.injectAll fuel) := by
  induction fuel generalizing s with
  | zero => exact .refl s
  | succ fuel ih =>
    unfold State.injectAll
    split
    · exact (injectNow_coresKept s _ _).trans (ih _)
    · exact .refl s

theorem sendAccess_coresKept (s : State) (who : Who) (p : Fin 10) (wire addr : Nat) (op : AccOp) (dest : Dest) (c : TClass)
    (pc : Nat) (control : Bool) : CoresKept s (s.sendAccess who p wire addr op dest c pc control) := by
  have hinject (t : State) : CoresKept t t.inject := .ite (.refl t) (injectAll_coresKept t _)
  exact CoresKept.of_same (s := s) ((hinject _).trans (.of_eq rfl)) rfl

theorem ringStore_coresKept (s : State) (twin : Bool) (scope a : Nat) (d : List Byte) :
    CoresKept s (s.ringStore twin scope a d) := by
  unfold State.ringStore
  split
  · split
    · exact sendAccess_coresKept s _ _ _ _ _ _ _ _ _
    · exact .refl s
  · exact .of_eq rfl

theorem signalVector_coresKept (s : State) (v : Fin 64) : CoresKept s (s.signalVector v) := by
  unfold State.signalVector
  dsimp only
  split
  · exact .foldl _ fun _ _ => .of_eq rfl
  · refine .ite (.of_eq rfl) ?_
    split
    · exact sendMsg_coresKept s _ _ _
    · exact .of_eq rfl

theorem cqSignal_coresKept (s : State) (j : Fin 16) : CoresKept s (s.cqSignal j) := by
  have hcq {t : State} (f : Cq → Cq) (h : CoresKept s t) : CoresKept s (t.modCq j f) := h.trans (.of_eq rfl)
  unfold State.cqSignal
  dsimp only
  refine .ite (.refl s) (.ite (hcq _ (.refl s)) (hcq _ (.ite (.of_eq rfl) (.ite ?_ ?_))))
  · exact raiseLine_coresKept s _ _
  · exact signalVector_coresKept s _

theorem postNow_coresKept (s : State) (j : Fin 16) (e : CEntry) : CoresKept s (s.postNow j e) := by
  unfold State.postNow
  dsimp only
  have htail (f : Cq → Cq) (twin : Bool) (scope a : Nat) (d : List Byte) :
      CoresKept s ((s.ringStore twin scope a d).modCq j f) := (ringStore_coresKept s _ _ _ _).trans (.of_eq rfl)
  exact .ite (htail _ _ _ _ _) ((htail _ _ _ _ _).trans (cqSignal_coresKept _ j))

theorem post_coresKept (s : State) (j : Fin 16) (e : CEntry) : CoresKept s (s.post j e) := by
  unfold State.post
  exact .ite (.refl s) (.ite (postNow_coresKept s j e) (.of_eq rfl))

theorem flushEvents_coresKept (s : State) (f : Fin 2) (k : Nat) : CoresKept s (s.flushEvents f k) := by
  induction k generalizing s with
  | zero => exact .refl s
  | succ k ih =>
    unfold State.flushEvents
    dsimp only
    split
    · exact .ite (CoresKept.of_same ((postNow_coresKept _ _ _).trans (ih _)) rfl) (.refl s)
    · exact .refl s

theorem eventTo_coresKept (s : State) (f : Fin 2) (ev : EventRec) : CoresKept s (s.eventTo f ev) := by
  unfold State.eventTo
  exact .ite (.refl s) (.ite (.of_eq rfl) ((flushEvents_coresKept _ f _).of_same rfl))

theorem event_coresKept (s : State) (kind source status : Nat) (extra : DWord) :
    CoresKept s (s.event kind source status extra) := by
  unfold State.event
  exact .ite (relayMsg_coresKept s _ _) (.foldl _ fun t f => .ite (eventTo_coresKept t f _) (.refl t))

theorem finish_coresKept (s : State) (r : CmdRef) (e : CEntry) : CoresKept s (s.finish r e) := by
  have hjobs : CoresKept s { s with jobs := s.jobs.eraseP fun j => decide (j.1 = r) } := .of_eq rfl
  unfold State.finish
  exact hjobs.trans (.ite (relayMsg_coresKept _ _ _) (.ite (.refl _) ((post_coresKept _ _ _).of_same rfl)))

theorem ok_coresKept (s : State) (r : CmdRef) (res : List (Nat × Nat × Nat)) : CoresKept s (s.ok r res) := finish_coresKept s r _

theorem yardStart_coresKept (s : State) (fuel : Nat) : CoresKept s (s.yardStart fuel) := by
  induction fuel generalizing s with
  | zero => exact .refl s
  | succ fuel ih =>
    unfold State.yardStart
    split
    · next u rest _ _ =>
      refine CoresKept.of_same (t := s.modTally fun t => { t with waiting := rest }) ?_ rfl
      refine .ite (.trans ?_ (ih _)) (.ite (.trans ?_ (ih _)) ?_)
      · split
        · exact ok_coresKept _ _ _
        · exact .refl _
      · exact .ite (.of_eq rfl) (.refl _)
      · exact .of_eq rfl
    · exact .refl s

theorem addEntry_coresKept (s : State) (kind : Fin 5) (num bankRow source : Nat) :
    CoresKept s (s.addEntry kind num bankRow source) := by
  have hyard (t : State) : CoresKept t (t.yardP 3 1) := .ite ((yardStart_coresKept _ _).of_same rfl) (.refl t)
  unfold State.addEntry
  refine .ite (.refl s) (.trans ?_ ((hyard _).trans (event_coresKept _ _ _ _ _)))
  exact .ite (.of_eq rfl) (.of_eq rfl)

theorem freeRange_distaffs (s : State) (b c : Nat) : (s.freeRange b c).distaffs = s.distaffs := by
  unfold State.freeRange
  refine (foldl_keeps State.distaffs _ ?_ _ _).trans rfl
  exact fun _ _ => rfl

theorem release_coresKept (s : State) (b c : Nat) : CoresKept s (s.release b c) :=
  .trans (.of_eq (freeRange_distaffs s b c)) (.foldl _ fun t _ => (addEntry_coresKept t _ _ _ _).trans (.of_eq rfl))

/-- Pages without an error are freed and nothing is reported. -/
theorem release_sound {s : State} (h : s.badPages = []) (b c : Nat) : s.release b c = s.freeRange b c := by
  unfold State.release
  rw [h]
  rfl

end Sys2Proof.Machine
end

section
/-! SUPPORT. Cores granted and returned (15 R394, R404), and drafts committed, copied and frogged (08 R212, R213). -/
namespace Sys2Proof.Machine
open Sys2Proof Sys2Proof.Safety

/-! ### Cores granted and returned -/

/-- The record page a grant of a core takes, and the state after it (R404). -/
def State.recordTaken (s : State) (i : Fin 8) : Option (Nat × State) := if s.nStacks = 0 then none else s.takeFirmware 1 (some i)
def State.withRecord (s : State) (i : Fin 8) : State := match s.recordTaken i with
  | some g => g.2
  | none => s

theorem withRecord_keeps (s : State) (i : Fin 8) :
    (s.withRecord i).swatches = s.swatches ∧ (s.withRecord i).distaffs = s.distaffs := by
  unfold State.withRecord State.recordTaken State.takeFirmware
  split
  · next g hg =>
    split at hg
    · exact absurd hg.symm (Option.some_ne_none g)
    · obtain ⟨a, -, rfl⟩ := Option.map_eq_some_iff.mp hg
      exact ⟨rfl, rfl⟩
  · exact ⟨rfl, rfl⟩

/-- A core as it is granted (R394). -/
def Distaff.grantedTo (c : Distaff) (i : Fin 8) (held : Bool) (pc : Nat) (page : Option Nat) : Distaff := { Distaff.reset with
  st := if held then .halted else .running, granted := some i, resetPc := c.resetPc, saved := held
  pc := BitVec.ofNat 64 pc
  x := ((Vector.replicate 32 (0 : DWord)).set 10 (BitVec.ofNat 64 i.val)).set 11 (BitVec.ofNat 64 (swtBase i))
  recordPage := page }

/-- Lines of host-held pages written back and dropped. -/
def State.hostFlushed (s : State) : State := s.flushCache fun a => match s.pageSt (pageOf a) with
  | .hostHeld _ => true
  | _ => false

/-- A core granted, before the interrupts that wait for it are raised. -/
def State.coreGranted (s : State) (i : Fin 8) (d : Fin 4) (pc : Nat) : State :=
  (s.withRecord i).hostFlushed.modDst d fun c =>
    c.grantedTo i (decide ((s.withRecord i).swatches[i].st = .held)) pc ((s.recordTaken i).map Prod.fst)

/-- The line of a completion ring raised at the core granted to a swatch (R401). -/
def State.raiseRing (i : Fin 8) (s : State) (j : Fin 16) : State := s.raiseLine i.val (fld s.cqs[j].cfg 7 4)

theorem coreGranted_core (s : State) (i : Fin 8) (d : Fin 4) (pc : Nat) : (s.coreGranted i d pc).distaffs[d] =
    (s.distaffs[d]).grantedTo i (decide (s.swatches[i].st = .held)) pc ((s.recordTaken i).map Prod.fst) := by
  obtain ⟨hsw, hdst⟩ := withRecord_keeps s i
  have hupd : (s.coreGranted i d pc).distaffs[d] = ((s.withRecord i).distaffs[d]).grantedTo i
      (decide ((s.withRecord i).swatches[i].st = .held)) pc ((s.recordTaken i).map Prod.fst) :=
    (upd_get _ _ _ _).trans (if_pos rfl)
  rw [hupd, hsw, hdst]

/-- A granted core, beside the interrupts that wait for it, is as the grant makes it. -/
theorem grantDistaff_grants {e : Entry} {i : Fin 8} (ht : e.target = some i) (r : CmdRef) (s : State) :
    ∃ u : State, cmdGrantDistaff.act r e s = u.ok r ∧ u.swatches = s.swatches ∧
      let d : Fin 4 := Fin.ofNat 4 (e.u 8 1)
      (u.distaffs[d]).calm = (s.distaffs[d]).grantedTo i (decide (s.swatches[i].st = .held)) (e.u 16 8)
        ((s.recordTaken i).map Prod.fst) := by
  let t : State := s.coreGranted i (Fin.ofNat 4 (e.u 8 1)) (e.u 16 8)
  have hcore (l : List (Fin 16)) : CoresKept t (l.foldl (State.raiseRing i) t) := .foldl l fun u j => raiseLine_coresKept u _ _
  have hsw (l : List (Fin 16)) : (l.foldl (State.raiseRing i) t).swatches = t.swatches :=
    foldl_keeps State.swatches _ (fun u j => (raiseLine_sends u _ _).read State.swatches) l t
  refine ⟨_, act_onTarget (c := cmdGrantDistaff) rfl ht r s, (hsw _).trans (withRecord_keeps s i).1, ?_⟩
  exact ((hcore _).same _).trans (congrArg Distaff.calm (coreGranted_core s i _ _))

/-- The state a core is returned in, before its page is free and its registers are zeroed (R394). -/
def State.coreEnded (s : State) (d : Fin 4) (i : Fin 8) : State := { s.flushCache (s.inPrivate i) with
  accesses := s.accesses.map fun a => if a.who = .distaff d then { a with dest := .none, live := false } else a }
/-- The record page of a core freed. -/
def State.pageFreed (s : State) (p : Option Nat) : State := match p with
  | some p => s.release p 1
  | none => s
/-- A core halted, or off, that keeps nothing but its reset address (R394). -/
def Distaff.returned (c : Distaff) : Distaff := { Distaff.reset with
  st := if c.st = .off then .off else .halted, resetPc := c.resetPc }

theorem returnCore_granted {s : State} {d : Fin 4} {i : Fin 8} (h : s.distaffs[d].granted = some i) :
    s.returnCore d true = ((s.coreEnded d i).pageFreed s.distaffs[d].recordPage).modDst d Distaff.returned := by
  unfold State.returnCore
  dsimp only
  rw [h]
  dsimp only
  cases s.distaffs[d].recordPage <;> rfl

theorem pageFreed_coresKept (s : State) (p : Option Nat) : CoresKept s (s.pageFreed p) := by
  cases p with
  | none => exact .refl s
  | some p => exact release_coresKept s p 1

theorem pageFreed_distaffs {s : State} (h : s.badPages = []) (p : Option Nat) : (s.pageFreed p).distaffs = s.distaffs := by
  cases p with
  | none => rfl
  | some p =>
    refine (congrArg State.distaffs (release_sound h p 1)).trans ?_
    exact freeRange_distaffs s p 1

/-- A returned core keeps its reset address alone, and where no page has an error no other core changes. -/
theorem returnCore_returns {s : State} {d : Fin 4} {i : Fin 8} (h : s.distaffs[d].granted = some i) :
    (s.returnCore d true).distaffs[d] = (s.distaffs[d]).returned ∧
    (s.badPages = [] → ∀ c : Fin 4, c ≠ d → (s.returnCore d true).distaffs[c] = s.distaffs[c]) := by
  rw [returnCore_granted h]
  have hkept := pageFreed_coresKept (s.coreEnded d i) s.distaffs[d].recordPage
  refine ⟨?_, fun hbad c hc => ?_⟩
  · refine ((upd_get _ _ _ _).trans (if_pos rfl)).trans ?_
    exact hkept.read Distaff.returned (fun _ => rfl) d
  · refine (upd_get_ne _ hc.symm _).trans ?_
    rw [pageFreed_distaffs (s := s.coreEnded d i) hbad]
    rfl

/-! ### Drafts -/

/-- A single draft of no parent commits its own positions alone. -/
theorem commitDraft_alone {w : Swatch} {d : Draft} (n : Nat) (hone : w.drafts = [d]) (hroot : d.parent = 0) (hid : d.id ≠ 0) :
    let ps := d.tentative.filter fun p => decide (p.toNat < n)
    w.commitDraft d.id n = ({ w with drafts :=
        [{ d with committed := d.committed ++ ps, slots := d.slots.filter fun y => !ps.contains y.pos }] }, 0 + ps.length,
      [] ++ (d.slots.filter fun y => ps.contains y.pos).map fun y => (y.row, y.slot)) := by
  intro ps
  have hown : w.draft d.id = some d := by unfold Swatch.draft; rw [hone]; simp
  have hnone : w.draft d.parent = none := by unfold Swatch.draft; rw [hone, hroot]; simp [show ¬d.id = 0#8 from hid]
  have hchain : w.draftChain d.id 64 = [d] := by
    simp only [Swatch.draftChain, hown, hnone]
  have hput (d' : Draft) (h : d'.id = d.id) : w.putDraft d' = { w with drafts := [d'] } := by
    unfold Swatch.putDraft
    rw [hone]
    simp [h]
  have hpos : w.commitPositions d.id (fun p => decide (p.toNat < n)) = ({ w with drafts :=
        [{ d with committed := d.committed ++ ps, slots := d.slots.filter fun y => !ps.contains y.pos }] }, ps.length,
      (d.slots.filter fun y => ps.contains y.pos).map fun y => (y.row, y.slot)) := by
    unfold Swatch.commitPositions
    rw [hown]
    exact Prod.ext (hput _ rfl) rfl
  unfold Swatch.commitDraft
  rw [hchain]
  exact congrArg (fun x : Swatch × Nat × List (Nat × Nat) => (x.1, 0 + x.2.1, [] ++ x.2.2)) hpos

/-! ### A slot copied into its row (R212) -/

/-- What a copy takes from each granule of its slot. -/
def slotBytes (m : List (Nat × Byte)) (src k : Nat) : List Byte := memRead m (src + 32 * k) 32

/-- One granule of a slot copied into its row. -/
def State.copyGranule (src dst : Nat) (s : State) (k : Nat) : State :=
  if s.isBad (src + 32 * k) then
    { s with poison := if s.poison.contains (dst + 32 * k) then s.poison else s.poison ++ [dst + 32 * k] }
  else s.put (dst + 32 * k) ((memRead s.mem (src + 32 * k) 32).map some)

theorem copyRow_eq (s : State) (src dst : Nat) : s.copyRow src dst = (List.range 8).foldl (State.copyGranule src dst) s := rfl

/-- The first granules of a row written with what the slot held. -/
def copiedMem (m : List (Nat × Byte)) (src dst n : Nat) : List (Nat × Byte) :=
  (runOf dst n (slotBytes m src)).foldl (fun m x => memWrite m x.1 x.2) m

theorem memGet_copiedMem (m : List (Nat × Byte)) (src dst n j : Nat) : memGet (copiedMem m src dst n) j =
    if dst ≤ j ∧ j < dst + 32 * n then memGet m (src + (j - dst)) else memGet m j := by
  refine (memGet_run m dst n (fun _ => memRead_length _ _ _) j).trans ?_
  split
  · next hj =>
    refine (memRead_getD _ _ _ _ (by omega)).trans (congrArg (memGet m) ?_)
    omega
  · rfl

theorem copiedMem_succ (m : List (Nat × Byte)) (src dst n : Nat) : copiedMem m src dst (n + 1) =
    memWrite (copiedMem m src dst n) (dst + 32 * n) (slotBytes m src n) := by
  unfold copiedMem
  rw [runOf_succ, List.foldl_append]
  rfl

/-- Rows and slots without an error are copied granule by granule. -/
theorem copyRow_clean {s : State} (hc : s.poison = []) {src dst : Nat} (hfound : ∀ j, j < 256 → s.onLost (src + j) = false)
    (hapart : src + 256 ≤ dst ∨ dst + 256 ≤ src) : s.copyRow src dst = s.withMem (copiedMem s.mem src dst 8) := by
  have hstep {n : Nat} (hn : n < 8) : (s.withMem (copiedMem s.mem src dst n)).copyGranule src dst n =
      s.withMem (copiedMem s.mem src dst (n + 1)) := by
    have hgood : (s.withMem (copiedMem s.mem src dst n)).isBad (src + 32 * n) = false := by
      unfold State.isBad
      rw [show (s.withMem (copiedMem s.mem src dst n)).poison = [] from hc]
      exact hfound _ (by omega)
    have hsame : memRead (copiedMem s.mem src dst n) (src + 32 * n) 32 = slotBytes s.mem src n := by
      refine memRead_eq (memRead_length _ _ _) fun k hk => ?_
      rw [memGet_copiedMem, if_neg (by omega)]
      exact (memRead_getD _ _ _ _ hk).symm
    refine (if_neg (by rw [hgood]; exact Bool.false_ne_true)).trans ?_
    rw [put_bytes (s := s.withMem (copiedMem s.mem src dst n)) hc, copiedMem_succ]
    exact congrArg (fun b => s.withMem (memWrite (copiedMem s.mem src dst n) (dst + 32 * n) b)) hsame
  have hsteps (n : Nat) (hn : n ≤ 8) :
      (List.range n).foldl (State.copyGranule src dst) s = s.withMem (copiedMem s.mem src dst n) := by
    induction n with
    | zero => rfl
    | succ n ih =>
      rw [List.range_succ, List.foldl_append, ih (by omega)]
      exact hstep hn
  rw [copyRow_eq, hsteps 8 (Nat.le_refl 8)]

/-! ### The end of a commit's copies -/

theorem copiesDone_idle {s : State} {i : Fin 8} (h : s.swatches[i].copies = []) : copiesDone i s = s := by
  unfold copiesDone
  dsimp only
  rw [h]

section Copies
variable {s : State} {i : Fin 8} {r : CmdRef} {l : List (Nat × Nat)} {n left : Nat}
  {rest : List (CmdRef × List (Nat × Nat) × Nat × Nat)} (h : s.swatches[i].copies = (r, l, n, left) :: rest)

/-- A swatch whose oldest commit has ended. -/
def Swatch.commitEnded (w : Swatch) (l : List (Nat × Nat)) (rest : List (CmdRef × List (Nat × Nat) × Nat × Nat)) : Swatch :=
  { w with copies := rest, poolUsed := w.poolUsed.filter fun k => !(l.map Prod.snd).contains k }

/-- The copies of a commit that lie in KV ranges. -/
def State.copyAll (s : State) (i : Fin 8) (l : List (Nat × Nat)) : State :=
  (l.filter fun x => s.inKv i x.1).foldl (fun t x => t.copyRow (s.swatches[i].slotAddr x.2) x.1) s

include h

theorem copiesDone_waits (hbusy : ∃ x ∈ l, s.portTouches x.1 256 = true ∨ s.portTouches (s.swatches[i].slotAddr x.2) 256 = true) :
    copiesDone i s = s := by
  unfold copiesDone
  dsimp only
  rw [h]
  refine if_pos (List.any_eq_true.mpr ?_)
  obtain ⟨x, hx, hb⟩ := hbusy
  exact ⟨x, hx, by rw [Bool.or_eq_true]; exact hb⟩

theorem copiesDone_ends (hfree : ∀ x ∈ l, s.portTouches x.1 256 = false ∧ s.portTouches (s.swatches[i].slotAddr x.2) 256 = false) :
    copiesDone i s = ((s.copyAll i l).modSw i fun w => w.commitEnded l rest).ok r [(20, 2, n), (22, 1, left)] := by
  unfold copiesDone
  dsimp only
  rw [h]
  refine if_neg ?_
  rw [List.any_eq_true]
  rintro ⟨x, hx, hb⟩
  obtain ⟨hrow, hslot⟩ := hfree x hx
  rw [hrow, hslot] at hb
  exact Bool.false_ne_true hb

end Copies

theorem withMem_frame (s : State) (m : List (Nat × Byte)) :
    (s.withMem m).swatches = s.swatches ∧ (s.withMem m).needles = s.needles := ⟨rfl, rfl⟩

theorem copyAll_nil (s : State) (i : Fin 8) : s.copyAll i [] = s := rfl

/-- A single row's slot, copied. -/
theorem copyAll_one {s : State} {i : Fin 8} {row k : Nat} (hkv : s.inKv i row = true) :
    s.copyAll i [(row, k)] = s.copyRow (s.swatches[i].slotAddr k) row := by
  unfold State.copyAll
  rw [List.filter_cons_of_pos (p := fun x : Nat × Nat => s.inKv i x.1) (a := (row, k)) hkv, List.filter_nil, List.foldl_cons, List.foldl_nil]

/-- As many slots are counted as the drafts that go hold. -/
theorem frog_slots (w : Swatch) (ids : List Byte) :
    (w.frog ids).2.2 = ((w.drafts.filter fun d => ids.contains d.id).flatMap fun d => d.slots).length := by
  unfold Swatch.frog
  dsimp only
  rw [List.length_flatMap, List.length_flatMap]
  simp only [List.length_map]

/-- FROG_DRAFT on a swatch: its drafts go with their slots, and both counts are answered (R213). -/
theorem frogDraft_acts {e : Entry} {i : Fin 8} (ht : e.target = some i) (r : CmdRef) (s : State) :
    let w := s.swatches[i]
    let ids := w.below (BitVec.ofNat 8 (e.u 8 1))
    let mine := w.drafts.filter fun d => ids.contains d.id
    cmdFrogDraft.act r e s = (s.modSw i fun _ => (w.frog ids).1).ok r
      [(20, 2, sumN (mine.map fun d => d.tentative.length)), (24, 4, (mine.flatMap fun d => d.slots).length)] := by
  intro w ids mine
  rw [← frog_slots w ids]
  exact act_onTarget (c := cmdFrogDraft) rfl ht r s

/-- What QUERY_SWATCH answers of a swatch and its skeins (R150). -/
def Swatch.answer (w : Swatch) (mask : Nat) : List (Nat × Nat × Nat) :=
  [(20, 1, w.st.code.toNat), (21, 1, w.cls.code.toNat), (22, 1, w.ppoint.toNat), (23, 1, b2n w.near),
   (24, 2, mask), (26, 1, (w.causes.head?.getD 0).toNat), (27, 1, w.drafts.length),
   (28, 4, w.overruns.toNat), (32, 8, w.lastRow.toNat), (40, 1, fld w.status 7 0)]

/-- A swatch that is cast is one that is not unset. -/
theorem castMask_eq (w : Swatch) :
    (if w.isCast then w.mask.toNat else 0) = if w.st ≠ .unset then w.mask.toNat else 0 := by
  unfold Swatch.isCast
  cases w.st <;> rfl

theorem querySwatch_acts {e : Entry} {i : Fin 8} (ht : e.target = some i) (r : CmdRef) (s : State) :
    cmdQuerySwatch.act r e s =
      s.ok r (s.swatches[i].answer (if s.swatches[i].st ≠ .unset then s.swatches[i].mask.toNat else 0)) :=
  (act_onTarget (c := cmdQuerySwatch) rfl ht r s).trans
    (congrArg (fun m => s.ok r (s.swatches[i].answer m)) (castMask_eq s.swatches[i]))

/-- The argument registers of a granted core (R404): x10 and x11, and no other. -/
theorem grantedTo_args (c : Distaff) (i : Fin 8) (held : Bool) (pc : Nat) (page : Option Nat) :
    (c.grantedTo i held pc page).x[10] = BitVec.ofNat 64 i.val ∧
    (c.grantedTo i held pc page).x[11] = BitVec.ofNat 64 (swtBase i) ∧
    ∀ k : Fin 32, k.val ≠ 10 → k.val ≠ 11 → (c.grantedTo i held pc page).x[k] = 0 := by
  unfold Distaff.grantedTo
  refine ⟨by simp, by simp, fun k h10 h11 => ?_⟩
  simp only [Fin.getElem_fin]
  rw [Vector.getElem_set_ne _ _ (Ne.symm h11), Vector.getElem_set_ne _ _ (Ne.symm h10), Vector.getElem_replicate]

/-- RETURN_DISTAFF goes by the core alone: it is granted to the entry's swatch. -/
theorem returnDistaff_granted {scope : Nat} {e : Entry} {s : State} (h : Passed cmdReturnDistaff scope e s) {i : Fin 8}
    (ht : e.target = some i) : s.distaffs[(Fin.ofNat 4 (e.u 8 1) : Fin 4)].granted = some i := by
  have hstate := h.state
  by_contra hother
  refine absurd hstate ?_
  have hno : ¬ (s.distaffs[(Fin.ofNat 4 (e.u 8 1) : Fin 4)].granted = e.target ∧ e.target.isSome) := fun hboth =>
    hother (hboth.1.trans ht)
  exact fun hnone => Option.some_ne_none _ ((if_neg hno).symm.trans hnone)

/-- Settles O48: the commands through their equations, the cores through what keeps them (`CoresKept`), and the copies
granule by granule (`copyRow_clean`). -/
theorem swatchSettingsAndDrafts : Obligations.SwatchSettingsAndDrafts := by
  unfold Obligations.SwatchSettingsAndDrafts
  refine ⟨fun e s s1 i ht => ?_, fun s i => ⟨fun hnone => ?_, ?_⟩, fun w d n hone hroot hid => ?_⟩
  · intro r w
    refine ⟨fun h => next_dispatch h (querySwatch_acts ht r s1), fun h => next_onTarget (c := cmdSetSwatchPpoint) rfl ht h rfl,
      fun h => next_onTarget (c := cmdSetSwatchGauge) rfl ht h rfl, fun h => ?_, fun h => ?_,
      fun h => next_onTarget (c := cmdCommitDraft) rfl ht h rfl, fun h => ?_⟩
    · obtain ⟨u, hu, hsw, hcore⟩ := grantDistaff_grants ht r s1
      refine ⟨u, next_dispatch h hu, ?_⟩
      intro c
      have hread {α : Type} (g : Distaff → α) (hg : ∀ c, g c = g c.calm) := (hg c).trans (congrArg g hcore)
      have hx := hread Distaff.x fun _ => rfl
      obtain ⟨h10, h11, h0⟩ := grantedTo_args (s1.distaffs[(Fin.ofNat 4 (e.u 8 1) : Fin 4)]) i
        (decide (s1.swatches[i].st = .held)) (e.u 16 8) ((s1.recordTaken i).map Prod.fst)
      rw [← hx] at h10 h11 h0
      refine ⟨hread Distaff.granted fun _ => rfl, ?_, hread Distaff.pc fun _ => rfl, h10, h11, h0,
        hread Distaff.f fun _ => rfl, hread Distaff.mode fun _ => rfl, hread Distaff.resetPc fun _ => rfl⟩
      refine (hread Distaff.st fun _ => rfl).trans ?_
      simp only [Distaff.grantedTo, decide_eq_true_eq]
      rfl
    · obtain ⟨hcore, hothers⟩ := returnCore_returns (returnDistaff_granted (accepts_passed h) ht)
      exact ⟨_, next_dispatch h rfl, hcore, hothers⟩
    · refine ⟨s1.modSw i fun _ => (w.frog (w.below (BitVec.ofNat 8 (e.u 8 1)))).1, ?_, ?_, rfl, ?_⟩
      · exact next_dispatch h (frogDraft_acts ht r s1)
      · rw [modSw_get]
        rfl
      · rw [modSw_get]
        rfl
  · exact congrArg Host.Outcome.next (copiesDone_idle hnone)
  · intro r l n left rest hfirst done
    refine ⟨fun hbusy => congrArg Host.Outcome.next (copiesDone_waits hfirst hbusy), fun hl => ?_, ?_⟩
    · subst hl
      have hend := copiesDone_ends hfirst fun x hx => absurd hx List.not_mem_nil
      rw [copyAll_nil] at hend
      exact congrArg Host.Outcome.next hend
    · intro row k src hl hrow hslot hkv hpoison _ hfound hapart
      subst hl
      obtain ⟨hsw, hneedles⟩ := withMem_frame s (copiedMem s.mem src row 8)
      refine ⟨s.withMem (copiedMem s.mem src row 8), ?_, hsw, hneedles, memGet_copiedMem s.mem src row 8⟩
      refine congrArg Host.Outcome.next ((copiesDone_ends hfirst fun x hx => ?_).trans ?_)
      · rw [List.mem_singleton] at hx
        rw [hx]
        exact ⟨hrow, hslot⟩
      · rw [copyAll_one hkv, copyRow_clean hpoison (fun j hj => (hfound j hj).1) hapart]
        rfl
  · rw [commitDraft_alone n hone hroot hid]
    intro ps x
    exact ⟨Nat.zero_add _, rfl, rfl⟩

end Sys2Proof.Machine
end

section
/-! SUPPORT. Card programs loaded whole (06 R159; 13 R365, R366). -/
namespace Sys2Proof.Machine
open Sys2Proof Sys2Proof.Safety

/-! ### What an object leaves in a carder (R365) -/

/-- Records put into the slots they name. -/
def putRecords (v : Vector (List Byte) 16) (l : List (List Byte)) : Vector (List Byte) 16 :=
  l.foldl (fun v x => v.set (Fin.ofNat 16 (leAt x 0 1)) x) v

theorem load_slots (c : Carder) (b : List Byte) : (c.load b).slots = putRecords c.slots (cardRecords b (leAt b 6 1) 32).1 := by
  unfold Carder.load
  dsimp only
  split <;> split <;> rfl

theorem load_params (c : Carder) (b : List Byte) (j : Fin 2048) : (c.load b).params[j] =
    if leAt b 10 2 ≤ j.val ∧ j.val < leAt b 10 2 + leAt b 8 2 then
      BitVec.ofNat 32 (leAt b ((cardRecords b (leAt b 6 1) 32).2 + 4 * (j.val - leAt b 10 2)) 4)
    else c.params[j] := by
  have hkept : (c.load b).params = mapV c.params fun i w =>
      if leAt b 10 2 ≤ i.val ∧ i.val < leAt b 10 2 + leAt b 8 2 then
        BitVec.ofNat 32 (leAt b ((cardRecords b (leAt b 6 1) 32).2 + 4 * (i.val - leAt b 10 2)) 4) else w := by
    unfold Carder.load
    dsimp only
    split <;> split <;> rfl
  rw [hkept]
  exact mapV_get _ _ j

/-- A record's slot number is below 16. -/
theorem slotOf_eq_iff {n : Nat} {j : Fin 16} (h : n ≤ 15) : (Fin.ofNat 16 n : Fin 16) = j ↔ n = j.val := by
  rw [Fin.ext_iff]
  show n % 16 = j.val ↔ _
  rw [Nat.mod_eq_of_lt (by omega)]

theorem putRecords_other (v : Vector (List Byte) 16) {l : List (List Byte)} {j : Fin 16}
    (h : ∀ r ∈ l, leAt r 0 1 ≤ 15 ∧ leAt r 0 1 ≠ j.val) : (putRecords v l)[j] = v[j] := by
  induction l generalizing v with
  | nil => rfl
  | cons x l ih =>
    obtain ⟨hle, hne⟩ := h x List.mem_cons_self
    refine (ih _ fun r hr => h r (List.mem_cons_of_mem x hr)).trans ?_
    exact Vector.getElem_set_ne _ _ fun hx => hne ((slotOf_eq_iff hle).mp (Fin.ext hx))

/-- Records of different slots each stand in their own. -/
theorem putRecords_own (v : Vector (List Byte) 16) {l : List (List Byte)} (hle : ∀ r ∈ l, leAt r 0 1 ≤ 15)
    (hnodup : (l.map fun r => leAt r 0 1).Nodup) {r : List Byte} (hr : r ∈ l) :
    (putRecords v l)[(Fin.ofNat 16 (leAt r 0 1) : Fin 16)] = r := by
  induction l generalizing v with
  | nil => exact absurd hr List.not_mem_nil
  | cons x l ih =>
    rw [List.map_cons, List.nodup_cons] at hnodup
    obtain ⟨hfresh, hnodup⟩ := hnodup
    rcases List.mem_cons.mp hr with rfl | hmem
    · refine (putRecords_other (v.set (Fin.ofNat 16 (leAt r 0 1) : Fin 16) r) fun y hy => ?_).trans (Vector.getElem_set_self _)
      refine ⟨hle y (List.mem_cons_of_mem r hy), fun heq => hfresh (List.mem_map.mpr ⟨y, hy, heq.trans ?_⟩)⟩
      exact Nat.mod_eq_of_lt (Nat.lt_succ_of_le (hle r List.mem_cons_self))
    · exact ih _ (fun y hy => hle y (List.mem_cons_of_mem x hy)) hnodup hmem

/-- A carder with other loads that wait. -/
def Carder.withLoads (c : Carder) (l : List (CmdRef × List Byte)) : Carder := { c with loads := l }

theorem load_withLoads (c : Carder) (b : List Byte) (l : List (CmdRef × List Byte)) :
    (c.withLoads l).load b = (c.load b).withLoads l := by
  unfold Carder.load
  dsimp only
  split <;> split <;> rfl

theorem load_loads (c : Carder) (b : List Byte) : (c.load b).loads = c.loads := by
  unfold Carder.load
  dsimp only
  split <;> split <;> rfl

theorem withLoads_self (c : Carder) : c.withLoads c.loads = c := rfl

/-- A load that waited, carried out. -/
theorem load_waited {c : Carder} (h : c.loads = []) (r : CmdRef) (b : List Byte) :
    ((c.withLoads [(r, b)]).load b).withLoads [] = c.load b := by
  rw [load_withLoads]
  exact (congrArg (c.load b).withLoads ((load_loads c b).trans h).symm).trans (withLoads_self _)

/-! ### Edge carders (R366) -/

/-- s with other edge carders. -/
def State.withEdges (s : State) (v : Vector Carder 10) : State := { s with edgeCarders := v }

/-- An edge carder without a load that waits, or with a job, stays. -/
theorem loadsAt_stays {s : State} {p : Fin 10} (h : (s.edgeCarders[p]).loads = [] ∨ (s.viewJob p).isSome = true) :
    s.loadsAt p = s := by
  unfold State.loadsAt
  refine if_pos ?_
  rcases h with h | h
  · rw [h]; rfl
  · rw [Bool.or_eq_true]; exact .inr h

theorem withEdges_stays {s : State} {u : Vector Carder 10} {p : Fin 10} (h : u[p].loads = [] ∨ (s.viewJob p).isSome = true) :
    (s.withEdges u).loadsAt p = s.withEdges u := loadsAt_stays (s := s.withEdges u) h

/-- A load that waits alone is carried out on an edge carder without a job; the command is answered with its last carder. -/
theorem withEdges_loads {s : State} {u v : Vector Carder 10} {p : Fin 10} {r : CmdRef} {b : List Byte}
    (h : u[p].loads = [(r, b)]) (hjob : s.viewJob p = none) (hv : upd u p (fun c => (c.load b).withLoads []) = v) :
    (s.withEdges u).loadsAt p = if (s.withEdges v).loadDue r then s.withEdges v else (s.withEdges v).ok r := by
  subst hv
  have hone : ((s.withEdges u).edgeCarders[p]).loads = [(r, b)] := h
  have hfree : ¬ (([(r, b)] : List (CmdRef × List Byte)).isEmpty || (s.withEdges u).viewBusy p) = true := by
    rw [show (s.withEdges u).viewBusy p = (s.viewJob p).isSome from rfl, hjob]
    exact Bool.false_ne_true
  unfold State.loadsAt
  dsimp only
  rw [hone]
  exact if_neg hfree

section Stages
variable (v : Vector Carder 10) (named todo : List (Fin 10)) (r : CmdRef) (b : List Byte)

/-- The edge carders while an object is loaded: those still to come wait with it, the others named have it. -/
def loadingEdges : Vector Carder 10 := mapV v fun p c =>
  if p ∈ named then (if p ∈ todo then c.withLoads [(r, b)] else c.load b) else c

variable {v named todo r b} {p : Fin 10}

theorem loadingEdges_get : (loadingEdges v named todo r b)[p] =
    if p ∈ named then (if p ∈ todo then v[p].withLoads [(r, b)] else v[p].load b) else v[p] := mapV_get _ _ p

theorem loadingEdges_waits (hp : p ∈ named) (ht : p ∈ todo) : (loadingEdges v named todo r b)[p] = v[p].withLoads [(r, b)] := by
  rw [loadingEdges_get, if_pos hp, if_pos ht]

theorem loadingEdges_idle (h : ∀ p : Fin 10, v[p].loads = []) (hp : ¬ (p ∈ named ∧ p ∈ todo)) :
    (loadingEdges v named todo r b)[p].loads = [] := by
  rw [loadingEdges_get]
  split
  · next hn =>
    rw [if_neg fun ht => hp ⟨hn, ht⟩, load_loads]
    exact h p
  · exact h p

/-- Only the named carders still to come matter. -/
theorem loadingEdges_congr {rest : List (Fin 10)} (h : ∀ p ∈ named, p ∈ todo ↔ p ∈ rest) :
    loadingEdges v named todo r b = loadingEdges v named rest r b := by
  refine Vector.ext fun k hk => ?_
  refine (loadingEdges_get (p := ⟨k, hk⟩)).trans (Eq.trans ?_ (loadingEdges_get (p := ⟨k, hk⟩)).symm)
  split
  · next hn => rw [if_congr (h _ hn) rfl rfl]
  · rfl

/-- One of them carried out. -/
theorem loadingEdges_next {rest : List (Fin 10)} (h : ∀ p : Fin 10, v[p].loads = []) (hp : p ∈ named) (ht : p ∈ todo)
    (hrest : ∀ q, q ∈ rest ↔ q ∈ todo ∧ q ≠ p) :
    upd (loadingEdges v named todo r b) p (fun c => (c.load b).withLoads []) = loadingEdges v named rest r b := by
  refine Vector.ext fun k hk => ?_
  refine (upd_get _ p ⟨k, hk⟩ _).trans (Eq.trans ?_ (loadingEdges_get (p := ⟨k, hk⟩)).symm)
  split
  · next heq =>
    subst heq
    rw [loadingEdges_waits hp ht, load_waited (h _), if_pos hp, if_neg fun hr => ((hrest _).mp hr).2 rfl]
  · next hne =>
    have hsame : (⟨k, hk⟩ : Fin 10) ∈ rest ↔ (⟨k, hk⟩ : Fin 10) ∈ todo :=
      (hrest _).trans ⟨And.left, fun hq => ⟨hq, fun heq => hne heq.symm⟩⟩
    rw [loadingEdges_get, if_congr hsame rfl rfl]

variable {s : State}

/-- The command has a load to come as long as a named carder is to come. -/
theorem loadDue_loadingEdges (h : ∀ p : Fin 10, v[p].loads = []) :
    (s.withEdges (loadingEdges v named todo r b)).loadDue r = true ↔ ∃ p ∈ named, p ∈ todo := by
  unfold State.loadDue
  rw [List.any_eq_true]
  constructor
  · rintro ⟨p, -, hp⟩
    by_contra hnone
    have hidle : ((s.withEdges (loadingEdges v named todo r b)).edgeCarders[p]).loads = [] :=
      loadingEdges_idle h fun hboth => hnone ⟨p, hboth⟩
    rw [hidle] at hp
    exact Bool.false_ne_true hp
  · rintro ⟨p, hn, ht⟩
    refine ⟨p, List.mem_finRange p, ?_⟩
    have hwaits : ((s.withEdges (loadingEdges v named todo r b)).edgeCarders[p]).loads = [(r, b)] :=
      congrArg Carder.loads (loadingEdges_waits hn ht)
    rw [hwaits]
    simp

/-- A carder without a job carries its load out, and the command is answered when it was the last. -/
theorem loadsAt_next {rest : List (Fin 10)} (h : ∀ p : Fin 10, v[p].loads = []) (hjob : s.viewJob p = none)
    (hp : p ∈ named) (ht : p ∈ todo) (hrest : ∀ q, q ∈ rest ↔ q ∈ todo ∧ q ≠ p) :
    (s.withEdges (loadingEdges v named todo r b)).loadsAt p =
      if (s.withEdges (loadingEdges v named rest r b)).loadDue r then s.withEdges (loadingEdges v named rest r b)
      else (s.withEdges (loadingEdges v named rest r b)).ok r :=
  withEdges_loads (congrArg Carder.loads (loadingEdges_waits hp ht)) hjob (loadingEdges_next h hp ht hrest)

/-- Carders of no load stay, and so does what was answered. -/
theorem loadsAt_none {t : State} {l : List (Fin 10)} (h : ∀ p ∈ l, (t.edgeCarders[p]).loads = []) : l.foldl State.loadsAt t = t := by
  induction l with
  | nil => rfl
  | cons p l ih =>
    rw [List.foldl_cons, loadsAt_stays (.inl (h p List.mem_cons_self))]
    exact ih fun q hq => h q (List.mem_cons_of_mem p hq)

/-- Carders without jobs are all loaded, and the command is answered with the last. -/
theorem loadsAt_all (h : ∀ p : Fin 10, v[p].loads = []) (hjob : ∀ p ∈ named, s.viewJob p = none) {l : List (Fin 10)}
    (hnodup : l.Nodup) (hsome : ∃ p ∈ named, p ∈ l) :
    l.foldl State.loadsAt (s.withEdges (loadingEdges v named l r b)) = (s.withEdges (loadingEdges v named [] r b)).ok r := by
  induction l with
  | nil => obtain ⟨p, -, hp⟩ := hsome; exact absurd hp List.not_mem_nil
  | cons p l ih =>
    rw [List.nodup_cons] at hnodup
    obtain ⟨hfresh, hnodup⟩ := hnodup
    rw [List.foldl_cons]
    by_cases hp : p ∈ named
    · have hrest (q : Fin 10) : q ∈ l ↔ q ∈ p :: l ∧ q ≠ p := by
        rw [List.mem_cons]
        exact ⟨fun hq => ⟨.inr hq, fun heq => hfresh (heq ▸ hq)⟩, fun hq => hq.1.resolve_left hq.2⟩
      rw [loadsAt_next h (hjob p hp) hp List.mem_cons_self hrest]
      by_cases hmore : ∃ q ∈ named, q ∈ l
      · rw [if_pos ((loadDue_loadingEdges h).mpr hmore)]
        exact ih hnodup hmore
      · rw [if_neg fun hdue => hmore ((loadDue_loadingEdges h).mp hdue), loadsAt_none fun q hq => ?_]
        · rw [loadingEdges_congr (rest := []) fun q hq => ⟨fun hl => absurd ⟨q, hq, hl⟩ hmore, fun hn => absurd hn List.not_mem_nil⟩]
        · rw [(ok_answers _ r []).read State.edgeCarders]
          exact loadingEdges_idle h fun hboth => hmore ⟨q, hboth⟩
    · have hsame : loadingEdges v named (p :: l) r b = loadingEdges v named l r b := loadingEdges_congr fun q hq => by
        rw [List.mem_cons]
        exact ⟨fun hor => hor.resolve_left fun heq => hp (heq ▸ hq), .inr⟩
      rw [hsame, withEdges_stays (.inl (loadingEdges_idle h fun hboth => hp hboth.1))]
      refine ih hnodup ?_
      obtain ⟨q, hq, hmem⟩ := hsome
      exact ⟨q, hq, (List.mem_cons.mp hmem).resolve_left fun heq => hp (heq ▸ hq)⟩

/-- While a carder has a job, its load waits and the command is not answered. -/
theorem loadsAt_busy (h : ∀ p : Fin 10, v[p].loads = []) (hp : p ∈ named) (hbusy : (s.viewJob p).isSome = true)
    (l : List (Fin 10)) : ∀ todo, p ∈ todo → ∃ rest, p ∈ rest ∧
      l.foldl State.loadsAt (s.withEdges (loadingEdges v named todo r b)) = s.withEdges (loadingEdges v named rest r b) := by
  induction l with
  | nil => exact fun todo ht => ⟨todo, ht, rfl⟩
  | cons q l ih =>
    intro todo ht
    rw [List.foldl_cons]
    by_cases hstay : ¬ (q ∈ named ∧ q ∈ todo) ∨ (s.viewJob q).isSome = true
    · rw [withEdges_stays (hstay.imp_left (loadingEdges_idle h))]
      exact ih todo ht
    · rw [not_or, not_not] at hstay
      obtain ⟨⟨hq, htq⟩, hjob⟩ := hstay
      have hne : p ≠ q := fun heq => hjob (heq ▸ hbusy)
      have hleft : p ∈ todo.filter (· ≠ q) := List.mem_filter.mpr ⟨ht, by simpa using hne⟩
      rw [loadsAt_next (rest := todo.filter (· ≠ q)) h (by simpa using hjob) hq htq fun x => by simp,
        if_pos ((loadDue_loadingEdges h).mpr ⟨p, hp, hleft⟩)]
      exact ih _ hleft

end Stages

/-! ### The carders a command names -/

/-- Different places of a vector each changed once. -/
theorem foldl_upd_get {α : Type} {n : Nat} (f : α → α) {l : List (Fin n)} (hl : l.Nodup) (v : Vector α n) (q : Fin n) :
    (l.foldl (fun v p => upd v p f) v)[q] = if q ∈ l then f v[q] else v[q] := by
  induction l generalizing v with
  | nil => exact (if_neg List.not_mem_nil).symm
  | cons p l ih =>
    rw [List.nodup_cons] at hl
    obtain ⟨hfresh, hl⟩ := hl
    rw [List.foldl_cons, ih hl, upd_get]
    by_cases hpq : p = q
    · subst hpq
      rw [if_neg hfresh, if_pos rfl, if_pos List.mem_cons_self]
    · rw [if_neg hpq, if_congr (List.mem_cons.trans (or_iff_right (Ne.symm hpq))) rfl rfl]

theorem mem_edgesOf {e : Entry} {p : Fin 10} : p ∈ edgesOf e ↔ (e.u 24 2).testBit p.val = true := by
  unfold edgesOf
  rw [List.mem_filter]
  exact and_iff_right (List.mem_finRange p)

/-- A carder with one more load that waits. -/
def Carder.owe (c : Carder) (r : CmdRef) (b : List Byte) : Carder := { c with loads := c.loads ++ [(r, b)] }

theorem owe_first {c : Carder} (h : c.loads = []) (r : CmdRef) (b : List Byte) : c.owe r b = c.withLoads [(r, b)] := by
  unfold Carder.owe
  rw [h]
  rfl

/-- The object given to the edge carders an entry names. -/
def State.toEdges (s : State) (e : Entry) (r : CmdRef) (b : List Byte) : State :=
  (edgesOf e).foldl (fun s p => s.modEdgeCarder p fun c => c.owe r b) s

theorem toEdges_waits {s : State} (h : ∀ p : Fin 10, (s.edgeCarders[p]).loads = []) (e : Entry) (r : CmdRef) (b : List Byte) :
    s.toEdges e r b = s.withEdges (loadingEdges s.edgeCarders (edgesOf e) (allFin 10) r b) := by
  have hfold (l : List (Fin 10)) (t : State) :
      l.foldl (fun s p => s.modEdgeCarder p fun c => c.owe r b) t =
        t.withEdges (l.foldl (fun v p => upd v p fun c => c.owe r b) t.edgeCarders) := by
    induction l generalizing t with
    | nil => rfl
    | cons p l ih => exact ih _
  have hnodup : (edgesOf e).Nodup := (List.nodup_finRange 10).filter _
  refine (hfold (edgesOf e) s).trans (congrArg s.withEdges (Vector.ext fun k hk => ?_))
  refine (foldl_upd_get _ hnodup _ ⟨k, hk⟩).trans (Eq.trans ?_ (loadingEdges_get (p := ⟨k, hk⟩)).symm)
  have hall : (⟨k, hk⟩ : Fin 10) ∈ allFin 10 := List.mem_finRange _
  rw [if_pos hall, owe_first (h ⟨k, hk⟩)]

theorem mem_moversOf {e : Entry} {k : Fin 16} {m : Fin 2} :
    (k, m) ∈ moversOf e ↔ (e.u 20 4).testBit (2 * k.val + m.val) = true := by
  unfold moversOf
  simp only [List.mem_flatMap, List.mem_map, List.mem_filter, allFin, List.mem_finRange, true_and, Prod.mk.injEq]
  constructor
  · rintro ⟨k', m', hbit, rfl, rfl⟩
    exact hbit
  · exact fun hbit => ⟨k, m, hbit, rfl, rfl⟩

theorem moversOf_nodup (e : Entry) : (moversOf e).Nodup := by
  unfold moversOf
  refine List.nodup_flatMap.mpr ⟨fun k _ => ?_, ?_⟩
  · exact ((List.nodup_finRange 2).filter _).map fun a b hab => (Prod.mk.inj hab).2
  · refine (List.nodup_finRange 16).imp fun {a b} hab x hxa hxb => hab ?_
    obtain ⟨_, -, rfl⟩ := List.mem_map.mp hxa
    obtain ⟨_, -, heq⟩ := List.mem_map.mp hxb
    exact (Prod.mk.inj heq).1.symm

/-- The object loaded into the skein carders of a swatch that an entry names. -/
def State.toMovers (s : State) (i : Fin 8) (l : List (Fin 16 × Fin 2)) (b : List Byte) : State :=
  l.foldl (fun s x => s.modSaved i x.1 x.2 fun c => c.load b) s

theorem modCarder_get (s : State) (x : Fin 16 × Fin 2) (f : Carder → Carder) (k : Fin 16) (m : Fin 2) :
    ((s.modCarder x.1 x.2 f).skeins[k]).carders[m] =
      if (k, m) = x then f ((s.skeins[k]).carders[m]) else (s.skeins[k]).carders[m] := by
  obtain ⟨k', m'⟩ := x
  unfold State.modCarder
  rw [modSkein_skeins, upd_get]
  by_cases hk : k' = k
  · subst hk
    rw [if_pos rfl, upd_get]
    exact if_congr ⟨fun h => h ▸ rfl, fun h => (Prod.mk.inj h).2.symm⟩ rfl rfl
  · rw [if_neg hk, if_neg fun h => hk (Prod.mk.inj h).1.symm]

/-- Where no save holds them, the carders themselves are loaded. -/
theorem toMovers_loads {i : Fin 8} {l : List (Fin 16 × Fin 2)} (hl : l.Nodup) (b : List Byte) {s : State} (h : s.saves[i] = none) :
    (s.toMovers i l b).edgeCarders = s.edgeCarders ∧ (s.toMovers i l b).mem = s.mem ∧ ∀ (k : Fin 16) (m : Fin 2),
      ((s.toMovers i l b).skeins[k]).carders[m] =
        if (k, m) ∈ l then ((s.skeins[k]).carders[m]).load b else (s.skeins[k]).carders[m] := by
  induction l generalizing s with
  | nil => exact ⟨rfl, rfl, fun k m => (if_neg List.not_mem_nil).symm⟩
  | cons x l ih =>
    rw [List.nodup_cons] at hl
    obtain ⟨hfresh, hl⟩ := hl
    have hfirst : s.toMovers i (x :: l) b = (s.modCarder x.1 x.2 fun c => c.load b).toMovers i l b := by
      have hmod : (s.modSaved i x.1 x.2 fun c => c.load b) = s.modCarder x.1 x.2 fun c => c.load b := by
        unfold State.modSaved
        rw [h]
      exact congrArg (fun t => State.toMovers t i l b) hmod
    obtain ⟨hedges, hmem, hcarders⟩ := ih hl (s := s.modCarder x.1 x.2 fun c => c.load b) h
    rw [hfirst]
    refine ⟨hedges, hmem, fun k m => (hcarders k m).trans ?_⟩
    rw [modCarder_get]
    by_cases hx : (k, m) = x
    · rw [if_pos hx, if_neg (hx ▸ hfresh), if_pos (List.mem_cons.mpr (.inl hx))]
    · rw [if_neg hx, if_congr (List.mem_cons.trans (or_iff_right hx)) rfl rfl]

/-! ### LOAD_CARD_PROGRAM (R159, R366) -/

section Command
variable {r : CmdRef} {e : Entry} {s : State}

/-- The object a command names. -/
def cardObject (e : Entry) (s : State) : List Byte := s.objRead e.sq (e.u 8 8) (e.u 16 4)

theorem loadCardProgram_edges (ht : e.target = none) : cmdLoadCardProgram.act r e s =
    if (edgesOf e).isEmpty then ((s.toEdges e r (cardObject e s)).inFlight r 0x302 e).ok r
    else ((s.toEdges e r (cardObject e s)).inFlight r 0x302 e).viewLoads := by
  unfold cmdLoadCardProgram
  dsimp only
  rw [ht]
  rfl

theorem loadCardProgram_movers {i : Fin 8} (ht : e.target = some i) (hedges : edgesOf e = []) : cmdLoadCardProgram.act r e s =
    ((s.toMovers i (moversOf e) (cardObject e s)).inFlight r 0x302 e).ok r := by
  unfold cmdLoadCardProgram
  dsimp only
  rw [ht, hedges]
  rfl

variable (hnone : ∀ p : Fin 10, (s.edgeCarders[p]).loads = [])
include hnone

theorem inFlight_toEdges : (s.toEdges e r (cardObject e s)).inFlight r 0x302 e =
    (s.inFlight r 0x302 e).withEdges (loadingEdges s.edgeCarders (edgesOf e) (allFin 10) r (cardObject e s)) := by
  rw [toEdges_waits hnone]
  rfl

/-- Without jobs every edge carder named is loaded, and the command answered. -/
theorem loadCardProgram_loads (ht : e.target = none)
    (hjob : ∀ p : Fin 10, (e.u 24 2).testBit p.val = true → s.viewJob p = none) : cmdLoadCardProgram.act r e s =
    ((s.inFlight r 0x302 e).withEdges (loadingEdges s.edgeCarders (edgesOf e) [] r (cardObject e s))).ok r := by
  rw [loadCardProgram_edges ht, inFlight_toEdges hnone]
  cases hl : edgesOf e with
  | nil =>
    rw [loadingEdges_congr (rest := []) fun q hq => absurd hq List.not_mem_nil]
    rfl
  | cons q l =>
    rw [← hl, if_neg (by rw [hl]; exact Bool.false_ne_true)]
    refine loadsAt_all (s := s.inFlight r 0x302 e) hnone (fun p hp => hjob p (mem_edgesOf.mp hp)) (List.nodup_finRange 10) ?_
    exact ⟨q, by rw [hl]; exact List.mem_cons_self, List.mem_finRange q⟩

/-- A carder with a job keeps the object until the job has ended, and so does the command wait. -/
theorem loadCardProgram_waits (ht : e.target = none) {p : Fin 10} (hp : (e.u 24 2).testBit p.val = true)
    (hbusy : (s.viewJob p).isSome = true) : ∃ rest, p ∈ rest ∧ cmdLoadCardProgram.act r e s =
      (s.inFlight r 0x302 e).withEdges (loadingEdges s.edgeCarders (edgesOf e) rest r (cardObject e s)) := by
  have hnamed : p ∈ edgesOf e := mem_edgesOf.mpr hp
  rw [loadCardProgram_edges ht, inFlight_toEdges hnone,
    if_neg fun hempty => List.ne_nil_of_mem hnamed (List.isEmpty_iff.mp hempty)]
  exact loadsAt_busy (s := s.inFlight r 0x302 e) hnone hnamed hbusy (allFin 10) (allFin 10) (List.mem_finRange p)

end Command

/-- A swatch's command names no edge carder. -/
theorem edgesOf_target {scope : Nat} {e : Entry} {s : State} (h : Passed cmdLoadCardProgram scope e s) (ht : e.target.isSome = true) :
    edgesOf e = [] := by
  have hzero : e.u 24 2 = 0 := by
    by_contra hne
    have hbad := h.bad
    simp only [cmdLoadCardProgram, List.append_eq_nil_iff, if_neg hne, ht, if_true] at hbad
    exact absurd hbad.1.1 (List.cons_ne_nil _ _)
  refine List.filter_eq_nil_iff.mpr fun p _ => ?_
  rw [hzero, Nat.zero_testBit]
  exact Bool.false_ne_true

end Sys2Proof.Machine
end

section
/-! SUPPORT. Accesses of a user through a carded view (13 R366, R370). -/
namespace Sys2Proof.Machine
open Sys2Proof Sys2Proof.Safety

/-! ### Sending changes no byte of memory -/

theorem pumpPort_mem (s : State) (p : Fin 10) : (s.pumpPort p).mem = s.mem := by
  unfold State.pumpPort
  split <;> rfl

theorem transmit_mem (s : State) (x : SentTxn) : (s.transmit x).mem = s.mem := by
  unfold State.transmit
  split
  · exact pumpPort_mem _ _
  · rfl

theorem noteWait_mem (s : State) (x : Inj) : (s.noteWait x).mem = s.mem := by
  unfold State.noteWait
  split <;> rfl

theorem injectAll_mem (s : State) (fuel : Nat) : (s.injectAll fuel).mem = s.mem := by
  induction fuel generalizing s with
  | zero => rfl
  | succ fuel ih =>
    unfold State.injectAll
    split
    · refine (ih _).trans ((transmit_mem _ _).trans ?_)
      exact noteWait_mem s _
    · rfl

theorem sendAccess_mem (s : State) (who : Who) (p : Fin 10) (wire addr : Nat) (op : AccOp) (dest : Dest) (c : TClass)
    (pc : Nat) (control : Bool) : (s.sendAccess who p wire addr op dest c pc control).mem = s.mem := by
  have hinject (t : State) : t.inject.mem = t.mem := by
    unfold State.inject
    split
    · rfl
    · exact injectAll_mem t _
  exact hinject _

theorem viewSend_keeps (s : State) (i : Fin 8) (who : Who) (p : Fin 10) (parts : List (Nat × Nat × Nat)) (op : AccOp)
    (dest : Nat → Dest) (pc : Nat) : (s.viewSend i who p parts op dest pc).mem = s.mem ∧
      (s.viewSend i who p parts op dest pc).edgeCarders = s.edgeCarders :=
  ⟨foldl_keeps State.mem _ (fun _ _ => sendAccess_mem _ _ _ _ _ _ _ _ _ _) _ _,
   foldl_keeps State.edgeCarders _ (fun _ _ => (sendAccess_sends _ _ _ _ _ _ _ _ _ _).read State.edgeCarders) _ _⟩

/-! ### A read checks and sends, no more -/

theorem spoolCheck_read (s : State) (i : Fin 8) (d : Word) (a len : Nat) : (s.spoolCheck i d a len .read).1 = s := by
  unfold State.spoolCheck
  rw [if_neg fun h => h.1 rfl]
  split <;> rfl

theorem rangeStep_read (i : Fin 8) (d : Word) (a : Nat) (x : State × Chk × List (Nat × Nat × Nat)) (c : Nat × Nat) :
    (rangeStep i d a .read x c).1 = x.1 := by
  have hread := spoolCheck_read x.1 i d c.1 c.2
  unfold rangeStep
  split
  · split
    · next heq => rw [heq] at hread; exact hread
    · next heq => rw [heq] at hread; exact hread
  · rfl

theorem rangeCheck_read (s : State) (i : Fin 8) (d : Word) (a len : Nat) : (s.rangeCheck i d a len .read).1 = s := by
  rw [rangeCheck_eq]
  split
  · rfl
  · exact foldl_keeps Prod.fst _ (fun x c => rangeStep_read i d a x c) _ _

theorem viewCheck_read (s : State) (i : Fin 8) (d : Word) (p : Fin 10) (v : Fin 4) (off skip len : Nat) :
    (s.viewCheck i d p v off skip len .read).1 = s := by
  unfold State.viewCheck
  split
  · rfl
  · split
    · dsimp only
      split <;> exact rangeCheck_read s i d _ _
    · rfl

theorem viewCheck_off {s : State} {p : Fin 10} {v : Fin 4} {off : Nat} {need : Need} (i : Fin 8) (d : Word) (skip len : Nat)
    (h : s.viewTakes p v off (decide (need = .write)) = false) : s.viewCheck i d p v off skip len need = (s, .off, []) := by
  unfold State.viewCheck
  exact if_pos (by rw [h]; rfl)

/-- A view that takes an access does not refuse it itself. -/
theorem viewCheck_takes {s : State} {p : Fin 10} {v : Fin 4} {off : Nat} (i : Fin 8) (d : Word) (skip len : Nat)
    (h : s.viewTakes p v off false = true) : (s.viewCheck i d p v off skip len .read).2.1 ≠ .off := by
  unfold State.viewCheck
  rw [if_neg (by rw [show decide (Need.read = Need.write) = false from rfl, h]; exact Bool.false_ne_true)]
  split
  · dsimp only
    split <;> exact nofun
  · exact nofun

section Read
variable {s : State} {p : Fin 10} {v : Fin 4} {off : Nat} (i : Fin 8) (d : Word) (who : Who) (skip len : Nat) (dest : Dest) (pc : Nat)

/-- A read that the view takes changes no byte and no carder. -/
theorem viewReadNow_keeps (h : s.viewTakes p v off false = true) :
    (s.viewReadNow i d who p v off skip len dest pc).1.mem = s.mem ∧
    (s.viewReadNow i d who p v off skip len dest pc).1.edgeCarders = s.edgeCarders := by
  have hsame := viewCheck_read s i d p v off skip len
  have hon := viewCheck_takes i d skip len h
  unfold State.viewReadNow
  split
  · next heq =>
    rw [heq] at hsame
    obtain rfl : _ = s := hsame
    exact viewSend_keeps _ i who p _ _ _ pc
  · next heq =>
    rw [heq] at hon
    exact absurd rfl hon
  · next heq =>
    rw [heq] at hsame
    obtain rfl : _ = s := hsame
    exact ⟨rfl, rfl⟩

theorem viewHeld_eq (write : Bool) (h : s.viewTakes p v off write = true) :
    s.viewHeld p v off write = !(s.edgeCarders[p]).loads.isEmpty := by
  unfold State.viewHeld
  rw [h, Bool.true_and]

theorem viewRead_off (h : s.viewTakes p v off false = false) :
    s.viewRead i d who p v off skip len dest pc = (s.viewRefused p, .off) := by
  unfold State.viewRead
  rw [if_neg (by unfold State.viewHeld; rw [h]; exact Bool.false_ne_true)]
  unfold State.viewReadNow
  rw [viewCheck_off (need := .read) i d skip len h]

theorem viewRead_busy (h : s.viewTakes p v off false = true) (hload : (s.edgeCarders[p]).loads ≠ []) :
    s.viewRead i d who p v off skip len dest pc = (s, .busy) := by
  unfold State.viewRead
  exact if_pos (by rw [viewHeld_eq false h]; simpa using hload)

theorem viewRead_now (h : s.viewTakes p v off false = true) (hload : (s.edgeCarders[p]).loads = []) :
    s.viewRead i d who p v off skip len dest pc = s.viewReadNow i d who p v off skip len dest pc := by
  unfold State.viewRead
  exact if_neg (by rw [viewHeld_eq false h, hload]; exact Bool.false_ne_true)

variable (b : List Byte)

theorem viewWrite_off (h : s.viewTakes p v off true = false ∨ wrId d ≠ 0 ∨ off % 64 ≠ 0 ∨ b.length ≠ 64) :
    s.viewWrite i d who p v off b pc = (s.viewRefused p, .off) := by
  unfold State.viewWrite
  by_cases hform : wrId d ≠ 0 ∨ off % 64 ≠ 0 ∨ b.length ≠ 64
  · exact if_pos hform
  · have hoff := h.resolve_right hform
    rw [if_neg hform, if_neg (by unfold State.viewHeld; rw [hoff]; exact Bool.false_ne_true),
      viewCheck_off (need := .write) i d 0 64 hoff]

theorem viewWrite_busy (h : s.viewTakes p v off true = true) (hid : wrId d = 0) (ho : off % 64 = 0) (hb : b.length = 64)
    (hload : (s.edgeCarders[p]).loads ≠ []) : s.viewWrite i d who p v off b pc = (s, .busy) := by
  unfold State.viewWrite
  rw [if_neg (by rw [hid, ho, hb]; simp)]
  exact if_pos (by rw [viewHeld_eq true h]; simpa using hload)

end Read

/-! ### What the user is told -/

section User
variable {s : State} {u : ViewUser} {i : Fin 8} {draft : Word} (hu : s.viewUser u = (some i, draft)) (p : Fin 10) (v : Fin 4) (off : Nat)

/-- Where a needle that uses a view stands. -/
def State.userPc (s : State) : ViewUser → Nat
  | .needle n => (s.needles[n]).pc.toNat
  | .core _ => 0

include hu

theorem cardViewRead_some {t : State} {ans : ViewAns}
    (h : s.viewRead i draft (whoOf u) p v (off / 64 * 64) 0 64 (.viewOut p v) (s.userPc u) = (t, ans)) :
    cardViewRead p v off u s = t.viewTold u p v (viewAddr p v + off / 64 * 64) false ans := by
  unfold cardViewRead
  rw [hu]
  cases u <;> exact congrArg (fun x : State × ViewAns => x.1.viewTold _ p v (viewAddr p v + off / 64 * 64) false x.2) h

theorem cardViewWrite_some {b : List Byte} {t : State} {ans : ViewAns}
    (h : s.viewWrite i draft (whoOf u) p v off b 0 = (t, ans)) :
    cardViewWrite p v off u b s = t.viewTold u p v (viewAddr p v + off) true ans := by
  unfold cardViewWrite
  rw [hu]
  exact congrArg (fun x : State × ViewAns => x.1.viewTold u p v (viewAddr p v + off) true x.2) h

end User

section NoUser
variable {s : State} {u : ViewUser} (hu : (s.viewUser u).1 = none) (p : Fin 10) (v : Fin 4) (off : Nat)
include hu

theorem cardViewRead_none : cardViewRead p v off u s = s.viewTold u p v (viewAddr p v + off / 64 * 64) false .refused := by
  unfold cardViewRead
  dsimp only
  split
  · next heq => rw [heq] at hu; exact absurd hu (Option.some_ne_none _)
  · rfl

theorem cardViewWrite_none (b : List Byte) : cardViewWrite p v off u b s = s.viewTold u p v (viewAddr p v + off) true .refused := by
  unfold cardViewWrite
  dsimp only
  split
  · next heq => rw [heq] at hu; exact absurd hu (Option.some_ne_none _)
  · rfl

end NoUser

end Sys2Proof.Machine
end

section
/-! SUPPORT. Carder jobs (13 R360), repair at run time (19 R495 to R497) and maintenance packets (09 R242, R244). -/
namespace Sys2Proof.Machine
open Sys2Proof Sys2Proof.Safety

/-! ### Jobs of a carder -/

/-- Movers before a drain do not go before it. -/
theorem nextJob_drain (l : List (Fin 16 × Fin 2)) (n : Fin 96) (unit : Fin 16) (rest : List CardJob) :
    nextJob ((l.map fun x => CardJob.mover x.1 x.2) ++ .drain n unit :: rest) = some (.drain n unit) := by
  unfold nextJob
  dsimp only
  rw [List.find?_append, List.find?_eq_none.mpr]
  · rfl
  · intro j hj
    obtain ⟨x, -, rfl⟩ := List.mem_map.mp hj
    exact Bool.false_ne_true

theorem cardJob_stays {s : State} {k : Fin 16} {m : Fin 2} (h : s.moverRuns k = false ∨ ((s.skeins[k]).carders[m]).jobs = []) :
    cardJob k m s = s := by
  unfold cardJob
  rcases h with h | h
  · exact if_pos (by rw [h]; rfl)
  · rw [h]
    split <;> rfl

theorem cardJob_drain {s : State} {k : Fin 16} {m : Fin 2} {n : Fin 96} {unit : Fin 16} (hrun : s.moverRuns k = true)
    (h : nextJob ((s.skeins[k]).carders[m]).jobs = some (.drain n unit)) : cardJob k m s = s.drainCard k m n unit := by
  unfold cardJob
  rw [if_neg (by rw [hrun]; exact Bool.false_ne_true), h]

theorem cardJob_mover {s : State} {k q : Fin 16} {m x : Fin 2} (hrun : s.moverRuns k = true)
    (h : nextJob ((s.skeins[k]).carders[m]).jobs = some (.mover q x)) : cardJob k m s = s.moverCard q x := by
  unfold cardJob
  rw [if_neg (by rw [hrun]; exact Bool.false_ne_true), h]

/-! ### Monitors and suspect skeins (R496, R497) -/

/-- A suspect skein is recorded, a census is armed, and DROPPED_STITCH is posted. -/
theorem suspectSkein_posts (s : State) (p : Fin 20) (full : Bool) (margin : Nat) : Posts
    ((s.modRep fun r => { r with
      suspect := setBit r.suspect p.val, pending := true, pendingFull := r.pendingFull || full }).repEvent 0)
    (s.suspectSkein p full margin) := event_posts _ _ _ _ _

theorem suspectSkein_rep (s : State) (p : Fin 20) (full : Bool) (margin : Nat) : (s.suspectSkein p full margin).rep =
    { s.rep with
      suspect := setBit s.rep.suspect p.val, pending := true, pendingFull := s.rep.pendingFull || full
      events := setBit s.rep.events 0 } := (suspectSkein_posts s p full margin).read State.rep

theorem suspectSkein_frame (s : State) (p : Fin 20) (full : Bool) (margin : Nat) :
    (s.suspectSkein p full margin).map = s.map ∧ (s.suspectSkein p full margin).skeins = s.skeins :=
  ⟨(suspectSkein_posts s p full margin).read State.map, (suspectSkein_posts s p full margin).read State.skeins⟩

section Aging
variable {s : State} {p : Fin 20} {margin : Byte} (hon : s.monitored p = true)

/-- The word of an aging margin. -/
def agingWord (m : Nat) : Word := mkW [(0, 8, m), (8, 1, 1)]

theorem agingWord_toNat (m : Byte) : (agingWord m.toNat).toNat = m.toNat + 256 := by
  have hm : m.toNat < 256 := m.isLt
  have hor : 256 ||| m.toNat = 256 + m.toNat := (Nat.two_pow_add_eq_or_of_lt (i := 8) hm 1).symm
  simp [agingWord, mkW, Nat.mod_eq_of_lt hm, Nat.mod_eq_of_lt (show m.toNat < 4294967296 by omega)]
  rw [Nat.or_comm, hor, Nat.add_comm]

/-- s with a margin stored. -/
def State.aged (s : State) (p : Fin 20) (m : Nat) : State := s.modRep fun r => { r with aging := r.aging.set p (agingWord m) }
/-- s with the warning of a margin below its limit. -/
def State.warned (s : State) (p : Fin 20) (m : Nat) : State :=
  if m < fld s.rep.limits 7 0 then (s.repEvent 2).droppedStitch (s.logicalOf p.val) 6 p.val 0 m else s

include hon

theorem agingMeasurement_eq : agingMeasurement p margin s =
    if margin.toNat < fld ((s.aged p margin.toNat).warned p margin.toNat).rep.limits 15 8 then
      ((s.aged p margin.toNat).warned p margin.toNat).suspectSkein p true margin.toNat
    else (s.aged p margin.toNat).warned p margin.toNat := by
  unfold agingMeasurement
  exact if_neg (by rw [hon]; exact Bool.false_ne_true)

end Aging

/-- A warning leaves the record but for its event. -/
theorem warned_rep (s : State) (p : Fin 20) (m : Nat) :
    (s.warned p m).rep = { s.rep with events := (s.warned p m).rep.events } ∧ (s.warned p m).map = s.map := by
  have hevent := event_posts (s.repEvent 2)
  unfold State.warned
  split
  · refine ⟨?_, (hevent _ _ _ _).read State.map⟩
    have hrep : ((s.repEvent 2).droppedStitch (s.logicalOf p.val) 6 p.val 0 m).rep = (s.repEvent 2).rep := (hevent _ _ _ _).read State.rep
    rw [hrep]
    rfl
  · exact ⟨rfl, rfl⟩

theorem warned_stays {s : State} {p : Fin 20} {m : Nat} (h : fld s.rep.limits 7 0 ≤ m) : s.warned p m = s :=
  if_neg (Nat.not_lt.mpr h)

theorem setBit_get {n : Nat} (w : BitVec n) {i j : Nat} (hj : j < n) :
    (setBit w i).getLsbD j = (w.getLsbD j || decide (i = j)) := by
  rw [setBit, BitVec.getLsbD_or, two_pow_getLsbD i j hj]

section Measured
variable {s : State} {p : Fin 20} {margin : Byte} (hon : s.monitored p = true)

theorem aged_warned_rep (s : State) (p : Fin 20) (m : Nat) : ((s.aged p m).warned p m).rep = { s.rep with
    aging := s.rep.aging.set p (agingWord m), events := ((s.aged p m).warned p m).rep.events } := (warned_rep (s.aged p m) p m).1

theorem aged_warned_limits (s : State) (p : Fin 20) (m : Nat) : ((s.aged p m).warned p m).rep.limits = s.rep.limits := by
  rw [aged_warned_rep]

include hon

/-- A measurement stores its margin and leaves the map. -/
theorem agingMeasurement_stores :
    (agingMeasurement p margin s).rep.aging[p] = agingWord margin.toNat ∧ (agingMeasurement p margin s).map = s.map := by
  have hmap := (warned_rep (s.aged p margin.toNat) p margin.toNat).2
  have haging : ((s.aged p margin.toNat).warned p margin.toNat).rep.aging[p] = agingWord margin.toNat := by
    rw [aged_warned_rep]
    exact Vector.getElem_set_self _
  rw [agingMeasurement_eq hon]
  split
  · refine ⟨?_, (suspectSkein_frame _ _ _ _).1.trans hmap⟩
    exact (congrArg (fun x : Rep => x.aging[p]) (suspectSkein_rep _ _ _ _)).trans haging
  · exact ⟨haging, hmap⟩

theorem agingMeasurement_sound (hwarn : fld s.rep.limits 7 0 ≤ margin.toNat) (hlimit : fld s.rep.limits 15 8 ≤ margin.toNat) :
    agingMeasurement p margin s = s.aged p margin.toNat := by
  rw [agingMeasurement_eq hon, warned_stays (s := s.aged p margin.toNat) hwarn]
  exact if_neg (Nat.not_lt.mpr hlimit)

/-- A margin below its limit makes the skein suspect. -/
theorem agingMeasurement_suspects (hlimit : margin.toNat < fld s.rep.limits 15 8) :
    agingMeasurement p margin s = ((s.aged p margin.toNat).warned p margin.toNat).suspectSkein p true margin.toNat := by
  rw [agingMeasurement_eq hon, aged_warned_limits]
  exact if_pos hlimit

end Measured

theorem suspectSkein_marks (s : State) (p : Fin 20) (full : Bool) (margin : Nat) :
    (s.suspectSkein p full margin).rep.suspect.getLsbD p.val = true ∧ (s.suspectSkein p full margin).rep.pending = true ∧
    (s.suspectSkein p full margin).rep.pendingFull = (s.rep.pendingFull || full) ∧
    (s.suspectSkein p full margin).rep.events.getLsbD 0 = true := by
  rw [suspectSkein_rep]
  refine ⟨?_, rfl, rfl, ?_⟩
  · rw [setBit_get _ p.isLt, decide_eq_true rfl, Bool.or_true]
  · rw [setBit_get _ (by decide), decide_eq_true rfl, Bool.or_true]

/-! ### Droop events (R496) -/

section Droop
variable {s : State} {p : Fin 20}

/-- The droop events of the last second, and one more. -/
def State.recentDroops (s : State) (p : Fin 20) : List DWord :=
  (s.rep.droopRecent[p].filter fun t => decide ((s.deviceTime - t).toNat < droopWindow)) ++ [s.deviceTime]

/-- s with one more droop event counted. -/
def State.drooped (s : State) (p : Fin 20) : State := (s.modRep fun r => { r with
  droop := r.droop.set p (satAdd r.droop[p] 1), droopQuery := r.droopQuery + 1
  droopRecent := r.droopRecent.set p (s.recentDroops p) }).repEvent 3

theorem droopEvent_eq (hon : s.monitored p = true) : droopEvent p s =
    if fld s.rep.limits 31 16 < (s.recentDroops p).length then
      (s.drooped p).suspectSkein p true (fld (s.drooped p).rep.aging[p] 7 0)
    else s.drooped p := by
  unfold droopEvent
  exact if_neg (by rw [hon]; exact Bool.false_ne_true)

theorem drooped_rep (s : State) (p : Fin 20) : (s.drooped p).rep.droop[p] = satAdd s.rep.droop[p] 1 ∧
    (s.drooped p).rep.droopQuery = s.rep.droopQuery + 1 ∧ (s.drooped p).rep.events.getLsbD 3 = true := by
  refine ⟨Vector.getElem_set_self _, rfl, ?_⟩
  exact (setBit_get _ (by decide)).trans (by rw [decide_eq_true rfl, Bool.or_true])

/-- A droop event is counted, whether or not it makes the skein suspect. -/
theorem droopEvent_counts (hon : s.monitored p = true) :
    (droopEvent p s).rep.droop[p] = satAdd s.rep.droop[p] 1 ∧ (droopEvent p s).rep.droopQuery = s.rep.droopQuery + 1 ∧
    (droopEvent p s).rep.events.getLsbD 3 = true ∧ (droopEvent p s).map = s.map := by
  obtain ⟨hdroop, hquery, hevent⟩ := drooped_rep s p
  rw [droopEvent_eq hon]
  split
  · refine ⟨?_, ?_, ?_, (suspectSkein_frame _ _ _ _).1⟩
    · exact (congrArg (fun x : Rep => x.droop[p]) (suspectSkein_rep _ _ _ _)).trans hdroop
    · exact (congrArg Rep.droopQuery (suspectSkein_rep _ _ _ _)).trans hquery
    · rw [suspectSkein_rep]
      exact (setBit_get _ (by decide)).trans (by rw [hevent, Bool.true_or])
  · exact ⟨hdroop, hquery, hevent, rfl⟩

end Droop

/-! ### Row sparing (R495) -/

/-- What an entry of the repair record names. -/
structure RepEntry.Names (x : RepEntry) (kind : Fin 5) (num : Word) (bankRow : Half) (die : Bool) : Prop where
  kind    : x.kind = kind
  num     : x.num = num
  bankRow : x.bankRow = bankRow
  die     : x.die = die

/-- A record not yet full holds the entry that is added. -/
theorem addEntry_holds {s : State} (kind : Fin 5) (num bankRow source : Nat) (h : s.rep.entries.length < 1024) :
    ∃ x ∈ (s.addEntry kind num bankRow source).rep.entries,
      x.Names kind (BitVec.ofNat 32 num) (BitVec.ofNat 16 bankRow) (!s.fuses.primary) := by
  have hreport (t : State) : ((t.yardP 3 1).droppedStitch source kind.val num bankRow 0).rep = t.rep :=
    (((yardP_answers t 3 1).trans (event_posts _ _ _ _ _).answers).read State.rep)
  unfold State.addEntry
  dsimp only
  split
  · next hold =>
    obtain ⟨x, hx, heq⟩ := List.any_eq_true.mp hold
    obtain ⟨hkind, hnum, hrow, hdie⟩ := of_decide_eq_true heq
    exact ⟨x, hx, ⟨hkind, hnum, hrow, hdie⟩⟩
  · rw [hreport]
    exact ⟨_, List.mem_append_right _ (List.mem_singleton.mpr rfl), ⟨rfl, rfl, rfl, rfl⟩⟩

theorem addEntry_suspect (s : State) (kind : Fin 5) (num bankRow source : Nat) :
    (s.addEntry kind num bankRow source).rep.suspect = s.rep.suspect := by
  have hreport (t : State) : ((t.yardP 3 1).droppedStitch source kind.val num bankRow 0).rep = t.rep :=
    (((yardP_answers t 3 1).trans (event_posts _ _ _ _ _).answers).read State.rep)
  unfold State.addEntry
  dsimp only
  split
  · rfl
  · rw [hreport]
    split <;> rfl

section Spare
variable {s : State} {k bank : Fin 16} {row : Fin 256}

theorem rowSpareCopyDone_none (h : s.map.skeins[k] = none) : rowSpareCopyDone k bank row s = s := by
  unfold rowSpareCopyDone
  rw [h]

/-- s with one more spare row of a bank in use. -/
def State.sparedRow (s : State) (k bank : Fin 16) : State :=
  (s.modSkein k fun x => { x with spareRows := x.spareRows.set bank (x.spareRows[bank] + 1) }).repEvent 6

theorem rowSpareCopyDone_spares {l : LogSkein} (h : s.map.skeins[k] = some l) (hfree : (s.skeins[k]).spareRows[bank].toNat < 8) :
    rowSpareCopyDone k bank row s = (s.sparedRow k bank).addEntry 2 l.phys.val (bank.val * 256 + row.val) k.val := by
  unfold rowSpareCopyDone
  rw [h]
  exact if_pos hfree

theorem rowSpareCopyDone_suspects {l : LogSkein} (h : s.map.skeins[k] = some l) (hfull : 8 ≤ (s.skeins[k]).spareRows[bank].toNat) :
    rowSpareCopyDone k bank row s = s.suspectSkein l.phys false (fld s.rep.aging[l.phys] 7 0) := by
  unfold rowSpareCopyDone
  rw [h]
  exact if_neg (Nat.not_lt.mpr hfull)

theorem sparedRow_count (s : State) (k bank : Fin 16) :
    ((s.sparedRow k bank).skeins[k]).spareRows[bank] = (s.skeins[k]).spareRows[bank] + 1 := by
  have hskein : (s.sparedRow k bank).skeins[k] =
      { s.skeins[k] with spareRows := (s.skeins[k]).spareRows.set bank ((s.skeins[k]).spareRows[bank] + 1) } :=
    (upd_get _ _ _ _).trans (if_pos rfl)
  rw [hskein]
  exact Vector.getElem_set_self _

end Spare

/-! ### Maintenance packets (R242, R244) -/

section Maintain
variable {s : State} {k : Fin 16} {h : PktHead} {kind : Nat} {f : State}

theorem maintain_foreign (hi : h.issuer ≠ .firmware) : s.maintain k h kind f = s := if_pos hi

theorem maintain_enters (hi : h.issuer = .firmware)
    (hin : (s.skeins[k]).mesh.swatch = none ∨ (s.skeins[k]).mesh.refuses h [h.dst] false = none) : s.maintain k h kind f = f := by
  unfold State.maintain
  rw [if_neg (not_not_intro hi)]
  rcases hin with hnone | hrect
  · rw [hnone]; rfl
  · unfold State.arrive
    rw [hrect]
    exact ite_self _

theorem maintain_drops {bit : Nat} (hi : h.issuer = .firmware) (hsw : (s.skeins[k]).mesh.swatch.isSome = true)
    (hout : (s.skeins[k]).mesh.refuses h [h.dst] false = some bit) :
    s.maintain k h kind f = State.swStatus (s.modMesh k fun m => m.drop h bit 3 kind) h.swatch 5 := by
  unfold State.maintain State.arrive
  rw [if_neg (not_not_intro hi), hout, if_neg]
  rw [Option.isNone_iff_eq_none]
  exact Option.isSome_iff_ne_none.mp hsw

end Maintain

/-- Settles O51, each row by its own lemmas; a load carder by carder (`loadsAt_all`, `loadsAt_busy`). -/
theorem cardersAndRepair : Obligations.CardersAndRepair := by
  unfold Obligations.CardersAndRepair
  refine ⟨fun e s s1 h => ?_, fun c b j hother => ?_, fun c b => ?_, fun c b j hlo hhi => ?_, fun c b j hout => ?_,
    fun s p v off u d => ?_, fun s k m => ?_, fun s p margin => ?_, fun s k bank row => ?_, fun s c q => rfl,
    fun s k h off d => ?_⟩
  · refine ⟨fun ht hnone => ⟨fun hjob => ?_, fun p hp hbusy => ?_⟩, fun i ht hsave => ?_⟩
    · refine ⟨_, next_dispatch h (loadCardProgram_loads hnone ht hjob), rfl, rfl, rfl, fun p => ?_⟩
      refine loadingEdges_get.trans ?_
      rw [if_congr mem_edgesOf rfl rfl, if_neg List.not_mem_nil]
      rfl
    · obtain ⟨rest, hrest, hact⟩ := loadCardProgram_waits (r := refOf e s1) hnone ht hp hbusy
      refine ⟨_, next_dispatch h hact, rfl, ?_⟩
      exact loadingEdges_waits (mem_edgesOf.mpr hp) hrest
    · have hedges := edgesOf_target (accepts_passed h) (by rw [ht]; rfl)
      obtain ⟨hedge, hmem, hcarders⟩ := toMovers_loads (moversOf_nodup e) (cardObject e s1) hsave
      refine ⟨_, next_dispatch h (loadCardProgram_movers ht hedges), hedge, hmem, fun k m => (hcarders k m).trans ?_⟩
      rw [if_congr mem_moversOf rfl rfl]
      rfl
  · rw [load_slots]
    exact putRecords_other _ hother
  · intro l hle hnodup r hr
    rw [load_slots]
    exact putRecords_own _ hle hnodup hr
  · exact (load_params c b j).trans (if_pos ⟨hlo, hhi⟩)
  · exact (load_params c b j).trans (if_neg (by omega))
  · intro told g ra wa pc
    have hoff (t : State) (a : Nat) (w : Bool) : t.viewTold u p v a w .off = told 3 w a t := by cases u <;> rfl
    have hrefused (t : State) (a : Nat) (w : Bool) : t.viewTold u p v a w .refused = told 3 w a t := by cases u <;> rfl
    have hbad (t : State) (a : Nat) (w : Bool) : t.viewTold u p v a w .bad = told 5 w a t := by cases u <;> rfl
    have hpc : pc = s.userPc u := by cases u <;> rfl
    refine ⟨fun hnone => ⟨?_, ?_⟩, fun i draft hu => ⟨fun hno => ?_, fun hno => ?_, fun hon hload => ?_, fun hon hload t ans hnow => ?_,
      fun hon hid ho hd => ⟨fun hload => ?_, fun hload t ans hnow => ?_⟩⟩⟩
    · exact congrArg Host.Outcome.next ((cardViewRead_none hnone p v off.toNat).trans (hrefused _ _ _))
    · exact congrArg Host.Outcome.next ((cardViewWrite_none hnone p v off.toNat d).trans (hrefused _ _ _))
    · exact congrArg Host.Outcome.next ((cardViewRead_some hu p v off.toNat (viewRead_off i draft _ 0 64 _ _ hno)).trans (hoff _ _ _))
    · exact congrArg Host.Outcome.next ((cardViewWrite_some hu p v off.toNat (viewWrite_off i draft _ 0 d hno)).trans (hoff _ _ _))
    · exact congrArg Host.Outcome.next (cardViewRead_some hu p v off.toNat (viewRead_busy i draft _ 0 64 _ _ hon hload))
    · rw [hpc] at hnow
      have hread := cardViewRead_some hu p v off.toNat ((viewRead_now i draft _ 0 64 _ _ hon hload).trans hnow)
      obtain ⟨hmem, hedge⟩ := viewReadNow_keeps i draft (whoOf u) 0 64 (.viewOut p v) (s.userPc u) hon
      rw [hnow] at hmem hedge
      refine ⟨hmem, hedge, ?_, ?_, ?_⟩ <;> rintro rfl
      · exact congrArg Host.Outcome.next hread
      · exact congrArg Host.Outcome.next (hread.trans (hrefused _ _ _))
      · exact congrArg Host.Outcome.next (hread.trans (hbad _ _ _))
    · exact congrArg Host.Outcome.next (cardViewWrite_some hu p v off.toNat (viewWrite_busy i draft _ 0 d hon hid ho hd hload))
    · have hwrite := cardViewWrite_some hu p v off.toNat hnow
      refine ⟨?_, ?_, ?_⟩ <;> rintro rfl
      · exact congrArg Host.Outcome.next hwrite
      · exact congrArg Host.Outcome.next (hwrite.trans (hrefused _ _ _))
      · exact congrArg Host.Outcome.next (hwrite.trans (hbad _ _ _))
  · refine ⟨fun hidle => congrArg Host.Outcome.next (cardJob_stays hidle), fun l n unit rest hrun hjobs => ?_,
      fun q x hrun hjobs => ?_⟩
    · exact congrArg Host.Outcome.next (cardJob_drain hrun (by rw [hjobs]; exact nextJob_drain l n unit rest))
    · exact congrArg Host.Outcome.next (cardJob_mover hrun (by rw [hjobs]; rfl))
  · refine ⟨fun hoff => ⟨?_, ?_⟩, fun hon => ?_, fun hon hwarn hlimit => ?_, fun hon hlimit => ?_, fun hon => ?_⟩
    · exact congrArg Host.Outcome.next (if_pos (by rw [hoff]; rfl))
    · exact congrArg Host.Outcome.next (if_pos (by rw [hoff]; rfl))
    · obtain ⟨hstored, hmap⟩ := agingMeasurement_stores hon (margin := margin)
      exact ⟨_, rfl, by rw [hstored, agingWord_toNat], hmap⟩
    · exact congrArg Host.Outcome.next (agingMeasurement_sound hon hwarn hlimit)
    · refine ⟨_, congrArg Host.Outcome.next (agingMeasurement_suspects hon hlimit), ?_⟩
      obtain ⟨hsuspect, hpending, hfull, hevent⟩ :=
        suspectSkein_marks ((s.aged p margin.toNat).warned p margin.toNat) p true margin.toNat
      exact ⟨hsuspect, hpending, hfull.trans (Bool.or_true _), hevent⟩
    · obtain ⟨hdroop, hquery, hevent, hmap⟩ := droopEvent_counts hon
      refine ⟨_, rfl, hdroop, hquery, hevent, hmap, fun hmany => ?_⟩
      have hlong : fld s.rep.limits 31 16 < (s.recentDroops p).length := by
        rw [State.recentDroops, List.length_append]
        exact hmany
      rw [droopEvent_eq hon, if_pos hlong]
      obtain ⟨hsuspect, -, hfull, -⟩ := suspectSkein_marks (s.drooped p) p true (fld (s.drooped p).rep.aging[p] 7 0)
      exact ⟨hsuspect, hfull.trans (Bool.or_true _)⟩
  · refine ⟨fun hnone => congrArg Host.Outcome.next (rowSpareCopyDone_none hnone), fun l hl => ⟨fun hfree => ?_, fun hfull => ?_⟩⟩
    · refine ⟨_, congrArg Host.Outcome.next (rowSpareCopyDone_spares hl hfree), ?_, addEntry_suspect _ _ _ _ _, fun hroom => ?_⟩
      · rw [(addEntry_retires _ _ _ _ _).read State.skeins]
        exact sparedRow_count s k bank
      · obtain ⟨x, hx, hkind, hnum, hrow, hdie⟩ := addEntry_holds (s := s.sparedRow k bank) 2 l.phys.val
          (bank.val * 256 + row.val) k.val hroom
        exact ⟨x, hx, hkind, hnum, hrow, hdie⟩
    · obtain ⟨hsuspect, hpending, hkeep, -⟩ := suspectSkein_marks s l.phys false (fld s.rep.aging[l.phys] 7 0)
      exact ⟨_, congrArg Host.Outcome.next (rowSpareCopyDone_suspects hl hfull), (suspectSkein_frame _ _ _ _).2, hsuspect,
        hpending, hkeep.trans (Bool.or_false _)⟩
  · intro m len a
    refine ⟨fun hi => ⟨?_, fun w => ?_⟩, fun hi hin => ⟨?_, fun hk w => ?_, fun hk hfit => ⟨?_, ?_⟩⟩,
      fun bit hi hsw hout => ⟨?_, fun w => ?_⟩, fun sw c0 w0 c1 w1 => rfl⟩
    · exact congrArg Host.Outcome.next (maintain_foreign hi)
    · exact congrArg Host.Outcome.next (maintain_foreign hi)
    · exact congrArg Host.Outcome.next (maintain_enters hi hin)
    · exact congrArg Host.Outcome.next ((maintain_enters hi hin).trans (if_pos hk))
    · refine congrArg Host.Outcome.next ((maintain_enters hi hin).trans ((if_neg (not_not_intro hk)).trans ?_))
      exact (if_neg (Nat.not_lt.mpr hfit)).trans (if_pos rfl)
    · refine congrArg Host.Outcome.next ((maintain_enters hi hin).trans ((if_neg (not_not_intro hk)).trans ?_))
      exact (if_neg (Nat.not_lt.mpr hfit)).trans (if_neg Bool.false_ne_true)
    · exact congrArg Host.Outcome.next (maintain_drops hi hsw hout)
    · exact congrArg Host.Outcome.next (maintain_drops hi hsw hout)

end Sys2Proof.Machine
end

section
/-! SUPPORT. Stream commands (06 R161, R162; 16 R412, R421). -/
namespace Sys2Proof.Machine
open Sys2Proof Sys2Proof.Safety

/-! ### Bobbins of a state -/

/-- s with other bobbins. -/
def State.withBobs (s : State) (v : Vector Bobbin 48) : State := { s with bobbins := v }

theorem modBob_eq (s : State) (n : Fin 48) (f : Bobbin → Bobbin) :
    s.modBob n f = s.withBobs (s.bobbins.set n (f s.bobbins[n])) := rfl

theorem modBob_get (s : State) (n : Fin 48) (f : Bobbin → Bobbin) : (s.modBob n f).bobbins[n] = f s.bobbins[n] :=
  (upd_get _ _ _ _).trans (if_pos rfl)

theorem modBob_modBob (s : State) (n : Fin 48) (f g : Bobbin → Bobbin) :
    (s.modBob n f).modBob n g = s.modBob n fun b => g (f b) := by
  unfold State.modBob
  dsimp only
  rw [upd_upd]

/-! ### BIND_BOBBIN, UNBIND_BOBBIN, RUN_BOBBIN -/

/-- A bobbin without a start or stop that waits. -/
def Bobbin.settled (b : Bobbin) : Bobbin := { b with runCmd := none }

/-- A waiting start or stop answered: it changes no bobbin. -/
def State.runFreed (s : State) (n : Fin 48) : State := s.replyOpt s.bobbins[n].runCmd stConflict 2

theorem runFreed_bobbins (s : State) (n : Fin 48) : (s.runFreed n).bobbins = s.bobbins :=
  (replyOpt_answers s _ _ _).read State.bobbins

/-- A bobbin of a state whose waiting start or stop was answered. -/
theorem runFreed_modBob (s : State) (n : Fin 48) (f : Bobbin → Bobbin) :
    (s.runFreed n).modBob n f = (s.runFreed n).withBobs (s.bobbins.set n (f s.bobbins[n])) := by
  rw [modBob_eq, runFreed_bobbins]

theorem settled_modBob (s : State) (n : Fin 48) (f : Bobbin → Bobbin) :
    ((s.runFreed n).modBob n Bobbin.settled).modBob n f = (s.runFreed n).withBobs (s.bobbins.set n (f s.bobbins[n].settled)) := by
  rw [modBob_modBob, runFreed_modBob]

section Commands
variable {r : CmdRef} {e : Entry} {s : State}

/-- Whether an output bobbin sends a frame. -/
def Bobbin.sends (b : Bobbin) : Prop := b.dirOut ∧ b.opened.isSome ∧ b.fsm.st ≠ .off

theorem unbindBobbin_now (h : ¬ (s.bobbins[bobOf e]).sends) : cmdUnbindBobbin.act r e s =
    ((s.runFreed (bobOf e)).withBobs (s.bobbins.set (bobOf e) (s.bobbins[bobOf e]).settled.unbind)).ok r :=
  (if_neg h).trans (congrArg (fun t => State.ok t r) (settled_modBob s (bobOf e) Bobbin.unbind))

/-- An output bobbin stopped, whose unbind waits for the frame it sends. -/
def Bobbin.leaving (b : Bobbin) (r : CmdRef) : Bobbin := { b with fsm := b.fsm.disable, unbindCmd := some r }

theorem unbindBobbin_waits (h : (s.bobbins[bobOf e]).sends) : cmdUnbindBobbin.act r e s =
    ((s.runFreed (bobOf e)).withBobs (s.bobbins.set (bobOf e) ((s.bobbins[bobOf e]).settled.leaving r))).inFlight r 0x401 e :=
  (if_pos h).trans (congrArg (fun t => State.inFlight t r 0x401 e) (settled_modBob s (bobOf e) fun b => b.leaving r))

/-- What a start or a stop makes of a bobbin. -/
def Bobbin.runAs (b : Bobbin) (e : Entry) : Bobbin :=
  if e.u 9 1 = 1 then { b.settled with fsm := b.fsm.enable } else b.settled.stop

/-- s with a bobbin started or stopped. -/
def State.runSet (s : State) (e : Entry) : State :=
  (s.runFreed (bobOf e)).withBobs (s.bobbins.set (bobOf e) ((s.bobbins[bobOf e]).runAs e))

/-- A start while it stops, or a stop while it starts. -/
def Bobbin.defers (b : Bobbin) (e : Entry) : Prop := (e.u 9 1 = 1 ∧ b.fsm.st = .falling) ∨ (e.u 9 1 ≠ 1 ∧ b.fsm.st = .rising)

theorem runFreed_runs (s : State) (e : Entry) : (s.runFreed (bobOf e)).modBob (bobOf e) (fun b =>
    let b : Bobbin := { b with runCmd := none }
    if decide (e.u 9 1 = 1) = true then { b with fsm := b.fsm.enable } else b.stop) = s.runSet e := by
  rw [runFreed_modBob]
  unfold State.runSet Bobbin.runAs
  simp only [decide_eq_true_eq]
  rfl

/-- Whether a start or stop waits, as the command tests it. -/
def runWaits (e : Entry) (b : Bobbin) : Bool :=
  decide (decide (e.u 9 1 = 1) = true ∧ b.fsm.st = .falling) || decide (decide (e.u 9 1 = 1) = false ∧ b.fsm.st = .rising)

theorem runWaits_iff (e : Entry) (b : Bobbin) : runWaits e b = true ↔ b.defers e := by
  unfold runWaits Bobbin.defers
  rw [Bool.or_eq_true, decide_eq_true_eq, decide_eq_true_eq, decide_eq_true_eq, decide_eq_false_iff_not]

/-- A start or stop is carried out, and where it has to wait the command waits. -/
theorem runBobbin_acts : cmdRunBobbin.act r e s =
    if runWaits e s.bobbins[bobOf e] = true then
      ((s.runSet e).inFlight r 0x402 e).modBob (bobOf e) fun b => { b with runCmd := some r }
    else (s.runSet e).ok r [(20, 1, (s.runSet e).bobStatus (bobOf e))] := by
  rw [← runFreed_runs, ← runFreed_bobbins s (bobOf e)]
  rfl

end Commands
end Sys2Proof.Machine
end

section
/-! SUPPORT. Input frames of a bobbin (16 R414 to R418, R422). -/
namespace Sys2Proof.Machine
open Sys2Proof Sys2Proof.Safety

/-! ### Event bits -/

theorem setBit_self {n i : Nat} (w : BitVec n) (h : i < n) : (setBit w i).getLsbD i = true := by
  rw [setBit_get w h, decide_eq_true rfl, Bool.or_true]

theorem setBit_stays {n j : Nat} {w : BitVec n} (i : Nat) (hj : j < n) (h : w.getLsbD j = true) : (setBit w i).getLsbD j = true := by
  rw [setBit_get w hj, h, Bool.true_or]

/-- A bit that is set stays set where another may be. -/
theorem setBit_ite_stays {n j : Nat} {w : BitVec n} (c : Prop) [Decidable c] (i : Nat) (hj : j < n) (h : w.getLsbD j = true) :
    (if c then setBit w i else w).getLsbD j = true := by
  split
  · exact setBit_stays i hj h
  · exact h

/-! ### A frame begins (R417) -/

/-- The state once the consumer's count is read, which low power spares. -/
def State.afterCount (s : State) (n : Fin 48) : State := if s.bobLowPower n then s else s.readCount n
/-- The consumer's count, as far as it can be read. -/
def State.countRead (s : State) (n : Fin 48) : Option (List Byte) := s.bobGet s.bobbins[n] (s.countAddr s.bobbins[n]) 8
/-- Where the next slot of a ring is served. -/
def State.slotServed (s : State) (b : Bobbin) : Option Nat := s.bobAt b (b.ring.toNat + b.slotOff (b.written + 1)) 64 true

/-- Whether a frame that begins finds no place: the ring is full or in low power, or an access is refused. -/
def Bobbin.noPlace (b : Bobbin) (low counted slotted : Bool) : Bool :=
  decide (b.size ≤ b.written - b.consumed) || low || (!low && (!counted || (!decide (b.size ≤ b.written - b.consumed) && !slotted)))
/-- Whether an access of a frame that begins is refused. -/
def Bobbin.noAccess (b : Bobbin) (low counted slotted : Bool) : Bool :=
  !low && (!counted || (!decide (b.size ≤ b.written - b.consumed) && !slotted))

/-- The frame a bobbin opens. -/
def Bobbin.frameAt (b : Bobbin) (gone : Bool) (time : DWord) (info : Nat) : OpenFrame :=
  ⟨if gone then none else some (b.written + 1), b.seq + 1, time, 0,
    BitVec.ofNat 32 (if gone then 0 else if b.dropsSince ≠ 0 then 4 else 0), BitVec.ofNat 32 info⟩

/-- A bobbin with a refused access noted (R422). -/
def Bobbin.noted (b : Bobbin) : Bobbin := { b with events := setBit b.events 5 }

/-- A bobbin whose frame begins. -/
def Bobbin.beginFrame (b : Bobbin) (low counted slotted : Bool) (time : DWord) (info : Nat) : Bobbin :=
  let gone := b.noPlace low counted slotted
  let b1 := if b.noAccess low counted slotted then b.noted else b
  let b2 := if gone then b1.drop else b1
  { b2 with
    seq := b2.seq + 1, full := decide (b.size ≤ b.written - b.consumed), opened := some (b2.frameAt gone time info)
    written := b2.written + (if gone then 0 else 1)
    dropsSince := if gone then b2.dropsSince else 0 }

theorem openFrame_eq (s : State) (n : Fin 48) (time : DWord) (info : Nat) : s.openFrame n time info =
    (s.afterCount n).modBob n fun _ => ((s.afterCount n).bobbins[n]).beginFrame (s.bobLowPower n) (s.countRead n).isSome
      ((s.afterCount n).slotServed (s.afterCount n).bobbins[n]).isSome time info := rfl

theorem afterCount_mem (s : State) (n : Fin 48) : (s.afterCount n).mem = s.mem := by
  unfold State.afterCount State.readCount
  split
  · rfl
  · dsimp only
    split
    · split <;> rfl
    · rfl

section Begin
variable (b : Bobbin) {low counted slotted : Bool} (time : DWord) (info : Nat)

theorem beginFrame_seq : (b.beginFrame low counted slotted time info).seq = b.seq + 1 := by
  unfold Bobbin.beginFrame
  dsimp only
  split <;> split <;> rfl

variable {b}

/-- With a place for it the frame takes the next slot. -/
theorem beginFrame_takes (hlow : low = false) (hcount : counted = true) (hroom : b.written - b.consumed < b.size)
    (hslot : slotted = true) : b.beginFrame low counted slotted time info = { b with
      seq := b.seq + 1, full := false, opened := some (b.frameAt false time info), written := b.written + 1, dropsSince := 0 } := by
  have hfull : decide (b.size ≤ b.written - b.consumed) = false := decide_eq_false (Nat.not_le.mpr hroom)
  have hplace : b.noPlace low counted slotted = false := by
    unfold Bobbin.noPlace
    rw [hfull, hlow, hcount, hslot]
    rfl
  have haccess : b.noAccess low counted slotted = false := by
    unfold Bobbin.noAccess
    rw [hfull, hlow, hcount, hslot]
    rfl
  unfold Bobbin.beginFrame
  rw [hplace, haccess, hfull]
  rfl

theorem frameAt_placed : b.frameAt false time info =
    ⟨some (b.written + 1), b.seq + 1, time, 0, if b.dropsSince = 0 then 0 else 4, BitVec.ofNat 32 info⟩ := by
  have hflag : (BitVec.ofNat 32 (if b.dropsSince ≠ 0 then 4 else 0) : Word) = if b.dropsSince = 0 then 0 else 4 := by
    by_cases h : b.dropsSince = 0
    · rw [if_neg (not_not_intro h), if_pos h]; rfl
    · rw [if_pos h, if_neg h]; rfl
  exact congrArg (fun w : Word => (⟨some (b.written + 1), b.seq + 1, time, 0, w, BitVec.ofNat 32 info⟩ : OpenFrame)) hflag

theorem noAccess_spared (h : low = true ∨ (counted = true ∧ b.size ≤ b.written - b.consumed)) : b.noAccess low counted slotted = false := by
  unfold Bobbin.noAccess
  rcases h with rfl | ⟨rfl, hfull⟩
  · rfl
  · rw [decide_eq_true hfull]
    cases low <;> rfl

theorem noAccess_refused (hlow : low = false) (h : counted = false ∨ (b.written - b.consumed < b.size ∧ slotted = false)) :
    b.noAccess low counted slotted = true := by
  unfold Bobbin.noAccess
  rcases h with rfl | ⟨hroom, rfl⟩
  · rw [hlow]; rfl
  · rw [hlow, decide_eq_false (Nat.not_le.mpr hroom)]
    cases counted <;> rfl

theorem noPlace_iff : b.noPlace low counted slotted = true ↔
    low = true ∨ counted = false ∨ b.size ≤ b.written - b.consumed ∨ slotted = false := by
  unfold Bobbin.noPlace
  by_cases hfull : b.size ≤ b.written - b.consumed <;> cases low <;> cases counted <;> cases slotted <;> simp [hfull]

/-- Without a place the frame is dropped and counted (R417). -/
theorem beginFrame_drops (h : b.noPlace low counted slotted = true) :
    let y := b.beginFrame low counted slotted time info
    y.written = b.written ∧ y.dropped = satAdd b.dropped 1 ∧ y.dropsSince = b.dropsSince + 1 ∧ y.dropsRow = b.dropsRow + 1 ∧
    y.events = setBit (if b.noAccess low counted slotted then setBit b.events 5 else b.events) 0 ∧
    ∃ f : OpenFrame, y.opened = some f ∧ f.slot = none ∧ f.seq = b.seq + 1 := by
  unfold Bobbin.beginFrame
  dsimp only
  rw [h]
  cases b.noAccess low counted slotted
  · exact ⟨rfl, rfl, rfl, rfl, rfl, _, rfl, rfl, rfl⟩
  · exact ⟨rfl, rfl, rfl, rfl, rfl, _, rfl, rfl, rfl⟩

end Begin

/-! ### Bytes of a frame (R416, R418, R422) -/

section Put
variable {s : State} {n : Fin 48} {a : Nat} {bs : List Byte}

theorem putOwn_bobbins (s : State) (t : Option (Fin 8)) (a : Nat) (bs : List (Option Byte)) : (s.putOwn t a bs).bobbins = s.bobbins := by
  unfold State.putOwn
  cases t with
  | none => rfl
  | some i =>
    dsimp only
    split <;> rfl

/-- Bytes that are served change no bobbin. -/
theorem framePut_served (h : (s.bobRows s.bobbins[n] a bs.length true).isSome = true) : (s.framePut n a bs).bobbins = s.bobbins := by
  obtain ⟨l, hl⟩ := Option.isSome_iff_exists.mp h
  unfold State.framePut
  rw [if_pos h]
  unfold State.bobPut
  rw [hl]
  exact foldl_keeps (fun x : State × List Byte => x.1.bobbins) _ (fun x c => putOwn_bobbins x.1 _ _ _) l (s, bs)

/-- A refused access is noted, and the frame dropped. -/
theorem framePut_refused (h : s.bobRows s.bobbins[n] a bs.length true = none) :
    s.framePut n a bs = s.modBob n fun b => b.noted.lose := by
  unfold State.framePut
  rw [h, if_neg (by exact Bool.false_ne_true)]
  unfold State.bobPut
  rw [h]
  exact modBob_modBob s n Bobbin.noted Bobbin.lose

end Put

/-- A frame with bytes added to what it had, cut or not. -/
def OpenFrame.extend (g f : OpenFrame) (k : Nat) (cut : Bool) : OpenFrame :=
  { g with len := f.len + k, flags := if cut then setBit f.flags 0 else f.flags }
/-- A bobbin whose open frame took bytes. -/
def Bobbin.took (b : Bobbin) (f : OpenFrame) (k : Nat) (cut : Bool) : Bobbin := { b with
  opened := b.opened.map fun g => g.extend f k cut, events := if cut then setBit b.events 1 else b.events }
/-- Bytes put into the slot of a frame, if it has one. -/
def State.slotPut (s : State) (n : Fin 48) (f : OpenFrame) (off : Nat) (bs : List Byte) : State :=
  match f.slot with
  | some k => s.framePut n (s.bobbins[n].ring.toNat + s.bobbins[n].slotOff k + off) bs
  | none => s
/-- Payload put behind what a frame holds. -/
def State.payloadPut (s : State) (n : Fin 48) (f : OpenFrame) (bs : List Byte) : State :=
  if bs.isEmpty then s else s.slotPut n f (64 + f.len) bs

theorem addPayload_none {s : State} {n : Fin 48} (h : s.bobbins[n].opened = none) (d : List Byte) : s.addPayload n d = s := by
  unfold State.addPayload
  dsimp only
  rw [h]

theorem addPayload_open {s : State} {n : Fin 48} {f : OpenFrame} (h : s.bobbins[n].opened = some f) (d : List Byte) :
    let room := s.bobbins[n].frame.toNat - f.len
    s.addPayload n d = (s.payloadPut n f (d.take room)).modBob n fun b =>
      b.took f (d.take room).length (decide (room < d.length)) := by
  intro room
  have hput : s.payloadPut n f (d.take room) = match f.slot with
      | some k => if (d.take room).isEmpty then s
        else s.framePut n (s.bobbins[n].ring.toNat + s.bobbins[n].slotOff k + 64 + f.len) (d.take room)
      | none => s := by
    unfold State.payloadPut State.slotPut
    cases f.slot with
    | none => exact ite_self s
    | some k =>
      dsimp only
      rw [Nat.add_assoc (s.bobbins[n].ring.toNat + s.bobbins[n].slotOff k) 64 f.len]
  rw [hput]
  unfold State.addPayload
  dsimp only
  rw [h]
  rfl

/-- A frame with a slot is dropped, and its slot is free again (log 180). -/
theorem lose_slotted {b : Bobbin} {f : OpenFrame} {k : Nat} (h : b.opened = some f) (hk : f.slot = some k) :
    b.lose = { b.drop with written := b.written - 1, opened := some { f with slot := none } } := by
  unfold Bobbin.lose
  rw [h]
  exact if_pos (by rw [hk]; rfl)

/-- The drop of a frame whose access was refused sets DROP and ACCESS. -/
theorem noted_drop_events (b : Bobbin) : b.noted.drop.events.getLsbD 0 = true ∧ b.noted.drop.events.getLsbD 5 = true :=
  ⟨setBit_self _ (by decide), setBit_stays 0 (by decide) (setBit_self _ (by decide))⟩

theorem lose_unslotted {b : Bobbin} (h : ∀ f, b.opened = some f → f.slot = none) : b.lose = b := by
  unfold Bobbin.lose
  split
  · next f hf => exact if_neg (by rw [h f hf]; exact Bool.false_ne_true)
  · rfl

section Payload
variable {s : State} {n : Fin 48} {f : OpenFrame} (h : s.bobbins[n].opened = some f) {d : List Byte}

/-- Where bytes of a frame's slot are served, if it has one. -/
def State.slotRows (s : State) (n : Fin 48) (k off len : Nat) : Option (List (Nat × Nat)) :=
  s.bobRows s.bobbins[n] (s.bobbins[n].ring.toNat + s.bobbins[n].slotOff k + off) len true

theorem slotPut_served {off : Nat} (hput : ∀ k, f.slot = some k → (s.slotRows n k off d.length).isSome = true) :
    (s.slotPut n f off d).bobbins = s.bobbins := by
  unfold State.slotPut
  split
  · next k hk => exact framePut_served (hput k hk)
  · rfl

theorem payloadPut_served (hput : ∀ k, f.slot = some k → (s.slotRows n k (64 + f.len) d.length).isSome = true) :
    (s.payloadPut n f d).bobbins = s.bobbins := by
  unfold State.payloadPut
  split
  · rfl
  · exact slotPut_served hput

theorem slotPut_refused {k off : Nat} (hk : f.slot = some k) (hput : s.slotRows n k off d.length = none) :
    s.slotPut n f off d = s.modBob n fun b => b.noted.lose := by
  unfold State.slotPut
  rw [hk]
  exact framePut_refused hput

include h

/-- Payload that fits and is served adds its length. -/
theorem addPayload_fits (hput : ∀ k, f.slot = some k → (s.slotRows n k (64 + f.len) d.length).isSome = true)
    (hfit : f.len + d.length ≤ s.bobbins[n].frame.toNat) :
    (s.addPayload n d).bobbins[n] = { s.bobbins[n] with opened := some { f with len := f.len + d.length } } := by
  have hall : d.take (s.bobbins[n].frame.toNat - f.len) = d := List.take_of_length_le (by omega)
  have hcut : ¬ s.bobbins[n].frame.toNat - f.len < d.length := by omega
  rw [addPayload_open h, hall, decide_eq_false hcut, modBob_get, payloadPut_served hput]
  unfold Bobbin.took
  rw [h]
  rfl

/-- Payload beyond FRAME is cut with TRUNC. -/
theorem addPayload_cuts
    (hput : ∀ k, f.slot = some k → (s.slotRows n k (64 + f.len) (s.bobbins[n].frame.toNat - f.len)).isSome = true)
    (hlen : f.len ≤ s.bobbins[n].frame.toNat) (hcut : s.bobbins[n].frame.toNat < f.len + d.length) :
    (s.addPayload n d).bobbins[n] = { s.bobbins[n] with
      opened := some { f with len := s.bobbins[n].frame.toNat, flags := setBit f.flags 0 }
      events := setBit s.bobbins[n].events 1 } := by
  have htake : (d.take (s.bobbins[n].frame.toNat - f.len)).length = s.bobbins[n].frame.toNat - f.len := by
    rw [List.length_take]; omega
  have hcut' : s.bobbins[n].frame.toNat - f.len < d.length := by omega
  have hsum : f.len + (s.bobbins[n].frame.toNat - f.len) = s.bobbins[n].frame.toNat := by omega
  rw [addPayload_open h, decide_eq_true hcut', modBob_get, payloadPut_served (by rw [htake]; exact hput), htake]
  unfold Bobbin.took OpenFrame.extend
  rw [h, hsum]
  rfl

/-- Payload that is refused drops the frame and sets ACCESS (R422). -/
theorem addPayload_refused {k : Nat} (hk : f.slot = some k) (hd : d ≠ []) (hfit : f.len + d.length ≤ s.bobbins[n].frame.toNat)
    (hput : s.slotRows n k (64 + f.len) d.length = none) :
    (s.addPayload n d).bobbins[n] = { s.bobbins[n].noted.drop with
      written := s.bobbins[n].written - 1, opened := some { f with slot := none, len := f.len + d.length } } ∧
    (s.addPayload n d).mem = s.mem := by
  have hall : d.take (s.bobbins[n].frame.toNat - f.len) = d := List.take_of_length_le (by omega)
  have hcut : ¬ s.bobbins[n].frame.toNat - f.len < d.length := by omega
  have hrefused : s.payloadPut n f d = s.modBob n fun b => b.noted.lose := by
    unfold State.payloadPut
    rw [if_neg fun hempty => hd (List.isEmpty_iff.mp hempty)]
    exact slotPut_refused hk hput
  rw [addPayload_open h, hall, decide_eq_false hcut, hrefused, modBob_modBob, modBob_get]
  refine ⟨?_, rfl⟩
  rw [lose_slotted (b := s.bobbins[n].noted) h hk]
  rfl

end Payload

/-! ### A frame ends (R416) -/

/-- The header of a slot whose frame ends. -/
def State.endHeader (s : State) (f : OpenFrame) (extra : Word) : List Byte :=
  slotHeader f.seq.toNat f.time.toNat s.tick.count.toNat f.len (f.flags ||| extra).toNat f.info.toNat

/-- A bobbin whose frame ends. -/
def Bobbin.ended (b : Bobbin) (extra : Word) : Bobbin := { b with
  opened := none, complete := b.complete + b2n ((b.opened.map fun g => g.slot.isSome).getD false)
  events := if extra.getLsbD 0 then setBit b.events 1 else b.events }

theorem closeFrame_none {s : State} {n : Fin 48} (h : s.bobbins[n].opened = none) (extra : Word) : s.closeFrame n extra = s := by
  unfold State.closeFrame
  dsimp only
  rw [h]

section Close
variable {s : State} {n : Fin 48} {f : OpenFrame} (h : s.bobbins[n].opened = some f) (extra : Word)

include h

theorem closeFrame_open : s.closeFrame n extra =
    (s.slotPut n f 0 (s.endHeader f extra)).modBob n fun b => b.ended extra := by
  unfold State.closeFrame State.slotPut
  dsimp only
  rw [h]
  rfl

theorem closeFrame_opened : ((s.closeFrame n extra).bobbins[n]).opened = none := by
  rw [closeFrame_open h, modBob_get]
  rfl

/-- A frame whose header is served is complete, if it has a slot. -/
theorem closeFrame_complete (hput : ∀ k, f.slot = some k → (s.slotRows n k 0 64).isSome = true) :
    ((s.closeFrame n extra).bobbins[n]).complete = s.bobbins[n].complete + if f.slot.isSome then 1 else 0 := by
  have hserved : (s.slotPut n f 0 (s.endHeader f extra)).bobbins = s.bobbins :=
    slotPut_served (by rw [show (s.endHeader f extra).length = 64 from padTo_length _ _]; exact hput)
  rw [closeFrame_open h, modBob_get, hserved]
  unfold Bobbin.ended
  rw [h]
  rfl

/-- A refused header drops the frame (R422). -/
theorem closeFrame_refused {k : Nat} (hk : f.slot = some k) (hput : s.slotRows n k 0 64 = none) :
    (s.closeFrame n extra).bobbins[n] = { s.bobbins[n].noted.drop with
      written := s.bobbins[n].written - 1, opened := none
      events := if extra.getLsbD 0 then setBit s.bobbins[n].noted.drop.events 1 else s.bobbins[n].noted.drop.events } ∧
    (s.closeFrame n extra).mem = s.mem := by
  have hrefused : s.slotPut n f 0 (s.endHeader f extra) = s.modBob n fun b => b.noted.lose :=
    slotPut_refused hk (by rw [show (s.endHeader f extra).length = 64 from padTo_length _ _]; exact hput)
  rw [closeFrame_open h, hrefused, modBob_modBob, modBob_get]
  refine ⟨?_, rfl⟩
  rw [lose_slotted (b := s.bobbins[n].noted) h hk]
  rfl

end Close

/-! ### Where a slot's header goes (R413, R414) -/

/-- Slots begin on rows of 256 bytes. -/
theorem slotOff_aligned (b : Bobbin) (k : Nat) : b.slotOff k % 256 = 0 := by
  unfold Bobbin.slotOff strideOf
  rw [Nat.add_mod, Nat.mul_mod, Nat.mul_mod_left, Nat.mul_zero]

theorem windowCheck_some {s : State} {i : Fin 8} {a n : Nat} {need : Need} {x : Nat} (h : s.windowCheck i a n need = .ok x) :
    (s.swatches[i].winAt a n).isSome = true := by
  unfold State.windowCheck at h
  dsimp only at h
  cases hw : s.swatches[i].winAt a n with
  | none => rw [hw] at h; exact nomatch h
  | some w => rfl

/-- What an access of a bobbin passes to be served. -/
def State.bobCheck (s : State) (b : Bobbin) (a n : Nat) : Chk := match b.swatch with
  | some i => if s.ownStore i a then .ok a else s.windowCheck i a n .write
  | none => if s.region a = .store s.sentinelSkein ∧ s.powered s.sentinelSkein then .ok a else s.hostCheck a n true

/-- A write that is served passed its check. -/
theorem bobAt_write {s : State} {b : Bobbin} {a n x : Nat} (h : s.bobAt b a n true = some x) : s.bobCheck b a n = .ok x := by
  have hchk : s.bobAt b a n true = match s.bobCheck b a n with
      | .ok x => if s.inSref x || (!true && s.anyBad x n) || s.onLost x then none else some x
      | _ => none := by
    unfold State.bobAt State.bobCheck
    cases b.swatch with
    | none => rfl
    | some i =>
      dsimp only
      rw [if_neg (c := b.dirOut ∧ !true) fun hboth => Bool.false_ne_true hboth.2]
      rfl
  rw [hchk] at h
  split at h
  · next y heq =>
    split at h
    · exact absurd h.symm (Option.some_ne_none x)
    · rw [heq, Option.some.inj h]
  · exact absurd h.symm (Option.some_ne_none x)

/-- Whether the range of an access of a bobbin is admitted as a whole. -/
def State.bobOne (s : State) (b : Bobbin) (a n : Nat) : Bool := match b.swatch with
  | some i => s.ownStore i a || ((s.swatches[i]).winAt a n).isSome
  | none => (s.bobAt b a n true).isSome

theorem bobRows_eq (s : State) (b : Bobbin) (a n : Nat) : s.bobRows b a n true = if !s.bobOne b a n then none
    else (rowsOf a (n / 256 + 2) n).mapM fun c => (s.bobAt b c.1 c.2 true).map fun x => (x, c.2) := rfl

theorem bobOne_served {s : State} {b : Bobbin} {a n x : Nat} (h : s.bobAt b a n true = some x) : s.bobOne b a n = true := by
  have hchk := bobAt_write h
  unfold State.bobCheck at hchk
  unfold State.bobOne
  cases hb : b.swatch with
  | none => dsimp only; rw [h]; rfl
  | some i =>
    rw [hb] at hchk
    dsimp only at hchk ⊢
    split at hchk
    · next hown => rw [hown]; rfl
    · rw [windowCheck_some hchk, Bool.or_true]

theorem rowsOf_row {a n : Nat} (hn : 0 < n) (hrow : a % 256 + n ≤ 256) (k : Nat) : rowsOf a (k + 2) n = [(a, n)] := by
  have hmin : min n (256 - a % 256) = n := by omega
  unfold rowsOf
  rw [if_neg (by omega), hmin]
  dsimp only
  rw [Nat.sub_self]
  rfl

/-- Bytes within one row that are served lie where the row is. -/
theorem bobRows_row {s : State} {b : Bobbin} {a n x : Nat} (hn : 0 < n) (hrow : a % 256 + n ≤ 256)
    (h : s.bobAt b a n true = some x) : s.bobRows b a n true = some [(x, n)] := by
  rw [bobRows_eq, bobOne_served h, rowsOf_row hn hrow, if_neg (by exact Bool.false_ne_true), List.mapM_cons, List.mapM_nil, h]
  rfl

theorem putOwn_unsaved {s : State} {t : Option (Fin 8)} (h : ∀ i, t = some i → s.swatches[i].saveValid = false) (a : Nat)
    (bs : List (Option Byte)) : s.putOwn t a bs = s.put a bs := by
  unfold State.putOwn
  cases t with
  | none => rfl
  | some i => exact if_neg fun hboth => by rw [h i rfl] at hboth; exact Bool.false_ne_true hboth.2

/-- The header of a slot that is served is written where the slot lies. -/
theorem closeFrame_writes {s : State} {n : Fin 48} {f : OpenFrame} (h : s.bobbins[n].opened = some f) (extra : Word) {k x : Nat}
    (hk : f.slot = some k) (hring : s.bobbins[n].ring.toNat % 256 = 0)
    (hsave : ∀ i, s.bobbins[n].swatch = some i → s.swatches[i].saveValid = false)
    (hat : s.bobAt s.bobbins[n] (s.bobbins[n].ring.toNat + s.bobbins[n].slotOff k) 64 true = some x) :
    (s.closeFrame n extra).mem = (s.put x ((s.endHeader f extra).map some)).mem := by
  have hlen : (s.endHeader f extra).length = 64 := padTo_length _ _
  have hoff := slotOff_aligned s.bobbins[n] k
  have hrows := bobRows_row (s := s) (b := s.bobbins[n]) (by omega : 0 < 64) (by omega) hat
  rw [closeFrame_open h]
  unfold State.slotPut
  rw [hk]
  dsimp only
  unfold State.framePut State.bobPut
  rw [Nat.add_zero, hlen, hrows]
  dsimp only
  rw [if_pos Option.isSome_some, List.foldl_cons, List.foldl_nil, putOwn_unsaved hsave]
  exact congrArg (fun l : List Byte => (s.put x (l.map some)).mem) (List.take_of_length_le hlen.le)

end Sys2Proof.Machine
end

section
/-! SUPPORT. Bobbins stopped, published and fed (16 R408, R410, R412, R416, R421). -/
namespace Sys2Proof.Machine
open Sys2Proof Sys2Proof.Safety

/-! ### A stop (R421) -/

/-- A bobbin stopped, before what it does to an input frame. -/
def Bobbin.halt (b : Bobbin) : Bobbin := { b with fsm := b.fsm.disable }

theorem stop_output {b : Bobbin} (h : b.dirOut = true) : b.stop = b.halt := if_pos h
theorem stop_input {b : Bobbin} (h : b.dirOut = false) : b.stop = { b.halt.lose with opened := none } :=
  if_neg (c := b.dirOut = true) (by rw [h]; exact Bool.false_ne_true)

/-- What a loss of the frame leaves. -/
theorem lose_keeps (b : Bobbin) : b.lose.fsm = b.fsm ∧ b.lose.complete = b.complete ∧ b.lose.published = b.published := by
  unfold Bobbin.lose
  split
  · split <;> exact ⟨rfl, rfl, rfl⟩
  · exact ⟨rfl, rfl, rfl⟩

theorem stop_keeps (b : Bobbin) : b.stop.fsm = b.fsm.disable ∧ b.stop.complete = b.complete ∧ b.stop.published = b.published := by
  cases h : b.dirOut
  · rw [stop_input h]
    exact lose_keeps b.halt
  · rw [stop_output h]
    exact ⟨rfl, rfl, rfl⟩

/-- The frame being written is discarded and counted (log 180). -/
theorem stop_discards {b : Bobbin} (hin : b.dirOut = false) {f : OpenFrame} {k : Nat} (h : b.opened = some f) (hk : f.slot = some k) :
    b.stop = { b.halt.drop with written := b.written - 1, opened := none } := by
  rw [stop_input hin, lose_slotted (b := b.halt) h hk]
  rfl

theorem stop_idle {b : Bobbin} (hin : b.dirOut = false) (h : ∀ f, b.opened = some f → f.slot = none) :
    b.stop = { b.halt with opened := none } := by
  rw [stop_input hin, lose_unslotted (b := b.halt) h]

/-! ### Publishing (R416) -/

section Publish
variable {s : State} {n : Fin 48}

theorem publishOne_stays (h : s.bobbins[n].bound = false ∨ s.bobbins[n].dirOut = true ∨
    s.bobbins[n].complete = s.bobbins[n].published.toNat ∨ s.bobLowPower n = true) : s.publishOne n = s := by
  refine if_pos (h.imp_left fun hb => ?_)
  rw [hb]
  rfl

/-- A bobbin whose complete frames are published. -/
def Bobbin.publishedAt (b : Bobbin) (row : DWord) : Bobbin := { b with published := BitVec.ofNat 64 b.complete, lastRow := row }

theorem publishOne_writes {a : Nat} (hb : s.bobbins[n].bound = true) (hin : s.bobbins[n].dirOut = false)
    (hmore : s.bobbins[n].complete ≠ s.bobbins[n].published.toNat) (hpower : s.bobLowPower n = false)
    (hat : s.bobAt s.bobbins[n] (s.bobbins[n].ring.toNat + 16) 8 true = some a) :
    s.publishOne n = (s.putOwn s.bobbins[n].swatch a ((leBytes 8 s.bobbins[n].complete).map some)).modBob n fun b =>
      b.publishedAt s.tick.count := by
  have hgo : ¬ ((!s.bobbins[n].bound) = true ∨ s.bobbins[n].dirOut = true ∨
      s.bobbins[n].complete = s.bobbins[n].published.toNat ∨ s.bobLowPower n = true) := by
    rw [hb, hin, hpower]
    simpa using hmore
  unfold State.publishOne
  refine (if_neg hgo).trans ?_
  rw [hat]
  rfl

end Publish

/-! ### CSI-2 rows (R408, R412) -/

section Csi
variable {s : State} {p : Fin 8} (vc : Fin 16) (time : DWord) (dt : BitVec 6) (crc : Bool) (d : List Byte)

theorem csiOn_iff : s.csiOn p = true ↔ s.io.csiCfg[p].getLsbD 5 = true ∧
    (fld s.io.csiCfg[p] 2 0 = 1 ∨ fld s.io.csiCfg[p] 2 0 = 2 ∨ fld s.io.csiCfg[p] 2 0 = 4) ∧
    8 ≤ fld s.io.csiCfg[p] 15 8 ∧ fld s.io.csiCfg[p] 15 8 ≤ 250 := by
  unfold State.csiOn csiCfgOk
  rw [Bool.and_eq_true, decide_eq_true_eq]

/-- What a packet puts into the frame it finds open: its virtual channel and type, when it is the first of the frame, and
whether it was bad (R418). -/
def OpenFrame.mark (f : OpenFrame) (vc : Fin 16) (dt : BitVec 6) (h : EccResult) (bad : Bool) : OpenFrame := { f with
  flags := if bad then setBit f.flags 1 else f.flags
  info := if f.len = 0 ∧ h ≠ .failed then BitVec.ofNat 32 (vc.val + 256 * dt.toNat) else f.info }

/-- A bobbin that takes a packet. -/
def Bobbin.mark (b : Bobbin) (vc : Fin 16) (dt : BitVec 6) (h : EccResult) (bad : Bool) : Bobbin := { b with
  opened := b.opened.map fun f => f.mark vc dt h bad
  events := if bad ∧ b.opened.isSome then setBit b.events 2 else b.events }

/-- A line padded to 64 bytes (R412). -/
def csiLine (d : List Byte) : List Byte := d ++ List.replicate ((64 - d.length % 64) % 64) 0

theorem csiLine_length (d : List Byte) : (csiLine d).length % 64 = 0 := by
  rw [csiLine, List.length_append, List.length_replicate]
  omega

/-- Whether a packet's header or payload failed. -/
def csiBad (h : EccResult) (crc : Bool) : Bool := match h with
  | .failed => true
  | _ => !crc
/-- s with the error counts of a packet. -/
def State.csiCounted (s : State) (p : Fin 8) (h : EccResult) (bad : Bool) : State :=
  let s : State := match h with
    | .corrected => s.modCsi p id fun w => bumpHalf w false
    | _ => s
  if bad then s.modCsi p id (fun w => bumpHalf w true) else s
/-- Whether a bobbin's channel takes a packet. -/
def csiMine (vc : Fin 16) (dt : BitVec 6) (h : EccResult) (c : Byte) : Bool :=
  decide (fld c 3 0 = vc.val) && (decide (h = .failed) || decide (fld c 7 4 = csiGroup dt))

theorem csiPacket_on (hon : s.csiOn p = true) (h : EccResult) : csiPacket p vc dt h crc d s =
    (s.feeding 0 p.val (csiMine vc dt h)).foldl (fun s n =>
      if h = .failed then s.modBob n fun b => b.mark vc dt h (csiBad h crc)
      else (s.modBob n fun b => b.mark vc dt h (csiBad h crc)).addPayload n (csiLine d)) (s.csiCounted p h (csiBad h crc)) := by
  unfold csiPacket
  refine (if_neg (by rw [hon]; exact Bool.false_ne_true)).trans ?_
  cases h <;> cases crc <;> rfl

/-- A bobbin that is told of a bad packet (R418). -/
def Bobbin.crcErr (b : Bobbin) : Bobbin := { b with
  opened := b.opened.map fun f => { f with flags := setBit f.flags 1 }
  events := if b.opened.isSome then setBit b.events 2 else b.events }

theorem mark_failed (b : Bobbin) : b.mark vc dt .failed true = b.crcErr := by
  have hframe (f : OpenFrame) : f.mark vc dt .failed true = { f with flags := setBit f.flags 1 } := by
    unfold OpenFrame.mark
    rw [if_neg (c := f.len = 0 ∧ EccResult.failed ≠ .failed) fun h => h.2 rfl]
    rfl
  unfold Bobbin.mark Bobbin.crcErr
  simp only [hframe, true_and]

theorem csiMine_failed : csiMine vc dt .failed = fun c => decide (fld c 3 0 = vc.val) := by
  funext c
  exact Bool.and_true _

theorem csiMine_sound {h : EccResult} (hh : h ≠ .failed) :
    csiMine vc dt h = fun c => decide (fld c 3 0 = vc.val) && decide (fld c 7 4 = csiGroup dt) := by
  funext c
  unfold csiMine
  rw [decide_eq_false hh, Bool.false_or]

/-- A packet whose header failed reaches every bobbin of its channel, and sets CRC_ERR alone. -/
theorem csiPacket_failed (hon : s.csiOn p = true) : csiPacket p vc dt .failed crc d s =
    (s.feeding 0 p.val fun c => decide (fld c 3 0 = vc.val)).foldl (fun s n => s.modBob n Bobbin.crcErr)
      (s.modCsi p id fun w => bumpHalf w true) := by
  have hstep : (fun (s : State) (n : Fin 48) => s.modBob n fun b => b.mark vc dt .failed true) =
      fun s n => s.modBob n Bobbin.crcErr := by
    funext s n
    exact congrArg (s.modBob n) (funext (mark_failed vc dt))
  refine (csiPacket_on vc dt crc d hon .failed).trans ?_
  rw [csiMine_failed]
  exact congrArg (fun g => List.foldl g (s.modCsi p id fun w => bumpHalf w true)
    (s.feeding 0 p.val fun c => decide (fld c 3 0 = vc.val))) hstep

/-- A packet whose header is good reaches the bobbins of its channel and type. -/
theorem csiPacket_sound (hon : s.csiOn p = true) {h : EccResult} (hh : h ≠ .failed) : csiPacket p vc dt h crc d s =
    (s.feeding 0 p.val fun c => decide (fld c 3 0 = vc.val) && decide (fld c 7 4 = csiGroup dt)).foldl
      (fun s n => (s.modBob n fun b => b.mark vc dt h (!crc)).addPayload n (csiLine d)) (s.csiCounted p h (!crc)) := by
  have hbad : csiBad h crc = !crc := by
    cases h
    · rfl
    · rfl
    · exact absurd rfl hh
  rw [csiPacket_on vc dt crc d hon h, csiMine_sound vc dt hh, hbad]
  simp only [if_neg hh]

/-- The counts of a packet whose header is good (R418): corrected headers, then a failed payload. -/
theorem csiCounted_sound {h : EccResult} (hh : h ≠ .failed) :
    let t : State := if h = .corrected then s.modCsi p id (fun w => bumpHalf w false) else s
    s.csiCounted p h (!crc) = (if crc = true then t else t.modCsi p id fun w => bumpHalf w true) ∧ t.bobbins = s.bobbins := by
  cases h with
  | ok => cases crc <;> exact ⟨rfl, rfl⟩
  | corrected => cases crc <;> exact ⟨rfl, rfl⟩
  | failed => exact absurd rfl hh

/-- What a good header's packet makes of the frame it finds. -/
theorem mark_open {b : Bobbin} {f : OpenFrame} (hf : b.opened = some f) {h : EccResult} (hh : h ≠ .failed) (bad : Bool) :
    b.mark vc dt h bad = { b with
      opened := some { f with
        flags := if bad then setBit f.flags 1 else f.flags
        info := if f.len = 0 then BitVec.ofNat 32 (vc.val + 256 * dt.toNat) else f.info }
      events := if bad then setBit b.events 2 else b.events } := by
  have hone : b.opened.isSome = true := by rw [hf]; rfl
  unfold Bobbin.mark OpenFrame.mark
  simp only [hf, Option.map_some, ne_eq, hh, not_false_eq_true, and_true, Option.isSome_some]

end Csi

/-! ### Hot joins (R410) -/

section HotJoin
variable {s : State} {c : Fin 2}

/-- Whether a dynamic or static address is taken. -/
def datUsed (dat : Vector Word 32) (a : Nat) : Bool :=
  dat.toList.any fun w => (w.getLsbD 15 && decide (fld w 14 8 = a)) || decide (fld w 6 0 = a)

theorem datUsed_iff (dat : Vector Word 32) (a : Nat) : datUsed dat a = true ↔
    ∃ j : Fin 32, (dat[j].getLsbD 15 = true ∧ fld dat[j] 14 8 = a) ∨ fld dat[j] 6 0 = a := by
  unfold datUsed
  simp only [List.any_eq_true, Bool.or_eq_true, Bool.and_eq_true, decide_eq_true_eq]
  constructor
  · rintro ⟨w, hw, h⟩
    obtain ⟨j, hj, rfl⟩ := Vector.mem_iff_getElem.mp (Vector.mem_toList_iff.mp hw)
    exact ⟨⟨j, hj⟩, h⟩
  · rintro ⟨j, h⟩
    exact ⟨dat[j], Vector.mem_toList_iff.mpr (Vector.getElem_mem j.isLt), h⟩

/-- The first entry that is not VALID, and the lowest free address above the reserved ones. -/
def freeEntry (dat : Vector Word 32) : Option (Fin 32) := (allFin 32).find? fun t => !dat[t].getLsbD 15
def freeAddr (dat : Vector Word 32) : Option Nat := (List.range 0x76).find? fun k => !datUsed dat (8 + k)

theorem i3cAssign_none (h : freeEntry s.io.i3cDat[c] = none) : s.i3cAssign c = s := by
  have hfind : (allFin 32).find? (fun t => !(s.io.i3cDat[c])[t].getLsbD 15) = none := h
  unfold State.i3cAssign
  dsimp only
  rw [hfind]

theorem i3cAssign_some {t : Fin 32} {k : Nat} (ht : freeEntry s.io.i3cDat[c] = some t) (hk : freeAddr s.io.i3cDat[c] = some k) :
    s.i3cAssign c = s.modIo fun i => { i with i3cDat := upd i.i3cDat c fun d => upd d t fun w => datEntry w (8 + k) } := by
  have hfind : (allFin 32).find? (fun t => !(s.io.i3cDat[c])[t].getLsbD 15) = some t := ht
  have haddr : (List.range 0x76).find? (fun k => !(s.io.i3cDat[c]).toList.any fun w =>
      (w.getLsbD 15 && decide (fld w 14 8 = 8 + k)) || decide (fld w 6 0 = 8 + k)) = some k := hk
  unfold State.i3cAssign
  dsimp only
  rw [hfind, haddr]

theorem freeEntry_none {dat : Vector Word 32} (h : ∀ t : Fin 32, dat[t].getLsbD 15 = true) : freeEntry dat = none :=
  List.find?_eq_none.mpr fun t _ => by rw [h t]; exact Bool.false_ne_true

theorem freeEntry_some {dat : Vector Word 32} {t : Fin 32} (ht : dat[t].getLsbD 15 = false)
    (hlow : ∀ j : Fin 32, j < t → dat[j].getLsbD 15 = true) : freeEntry dat = some t := by
  unfold freeEntry allFin
  refine List.find?_eq_some_iff_getElem.mpr ⟨by rw [ht]; rfl, t.val, by rw [List.length_finRange]; exact t.isLt, ?_, fun j hj => ?_⟩
  · exact List.getElem_finRange _
  · rw [List.getElem_finRange]
    simpa using hlow ⟨j, by omega⟩ hj

theorem freeAddr_some {dat : Vector Word 32} {a : Nat} (hlo : 8 ≤ a) (hhi : a < 0x7E) (hfree : datUsed dat a = false)
    (hlow : ∀ x, 8 ≤ x → x < a → datUsed dat x = true) : freeAddr dat = some (a - 8) := by
  refine List.find?_range_eq_some.mpr ⟨?_, List.mem_range.mpr (by omega), fun j hj => ?_⟩
  · rw [Nat.add_sub_cancel' hlo, hfree]
    rfl
  · rw [hlow (8 + j) (by omega) (by omega)]
    rfl

end HotJoin

theorem entry_u_byte (e : Entry) (off : Nat) : (BitVec.ofNat 8 (e.u off 1)).toNat = e.u off 1 :=
  (BitVec.toNat_ofNat _ _).trans (Nat.mod_eq_of_lt (leAt_lt _ _ 1))

/-- Settles O52: the commands by their equations, a frame by what begins it (`beginFrame_takes`, `beginFrame_drops`), fills it
(`addPayload_fits`, `addPayload_cuts`, `addPayload_refused`) and ends it (`closeFrame_open`). -/
theorem streamCommandsAndInputFrames : Obligations.StreamCommandsAndInputFrames := by
  unfold Obligations.StreamCommandsAndInputFrames
  refine ⟨fun e s s1 => ?_, fun b => ?_, fun s n time info => ?_, fun s n d extra => ?_, fun b => ?_, fun s n => ?_,
    fun s p vc time dt h crc d => ?_, fun s c addr time d => ?_⟩
  · intro r n b
    refine ⟨fun h => next_dispatch h rfl, fun x => ?_, fun h => ⟨fun hidle => ?_, fun hout hopen hon => ?_⟩,
      fun h => ⟨fun hstart hstop => ?_, fun hwait => ?_⟩, fun h => next_dispatch h rfl⟩
    · exact ⟨rfl, BitVec.toNat_ofNat _ _, BitVec.toNat_ofNat _ _, entry_u_byte e 11, rfl, BitVec.toNat_ofNat _ _, rfl, rfl, rfl,
        rfl, rfl, rfl, rfl, rfl⟩
    · refine next_dispatch h (unbindBobbin_now fun ⟨hout, hopen, hon⟩ => ?_)
      rcases hidle with hin | hnone | hoff
      · exact Bool.false_ne_true (hin.symm.trans hout)
      · exact Option.isSome_iff_ne_none.mp hopen hnone
      · exact hon hoff
    · exact next_dispatch h (unbindBobbin_waits ⟨hout, hopen, hon⟩)
    · exact next_dispatch h (runBobbin_acts.trans (if_neg fun hw => ((runWaits_iff e b).mp hw).elim hstart hstop))
    · exact next_dispatch h (runBobbin_acts.trans (if_pos ((runWaits_iff e b).mpr hwait)))
  · exact ⟨rfl, rfl, rfl, congrArg BitVec.toNat (stop_keeps b).2.2⟩
  · intro low counted u b slot t y
    have hy : y = b.beginFrame low counted.isSome slot.isSome time info := by
      refine (congrArg (fun x : State => x.bobbins[n]) (openFrame_eq s n time info)).trans ?_
      exact modBob_get _ _ _
    have hnone {α : Type} {o : Option α} (h : o = none) : o.isSome = false := by rw [h]; rfl
    have hplace (h : low = true ∨ counted = none ∨ b.size ≤ b.written - b.consumed ∨ slot = none) :
        b.noPlace low counted.isSome slot.isSome = true :=
      noPlace_iff.mpr (h.imp_right (Or.imp hnone (Or.imp_right hnone)))
    rw [hy]
    refine ⟨beginFrame_seq b time info, ?_, fun hlow hcount hroom hslot => ?_, fun h => ?_, fun h => ?_, fun hlow h => ?_⟩
    · exact (congrArg State.mem (openFrame_eq s n time info)).trans (afterCount_mem s n)
    · rw [beginFrame_takes time info hlow hcount hroom hslot]
      exact ⟨rfl, rfl, rfl, rfl, congrArg some (frameAt_placed time info)⟩
    · obtain ⟨hwritten, hdropped, hsince, hrow, hevents, hframe⟩ := beginFrame_drops time info (hplace h)
      refine ⟨hwritten, hdropped, ?_, hsince, hrow, hframe⟩
      rw [hevents]
      exact setBit_self _ (by decide)
    · have hgone := hplace (h.elim .inl fun hfull => .inr (.inr (.inl hfull.2)))
      obtain ⟨-, -, -, -, hevents, -⟩ := beginFrame_drops time info hgone
      rw [hevents, noAccess_spared h]
      rfl
    · have hgone := hplace (h.elim (fun hc => .inr (.inl hc)) fun hs => .inr (.inr (.inr hs.2)))
      obtain ⟨-, -, -, -, hevents, -⟩ := beginFrame_drops time info hgone
      rw [hevents, noAccess_refused hlow (h.imp hnone (And.imp_right hnone)), if_pos rfl]
      exact setBit_stays 0 (by decide) (setBit_self _ (by decide))
  · intro b
    refine ⟨fun hnone => ⟨addPayload_none hnone d, closeFrame_none hnone extra⟩, fun f hopen => ?_⟩
    intro put y z
    refine ⟨fun hput hfit => ?_, fun hput hlen hcut => ?_, fun k hk hd hfit hput => ?_, closeFrame_opened hopen extra,
      fun hput => closeFrame_complete hopen extra hput, fun k hk hput => ?_,
      fun k x hk hring hsave hat => closeFrame_writes hopen extra hk hring hsave hat⟩
    · have hy : y = _ := addPayload_fits hopen hput hfit
      rw [hy]
      exact ⟨rfl, rfl, rfl⟩
    · have hy : y = _ := addPayload_cuts hopen hput hlen hcut
      rw [hy]
      exact ⟨rfl, setBit_self _ (by decide)⟩
    · obtain ⟨hbob, hmem⟩ := addPayload_refused hopen hk hd hfit hput
      have hy : y = _ := hbob
      rw [hy]
      exact ⟨rfl, rfl, rfl, (noted_drop_events b).1, (noted_drop_events b).2, hmem⟩
    · obtain ⟨hbob, hmem⟩ := closeFrame_refused hopen extra hk hput
      have hz : z = _ := hbob
      rw [hz]
      exact ⟨rfl, rfl, rfl, setBit_ite_stays _ 1 (by decide) (noted_drop_events b).1,
        setBit_ite_stays _ 1 (by decide) (noted_drop_events b).2, hmem⟩
  · obtain ⟨hfsm, hcomplete, hpublished⟩ := stop_keeps b
    refine ⟨hfsm, hcomplete, hpublished, fun hout => stop_output hout, fun hin => ⟨?_, fun f k hf hk => ?_, fun hidle => ?_⟩⟩
    · exact congrArg Bobbin.opened (stop_input hin)
    · rw [stop_discards hin hf hk]
      exact ⟨rfl, rfl, rfl⟩
    · rw [stop_idle hin hidle]
      exact ⟨rfl, rfl, rfl⟩
  · intro b
    refine ⟨publishOne_stays, fun a hb hin hmore hpower hat => ?_⟩
    rw [publishOne_writes hb hin hmore hpower hat]
    refine ⟨fun hsave => ?_, ?_⟩
    · have hput := putOwn_unsaved hsave a ((leBytes 8 b.complete).map some)
      exact (congrArg State.mem hput :)
    · rw [modBob_get, putOwn_bobbins]
      rfl
  · intro cfg failed fed group
    refine ⟨csiOn_iff, fun hoff => ?_, fun hon => ?_, fun n f hon hh hf hgroup => ?_⟩
    · have hno : (!s.csiOn p) = true := by rw [hoff]; rfl
      exact ⟨congrArg Host.Outcome.next (if_pos hno), congrArg Host.Outcome.next (if_pos hno),
        congrArg Host.Outcome.next (if_pos hno)⟩
    · have hno : ¬ (!s.csiOn p) = true := by rw [hon]; exact Bool.false_ne_true
      refine ⟨congrArg Host.Outcome.next (if_neg hno), congrArg Host.Outcome.next (if_neg hno), ?_, fun hnone => ?_⟩
      · exact congrArg Host.Outcome.next (csiPacket_failed vc dt crc d hon)
      · refine congrArg Host.Outcome.next ((csiPacket_sound vc dt crc d hon (h := .ok) (by decide)).trans ?_)
        rw [show s.feeding 0 p.val _ = [] from hnone, List.foldl_nil]
        cases crc <;> rfl
    · intro line t g
      have hone : exec (.csi2Packet p vc dt h crc d) s =
          .next (((s.csiCounted p h (!crc)).modBob n fun b => b.mark vc dt h (!crc)).addPayload n line) := by
        refine congrArg Host.Outcome.next ((csiPacket_sound vc dt crc d hon hh).trans ?_)
        rw [show s.feeding 0 p.val _ = [n] from hgroup]
        rfl
      obtain ⟨hcounted, hbobs⟩ := csiCounted_sound (s := s) (p := p) crc hh
      have hbob : t.bobbins[n].opened = some f := (congrArg (fun v : Vector Bobbin 48 => v[n].opened) hbobs).trans hf
      refine ⟨csiLine_length d, fun hcrc => ?_, fun hcrc => ?_⟩ <;> subst hcrc <;> rw [hone, hcounted]
      · exact congrArg (fun x : State => Host.Outcome.next (x.addPayload n line)) (modBob_congr t n (mark_open vc dt hbob hh false))
      · exact congrArg (fun x : State => Host.Outcome.next (x.addPayload n line))
          (modBob_congr (t.modCsi p id failed) n (mark_open vc dt hbob hh true))
  · have hjoin (hon : s.io.i3cCfg[c].getLsbD 5 = true) (hctl : s.io.i3cCfg[c].getLsbD 3 = true) :
        exec (.hotJoin c) s = .next (s.i3cAssign c) :=
      congrArg Host.Outcome.next (if_neg (by rw [hon, hctl]; simp))
    refine ⟨fun hno => ⟨?_, ?_⟩, fun hlong => ?_, fun hon hlen => ?_, fun hvalid => ?_, fun hno => ?_, fun t a => ?_⟩
    · exact congrArg Host.Outcome.next (if_pos (.inl (by rw [hno]; rfl)))
    · exact congrArg Host.Outcome.next (if_pos (.inl (by rw [hno]; rfl)))
    · exact congrArg Host.Outcome.next (if_pos (.inr hlong))
    · refine congrArg Host.Outcome.next (if_neg ?_)
      rw [hon]
      simpa using hlen
    · refine congrArg Host.Outcome.next ?_
      unfold hotJoined
      rw [i3cAssign_none (freeEntry_none hvalid)]
      exact ite_self s
    · exact congrArg Host.Outcome.next (if_pos (.inr (by rw [hno]; rfl)))
    · intro dat used hon hctl hfree hvalid hlo hhi hunused hbelow
      have haddr : freeAddr s.io.i3cDat[c] = some (a - 8) := by
        refine freeAddr_some hlo hhi ?_ fun x hx hxa => (datUsed_iff _ x).mpr (hbelow x hx hxa)
        exact Bool.eq_false_of_not_eq_true fun hused => hunused ((datUsed_iff _ a).mp hused)
      rw [hjoin hon hctl, i3cAssign_some (freeEntry_some hfree hvalid) haddr, Nat.add_sub_cancel' hlo]
      rfl

end Sys2Proof.Machine
end

section
/-! SUPPORT. RESTORE_RELOAD_DONE without a restore command lets the swatch's movers go on all the same (R291). -/

namespace Sys2Proof.Machine
open Sys2Proof Sys2Proof.Safety

/-- Without a command in flight the reload itself changes nothing; what is left of the step are the swatch's movers. -/
theorem exec_restoreReloadDone_idle {s : State} {i : Fin 8} (h : s.swatches[i].restoreCmd = none) :
    exec (.restoreReloadDone i) s = .next (s.moversResume i) := by
  have idle : reloadDone i s = s := by
    unfold reloadDone
    rw [h]
  exact congrArg (fun t : State => Host.Outcome.next (t.moversResume i)) idle

/-- A copy of one row of 32 bytes within skein 0's store, begun and with no byte of its source asked for yet, as it stands
when its first piece met a full FIFO. -/
def stalledCopy : MoveDesc where
  bytes := toVec 64 (leBytes 8 64 ++ leBytes 8 128 ++ leBytes 4 32 ++ leBytes 4 1 ++ leBytes 16 0 ++ [0xFF])
  k := 0
  draft := 0
  carded := none
  staged := some []
  readTo := 0
  writeTo := 0

/-- Swatch 0 is Cast over skein 0, which is in the map and powered and whose mover 0 has the copy at its head; no command
is in flight. -/
def stalledState : State :=
  State.modMover { State.reset with
    selv := { Selv.reset with skeinsOn := 1 }
    map := { LMap.none with skeins := LMap.none.skeins.set 0 (some ⟨0, Vector.ofFn fun j => ⟨j.val, by omega⟩⟩) }
    swatches := State.reset.swatches.set 0 { Swatch.unset with st := .cast } } 0 0 fun x => { x with queue := [stalledCopy] }

/-- The swatch's movers send the read of the copy's source. -/
theorem stalledState_resumes :
    stalledState.accesses = [] ∧ ((stalledState.moversResume 0).accesses.map fun a => (a.op, a.addr)) = [(.read 32, 64)] := by
  decide +kernel

end Sys2Proof.Machine
end

section
open Sys2Proof Sys2Proof.Machine Sys2Proof.Safety

/-- Refutes O47: the clause that RESTORE_RELOAD_DONE does nothing when no restore is in flight. The step still lets the
movers of the swatch go on (R291), and a mover stopped at a full FIFO that has drained since then sends its read. -/
theorem not_swatchLife : ¬ Obligations.SwatchLife := by
  unfold Obligations.SwatchLife
  intro holds
  obtain ⟨-, timed⟩ := holds
  obtain ⟨-, -, -, -, restoreIdle, -⟩ := timed stalledState 0
  have noCommand : stalledState.swatches[(0 : Fin 8)].restoreCmd = none := by decide +kernel
  have same : stalledState.moversResume 0 = stalledState :=
    Host.Outcome.next.inj ((exec_restoreReloadDone_idle noCommand).symm.trans (restoreIdle noCommand))
  obtain ⟨quiet, sent⟩ := stalledState_resumes
  rw [same, quiet] at sent
  exact absurd sent (by simp)
end

section
/-! SUPPORT. What a needle's instruction does beyond its needle (10 R288 to R290), and what a mesh router does with a packet that
arrives (09 R244). -/

namespace Sys2Proof.Machine
open Sys2Proof Sys2Proof.Safety

/-! ### Issue -/

theorem modNeedle_id (s : State) (n : Fin 96) : s.modNeedle n id = s :=
  congrArg (fun v => { s with needles := v }) (Vector.set_getElem_self n.isLt)

/-- The needles put back. -/
def State.withNeedles (s : State) (v : Vector Needle 96) : State := { s with needles := v }

/-- An instruction that issues, acts beside its needle and changes its needle by `g`: what it leaves of the needle is what a
retirement leaves. -/
theorem issue_acts {s t : State} {n : Fin 96} {len : Nat} {ss vs : List (Fin 32)} {f : State → NStep} {g : Needle → Needle}
    (h : MayIssue s n len ss vs) (hf : f (s.clocked n len) = .done (t.modNeedle n g))
    (hn : t.needles = (s.clocked n len).needles) :
    s.issue n len ss vs f = t.withNeedles (retired s n len g).needles := by
  rw [issue_done h hf, ← clocked_mod]
  unfold State.modNeedle State.withNeedles
  rw [hn]

/-- The same of an instruction that leaves its needle's registers. -/
theorem issue_acts_aside {s t : State} {n : Fin 96} {len : Nat} {ss vs : List (Fin 32)} {f : State → NStep}
    (h : MayIssue s n len ss vs) (hf : f (s.clocked n len) = .done t) (hn : t.needles = (s.clocked n len).needles) :
    s.issue n len ss vs f = t.withNeedles (retired s n len id).needles :=
  issue_acts h (hf.trans (congrArg NStep.done (modNeedle_id t n).symm)) hn

/-- An instruction that is done wherever it issues and leaves its needle's registers. -/
theorem issue_does {s : State} {n : Fin 96} {len : Nat} {ss vs : List (Fin 32)} {act : State → State}
    (h : MayIssue s n len ss vs) (hn : (act (s.clocked n len)).needles = (s.clocked n len).needles) :
    s.issue n len ss vs (fun t => .done (act t)) = (act (s.clocked n len)).withNeedles (retired s n len id).needles :=
  issue_acts_aside h rfl hn

/-- An instruction that is done wherever it issues. -/
theorem issue_does_mod {s : State} {n : Fin 96} {len : Nat} {ss vs : List (Fin 32)} {act : State → State}
    {g : State → Needle → Needle}
    (h : MayIssue s n len ss vs) (hn : (act (s.clocked n len)).needles = (s.clocked n len).needles) :
    s.issue n len ss vs (fun t => .done ((act t).modNeedle n (g t))) =
      (act (s.clocked n len)).withNeedles (retired s n len (g (s.clocked n len))).needles :=
  issue_acts h rfl hn

/-- The counters of an issue are part of no packet. -/
theorem clocked_pkt (s : State) (n m : Fin 96) (len : Nat) (k : Fin 16) : (s.clocked n len).pkt m k = s.pkt m k := rfl

theorem clocked_nextAccess (s : State) (n : Fin 96) (len : Nat) : (s.clocked n len).nextAccess = s.nextAccess := rfl

theorem clocked_homeOf (s : State) (n m : Fin 96) (len : Nat) : (s.clocked n len).homeOf m = s.homeOf m := rfl

/-! ### Packets at a router (R244) -/

section Arrive
variable {s f : State} {r : Fin 16} {h : PktHead} {dests : List (Fin 16)} {mcast : Bool} {vc kind : Nat} {err : Option Out}

theorem arrive_enters (hin : ((s.skeins[r]).mesh).refuses h dests mcast = none) : s.arrive r h dests mcast vc kind err f = f := by
  unfold State.arrive
  rw [hin]

theorem arrive_drops {bit : Nat} {o : Out} (hout : ((s.skeins[r]).mesh).refuses h dests mcast = some bit) :
    s.arrive r h dests mcast vc kind (some o) f = State.emit (State.swStatus (s.modMesh r fun m => m.drop h bit vc kind) h.swatch 5) o := by
  unfold State.arrive
  rw [hout]

end Arrive

/-- Two changes of a mesh unit, put together. -/
theorem modMesh_modMesh (s : State) (k : Fin 16) (f g : MeshUnit → MeshUnit) :
    (s.modMesh k f).modMesh k g = s.modMesh k fun m => g (f m) := by
  simp only [State.modMesh, State.modSkein, upd_upd]

/-- The mesh unit after a change of it. -/
theorem modMesh_mesh (s : State) (k : Fin 16) (f : MeshUnit → MeshUnit) :
    (((s.modMesh k f).skeins[k]).mesh) = f (s.skeins[k]).mesh := by
  simp only [State.modMesh, State.modSkein, Fin.getElem_fin, upd_get_same]

/-- Two changes of a mesh unit that agree on it are one. -/
theorem modMesh_congr {s : State} {k : Fin 16} {f g : MeshUnit → MeshUnit} (h : f (s.skeins[k]).mesh = g (s.skeins[k]).mesh) :
    s.modMesh k f = s.modMesh k g := by
  unfold State.modMesh State.modSkein upd
  dsimp only
  rw [h]

/-- A change that leaves a mesh unit as it is. -/
theorem modMesh_self {s : State} {k : Fin 16} {f : MeshUnit → MeshUnit} (h : f (s.skeins[k]).mesh = (s.skeins[k]).mesh) :
    s.modMesh k f = s :=
  (modMesh_congr (g := id) h).trans (congrArg (fun v => { s with skeins := v }) (Vector.set_getElem_self k.isLt))

end Sys2Proof.Machine
end

section
/-! SUPPORT. Barriers and flags (09 R248, R249; 10 R286). -/

namespace Sys2Proof.Machine
open Sys2Proof Sys2Proof.Safety

/-! ### Barriers (R248) -/

theorem bar_sends {s : State} {n : Fin 96} {ra : Fin 32} (hi : MayIssue s n 4 [] []) (h : ra.val < 16) :
    exec (.bar n ra) s = .next { (retired s n 4 fun y => { y with wait := .barrier ⟨ra.val, h⟩ }) with
      out := s.out ++ [.barrierArrive (s.pkt n (s.homeOf n)) ⟨ra.val, h⟩], nextAccess := s.nextAccess + 1 } :=
  congrArg Host.Outcome.next ((issue_acts hi (by exact dif_pos h) (by rfl)).trans (by rfl))

theorem bar_faults {s : State} {n : Fin 96} {ra : Fin 32} (hi : MayIssue s n 4 [] []) (h : 16 ≤ ra.val) :
    exec (.bar n ra) s = .next (s.needleFault n 1 (s.needles[n]).pc.toNat 0) :=
  congrArg Host.Outcome.next (issue_fault hi (dif_neg (Nat.not_lt.mpr h)))

section Arrival
variable {s : State} {h : PktHead} {k : Fin 6} {i : Fin 16}

/-- An arrival of a needle at its home unit (R248). -/
theorem barrierArrival_home (hk : h.issuer = .needle k) (hin : ((s.skeins[h.dst]).mesh).refuses h [h.dst] false = none) :
    exec (.barrierArrival h.dst h i) s = .next (s.barArrive h.dst h.swatch (needleOf h.src k) i) := by
  refine congrArg Host.Outcome.next ?_
  unfold barrierArrival
  rw [arrive_enters hin, if_neg (not_not_intro rfl), hk]

end Arrival

section BarArrive
variable {s : State} {k i : Fin 16} {sw : Fin 8} {n : Fin 96}

theorem barArrive_stray (hm : n ∉ (((s.skeins[k]).mesh).barriers[i]).members) : s.barArrive k sw n i =
    ((s.modMesh k fun u => { u with events := setBit u.events 4 }).swStatus sw 5).emit (.barrierRelease n i) := by
  unfold State.barArrive
  rw [if_pos (by simpa using hm)]

/-- The arrivals at a barrier with one more needle. -/
def Barrier.arrivedWith (b : Barrier) (n : Fin 96) : List (Fin 96) := if n ∈ b.arrived then b.arrived else b.arrived ++ [n]

theorem arrivedWith_eq (b : Barrier) (n : Fin 96) :
    (if b.arrived.contains n = true then b.arrived else b.arrived ++ [n]) = b.arrivedWith n := by
  simp [Barrier.arrivedWith]

/-- A member's arrival while another has not arrived is kept. -/
theorem barArrive_waits (hm : n ∈ (((s.skeins[k]).mesh).barriers[i]).members)
    (hwait : ∃ j ∈ (((s.skeins[k]).mesh).barriers[i]).members, j ∉ (((s.skeins[k]).mesh).barriers[i]).arrivedWith n) :
    let b := ((s.skeins[k]).mesh).barriers[i]
    s.barArrive k sw n i = s.modMesh k fun u => { u with barriers := u.barriers.set i { b with arrived := b.arrivedWith n } } := by
  intro b
  have hall : b.members.all (b.arrivedWith n).contains = false := by simpa [b] using hwait
  unfold State.barArrive
  rw [if_neg (by simpa using hm)]
  dsimp only
  rw [arrivedWith_eq, hall]
  rfl

/-- The last member's arrival releases every member (R248). -/
theorem barArrive_last (hm : n ∈ (((s.skeins[k]).mesh).barriers[i]).members)
    (hlast : ∀ j ∈ (((s.skeins[k]).mesh).barriers[i]).members, j ∈ (((s.skeins[k]).mesh).barriers[i]).arrivedWith n) :
    let b := ((s.skeins[k]).mesh).barriers[i]
    s.barArrive k sw n i = (s.modMesh k fun u => { u with
      barriers := u.barriers.set i { b with arrived := [], gen := !b.gen } }).emits (b.members.map fun j => .barrierRelease j i) := by
  intro b
  have hall : b.members.all (b.arrivedWith n).contains = true := by simpa [b] using hlast
  unfold State.barArrive
  rw [if_neg (by simpa using hm)]
  dsimp only
  rw [arrivedWith_eq, hall]
  rfl

end BarArrive

/-! ### Flag instructions (R286) -/

section FlagInstr
variable {s : State} {n : Fin 96} {rd ra rb : Fin 32}

/-- The packet of a flag instruction of needle n. -/
def State.flagPacket (s : State) (n : Fin 96) (ra rb : Fin 32) (op : FlagKind) (x : Needle) : Out :=
  .flagOp (s.pkt n (s.homeOf n)) op (Fin.ofNat 64 (x.sr ra).toNat) ((x.sr rb).setWidth 32)

theorem clocked_flagPacket (s : State) (n m : Fin 96) (len : Nat) (op : FlagKind) (x : Needle) :
    (s.clocked m len).flagPacket n ra rb op x = s.flagPacket n ra rb op x := rfl

/-- The state after a flag instruction, with what it leaves of the needle and owes it. -/
def State.flagSent (s : State) (n : Fin 96) (ra rb : Fin 32) (op : FlagKind) (g : Needle → Needle) (owed : List Access) : State :=
  { (retired s n 4 g) with
    out := s.out ++ [s.flagPacket n ra rb op s.needles[n]], nextAccess := s.nextAccess + 1, accesses := s.accesses ++ owed }

/-- SET and ADD owe the register the reply. -/
theorem flagInstr_owes {op : FlagKind} (hi : MayIssue s n 4 [rd, ra, rb] []) (hop : op = .set ∨ op = .add) :
    s.flagInstr n rd ra rb op = s.flagSent n ra rb op id
      [⟨s.nextAccess, .needle n, .mesh (s.homeOf n), .needle, 0, .read 4, .sreg rd 2 false, none, (s.needles[n]).pc.toNat, true,
        false⟩] := by
  have eq : s.flagInstr n rd ra rb op = s.issue n 4 [rd, ra, rb] [] fun t => .done
      ((t.emit (t.flagPacket n ra rb op s.needles[n])).addAccess n (.mesh (t.homeOf n)) 0 (.read 4) (.sreg rd 2 false)
        (s.needles[n]).pc.toNat) := by
    obtain rfl | rfl := hop
    · rfl
    · rfl
  unfold State.flagSent
  rw [eq, issue_does hi rfl, clocked_flagPacket, clocked_homeOf]
  dsimp only [State.addAccess, State.emit, State.useId, State.withNeedles]
  rfl

/-- The waits stall the needle. -/
theorem flagInstr_waits {op : FlagKind} (hi : MayIssue s n 4 [rd, ra, rb] []) (hop : op = .waitGe ∨ op = .waitEq) :
    s.flagInstr n rd ra rb op = s.flagSent n ra rb op (fun y => { y with wait := .flag rd s.nextAccess }) [] := by
  have eq : s.flagInstr n rd ra rb op = s.issue n 4 [rd, ra, rb] [] fun t => .done
      ((t.emit (t.flagPacket n ra rb op s.needles[n])).useId.modNeedle n fun y => { y with wait := .flag rd t.nextAccess }) := by
    obtain rfl | rfl := hop
    · rfl
    · rfl
  unfold State.flagSent
  rw [eq, issue_does_mod (act := fun t => (t.emit (t.flagPacket n ra rb op s.needles[n])).useId) hi rfl,
    List.append_nil, clocked_flagPacket, clocked_nextAccess]
  dsimp only [State.emit, State.useId, State.withNeedles]
  rfl

end FlagInstr

/-! ### Flags at their home unit (R249) -/

section FlagUnit
variable {s : State} {k : Fin 16}

/-- The waits on a flag that its value satisfies are answered, after a change of the unit. -/
theorem settleFlag_modMesh {f : Fin 64} {g : MeshUnit → MeshUnit} {v : Word} (hv : (g (s.skeins[k]).mesh).flags[f] = v) :
    (s.modMesh k g).settleFlag k f =
      (s.modMesh k fun u => { g u with waits := (g u).waits.filter fun w => !(decide (w.flag = f) && w.done v) }).emits
        (((g (s.skeins[k]).mesh).waits.filter fun w => decide (w.flag = f) && w.done v).map fun w => .flagReply w.h.back false v) := by
  unfold State.settleFlag
  dsimp only
  rw [modMesh_mesh, hv, modMesh_modMesh]

/-- A flag given a value. -/
theorem putFlag_eq (f : Fin 64) (v : Word) : s.putFlag k f v =
    (s.modMesh k fun u => { u with
      flags := u.flags.set f v, waits := u.waits.filter fun w => !(decide (w.flag = f) && w.done v) }).emits
      ((((s.skeins[k]).mesh).waits.filter fun w => decide (w.flag = f) && w.done v).map fun w => .flagReply w.h.back false v) :=
  settleFlag_modMesh (g := fun u => { u with flags := u.flags.set f v }) (Vector.getElem_set_self f.isLt)

/-- A wait at a unit where none waits: it is answered where its condition holds, and kept where it fails. -/
theorem settleFlag_one {w : FlagWait} (hw : ((s.skeins[k]).mesh).waits = []) :
    (s.modMesh k fun m => { m with waits := m.waits ++ [w] }).settleFlag k w.flag =
      if w.done (((s.skeins[k]).mesh).flags[w.flag]) = true then
        (s.modMesh k fun m => { m with waits := [] }).emit (.flagReply w.h.back false (((s.skeins[k]).mesh).flags[w.flag]))
      else s.modMesh k fun m => { m with waits := [w] } := by
  rw [settleFlag_modMesh rfl]
  generalize ((s.skeins[k]).mesh).flags[w.flag] = v
  simp only [hw, List.nil_append]
  split
  · next hd =>
    rw [modMesh_congr (g := fun m => { m with waits := [] }) (by simp only [hw]; simp [hd])]
    simp only [List.filter, decide_true, hd]
    rfl
  · next hd =>
    rw [modMesh_congr (g := fun m => { m with waits := [w] }) (by simp only [hw]; simp [hd])]
    simp [hd, State.emits]

section Operation
variable {h : PktHead} {f : Fin 64} {x : Word}

theorem flagOperation_home {op : FlagKind} (hin : ((s.skeins[h.dst]).mesh).refuses h [h.dst] false = none) :
    exec (.flagOperation h.dst h op f x) s = .next (s.flagOp h.dst h op f x) := by
  refine congrArg Host.Outcome.next ?_
  unfold flagOperation
  rw [arrive_enters hin, if_neg (not_not_intro rfl)]

end Operation
end FlagUnit

end Sys2Proof.Machine
end

section
open Sys2Proof Sys2Proof.Machine Sys2Proof.Safety

/-- Settles O15: the instructions by what an issue leaves (`issue_acts`), an arrival by whether it is the last
(`barArrive_waits`, `barArrive_last`), the flag operations by which waits the flag's value then satisfies (`settleFlag_modMesh`). -/
theorem barriersAndFlags : Obligations.BarriersAndFlags := by
  unfold Obligations.BarriersAndFlags
  refine ⟨fun s n ra => ⟨fun hi => ⟨bar_sends hi, bar_faults hi⟩,
      fun h k i hk hin => ⟨fun hm => ?_, fun hm hwait => ?_, fun hm hlast => ?_⟩, fun i => ⟨?_, ?_⟩⟩,
    fun s n rd ra rb hi => ⟨?_, ?_, ?_, ?_⟩, fun s h f v hin => ⟨?_, ?_, fun hw => ⟨?_, ?_, ?_, ?_⟩⟩⟩
  · rw [barrierArrival_home hk hin, barArrive_stray hm]
  · rw [barrierArrival_home hk hin, barArrive_waits hm hwait]
    rfl
  · rw [barrierArrival_home hk hin, barArrive_last hm hlast]
  · exact fun hw => congrArg Host.Outcome.next (if_pos hw)
  · exact fun hw => congrArg Host.Outcome.next (if_neg hw)
  · exact congrArg Host.Outcome.next (flagInstr_owes hi (.inl rfl))
  · exact congrArg Host.Outcome.next (flagInstr_owes hi (.inr rfl))
  · exact congrArg Host.Outcome.next (flagInstr_waits hi (.inl rfl))
  · exact congrArg Host.Outcome.next (flagInstr_waits hi (.inr rfl))
  · rw [flagOperation_home hin]
    exact congrArg Host.Outcome.next (putFlag_eq f v)
  · rw [flagOperation_home hin]
    exact congrArg Host.Outcome.next (putFlag_eq f _)
  all_goals
    intro hv
    rw [flagOperation_home hin]
    refine congrArg Host.Outcome.next ((settleFlag_one hw).trans ?_)
  · exact if_pos (decide_eq_true hv)
  · exact if_neg (by simpa [FlagWait.done] using hv)
  · exact if_pos (decide_eq_true hv)
  · exact if_neg (by simpa [FlagWait.done] using hv)
end

section
/-! SUPPORT. Store packets (09 R241 to R244; 10 R279, R280, R288): an access sent to another store, a packet at a router, and the
answer of an access. -/

namespace Sys2Proof.Machine
open Sys2Proof Sys2Proof.Safety

/-! ### An access that crosses no boundary -/

/-- A range that crosses no multiple of g is one piece. -/
theorem cuts_one {g a len : Nat} (h0 : 0 < len) (hfit : len ≤ g - a % g) : cuts g a len len = [(a, len)] := by
  obtain ⟨m, rfl⟩ : ∃ m, len = m + 1 := ⟨len - 1, by omega⟩
  have hend : ∀ b, cuts g b m 0 = [] := fun b => by cases m <;> rfl
  rw [cuts, if_neg (by omega)]
  dsimp only
  rw [Nat.min_eq_left hfit, Nat.sub_self, hend]

theorem slotCount_one {a len : Nat} (h0 : 0 < len) (hfit : a % 64 + len ≤ 64) : slotCount a len = 1 := by
  unfold slotCount
  rw [if_neg (by omega)]
  omega

/-- An aligned scalar lies in one granule (R279). -/
theorem aligned_fits {a : Nat} (size : Fin 4) (h : a % 2 ^ size.val = 0) : a % 64 + 2 ^ size.val ≤ 64 := by
  have hs : size.val = 0 ∨ size.val = 1 ∨ size.val = 2 ∨ size.val = 3 := by omega
  obtain e | e | e | e := hs
  all_goals
    rw [e] at h ⊢
    omega

theorem dest_shift_zero (d : Dest) : d.shift 0 = d := by
  cases d <;> rfl

theorem part_read_whole (off len : Nat) : (AccOp.read len).part off len = .read len := rfl

theorem part_write_whole {b : List (Option Byte)} {len : Nat} (h : b.length = len) : (AccOp.write b).part 0 len = .write b :=
  congrArg AccOp.write (List.take_of_length_le h.le)

theorem regBytes_length (x : Needle) (rt : Fin 32) (size : Nat) : (regBytes x rt size).length = 2 ^ size :=
  (List.length_map _).trans (leBytes_length _ _)

/-! ### Another store of the swatch (R280) -/

section Access
variable {s : State} {n : Fin 96} {k : Fin 16} {a len : Nat}

/-- An access of a store goes over no port, so no class FIFO holds it up. -/
theorem fifoStall_store (hr : s.region a = .store k) : s.fifoStall n a len = false := by
  unfold State.fifoStall
  rw [hr]

/-- An access of a store needs no window. -/
theorem oneWindow_store (hr : s.region a = .store k) : s.oneWindow n a len = true := by
  unfold State.oneWindow
  rw [hr]
  dsimp only
  split
  · rfl
  · rfl

/-- An access within a granule of another store of the swatch goes out as one packet. -/
theorem access_mesh {i : Fin 8} {scalar : Bool} {op : AccOp} {dest : Dest} {pc : Nat} (hr : s.region a = .store k)
    (hk : k ≠ skeinOf n) (hi : s.swatchOf (skeinOf n) = some i) (hc : (s.swatches[i]).covers k = true) (h0 : 0 < len)
    (hfit : a % 64 + len ≤ 64) (hslots : s.slotsUsed n op.isRead < 64) :
    s.access n scalar a len op dest pc = .done (s.meshAccess n k a (op.part 0 len) dest pc) := by
  have hroom : (s.offStore n a && decide (64 < s.slotsUsed n op.isRead + slotCount a len)) = false := by
    rw [slotCount_one h0 hfit, decide_eq_false (by omega), Bool.and_false]
  unfold State.access
  rw [hroom, fifoStall_store hr, oneWindow_store hr, cuts_one h0 (by omega)]
  simp only [Bool.or_self, Bool.false_eq_true, if_false, Bool.not_true, List.foldl_cons, List.foldl_nil, Nat.sub_self, dest_shift_zero]
  unfold State.rowAccess
  simp only [hr, hi, if_neg hk, hc, if_true]

theorem clocked_region (s : State) (n : Fin 96) (len a : Nat) : (s.clocked n len).region a = s.region a := rfl

theorem clocked_slotsUsed (s : State) (n m : Fin 96) (len : Nat) (read : Bool) :
    (s.clocked n len).slotsUsed m read = s.slotsUsed m read := rfl

/-- A scalar access that issues and lies in another store of the swatch. -/
theorem scalarAccess_mesh {i : Fin 8} {rt ra : Fin 32} {size : Fin 4} {off : BitVec 12} {op : Needle → AccOp} {dest : Dest}
    (h : MayIssue s n 4 [rt, ra] []) (ha : mAddr s.needles[n] ra off (2 ^ size.val) = a)
    (haligned : a % 2 ^ size.val = 0) (hr : s.region a = .store k)
    (hk : k ≠ skeinOf n) (hi : s.swatchOf (skeinOf n) = some i) (hc : (s.swatches[i]).covers k = true)
    (hslots : s.slotsUsed n (op s.needles[n]).isRead < 64) :
    s.scalarAccess n rt ra size.val off op dest =
      ((s.clocked n 4).meshAccess n k a ((op s.needles[n]).part 0 (2 ^ size.val)) dest (s.needles[n]).pc.toNat).withNeedles
        (retired s n 4 id).needles := by
  subst ha
  unfold State.scalarAccess
  refine issue_acts_aside (t := (s.clocked n 4).meshAccess n k (mAddr s.needles[n] ra off (2 ^ size.val))
    ((op s.needles[n]).part 0 (2 ^ size.val)) dest (s.needles[n]).pc.toNat) h ?_ ?_
  · exact (if_neg (not_not_intro haligned)).trans
      (access_mesh ((clocked_region ..).trans hr) hk hi hc (Nat.two_pow_pos _) (aligned_fits size haligned) hslots)
  · rfl

end Access

/-! ### Packets at a router (R241, R244) -/

section Packet
variable {s : State} {r : Fin 16} {h : PktHead} {o : BitVec 22}

/-- A packet taken in waits at the banks of its granules. -/
theorem takePacket_waits {off len : Nat} {op : AccOp} (h0 : 0 < len) : s.takePacket r h off len op = s.modMesh r fun m =>
    { m with serving := m.serving ++ [⟨h, off, op, (cuts 64 off len len).map fun c => c.1 / 64 * 64, []⟩] } :=
  if_neg (by omega)

/-- A packet that a router accepts is passed on, but at its destination. -/
theorem arrive_passes {f g : State} {vc kind : Nat} {err : Option Out} (hin : ((s.skeins[r]).mesh).refuses h [h.dst] false = none)
    (hr : r ≠ h.dst) : s.arrive r h [h.dst] false vc kind err (if r ≠ h.dst then f else g) = f :=
  (arrive_enters hin).trans (if_pos hr)

theorem arrive_home {f g : State} {vc kind : Nat} {err : Option Out} (hin : ((s.skeins[r]).mesh).refuses h [h.dst] false = none)
    (hr : r = h.dst) : s.arrive r h [h.dst] false vc kind err (if r ≠ h.dst then f else g) = g :=
  (arrive_enters hin).trans (if_neg (not_not_intro hr))

end Packet

/-! ### Faults (R288) -/

section Fault
variable {s : State} {n : Fin 96} {pc addr : Nat}

theorem faultSide_access (s : State) (i : Option (Fin 8)) (addr : Nat) :
    (s.faultSide i 4 addr).needles = s.needles ∧ (s.faultSide i 4 addr).edgeCarders = s.edgeCarders := by
  unfold State.faultSide
  rw [if_pos (by decide)]
  split
  · exact ⟨rfl, rfl⟩
  · exact ⟨rfl, rfl⟩

/-- A failed access stops its needle and leaves the edge carders. -/
theorem needleFault_access (s : State) (n : Fin 96) (pc addr : Nat) :
    ((s.needleFault n 4 pc addr).needles[n]).wait = .none ∧ (s.needleFault n 4 pc addr).edgeCarders = s.edgeCarders := by
  obtain ⟨hn, hc⟩ := faultSide_access (s.modNeedle n fun x => x.stopped 4 pc addr) (s.swatchOf (skeinOf n)) addr
  have key : (s.needleFault n 4 pc addr).needles = (s.modNeedle n fun x => x.stopped 4 pc addr).needles ∧
      (s.needleFault n 4 pc addr).edgeCarders = s.edgeCarders := by
    unfold State.needleFault
    dsimp only
    generalize State.faultSide _ _ _ _ = t at hn hc ⊢
    split
    · exact ⟨hn, hc⟩
    · exact ⟨hn, hc⟩
  refine ⟨?_, key.2⟩
  rw [key.1, modNeedle_needles, Fin.getElem_fin, upd_get_same]
  rfl

end Fault

/-! ### The answer of an access -/

section Answer
variable {s : State} {n : Fin 96} {a : Access} {d : List Byte}

/-- Nothing waits for the access: no load of a card program, no fence. -/
theorem settled {t : State} (hloads : ∀ p : Fin 10, (t.edgeCarders[p]).loads = []) (hw : (t.needles[n]).wait = .none) :
    t.viewLoads.settleFence n = t := by
  unfold State.viewLoads
  rw [loadsAt_none fun p _ => hloads p]
  unfold State.settleFence
  rw [hw]

/-- Data that come for an access that is no part of a view are delivered. -/
theorem finishNeedle_data (hlive : a.live = true) (hpart : ∀ t : State, t.viewPart a.dest d = (t, some (a.dest, d)))
    (hloads : ∀ p : Fin 10, (((s.dropAccess a.id).deliver n a.dest d).edgeCarders[p]).loads = [])
    (hw : (((s.dropAccess a.id).deliver n a.dest d).needles[n]).wait = .none) :
    s.finishNeedle n a none d = (s.dropAccess a.id).deliver n a.dest d := by
  unfold State.finishNeedle
  simp only [hlive, Bool.not_true, Bool.false_eq_true, if_false, hpart]
  exact settled hloads hw

theorem setS_wait (x : Needle) (rd : Fin 32) (v : DWord) : (x.setS rd v).wait = x.wait := by
  unfold Needle.setS
  split
  · rfl
  · rfl

/-- The data of a load reach its register. -/
theorem finishNeedle_register {rd : Fin 32} {size : Nat} {sg : Bool} (hlive : a.live = true) (hdest : a.dest = .sreg rd size sg)
    (hw : (s.needles[n]).wait = .none) (hloads : ∀ p : Fin 10, (s.edgeCarders[p]).loads = []) :
    s.finishNeedle n a none d = (s.dropAccess a.id).modNeedle n fun x => x.setS rd (loadVal size sg d) := by
  have hdel : (s.dropAccess a.id).deliver n a.dest d = (s.dropAccess a.id).modNeedle n fun x => x.setS rd (loadVal size sg d) := by
    rw [hdest]
    rfl
  rw [finishNeedle_data hlive (fun t => by rw [hdest]; rfl), hdel]
  · rw [hdel]
    exact hloads
  · rw [hdel, modNeedle_needles, Fin.getElem_fin, upd_get_same, setS_wait]
    exact hw

/-- A store that is acknowledged is done. -/
theorem finishNeedle_store (hlive : a.live = true) (hdest : a.dest = .none)
    (hw : (s.needles[n]).wait = .none) (hloads : ∀ p : Fin 10, (s.edgeCarders[p]).loads = []) :
    s.finishNeedle n a none d = s.dropAccess a.id := by
  have hdel : (s.dropAccess a.id).deliver n a.dest d = s.dropAccess a.id := by
    rw [hdest]
    rfl
  rw [finishNeedle_data hlive (fun t => by rw [hdest]; rfl), hdel]
  · rw [hdel]
    exact hloads
  · rw [hdel]
    exact hw

/-- An error of an access that is no part of a view faults its needle (R244, R288). -/
theorem finishNeedle_error (hlive : a.live = true) (hcut : ∀ t : State, t.viewCut a.dest = t)
    (hloads : ∀ p : Fin 10, (s.edgeCarders[p]).loads = []) :
    s.finishNeedle n a (some 4) d = (s.dropAccess a.id).needleFault n 4 a.pc a.addr := by
  obtain ⟨hw, hc⟩ := needleFault_access (s.dropAccess a.id) n a.pc a.addr
  unfold State.finishNeedle
  simp only [hlive, Bool.not_true, Bool.false_eq_true, if_false, hcut]
  refine settled (fun p => ?_) hw
  rw [hc]
  exact hloads p

/-- The first that meets a condition also is the first that meets it and a further one it meets. -/
theorem find?_and {α : Type} {p q : α → Bool} {l : List α} {a : α} (h : l.find? p = some a) (hq : q a = true) :
    (l.find? fun x => p x && q x) = some a := by
  rw [List.find?_eq_some_iff_append] at h ⊢
  obtain ⟨hp, before, after, hl, hno⟩ := h
  refine ⟨by rw [hp, hq]; rfl, before, after, hl, fun b hb => ?_⟩
  rw [Bool.eq_false_of_not_eq_true' (hno b hb)]
  rfl

/-- An answer at the skein of the needle whose access it names. -/
theorem meshAnswer_ends {h : PktHead} {k : Fin 6} {dst : Fin 16} (hk : h.issuer = .needle k) (hpath : a.path = .mesh dst)
    (hwho : a.who = .needle (needleOf h.dst k)) (hfind : (s.accesses.find? fun c => decide (c.id = h.id)) = some a) (error : Bool) :
    s.meshAnswer h error d = s.finishNeedle (needleOf h.dst k) a (if error = true then some 4 else none) d := by
  unfold State.meshAnswer
  dsimp only
  rw [find?_and hfind (by rw [hpath]), hk]
  dsimp only
  rw [hwho]
  exact if_pos rfl

end Answer

end Sys2Proof.Machine
end

section
open Sys2Proof Sys2Proof.Machine Sys2Proof.Safety

/-- Settles O18: what is sent by `scalarAccess_mesh`, a packet by whether its router accepts it (`arrive_passes`, `arrive_home`,
`arrive_drops`), an answer by the access it ends (`meshAnswer_ends`). -/
theorem storePackets : Obligations.StorePackets := by
  unfold Obligations.StorePackets
  refine ⟨fun s n rt ra size signed off k i hi => ?_,
    fun s r h o len b fp32 hin => ⟨fun hr => ⟨?_, ?_, ?_⟩, fun hr h0 => ?_, fun hr h0 h256 => ⟨?_, ?_⟩⟩,
    fun s r h o len b bit hout => ⟨?_, ?_⟩,
    fun s h k a dst data rd size sg hin hk hid hpath hwho hlive hfind hw hloads =>
      ⟨fun hdest => ?_, fun hdest => ?_, fun hdest => ?_, fun hdest => ?_⟩⟩
  · intro x w a sent haligned hr hk hsw hc
    refine ⟨fun hslots => ?_, fun hslots => ?_⟩
    · refine congrArg Host.Outcome.next ((scalarAccess_mesh (op := fun _ => .read w) hi rfl haligned hr hk hsw hc hslots).trans ?_)
      rw [part_read_whole]
      dsimp only [State.meshAccess, State.addAccess, State.emit, State.useId, State.withNeedles]
      rw [clocked_pkt]
      rfl
    · refine congrArg Host.Outcome.next ((scalarAccess_mesh (op := fun x => .write (regBytes x rt size.val)) hi rfl haligned hr hk hsw hc
        hslots).trans ?_)
      rw [part_write_whole (regBytes_length ..)]
      dsimp only [State.meshAccess, State.addAccess, State.emit, State.useId, State.withNeedles]
      rw [clocked_pkt]
      rfl
  · exact congrArg Host.Outcome.next (arrive_passes hin hr)
  · exact congrArg Host.Outcome.next (arrive_passes hin hr)
  · exact congrArg Host.Outcome.next (arrive_passes hin hr)
  · exact congrArg Host.Outcome.next ((arrive_home hin hr).trans (takePacket_waits h0))
  · refine congrArg Host.Outcome.next ((arrive_home hin hr).trans ?_)
    rw [Nat.min_eq_right h256, List.take_of_length_le h256]
    exact takePacket_waits h0
  · refine congrArg Host.Outcome.next ((arrive_home hin hr).trans ?_)
    rw [Nat.min_eq_right h256, List.take_of_length_le h256]
    exact takePacket_waits h0
  · exact congrArg Host.Outcome.next (arrive_drops hout)
  · exact congrArg Host.Outcome.next (arrive_drops hout)
  · refine congrArg Host.Outcome.next ((arrive_home hin rfl).trans ((meshAnswer_ends hk hpath hwho hfind false).trans ?_))
    rw [← hid]
    exact finishNeedle_register hlive hdest hw hloads
  · refine congrArg Host.Outcome.next ((arrive_home hin rfl).trans ((meshAnswer_ends hk hpath hwho hfind false).trans ?_))
    rw [← hid]
    exact finishNeedle_store hlive hdest hw hloads
  · refine congrArg Host.Outcome.next ((arrive_home hin rfl).trans ((meshAnswer_ends hk hpath hwho hfind true).trans ?_))
    rw [← hid]
    exact finishNeedle_error hlive (fun t => by rw [hdest]; rfl) hloads
  · refine congrArg Host.Outcome.next ((arrive_home hin rfl).trans ((meshAnswer_ends hk hpath hwho hfind true).trans ?_))
    rw [← hid]
    exact finishNeedle_error hlive (fun t => by rw [hdest]; rfl) hloads
end

section
/-! SUPPORT. Multicasts and fixed-tree additions (09 R245 to R247; 10 R285). -/

namespace Sys2Proof.Machine
open Sys2Proof Sys2Proof.Safety

/-! ### Requests put on the list -/

section Request
variable {s : State} {n : Fin 96} {k r : Fin 16} {addr len pc : Nat} {dest : Dest} {o : Out} {v : Vector Needle 96}
  {f : MeshUnit → MeshUnit}

theorem addMesh_needles : (s.addMesh n k addr len dest pc).needles = s.needles := rfl
theorem emit_needles : (s.emit o).needles = s.needles := rfl
theorem modMesh_needles : (s.modMesh r f).needles = s.needles := rfl
theorem addMesh_emit : (s.emit o).addMesh n k addr len dest pc = (s.addMesh n k addr len dest pc).emit o := rfl
theorem addMesh_modMesh : (s.modMesh r f).addMesh n k addr len dest pc = (s.addMesh n k addr len dest pc).modMesh r f := rfl
theorem emit_withNeedles : (s.emit o).withNeedles v = (s.withNeedles v).emit o := rfl
theorem modMesh_withNeedles : (s.modMesh r f).withNeedles v = (s.withNeedles v).modMesh r f := rfl

end Request

/-! ### MESH.MCAST and MESH.TREE (R285) -/

section MeshClass
variable {s : State} {n : Fin 96} {rd ra rb : Fin 32}

theorem meshMcast_outside (hi : MayIssue s n 4 [rd, rb] [ra])
    (hoff : ((s.needles[n]).sr rd).toNat % 64 ≠ 0 ∨ 0x400000 < ((s.needles[n]).sr rd).toNat + 256) :
    meshMcast n rd ra rb s = s.needleFault n 2 (s.needles[n]).pc.toNat ((s.needles[n]).sr rd).toNat := by
  unfold meshMcast
  exact issue_fault hi (if_pos hoff)

theorem meshTree_undefined (hi : MayIssue s n 4 [rd, rb] [ra]) (hf : fld ((s.needles[n]).sr rb) 9 8 = 3) :
    meshTree n rd ra rb s = s.needleFault n 1 (s.needles[n]).pc.toNat 0 := by
  unfold meshTree
  exact issue_fault hi (if_pos hf)

theorem meshTree_outside (hi : MayIssue s n 4 [rd, rb] [ra]) (hf : fld ((s.needles[n]).sr rb) 9 8 ≠ 3)
    (hoff : ((s.needles[n]).sr rd).toNat % 64 ≠ 0 ∨ 0x400000 < ((s.needles[n]).sr rd).toNat + 256) :
    meshTree n rd ra rb s = s.needleFault n 2 (s.needles[n]).pc.toNat ((s.needles[n]).sr rd).toNat := by
  unfold meshTree
  exact issue_fault hi ((if_neg hf).trans (if_pos hoff))

theorem clocked_swatches (s : State) (n : Fin 96) (len : Nat) : (s.clocked n len).swatches = s.swatches := rfl

theorem clocked_skeins (s : State) (n : Fin 96) (len : Nat) : (s.clocked n len).skeins = s.skeins := rfl

/-- The state after a mesh request of 256 bytes at `off`, with one acknowledgement owed. -/
def State.meshOwed (s : State) (n : Fin 96) (off : Nat) (dst : Fin 16) (dest : Dest) : State :=
  { (retired s n 4 id) with
    nextAccess := s.nextAccess + 1
    accesses := s.accesses ++ [⟨s.nextAccess, .needle n, .mesh dst, .needle, off, .write (List.replicate 256 none), dest, none,
      (s.needles[n]).pc.toNat, true, false⟩] }

/-- A mesh request put on the list by an instruction that issues. -/
theorem addMesh_owed (s : State) (n : Fin 96) (off : Nat) (dst : Fin 16) (dest : Dest) :
    ((s.clocked n 4).addMesh n dst off 256 dest (s.needles[n]).pc.toNat).withNeedles (retired s n 4 id).needles =
      s.meshOwed n off dst dest := by
  dsimp only [State.addMesh, State.addAccess, State.useId, State.withNeedles]
  rfl

/-- Offsets at which a vector register fits in a store, and room for its four granules. -/
structure MeshFits (s : State) (n : Fin 96) (off : Nat) : Prop where
  aligned : off % 64 = 0
  inside  : off + 256 ≤ 0x400000
  slots   : s.slotsUsed n false ≤ 60

theorem MeshFits.offset {off : Nat} (h : MeshFits s n off) : ¬(off % 64 ≠ 0 ∨ 0x400000 < off + 256) := by
  obtain ⟨ha, hb, -⟩ := h
  omega

theorem MeshFits.room {off : Nat} (h : MeshFits s n off) : ¬64 < (s.clocked n 4).slotsUsed n false + 4 := by
  rw [clocked_slotsUsed]
  have := h.slots
  omega

theorem meshMcast_sends {l : List (Fin 16)} (hi : MayIssue s n 4 [rd, rb] [ra]) (hfit : MeshFits s n ((s.needles[n]).sr rd).toNat)
    (hl : mcastTargets ((s.needles[n]).sr rb) = some l) :
    meshMcast n rd ra rb s = (s.meshOwed n ((s.needles[n]).sr rd).toNat (skeinOf n) .none).emit
      (.mcast (skeinOf n) (s.pkt n (skeinOf n)) (skeinMask l) (BitVec.ofNat 22 ((s.needles[n]).sr rd).toNat)
        (vecBytes (s.needles[n]).v[ra])) := by
  unfold meshMcast
  rw [issue_acts_aside (t := ((s.clocked n 4).emit (.mcast (skeinOf n) ((s.clocked n 4).pkt n (skeinOf n)) (skeinMask l)
    (BitVec.ofNat 22 ((s.needles[n]).sr rd).toNat) (vecBytes (s.needles[n]).v[ra]))).addMesh n (skeinOf n)
      ((s.needles[n]).sr rd).toNat 256 .none (s.needles[n]).pc.toNat) hi ?_ (addMesh_needles.trans emit_needles), clocked_pkt,
    addMesh_emit, emit_withNeedles, addMesh_owed]
  · dsimp only
    rw [if_neg hfit.offset, if_neg hfit.room, hl]

/-- A mesh unit in which a needle has begun one more addition of a reduce id. -/
def MeshUnit.begun (u : MeshUnit) (j : Fin 6) (red : Fin 16) : MeshUnit :=
  { u with nextInst := upd u.nextInst j fun v => upd v red fun c => c + 1 }

theorem meshTree_sends {i : Fin 8} (hi : MayIssue s n 4 [rd, rb] [ra]) (hfit : MeshFits s n ((s.needles[n]).sr rd).toNat)
    (hsw : s.swatchOf (skeinOf n) = some i) (hf : fld ((s.needles[n]).sr rb) 9 8 ≠ 3)
    (hrel : fld ((s.needles[n]).sr rb) 7 4 < (s.swatches[i]).size) :
    let w := (s.needles[n]).sr rb
    let off := ((s.needles[n]).sr rd).toNat
    let red : Fin 16 := Fin.ofNat 16 (fld w 3 0)
    let inst := ((((s.skeins[skeinOf n]).mesh).nextInst[kOf n])[red])
    let dst := (s.swatches[i]).atRel (fld w 7 4)
    meshTree n rd ra rb s = ((s.meshOwed n off dst (.tree red inst)).modMesh (skeinOf n) fun u => u.begun (kOf n) red).emit
        (.tree (skeinOf n) (s.pkt n dst) ⟨red, inst, Fin.ofNat 3 (fld w 9 8), BitVec.ofNat 16 (fld w 31 16), BitVec.ofNat 22 off,
          .here (kOf n), 0, false⟩ (vecBytes (s.needles[n]).v[ra])) := by
  intro w off red inst dst
  unfold meshTree
  rw [issue_acts_aside (t := (((s.clocked n 4).modMesh (skeinOf n) fun u => u.begun (kOf n) red).emit
        (.tree (skeinOf n) ((s.clocked n 4).pkt n dst) ⟨red, inst, Fin.ofNat 3 (fld w 9 8), BitVec.ofNat 16 (fld w 31 16),
          BitVec.ofNat 22 off, .here (kOf n), 0, false⟩ (vecBytes (s.needles[n]).v[ra]))).addMesh n dst
      off 256 (.tree red inst) (s.needles[n]).pc.toNat) hi ?_
        (addMesh_needles.trans (emit_needles.trans modMesh_needles)), clocked_pkt, addMesh_emit, emit_withNeedles, addMesh_modMesh,
    modMesh_withNeedles, addMesh_owed]
  · have hsw' : (s.clocked n 4).swatchOf (skeinOf n) = some i := hsw
    dsimp only
    rw [if_neg hf, if_neg hfit.offset, if_neg hfit.room, hsw']
    dsimp only
    rw [clocked_swatches, clocked_skeins, if_neg (Nat.not_le.mpr hrel)]
    rfl

end MeshClass

/-! ### Multicasts at a router (R245) -/

section Multicast
variable {s : State} {r : Fin 16} {h : PktHead} {targets : BitVec 16} {o : BitVec 22} {d : List Byte}

/-- A multicast with a target is noted at its source, whose acknowledgement waits for every target. -/
theorem mcastBegin_notes (ht : targets ≠ 0) : (if r = h.src then s.mcastBegin h targets else s) =
    if r = h.src then s.modMesh r fun m => { m with mcasts := m.mcasts ++ [(h, targets)] } else s := by
  split
  · next hr =>
    rw [hr]
    exact if_neg ht
  · rfl

/-- An accepted multicast: noted at its source, copied on by route, and taken in at a target. -/
theorem multicastWrite_accepts (hin : ((s.skeins[r]).mesh).refuses h (maskSkeins targets) true = none) (h0 : 0 < d.length)
    (h256 : d.length ≤ 256) (ht : targets ≠ 0) :
    let s1 := if r = h.src then s.modMesh r fun m => { m with mcasts := m.mcasts ++ [(h, targets)] } else s
    let s2 := s1.emits (mcastOn r h (maskSkeins targets) o d)
    multicastWrite r h targets o d s = if targets.getLsbD r.val = true then s2.modMesh r fun m => { m with
      serving := m.serving ++ [⟨h, o.toNat, .write (d.map some), (cuts 64 o.toNat d.length d.length).map fun c => c.1 / 64 * 64, []⟩] }
    else s2 := by
  unfold multicastWrite
  dsimp only
  rw [arrive_enters hin, mcastBegin_notes ht, Nat.min_eq_right h256, List.take_of_length_le h256, takePacket_waits h0]

end Multicast

/-! ### Contributions at a router (R247) -/

section Tree
variable {s : State} {r : Fin 16} {h : PktHead} {t : TreeHead} {f : TreeFmt} {d : List Byte}

/-- The part that the first input of an addition begins at a router. -/
def firstPart (h : PktHead) (t : TreeHead) (f : TreeFmt) (d : List Byte) : TreePart :=
  ⟨t.reduce, t.inst, f, t.members, h.dst, t.offset, [⟨(inDir t.dir).1, (inDir t.dir).2,
    d.take (if f = .fp32 ∧ (inDir t.dir).1 ≠ .here then 512 else 256), t.shift.val, t.sat⟩]⟩

/-- The first input of an addition: kept while others are to come, and sent on or written at once where none is. -/
theorem treeInput_first (hnew : ∀ p ∈ ((s.skeins[r]).mesh).parts, ¬(p.reduce = t.reduce ∧ p.inst = t.inst)) :
    treeInput r h t f d s = ((firstPart h t f d).whole r).elim
      (s.modMesh r fun m => { m with parts := m.parts ++ [firstPart h t f d] }) fun l => s.treeSend r h t f l := by
  unfold treeInput
  dsimp only
  rw [List.find?_eq_none.mpr ?none, List.filter_eq_self.mpr ?rest]
  · change (match (firstPart h t f d).whole r with | some l => _ | none => _) = _
    cases (firstPart h t f d).whole r with
    | none => exact modMesh_congr rfl
    | some l => exact congrArg (State.treeSend · r h t f l) (modMesh_self rfl)
  case none =>
    intro p hp hsame
    obtain ⟨hr, hi, -⟩ := of_decide_eq_true hsame
    exact hnew p hp ⟨hr, hi⟩
  case rest =>
    intro p hp
    rw [decide_eq_false fun ⟨hr, hi, _⟩ => hnew p hp ⟨hr, hi⟩]
    rfl

/-- A contribution that a router accepts. -/
theorem fixedTree_accepts (hin : ((s.skeins[r]).mesh).refuses h [h.dst] false = none) (hf : treeFmt t.fmt.val = some f) :
    fixedTree r h t d s = treeInput r h t f d s := by
  unfold fixedTree
  rw [arrive_enters hin, hf]

/-- An add of INT32 partials that did not fit at shift 8 noted in MESH_EVENTS. -/
def State.treeNoted (s : State) (r : Fin 16) (red : Bool) : State :=
  if red = true then s.modMesh r fun m => { m with events := setBit m.events 3 } else s

theorem treeNoted_keeps (s : State) (r : Fin 16) (red : Bool) :
    (s.treeNoted r red).mem = s.mem ∧ (s.treeNoted r red).poison = s.poison ∧ (s.treeNoted r red).out = s.out ∧
    ((((s.treeNoted r red).skeins[r]).mesh).parts = ((s.skeins[r]).mesh).parts) ∧
    ∀ h reduce inst members, (s.treeNoted r red).treeAcks h reduce inst members = s.treeAcks h reduce inst members := by
  unfold State.treeNoted
  split
  · exact ⟨rfl, rfl, rfl, by rw [modMesh_mesh], fun _ _ _ _ => rfl⟩
  · exact ⟨rfl, rfl, rfl, rfl, fun _ _ _ _ => rfl⟩

/-- A whole sum at D is written at the offset, and every contribution acknowledged. -/
theorem treeSend_writes {l : List TreeIn} (hr : r = h.dst) (hc : s.poison = []) :
    let u := s.treeSend r h t f l
    let a0 := 0x400000 * r.val + t.offset.toNat
    let b := (treeSumIn f l).result f
    (∀ a : Nat, memGet u.mem a = if a0 ≤ a ∧ a < a0 + b.length then b.getD (a - a0) 0 else memGet s.mem a) ∧
    u.out = s.out ++ s.treeAcks h t.reduce t.inst t.members ∧ ((u.skeins[r]).mesh).parts = ((s.skeins[r]).mesh).parts := by
  obtain ⟨hmem, hpoison, hout, hparts, hacks⟩ := treeNoted_keeps s r (treeSumIn f l).red
  intro u a0 b
  have hu : u = ((s.treeNoted r (treeSumIn f l).red).put a0 (b.map some)).emits
      ((s.treeNoted r (treeSumIn f l).red).treeAcks h t.reduce t.inst t.members) := if_pos hr
  rw [hu]
  refine ⟨fun a => ?_, ?_, hparts⟩
  · rw [← hmem]
    exact memGet_put_bytes (hpoison.trans hc) a0 b a
  · rw [← hout, ← hacks]
    rfl

/-- A whole sum at another router is sent on. -/
theorem treeSend_passes {l : List TreeIn} (hr : r ≠ h.dst) :
    let u := s.treeSend r h t f l
    let v := treeSumIn f l
    u.mem = s.mem ∧
    u.out = s.out ++ [.tree (stepTo r (leaves r h.dst)) h
      { t with dir := farSide (leaves r h.dst), shift := Fin.ofNat 9 v.shift, sat := v.sat } (v.onward f)] ∧
    ((u.skeins[r]).mesh).parts = ((s.skeins[r]).mesh).parts := by
  obtain ⟨hmem, -, hout, hparts, -⟩ := treeNoted_keeps s r (treeSumIn f l).red
  intro u v
  have hu : u = (s.treeNoted r v.red).emit (.tree (stepTo r (leaves r h.dst)) h
      { t with dir := farSide (leaves r h.dst), shift := Fin.ofNat 9 v.shift, sat := v.sat } (v.onward f)) := if_neg hr
  rw [hu]
  refine ⟨hmem, ?_, hparts⟩
  rw [← hout]
  rfl

end Tree

end Sys2Proof.Machine
end

section
open Sys2Proof Sys2Proof.Machine Sys2Proof.Safety

/-- Settles O21: the instructions by the checks they pass or fail, a multicast by `multicastWrite_accepts`, a contribution by whether
its part is whole (`treeInput_first`) and where (`treeSend_writes`, `treeSend_passes`). -/
theorem multicastAndTree : Obligations.MulticastAndTree := by
  unfold Obligations.MulticastAndTree
  refine ⟨fun s n rd ra rb hi => ⟨fun hoff => ⟨?_, fun hf => ?_⟩, fun hf => ?_, fun ha hb hslots =>
      ⟨fun l hl => ?_, fun i hsw hf hrel => ?_⟩⟩,
    fun s r h targets o d hin h0 h256 ht => ?_, fun s r h t f d hin hf hnew => ⟨fun hwhole => ?_, fun l hwhole hc => ?_⟩⟩
  · exact congrArg Host.Outcome.next (meshMcast_outside hi hoff)
  · exact congrArg Host.Outcome.next (meshTree_outside hi hf hoff)
  · exact congrArg Host.Outcome.next (meshTree_undefined hi hf)
  · exact congrArg Host.Outcome.next (meshMcast_sends hi ⟨ha, hb, hslots⟩ hl)
  · exact congrArg Host.Outcome.next (meshTree_sends hi ⟨ha, hb, hslots⟩ hsw hf hrel)
  · exact congrArg Host.Outcome.next (multicastWrite_accepts hin h0 h256 ht)
  · refine congrArg Host.Outcome.next ((fixedTree_accepts hin hf).trans ((treeInput_first hnew).trans ?_))
    rw [show (firstPart h t f d).whole r = none from hwhole]
    rfl
  · refine ⟨s.treeSend r h t f l,
      congrArg Host.Outcome.next ((fixedTree_accepts hin hf).trans ((treeInput_first hnew).trans ?_)), ?_, ?_, ?_⟩
    · rw [show (firstPart h t f d).whole r = some l from hwhole]
      rfl
    · by_cases hr : r = h.dst
      · exact (treeSend_writes hr hc).2.2
      · exact (treeSend_passes hr).2.2
    · intro hr
      obtain ⟨hmem, hout, -⟩ := treeSend_writes (t := t) (f := f) (l := l) hr hc
      exact ⟨hmem, hout⟩
    · intro hr
      obtain ⟨hmem, hout, -⟩ := treeSend_passes (s := s) (t := t) (f := f) (l := l) hr
      exact ⟨hmem, hout⟩
end

section
/-! SUPPORT. Stitch channels (09 R251, R252; 10 R284; 11 R310): what a channel holds after a change of it, what its link sends while it
alone has an entry that may go, and what a needle that waits takes from its FIFO. -/

namespace Sys2Proof.Machine
open Sys2Proof Sys2Proof.Safety

/-! ### A channel changed -/

section Channel
variable {s : State} {i : Fin 8} {c c' : Byte} {f : ChanFifo}

/-- A channel is kept under its swatch and number. -/
theorem chan_key (s : State) (i : Fin 8) (c : Byte) : (s.chan i c).swatch = i ∧ (s.chan i c).chan = c := by
  unfold State.chan
  cases h : s.chans.find? fun f => decide (f.swatch = i ∧ f.chan = c) with
  | none => exact ⟨rfl, rfl⟩
  | some f => simpa using List.find?_some h

theorem chan_putChan (hf : f.swatch = i ∧ f.chan = c) : (s.putChan f).chan i c = f := by
  obtain ⟨rfl, rfl⟩ := hf
  unfold State.chan State.putChan
  rw [List.find?_append, List.find?_eq_none.mpr fun g hg => by
    simpa [imp_iff_not_or] using (List.mem_filter.mp hg).2, Option.none_or,
    List.find?_cons_of_pos (by simp), Option.getD_some]

theorem chan_putChan_other (hf : f.swatch = i ∧ f.chan = c) (hc : c' ≠ c) : (s.putChan f).chan i c' = s.chan i c' := by
  obtain ⟨rfl, rfl⟩ := hf
  have hnew : [f].find? (fun g => decide (g.swatch = f.swatch ∧ g.chan = c')) = none := by
    simpa using fun h => hc h.symm
  unfold State.chan State.putChan
  rw [List.find?_append, hnew, Option.or_none, List.find?_filter]
  congr 2
  funext g
  by_cases hg : g.chan = c'
  · simp [hg, hc]
  · simp [hg]

end Channel

/-! ### Entries -/

theorem vecBytes_length (v : VReg) : (vecBytes v).length = 256 := by
  unfold vecBytes
  simp [List.length_flatMap, leBytes_length]

/-- A list of k times n elements gives k lists. -/
theorem chunksOf_length {α : Type} {n : Nat} (hn : 0 < n) (k : Nat) : ∀ (fuel : Nat) (l : List α), l.length = n * k → k ≤ fuel →
    (chunksOf n fuel l).length = k := by
  induction k with
  | zero =>
    intro fuel l hl _
    obtain rfl := List.eq_nil_of_length_eq_zero hl
    cases fuel <;> rfl
  | succ k ih =>
    intro fuel l hl hk
    obtain ⟨fuel, rfl⟩ : ∃ m, fuel = m + 1 := ⟨fuel - 1, by omega⟩
    have hpos : l.isEmpty = false := by
      rw [List.isEmpty_eq_false_iff, ← List.length_pos_iff, hl]
      positivity
    rw [chunksOf, hpos, if_neg Bool.false_ne_true, List.length_cons, ih fuel _ _ (by omega)]
    rw [List.length_drop, hl, Nat.mul_succ, Nat.add_sub_cancel]

/-- A vector register is four entries. -/
theorem entriesOf_vec (v : VReg) : (entriesOf (vecBytes v)).length = 4 := by
  unfold entriesOf
  rw [List.length_map, vecBytes_length]
  exact chunksOf_length (by decide) 4 256 _ (vecBytes_length v) (by decide)

/-! ### The link of a channel (R251) -/

section Link
variable {s t : State} {i : Fin 8} {c : Byte} {x : Chan}

theorem chanRec_congr (hsw : t.swatches = s.swatches) : t.chanRec = s.chanRec := by
  funext i c
  unfold State.chanRec
  rw [hsw]

theorem chanOpen_congr (hsw : t.swatches = s.swatches) (hfuses : t.fuses = s.fuses) (hports : t.ports = s.ports) :
    t.chanOpen = s.chanOpen := by
  funext i c x
  unfold State.chanOpen State.twinPort State.portsOf State.portUp State.portCarries
  rw [hsw, hfuses, hports]

theorem sendable_iff (hx : s.chanRec i c = some x) :
    s.sendable i c = true ↔ (s.chan i c).outq ≠ [] ∧ (s.chan i c).credits ≠ 0 ∧ s.chanOpen i c x = true := by
  unfold State.sendable
  rw [hx]
  simp [and_assoc]

/-- A link whose channels have nothing that may go finds no slot to serve. -/
theorem nextSlot_idle (h : ∀ c', s.sendable i c' = false) : s.nextSlot i x = none := by
  unfold State.nextSlot
  cases s.swatches[i].map with
  | none => rfl
  | some m => simp [h]

/-- Channel c, of sender n, is the only channel of its swatch that may have an entry that may go. -/
structure SendsAlone (s : State) (i : Fin 8) (c : Byte) (x : Chan) (n : Fin 96) : Prop where
  here   : s.chanRec i c = some x
  source : x.source s.swatches[i] = n
  others : ∀ c', c' ≠ c → s.sendable i c' = false

theorem SendsAlone.idle {n : Fin 96} (h : SendsAlone s i c x n) (hc : s.sendable i c = false) (c' : Byte) : s.sendable i c' = false := by
  by_cases e : c' = c
  · rw [e, hc]
  · exact h.others c' e

/-- A wheel that stands at any slot comes to each of its slots. -/
theorem turn_reaches (at0 : Nat) {p len : Nat} (hp : p < len) : (at0 + (p + (len - at0 % len)) % len) % len = p := by
  have hr := Nat.mod_lt at0 (Nat.zero_lt_of_lt hp)
  have hdiv := Nat.div_add_mod at0 len
  have hsum : at0 + (p + (len - at0 % len)) = p + len * (at0 / len + 1) := by
    rw [Nat.mul_add]
    omega
  rw [Nat.add_mod_mod, hsum, Nat.add_mul_mod_self_left, Nat.mod_eq_of_lt hp]

/-- The link of the one channel that has an entry that may go finds a slot of it. -/
theorem nextSlot_alone {n : Fin 96} (h : SendsAlone s i c x n) (hc : s.sendable i c = true) : ∃ q, s.nextSlot i x = some (q, c) := by
  obtain ⟨-, -, hopen⟩ := (sendable_iff h.here).mp hc
  cases hslot : s.nextSlot i x with
  | none =>
    exfalso
    unfold State.chanOpen at hopen
    rw [Bool.and_eq_true] at hopen
    obtain ⟨hserves, -⟩ := hopen
    unfold State.nextSlot at hslot
    cases hm : s.swatches[i].map with
    | none =>
      rw [hm] at hserves
      cases hserves
    | some m =>
      rw [hm] at hserves hslot
      have hmem : c ∈ m.slots x.srcSkein.toNat (wheelOf x s.fuses.primary) := of_decide_eq_true hserves
      rw [Option.bind_some] at hslot
      dsimp only at hslot
      generalize m.slots x.srcSkein.toNat (wheelOf x s.fuses.primary) = l at hmem hslot
      generalize (s.skeins[skeinOf (x.source s.swatches[i])]).stch.wheel.toList.getD (wheelOf x s.fuses.primary) 0 = at0 at hslot
      obtain ⟨p, hp, hget⟩ := List.getElem_of_mem hmem
      rw [List.findSome?_eq_none_iff] at hslot
      have hturn := hslot ((p + (l.length - at0 % l.length)) % l.length) (List.mem_range.mpr (Nat.mod_lt _ (by omega)))
      rw [turn_reaches at0 hp, List.getD_eq_getElem?_getD, List.getElem?_eq_getElem hp, Option.getD_some, hget, hc] at hturn
      exact absurd hturn (by simp)
  | some r =>
    obtain ⟨q, c'⟩ := r
    refine ⟨q, congrArg (fun y => some (q, y)) ?_⟩
    by_contra hne
    have hother := h.others c' hne
    unfold State.nextSlot at hslot
    obtain ⟨m, -, hslot⟩ := Option.bind_eq_some_iff.mp hslot
    obtain ⟨j, -, hj⟩ := List.exists_of_findSome?_eq_some hslot
    dsimp only at hj
    split at hj
    · next hs =>
      obtain ⟨-, rfl⟩ := Prod.mk.inj (Option.some.inj hj)
      rw [hother] at hs
      cases hs
    · cases hj

/-- A link that finds no slot to serve sends nothing. -/
theorem pumpLink_idle (h : ∀ c', s.sendable i c' = false) (fuel : Nat) : s.pumpLink i x fuel = s := by
  cases fuel with
  | zero => rfl
  | succ fuel =>
    unfold State.pumpLink
    rw [nextSlot_idle h]

/-- What sending the head entry of a channel leaves: the entry is out, its credit spent, and every other channel, needle and byte of
memory as it was. -/
structure EntryGone (s t : State) (i : Fin 8) (c : Byte) (x : Chan) (e : Option Byte × Vector Byte 64)
    (rest : List (Option Byte × Vector Byte 64)) : Prop where
  mem      : t.mem = s.mem
  needles  : t.needles = s.needles
  swatches : t.swatches = s.swatches
  out      : t.out = s.out ++ [.stitch i c x.position e.2]
  recs     : t.chanRec = s.chanRec
  opens    : t.chanOpen = s.chanOpen
  chan     : t.chan i c = { s.chan i c with outq := rest, credits := (s.chan i c).credits - 1 }
  others   : ∀ c', c' ≠ c → t.chan i c' = s.chan i c'

/-- The head entry of a channel sent, at slot q of its link. -/
def State.entrySent (s : State) (i : Fin 8) (c : Byte) (x : Chan) (q : Nat) (e : Option Byte × Vector Byte 64)
    (rest : List (Option Byte × Vector Byte 64)) : State :=
  ((s.modSkein (skeinOf (x.source s.swatches[i])) fun r => { r with stch := { r.stch with
    wheel := if h : wheelOf x s.fuses.primary < 5 then r.stch.wheel.set (wheelOf x s.fuses.primary) (q + 1) else r.stch.wheel } }).putChan
      { s.chan i c with outq := rest, credits := (s.chan i c).credits - 1 }).sendEntry i c x e

theorem entrySent_gone (hlink : x.link ≠ 5) (q : Nat) (e : Option Byte × Vector Byte 64)
    (rest : List (Option Byte × Vector Byte 64)) : EntryGone s (s.entrySent i c x q e rest) i c x e rest := by
  have hkey := chan_key s i c
  unfold State.entrySent State.sendEntry
  rw [if_neg hlink]
  dsimp only [State.emit, State.modSkein]
  exact ⟨rfl, rfl, rfl, rfl, chanRec_congr rfl, chanOpen_congr rfl rfl rfl, chan_putChan hkey, fun c' hc => chan_putChan_other hkey hc⟩

/-- One turn of the link of the one channel that has an entry that may go. -/
theorem pumpLink_turn {n : Fin 96} {e : Option Byte × Vector Byte 64} {rest : List (Option Byte × Vector Byte 64)}
    (h : SendsAlone s i c x n)
    (hc : s.sendable i c = true) (hq : (s.chan i c).outq = e :: rest) (fuel : Nat) :
    ∃ q, s.pumpLink i x (fuel + 1) = ((s.entrySent i c x q e rest).sendEnds i c).pumpLink i x fuel := by
  obtain ⟨q, hslot⟩ := nextSlot_alone h hc
  refine ⟨q, ?_⟩
  rw [State.pumpLink, hslot]
  dsimp only
  rw [h.here, hq]
  unfold State.entrySent
  rfl

section Sender
variable {n : Fin 96}

/-- The needle that sends goes on when its last entry is sent. -/
theorem sendEnds_eq (hx : s.chanRec i c = some x) (hn : x.source s.swatches[i] = n) : s.sendEnds i c =
    if (s.chan i c).outq = [] ∧ (s.needles[n]).wait = .send c then s.wake n id else s := by
  subst hn
  unfold State.sendEnds
  rw [hx]
  simp only [List.isEmpty_iff]

theorem sendable_congr {c' : Byte} (hrecs : t.chanRec = s.chanRec) (hopens : t.chanOpen = s.chanOpen) (hchan : t.chan i c' = s.chan i c') :
    t.sendable i c' = s.sendable i c' := by
  unfold State.sendable
  rw [hrecs, hopens, hchan]

/-- The needles while entries of a SEND of needle n remain, and after its last. -/
def State.sentNeedles (s : State) (n : Fin 96) (rest : List (Option Byte × Vector Byte 64)) : Vector Needle 96 :=
  if rest = [] then (s.wake n id).needles else s.needles

theorem wake_needles_congr {g : Needle → Needle} (h : t.needles = s.needles) : (t.wake n g).needles = (s.wake n g).needles :=
  congrArg (fun v : Vector Needle 96 => upd v n fun x : Needle => (g { x with wait := .none }).boundary) h

theorem sentNeedles_more {rest : List (Option Byte × Vector Byte 64)} (h : rest ≠ []) : s.sentNeedles n rest = s.needles := if_neg h

/-- The sender goes on with its last entry. -/
theorem EntryGone.ends {e : Option Byte × Vector Byte 64} {rest : List (Option Byte × Vector Byte 64)}
    (h : EntryGone s t i c x e rest) (halone : SendsAlone s i c x n) (hw : (s.needles[n]).wait = .send c) :
    t.sendEnds i c = t.withNeedles (s.sentNeedles n rest) := by
  rw [sendEnds_eq (by rw [h.recs, halone.here]) (by rw [h.swatches, halone.source]), h.chan, h.needles]
  unfold State.sentNeedles
  by_cases hrest : rest = []
  · rw [if_pos ⟨hrest, hw⟩, if_pos hrest]
    rw [← wake_needles_congr h.needles]
    rfl
  · rw [if_neg fun hboth => hrest hboth.1, if_neg hrest, ← h.needles]
    rfl

/-- What is left alone after an entry has gone. -/
theorem EntryGone.alone {e : Option Byte × Vector Byte 64} {rest : List (Option Byte × Vector Byte 64)}
    (h : EntryGone s t i c x e rest) (halone : SendsAlone s i c x n) (v : Vector Needle 96) : SendsAlone (t.withNeedles v) i c x n where
  here := (congrFun (congrFun h.recs i) c).trans halone.here
  source := (congrArg (fun w : Vector Swatch 8 => x.source w[i]) h.swatches).trans halone.source
  others := fun c' hne => (sendable_congr h.recs h.opens (h.others c' hne)).trans (halone.others c' hne)

/-- What a channel alone sends: its entries in order, while credits last; the needle that waits for that goes on. -/
structure AllSent (s t : State) (i : Fin 8) (c : Byte) (x : Chan) (n : Fin 96) (l : List (Option Byte × Vector Byte 64)) : Prop where
  mem     : t.mem = s.mem
  out     : t.out = s.out ++ l.map fun e => .stitch i c x.position e.2
  chan    : t.chan i c = { s.chan i c with outq := [], credits := (s.chan i c).credits - l.length }
  needles : t.needles = if l = [] then s.needles else (s.wake n id).needles

/-- The link of a channel that alone has entries sends as many as it has credits for. -/
theorem pumpLink_sends (hlink : x.link ≠ 5) (l : List (Option Byte × Vector Byte 64)) : ∀ (s : State) (fuel : Nat),
    SendsAlone s i c x n → s.chanOpen i c x = true → (s.chan i c).outq = l → l.length ≤ (s.chan i c).credits →
    l.length ≤ fuel → (l ≠ [] → (s.needles[n]).wait = .send c) → AllSent s (s.pumpLink i x fuel) i c x n l := by
  induction l with
  | nil =>
    intro s fuel h _ hq _ _ _
    have hc : s.sendable i c = false := by
      rw [← Bool.not_eq_true, sendable_iff h.here]
      exact fun hs => hs.1 hq
    rw [pumpLink_idle (h.idle hc)]
    exact ⟨rfl, (List.append_nil _).symm, by rw [List.length_nil, Nat.sub_zero, ← hq], rfl⟩
  | cons e rest ih =>
    intro s fuel h hopen hq hcredits hfuel hw
    rw [List.length_cons] at hcredits hfuel
    obtain ⟨fuel, rfl⟩ : ∃ m, fuel = m + 1 := ⟨fuel - 1, by omega⟩
    have hwait := hw (List.cons_ne_nil e rest)
    have hc : s.sendable i c = true := (sendable_iff h.here).mpr ⟨by rw [hq]; exact List.cons_ne_nil e rest, by omega, hopen⟩
    obtain ⟨q, hturn⟩ := pumpLink_turn h hc hq fuel
    have hgone := entrySent_gone (s := s) (i := i) (c := c) hlink q e rest
    rw [hturn, hgone.ends h hwait]
    generalize s.entrySent i c x q e rest = t at hgone
    have hchan : (t.withNeedles (s.sentNeedles n rest)).chan i c =
      { s.chan i c with outq := rest, credits := (s.chan i c).credits - 1 } := hgone.chan
    obtain ⟨hmem, hout, hend, hneedles⟩ := ih (t.withNeedles (s.sentNeedles n rest)) fuel (hgone.alone h _)
      ((congrFun (congrFun (congrFun hgone.opens i) c) x).trans hopen) (by rw [hchan]) (by rw [hchan]; dsimp only; omega) (by omega)
      (fun hrest => by
        change ((s.sentNeedles n rest)[n]).wait = .send c
        rw [sentNeedles_more hrest, hwait])
    refine ⟨hmem.trans hgone.mem, ?_, ?_, ?_⟩
    · rw [hout, List.map_cons, List.append_cons]
      exact congrArg (· ++ _) hgone.out
    · rw [hend, hchan, List.length_cons, Nat.add_comm rest.length 1, Nat.sub_add_eq]
    · rw [hneedles, if_neg (List.cons_ne_nil e rest)]
      by_cases hrest : rest = []
      · rw [if_pos hrest]
        exact if_pos hrest
      · rw [if_neg hrest]
        exact wake_needles_congr (sentNeedles_more hrest)

end Sender
end Link

/-! ### An instruction that waits and goes on at once -/

section Issue
variable {s : State} {n : Fin 96} {len : Nat}

theorem boundary_boundary (x : Needle) : x.boundary.boundary = x.boundary := by
  by_cases h : x.st = .running ∧ x.wait = .none ∧ (x.haltReq ∨ x.stepReq)
  · rw [show x.boundary = { x with st := .halted, haltReq := false, stepReq := false } from if_pos h]
    exact if_neg (by simp)
  · rw [show x.boundary = x from if_neg h]
    exact if_neg h

theorem noWait_eq {x : Needle} (h : x.wait = .none) : { x with wait := .none } = x := by
  rw [← h]

theorem mayIssue_wait {ss vs : List (Fin 32)} (h : MayIssue s n len ss vs) : (s.needles[n]).wait = .none := by
  have hruns := h.runs
  simp only [State.mayIssue, Bool.and_eq_true, decide_eq_true_eq] at hruns
  exact hruns.1.1.1.2

/-- A change of one needle after a wait of it is given up. -/
theorem woken_retired (hw : (s.needles[n]).wait = .none) (w : NWait) (g : Needle → Needle) :
    ((((s.clocked n len).modNeedle n fun y => { y with wait := w }).wake n g).modNeedle n Needle.boundary).needles =
      (retired s n len g).needles := by
  rw [← clocked_mod]
  simp only [State.wake, modNeedle_needles, upd_upd]
  have hy : ((s.clocked n len).needles[n]).wait = .none := by
    rw [Fin.getElem_fin, clocked_needle]
    exact hw
  unfold upd
  congr 1
  dsimp only
  rw [noWait_eq hy, boundary_boundary]

end Issue

/-! ### STCH.SEND (R284) -/

section Send
variable {s : State} {n : Fin 96} {i : Fin 8} {c : Byte} {x : Chan}

theorem ownChan_some {source : Bool} (h : s.ownChan n c source = some (i, x)) :
    s.chanRec i c = some x ∧ (if source = true then x.source s.swatches[i] else x.sink s.swatches[i]) = n := by
  obtain ⟨j, -, h⟩ := Option.bind_eq_some_iff.mp h
  obtain ⟨y, hy, h⟩ := Option.bind_eq_some_iff.mp h
  obtain ⟨hn, h⟩ := Option.ite_none_right_eq_some.mp h
  obtain ⟨rfl, rfl⟩ := Prod.mk.inj (Option.some.inj h)
  exact ⟨hy, hn⟩

/-- The state in which a needle waits for its entries to be sent. -/
def State.entriesQueued (s : State) (n : Fin 96) (i : Fin 8) (c : Byte) (l : List (Option Byte × Vector Byte 64)) : State :=
  (s.modNeedle n fun x => { x with wait := .send c }).putChan { s.chan i c with outq := l }

theorem entriesQueued_chan (l : List (Option Byte × Vector Byte 64)) :
    (s.entriesQueued n i c l).chan i c = { s.chan i c with outq := l } :=
  chan_putChan (chan_key s i c)

theorem entriesQueued_chan_other {c' : Byte} (l : List (Option Byte × Vector Byte 64)) (hne : c' ≠ c) :
    (s.entriesQueued n i c l).chan i c' = s.chan i c' :=
  chan_putChan_other (s := s.modNeedle n fun x => { x with wait := .send c }) (chan_key s i c) hne

theorem entriesQueued_needles (l : List (Option Byte × Vector Byte 64)) :
    (s.entriesQueued n i c l).needles = (s.modNeedle n fun x => { x with wait := .send c }).needles := rfl

theorem entriesQueued_wait (l : List (Option Byte × Vector Byte 64)) : ((s.entriesQueued n i c l).needles[n]).wait = .send c := by
  change ((s.modNeedle n fun x => { x with wait := .send c }).needles[n]).wait = .send c
  rw [modNeedle_needles, Fin.getElem_fin, upd_get_same]

theorem entriesQueued_alone (h : SendsAlone s i c x n) (l : List (Option Byte × Vector Byte 64)) :
    SendsAlone (s.entriesQueued n i c l) i c x n where
  here := h.here
  source := h.source
  others := fun c' hne =>
    (sendable_congr (s := s) (t := s.entriesQueued n i c l) (chanRec_congr rfl) (chanOpen_congr rfl rfl rfl)
      (entriesQueued_chan_other l hne)).trans (h.others c' hne)

/-- Entries queued on an empty queue turn the link of their channel. -/
theorem sendOn_eq {l : List (Option Byte × Vector Byte 64)} (h : SendsAlone s i c x n) (hq : (s.chan i c).outq = []) (hl : l ≠ []) :
    s.sendOn n i c l = (s.entriesQueued n i c l).pumpLink i x 1025 := by
  have hstart : (s.entriesQueued n i c l).sendEnds i c = s.entriesQueued n i c l := by
    rw [sendEnds_eq (entriesQueued_alone h l).here (entriesQueued_alone h l).source, entriesQueued_chan]
    exact if_neg fun hboth => hl hboth.1
  unfold State.sendOn
  dsimp only
  rw [hq, List.nil_append]
  change (s.entriesQueued n i c l).pumpSend i c = _
  unfold State.pumpSend
  rw [(entriesQueued_alone h l).here]
  exact congrArg (State.pumpLink · i x 1025) hstart

/-- SEND with a credit for each entry sends them all, and the needle goes on (R251). -/
theorem sendOn_sends {l : List (Option Byte × Vector Byte 64)} (h : SendsAlone s i c x n) (hopen : s.chanOpen i c x = true)
    (hlink : x.link ≠ 5) (hq : (s.chan i c).outq = []) (hl : l ≠ []) (hcredits : l.length ≤ (s.chan i c).credits)
    (hfuel : l.length ≤ 1025) : AllSent (s.entriesQueued n i c l) (s.sendOn n i c l) i c x n l := by
  rw [sendOn_eq h hq hl]
  refine pumpLink_sends hlink l _ _ (entriesQueued_alone h l) ?_ ?_ ?_ hfuel fun _ => entriesQueued_wait l
  · exact (congrFun (congrFun (congrFun (chanOpen_congr rfl rfl rfl) i) c) x).trans hopen
  · rw [entriesQueued_chan]
  · rw [entriesQueued_chan]
    exact hcredits

/-- SEND without credits queues its entries. -/
theorem sendOn_waits {l : List (Option Byte × Vector Byte 64)} (h : SendsAlone s i c x n) (hq : (s.chan i c).outq = []) (hl : l ≠ [])
    (hcredits : (s.chan i c).credits = 0) : s.sendOn n i c l = s.entriesQueued n i c l := by
  have hc : (s.entriesQueued n i c l).sendable i c = false := by
    rw [← Bool.not_eq_true, sendable_iff (entriesQueued_alone h l).here, entriesQueued_chan]
    exact fun hs => hs.2.1 hcredits
  rw [sendOn_eq h hq hl]
  exact pumpLink_idle ((entriesQueued_alone h l).idle hc) 1025

/-! What the counters of an issue, the queue of a channel and a change of a needle leave. -/

theorem clocked_mem (s : State) (n : Fin 96) (len : Nat) : (s.clocked n len).mem = s.mem := rfl
theorem clocked_out (s : State) (n : Fin 96) (len : Nat) : (s.clocked n len).out = s.out := rfl
theorem entriesQueued_mem (l : List (Option Byte × Vector Byte 64)) : (s.entriesQueued n i c l).mem = s.mem := rfl
theorem entriesQueued_out (l : List (Option Byte × Vector Byte 64)) : (s.entriesQueued n i c l).out = s.out := rfl
theorem modNeedle_mem (s : State) (n : Fin 96) (f : Needle → Needle) : (s.modNeedle n f).mem = s.mem := rfl
theorem modNeedle_out (s : State) (n : Fin 96) (f : Needle → Needle) : (s.modNeedle n f).out = s.out := rfl
theorem modNeedle_chan (s : State) (n : Fin 96) (f : Needle → Needle) (i : Fin 8) (c : Byte) :
    (s.modNeedle n f).chan i c = s.chan i c := rfl

theorem clocked_chan (s : State) (n : Fin 96) (len : Nat) (i : Fin 8) (c : Byte) : (s.clocked n len).chan i c = s.chan i c := rfl

theorem clocked_alone (h : SendsAlone s i c x n) (m : Fin 96) (len : Nat) : SendsAlone (s.clocked m len) i c x n where
  here := h.here
  source := h.source
  others := fun c' hne =>
    (sendable_congr (s := s) (t := s.clocked m len) (chanRec_congr rfl) (chanOpen_congr rfl rfl rfl) (clocked_chan s m len i c')).trans
      (h.others c' hne)

section Instruction
variable {ra rb : Fin 32} {l : List (Option Byte × Vector Byte 64)}

/-- SEND on a channel of which the needle is the source. -/
theorem stchSend_own (hi : MayIssue s n 4 [rb] [ra]) (hown : s.ownChan n (((s.needles[n]).sr rb).setWidth 8) true = some (i, x)) :
    stchSend n ra rb s = ((s.clocked n 4).sendOn n i (((s.needles[n]).sr rb).setWidth 8)
      (entriesOf (vecBytes (s.needles[n]).v[ra]))).modNeedle n Needle.boundary := by
  have hown' : (s.clocked n 4).ownChan n (((s.needles[n]).sr rb).setWidth 8) true = some (i, x) := hown
  unfold stchSend
  exact issue_done hi (by rw [hown'])

theorem stchSend_foreign (hi : MayIssue s n 4 [rb] [ra]) (hown : s.ownChan n (((s.needles[n]).sr rb).setWidth 8) true = none) :
    stchSend n ra rb s = s.needleFault n 10 (s.needles[n]).pc.toNat 0 := by
  have hown' : (s.clocked n 4).ownChan n (((s.needles[n]).sr rb).setWidth 8) true = none := hown
  unfold stchSend
  exact issue_fault hi (by rw [hown'])

/-- A needle whose SEND is done at once is as after any instruction. -/
theorem entriesQueued_retired (hw : (s.needles[n]).wait = .none) :
    ((((s.clocked n 4).entriesQueued n i c l).wake n id).modNeedle n Needle.boundary).needles = (retired s n 4 id).needles := by
  rw [modNeedle_needles, wake_needles_congr (entriesQueued_needles l), ← modNeedle_needles, woken_retired hw]

end Instruction

end Send

section SendCases
variable {s : State} {n : Fin 96} {i : Fin 8} {x : Chan} {ra rb : Fin 32}

theorem stchSend_sends (hi : MayIssue s n 4 [rb] [ra]) (hown : s.ownChan n (((s.needles[n]).sr rb).setWidth 8) true = some (i, x))
    (hothers : ∀ c', c' ≠ ((s.needles[n]).sr rb).setWidth 8 → s.sendable i c' = false)
    (hopen : s.chanOpen i (((s.needles[n]).sr rb).setWidth 8) x = true) (hlink : x.link ≠ 5)
    (hq : (s.chan i (((s.needles[n]).sr rb).setWidth 8)).outq = [])
    (hcredits : (s.chan i (((s.needles[n]).sr rb).setWidth 8)).credits = 4) :
    let c : Byte := ((s.needles[n]).sr rb).setWidth 8
    let t := stchSend n ra rb s
    t.needles = (retired s n 4 id).needles ∧ t.mem = s.mem ∧ t.chan i c = { s.chan i c with credits := 0 } ∧
    t.out = s.out ++ (entriesOf (vecBytes (s.needles[n]).v[ra])).map fun e => .stitch i c x.position e.2 := by
  intro c t
  obtain ⟨hx, hn⟩ := ownChan_some hown
  have hlen := entriesOf_vec (s.needles[n]).v[ra]
  have hl : entriesOf (vecBytes (s.needles[n]).v[ra]) ≠ [] := List.ne_nil_of_length_pos (by rw [hlen]; decide)
  obtain ⟨hmem, hout, hchan, hneedles⟩ := sendOn_sends (clocked_alone ⟨hx, hn, hothers⟩ n 4)
    ((congrFun (congrFun (congrFun (chanOpen_congr rfl rfl rfl) i) c) x).trans hopen) hlink hq hl
    (hlen.trans hcredits.symm).le (by rw [hlen]; decide)
  have ht : t = _ := stchSend_own hi hown
  rw [ht]
  refine ⟨?_, ?_, ?_, ?_⟩
  · rw [modNeedle_needles, hneedles, if_neg hl, ← modNeedle_needles]
    exact entriesQueued_retired (mayIssue_wait hi)
  · rw [modNeedle_mem, hmem, entriesQueued_mem, clocked_mem]
  · rw [modNeedle_chan, hchan, entriesQueued_chan, clocked_chan, hlen, ← hq]
    dsimp only
    rw [hcredits]
  · rw [modNeedle_out, hout, entriesQueued_out, clocked_out]

theorem stchSend_waits (hi : MayIssue s n 4 [rb] [ra]) (hown : s.ownChan n (((s.needles[n]).sr rb).setWidth 8) true = some (i, x))
    (hothers : ∀ c', c' ≠ ((s.needles[n]).sr rb).setWidth 8 → s.sendable i c' = false)
    (hq : (s.chan i (((s.needles[n]).sr rb).setWidth 8)).outq = [])
    (hcredits : (s.chan i (((s.needles[n]).sr rb).setWidth 8)).credits = 0) :
    let c : Byte := ((s.needles[n]).sr rb).setWidth 8
    let t := stchSend n ra rb s
    t.out = s.out ∧ t.needles = (retired s n 4 fun y => { y with wait := .send c }).needles ∧
    t.chan i c = { s.chan i c with outq := entriesOf (vecBytes (s.needles[n]).v[ra]) } := by
  intro c t
  obtain ⟨hx, hn⟩ := ownChan_some hown
  have hl : entriesOf (vecBytes (s.needles[n]).v[ra]) ≠ [] := List.ne_nil_of_length_pos (by rw [entriesOf_vec]; decide)
  have ht : t = _ := stchSend_own hi hown
  rw [ht, sendOn_waits (clocked_alone ⟨hx, hn, hothers⟩ n 4) hq hl hcredits]
  refine ⟨?_, ?_, ?_⟩
  · rw [modNeedle_out, entriesQueued_out, clocked_out]
  · rw [modNeedle_needles, entriesQueued_needles, ← modNeedle_needles, clocked_mod]
  · rw [modNeedle_chan, entriesQueued_chan, clocked_chan]

end SendCases

/-! ### STCH.RECV (R284) -/

section Receive
variable {i : Fin 8} {c : Byte} {x : Chan} {n : Fin 96} {rd : Fin 32}

/-- An entry taken from the head of a FIFO returns its credit (R251). -/
theorem takeEntry64_some {s : State} {e : Vector Byte 64} {rest : List (Vector Byte 64)} (hx : s.chanRec i c = some x)
    (hlink : x.link ≠ 5) (hf : (s.chan i c).fifo = e :: rest) :
    s.takeEntry64 i c = some (e, (s.putChan { s.chan i c with fifo := rest }).emits [.stitchCredit i c]) := by
  have hcredit : s.creditOut i c = [.stitchCredit i c] := by
    unfold State.creditOut
    rw [hx]
    exact if_neg fun h => hlink h.1
  unfold State.takeEntry64
  dsimp only
  rw [hf, hcredit]

/-- The head entry of a FIFO taken by a needle that waits for a vector. -/
def State.entryTaken (s : State) (n : Fin 96) (i : Fin 8) (c : Byte) (rd : Fin 32) (got : List Byte) (e : Vector Byte 64)
    (rest : List (Vector Byte 64)) : State :=
  ((s.putChan { s.chan i c with fifo := rest }).emits [.stitchCredit i c]).modNeedle n fun y =>
    { y with wait := .recv c rd (got ++ e.toList) }

section Taken
variable {s : State} {got : List Byte} {e : Vector Byte 64} {rest : List (Vector Byte 64)}

theorem entryTaken_wait : ((s.entryTaken n i c rd got e rest).needles[n]).wait = .recv c rd (got ++ e.toList) := by
  unfold State.entryTaken
  rw [modNeedle_needles, Fin.getElem_fin, upd_get_same]

/-- A needle that goes on forgets for what it waited. -/
theorem entryTaken_wake (g : Needle → Needle) : ((s.entryTaken n i c rd got e rest).wake n g).needles = (s.wake n g).needles := by
  unfold State.wake State.entryTaken
  simp only [modNeedle_needles, upd_upd]
  rfl

end Taken

/-- What a needle that receives a vector takes: the entries of the FIFO, which fill the vector. -/
structure AllTaken (s t : State) (i : Fin 8) (c : Byte) (n : Fin 96) (rd : Fin 32) (got : List Byte)
    (l : List (Vector Byte 64)) : Prop where
  out     : t.out = s.out ++ List.replicate l.length (.stitchCredit i c)
  chan    : t.chan i c = { s.chan i c with fifo := [] }
  needles : t.needles = (s.wake n fun y => y.setV rd (vecOf (got ++ l.flatMap Vector.toList))).needles

/-- A needle that waits for a vector takes the entries that fill it. -/
theorem pumpRecv_takes (hlink : x.link ≠ 5) (l : List (Vector Byte 64)) : ∀ (s : State) (got : List Byte) (fuel : Nat),
    s.chanRec i c = some x → (s.needles[n]).wait = .recv c rd got → (s.chan i c).fifo = l → got.length + 64 * l.length = 256 →
    l.length < fuel → AllTaken s (s.pumpRecv n i c fuel) i c n rd got l := by
  induction l with
  | nil =>
    intro s got fuel _ hw hf hlen hfuel
    obtain ⟨fuel, rfl⟩ : ∃ m, fuel = m + 1 := ⟨fuel - 1, by omega⟩
    have hdone : s.pumpRecv n i c (fuel + 1) = s.wake n fun y => y.setV rd (vecOf got) := by
      rw [State.pumpRecv, hw]
      exact (if_neg (not_not_intro rfl)).trans (if_pos (by simp at hlen; omega))
    rw [hdone]
    refine ⟨(List.append_nil _).symm, ?_, by rw [List.flatMap_nil, List.append_nil]⟩
    rw [← hf]
    rfl
  | cons e rest ih =>
    intro s got fuel hx hw hf hlen hfuel
    obtain ⟨fuel, rfl⟩ : ∃ m, fuel = m + 1 := ⟨fuel - 1, by omega⟩
    rw [List.length_cons] at hlen hfuel
    have hstep : s.pumpRecv n i c (fuel + 1) = (s.entryTaken n i c rd got e rest).pumpRecv n i c fuel := by
      rw [State.pumpRecv, hw]
      refine (if_neg (not_not_intro rfl)).trans ((if_neg (by omega)).trans ?_)
      rw [takeEntry64_some hx hlink hf]
      rfl
    have hchan : (s.entryTaken n i c rd got e rest).chan i c = { s.chan i c with fifo := rest } := chan_putChan (chan_key s i c)
    obtain ⟨hout, hend, hneedles⟩ := ih (s.entryTaken n i c rd got e rest) (got ++ e.toList) fuel
      ((congrFun (congrFun (chanRec_congr rfl) i) c).trans hx) entryTaken_wait (by rw [hchan])
      (by rw [List.length_append, Vector.length_toList]; omega) (by omega)
    rw [hstep]
    refine ⟨?_, ?_, ?_⟩
    · rw [hout, List.length_cons, List.replicate_succ, List.append_cons]
      rfl
    · rw [hend, hchan]
    · rw [hneedles, List.flatMap_cons, ← List.append_assoc]
      exact entryTaken_wake _

end Receive

section ReceiveCases
variable {s : State} {n : Fin 96} {i : Fin 8} {c : Byte} {x : Chan} {rd rb : Fin 32}

/-- RECV on a channel of which the needle is the receiver. -/
theorem stchRecv_own (hi : MayIssue s n 4 [rb] [rd]) (hown : s.ownChan n (((s.needles[n]).sr rb).setWidth 8) false = some (i, x)) :
    let c : Byte := ((s.needles[n]).sr rb).setWidth 8
    stchRecv n rd rb s = (((s.clocked n 4).modNeedle n fun y => { y with wait := .recv c rd [] }).pumpRecv n i c 6).modNeedle n
      Needle.boundary := by
  intro c
  have hown' : (s.clocked n 4).ownChan n c false = some (i, x) := hown
  unfold stchRecv
  exact issue_done hi (by rw [hown'])

theorem stchRecv_foreign (hi : MayIssue s n 4 [rb] [rd]) (hown : s.ownChan n (((s.needles[n]).sr rb).setWidth 8) false = none) :
    stchRecv n rd rb s = s.needleFault n 10 (s.needles[n]).pc.toNat 0 := by
  have hown' : (s.clocked n 4).ownChan n (((s.needles[n]).sr rb).setWidth 8) false = none := hown
  unfold stchRecv
  exact issue_fault hi (by rw [hown'])

/-- A needle that waits for a vector takes nothing from an empty FIFO. -/
theorem pumpRecv_empty {got : List Byte} (fuel : Nat) (hw : (s.needles[n]).wait = .recv c rd got) (hlen : got.length < 256)
    (hf : (s.chan i c).fifo = []) : s.pumpRecv n i c fuel = s := by
  have hnone : s.takeEntry64 i c = none := by
    unfold State.takeEntry64
    dsimp only
    rw [hf]
  cases fuel with
  | zero => rfl
  | succ fuel =>
    rw [State.pumpRecv, hw]
    refine (if_neg (not_not_intro rfl)).trans ((if_neg (by omega)).trans ?_)
    rw [hnone]

/-- A needle that waits for no entry takes none. -/
theorem pumpRecv_idle (fuel : Nat) (hw : (s.needles[n]).wait = .none) : s.pumpRecv n i c fuel = s := by
  cases fuel with
  | zero => rfl
  | succ fuel => rw [State.pumpRecv, hw]

theorem waiting_wait (w : NWait) : (((s.clocked n 4).modNeedle n fun y => { y with wait := w }).needles[n]).wait = w := by
  rw [modNeedle_needles, Fin.getElem_fin, upd_get_same]

theorem waiting_chan (w : NWait) : ((s.clocked n 4).modNeedle n fun y => { y with wait := w }).chan i c = s.chan i c := by
  rw [modNeedle_chan, clocked_chan]

theorem waiting_chanRec (w : NWait) : ((s.clocked n 4).modNeedle n fun y => { y with wait := w }).chanRec i c = s.chanRec i c := rfl

theorem stchRecv_waits (hi : MayIssue s n 4 [rb] [rd]) (hown : s.ownChan n (((s.needles[n]).sr rb).setWidth 8) false = some (i, x))
    (hf : (s.chan i (((s.needles[n]).sr rb).setWidth 8)).fifo = []) :
    stchRecv n rd rb s = retired s n 4 fun y => { y with wait := .recv (((s.needles[n]).sr rb).setWidth 8) rd [] } := by
  have hnone := pumpRecv_empty 6 (waiting_wait (n := n) (.recv (((s.needles[n]).sr rb).setWidth 8) rd [])) (by decide)
    ((congrArg ChanFifo.fifo (waiting_chan _)).trans hf)
  rw [stchRecv_own hi hown, hnone, clocked_mod]

theorem stchRecv_takes {e0 e1 e2 e3 : Vector Byte 64} (hi : MayIssue s n 4 [rb] [rd])
    (hown : s.ownChan n (((s.needles[n]).sr rb).setWidth 8) false = some (i, x))
    (hf : (s.chan i (((s.needles[n]).sr rb).setWidth 8)).fifo = [e0, e1, e2, e3]) (hlink : x.link ≠ 5) :
    let c : Byte := ((s.needles[n]).sr rb).setWidth 8
    let t := stchRecv n rd rb s
    t.chan i c = { s.chan i c with fifo := [] } ∧
    t.needles = (retired s n 4 fun y => y.setV rd (vecOf (e0.toList ++ e1.toList ++ e2.toList ++ e3.toList))).needles ∧
    t.out = s.out ++ List.replicate 4 (.stitchCredit i c) := by
  intro c t
  obtain ⟨hout, hchan, hneedles⟩ := pumpRecv_takes (n := n) (rd := rd) hlink [e0, e1, e2, e3]
    ((s.clocked n 4).modNeedle n fun y => { y with wait := .recv c rd [] }) [] 6
    ((waiting_chanRec _).trans (ownChan_some hown).1) (waiting_wait _) ((congrArg ChanFifo.fifo (waiting_chan _)).trans hf) rfl (by simp)
  have hbytes : [] ++ [e0, e1, e2, e3].flatMap Vector.toList = e0.toList ++ e1.toList ++ e2.toList ++ e3.toList := by
    simp [List.append_assoc]
  have ht : t = _ := stchRecv_own hi hown
  rw [ht]
  refine ⟨?_, ?_, ?_⟩
  · rw [modNeedle_chan, hchan, modNeedle_chan, clocked_chan]
  · rw [modNeedle_needles, hneedles, hbytes, ← modNeedle_needles, woken_retired (mayIssue_wait hi)]
  · rw [modNeedle_out, hout, modNeedle_out, clocked_out]
    rfl

end ReceiveCases

/-! ### Landing windows and arrivals (R251, R252, R310) -/

section Arrivals
variable {s : State} {n : Fin 96} {i : Fin 8} {c : Byte} {x : Chan}

/-- Nothing lands without a window or an entry. -/
theorem pumpLand_idle (fuel : Nat) (h : (s.chan i c).land = none ∨ (s.chan i c).fifo = []) : s.pumpLand n i c fuel = s := by
  cases fuel with
  | zero => rfl
  | succ fuel =>
    unfold State.pumpLand
    dsimp only
    obtain hland | hfifo := h
    · rw [hland]
    · rw [hfifo]
      cases (s.chan i c).land with
      | none => rfl
      | some w => rfl

/-- An entry of a PLY channel at a wrong position is dropped (R252). -/
theorem entryArrives_misplaced {pos : BitVec 12} {sh : Option Byte} {e : Vector Byte 64} (hx : s.chanRec i c = some x)
    (hply : x.ply = true) (hpos : pos ≠ x.position) : s.entryArrives i c pos sh e = s.stchEvent (skeinOf (x.sink s.swatches[i])) 0 := by
  unfold State.entryArrives
  rw [hx]
  exact if_pos ⟨hply, hpos⟩

/-- A channel put back without a window, whose receiver does not wait, stays as it is. -/
theorem entry_stays {f : ChanFifo} (hf : f.swatch = i ∧ f.chan = c) (hland : f.land = none) (hw : (s.needles[n]).wait = .none) :
    ((s.putChan f).pumpLand n i c 5).pumpRecv n i c 6 = s.putChan f := by
  rw [pumpLand_idle 5 (.inl (by rw [chan_putChan hf, hland]))]
  exact pumpRecv_idle (s := s.putChan f) 6 hw

/-- An entry for which no window is armed and no needle waits joins the FIFO (R251). -/
theorem entryArrives_joins {pos : BitVec 12} {e : Vector Byte 64} (hx : s.chanRec i c = some x) (hlink : x.link ≠ 5)
    (hpos : x.ply = true → pos = x.position) (hroom : (s.chan i c).fifo.length < 4) (hland : (s.chan i c).land = none)
    (hw : (s.needles[x.sink s.swatches[i]]).wait = .none) :
    s.entryArrives i c pos none e = s.putChan { s.chan i c with fifo := (s.chan i c).fifo ++ [e] } := by
  unfold State.entryArrives
  rw [hx]
  refine (if_neg fun h => h.2 (hpos h.1)).trans ((if_neg ?_).trans ?_)
  · rintro (h | h)
    · exact hlink h.1
    · omega
  · dsimp only
    rw [Option.toList_none, List.append_nil]
    exact entry_stays (chan_key s i c) hland hw

/-- A credit for a channel with nothing to send is kept (R251). -/
theorem creditReturn_keeps (hx : s.chanRec i c = some x) (hq : (s.chan i c).outq = []) (hidle : ∀ c', s.sendable i c' = false)
    (hw : (s.needles[x.source s.swatches[i]]).wait = .none) :
    creditReturn i c s = s.putChan { s.chan i c with credits := min 4 ((s.chan i c).credits + 1) } := by
  have hkey := chan_key s i c
  generalize hg : ({ s.chan i c with credits := min 4 ((s.chan i c).credits + 1) } : ChanFifo) = g
  have hgkey : g.swatch = i ∧ g.chan = c := by rw [← hg]; exact hkey
  have hchan : (s.putChan g).chan i c = g := chan_putChan hgkey
  have hx' : (s.putChan g).chanRec i c = some x := hx
  have hidle' : ∀ c', (s.putChan g).sendable i c' = false := by
    intro c'
    by_cases hc : c' = c
    · rw [hc, ← Bool.not_eq_true, sendable_iff hx', hchan, ← hg]
      exact fun hs => hs.1 hq
    · exact (sendable_congr (s := s) (t := s.putChan g) (chanRec_congr rfl) (chanOpen_congr rfl rfl rfl)
        (chan_putChan_other hgkey hc)).trans (hidle c')
  have hends : (s.putChan g).sendEnds i c = s.putChan g := by
    rw [sendEnds_eq hx' rfl]
    refine if_neg fun hboth => ?_
    have hwait : (s.needles[x.source s.swatches[i]]).wait = .send c := hboth.2
    rw [hw] at hwait
    cases hwait
  unfold creditReturn
  rw [hx]
  refine (if_neg (by simp)).trans ?_
  dsimp only
  rw [hg]
  unfold State.pumpSend
  rw [hx', hends]
  exact pumpLink_idle hidle' 1025

theorem twinUnmatched_eq (hx : s.chanRec i c = some x) : twinUnmatched i c s =
    if x.link = 5 ∧ (s.chan i c).credits = 0 then s.stchEvent (skeinOf (x.source s.swatches[i])) 1 else s := by
  unfold twinUnmatched
  rw [hx]

end Arrivals

/-! ### LAND (R310) -/

section Land
variable {s : State} {n : Fin 96} {ra rb rs : Fin 32} {i : Fin 8} {x : Chan}

/-- A window armed for an empty FIFO takes nothing. -/
theorem window_stays {t : State} {c : Byte} {f : ChanFifo} (hf : f.swatch = i ∧ f.chan = c) (hempty : f.fifo = []) :
    (t.putChan f).pumpLand n i c 5 = t.putChan f :=
  pumpLand_idle 5 (.inr (by rw [chan_putChan hf, hempty]))

theorem land_foreign (hi : MayIssue s n 8 [ra, rb, rs] []) (hown : s.ownChan n (((s.needles[n]).sr rb).setWidth 8) false = none) :
    land n ra rb rs s = s.needleFault n 10 (s.needles[n]).pc.toNat 0 := by
  have hown' : (s.clocked n 8).ownChan n (((s.needles[n]).sr rb).setWidth 8) false = none := hown
  unfold land
  exact issue_fault hi (by rw [hown'])

/-- An instruction that issues and changes a channel alone. -/
theorem issue_putChan {len : Nat} {ss vs : List (Fin 32)} {f : State → NStep} {g : ChanFifo} (hi : MayIssue s n len ss vs)
    (hf : f (s.clocked n len) = .done ((s.clocked n len).putChan g)) : s.issue n len ss vs f = (retired s n len id).putChan g := by
  rw [issue_acts_aside hi hf rfl]
  dsimp only [State.withNeedles, State.putChan]
  rfl

variable (hi : MayIssue s n 8 [ra, rb, rs] []) (hown : s.ownChan n (((s.needles[n]).sr rb).setWidth 8) false = some (i, x))
include hi hown

theorem land_ply (hply : x.ply = true) : land n ra rb rs s = s.needleFault n 10 (s.needles[n]).pc.toNat 0 := by
  have hown' : (s.clocked n 8).ownChan n (((s.needles[n]).sr rb).setWidth 8) false = some (i, x) := hown
  unfold land
  refine issue_fault hi ?_
  rw [hown']
  exact if_pos hply

/-- A window of no bytes disarms the channel's. -/
theorem land_disarms (hply : x.ply = false) (hsize : ((s.needles[n]).sr rs).toNat = 0) :
    land n ra rb rs s = (retired s n 8 id).putChan { s.chan i (((s.needles[n]).sr rb).setWidth 8) with land := none } := by
  have hown' : (s.clocked n 8).ownChan n (((s.needles[n]).sr rb).setWidth 8) false = some (i, x) := hown
  unfold land
  refine issue_putChan hi ?_
  rw [hown']
  dsimp only
  rw [hply, if_neg Bool.false_ne_true, if_pos hsize, clocked_chan]

/-- A window out of range faults (R310). -/
theorem land_outside (hply : x.ply = false) (hsize : 0 < ((s.needles[n]).sr rs).toNat)
    (hout : ((s.needles[n]).sr rs).toNat % 64 ≠ 0 ∨ 65536 < ((s.needles[n]).sr rs).toNat ∨
      feedOk ((s.needles[n]).sr ra).toNat ((s.needles[n]).sr rs).toNat = false) :
    land n ra rb rs s = s.needleFault n 2 (s.needles[n]).pc.toNat ((s.needles[n]).sr ra).toNat := by
  have hown' : (s.clocked n 8).ownChan n (((s.needles[n]).sr rb).setWidth 8) false = some (i, x) := hown
  unfold land
  refine issue_fault hi ?_
  rw [hown']
  dsimp only
  rw [hply, if_neg Bool.false_ne_true, if_neg (by omega), if_pos (by simpa using hout)]

/-- A window of an empty FIFO is armed. -/
theorem land_arms (hply : x.ply = false) (hsize : 0 < ((s.needles[n]).sr rs).toNat) (haligned : ((s.needles[n]).sr rs).toNat % 64 = 0)
    (hlong : ((s.needles[n]).sr rs).toNat ≤ 65536) (hfeed : feedOk ((s.needles[n]).sr ra).toNat ((s.needles[n]).sr rs).toNat = true)
    (hf : (s.chan i (((s.needles[n]).sr rb).setWidth 8)).fifo = []) :
    land n ra rb rs s = (retired s n 8 id).putChan { s.chan i (((s.needles[n]).sr rb).setWidth 8) with
      land := some ⟨((s.needles[n]).sr ra).toNat, ((s.needles[n]).sr rs).toNat, 0⟩ } := by
  have hown' : (s.clocked n 8).ownChan n (((s.needles[n]).sr rb).setWidth 8) false = some (i, x) := hown
  have hin : ¬(((s.needles[n]).sr rs).toNat % 64 ≠ 0 ∨ 65536 < ((s.needles[n]).sr rs).toNat ∨
      (!feedOk ((s.needles[n]).sr ra).toNat ((s.needles[n]).sr rs).toNat) = true) := by
    rw [hfeed, not_or, not_or]
    exact ⟨not_not_intro haligned, Nat.not_lt.mpr hlong, by decide⟩
  unfold land
  refine issue_putChan hi ?_
  rw [hown']
  dsimp only
  rw [hply, if_neg Bool.false_ne_true, if_neg (by omega), if_neg hin, clocked_chan]
  exact congrArg NStep.done (window_stays (chan_key s i _) hf)

end Land

end Sys2Proof.Machine
end

section
open Sys2Proof Sys2Proof.Machine Sys2Proof.Safety

/-- Settles O22: SEND by what its channel's link sends alone (`pumpLink_sends`), RECV by what the needle takes (`pumpRecv_takes`), the
rows of the links and LAND case by case. -/
theorem stitchChannels : Obligations.StitchChannels := by
  unfold Obligations.StitchChannels
  refine ⟨fun s n rd ra rb i ch hi => ?_, fun s i c ch pos e hx => ⟨fun hply hpos => ?_, fun hlink hpos hroom hland hw => ?_,
      fun hq hidle hw => ?_, fun hlink hc => ?_, fun hno => ?_⟩,
    fun s n ra rb rs i ch hi => ⟨fun hown => ?_, fun hown hply => ?_, fun hown hply => ⟨fun hsize => ?_, fun h0 ha hl hfeed hf => ?_,
      fun h0 hout => ?_⟩⟩⟩
  · have hsend : MayIssue s n 4 [rb] [ra] := mayIssue_fewer hi (List.Subset.refl _) (by simp)
    have hrecv : MayIssue s n 4 [rb] [rd] := mayIssue_fewer hi (List.Subset.refl _) (by simp)
    refine ⟨fun hown => ?_, fun hown => ?_, fun hown hothers hopen hlink hq hcredits => ?_, fun hown hothers hq hcredits => ?_,
      fun e0 e1 e2 e3 hown hf hlink => ?_, fun hown hf => ?_⟩
    · exact congrArg Host.Outcome.next (stchSend_foreign hsend hown)
    · exact congrArg Host.Outcome.next (stchRecv_foreign hrecv hown)
    · exact ⟨stchSend n ra rb s, rfl, stchSend_sends hsend hown hothers hopen hlink hq hcredits⟩
    · exact ⟨stchSend n ra rb s, rfl, stchSend_waits hsend hown hothers hq hcredits⟩
    · exact ⟨stchRecv n rd rb s, rfl, stchRecv_takes hrecv hown hf hlink⟩
    · exact congrArg Host.Outcome.next (stchRecv_waits hrecv hown hf)
  · exact congrArg Host.Outcome.next (entryArrives_misplaced hx hply hpos)
  · exact congrArg Host.Outcome.next (entryArrives_joins hx hlink hpos hroom hland hw)
  · exact congrArg Host.Outcome.next (creditReturn_keeps hx hq hidle hw)
  · exact congrArg Host.Outcome.next ((twinUnmatched_eq hx).trans (if_pos ⟨hlink, hc⟩))
  · exact congrArg Host.Outcome.next ((twinUnmatched_eq hx).trans (if_neg (not_and_or.mpr hno)))
  · exact congrArg Host.Outcome.next (land_foreign hi hown)
  · exact congrArg Host.Outcome.next (land_ply hi hown hply)
  · exact congrArg Host.Outcome.next (land_disarms hi hown hply hsize)
  · exact congrArg Host.Outcome.next (land_arms hi hown hply h0 ha hl hfeed hf)
  · exact congrArg Host.Outcome.next (land_outside hi hown hply h0 hout)
end

section
/-! SUPPORT. Scalar integers (10 R275, R295): signed operations on words as integers, the words that spell the scalar instructions, and
what a scalar instruction that issues writes. -/

namespace Sys2Proof.Machine
open Sys2Proof Sys2Proof.Safety

/-! ### Signed operations on words -/

/-- A word is the residue of every integer its value agrees with. -/
theorem eq_ofInt_of_bmod {w : Nat} {x : BitVec w} {i : Int} (h : x.toInt = i.bmod (2 ^ w)) : x = BitVec.ofInt w i :=
  BitVec.eq_of_toInt_eq (h.trans (BitVec.toInt_ofInt i).symm)

theorem eq_ofInt_of_toInt {w : Nat} {x : BitVec w} {i : Int} (h : x.toInt = i) : x = BitVec.ofInt w i :=
  BitVec.ofInt_toInt.symm.trans (congrArg _ h)

/-- A right shift that keeps the sign is a division toward minus infinity. -/
theorem sshiftRight_eq_div {w : Nat} (a : BitVec w) (k : Nat) : a.sshiftRight k = BitVec.ofInt w (a.toInt / 2 ^ k) :=
  eq_ofInt_of_toInt (by rw [BitVec.toInt_sshiftRight, Int.shiftRight_eq_div_pow, Nat.cast_pow, Nat.cast_ofNat])

theorem shiftLeft_eq_mul {w : Nat} (a : BitVec w) (k : Nat) : a <<< k = BitVec.ofNat w (a.toNat * 2 ^ k) :=
  BitVec.eq_of_toNat_eq (by rw [BitVec.toNat_shiftLeft, Nat.shiftLeft_eq, BitVec.toNat_ofNat])

theorem ushiftRight_eq_div {w : Nat} (a : BitVec w) (k : Nat) : a >>> k = BitVec.ofNat w (a.toNat / 2 ^ k) := by
  refine BitVec.eq_of_toNat_eq ?_
  rw [BitVec.toNat_ushiftRight, Nat.shiftRight_eq_div_pow, BitVec.toNat_ofNat,
    Nat.mod_eq_of_lt (lt_of_le_of_lt (Nat.div_le_self ..) a.isLt)]

/-- The smaller and the larger of two words by their signed values. -/
theorem slt_min {w : Nat} (a b : BitVec w) : (if b.slt a then b else a) = if a.toInt ≤ b.toInt then a else b := by
  by_cases h : a.toInt ≤ b.toInt
  · rw [if_pos h, if_neg (by rw [BitVec.slt_iff_toInt_lt]; omega)]
  · rw [if_neg h, if_pos (by rw [BitVec.slt_iff_toInt_lt]; omega)]

theorem slt_max {w : Nat} (a b : BitVec w) : (if a.slt b then b else a) = if a.toInt ≤ b.toInt then b else a := by
  by_cases h : a.toInt ≤ b.toInt
  · rw [if_pos h]
    by_cases e : a.toInt = b.toInt
    · rw [BitVec.eq_of_toInt_eq e, ite_self]
    · rw [if_pos (by rw [BitVec.slt_iff_toInt_lt]; omega)]
  · rw [if_neg h, if_neg (by rw [BitVec.slt_iff_toInt_lt]; omega)]

/-- A word whose bits are given is the word of those bits. -/
theorem eq_ofFnLE {w : Nat} {x : BitVec w} {f : Fin w → Bool} (h : ∀ i : Fin w, x.getLsbD i.val = f i) : x = BitVec.ofFnLE f := by
  refine BitVec.eq_of_getLsbD_eq fun i hi => ?_
  rw [BitVec.getLsbD_ofFnLE, dif_pos hi]
  exact h ⟨i, hi⟩

/-! ### The words of the scalar class (R273) -/

/-- A word of MAJOR 0x01 with FUNC k and no predicate bits. -/
def scalarCode (k : Nat) (rd ra rb : Fin 32) : Word :=
  BitVec.ofNat 32 (1 + rd.val * 2 ^ 6 + ra.val * 2 ^ 11 + rb.val * 2 ^ 16 + k * 2 ^ 26)

theorem scalarCode_toNat {k : Nat} (hk : k < 64) (rd ra rb : Fin 32) :
    (scalarCode k rd ra rb).toNat = 1 + rd.val * 64 + ra.val * 2048 + rb.val * 65536 + k * 67108864 :=
  (BitVec.toNat_ofNat ..).trans (Nat.mod_eq_of_lt (by omega))

section Code
variable {k : Nat} (hk : k < 64) (rd ra rb : Fin 32)
include hk

theorem scalarCode_major : fld (scalarCode k rd ra rb) 5 0 = 1 := by
  unfold fld bitsN
  rw [scalarCode_toNat hk]
  omega

theorem scalarCode_scalar : wScalar (scalarCode k rd ra rb) = true := by
  refine decide_eq_true ?_
  unfold fld bitsN
  rw [scalarCode_toNat hk]
  omega

theorem scalarCode_func : wFunc (scalarCode k rd ra rb) = k := by
  unfold wFunc fld bitsN
  rw [scalarCode_toNat hk]
  omega

theorem scalarCode_registers : wRd (scalarCode k rd ra rb) = rd ∧ wRa (scalarCode k rd ra rb) = ra ∧
    wRb (scalarCode k rd ra rb) = rb := by
  refine ⟨Fin.ext ?_, Fin.ext ?_, Fin.ext ?_⟩
  all_goals
    simp only [wRd, wRa, wRb, regAt, Fin.ofNat, fld, bitsN, scalarCode_toNat hk]
    omega

end Code

/-- A word of the scalar class spells the instruction of its FUNC. -/
theorem needleWord_scalar {k : Nat} {f : Form3} (hk : k < 64) (hf : scalarForms[k]? = some f) (n : Fin 96) (rd ra rb : Fin 32) (x : Word) :
    needleWord n (scalarCode k rd ra rb) x = f n rd ra rb := by
  obtain ⟨hrd, hra, hrb⟩ := scalarCode_registers hk rd ra rb
  have hw : scalarWord n (scalarCode k rd ra rb) = some (f n rd ra rb) := by
    unfold scalarWord
    rw [scalarCode_scalar hk, scalarCode_func hk, hf, hrd, hra, hrb]
    rfl
  unfold needleWord
  rw [scalarCode_major hk]
  simp only [hw, Option.getD_some]

/-- A word of an undefined MAJOR spells no instruction. -/
theorem needleWord_undefined {w : Word} (h : fld w 5 0 ∈ [0x00, 0x0B, 0x0E, 0x0F, 0x1F, 0x20, 0x37, 0x3F]) (n : Fin 96) (x : Word) :
    needleWord n w x = execIllegalInstruction n := by
  simp only [List.mem_cons, List.not_mem_nil, or_false] at h
  obtain h | h | h | h | h | h | h | h := h
  all_goals
    unfold needleWord
    rw [h]
    simp only [Option.getD_none]

/-! ### What a scalar instruction writes -/

/-- A two-operand form that issues (R275). -/
theorem scalar2_writes {s : State} {n : Fin 96} {rd ra rb : Fin 32} {f : DWord → DWord → DWord} {v : DWord}
    (h : MayIssue s n 4 [rd, ra, rb] []) (hv : f ((s.needles[n]).sr ra) ((s.needles[n]).sr rb) = v) :
    Host.Outcome.next (φ := Fault) (ρ := Refusal) (s.scalar2 n rd ra rb f) = writesS s n rd v :=
  (scalar_retired h fun _ _ => rfl).trans (congrArg (writesS s n rd) hv)

end Sys2Proof.Machine
end

section
open Sys2Proof Sys2Proof.Machine Sys2Proof.Safety

/-- Settles O5: the words by their fields (`needleWord_scalar`), the results by what a two-operand form writes (`scalar2_writes`). -/
theorem scalarIntegerResults : Obligations.ScalarIntegerResults := by
  unfold Obligations.ScalarIntegerResults
  refine ⟨fun n rd ra rb x p hp => ?_, fun n w x h => needleWord_undefined h n x, fun s n rd ra rb hi => ?_⟩
  · have hk : p.1 < 64 ∧ scalarForms[p.1]? = some p.2 := by
      fin_cases hp <;> exact ⟨by decide, rfl⟩
    exact needleWord_scalar hk.1 hk.2 n rd ra rb x
  · refine ⟨scalar2_writes hi ?_, scalar2_writes hi ?_, scalar2_writes hi ?_, scalar2_writes hi rfl, scalar2_writes hi ?_,
      scalar2_writes hi ?_, scalar2_writes hi ?_, scalar2_writes hi ?_, scalar2_writes hi ?_, scalar2_writes hi ?_,
      scalar2_writes hi ?_, scalar2_writes hi ?_, scalar2_writes hi ?_, scalar2_writes hi ?_, scalar2_writes hi ?_,
      scalar2_writes hi ?_⟩
    · exact BitVec.eq_of_toNat_eq ((BitVec.toNat_add ..).trans (BitVec.toNat_ofNat ..).symm)
    · exact eq_ofInt_of_bmod (BitVec.toInt_sub ..)
    · exact BitVec.eq_of_toNat_eq ((BitVec.toNat_mul ..).trans (BitVec.toNat_ofNat ..).symm)
    · exact if_congr Iff.rfl rfl (eq_ofInt_of_bmod (BitVec.toInt_sdiv ..))
    · exact if_congr Iff.rfl rfl (eq_ofInt_of_toInt (BitVec.toInt_srem ..))
    · exact eq_ofFnLE fun i => BitVec.getLsbD_and
    · exact eq_ofFnLE fun i => BitVec.getLsbD_or
    · exact eq_ofFnLE fun i => BitVec.getLsbD_xor
    · exact shiftLeft_eq_mul ..
    · exact ushiftRight_eq_div ..
    · exact sshiftRight_eq_div ..
    · exact if_congr BitVec.slt_iff_toInt_lt rfl rfl
    · exact if_congr BitVec.ult_iff_lt rfl rfl
    · exact slt_min ..
    · exact slt_max ..
end

section
/-! SUPPORT. The scalar forms with an immediate (10 R273, R275). -/

namespace Sys2Proof.Machine
open Sys2Proof Sys2Proof.Safety

/-! ### Immediates -/

theorem imm64_eq (i : Half) : imm64 i = BitVec.ofInt 64 i.toInt := rfl

theorem add_imm64 (a : DWord) (i : Half) : a + imm64 i = BitVec.ofInt 64 (a.toInt + i.toInt) := by
  rw [BitVec.ofInt_add, BitVec.ofInt_toInt, imm64_eq]

/-- The upper immediate: 16 places to the left. -/
theorem upper_imm64 (i : Half) : imm64 i <<< 16 = BitVec.ofInt 64 (i.toInt * 65536) := by
  rw [BitVec.ofInt_mul, BitVec.shiftLeft_eq_mul_twoPow]
  rfl

/-- The value FCVT writes. -/
theorem fcvt_toInt (v : DWord) : fcvt false v = BitVec.ofInt 64 (toIntSat .rne (-2 ^ 63) (2 ^ 63 - 1) (dec32 (v.setWidth 32))) := rfl

/-! ### What the forms write -/

section Forms
variable {s : State} {n : Fin 96} {rd ra rb : Fin 32}

/-- A form of one register that issues. -/
theorem scalar1_writes {f : DWord → DWord} {v : DWord} (h : MayIssue s n 4 [rd, ra] []) (hv : f ((s.needles[n]).sr ra) = v) :
    Host.Outcome.next (φ := Fault) (ρ := Refusal) (s.scalar n rd [ra] fun x => f (x.sr ra)) = writesS s n rd v :=
  (scalar_retired h fun _ _ => rfl).trans (congrArg (writesS s n rd) hv)

/-- The shift immediate reads its kind from IMM16[7:6] and its amount from IMM16[5:0]. -/
theorem shiftImm_fields (imm : Half) : fld imm 7 6 = imm.toNat / 64 % 4 ∧ fld imm 5 0 = imm.toNat % 64 := by
  refine ⟨rfl, ?_⟩
  unfold fld bitsN
  omega

section Shift
variable {imm : Half} (h : MayIssue s n 4 [rd, ra] [])
include h

theorem shiftImm_left (hkind : imm.toNat / 64 % 4 = 0) : (.next (shiftImm n rd ra imm s) : Host.Outcome State Fault Refusal) =
    writesS s n rd (BitVec.ofNat 64 (((s.needles[n]).sr ra).toNat * 2 ^ (imm.toNat % 64))) := by
  unfold shiftImm
  rw [(shiftImm_fields imm).1, (shiftImm_fields imm).2, hkind]
  exact scalar1_writes (f := (· <<< (imm.toNat % 64))) h (shiftLeft_eq_mul ..)

theorem shiftImm_right (hkind : imm.toNat / 64 % 4 = 1) : (.next (shiftImm n rd ra imm s) : Host.Outcome State Fault Refusal) =
    writesS s n rd (BitVec.ofNat 64 (((s.needles[n]).sr ra).toNat / 2 ^ (imm.toNat % 64))) := by
  unfold shiftImm
  rw [(shiftImm_fields imm).1, (shiftImm_fields imm).2, hkind]
  exact scalar1_writes (f := (· >>> (imm.toNat % 64))) h (ushiftRight_eq_div ..)

theorem shiftImm_signed (hkind : imm.toNat / 64 % 4 = 2) : (.next (shiftImm n rd ra imm s) : Host.Outcome State Fault Refusal) =
    writesS s n rd (BitVec.ofInt 64 (((s.needles[n]).sr ra).toInt / 2 ^ (imm.toNat % 64))) := by
  unfold shiftImm
  rw [(shiftImm_fields imm).1, (shiftImm_fields imm).2, hkind]
  exact scalar1_writes (f := fun a => a.sshiftRight (imm.toNat % 64)) h (sshiftRight_eq_div ..)

/-- Kind 3 is undefined. -/
theorem shiftImm_undefined (hkind : imm.toNat / 64 % 4 = 3) : shiftImm n rd ra imm s = s.needleFault n 1 (s.needles[n]).pc.toNat 0 := by
  unfold shiftImm
  rw [(shiftImm_fields imm).1, hkind]
  exact issue_fault h rfl

end Shift

end Forms

end Sys2Proof.Machine
end

section
open Sys2Proof Sys2Proof.Machine Sys2Proof.Safety

/-- Settles O6: each form by what a scalar instruction that issues writes (`scalar_retired`, `scalar1_writes`), the shift immediate
kind by kind. -/
theorem scalarFloatAndImmediateResults : Obligations.ScalarFloatAndImmediateResults := by
  unfold Obligations.ScalarFloatAndImmediateResults
  intro s n rd ra rb imm hi
  have hi2 : MayIssue s n 4 [rd, ra] [] := mayIssue_fewer hi (by simp) (by simp)
  have hi1 : MayIssue s n 4 [rd] [] := mayIssue_fewer hi (by simp) (by simp)
  refine ⟨scalar_retired hi fun _ _ => rfl, scalar_retired hi fun _ _ => rfl, scalar_retired hi fun _ _ => rfl,
    scalar_retired hi fun _ _ => rfl, scalar1_writes (f := fcvt true) hi2 rfl, scalar1_writes (f := fcvt false) hi2 (fcvt_toInt _),
    scalar1_writes (f := (· + imm64 imm)) hi2 (add_imm64 ..), scalar1_writes (f := (· &&& imm64 imm)) hi2 ?_,
    scalar1_writes (f := (· ||| imm64 imm)) hi2 ?_, scalar1_writes (f := (· ^^^ imm64 imm)) hi2 ?_,
    (scalar_retired hi1 fun _ _ => rfl).trans (congrArg (writesS s n rd) (upper_imm64 imm)), ?_⟩
  · rw [imm64_eq]
  · rw [imm64_eq]
  · rw [imm64_eq]
  · have hkinds : imm.toNat / 64 % 4 = 0 ∨ imm.toNat / 64 % 4 = 1 ∨ imm.toNat / 64 % 4 = 2 ∨ imm.toNat / 64 % 4 = 3 := by omega
    obtain hkind | hkind | hkind | hkind := hkinds
    all_goals
      rw [hkind]
    · exact shiftImm_left hi2 hkind
    · exact shiftImm_right hi2 hkind
    · exact shiftImm_signed hi2 hkind
    · exact congrArg Host.Outcome.next (shiftImm_undefined hi2 hkind)
end

section
/-! SUPPORT. Branches and jumps (10 R273, R274): targets as integers, and what a branch or a jump that issues does. -/

namespace Sys2Proof.Machine
open Sys2Proof Sys2Proof.Safety

/-! ### Targets -/

/-- The low bits of a residue are the residue of fewer bits. -/
theorem setWidth_ofInt {v w : Nat} (h : v ≤ w) (i : Int) : (BitVec.ofInt w i).setWidth v = BitVec.ofInt v i := by
  refine BitVec.eq_of_toNat_eq ?_
  have hpos : (0 : Int) ≤ i % (2 ^ v : Nat) := Int.emod_nonneg _ (by positivity)
  have hpos' : (0 : Int) ≤ i % (2 ^ w : Nat) := Int.emod_nonneg _ (by positivity)
  rw [BitVec.toNat_setWidth, BitVec.toNat_ofInt, BitVec.toNat_ofInt]
  refine Int.ofNat_inj.mp ?_
  rw [Int.natCast_mod, Int.toNat_of_nonneg hpos, Int.toNat_of_nonneg hpos',
    Int.emod_emod_of_dvd _ (Int.natCast_dvd_natCast.mpr (Nat.pow_dvd_pow 2 h))]

/-- The target of a relative transfer of control, PC + 4·OFF. -/
theorem relative_target {w : Nat} (pc : BitVec 17) (off : BitVec w) :
    (pc.setWidth 64 + (off.signExtend 64) <<< 2).setWidth 17 = BitVec.ofInt 17 (pc.toNat + 4 * off.toInt) := by
  have hpc : pc.setWidth 64 = BitVec.ofInt 64 pc.toNat := by
    rw [BitVec.ofInt_natCast, BitVec.ofNat_toNat]
  have hoff : (off.signExtend 64) <<< 2 = BitVec.ofInt 64 (4 * off.toInt) := by
    rw [mul_comm, BitVec.ofInt_mul, BitVec.shiftLeft_eq_mul_twoPow]
    rfl
  rw [hpc, hoff, ← BitVec.ofInt_add, setWidth_ofInt (by decide)]

/-- The low two bits cleared. -/
theorem and_not_three (a : DWord) : (a &&& ~~~3).toNat = a.toNat / 4 * 4 := by
  have hmask : (~~~3 : DWord) = BitVec.allOnes 64 <<< 2 := by decide
  rw [hmask, ← BitVec.shiftLeft_ushiftRight, BitVec.toNat_shiftLeft, BitVec.toNat_ushiftRight, Nat.shiftLeft_eq,
    Nat.shiftRight_eq_div_pow]
  omega

/-- The target of JALR, s[RA] + IMM16 with its low two bits cleared. -/
theorem register_target (a : DWord) (imm : Half) :
    ((a + imm64 imm) &&& ~~~3).setWidth 17 = BitVec.ofInt 17 ((a.toInt + imm.toInt) / 4 * 4) := by
  refine BitVec.eq_of_toNat_eq ?_
  rw [BitVec.toNat_setWidth, and_not_three, add_imm64, BitVec.toNat_ofInt, BitVec.toNat_ofInt]
  omega

/-- The address after a branch that is not taken. -/
theorem next_pc (pc : BitVec 17) : pc + BitVec.ofNat 17 4 = BitVec.ofInt 17 (pc.toNat + 4) := by
  rw [BitVec.ofInt_add, BitVec.ofInt_natCast, BitVec.ofNat_toNat, BitVec.setWidth_eq]
  rfl

theorem linkOf_eq (x : Needle) : linkOf x = BitVec.ofNat 64 (x.pc.toNat + 4) := by
  unfold linkOf
  rw [BitVec.ofNat_add, BitVec.ofNat_toNat]
  rfl

/-! ### Transfers of control -/

/-- Retirements with equal changes of the needle. -/
theorem retired_congr {s : State} {n : Fin 96} {len : Nat} {f g : Needle → Needle}
    (h : f ((s.needles[n]).clocked len s.freeVal) = g ((s.needles[n]).clocked len s.freeVal)) : retired s n len f = retired s n len g :=
  congrArg (fun y => { s with needles := s.needles.set n (Needle.boundary y), freeCtr := s.freeCtr + 1 }) h

section Jump
variable {s : State} {n : Fin 96} {ss : List (Fin 32)} {a : DWord} {target : Int} {f : Needle → Needle}

/-- A jump that issues: it goes to its target, or faults where that is the second word of a pair. -/
theorem jumpTo_issues (hi : MayIssue s n 4 ss []) (ha : a.setWidth 17 = BitVec.ofInt 17 target) :
    (.next (s.issue n 4 ss [] fun t => t.jumpTo n a f) : Host.Outcome State Fault Refusal) =
      if s.secondWord n (BitVec.ofInt 17 target).toNat = true then .next (s.needleFault n 7 (s.needles[n]).pc.toNat 0)
      else .next (retired s n 4 fun y => { f y with pc := BitVec.ofInt 17 target }) := by
  have hsecond : (s.clocked n 4).secondWord n (a.setWidth 17).toNat = s.secondWord n (BitVec.ofInt 17 target).toNat := by
    rw [ha]
    rfl
  split
  · next h =>
    exact congrArg Host.Outcome.next (issue_fault hi (if_pos (hsecond.trans h)))
  · next h =>
    refine congrArg Host.Outcome.next (issue_retired hi ((if_neg (by rwa [hsecond])).trans ?_))
    rw [ha]

end Jump

/-- A branch that issues (R273): taken or not. -/
theorem branch_issues {s : State} {n : Fin 96} {ra rb : Fin 32} {off : BitVec 13} {c : DWord → DWord → Bool} {p : Prop} [Decidable p]
    (hi : MayIssue s n 4 [ra, rb] []) (hc : c ((s.needles[n]).sr ra) ((s.needles[n]).sr rb) = true ↔ p) :
    (.next (s.branch n ra rb off c) : Host.Outcome State Fault Refusal) =
      if p then
        (if s.secondWord n (BitVec.ofInt 17 ((s.needles[n]).pc.toNat + 4 * off.toInt)).toNat = true then
          .next (s.needleFault n 7 (s.needles[n]).pc.toNat 0)
        else .next (retired s n 4 fun y => { y with pc := BitVec.ofInt 17 ((s.needles[n]).pc.toNat + 4 * off.toInt) }))
      else .next (retired s n 4 fun y => { y with pc := BitVec.ofInt 17 ((s.needles[n]).pc.toNat + 4) }) := by
  unfold State.branch
  by_cases h : p
  · simp only [hc.mpr h, if_true, if_pos h]
    exact jumpTo_issues hi (relative_target ..)
  · have hstay : c ((s.needles[n]).sr ra) ((s.needles[n]).sr rb) = false := Bool.eq_false_iff.mpr fun e => h (hc.mp e)
    simp only [hstay, Bool.false_eq_true, if_false, if_neg h]
    refine congrArg Host.Outcome.next ((issue_retired (g := id) hi (congrArg NStep.done (modNeedle_id ..).symm)).trans
      (retired_congr ?_))
    rw [← next_pc]
    rfl

end Sys2Proof.Machine
end

section
open Sys2Proof Sys2Proof.Machine Sys2Proof.Safety

/-- Settles O7: the branches by their conditions (`branch_issues`), the jumps by their targets (`jumpTo_issues`). -/
theorem branchAndJumpTargets : Obligations.BranchAndJumpTargets := by
  unfold Obligations.BranchAndJumpTargets
  intro s n rd ra rb off far imm hi
  have hab : MayIssue s n 4 [ra, rb] [] := mayIssue_fewer hi (by simp) (by simp)
  have hd : MayIssue s n 4 [rd] [] := mayIssue_fewer hi (by simp) (by simp)
  have hda : MayIssue s n 4 [rd, ra] [] := mayIssue_fewer hi (by simp) (by simp)
  refine ⟨branch_issues hab beq_iff_eq, branch_issues hab bne_iff_ne, branch_issues hab BitVec.slt_iff_toInt_lt,
    branch_issues hab ?_, branch_issues hab BitVec.ult_iff_lt, branch_issues hab ?_, ?_, ?_⟩
  · rw [Bool.not_eq_true', Bool.eq_false_iff, ne_eq, BitVec.slt_iff_toInt_lt, not_lt]
  · rw [Bool.not_eq_true', Bool.eq_false_iff, ne_eq, BitVec.ult_iff_lt, BitVec.lt_def, not_lt]
  · refine (jumpTo_issues hd (relative_target ..)).trans ?_
    rw [linkOf_eq]
    rfl
  · refine (jumpTo_issues hda (register_target ..)).trans ?_
    rw [linkOf_eq]
    rfl
end

section
/-! SUPPORT. Vector arithmetic (10 R276): a lane as a word, or as the two halves of one. -/

namespace Sys2Proof.Machine
open Sys2Proof Sys2Proof.Safety

/-! ### Words of fields -/

/-- A word put together from two fields that do not overlap is their sum. -/
theorem mkW_pair {lo w lo' w' : Nat} (h : lo + w ≤ lo') (x y : Nat) :
    mkW [(lo, w, x), (lo', w', y)] = BitVec.ofNat 32 (x % 2 ^ w * 2 ^ lo + y % 2 ^ w' * 2 ^ lo') := by
  have hx : x % 2 ^ w * 2 ^ lo < 2 ^ lo' :=
    calc x % 2 ^ w * 2 ^ lo < 2 ^ w * 2 ^ lo := Nat.mul_lt_mul_of_pos_right (Nat.mod_lt _ (Nat.two_pow_pos w)) (Nat.two_pow_pos lo)
      _ = 2 ^ (lo + w) := by rw [← pow_add, add_comm]
      _ ≤ 2 ^ lo' := Nat.pow_le_pow_right (by decide) h
  have hor := Nat.two_pow_add_eq_or_of_lt hx (y % 2 ^ w')
  refine BitVec.eq_of_toNat_eq ?_
  rw [add_comm, mul_comm (y % 2 ^ w'), hor, BitVec.toNat_ofNat, Nat.or_mod_two_pow, mkW, List.foldl_cons, List.foldl_cons, List.foldl_nil,
    BitVec.toNat_or, BitVec.toNat_or, BitVec.toNat_ofNat, BitVec.toNat_ofNat, Nat.or_comm, mul_comm (y % 2 ^ w')]
  congr 1
  exact Nat.zero_or _

/-! ### Lanes -/

/-- The element h of 16 bits of a lane. -/
def halfOf (w : Word) (h : Nat) : Nat := w.toNat / 2 ^ (16 * h) % 2 ^ 16

/-- A lane of two elements of 16 bits. -/
def halves (flt : Nat → Nat → Nat → Nat) (d a b : Word) : Word :=
  BitVec.ofNat 32 (flt (halfOf d 0) (halfOf a 0) (halfOf b 0) % 65536 + flt (halfOf d 1) (halfOf a 1) (halfOf b 1) % 65536 * 65536)

/-- What R276 writes to a lane: a word on INT32. -/
def laneResult (ty : VType) (int : Word) (flt : Fmt → Nat → Nat → Nat → Nat) (d a b : Word) : Word :=
  match ty with
  | .int32 => int
  | .fp32 => BitVec.ofNat 32 (flt .f32 d.toNat a.toNat b.toNat)
  | .fp16 => halves (flt .f16) d a b
  | .bf16 => halves (flt .bf16) d a b

theorem onLane_eq (ty : VType) {int : Word → Word → Word → Word} (flt : Fmt → Nat → Nat → Nat → Nat) {d a b v : Word}
    (h : int d a b = v) : onLane ty int flt d a b = laneResult ty v flt d a b := by
  cases ty with
  | int32 => exact h
  | fp32 => rfl
  | fp16 => exact (mkW_pair (by decide) ..).trans (by rw [pow_zero, mul_one]; rfl)
  | bf16 => exact (mkW_pair (by decide) ..).trans (by rw [pow_zero, mul_one]; rfl)

/-! ### Integer lanes -/

theorem abs_eq_natAbs {w : Nat} (a : BitVec w) : (if a.msb = true then -a else a) = BitVec.ofNat w a.toInt.natAbs := by
  have hlt := a.isLt
  refine BitVec.eq_of_toNat_eq ?_
  rw [BitVec.toNat_ofNat, BitVec.toInt_eq_msb_cond]
  cases a.msb with
  | true =>
    have habs : ((a.toNat : Int) - (2 ^ w : Nat)).natAbs = 2 ^ w - a.toNat := by omega
    exact (BitVec.toNat_neg a).trans (congrArg (· % 2 ^ w) habs.symm)
  | false => exact (Nat.mod_eq_of_lt hlt).symm

theorem neg_eq_ofInt {w : Nat} (a : BitVec w) : -a = BitVec.ofInt w (-a.toInt) := by
  rw [BitVec.ofInt_neg, BitVec.ofInt_toInt]

theorem slt_false_min {w : Nat} (a b : BitVec w) : (if (b.slt a == false) = true then a else b) = if a.toInt ≤ b.toInt then a else b := by
  rw [← slt_min]
  cases b.slt a <;> rfl

theorem slt_true_max {w : Nat} (a b : BitVec w) : (if (b.slt a == true) = true then a else b) = if a.toInt ≤ b.toInt then b else a := by
  by_cases h : a.toInt ≤ b.toInt
  · rw [if_pos h, if_neg (by rw [beq_true, BitVec.slt_iff_toInt_lt]; omega)]
  · rw [if_neg h, if_pos (by rw [beq_true, BitVec.slt_iff_toInt_lt]; omega)]

/-- VABS and VNEG name v[RA] alone. -/
theorem unary_writes {s : State} {n : Fin 96} {pr : Pred} {rd ra : Fin 32} {f : Word → Word → Word → Word} {g : Fin 64 → Word}
    (h : MayIssue s n 4 [] [rd, ra])
    (hg : ∀ i : Fin 64, f ((s.needles[n].v[rd])[i]) ((s.needles[n].v[ra])[i]) ((s.needles[n].v[ra])[i]) = g i) :
    (.next (s.lanewise n pr false rd ra ra f) : Host.Outcome State Fault Refusal) = writesV s n pr rd g :=
  issue_lanes (mayIssue_fewer h (List.Subset.refl _) (by simp [secondV])) hg

end Sys2Proof.Machine
end

section
open Sys2Proof Sys2Proof.Machine Sys2Proof.Safety

/-- Settles O8: every lane by its type (`onLane_eq`) or directly, the registers by what a lane-wise instruction that issues writes
(`lanewise_writes`). -/
theorem vectorArithmeticResults : Obligations.VectorArithmeticResults := by
  unfold Obligations.VectorArithmeticResults
  intro s n ty pr bc rd ra rb hi
  have hone : MayIssue s n 4 [] [rd, ra] := mayIssue_fewer hi (by simp) (by simp)
  refine ⟨lanewise_writes hi fun i => onLane_eq ty _ rfl, lanewise_writes hi fun i => onLane_eq ty _ rfl,
    lanewise_writes hi fun i => onLane_eq ty _ rfl, lanewise_writes hi fun i => onLane_eq ty _ rfl,
    lanewise_writes hi fun i => onLane_eq ty _ (slt_false_min ..), lanewise_writes hi fun i => onLane_eq ty _ (slt_true_max ..),
    unary_writes hone fun i => onLane_eq ty _ (abs_eq_natAbs _), unary_writes hone fun i => onLane_eq ty _ (neg_eq_ofInt _),
    lanewise_writes hi fun i => rfl, lanewise_writes hi fun i => rfl, lanewise_writes hi fun i => rfl,
    lanewise_writes hi fun i => shiftLeft_eq_mul .., lanewise_writes hi fun i => ushiftRight_eq_div ..,
    lanewise_writes hi fun i => sshiftRight_eq_div .., lanewise_writes hi fun i => rfl⟩
end

section
/-! SUPPORT. Conversions and permutes (10 R276, R537). -/

namespace Sys2Proof.Machine
open Sys2Proof Sys2Proof.Safety

/-- An instruction that issues and writes s[rd]. -/
theorem issue_scalar {s : State} {n : Fin 96} {ss vs : List (Fin 32)} {rd : Fin 32} {f : Needle → DWord} {v : DWord}
    (h : MayIssue s n 4 ss vs) (hv : f ((s.needles[n]).clocked 4 s.freeVal) = v) :
    (.next (s.issue n 4 ss vs fun t => .done (t.modNeedle n fun x => x.setS rd (f x))) : Host.Outcome State Fault Refusal) =
      writesS s n rd v := by
  subst hv
  exact congrArg Host.Outcome.next (issue_retired_at h rfl rfl)

/-- A lane number counts modulo 64. -/
theorem ofNat_mod_self {n : Nat} [NeZero n] (k : Nat) : Fin.ofNat n (k % n) = Fin.ofNat n k :=
  Fin.ext (Nat.mod_mod k n)

section Convert
variable {s : State} {n : Fin 96} {ty dst : VType} {pr : Pred} {rd ra rb : Fin 32}

theorem vtOf_none {k : Nat} (h : 3 < k) : vtOf k = none := by
  obtain ⟨j, rfl⟩ : ∃ j, k = j + 4 := ⟨k - 4, by omega⟩
  rfl

/-- A conversion between types of one width, lane by lane. -/
theorem vcvt_lanes (hi : MayIssue s n 4 [] [rd, ra]) (hd : vtOf rb.val = some dst) (hw : vtCount ty = vtCount dst) :
    (.next (vcvt n ty pr rd ra rb s) : Host.Outcome State Fault Refusal) =
      writesV s n pr rd fun i => cvtLane ty dst ((s.needles[n]).v[ra])[i] := by
  unfold vcvt
  simp only [hd, if_pos hw]
  exact issue_lanes hi fun _ => rfl

theorem vcvt_undefined (hi : MayIssue s n 4 [] [rd, ra]) (hd : vtOf rb.val = none) :
    vcvt n ty pr rd ra rb s = s.needleFault n 1 (s.needles[n]).pc.toNat 0 := by
  unfold vcvt
  simp only [hd]
  exact issue_fault hi rfl

/-- A lane of a conversion between widths is made of the result's elements. -/
theorem cvtWide_eq (a b : VType) (v : VReg) (c i : Nat) : cvtWide a b v c i =
    if vtCount b = 1 then BitVec.ofNat 32 (cvtElem a b v c i)
    else BitVec.ofNat 32 (cvtElem a b v c (2 * i) % 65536 + cvtElem a b v c (2 * i + 1) % 65536 * 65536) := by
  unfold cvtWide
  split
  · rfl
  · exact (mkW_pair (by decide) ..).trans (by rw [pow_zero, mul_one]; rfl)

/-- An element with a source is that element of the source, converted (log 26). -/
theorem cvtElem_placed {a b : VType} {v : VReg} {c j k : Nat} (h : Config.cvtPlace (decide (vtCount b = 1)) j = some k) :
    cvtElem a b v c j = vtBits b (vtNum a (vtElem a v k)) := by
  unfold cvtElem
  rw [h]

/-- A state at another count of free values. -/
def State.withFree (s : State) (c : Nat) : State := { s with freeCtr := c }

/-- A conversion between widths writes its lanes and uses up 64 more free values (log 26). -/
theorem vcvt_wide (hi : MayIssue s n 4 [] [rd, ra]) (hd : vtOf rb.val = some dst) (hw : vtCount ty ≠ vtCount dst) :
    ∃ u, writesV s n pr rd (fun i => cvtWide ty dst (s.needles[n]).v[ra] (s.freeCtr + 1) i.val) = .next u ∧
      vcvt n ty pr rd ra rb s = u.withFree (s.freeCtr + 65) := by
  have hwrites := issue_lanes (pr := pr) (rd := rd) (f := fun x i => cvtWide ty dst x.v[ra] (s.freeCtr + 1) i.val) hi fun _ => rfl
  rw [issue_done (t := (s.clocked n 4).modNeedle n fun x => x.setLanes pr rd fun i => cvtWide ty dst x.v[ra] (s.freeCtr + 1) i.val) hi
    rfl] at hwrites
  refine ⟨_, hwrites.symm, ?_⟩
  unfold vcvt
  simp only [hd, if_neg hw]
  exact issue_done (t := ((s.clocked n 4).modNeedle n fun x => x.setLanes pr rd fun i =>
    cvtWide ty dst x.v[ra] (s.freeCtr + 1) i.val).withFree (s.freeCtr + 65)) hi rfl

end Convert

end Sys2Proof.Machine
end

section
open Sys2Proof Sys2Proof.Machine Sys2Proof.Safety

/-- Settles O9: a conversion by the widths of its types (`vcvt_lanes`, `vcvt_wide`), the permutes by the lanes they write
(`issue_lanes`). -/
theorem convertAndPermuteResults : Obligations.ConvertAndPermuteResults := by
  unfold Obligations.ConvertAndPermuteResults
  intro s n ty pr rd ra rb hi
  have hcvt : MayIssue s n 4 [] [rd, ra] := mayIssue_fewer hi (by simp) (by simp)
  refine ⟨fun dst hd hw => vcvt_lanes hcvt hd hw, fun dst hd hw => ?_,
    fun h3 => congrArg Host.Outcome.next (vcvt_undefined hcvt (vtOf_none h3)), ?_, ?_, ?_, ?_, ?_, ?_⟩
  · obtain ⟨u, hu, hexec⟩ := vcvt_wide (pr := pr) hcvt hd hw
    refine ⟨u, cvtElem ty dst (s.needles[n]).v[ra] (s.freeCtr + 1), ?_, congrArg Host.Outcome.next hexec,
      fun j k hp => cvtElem_placed hp⟩
    rw [← hu]
    exact congrArg (writesV s n pr rd) (funext fun i => (cvtWide_eq ..).symm)
  · exact issue_lanes (mayIssue_fewer hi (by simp) (by simp)) fun _ => rfl
  · exact issue_lanes (mayIssue_fewer hi (by simp) (by simp)) fun i =>
      congrArg (fun j => ((s.needles[n]).v[ra])[j]) (ofNat_mod_self _).symm
  · exact issue_lanes (mayIssue_fewer hi (by simp) (by simp)) fun _ => rfl
  · exact issue_lanes (mayIssue_fewer hi (by simp) (by simp)) fun _ => rfl
  · refine issue_scalar (mayIssue_fewer hi (by simp) (by simp)) ?_
    exact congrArg (fun j => (((s.needles[n]).v[ra])[j]).setWidth 64) (ofNat_mod_self _).symm
  · exact issue_lanes (mayIssue_fewer hi (by simp) (by simp)) fun _ => rfl
end

section
/-! SUPPORT. Predicates (10 R274, R277, R537): what a predicate instruction writes bit by bit, and when its fields are undefined. -/

namespace Sys2Proof.Machine
open Sys2Proof Sys2Proof.Safety

/-! ### Compares -/

/-- Whether two lanes are equal, and whether one is below the other, as a compare of a kind takes them. -/
def cmpEq (kind : CmpKind) (p q : Word) : Bool :=
  match kind with
  | .fp32 => (dec32 p).eqv (dec32 q)
  | _ => decide (p = q)
def cmpLt (kind : CmpKind) (p q : Word) : Bool :=
  match kind with
  | .signed => decide (p.toInt < q.toInt)
  | .unsigned => decide (p.toNat < q.toNat)
  | .fp32 => (dec32 p).lt (dec32 q)

theorem cmpLane_eq (kind : CmpKind) (lt eq neg : Bool) (p q : Word) :
    cmpLane kind lt eq neg p q = (((lt && cmpLt kind p q) || (eq && cmpEq kind p q)) != neg) := by
  cases kind <;> rfl

/-- A NaN is neither equal to a value nor below or above it. -/
theorem nan_compares {x y : Num} (h : x = .nan ∨ y = .nan) : x.eqv y = false ∧ x.lt y = false := by
  obtain rfl | rfl := h
  · exact ⟨rfl, rfl⟩
  · cases x <;> exact ⟨rfl, rfl⟩

/-! ### Predicate registers -/

/-- A lane the predicate admits takes the new value, another keeps the old one. -/
theorem admits_ite {α : Type} (x : Needle) (p : Pred) (i : Nat) (new old : α) :
    (if x.admits p i = true then new else old) = if p.on = true ∧ (x.p[p.pr]).getLsbD i = p.inv then old else new := by
  unfold Needle.admits
  cases p.on <;> cases p.inv <;> cases (x.p[p.pr]).getLsbD i <;> rfl

section Pred
variable {s : State} {n : Fin 96} {vs ps : List (Fin 32)} {pr : Pred} {rd ra : Fin 32} {f : Needle → Nat → Bool}

/-- A predicate instruction whose fields name predicates. -/
theorem predOp_writes {g : Fin 64 → Bool} (hi : MayIssue s n 4 [] vs) (hp : ∀ i ∈ rd :: ps, i.val ≤ 7)
    (hg : ∀ i : Fin 64, f ((s.needles[n.val]).clocked 4 s.freeVal) i.val = g i) :
    (.next (s.predOp n vs ps pr rd f) : Host.Outcome State Fault Refusal) = writesP s n pr (Fin.ofNat 8 rd.val) g := by
  have hnone : ((rd :: ps).any fun i => decide (7 < i.val)) = false :=
    List.any_eq_false.mpr fun i h => by simpa using hp i h
  unfold State.predOp writesP
  simp only [hnone, Bool.false_eq_true, if_false]
  refine congrArg Host.Outcome.next (issue_retired_at hi rfl ?_)
  unfold Needle.setP
  simp only [admits_ite, hg]
  rfl

/-- A field above 7 names no predicate (log 27). -/
theorem predOp_undefined (hi : MayIssue s n 4 [] vs) (hp : ∃ i ∈ rd :: ps, 7 < i.val) :
    s.predOp n vs ps pr rd f = s.needleFault n 1 (s.needles[n]).pc.toNat 0 := by
  have hany : ((rd :: ps).any fun i => decide (7 < i.val)) = true := by simpa using hp
  unfold State.predOp
  simp only [hany, if_true]
  exact issue_fault hi rfl

section Compare
variable {kind : CmpKind} {rb : Fin 32} {lt eq neg : Bool}

theorem predCmp_writes {g : Fin 64 → Bool} (hi : MayIssue s n 4 [] [ra, rb]) (hd : rd.val ≤ 7)
    (hg : ∀ i : Fin 64, (((lt && cmpLt kind ((s.needles[n]).v[ra])[i] ((s.needles[n]).v[rb])[i]) ||
      (eq && cmpEq kind ((s.needles[n]).v[ra])[i] ((s.needles[n]).v[rb])[i])) != neg) = g i) :
    (.next (s.predCmp n kind pr rd ra rb lt eq neg) : Host.Outcome State Fault Refusal) = writesP s n pr (Fin.ofNat 8 rd.val) g := by
  refine predOp_writes hi (by simpa using hd) fun i => ?_
  simp only [cmpLane_eq, Fin.ofNat_val_eq_self]
  exact hg i

end Compare

/-- FIRST and COUNT name a predicate in RA, and a register below s8 in RD (log 27). -/
theorem predCount_writes {c : DWord → Nat} (hi : MayIssue s n 4 [rd] []) (hd : rd.val ≤ 7) (ha : ra.val ≤ 7) :
    (.next (s.predCount n rd ra c) : Host.Outcome State Fault Refusal) = writesS s n rd (BitVec.ofNat 64 (c ((s.needles[n]).pf ra))) := by
  unfold State.predCount
  simp only [if_neg (show ¬(7 < rd.val ∨ 7 < ra.val) by omega)]
  exact issue_scalar hi rfl

theorem predCount_undefined {c : DWord → Nat} (hi : MayIssue s n 4 [rd] []) (h : 7 < rd.val ∨ 7 < ra.val) :
    s.predCount n rd ra c = s.needleFault n 1 (s.needles[n]).pc.toNat 0 := by
  unfold State.predCount
  simp only [if_pos h]
  exact issue_fault hi rfl

end Pred

/-- The lowest set bit. -/
theorem firstBit_lowest (p : DWord) : firstBit p ≤ 64 ∧ (∀ j, j < firstBit p → p.getLsbD j = false) ∧
    (firstBit p < 64 → p.getLsbD (firstBit p) = true) := by
  unfold firstBit
  cases h : (List.range 64).find? fun i => p.getLsbD i with
  | none =>
    refine ⟨le_rfl, fun j hj => ?_, fun hlt => absurd hlt (lt_irrefl _)⟩
    have := List.find?_eq_none.mp h j (List.mem_range.mpr hj)
    exact Bool.eq_false_iff.mpr this
  | some i =>
    obtain ⟨hset, hmem, hlow⟩ := List.find?_range_eq_some.mp h
    exact ⟨(List.mem_range.mp hmem).le, fun j hj => by simpa using hlow j hj, fun _ => hset⟩

theorem countBits_eq (p : DWord) : countBits p = (List.finRange 64).countP fun (i : Fin 64) => p.getLsbD i.val := by
  unfold countBits
  rw [← List.countP_eq_length_filter, ← List.map_coe_finRange_eq_range, List.countP_map]
  rfl

end Sys2Proof.Machine
end

section
open Sys2Proof Sys2Proof.Machine Sys2Proof.Safety

/-- Settles O10: what fields above 7 do (`predOp_undefined`, `predCount_undefined`), and what the others write (`predCmp_writes`,
`predOp_writes`, `predCount_writes`). -/
theorem predicateResults : Obligations.PredicateResults := by
  unfold Obligations.PredicateResults
  intro s n kind pr rd ra rb hi
  have hv : MayIssue s n 4 [] [ra, rb] := mayIssue_fewer hi (by simp) (by simp)
  have h0 : MayIssue s n 4 [] [] := mayIssue_fewer hi (by simp) (by simp)
  have hd : MayIssue s n 4 [rd] [] := mayIssue_fewer hi (by simp) (by simp)
  refine ⟨fun h7 => ?_, ?_, fun h7 => ⟨predCmp_writes hv h7 fun i => ?_, predCmp_writes hv h7 fun i => ?_,
    predCmp_writes hv h7 fun i => ?_, predCmp_writes hv h7 fun i => ?_, fun hab => ?_, fun ha => ?_, fun ha hb => ?_⟩⟩
  · have hany : ∀ ps : List (Fin 32), ∃ i ∈ rd :: ps, 7 < i.val := fun ps => ⟨rd, List.mem_cons_self, h7⟩
    exact ⟨congrArg _ (predOp_undefined hv (hany _)), congrArg _ (predOp_undefined hv (hany _)),
      congrArg _ (predOp_undefined hv (hany _)), congrArg _ (predOp_undefined hv (hany _)),
      congrArg _ (predOp_undefined h0 (hany _)), congrArg _ (predOp_undefined h0 (hany _)),
      congrArg _ (predOp_undefined h0 (hany _)), congrArg _ (predOp_undefined h0 (hany _)),
      congrArg _ (predCount_undefined hd (.inl h7)), congrArg _ (predCount_undefined hd (.inl h7))⟩
  · rintro rfl p q hnan
    exact nan_compares hnan
  · exact Bool.bne_false _
  · exact Bool.bne_true _
  · exact (Bool.bne_false _).trans (Bool.or_false _)
  · exact Bool.bne_false _
  · have hany : ∃ i ∈ [rd, ra, rb], 7 < i.val := by simpa using Or.inr hab
    exact ⟨congrArg _ (predOp_undefined h0 hany), congrArg _ (predOp_undefined h0 hany), congrArg _ (predOp_undefined h0 hany)⟩
  · exact ⟨congrArg _ (predOp_undefined h0 ⟨ra, by simp, ha⟩), congrArg _ (predCount_undefined hd (.inr ha)),
      congrArg _ (predCount_undefined hd (.inr ha))⟩
  · have h3 : ∀ i ∈ [rd, ra, rb], i.val ≤ 7 := by simp [h7, ha, hb]
    obtain ⟨hle, hlow, hset⟩ := firstBit_lowest ((s.needles[n]).pf ra)
    refine ⟨predOp_writes h0 h3 fun _ => rfl, predOp_writes h0 h3 fun _ => rfl, predOp_writes h0 h3 fun _ => rfl,
      predOp_writes h0 (by simp [h7, ha]) fun _ => rfl, ⟨_, predCount_writes hd h7 ha, hle, hlow, hset⟩,
      (predCount_writes hd h7 ha).trans ?_⟩
    rw [countBits_eq]
    rfl
end

section
/-! SUPPORT. Rib reductions (10 R278, 12 R339 to R341): sums over the admitted lanes, the results where no lane is admitted, and the
extreme with its lowest index. -/

namespace Sys2Proof.Machine
open Sys2Proof Sys2Proof.Safety

/-- An instruction that issues and writes s[rd], the write given where it issues. -/
theorem issue_scalar_at {s : State} {n : Fin 96} {ss vs : List (Fin 32)} {rd : Fin 32} {f : State → NStep} {v : DWord}
    (h : MayIssue s n 4 ss vs) (hf : f (s.clocked n 4) = .done ((s.clocked n 4).modNeedle n fun y => y.setS rd v)) :
    (.next (s.issue n 4 ss vs f) : Host.Outcome State Fault Refusal) = writesS s n rd v :=
  congrArg Host.Outcome.next (issue_retired h hf)

/-! ### Sums over the admitted lanes -/

section Lanes
variable {x : Needle} {pr : Pred} {ra : Fin 32}

/-- A fold over the admitted lanes that adds up what it meets. -/
theorem foldl_admitted {f : Int → Option Word → Int} {g : Word → Int} (hsome : ∀ t w, f t (some w) = t + g w)
    (hnone : ∀ t, f t none = t) (l : List (Fin 64)) (t : Int) :
    (l.map fun i => if x.admits pr i.val = true then some (x.v[ra])[i] else none).foldl f t =
      t + ((l.filter fun i => x.admits pr i.val).map fun i => g (x.v[ra])[i]).sum := by
  induction l generalizing t with
  | nil => exact (Int.add_zero t).symm
  | cons i l ih =>
    rw [List.map_cons, List.foldl_cons, List.filter_cons]
    cases x.admits pr i.val with
    | true => simp only [if_true, hsome, ih, List.map_cons, List.sum_cons, add_assoc]
    | false => simp only [Bool.false_eq_true, if_false, hnone, ih]

theorem intSum_admitted (squares : Bool) : intSum squares (x.admitted pr ra) =
    (((List.finRange 64).filter fun (i : Fin 64) => x.admits pr i.val).map fun i =>
      if squares = true then ((x.v[ra])[i]).toInt * ((x.v[ra])[i]).toInt else ((x.v[ra])[i]).toInt).sum :=
  (foldl_admitted (g := fun w => if squares = true then w.toInt * w.toInt else w.toInt) (fun _ _ => rfl) (fun _ => rfl) _ 0).trans
    (Int.zero_add _)

/-! ### No admitted lane -/

section Empty
variable (hnone : ((List.finRange 64).filter fun (i : Fin 64) => x.admits pr i.val) = [])
include hnone

theorem admits_none (i : Fin 64) : x.admits pr i.val = false := by
  have := List.filter_eq_nil_iff.mp hnone i (List.mem_finRange i)
  exact Bool.eq_false_iff.mpr this

theorem admitted_none : ∀ o ∈ x.admitted pr ra, o = none := by
  intro o ho
  obtain ⟨i, -, rfl⟩ := List.mem_map.mp ho
  rw [admits_none hnone i]
  rfl

theorem candidates_none (base : Word) : x.candidates pr ra base = [] := by
  unfold Needle.candidates allFin
  rw [hnone]
  rfl

end Empty
end Lanes

theorem treeLevel_none {α : Type} (f : α → α → α) (l : List (Option α)) (h : ∀ o ∈ l, o = none) :
    ∀ o ∈ treeLevel f l, o = none := by
  induction l using treeLevel.induct with
  | case1 a b l ih => exact absurd (h (some a) (by simp)) (by simp)
  | case2 a l ih => exact absurd (h (some a) (by simp)) (by simp)
  | case3 b l ih =>
    intro o ho
    obtain rfl | ho := List.mem_cons.mp ho
    · exact h o (by simp)
    · exact ih (fun o ho => h o (by simp [ho])) o ho
  | case4 l h1 h2 h3 =>
    intro o ho
    rw [treeLevel] at ho
    · exact h o ho
    · exact h1
    · exact h2
    · exact h3

/-- The tree of no values has none. -/
theorem treeFold_none {α : Type} (f : α → α → α) {l : List (Option α)} (h : ∀ o ∈ l, o = none) : treeFold f l = none := by
  have hall : ∀ (k : List Nat) (m : List (Option α)), (∀ o ∈ m, o = none) →
      ∀ o ∈ k.foldl (fun m _ => treeLevel f m) m, o = none := by
    intro k
    induction k with
    | nil => exact fun m hm => hm
    | cons _ k ih => exact fun m hm => ih _ (treeLevel_none f m hm)
  unfold treeFold
  cases hhead : ((List.range 6).foldl (fun l _ => treeLevel f l) l).head? with
  | none => rfl
  | some o => rw [hall _ _ h o (List.mem_of_mem_head? hhead)]; rfl

/-- SUM and SUMSQ of no lane (R278). -/
theorem fpSum_none {l : List (Option Word)} (h : ∀ o ∈ l, o = none) (squares acc : Bool) (prev : Word) :
    fpSum squares acc prev l = none := by
  have hsq : ∀ o ∈ l.map fun o => o.map fun w => (dec32 w).mul (dec32 w), o = none := by
    intro o ho
    obtain ⟨a, ha, rfl⟩ := List.mem_map.mp ho
    rw [h a ha]
    rfl
  unfold fpSum treeSquares treeSum
  rw [treeFold_none _ h, treeFold_none _ hsq]
  cases squares <;> rfl

/-! ### The extreme with its lowest index (R341) -/

/-- How good a value is: the larger the better, or the smaller. -/
def score (isMax : Bool) (v : Word) : Int := if isMax = true then v.toInt else -v.toInt

theorem score_inj {isMax : Bool} {v w : Word} (h : score isMax v = score isMax w) : v = w := by
  cases isMax with
  | true => exact BitVec.eq_of_toInt_eq h
  | false => exact BitVec.eq_of_toInt_eq (neg_inj.mp h)

theorem score_le_iff {isMax : Bool} {v w : Word} :
    score isMax v ≤ score isMax w ↔ if isMax = true then v.toInt ≤ w.toInt else w.toInt ≤ v.toInt := by
  cases isMax with
  | true => rfl
  | false => exact neg_le_neg_iff

/-- A candidate is at least as good as another, and comes no later where their values are equal. -/
def Outdoes (isMax : Bool) (w x : Word × Word) : Prop :=
  score isMax x.1 ≤ score isMax w.1 ∧ (x.1 = w.1 → w.2.toNat ≤ x.2.toNat)

theorem outdoes_refl (isMax : Bool) (w : Word × Word) : Outdoes isMax w w := ⟨le_rfl, fun _ => le_rfl⟩

theorem outdoes_trans {isMax : Bool} {w x y : Word × Word} (h : Outdoes isMax w x) (k : Outdoes isMax x y) : Outdoes isMax w y := by
  obtain ⟨hv, hi⟩ := h
  obtain ⟨kv, ki⟩ := k
  refine ⟨kv.trans hv, fun e => ?_⟩
  have hmid : x.1 = w.1 := score_inj (le_antisymm hv (e ▸ kv))
  exact (hi hmid).trans (ki (e.trans hmid.symm))

/-- The better of two candidates, as the fold of R341 takes it. -/
def betterOf (isMax : Bool) (y x : Word × Word) : Word × Word :=
  if (if isMax = true then y.1.slt x.1 else x.1.slt y.1) || (decide (x.1 = y.1) && decide (x.2.toNat < y.2.toNat)) then x else y

theorem betterOf_either (isMax : Bool) (y x : Word × Word) : betterOf isMax y x = x ∨ betterOf isMax y x = y := ite_eq_or_eq ..

theorem betterOf_outdoes (isMax : Bool) (y x : Word × Word) :
    Outdoes isMax (betterOf isMax y x) y ∧ Outdoes isMax (betterOf isMax y x) x := by
  have hless : (if isMax = true then y.1.slt x.1 else x.1.slt y.1) = decide (score isMax y.1 < score isMax x.1) := by
    cases isMax with
    | true => exact BitVec.slt_eq_decide ..
    | false => exact (BitVec.slt_eq_decide ..).trans (decide_eq_decide.mpr neg_lt_neg_iff.symm)
  unfold betterOf
  rw [hless]
  split
  · next h =>
    refine ⟨?_, outdoes_refl ..⟩
    obtain h | ⟨he, hi⟩ : score isMax y.1 < score isMax x.1 ∨ (x.1 = y.1 ∧ x.2.toNat < y.2.toNat) := by simpa using h
    · exact ⟨h.le, fun e => absurd (congrArg (score isMax) e) h.ne⟩
    · exact ⟨(congrArg _ he.symm).le, fun _ => hi.le⟩
  · next h =>
    obtain ⟨hle, hi⟩ : score isMax x.1 ≤ score isMax y.1 ∧ (x.1 = y.1 → y.2.toNat ≤ x.2.toNat) := by simpa using h
    exact ⟨outdoes_refl .., hle, hi⟩

/-- The fold keeps a candidate that outdoes all it has met. -/
theorem foldl_betterOf (isMax : Bool) (l : List (Word × Word)) (y : Word × Word) :
    l.foldl (betterOf isMax) y ∈ y :: l ∧ ∀ x ∈ y :: l, Outdoes isMax (l.foldl (betterOf isMax) y) x := by
  induction l generalizing y with
  | nil => exact ⟨List.mem_singleton_self y, fun x hx => List.mem_singleton.mp hx ▸ outdoes_refl ..⟩
  | cons z l ih =>
    obtain ⟨hmem, hall⟩ := ih (betterOf isMax y z)
    obtain ⟨hy, hz⟩ := betterOf_outdoes isMax y z
    have hbest := hall _ List.mem_cons_self
    refine ⟨?_, fun x hx => ?_⟩
    · obtain h | h := List.mem_cons.mp hmem
      · rw [List.foldl_cons, h]
        obtain e | e := betterOf_either isMax y z
        · rw [e]
          exact List.mem_cons_of_mem _ List.mem_cons_self
        · rw [e]
          exact List.mem_cons_self
      · exact List.mem_cons_of_mem _ (List.mem_cons_of_mem _ h)
    · obtain rfl | hx := List.mem_cons.mp hx
      · exact outdoes_trans hbest hy
      · obtain rfl | hx := List.mem_cons.mp hx
        · exact outdoes_trans hbest hz
        · exact hall x (List.mem_cons_of_mem _ hx)

/-- A fold that holds a value throughout. -/
theorem foldl_some {α β : Type} {f : Option β → α → Option β} {g : β → α → β}
    (h : ∀ y x, f (some y) x = some (g y x)) (l : List α) (y : β) :
    l.foldl f (some y) = some (l.foldl g y) := by
  induction l generalizing y with
  | nil => rfl
  | cons x l ih => rw [List.foldl_cons, List.foldl_cons, h, ih]

theorem pickInt_cons (isMax : Bool) (l : List (Word × Word)) (y : Word × Word) :
    pickInt isMax (y :: l) = some (l.foldl (betterOf isMax) y) :=
  foldl_some (fun _ _ => (apply_ite some ..).symm) l y

/-- The winner among some candidates. -/
theorem pickInt_outdoes (isMax : Bool) {l : List (Word × Word)} (h : l ≠ []) :
    ∃ w ∈ l, pickInt isMax l = some w ∧ ∀ x ∈ l, Outdoes isMax w x := by
  cases l with
  | nil => exact absurd rfl h
  | cons y l =>
    obtain ⟨hmem, hall⟩ := foldl_betterOf isMax l y
    exact ⟨_, hmem, pickInt_cons isMax l y, hall⟩

/-- The admitted lane a reduction picks: no admitted lane is better, and none below holds the same value. -/
def PicksLane (isMax : Bool) (x : Needle) (pr : Pred) (ra : Fin 32) (i : Fin 64) : Prop :=
  x.admits pr i.val = true ∧ ∀ j : Fin 64, x.admits pr j.val = true →
    score isMax (x.v[ra])[j] ≤ score isMax (x.v[ra])[i] ∧ ((x.v[ra])[j] = (x.v[ra])[i] → i.val ≤ j.val)

theorem picksLane_unique {isMax : Bool} {x : Needle} {pr : Pred} {ra : Fin 32} {i j : Fin 64} (h : PicksLane isMax x pr ra i)
    (k : PicksLane isMax x pr ra j) : i = j := by
  obtain ⟨hi, hbest⟩ := h
  obtain ⟨hj, kbest⟩ := k
  obtain ⟨hji, hle⟩ := hbest j hj
  obtain ⟨hij, kle⟩ := kbest i hi
  have he := score_inj (le_antisymm hij hji)
  exact Fin.ext (le_antisymm (hle he.symm) (kle he))

/-- The winner of a reduction without ACC: the lane picked, with its number above a base that does not wrap. -/
theorem winner_picks {isMax arg : Bool} {x : Needle} {pr : Pred} {ra : Fin 32} (rd : Fin 32) {base : Word}
    (hsome : ∃ i : Fin 64, x.admits pr i.val = true) (hbase : base.toNat + 63 < 2 ^ 32) :
    ∃ i, PicksLane isMax x pr ra i ∧ x.winner true false isMax arg pr rd ra base = ((x.v[ra])[i], base + BitVec.ofNat 32 i.val) := by
  have hindex : ∀ i : Fin 64, (base + BitVec.ofNat 32 i.val).toNat = base.toNat + i.val := fun i => by
    rw [BitVec.toNat_add, BitVec.toNat_ofNat]
    omega
  have hmem : ∀ i : Fin 64, x.admits pr i.val = true → ((x.v[ra])[i], base + BitVec.ofNat 32 i.val) ∈ x.candidates pr ra base :=
    fun i hi => List.mem_map.mpr ⟨i, List.mem_filter.mpr ⟨List.mem_finRange i, hi⟩, rfl⟩
  obtain ⟨i0, hi0⟩ := hsome
  obtain ⟨w, hw, hpick, hall⟩ := pickInt_outdoes isMax (List.ne_nil_of_mem (hmem i0 hi0))
  obtain ⟨i, hi, rfl⟩ := List.mem_map.mp hw
  refine ⟨i, ⟨(List.mem_filter.mp hi).2, fun j hj => ?_⟩, ?_⟩
  · obtain ⟨hle, hfirst⟩ := hall _ (hmem j hj)
    refine ⟨hle, fun e => ?_⟩
    have := hfirst e
    rw [hindex, hindex] at this
    exact Nat.le_of_add_le_add_left this
  · unfold Needle.winner
    simp only [Bool.false_and, Bool.false_eq_true, if_false, if_true, hpick, Option.getD_some]

/-! ### The instructions -/

section Instructions
variable {s : State} {n : Fin 96} {pr : Pred} {rd ra rb : Fin 32}

/-- SUM and SUMSQ that issue. -/
theorem redSum_writes {int acc squares : Bool} {v : DWord} (hi : MayIssue s n 4 [rd] [ra])
    (hv : (s.needles[n]).summed int acc squares pr rd ra = v) :
    (.next (s.redSum n int acc squares pr rd ra) : Host.Outcome State Fault Refusal) = writesS s n rd v :=
  issue_scalar hi hv

theorem summed_int (x : Needle) (acc squares : Bool) : x.summed true acc squares pr rd ra =
    BitVec.ofInt 64 ((if acc = true then (x.sr rd).toInt else 0) + intSum squares (x.admitted pr ra)) := by
  cases acc with
  | true => exact (congrArg (· + _) BitVec.ofInt_toInt.symm).trans (BitVec.ofInt_add ..).symm
  | false => exact congrArg (BitVec.ofInt 64) (Int.zero_add _).symm

theorem summed_float {x : Needle} {acc squares : Bool} {w : Word} (h : fpSum squares acc (x.lo rd) (x.admitted pr ra) = some w) :
    x.summed false acc squares pr rd ra = w.setWidth 64 := by
  unfold Needle.summed
  simp only [h, Bool.false_eq_true, if_false]

theorem summed_empty {x : Needle} (hnone : ∀ o ∈ x.admitted pr ra, o = none) (acc squares : Bool) :
    x.summed false acc squares pr rd ra = if acc = true then x.sr rd else 0 := by
  unfold Needle.summed
  simp only [fpSum_none hnone, Bool.false_eq_true, if_false]

/-- A register written with what it holds is left as it is. -/
theorem setS_self (x : Needle) (rd : Fin 32) : x.setS rd (x.sr rd) = x := by
  unfold Needle.setS Needle.sr
  split
  · rfl
  · exact congrArg (fun v => { x with s := v }) (Vector.set_getElem_self rd.isLt)

theorem writesS_self : writesS s n rd ((s.needles[n]).sr rd) = .next (retired s n 4 id) :=
  congrArg Host.Outcome.next (retired_congr (setS_self ((s.needles[n]).clocked 4 s.freeVal) rd))

/-- MEANVAR needs binary32 lanes and a pair of registers. -/
theorem redMeanvar_undefined {int acc : Bool} (hi : MayIssue s n 4 [rd, rd + 1] [ra]) (h : int = true ∨ 30 < rd.val) :
    redMeanvar n int acc pr rd ra s = s.needleFault n 1 (s.needles[n]).pc.toNat 0 := by
  unfold redMeanvar
  simp only [if_pos h]
  exact issue_fault hi rfl

/-- MEANVAR's tree of no lane has no value. -/
theorem meanvar_tree_none (hnone : ∀ o ∈ (s.needles[n]).admitted pr ra, o = none) :
    treeFold MeanVar.merge ((((s.clocked n 4).needles[n]).admitted pr ra).map fun o => o.map fun w => MeanVar.mk 1 w 0) = none := by
  refine treeFold_none _ fun o ho => ?_
  rw [Fin.getElem_fin, clocked_needle] at ho
  obtain ⟨a, ha, rfl⟩ := List.mem_map.mp ho
  rw [hnone a ha]
  rfl

section Meanvar
variable (hi : MayIssue s n 4 [rd, rd + 1] [ra]) (h30 : rd.val ≤ 30) (hnone : ∀ o ∈ (s.needles[n]).admitted pr ra, o = none)
include hi h30 hnone

theorem redMeanvar_stays : redMeanvar n false true pr rd ra s = retired s n 4 id := by
  unfold redMeanvar
  simp only [if_neg (show ¬(false = true ∨ 30 < rd.val) by simpa using h30)]
  refine issue_retired hi (Eq.trans ?_ (congrArg NStep.done (modNeedle_id ..).symm))
  rw [meanvar_tree_none hnone]
  rfl

theorem redMeanvar_empty : redMeanvar n false false pr rd ra s = retired s n 4 fun y => (y.setS rd 0).setS (rd + 1) 0 := by
  unfold redMeanvar
  simp only [if_neg (show ¬(false = true ∨ 30 < rd.val) by simpa using h30)]
  refine issue_retired hi ?_
  rw [meanvar_tree_none hnone]
  simp only [Option.getD_none, Bool.false_eq_true, false_and, if_false]
  rfl

end Meanvar

section Pick
variable {int acc isMax arg : Bool}

/-- What MAX, MIN, ARGMAX and ARGMIN write of a winner. -/
def winnerWord (arg : Bool) (w : Word × Word) : DWord :=
  if arg = true then BitVec.ofNat 64 (w.1.toNat + w.2.toNat * 2 ^ 32) else w.1.setWidth 64

theorem redPick_writes (hi : MayIssue s n 4 (if arg = true then [rd, rb] else [rd]) [ra])
    (h : ¬(acc = true ∧ ((s.needles[n]).candidates pr ra 0).isEmpty = true)) :
    (.next (s.redPick n int acc isMax arg pr rd ra rb) : Host.Outcome State Fault Refusal) = writesS s n rd (winnerWord arg
      ((s.needles[n]).winner int acc isMax arg pr rd ra (if arg = true then (s.needles[n]).lo rb else 0))) := by
  refine issue_scalar_at hi ?_
  dsimp only
  rw [Fin.getElem_fin, clocked_needle]
  exact if_neg h

/-- With ACC and no lane the destination is left. -/
theorem redPick_stays (hi : MayIssue s n 4 (if arg = true then [rd, rb] else [rd]) [ra])
    (hnone : ∀ base, (s.needles[n]).candidates pr ra base = []) :
    s.redPick n int true isMax arg pr rd ra rb = retired s n 4 id := by
  refine issue_retired hi (Eq.trans ?_ (congrArg NStep.done (modNeedle_id ..).symm))
  dsimp only
  rw [Fin.getElem_fin, clocked_needle]
  refine if_pos ⟨rfl, List.isEmpty_iff.mpr (hnone 0)⟩

/-- Without ACC and without a lane the result is empty (R278). -/
theorem winner_empty {x : Needle} (hnone : ∀ base, x.candidates pr ra base = []) (base : Word) :
    x.winner int false isMax arg pr rd ra base = redEmpty := by
  unfold Needle.winner
  simp only [hnone, Bool.false_and, Bool.false_eq_true, if_false]
  cases int <;> cases x.ignoreNan <;> rfl

end Pick
end Instructions

end Sys2Proof.Machine
end

section
open Sys2Proof Sys2Proof.Machine Sys2Proof.Safety

/-- Settles O11: the sums by their folds (`intSum_admitted`), no admitted lane by the empty trees and candidates, and the extremes by
the lane the fold picks (`winner_picks`), which is one lane whatever base it counts from (`picksLane_unique`). -/
theorem reductionResults : Obligations.ReductionResults := by
  unfold Obligations.ReductionResults
  refine ⟨fun s n acc pr rd ra rb hi => ?_, fun s n pr rd ra rb hi => ?_⟩
  · have hone : MayIssue s n 4 [rd] [ra] := mayIssue_fewer hi (by simp) (by simp)
    have htwo : MayIssue s n 4 [rd, rd + 1] [ra] := mayIssue_fewer hi (by simp) (by simp)
    have harg : MayIssue s n 4 [rd, rb] [ra] := mayIssue_fewer hi (by simp) (by simp)
    refine ⟨redSum_writes hone ?_, redSum_writes hone ?_, fun v hv => redSum_writes hone (summed_float hv),
      fun v hv => redSum_writes hone (summed_float hv), congrArg _ (redMeanvar_undefined htwo (.inl rfl)),
      fun h30 => congrArg _ (redMeanvar_undefined htwo (.inr h30)), fun hnone => ⟨?_, ?_⟩⟩
    · rw [summed_int, intSum_admitted]
      rfl
    · rw [summed_int, intSum_admitted]
      rfl
    · rintro rfl
      have hsum := summed_empty (rd := rd) (admitted_none (ra := ra) hnone) true
      have hcand := candidates_none (ra := ra) hnone
      refine ⟨(redSum_writes hone (hsum false)).trans writesS_self, (redSum_writes hone (hsum true)).trans writesS_self,
        fun h30 => congrArg _ (redMeanvar_stays htwo h30 (admitted_none hnone)), fun int => ⟨?_, ?_, ?_, ?_⟩⟩
      · exact congrArg _ (redPick_stays (arg := false) hone hcand)
      · exact congrArg _ (redPick_stays (arg := false) hone hcand)
      · exact congrArg _ (redPick_stays (arg := true) harg hcand)
      · exact congrArg _ (redPick_stays (arg := true) harg hcand)
    · rintro rfl
      have hsum := summed_empty (rd := rd) (admitted_none (ra := ra) hnone) false
      have hcand := candidates_none (ra := ra) hnone
      refine ⟨redSum_writes hone (hsum false), redSum_writes hone (hsum true),
        fun h30 => congrArg _ (redMeanvar_empty htwo h30 (admitted_none hnone)), fun int => ⟨?_, ?_, ?_, ?_⟩⟩
      · exact (redPick_writes (arg := false) hone (by simp)).trans (by rw [winner_empty hcand]; rfl)
      · exact (redPick_writes (arg := false) hone (by simp)).trans (by rw [winner_empty hcand]; rfl)
      · exact (redPick_writes (arg := true) harg (by simp)).trans (by rw [winner_empty hcand]; rfl)
      · exact (redPick_writes (arg := true) harg (by simp)).trans (by rw [winner_empty hcand]; rfl)
  · intro x lane hsome hbase pick arg
    have hone : MayIssue s n 4 [rd] [ra] := mayIssue_fewer hi (by simp) (by simp)
    have hboth : ∀ isMax : Bool, ∃ i, PicksLane isMax x pr ra i ∧
        (.next (s.redPick n true false isMax false pr rd ra 0) : Host.Outcome State Fault Refusal) =
          writesS s n rd ((lane i).setWidth 64) ∧
        (.next (s.redPick n true false isMax true pr rd ra rb) : Host.Outcome State Fault Refusal) = writesS s n rd (arg i) := by
      intro isMax
      obtain ⟨i, hpick, hwin⟩ := winner_picks (isMax := isMax) (arg := false) rd hsome (base := 0) (by decide)
      obtain ⟨j, kpick, kwin⟩ := winner_picks (isMax := isMax) (arg := true) rd hsome hbase
      obtain rfl := picksLane_unique hpick kpick
      refine ⟨i, hpick, (redPick_writes (arg := false) hone (by simp)).trans ?_, (redPick_writes (arg := true) hi (by simp)).trans ?_⟩
      · exact congrArg (fun w => writesS s n rd (winnerWord false w)) hwin
      · refine (congrArg (fun w => writesS s n rd (winnerWord true w)) kwin).trans (congrArg (writesS s n rd) ?_)
        refine congrArg (fun k => BitVec.ofNat 64 (((x.v[ra])[i]).toNat + k * 2 ^ 32)) ?_
        rw [BitVec.toNat_add, BitVec.toNat_ofNat]
        omega
    have hpick : ∀ {isMax : Bool} {i : Fin 64}, PicksLane isMax x pr ra i → pick isMax i := by
      rintro isMax i ⟨hi, hbest⟩
      exact ⟨hi, fun j hj => ⟨score_le_iff.mp (hbest j hj).1, (hbest j hj).2⟩⟩
    obtain ⟨i, hi, hmax, hargmax⟩ := hboth true
    obtain ⟨j, hj, hmin, hargmin⟩ := hboth false
    exact ⟨⟨i, hpick hi, hmax, hargmax⟩, ⟨j, hpick hj, hmin, hargmin⟩⟩
end

section
/-! SUPPORT. Control registers (10 R268). -/

namespace Sys2Proof.Machine
open Sys2Proof Sys2Proof.Safety

section Control
variable {s : State} {n : Fin 96} {rd ra rb : Fin 32}

/-- NEEDLE_ID of a needle of a swatch. -/
theorem ctrlReg_id {i : Fin 8} (h : s.swatchOf (skeinOf n) = some i) : s.ctrlReg n 0 =
    some ((mkW [(0, 7, n.val), (7, 3, n.val % 6), (10, 4, n.val / 6), (14, 2, n.val / 24), (16, 2, n.val / 6 % 4),
      (18, 4, (n.val / 24 - (s.swatches[i]).course0.val) * ((s.swatches[i]).walesM1.val + 1) +
        (n.val / 6 % 4 - (s.swatches[i]).wale0.val)), (22, 3, i.val)]).setWidth 64) := by
  have hcourse : n.val / 6 / 4 = n.val / 24 := Nat.div_div_eq_div_mul ..
  unfold State.ctrlReg
  simp only [h, Option.map_some, Option.getD_some, Swatch.relOf]
  simp only [skeinOf, kOf, hcourse]

theorem ctrlReg_none {i : Nat} (h : 7 ≤ i) : s.ctrlReg n i = none := by
  obtain ⟨j, rfl⟩ : ∃ j, i = j + 7 := ⟨i - 7, by omega⟩
  rfl

/-- CSRR of a listed index. -/
theorem csrr_reads {v : DWord} (hi : MayIssue s n 4 [rd] []) (h : s.ctrlReg n rb.val = some v) : execCsrr n rd rb s = writesS s n rd v :=
  issue_scalar_at hi (by rw [h])

theorem csrr_undefined (hi : MayIssue s n 4 [rd] []) (h : s.ctrlReg n rb.val = none) :
    execCsrr n rd rb s = .next (s.needleFault n 1 (s.needles[n]).pc.toNat 0) :=
  congrArg Host.Outcome.next (issue_fault hi (by rw [h]))

/-- CSRW of an RO or unlisted index. -/
theorem csrw_undefined (hi : MayIssue s n 4 [ra] []) (h : rb.val = 0 ∨ 4 ≤ rb.val) :
    execCsrw n ra rb s = .next (s.needleFault n 1 (s.needles[n]).pc.toNat 0) := by
  refine congrArg Host.Outcome.next (issue_fault hi ?_)
  obtain h | h := h
  · rw [h]
    rfl
  · obtain ⟨j, hj⟩ : ∃ j, rb.val = j + 4 := ⟨rb.val - 4, by omega⟩
    rw [hj]
    rfl

end Control

end Sys2Proof.Machine
end

section
open Sys2Proof Sys2Proof.Machine Sys2Proof.Safety

/-- Settles O12: a read by the register of its index (`csrr_reads`), a write by the branch of its index. -/
theorem controlRegisterReadsAndWrites : Obligations.ControlRegisterReadsAndWrites := by
  unfold Obligations.ControlRegisterReadsAndWrites
  intro s n rd ra rb hi
  have hd : MayIssue s n 4 [rd] [] := mayIssue_fewer hi (by simp) (by simp)
  have ha : MayIssue s n 4 [ra] [] := mayIssue_fewer hi (by simp) (by simp)
  refine ⟨?_, ?_, ?_, ?_, ?_, ?_, ?_, fun h => csrr_undefined hd (ctrlReg_none h), ?_, ?_, ?_,
    fun h => csrw_undefined ha (h.imp_left (congrArg Fin.val))⟩
  · rintro i hsw rfl
    exact csrr_reads (rb := 0) hd (ctrlReg_id hsw)
  all_goals rintro rfl
  · exact csrr_reads (rb := 1) hd rfl
  · exact csrr_reads (rb := 2) hd rfl
  · exact csrr_reads (rb := 3) hd rfl
  · exact csrr_reads (rb := 4) hd rfl
  · exact csrr_reads (rb := 5) hd rfl
  · exact csrr_reads (rb := 6) hd rfl
  · exact congrArg Host.Outcome.next (issue_retired ha rfl)
  · exact congrArg Host.Outcome.next (issue_retired ha rfl)
  · exact congrArg Host.Outcome.next (issue_retired ha rfl)
end

section
/-! SUPPORT. TICKWAIT and its resume (10 R286, R287). -/

namespace Sys2Proof.Machine
open Sys2Proof Sys2Proof.Safety

section Tickwait
variable {s : State} {n : Fin 96} {rd ra : Fin 32}

/-- s0 ignores a write. -/
theorem setS_eq (x : Needle) (rd : Fin 32) (v : DWord) : x.setS rd v = { x with s := if rd = 0 then x.s else x.s.set rd v } := by
  unfold Needle.setS
  split <;> rfl

theorem tickwait_hard (hi : MayIssue s n 4 [rd, ra] []) (hh : s.inHard n = true) :
    tickwait n rd ra s = retired s n 4 fun y => { y with wait := .ended } := by
  unfold tickwait
  exact issue_retired hi (if_pos hh)

theorem tickwait_next (hi : MayIssue s n 4 [rd, 0] []) (hh : s.inHard n = false) :
    tickwait n rd 0 s = retired s n 4 fun y => { y with wait := .tick rd (s.tick.count + 1) true } := by
  unfold tickwait
  exact issue_retired hi ((if_neg (Bool.eq_false_iff.mp hh)).trans (if_neg fun h => h.1 rfl))

section Target
variable (hi : MayIssue s n 4 [rd, ra] []) (hh : s.inHard n = false) (ha : ra ≠ 0)
include hi hh ha

/-- A tick that has come is no wait. -/
theorem tickwait_reached (ht : ((s.needles[n]).s[ra]).toNat ≤ s.tick.count.toNat) :
    (.next (tickwait n rd ra s) : Host.Outcome State Fault Refusal) = writesS s n rd s.tick.count := by
  unfold tickwait Needle.sr
  simp only [if_neg ha]
  exact issue_scalar_at hi ((if_neg (Bool.eq_false_iff.mp hh)).trans (if_pos ⟨ha, ht⟩))

theorem tickwait_waits (ht : s.tick.count.toNat < ((s.needles[n]).s[ra]).toNat) :
    tickwait n rd ra s = retired s n 4 fun y => { y with wait := .tick rd (s.needles[n]).s[ra] false } := by
  unfold tickwait Needle.sr
  simp only [if_neg ha]
  refine issue_retired hi ((if_neg (Bool.eq_false_iff.mp hh)).trans ((if_neg fun h => Nat.not_le.mpr ht h.2).trans ?_))
  rw [decide_eq_false ha]

end Target

section Resume
variable {target : DWord} {any : Bool} (hw : (s.needles[n]).wait = .tick rd target any)
include hw

theorem tickResume_eq : tickResume n s =
    if target.toNat ≤ s.tick.count.toNat ∧ s.swatchRuns n = true then s.wake n fun x => x.setS rd s.tick.count else s := by
  unfold tickResume
  simp only [hw, Bool.and_eq_true, decide_eq_true_eq]

theorem tickResume_wakes (ht : target.toNat ≤ s.tick.count.toNat) (hr : s.swatchRuns n = true) :
    tickResume n s = s.modNeedle n fun y =>
      Needle.boundary { y with wait := .none, s := if rd = 0 then y.s else y.s.set rd s.tick.count } := by
  rw [tickResume_eq hw, if_pos ⟨ht, hr⟩]
  unfold State.wake
  simp only [setS_eq]

theorem tickResume_stays (h : s.tick.count.toNat < target.toNat ∨ s.swatchRuns n = false) : tickResume n s = s := by
  rw [tickResume_eq hw]
  refine if_neg fun ⟨ht, hr⟩ => ?_
  obtain h | h := h
  · exact Nat.not_le.mpr h ht
  · exact Bool.eq_false_iff.mp h hr

end Resume
end Tickwait

end Sys2Proof.Machine
end

section
open Sys2Proof Sys2Proof.Machine Sys2Proof.Safety

/-- Settles O13: TICKWAIT by its cases (`tickwait_hard` to `tickwait_waits`), the resume by whether the tick has come
(`tickResume_eq`). -/
theorem haltAndTickWait : Obligations.HaltAndTickWait := by
  unfold Obligations.HaltAndTickWait
  intro s n rd ra
  refine ⟨fun hi => ⟨?_, fun hh => congrArg _ (tickwait_hard hi hh), ?_,
      fun hh ha ht => tickwait_reached hi hh ha ht, fun hh ha ht => congrArg _ (tickwait_waits hi hh ha ht)⟩,
    fun target any hw => ⟨fun ht hr => congrArg _ (tickResume_wakes hw ht hr), fun h => congrArg _ (tickResume_stays hw h)⟩⟩
  · exact congrArg Host.Outcome.next (issue_retired (mayIssue_fewer hi (by simp) (by simp)) rfl)
  · rintro hh rfl
    exact congrArg Host.Outcome.next (tickwait_next hi hh)
end

section
/-! SUPPORT. Accesses of a needle to its own skein store (10 R279, R280, R282, 09 R259): one bank access for each granule. -/

namespace Sys2Proof.Machine
open Sys2Proof Sys2Proof.Safety

/-! ### Ranges cut at granules and at rows -/

/-- A range of whole granules, cut into them. -/
theorem cuts_granules {a : Nat} (ha : a % 64 = 0) (i m fuel : Nat) (h : m ≤ fuel) :
    cuts 64 (a + 64 * i) fuel (64 * m) = (List.range' i m).map fun j => (a + 64 * j, 64) := by
  induction fuel generalizing i m with
  | zero =>
    obtain rfl : m = 0 := by omega
    rfl
  | succ fuel ih =>
    cases m with
    | zero => rfl
    | succ m =>
      have hk : min (64 * (m + 1)) (64 - (a + 64 * i) % 64) = 64 := by omega
      have hnext : a + 64 * i + 64 = a + 64 * (i + 1) := by omega
      have hleft : 64 * (m + 1) - 64 = 64 * m := by omega
      rw [cuts, if_neg (by omega)]
      simp only [hk, hnext, hleft, ih (i + 1) m (by omega), List.range'_succ, List.map_cons]

/-- The next row's part of a range of whole granules is itself of whole granules. -/
theorem row_granules {a : Nat} (ha : a % 64 = 0) (i : Nat) {m : Nat} (hm : m ≠ 0) :
    ∃ m1 m2, 0 < m1 ∧ m = m1 + m2 ∧ min (64 * m) (256 - (a + 64 * i) % 256) = 64 * m1 :=
  ⟨min m (4 - (a / 64 + i) % 4), m - min m (4 - (a / 64 + i) % 4), by omega, by omega, by omega⟩

theorem part_part (op : AccOp) {x y len len' : Nat} (h : y + len' ≤ len) : (op.part x len).part y len' = op.part (x + y) len' := by
  have hcut : ∀ b : List (Option Byte), (((b.drop x).take len).drop y).take len' = (b.drop (x + y)).take len' := fun b => by
    rw [List.drop_take, List.take_take, List.drop_drop, Nat.min_eq_left (by omega)]
  cases op with
  | write b => exact congrArg AccOp.write (hcut b)
  | atomic f b => exact congrArg (AccOp.atomic f) (hcut b)
  | _ => rfl

theorem dest_shift_shift (d : Dest) (x y : Nat) : (d.shift x).shift y = d.shift (x + y) := by
  cases d <;> simp [Dest.shift, Nat.add_assoc]

/-! ### The accesses on the list -/

section Own
variable {s : State} {n : Fin 96} {a cnt pc : Nat} {op : AccOp} {dest : Dest} {scalar : Bool}

/-- The access of one granule, the j-th of a range from a. -/
def State.granule (n : Fin 96) (a : Nat) (op : AccOp) (dest : Dest) (pc : Nat) (s : State) (j : Nat) : State :=
  s.addAccess n (.bank (skeinOf n) (bankOf (a + 64 * j))) (a + 64 * j) (op.part (64 * j) 64) (dest.shift (64 * j)) pc

/-- Accesses of granules leave what decodes an address. -/
theorem region_granules (l : List Nat) (b : Nat) : (l.foldl (State.granule n a op dest pc) s).region b = s.region b := by
  induction l generalizing s with
  | nil => rfl
  | cons j l ih => exact ih

/-- A row's accesses to the own store. -/
theorem ownAccess_granules (ha : a % 64 = 0) (i m : Nat) :
    s.ownAccess n (a + 64 * i) (64 * m) (op.part (64 * i) (64 * m)) (dest.shift (64 * i)) pc =
      (List.range' i m).foldl (State.granule n a op dest pc) s := by
  unfold State.ownAccess
  rw [cuts_granules ha i m _ (by omega), List.foldl_map]
  refine List.foldl_ext _ _ _ fun t j hj => ?_
  obtain ⟨hlo, hhi⟩ := List.mem_range'_1.mp hj
  have hoff : 64 * i + (a + 64 * j - (a + 64 * i)) = 64 * j := by omega
  rw [part_part op (by omega), dest_shift_shift, hoff]
  rfl

/-- Every address of a range within one skein store decodes to that store. -/
theorem region_within {k : Fin 16} {len b : Nat} (hr : s.region a = .store k) (hfit : a % 0x400000 + len ≤ 0x400000)
    (h1 : a ≤ b) (h2 : b < a + len) : s.region b = .store k := by
  have hlow := region_store_low hr
  have hsame : b / 0x400000 = a / 0x400000 := by omega
  unfold State.region at hr ⊢
  rw [if_pos hlow] at hr
  rw [if_pos (by omega), hsame]
  exact hr

theorem rowAccess_own {len : Nat} (hr : s.region a = .store (skeinOf n)) :
    s.rowAccess n scalar a len op dest pc = .done (s.ownAccess n a len op dest pc) := by
  unfold State.rowAccess
  simp only [hr, if_true]

/-- The rows of a range of whole granules of the own store, from the i-th granule on, by a step that does each row's access. -/
theorem rows_granules {F : NStep → Nat × Nat → NStep}
    (hF : ∀ t c, F (.done t) c = t.rowAccess n scalar c.1 c.2 (op.part (c.1 - a) c.2) (dest.shift (c.1 - a)) pc)
    (ha : a % 64 = 0) (fuel i m : Nat) (hfuel : m ≤ fuel)
    (hr : ∀ j, i ≤ j → j < i + m → s.region (a + 64 * j) = .store (skeinOf n)) :
    (cuts 256 (a + 64 * i) fuel (64 * m)).foldl F (.done s) =
      .done ((List.range' i m).foldl (State.granule n a op dest pc) s) := by
  induction fuel generalizing s i m with
  | zero =>
    obtain rfl : m = 0 := by omega
    rfl
  | succ fuel ih =>
    by_cases hm : m = 0
    · subst hm
      rfl
    obtain ⟨m1, m2, hpos, rfl, hk⟩ := row_granules ha i hm
    have hnext : a + 64 * i + 64 * m1 = a + 64 * (i + m1) := by omega
    have hleft : 64 * (m1 + m2) - 64 * m1 = 64 * m2 := by omega
    have hoff : a + 64 * i - a = 64 * i := by omega
    rw [cuts, if_neg (by omega)]
    simp only [hk, hnext, hleft, List.foldl_cons, hF, hoff, rowAccess_own (hr i le_rfl (by omega)), ownAccess_granules ha]
    rw [ih (i + m1) m2 (by omega) fun j h1 h2 => (region_granules _ _).trans (hr j (by omega) (by omega)),
      ← List.range'_append_1, List.foldl_append]

/-- An access of the own store needs no slot, FIFO or window: it is the steps of its rows. -/
theorem access_rows (hr : s.region a = .store (skeinOf n)) (len : Nat) : ∃ F : NStep → Nat × Nat → NStep,
    (∀ t c, F (.done t) c = t.rowAccess n scalar c.1 c.2 (op.part (c.1 - a) c.2) (dest.shift (c.1 - a)) pc) ∧
    s.access n scalar a len op dest pc = (cuts 256 a len len).foldl F (.done s) := by
  have hown : s.offStore n a = false := decide_eq_false (not_not_intro hr)
  unfold State.access
  rw [hown, fifoStall_store hr, oneWindow_store hr]
  exact ⟨_, fun _ _ => rfl, rfl⟩

theorem access_granules (ha : a % 64 = 0) (hr : s.region a = .store (skeinOf n)) (hfit : a % 0x400000 + 64 * cnt ≤ 0x400000) :
    s.access n scalar a (64 * cnt) op dest pc = .done ((List.range' 0 cnt).foldl (State.granule n a op dest pc) s) := by
  obtain ⟨F, hF, h⟩ := access_rows (scalar := scalar) (op := op) (dest := dest) (pc := pc) hr (64 * cnt)
  rw [h]
  exact rows_granules hF ha (64 * cnt) 0 cnt (by omega) fun j _ h2 => region_within hr hfit (by omega) (by omega)

/-- What the accesses of granules leave: one more access for each, numbered on. -/
theorem granules_eq : (List.range' 0 cnt).foldl (State.granule n a op dest pc) s = { s with
    nextAccess := s.nextAccess + cnt
    accesses := s.accesses ++ (List.range cnt).map fun i =>
      ⟨s.nextAccess + i, .needle n, .bank (skeinOf n) (Fin.ofNat 16 (a / 64 + i)), .needle, a + 64 * i,
        op.part (64 * i) 64, dest.shift (64 * i), none, pc, true, false⟩ } := by
  rw [← List.range_eq_range']
  induction cnt with
  | zero => simp only [List.range_zero, List.foldl_nil, List.map_nil, List.append_nil, Nat.add_zero]
  | succ c ih =>
    have hbank : (a + 64 * c) / 64 = a / 64 + c := by omega
    rw [List.range_succ, List.foldl_append, ih]
    simp only [List.foldl_cons, List.foldl_nil, State.granule, State.addAccess, State.useId, bankOf, hbank, List.map_append,
      List.map_cons, List.map_nil, List.append_assoc, Nat.add_assoc]

/-- An access within a granule of the own store. -/
theorem access_one {len : Nat} (hr : s.region a = .store (skeinOf n)) (h0 : 0 < len) (hfit : a % 64 + len ≤ 64) :
    s.access n scalar a len op dest pc =
      .done (s.addAccess n (.bank (skeinOf n) (bankOf a)) a ((op.part 0 len).part 0 len) dest pc) := by
  obtain ⟨F, hF, h⟩ := access_rows (scalar := scalar) (op := op) (dest := dest) (pc := pc) hr len
  rw [h, cuts_one h0 (by omega)]
  simp only [List.foldl_cons, List.foldl_nil, hF, rowAccess_own hr]
  unfold State.ownAccess
  rw [cuts_one h0 (by omega)]
  simp only [List.foldl_cons, List.foldl_nil, Nat.sub_self, dest_shift_zero]

end Own

/-! ### The instructions -/

section Instructions
variable {s : State} {n : Fin 96} {rt ra rb : Fin 32} {size : Fin 4} {off : BitVec 12} {dest : Dest}

/-- The accesses of a range of whole granules, issued. -/
theorem issued_granules (a cnt : Nat) (op : AccOp) (dest : Dest) (op' : Nat → AccOp) (dest' : Nat → Dest)
    (hop : ∀ i, op.part i 64 = op' i) (hdest : ∀ i, dest.shift i = dest' i) :
    Host.Outcome.next (ρ := Refusal) (φ := Fault) (((List.range' 0 cnt).foldl
      (State.granule n a op dest (s.needles[n]).pc.toNat) (s.clocked n 4)).withNeedles (retired s n 4 id).needles) =
      ownAccesses s n a cnt op' dest' := by
  obtain rfl : (fun i => op.part i 64) = op' := funext hop
  obtain rfl : (fun i => dest.shift i) = dest' := funext hdest
  rw [granules_eq]
  rfl

theorem addAccess_needles (s : State) (path : Path) (addr : Nat) (op : AccOp) (dest : Dest) (pc : Nat) :
    (s.addAccess n path addr op dest pc).needles = s.needles := rfl

theorem granules_needles {a pc : Nat} {op : AccOp} (l : List Nat) (t : State) :
    (l.foldl (State.granule n a op dest pc) t).needles = t.needles := by
  induction l generalizing t with
  | nil => rfl
  | cons j l ih => exact ih _

/-- An instruction that issues as an access of whole granules of the own store. -/
theorem issue_granules {ss vs : List (Fin 32)} {f : State → NStep} {a len cnt : Nat} {op : AccOp} {scalar : Bool}
    (hi : MayIssue s n 4 ss vs) (hf : f (s.clocked n 4) =
      (s.clocked n 4).access n scalar a len op dest (s.needles[n]).pc.toNat)
    (hlen : len = 64 * cnt) (ha : a % 64 = 0) (hown : s.region a = .store (skeinOf n) ∧ a % 0x400000 + len ≤ 0x400000)
    {op' : Nat → AccOp} {dest' : Nat → Dest} (hop : ∀ i, op.part i 64 = op' i) (hdest : ∀ i, dest.shift i = dest' i) :
    Host.Outcome.next (ρ := Refusal) (φ := Fault) (s.issue n 4 ss vs f) = ownAccesses s n a cnt op' dest' := by
  subst hlen
  rw [issue_acts_aside hi (hf.trans (access_granules ha ((clocked_region ..).trans hown.1) hown.2)) (granules_needles _ _)]
  exact issued_granules a cnt op dest op' dest' hop hdest

/-- A scalar access that issues and lies in the own store. -/
theorem scalarAccess_own {op : Needle → AccOp} {a : Nat} (hi : MayIssue s n 4 [rt, ra] [])
    (ha : mAddr s.needles[n] ra off (2 ^ size.val) = a) (haligned : a % 2 ^ size.val = 0)
    (hr : s.region a = .store (skeinOf n)) {op' : AccOp}
    (hop : ((op s.needles[n]).part 0 (2 ^ size.val)).part 0 (2 ^ size.val) = op') :
    Host.Outcome.next (ρ := Refusal) (φ := Fault) (s.scalarAccess n rt ra size.val off op dest) =
      ownAccesses s n a 1 (fun _ => op') fun _ => dest := by
  subst ha hop
  have hacc := access_one (s := s.clocked n 4) (scalar := true) (op := op s.needles[n]) (dest := dest)
    (pc := (s.needles[n]).pc.toNat) ((clocked_region ..).trans hr) (Nat.two_pow_pos _) (aligned_fits size haligned)
  unfold State.scalarAccess
  rw [issue_acts_aside hi ((if_neg (not_not_intro haligned)).trans hacc) (addAccess_needles ..)]
  unfold ownAccesses State.addAccess State.useId
  rw [List.range_one, List.map_singleton, Nat.mul_zero, Nat.add_zero, Nat.add_zero, Nat.add_zero]
  rfl

theorem part_regBytes {x : Needle} {f : List (Option Byte) → AccOp} (h : ∀ b k, (f b).part 0 k = f (b.take k)) (size : Nat) :
    ((f (regBytes x rt size)).part 0 (2 ^ size)).part 0 (2 ^ size) = f (regBytes x rt size) := by
  simp only [h, List.take_of_length_le (regBytes_length x rt size).le]

theorem sstAtomicAdd_own {fp32 : Bool} (hi : MayIssue s n 4 [rt, ra] []) (haligned : mAddr s.needles[n] ra off 4 % 4 = 0)
    (hr : s.region (mAddr s.needles[n] ra off 4) = .store (skeinOf n)) :
    Host.Outcome.next (ρ := Refusal) (φ := Fault) (sstAtomicAdd n rt ra 2 fp32 off s) =
      ownAccesses s n (mAddr s.needles[n] ra off 4) 1
        (fun _ => .atomic (if fp32 = true then .fp32 else .int32) (regBytes s.needles[n] rt 2)) fun _ => .none := by
  unfold sstAtomicAdd
  rw [if_neg (by decide)]
  exact scalarAccess_own (size := 2) hi rfl haligned hr (part_regBytes (fun _ _ => rfl) _)

theorem scalarAccess_misaligned {op : Needle → AccOp} (hi : MayIssue s n 4 [rt, ra] [])
    (h : mAddr s.needles[n] ra off (2 ^ size.val) % 2 ^ size.val ≠ 0) : s.scalarAccess n rt ra size.val off op dest =
      s.needleFault n 2 (s.needles[n]).pc.toNat (mAddr s.needles[n] ra off (2 ^ size.val)) := by
  unfold State.scalarAccess
  exact issue_fault hi (if_pos h)

theorem vecAccess_own {op : Needle → AccOp} (hi : MayIssue s n 4 [ra] [rt])
    (haligned : mAddr s.needles[n] ra off 64 % 64 = 0)
    (hown : s.region (mAddr s.needles[n] ra off 64) = .store (skeinOf n) ∧
      mAddr s.needles[n] ra off 64 % 0x400000 + 256 ≤ 0x400000) {op' : Nat → AccOp} {dest' : Nat → Dest}
    (hop : ∀ i, (op s.needles[n]).part i 64 = op' i) (hdest : ∀ i, dest.shift i = dest' i) :
    Host.Outcome.next (ρ := Refusal) (φ := Fault) (s.vecAccess n rt ra off op dest) =
      ownAccesses s n (mAddr s.needles[n] ra off 64) 4 op' dest' := by
  unfold State.vecAccess
  exact issue_granules (scalar := false) (cnt := 4) hi (if_neg (not_not_intro haligned)) rfl haligned hown hop hdest

theorem vecAccess_misaligned {op : Needle → AccOp} (hi : MayIssue s n 4 [ra] [rt]) (h : mAddr s.needles[n] ra off 64 % 64 ≠ 0) :
    s.vecAccess n rt ra off op dest = s.needleFault n 2 (s.needles[n]).pc.toNat (mAddr s.needles[n] ra off 64) := by
  unfold State.vecAccess
  exact issue_fault hi (if_pos h)

section Feed
variable {fa f len : Nat} (hi : MayIssue s n 4 [rt, ra, rb] []) (hfa : ((s.needles[n]).sr ra).toNat = fa)
  (hf : ((s.needles[n]).sr rt).toNat = f) (hlen : ((s.needles[n]).sr rb).toNat = len)
include hi hfa hf hlen

theorem feedMove_badLength {load : Bool} (h : len < 64 ∨ 4096 < len ∨ len % 64 ≠ 0 ∨ fa % 64 ≠ 0) :
    s.feedMove n rt ra rb load = s.needleFault n 2 (s.needles[n]).pc.toNat fa := by
  subst hfa hf hlen
  unfold State.feedMove
  exact issue_fault hi (if_pos h)

section Fits
variable (h : ¬(len < 64 ∨ 4096 < len ∨ len % 64 ≠ 0 ∨ fa % 64 ≠ 0))
include h

theorem feedMove_badFeed {load : Bool} (hok : feedOk f len = false) :
    s.feedMove n rt ra rb load = s.needleFault n 2 (s.needles[n]).pc.toNat f := by
  subst hfa hf hlen
  unfold State.feedMove
  exact issue_fault hi ((if_neg h).trans (if_pos (by rw [hok]; rfl)))

/-- A feed transfer that issues and lies in the own store. -/
theorem feedMove_own (hok : feedOk f len = true) (hdue : s.feedDue n f len = false)
    (hown : s.region fa = .store (skeinOf n) ∧ fa % 0x400000 + len ≤ 0x400000) :
    Host.Outcome.next (ρ := Refusal) (φ := Fault) (s.feedMove n rt ra rb true) =
        ownAccesses s n fa (len / 64) (fun _ => .read 64) (fun i => .feed (f + i)) ∧
      Host.Outcome.next (ρ := Refusal) (φ := Fault) (s.feedMove n rt ra rb false) = ownAccesses s n fa (len / 64)
        (fun i => .write ((((memRead (s.needles[n]).feed f len).map some).drop i).take 64)) fun _ => .none := by
  subst hfa hf hlen
  have hwhole : ((s.needles[n]).sr rb).toNat = 64 * (((s.needles[n]).sr rb).toNat / 64) := by omega
  have hgo : ∀ {x y z : NStep}, (if !feedOk ((s.needles[n]).sr rt).toNat ((s.needles[n]).sr rb).toNat then x
      else if s.feedDue n ((s.needles[n]).sr rt).toNat ((s.needles[n]).sr rb).toNat then y else z) = z := by
    rw [hok, hdue]
    exact fun {_ _ _} => rfl
  unfold State.feedMove
  exact ⟨issue_granules hi ((if_neg h).trans (hgo.trans (if_pos rfl))) hwhole (by omega) hown (fun _ => rfl) fun _ => rfl,
    issue_granules hi ((if_neg h).trans (hgo.trans (if_neg Bool.false_ne_true))) hwhole (by omega) hown (fun _ => rfl) fun _ => rfl⟩

end Fits
end Feed
end Instructions

end Sys2Proof.Machine
end

section
open Sys2Proof Sys2Proof.Machine Sys2Proof.Safety

/-- Settles O16: a scalar access is one access of a bank (`scalarAccess_own`), a vector access or feed transfer one for each of its
granules, row by row (`access_granules`). -/
theorem ownStoreAccesses : Obligations.OwnStoreAccesses := by
  unfold Obligations.OwnStoreAccesses
  intro s n rt ra rb size signed fp32 masked off hi
  have hs : MayIssue s n 4 [rt, ra] [] := mayIssue_fewer hi (by simp) (by simp)
  have hv : MayIssue s n 4 [ra] [rt] := mayIssue_fewer hi (by simp) (by simp)
  have hf : MayIssue s n 4 [rt, ra, rb] [] := mayIssue_fewer hi (by simp) (by simp)
  refine ⟨fun ha ho => scalarAccess_own hs rfl ha ho.1 rfl,
    fun ha ho => scalarAccess_own hs rfl ha ho.1 (part_regBytes (fun _ _ => rfl) _), ?_, fun h => ?_,
    fun h => ⟨congrArg _ (scalarAccess_misaligned hs h), congrArg _ (scalarAccess_misaligned hs h)⟩,
    fun ha ho => vecAccess_own hv ha ho (fun _ => rfl) fun i => congrArg (Dest.vreg rt) (Nat.zero_add i),
    fun ha ho => ⟨vecAccess_own hv ha ho (fun _ => rfl) fun _ => rfl, vecAccess_own hv ha ho (fun _ => rfl) fun _ => rfl⟩,
    fun h => ⟨congrArg _ (vecAccess_misaligned hv h), congrArg _ (vecAccess_misaligned hv h)⟩,
    fun h1 h2 h3 h4 hok hdue => ⟨fun ho => (feedMove_own hf rfl rfl rfl (by omega) hok hdue ho).1,
      fun ho => (feedMove_own hf rfl rfl rfl (by omega) hok hdue ho).2⟩,
    fun h => congrArg _ (feedMove_badLength hf rfl rfl rfl h),
    fun h1 h2 h3 h4 hok => congrArg _ (feedMove_badFeed hf rfl rfl rfl (by omega) hok)⟩
  · rintro rfl ha ho
    exact sstAtomicAdd_own hs ha ho.1
  · have hsize : size.val ≠ 2 := fun e => h (Fin.ext e)
    refine congrArg Host.Outcome.next ((if_pos hsize).trans (issue_fault hs rfl))
end

section
/-! SUPPORT. Feed registers and fences (10 R267, R281, R282). -/

namespace Sys2Proof.Machine
open Sys2Proof Sys2Proof.Safety

section Feed
variable {s : State} {n : Fin 96} {ss vs : List (Fin 32)} {f : Nat} {g : Needle → Needle}

theorem feedReg_retired (hi : MayIssue s n 4 ss vs) (hok : feedOk f 256 = true) (hdue : s.feedDue n f 256 = false) :
    s.feedReg n ss vs f g = retired s n 4 g := by
  unfold State.feedReg
  rw [hok, hdue]
  exact issue_retired hi rfl

theorem feedReg_faults (hi : MayIssue s n 4 ss vs) (hok : feedOk f 256 = false) :
    s.feedReg n ss vs f g = s.needleFault n 2 (s.needles[n]).pc.toNat f := by
  unfold State.feedReg
  rw [hok]
  exact issue_fault hi rfl

end Feed

section Fence
variable {s : State} {n : Fin 96} {w : NWait} {d : Bool}

/-- What a fence waits for (R281, log 39). -/
def State.fenceHeld (s : State) (n : Fin 96) : NWait → Bool
  | .fenceL => s.ownStores n || !(s.needles[n]).bed.drains.isEmpty
  | .fenceY => s.anyOf n || !(s.needles[n]).bed.drains.isEmpty
  | _ => true

theorem settleFence_eq (s : State) (n : Fin 96) :
    s.settleFence n = if s.fenceHeld n (s.needles[n]).wait = true then s else s.wake n id := by
  unfold State.settleFence
  split
  · next h =>
    rw [h]
    rfl
  · next h =>
    rw [h]
    rfl
  · next hl hy =>
    refine (if_pos ?_).symm
    generalize (s.needles[n]).wait = w at hl hy
    cases w with
    | fenceL => exact absurd rfl hl
    | fenceY => exact absurd rfl hy
    | _ => rfl

/-- The state of a fence that issues, before its condition is looked at. -/
theorem waiting_needle (s : State) (n : Fin 96) (w : NWait) :
    ((s.clocked n 4).modNeedle n fun x => { x with wait := w }).needles[n] =
      { (s.needles[n]).clocked 4 s.freeVal with wait := w } := by
  simp [State.modNeedle, upd]

theorem fenceHeld_waiting (s : State) (n : Fin 96) (w : NWait) :
    ((s.clocked n 4).modNeedle n fun x => { x with wait := w }).fenceHeld n w = s.fenceHeld n w := by
  cases w <;> simp only [State.fenceHeld, waiting_needle] <;> rfl

theorem issue_done_act {ss vs : List (Fin 32)} {len : Nat} {act : State → State} (hi : MayIssue s n len ss vs) :
    s.issue n len ss vs (fun t => .done (act t)) = (act (s.clocked n len)).modNeedle n Needle.boundary :=
  issue_done hi rfl

/-- An instruction that waits at a fence, held or not. -/
theorem fence_eq (hi : MayIssue s n 4 [] []) :
    s.issue n 4 [] [] (fun t => .done ((t.modNeedle n fun x => { x with wait := w }).settleFence n)) =
      if s.fenceHeld n w = true then retired s n 4 fun y => { y with wait := w } else retired s n 4 id := by
  have hwait : (((s.clocked n 4).modNeedle n fun x => { x with wait := w }).needles[n]).wait = w := by
    rw [waiting_needle]
  rw [issue_done_act hi, settleFence_eq, hwait, fenceHeld_waiting]
  split
  · exact clocked_mod ..
  · exact congrArg (s.clocked n 4).withNeedles (woken_retired (mayIssue_wait hi) w id)

end Fence

end Sys2Proof.Machine
end

section
open Sys2Proof Sys2Proof.Machine Sys2Proof.Safety

/-- Settles O17: the feed registers by whether the range fits (`feedReg_retired`, `feedReg_faults`), a fence by whether it is held
(`fence_eq`). -/
theorem feedRegistersAndFences : Obligations.FeedRegistersAndFences := by
  unfold Obligations.FeedRegistersAndFences
  intro s n rd ra hi
  have hp : MayIssue s n 4 [rd] [ra] := mayIssue_fewer hi (by simp) (by simp)
  have hg : MayIssue s n 4 [ra] [rd] := mayIssue_fewer hi (by simp) (by simp)
  have h0 : MayIssue s n 4 [] [] := mayIssue_fewer hi (by simp) (by simp)
  refine ⟨fun hok hdue => congrArg _ (feedReg_retired hp (decide_eq_true hok) hdue), fun hok hdue => ?_,
    fun hok => congrArg _ (feedReg_faults hp (decide_eq_false hok)),
    fun hok => congrArg _ (feedReg_faults hg (decide_eq_false hok)), fun ho hd => ?_, fun h => ?_, fun ho hd => ?_, fun h => ?_⟩
  · refine congrArg Host.Outcome.next ((feedReg_retired hg (decide_eq_true hok) hdue).trans ?_)
    exact retired_congr rfl
  all_goals refine congrArg Host.Outcome.next (fence_eq h0 |>.trans ?_)
  · exact if_neg (by simp [State.fenceHeld, ho, hd, - Fin.getElem_fin])
  · exact if_pos (by simpa [State.fenceHeld] using h)
  · exact if_neg (by simp [State.fenceHeld, ho, hd, - Fin.getElem_fin])
  · exact if_pos (by simpa [State.fenceHeld] using h)
end

section
/-! SUPPORT. A needle's fault whose media error the machine reports by an event before it makes the FAULT_FLAG add (10 R288,
13 R385, 05 R106). -/
namespace Sys2Proof.NeedleFaults
open Sys2Proof Sys2Proof.Machine

/-- The event CQ of function 0: on, of two entries, owned by a distaff of the twin secondary (R106, R108). -/
def twinEventCq : Cq := { Cq.reset with fsm := { EnFsm.off with st := .on }, cfg := mkW [(0, 4, 1), (24, 1, 1), (29, 1, 1)] }

/-- A twin primary with its TWIN port E5 up: stack 0 is lost, events go to CQ 0, and needle 0 has FAULT_FLAG enabled. -/
def stackLost : State := { State.reset with
  fuses := Build.twinPrimary.fuses
  ports := upd State.reset.ports 5 fun e => { e with st := .active }
  stack := upd State.reset.stack 0 fun b => { b with present := true, lost := true }
  fns := upd State.reset.fns 0 fun h => { h with eventCtrl := mkW [(4, 1, 1)] }
  cqs := upd State.reset.cqs 0 fun _ => twinEventCq
  needles := upd State.reset.needles 0 fun x => { x with faultFlag := 0x40 } }

/-- The number of a flag operation's packet. -/
def flagPacket : Out → Option Nat
  | .flagOp h _ _ _ => some h.id
  | _ => none

theorem stackLost_reports : (stackLost.needles[(0 : Fin 96)]).faultFlag.getLsbD 6 = true ∧ stackLost.nextAccess = 0 := by
  decide +kernel

/-- The event's entry is a write over the TWIN port, and takes number 0; the flag ADD made after it has number 1. -/
theorem flagAdd_numbered_after_event :
    (stackLost.needleFault 0 5 (0 : BitVec 17).toNat stackBase).out.getLast?.bind flagPacket = some 1 := by decide +kernel

/-- Refutes O14: a fault with CAUSE 5 on a lost stack posts the event of R385 first, and where the event CQ lies on the twin
secondary its entry is an access with a number of its own, so the flag ADD does not carry the number the next packet had before
the fault. -/
theorem not_needleFaultEffects : ¬ Obligations.NeedleFaultEffects := by
  unfold Obligations.NeedleFaultEffects
  rintro ⟨-, -, faults⟩
  obtain ⟨-, -, -, -, flag, -⟩ := faults stackLost 0 5 stackBase 0 (by decide)
  obtain ⟨henabled, hnext⟩ := stackLost_reports
  have hnumber := flagAdd_numbered_after_event
  rw [flag henabled] at hnumber
  have htaken : some stackLost.nextAccess = some 1 := hnumber
  rw [hnext] at htaken
  exact absurd htaken (by decide)

end Sys2Proof.NeedleFaults
end

section
/-! SUPPORT. Bank arbitration and an access a bank serves (10 R259, R260). -/

namespace Sys2Proof.Machine
open Sys2Proof Sys2Proof.Safety

/-! ### The arbiter -/

section Pick
variable {w : Fin 4 → Bool}

theorem pick_turn {b : Bank} (h : w b.turn = true) (fuel : Nat) : ∃ b', b.pick w (fuel + 1) = some (b.turn, b') :=
  ⟨_, if_pos h⟩

/-- A group in turn with nothing waiting gives way to the next. -/
theorem pick_next {b : Bank} (h : w b.turn = false) (fuel : Nat) :
    b.pick w (fuel + 1) = Bank.pick { b with deficit := b.deficit.set b.turn 0, turn := b.turn + 1 } w fuel :=
  if_neg (by rw [h]; exact Bool.false_ne_true)

theorem pick_none (b : Bank) (h : ∀ g, w g = false) (fuel : Nat) : b.pick w fuel = none := by
  induction fuel generalizing b with
  | zero => rfl
  | succ fuel ih => rw [pick_next (h _), ih]

/-- The group picked waits, and one waits within as many turns as the arbiter looks at. -/
theorem pick_waits (fuel : Nat) (b : Bank) (h : ∃ j < fuel, w (b.turn + Fin.ofNat 4 j) = true) :
    ∃ g b', b.pick w fuel = some (g, b') ∧ w g = true := by
  induction fuel generalizing b with
  | zero => exact absurd h (by simp)
  | succ fuel ih =>
    cases hw : w b.turn with
    | true =>
      obtain ⟨b', hpick⟩ := pick_turn hw fuel
      exact ⟨_, b', hpick, hw⟩
    | false =>
      rw [pick_next hw]
      refine ih _ ?_
      obtain ⟨j, hj, hwj⟩ := h
      cases j with
      | zero =>
        have hsame : b.turn + Fin.ofNat 4 0 = b.turn := add_zero _
        rw [hsame, hw] at hwj
        exact absurd hwj Bool.false_ne_true
      | succ j =>
        have hstep : b.turn + Fin.ofNat 4 (j + 1) = b.turn + 1 + Fin.ofNat 4 j := by
          apply Fin.ext
          simp only [Fin.val_add, Fin.val_ofNat, Fin.val_one]
          omega
        exact ⟨j, by omega, by rw [← hstep]; exact hwj⟩

/-- A turn is never more than three turns away. -/
theorem turn_within (t g : Fin 4) : ∃ j < 5, t + Fin.ofNat 4 j = g :=
  ⟨(g - t).val, by omega, by rw [Fin.ofNat_val_eq_self, add_sub_cancel]⟩

theorem deficit_set_ne (v : Vector Nat 4) {g t : Fin 4} (h : g ≠ t) (x : Nat) : (v.set g x)[t] = v[t] :=
  Vector.getElem_set_ne _ _ (Fin.val_ne_of_ne h)

theorem deficit_set_zero {v : Vector Nat 4} {t : Fin 4} (h : v[t] = 0) (g : Fin 4) : (v.set g 0)[t] = 0 := by
  by_cases e : g = t
  · subst e
    exact Vector.getElem_set_self _
  · exact (deficit_set_ne v e 0).trans h

/-- The deficit of a group with nothing waiting that has none stays so. -/
theorem pick_deficit {b b' : Bank} {g t : Fin 4} {fuel : Nat} (ht : w t = false) (h0 : b.deficit[t] = 0)
    (h : b.pick w fuel = some (g, b')) : b'.deficit[t] = 0 := by
  induction fuel generalizing b with
  | zero => exact absurd h (by simp [Bank.pick])
  | succ fuel ih =>
    cases hw : w b.turn with
    | true =>
      have hne : b.turn ≠ t := fun e => by rw [e, ht] at hw; exact absurd hw Bool.false_ne_true
      obtain ⟨-, rfl⟩ := Prod.mk.inj (Option.some.inj ((if_pos hw).symm.trans h))
      exact (deficit_set_ne b.deficit hne _).trans h0
    | false =>
      rw [pick_next hw] at h
      exact ih (deficit_set_zero h0 b.turn) h

theorem pick_gives_way {b : Bank} (h : ∃ g, w g = true) : ∃ g b', b.pick w 5 = some (g, b') ∧ w g = true ∧
    (w b.turn = true → g = b.turn) ∧ (w b.turn = false → b'.deficit[b.turn] = 0) := by
  obtain ⟨g, hg⟩ := h
  obtain ⟨j, hj, hturn⟩ := turn_within b.turn g
  obtain ⟨g', b', hpick, hg'⟩ := pick_waits (w := w) 5 b ⟨j, hj, by rw [hturn]; exact hg⟩
  refine ⟨g', b', hpick, hg', fun hw => ?_, fun hw => ?_⟩
  · obtain ⟨b'', hturn'⟩ := pick_turn hw 4
    exact (Prod.mk.inj (Option.some.inj (hpick.symm.trans hturn'))).1
  · rw [pick_next hw] at hpick
    exact pick_deficit hw (Vector.getElem_set_self _) hpick

end Pick

/-! ### The grant -/

section Grant
variable {s : State} {k bank : Fin 16} {a : Access}

/-- The access a group has waiting at a bank; store packets, group 1, are kept by the mesh unit. -/
def State.bankGroup (s : State) (k b : Fin 16) (g : Fin 4) : Option Access :=
  match g.val with
  | 0 => s.bankAccess .drain (fun _ => true) k b
  | 2 => s.bankMover k b
  | 3 => s.bankNeedle k b
  | _ => none

/-- The state in which a bank's arbiter has chosen. -/
def State.bankTaken (s : State) (k b : Fin 16) (bk : Bank) : State :=
  (s.noteBankWait k).modSkein k fun x => { x with banks := x.banks.set b bk }

theorem bankGrant_unpowered (h : s.powered k = false) : bankGrant k bank s = s :=
  if_pos (by rw [h]; rfl)

/-- No store packet waits at the bank. -/
theorem remote_none (h : ∀ v ∈ ((s.skeins[k]).mesh).serving, v.wants bank = none) :
    (((s.skeins[k]).mesh).serving.findSome? fun v => (v.wants bank).map fun g => (v, g)) = none :=
  List.findSome?_eq_none_iff.mpr fun v hv => by rw [h v hv]; rfl

section Powered
variable (hremote : ∀ v ∈ ((s.skeins[k]).mesh).serving, v.wants bank = none)
include hremote

theorem bankGrant_idle (h : ∀ g, s.bankGroup k bank g = none) : bankGrant k bank s = s := by
  unfold bankGrant
  split
  · rfl
  extract_lets remote group
  have hr : remote = none := remote_none hremote
  have hg : group = s.bankGroup k bank := rfl
  clear_value remote group
  subst hr hg
  simp only [h, Option.isSome_none, ite_self]
  rw [pick_none _ fun _ => rfl]

/-- Where one group alone waits, its access is served. -/
theorem bankGrant_serves (hp : s.powered k = true) {g : Fin 4} (hg1 : g ≠ 1) (hg : s.bankGroup k bank g = some a)
    (hothers : ∀ h, h ≠ g → s.bankGroup k bank h = none) : ∃ bk, bankGrant k bank s = (s.bankTaken k bank bk).bankServe a := by
  unfold bankGrant
  rw [hp, if_neg (by decide)]
  extract_lets remote group
  have hr : remote = none := remote_none hremote
  have hgroup : group = s.bankGroup k bank := rfl
  clear_value remote group
  subst hr hgroup
  obtain ⟨g', b', hpick, hw, -⟩ := pick_gives_way (b := (s.skeins[k]).banks[bank])
    (w := fun g => if g = 1 then (none : Option (Serve × Nat)).isSome else (s.bankGroup k bank g).isSome)
    ⟨g, by simp only [if_neg hg1, hg, Option.isSome_some]⟩
  obtain rfl : g' = g := by
    by_contra hne
    simp [hothers g' hne] at hw
  rw [hpick]
  simp only [hg]
  exact ⟨_, rfl⟩

end Powered

/-! ### What a grant leaves -/

theorem bankTaken_frame (s : State) (k b : Fin 16) (bk : Bank) : (s.bankTaken k b bk).needles = s.needles ∧
    (s.bankTaken k b bk).accesses = s.accesses ∧ (s.bankTaken k b bk).mem = s.mem ∧
    (s.bankTaken k b bk).edgeCarders = s.edgeCarders := ⟨rfl, rfl, rfl, rfl⟩

theorem bankTaken_anyBad (s : State) (k b : Fin 16) (bk : Bank) (a n : Nat) : (s.bankTaken k b bk).anyBad a n = s.anyBad a n := rfl

theorem bankTaken_landing (s : State) (k b : Fin 16) (bk : Bank) (a : Nat) (bs : List (Option Byte)) :
    (s.bankTaken k b bk).landing a bs = s.landing a bs := rfl

/-- The memory of an agent's write: the bytes that land, and no other. -/
theorem memGet_put (s : State) (a : Nat) (bs : List (Option Byte)) (i : Nat) : memGet (s.put a bs).mem i =
    if a ≤ i ∧ i < a + bs.length then (((s.landing a bs)[i - a]?).getD none).getD (memGet s.mem i) else memGet s.mem i := by
  have hl : (s.landing a bs).length = bs.length := by unfold State.landing; split <;> simp
  rw [put_mem, memGet_memWriteM, hl, List.getD_eq_getElem?_getD]

/-! ### An access of a needle -/

section Needle
variable {n : Fin 96}

/-- A read of good bytes reaches its register. -/
theorem bankServe_read {len size : Nat} {rd : Fin 32} {sg : Bool} (hop : a.op = .read len) (hwho : a.who = .needle n)
    (hbad : s.anyBad a.addr len = false) (hlive : a.live = true) (hdest : a.dest = .sreg rd size sg)
    (hw : (s.needles[n]).wait = .none) (hloads : ∀ p : Fin 10, (s.edgeCarders[p]).loads = []) :
    (s.bankServe a).mem = s.mem ∧ (s.bankServe a).accesses = s.accesses.filter (fun c => decide (c.id ≠ a.id)) ∧
      (s.bankServe a).needles = s.needles.set n (if rd = 0 then s.needles[n] else
        { s.needles[n] with s := (s.needles[n]).s.set rd (loadVal size sg (memRead s.mem a.addr len)) }) := by
  have key : s.bankServe a =
      (s.dropAccess a.id).modNeedle n fun x => x.setS rd (loadVal size sg (memRead s.mem a.addr len)) := by
    unfold State.bankServe
    simp only [hop, hwho, hbad, State.serve, Bool.false_eq_true, if_false]
    exact finishNeedle_register hlive hdest hw hloads
  rw [key]
  exact ⟨rfl, rfl, rfl⟩

/-- A write stores its bytes that land, and no other. -/
theorem bankServe_write {b : List (Option Byte)} (hop : a.op = .write b) (hwho : a.who = .needle n) (hlive : a.live = true)
    (hdest : a.dest = .none) (hw : (s.needles[n]).wait = .none) (hloads : ∀ p : Fin 10, (s.edgeCarders[p]).loads = []) :
    (s.bankServe a).needles = s.needles ∧ (s.bankServe a).accesses = s.accesses.filter (fun c => decide (c.id ≠ a.id)) ∧
      (s.bankServe a).mem = (s.put a.addr b).mem := by
  have key : s.bankServe a = (s.put a.addr b).dropAccess a.id := by
    unfold State.bankServe
    simp only [hop, hwho, State.serve]
    exact finishNeedle_store hlive hdest hw hloads
  rw [key]
  exact ⟨rfl, rfl, rfl⟩

end Needle
end Grant

end Sys2Proof.Machine
end

section
open Sys2Proof Sys2Proof.Machine Sys2Proof.Safety

/-- Settles O19: the grant by the group that waits alone (`bankGrant_serves`), the access by `bankServe_read` and `bankServe_write`,
the turn by `pick_gives_way`. -/
theorem bankGrantServesAccess : Obligations.BankGrantServesAccess := by
  unfold Obligations.BankGrantServesAccess
  intro s k bank
  refine ⟨fun ⟨hdrain, hmover, hremote⟩ hneedle => congrArg _ (bankGrant_idle hremote fun g => ?_),
    fun hp => congrArg _ (bankGrant_unpowered hp),
    fun n a hp hneedle ⟨hdrain, hmover, hremote⟩ hwho hlive hw hloads => ?_, fun b w => pick_gives_way⟩
  · match g with
    | 0 => exact hdrain
    | 1 => rfl
    | 2 => exact hmover
    | 3 => exact hneedle
  obtain ⟨bk, hgrant⟩ := bankGrant_serves hremote hp (g := 3) (by decide) hneedle fun h hne => by
    match h with
    | 0 => exact hdrain
    | 1 => rfl
    | 2 => exact hmover
    | 3 => exact absurd rfl hne
  have hw' : (((s.bankTaken k bank bk).needles)[n]).wait = .none := hw
  obtain ⟨hneedles, haccesses, hmem, -⟩ := bankTaken_frame s k bank bk
  refine ⟨fun len rd size sg hop hdest hbad => ?_, fun b hop hdest => ?_⟩
  · rw [← bankTaken_anyBad s k bank bk] at hbad
    obtain ⟨h1, h2, h3⟩ := bankServe_read hop hwho hbad hlive hdest hw' hloads
    rw [hmem] at h1 h3
    rw [haccesses] at h2
    rw [hneedles] at h3
    exact ⟨_, congrArg Host.Outcome.next hgrant, h1, h2, h3⟩
  · obtain ⟨h1, h2, h3⟩ := bankServe_write hop hwho hlive hdest hw' hloads
    rw [hneedles] at h1
    rw [haccesses] at h2
    refine ⟨_, congrArg Host.Outcome.next hgrant, h1, h2, fun i => ?_⟩
    rw [h3, memGet_put, bankTaken_landing, hmem]
end

section
/-! SUPPORT. What an access of a mover leaves of the needles and skeins (10 R263, R266; 13 R370, R382). -/

namespace Sys2Proof.Machine
open Sys2Proof Sys2Proof.Safety

/-- The needles and the skeins. -/
def State.fabric (s : State) : Vector Needle 96 × Vector Skein 16 := (s.needles, s.skeins)

theorem ite_fabric {α : Type} {c : Prop} [Decidable c] {s : State} {x y : State × α} (hx : x.1.fabric = s.fabric)
    (hy : y.1.fabric = s.fabric) : (if c then x else y).1.fabric = s.fabric := by
  split
  · exact hx
  · exact hy

section Checks
variable (s : State) (i : Fin 8) (d : Word)

theorem draftWrite_fabric (a : Nat) : (s.draftWrite i d a).1.fabric = s.fabric := by
  unfold State.draftWrite
  dsimp only
  split
  · rfl
  · split
    · rfl
    · split
      · rfl
      · split
        · rfl
        · exact ite_fabric rfl rfl

theorem spoolCheck_fabric (a len : Nat) (need : Need) : (s.spoolCheck i d a len need).1.fabric = s.fabric := by
  unfold State.spoolCheck
  split
  · split
    · rfl
    · split
      · exact draftWrite_fabric s i d a
      · rfl
  · split <;> rfl

theorem rangeStep_fabric (a : Nat) (need : Need) (x : State × Chk × List (Nat × Nat × Nat)) (c : Nat × Nat) :
    (rangeStep i d a need x c).1.fabric = x.1.fabric := by
  have h := spoolCheck_fabric x.1 i d c.1 c.2 need
  unfold rangeStep
  split
  · split
    · next heq => rw [heq] at h; exact h
    · next heq => rw [heq] at h; exact h
  · rfl

theorem rangeCheck_fabric (a len : Nat) (need : Need) : (s.rangeCheck i d a len need).1.fabric = s.fabric := by
  rw [rangeCheck_eq]
  split
  · rfl
  · exact foldl_keeps (fun x : State × Chk × List (Nat × Nat × Nat) => x.1.fabric) _
      (fun x c => rangeStep_fabric i d a need x c) _ _

end Checks

section Views
variable (s : State) (i : Fin 8) (d : Word) (who : Who) (p : Fin 10) (v : Fin 4)

theorem viewCheck_fabric (off skip len : Nat) (need : Need) : (s.viewCheck i d p v off skip len need).1.fabric = s.fabric := by
  unfold State.viewCheck
  split
  · rfl
  · split
    · dsimp only
      split <;> exact rangeCheck_fabric s i d _ _ _
    · rfl

theorem sendAccess_fabric (wire addr : Nat) (op : AccOp) (dest : Dest) (c : TClass) (pc : Nat) (control : Bool) :
    (s.sendAccess who p wire addr op dest c pc control).fabric = s.fabric :=
  (sendAccess_sends s who p wire addr op dest c pc control).read State.fabric

theorem viewSend_fabric (parts : List (Nat × Nat × Nat)) (op : AccOp) (dest : Nat → Dest) (pc : Nat) :
    (s.viewSend i who p parts op dest pc).fabric = s.fabric :=
  foldl_keeps State.fabric _ (fun _ _ => sendAccess_fabric _ _ _ _ _ _ _ _ _ _) _ _

theorem viewRead_fabric (off skip len : Nat) (dest : Dest) (pc : Nat) :
    (s.viewRead i d who p v off skip len dest pc).1.fabric = s.fabric := by
  have h := viewCheck_fabric s i d p v off skip len .read
  unfold State.viewRead
  split
  · rfl
  · unfold State.viewReadNow
    split
    · next heq =>
      rw [heq] at h
      exact (viewSend_fabric _ i who p _ _ _ pc).trans h
    · next heq =>
      rw [heq] at h
      exact h
    · next heq =>
      rw [heq] at h
      exact h

theorem viewConvert_fabric (off : Nat) (write : Bool) (l : List Byte) : (s.viewConvert p v off write l).1.fabric = s.fabric := rfl

theorem viewWrite_fabric (off : Nat) (l : List Byte) (pc : Nat) : (s.viewWrite i d who p v off l pc).1.fabric = s.fabric := by
  have h := viewCheck_fabric s i d p v off 0 64 .write
  unfold State.viewWrite
  split
  · rfl
  · split
    · rfl
    · split
      · next heq =>
        rw [heq] at h
        exact (viewSend_fabric _ i who p _ _ _ pc).trans h
      · next heq =>
        rw [heq] at h
        exact h
      · next heq =>
        rw [heq] at h
        exact h

end Views

section Faults
variable (s : State)

theorem maskFail_fabric (a : Nat) : (s.maskFail a).fabric = s.fabric := by
  unfold State.maskFail
  split <;> rfl

theorem mediaError_fabric (i : Option (Fin 8)) (a : Nat) : (s.mediaError i a).fabric = s.fabric := by
  have hevent (t : State) : (if t.onLost a then t.event 0x08 (t.stackOf a).val stMediaError else t).fabric = t.fabric := by
    split
    · exact (event_posts t _ _ _ _).read State.fabric
    · rfl
  unfold State.mediaError
  cases i with
  | none => exact hevent s
  | some i => exact hevent _

theorem faultSide_fabric (i : Option (Fin 8)) (cause addr : Nat) : (s.faultSide i cause addr).fabric = s.fabric := by
  unfold State.faultSide
  split
  · split <;> rfl
  · split
    · exact mediaError_fabric s i addr
    · rfl

end Faults

/-- An access of a mover touches no needle and no skein. -/
theorem moverPiece_fabric (s : State) (k : Fin 16) (m : Fin 2) (i : Fin 8) (draft : Word) (a : Nat) (w : Option (List Byte))
    (len : Nat) (dest : Dest) : (s.moverPiece k m i draft a w len dest).1.fabric = s.fabric := by
  have hcheck := spoolCheck_fabric s i draft a len (if w.isSome then .write else .read)
  unfold State.moverPiece
  dsimp only
  split
  · split
    · rfl
    · split <;> rfl
  · rfl
  · rfl
  · split
    · rfl
    · split
      · exact viewWrite_fabric s i draft _ _ _ _ _ _
      · exact viewRead_fabric s i draft _ _ _ _ _ _ _ _
  · split
    · rfl
    · split
      · rfl
      · rfl
      · split
        · rfl
        · split
          · split
            · exact (maskFail_fabric _ _).trans hcheck
            · exact hcheck
          · exact hcheck
          · exact (sendAccess_fabric _ _ _ _ _ _ _ _ _ _).trans hcheck
          · exact (sendAccess_fabric _ _ _ _ _ _ _ _ _ _).trans hcheck

end Sys2Proof.Machine
end

section
/-! SUPPORT. What a mover that goes on leaves (10 R265, R266, R283): the PC of every needle, and of its own queue which descriptors
wait, each with what was captured at its enqueue. -/

namespace Sys2Proof.Machine
open Sys2Proof Sys2Proof.Safety

/-- What a descriptor captured at its enqueue. -/
def MoveDesc.ident (d : MoveDesc) : Vector Byte 64 × Fin 6 × Word := (d.bytes, d.k, d.draft)

/-- The PC of every needle, and a mover's last needle and descriptors as they were enqueued. -/
def State.moverFrame (k : Fin 16) (m : Fin 2) (s : State) : (Fin 96 → BitVec 17) × Fin 6 × List (Vector Byte 64 × Fin 6 × Word) :=
  (fun n => (s.needles[n]).pc, (s.moverOf k m).lastK, (s.moverOf k m).queue.map MoveDesc.ident)

section Frame
variable (s : State) (k : Fin 16) (m : Fin 2)

theorem moverFrame_of_fabric {s t : State} (h : t.fabric = s.fabric) : t.moverFrame k m = s.moverFrame k m := by
  have hn : t.needles = s.needles := congrArg Prod.fst h
  have hs : t.skeins = s.skeins := congrArg Prod.snd h
  unfold State.moverFrame State.moverOf
  rw [hn, hs]

theorem modNeedle_moverFrame (n : Fin 96) {f : Needle → Needle} (hf : ∀ x, (f x).pc = x.pc) :
    (s.modNeedle n f).moverFrame k m = s.moverFrame k m := by
  have hpc : ∀ j : Fin 96, (((s.modNeedle n f).needles)[j]).pc = (s.needles[j]).pc := fun j => by
    rw [modNeedle_needles, upd_get]
    split
    · exact hf _
    · rfl
  exact congrArg (fun v => (v, (s.moverOf k m).lastK, (s.moverOf k m).queue.map MoveDesc.ident)) (funext hpc)

theorem boundary_pc (x : Needle) : x.boundary.pc = x.pc := by
  unfold Needle.boundary
  split <;> rfl

theorem moverWake_moverFrame : (s.moverWake k m).moverFrame k m = s.moverFrame k m := by
  refine foldl_keeps (State.moverFrame k m) _ (fun t j => ?_) _ _
  dsimp only
  split
  · exact modNeedle_moverFrame _ _ _ _ fun x => boundary_pc _
  · rfl

theorem moverOf_modMover (f : Mover → Mover) : (s.modMover k m f).moverOf k m = f (s.moverOf k m) := by
  unfold State.moverOf State.modMover
  rw [modSkein_skeins]
  simp only [Fin.getElem_fin, upd_get_same]

theorem modMover_moverFrame {f : Mover → Mover} (hl : ∀ x, (f x).lastK = x.lastK)
    (hq : ∀ x, (f x).queue.map MoveDesc.ident = x.queue.map MoveDesc.ident) :
    (s.modMover k m f).moverFrame k m = s.moverFrame k m := by
  unfold State.moverFrame
  rw [moverOf_modMover, hl, hq]
  rfl

theorem modHead_moverFrame {f : MoveDesc → MoveDesc} (hf : ∀ d, (f d).ident = d.ident) :
    (s.modHead k m f).moverFrame k m = s.moverFrame k m := by
  refine modMover_moverFrame s k m (fun _ => rfl) fun x => ?_
  cases h : x.queue with
  | nil => rfl
  | cons d l => simp only [List.map_cons, hf]

theorem modHead_moverFrame_trans {s t : State} {f : MoveDesc → MoveDesc} (hf : ∀ d, (f d).ident = d.ident)
    (h : t.moverFrame k m = s.moverFrame k m) : (t.modHead k m f).moverFrame k m = s.moverFrame k m :=
  (modHead_moverFrame t k m hf).trans h

theorem moverFault_moverFrame (cause addr : Nat) : (s.moverFault k m cause addr).moverFrame k m = s.moverFrame k m :=
  (moverWake_moverFrame _ k m).trans ((moverFrame_of_fabric k m (faultSide_fabric _ _ _ _)).trans
    (modMover_moverFrame s k m (fun _ => rfl) fun _ => rfl))

theorem moverStart_moverFrame (d : MoveDesc) : (s.moverStart k m d).moverFrame k m = s.moverFrame k m := by
  unfold State.moverStart
  dsimp only
  split
  · exact moverFault_moverFrame s k m _ _
  · exact moverFault_moverFrame s k m _ _
  · split
    · exact modHead_moverFrame_trans k m (fun _ => rfl) (modHead_moverFrame s k m fun _ => rfl)
    · exact modHead_moverFrame s k m fun _ => rfl

theorem moverReads_moverFrame (i : Fin 8) (fuel : Nat) : (s.moverReads k m i fuel).moverFrame k m = s.moverFrame k m := by
  induction fuel generalizing s with
  | zero => rfl
  | succ fuel ih =>
    unfold State.moverReads
    split
    · rfl
    · next d l hq =>
      split
      · rfl
      · dsimp only
        have hpiece := moverFrame_of_fabric k m (moverPiece_fabric s k m i d.draft (pieceAt d.rowBytes d.srcRow d.readTo).1 none
          (pieceAt d.rowBytes d.srcRow d.readTo).2 (.stage d.readTo))
        split
        · next heq =>
          rw [heq] at hpiece
          exact (ih _).trans (modHead_moverFrame_trans k m (fun _ => rfl) hpiece)
        · next heq =>
          rw [heq] at hpiece
          exact (ih _).trans (modHead_moverFrame_trans k m (fun _ => rfl) hpiece)
        · rfl
        · next heq =>
          rw [heq] at hpiece
          exact (moverFault_moverFrame _ k m _ _).trans hpiece

theorem moverWrites_moverFrame (i : Fin 8) (fuel : Nat) : (s.moverWrites k m i fuel).moverFrame k m = s.moverFrame k m := by
  induction fuel generalizing s with
  | zero => rfl
  | succ fuel ih =>
    unfold State.moverWrites
    split
    · rfl
    · next d l hq =>
      split
      · rfl
      · dsimp only
        have hpiece := moverFrame_of_fabric k m (moverPiece_fabric s k m i d.draft (pieceAt d.rowOut d.dstRow d.writeTo).1
          (some (slice d.data d.writeTo (pieceAt d.rowOut d.dstRow d.writeTo).2)) (pieceAt d.rowOut d.dstRow d.writeTo).2 .none)
        split
        · rfl
        · next heq =>
          rw [heq] at hpiece
          exact (moverFault_moverFrame _ k m _ _).trans hpiece
        · next heq =>
          rw [heq] at hpiece
          exact (ih _).trans (modHead_moverFrame_trans k m (fun _ => rfl) hpiece)

theorem moverFeed_moverFrame (d : MoveDesc) : (s.moverFeed k m d).moverFrame k m = s.moverFrame k m := by
  unfold State.moverFeed
  dsimp only
  generalize hrows : List.foldl _ s _ = t
  have hkept : t.moverFrame k m = s.moverFrame k m := by
    rw [← hrows]
    refine foldl_keeps (State.moverFrame k m) _ (fun t r => ?_) _ _
    exact modNeedle_moverFrame t k m _ fun _ => rfl
  split
  · exact (moverFault_moverFrame _ k m _ _).trans hkept
  · exact modHead_moverFrame_trans k m (fun _ => rfl) hkept

theorem moverBegin_moverFrame : (s.moverBegin k m).moverFrame k m = s.moverFrame k m := by
  unfold State.moverBegin
  split
  · split
    · exact moverStart_moverFrame s k m _
    · rfl
  · rfl

theorem moverMove_moverFrame : (s.moverMove k m).moverFrame k m = s.moverFrame k m := by
  unfold State.moverMove
  split
  · exact moverFault_moverFrame s k m _ _
  · next d l i _ _ _ =>
    have hreads := moverReads_moverFrame s k m i (pieceFuel d.rows d.rowBytes)
    dsimp only
    split
    · split
      · exact hreads
      · split
        · split
          · exact (moverFeed_moverFrame _ k m _).trans hreads
          · exact hreads
        · exact (moverWrites_moverFrame _ k m i _).trans hreads
    · exact hreads
  · rfl

/-- A mover that goes on. -/
theorem moverGo_moverFrame : (s.moverGo k m).moverFrame k m = s.moverFrame k m := by
  unfold State.moverGo
  split
  · exact (moverMove_moverFrame _ k m).trans (moverBegin_moverFrame s k m)
  · rfl

end Frame

end Sys2Proof.Machine
end

section
/-! SUPPORT. The hank movers (10 R264 to R266, R283, R291): the MOVE class, the steps of a descriptor that lies in one granule of the
own store, and a mover's access at a bank. -/

namespace Sys2Proof.Machine
open Sys2Proof Sys2Proof.Safety

/-! ### A mover's queue -/

section Queue
variable {s : State} {k : Fin 16} {m : Fin 2} {d : MoveDesc} {l : List MoveDesc}

/-- A mover's queue put in place. -/
def State.withQueue (s : State) (k : Fin 16) (m : Fin 2) (q : List MoveDesc) : State := s.modMover k m fun x => { x with queue := q }

theorem withQueue_moverOf (q : List MoveDesc) : (s.withQueue k m q).moverOf k m = { s.moverOf k m with queue := q } :=
  moverOf_modMover s k m _

theorem modMover_modMover (f g : Mover → Mover) : (s.modMover k m f).modMover k m g = s.modMover k m fun x => g (f x) := by
  unfold State.modMover State.modSkein
  simp only [upd_upd]

theorem modMover_congr {f g : Mover → Mover} (h : f (s.moverOf k m) = g (s.moverOf k m)) : s.modMover k m f = s.modMover k m g :=
  congrArg (fun x => { s with skeins := s.skeins.set k { s.skeins[k] with movers := (s.skeins[k]).movers.set m x } }) h

theorem withQueue_withQueue (p q : List MoveDesc) : (s.withQueue k m p).withQueue k m q = s.withQueue k m q :=
  modMover_modMover _ _

theorem modHead_eq (h : (s.moverOf k m).queue = d :: l) (f : MoveDesc → MoveDesc) : s.modHead k m f = s.withQueue k m (f d :: l) :=
  modMover_congr (by rw [h])

theorem moverWake_skeins (s : State) (k : Fin 16) (m : Fin 2) :
    (s.moverWake k m).skeins = s.skeins ∧ (s.moverWake k m).mem = s.mem ∧ (s.moverWake k m).out = s.out := by
  have hstep {β : Type} (g : State → β) (hg : ∀ t n, g (State.wake t n id) = g t) : g (s.moverWake k m) = g s :=
    foldl_keeps g _ (fun t j => by
      dsimp only
      split
      · exact hg _ _
      · rfl) _ _
  exact ⟨hstep _ fun _ _ => rfl, hstep _ fun _ _ => rfl, hstep _ fun _ _ => rfl⟩

theorem moverWake_moverOf : (s.moverWake k m).moverOf k m = s.moverOf k m := by
  unfold State.moverOf
  rw [(moverWake_skeins s k m).1]

/-- A new head is noted as the last served; its card job waits where it has one. -/
theorem newHead_leaves (h : (s.moverOf k m).queue = d :: l) :
    (s.newHead k m).needles = s.needles ∧ (s.newHead k m).moverOf k m = { s.moverOf k m with lastK := d.k } := by
  have hcarder : ∀ (t : State) (f : Carder → Carder), (t.modCarder k m f).moverOf k m = t.moverOf k m := fun t f => by
    unfold State.moverOf State.modCarder
    rw [modSkein_skeins]
    simp only [Fin.getElem_fin, upd_get_same]
  unfold State.newHead
  rw [h]
  dsimp only
  split
  · exact ⟨rfl, moverOf_modMover ..⟩
  · exact ⟨rfl, (hcarder _ _).trans (moverOf_modMover ..)⟩

/-- A mover without a descriptor has nothing to go on with. -/
theorem moverGo_empty (h : (s.moverOf k m).queue = []) : s.moverGo k m = s := by
  have hbegin : s.moverBegin k m = s := by
    unfold State.moverBegin
    rw [h]
    cases (s.moverOf k m).fault <;> rfl
  have hmove : s.moverMove k m = s := by
    unfold State.moverMove
    rw [h]
    cases (s.moverOf k m).fault <;> rfl
  unfold State.moverGo
  rw [hbegin, hmove, ite_self]

end Queue

/-! ### The MOVE class (R283) -/

section Class
variable {s : State} {n : Fin 96} {rd ra rb : Fin 32} {m : Fin 2}

/-- The descriptor that MOVE.ENQ appends (R264, R265). -/
def Needle.moveDesc (x : Needle) (n : Fin 96) (ra : Fin 32) : MoveDesc :=
  ⟨toVec 64 ((vecBytes x.v[ra]).take 64), kOf n, x.draft, none, none, 0, 0⟩

theorem clocked_moverOf (s : State) (n : Fin 96) (len : Nat) (k : Fin 16) : (s.clocked n len).moverOf k m = s.moverOf k m := rfl

section Enq
variable (hi : MayIssue s n 4 [rb] [ra]) (hm : Fin.ofNat 2 ((s.needles[n]).sr rb).toNat = m)
include hi hm

theorem moveEnq_stalls (h : 16 ≤ (s.moverOf (skeinOf n) m).queue.length) : moveEnq n ra rb s = s := by
  subst hm
  unfold moveEnq
  exact issue_stall hi (if_pos h)

theorem moveEnq_appends (h0 : (s.moverOf (skeinOf n) m).queue ≠ []) (h : (s.moverOf (skeinOf n) m).queue.length < 16) :
    moveEnq n ra rb s = (retired s n 4 id).modMover (skeinOf n) m fun y =>
      { y with queue := y.queue ++ [(s.needles[n]).moveDesc n ra] } := by
  subst hm
  unfold moveEnq
  refine (issue_acts_aside (t := (s.clocked n 4).modMover (skeinOf n) _ fun y =>
    { y with queue := y.queue ++ [(s.needles[n]).moveDesc n ra] }) hi ?_ rfl).trans rfl
  exact (if_neg (by exact Nat.not_le.mpr h)).trans (congrArg NStep.done (if_neg (by simpa [clocked_moverOf] using h0)))

/-- The first descriptor of a mover becomes its head, and the mover goes on with it at once. -/
theorem moveEnq_begins (h : (s.moverOf (skeinOf n) m).queue = []) : moveEnq n ra rb s =
    ((((s.clocked n 4).withQueue (skeinOf n) m [(s.needles[n]).moveDesc n ra]).newHead (skeinOf n) m).moverGo
      (skeinOf n) m).modNeedle n Needle.boundary := by
  have hput : ((s.clocked n 4).modMover (skeinOf n) m fun y => { y with queue := y.queue ++ [(s.needles[n]).moveDesc n ra] }) =
      (s.clocked n 4).withQueue (skeinOf n) m [(s.needles[n]).moveDesc n ra] :=
    modMover_congr (by rw [clocked_moverOf, h]; rfl)
  rw [← hput]
  subst hm
  unfold moveEnq
  refine issue_done hi ?_
  simp only [clocked_moverOf, h]
  rfl

theorem moveEnq_first (h : (s.moverOf (skeinOf n) m).queue = []) : ∃ t, moveEnq n ra rb s = t ∧
    (t.needles[n]).pc = (s.needles[n]).pc + 4 ∧ (t.moverOf (skeinOf n) m).lastK = kOf n ∧
    ∃ e, (t.moverOf (skeinOf n) m).queue = [e] ∧ e.ident = ((s.needles[n]).moveDesc n ra).ident := by
  refine ⟨_, rfl, ?_⟩
  obtain ⟨hneedles, hmover⟩ := newHead_leaves (s := (s.clocked n 4).withQueue (skeinOf n) m [(s.needles[n]).moveDesc n ra])
    (congrArg Mover.queue (withQueue_moverOf _))
  have hgo := moverGo_moverFrame (((s.clocked n 4).withQueue (skeinOf n) m [(s.needles[n]).moveDesc n ra]).newHead (skeinOf n) m)
    (skeinOf n) m
  have hframe := (modNeedle_moverFrame _ (skeinOf n) m n boundary_pc).trans hgo
  rw [← moveEnq_begins hi hm h] at hframe
  obtain ⟨hpc, hrest⟩ := Prod.mk.inj hframe
  obtain ⟨hlast, hqueue⟩ := Prod.mk.inj hrest
  rw [hmover, withQueue_moverOf] at hlast hqueue
  refine ⟨(congrFun hpc n).trans ?_, hlast, List.map_eq_singleton_iff.mp hqueue⟩
  rw [hneedles]
  exact congrArg Needle.pc (clocked_needle s n 4)

end Enq

theorem moveStatus_writes (hi : MayIssue s n 4 [rd, rb] []) (hm : Fin.ofNat 2 ((s.needles[n]).sr rb).toNat = m) :
    execMoveStatus n rd rb s = writesS s n rd ((s.moverOf (skeinOf n) m).statusWord.setWidth 64) := by
  subst hm
  exact congrArg Host.Outcome.next (issue_retired hi rfl)

section Wait
variable (hi : MayIssue s n 4 [rb] []) (hm : Fin.ofNat 2 ((s.needles[n]).sr rb).toNat = m)
include hi hm

theorem moveWait_goes (h : (s.moverOf (skeinOf n) m).queue = [] ∨ (s.moverOf (skeinOf n) m).fault.isSome = true) :
    execMoveWait n rb s = .next (retired s n 4 id) := by
  subst hm
  refine congrArg Host.Outcome.next (issue_retired hi ?_)
  rw [modNeedle_id]
  exact if_pos (h.imp_left List.isEmpty_iff.mpr)

theorem moveWait_waits (h0 : (s.moverOf (skeinOf n) m).queue ≠ []) (h : (s.moverOf (skeinOf n) m).fault = none) :
    execMoveWait n rb s = .next (retired s n 4 fun y => { y with wait := .mover m }) := by
  subst hm
  refine congrArg Host.Outcome.next (issue_retired hi (if_neg ?_))
  rintro (he | hf)
  · exact h0 (List.isEmpty_iff.mp he)
  · rw [clocked_moverOf, h] at hf
    exact absurd hf Bool.false_ne_true

end Wait
end Class

end Sys2Proof.Machine
end

section
/-! SUPPORT. The steps of a mover's head descriptor (10 R264 to R266, R291), and a mover's access at a bank (R260). -/

namespace Sys2Proof.Machine
open Sys2Proof Sys2Proof.Safety

/-! ### One access of a mover -/

section Piece
variable {s : State} {k : Fin 16} {m : Fin 2} {i : Fin 8} {path : Path} {a : Nat} {op : AccOp} {dest : Dest}

theorem moverSlots_idle (h : s.moverBusy k m = false) (read : Bool) : s.moverSlots k m read = 0 := by
  unfold State.moverSlots
  rw [List.length_eq_zero_iff, List.filter_eq_nil_iff]
  intro x hx
  have hno := List.any_eq_false.mp h x hx
  simp only [Bool.not_eq_true] at hno
  rw [hno]
  exact Bool.false_ne_true

theorem moverSlots_access (read : Bool) : (s.moverAccess k m path a op dest).moverSlots k m read =
    s.moverSlots k m read + if op.isRead = read then 1 else 0 := by
  unfold State.moverSlots State.moverAccess
  simp only [List.filter_append, List.length_append]
  congr 1
  by_cases h : op.isRead = read <;> simp [h]

theorem moverBusy_access : (s.moverAccess k m path a op dest).moverBusy k m = true := by
  unfold State.moverBusy State.moverAccess
  simp

/-- A piece in the own store asks its bank. -/
theorem moverPiece_own {draft : Word} {w : Option (List Byte)} {len : Nat} (hr : s.region a = .store k)
    (hc : (s.swatches[i]).covers k = true) : ∃ op, s.moverPiece k m i draft a w len dest =
      (s.moverAccess k m (.bank k (bankOf a)) a op dest, .sent) ∧
      (w = none → op = .read len) ∧ ∀ b, w = some b → op = .write (b.map some) := by
  unfold State.moverPiece
  simp only [hr, hc, Bool.not_true, Bool.false_eq_true, if_false, if_true]
  cases w with
  | none => exact ⟨_, rfl, fun _ => rfl, fun b h => absurd h (by simp)⟩
  | some b => exact ⟨_, rfl, fun h => absurd h (by simp), fun b' h => by rw [Option.some.inj h]⟩

end Piece

/-! ### The steps of a head -/

section Steps
variable {s : State} {k : Fin 16} {m : Fin 2} {i : Fin 8} {d : MoveDesc} {l : List MoveDesc}
  (hq : (s.moverOf k m).queue = d :: l)
include hq

/-- All of the source has been asked for. -/
theorem moverReads_done (h : d.rows * d.rowBytes ≤ d.readTo) (fuel : Nat) : s.moverReads k m i fuel = s := by
  cases fuel with
  | zero => rfl
  | succ fuel =>
    unfold State.moverReads
    simp only [hq]
    exact if_pos (.inl h)

/-- All of the destination has been sent. -/
theorem moverWrites_done (h : d.data.length ≤ d.writeTo) (fuel : Nat) : s.moverWrites k m i fuel = s := by
  cases fuel with
  | zero => rfl
  | succ fuel =>
    unfold State.moverWrites
    simp only [hq]
    exact if_pos (.inl h)

theorem access_modHead {path : Path} {a : Nat} {op : AccOp} {dest : Dest} (f : MoveDesc → MoveDesc) :
    (s.moverAccess k m path a op dest).modHead k m f = (s.moverAccess k m path a op dest).withQueue k m (f d :: l) :=
  modHead_eq (s := s.moverAccess k m path a op dest) hq f

/-- The next source piece, in the own store. -/
theorem moverReads_asks {a len : Nat} (h : d.readTo < d.rows * d.rowBytes) (hslots : s.moverSlots k m true = 0)
    (hpiece : pieceAt d.rowBytes d.srcRow d.readTo = (a, len)) (hr : s.region a = .store k)
    (hc : (s.swatches[i]).covers k = true) (fuel : Nat) : s.moverReads k m i (fuel + 1) =
      ((s.moverAccess k m (.bank k (bankOf a)) a (.read len) (.stage d.readTo)).withQueue k m
        ({ d with readTo := d.readTo + len } :: l)).moverReads k m i fuel := by
  obtain ⟨op, heq, hop, -⟩ := moverPiece_own (m := m) (draft := d.draft) (w := none) (len := len) (dest := .stage d.readTo) hr hc
  obtain rfl := hop rfl
  conv_lhs => unfold State.moverReads
  simp only [hq, hslots, hpiece, heq]
  rw [if_neg (by omega)]
  exact congrArg (fun t => State.moverReads t k m i fuel) (access_modHead hq _)

/-- The next destination piece, in the own store. -/
theorem moverWrites_sends {a len : Nat} (h : d.writeTo < d.data.length) (hslots : s.moverSlots k m false = 0)
    (hpiece : pieceAt d.rowOut d.dstRow d.writeTo = (a, len)) (hr : s.region a = .store k)
    (hc : (s.swatches[i]).covers k = true) (fuel : Nat) : s.moverWrites k m i (fuel + 1) =
      ((s.moverAccess k m (.bank k (bankOf a)) a (.write ((slice d.data d.writeTo len).map some)) .none).withQueue k m
        ({ d with writeTo := d.writeTo + len } :: l)).moverWrites k m i fuel := by
  obtain ⟨op, heq, -, hop⟩ := moverPiece_own (m := m) (draft := d.draft) (w := some (slice d.data d.writeTo len)) (len := len)
    (dest := .none) hr hc
  obtain rfl := hop _ rfl
  conv_lhs => unfold State.moverWrites
  simp only [hq, hslots, hpiece, heq]
  rw [if_neg (by omega)]
  exact congrArg (fun t => State.moverWrites t k m i fuel) (access_modHead hq _)

section Sound
variable (hf : (s.moverOf k m).fault = none)
include hf

theorem moverBegin_begun (h : d.staged.isSome = true) : s.moverBegin k m = s := by
  unfold State.moverBegin
  simp only [hf, hq]
  exact if_neg (by simpa [Option.isSome_iff_ne_none] using h)

theorem moverBegin_starts (h : d.staged = none) : s.moverBegin k m = s.moverStart k m d := by
  unfold State.moverBegin
  simp only [hf, hq]
  exact if_pos (by rw [h]; rfl)

/-- A mover whose source is outstanding waits for it. -/
theorem moverMove_waits {t : State} {e : MoveDesc} {q : List MoveDesc} (hi : s.swatchOf k = some i)
    (ht : s.moverReads k m i (pieceFuel d.rows d.rowBytes) = t)
    (htf : (t.moverOf k m).fault = none) (htq : (t.moverOf k m).queue = e :: q) (hready : t.moverReady k m e = false) :
    s.moverMove k m = t := by
  unfold State.moverMove
  simp only [hf, hq, hi, ht, htf, htq, hready]
  rfl

/-- A mover whose source has come sends the destination. -/
theorem moverMove_sends (hi : s.swatchOf k = some i) (hread : d.rows * d.rowBytes ≤ d.readTo)
    (hready : s.moverReady k m d = true) (hdst : d.dstFeed = false) :
    s.moverMove k m = s.moverWrites k m i (pieceFuel d.rows d.rowOut) := by
  unfold State.moverMove
  simp only [hf, hq, hi, moverReads_done hq hread, hready, hdst]
  rfl

theorem moverEnd_stays (h : (s.moverReady k m d && decide (d.data.length ≤ d.writeTo) && !s.moverBusy k m) = false) :
    s.moverEnd k m = s := by
  unfold State.moverEnd
  simp only [hf, hq]
  exact if_neg (by rw [h]; exact Bool.false_ne_true)

theorem moverEnd_pops (h : (s.moverReady k m d && decide (d.data.length ≤ d.writeTo) && !s.moverBusy k m) = true) :
    s.moverEnd k m = s.moverPop k m d := by
  unfold State.moverEnd
  simp only [hf, hq]
  exact if_pos h

end Sound
end Steps

/-! ### A faulted mover -/

section Faulted
variable {s : State} {k : Fin 16} {m : Fin 2}

theorem moverMove_faulted (h : (s.moverOf k m).fault.isSome = true) : s.moverMove k m = s := by
  obtain ⟨c, hc⟩ := Option.isSome_iff_exists.mp h
  unfold State.moverMove
  simp only [hc]

theorem moverEnd_faulted (h : (s.moverOf k m).fault.isSome = true) : s.moverEnd k m = s := by
  obtain ⟨c, hc⟩ := Option.isSome_iff_exists.mp h
  unfold State.moverEnd
  simp only [hc]

/-- A bad descriptor faults its mover. -/
theorem moverStart_bad {d : MoveDesc} (h : d.ok = false) : s.moverStart k m d = s.moverFault k m 1 0 := by
  unfold State.moverStart
  simp only [h, Bool.not_false, Bool.true_or]

/-- A good descriptor that is not carded and reads no feed buffer begins with nothing staged. -/
theorem moverStart_good {d : MoveDesc} (h : d.ok = true) (hcard : d.card = 0xFF) (hsrc : d.srcFeed = false) :
    s.moverStart k m d = s.modHead k m fun d => { d with staged := some [] } := by
  unfold State.moverStart
  simp [h, hcard, hsrc]

theorem moverFault_bad (s : State) (k : Fin 16) (m : Fin 2) : (s.moverFault k m 1 0).moverOf k m =
    { s.moverOf k m with fault := some 1, faultAddr := 0 } ∧ (s.moverFault k m 1 0).mem = s.mem := by
  have hside : ∀ t : State, t.faultSide (s.swatchOf k) 1 0 = t := fun t => rfl
  unfold State.moverFault
  rw [hside, moverWake_moverOf, moverOf_modMover, (moverWake_skeins _ k m).2.1]
  exact ⟨rfl, rfl⟩

end Faulted

/-! ### One row in one granule -/

/-- One piece is all of a row that crosses no granule. -/
theorem pieceAt_whole {row a : Nat} {addr : Nat → Nat} (ha : addr 0 = a) (h : a % 64 + row ≤ 64) :
    pieceAt row addr 0 = (a, row) := by
  unfold pieceAt
  simp only [Nat.zero_div, Nat.zero_mod, Nat.add_zero, Nat.sub_zero, ha]
  rw [Nat.min_eq_left (by omega)]

theorem srcRow_zero (d : MoveDesc) : d.srcRow 0 = d.u 0 8 := by
  have hlt : d.u 0 8 < 2 ^ 64 := leAt_lt d.bytes.toList 0 8
  unfold MoveDesc.srcRow
  rw [BitVec.mul_zero, BitVec.add_zero, BitVec.toNat_ofNat, Nat.mod_eq_of_lt hlt]

theorem dstRow_zero (d : MoveDesc) : d.dstRow 0 = d.u 8 8 := by
  have hlt : d.u 8 8 < 2 ^ 64 := leAt_lt d.bytes.toList 8 8
  unfold MoveDesc.dstRow
  rw [BitVec.mul_zero, BitVec.add_zero, BitVec.toNat_ofNat, Nat.mod_eq_of_lt hlt]

theorem ok_rowBytes {d : MoveDesc} (h : d.ok = true) : 0 < d.rowBytes := by
  obtain ⟨-, h32, -⟩ := of_decide_eq_true h
  omega

/-- The data of a descriptor that is not carded. -/
theorem data_length {d : MoveDesc} (h : d.carded = none) : d.data.length = d.rows * d.rowBytes := by
  unfold MoveDesc.data
  rw [h]
  exact memRead_length ..

section Done
variable {s : State} {k : Fin 16} {m : Fin 2} {i : Fin 8} {d : MoveDesc} {l : List MoveDesc}

theorem moverGo_runs (h : s.moverRuns k = true) : s.moverGo k m = (s.moverBegin k m).moverMove k m := if_pos h

/-- An access of a mover put beside its queue. -/
theorem access_withQueue {path : Path} {a : Nat} {op : AccOp} {dest : Dest} (p : List MoveDesc) :
    (s.moverAccess k m path a op dest).withQueue k m p = (s.withQueue k m p).moverAccess k m path a op dest := rfl

/-- A mover with a read outstanding is not ready to write. -/
theorem moverReady_reading {path : Path} {a len : Nat} {dest : Dest} (e : MoveDesc) :
    (s.moverAccess k m path a (.read len) dest).moverReady k m e = false := by
  have hslots : (s.moverAccess k m path a (.read len) dest).moverSlots k m true ≠ 0 := by
    rw [moverSlots_access, if_pos (show (AccOp.read len).isRead = true from rfl)]
    omega
  unfold State.moverReady
  rw [decide_eq_false hslots, Bool.and_false, Bool.false_and]

/-- A mover with no read outstanding is ready to write once its source has come and is not to be carded. -/
theorem moverReady_come (hslots : s.moverSlots k m true = 0) (hst : d.staged.isSome = true)
    (hread : d.rows * d.rowBytes ≤ d.readTo) (hcard : d.card = 0xFF) : s.moverReady k m d = true := by
  unfold State.moverReady
  rw [hst, hslots, hcard, decide_eq_true hread]
  rfl

section Head
variable (hf : (s.moverOf k m).fault = none) (hq : (s.moverOf k m).queue = d :: l) (hi : s.swatchOf k = some i)
  (hbusy : s.moverBusy k m = false)
include hf hq hi hbusy

/-- A head that has begun asks its bank for its row, and waits for it. -/
theorem moverMove_asks (h0 : d.readTo = 0) (hpos : 0 < d.rowBytes) (hrows : d.rows = 1) (hr : s.region (d.u 0 8) = .store k)
    (hc : (s.swatches[i]).covers k = true) (hfit : d.u 0 8 % 64 + d.rowBytes ≤ 64) :
    (s.moverMove k m).moverEnd k m = (s.withQueue k m ({ d with readTo := d.rowBytes } :: l)).moverAccess k m
      (.bank k (bankOf (d.u 0 8))) (d.u 0 8) (.read d.rowBytes) (.stage 0) := by
  have hmover : ((s.withQueue k m ({ d with readTo := d.rowBytes } :: l)).moverAccess k m (.bank k (bankOf (d.u 0 8)))
      (d.u 0 8) (.read d.rowBytes) (.stage 0)).moverOf k m =
      { s.moverOf k m with queue := { d with readTo := d.rowBytes } :: l } := withQueue_moverOf _
  have hqueue := congrArg Mover.queue hmover
  have hfault := (congrArg Mover.fault hmover).trans hf
  have hreads : s.moverReads k m i (pieceFuel d.rows d.rowBytes) = (s.withQueue k m ({ d with readTo := d.rowBytes } :: l)).moverAccess
      k m (.bank k (bankOf (d.u 0 8))) (d.u 0 8) (.read d.rowBytes) (.stage 0) := by
    have hpiece : pieceAt d.rowBytes d.srcRow d.readTo = (d.u 0 8, d.rowBytes) := by
      rw [h0]
      exact pieceAt_whole (srcRow_zero d) hfit
    refine (moverReads_asks hq (by rw [h0, hrows]; omega) (moverSlots_idle hbusy true) hpiece hr hc _).trans ?_
    rw [h0, Nat.zero_add, access_withQueue]
    exact moverReads_done hqueue (by change d.rows * d.rowBytes ≤ d.rowBytes; rw [hrows]; omega) _
  rw [moverMove_waits hq hf hi hreads hfault hqueue (moverReady_reading _)]
  exact moverEnd_stays hqueue hfault (by rw [moverReady_reading]; rfl)

/-- A head whose source has come sends its row to its bank, and waits for the acknowledgement. -/
theorem moverMove_writes (hst : d.staged.isSome = true) (hread : d.readTo = d.rowBytes) (hpos : 0 < d.rowBytes)
    (hcard : d.card = 0xFF) (hcarded : d.carded = none) (hrows : d.rows = 1) (hdst : d.dstFeed = false) (h0 : d.writeTo = 0)
    (hr : s.region (d.u 8 8) = .store k) (hc : (s.swatches[i]).covers k = true) (hfit : d.u 8 8 % 64 + d.rowBytes ≤ 64) :
    (s.moverMove k m).moverEnd k m = (s.withQueue k m ({ d with writeTo := d.rowBytes } :: l)).moverAccess k m
      (.bank k (bankOf (d.u 8 8))) (d.u 8 8) (.write (d.data.map some)) .none := by
  have hmover : ((s.withQueue k m ({ d with writeTo := d.rowBytes } :: l)).moverAccess k m (.bank k (bankOf (d.u 8 8)))
      (d.u 8 8) (.write (d.data.map some)) .none).moverOf k m =
      { s.moverOf k m with queue := { d with writeTo := d.rowBytes } :: l } := withQueue_moverOf _
  have hqueue := congrArg Mover.queue hmover
  have hfault := (congrArg Mover.fault hmover).trans hf
  have hlen : d.data.length = d.rowBytes := by rw [data_length hcarded, hrows, Nat.one_mul]
  have hall : d.rows * d.rowBytes ≤ d.readTo := by rw [hrows, hread]; omega
  have hwrites : s.moverWrites k m i (pieceFuel d.rows d.rowOut) = (s.withQueue k m ({ d with writeTo := d.rowBytes } :: l)).moverAccess
      k m (.bank k (bankOf (d.u 8 8))) (d.u 8 8) (.write (d.data.map some)) .none := by
    have hrow : d.rowOut = d.rowBytes := by
      unfold MoveDesc.rowOut
      rw [hlen, hrows, Nat.div_one]
    have hpiece : pieceAt d.rowOut d.dstRow d.writeTo = (d.u 8 8, d.rowBytes) := by
      rw [h0, hrow]
      exact pieceAt_whole (dstRow_zero d) hfit
    have hslice : slice d.data d.writeTo d.rowBytes = d.data := by
      unfold slice
      simp [h0, ← hlen]
    refine (moverWrites_sends hq (by rw [h0, hlen]; exact hpos) (moverSlots_idle hbusy false) hpiece hr hc _).trans ?_
    rw [hslice, h0, Nat.zero_add, access_withQueue]
    exact moverWrites_done hqueue hlen.le _
  rw [moverMove_sends hq hf hi hall (moverReady_come (moverSlots_idle hbusy true) hst hall hcard) hdst, hwrites]
  exact moverEnd_stays hqueue hfault (by rw [moverBusy_access, Bool.not_true, Bool.and_false])

end Head

/-! ### MOVER_DESCRIPTOR_DONE -/

section Done
variable (hf : (s.moverOf k m).fault = none) (hq : (s.moverOf k m).queue = d :: l) (hruns : s.moverRuns k = true)
include hf hq hruns

theorem moverDone_bad (hst : d.staged = none) (hok : d.ok = false) : moverDone k m s = s.moverFault k m 1 0 := by
  have hfault : ((s.moverFault k m 1 0).moverOf k m).fault.isSome = true := by rw [(moverFault_bad s k m).1]; rfl
  unfold moverDone
  rw [moverGo_runs hruns, moverBegin_starts hq hf hst, moverStart_bad hok, moverMove_faulted hfault, moverEnd_faulted hfault]

/-- A head that has begun goes on. -/
theorem moverDone_begun (hst : d.staged.isSome = true) : moverDone k m s = (s.moverMove k m).moverEnd k m := by
  unfold moverDone
  rw [moverGo_runs hruns, moverBegin_begun hq hf hst]

/-- A good head begins with nothing staged. -/
theorem moverDone_begins (hst : d.staged = none) (hok : d.ok = true) (hcard : d.card = 0xFF) (hsrc : d.srcFeed = false) :
    moverDone k m s = ((s.withQueue k m ({ d with staged := some [] } :: l)).moverMove k m).moverEnd k m := by
  unfold moverDone
  rw [moverGo_runs hruns, moverBegin_starts hq hf hst, moverStart_good hok hcard hsrc, modHead_eq hq]

end Done
end Done

end Sys2Proof.Machine
end

section
/-! SUPPORT. The end of a mover's descriptor (10 R265), and a mover's access at a bank (R260, R291). -/

namespace Sys2Proof.Machine
open Sys2Proof Sys2Proof.Safety

section Pop
variable {s : State} {k : Fin 16} {m : Fin 2} {i : Fin 8} {d : MoveDesc}

theorem newHead_empty (h : (s.moverOf k m).queue = []) : s.newHead k m = s := by
  unfold State.newHead
  rw [h]

/-- The last descriptor of a mover that has none after it: off the queue, with its signal's flag ADD. -/
theorem moverPop_last (hq : (s.moverOf k m).queue = [d]) (hi : s.swatchOf k = some i) :
    ((s.moverPop k m d).moverOf k m).queue = [] ∧ ((s.moverPop k m d).moverOf k m).fault = (s.moverOf k m).fault ∧
    (s.moverPop k m d).mem = s.mem ∧ (s.moverPop k m d).out = s.out ++ (if d.signal = true then
      [.flagOp ⟨k, (s.swatches[i]).home, i, .mover m, s.nextAccess⟩ .add (Fin.ofNat 64 (d.u 42 1)) (BitVec.ofNat 32 (d.u 44 4))]
      else []) := by
  unfold State.moverPop
  simp only [hi, Option.getD_some]
  generalize hsig : (if d.signal = true then _ else s : State) = t
  have ht : t.moverOf k m = s.moverOf k m ∧ t.mem = s.mem ∧ t.out = s.out ++ (if d.signal = true then
      [.flagOp ⟨k, (s.swatches[i]).home, i, .mover m, s.nextAccess⟩ .add (Fin.ofNat 64 (d.u 42 1)) (BitVec.ofNat 32 (d.u 44 4))]
      else []) := by
    subst hsig
    split
    · exact ⟨rfl, rfl, rfl⟩
    · exact ⟨rfl, rfl, (List.append_nil _).symm⟩
  obtain ⟨hmover, hmem, hout⟩ := ht
  have hdrop : (t.modMover k m fun x => { x with queue := x.queue.drop 1 }) = t.withQueue k m [] :=
    modMover_congr (by rw [hmover, hq]; rfl)
  have hempty : ((t.withQueue k m []).moverOf k m).queue = [] := congrArg Mover.queue (withQueue_moverOf _)
  obtain ⟨-, hwmem, hwout⟩ := moverWake_skeins (t.withQueue k m []) k m
  rw [hdrop, newHead_empty hempty, moverGo_empty hempty, hempty, if_pos List.isEmpty_nil, moverWake_moverOf, withQueue_moverOf,
    hmover, hwmem, hwout]
  exact ⟨rfl, rfl, hmem, hout⟩

/-- A head with every byte written is done. -/
theorem moverDone_pops (hf : (s.moverOf k m).fault = none) (hq : (s.moverOf k m).queue = [d]) (hruns : s.moverRuns k = true)
    (hi : s.swatchOf k = some i) (hbusy : s.moverBusy k m = false) (hst : d.staged.isSome = true)
    (hread : d.readTo = d.rows * d.rowBytes) (hcard : d.card = 0xFF) (hwrite : d.writeTo = d.data.length)
    (hdst : d.dstFeed = false) : moverDone k m s = s.moverPop k m d := by
  have hready : s.moverReady k m d = true := moverReady_come (moverSlots_idle hbusy true) hst hread.ge hcard
  rw [moverDone_begun hf hq hruns hst, moverMove_sends hq hf hi hread.ge hready hdst, moverWrites_done hq hwrite.ge]
  exact moverEnd_pops hq hf (by rw [hready, decide_eq_true hwrite.ge, hbusy]; rfl)

end Pop

/-! ### A mover's access at a bank -/

section Bank
variable {s : State} {k : Fin 16} {m : Fin 2} {i : Fin 8} {d : MoveDesc} {a : Access}

theorem bankTaken_moverOf (s : State) (k b : Fin 16) (bk : Bank) : (s.bankTaken k b bk).moverOf k m = s.moverOf k m := by
  unfold State.moverOf State.bankTaken State.noteBankWait State.useFree
  simp only [modSkein_skeins, Fin.getElem_fin, upd_get_same]

/-- A hold stops a mover where it stands (R291). -/
theorem moverGo_held (hi : s.swatchOf k = some i) (h : (s.swatches[i]).st = .held) : s.moverGo k m = s := by
  unfold State.moverGo State.moverRuns
  simp only [hi, h, ne_eq, not_true_eq_false, decide_false, Bool.and_false, Bool.false_eq_true, if_false]

section Answered
variable (hi : s.swatchOf k = some i) (hheld : (s.swatches[i]).st = .held)
  (hloads : ∀ p : Fin 10, (s.edgeCarders[p]).loads = [])
include hi hheld hloads

/-- With no card program waiting at an edge carder and the mover held, an answer is all that happens. -/
theorem answered_held : s.viewLoads.moverGo k m = s := by
  have hviews : s.viewLoads = s := loadsAt_none fun p _ => hloads p
  rw [hviews, moverGo_held hi hheld]

variable (hq : (s.moverOf k m).queue = [d]) (hwho : a.who = .mover k m) (hlive : a.live = true)
include hq hwho hlive

/-- A mover's read of good bytes stages them at their offset. -/
theorem bankServe_stages {len o : Nat} (hop : a.op = .read len) (hdest : a.dest = .stage o) (hbad : s.anyBad a.addr len = false) :
    (s.bankServe a).mem = s.mem ∧ ((s.bankServe a).moverOf k m).queue = [d.stage o (memRead s.mem a.addr len)] ∧
      (s.bankServe a).accesses = s.accesses.filter fun c => decide (c.id ≠ a.id) := by
  have key : s.bankServe a = (s.dropAccess a.id).withQueue k m [d.stage o (memRead s.mem a.addr len)] := by
    unfold State.bankServe
    simp only [hop, hwho, hbad, State.serve, Bool.false_eq_true, if_false]
    unfold State.finishMover
    simp only [hlive, Bool.not_true, Bool.false_eq_true, if_false, hdest, State.viewPart]
    rw [modHead_eq (s := s.dropAccess a.id) hq]
    exact answered_held (s := (s.dropAccess a.id).withQueue k m _) hi hheld hloads
  rw [key, withQueue_moverOf]
  exact ⟨rfl, rfl, rfl⟩

theorem bankServe_moverWrite {b : List (Option Byte)} (hop : a.op = .write b) (hdest : a.dest = .none) :
    (s.bankServe a).mem = (s.put a.addr b).mem ∧ ((s.bankServe a).moverOf k m).queue = [d] ∧
      (s.bankServe a).accesses = s.accesses.filter fun c => decide (c.id ≠ a.id) := by
  have key : s.bankServe a = (s.put a.addr b).dropAccess a.id := by
    unfold State.bankServe
    simp only [hop, hwho, State.serve]
    unfold State.finishMover
    simp only [hlive, Bool.not_true, Bool.false_eq_true, if_false, hdest, State.viewPart]
    exact answered_held (s := (s.put a.addr b).dropAccess a.id) hi hheld hloads
  rw [key]
  exact ⟨rfl, hq, rfl⟩

end Answered
end Bank

end Sys2Proof.Machine
end

section
open Sys2Proof Sys2Proof.Machine Sys2Proof.Safety

/-- Settles O20: the instructions by the state of the queue (`moveEnq_stalls` to `moveWait_waits`), a head by how far it has come
(`moverDone_bad`, `moverMove_asks`, `moverMove_writes`, `moverDone_pops`), an access at a bank by `bankServe_stages` and
`bankServe_moverWrite`. -/
theorem moverQueueAndCopy : Obligations.MoverQueueAndCopy := by
  unfold Obligations.MoverQueueAndCopy
  refine ⟨fun s n rd ra rb hi => ?_, fun s k m i d l p hf hq hruns hi hbusy => ⟨fun hst hok => ?_,
      fun hst h0 hok hcard hrows hsrc hr hc hfit => ?_, fun hst hread hok hcard hcarded hrows hdst h0 hr hc hfit => ?_,
      fun hst hread hcard hwrite hdst hl => ?_⟩,
    fun s k bank m i d a o len hp hmover hdrain hneedle hremote hwho hlive hloads hq hi hheld htripped => ?_⟩
  · have he : MayIssue s n 4 [rb] [ra] := mayIssue_fewer hi (by simp) (by simp)
    have hs : MayIssue s n 4 [rd, rb] [] := mayIssue_fewer hi (by simp) (by simp)
    have hw : MayIssue s n 4 [rb] [] := mayIssue_fewer hi (by simp) (by simp)
    refine ⟨fun h => congrArg _ (moveEnq_stalls he rfl h), fun h0 h => congrArg _ (moveEnq_appends he rfl h0 h), fun h => ?_,
      moveStatus_writes hs rfl, fun h => moveWait_goes hw rfl h, fun h0 h => moveWait_waits hw rfl h0 h⟩
    obtain ⟨t, ht, hpc, hlast, e, hqueue, hident⟩ := moveEnq_first he rfl h
    obtain ⟨hbytes, hrest⟩ := Prod.mk.inj hident
    obtain ⟨hk, hdraft⟩ := Prod.mk.inj hrest
    exact ⟨t, congrArg _ ht, hpc, hlast, e, hqueue, hbytes, hk, hdraft⟩
  · obtain ⟨hbad, hmem⟩ := moverFault_bad s k m
    refine ⟨_, congrArg Host.Outcome.next (moverDone_bad hf hq hruns hst hok), ?_, ?_, hmem⟩
    · rw [hbad]
    · rw [hbad]
      exact hq
  · have hmover := withQueue_moverOf (s := s) (k := k) (m := m) ({ d with staged := some [] } :: l)
    refine congrArg Host.Outcome.next ((moverDone_begins hf hq hruns hst hok hcard hsrc).trans ?_)
    refine (moverMove_asks (s := s.withQueue k m ({ d with staged := some [] } :: l)) ((congrArg Mover.fault hmover).trans hf)
      (congrArg Mover.queue hmover) hi hbusy h0 (ok_rowBytes hok) hrows hr hc hfit).trans ?_
    rw [withQueue_withQueue]
    rfl
  · exact congrArg Host.Outcome.next ((moverDone_begun hf hq hruns hst).trans
      (moverMove_writes hf hq hi hbusy hst hread (ok_rowBytes hok) hcard hcarded hrows hdst h0 hr hc hfit))
  · subst hl
    obtain ⟨hqueue, hfault, hmem, hout⟩ := moverPop_last hq hi
    exact ⟨_, congrArg Host.Outcome.next (moverDone_pops hf hq hruns hi hbusy hst hread hcard hwrite hdst), hqueue,
      hfault.trans hf, hmem, hout⟩
  · obtain ⟨bk, hgrant⟩ := bankGrant_serves hremote hp (g := 2) (by decide) hmover fun h hne => by
      match h with
      | 0 => exact hdrain
      | 1 => rfl
      | 2 => exact absurd rfl hne
      | 3 => exact hneedle
    obtain ⟨-, haccesses, hmem, -⟩ := bankTaken_frame s k bank bk
    have hq' : ((s.bankTaken k bank bk).moverOf k m).queue = [d] := by rw [bankTaken_moverOf, hq]
    refine ⟨fun hop hdest hbad => ?_, fun b hop hdest => ?_⟩
    · rw [← bankTaken_anyBad s k bank bk] at hbad
      obtain ⟨h1, h2, h3⟩ := bankServe_stages (s := s.bankTaken k bank bk) hi hheld hloads hq' hwho hlive hop hdest hbad
      rw [hmem] at h1 h2
      rw [haccesses] at h3
      exact ⟨_, congrArg Host.Outcome.next hgrant, h1, h2, h3⟩
    · obtain ⟨h1, h2, h3⟩ := bankServe_moverWrite (s := s.bankTaken k bank bk) hi hheld hloads hq' hwho hlive hop hdest
      rw [haccesses] at h3
      refine ⟨_, congrArg Host.Outcome.next hgrant, h2, h3, fun j => ?_⟩
      rw [h1, memGet_put, bankTaken_landing, hmem]
end
